-- ==== Sys2Proof/Syntax.lean ====
section
/-! DEFINITION. The commands of the block: one constructor per row of the spec's table, with the operands that the row's rule
names.  A unit is named by its number, a register write by its requester (R452) and the value written, a queue command by
the queue that executes it; what arrives from outside (a packet, a sample, a timer's end) by what it carries. -/
namespace Sys2Proof

/-- What a decoder reads from a bitstream's parameter sets (R123, R124), under ITU-T H.264 or H.265: the profile (0 Constrained
Baseline, 1 Main, 2 High, 3 H.265 Main, 4 H.265 Main 10, 5 any other), ten times the level, the luma bit depth, whether chroma is
4:2:0, whether the picture structure is progressive, whether it uses a tool outside the profile's accepted set or the High tier,
the cropped size, and whether that size is inside the level's limits. -/
structure Sps where
  profile : Nat
  level : Nat
  depth : Nat
  chroma420 : Bool
  progressive : Bool
  plainTools : Bool
  w : Nat
  h : Nat
  levelFits : Bool
  deriving DecidableEq, Repr

/-- The result of a decoder on an access unit: a picture with its parameter set, its place in output order, its luma samples row by
row and how many pictures the standard's output process then outputs; or a syntax error. -/
inductive Decoded where
  | picture (sps : Sps) (order : Int) (luma : List Nat) (outs : Nat)
  | corrupt
  deriving DecidableEq, Repr

/-- What an emergence meets (R46 to R48, R314): the regulators pass E1; how often the root PLL fails to lock in E2; the elements whose SRAM
fails in E4, as kind (0 tile, 1 core, 2 attention unit, 3 commons unit, 4 queue engine, 5 record emitter) and number; the channels
that fail training in E5, with their cause (4 TRAIN, 5 STACK). -/
structure Emerge where
  railsOk : Bool
  pllFails : Nat
  sram : List (Nat × Nat)
  hbm : List (Nat × Nat)
  deriving DecidableEq, Repr

/-- The commands. -/
inductive Instr where
  /-- OPEN (R31). -/
  | openItem (q : Fin 2048)
  /-- SET_DEADLINE (R32). -/
  | setDeadline (q : Fin 2048)
  /-- SEAL_NOW (R31). -/
  | sealNow (q : Fin 2048)
  /-- SET_FALLBACK (R31). -/
  | setFallback (q : Fin 2048)
  /-- MILESTONE_PASS (R20). -/
  | milestonePass (id : DWord) (k : Fin 5)
  /-- URGENCY_CHANGE (R21). -/
  | urgencyChange (id : DWord)
  /-- SEAL_DEADLINE (R23). -/
  | sealDeadline (id : DWord)
  /-- LATE_LIMIT (R29). -/
  | lateLimit (id : DWord)
  /-- RECORD_EGRESS (R26). -/
  | recordEgress (d : Fin 8)
  /-- PROFILE_COMMIT (R33). -/
  | profileCommit (req : BitVec 16) (v : Word)
  /-- PROFILE_LOAD (R33). -/
  | profileLoad (req : BitVec 16) (v : Word)
  /-- SLEW_DUE (R38). -/
  | slewDue
  /-- SLEW_APPLY (R37). -/
  | slewApply
  /-- TB_LO_READ (R39). -/
  | tbLoRead (req : BitVec 16)
  /-- TB_RATE_WRITE (R38). -/
  | tbRateWrite (v : Word)
  /-- TB_SLEW_WRITE (R38). -/
  | tbSlewWrite (v : Word)
  /-- CALENDAR_SECOND (R45). -/
  | calendarSecond
  /-- TRIM_PERIOD (R42). -/
  | trimPeriod
  /-- TRIM_WRITE (R42). -/
  | trimWrite (v : Word)
  /-- CAL_SET (R43). -/
  | calSet (v : Word)
  /-- CAL_SET_TICK (R43). -/
  | calSetTick
  /-- CAPTURE (R45). -/
  | calCapture (v : Word)
  /-- CAPTURE_TICK (R45). -/
  | captureTick
  /-- CAL_SEC_LO_READ (R44). -/
  | calSecLoRead (req : BitVec 16)
  /-- BACKUP_LOST (R41). -/
  | backupLost
  /-- POWER_ON (R46). -/
  | powerOn (env : Emerge)
  /-- POWER_LOSS (R49). -/
  | powerLoss
  /-- DEVICE_RESET (R456). -/
  | deviceReset (req : BitVec 16) (v : Word) (env : Emerge)
  /-- HOST_LOST (R409). -/
  | hostLost (env : Emerge)
  /-- HOST_UP (R409). -/
  | hostUp (speed : Fin 8) (width : Fin 32)
  /-- WARDEN_WATCHDOG (R280). -/
  | wardenWatchdog
  /-- CFG_PROGRAM (R53). -/
  | cfgProgram (req : BitVec 16) (v : Word)
  /-- CFG_PROGRAM_DONE (R53). -/
  | cfgProgramDone (good : Bool)
  /-- FORCE_CHRYSALIS (R53). -/
  | forceChrysalis (req : BitVec 16) (v : Word)
  /-- REGISTER_WRITE (R67). -/
  | registerWrite (req : BitVec 16) (a : BitVec 26) (v : Word)
  /-- UNMAPPED_ACCESS (R57). -/
  | unmappedAccess (req : BitVec 16) (write : Bool) (a : BitVec 26) (n : Fin 65)
  /-- LOCK_WRITE (R59). -/
  | lockWrite (req : BitVec 16) (page : BitVec 14) (v : Word)
  /-- EVT_STS_WRITE (R63). -/
  | evtStsWrite (req : BitVec 16) (page : BitVec 14) (v : Word)
  /-- EVT_EN_WRITE (R63). -/
  | evtEnWrite (req : BitVec 16) (page : BitVec 14) (v : Word)
  /-- EVT_FORCE (R63). -/
  | evtForce (req : BitVec 16) (page : BitVec 14) (v : Word)
  /-- HOLDOFF_EXPIRY (R64). -/
  | holdoffExpiry (c : Fin 256)
  /-- EVT_CHAN_CFG_WRITE (R64). -/
  | evtChanCfgWrite (v : Word)
  /-- SNAP_ARM (R69). -/
  | snapArm (v : Word)
  /-- SNAP_TAKE (R70). -/
  | snapTake
  /-- SNAP_CANCEL (R72). -/
  | snapCancel (v : Word)
  /-- PORT_ENABLE (R80). -/
  | portEnable (req : BitVec 16) (p : Fin 4) (v : Word)
  /-- PORT_DISABLE (R80). -/
  | portDisable (req : BitVec 16) (p : Fin 4) (v : Word)
  /-- PORT_FMT_WRITE (R76). -/
  | portFmtWrite (req : BitVec 16) (p : Fin 4) (v : Word)
  /-- LANE_LOCK (R74). -/
  | laneLock (p : Fin 4) (lane : Fin 16)
  /-- LANE_LOCK_LOSS (R74). -/
  | laneLockLoss (p : Fin 4) (lane : Fin 16)
  /-- ALIGN (R77). -/
  | align (p : Fin 4) (slots : List Nat)
  /-- LINE_START (R86). -/
  | lineStart (p : Fin 4) (num : BitVec 16) (colours : BitVec 2) (slots : List Nat)
  /-- COLOUR_START (R75). -/
  | colourStart (p : Fin 4) (c : BitVec 2) (pixels : BitVec 15)
  /-- DATA_BLOCK (R75). -/
  | dataBlock (p : Fin 4) (lane : Fin 16) (w : DWord)
  /-- LINE_END (R86). -/
  | lineEnd (p : Fin 4) (num : BitVec 16) (crcs : List Word)
  /-- REG_REPLY (R81). -/
  | regReply (p : Fin 4) (tag status : Byte) (data : Word)
  /-- LINE_CLOCK (R82). -/
  | lineClock (p : Fin 4)
  /-- EXP_ON (R82). -/
  | expOn (p : Fin 4) (c : Fin 3)
  /-- EXP_OFF (R82). -/
  | expOff (p : Fin 4) (c : Fin 3)
  /-- STROBE_ON (R83). -/
  | strobeOn (p : Fin 4) (c : Fin 3)
  /-- STROBE_OFF (R83). -/
  | strobeOff (p : Fin 4) (c : Fin 3)
  /-- STEP_RISE (R84). -/
  | stepRise (p : Fin 4)
  /-- STEP_FALL (R84). -/
  | stepFall (p : Fin 4)
  /-- REG_WRITE (R81). -/
  | regWrite (p : Fin 4)
  /-- REG_READ (R81). -/
  | regRead (p : Fin 4)
  /-- REG_TIMEOUT (R81). -/
  | regTimeout (p : Fin 4)
  /-- APPLY (R85). -/
  | applyTiming (p : Fin 4)
  /-- COEF_LOAD (R90). -/
  | coefLoad (p : Fin 4)
  /-- COEF_LOAD_DONE (R90). -/
  | coefLoadDone (p : Fin 4)
  /-- SWAP (R90). -/
  | swap (req : BitVec 16) (p : Fin 4) (v : Word)
  /-- ARCH_LINES_WRITE (R94). -/
  | archLinesWrite (req : BitVec 16) (p : Fin 4) (v : Word)
  /-- CAL_START (R95). -/
  | calStart (req : BitVec 16) (p : Fin 4) (v : Word)
  /-- STRIPE_LAND (R110). -/
  | stripeLand (p : Fin 4)
  /-- STRIPE_HAND (R110). -/
  | stripeHand (p : Fin 4)
  /-- STEER_POST (R111). -/
  | steerPost (p : Fin 4) (v : Word)
  /-- CTX_COMMIT (R114). -/
  | ctxCommit (v : Word)
  /-- CTX_LOAD (R113). -/
  | ctxLoad (v : Word)
  /-- RTP_PACKET (R117). -/
  | rtpPacket (eth : Fin 2) (src : List Byte) (port : BitVec 16) (payload : List Byte)
  /-- GAP_LOSS (R118). -/
  | gapLoss (c : Fin 1024)
  /-- STREAM_LOST (R121). -/
  | streamLost (c : Fin 1024)
  /-- DECODE_START (R125). -/
  | decodeStart
  /-- PICTURE_DECODED (R126). -/
  | pictureDecoded (c : Fin 1024) (r : Decoded)
  /-- CREATE (R131). -/
  | createEspot (q : Fin 2048)
  /-- UPDATE (R131). -/
  | updateEspot (q : Fin 2048)
  /-- MISS (R131). -/
  | missEspot (q : Fin 2048)
  /-- CAPTURED (R131). -/
  | capturedEspot (q : Fin 2048)
  /-- ESPOT_RETIRE (R131). -/
  | espotRetire (q : Fin 2048)
  /-- FRAME_DONE (R131). -/
  | frameDone (q : Fin 2048)
  /-- REREAD (R135). -/
  | reread (q : Fin 2048)
  /-- SAMPLE_PRODUCED (R134). -/
  | sampleProduced (c : Fin 1024) (ssn : Word)
  /-- SAMPLE_RELEASE (R140). -/
  | sampleRelease (c : Fin 1024)
  /-- BATCH_WAIT_EXPIRY (R137). -/
  | batchWaitExpiry (part : Fin 9) (bucket : Fin 5)
  /-- CNT_COPIED (R141). -/
  | cntCopied
  /-- NOP (R152). -/
  | tileNop (t : Fin 160)
  /-- SETI (R152). -/
  | seti (t : Fin 160)
  /-- ADDI (R152). -/
  | addi (t : Fin 160)
  /-- BNZ (R152). -/
  | bnz (t : Fin 160)
  /-- DEQ (R152). -/
  | deq (t : Fin 160)
  /-- RETIRE (R170). -/
  | retire (t : Fin 160)
  /-- SYNC (R152). -/
  | sync (t : Fin 160)
  /-- END (R152). -/
  | tileEnd (t : Fin 160)
  /-- MATMUL (R153). -/
  | matmul (t : Fin 160)
  /-- CONV (R155). -/
  | conv (t : Fin 160)
  /-- PWISE (R165). -/
  | pwise (t : Fin 160)
  /-- NORM (R167). -/
  | tileNorm (t : Fin 160)
  /-- LOAD (R160). -/
  | tileLoad (t : Fin 160)
  /-- STORE (R160). -/
  | tileStore (t : Fin 160)
  /-- HSEND (R163). -/
  | hsend (t : Fin 160)
  /-- HRECV (R163). -/
  | hrecv (t : Fin 160)
  /-- INSTRUCTION_COMPLETE (R148). -/
  | instructionComplete (t : Fin 160) (u : Fin 5)
  /-- QUEUE_PORT_WRITE (R168). -/
  | queuePortWrite (t : Fin 160) (data : List Byte)
  /-- TILE_START (R177). -/
  | tileStart (t : Fin 160) (v : Word)
  /-- TILE_STOP (R173). -/
  | tileStop (t : Fin 160) (v : Word)
  /-- CODEC_CLR (R176). -/
  | codecClr (t : Fin 160) (v : Word)
  /-- SEM_POST (R149). -/
  | semPost (t : Fin 160) (sem : Fin 16)
  /-- DET_DONE (R171). -/
  | detDone (t : Fin 160) (v : Word)
  /-- SEQ_OPEN (R199). -/
  | seqOpen (q : Fin 2048)
  /-- SEQ_END (R200). -/
  | seqEnd (q : Fin 2048)
  /-- PFX_ACQUIRE (R206). -/
  | pfxAcquire (q : Fin 2048)
  /-- PFX_RELEASE (R208). -/
  | pfxRelease (q : Fin 2048)
  /-- STEP_OPEN (R214). -/
  | stepOpen (q : Fin 2048)
  /-- ATTEND (R216). -/
  | attend (q : Fin 2048)
  /-- VERIFY (R218). -/
  | verify (q : Fin 2048)
  /-- POST_PORT (R226). -/
  | postPort (u : Fin 8) (data : List Byte)
  /-- AU_SEM_POST (R226). -/
  | auSemPost (u : Fin 8) (v : Word)
  /-- AU_ENABLE (R227). -/
  | auEnable (req : BitVec 16) (u : Fin 8) (v : Word)
  /-- AU_DISABLE (R227). -/
  | auDisable (req : BitVec 16) (u : Fin 8) (v : Word)
  /-- VOC_LOAD (R229). -/
  | vocLoad (q : Fin 2048)
  /-- VOC_UNLOAD (R253). -/
  | vocUnload (q : Fin 2048)
  /-- NORM_LOAD (R230). -/
  | normLoad (q : Fin 2048)
  /-- NORM_UNLOAD (R253). -/
  | normUnload (q : Fin 2048)
  /-- GRM_LOAD (R238). -/
  | grmLoad (q : Fin 2048)
  /-- GRM_UNLOAD (R253). -/
  | grmUnload (q : Fin 2048)
  /-- LEX_REGISTER (R239). -/
  | lexRegister (q : Fin 2048)
  /-- LEX_UNREGISTER (R253). -/
  | lexUnregister (q : Fin 2048)
  /-- TOKENIZE (R235). -/
  | tokenize (q : Fin 2048)
  /-- GCTX_OPEN (R241). -/
  | gctxOpen (q : Fin 2048)
  /-- GCTX_CLOSE (R248). -/
  | gctxClose (q : Fin 2048)
  /-- ADVANCE (R250). -/
  | advance (q : Fin 2048)
  /-- MASK (R250). -/
  | grmMask (q : Fin 2048)
  /-- CHECK (R250). -/
  | grmCheck (q : Fin 2048)
  /-- DRAFT (R245). -/
  | draft (ctx : Fin 32768)
  /-- GRM_DONE (R251). -/
  | grmDone (v : Word)
  /-- TGU_ENABLE (R254). -/
  | tguEnable (v : Word)
  /-- TGU_DISABLE (R254). -/
  | tguDisable (v : Word)
  /-- HART_INSTRUCTION (R259). -/
  | hartInstruction (h : Fin 49152)
  /-- HART_LOAD (R261). -/
  | hartLoad (h : Fin 49152)
  /-- HART_STORE (R261). -/
  | hartStore (h : Fin 49152)
  /-- AMO (R270). -/
  | amo (h : Fin 49152)
  /-- LR (R270). -/
  | lr (h : Fin 49152)
  /-- SC (R270). -/
  | sc (h : Fin 49152)
  /-- FENCE (R267). -/
  | fence (h : Fin 49152)
  /-- FENCE_I (R269). -/
  | fenceI (h : Fin 49152)
  /-- XFENCE (R267). -/
  | xfence (h : Fin 49152)
  /-- XPARK (R275). -/
  | xpark (h : Fin 49152)
  /-- WRS (R270). -/
  | wrs (h : Fin 49152)
  /-- WRS_STO_TIMEOUT (R270). -/
  | wrsStoTimeout (h : Fin 49152)
  /-- URG_WRITE (R256). -/
  | urgWrite (h : Fin 49152)
  /-- PEERR_WRITE (R260). -/
  | peerrWrite (h : Fin 49152)
  /-- MEVTQ_READ (R276). -/
  | mevtqRead (h : Fin 49152)
  /-- SATP_WRITE (R262). -/
  | satpWrite (h : Fin 49152)
  /-- VS_WRITE (R257). -/
  | vsWrite (h : Fin 49152)
  /-- VECTOR_INSTRUCTION (R257). -/
  | vectorInstruction (h : Fin 49152)
  /-- MTIMER (R276). -/
  | mtimer (h : Fin 49152)
  /-- CORE_LAUNCH (R274). -/
  | coreLaunch (c : Fin 96) (r : BitVec 512) (whole : Bool)
  /-- IPI (R276). -/
  | ipi (v : Word)
  /-- FW_READY (R278). -/
  | fwReady (req : BitVec 16) (v : Word)
  /-- FW_READY_TIMEOUT (R278). -/
  | fwReadyTimeout
  /-- FW_BOOT (R279). -/
  | fwBoot (req : BitVec 16) (v : Word)
  /-- FW_PROGRAM (R279). -/
  | fwProgram (req : BitVec 16) (v : Word)
  /-- FW_PROGRAM_DONE (R279). -/
  | fwProgramDone (good : Bool)
  /-- WARDEN_BRIDGE_TIMEOUT (R280). -/
  | wardenBridgeTimeout (write : Bool) (a : BitVec 48)
  /-- ASM_DONE (R282). -/
  | asmDone (v : Word)
  /-- RECORD_COMMIT (R285). -/
  | recordCommit (data : List Byte)
  /-- DEST_LOAD (R296). -/
  | destLoad (v : Word)
  /-- SERVICE_START (R305). -/
  | serviceStart (fetched : Bool)
  /-- STATUS_RECORD (R295). -/
  | statusRecord
  /-- MGMT_REQUEST (R408). -/
  | mgmtRequest (eth : Fin 2) (frame : List Byte) (fetched : Bool)
  /-- COMMONS_ACCESS (R307). -/
  | commonsAccess (req : BitVec 16) (write : Bool) (a : BitVec 48) (mask : BitVec 64) (data : List Byte) (err : Fin 3)
  /-- MC_ACCEPT (R319). -/
  | mcAccept (cls : Fin 16) (port : BitVec 16) (urg : Fin 4) (write : Bool) (a : BitVec 48) (mask : BitVec 64) (data : List Byte)
  /-- MC_ISSUE (R320). -/
  | mcIssue (q : Fin 64) (banks : BitVec 48)
  /-- MC_READ_RETURN (R325). -/
  | mcReadReturn (q : Fin 64) (outcome : Fin 3) (syn : BitVec 16)
  /-- WRITE_PARITY_REPORT (R311). -/
  | writeParityReport (q : Fin 64) (a : BitVec 48) (cls : Fin 16) (port : BitVec 16) (second : Bool)
  /-- CA_PARITY (R328). -/
  | caParity (q : Fin 64)
  /-- REFRESH (R315). -/
  | refresh (q : Fin 64) (b : Fin 48)
  /-- HBM_TEMP_READ (R315). -/
  | hbmTempRead (stack : Fin 2) (temp : Byte)
  /-- RETRAIN_DUE (R316). -/
  | retrainDue (q : Fin 64)
  /-- RETRAIN_PAUSE (R317). -/
  | retrainPause (q : Fin 64)
  /-- RETRAIN_PAUSE_END (R318). -/
  | retrainPauseEnd (q : Fin 64) (ok : Bool)
  /-- ROW_IDLE_CLOSE (R323). -/
  | rowIdleClose (q : Fin 64) (b : Fin 48)
  /-- RH_WINDOW (R324). -/
  | rhWindow (q : Fin 64)
  /-- SCRUB (R326). -/
  | scrub (a : BitVec 48) (outcome : Fin 3) (syn : BitVec 16)
  /-- CH_RELEASE (R330). -/
  | chRelease (req : BitVec 16) (q : Fin 64) (v : Word)
  /-- CH_RELEASE_CLEAR (R330). -/
  | chReleaseClear (req : BitVec 16) (q : Fin 64) (v : Word)
  /-- CH_RELEASE_DONE (R330). -/
  | chReleaseDone (q : Fin 64) (ok : Bool)
  /-- PCMD_CREATE (R342). -/
  | pcmdCreate (req : BitVec 16) (v : Word)
  /-- PCMD_DESTROY (R344). -/
  | pcmdDestroy (req : BitVec 16) (v : Word)
  /-- PCMD_RESET (R344). -/
  | pcmdReset (req : BitVec 16) (v : Word)
  /-- PCMD_DONE (R343). -/
  | pcmdDone
  /-- TILE_PLACEMENT (R348). -/
  | tilePlacement (p : Fin 8) (v : Fin 16) (data : List Byte)
  /-- PARTITION_LAUNCH (R349). -/
  | partitionLaunch (p : Fin 8) (v : Fin 16) (r : BitVec 512) (whole : Bool)
  /-- QUANTUM_EXPIRY (R350). -/
  | quantumExpiry (p : Fin 8)
  /-- DRAIN_LIMIT (R356). -/
  | drainLimit (p : Fin 8)
  /-- YIELD_LIMIT (R357). -/
  | yieldLimit (p : Fin 8)
  /-- TRANSFER_DONE (R358). -/
  | transferDone (p : Fin 8)
  /-- ADAPT_RELEASE (R359). -/
  | adaptRelease (p : Fin 8) (v : Word)
  /-- ADAPT_PASS (R360). -/
  | adaptPass (p : Fin 8)
  /-- VI_START (R354). -/
  | viStart (p : Fin 8)
  /-- VI_START_CHECK (R354). -/
  | viStartCheck (p : Fin 8) (v : Fin 16)
  /-- VI_RESET (R362). -/
  | viReset (req : BitVec 16) (p : Fin 8) (w : Word)
  /-- RESET_CUTOFF (R363). -/
  | resetCutoff (p : Fin 8) (v : Fin 16)
  /-- VI_RESET_DONE (R363). -/
  | viResetDone (p : Fin 8) (v : Fin 16)
  /-- KL_ENABLE (R389). -/
  | klEnable (req : BitVec 16) (v : Word)
  /-- KL_DISABLE (R389). -/
  | klDisable (req : BitVec 16) (v : Word)
  /-- LINK_ENABLE (R367). -/
  | linkEnable (req : BitVec 16) (l : Fin 8) (v : Word)
  /-- LINK_DISABLE (R367). -/
  | linkDisable (req : BitVec 16) (l : Fin 8) (v : Word)
  /-- LINK_TRAINED (R367). -/
  | linkTrained (l : Fin 8)
  /-- LINK_TRAIN_TIMEOUT (R367). -/
  | linkTrainTimeout (l : Fin 8)
  /-- LINK_FAIL (R373). -/
  | linkFail (l : Fin 8) (laneLost : Bool)
  /-- BAD_FLIT (R372). -/
  | badFlit (l : Fin 8) (flit : List Byte)
  /-- WR (R376). -/
  | wr (l : Fin 8) (flit : List Byte)
  /-- RD_REQ (R376). -/
  | rdReq (l : Fin 8) (flit : List Byte)
  /-- RD_RSP (R376). -/
  | rdRsp (l : Fin 8) (flit : List Byte)
  /-- CMPL (R376). -/
  | cmpl (l : Fin 8) (flit : List Byte)
  /-- NAK (R372). -/
  | nak (l : Fin 8) (flit : List Byte)
  /-- NULL (R372). -/
  | nullFlit (l : Fin 8) (flit : List Byte)
  /-- NULL_TIMER (R372). -/
  | nullTimer (l : Fin 8)
  /-- BEACON (R379). -/
  | beacon (l : Fin 8) (flit : List Byte)
  /-- BEACON_TIMER (R370). -/
  | beaconTimer
  /-- REPORT (R370). -/
  | report (l : Fin 8) (flit : List Byte)
  /-- ELECT_QUIET (R379). -/
  | electQuiet
  /-- PLAN (R379). -/
  | plan (l : Fin 8) (flit : List Byte)
  /-- ROUTES (R377). -/
  | routes (l : Fin 8) (flit : List Byte)
  /-- ROUTE_ACT (R377). -/
  | routeAct
  /-- SYNC_FLIT (R383). -/
  | syncFlit (l : Fin 8) (flit : List Byte)
  /-- SYNC_TIMER (R383). -/
  | syncTimer
  /-- HEARTBEAT (R370). -/
  | heartbeat (l : Fin 8) (flit : List Byte)
  /-- HEARTBEAT_TIMER (R422). -/
  | heartbeatTimer
  /-- LINK_EVENT (R386). -/
  | linkEvent (l : Fin 8) (flit : List Byte)
  /-- LOST (R386). -/
  | lost (l : Fin 8) (flit : List Byte)
  /-- READY (R379). -/
  | readyFlit (l : Fin 8) (flit : List Byte)
  /-- PEER_TIMEOUT (R376). -/
  | peerTimeout (tid : BitVec 16)
  /-- SPLIT_TIMEOUT (R388). -/
  | splitTimeout
  /-- SHADOW_OPEN (R385). -/
  | shadowOpen (data : List Byte)
  /-- SHADOW_CLOSE (R385). -/
  | shadowClose (data : List Byte)
  /-- QUEUE_CREATE (R395). -/
  | queueCreate (req : BitVec 16) (v : Word)
  /-- QUEUE_DESTROY (R395). -/
  | queueDestroy (req : BitVec 16) (v : Word)
  /-- TAIL_DOORBELL (R402). -/
  | tailDoorbell (fn : Option (Fin 129)) (n : Fin 2048) (v : Word) (whole : Bool)
  /-- CQ_HEAD_DOORBELL (R402). -/
  | cqHeadDoorbell (fn : Option (Fin 129)) (n : Fin 2048) (v : Word) (whole : Bool)
  /-- RECORD_HEAD_DOORBELL (R402). -/
  | recordHeadDoorbell (fn : Option (Fin 129)) (n : Fin 512) (v : Word) (whole : Bool)
  /-- CMD_FETCH (R399). -/
  | cmdFetch (q : Fin 2048)
  /-- COPY (R404). -/
  | copy (q : Fin 2048)
  /-- SEND (R405). -/
  | send (q : Fin 2048)
  /-- MGMT (R408). -/
  | mgmt (q : Fin 2048) (fetched : Bool)
  /-- COAL_TIMER (R401). -/
  | coalTimer (record : Bool) (q : Fin 2048)
  /-- ETH_FRAME_RX (R407). -/
  | ethFrameRx (port : Fin 2) (frame : List Byte) (fcsOk : Bool) (mcast : Bool)
  /-- NET_LINK (R410). -/
  | netLink (port : Fin 2) (isUp : Bool)
  /-- VF_FLR (R409). -/
  | vfFlr (f : Fin 129)
  /-- MSIX_UNMASK (R394). -/
  | msixUnmask (f : Fin 129) (vector : Option (Fin 2048))
  /-- MONITOR_SAMPLE (R411). -/
  | monitorSample (temps : List (BitVec 16)) (volts : List (BitVec 16))
  /-- THERMAL_TRIP (R415). -/
  | thermalTrip (site : Fin 24) (t : BitVec 16)
  /-- THERMAL_RECOVERY (R415). -/
  | thermalRecovery (env : Emerge)
  /-- PROC_SAMPLE (R413). -/
  | procSample (counts : List (BitVec 16))
  /-- RAIL_WARN (R412). -/
  | railWarn (m : Fin 16) (mv : BitVec 16)
  /-- RAIL_FAULT (R416). -/
  | railFault (m : Fin 16) (mv : BitVec 16)
  /-- RAIL_FAULT_RESET (R416). -/
  | railFaultReset (env : Emerge)
  /-- ROOT_PLL_LOSS (R454). -/
  | rootPllLoss
  /-- PLL_LOSS_RESET (R454). -/
  | pllLossReset (env : Emerge)
  /-- ALIVE (R422). -/
  | alive
  /-- ALIVE_MISS (R422). -/
  | aliveMiss (env : Emerge)
  /-- FENCE_ELEMENT (R419). -/
  | fenceElement (req : BitVec 16) (v : Word)
  /-- UNFENCE_ELEMENT (R419). -/
  | unfenceElement (req : BitVec 16) (v : Word)
  /-- SELF_TEST_DONE (R419). -/
  | selfTestDone (pass : Bool)
  /-- SAFE_ENTER (R427). -/
  | safeEnter (req : BitVec 16) (v : Word)
  /-- SAFE_LEAVE (R427). -/
  | safeLeave (req : BitVec 16) (v : Word)
  /-- FLOG_SELECT (R425). -/
  | flogSelect (v : Word)
  /-- FLOG_LOAD_DONE (R425). -/
  | flogLoadDone
  /-- FLOG_COMMIT (R423). -/
  | flogCommit (fseq : Word)
  /-- FLOG_ERASE (R423). -/
  | flogErase (req : BitVec 16) (v : Word)
  /-- FLOG_ERASE_DONE (R423). -/
  | flogEraseDone
  /-- PIN_FUNC_WRITE (R436). -/
  | pinFuncWrite (req : BitVec 16) (n : Fin 32) (v : Word)
  /-- PIN_HOLD_END (R436). -/
  | pinHoldEnd (n : Fin 32)
  /-- GPIO_SET (R445). -/
  | gpioSet (v : Word)
  /-- GPIO_CLR (R445). -/
  | gpioClr (v : Word)
  /-- INPUT_CROSS (R437). -/
  | inputCross (n : Fin 36) (active : Bool)
  /-- ALERT_SAMPLE (R441). -/
  | alertSample
  /-- ALERT_MODE_WRITE (R442). -/
  | alertModeWrite (req : BitVec 16) (v : Word)
  /-- OVERCURRENT (R443). -/
  | overcurrent
  /-- TRIP_RETRY (R443). -/
  | tripRetry
  /-- ALERT_CLEAR (R444). -/
  | alertClear (req : BitVec 16) (v : Word)
  /-- JTAG_RESET (R439). -/
  | jtagReset
  /-- BYPASS (R439). -/
  | jtagBypass
  /-- IDCODE (R439). -/
  | idcode
  /-- SAMPLE_PRELOAD (R439). -/
  | samplePreload (d : BitVec 57)
  /-- EXTEST (R439). -/
  | extest (d : BitVec 57)
  /-- CLAMP (R439). -/
  | clamp
  /-- HIGHZ (R439). -/
  | highz
  /-- CALENDAR_TICK (R42). -/
  | calendarTick
  /-- INVALID_HEADER (R74). -/
  | invalidHeader (p : Fin 4)
  /-- TRAINING_RETRY (R367). -/
  | trainingRetry (l : Fin 8)
  /-- BUNDLE_RETRY (R305). -/
  | bundleRetry (fetched : Bool)
  /-- LOST_STREAM_SETUP (R305). -/
  | lostStreamSetup (c : Fin 1024)
  /-- PRESENCE_CHANGE (R410). -/
  | presenceChange (port : Fin 2) (present : Bool)
  /-- CONFIG_SPACE_WRITE (R393). -/
  | configSpaceWrite (f : Fin 129) (field : Fin 10) (n : Fin 2048) (v : Word)
  deriving DecidableEq, Repr

end Sys2Proof
end

