-- ==== Sys2Proof/Config.lean ====
section
/-! DEFINITION. What an implementation fixes and the spec leaves open: opaque constants, of which nothing can be proved
(log entry 2).  A free value is one of these applied to the model's own counter `State.free` or to the operands. -/
namespace Sys2Proof.Config

/-- The n-th free 32-bit value: a value the spec leaves open. -/
opaque freeWord : Nat → Word

/-- The n-th free 64-bit value. -/
opaque freeDWord : Nat → DWord

/-- The n-th free byte. -/
opaque freeByte : Nat → Byte

/-- Sign and low payload bits of the NaN that an operation on these operand bits gives, where a rule says only that the result is a
NaN. -/
opaque nanBits : Nat → Nat → Nat

/-- Results of the functions whose value on these operands the spec leaves open: a maximum with a NaN or of two zeros of different
sign, and a table lookup at an argument that is not a number. -/
opaque openMax : Nat → Nat → Word
opaque openFunc : Nat → Word

/-- The hash-table bucket of a prefix hash among 2^n buckets (R206), which the spec does not give. -/
opaque bucket : Nat → Nat → Nat

/-- Whether the Ed25519 signature of a firmware image (header and body) verifies against the fused key (R277), which the spec does not
give. -/
opaque sigValid : Bytes → Bytes → Bool

/-- The module's 64-bit serial (R378: factory value). -/
opaque serial : DWord

/-- The factory MAC address of Ethernet port n, 48 bits (R410). -/
opaque factoryMac : Nat → BitVec 48

/-- Skozador's JEP106 identity in the JTAG IDCODE (R439), 11 bits. -/
opaque jep106 : BitVec 11

/-! Where the RISC-V specifications leave a fabric hart's behaviour to the implementation (R259). -/

/-- mvendorid, marchid, mimpid and mconfigptr, by CSR number. -/
opaque idCsr : Nat → DWord

/-- Whether a trap with this cause writes the address or the instruction in its xtval; zero where not. -/
opaque tvalShown : Nat → Bool

/-- vl for an AVL between VLMAX and twice VLMAX, by AVL and VLMAX. -/
opaque vlChoice : Nat → Nat → Nat

/-- The n-th choice between ones and the old value of an agnostic vector element. -/
opaque agnostic : Nat → Bool

end Sys2Proof.Config
end

