-- ==== Sys2Proof/Machine/Bits.lean ====
section
/-! DEFINITION. Bit fields, byte order and the small arithmetic every chapter uses.  A register field is named by its
bits as the spec's tables name them, high bit first.  Multi-byte values are little-endian (R9). -/
namespace Sys2Proof.Machine

/-- Bits hi..lo of a natural number. -/
def nbits (n hi lo : Nat) : Nat := n / 2 ^ lo % 2 ^ (hi + 1 - lo)

/-- Bits hi..lo of a register value. -/
def bits {w : Nat} (v : BitVec w) (hi lo : Nat) : Nat := nbits v.toNat hi lo

/-- Bit i of a register value. -/
def bit {w : Nat} (v : BitVec w) (i : Nat) : Bool := v.getLsbD i

/-- `v` with bits hi..lo replaced by `n` (cut to the field). -/
def putBits (v : Word) (hi lo n : Nat) : Word :=
  BitVec.ofNat 32 (v.toNat - nbits v.toNat hi lo * 2 ^ lo + n % 2 ^ (hi + 1 - lo) * 2 ^ lo)

/-- `v` with bit i set to `b`. -/
def putBit (v : Word) (i : Nat) (b : Bool) : Word := putBits v i i (if b then 1 else 0)

/-- A Boolean as the number of a one-bit field. -/
def ofBool (b : Bool) : Nat := if b then 1 else 0

/-- A field of `w` bits read as two's complement. -/
def signed (w n : Nat) : Int := if 2 ^ (w - 1) ≤ n % 2 ^ w then (n % 2 ^ w : Int) - 2 ^ w else (n % 2 ^ w : Int)

/-- The two's complement of width `w` of an integer. -/
def unsign (w : Nat) (i : Int) : Nat := (i % (2 ^ w : Int)).toNat

/-- An integer held between two bounds. -/
def iclamp (lo hi i : Int) : Int := if i < lo then lo else if hi < i then hi else i

/-- A natural number held between two bounds. -/
def nclamp (lo hi n : Nat) : Nat := if n < lo then lo else if hi < n then hi else n

/-- The quotient rounded up. -/
def ceilDiv (a b : Nat) : Nat := (a + b - 1) / b

/-- floor(log2 n), 0 for 0, at most `fuel` steps. -/
def log2 (n : Nat) : Nat := Nat.log2 n

/-- The value of bytes, least significant first. -/
def leNat : Bytes → Nat
  | [] => 0
  | b :: t => b.toNat + 256 * leNat t

/-- `n` as k bytes, least significant first. -/
def toLe : Nat → Nat → Bytes
  | 0, _ => []
  | k + 1, n => BitVec.ofNat 8 n :: toLe k (n / 256)

/-- `n` as k bytes, most significant first (network order). -/
def toBe (k n : Nat) : Bytes := (toLe k n).reverse

/-- The value of bytes, most significant first. -/
def beNat (b : Bytes) : Nat := leNat b.reverse

/-- Bytes i to i + k − 1 of a structure, as a little-endian number: bytes past the end read zero. -/
def leAt (b : Bytes) (i k : Nat) : Nat := leNat ((b.drop i).take k)

/-- Byte i of a structure, zero past the end. -/
def byteAt (b : Bytes) (i : Nat) : Nat := ((b.drop i).headD 0).toNat

/-- Whether bytes i to i + k − 1 are all zero (reserved bytes). -/
def zeroAt (b : Bytes) (i k : Nat) : Bool := leAt b i k == 0

/-- The numbers a, a + 1, …, a + n − 1. -/
def range' (a n : Nat) : List Nat := (List.range n).map (a + ·)

/-- The smallest number below n that satisfies p. -/
def firstBelow (n : Nat) (p : Nat → Bool) : Option Nat := (List.range n).find? p

/-- Reflected CRC over bytes with a reflected polynomial, width-independent. -/
def crcBits (poly : Nat) : Nat → Nat → Nat
  | 0, c => c
  | k + 1, c => crcBits poly k (if c % 2 = 1 then (c / 2) ^^^ poly else c / 2)

def crcStep (poly c : Nat) (b : Byte) : Nat := crcBits poly 8 (c ^^^ b.toNat)

/-- CRC-32C of R50: polynomial 0x1EDC_6F41, reflected, initial value and final XOR 0xFFFF_FFFF. -/
def crc32c (b : Bytes) : Nat := (b.foldl (crcStep 0x82F63B78) 0xFFFFFFFF) ^^^ 0xFFFFFFFF

end Sys2Proof.Machine
end

