-- ==== Sys2Proof/Machine/RegTable.lean ====
section
/-! DEFINITION. The BAR0 address of every register (R55, R448) under the name its chapter gives it, and the table of
their reset values, writable fields, lock groups and commit instants (R10, R55, R60, R66): the register tables of the
spec, chapter by chapter.  A register kept once per index of a selector (a window) has its own key in `Ops`. -/
namespace Sys2Proof.Machine

/-- One register (or an array of `cnt` registers `stride` bytes apart) of a page: the spec's table for it.
`rw` marks the fields a write stores (RW, RWL, WOS); `lk0`, `lk1` the RWL fields of lock groups 0 and 1; `wos` the
write-once fields; `item`, `stripe`, `slice` the fields whose writes wait for that instant (R66); `ctr` a counter that
snapshots latch (R70). -/
structure RegDef where
  off : Nat
  reset : Nat := 0
  rw : Nat := 0
  lk0 : Nat := 0
  lk1 : Nat := 0
  wos : Nat := 0
  item : Nat := 0
  stripe : Nat := 0
  slice : Nat := 0
  ctr : Bool := false
  cnt : Nat := 1
  stride : Nat := 4
  deriving DecidableEq, Repr

/-- The kinds of page of R448. -/
inductive PageKind where
  | dir | fam | gt | clk | ao | cfg | ev | rcd | hm | flog | pin | alert | p0 | p1 | p2 | p3 | sin | sctx | tile | seqc | au | tgu | tf | core | mc | com | ch | frz | sch | part | kl | link | hp | qp | eth | dbr | dbc
  deriving DecidableEq, Repr

namespace Reg

abbrev FAM_ID : Nat := 0x1040  -- R5
abbrev FAM_VT : Nat := 0x1044  -- R5
abbrev FAM_UNITS : Nat := 0x1048  -- R5
abbrev FAM_TF : Nat := 0x104c  -- R5
abbrev FAM_SRAM : Nat := 0x1050  -- R5
abbrev FAM_TILEMEM : Nat := 0x1054  -- R5
abbrev FAM_DRAM : Nat := 0x1058  -- R5
abbrev FAM_SEQ : Nat := 0x105c  -- R5
abbrev FAM_SYS : Nat := 0x1060  -- R5
abbrev GT_CTL : Nat := 0x2040  -- R33
abbrev GT_STS : Nat := 0x2044  -- R33
abbrev GT_PROF_SEL : Nat := 0x2048  -- R33
abbrev GT_PROF_DIST : Nat := 0x204c  -- R33
abbrev GT_PROF_SPEED : Nat := 0x2050  -- R33
abbrev GT_PROF_SHARES : Nat := 0x2054  -- R33
abbrev GT_PROF_POLICY : Nat := 0x2058  -- R33
abbrev GT_CNT_DEFAULTED : Nat := 0x205c  -- R33
abbrev GT_CNT_PARTIAL : Nat := 0x2060  -- R33
abbrev GT_CNT_NOT_OPENED : Nat := 0x2064  -- R33
abbrev CLK_STS : Nat := 0x3040  -- R53
abbrev TB_LO : Nat := 0x3044  -- R53
abbrev TB_HI : Nat := 0x3048  -- R53
abbrev TB_RATE : Nat := 0x304c  -- R53
abbrev TB_SLEW : Nat := 0x3050  -- R53
abbrev AO_EMG_STS : Nat := 0x4040  -- R53
abbrev AO_RST_CTL : Nat := 0x4044  -- R53
abbrev AO_RST_CAUSE : Nat := 0x4048  -- R53
abbrev CAL_SEC_LO : Nat := 0x404c  -- R53
abbrev CAL_SEC_HI : Nat := 0x4050  -- R53
abbrev CAL_FRAC : Nat := 0x4054  -- R53
abbrev CAL_SET_LO : Nat := 0x4058  -- R53
abbrev CAL_SET_HI : Nat := 0x405c  -- R53
abbrev CAL_SET_FRAC : Nat := 0x4060  -- R53
abbrev AO_CAL_CTL : Nat := 0x4064  -- R53
abbrev AO_CAL_STS : Nat := 0x4068  -- R53
abbrev PAIR_TB_LO : Nat := 0x406c  -- R53
abbrev PAIR_TB_HI : Nat := 0x4070  -- R53
abbrev PAIR_SEC_LO : Nat := 0x4074  -- R53
abbrev PAIR_SEC_HI : Nat := 0x4078  -- R53
abbrev PAIR_FRAC : Nat := 0x407c  -- R53
abbrev CFG_STS : Nat := 0x5040  -- R53
abbrev CFG_INSTAR : Nat := 0x5044  -- R53
abbrev CFG_SRC_LO : Nat := 0x5048  -- R53
abbrev CFG_SRC_HI : Nat := 0x504c  -- R53
abbrev CFG_LEN : Nat := 0x5050  -- R53
abbrev CFG_CMD : Nat := 0x5054  -- R53
abbrev SNAP_AT_LO : Nat := 0x6040  -- R72
abbrev SNAP_AT_HI : Nat := 0x6044  -- R72
abbrev SNAP_CTL : Nat := 0x6048  -- R72
abbrev SNAP_STS : Nat := 0x604c  -- R72
abbrev SNAP_LAST_LO : Nat := 0x6050  -- R72
abbrev SNAP_LAST_HI : Nat := 0x6054  -- R72
abbrev EVT_CHAN_SEL : Nat := 0x6058  -- R72
abbrev EVT_CHAN_CFG : Nat := 0x605c  -- R72
abbrev EVT_CHAN_PEND (i : Nat) : Nat := 0x6060 + 4 * i  -- R72
abbrev LOCKVIOL_CNT : Nat := 0x6080  -- R72
abbrev KEYVIOL_CNT : Nat := 0x6084  -- R72
abbrev UNMAPPED_CNT : Nat := 0x6088  -- R72
abbrev REC_STS : Nat := 0x7040  -- R305
abbrev DEST_BASE_LO : Nat := 0x7044  -- R305
abbrev DEST_BASE_HI : Nat := 0x7048  -- R305
abbrev DEST_CMD : Nat := 0x704c  -- R305
abbrev PROF_DMASK (i : Nat) : Nat := 0x7080 + 4 * i  -- R305
abbrev REC_CNT_RECORDS : Nat := 0x70c0  -- R305
abbrev REC_CNT_LATE : Nat := 0x70c4  -- R305
abbrev REC_CNT_NOTICES : Nat := 0x70c8  -- R305
abbrev REC_CNT_COMMITS : Nat := 0x70cc  -- R305
abbrev REC_CNT_COMMIT_BAD : Nat := 0x70d0  -- R305
abbrev REC_CNT_COMMIT_STALE : Nat := 0x70d4  -- R305
abbrev REC_CNT_DROP (i : Nat) : Nat := 0x70e0 + 4 * i  -- R305
abbrev HM_CTL : Nat := 0x8040  -- R428
abbrev HM_STS : Nat := 0x8044  -- R428
abbrev TEMP_CFG : Nat := 0x8048  -- R428
abbrev TEMP_01 : Nat := 0x8050  -- R428
abbrev TEMP_23 : Nat := 0x8054  -- R428
abbrev TEMP_45 : Nat := 0x8058  -- R428
abbrev TEMP_67 : Nat := 0x805c  -- R428
abbrev TEMP_89 : Nat := 0x8060  -- R428
abbrev TEMP_1011 : Nat := 0x8064  -- R428
abbrev TEMP_1213 : Nat := 0x8068  -- R428
abbrev TEMP_1415 : Nat := 0x806c  -- R428
abbrev TEMP_1617 : Nat := 0x8070  -- R428
abbrev TEMP_1819 : Nat := 0x8074  -- R428
abbrev TEMP_2021 : Nat := 0x8078  -- R428
abbrev TEMP_2223 : Nat := 0x807c  -- R428
abbrev VOLT_01 : Nat := 0x8080  -- R428
abbrev VOLT_23 : Nat := 0x8084  -- R428
abbrev VOLT_45 : Nat := 0x8088  -- R428
abbrev VOLT_67 : Nat := 0x808c  -- R428
abbrev VOLT_89 : Nat := 0x8090  -- R428
abbrev VOLT_1011 : Nat := 0x8094  -- R428
abbrev VOLT_1213 : Nat := 0x8098  -- R428
abbrev VOLT_1415 : Nat := 0x809c  -- R428
abbrev PROC_01 : Nat := 0x80a0  -- R428
abbrev PROC_23 : Nat := 0x80a4  -- R428
abbrev PROC_45 : Nat := 0x80a8  -- R428
abbrev PROC_67 : Nat := 0x80ac  -- R428
abbrev PROC_89 : Nat := 0x80b0  -- R428
abbrev PROC_1011 : Nat := 0x80b4  -- R428
abbrev PROC_1213 : Nat := 0x80b8  -- R428
abbrev PROC_1415 : Nat := 0x80bc  -- R428
abbrev PROC_1617 : Nat := 0x80c0  -- R428
abbrev PROC_1819 : Nat := 0x80c4  -- R428
abbrev PROC_2021 : Nat := 0x80c8  -- R428
abbrev PROC_2223 : Nat := 0x80cc  -- R428
abbrev PROC_2425 : Nat := 0x80d0  -- R428
abbrev PROC_2627 : Nat := 0x80d4  -- R428
abbrev PROC_2829 : Nat := 0x80d8  -- R428
abbrev PROC_3031 : Nat := 0x80dc  -- R428
abbrev PROC_CFG : Nat := 0x80e0  -- R428
abbrev HM_ALIVE : Nat := 0x80e4  -- R428
abbrev SAFE_CMD : Nat := 0x80e8  -- R428
abbrev FENCE_CMD : Nat := 0x80ec  -- R428
abbrev FENCE_STS : Nat := 0x80f0  -- R428
abbrev HM_CNT_THROT_US : Nat := 0x8100  -- R428
abbrev HM_CNT_TEMP_WARN : Nat := 0x8104  -- R428
abbrev HM_CNT_RAIL_WARN : Nat := 0x8108  -- R428
abbrev HM_CNT_ALIVE_MISS : Nat := 0x810c  -- R428
abbrev FLOG_NEXT : Nat := 0x9040  -- R428
abbrev FLOG_STS : Nat := 0x9044  -- R428
abbrev FLOG_SEL : Nat := 0x9048  -- R428
abbrev FLOG_CTL : Nat := 0x904c  -- R428
abbrev FLOG_W (i : Nat) : Nat := 0x9050 + 4 * i  -- R428
abbrev FLOG_CMD : Nat := 0x9070  -- R428
abbrev FLOG_CNT_ENTRIES : Nat := 0x90c0  -- R428
abbrev FLOG_CNT_OVERWRITTEN : Nat := 0x90c4  -- R428
abbrev PIN_CFG (i : Nat) : Nat := 0xa040 + 4 * i  -- R445
abbrev GPIO_OUT : Nat := 0xa0c0  -- R445
abbrev GPIO_OE : Nat := 0xa0c4  -- R445
abbrev GPIO_IN : Nat := 0xa0c8  -- R445
abbrev GPIO_SET : Nat := 0xa0cc  -- R445
abbrev GPIO_CLR : Nat := 0xa0d0  -- R445
abbrev GPIO_EDGE_EN : Nat := 0xa0d4  -- R445
abbrev GPIO_EDGE_STS : Nat := 0xa0d8  -- R445
abbrev ALERT_CTL : Nat := 0xb040  -- R445
abbrev TONE_CFG : Nat := 0xb044  -- R445
abbrev TONE_CAD : Nat := 0xb048  -- R445
abbrev PCM_BASE_LO : Nat := 0xb04c  -- R445
abbrev PCM_BASE_HI : Nat := 0xb050  -- R445
abbrev PCM_LEN : Nat := 0xb054  -- R445
abbrev PCM_RPTR : Nat := 0xb058  -- R445
abbrev PCM_WPTR : Nat := 0xb05c  -- R445
abbrev ALERT : Nat := 0xb060  -- R445
abbrev ALERT_CMD : Nat := 0xb064  -- R445
abbrev ALERT_CNT_TRIPS : Nat := 0xb0c0  -- R445
abbrev ALERT_CNT_UNDERRUN : Nat := 0xb0c4  -- R445
abbrev PORT_CTL (p : Nat) : Nat := 0x10040 + 0x4000 * p  -- R95
abbrev PORT_FMT (p : Nat) : Nat := 0x10044 + 0x4000 * p  -- R95
abbrev PORT_STS (p : Nat) : Nat := 0x10048 + 0x4000 * p  -- R95
abbrev LINE_PER (p : Nat) : Nat := 0x1004c + 0x4000 * p  -- R95
abbrev EXP_START0 (p : Nat) : Nat := 0x10050 + 0x4000 * p  -- R95
abbrev EXP_STOP0 (p : Nat) : Nat := 0x10054 + 0x4000 * p  -- R95
abbrev EXP_START1 (p : Nat) : Nat := 0x10058 + 0x4000 * p  -- R95
abbrev EXP_STOP1 (p : Nat) : Nat := 0x1005c + 0x4000 * p  -- R95
abbrev EXP_START2 (p : Nat) : Nat := 0x10060 + 0x4000 * p  -- R95
abbrev EXP_STOP2 (p : Nat) : Nat := 0x10064 + 0x4000 * p  -- R95
abbrev STB_START0 (p : Nat) : Nat := 0x10068 + 0x4000 * p  -- R95
abbrev STB_STOP0 (p : Nat) : Nat := 0x1006c + 0x4000 * p  -- R95
abbrev STB_START1 (p : Nat) : Nat := 0x10070 + 0x4000 * p  -- R95
abbrev STB_STOP1 (p : Nat) : Nat := 0x10074 + 0x4000 * p  -- R95
abbrev STB_START2 (p : Nat) : Nat := 0x10078 + 0x4000 * p  -- R95
abbrev STB_STOP2 (p : Nat) : Nat := 0x1007c + 0x4000 * p  -- R95
abbrev STB_CTL (p : Nat) : Nat := 0x10080 + 0x4000 * p  -- R95
abbrev STEP_CFG (p : Nat) : Nat := 0x10084 + 0x4000 * p  -- R95
abbrev STEP_OFS (p : Nat) : Nat := 0x10088 + 0x4000 * p  -- R95
abbrev TIMING_CTL (p : Nat) : Nat := 0x1008c + 0x4000 * p  -- R95
abbrev TIMING_STS (p : Nat) : Nat := 0x10090 + 0x4000 * p  -- R95
abbrev REG_ADDR (p : Nat) : Nat := 0x10094 + 0x4000 * p  -- R95
abbrev REG_WDATA (p : Nat) : Nat := 0x10098 + 0x4000 * p  -- R95
abbrev REG_RDATA (p : Nat) : Nat := 0x1009c + 0x4000 * p  -- R95
abbrev REG_CMD (p : Nat) : Nat := 0x100a0 + 0x4000 * p  -- R95
abbrev REG_STS (p : Nat) : Nat := 0x100a4 + 0x4000 * p  -- R95
abbrev P0_CNT_LINES (p : Nat) : Nat := 0x100c0 + 0x4000 * p  -- R95
abbrev P0_CNT_REPL_LINK (p : Nat) : Nat := 0x100c4 + 0x4000 * p  -- R95
abbrev P0_CNT_REPL_SEQ (p : Nat) : Nat := 0x100c8 + 0x4000 * p  -- R95
abbrev P0_CNT_REPL_FMT (p : Nat) : Nat := 0x100cc + 0x4000 * p  -- R95
abbrev P0_CNT_REPL_CRC (p : Nat) : Nat := 0x100d0 + 0x4000 * p  -- R95
abbrev P0_CNT_REPL_LATE (p : Nat) : Nat := 0x100d4 + 0x4000 * p  -- R95
abbrev P0_CNT_HDR_ERR (p : Nat) : Nat := 0x100d8 + 0x4000 * p  -- R95
abbrev COND_CTL (p : Nat) : Nat := 0x11040 + 0x4000 * p  -- R95
abbrev P1_MIX (p : Nat) : Nat := 0x11044 + 0x4000 * p  -- R95
abbrev P1_DLY (p : Nat) : Nat := 0x11048 + 0x4000 * p  -- R95
abbrev DLY_BASE_LO (p : Nat) : Nat := 0x1104c + 0x4000 * p  -- R95
abbrev DLY_BASE_HI (p : Nat) : Nat := 0x11050 + 0x4000 * p  -- R95
abbrev COEF_SRC_LO (p : Nat) : Nat := 0x11054 + 0x4000 * p  -- R95
abbrev COEF_SRC_HI (p : Nat) : Nat := 0x11058 + 0x4000 * p  -- R95
abbrev COEF_CMD (p : Nat) : Nat := 0x1105c + 0x4000 * p  -- R95
abbrev COND_STS (p : Nat) : Nat := 0x11060 + 0x4000 * p  -- R95
abbrev P1_CNT_SAT_HI (p : Nat) : Nat := 0x11080 + 0x4000 * p  -- R95
abbrev P1_CNT_SAT_LO (p : Nat) : Nat := 0x11084 + 0x4000 * p  -- R95
abbrev ARCH_CTL (p : Nat) : Nat := 0x12040 + 0x4000 * p  -- R95
abbrev ARCH_BASE_LO (p : Nat) : Nat := 0x12044 + 0x4000 * p  -- R95
abbrev ARCH_BASE_HI (p : Nat) : Nat := 0x12048 + 0x4000 * p  -- R95
abbrev ARCH_LINES (p : Nat) : Nat := 0x1204c + 0x4000 * p  -- R95
abbrev ARCH_WPTR (p : Nat) : Nat := 0x12050 + 0x4000 * p  -- R95
abbrev ARCH_RPTR (p : Nat) : Nat := 0x12054 + 0x4000 * p  -- R95
abbrev P2_CAL_CTL (p : Nat) : Nat := 0x12058 + 0x4000 * p  -- R95
abbrev CAL_WIN (p : Nat) : Nat := 0x1205c + 0x4000 * p  -- R95
abbrev CAL_LEN (p : Nat) : Nat := 0x12060 + 0x4000 * p  -- R95
abbrev CAL_DST_LO (p : Nat) : Nat := 0x12064 + 0x4000 * p  -- R95
abbrev CAL_DST_HI (p : Nat) : Nat := 0x12068 + 0x4000 * p  -- R95
abbrev P2_CAL_STS (p : Nat) : Nat := 0x1206c + 0x4000 * p  -- R95
abbrev P2_CNT_ARCH_DROP (p : Nat) : Nat := 0x12080 + 0x4000 * p  -- R95
abbrev FRAME_CTL (p : Nat) : Nat := 0x13040 + 0x4000 * p  -- R112
abbrev EDGE_THR (p : Nat) : Nat := 0x13044 + 0x4000 * p  -- R112
abbrev EDGE_WIN (p : Nat) : Nat := 0x13048 + 0x4000 * p  -- R112
abbrev P3_OCC (p : Nat) : Nat := 0x1304c + 0x4000 * p  -- R112
abbrev ITEM_LIM (p : Nat) : Nat := 0x13050 + 0x4000 * p  -- R112
abbrev ITEM_GAP (p : Nat) : Nat := 0x13054 + 0x4000 * p  -- R112
abbrev PP_CFG (p : Nat) : Nat := 0x13058 + 0x4000 * p  -- R112
abbrev STRIPE_CFG (p : Nat) : Nat := 0x1305c + 0x4000 * p  -- R112
abbrev STRIPE_WIN (p : Nat) : Nat := 0x13060 + 0x4000 * p  -- R112
abbrev ZONE (p : Nat) : Nat := 0x13064 + 0x4000 * p  -- R112
abbrev RING_BASE_LO (p : Nat) : Nat := 0x13068 + 0x4000 * p  -- R112
abbrev RING_BASE_HI (p : Nat) : Nat := 0x1306c + 0x4000 * p  -- R112
abbrev RING_LINES (p : Nat) : Nat := 0x13070 + 0x4000 * p  -- R112
abbrev FRAME_STS (p : Nat) : Nat := 0x13074 + 0x4000 * p  -- R112
abbrev STEER_MASK (p : Nat) (i : Nat) : Nat := 0x13080 + 0x4000 * p + 4 * i  -- R112
abbrev STEER_POST (p : Nat) : Nat := 0x130a0 + 0x4000 * p  -- R112
abbrev P3_CNT_ITEMS (p : Nat) : Nat := 0x130c0 + 0x4000 * p  -- R112
abbrev P3_CNT_STRIPES (p : Nat) : Nat := 0x130c4 + 0x4000 * p  -- R112
abbrev P3_CNT_END_LEN (p : Nat) : Nat := 0x130c8 + 0x4000 * p  -- R112
abbrev P3_CNT_END_GAP (p : Nat) : Nat := 0x130cc + 0x4000 * p  -- R112
abbrev P3_CNT_END_STALL (p : Nat) : Nat := 0x130d0 + 0x4000 * p  -- R112
abbrev P3_CNT_STEER_STALE (p : Nat) : Nat := 0x130d4 + 0x4000 * p  -- R112
abbrev SIN_CTL : Nat := 0x20040  -- R141
abbrev DEC_BUDGET : Nat := 0x20044  -- R141
abbrev SIN_CNT_BASE_LO : Nat := 0x20048  -- R141
abbrev SIN_CNT_BASE_HI : Nat := 0x2004c  -- R141
abbrev ARENA_BASE_LO : Nat := 0x20050  -- R141
abbrev ARENA_BASE_HI : Nat := 0x20054  -- R141
abbrev ARENA_MB : Nat := 0x20058  -- R141
abbrev SIN_STS : Nat := 0x2005c  -- R141
abbrev SIN_CNT_PACKETS : Nat := 0x20080  -- R141
abbrev SIN_CNT_SAMPLES : Nat := 0x20084  -- R141
abbrev SIN_CNT_PLACEHOLDER : Nat := 0x20088  -- R141
abbrev SIN_CNT_ESPOT_STALE : Nat := 0x2008c  -- R141
abbrev CTX_SEL : Nat := 0x21040  -- R141
abbrev CTX_CTL : Nat := 0x21044  -- R141
abbrev CTX_SRC (i : Nat) : Nat := 0x21048 + 4 * i  -- R141
abbrev CTX_MAX : Nat := 0x21058  -- R141
abbrev CTX_RATE : Nat := 0x2105c  -- R141
abbrev CTX_TRACK : Nat := 0x21060  -- R141
abbrev CTX_TIME : Nat := 0x21064  -- R141
abbrev CTX_PROF : Nat := 0x21068  -- R141
abbrev CTX_MAP_RTP : Nat := 0x2106c  -- R141
abbrev CTX_MAP_TB_LO : Nat := 0x21070  -- R141
abbrev CTX_MAP_TB_HI : Nat := 0x21074  -- R141
abbrev CTX_STS : Nat := 0x21078  -- R141
abbrev CTX_DIM : Nat := 0x2107c  -- R141
abbrev CTX_SSRC : Nat := 0x21080  -- R141
abbrev TILE_CTL (t : Nat) : Nat := 0x100040 + 0x1000 * t  -- R177
abbrev TILE_PC (t : Nat) : Nat := 0x100044 + 0x1000 * t  -- R177
abbrev TILE_STS (t : Nat) : Nat := 0x100048 + 0x1000 * t  -- R177
abbrev TILE_FAULT (t : Nat) : Nat := 0x10004c + 0x1000 * t  -- R177
abbrev TILE_SEM_01 (t : Nat) : Nat := 0x100050 + 0x1000 * t  -- R177
abbrev TILE_SEM_23 (t : Nat) : Nat := 0x100054 + 0x1000 * t  -- R177
abbrev TILE_SEM_45 (t : Nat) : Nat := 0x100058 + 0x1000 * t  -- R177
abbrev TILE_SEM_67 (t : Nat) : Nat := 0x10005c + 0x1000 * t  -- R177
abbrev TILE_SEM_89 (t : Nat) : Nat := 0x100060 + 0x1000 * t  -- R177
abbrev TILE_SEM_1011 (t : Nat) : Nat := 0x100064 + 0x1000 * t  -- R177
abbrev TILE_SEM_1213 (t : Nat) : Nat := 0x100068 + 0x1000 * t  -- R177
abbrev TILE_SEM_1415 (t : Nat) : Nat := 0x10006c + 0x1000 * t  -- R177
abbrev TILE_SEM_POST (t : Nat) : Nat := 0x100070 + 0x1000 * t  -- R177
abbrev TR1 (t : Nat) : Nat := 0x100074 + 0x1000 * t  -- R177
abbrev TR2 (t : Nat) : Nat := 0x100078 + 0x1000 * t  -- R177
abbrev TR3 (t : Nat) : Nat := 0x10007c + 0x1000 * t  -- R177
abbrev TR4 (t : Nat) : Nat := 0x100080 + 0x1000 * t  -- R177
abbrev TR5 (t : Nat) : Nat := 0x100084 + 0x1000 * t  -- R177
abbrev TR6 (t : Nat) : Nat := 0x100088 + 0x1000 * t  -- R177
abbrev TR7 (t : Nat) : Nat := 0x10008c + 0x1000 * t  -- R177
abbrev TR8 (t : Nat) : Nat := 0x100090 + 0x1000 * t  -- R177
abbrev TR9 (t : Nat) : Nat := 0x100094 + 0x1000 * t  -- R177
abbrev TR10 (t : Nat) : Nat := 0x100098 + 0x1000 * t  -- R177
abbrev TR11 (t : Nat) : Nat := 0x10009c + 0x1000 * t  -- R177
abbrev TR12 (t : Nat) : Nat := 0x1000a0 + 0x1000 * t  -- R177
abbrev TR13 (t : Nat) : Nat := 0x1000a4 + 0x1000 * t  -- R177
abbrev TR14 (t : Nat) : Nat := 0x1000a8 + 0x1000 * t  -- R177
abbrev TR15 (t : Nat) : Nat := 0x1000ac + 0x1000 * t  -- R177
abbrev DET_DONE_LO (t : Nat) : Nat := 0x1000b0 + 0x1000 * t  -- R177
abbrev DET_DONE_HI (t : Nat) : Nat := 0x1000b4 + 0x1000 * t  -- R177
abbrev TILE_CNT_ARRAY_CYC (t : Nat) : Nat := 0x1000c0 + 0x1000 * t  -- R177
abbrev TILE_CNT_ESC_STALL (t : Nat) : Nat := 0x1000c4 + 0x1000 * t  -- R177
abbrev TILE_CNT_QDROP (t : Nat) : Nat := 0x1000c8 + 0x1000 * t  -- R177
abbrev TILE_CNT_RETIRE_STALE (t : Nat) : Nat := 0x1000cc + 0x1000 * t  -- R177
abbrev TILE_CNT_DET_STALE (t : Nat) : Nat := 0x1000d0 + 0x1000 * t  -- R177
abbrev CODEC_SSE_LO (t : Nat) : Nat := 0x1000d4 + 0x1000 * t  -- R177
abbrev CODEC_SSE_HI (t : Nat) : Nat := 0x1000d8 + 0x1000 * t  -- R177
abbrev CODEC_MAXERR (t : Nat) : Nat := 0x1000dc + 0x1000 * t  -- R177
abbrev SEQ_STS : Nat := 0x200040  -- R226
abbrev MDL_BASE_LO : Nat := 0x200044  -- R226
abbrev MDL_BASE_HI : Nat := 0x200048  -- R226
abbrev SEQ_CNT_SEQ_OPENED : Nat := 0x200080  -- R226
abbrev SEQ_CNT_SEQ_ENDED : Nat := 0x200084  -- R226
abbrev AU_CTL (u : Nat) : Nat := 0x201040 + 0x1000 * u  -- R227
abbrev AU_STS (u : Nat) : Nat := 0x201044 + 0x1000 * u  -- R227
abbrev POOL0_BASE_LO (u : Nat) : Nat := 0x201048 + 0x1000 * u  -- R227
abbrev POOL0_BASE_HI (u : Nat) : Nat := 0x20104c + 0x1000 * u  -- R227
abbrev POOL0_PAGES (u : Nat) : Nat := 0x201050 + 0x1000 * u  -- R227
abbrev POOL1_BASE_LO (u : Nat) : Nat := 0x201054 + 0x1000 * u  -- R227
abbrev POOL1_BASE_HI (u : Nat) : Nat := 0x201058 + 0x1000 * u  -- R227
abbrev POOL1_PAGES (u : Nat) : Nat := 0x20105c + 0x1000 * u  -- R227
abbrev PFX_BASE_LO (u : Nat) : Nat := 0x201060 + 0x1000 * u  -- R227
abbrev PFX_BASE_HI (u : Nat) : Nat := 0x201064 + 0x1000 * u  -- R227
abbrev PFX_BUCKETS (u : Nat) : Nat := 0x201068 + 0x1000 * u  -- R227
abbrev POOL0_FREE (u : Nat) : Nat := 0x20106c + 0x1000 * u  -- R227
abbrev POOL1_FREE (u : Nat) : Nat := 0x201070 + 0x1000 * u  -- R227
abbrev AU_SEM_01 (u : Nat) : Nat := 0x201074 + 0x1000 * u  -- R227
abbrev AU_SEM_23 (u : Nat) : Nat := 0x201078 + 0x1000 * u  -- R227
abbrev AU_SEM_45 (u : Nat) : Nat := 0x20107c + 0x1000 * u  -- R227
abbrev AU_SEM_67 (u : Nat) : Nat := 0x201080 + 0x1000 * u  -- R227
abbrev AU_SEM_89 (u : Nat) : Nat := 0x201084 + 0x1000 * u  -- R227
abbrev AU_SEM_1011 (u : Nat) : Nat := 0x201088 + 0x1000 * u  -- R227
abbrev AU_SEM_1213 (u : Nat) : Nat := 0x20108c + 0x1000 * u  -- R227
abbrev AU_SEM_1415 (u : Nat) : Nat := 0x201090 + 0x1000 * u  -- R227
abbrev AU_SEM_POST (u : Nat) : Nat := 0x201094 + 0x1000 * u  -- R227
abbrev AU_CNT_STEPS (u : Nat) : Nat := 0x2010c0 + 0x1000 * u  -- R227
abbrev AU_CNT_ROWS_ISSUED (u : Nat) : Nat := 0x2010c4 + 0x1000 * u  -- R227
abbrev AU_CNT_ROWS_USED (u : Nat) : Nat := 0x2010c8 + 0x1000 * u  -- R227
abbrev AU_CNT_CAND_OFFERED (u : Nat) : Nat := 0x2010cc + 0x1000 * u  -- R227
abbrev AU_CNT_CAND_ACCEPTED (u : Nat) : Nat := 0x2010d0 + 0x1000 * u  -- R227
abbrev AU_CNT_TOKENS (u : Nat) : Nat := 0x2010d4 + 0x1000 * u  -- R227
abbrev AU_CNT_PFX_HIT (u : Nat) : Nat := 0x2010d8 + 0x1000 * u  -- R227
abbrev AU_CNT_PFX_MISS (u : Nat) : Nat := 0x2010dc + 0x1000 * u  -- R227
abbrev AU_CNT_PFX_UNSHARED (u : Nat) : Nat := 0x2010e0 + 0x1000 * u  -- R227
abbrev AU_CNT_PFX_EVICT (u : Nat) : Nat := 0x2010e4 + 0x1000 * u  -- R227
abbrev AU_CNT_EMPTY_SPAN (u : Nat) : Nat := 0x2010e8 + 0x1000 * u  -- R227
abbrev AU_CNT_NONFINITE (u : Nat) : Nat := 0x2010ec + 0x1000 * u  -- R227
abbrev TGU_CTL : Nat := 0x210040  -- R254
abbrev TGU_STS : Nat := 0x210044  -- R254
abbrev TGU_LOADED : Nat := 0x210048  -- R254
abbrev LEX_USED : Nat := 0x21004c  -- R254
abbrev CTX_BASE_LO : Nat := 0x210050  -- R254
abbrev CTX_BASE_HI : Nat := 0x210054  -- R254
abbrev MATCH_BASE_LO : Nat := 0x210058  -- R254
abbrev MATCH_BASE_HI : Nat := 0x21005c  -- R254
abbrev GCACHE_BASE_LO : Nat := 0x210060  -- R254
abbrev GCACHE_BASE_HI : Nat := 0x210064  -- R254
abbrev MATCH_KB : Nat := 0x210068  -- R254
abbrev GCACHE_KB : Nat := 0x21006c  -- R254
abbrev CTX_OPEN : Nat := 0x210070  -- R254
abbrev GRM_DONE_LO : Nat := 0x210074  -- R254
abbrev GRM_DONE_HI : Nat := 0x210078  -- R254
abbrev TGU_CNT_TOK_BYTES : Nat := 0x2100c0  -- R254
abbrev TGU_CNT_TOK_TOKENS : Nat := 0x2100c4  -- R254
abbrev TGU_CNT_INVALID : Nat := 0x2100c8  -- R254
abbrev TGU_CNT_UNK : Nat := 0x2100cc  -- R254
abbrev TGU_CNT_REORDER_SKIP : Nat := 0x2100d0  -- R254
abbrev TGU_CNT_MASKS : Nat := 0x2100d4  -- R254
abbrev TGU_CNT_MASK_STALL : Nat := 0x2100d8  -- R254
abbrev TGU_CNT_CAND : Nat := 0x2100dc  -- R254
abbrev TGU_CNT_CAND_FORCED : Nat := 0x2100e0  -- R254
abbrev TGU_CNT_OVERFLOW : Nat := 0x2100e4  -- R254
abbrev TGU_CNT_LEX_BAD : Nat := 0x2100e8  -- R254
abbrev TGU_CNT_DETOK_REPL : Nat := 0x2100ec  -- R254
abbrev TGU_CNT_TEXT_TRUNC : Nat := 0x2100f0  -- R254
abbrev TGU_CNT_GRM_STALE : Nat := 0x2100f4  -- R254
abbrev TF_CTL : Nat := 0x220040  -- R282
abbrev TF_STS : Nat := 0x220044  -- R282
abbrev FW_VER : Nat := 0x220048  -- R282
abbrev FW_SRC_LO : Nat := 0x22004c  -- R282
abbrev FW_SRC_HI : Nat := 0x220050  -- R282
abbrev FW_LEN : Nat := 0x220054  -- R282
abbrev TF_CMD : Nat := 0x220058  -- R282
abbrev TF_IPI : Nat := 0x22005c  -- R282
abbrev ASM_DONE_LO : Nat := 0x220060  -- R282
abbrev ASM_DONE_HI : Nat := 0x220064  -- R282
abbrev TF_CNT_LAUNCHES : Nat := 0x2200c0  -- R282
abbrev TF_CNT_PEER_FAIL : Nat := 0x2200c4  -- R282
abbrev TF_CNT_ASM_STALE : Nat := 0x2200c8  -- R282
abbrev CORE_ENTRY_LO (c : Nat) : Nat := 0x221040 + 0x1000 * c  -- R283
abbrev CORE_ENTRY_HI (c : Nat) : Nat := 0x221044 + 0x1000 * c  -- R283
abbrev CORE_STS (c : Nat) : Nat := 0x221048 + 0x1000 * c  -- R283
abbrev CORE_CNT_INSTR (c : Nat) : Nat := 0x2210c0 + 0x1000 * c  -- R283
abbrev CORE_CNT_VEC_BUSY (c : Nat) : Nat := 0x2210c4 + 0x1000 * c  -- R283
abbrev CORE_CNT_LAUNCH_DROP (c : Nat) : Nat := 0x2210c8 + 0x1000 * c  -- R283
abbrev CORE_CNT_VSLOT_WAIT (c : Nat) : Nat := 0x2210cc + 0x1000 * c  -- R283
abbrev MC_STS : Nat := 0x300040  -- R332
abbrev RETRAIN_CFG : Nat := 0x300044  -- R332
abbrev RH_CFG : Nat := 0x300048  -- R332
abbrev WQ_CFG : Nat := 0x30004c  -- R332
abbrev SCRUB_CFG : Nat := 0x300050  -- R332
abbrev CE_CFG : Nat := 0x300054  -- R332
abbrev PORT_SEL : Nat := 0x300058  -- R332
abbrev PORT_TGT : Nat := 0x30005c  -- R332
abbrev MC_CNT_FREEZE : Nat := 0x3000c0  -- R332
abbrev MC_CNT_RETRAIN : Nat := 0x3000c4  -- R332
abbrev MC_CNT_RETRAIN_FORCED : Nat := 0x3000c8  -- R332
abbrev MC_CNT_RH_THROTTLE : Nat := 0x3000cc  -- R332
abbrev MC_CNT_LAT_MISS : Nat := 0x3000d0  -- R332
abbrev UNIT_MAP (i : Nat) : Nat := 0x301040 + 4 * i  -- R332
abbrev COM_CNT_CE : Nat := 0x3010c0  -- R332
abbrev COM_CNT_UE : Nat := 0x3010c4  -- R332
abbrev COM_CNT_BAD_UNIT : Nat := 0x3010c8  -- R332
abbrev COM_CNT_SC_HIT : Nat := 0x3010cc  -- R332
abbrev COM_CNT_SC_MISS : Nat := 0x3010d0  -- R332
abbrev FRZ_SEL : Nat := 0x304040  -- R334
abbrev FRZ_TB_LO : Nat := 0x304044  -- R334
abbrev FRZ_TB_HI : Nat := 0x304048  -- R334
abbrev FRZ_ADDR_LO : Nat := 0x30404c  -- R334
abbrev FRZ_ADDR_HI : Nat := 0x304050  -- R334
abbrev FRZ_LOC : Nat := 0x304054  -- R334
abbrev FRZ_SYN : Nat := 0x304058  -- R334
abbrev FRZ_PORT : Nat := 0x30405c  -- R334
abbrev FRZ_QUEUE : Nat := 0x304060  -- R334
abbrev FRZ_HIST (i : Nat) : Nat := 0x304080 + 4 * i  -- R334
abbrev SCH_PCMD : Nat := 0x310040  -- R364
abbrev PDESC_LO : Nat := 0x310044  -- R364
abbrev PDESC_HI : Nat := 0x310048  -- R364
abbrev PCMD_STS : Nat := 0x31004c  -- R364
abbrev SRC_SEL : Nat := 0x310050  -- R364
abbrev SRC_MAP : Nat := 0x310054  -- R364
abbrev SCH_CNT_MISROUTE : Nat := 0x3100c0  -- R364
abbrev SCH_CNT_SLICE_VIOL : Nat := 0x3100c4  -- R364
abbrev PART_STS (p : Nat) : Nat := 0x311040 + 0x1000 * p  -- R365
abbrev PART_LIM (p : Nat) : Nat := 0x311044 + 0x1000 * p  -- R365
abbrev PART_TIME (p : Nat) : Nat := 0x311048 + 0x1000 * p  -- R365
abbrev PART_CMD (p : Nat) : Nat := 0x31104c + 0x1000 * p  -- R365
abbrev TILE_MASK (p : Nat) (i : Nat) : Nat := 0x311050 + 0x1000 * p + 4 * i  -- R365
abbrev CORE_MASK (p : Nat) (i : Nat) : Nat := 0x311064 + 0x1000 * p + 4 * i  -- R365
abbrev PAIR_MASK (p : Nat) : Nat := 0x311070 + 0x1000 * p  -- R365
abbrev SLICE_MASK_LO (p : Nat) : Nat := 0x311074 + 0x1000 * p  -- R365
abbrev SLICE_MASK_HI (p : Nat) : Nat := 0x311078 + 0x1000 * p  -- R365
abbrev WAY_MASK (p : Nat) : Nat := 0x31107c + 0x1000 * p  -- R365
abbrev PART_RES (p : Nat) : Nat := 0x311080 + 0x1000 * p  -- R365
abbrev VI_SEL (p : Nat) : Nat := 0x311084 + 0x1000 * p  -- R365
abbrev VI_CFG (p : Nat) : Nat := 0x311088 + 0x1000 * p  -- R365
abbrev VI_STS (p : Nat) : Nat := 0x31108c + 0x1000 * p  -- R365
abbrev VI_CMD (p : Nat) : Nat := 0x311090 + 0x1000 * p  -- R365
abbrev VI_COC_LO (p : Nat) : Nat := 0x311094 + 0x1000 * p  -- R365
abbrev VI_COC_HI (p : Nat) : Nat := 0x311098 + 0x1000 * p  -- R365
abbrev VI_SAVE_LO (p : Nat) : Nat := 0x31109c + 0x1000 * p  -- R365
abbrev VI_SAVE_HI (p : Nat) : Nat := 0x3110a0 + 0x1000 * p  -- R365
abbrev PART_CNT_SLICES (p : Nat) : Nat := 0x3110c0 + 0x1000 * p  -- R365
abbrev PART_CNT_SWITCH_US (p : Nat) : Nat := 0x3110c4 + 0x1000 * p  -- R365
abbrev PART_CNT_DRAIN_CUT (p : Nat) : Nat := 0x3110c8 + 0x1000 * p  -- R365
abbrev PART_CNT_YIELD_LATE (p : Nat) : Nat := 0x3110cc + 0x1000 * p  -- R365
abbrev PART_CNT_FULL_SAVE (p : Nat) : Nat := 0x3110d0 + 0x1000 * p  -- R365
abbrev PART_CNT_PLACE_DROP (p : Nat) : Nat := 0x3110d4 + 0x1000 * p  -- R365
abbrev PART_CNT_LAUNCH_DROP (p : Nat) : Nat := 0x3110d8 + 0x1000 * p  -- R365
abbrev KL_CTL : Nat := 0x320040  -- R389
abbrev KL_STS : Nat := 0x320044  -- R389
abbrev KL_SERIAL_LO : Nat := 0x320048  -- R389
abbrev KL_SERIAL_HI : Nat := 0x32004c  -- R389
abbrev KL_COORD_LO : Nat := 0x320050  -- R389
abbrev KL_COORD_HI : Nat := 0x320054  -- R389
abbrev KL_OFFSET : Nat := 0x320058  -- R389
abbrev KL_TIMEOUT : Nat := 0x32005c  -- R389
abbrev ACCEPT (i : Nat) : Nat := 0x320080 + 4 * i  -- R389
abbrev KL_CNT_PEER_IN : Nat := 0x3202c0  -- R389
abbrev KL_CNT_REFUSED : Nat := 0x3202c4  -- R389
abbrev KL_CNT_TIMEOUT : Nat := 0x3202c8  -- R389
abbrev KL_CNT_TTL : Nat := 0x3202cc  -- R389
abbrev KL_CNT_LOST : Nat := 0x3202d0  -- R389
abbrev KL_CNT_TB_REFUSED : Nat := 0x3202d4  -- R389
abbrev KL_CNT_SHADOW_BAD : Nat := 0x3202d8  -- R389
abbrev LINK_CTL (l : Nat) : Nat := 0x321040 + 0x1000 * l  -- R390
abbrev LINK_STS (l : Nat) : Nat := 0x321044 + 0x1000 * l  -- R390
abbrev LINK_PEER_LO (l : Nat) : Nat := 0x321048 + 0x1000 * l  -- R390
abbrev LINK_PEER_HI (l : Nat) : Nat := 0x32104c + 0x1000 * l  -- R390
abbrev LINK_CNT_TX (l : Nat) : Nat := 0x3210c0 + 0x1000 * l  -- R390
abbrev LINK_CNT_RX (l : Nat) : Nat := 0x3210c4 + 0x1000 * l  -- R390
abbrev LINK_CNT_REPLAY (l : Nat) : Nat := 0x3210c8 + 0x1000 * l  -- R390
abbrev LINK_CNT_CRC (l : Nat) : Nat := 0x3210cc + 0x1000 * l  -- R390
abbrev LINK_CNT_FEC_CORR (l : Nat) : Nat := 0x3210d0 + 0x1000 * l  -- R390
abbrev LINK_CNT_FEC_UNCORR (l : Nat) : Nat := 0x3210d4 + 0x1000 * l  -- R390
abbrev LINK_CNT_FAIL (l : Nat) : Nat := 0x3210d8 + 0x1000 * l  -- R390
abbrev HP_STS : Nat := 0x330040  -- R409
abbrev HP_CNT_HOST_LOST : Nat := 0x3300c0  -- R409
abbrev HP_CNT_DB_BAD : Nat := 0x3300c4  -- R409
abbrev HP_CNT_VEC_DROP : Nat := 0x3300c8  -- R409
abbrev HP_CNT_QERR : Nat := 0x3300cc  -- R409
abbrev QUEUE_CMD : Nat := 0x331040  -- R409
abbrev QUEUE_DESC_LO : Nat := 0x331044  -- R409
abbrev QUEUE_DESC_HI : Nat := 0x331048  -- R409
abbrev QUEUE_STS : Nat := 0x33104c  -- R409
abbrev QUEUE_SEL : Nat := 0x331050  -- R409
abbrev QUEUE_STATE : Nat := 0x331054  -- R409
abbrev ETH_CTL (n : Nat) : Nat := 0x332040 + 0x1000 * n  -- R410
abbrev ETH_STS (n : Nat) : Nat := 0x332044 + 0x1000 * n  -- R410
abbrev MAC_LO (n : Nat) : Nat := 0x332048 + 0x1000 * n  -- R410
abbrev MAC_HI (n : Nat) : Nat := 0x33204c + 0x1000 * n  -- R410
abbrev MGMT_PORT (n : Nat) : Nat := 0x332050 + 0x1000 * n  -- R410
abbrev IF_SEL (n : Nat) : Nat := 0x332054 + 0x1000 * n  -- R410
abbrev IF_CTL (n : Nat) : Nat := 0x332058 + 0x1000 * n  -- R410
abbrev IF_IP4 (n : Nat) : Nat := 0x33205c + 0x1000 * n  -- R410
abbrev IF_IP6 (n : Nat) (i : Nat) : Nat := 0x332060 + 0x1000 * n + 4 * i  -- R410
abbrev ETH_CNT_TX_FRAMES (n : Nat) : Nat := 0x3320c0 + 0x1000 * n  -- R410
abbrev ETH_CNT_RX_FRAMES (n : Nat) : Nat := 0x3320c4 + 0x1000 * n  -- R410
abbrev ETH_CNT_RX_FILTER (n : Nat) : Nat := 0x3320c8 + 0x1000 * n  -- R410
abbrev ETH_CNT_RX_DROP (n : Nat) : Nat := 0x3320cc + 0x1000 * n  -- R410
abbrev ETH_CNT_FCS (n : Nat) : Nat := 0x3320d0 + 0x1000 * n  -- R410
abbrev CH_STS (q : Nat) : Nat := 0x302100 + 0x1000 * (q / 32) + 0x40 * (q % 32)  -- R333
abbrev CH_CFG (q : Nat) : Nat := 0x302104 + 0x1000 * (q / 32) + 0x40 * (q % 32)  -- R333
abbrev CH_CMD (q : Nat) : Nat := 0x302108 + 0x1000 * (q / 32) + 0x40 * (q % 32)  -- R333
abbrev CH_CNT_RD (q : Nat) : Nat := 0x302110 + 0x1000 * (q / 32) + 0x40 * (q % 32)  -- R333
abbrev CH_CNT_WR (q : Nat) : Nat := 0x302114 + 0x1000 * (q / 32) + 0x40 * (q % 32)  -- R333
abbrev CH_CNT_ACT (q : Nat) : Nat := 0x302118 + 0x1000 * (q / 32) + 0x40 * (q % 32)  -- R333
abbrev CH_CNT_FWD (q : Nat) : Nat := 0x30211c + 0x1000 * (q / 32) + 0x40 * (q % 32)  -- R333
abbrev CH_CNT_CE (q : Nat) : Nat := 0x302120 + 0x1000 * (q / 32) + 0x40 * (q % 32)  -- R333
abbrev CH_CNT_RETRAIN (q : Nat) : Nat := 0x302124 + 0x1000 * (q / 32) + 0x40 * (q % 32)  -- R333
abbrev CH_CNT_RH_RFM (q : Nat) : Nat := 0x302128 + 0x1000 * (q / 32) + 0x40 * (q % 32)  -- R333
abbrev CH_CNT_LAT_MISS (q : Nat) : Nat := 0x30212c + 0x1000 * (q / 32) + 0x40 * (q % 32)  -- R333
end Reg

def defsCommon : List RegDef :=
  [
    { off := 0x0 }  -- BLK_ID
  , { off := 0x4, reset := 0x1000000 }  -- BLK_VER
  , { off := 0x8, rw := 0xff0000 }  -- BLK_CTL
  , { off := 0xc }  -- BLK_STS
  , { off := 0x10 }  -- EVT_STS
  , { off := 0x14, rw := 0xcfffffff }  -- EVT_EN
  , { off := 0x18 }  -- EVT_FORCE
  , { off := 0x1c }  -- LOCK
  , { off := 0x20 }  -- SNAP_GEN
  ]

def defsFam : List RegDef :=
  [
    { off := 0x40, reset := 0x1a909160 }  -- FAM_ID
  , { off := 0x44, reset := 0xa00a10 }  -- FAM_VT
  , { off := 0x48, reset := 0x8041810 }  -- FAM_UNITS
  , { off := 0x4c, reset := 0x600200 }  -- FAM_TF
  , { off := 0x50, reset := 0x1000038 }  -- FAM_SRAM
  , { off := 0x54, reset := 0x3800180 }  -- FAM_TILEMEM
  , { off := 0x58, reset := 0x10400030 }  -- FAM_DRAM
  , { off := 0x5c, reset := 0x40008008 }  -- FAM_SEQ
  , { off := 0x60, reset := 0x4000808 }  -- FAM_SYS
  ]

def defsGt : List RegDef :=
  [
    { off := 0x40, reset := 0xc, rw := 0x3ff, lk0 := 0x3ff }  -- GT_CTL
  , { off := 0x44 }  -- GT_STS
  , { off := 0x48, rw := 0x3f }  -- GT_PROF_SEL
  , { off := 0x4c, rw := 0xffffff, lk0 := 0xffffff }  -- GT_PROF_DIST
  , { off := 0x50, rw := 0xffffffff, lk0 := 0xffffffff }  -- GT_PROF_SPEED
  , { off := 0x54, rw := 0xffffffff, lk0 := 0xffffffff }  -- GT_PROF_SHARES
  , { off := 0x58, rw := 0xfffffff0, lk0 := 0xfffffff0 }  -- GT_PROF_POLICY
  , { off := 0x5c, ctr := true }  -- GT_CNT_DEFAULTED
  , { off := 0x60, ctr := true }  -- GT_CNT_PARTIAL
  , { off := 0x64, ctr := true }  -- GT_CNT_NOT_OPENED
  ]

def defsClk : List RegDef :=
  [
    { off := 0x40 }  -- CLK_STS
  , { off := 0x44 }  -- TB_LO
  , { off := 0x48 }  -- TB_HI
  , { off := 0x4c, rw := 0xffffffff }  -- TB_RATE
  , { off := 0x50, rw := 0xffffffff }  -- TB_SLEW
  ]

def defsAo : List RegDef :=
  [
    { off := 0x40 }  -- AO_EMG_STS
  , { off := 0x44, rw := 0x2, lk0 := 0x2 }  -- AO_RST_CTL
  , { off := 0x48, reset := 0x1 }  -- AO_RST_CAUSE
  , { off := 0x4c }  -- CAL_SEC_LO
  , { off := 0x50 }  -- CAL_SEC_HI
  , { off := 0x54 }  -- CAL_FRAC
  , { off := 0x58, rw := 0xffffffff }  -- CAL_SET_LO
  , { off := 0x5c, rw := 0xffffffff }  -- CAL_SET_HI
  , { off := 0x60, rw := 0xffff }  -- CAL_SET_FRAC
  , { off := 0x64, rw := 0xff }  -- CAL_CTL
  , { off := 0x68 }  -- CAL_STS
  , { off := 0x6c }  -- PAIR_TB_LO
  , { off := 0x70 }  -- PAIR_TB_HI
  , { off := 0x74 }  -- PAIR_SEC_LO
  , { off := 0x78 }  -- PAIR_SEC_HI
  , { off := 0x7c }  -- PAIR_FRAC
  ]

def defsCfg : List RegDef :=
  [
    { off := 0x40 }  -- CFG_STS
  , { off := 0x44 }  -- CFG_INSTAR
  , { off := 0x48, rw := 0xffffffff }  -- CFG_SRC_LO
  , { off := 0x4c, rw := 0xffff }  -- CFG_SRC_HI
  , { off := 0x50, rw := 0x3ffff }  -- CFG_LEN
  , { off := 0x54 }  -- CFG_CMD
  ]

def defsEv : List RegDef :=
  [
    { off := 0x40, rw := 0xffffffff }  -- SNAP_AT_LO
  , { off := 0x44, rw := 0xffffffff }  -- SNAP_AT_HI
  , { off := 0x48, rw := 0xfffff }  -- SNAP_CTL
  , { off := 0x4c }  -- SNAP_STS
  , { off := 0x50 }  -- SNAP_LAST_LO
  , { off := 0x54 }  -- SNAP_LAST_HI
  , { off := 0x58, rw := 0xff }  -- EVT_CHAN_SEL
  , { off := 0x5c, rw := 0xfff7ffff }  -- EVT_CHAN_CFG
  , { off := 0x60, cnt := 8 }  -- EVT_CHAN_PEND
  , { off := 0x80, ctr := true }  -- LOCKVIOL_CNT
  , { off := 0x84, ctr := true }  -- KEYVIOL_CNT
  , { off := 0x88, ctr := true }  -- UNMAPPED_CNT
  ]

def defsRec : List RegDef :=
  [
    { off := 0x40 }  -- REC_STS
  , { off := 0x44, rw := 0xfffffe00, lk0 := 0xfffffe00 }  -- DEST_BASE_LO
  , { off := 0x48, rw := 0xffff, lk0 := 0xffff }  -- DEST_BASE_HI
  , { off := 0x4c }  -- DEST_CMD
  , { off := 0x80, rw := 0xffffffff, cnt := 16 }  -- PROF_DMASK
  , { off := 0xc0, ctr := true }  -- CNT_RECORDS
  , { off := 0xc4, ctr := true }  -- CNT_LATE
  , { off := 0xc8, ctr := true }  -- CNT_NOTICES
  , { off := 0xcc, ctr := true }  -- CNT_COMMITS
  , { off := 0xd0, ctr := true }  -- CNT_COMMIT_BAD
  , { off := 0xd4, ctr := true }  -- CNT_COMMIT_STALE
  , { off := 0xe0, ctr := true, cnt := 8 }  -- CNT_DROP
  ]

def defsHm : List RegDef :=
  [
    { off := 0x40, rw := 0xff0006, lk1 := 0x2 }  -- HM_CTL
  , { off := 0x44, reset := 0x80000000 }  -- HM_STS
  , { off := 0x48, reset := 0x6e695f05, rw := 0xffffffff, lk0 := 0xffffffff }  -- TEMP_CFG
  , { off := 0x50 }  -- TEMP_01
  , { off := 0x54 }  -- TEMP_23
  , { off := 0x58 }  -- TEMP_45
  , { off := 0x5c }  -- TEMP_67
  , { off := 0x60 }  -- TEMP_89
  , { off := 0x64 }  -- TEMP_1011
  , { off := 0x68 }  -- TEMP_1213
  , { off := 0x6c }  -- TEMP_1415
  , { off := 0x70 }  -- TEMP_1617
  , { off := 0x74 }  -- TEMP_1819
  , { off := 0x78 }  -- TEMP_2021
  , { off := 0x7c }  -- TEMP_2223
  , { off := 0x80 }  -- VOLT_01
  , { off := 0x84 }  -- VOLT_23
  , { off := 0x88 }  -- VOLT_45
  , { off := 0x8c }  -- VOLT_67
  , { off := 0x90 }  -- VOLT_89
  ] ++ [
    { off := 0x94 }  -- VOLT_1011
  , { off := 0x98 }  -- VOLT_1213
  , { off := 0x9c }  -- VOLT_1415
  , { off := 0xa0 }  -- PROC_01
  , { off := 0xa4 }  -- PROC_23
  , { off := 0xa8 }  -- PROC_45
  , { off := 0xac }  -- PROC_67
  , { off := 0xb0 }  -- PROC_89
  , { off := 0xb4 }  -- PROC_1011
  , { off := 0xb8 }  -- PROC_1213
  , { off := 0xbc }  -- PROC_1415
  , { off := 0xc0 }  -- PROC_1617
  , { off := 0xc4 }  -- PROC_1819
  , { off := 0xc8 }  -- PROC_2021
  , { off := 0xcc }  -- PROC_2223
  , { off := 0xd0 }  -- PROC_2425
  , { off := 0xd4 }  -- PROC_2627
  , { off := 0xd8 }  -- PROC_2829
  , { off := 0xdc }  -- PROC_3031
  , { off := 0xe0, rw := 0xffff }  -- PROC_CFG
  ] ++ [
    { off := 0xe4 }  -- ALIVE
  , { off := 0xe8 }  -- SAFE_CMD
  , { off := 0xec }  -- FENCE_CMD
  , { off := 0xf0 }  -- FENCE_STS
  , { off := 0x100, ctr := true }  -- CNT_THROT_US
  , { off := 0x104, ctr := true }  -- CNT_TEMP_WARN
  , { off := 0x108, ctr := true }  -- CNT_RAIL_WARN
  , { off := 0x10c, ctr := true }  -- CNT_ALIVE_MISS
  ]

def defsFlog : List RegDef :=
  [
    { off := 0x40 }  -- FLOG_NEXT
  , { off := 0x44 }  -- FLOG_STS
  , { off := 0x48, rw := 0xffffffff }  -- FLOG_SEL
  , { off := 0x4c, reset := 0x1, rw := 0x103 }  -- FLOG_CTL
  , { off := 0x50, cnt := 8 }  -- FLOG_W
  , { off := 0x70 }  -- FLOG_CMD
  , { off := 0xc0, ctr := true }  -- CNT_ENTRIES
  , { off := 0xc4, ctr := true }  -- CNT_OVERWRITTEN
  ]

def defsPin : List RegDef :=
  [
    { off := 0x40, reset := 0x1000000, rw := 0xff00000f, lk0 := 0xc000000f, cnt := 32 }  -- PIN_CFG
  , { off := 0xc0, rw := 0xffffffff }  -- GPIO_OUT
  , { off := 0xc4, rw := 0xffffffff }  -- GPIO_OE
  , { off := 0xc8 }  -- GPIO_IN
  , { off := 0xcc }  -- GPIO_SET
  , { off := 0xd0 }  -- GPIO_CLR
  , { off := 0xd4, rw := 0xffffffff }  -- GPIO_EDGE_EN
  , { off := 0xd8 }  -- GPIO_EDGE_STS
  ]

def defsAlert : List RegDef :=
  [
    { off := 0x40, rw := 0x3fe03 }  -- ALERT_CTL
  , { off := 0x44, reset := 0x3e8, rw := 0xffff }  -- TONE_CFG
  , { off := 0x48, reset := 0xc800c8, rw := 0xffffffff }  -- TONE_CAD
  , { off := 0x4c, rw := 0xffffffc0, lk0 := 0xffffffc0 }  -- PCM_BASE_LO
  , { off := 0x50, rw := 0xffff, lk0 := 0xffff }  -- PCM_BASE_HI
  , { off := 0x54, rw := 0xfffff, lk0 := 0xfffff }  -- PCM_LEN
  , { off := 0x58 }  -- PCM_RPTR
  , { off := 0x5c, rw := 0xfffff }  -- PCM_WPTR
  , { off := 0x60 }  -- ALERT
  , { off := 0x64 }  -- ALERT_CMD
  , { off := 0xc0, ctr := true }  -- CNT_TRIPS
  , { off := 0xc4, ctr := true }  -- CNT_UNDERRUN
  ]

def defsP0 : List RegDef :=
  [
    { off := 0x40, reset := 0x800, rw := 0x3fff01, lk0 := 0x3f0000, item := 0x3f0000 }  -- PORT_CTL
  , { off := 0x44, reset := 0x9000000, rw := 0xf007fff, lk0 := 0xf007fff }  -- PORT_FMT
  , { off := 0x48 }  -- PORT_STS
  , { off := 0x4c, reset := 0x258, rw := 0xfffff }  -- LINE_PER
  , { off := 0x50, rw := 0xfffff }  -- EXP_START0
  , { off := 0x54, rw := 0xfffff }  -- EXP_STOP0
  , { off := 0x58, rw := 0xfffff }  -- EXP_START1
  , { off := 0x5c, rw := 0xfffff }  -- EXP_STOP1
  , { off := 0x60, rw := 0xfffff }  -- EXP_START2
  , { off := 0x64, rw := 0xfffff }  -- EXP_STOP2
  , { off := 0x68, rw := 0xfffff }  -- STB_START0
  , { off := 0x6c, rw := 0xfffff }  -- STB_STOP0
  , { off := 0x70, rw := 0xfffff }  -- STB_START1
  , { off := 0x74, rw := 0xfffff }  -- STB_STOP1
  , { off := 0x78, rw := 0xfffff }  -- STB_START2
  , { off := 0x7c, rw := 0xfffff }  -- STB_STOP2
  , { off := 0x80, reset := 0x7, rw := 0x77 }  -- STB_CTL
  , { off := 0x84, reset := 0x1, rw := 0xc03fffff }  -- STEP_CFG
  , { off := 0x88, rw := 0xfffff }  -- STEP_OFS
  , { off := 0x8c }  -- TIMING_CTL
  ] ++ [
    { off := 0x90 }  -- TIMING_STS
  , { off := 0x94, rw := 0xffff }  -- REG_ADDR
  , { off := 0x98, rw := 0xffffffff }  -- REG_WDATA
  , { off := 0x9c }  -- REG_RDATA
  , { off := 0xa0 }  -- REG_CMD
  , { off := 0xa4 }  -- REG_STS
  , { off := 0xc0, ctr := true }  -- CNT_LINES
  , { off := 0xc4, ctr := true }  -- CNT_REPL_LINK
  , { off := 0xc8, ctr := true }  -- CNT_REPL_SEQ
  , { off := 0xcc, ctr := true }  -- CNT_REPL_FMT
  , { off := 0xd0, ctr := true }  -- CNT_REPL_CRC
  , { off := 0xd4, ctr := true }  -- CNT_REPL_LATE
  , { off := 0xd8, ctr := true }  -- CNT_HDR_ERR
  ]

def defsP1 : List RegDef :=
  [
    { off := 0x40, rw := 0x100, item := 0x100 }  -- COND_CTL
  , { off := 0x44, reset := 0x100, rw := 0x7ffffff, lk0 := 0x7ffffff, item := 0x7ffffff }  -- MIX
  , { off := 0x48, rw := 0xffffff, lk0 := 0xffffff, item := 0xffffff }  -- DLY
  , { off := 0x4c, rw := 0xfffff000, lk0 := 0xfffff000, item := 0xfffff000 }  -- DLY_BASE_LO
  , { off := 0x50, rw := 0xffff, lk0 := 0xffff, item := 0xffff }  -- DLY_BASE_HI
  , { off := 0x54, rw := 0xffffffff }  -- COEF_SRC_LO
  , { off := 0x58, rw := 0xffff }  -- COEF_SRC_HI
  , { off := 0x5c }  -- COEF_CMD
  , { off := 0x60 }  -- COND_STS
  , { off := 0x80, ctr := true }  -- CNT_SAT_HI
  , { off := 0x84, ctr := true }  -- CNT_SAT_LO
  ]

def defsP2 : List RegDef :=
  [
    { off := 0x40, rw := 0x3 }  -- ARCH_CTL
  , { off := 0x44, rw := 0xfffff000, lk0 := 0xfffff000 }  -- ARCH_BASE_LO
  , { off := 0x48, rw := 0xffff, lk0 := 0xffff }  -- ARCH_BASE_HI
  , { off := 0x4c, rw := 0xffffff, lk0 := 0xffffff }  -- ARCH_LINES
  , { off := 0x50 }  -- ARCH_WPTR
  , { off := 0x54, rw := 0xffffff }  -- ARCH_RPTR
  , { off := 0x58, rw := 0x3000000f }  -- CAL_CTL
  , { off := 0x5c, reset := 0x10000, rw := 0x7fff3fff }  -- CAL_WIN
  , { off := 0x60, rw := 0xfffff }  -- CAL_LEN
  , { off := 0x64, rw := 0xffffffff }  -- CAL_DST_LO
  , { off := 0x68, rw := 0xffff }  -- CAL_DST_HI
  , { off := 0x6c }  -- CAL_STS
  , { off := 0x80, ctr := true }  -- CNT_ARCH_DROP
  ]

def defsP3 : List RegDef :=
  [
    { off := 0x40, rw := 0x233 }  -- FRAME_CTL
  , { off := 0x44, reset := 0x10032000, rw := 0xff0fffff }  -- EDGE_THR
  , { off := 0x48, reset := 0xff0000, rw := 0x3fff3fff }  -- EDGE_WIN
  , { off := 0x4c, reset := 0x800010, rw := 0x3ff3fff }  -- OCC
  , { off := 0x50, reset := 0x804000, rw := 0xfffffff, item := 0xfffffff }  -- ITEM_LIM
  , { off := 0x54, reset := 0x400000, rw := 0x3ff03ff }  -- ITEM_GAP
  , { off := 0x58, reset := 0x10000000, rw := 0xffff0fff, item := 0xffff0000 }  -- PP_CFG
  , { off := 0x5c, reset := 0x3042, rw := 0xffff71f3, lk0 := 0xff0071f3, stripe := 0xff0000 }  -- STRIPE_CFG
  , { off := 0x60, reset := 0x400, rw := 0x1ffff, lk0 := 0x1ffff }  -- STRIPE_WIN
  , { off := 0x64, rw := 0x1ff01ff, lk0 := 0x1ff01ff }  -- ZONE
  , { off := 0x68, rw := 0xfffff000, lk0 := 0xfffff000 }  -- RING_BASE_LO
  , { off := 0x6c, rw := 0xffff, lk0 := 0xffff }  -- RING_BASE_HI
  , { off := 0x70, reset := 0x400, rw := 0xfffff, lk0 := 0xfffff }  -- RING_LINES
  , { off := 0x74 }  -- FRAME_STS
  , { off := 0x80, rw := 0xffffffff, cnt := 8 }  -- STEER_MASK
  , { off := 0xa0 }  -- STEER_POST
  , { off := 0xc0, ctr := true }  -- CNT_ITEMS
  , { off := 0xc4, ctr := true }  -- CNT_STRIPES
  , { off := 0xc8, ctr := true }  -- CNT_END_LEN
  , { off := 0xcc, ctr := true }  -- CNT_END_GAP
  ] ++ [
    { off := 0xd0, ctr := true }  -- CNT_END_STALL
  , { off := 0xd4, ctr := true }  -- CNT_STEER_STALE
  ]

def defsSin : List RegDef :=
  [
    { off := 0x40, reset := 0x1000c8ff, rw := 0x7fffffff }  -- SIN_CTL
  , { off := 0x44, reset := 0x5dc0, rw := 0xffff }  -- DEC_BUDGET
  , { off := 0x48, rw := 0xffffffc0 }  -- CNT_BASE_LO
  , { off := 0x4c, rw := 0xffff }  -- CNT_BASE_HI
  , { off := 0x50, rw := 0xffffffc0 }  -- ARENA_BASE_LO
  , { off := 0x54, rw := 0xffff }  -- ARENA_BASE_HI
  , { off := 0x58, rw := 0xffff }  -- ARENA_MB
  , { off := 0x5c }  -- SIN_STS
  , { off := 0x80, ctr := true }  -- CNT_PACKETS
  , { off := 0x84, ctr := true }  -- CNT_SAMPLES
  , { off := 0x88, ctr := true }  -- CNT_PLACEHOLDER
  , { off := 0x8c, ctr := true }  -- CNT_ESPOT_STALE
  ]

def defsCtx : List RegDef :=
  [
    { off := 0x40, rw := 0x3ff }  -- CTX_SEL
  , { off := 0x44, reset := 0x600000, rw := 0xf87fffff }  -- CTX_CTL
  , { off := 0x48, rw := 0xffffffff, cnt := 4 }  -- CTX_SRC
  , { off := 0x58, reset := 0x50002d0, rw := 0x3fff3fff }  -- CTX_MAX
  , { off := 0x5c, reset := 0x809c4, rw := 0xffffff }  -- CTX_RATE
  , { off := 0x60, reset := 0x8100618, rw := 0x7fffffff }  -- CTX_TRACK
  , { off := 0x64, reset := 0x7d0, rw := 0xffffffff }  -- CTX_TIME
  , { off := 0x68, reset := 0xc800, rw := 0xff3f, item := 0x3f }  -- CTX_PROF
  , { off := 0x6c, rw := 0xffffffff }  -- CTX_MAP_RTP
  , { off := 0x70, rw := 0xffffffff }  -- CTX_MAP_TB_LO
  , { off := 0x74, rw := 0xffffffff }  -- CTX_MAP_TB_HI
  , { off := 0x78 }  -- CTX_STS
  , { off := 0x7c }  -- CTX_DIM
  , { off := 0x80 }  -- CTX_SSRC
  ]

def defsTile : List RegDef :=
  [
    { off := 0x40 }  -- TILE_CTL
  , { off := 0x44, rw := 0xfffe0 }  -- TILE_PC
  , { off := 0x48 }  -- TILE_STS
  , { off := 0x4c }  -- TILE_FAULT
  , { off := 0x50, rw := 0xffffffff }  -- SEM_01
  , { off := 0x54, rw := 0xffffffff }  -- SEM_23
  , { off := 0x58, rw := 0xffffffff }  -- SEM_45
  , { off := 0x5c, rw := 0xffffffff }  -- SEM_67
  , { off := 0x60, rw := 0xffffffff }  -- SEM_89
  , { off := 0x64, rw := 0xffffffff }  -- SEM_1011
  , { off := 0x68, rw := 0xffffffff }  -- SEM_1213
  , { off := 0x6c, rw := 0xffffffff }  -- SEM_1415
  , { off := 0x70 }  -- SEM_POST
  , { off := 0x74, rw := 0xffffffff }  -- TR1
  , { off := 0x78, rw := 0xffffffff }  -- TR2
  , { off := 0x7c, rw := 0xffffffff }  -- TR3
  , { off := 0x80, rw := 0xffffffff }  -- TR4
  , { off := 0x84, rw := 0xffffffff }  -- TR5
  , { off := 0x88, rw := 0xffffffff }  -- TR6
  , { off := 0x8c, rw := 0xffffffff }  -- TR7
  ] ++ [
    { off := 0x90, rw := 0xffffffff }  -- TR8
  , { off := 0x94, rw := 0xffffffff }  -- TR9
  , { off := 0x98, rw := 0xffffffff }  -- TR10
  , { off := 0x9c, rw := 0xffffffff }  -- TR11
  , { off := 0xa0, rw := 0xffffffff }  -- TR12
  , { off := 0xa4, rw := 0xffffffff }  -- TR13
  , { off := 0xa8, rw := 0xffffffff }  -- TR14
  , { off := 0xac, rw := 0xffffffff }  -- TR15
  , { off := 0xb0 }  -- DET_DONE_LO
  , { off := 0xb4 }  -- DET_DONE_HI
  , { off := 0xc0, ctr := true }  -- CNT_ARRAY_CYC
  , { off := 0xc4, ctr := true }  -- CNT_ESC_STALL
  , { off := 0xc8, ctr := true }  -- CNT_QDROP
  , { off := 0xcc, ctr := true }  -- CNT_RETIRE_STALE
  , { off := 0xd0, ctr := true }  -- CNT_DET_STALE
  , { off := 0xd4, ctr := true }  -- CODEC_SSE_LO
  , { off := 0xd8, ctr := true }  -- CODEC_SSE_HI
  , { off := 0xdc, ctr := true }  -- CODEC_MAXERR
  ]

def defsSeq : List RegDef :=
  [
    { off := 0x40 }  -- SEQ_STS
  , { off := 0x44, rw := 0xffffffc0 }  -- MDL_BASE_LO
  , { off := 0x48, rw := 0xffff }  -- MDL_BASE_HI
  , { off := 0x80, ctr := true }  -- CNT_SEQ_OPENED
  , { off := 0x84, ctr := true }  -- CNT_SEQ_ENDED
  ]

def defsAu : List RegDef :=
  [
    { off := 0x40, reset := 0x200, rw := 0x701, lk0 := 0x700 }  -- AU_CTL
  , { off := 0x44 }  -- AU_STS
  , { off := 0x48, rw := 0xfffff000, lk0 := 0xfffff000 }  -- POOL0_BASE_LO
  , { off := 0x4c, rw := 0xffff, lk0 := 0xffff }  -- POOL0_BASE_HI
  , { off := 0x50, rw := 0xfffff, lk0 := 0xfffff }  -- POOL0_PAGES
  , { off := 0x54, rw := 0xfffff000, lk0 := 0xfffff000 }  -- POOL1_BASE_LO
  , { off := 0x58, rw := 0xffff, lk0 := 0xffff }  -- POOL1_BASE_HI
  , { off := 0x5c, rw := 0xfffff, lk0 := 0xfffff }  -- POOL1_PAGES
  , { off := 0x60, rw := 0xfffff000, lk0 := 0xfffff000 }  -- PFX_BASE_LO
  , { off := 0x64, rw := 0xffff, lk0 := 0xffff }  -- PFX_BASE_HI
  , { off := 0x68, reset := 0xc, rw := 0x1f, lk0 := 0x1f }  -- PFX_BUCKETS
  , { off := 0x6c }  -- POOL0_FREE
  , { off := 0x70 }  -- POOL1_FREE
  , { off := 0x74, rw := 0xffffffff }  -- SEM_01
  , { off := 0x78, rw := 0xffffffff }  -- SEM_23
  , { off := 0x7c, rw := 0xffffffff }  -- SEM_45
  , { off := 0x80, rw := 0xffffffff }  -- SEM_67
  , { off := 0x84, rw := 0xffffffff }  -- SEM_89
  , { off := 0x88, rw := 0xffffffff }  -- SEM_1011
  , { off := 0x8c, rw := 0xffffffff }  -- SEM_1213
  ] ++ [
    { off := 0x90, rw := 0xffffffff }  -- SEM_1415
  , { off := 0x94 }  -- SEM_POST
  , { off := 0xc0, ctr := true }  -- CNT_STEPS
  , { off := 0xc4, ctr := true }  -- CNT_ROWS_ISSUED
  , { off := 0xc8, ctr := true }  -- CNT_ROWS_USED
  , { off := 0xcc, ctr := true }  -- CNT_CAND_OFFERED
  , { off := 0xd0, ctr := true }  -- CNT_CAND_ACCEPTED
  , { off := 0xd4, ctr := true }  -- CNT_TOKENS
  , { off := 0xd8, ctr := true }  -- CNT_PFX_HIT
  , { off := 0xdc, ctr := true }  -- CNT_PFX_MISS
  , { off := 0xe0, ctr := true }  -- CNT_PFX_UNSHARED
  , { off := 0xe4, ctr := true }  -- CNT_PFX_EVICT
  , { off := 0xe8, ctr := true }  -- CNT_EMPTY_SPAN
  , { off := 0xec, ctr := true }  -- CNT_NONFINITE
  ]

def defsTgu : List RegDef :=
  [
    { off := 0x40, rw := 0x1 }  -- TGU_CTL
  , { off := 0x44 }  -- TGU_STS
  , { off := 0x48 }  -- TGU_LOADED
  , { off := 0x4c }  -- LEX_USED
  , { off := 0x50, rw := 0xfffff000, lk0 := 0xfffff000 }  -- CTX_BASE_LO
  , { off := 0x54, rw := 0xffff, lk0 := 0xffff }  -- CTX_BASE_HI
  , { off := 0x58, rw := 0xfffff000, lk0 := 0xfffff000 }  -- MATCH_BASE_LO
  , { off := 0x5c, rw := 0xffff, lk0 := 0xffff }  -- MATCH_BASE_HI
  , { off := 0x60, rw := 0xfffff000, lk0 := 0xfffff000 }  -- GCACHE_BASE_LO
  , { off := 0x64, rw := 0xffff, lk0 := 0xffff }  -- GCACHE_BASE_HI
  , { off := 0x68, rw := 0xffff, lk0 := 0xffff }  -- MATCH_KB
  , { off := 0x6c, rw := 0xffff, lk0 := 0xffff }  -- GCACHE_KB
  , { off := 0x70 }  -- CTX_OPEN
  , { off := 0x74 }  -- GRM_DONE_LO
  , { off := 0x78 }  -- GRM_DONE_HI
  , { off := 0xc0, ctr := true }  -- CNT_TOK_BYTES
  , { off := 0xc4, ctr := true }  -- CNT_TOK_TOKENS
  , { off := 0xc8, ctr := true }  -- CNT_INVALID
  , { off := 0xcc, ctr := true }  -- CNT_UNK
  , { off := 0xd0, ctr := true }  -- CNT_REORDER_SKIP
  ] ++ [
    { off := 0xd4, ctr := true }  -- CNT_MASKS
  , { off := 0xd8, ctr := true }  -- CNT_MASK_STALL
  , { off := 0xdc, ctr := true }  -- CNT_CAND
  , { off := 0xe0, ctr := true }  -- CNT_CAND_FORCED
  , { off := 0xe4, ctr := true }  -- CNT_OVERFLOW
  , { off := 0xe8, ctr := true }  -- CNT_LEX_BAD
  , { off := 0xec, ctr := true }  -- CNT_DETOK_REPL
  , { off := 0xf0, ctr := true }  -- CNT_TEXT_TRUNC
  , { off := 0xf4, ctr := true }  -- CNT_GRM_STALE
  ]

def defsTf : List RegDef :=
  [
    { off := 0x40, rw := 0x1, wos := 0x1 }  -- TF_CTL
  , { off := 0x44 }  -- TF_STS
  , { off := 0x48 }  -- FW_VER
  , { off := 0x4c, rw := 0xffffffc0 }  -- FW_SRC_LO
  , { off := 0x50, rw := 0xffff }  -- FW_SRC_HI
  , { off := 0x54, rw := 0x1ffffff }  -- FW_LEN
  , { off := 0x58 }  -- TF_CMD
  , { off := 0x5c }  -- IPI
  , { off := 0x60 }  -- ASM_DONE_LO
  , { off := 0x64 }  -- ASM_DONE_HI
  , { off := 0xc0, ctr := true }  -- CNT_LAUNCHES
  , { off := 0xc4, ctr := true }  -- CNT_PEER_FAIL
  , { off := 0xc8, ctr := true }  -- CNT_ASM_STALE
  ]

def defsCore : List RegDef :=
  [
    { off := 0x40, rw := 0xfffffffc, lk0 := 0xfffffffc }  -- CORE_ENTRY_LO
  , { off := 0x44, rw := 0xffff, lk0 := 0xffff }  -- CORE_ENTRY_HI
  , { off := 0x48, reset := 0x2000000 }  -- CORE_STS
  , { off := 0xc0, ctr := true }  -- CNT_INSTR
  , { off := 0xc4, ctr := true }  -- CNT_VEC_BUSY
  , { off := 0xc8, ctr := true }  -- CNT_LAUNCH_DROP
  , { off := 0xcc, ctr := true }  -- CNT_VSLOT_WAIT
  ]

def defsMc : List RegDef :=
  [
    { off := 0x40 }  -- MC_STS
  , { off := 0x44, reset := 0x450820, rw := 0xffffff }  -- RETRAIN_CFG
  , { off := 0x48, reset := 0x8009600, rw := 0xffffff00, lk0 := 0xffffff00 }  -- RH_CFG
  , { off := 0x4c, reset := 0x43010, rw := 0xffffff }  -- WQ_CFG
  , { off := 0x50, reset := 0x18, rw := 0xffff }  -- SCRUB_CFG
  , { off := 0x54, reset := 0x64, rw := 0xffff }  -- CE_CFG
  , { off := 0x58, rw := 0xf }  -- PORT_SEL
  , { off := 0x5c, rw := 0xffff, lk0 := 0xffff }  -- PORT_TGT
  , { off := 0xc0, ctr := true }  -- CNT_FREEZE
  , { off := 0xc4, ctr := true }  -- CNT_RETRAIN
  , { off := 0xc8, ctr := true }  -- CNT_RETRAIN_FORCED
  , { off := 0xcc, ctr := true }  -- CNT_RH_THROTTLE
  , { off := 0xd0, ctr := true }  -- CNT_LAT_MISS
  ]

def defsCom : List RegDef :=
  [
    { off := 0x40, cnt := 14 }  -- UNIT_MAP
  , { off := 0xc0, ctr := true }  -- CNT_CE
  , { off := 0xc4, ctr := true }  -- CNT_UE
  , { off := 0xc8, ctr := true }  -- CNT_BAD_UNIT
  , { off := 0xcc, ctr := true }  -- CNT_SC_HIT
  , { off := 0xd0, ctr := true }  -- CNT_SC_MISS
  ]

def defsCh : List RegDef :=
  [
    { off := 0x0, reset := 0x30000000 }  -- CH_STS
  , { off := 0x4, reset := 0x20, rw := 0xff }  -- CH_CFG
  , { off := 0x8 }  -- CH_CMD
  , { off := 0x10, ctr := true }  -- CNT_RD
  , { off := 0x14, ctr := true }  -- CNT_WR
  , { off := 0x18, ctr := true }  -- CNT_ACT
  , { off := 0x1c, ctr := true }  -- CNT_FWD
  , { off := 0x20, ctr := true }  -- CNT_CE
  , { off := 0x24, ctr := true }  -- CNT_RETRAIN
  , { off := 0x28, ctr := true }  -- CNT_RH_RFM
  , { off := 0x2c, ctr := true }  -- CNT_LAT_MISS
  ]

def defsFrz : List RegDef :=
  [
    { off := 0x40, rw := 0x3f }  -- FRZ_SEL
  , { off := 0x44 }  -- FRZ_TB_LO
  , { off := 0x48 }  -- FRZ_TB_HI
  , { off := 0x4c }  -- FRZ_ADDR_LO
  , { off := 0x50 }  -- FRZ_ADDR_HI
  , { off := 0x54 }  -- FRZ_LOC
  , { off := 0x58 }  -- FRZ_SYN
  , { off := 0x5c }  -- FRZ_PORT
  , { off := 0x60 }  -- FRZ_QUEUE
  , { off := 0x80, cnt := 16 }  -- FRZ_HIST
  ]

def defsSch : List RegDef :=
  [
    { off := 0x40 }  -- PCMD
  , { off := 0x44, rw := 0xffffffc0 }  -- PDESC_LO
  , { off := 0x48, rw := 0xffff }  -- PDESC_HI
  , { off := 0x4c }  -- PCMD_STS
  , { off := 0x50, rw := 0x7ff }  -- SRC_SEL
  , { off := 0x54, rw := 0xff00, item := 0xff00 }  -- SRC_MAP
  , { off := 0xc0, ctr := true }  -- CNT_MISROUTE
  , { off := 0xc4, ctr := true }  -- CNT_SLICE_VIOL
  ]

def defsPart : List RegDef :=
  [
    { off := 0x40 }  -- PART_STS
  , { off := 0x44, reset := 0xc8064, rw := 0xffffff, lk0 := 0xffffff, slice := 0xffffff }  -- PART_LIM
  , { off := 0x48, reset := 0x1f403e8, rw := 0xffffffff, lk0 := 0xffffffff, slice := 0xffff0000 }  -- PART_TIME
  , { off := 0x4c }  -- PART_CMD
  , { off := 0x50, cnt := 5 }  -- TILE_MASK
  , { off := 0x64, cnt := 3 }  -- CORE_MASK
  , { off := 0x70 }  -- PAIR_MASK
  , { off := 0x74 }  -- SLICE_MASK_LO
  , { off := 0x78 }  -- SLICE_MASK_HI
  , { off := 0x7c }  -- WAY_MASK
  , { off := 0x80, reset := 0x7000 }  -- PART_RES
  , { off := 0x84, rw := 0xf }  -- VI_SEL
  , { off := 0x88, reset := 0xfa0, rw := 0xffffff, slice := 0xffffff }  -- VI_CFG
  , { off := 0x8c }  -- VI_STS
  , { off := 0x90 }  -- VI_CMD
  , { off := 0x94, rw := 0xffffffc0 }  -- VI_COC_LO
  , { off := 0x98, rw := 0xffff }  -- VI_COC_HI
  , { off := 0x9c, rw := 0xffffffc0 }  -- VI_SAVE_LO
  , { off := 0xa0, rw := 0xffff }  -- VI_SAVE_HI
  , { off := 0xc0, ctr := true }  -- CNT_SLICES
  ] ++ [
    { off := 0xc4, ctr := true }  -- CNT_SWITCH_US
  , { off := 0xc8, ctr := true }  -- CNT_DRAIN_CUT
  , { off := 0xcc, ctr := true }  -- CNT_YIELD_LATE
  , { off := 0xd0, ctr := true }  -- CNT_FULL_SAVE
  , { off := 0xd4, ctr := true }  -- CNT_PLACE_DROP
  , { off := 0xd8, ctr := true }  -- CNT_LAUNCH_DROP
  ]

def defsKl : List RegDef :=
  [
    { off := 0x40, reset := 0xa640000, rw := 0xffff0001, lk0 := 0xffff0000 }  -- KL_CTL
  , { off := 0x44 }  -- KL_STS
  , { off := 0x48 }  -- KL_SERIAL_LO
  , { off := 0x4c }  -- KL_SERIAL_HI
  , { off := 0x50 }  -- KL_COORD_LO
  , { off := 0x54 }  -- KL_COORD_HI
  , { off := 0x58 }  -- KL_OFFSET
  , { off := 0x5c, reset := 0xc8, rw := 0xffff }  -- KL_TIMEOUT
  , { off := 0x80, rw := 0x1ff01ff, lk0 := 0x1ff01ff, cnt := 128 }  -- ACCEPT
  , { off := 0x2c0, ctr := true }  -- CNT_PEER_IN
  , { off := 0x2c4, ctr := true }  -- CNT_REFUSED
  , { off := 0x2c8, ctr := true }  -- CNT_TIMEOUT
  , { off := 0x2cc, ctr := true }  -- CNT_TTL
  , { off := 0x2d0, ctr := true }  -- CNT_LOST
  , { off := 0x2d4, ctr := true }  -- CNT_TB_REFUSED
  , { off := 0x2d8, ctr := true }  -- CNT_SHADOW_BAD
  ]

def defsLink : List RegDef :=
  [
    { off := 0x40, rw := 0xff01, lk0 := 0xff00 }  -- LINK_CTL
  , { off := 0x44 }  -- LINK_STS
  , { off := 0x48 }  -- LINK_PEER_LO
  , { off := 0x4c }  -- LINK_PEER_HI
  , { off := 0xc0, ctr := true }  -- CNT_TX
  , { off := 0xc4, ctr := true }  -- CNT_RX
  , { off := 0xc8, ctr := true }  -- CNT_REPLAY
  , { off := 0xcc, ctr := true }  -- CNT_CRC
  , { off := 0xd0, ctr := true }  -- CNT_FEC_CORR
  , { off := 0xd4, ctr := true }  -- CNT_FEC_UNCORR
  , { off := 0xd8, ctr := true }  -- CNT_FAIL
  ]

def defsHp : List RegDef :=
  [
    { off := 0x40 }  -- HP_STS
  , { off := 0xc0, ctr := true }  -- CNT_HOST_LOST
  , { off := 0xc4, ctr := true }  -- CNT_DB_BAD
  , { off := 0xc8, ctr := true }  -- CNT_VEC_DROP
  , { off := 0xcc, ctr := true }  -- CNT_QERR
  ]

def defsQp : List RegDef :=
  [
    { off := 0x40 }  -- QUEUE_CMD
  , { off := 0x44, rw := 0xffffffc0 }  -- QUEUE_DESC_LO
  , { off := 0x48, rw := 0xffff }  -- QUEUE_DESC_HI
  , { off := 0x4c }  -- QUEUE_STS
  , { off := 0x50, rw := 0xfff }  -- QUEUE_SEL
  , { off := 0x54 }  -- QUEUE_STATE
  ]

def defsEth : List RegDef :=
  [
    { off := 0x40, reset := 0x5dc0000, rw := 0x3fff0003, lk0 := 0x3fff0002 }  -- ETH_CTL
  , { off := 0x44 }  -- ETH_STS
  , { off := 0x48, rw := 0xffffffff, lk0 := 0xffffffff }  -- MAC_LO
  , { off := 0x4c, rw := 0xffff, lk0 := 0xffff }  -- MAC_HI
  , { off := 0x50, reset := 0x1a90, rw := 0xffff, lk0 := 0xffff }  -- MGMT_PORT
  , { off := 0x54, rw := 0x7 }  -- IF_SEL
  , { off := 0x58, rw := 0xffffffff }  -- IF_CTL
  , { off := 0x5c, rw := 0xffffffff }  -- IF_IP4
  , { off := 0x60, rw := 0xffffffff, cnt := 16 }  -- IF_IP6
  , { off := 0xc0, ctr := true }  -- CNT_TX_FRAMES
  , { off := 0xc4, ctr := true }  -- CNT_RX_FRAMES
  , { off := 0xc8, ctr := true }  -- CNT_RX_FILTER
  , { off := 0xcc, ctr := true }  -- CNT_RX_DROP
  , { off := 0xd0, ctr := true }  -- CNT_FCS
  ]

/-- The block-specific registers of a page. The channel pages give the registers of one channel (R331: channel q at
0x100 + 0x40 (q mod 32)). -/
def pageDefs : PageKind → List RegDef
  | .dir => []
  | .fam => defsFam
  | .gt => defsGt
  | .clk => defsClk
  | .ao => defsAo
  | .cfg => defsCfg
  | .ev => defsEv
  | .rcd => defsRec
  | .hm => defsHm
  | .flog => defsFlog
  | .pin => defsPin
  | .alert => defsAlert
  | .p0 => defsP0
  | .p1 => defsP1
  | .p2 => defsP2
  | .p3 => defsP3
  | .sin => defsSin
  | .sctx => defsCtx
  | .tile => defsTile
  | .seqc => defsSeq
  | .au => defsAu
  | .tgu => defsTgu
  | .tf => defsTf
  | .core => defsCore
  | .mc => defsMc
  | .com => defsCom
  | .ch => defsCh
  | .frz => defsFrz
  | .sch => defsSch
  | .part => defsPart
  | .kl => defsKl
  | .link => defsLink
  | .hp => defsHp
  | .qp => defsQp
  | .eth => defsEth
  | .dbr => []
  | .dbc => []

end Sys2Proof.Machine
end

