-- ==== Sys2Proof/Machine/RegMap.lean ====
section
/-! DEFINITION. Which page and register a BAR0 offset names (R448), the reset value of every register (R10, R55), the
keys of the registers that a selector shows one at a time, and the clamps by which a write stores another value (R67). -/
namespace Sys2Proof.Machine

/-- The page at BAR0 offset `o` (rounded down to 4 KiB), none where no page lies (R448, R57). -/
def pageAt (o : Nat) : Option PageKind :=
  let p := o / 0x1000
  if p < 0x10 then
    match p with
    | 0 => some .dir | 1 => some .fam | 2 => some .gt | 3 => some .clk | 4 => some .ao | 5 => some .cfg
    | 6 => some .ev | 7 => some .rcd | 8 => some .hm | 9 => some .flog | 10 => some .pin | 11 => some .alert
    | _ => none
  else if p < 0x20 then
    match p % 4 with | 0 => some .p0 | 1 => some .p1 | 2 => some .p2 | _ => some .p3
  else if p = 0x20 then some .sin
  else if p = 0x21 then some .sctx
  else if 0x100 ≤ p ∧ p < 0x1A0 then some .tile
  else if p = 0x200 then some .seqc
  else if 0x201 ≤ p ∧ p < 0x209 then some .au
  else if p = 0x210 then some .tgu
  else if p = 0x220 then some .tf
  else if 0x221 ≤ p ∧ p < 0x281 then some .core
  else if p = 0x300 then some .mc
  else if p = 0x301 then some .com
  else if p = 0x302 ∨ p = 0x303 then some .ch
  else if p = 0x304 then some .frz
  else if p = 0x310 then some .sch
  else if 0x311 ≤ p ∧ p < 0x319 then some .part
  else if p = 0x320 then some .kl
  else if 0x321 ≤ p ∧ p < 0x329 then some .link
  else if p = 0x330 then some .hp
  else if p = 0x331 then some .qp
  else if p = 0x332 ∨ p = 0x333 then some .eth
  else if p = 0x336 ∨ p = 0x337 then some .dbr
  else if 0x338 ≤ p ∧ p < 0x340 then some .dbc
  else none

/-- The start of the block range that holds page offset `o`, and its block code (R448, R451). -/
def blockOf (o : Nat) : Nat × Nat :=
  if o < 0x10000 then (0, 1) else if o < 0x20000 then (0x10000, 2) else if o < 0x100000 then (0x20000, 3)
  else if o < 0x200000 then (0x100000, 4) else if o < 0x210000 then (0x200000, 5)
  else if o < 0x220000 then (0x210000, 6) else if o < 0x300000 then (0x220000, 7)
  else if o < 0x310000 then (0x300000, 8) else if o < 0x320000 then (0x310000, 9)
  else if o < 0x330000 then (0x320000, 10) else (0x330000, 11)

/-- BLK_ID of the page at `o` (R55). -/
def blkId (o : Nat) : Nat := (blockOf o).2 * 0x10000 + (o - (blockOf o).1) / 0x1000

/-- The 4 KiB page base of a register key. -/
def pageBase (a : Nat) : Nat := a / 0x1000 * 0x1000

/-- The key of the copy for index `i` of a register that a selector shows one index of (EVT_CHAN_CFG, PORT_TGT, SRC_MAP,
VI_CFG, IF_CTL and the like): above the 26-bit register space. -/
def bank (i a : Nat) : Nat := a + (i + 1) * 0x4000000

/-- Words of the map directory (R451): BASE and SPAN of each block. -/
def dirWord (r : Nat) : Nat :=
  if r < 0x40 ∨ 0x98 ≤ r then 0
  else
    let spans : List (Nat × Nat) := [(0, 0x0010000C), (0x10000, 0x00100010), (0x20000, 0x00100002), (0x100000, 0x00A000A0),
      (0x200000, 0x00100009), (0x210000, 0x00100001), (0x220000, 0x00E00061), (0x300000, 0x00100005), (0x310000, 0x00100009),
      (0x320000, 0x00100009), (0x330000, 0x0010000E)]
    let e := (spans.drop ((r - 0x40) / 8)).headD (0, 0)
    if r % 8 = 0 then e.1 else e.2

/-- Reset value of PORT_TGT for port class c (R318). -/
def portTgtReset (c : Nat) : Nat :=
  ([150, 600, 400, 400, 300, 300, 500, 400, 1000, 300, 200, 4000].drop c).headD 0

/-- The definition of the register at page offset `r`, with its index in an array. -/
def findDef : List RegDef → Nat → Option RegDef
  | [], _ => none
  | d :: t, r => if d.off ≤ r ∧ r < d.off + d.stride * d.cnt ∧ (r - d.off) % d.stride = 0 then some d else findDef t r

/-- The block-specific register of key `a`: on a channel page, the register within the channel's block (R333). -/
def defAt (a : Nat) : Option RegDef :=
  let o := a % 0x4000000
  match pageAt o with
  | none => none
  | some .ch => if 0x100 ≤ o % 0x1000 ∧ o % 0x1000 < 0x900 then findDef defsCh ((o % 0x1000 - 0x100) % 0x40) else none
  | some k => if o % 0x1000 < 0x40 then none else findDef (pageDefs k) (o % 0x1000)

/-- The reset value of register key `a`. -/
def resetAt (a : Nat) : Word :=
  let o := a % 0x4000000
  let r := o % 0x1000
  match pageAt o with
  | none => 0
  | some k =>
    if r = 0 then BitVec.ofNat 32 (blkId o)
    else if r = 4 then 0x01000000
    else if k = .dir then BitVec.ofNat 32 (dirWord r)
    else if k = .mc ∧ r = Reg.PORT_TGT % 0x1000 then BitVec.ofNat 32 (portTgtReset (a / 0x4000000 - 1))
    else if k = .eth ∧ r = 0x48 then (Config.factoryMac (o / 0x1000 % 2)).setWidth 32
    else if k = .eth ∧ r = 0x4C then BitVec.ofNat 32 ((Config.factoryMac (o / 0x1000 % 2)).toNat / 2 ^ 32)
    else if k = .kl ∧ r = 0x48 then Config.serial.setWidth 32
    else if k = .kl ∧ r = 0x4C then (Config.serial >>> 32).setWidth 32
    else match defAt a with
      | some d => BitVec.ofNat 32 d.reset
      | none => 0

/-- A field of register key `a` (page offset, high bit, low bit) whose writes store a value held in a range, or another
value where the written one lies outside it (R67 and the register tables). `outside none` clamps to the nearer bound. -/
structure Clamp where
  kind : PageKind
  off : Nat
  hi : Nat
  lo : Nat
  least : Nat
  most : Nat
  outside : Option Nat := none
  zeroOk : Bool := false
  deriving DecidableEq, Repr

/-- The clamps that the register tables state. -/
def clamps : List Clamp :=
  [ ⟨.gt, 0x40, 9, 0, 6, 1000, none, false⟩,            -- GT_CTL.SEAL_LEAD_US
    ⟨.ev, 0x48, 19, 0, 10, 0xFFFFF, none, true⟩,          -- SNAP_CTL.PERIOD_US: 1 to 9 store 10
    ⟨.p3, 0x44, 31, 24, 1, 255, none, false⟩,             -- EDGE_THR.TRAIL_RUN
    ⟨.p3, 0x4C, 25, 16, 8, 1023, none, false⟩,            -- OCC.SKEW_WIN
    ⟨.p3, 0x4C, 13, 0, 1, 0x3FFF, none, false⟩,           -- OCC.OCC_MIN
    ⟨.p3, 0x70, 19, 0, 1024, 0xFFFFF, none, false⟩,       -- RING_LINES
    ⟨.sin, 0x40, 30, 24, 1, 64, none, false⟩,             -- SIN_CTL.BATCH_N
    ⟨.mc, 0x44, 23, 20, 1, 15, none, false⟩,              -- RETRAIN_CFG.MAX_CONC
    ⟨.mc, 0x44, 15, 8, 1, 255, none, false⟩,              -- RETRAIN_CFG.SLACK_MS
    ⟨.mc, 0x48, 31, 16, 256, 65535, none, false⟩,         -- RH_CFG.RH_THR
    ⟨.part, 0x44, 23, 12, 1, 4095, none, false⟩,          -- PART_LIM.DRAIN_LIMIT_US
    ⟨.part, 0x44, 11, 0, 10, 4095, none, false⟩,          -- PART_LIM.YIELD_LIMIT_US
    ⟨.part, 0x88, 23, 0, 100, 0xFFFFFF, none, false⟩,     -- VI_CFG.QUANTUM_US
    ⟨.kl, 0x40, 23, 16, 1, 255, none, false⟩,             -- KL_CTL.ELECT_MS
    ⟨.kl, 0x5C, 15, 0, 1, 0xFFFF, none, false⟩,           -- KL_TIMEOUT.PEER_US
    ⟨.eth, 0x40, 29, 16, 1280, 9100, some 1500, false⟩,   -- ETH_CTL.MTU
    ⟨.alert, 0x40, 17, 9, 0, 256, none, false⟩,           -- ALERT_CTL.VOL
    ⟨.alert, 0x44, 14, 0, 20, 20000, some 1000, false⟩,   -- TONE_CFG.FREQ
    ⟨.alert, 0x48, 31, 16, 1, 65535, none, false⟩ ]       -- TONE_CAD.ON_MS

/-- The value one clamped field stores for a written `n`. -/
def Clamp.apply (c : Clamp) (n : Nat) : Nat :=
  if c.zeroOk ∧ n = 0 then 0
  else if c.least ≤ n ∧ n ≤ c.most then n
  else match c.outside with
    | some v => v
    | none => nclamp c.least c.most n

/-- The word a write of `v` to register key `a` stores, after every clamp of the register. -/
def clampWord (a : Nat) (v : Word) : Word :=
  let o := a % 0x4000000
  clamps.foldl (fun v c => if pageAt o = some c.kind ∧ o % 0x1000 = c.off
    then putBits v c.hi c.lo (c.apply (bits v c.hi c.lo)) else v) v

end Sys2Proof.Machine
end

