-- ==== Sys2Proof/Machine/State.lean ====
section
/-! DEFINITION. The state of the module: every register, memory, queue, counter, mode and pin the spec gives it, as plain
data, and the machine right after reset.  "Unlisted" below means: not an entry of a sparse table (`Tab`). -/
namespace Sys2Proof.Machine

/-! ## What leaves the device -/

/-- A UDP datagram as sent (R298): Ethernet port, addressing and payload. -/
structure Datagram where
  port : Nat
  dmac : Nat
  vlan : Nat
  v6 : Bool
  src : Bytes
  dst : Bytes
  dscp : Nat
  ttl : Nat
  df : Bool
  sport : Nat
  dport : Nat
  payload : Bytes
  deriving DecidableEq, Repr

/-- An output of the device, as it leaves a pin, a lane or a link. -/
inductive Out where
  /-- An MSI-X message of a function's vector (R394). -/
  | msix (fn vec : Nat) (addr : DWord) (data : Word)
  /-- Data returned to a requester that read a register (R57). -/
  | read (req : BitVec 16) (a : Nat) (v : Word)
  /-- An event channel of KIND 3 signals the warden (R64). -/
  | warden (chan : Nat)
  /-- A UDP datagram (R298). -/
  | udp (d : Datagram)
  /-- An Ethernet frame of SEND, without FCS (R405). -/
  | frame (port : Nat) (b : Bytes)
  /-- A block on a port's control lane: its type and payload (R79). -/
  | isl (port kind : Nat) (payload : Bytes)
  /-- An event slot of an EVENT block (R78): the line number's low byte, the kind and the colour; its FINE offset is timing. -/
  | islEvent (port line kind colour : Nat)
  /-- A flit sent on a Kralon link (R368): its TYPE and its 256 bytes. -/
  | flit (link : Nat) (kind : Nat) (body : Bytes)
  /-- A sample of the alert stage (R441). -/
  | tone (v : Int)
  /-- Bits shifted out of TDO (R439). -/
  | tdo (v : Nat) (n : Nat)
  deriving DecidableEq, Repr

/-! ## Clocks, timebase and calendar (02_clocks_time_and_emergence.md) -/

/-- The clock system of R36 to R45: the timebase and the calendar. -/
structure Clk where
  /-- TCLK runs (from the end of E2 until the clocks stop, R36). 1 bit; 0 at reset. -/
  running : Bool := false
  /-- The timebase, 64 bits (R36); 0 at the end of E2. -/
  tb : DWord := 0
  /-- The 32-bit fraction of the rate trim (R38); 0 at the end of E2. -/
  frac : Word := 0
  /-- TB_RATE.RATE, 32-bit signed (R38); reset 0. -/
  rate : Word := 0
  /-- The slew still to apply, 32-bit signed (R38); reset 0. -/
  slew : Word := 0
  /-- The 11-bit tick counter (R38); 0 at the end of E2. -/
  tick : BitVec 11 := 0
  /-- A slew nanosecond is due (R38), 1 bit; 0 at the end of E2. -/
  owed : Bool := false
  /-- TCLK cycles counted since the end of E2, for the durations that R61 measures in TCLK; the model's count. -/
  tclk : Nat := 0
  /-- The TB_HI latch of each requester (R39), 32 bits, keyed by `latchKey`; reset 0. -/
  tbHi : Tab Word := []
  /-- Calendar seconds, 64 bits (R41); 0 when the calendar restarts. DESIGN CHOICE 0 at reset, log entry 5. -/
  calSec : DWord := 0
  /-- Calendar fraction, 16 bits, always even (R42). DESIGN CHOICE 0 at reset, log entry 5. -/
  calFrac : Half := 0
  /-- The calendar runs (backup voltage above retention, R41), 1 bit. DESIGN CHOICE true at reset, log entry 5. -/
  calOn : Bool := true
  /-- CAL_STS.VALID (R41), 1 bit. DESIGN CHOICE 0 at reset, log entry 5. -/
  calValid : Bool := false
  /-- CAL_STS.BACKUP_LOST (R41), 1 bit. DESIGN CHOICE 0 at reset, log entry 5. -/
  backupLost : Bool := false
  /-- CAL_CTL.TRIM as written, 8-bit signed (R42); 0 when the calendar restarts. -/
  trim : Byte := 0
  /-- The trim in force in this period, 8-bit signed (R42); 0 when the calendar restarts. -/
  trimNow : Byte := 0
  /-- Tick number within the period of 2^20 ticks, 20 bits (R42); 0 when the calendar restarts. -/
  period : BitVec 20 := 0
  /-- A SET is requested for the next tick (R43), 1 bit; reset 0. -/
  setReq : Bool := false
  /-- A CAPTURE is requested for the next tick (R45), 1 bit; reset 0. -/
  capReq : Bool := false
  /-- The next tick is the first since the timebase started and captures a pair (R45), 1 bit; reset 0. -/
  firstTick : Bool := false
  /-- The CAL_SEC_HI latch of each requester (R44), 32 bits; reset 0 (DESIGN CHOICE, log entry 5). -/
  calHi : Tab Word := []
  /-- The CAL_FRAC latch of each requester (R44), 16 bits; reset 0 (DESIGN CHOICE, log entry 5). -/
  calFr : Tab Half := []
  deriving DecidableEq, Repr

/-- A timebase–calendar pair (R45). -/
structure Pair where
  tb : DWord
  sec : DWord
  frac : Half
  deriving DecidableEq, Repr

/-! ## Faults, host functions and messages (16, 17) -/

/-- An entry of the fault log (R424). -/
structure FEntry where
  tb : DWord
  fseq : Word
  cal : Word
  cls : Nat
  tbValid : Bool
  calValid : Bool
  committed : Bool
  code : Nat
  block : Nat
  inst : Nat
  detail : DWord
  deriving DecidableEq, Repr

/-- A PCIe function's own settings (R393, R394): 0 the physical function, 1 to 128 the virtual functions. All 0 at reset (R392). -/
structure Fn where
  busMaster : Bool := false
  msixEnable : Bool := false
  funcMask : Bool := false
  memEnable : Bool := false
  deriving DecidableEq, Repr

/-- One MSI-X vector: its table entry and PBA bit (R392, R394). Address and data 0, masked, at reset: PRESUMED (PCIe), log entry 6. -/
structure Vector where
  addr : DWord := 0
  data : Word := 0
  mask : Bool := true
  pend : Bool := false
  deriving DecidableEq, Repr

/-- The state of a queue (R395, R401). -/
inductive QState where
  | off | run | stopped | error
  deriving DecidableEq, Repr

/-- A command or record queue of the queue engine (R395). -/
structure Queue where
  /-- R401; OFF at reset. -/
  state : QState := .off
  /-- TARGET of the descriptor (R395). -/
  target : Nat := 0
  /-- OWNER: function 0 to 128, or 0xFFFF for the fabric (R395). -/
  owner : Nat := 0
  /-- LOCAL number (R395). -/
  loc : Nat := 0
  /-- LOG2_N (R395). -/
  logN : Nat := 0
  /-- LOG2_M (R395). -/
  logM : Nat := 0
  /-- RING, CQ and WB device addresses (R395). -/
  ring : Nat := 0
  cq : Nat := 0
  wb : Nat := 0
  /-- VECTOR, COAL_N and COAL_US (R395). -/
  vector : Nat := 0
  coalN : Nat := 0
  coalUs : Nat := 0
  /-- PART and VI of a fabric queue (R395). -/
  part : Nat := 0
  vi : Nat := 0
  /-- Command (or record) head and tail counts, 16 bits (R397). -/
  head : Nat := 0
  tail : Nat := 0
  /-- Completion ring head and tail counts, 16 bits (R398). -/
  cqHead : Nat := 0
  cqTail : Nat := 0
  /-- The fetched command that is executing, 64 bytes with the second slot zero for a one-slot command (R397, R403). -/
  cur : Option (BitVec 512) := none
  /-- Completion entries reserved for close notices (R399). -/
  reserved : Nat := 0
  /-- Entries written and not yet signalled (R401). -/
  unsig : Nat := 0
  /-- Timebase of the first entry not yet signalled (R401). -/
  unsigAt : Nat := 0
  deriving DecidableEq, Repr

/-! ## Items and records (01, 12) -/

/-- A deadline profile's committed values (R13, R19, R28); every profile reads zero after device reset (R15). -/
structure Profile where
  dist : Nat := 0
  speed : Nat := 0
  margin : Nat := 0
  cap : Nat := 0
  det : Nat := 0
  recog : Nat := 0
  grm : Nat := 0
  fallback : Nat := 0
  lateMode : Nat := 0
  lateMs : Nat := 0
  deriving DecidableEq, Repr

/-- Seal causes (R23), numbered as R288. -/
inductive SealCause where
  | completed | deadline | command | sourceAbort | noBudget | notOpened
  deriving DecidableEq, Repr

/-- What a seal fixed (R24, R288). -/
structure Seal where
  cause : SealCause
  stamp : Int
  decision : Nat
  status : Nat
  deriving DecidableEq, Repr

/-- An entry of the gate timer (R12), with the staged record of R285. -/
structure Item where
  anchor : Int := 0
  deadline : Int := 0
  /-- The item has a deadline (R15, R32). -/
  hasDl : Bool := false
  /-- The milestones of capture, detection, recognition and grammar (R19). -/
  ms : List Int := []
  sealAt : Int := 0
  /-- Stage-done, overrun and UPSTREAM bits, five each, capture first (R12, R20). -/
  done : BitVec 5 := 0
  ovr : BitVec 5 := 0
  upst : BitVec 5 := 0
  urg : Nat := 0
  /-- The decision slot (R24). -/
  decision : Option Nat := none
  fallback : Nat := 0
  prof : Nat := 0
  /-- The profile's values as the item was opened (R33). -/
  pv : Profile := {}
  lead : Nat := 0
  sealInfo : Option Seal := none
  partFail : Bool := false
  /-- BODY, BYTES and PARTS of the last commit (R285), and what records already carry. -/
  body : Nat := 0
  bytes : Nat := 0
  parts : Nat := 0
  sentBytes : Nat := 0
  sentParts : Nat := 0
  /-- LATE records formed (R288 key 13). -/
  late : Nat := 0
  /-- Destination mask taken at the opening (R297). -/
  dmask : Nat := 0
  /-- Partition and virtual instance the item belongs to (R337); partition 8 for none. -/
  part : Nat := 8
  vi : Nat := 0
  /-- GRM_DONE has been written for the item (R251), and the home tile's number plus 1 (R171). -/
  grmWritten : Bool := false
  home : Nat := 0
  /-- A shadow of a peer's item and the stage that the peer's work serves (R385), or none for an item of this module. -/
  shadow : Option Nat := none
  deriving DecidableEq, Repr

/-- The classes of records, numbered as byte 4 of R400. -/
inductive RecClass where
  | notice | decision | late | status
  deriving DecidableEq, Repr

/-- A formed record waiting on one destination (R299): its class, item, seal order and bytes. -/
structure OutRec where
  cls : RecClass
  item : Nat
  order : Int
  bytes : Bytes
  deriving DecidableEq, Repr

/-- An active destination descriptor (R296), its 64 bytes decoded. -/
structure Dest where
  kind : Nat := 0
  classes : Nat := 0
  copies : Nat := 0
  net : Nat := 0
  func : Nat := 0
  queue : Nat := 0
  lport : Nat := 0
  rport : Nat := 0
  maxSeg : Nat := 0
  vlan : Nat := 0
  mac : Nat := 0
  addr : Bytes := []
  deriving DecidableEq, Repr

/-- The hostless service state (R305). -/
inductive SvcState where
  | off | starting | running
  deriving DecidableEq, Repr

/-- The hostless service: its state (3 DEGRADED is RUNNING with a configured stream or port that does not run), the GEN of its
configuration and what it took from it (R303, R304), the counts at its start (R295), the timebase of its last status record and of a
failed bundle fetch (R305), and for each lost stream the wait in seconds and the timebase of the next attempt (R305). -/
structure Svc where
  state : SvcState := .off
  gen : Nat := 0
  streams : List Nat := []
  ports : List (Nat × Nat) := []
  dests : Bytes := []
  masks : Bytes := []
  statusMs : Nat := 1000
  base : List Nat := []
  statusAt : Nat := 0
  fetchAt : Option Nat := none
  setups : Tab (Nat × Nat) := []
  deriving DecidableEq, Repr

/-! ## Partitions (14) -/

/-- The state of a partition (R343, R344), numbered as PART_STS.STATE. -/
inductive PState where
  | free | creating | active | destroying
  deriving DecidableEq, Repr

/-- The phase of a partition (R355), numbered as PART_STS.PHASE. -/
inductive Phase where
  | run | drain | yield | transfer | adapt | none
  deriving DecidableEq, Repr

/-- The state of a virtual instance (R354, R362), numbered as VI_STS.STATE. -/
inductive ViState where
  | off | idle | ready | running | resetting
  deriving DecidableEq, Repr

/-- A virtual instance (R345 to R363). -/
structure Vi where
  state : ViState := .off
  /-- VI_STS.RESULT (R354); reset 0. -/
  result : Nat := 0
  /-- Generation, 8 bits (R363); 0 after a CREATE. -/
  gen : Byte := 0
  /-- A START whose check is under way: VI_COC and VI_SAVE as it read them, none of it for a BUSY one (R354). -/
  checking : Option (Option (Nat × Nat)) := none
  /-- Save area of the instance, taken at START (R354). -/
  save : Nat := 0
  /-- The instance has run before and its save area holds its state (R358, R362). -/
  saved : Bool := false
  /-- Order in which its last slice ended, 0 for never (R351). -/
  lastEnd : Nat := 0
  /-- Timebase of the RESET under way (R363). -/
  resetAt : Nat := 0
  /-- Waiting WORK descriptors of its placement queue, oldest first, at most 64 (R348). -/
  placeQ : List (BitVec 512) := []
  deriving DecidableEq, Repr

/-- A partition (R335, R341). -/
structure Part where
  state : PState := .free
  /-- The descriptor last accepted, 128 bytes (R344). -/
  desc : BitVec 1024 := 0
  phase : Phase := .none
  runVi : Nat := 0
  /-- The outgoing instance of a switch, and whether the pass under way is an adaptation pass (R360). -/
  outVi : Option Nat := none
  pass : Bool := false
  /-- Slices ended so far, the order of `Vi.lastEnd` (R351). -/
  sliceNo : Nat := 0
  /-- A slice decision fell due during an adaptation pass (R360). -/
  due : Bool := false
  /-- Timebase at which the slice and its quantum began and the quantum ends (R351), and what was left of it at a pass (R360). -/
  sliceFrom : Nat := 0
  sliceEnd : Nat := 0
  left : Nat := 0
  /-- Timebase of the start of the switch or pass, and of its DRAIN or YIELD phase (R356, R357, R361). -/
  switchFrom : Nat := 0
  phaseFrom : Nat := 0
  /-- Timebase of the later of the creation and the end of the last ADAPT phase (R360). -/
  adapted : Nat := 0
  /-- Tiles stopped at YIELD_LIMIT_US, and tiles to restart in RUN (R355, R357). -/
  late : List Nat := []
  resume : List Nat := []
  /-- Launches waiting for a parked hart: instance and launch record, oldest first, at most 256 (R349). -/
  launchQ : List (Nat × BitVec 512) := []
  deriving DecidableEq, Repr

/-! ## Line-sensor ports, framing and stripes (04, 05) -/

/-- A timing set (R82 to R85): period, exposure and strobe offsets per colour, strobe options, step settings. Staged and active
copies read as the registers' reset values at reset (R85). -/
structure Timing where
  period : Nat := 600
  expStart : List Nat := [0, 0, 0]
  expStop : List Nat := [0, 0, 0]
  stbStart : List Nat := [0, 0, 0]
  stbStop : List Nat := [0, 0, 0]
  pol : Nat := 0
  follow : Nat := 7
  stepEn : Bool := false
  dir : Bool := false
  multM1 : Nat := 0
  width : Nat := 1
  stepOfs : Nat := 0
  deriving DecidableEq, Repr

/-- A line being received (R86). -/
structure RxLine where
  /-- Raw line number, 32 bits. -/
  n : Nat := 0
  /-- The format and the markers match so far. -/
  fmtOk : Bool := true
  /-- Colours whose COLOUR_START arrived, and the colour being received. -/
  colours : Nat := 0
  colour : Nat := 0
  /-- Data words by 65,536 × colour + word index (R75), words received per lane in this colour, and the running CRC of each lane. -/
  words : Tab DWord := []
  count : Tab Nat := []
  crc : Tab Nat := []
  deriving DecidableEq, Repr

/-- What the port keeps of one output line (R88, R107). -/
structure LineInfo where
  stamp : DWord := 0
  replaced : Bool := false
  deriving DecidableEq, Repr

/-- A face of a port: an item from its leading edge to its END notice (R98 to R112). -/
structure Face where
  id : Nat
  lead : Nat
  /-- Trailing edge line, once found (R98). -/
  trail : Option Nat := none
  /-- Values taken at the opening: PAD, MAX_LEN, ASPECT, SKEW_WIN (R66, R102). -/
  pad : Nat
  anchor : DWord
  skewWin : Nat
  left : Nat := 16383
  right : Nat := 0
  /-- Left and right of the OPEN notice, and the skew with its validity (R101, R102). -/
  openLeft : Nat := 0
  openRight : Nat := 0
  skew : Int := 0
  skewValid : Bool := false
  /-- First foreground line, less lead, of each probe column hit so far (R102). -/
  probes : Tab Nat := []
  /-- FLAGS of R103 except SKEW_VALID. -/
  edgePresent : Bool := false
  followed : Bool := false
  trailPresent : Bool := false
  /-- The frame is complete and the OPEN notice sent (R103). -/
  framed : Bool := false
  /-- The face has ended, with its cause (R103). -/
  ended : Option Nat := none
  /-- The item is ended and its END notice sent, while framing still follows the face (R106, R112). -/
  aborted : Bool := false
  lastOcc : Nat := 0
  landed : Nat := 0
  handed : Nat := 0
  /-- The mask of stripe `handed`, when formed (R111). -/
  mask : Option (BitVec 256) := none
  deriving DecidableEq, Repr

/-- Framing states (R98). -/
inductive FState where
  | search | face | waitGap
  deriving DecidableEq, Repr

/-- A line-sensor port (04, 05): what its pages do not show. -/
structure Port where
  /-- The active timing set, and the one APPLY has checked for the next line clock (R85). -/
  active : Timing := {}
  nextSet : Option Timing := none
  /-- Arrival slots of the lanes' markers in the established deskew (R77). -/
  deskew : List Nat := []
  /-- LINE events issued since the enable: the number of the next raw line (R88). -/
  lines : Nat := 0
  /-- Next raw line to be accepted or replaced (R86). -/
  expect : Nat := 0
  /-- Stamps of the LINE events of raw lines not yet settled (R88). -/
  stamps : Tab DWord := []
  /-- Raw lines not yet settled whose window saw the link not UP (R86). -/
  linkBad : List Nat := []
  rx : Option RxLine := none
  /-- The last accepted raw line, in planes (R86). -/
  lastRaw : Option (List (List Nat)) := none
  /-- a16 planes of past raw lines, latest first, with the raw line number and whether the link was UP (R88, R91). -/
  hist : List (Nat × Bool × List (List Nat)) := []
  /-- The first output line after which delayed colours are real again (R92). -/
  refillEnd : Nat := 0
  /-- Output lines pass (R88). -/
  passing : Bool := false
  /-- Consecutive replaced lines (R87). -/
  replRun : Nat := 0
  /-- Register channel: the open transaction's tag and whether it reads (R81). -/
  regTag : Nat := 0
  regRead : Bool := false
  /-- Coefficient banks, words by bank × 65,536 + 16,384 × colour + pixel (R90); DESIGN CHOICE 0 at reset, log entry 10. -/
  coef : Tab Word := []
  swapReq : Bool := false
  /-- Weights and delays in force (R92, R93). -/
  mix : List Nat := [256, 0, 0]
  dly : List Nat := [0, 0, 0]
  /-- Calibration capture: waits for the next line clock, and the column sums (R95). -/
  calArmed : Bool := false
  calFrom : Nat := 0
  calSum : Tab Nat := []
  /-- Strobe, step and direction levels as the port drives them (R83, R84): strobe bits, step, direction. -/
  strobe : Nat := 0
  step : Bool := false
  dirOut : Bool := false
  /-- The port has had an APPLY since emergence (R426). -/
  applied : Bool := false
  /-- Framing (R98): state, run, gap, previous trailing edge, MODE in force, present samples. -/
  fstate : FState := .search
  /-- The delayed present has fallen since WAIT_GAP was entered (R104); 0 at reset. -/
  fell : Bool := false
  run : Nat := 0
  gap : Nat := 0
  lastTrail : Option Nat := none
  modeHeld : Option Nat := none
  present : List (Nat × Bool) := []
  presentRun : Nat := 0
  /-- Tests of the lines since the run or the delayed present began: line, foreground columns, occupied (R98, R101). -/
  tests : List (Nat × List Nat × Bool) := []
  maxLen : Nat := 16384
  /-- Lines formed: the last passed output line, and what is kept of each line still in the ring. -/
  lastLine : Option Nat := none
  firstLine : Option Nat := none
  info : Tab LineInfo := []
  faces : List Face := []
  /-- Landing slots 0 and 1: the tiles of the group that have yet to retire the stripe in it, empty until it is
  handed; none when free (R110). -/
  slots : Tab (Option (List Nat)) := []
  /-- Notices handed to record assembly, latest first (R103). -/
  notices : List Bytes := []
  deriving DecidableEq, Repr

/-! ## Vision tiles (07) -/

/-- A descriptor in a tile's queue (R168): kind, band, token and its 64 bytes. -/
structure TDesc where
  kind : Nat
  band : Nat
  token : Nat
  /-- Where its landing slot or arena space belongs: port × 2 + slot for a STRIPE, sample batch number for a BATCH. -/
  origin : Nat
  bytes : BitVec 512
  deriving DecidableEq, Repr

/-- The execution units of a tile (R148). -/
inductive TUnit where
  | array | vector | dma | lsend | lrecv
  deriving DecidableEq, Repr

/-- A dispatched instruction whose completion is to come (R148): its unit, its address, its 64 bytes and the tile registers it was
dispatched with, and whether its work is done (a receive waits for its message). `sat` asks for SIGNAL at completion (R193). -/
structure TPend where
  unit : TUnit
  pc : Nat
  slot : BitVec 512
  trs : List Word
  ran : Bool
  sat : Bool := false
  deriving DecidableEq, Repr

/-- A vision tile (R142 to R173): what its page does not show. -/
structure Tile where
  /-- Queue of descriptors, oldest first, at most 64 (R168). -/
  queue : List TDesc := []
  /-- Copies taken by DEQ and not retired (R170). -/
  taken : List TDesc := []
  /-- Next TOKEN, 16 bits (R168); DESIGN CHOICE 0 at reset, log entry 11. -/
  nextToken : Nat := 0
  /-- Dispatched instructions, oldest first (R148). -/
  pend : List TPend := []
  /-- A STOP waits for dispatched instructions to complete (R173). -/
  stopping : Bool := false
  /-- The scheduler has requested a stop at the next YIELD mark (R173). -/
  yieldReq : Bool := false
  /-- The stop under way is at a YIELD mark, and the tile stands stopped at one (R173, R357). -/
  yielding : Bool := false
  yielded : Bool := false
  /-- Receive buffers of the links, by the number of the tile that sends: messages, oldest first (R163). -/
  links : Tab (List Bytes) := []
  /-- TCLK counts of ECC faults in the last second, latest first (R419). -/
  ecc : List Nat := []
  deriving DecidableEq, Repr

/-! ## Stream Intake (06) -/

/-- An RTP packet waiting beyond a gap (R118): timestamp, marker, payload and the timebase of its arrival. -/
structure RtpPkt where
  ts : Nat
  marker : Bool
  payload : Bytes
  arrival : Nat
  deriving DecidableEq, Repr

/-- An access unit (R119): RTP timestamp, arrival of its first packet, its payloads in order, whether it carries a refused structure
or begins an IRAP picture, and its capture stamp. -/
structure Au where
  ts : Nat
  first : Nat
  payloads : List Bytes := []
  size : Nat := 0
  refused : Bool := false
  irap : Bool := false
  stamp : Int := 0
  deriving DecidableEq, Repr

/-- What a context has to output next, in decoding order: an access unit to decode, or a placeholder picture (R126). -/
inductive DecEntry where
  | unit (a : Au)
  | hole (cause : Nat) (stamp : Int)
  deriving DecidableEq, Repr

/-- A decoded picture that the decoder holds for output: its place in output order, stamp, size and 8-bit luma. -/
structure DecPic where
  order : Int
  stamp : Int
  w : Nat
  h : Nat
  luma : Bytes
  deriving DecidableEq, Repr

/-- A picture of a context from its output to the end of its retention (R127, R128). -/
structure Picture where
  pn : Nat
  stamp : Int
  cause : Nat := 0
  w : Nat := 0
  h : Nat := 0
  luma : Bytes := []
  /-- Device address at which it is retained (R127); the spec gives no place, so a free value chooses it. -/
  addr : Nat := 0
  created : Bool := false
  /-- It had a full-frame or crop sample, and its FRAME_DONE has executed (R128). -/
  need : Bool := false
  frameDone : Bool := false
  deriving DecidableEq, Repr

/-- A sample that is not released (R128, R134, R139). -/
structure Sample where
  item : Nat
  stamp : Int
  ssn : Nat
  pn : Nat
  kind : Nat
  cause : Nat := 0
  outW : Nat := 0
  outH : Nat := 0
  espot : Nat := 0xFF
  shift : Nat := 0
  data : Nat := 0
  /-- A, B, C, D, TX, TY, GAIN and OFFSET (R134). -/
  tf : List Int := []
  /-- The transform has run; its bucket-sized pixels. -/
  produced : Bool := false
  pix : Bytes := []
  deriving DecidableEq, Repr

/-- The states of an eyespot (R129). -/
inductive EsState where
  | free | track | captured
  deriving DecidableEq, Repr

/-- An eyespot (R129). -/
structure Espot where
  st : EsState := .free
  item : Nat := 0
  x : Nat := 0
  y : Nat := 0
  w : Nat := 0
  h : Nat := 0
  vx : Int := 0
  vy : Int := 0
  conf : Nat := 0
  pnUpd : Nat := 0
  pnNew : Nat := 0
  misses : Nat := 0
  deriving DecidableEq, Repr

/-- A stream context (R113 to R141): its committed configuration and its status. All at reset values at reset. -/
structure Ctx where
  /-- Committed CTX_CTL to CTX_MAP_TB_HI, thirteen 32-bit words in register order (R113). -/
  cfg : List Word := [0x600000, 0, 0, 0, 0, 0x050002D0, 0x000809C4, 0x08100618, 0x7D0, 0xC800, 0, 0, 0]
  cmtErr : Nat := 0
  /-- The stream is lost, or has waited for a packet since enable (R121). -/
  lost : Bool := false
  /-- Cause of the placeholder pictures that access units become until an IRAP picture decodes, none when decoding runs (R124, R126). -/
  wait : Option Nat := some 2
  curW : Nat := 0
  curH : Nat := 0
  ssrc : Option Nat := none
  /-- Extended sequence number last passed on (R118). -/
  last : Option Nat := none
  held : List (Nat × RtpPkt) := []
  /-- Timebase of the last accepted packet (R121). -/
  heard : Nat := 0
  au : Option Au := none
  /-- Timestamp of the unit discarded by the last declared loss, while its packets still arrive. -/
  skip : Option Nat := none
  entries : List DecEntry := []
  decoding : Option Au := none
  dpb : List DecPic := []
  pn : Nat := 0
  ssn : Nat := 0
  pics : List Picture := []
  samples : List Sample := []
  espots : Tab Espot := []
  /-- The context's sixteen counter words (R141), and their values at the last snapshot. -/
  cnt : List Nat := [0, 0, 0, 0, 0, 0, 0, 0, 0, 0, 0, 0, 0, 0, 0, 0]
  latch : List Nat := [0, 0, 0, 0, 0, 0, 0, 0, 0, 0, 0, 0, 0, 0, 0, 0]
  /-- Placeholder headers handed to record assembly, latest first (R139). -/
  notices : List Bytes := []
  deriving DecidableEq, Repr

/-- An open batch of a partition and bucket (R137). -/
structure Batch where
  uid : Nat
  /-- The instance to which the first sample's context is assigned (R346). -/
  vi : Nat
  hdrs : Nat
  opened : Nat
  samples : List (Bytes × Nat) := []
  deriving DecidableEq, Repr

/-- A closed batch or full-frame sample on its way to its detection group (R137, R140): partition and instance of its
source, kind, items and descriptor. -/
structure Handing where
  part : Nat
  vi : Nat
  kind : Nat
  uid : Nat
  items : List Nat
  desc : BitVec 512
  deriving DecidableEq, Repr

/-! ## Recognition decoding and grammars (09, 10) -/

/-- A loaded vocabulary (R228, R229): its image and the fields of its header, NOMATCH and its match-trie nodes. -/
structure Voc where
  img : Nat
  vocab : Nat
  tag : DWord
  unk : Option Nat
  byteBase : Option Nat
  strOfs : Nat
  noMatch : Bool
  nodes : Nat
  deriving DecidableEq, Repr

/-- A loaded normalisation table (R230): its image and its counts. -/
structure Norm where
  img : Nat
  nb : Nat
  nm : Nat
  np : Nat
  deriving DecidableEq, Repr

/-- A loaded grammar (R237, R238). -/
structure Grm where
  img : Nat
  nstates : Nat
  tag : DWord
  start : Nat
  indexOfs : Nat
  voc : Nat
  deriving DecidableEq, Repr

/-- A registered lexicon (R239): region, root node and vocabulary slot. -/
structure Lexicon where
  base : Nat
  bytes : Nat
  root : Nat
  voc : Nat
  deriving DecidableEq, Repr

/-- A thread of a context state (R242). -/
inductive Thread where
  | dfa (st : Nat)
  | lex (l n ret : Nat)
  deriving DecidableEq, Repr

/-- A grammar context that is not FREE (R241, R245). -/
structure GCtx where
  handle : Nat
  /-- BOUND to a sequence (R248). -/
  bound : Bool := false
  item : Nat
  field : Nat
  /-- Grammar slot, none for 0xFFFF. -/
  grammar : Option Nat
  voc : Nat
  norm : Option Nat
  mode : Nat
  draftMax : Nat
  endTok : Nat
  text : Nat
  cap : Nat
  threads : List Thread := []
  overflow : Bool := false
  trunc : Bool := false
  replaced : Bool := false
  lexBad : Bool := false
  cands : List Nat := []
  forced : Nat := 0
  commitGen : Nat := 0
  candGen : Nat := 0
  /-- A draft is due (R245, R247). -/
  drafting : Bool := false
  textLen : Nat := 0
  hold : Bytes := []
  tokens : Nat := 0
  /-- The queue that opened it, while it exists, and its GCTX_OPEN (R249, R399). -/
  queue : Option Nat
  cmd : BitVec 512
  part : Nat
  vi : Nat
  deriving DecidableEq, Repr

/-- A model descriptor (R225). -/
structure Model where
  tag : DWord
  layers : Nat
  heads : Nat
  hd : Nat
  win : Nat
  scale : Nat
  vocab : Nat
  fp32 : Bool
  pfxHeads : Nat
  bias : Nat
  deriving DecidableEq, Repr

/-- A resident sequence (R198, R199). -/
structure Sequence where
  handle : Nat
  unit : Nat
  item : Nat
  line : Nat
  slot : Nat
  model : Model
  /-- The contiguous layout (R203). -/
  contig : Bool
  leaf : Option Nat
  /-- Prefix length P, LEN, root token, MAX_OWN and END_TOK. -/
  plen : Nat
  len : Nat
  root : Nat
  maxOwn : Nat
  endTok : Nat
  feat : Nat
  featRows : Nat
  featCols : Nat
  featCentre : Nat
  featValid : Nat
  ctx : Nat
  pages : List Nat
  part : Nat
  vi : Nat
  deriving DecidableEq, Repr

/-- A prefix node (R205 to R208). -/
structure PNode where
  handle : Nat
  parent : Option Nat
  toks : List Nat
  hash : Nat
  model : Model
  ready : Bool
  inTable : Bool
  /-- References of children and sequences, and of acquires by caller (function number, or 0x8000 + 16 × PART + VI). -/
  refs : Nat
  acq : List Nat
  /-- Timebase of the release that made it evictable. -/
  stamp : Nat
  deriving DecidableEq, Repr

/-- A member of an open step (R214): the table's entry, its state code when it is a pad, its rows, what it was when the step opened,
and the grammar states reached along its candidates (R246). -/
structure Member where
  seq : Nat
  prefill : Bool
  nq : Nat
  node : Nat
  cands : List Nat
  pad : Option Nat
  item : Nat
  spec : List (List Thread)
  deriving DecidableEq, Repr

/-- The open step of an attention unit (R214, R224). -/
structure BStep where
  table : Nat
  qstep : Nat
  urg : Nat
  members : List Member
  deriving DecidableEq, Repr

/-- An attention unit (R202, R206, R224, R227): what its page does not show. -/
structure AUnit where
  step : Option BStep := none
  /-- A write of 0 to ENABLE waits for the step's end (R227). -/
  disabling : Bool := false
  /-- PAGE_CODE as of the enable. -/
  code : Nat := 2
  /-- Prefix nodes by page handle; own pages in use; generations of the pages by page handle. -/
  nodes : Tab PNode := []
  own : List Nat := []
  gens : Tab Nat := []
  deriving DecidableEq, Repr

/-! ## Memory controller and shared cache (13) -/

/-- A request in a channel's queue (R319, R320): write, line (device address / 64), byte enables, port class and port, urgency, deadline
in MCLK and order of acceptance. -/
structure MReq where
  write : Bool
  line : Nat
  mask : BitVec 64
  cls : Nat
  port : Nat
  urg : Nat
  deadline : Nat
  order : Nat
  deriving DecidableEq, Repr

/-- An open row of a bank (R320, R323): the row, hits served ahead of an older request, and the MCLK of its last access. -/
structure OpenRow where
  row : Nat
  hits : Nat
  last : Nat
  deriving DecidableEq, Repr

/-- A freeze capture (R334); hist holds the last 16 commands, most recent first: command, bank, row, MCLK. -/
structure Capture where
  tb : DWord
  addr : Nat
  row : Nat
  bank : Nat
  col : Nat
  syn : Nat
  cause : Nat
  cls : Nat
  port : Nat
  dirty : Nat
  reads : Nat
  writes : Nat
  mclk : Nat
  hist : List (Nat × Nat × Nat × Nat)
  deriving DecidableEq, Repr

/-- An HBM channel (R310 to R330): what its block of registers does not show. -/
structure Chan where
  /-- Read queue (128), write queue (64) and reads issued whose data has not returned, oldest first. -/
  reads : List MReq := []
  writes : List MReq := []
  inflight : List MReq := []
  rows : Tab OpenRow := []
  draining : Bool := false
  /-- Requests accepted so far. -/
  order : Nat := 0
  /-- Activation counters by bank × 256 + row group (R324), and the groups that have reached RH_THR once in this window. -/
  acts : Tab Nat := []
  rhOnce : List Nat := []
  /-- Throttled ports: port, bank and the MCLK of its last activation there. -/
  throttled : List (Nat × Nat × Nat) := []
  /-- Timebase and stack temperature of the last training, and the timebase since which the channel is due (R316). -/
  trained : Nat := 0
  trainTemp : Nat := 0
  due : Option Nat := none
  /-- Corrected errors in the second shown (R325). -/
  ceSec : Nat := 0
  ceNum : Nat := 0
  /-- A release under way, with its CLEAR bit (R330). -/
  releasing : Option Bool := none
  hist : List (Nat × Nat × Nat × Nat) := []
  cap : Option Capture := none
  deriving DecidableEq, Repr

/-- A line of the fabric shared cache (R308): the way that holds it, dirty, and what HBM holds of a dirty line. -/
structure ScLine where
  line : Nat
  way : Nat
  dirty : Bool
  old : Bytes
  deriving DecidableEq, Repr

/-! ## The thread fabric (11) -/

/-- Privilege modes of a hart (R259). -/
inductive Priv where
  | u | s | m
  deriving DecidableEq, Repr

/-- Why a hart issues or does not (R255): running; parked; in WFI; in WRS, with the timebase at which a WRS.STO ends; waiting for a
vector slot. -/
inductive HRun where
  | running | parked | wfi | wrs (sto : Option Nat) | slotWait
  deriving DecidableEq, Repr

/-- A vector context slot (R257): the 32 vector registers of 512 bits and the vector CSRs of one hart. A new slot holds zero, with vl 0
and vtype.vill 1. -/
structure VSlot where
  v : Tab (BitVec 512) := []
  vl : Nat := 0
  vtype : DWord := 0x8000000000000000
  vstart : Nat := 0
  vxrm : Nat := 0
  vxsat : Bool := false
  deriving DecidableEq, Repr

/-- A fabric hart (R255 to R276). The default is a hart parked since reset. CSRs unlisted in `csr` read their reset value. -/
structure Hart where
  run : HRun := .parked
  mode : Priv := .m
  pc : DWord := 0
  /-- x1 to x31 and f0 to f31, 64 bits each; zero at a launch (R274). -/
  x : Tab DWord := []
  f : Tab DWord := []
  /-- The CSRs by number, 64 bits each (R259, R260). -/
  csr : Tab DWord := []
  /-- The 64-byte block reserved by LR (R270). -/
  resv : Option Nat := none
  /-- The vector slot it holds (R257). -/
  slot : Option VSlot := none
  /-- The instance for which it runs (R345). -/
  vi : Nat := 0
  deriving DecidableEq, Repr

/-- A fabric core (R255): its launch queue of 64 records and the harts waiting for a vector slot, in the order of their writes. -/
structure Core where
  launchQ : List (BitVec 512) := []
  slotQ : List Nat := []
  deriving DecidableEq, Repr

/-- The warden core's own state (R280): its RV32 registers, its pc and its SRAM, which no command of the table shows. -/
structure Warden where
  x : Tab Word := []
  pc : Word := 0
  sram : List Host.Cell := []
  deriving DecidableEq, Repr

/-! ## Cocoons and saved instances (14) -/

/-- A cocoon segment (R352): source, offset in the target, relative tile or commons unit, kind (0 LOAD, 1 ZERO, 2 LIVE), commons, and
bytes. -/
structure CSeg where
  src : Nat
  dst : Nat
  target : Nat
  kind : Nat
  commons : Bool
  bytes : Nat
  deriving DecidableEq, Repr

/-- A yield table entry (R352): relative tile, PC and its live ranges. -/
structure CYield where
  tile : Nat
  pc : Nat
  ranges : List (Nat × Nat)
  deriving DecidableEq, Repr

/-- A saved tile context (R354): the tile's rank, its queues and receive buffers, its page registers by offset, the ranges of its
window that were saved, and whether it restarts in RUN. -/
structure SavedTile where
  tile : Nat
  x : Tile
  regs : List Word
  ranges : List (Nat × Nat)
  restart : Bool
  deriving DecidableEq, Repr

/-- A saved unit image (R354): the unit's rank, its resident sequences, node table and semaphores. -/
structure SavedUnit where
  unit : Nat
  x : AUnit
  seqs : Tab Sequence
  sems : List Word
  deriving DecidableEq, Repr

/-- What the scheduler keeps of an instance from its START (R354, R358): the checked cocoon and, once saved, its tiles and units. -/
structure Saved where
  segs : List CSeg := []
  yields : List CYield := []
  tiles : List SavedTile := []
  units : List SavedUnit := []
  deriving DecidableEq, Repr

/-! ## Kaleidoscope (15) -/

/-- A flit that a link holds to send, or to send again (R368, R372): VC, TYPE, TTL, SRC, DST, the 244 payload bytes, its SEQ once sent
and how often it was resent. -/
structure Flit where
  vc : Nat
  type : Nat
  ttl : Nat
  src : Nat
  dst : Nat
  payload : Bytes
  seq : Nat := 0
  resent : Nat := 0
  deriving DecidableEq, Repr

/-- A Kralon link (R367 to R373): what its page does not show. -/
structure KLink where
  /-- Next SEQ expected and next SEQ to send, 12 bits. -/
  expect : Nat := 0
  next : Nat := 0
  /-- Sent and not acknowledged, oldest first (at most 256), and flits waiting for a credit or for the buffer. -/
  replay : List Flit := []
  waits : List Flit := []
  /-- Credits held for VC 0 to 2, and credits to return (R371). -/
  credits : List Nat := [96, 96, 16]
  owe : List Nat := [0, 0, 0]
  /-- Timebase of the start of training, the last good flit, the last flit sent and the last failure. -/
  trainFrom : Nat := 0
  heard : Nat := 0
  sent : Nat := 0
  failedAt : Nat := 0
  /-- STATE that the neighbour last sent, and whether it is a child (R370, R383). -/
  nbState : Nat := 0
  child : Bool := false
  deriving DecidableEq, Repr

/-- Who waits for the answer of a peer access (R376): a hart's load at an address, a hart's store, or a queue's COPY. -/
inductive PeerWho where
  | load (h a : Nat)
  | store (h : Nat)
  | copy (g ofs : Nat)
  deriving DecidableEq, Repr

/-- A peer access that is not answered (R376). -/
structure PeerReq where
  tid : Nat
  sys : Nat
  write : Bool
  bytes : Nat
  who : PeerWho
  /-- Timebase at which it times out. -/
  limit : Nat
  deriving DecidableEq, Repr

/-- The kaleidoscope logic (R370 to R388): what its page does not show. -/
structure Kal where
  /-- Next MSEQ, and the (originator, KIND, MSEQ) of flooded flits seen. -/
  mseq : Nat := 0
  seen : List (Nat × Nat × Nat) := []
  /-- Lowest serial known, hops to it, and the timebase of the last change (R379). -/
  best : Nat := 0
  hops : Nat := 0
  changed : Nat := 0
  /-- ELECT_MS and ALIGN_MAX_MS as taken at the start of K2 and K4 (R389). -/
  elect : Nat := 100
  alignMax : Nat := 10
  /-- Far-end serials of links 0 to 7 of each module, by serial (R370). -/
  reports : Tab (List Nat) := []
  /-- Serial of each system ID in the plan and of those that had one, and the IDs declared LOST (R380, R386). -/
  ids : Tab Nat := []
  lost : List Nat := []
  /-- Deputy's system ID and parent link (R370). -/
  deputy : Nat := 0
  parent : Option Nat := none
  /-- Route entries in effect and loaded, and the ACT instant (R377). -/
  routes : Tab Nat := []
  staged : Tab Nat := []
  act : Option Nat := none
  /-- Serials that flooded READY (R379). -/
  ready : List Nat := []
  /-- Alignment (R383): 0 no measurement, 1 rate set, 2 slewing, 3 done; the timestamps t1, t2, t3 of the exchange under way. -/
  align : Nat := 0
  t1 : Nat := 0
  t2 : Nat := 0
  t3 : Nat := 0
  /-- ofs to the coordinator, signed ns. -/
  ofs : Int := 0
  /-- Timebase since which no route leads to the coordinator (R388). -/
  cut : Option Nat := none
  /-- Unanswered peer accesses, next TID, and answers that their requester has not taken: access, STATUS and data. -/
  peers : List PeerReq := []
  nextTid : Nat := 0
  answers : List (PeerReq × Nat × Bytes) := []
  deriving DecidableEq, Repr

/-! ## Health, pins, the alert output, JTAG and emergence (02, 17, 18) -/

/-- A fault that stops the whole module (R417). -/
inductive Stop where
  | thermal | rail | pll
  deriving DecidableEq, Repr

/-- What the always-on domain keeps beside the health page (R411 to R422, R453). -/
structure Health where
  /-- Monitor samples, 50 µs apart, since the cold reset: the time of R414 to R416; 0 at cold reset. -/
  samples : Nat := 0
  /-- Samples since the throttle level last changed, held at 2,000 (R414): 100 ms at cold reset. -/
  since : Nat := 2000
  /-- Consecutive samples with every site below WARN_C − HYST_C (R415); 0 at reset. -/
  cool : Nat := 0
  /-- Samples at which thermal shutdowns and rail faults happened, latest first (R415, R416); none at cold reset. -/
  shutdowns : List Nat := []
  rails : List Nat := []
  /-- Monitors that have raised RAIL_WARN, with the consecutive samples inside their window since (R412); none at reset. -/
  warned : Tab Nat := []
  /-- Process sites logged since the device reset (R413); none at reset. -/
  slow : List Nat := []
  /-- The module-wide fault being handled, and the others detected meanwhile (R417); none at reset. -/
  handling : Option Stop := none
  others : List Stop := []
  /-- The recovery has ended with another fault's condition still holding, which extends it (R417); 1 bit, 0 at reset. -/
  extended : Bool := false
  /-- Regulators latched off after a third rail fault (R416); 1 bit, 0 at reset. -/
  latched : Bool := false
  /-- The firmware watchdog (R422): running since FW_READY, timebase of the last restart, missed; 0 at reset. -/
  aliveOn : Bool := false
  aliveAt : Nat := 0
  missed : Bool := false
  /-- The element under self-test: kind and index (R419); none at reset. -/
  test : Option (Nat × Nat) := none
  /-- The fault-log entry being loaded: FSEQ and view; and an erase of the committed log under way (R423, R425). -/
  load : Option (Word × Bool) := none
  erasing : Bool := false
  deriving DecidableEq, Repr

/-- Emergence and the resets (R46 to R53, R456). -/
structure Emg where
  /-- The 48 V input is present (R46, R49); 0 before it rises. -/
  powered : Bool := false
  /-- A device reset is in progress (R456), and the cause of one triggered whose emergence has not run. -/
  resetting : Bool := false
  cause : Option Nat := none
  /-- E6 waits for FW_READY (R278). -/
  e6 : Bool := false
  /-- Registers whose ENABLE the loaded record sets, for step E7, in order (R46). -/
  enables : List Nat := []
  /-- The bank being programmed, with its bytes, or none when the record cannot be formed (R53). -/
  prog : Option (Nat × Option Bytes) := none
  deriving DecidableEq, Repr

/-- A JTAG instruction (R439). -/
inductive JInstr where
  | bypass | idcode | sample | extest | clamp | highz
  deriving DecidableEq, Repr

/-- The general pins and the JTAG port (R434 to R439). -/
structure Pins where
  /-- Pins in their hold, with the level the keeper holds (R436); none at reset. -/
  hold : Tab Bool := []
  /-- The JTAG instruction register (R439): IDCODE after its reset (IEEE 1149.1, PRESUMED). -/
  ir : JInstr := .idcode
  /-- The boundary register's update stage, 57 cells: general pins 0 to 31, then for each port strobes 0 to 2, step, direction and
  page-present, then the alert enable (the order is the model's, DESIGN CHOICE; 0 at reset). -/
  boundary : BitVec 57 := 0
  deriving DecidableEq, Repr

/-- The alert stage (R440 to R444). -/
structure Alert where
  /-- Tone phase, 32 bits, and the sample within the cadence (R441); 0 at reset. -/
  phase : Word := 0
  cad : Nat := 0
  /-- PCM_BASE and PCM_LEN taken when MODE became 2 (R442); 0 at reset. -/
  base : Nat := 0
  len : Nat := 0
  /-- The empty ring has raised UNDERRUN (R442). -/
  empty : Bool := false
  /-- Timebase of the trips, latest first, and of the retry (R443); none at reset. -/
  trips : List Nat := []
  retry : Option Nat := none
  deriving DecidableEq, Repr


/-! ## The whole state -/

/-- The state of the module. -/
structure State where
  /-- Commands waiting, first in first out; the model's queue, empty at reset. -/
  pending : List Instr := []
  /-- The counter that picks the next free value; the model's own field (DESIGN CHOICE, log entry 2), reset 0. -/
  free : Nat := 0
  /-- Device memory by device address, one byte each (R446): HBM, commons, tile windows, and the host memory a host
  program placed; unlisted bytes read 0 (DESIGN CHOICE, log entry 3). -/
  mem : List Host.Cell := []
  /-- The 64 MiB flash by flash offset (R50, R277, R303), one byte each; unlisted bytes read 0xFF (DESIGN CHOICE, log entry 4). -/
  flash : List Host.Cell := []
  /-- The register file: 32-bit registers by BAR0 offset (R55, R448), unlisted ones at their reset value. -/
  regs : Tab Word := []
  /-- Values still in force of registers whose last write waits for its commit instant (R66, R67); none at reset. -/
  held : Tab Word := []
  /-- Write-once registers written since device reset (R60); none at reset. -/
  wosDone : List Nat := []
  /-- Snapshot shadows of the counters by BAR0 offset, 32 bits (R70); zero at reset. -/
  shadow : Tab Word := []
  /-- The armed snapshot instant, 64 bits (R69); none at reset. -/
  snapAt : Option DWord := none
  /-- Timebase and calendar (R36 to R45). -/
  clk : Clk := {}
  /-- Timebase–calendar pairs captured since the timebase started, latest first (R45); none at reset. -/
  pairs : List Pair := []
  /-- The RAM ring of the fault log, oldest first, at most 1,024 entries (R423); empty at cold reset. -/
  flogRing : List FEntry := []
  /-- The committed fault log in flash, oldest first, at most 65,536 entries (R423); kept. DESIGN CHOICE empty at reset, log entry 4. -/
  flogFlash : List FEntry := []
  /-- TCLK count, plus 1, of the last logged violation by page and cause (R61); 0 for none, reset 0. -/
  flogLast : Tab Nat := []
  /-- Event channels within their holdoff (R64), one bit each; none at reset. -/
  holding : List Nat := []
  /-- Pending event channels of each hart, 256 bits, keyed by mhartid (R276); empty at reset. -/
  hevt : Tab (BitVec 256) := []
  /-- Settings of the PCIe functions 0 to 128 (R393, R394). -/
  fns : Tab Fn := []
  /-- VF Enable and NumVFs of the SR-IOV capability (R391, R393): 8 bits, 0 (disabled) at reset. -/
  numVfs : Nat := 0
  vfEnable : Bool := false
  /-- MSI-X vectors, keyed by function × 2,048 + vector (R392). -/
  msix : Tab Vector := []
  /-- The 2,048 command queues (R395); all OFF at reset. -/
  qs : Tab Queue := []
  /-- The 512 record queues (R395); all OFF at reset. -/
  rqs : Tab Queue := []
  /-- The committed deadline profiles 0 to 63 (R13); zero at reset (R15). -/
  profs : Tab Profile := []
  /-- The gate timer's entries by item ID (R12); none at reset. -/
  items : Tab Item := []
  /-- The next SEQ of each source, 44 bits, by SOURCE number (R11); 0 at reset. -/
  nextSeq : Tab Nat := []
  /-- Active destination descriptors 0 to 7 (R296); off at reset. -/
  dests : Tab Dest := []
  /-- Formed records waiting on each destination, in order of forming (R299); none at reset. -/
  egress : Tab (List OutRec) := []
  /-- Next RSN of each destination, 64 bits (R298); 0 at emergence. -/
  rsn : Tab Nat := []
  /-- The hostless service (R303 to R305, R408); OFF at reset. -/
  svc : Svc := {}
  /-- Partitions 0 to 7 (R335); FREE at reset. -/
  parts : Tab Part := []
  /-- Virtual instances, keyed by 16 × partition + instance (R345); OFF at reset. -/
  vis : Tab Vi := []
  /-- 64-byte lines (by device address / 64) that hold an uncorrectable error (R309, R325); none at reset. -/
  ue : List Nat := []
  /-- What left the device, latest first: the model's record of its outputs (DESIGN CHOICE, log entry 7), empty at reset. -/
  out : List Out := []
  /-- Line-sensor ports 0 to 3 (R73). -/
  ports : Tab Port := []
  /-- Ports whose page-present Schmitt stage is in its active state (R99, R439); none at reset (R47). -/
  ppActive : List Nat := []
  /-- Vision tiles 0 to 159 (R142). -/
  tiles : Tab Tile := []
  /-- Stream contexts 0 to 1,023 (R113). -/
  ctxs : Tab Ctx := []
  /-- Open batches, keyed by 8 × partition + bucket (R137); partition 8 for an unassigned context. None at reset. -/
  batches : Tab (Option Batch) := []
  /-- Next batch number by partition and bucket (R169), 32 bits; 0 at reset (DESIGN CHOICE, log entry 11). -/
  batchNo : Tab Nat := []
  /-- The model's number of the next batch, and the tiles that still hold each handed batch (R170). -/
  batchUid : Nat := 0
  batchHeld : Tab (List Nat) := []
  /-- Blocks of the sample arena in use: start, length and batch (R137); none at reset. -/
  arena : List (Nat × Nat × Nat) := []
  /-- Closed batches and full-frame samples not yet handed, in closing order (R140). -/
  handing : List Handing := []
  /-- RTCP datagrams handed to the session firmware (R117), latest first; none at reset. -/
  rtcp : List Bytes := []
  /-- SNAP_GEN and instant of a snapshot whose context counters are not copied yet (R141); none at reset. -/
  ctxSnap : Option (Nat × Nat) := none
  /-- Vocabulary slots 0 to 7 (R229); empty at reset. -/
  vocs : Tab Voc := []
  /-- Normalisation slots 0 to 3 (R230); empty at reset. -/
  norms : Tab Norm := []
  /-- Grammar slots 0 to 255 (R238); empty at reset. -/
  grms : Tab Grm := []
  /-- Lexicons 0 to 255 (R239); none registered at reset. -/
  lexs : Tab Lexicon := []
  /-- Grammar contexts that are not FREE, by context ID, 15 bits (R241); none at reset. -/
  gctxs : Tab GCtx := []
  /-- Next generation of each context ID, 17 bits (R241); 0 at reset (DESIGN CHOICE, log entry 16). -/
  gctxGen : Tab Nat := []
  /-- Resident sequences by sequence ID, 14 bits (R198); none at reset. -/
  seqs : Tab Sequence := []
  /-- Next generation of each sequence ID, 18 bits (R198); 0 at reset (DESIGN CHOICE, log entry 16). -/
  seqGen : Tab Nat := []
  /-- Attention units 0 to 7 (R197). -/
  aunits : Tab AUnit := []
  /-- HBM channels 0 to 63 (R310). -/
  chans : Tab Chan := []
  /-- The fabric shared cache, most recently used line first (R308); empty at reset. -/
  sc : List ScLine := []
  /-- Fabric harts 0 to 49,151 by mhartid (R255); every hart parked at reset. -/
  harts : Tab Hart := []
  /-- Fabric cores 0 to 95 (R255). -/
  cores : Tab Core := []
  /-- The firmware image being programmed: its target slot and bytes (R279), or none. -/
  fwProg : Option (Nat × Bytes) := none
  /-- The warden core (R280); registers and SRAM zero at reset (DESIGN CHOICE, log entry 18). -/
  warden : Warden := {}
  /-- Cocoons and saved states of the instances, keyed by 16 × partition + instance (R354, R358); none at reset. -/
  vsaved : Tab Saved := []
  /-- The partition command under way: 1 creating, 2 destroying, 3 destroying for a RESET, and its partition (R343, R344). -/
  pcmd : Option (Nat × Nat) := none
  /-- Kralon links 0 to 7 (R366); all DOWN at reset. -/
  klinks : Tab KLink := []
  /-- The kaleidoscope logic (R370 to R388); OFF at reset. -/
  kal : Kal := {}
  /-- The always-on domain's health state (R411 to R425, R453). -/
  health : Health := {}
  /-- Emergence and resets (R46, R53, R456). -/
  emg : Emg := {}
  /-- The general pins and the JTAG port (R434 to R439). -/
  pins : Pins := {}
  /-- The alert stage (R440 to R444). -/
  alert : Alert := {}
  /-- Bytes that a queue's COPY through a peer window has copied (R404): head count + 1 times 2^32, plus the bytes; none at reset. -/
  copyAt : Tab Nat := []
  deriving DecidableEq, Repr

/-- The fields of the state but the queue, by which a command's answer names what it may change. -/
inductive Fld where
  | free
  | mem
  | flash
  | regs
  | held
  | wosDone
  | shadow
  | snapAt
  | clk
  | pairs
  | flogRing
  | flogFlash
  | flogLast
  | holding
  | hevt
  | fns
  | numVfs
  | vfEnable
  | msix
  | qs
  | rqs
  | profs
  | items
  | nextSeq
  | dests
  | egress
  | rsn
  | svc
  | parts
  | vis
  | ue
  | out
  | ports
  | ppActive
  | tiles
  | ctxs
  | batches
  | batchNo
  | batchUid
  | batchHeld
  | arena
  | handing
  | rtcp
  | ctxSnap
  | vocs
  | norms
  | grms
  | lexs
  | gctxs
  | gctxGen
  | seqs
  | seqGen
  | aunits
  | chans
  | sc
  | harts
  | cores
  | fwProg
  | warden
  | vsaved
  | pcmd
  | klinks
  | kal
  | health
  | emg
  | pins
  | alert
  | copyAt
  deriving DecidableEq, Repr

/-- Why the machine stops: the spec gives no command of this block a stop, so the model has no fault. `none` stands for
that absence and is raised by nothing (safe). -/
inductive Fault where
  | none
  deriving DecidableEq, Repr

/-- Why a command has no meaning: `notModelled` is raised only by an arm of `exec` that is not written (safe: the model stops). -/
inductive Refusal where
  | notModelled (mnemonic : String)
  deriving DecidableEq, Repr

/-- The module right after a cold reset, before the 48 V input rises (R46): every register at its reset value. -/
def State.reset : State := {}

end Sys2Proof.Machine
end

