-- ==== Sys2Proof/Machine/Ops.lean ====
section
/-! DEFINITION. The named operations over the register file, the memory and the free values, and how a meaning
answers.  Events, messages and the fault log stand in `Flags`, register windows and views in `RegMap` and `Pages`. -/
namespace Sys2Proof.Machine

/-! ## How a meaning answers

Each command answers with `finish`, which names the fields of the state that it may change (its footprint): the others are those of the
state before, whatever the operations within it do. -/

/-- Memory in its canonical form: the identity on a canonical list. -/
def canonMem (m : List Host.Cell) : List Host.Cell :=
  if Tab.wf (0 : Byte) m then m else m.foldl (fun t e => Tab.set (0 : Byte) t e.1 e.2) []

/-- The next state of a command: `t`, of which it takes the fields `w` that the command may change; the others, and the queue, are those
of the state before. Memory is kept in its canonical form. -/
def State.taken (s t : State) (w : List Fld) : State :=
    { pending := s.pending
      free := if .free ∈ w then t.free else s.free
      mem := if .mem ∈ w then canonMem t.mem else s.mem
      flash := if .flash ∈ w then t.flash else s.flash
      regs := if .regs ∈ w then t.regs else s.regs
      held := if .held ∈ w then t.held else s.held
      wosDone := if .wosDone ∈ w then t.wosDone else s.wosDone
      shadow := if .shadow ∈ w then t.shadow else s.shadow
      snapAt := if .snapAt ∈ w then t.snapAt else s.snapAt
      clk := if .clk ∈ w then t.clk else s.clk
      pairs := if .pairs ∈ w then t.pairs else s.pairs
      flogRing := if .flogRing ∈ w then t.flogRing else s.flogRing
      flogFlash := if .flogFlash ∈ w then t.flogFlash else s.flogFlash
      flogLast := if .flogLast ∈ w then t.flogLast else s.flogLast
      holding := if .holding ∈ w then t.holding else s.holding
      hevt := if .hevt ∈ w then t.hevt else s.hevt
      fns := if .fns ∈ w then t.fns else s.fns
      numVfs := if .numVfs ∈ w then t.numVfs else s.numVfs
      vfEnable := if .vfEnable ∈ w then t.vfEnable else s.vfEnable
      msix := if .msix ∈ w then t.msix else s.msix
      qs := if .qs ∈ w then t.qs else s.qs
      rqs := if .rqs ∈ w then t.rqs else s.rqs
      profs := if .profs ∈ w then t.profs else s.profs
      items := if .items ∈ w then t.items else s.items
      nextSeq := if .nextSeq ∈ w then t.nextSeq else s.nextSeq
      dests := if .dests ∈ w then t.dests else s.dests
      egress := if .egress ∈ w then t.egress else s.egress
      rsn := if .rsn ∈ w then t.rsn else s.rsn
      svc := if .svc ∈ w then t.svc else s.svc
      parts := if .parts ∈ w then t.parts else s.parts
      vis := if .vis ∈ w then t.vis else s.vis
      ue := if .ue ∈ w then t.ue else s.ue
      out := if .out ∈ w then t.out else s.out
      ports := if .ports ∈ w then t.ports else s.ports
      ppActive := if .ppActive ∈ w then t.ppActive else s.ppActive
      tiles := if .tiles ∈ w then t.tiles else s.tiles
      ctxs := if .ctxs ∈ w then t.ctxs else s.ctxs
      batches := if .batches ∈ w then t.batches else s.batches
      batchNo := if .batchNo ∈ w then t.batchNo else s.batchNo
      batchUid := if .batchUid ∈ w then t.batchUid else s.batchUid
      batchHeld := if .batchHeld ∈ w then t.batchHeld else s.batchHeld
      arena := if .arena ∈ w then t.arena else s.arena
      handing := if .handing ∈ w then t.handing else s.handing
      rtcp := if .rtcp ∈ w then t.rtcp else s.rtcp
      ctxSnap := if .ctxSnap ∈ w then t.ctxSnap else s.ctxSnap
      vocs := if .vocs ∈ w then t.vocs else s.vocs
      norms := if .norms ∈ w then t.norms else s.norms
      grms := if .grms ∈ w then t.grms else s.grms
      lexs := if .lexs ∈ w then t.lexs else s.lexs
      gctxs := if .gctxs ∈ w then t.gctxs else s.gctxs
      gctxGen := if .gctxGen ∈ w then t.gctxGen else s.gctxGen
      seqs := if .seqs ∈ w then t.seqs else s.seqs
      seqGen := if .seqGen ∈ w then t.seqGen else s.seqGen
      aunits := if .aunits ∈ w then t.aunits else s.aunits
      chans := if .chans ∈ w then t.chans else s.chans
      sc := if .sc ∈ w then t.sc else s.sc
      harts := if .harts ∈ w then t.harts else s.harts
      cores := if .cores ∈ w then t.cores else s.cores
      fwProg := if .fwProg ∈ w then t.fwProg else s.fwProg
      warden := if .warden ∈ w then t.warden else s.warden
      vsaved := if .vsaved ∈ w then t.vsaved else s.vsaved
      pcmd := if .pcmd ∈ w then t.pcmd else s.pcmd
      klinks := if .klinks ∈ w then t.klinks else s.klinks
      kal := if .kal ∈ w then t.kal else s.kal
      health := if .health ∈ w then t.health else s.health
      emg := if .emg ∈ w then t.emg else s.emg
      pins := if .pins ∈ w then t.pins else s.pins
      alert := if .alert ∈ w then t.alert else s.alert
      copyAt := if .copyAt ∈ w then t.copyAt else s.copyAt }

/-- A command answers with that next state. -/
def finish (s t : State) (w : List Fld) : Host.Outcome State Fault Refusal := .next (s.taken t w)

/-- Every field. -/
def Fld.all : List Fld :=
  [.free, .mem, .flash, .regs, .held, .wosDone, .shadow, .snapAt, .clk, .pairs, .flogRing, .flogFlash, .flogLast,
   .holding, .hevt, .fns, .numVfs, .vfEnable, .msix, .qs, .rqs, .profs, .items, .nextSeq, .dests, .egress, .rsn, .svc,
   .parts, .vis, .ue, .out, .ports, .ppActive, .tiles, .ctxs, .batches, .batchNo, .batchUid, .batchHeld, .arena,
   .handing, .rtcp, .ctxSnap, .vocs, .norms, .grms, .lexs, .gctxs, .gctxGen, .seqs, .seqGen, .aunits, .chans, .sc,
   .harts, .cores, .fwProg, .warden, .vsaved, .pcmd, .klinks, .kal, .health, .emg, .pins, .alert, .copyAt]

/-! ## Registers -/

/-- The stored value of register key `a`. -/
def State.rd (s : State) (a : Nat) : Word := s.regs.get (resetAt a) a

/-- Give register key `a` the value `v`. -/
def State.wr (s : State) (a : Nat) (v : Word) : State := { s with regs := s.regs.set (resetAt a) a v }

/-- Bits hi..lo of register `a`. -/
def State.fld (s : State) (a hi lo : Nat) : Nat := bits (s.rd a) hi lo

/-- One bit of register `a`. -/
def State.flag (s : State) (a i : Nat) : Bool := bit (s.rd a) i

/-- Replace bits hi..lo of register `a`. -/
def State.setFld (s : State) (a hi lo n : Nat) : State := s.wr a (putBits (s.rd a) hi lo n)

/-- Replace one bit of register `a`. -/
def State.setFlag (s : State) (a i : Nat) (b : Bool) : State := s.setFld a i i (ofBool b)

/-- Add `n` to counter register `a`, which wraps at 2^32. -/
def State.count (s : State) (a n : Nat) : State := s.wr a (s.rd a + BitVec.ofNat 32 n)

/-- Add one to counter register `a`. -/
def State.bump (s : State) (a : Nat) : State := s.count a 1

/-- The 48-bit address of a LO and HI register pair. -/
def State.addr48 (s : State) (lo hi : Nat) : Nat := (s.rd lo).toNat + bits (s.rd hi) 15 0 * 2 ^ 32

/-- The value in force of register `a`: the one held while a later write waits for its instant (R66, R67). -/
def State.inForce (s : State) (a : Nat) : Word := (s.held.look a).getD (s.rd a)

/-- The writes to the registers of `as` take effect (R66). -/
def State.commitRegs (s : State) (as : List Nat) : State :=
  { s with held := s.held.filter (fun e => !as.contains e.1) }

/-- The writes waiting at the registers with keys from `lo` below `hi` take effect. -/
def State.commitRange (s : State) (lo hi : Nat) : State :=
  { s with held := s.held.filter (fun e => e.1 < lo || hi ≤ e.1) }

/-- A write that lists `mask` as waiting fields stores `v` and keeps the old value in force (R67). -/
def State.wrHeld (s : State) (a : Nat) (v : Word) : State :=
  { (s.wr a v) with held := if (s.held.look a).isSome then s.held else s.held.insert a (s.rd a) }

/-- BLK_STS.PENDING of the page at `p`: some write to it waits for its instant (R67). -/
def State.pendingAt (s : State) (p : Nat) : Bool := s.held.any (fun e => pageBase (e.1 % 0x4000000) == p)

/-! ## Time -/

/-- The timebase as a number. -/
def State.now (s : State) : Nat := s.clk.tb.toNat

/-- READY of AO_EMG_STS (R46). -/
def State.ready (s : State) : Bool := s.flag Reg.AO_EMG_STS 31

/-! ## Free values -/

/-- A fresh free 32-bit value, and the state that has used it up. -/
def State.fresh (s : State) : Word × State := (Config.freeWord s.free, { s with free := s.free + 1 })

/-- A fresh free 64-bit value. -/
def State.fresh64 (s : State) : DWord × State := (Config.freeDWord s.free, { s with free := s.free + 1 })

/-- n fresh free bytes. -/
def State.freshBytes (s : State) (n : Nat) : Bytes × State :=
  ((List.range n).map (fun i => Config.freeByte (s.free + i)), { s with free := s.free + n })

/-! ## Memory -/

/-- One byte of device memory. -/
def State.byte (s : State) (a : Nat) : Byte := Tab.get 0 s.mem a

/-- Bytes a to a + n − 1. -/
def memBytes (m : List Host.Cell) (a : Nat) : Nat → Bytes
  | 0 => []
  | n + 1 => Tab.get 0 m a :: memBytes m (a + 1) n

/-- Store bytes from address a on. -/
def memStore (m : List Host.Cell) (a : Nat) : Bytes → List Host.Cell
  | [] => m
  | b :: t => memStore (Tab.set (0 : Byte) m a b) (a + 1) t

/-- Read n bytes of device memory, with no check. -/
def State.ld (s : State) (a n : Nat) : Bytes := memBytes s.mem a n

/-- The harts after a write of n bytes from address `a` on: a reservation of a block written to is gone, whoever writes (R270). -/
def breakResv (hs : Tab Hart) (a n : Nat) : Tab Hart :=
  hs.map (fun (e : Nat × Hart) => match e.2.resv with
    | some k => if n != 0 && decide (a < 64 * k + 64) && decide (64 * k < a + n) then (e.1, { e.2 with resv := none }) else e
    | none => e)

/-- Store bytes in device memory, with no check. -/
def State.st (s : State) (a : Nat) (b : Bytes) : State :=
  { s with mem := memStore s.mem a b, harts := breakResv s.harts a b.length }

/-- The uncorrectable errors of the lines a store covers whole are gone (R309). -/
def State.clearUe (s : State) (a n : Nat) : State :=
  { s with ue := s.ue.filter (fun l => !(decide (a ≤ l * 64) && decide (l * 64 + 64 ≤ a + n))) }

/-- n zero bytes. -/
def zeros (n : Nat) : Bytes := List.replicate n 0

/-- Memory with the entries from a to a + n − 1 removed: they read zero. -/
def State.zeroMem (s : State) (a n : Nat) : State :=
  { s with mem := s.mem.filter (fun e => e.1 < a || a + n ≤ e.1), harts := breakResv s.harts a n }

/-- A flash byte; an erased byte reads 0xFF. -/
def State.flashByte (s : State) (a : Nat) : Byte := Tab.get 0xFF s.flash a

/-- Bytes of the flash. -/
def flashBytes (m : List Host.Cell) (a : Nat) : Nat → Bytes
  | 0 => []
  | n + 1 => Tab.get 0xFF m a :: flashBytes m (a + 1) n

/-- Program bytes of the flash. -/
def flashStore (m : List Host.Cell) (a : Nat) : Bytes → List Host.Cell
  | [] => m
  | b :: t => flashStore (Tab.set (0xFF : Byte) m a b) (a + 1) t

def State.fld8 (s : State) (a n : Nat) : Bytes := flashBytes s.flash a n

def State.flashErase (s : State) (a n : Nat) : State :=
  { s with flash := s.flash.filter (fun e => e.1 < a || a + n ≤ e.1) }

def State.flashProg (s : State) (a : Nat) (b : Bytes) : State := { s with flash := flashStore s.flash a b }

/-! ## Which addresses exist and can be used -/

/-- Start of the commons, the tile windows, the register space, the peer windows and host memory (R446). -/
def commonsBase : Nat := 0x001000000000
def tileBase : Nat := 0x001100000000
def regBase : Nat := 0x002000000000
def peerBase : Nat := 0x400000000000
def hostBase : Nat := 0x800000000000

/-- The ranges of R446: one address lies in one of them. -/
def inRange1 (a : Nat) : Bool :=
  decide (a < 0x000C00000000) || (decide (commonsBase ≤ a) && decide (a < 0x001003800000)) ||
  (decide (tileBase ≤ a) && decide (a < 0x001114000000)) || (decide (regBase ≤ a) && decide (a < 0x002004000000)) ||
  (decide (peerBase ≤ a) && decide (a < 0x1000000000000))

/-- Both ends of a range lie in one and the same range of R446, so that every byte does (R447). -/
def inRange (a n : Nat) : Bool :=
  n == 0 || (inRange1 a && inRange1 (a + n - 1) &&
    (decide (a + n - 1 < 0x000C00000000) || decide (0x000C00000000 ≤ a)) &&
    (decide (a + n - 1 < 0x001003800000) || decide (0x001003800000 ≤ a)) &&
    (decide (a + n - 1 < 0x001114000000) || decide (0x001114000000 ≤ a)) &&
    (decide (a + n - 1 < 0x002004000000) || decide (0x002004000000 ≤ a)))

/-- The owner and mode of commons unit u (R306): its byte of UNIT_MAP. -/
def State.unitMap (s : State) (u : Nat) : Nat := s.fld (Reg.UNIT_MAP (u / 4)) (8 * (u % 4) + 7) (8 * (u % 4))

/-- Commons unit u is memory: an owned slice, or an owned way in MEMORY mode (R306). -/
def State.unitIsMem (s : State) (u : Nat) : Bool :=
  let m := s.unitMap u
  decide (nbits m 7 7 = 1) && (decide (u < 40) || decide (nbits m 6 6 = 1))

/-- The partition's description: its descriptor bytes (R341). -/
def descBytes (d : BitVec 1024) : Bytes := toLe 128 d.toNat

def Part.mask (p : Part) (i k : Nat) : Nat := leAt (descBytes p.desc) i k
def Part.pairs (p : Part) : Nat := p.mask 4 4
def Part.slices (p : Part) : Nat := p.mask 8 8
def Part.cacheWays (p : Part) : Nat := p.mask 16 2
def Part.memWays (p : Part) : Nat := p.mask 18 2
def Part.aus (p : Part) : Nat := p.mask 20 1
def Part.cores (p : Part) : Nat := p.mask 24 12
def Part.tiles (p : Part) : Nat := p.mask 40 20
def Part.peers (p : Part) : Nat := p.mask 64 32
def Part.flags (p : Part) : Nat := p.mask 2 1
def Part.priv (p : Part) : Bool := p.flags.testBit 0
def Part.host (p : Part) : Bool := p.flags.testBit 1
def Part.adapts (p : Part) : Bool := p.flags.testBit 2
def Part.zeroHbm (p : Part) : Bool := p.flags.testBit 3
def Part.nvis (p : Part) : Nat := p.mask 3 1
def Part.order (p : Part) : Nat := p.mask 1 1 % 4

/-- Partition p. -/
def State.part (s : State) (p : Nat) : Part := s.parts.get {} p
def State.setPart (s : State) (p : Nat) (q : Part) : State := { s with parts := s.parts.set {} p q }
def State.updPart (s : State) (p : Nat) (f : Part → Part) : State := s.setPart p (f (s.part p))

/-- Instance v of partition p. -/
def State.vi (s : State) (p v : Nat) : Vi := s.vis.get {} (16 * p + v)
def State.setVi (s : State) (p v : Nat) (x : Vi) : State := { s with vis := s.vis.set {} (16 * p + v) x }
def State.updVi (s : State) (p v : Nat) (f : Vi → Vi) : State := s.setVi p v (f (s.vi p v))

/-- The partition that owns tile t, core c, attention unit u or channel q, if any (R335). -/
def State.ownerBy (s : State) (f : Part → Nat) (i : Nat) : Option Nat :=
  firstBelow 8 (fun p => (s.part p).state != .free && (f (s.part p)).testBit i)
def State.tileOwner (s : State) (t : Nat) : Option Nat := s.ownerBy Part.tiles t
def State.coreOwner (s : State) (c : Nat) : Option Nat := s.ownerBy Part.cores c
def State.auOwner (s : State) (u : Nat) : Option Nat := s.ownerBy Part.aus u
def State.chanOwner (s : State) (q : Nat) : Option Nat := s.ownerBy Part.pairs (q / 2)

/-- The channels of a partition in ascending order (R313). -/
def Part.channels (p : Part) : List Nat := (List.range 64).filter (fun q => p.pairs.testBit (q / 2))

/-- The channel that an HBM address maps to (R313). -/
def State.chanOf (s : State) (a : Nat) : Nat :=
  let seg := a / 0x30000000
  match s.chanOwner seg with
  | none => seg
  | some p =>
    let cs := (s.part p).channels
    let n := cs.length
    let i := cs.findIdx (· == seg)
    let l := (i * 0x30000000 + (a - seg * 0x30000000)) / 64
    let k := match (s.part p).order with
      | 0 => l % n
      | 1 => l / 16 % n
      | 2 => l % n
      | _ => l / 12582912
    (cs.drop k).headD seg

/-- Channel q is frozen or fenced (R329). -/
def State.chanFenced (s : State) (q : Nat) : Bool := decide (2 ≤ s.fld (Reg.CH_STS q) 31 30)

/-- A page of register space is granted to partition p (R336): its tiles', cores' and attention units' pages and its own;
every page under PRIV. -/
def State.pageGranted (s : State) (p o : Nat) : Bool :=
  let P := s.part p
  P.priv ||
  (match pageAt o with
   | some .tile => P.tiles.testBit ((o - 0x100000) / 0x1000)
   | some .core => P.cores.testBit ((o - 0x221000) / 0x1000)
   | some .au => P.aus.testBit ((o - 0x201000) / 0x1000)
   | some .part => decide ((o - 0x311000) / 0x1000 = p)
   | _ => false)

/-- Memory units of 1 MiB of the commons that a byte range touches. -/
def unitsOf (a n : Nat) : List Nat :=
  let u0 := (a - commonsBase) / 0x100000
  let u1 := (a + n - 1 - commonsBase) / 0x100000
  range' u0 (u1 + 1 - u0)

/-- The partition check of R263 for partition p over the bytes a to a + n − 1: HBM, commons, tile windows and register
pages it owns, and peer windows and host memory it is granted (R336). -/
def State.granted (s : State) (p a n : Nat) : Bool :=
  let P := s.part p
  inRange a n &&
  (if n = 0 then true
   else if a < 0x000C00000000 then
     P.priv || (range' (a / 0x30000000) ((a + n - 1) / 0x30000000 + 1 - a / 0x30000000)).all (fun q => P.pairs.testBit (q / 2))
   else if a < 0x001003800000 then
     (unitsOf a n).all (fun u => if u < 40 then P.slices.testBit u else P.memWays.testBit (u - 40))
   else if a < 0x001114000000 then
     (range' ((a - tileBase) / 0x200000) ((a + n - 1 - tileBase) / 0x200000 + 1 - (a - tileBase) / 0x200000)).all
       (fun t => P.tiles.testBit t)
   else if a < 0x002004000000 then
     (range' ((a - regBase) / 0x1000) ((a + n - 1 - regBase) / 0x1000 + 1 - (a - regBase) / 0x1000)).all
       (fun k => s.pageGranted p (k * 0x1000))
   else if a < hostBase then
     (range' ((a - peerBase) / 0x4000000000) ((a + n - 1 - peerBase) / 0x4000000000 + 1 - (a - peerBase) / 0x4000000000)).all
       (fun m => P.peers.testBit m)
   else P.host)

/-- The physical or virtual function may reach host memory: link up and its own settings (R393). -/
def State.fn (s : State) (f : Nat) : Fn := s.fns.get {} f
def State.fnEnabled (s : State) (f : Nat) : Bool := f == 0 || (s.vfEnable && decide (f ≤ s.numVfs))
def State.hostOpen (s : State) (f : Nat) : Bool :=
  s.flag Reg.HP_STS 31 && (s.fn f).busMaster && s.fnEnabled f

/-- The outcome of a memory access of a unit that is not a hart. -/
inductive MemRes where
  | ok | unmapped | error | host
  deriving DecidableEq, Repr

/-- Lines of 64 bytes that a range touches. -/
def linesOf (a n : Nat) : List Nat := range' (a / 64) ((a + n - 1) / 64 + 1 - a / 64)

/-- Whether the bytes a to a + n − 1 can be read for function f (0 for every unit but a function's queue): in a range
(R447), no fenced channel (R329), no uncorrectable line (R309), host memory open (R393). Peer windows and the register
space are not memory of this module and are handled by their own rows. -/
def State.canRead (s : State) (f a n : Nat) : MemRes :=
  if n = 0 then .ok
  else if !inRange a n then .unmapped
  else if hostBase ≤ a then (if s.hostOpen f then .ok else .host)
  else if s.ue.any (fun l => decide (a / 64 ≤ l) && decide (l ≤ (a + n - 1) / 64)) then .error
  else if a < 0x000C00000000 then
    (if (List.range 64).all (fun q => !s.chanFenced q) then .ok
     else if (linesOf a n).any (fun l => s.chanFenced (s.chanOf (l * 64))) then .error else .ok)
  else .ok

/-- Whether the bytes can be written: as for a read, but an uncorrectable line does not refuse a write. -/
def State.canWrite (s : State) (f a n : Nat) : MemRes :=
  if n = 0 then .ok
  else if !inRange a n then .unmapped
  else if hostBase ≤ a then (if s.hostOpen f then .ok else .host)
  else if a < 0x000C00000000 then
    (if (List.range 64).all (fun q => !s.chanFenced q) then .ok
     else if (linesOf a n).any (fun l => s.chanFenced (s.chanOf (l * 64))) then .error else .ok)
  else .ok

/-- Bytes read by a unit that is not a hart: a commons unit that is not memory reads zero and is counted (R306), and so do
the offsets of a tile window that hold no memory (R143). -/
def State.ldUnit (s : State) (a n : Nat) : Bytes × State :=
  if commonsBase ≤ a ∧ a < 0x001003800000 then
    let bad := (unitsOf a n).filter (fun u => !s.unitIsMem u)
    if bad = [] then (s.ld a n, s)
    else ((List.range n).map (fun i => if s.unitIsMem ((a + i - commonsBase) / 0x100000) then s.byte (a + i) else 0),
          s.count Reg.COM_CNT_BAD_UNIT bad.length)
  else (s.ld a n, s)

/-- A range touches the context records of an enabled TGU, which only the TGU writes (R245). -/
def State.ctxRecordAt (s : State) (a n : Nat) : Bool :=
  let b := s.addr48 Reg.CTX_BASE_LO Reg.CTX_BASE_HI
  s.flag Reg.TGU_CTL 0 && decide (b < a + n) && decide (a < b + 0x200000)

/-- A tile window address holds memory: tile store or line buffer (R143). -/
def tileMemAt (a : Nat) : Bool :=
  let o := (a - tileBase) % 0x200000
  decide (o < 0xE0000) || (decide (0x100000 ≤ o) && decide (o < 0x160000))

/-- Bytes written by a unit that is not a hart: a commons unit that is not memory takes nothing and is counted (R306); a line of HBM
leaves the fabric shared cache (R308). A write that covers a whole line clears its uncorrectable error. -/
def State.stUnit (s : State) (a : Nat) (b : Bytes) : State :=
  if commonsBase ≤ a ∧ a < 0x001003800000 then
    let bad := (unitsOf a b.length).filter (fun u => !s.unitIsMem u)
    if bad = [] ∧ s.ctxRecordAt a b.length = false then (s.st a b).clearUe a b.length
    else (b.zipIdx.foldl (fun t (e : Byte × Nat) =>
        if s.unitIsMem ((a + e.2 - commonsBase) / 0x100000) && !s.ctxRecordAt (a + e.2) 1 then t.st (a + e.2) [e.1] else t) s).count
           Reg.COM_CNT_BAD_UNIT bad.length
  else if a < 0x000C00000000 then
    ({ s with sc := s.sc.filter (fun e => decide (e.line * 64 + 64 ≤ a) || decide (a + b.length ≤ e.line * 64)) }.st a b).clearUe a b.length
  else if tileBase ≤ a ∧ a < 0x001114000000 ∧ (tileMemAt a && tileMemAt (a + b.length - 1) && decide (b.length ≤ 0x20000)) = false then
    (b.zipIdx.foldl (fun t (e : Byte × Nat) => if tileMemAt (a + e.2) then t.st (a + e.2) [e.1] else t) s).clearUe a b.length
  else (s.st a b).clearUe a b.length

/-- Record an output. -/
def State.emit (s : State) (o : Out) : State := { s with out := o :: s.out }

/-- A read of register `a` by `req` returns data. -/
def State.readOut (_ : State) (req : BitVec 16) (a : Nat) (r : Word × State) : State := r.2.emit (.read req a r.1)

end Sys2Proof.Machine
end

