-- ==== Sys2Proof/Machine/Flags.lean ====
section
/-! DEFINITION. The status the block computes for itself: page events and event channels (R63, R64), MSI-X messages
(R394), the fault log (R423, R424), lock and key violations (R54, R60, R61) and the storing of a register write (R67). -/
namespace Sys2Proof.Machine

/-! ## Messages and event channels -/

/-- Number of MSI-X vectors of function f (R392). -/
def vectors (f : Nat) : Nat := if f = 0 then 2048 else 64

/-- Function f's vector v is sent, held in the PBA while masked, or discarded and counted (R394). -/
def State.msixSend (s : State) (f v : Nat) : State :=
  let F := s.fn f
  if vectors f ≤ v ∨ s.fnEnabled f = false ∨ F.msixEnable = false ∨ F.busMaster = false then s.bump Reg.HP_CNT_VEC_DROP
  else
    let k := f * 2048 + v
    let m := s.msix.get {} k
    if m.mask ∨ F.funcMask then { s with msix := s.msix.set {} k { m with pend := true } }
    else s.emit (.msix f v m.addr m.data)

/-- Set event channel `c` pending for hart `h` (R276). -/
def State.hartEvent (s : State) (h c : Nat) : State :=
  { s with hevt := s.hevt.upd 0 h (fun b => b ||| BitVec.ofNat 256 (2 ^ (c % 256))) }

/-- EVT_CHAN_CFG of channel c (R64). -/
def State.chanCfg (s : State) (c : Nat) : Word := s.rd (bank c Reg.EVT_CHAN_CFG)

/-- The pending bit of channel c (R64). -/
def State.chanPend (s : State) (c : Nat) : Bool := s.flag (Reg.EVT_CHAN_PEND (c / 32)) (c % 32)

/-- Channel c delivers one message if it is pending, its KIND is 1 to 3 and it is not within its holdoff (R64). -/
def State.deliver (s : State) (c : Nat) : State :=
  let cfg := s.chanCfg c
  let kind := bits cfg 31 30
  if s.chanPend c = false ∨ kind = 0 ∨ s.holding.contains c then s
  else
    let t := s.setFlag (Reg.EVT_CHAN_PEND (c / 32)) (c % 32) false
    let t := if bits cfg 29 20 = 0 then t else { t with holding := c :: t.holding }
    match kind with
    | 1 => t.msixSend (bits cfg 18 11) (bits cfg 10 0)
    | 2 => t.hartEvent (bits cfg 15 9 * 512 + bits cfg 8 0) c
    | _ => t.emit (.warden c)

/-- A page or a queue signals event channel c (R63, R64). -/
def State.signal (s : State) (c : Nat) : State :=
  (s.setFlag (Reg.EVT_CHAN_PEND (c % 256 / 32)) (c % 32) true).deliver (c % 256)

/-- The masked OR of page `p` (R63). -/
def State.evtOr (s : State) (p : Nat) : Bool := (s.rd (p + 0x10) &&& s.rd (p + 0x14)) != 0

/-- The channel that page `p` signals (R55). -/
def State.evtChan (s : State) (p : Nat) : Nat := s.fld (p + 8) 23 16

/-- The unit of page `p` raises the events of `mask`: the channel is signalled when the masked OR rises (R63). -/
def State.raiseMask (s : State) (p : Nat) (mask : Word) : State :=
  let was := s.evtOr p
  let t := s.wr (p + 0x10) (s.rd (p + 0x10) ||| mask)
  if !was && t.evtOr p then t.signal (t.evtChan p) else t

/-- The unit of page `p` raises event bit `b`. -/
def State.raise (s : State) (p b : Nat) : State := s.raiseMask p (BitVec.ofNat 32 (2 ^ b))

/-! ## Requesters (R452) -/

abbrev Req := BitVec 16
def reqWarden : Req := 0xFFFF
def reqHost (f : Nat) : Req := BitVec.ofNat 16 (0xC000 + f)
def reqHart (h : Nat) : Req := BitVec.ofNat 16 h
def reqPeer (m : Nat) : Req := BitVec.ofNat 16 (0xC300 + m)

/-- The key of a requester's TB_HI and calendar latches: each fabric core, the host port, the warden and each Kralon link
have their own (R39). -/
def latchKey (r : Req) : Nat := if r.toNat < 0xC000 then r.toNat / 512 else if r.toNat < 0xC100 then 0xC000 else r.toNat

/-! ## The fault log -/

/-- Write an entry of the fault log (R423, R424), detected by the page with BLK_ID `id`. -/
def State.log (s : State) (cls code id detail : Nat) : State :=
  let fseq := s.rd Reg.FLOG_NEXT
  let e : FEntry :=
    { tb := if s.clk.running then s.clk.tb else 0, fseq := fseq, cal := s.clk.calSec.setWidth 32, cls := cls,
      tbValid := s.clk.running, calValid := s.clk.calValid, committed := false, code := code,
      block := id / 0x10000, inst := id % 0x10000, detail := BitVec.ofNat 64 detail }
  let full := decide (1024 ≤ s.flogRing.length)
  let t := { s with flogRing := (if full then s.flogRing.drop 1 else s.flogRing) ++ [e] }
  let t := (t.wr Reg.FLOG_NEXT (fseq + 1)).bump Reg.FLOG_CNT_ENTRIES
  let t := if full then (t.bump Reg.FLOG_CNT_OVERWRITTEN).raise 0x9000 1 else t
  if t.fld Reg.FLOG_CTL 1 0 ≤ cls then t.raise 0x9000 0 else t

/-- The DETAIL of an access: address and requester (R424). -/
def accessDetail (req : Req) (a : Nat) : Nat := a % 2 ^ 48 + req.toNat * 2 ^ 48

/-- Log a violation of cause `code` on page `p`, at most once per page and cause in 1,000,000 TCLK (R61). -/
def State.logLimited (s : State) (code p id detail : Nat) : State :=
  let k := p * 4 + code % 4
  let last := s.flogLast.get 0 k
  if last ≠ 0 ∧ s.clk.tclk < last - 1 + 1000000 then s
  else { (s.log 0 code id detail) with flogLast := s.flogLast.set 0 k (s.clk.tclk + 1) }

/-- A lock violation by `req` at register `a` (R61). -/
def State.lockViol (s : State) (req : Req) (a : Nat) : State :=
  let p := pageBase a
  ((s.raise p 31).bump Reg.LOCKVIOL_CNT).logLimited 1 p (blkId a) (accessDetail req a)

/-- A write with a wrong key by `req` at register `a` (R54). -/
def State.keyViol (s : State) (req : Req) (a : Nat) : State :=
  let p := pageBase a
  ((s.raise p 30).bump Reg.KEYVIOL_CNT).logLimited 2 p (blkId a) (accessDetail req a)

/-- An access at which no page lies, or of a form outside the rules (R57, R58). -/
def State.unmapped (s : State) (req : Req) (a : Nat) : State :=
  (s.bump Reg.UNMAPPED_CNT).logLimited 3 (pageBase a) (if (pageAt a).isSome then blkId a else 0) (accessDetail req a)

/-! ## Storing a register write -/

/-- The fields of register `a` that are closed: RWL in a locked group, or write-once and written (R60). -/
def State.closedMask (s : State) (a : Nat) (d : RegDef) : Word :=
  let l := s.rd (pageBase (a % 0x4000000) + 0x1C)
  (if bit l 0 then BitVec.ofNat 32 d.lk0 else 0) ||| (if bit l 1 then BitVec.ofNat 32 d.lk1 else 0) |||
  (if s.wosDone.contains a then BitVec.ofNat 32 d.wos else 0)

/-- The write of `v` to `a` carries another value for some closed field (R60). -/
def State.violates (s : State) (a : Nat) (d : RegDef) (v : Word) : Bool :=
  (s.closedMask a d &&& (v ^^^ s.rd a)) != 0

/-- The unit whose boundary a register's waiting fields wait for is enabled (R67): the port, the stream context shown, the
partition, or the source of a SRC_MAP. -/
def State.unitEnabled (s : State) (a : Nat) : Bool :=
  let o := a % 0x4000000
  match pageAt o with
  | some .p0 | some .p1 | some .p2 | some .p3 => s.flag (Reg.PORT_CTL ((o - 0x10000) / 0x4000)) 0
  | some .part => decide ((s.part ((o - 0x311000) / 0x1000)).phase ≠ .none)
  | some .sctx => false
  | some .sch =>
    let i := a / 0x4000000 - 1
    if o ≠ Reg.SRC_MAP then true
    else if i < 4 then s.flag (Reg.PORT_CTL i) 0 else bit ((((s.ctxs.get {} (i - 4)).cfg).headD 0) : Word) 31
  | _ => true

/-- The word that a write of `v` leaves in register `a`: its writable fields, clamped (R67). -/
def State.stored (s : State) (a : Nat) (d : RegDef) (v : Word) : Word :=
  let rw := BitVec.ofNat 32 d.rw
  clampWord a ((s.rd a &&& ~~~rw) ||| (v &&& rw))

/-- Store a write in register `a`: nothing, and a lock violation, when it carries another value for a closed field (R60);
otherwise its fields, at once or for their commit instant (R66, R67). The second component says whether it was stored. -/
def State.store (s : State) (req : Req) (a : Nat) (v : Word) : State × Bool :=
  match defAt a with
  | none => (s, true)
  | some d =>
    if s.violates a d v then (s.lockViol req (a % 0x4000000), false)
    else
      let w := s.stored a d v
      let waits := BitVec.ofNat 32 (d.item ||| d.stripe ||| d.slice)
      let t := if waits ≠ 0 ∧ s.unitEnabled a then s.wrHeld a w else s.wr a w
      (if d.wos ≠ 0 then { t with wosDone := if t.wosDone.contains a then t.wosDone else a :: t.wosDone } else t, true)

/-- A write to register `a` with behaviour: the violation, or the stored write and then `k`. -/
def State.storeThen (s : State) (req : Req) (a : Nat) (v : Word) (k : State → State) : State :=
  let r := s.store req a v
  if r.2 then k r.1 else r.1

/-- A keyed write to `a`, whose key field [31:16] must hold `key` (R54). -/
def State.keyed (s : State) (req : Req) (a : Nat) (v : Word) (key : Nat) (k : State → State) : State :=
  if bits v 31 16 = key then k s else s.keyViol req a

end Sys2Proof.Machine
end

