-- ==== Sys2Proof/Machine/Queue.lean ====
section
/-! DEFINITION. The queue engine's shared operations (R395 to R403): the command that a queue executes, its completion entry,
the write-back block and the message, and the entries of record queues. -/
namespace Sys2Proof.Machine

/-- Completion statuses (R398). -/
inductive St where
  | ok | busy | sealed | unknown | stale | range | badOpcode | badCmd | memErr | noSpace | noStep | badStep | badTable
  | page | model | notLoaded | badImage | tooBig | nomatch | mismatch | full | rejected | access | hostErr
  deriving DecidableEq, Repr

/-- The code of a status (R398). -/
def St.code : St → Nat
  | .ok => 0 | .busy => 1 | .sealed => 2 | .unknown => 3 | .stale => 4 | .range => 5 | .badOpcode => 6 | .badCmd => 7
  | .memErr => 8 | .noSpace => 9 | .noStep => 10 | .badStep => 11 | .badTable => 12 | .page => 13 | .model => 14
  | .notLoaded => 15 | .badImage => 16 | .tooBig => 17 | .nomatch => 18 | .mismatch => 19 | .full => 20
  | .rejected => 21 | .access => 22 | .hostErr => 23

def QState.code : QState → Nat
  | .off => 0 | .run => 1 | .stopped => 2 | .error => 3

def State.queue (s : State) (q : Nat) : Queue := s.qs.get {} q
def State.setQueue (s : State) (q : Nat) (x : Queue) : State := { s with qs := s.qs.set {} q x }
def State.rqueue (s : State) (q : Nat) : Queue := s.rqs.get {} q
def State.setRqueue (s : State) (q : Nat) (x : Queue) : State := { s with rqs := s.rqs.set {} q x }

/-- Entries between two 16-bit counts (R397). -/
def between (head tail : Nat) : Nat := (tail + 65536 - head) % 65536

/-- Slots of a command: one when its OPCODE is below 0x0030, else two (R397). -/
def slotsOf (opcode : Nat) : Nat := if opcode < 0x30 then 1 else 2

/-- The 64 bytes of a fetched command. -/
def cmdBytes (d : BitVec 512) : Bytes := toLe 64 d.toNat

/-- OPCODE and TAG of a command (R30, R223). -/
def opcodeOf (d : BitVec 512) : Nat := leAt (cmdBytes d) 16 2
def tagOf (d : BitVec 512) : Nat := leAt (cmdBytes d) 20 4

/-- The function whose requester ID a queue's requests carry (R393), and the code of its requester (R452). -/
def Queue.fnOf (q : Queue) : Nat := if q.owner = 0xFFFF then 0 else q.owner
def Queue.req (q : Queue) : Req :=
  if q.owner = 0xFFFF then BitVec.ofNat 16 (0xC240 + q.part) else reqHost q.owner

/-- The partition and instance a queue acts for: none for the physical function and fabric queues of a PRIV partition,
which act without restriction (R396). -/
def State.actsFor (s : State) (q : Queue) : Option (Nat × Nat) :=
  if q.owner = 0xFFFF then (if (s.part q.part).priv then none else some (q.part, q.vi))
  else if q.owner = 0 then none
  else some ((q.owner - 1) / 16, (q.owner - 1) % 16)

/-- The partition and instance to which an object that a queue opens belongs (R337); partition 8 stands for none, as for
the physical function (log entry 9). -/
def Queue.ownerOf (q : Queue) : Nat × Nat :=
  if q.owner = 0xFFFF then (q.part, q.vi) else if q.owner = 0 then (8, 0) else ((q.owner - 1) / 16, (q.owner - 1) % 16)

/-- A queue may name an object of partition p (R396); a shadow belongs to no partition, stands under number 9, and any queue may name
it (log entry 20). -/
def State.owns (s : State) (q : Queue) (p : Nat) : Bool :=
  match s.actsFor q with
  | none => true
  | some (p', _) => p' == p || p == 9

/-- A queue may use the bytes a to a + n − 1 (R396): the partition check of its owner. -/
def State.mayUse (s : State) (q : Queue) (a n : Nat) : Bool :=
  match s.actsFor q with
  | none => inRange a n
  | some (p, _) => s.granted p a n

/-- The write-back block of a queue (R401). -/
def wbBlock (q : Queue) : Bytes :=
  toLe 2 q.head ++ [0, 0] ++ toLe 2 (if q.logM = 0 then q.tail else q.cqTail) ++ [0, 0] ++ toLe 1 q.state.code ++ zeros 55

/-- Write a queue's block if host memory is open for it. -/
def State.writeBack (s : State) (q : Queue) : State :=
  if s.canWrite q.fnOf q.wb 64 = .ok then s.stUnit q.wb (wbBlock q) else s

/-- The message of a queue: its owner's vector, or the event channel of a fabric queue (R395, R401). -/
def State.qMessage (s : State) (q : Queue) : State :=
  if q.vector = 0xFFFF then s else if q.owner = 0xFFFF then s.signal q.vector else s.msixSend q.owner q.vector

/-- A completion entry (R398). -/
def compEntry (d : BitVec 512) (st result sqHead kind stamp : Nat) : Bytes :=
  toLe 8 result ++ toLe 4 (tagOf d) ++ toLe 2 st ++ toLe 2 (opcodeOf d) ++ toLe 2 sqHead ++ toLe 1 kind ++ zeros 5 ++
  toLe 8 stamp ++ zeros 32

/-- Write n 64-byte entries at the completion tail of queue g, then the write-back, then the message when COAL_N entries
are unsignalled (R401). -/
def State.postEntries (s : State) (g : Nat) (q : Queue) (es : List Bytes) : State :=
  let t := es.zipIdx.foldl (fun (t : State) (e : Bytes × Nat) =>
    let a := q.cq + 64 * ((q.cqTail + e.2) % 2 ^ q.logM)
    if t.canWrite q.fnOf a 64 = .ok then t.stUnit a e.1 else t) s
  let q := { q with cqTail := (q.cqTail + es.length) % 65536, unsig := q.unsig + es.length,
                    unsigAt := if q.unsig = 0 then s.now else q.unsigAt }
  let send := decide (q.coalN ≤ q.unsig)
  let q := if send then { q with unsig := 0 } else q
  let t := (t.setQueue g q).writeBack q
  if send then t.qMessage q else t

/-- Command queue g becomes OFF: its contexts have no queue any more (R249), and a DESTROY that waited for it ends (R395). -/
def State.queueOff (s : State) (g : Nat) : State :=
  ({ s with qs := s.qs.set {} g {},
            gctxs := s.gctxs.map (fun (e : Nat × GCtx) => if e.2.queue = some g then (e.1, { e.2 with queue := none }) else e) } : State).setFlag
    Reg.QUEUE_STS 31 false

/-- A queue stops (R395, R409): it is OFF at once, or when the command that it executes has completed. -/
def State.stopQueue (s : State) (g : Nat) : State :=
  let q := s.queue g
  if q.state = .off then s
  else if q.cur.isNone then s.queueOff g
  else s.setQueue g { q with state := .stopped }

/-- Queue g completes its executing command with a status and a RESULT (R397, R398): the head advances past it. -/
def State.complete (s : State) (g : Nat) (st : St) (result : Nat := 0) : State :=
  let q := s.queue g
  match q.cur with
  | none => s
  | some d =>
    let head := (q.head + slotsOf (opcodeOf d)) % 65536
    let q := { q with head := head, cur := none }
    match q.state with
    | .run | .error => s.postEntries g q [compEntry d st.code result head 0 s.now]
    | _ => s.queueOff g          -- the completion of a destroyed or stopped queue is discarded (R395, R409)

/-- The TARGET of each opcode's commands (R395, R30, R140, R223, R404, R405, R408): whether queue target `t` executes it. -/
def opTarget (t op : Nat) : Bool :=
  match t with
  | 0 => op == 0x10
  | 1 => decide (1 ≤ op) && decide (op ≤ 4)
  | 2 => (decide (0x21 ≤ op) && decide (op ≤ 0x26)) || op == 0x30
  | 3 => decide (0x60 ≤ op) && decide (op ≤ 0x6D)
  | 4 => op == 0x70
  | 6 | 7 => op == 0x12
  | _ => decide (8 ≤ t) && decide (t ≤ 15) && (decide (0x40 ≤ op) && decide (op ≤ 0x43) || op == 0x47 || op == 0x48 || op == 0x4A)

/-- The command of queue g that a row executes: its executing command, when it has opcode `op`; the queue may have gone into ERROR
or been stopped since it started (R395, R397, R409). -/
def State.executing (s : State) (g op : Nat) : Option (BitVec 512) :=
  match (s.queue g).state, (s.queue g).cur with
  | .run, some d | .error, some d | .stopped, some d => if opcodeOf d = op then some d else none
  | _, _ => none

/-- The instance of queue q is being reset: what its tag still has in flight ends with no write and no completion (R362). -/
def State.tagFenced (s : State) (q : Queue) : Bool :=
  let o := q.ownerOf
  decide (o.1 < 8) && (s.vi o.1 o.2).state == .resetting

/-- The executing command of queue g ends with nothing written, and nothing waits behind it (R362). -/
def State.dropCmd (s : State) (g : Nat) : State :=
  let q := s.queue g
  if q.state = .stopped then s.queueOff g else s.setQueue g { q with cur := none, head := q.tail }

/-- Execute the command with opcode `op` at the head of queue g by `k`, which gives the state after its effect, its status
and its RESULT; a queue that executes no such command changes nothing (log entry 8). -/
def State.execCmd (s : State) (g op : Nat) (k : Queue → Bytes → State × St × Nat) : State :=
  match s.executing g op with
  | none => s
  | some d =>
    if s.tagFenced (s.queue g) then s.dropCmd g else
    let r := k (s.queue g) (cmdBytes d)
    r.1.complete g r.2.1 r.2.2

/-- The same for a command that may hold its queue: nothing changes while `k` gives none. -/
def State.execHeld (s : State) (g op : Nat) (k : Queue → Bytes → Option (State × St × Nat)) : State :=
  match s.executing g op with
  | none => s
  | some d =>
    if s.tagFenced (s.queue g) then s.dropCmd g else
    match k (s.queue g) (cmdBytes d) with
    | none => s
    | some r => r.1.complete g r.2.1 r.2.2

/-- What stops a unit's use of the bytes a to a + n − 1 for a queue: ACCESS when its owner's partition is not granted them (R396,
R447), MEM_ERR for an error (R329) and for register space or a peer window, which are no memory of the module. -/
def State.memStop (s : State) (q : Queue) (a n : Nat) (write : Bool) : Option St :=
  if s.mayUse q a n = false then some .access
  else if regBase ≤ a ∧ a < hostBase ∧ n ≠ 0 then some .memErr
  else if (if write then s.canWrite q.fnOf a n else s.canRead q.fnOf a n) = .ok then none else some .memErr

/-- Units of a record queue that a record of n bytes takes (R400). -/
def recUnits (n : Nat) : Nat := ceilDiv (16 + n) 64

/-- Write bytes at successive units from ring position p of a record queue. -/
def State.ringStore (s : State) (q : Queue) (p : Nat) (b : Bytes) : State :=
  let a := q.ring + 64 * p
  if s.canWrite q.fnOf a b.length = .ok then s.stUnit a b else s

/-- Put a record or frame of class `cls` with header number `n8` into record queue g; the second component is false when
the queue does not run or has no room (R400). -/
def State.pushRecord (s : State) (g cls n8 : Nat) (b : Bytes) : State × Bool :=
  let q := s.rqueue g
  let u := recUnits b.length
  let size := 2 ^ q.logN
  let pos := q.tail % size
  let skip := if size < pos + u then size - pos else 0
  if q.state ≠ .run ∨ size < between q.head q.tail + u + skip ∨ size < u then (s, false)
  else
    let s := if skip = 0 then s else s.ringStore q pos (zeros 64)
    let pos := (pos + skip) % size
    let unit := toLe 4 b.length ++ toLe 1 cls ++ zeros 3 ++ toLe 8 n8 ++ b
    let s := s.ringStore q pos (unit ++ zeros (64 * u - unit.length))
    let q := { q with tail := (q.tail + skip + u) % 65536, unsig := q.unsig + 1, unsigAt := if q.unsig = 0 then s.now else q.unsigAt }
    let send := decide (q.coalN ≤ q.unsig)
    let q := if send then { q with unsig := 0 } else q
    let s := (s.setRqueue g q).writeBack q
    (if send then s.qMessage q else s, true)

end Sys2Proof.Machine
end

