-- ==== Sys2Proof/Machine/Grammar.lean ====
section
/-! DEFINITION. Grammar contexts (10): vocabularies, state records and trie nodes read from their images, context states (R242 to
R244), drafting (R245), detokenization (R252) and the end of a context (R249).  Commands are in `Tgu`. -/
namespace Sys2Proof.Machine

def State.voc (s : State) (i : Nat) : Option Voc := s.vocs.look i
def State.grm (s : State) (i : Nat) : Option Grm := s.grms.look i

/-- The TGU's page. -/
def tguPage : Nat := 0x210000

/-! ## UTF-8 (R232) -/

/-- What a byte string begins with: a well-formed character, an ill-formed maximal subpart, or an incomplete character. -/
inductive U8 where
  | char (n cp : Nat)
  | bad (n : Nat)
  | short
  deriving DecidableEq, Repr

/-- Continuation bytes of a character that begins with lead bits `acc`: `k` bytes, the first within lo..hi, after `i` bytes. -/
def u8tail (acc i lo hi : Nat) : Nat → Bytes → U8
  | 0, _ => .char i acc
  | _ + 1, [] => .short
  | k + 1, b :: t => if lo ≤ b.toNat ∧ b.toNat ≤ hi then u8tail (acc * 64 + b.toNat % 64) (i + 1) 0x80 0xBF k t else .bad i

/-- The first character, or maximal subpart of an ill-formed sequence, of a byte string (RFC 3629). -/
def u8scan : Bytes → U8
  | [] => .short
  | b :: t =>
    let n := b.toNat
    if n < 0x80 then .char 1 n
    else if n < 0xC2 then .bad 1
    else if n < 0xE0 then u8tail (n % 32) 1 0x80 0xBF 1 t
    else if n = 0xE0 then u8tail 0 1 0xA0 0xBF 2 t
    else if n = 0xED then u8tail 13 1 0x80 0x9F 2 t
    else if n < 0xF0 then u8tail (n % 16) 1 0x80 0xBF 2 t
    else if n = 0xF0 then u8tail 0 1 0x90 0xBF 3 t
    else if n < 0xF4 then u8tail (n % 8) 1 0x80 0xBF 3 t
    else if n = 0xF4 then u8tail 4 1 0x80 0x8F 3 t
    else .bad 1

/-- UTF-8 of a code point. -/
def u8enc (cp : Nat) : Bytes :=
  if cp < 0x80 then toBe 1 cp
  else if cp < 0x800 then toBe 1 (0xC0 + cp / 64) ++ toBe 1 (0x80 + cp % 64)
  else if cp < 0x10000 then toBe 1 (0xE0 + cp / 4096) ++ toBe 1 (0x80 + cp / 64 % 64) ++ toBe 1 (0x80 + cp % 64)
  else toBe 1 (0xF0 + cp / 262144) ++ toBe 1 (0x80 + cp / 4096 % 64) ++ toBe 1 (0x80 + cp / 64 % 64) ++ toBe 1 (0x80 + cp % 64)

/-! ## Images (R228, R237, R239) -/

/-- The 8-byte entry of token t. -/
def State.vocEntry (s : State) (img t : Nat) : Bytes := s.ld (img + 64 + 8 * t) 8

/-- The string of token t. -/
def State.tokStr (s : State) (v : Voc) (t : Nat) : Bytes :=
  let e := s.vocEntry v.img t
  s.ld (v.img + v.strOfs + leAt e 0 4) (byteAt e 4)

def State.tokSpecial (s : State) (v : Voc) (t : Nat) : Bool := byteAt (s.vocEntry v.img t) 5 % 2 == 1

/-- Token t is a byte token. -/
def isByteTok (base : Option Nat) (t : Nat) : Bool :=
  match base with
  | none => false
  | some b => decide (b ≤ t) && decide (t < b + 256)

/-- A state record: ACCEPT, ranges (LO, HI, TARGET) and calls (LEX, RET). -/
structure GState where
  accept : Bool
  ranges : List (Nat × Nat × Nat)
  calls : List (Nat × Nat)

/-- Device address of the record of state `st`. -/
def State.gstateAt (s : State) (g : Grm) (st : Nat) : Nat := g.img + leAt (s.ld (g.img + g.indexOfs + 4 * st) 4) 0 4

def State.gstate (s : State) (g : Grm) (st : Nat) : GState :=
  let a := s.gstateAt g st
  let h := s.ld a 8
  let nr := leAt h 2 2
  let nc := byteAt h 1
  let r := s.ld (a + 8) (8 * (nr + nc))
  { accept := byteAt h 0 % 2 == 1,
    ranges := (List.range nr).map (fun i => (leAt r (8 * i) 2, leAt r (8 * i + 2) 2, leAt r (8 * i + 4) 4)),
    calls := (List.range nc).map (fun i => (byteAt r (8 * (nr + i)), leAt r (8 * (nr + i) + 4) 4)) }

/-- A trie node: TERMINAL, ENTRY and children (TOKEN, WEIGHT, NODE). -/
structure LNode where
  term : Bool
  entry : Nat
  kids : List (Nat × Nat × Nat)

def kidsRise : List (Nat × Nat × Nat) → Bool
  | a :: b :: t => decide (a.1 < b.1) && kidsRise (b :: t)
  | _ => true

/-- Node n of lexicon l, none when it is malformed or out of reach (R239, R240). -/
def State.lexNode (s : State) (l n : Nat) : Option LNode :=
  match s.lexs.look l with
  | none => none
  | some x =>
    let vocab := match s.voc x.voc with
      | some v => v.vocab
      | none => 0
    if x.bytes < 8 * n + 8 then none
    else
      let a := x.base + 8 * n
      let h := s.ld a 8
      let k := leAt h 0 2
      if x.bytes < 8 * n + 8 + 8 * k ∨ s.canRead 0 a (8 + 8 * k) ≠ .ok then none
      else
        let r := s.ld (a + 8) (8 * k)
        let kids := (List.range k).map (fun i => (leAt r (8 * i) 2, leAt r (8 * i + 2) 2, leAt r (8 * i + 4) 4))
        let term := byteAt h 2 == 1
        if 2 ≤ byteAt h 2 ∨ byteAt h 3 ≠ 0 ∨ (term = false ∧ leAt h 4 4 ≠ 0xFFFFFFFF) ∨ kidsRise kids = false ∨
            kids.any (fun e => decide (vocab ≤ e.1)) ∨ (k = 0 ∧ term = false) ∨ (n = x.root ∧ term) then none
        else some ⟨term, leAt h 4 4, kids⟩

/-! ## Context states (R242 to R244) -/

/-- A list of threads being built, with the overflows and bad nodes met. -/
structure Build where
  out : List Thread := []
  over' : Nat := 0
  bad : Nat := 0

/-- `add` of R242: a thread and its closure. A list holds at most four threads, so five levels are enough. -/
def State.addThread (s : State) (g : Option Grm) : Nat → Build → Thread → Build
  | 0, b, _ => b
  | fuel + 1, b, t =>
    if b.out.contains t then b
    else match t with
      | .dfa st =>
        if 4 ≤ b.out.length then { b with over' := b.over' + 1 }
        else
          let b := { b with out := b.out ++ [t] }
          match g with
          | none => b
          | some g => (s.gstate g st).calls.foldl (fun b c =>
              match s.lexs.look c.1 with
              | none => { b with bad := b.bad + 1 }
              | some x => s.addThread (some g) fuel b (.lex c.1 x.root c.2)) b
      | .lex l n ret =>
        match s.lexNode l n with
        | none => { b with bad := b.bad + 1 }
        | some nd =>
          if 4 ≤ b.out.length then { b with over' := b.over' + 1 }
          else
            let b := { b with out := b.out ++ [t] }
            if nd.term then s.addThread g fuel b (.dfa ret) else b

/-- Closure of a list (R242). -/
def State.closure (s : State) (g : Option Grm) (l : List Thread) : Build :=
  l.foldl (fun b t => s.addThread g 8 b t) {}

/-- The successor of a thread on token t (R243). -/
def State.succ1 (s : State) (g : Option Grm) (t : Nat) : Thread → Option Thread
  | .dfa st =>
    match g with
    | none => none
    | some g => ((s.gstate g st).ranges.find? (fun r => decide (r.1 ≤ t) && decide (t ≤ r.2.1))).map (fun r => .dfa r.2.2)
  | .lex l n ret =>
    match s.lexNode l n with
    | none => none
    | some nd => (nd.kids.find? (fun k => k.1 == t)).map (fun k => .lex l k.2.2 ret)

/-- The step on token t (R243). -/
def State.threadStep (s : State) (g : Option Grm) (l : List Thread) (t : Nat) : Build :=
  s.closure g (l.filterMap (s.succ1 g t))

def GCtx.grmOf (s : State) (c : GCtx) : Option Grm := c.grammar.bind s.grm

/-- VOCAB of a context's vocabulary. -/
def GCtx.vocab (s : State) (c : GCtx) : Nat :=
  match s.voc c.voc with
  | some v => v.vocab
  | none => 0

/-- The state holds a DFA thread whose state has ACCEPT; a context with no grammar is always accepting (R241, R244). -/
def GCtx.accepting (s : State) (c : GCtx) (l : List Thread) : Bool :=
  match c.grmOf s with
  | none => true
  | some g => l.any (fun t => match t with
    | .dfa st => (s.gstate g st).accept
    | _ => false)

/-- The mask of a state, as the token ranges it allows besides END_TOK (R244). -/
def GCtx.maskRanges (s : State) (c : GCtx) (l : List Thread) : List (Nat × Nat) :=
  match c.grmOf s with
  | none => [(0, 65535)]
  | some g => (l.map (fun t => match t with
    | .dfa st => (s.gstate g st).ranges.map (fun r => (r.1, r.2.1))
    | .lex l n _ => match s.lexNode l n with
      | some nd => nd.kids.map (fun k => (k.1, k.1))
      | none => [])).flatten

/-- Bit t of the mask given its ranges and whether the state accepts (R244). -/
def GCtx.bitOf (c : GCtx) (vocab : Nat) (r : List (Nat × Nat)) (acc : Bool) (t : Nat) : Bool :=
  decide (t < vocab) && (if t = c.endTok ∧ c.grammar.isSome then acc else r.any (fun e => decide (e.1 ≤ t) && decide (t ≤ e.2)))

/-- Whether a state's mask allows token t. -/
def GCtx.allows (s : State) (c : GCtx) (l : List Thread) (t : Nat) : Bool :=
  c.bitOf (c.vocab s) (c.maskRanges s l) (c.accepting s l) t

/-- The tokens a mask allows, ascending. -/
def GCtx.allowed (s : State) (c : GCtx) (l : List Thread) : List Nat :=
  let v := c.vocab s
  (List.range v).filter (c.bitOf v (c.maskRanges s l) (c.accepting s l))

/-- The 8,192 bytes of a mask (R244). -/
def GCtx.maskBytes (s : State) (c : GCtx) (l : List Thread) : Bytes :=
  let bitFn := c.bitOf (c.vocab s) (c.maskRanges s l) (c.accepting s l)
  (List.range 8192).map (fun i => BitVec.ofNat 8 (((List.range 8).map (fun j => if bitFn (8 * i + j) then 2 ^ j else 0)).sum))

/-- Range and child entries over the threads of a state: E of R246. -/
def GCtx.entries (s : State) (c : GCtx) (l : List Thread) : Nat := if c.grammar.isNone then 0 else (c.maskRanges s l).length

/-! ## The contexts -/

/-- The FLAGS byte of a context record (R245). -/
def GCtx.flags (s : State) (c : GCtx) : Nat :=
  ofBool c.overflow + 2 * ofBool c.trunc + 4 * ofBool (c.accepting s c.threads) + 8 * ofBool c.replaced + 16 * ofBool c.lexBad

/-- The context record of R245. -/
def GCtx.record (s : State) (c : GCtx) : Bytes :=
  toLe 4 c.handle ++ toLe 1 (if c.bound then 2 else 1) ++ toLe 1 (c.flags s) ++ toLe 1 c.cands.length ++ toLe 1 c.forced ++
  toLe 8 c.item ++ toLe 4 c.commitGen ++ toLe 4 c.candGen ++ toLe 4 c.textLen ++ toLe 1 c.hold.length ++ zeros 1 ++ toLe 2 c.field ++
  (c.cands.map (toLe 2)).flatten ++ zeros (16 - 2 * c.cands.length) ++ zeros 16

/-- Where the record of context `id` lies. -/
def State.ctxRecAddr (s : State) (id : Nat) : Nat := s.addr48 Reg.CTX_BASE_LO Reg.CTX_BASE_HI + 64 * id

/-- A context with its record in commons. -/
def State.setGCtx (s : State) (id : Nat) (c : GCtx) : State :=
  let s := { s with gctxs := s.gctxs.insert id c }
  s.st (s.ctxRecAddr id) (c.record s)

/-- Overflows and bad nodes are counted, raised and flagged (R240, R242). -/
def State.noteBuild (s : State) (b : Build) : State :=
  let s := if b.over' = 0 then s else (s.count Reg.TGU_CNT_OVERFLOW b.over').raise tguPage 2
  if b.bad = 0 then s else (s.count Reg.TGU_CNT_LEX_BAD b.bad).raise tguPage 3

def GCtx.noteBuild (c : GCtx) (b : Build) : GCtx :=
  { c with overflow := c.overflow || b.over' != 0, lexBad := c.lexBad || b.bad != 0 }

/-- The context of a handle: not stale, and of a partition that the queue may name (R241, R396). -/
def State.gctxOf (s : State) (q : Queue) (h : Nat) : Option (Nat × GCtx) :=
  match s.gctxs.look (h % 32768) with
  | none => none
  | some c => if c.handle = h ∧ s.owns q c.part then some (h % 32768, c) else none

/-! ## Drafting (R245) -/

/-- The child with the largest WEIGHT, ties to the lowest TOKEN. -/
def bestKid : List (Nat × Nat × Nat) → Option Nat
  | [] => none
  | k :: t => some (t.foldl (fun (b : Nat × Nat) e => if b.2 < e.2.1 then (e.1, e.2.1) else b) (k.1, k.2.1)).1

/-- Candidates, FORCED bits, and the overflows and bad nodes met. -/
def GCtx.draftGo (s : State) (c : GCtx) : Nat → Nat → List Thread → List Nat × Nat × Nat × Nat
  | 0, _, _ => ([], 0, 0, 0)
  | n + 1, k, l =>
    let pick : Option (Nat × Nat) := match c.allowed s l with
      | [t] => some (t, 1)
      | _ => (l.findSome? (fun t => match t with
          | .lex x nd _ => (s.lexNode x nd).bind (fun y => bestKid y.kids)
          | _ => none)).map (fun t => (t, 0))
    match pick with
    | none => ([], 0, 0, 0)
    | some (t, f) =>
      if t = c.endTok then ([], 0, 0, 0)
      else
        let b := s.threadStep (c.grmOf s) l t
        let r := c.draftGo s n (k + 1) b.out
        (t :: r.1, f * 2 ^ k + r.2.1, b.over' + r.2.2.1, b.bad + r.2.2.2)

/-- The TGU drafts context `id`: its list, then CAND_GEN. -/
def State.draft (s : State) (id : Nat) (c : GCtx) : State :=
  let r := c.draftGo s c.draftMax 0 c.threads
  let b : Build := { over' := r.2.2.1, bad := r.2.2.2 }
  let s := ((s.noteBuild b).count Reg.TGU_CNT_CAND r.1.length).count Reg.TGU_CNT_CAND_FORCED
    ((List.range 8).filter (fun i => r.2.1.testBit i)).length
  s.setGCtx id { c.noteBuild b with cands := r.1, forced := r.2.1, candGen := c.commitGen, drafting := false }

/-! ## Detokenization (R252) -/

/-- Append whole characters to the text buffer: what does not fit truncates the text. -/
def State.putText (s : State) (c : GCtx) (b : Bytes) : State × GCtx :=
  if c.trunc then (s, c)
  else if c.cap < c.textLen + b.length then (s.bump Reg.TGU_CNT_TEXT_TRUNC, { c with trunc := true })
  else
    let a := c.text + c.textLen
    (if s.canWrite 0 a b.length = .ok then s.stUnit a b else s, { c with textLen := c.textLen + b.length })

/-- A replacement character. -/
def State.putRepl (s : State) (c : GCtx) : State × GCtx :=
  (s.bump Reg.TGU_CNT_DETOK_REPL).putText { c with replaced := true } [0xEF, 0xBF, 0xBD]

/-- The hold is written out: at most as many units as bytes. At the close an incomplete character is replaced too. -/
def State.drainHold (s : State) (c : GCtx) (closing : Bool) : Nat → State × GCtx
  | 0 => (s, c)
  | fuel + 1 =>
    match u8scan c.hold with
    | .char n _ =>
      let r := s.putText { c with hold := c.hold.drop n } (c.hold.take n)
      r.1.drainHold r.2 closing fuel
    | .bad n =>
      let r := s.putRepl { c with hold := c.hold.drop n }
      r.1.drainHold r.2 closing fuel
    | .short => if closing ∧ c.hold ≠ [] then s.putRepl { c with hold := [] } else (s, c)

/-- The text of a token is appended. -/
def State.putToken (s : State) (c : GCtx) (t : Nat) : State × GCtx :=
  match s.voc c.voc with
  | none => (s, c)
  | some v =>
    if s.tokSpecial v t then (s, c)
    else
      let c := { c with hold := c.hold ++ s.tokStr v t }
      s.drainHold c false (c.hold.length + 1)

/-- Tokens are committed to a context whose state becomes `l` (R247): text, TOKENS, COMMIT_GEN. -/
def State.commitTokens (s : State) (id : Nat) (c : GCtx) (l : List Thread) (toks : List Nat) : State :=
  let r := toks.foldl (fun (r : State × GCtx) t => r.1.putToken r.2 t) (s, c)
  r.1.setGCtx id { r.2 with threads := l, tokens := r.2.tokens + toks.length, commitGen := (r.2.commitGen + 1) % 2 ^ 32, drafting := true }

/-! ## The end of a context (R249) -/

/-- Entry of the first LEX thread at a terminal node. -/
def State.terminalEntry (s : State) (l : List Thread) : Option (Nat × Nat) :=
  l.findSome? (fun t => match t with
    | .lex x n _ => (s.lexNode x n).bind (fun nd => if nd.term then some (x, nd.entry) else none)
    | _ => none)

/-- The close notice. -/
def GCtx.notice (s : State) (c : GCtx) (verdict cause : Nat) (ended : Bool) : Bytes :=
  let e := if ended then s.terminalEntry c.threads else none
  toLe 8 c.item ++ toLe 2 c.field ++ toLe 1 verdict ++ toLe 1 cause ++ toLe 4 c.textLen ++
  toLe 8 (match c.grmOf s with | some g => g.tag.toNat | none => 0) ++
  toLe 1 (match e with | some x => x.1 | none => 0xFF) ++ toLe 1 (c.flags s) ++ zeros 2 ++
  toLe 4 (match e with | some x => x.2 | none => 0xFFFFFFFF) ++ toLe 4 c.tokens ++ toLe 4 c.handle ++ toLe 8 s.now ++ zeros 16

/-- A close notice on the queue that opened the context (R399): an entry of KIND 1 and the notice. -/
def State.closeNotice (s : State) (c : GCtx) (b : Bytes) : State :=
  match c.queue with
  | none => s
  | some g =>
    let q := s.queue g
    let q := { q with reserved := q.reserved - 2 }
    match q.state with
    | .run | .error => s.postEntries g q [compEntry c.cmd 0 0 q.head 1 s.now, b]
    | _ => s.setQueue g q

/-- A context closes with a verdict, after its END_TOK or not: the detokenizer flushes, the notice goes out, the ID is free. -/
def State.closeCtx (s : State) (id verdict cause : Nat) (ended : Bool) : State :=
  match s.gctxs.look id with
  | none => s
  | some c =>
    let r := s.drainHold c true (c.hold.length + 1)
    let s := r.1.closeNotice r.2 (r.2.notice r.1 verdict cause ended)
    ({ s with gctxs := s.gctxs.erase id }).st (s.ctxRecAddr id + 4) [0]

end Sys2Proof.Machine
end

