-- ==== Sys2Proof/Machine/Work.lean ====
section
/-! DEFINITION. The work of other units that a seal cancels: a port's face (R106), resident sequences and grammar contexts that
name an item. -/
namespace Sys2Proof.Machine

def State.port (s : State) (p : Nat) : Port := s.ports.get {} p
def State.setPort (s : State) (p : Nat) (x : Port) : State := { s with ports := s.ports.set {} p x }
def State.updPort (s : State) (p : Nat) (f : Port → Port) : State := s.setPort p (f (s.port p))

/-- The stripe page of port p. -/
def framePage (p : Nat) : Nat := 0x13000 + 0x4000 * p

/-! ## Notices and the end of a face -/

/-- A notice of R103. -/
def noticeOf (f : Face) (anchor : DWord) (isEnd : Bool) (replaced : Nat) : Bytes :=
  toLe 8 f.id ++ toLe 8 anchor.toNat ++ toLe 4 f.lead ++
  toLe 4 (if isEnd then f.trail.getD 0xFFFFFFFF else 0xFFFFFFFF) ++
  toLe 2 (if isEnd then f.left else f.openLeft) ++ toLe 2 (if isEnd then f.right else f.openRight) ++
  toLe 2 (unsign 16 f.skew) ++
  toLe 1 (ofBool f.skewValid + 2 * ofBool f.edgePresent + 4 * ofBool f.followed + 8 * ofBool f.trailPresent) ++
  toLe 1 (if isEnd then 32 + f.ended.getD 0 else 16) ++
  toLe 4 (if isEnd then replaced else 0) ++ toLe 4 (if isEnd then f.handed else 0) ++ zeros 8

def State.notice (s : State) (p : Nat) (b : Bytes) : State := s.updPort p (fun x => { x with notices := b :: x.notices })

/-- Row r of a face is output line lead − PAD + r (R107), as an integer line number. -/
def Face.line (f : Face) (r : Nat) : Int := (f.lead : Int) - f.pad + r

/-- A line that does not exist: it comes before the first output line passed since the enable (R107). -/
def Port.noLine (x : Port) (n : Int) : Bool :=
  match x.firstLine with
  | none => true
  | some k => decide (n < (k : Int))

/-- A line that does not exist, or was replaced (R107, R110). -/
def Port.isReplaced (x : Port) (n : Int) : Bool := x.noLine n || (x.info.get {} n.toNat).replaced

/-- Stamp of an output line (R88). The spec gives none to a line that does not exist: a free value. -/
def State.lineStamp (s : State) (p : Nat) (n : Int) : DWord × State :=
  if (s.port p).noLine n then s.fresh64 else (((s.port p).info.get {} n.toNat).stamp, s)

/-- Rows of an item whose trailing edge is known (R107). -/
def Face.rows (f : Face) (trail : Nat) : Nat := trail - f.lead + 1 + 2 * f.pad

/-- Replaced lines among the item's rows so far (R103). -/
def Port.replacedRows (x : Port) (f : Face) : Nat :=
  let last : Int := match f.trail with
    | some t => (t : Int) + f.pad
    | none => (x.lastLine.getD 0 : Int)
  let n := (last - f.line 0 + 1).toNat
  ((List.range n).filter (fun r => x.isReplaced (f.line r))).length

def State.setFace (s : State) (p : Nat) (f : Face) : State :=
  s.updPort p (fun x => { x with faces := x.faces.map (fun g => if g.id = f.id then f else g) })

def State.dropFace (s : State) (p id : Nat) : State :=
  s.updPort p (fun x => { x with faces := x.faces.filter (fun g => g.id != id) })

/-- The faces whose END notice has not been sent. -/
def Port.live (x : Port) : List Face := x.faces.filter (fun f => !f.aborted)

/-- Framing is in state FACE on this face, the port's latest (R98). -/
def Port.follows (x : Port) (f : Face) : Bool :=
  x.fstate == .face && (match x.faces.getLast? with | some g => g.id == f.id | none => false)

/-- Side edges of the face (R101). The spec gives none to a face without an occupied line: free values. -/
def State.sideEdges (s : State) (f : Face) : (Nat × Nat) × State :=
  if f.right < f.left then let r := s.fresh; ((bits r.1 15 0, bits r.1 31 16), r.2) else ((f.left, f.right), s)

/-- The END notice goes out and the face is done with (R103); a face that framing follows stays until it ends. -/
def State.endNotice (s : State) (p : Nat) (f : Face) : State :=
  let r := s.sideEdges f
  let s := r.2.notice p (noticeOf { f with left := r.1.1, right := r.1.2 } f.anchor true ((s.port p).replacedRows f))
  if (s.port p).follows f then s.setFace p { f with aborted := true } else s.dropFace p f.id

/-- Cause numbers of R103. -/
def causeNormal : Nat := 0
def causeOverlength : Nat := 1
def causeOverlap : Nat := 2
def causeStall : Nat := 3
def causeLink : Nat := 4
def causeDisable : Nat := 5
def causeCancelled : Nat := 6
def causeRefused : Nat := 7

/-- The landing slots of stripes landed and not handed are free again: the stripes are discarded (R106). -/
def State.freeLanded (s : State) (p : Nat) (f : Face) : State :=
  (range' f.handed (f.landed - f.handed)).foldl (fun s k => s.updPort p (fun x => { x with slots := x.slots.set none (k % 2) none })) s

/-- The port's face of an item sealed before its capture was done: its remaining stripes are discarded and the END notice goes out
with cause CANCELLED (R106). -/
def State.cancelFace (s : State) (id : Nat) : State :=
  let p := nbits id 55 44
  if p < 4 then
    match (s.port p).live.find? (fun f => f.id == id) with
    | none => s
    | some f => (s.freeLanded p f).endNotice p { f with ended := some 6, aborted := true }
  else s

/-- The OPEN contexts of an item close ABANDONED (R251). -/
def State.abandonCtxs (s : State) (id : Nat) : State :=
  (s.gctxs.filter (fun (e : Nat × GCtx) => e.2.item == id && !e.2.bound)).foldl (fun s e => s.closeCtx e.1 2 0 false) s

/-- Remaining work for an item is cancelled at its seal under LATE_MODE NONE, or at its late limit (R28, R29): its sequences end when
a step or a SEQ_END next names them (R200). -/
def State.cancelWork (s : State) (id : Nat) : State := (s.cancelFace id).abandonCtxs id

/-- Some resident sequence names the item (R201). -/
def State.seqNames (s : State) (id : Nat) : Bool := s.seqs.any (fun (e : Nat × Sequence) => e.2.item == id)

/-- Some grammar context names the item (R251). -/
def State.ctxNames (s : State) (id : Nat) : Bool := s.gctxs.any (fun (e : Nat × GCtx) => e.2.item == id)

end Sys2Proof.Machine
end

