-- ==== Sys2Proof/Machine/Records.lean ====
section
/-! DEFINITION. Records (12): their CBOR encoding (R284), the decision and LATE records and the notices (R288, R289, R295),
the destinations they wait for (R297) and how a record leaves (R298 to R300). -/
namespace Sys2Proof.Machine

/-! ## CBOR, Core Deterministic Encoding (R284) -/

/-- A CBOR head: major type and argument in its shortest form. -/
def cborHead (major n : Nat) : Bytes :=
  let m := major * 32
  if n < 24 then toBe 1 (m + n)
  else if n < 2 ^ 8 then toBe 1 (m + 24) ++ toBe 1 n
  else if n < 2 ^ 16 then toBe 1 (m + 25) ++ toBe 2 n
  else if n < 2 ^ 32 then toBe 1 (m + 26) ++ toBe 4 n
  else toBe 1 (m + 27) ++ toBe 8 n

def cborUint (n : Nat) : Bytes := cborHead 0 n
def cborBool (b : Bool) : Bytes := toBe 1 (if b then 0xF5 else 0xF4)
def cborArray (l : List Bytes) : Bytes := cborHead 4 l.length ++ l.flatten
/-- A map whose keys, integers from 0 to 23, are given in rising order. -/
def cborMap (l : List (Nat × Bytes)) : Bytes := cborHead 5 l.length ++ (l.map (fun e => cborUint e.1 ++ e.2)).flatten
def cborBytes (b : Bytes) : Bytes := cborHead 2 b.length ++ b

/-! ## Calendar stamps (R45) -/

/-- A timebase stamp converted with the latest pair whose timebase is not later than it: seconds, fraction, valid. -/
def State.calOf (s : State) (stamp : Int) : Nat × Nat × Bool :=
  match s.pairs.find? (fun p => decide ((p.tb.toNat : Int) ≤ stamp)) with
  | none => (0, 0, false)
  | some p =>
    let delta := (stamp - p.tb.toNat).toNat
    let total := p.frac.toNat + delta * 65536 / 1000000000
    ((p.sec.toNat + total / 65536) % 2 ^ 64, total % 65536, s.clk.calValid)

/-- Key 7 of a record (R288). -/
def State.cborCal (s : State) (stamp : Int) : Bytes :=
  let c := s.calOf stamp
  cborArray [cborUint c.1, cborUint c.2.1, cborBool c.2.2]

/-! ## Items' records -/

def State.item (s : State) (id : Nat) : Option Item := s.items.look id
def State.setItem (s : State) (id : Nat) (it : Item) : State := { s with items := s.items.insert id it }
def State.freeItem (s : State) (id : Nat) : State := { s with items := s.items.erase id }

/-- SOURCE of an item ID (R11). -/
def sourceOf (id : Nat) : Nat := nbits id 55 44

def SealCause.code : SealCause → Nat
  | .completed => 0 | .deadline => 1 | .command => 2 | .sourceAbort => 3 | .noBudget => 4 | .notOpened => 5

/-- The stages word of a record (R288 key 11). -/
def Item.stages (it : Item) : Nat := it.done.toNat + it.ovr.toNat * 32 + it.upst.toNat * 1024

/-- A timebase value as the 64-bit number a record carries. -/
def tb64 (i : Int) : Nat := unsign 64 i

/-- Keys 1 to 5 of a record or notice (R288, R295). -/
def Item.keys1to5 (id : Nat) (it : Item) : List (Nat × Bytes) :=
  [ (1, cborUint id), (2, cborUint (sourceOf id)), (3, cborUint it.prof), (4, cborUint (tb64 it.anchor)),
    (5, cborUint (if it.hasDl then tb64 it.deadline else 0)) ]

/-- The body bytes published since the last record, with the number of parts, none when some byte cannot be read (R286). -/
def State.body (s : State) (it : Item) : Option Bytes :=
  if s.canRead 0 it.body it.bytes = .ok then some (s.ld (it.body + it.sentBytes) (it.bytes - it.sentBytes)) else none

/-- The parts array of a record (R288 key 12): the parts published and not yet carried. -/
def partsArray (n : Nat) (b : Bytes) : Bytes := cborHead 4 n ++ b

/-- The notice of an item (R295). -/
def noticeBytes (id : Nat) (it : Item) : Bytes := cborMap ((0, cborUint 5) :: Item.keys1to5 id it)

/-- A decision or LATE record (R288). -/
def State.recordBytes (s : State) (kind id : Nat) (it : Item) (stamp : Int) (status cause decision : Nat) (parts : Bytes)
    (late : List (Nat × Bytes)) : Bytes :=
  cborMap ((0, cborUint kind) :: Item.keys1to5 id it ++
    [ (6, cborUint (tb64 stamp)), (7, s.cborCal stamp), (8, cborUint status), (9, cborUint cause), (10, cborUint decision),
      (11, cborUint it.stages), (12, parts) ] ++ late)

/-! ## Destinations -/

def RecClass.code : RecClass → Nat
  | .notice => 0 | .decision => 1 | .late => 2 | .status => 3

/-- Destination d's active descriptor. -/
def State.dest (s : State) (d : Nat) : Dest := s.dests.get {} d

/-- A formed record waits on every active destination of `mask` whose CLASSES includes its class (R297). -/
def State.post (s : State) (mask : Nat) (r : OutRec) : State :=
  (List.range 8).foldl (fun s d =>
    let D := s.dest d
    if mask.testBit d ∧ D.kind ≠ 0 ∧ D.classes.testBit r.cls.code then
      { s with egress := s.egress.upd [] d (fun l => l ++ [r]) }
    else s) s

/-- The destination mask of profile p (R297). -/
def State.profMask (s : State) (p : Nat) : Nat := s.fld (Reg.PROF_DMASK (p / 4)) (8 * (p % 4) + 7) (8 * (p % 4))

/-- Form an item's notice (R295). -/
def State.formNotice (s : State) (id : Nat) (it : Item) : State :=
  (s.bump Reg.REC_CNT_NOTICES).post it.dmask { cls := .notice, item := id, order := s.now, bytes := noticeBytes id it }

/-- Form an item's decision record at its seal (R24, R286, R287, R288): the record, and the item with what it carries. -/
def State.formDecision (s : State) (id : Nat) (it : Item) (cause : SealCause) (stamp : Int) : State × Item :=
  let body := s.body it
  let allDone := it.done == 31
  let status := match it.decision with
    | none => 2
    | some _ => if allDone && !it.partFail && body.isSome then 0 else 1
  let decision := it.decision.getD it.fallback
  let s := if body.isSome then s else (s.bump Reg.REC_CNT_COMMIT_BAD).raise 0x7000 0
  let parts := match body with
    | some b => partsArray (it.parts - it.sentParts) b
    | none => partsArray 0 []
  let s := match status with
    | 2 => s.bump Reg.GT_CNT_DEFAULTED
    | 1 => s.bump Reg.GT_CNT_PARTIAL
    | _ => s
  let bytes := s.recordBytes 1 id it stamp status cause.code decision parts []
  let s := (s.bump Reg.REC_CNT_RECORDS).post it.dmask { cls := .decision, item := id, order := stamp, bytes := bytes }
  (s, { it with sealInfo := some { cause := cause, stamp := stamp, decision := decision, status := status },
                sentBytes := it.bytes, sentParts := it.parts })

/-- Form a LATE record with the parts not yet carried, if there are any and they can be read (R289, R286). The last
component says whether it was formed. -/
def State.formLate (s : State) (id : Nat) (it : Item) : State × Item × Bool :=
  match it.sealInfo with
  | none => (s, it, false)
  | some x =>
    if it.parts ≤ it.sentParts then (s, it, false)
    else match s.body it with
      | none => ((s.bump Reg.REC_CNT_COMMIT_BAD).raise 0x7000 0, it, false)
      | some b =>
        let it' := { it with late := it.late + 1, sentBytes := it.bytes, sentParts := it.parts }
        let bytes := s.recordBytes 2 id it s.now 3 x.cause.code x.decision (partsArray (it.parts - it.sentParts) b)
          [(13, cborUint it'.late)]
        ((s.bump Reg.REC_CNT_LATE).post it.dmask { cls := .late, item := id, order := s.now, bytes := bytes }, it', true)

/-! ## Leaving -/

/-- The record that leaves next on a destination (R299): the decision record first in seal order, then ascending item ID,
but after its own item's notice; then notices; then the others in order. -/
def nextRec (l : List OutRec) : Option OutRec :=
  let ds := l.filter (fun r => r.cls == .decision)
  match ds with
  | d0 :: t =>
    let d := t.foldl (fun b r => if r.order < b.order ∨ (r.order = b.order ∧ r.item < b.item) then r else b) d0
    some ((l.find? (fun r => r.cls == .notice && r.item == d.item)).getD d)
  | [] => match l.find? (fun r => r.cls == .notice) with
    | some n => some n
    | none => l.head?

/-- Source address of a UDP destination (R407): the first address of its family on the first enabled interface with its
VLAN, in ascending interface number; for IPv6 the configured addresses come before the link-local one. -/
def State.ifAddr6 (s : State) (n i a : Nat) : Bytes :=
  ((List.range 4).map (fun w => toLe 4 (s.rd (bank i (Reg.IF_IP6 n (4 * a + w)))).toNat)).flatten.reverse

/-- The port's MAC address as six bytes, first byte first (R410). -/
def State.mac (s : State) (n : Nat) : Bytes :=
  toBe 2 (s.fld (Reg.MAC_HI n) 15 0) ++ toBe 4 (s.rd (Reg.MAC_LO n)).toNat

/-- The IPv6 link-local address formed from the MAC (RFC 4291): fe80::/64 and the modified EUI-64. -/
def State.linkLocal (s : State) (n : Nat) : Bytes :=
  let m := s.mac n
  toBe 2 0xFE80 ++ zeros 6 ++ [BitVec.ofNat 8 (byteAt m 0) ^^^ 2] ++ (m.drop 1).take 2 ++ [0xFF, 0xFE] ++ m.drop 3

def State.sourceAddr (s : State) (n vid : Nat) (v6 : Bool) : Option Bytes :=
  (List.range 8).findSome? (fun i =>
    let c := s.rd (bank i (Reg.IF_CTL n))
    if bit c 31 ∧ bits c 11 0 = vid then
      (if v6 then
         (match (List.range 4).find? (fun a => bit c (12 + a)) with
          | some a => some (s.ifAddr6 n i a)
          | none => some (s.linkLocal n))
       else if bits c 29 24 ≠ 0 then some (toBe 4 (s.rd (bank i (Reg.IF_IP4 n))).toNat) else none)
    else none)

/-- The datagrams of a record on a UDP destination: every segment of every copy (R298). -/
def datagrams (D : Dest) (src : Bytes) (rsn now : Nat) (b : Bytes) : List Datagram :=
  let l := b.length
  let segs := ceilDiv l D.maxSeg
  ((List.range D.copies).map (fun c => (List.range segs).map (fun i =>
    { port := D.net % 2, dmac := D.mac, vlan := D.vlan, v6 := decide (D.kind = 3), src := src,
      dst := if D.kind = 3 then D.addr else D.addr.drop 12, dscp := D.net / 4, ttl := 64, df := decide (D.kind = 2),
      sport := D.lport, dport := D.rport,
      payload := toLe 4 0x44525849 ++ toLe 8 rsn ++ toLe 4 l ++ toLe 2 i ++ toLe 2 segs ++ toLe 1 c ++ zeros 3 ++
        toLe 8 now ++ (b.drop (i * D.maxSeg)).take D.maxSeg }))).flatten

/-- The record queue that a KIND 1 destination names (R296): owner FUNC, local QUEUE, TARGET the record emitter. -/
def State.recQueueOf (s : State) (D : Dest) : Option Nat :=
  (s.rqs.find? (fun e => e.2.state == .run && e.2.owner == D.func && e.2.loc == D.queue && e.2.target == 0)).map (·.1)

/-- One record leaves on destination d, or is dropped there and counted (R298 to R300). -/
def State.egress1 (s : State) (d : Nat) : State :=
  let l := s.egress.get [] d
  match nextRec l with
  | none => s
  | some r =>
    let D := s.dest d
    let rsn := s.rsn.get 0 d
    let s := { s with egress := s.egress.set [] d (l.erase r), rsn := s.rsn.set 0 d ((rsn + 1) % 2 ^ 64) }
    let drop := fun (s : State) => (s.bump (Reg.REC_CNT_DROP d)).raise 0x7000 1
    match D.kind with
    | 0 => s
    | 1 => match s.recQueueOf D with
      | none => drop s
      | some g =>
        let p := s.pushRecord g r.cls.code rsn r.bytes
        if p.2 then p.1 else drop s
    | _ =>
      if s.flag (Reg.ETH_STS (D.net % 2)) 31 then
        match s.sourceAddr (D.net % 2) (D.vlan % 4096) (decide (D.kind = 3)) with
        | some src => (datagrams D src rsn s.now r.bytes).foldl (fun s g =>
            (s.emit (.udp g)).bump (Reg.ETH_CNT_TX_FRAMES (D.net % 2))) s
        | none => drop s
      else drop s

end Sys2Proof.Machine
end

