-- ==== Sys2Proof/Machine/Gate.lean ====
section
/-! DEFINITION. The gate timer (01): opening items, milestones and urgency, sealing, late work and the deadline commands;
and the commit port of the record emitter (R285), which acts on the same entries. -/
namespace Sys2Proof.Machine

/-! ## Deadlines and milestones -/

/-- Seal instant, and milestones of the first four stages, for an item with a deadline (R16, R19). -/
def planDeadline (anchor deadline : Int) (lead : Nat) (p : Profile) : Int × List Int :=
  let sealAt := deadline - lead * 1000
  let budget := deadline - anchor
  (sealAt, [p.cap, p.det, p.recog, p.grm].map (fun (v : Nat) =>
    let m := anchor + budget * (v : Int) / 256
    if sealAt < m then sealAt else m))

/-- The entry of a new item under profile number `prof` with values `p` (R13 to R16, R19). -/
def newItem (anchor : Int) (prof : Nat) (p : Profile) (lead dmask : Nat) (owner : Nat × Nat) : Item :=
  let base : Item := { anchor := anchor, prof := prof, pv := p, lead := lead, fallback := p.fallback, dmask := dmask,
                       part := owner.1, vi := owner.2 }
  if p.speed = 0 then
    { base with sealAt := anchor + (if p.margin = 0 then 655360 * 1000000 else p.margin * 10000000) }
  else
    let deadline := anchor + (p.dist * 100000000 / p.speed : Nat) - p.margin * 1000
    let x := planDeadline anchor deadline lead p
    { base with hasDl := true, deadline := deadline, sealAt := x.1, ms := x.2 }

/-- The late limit (R29, R15): after the deadline, or after the seal instant of an item without one. -/
def Item.lateLimit (it : Item) : Int := (if it.hasDl then it.deadline else it.sealAt) + it.pv.lateMs * 1000000

/-- Urgency of a window from `prev` to `m` at `now` (R21). -/
def urgencyOf (prev m now : Int) : Nat :=
  let len := m - prev
  let rem := m - now
  if rem ≤ 0 then 3 else if now < prev ∨ len / 2 < rem then 0 else if len / 4 < rem then 1 else 2

/-- The current stage: the earliest that is not done, 5 when all are (R21). -/
def Item.stage (it : Item) : Nat := ((List.range 5).find? (fun k => !it.done.getLsbD k)).getD 5

/-- Milestone of stage k: record assembly's is the seal instant (R19). -/
def Item.milestone (it : Item) (k : Nat) : Int := if k < 4 then (it.ms.drop k).headD it.sealAt else it.sealAt

/-- Urgency of an open item (R21), a shadow's in the window of its STAGE (R385); a sealed item and one without a deadline have 0
(R15, R22). -/
def Item.urgency (it : Item) (now : Int) : Nat :=
  let k := it.shadow.getD it.stage
  if it.sealInfo.isSome ∨ it.hasDl = false ∨ k = 5 then 0
  else urgencyOf (if k = 0 then it.anchor else it.milestone (k - 1)) (it.milestone k) now

/-! ## Overruns and seals -/

/-- SHARE_OVERRUN of a stage is raised on its owner's page (R20): the port's stripe page or Stream Intake, the home tile's
page, SEQ, TGU, TF. A fabric item's capture is done at its opening. -/
def State.raiseOverrun (s : State) (id : Nat) (it : Item) (k : Nat) : State :=
  match k with
  | 0 => if sourceOf id < 4 then s.raise (0x13000 + 0x4000 * sourceOf id) 3
         else if sourceOf id < 0x800 then s.raise 0x20000 2 else s
  | 1 => if it.home = 0 then s else s.raise (0x100000 + 0x1000 * (it.home - 1)) 2
  | 2 => s.raise 0x200000 0
  | 3 => s.raise 0x210000 0
  | _ => s.raise 0x220000 1

/-- The item with its overrun bit for stage k, and the UPSTREAM mark when an earlier stage is not done (R20). -/
def Item.overrun (it : Item) (k : Nat) : Item :=
  let up := (List.range k).any (fun j => !it.done.getLsbD j)
  { it with ovr := it.ovr ||| BitVec.ofNat 5 (2 ^ k), upst := if up then it.upst ||| BitVec.ofNat 5 (2 ^ k) else it.upst }

/-- The gate timer seals an open item (R23 to R28): the decision record is formed; under LATE_MODE NONE, and under EACH when
every stage is done, the entry is freed, under NONE with its remaining work cancelled. -/
def State.sealItem (s : State) (id : Nat) (cause : SealCause) : State :=
  match s.item id with
  | none => s
  | some it =>
    if it.sealInfo.isSome ∨ it.shadow.isSome then s
    else
      let ovr := cause == .deadline && !it.done.getLsbD 4 && !it.ovr.getLsbD 4
      let it := if ovr then it.overrun 4 else it
      let s := if ovr then s.raiseOverrun id it 4 else s
      let r := s.formDecision id it cause (if cause = .deadline then it.sealAt else s.now)
      match it.pv.lateMode with
      | 1 => r.1.setItem id r.2
      | 2 => if it.done = 31 then r.1.freeItem id else r.1.setItem id r.2
      | _ => (r.1.cancelWork id).freeItem id

/-- The five stages of an item are looked at again after stage k became done (R23, R28, R289): an open item with all five done
seals COMPLETED; a sealed one frees its entry, under ONE once its LATE record is formed. -/
def State.settle (s : State) (id : Nat) : State :=
  match s.item id with
  | none => s
  | some it =>
    if it.done ≠ 31 ∨ it.shadow.isSome then s
    else match it.sealInfo with
      | none => s.sealItem id .completed
      | some _ =>
        if it.pv.lateMode = 1 then
          let r := s.formLate id it
          if r.2.2 then r.1.freeItem id else r.1.setItem id r.2.1
        else s.freeItem id

/-- Stage k of item `id` becomes done, if it is not. -/
def State.markDone (s : State) (id k : Nat) : State :=
  match s.item id with
  | none => s
  | some it => s.setItem id { it with done := it.done ||| BitVec.ofNat 5 (2 ^ k) }

/-- Stages whose conditions now hold are marked done: recognition when detection is done and no resident sequence names the
item (R201), grammar when recognition is done, no context names it and GRM_DONE is written (R251); then the item settles. -/
def State.refresh (s : State) (id : Nat) : State :=
  match s.item id with
  | none => s
  | some it =>
    let rec3 := it.done.getLsbD 1 && !s.seqNames id
    let d := if rec3 then it.done ||| 4 else it.done
    let d := if d.getLsbD 2 && !s.ctxNames id && it.grmWritten then d ||| 8 else d
    (s.setItem id { it with done := d }).settle id

/-- Stage k of item `id` is done (R18). -/
def State.stageDone (s : State) (id k : Nat) : State := (s.markDone id k).refresh id

/-! ## Opening -/

/-- The next item ID of a source (R11): SYSID, SOURCE, SEQ. -/
def State.newId (s : State) (source : Nat) : Nat × State :=
  let seq := s.nextSeq.get 0 source
  (s.fld Reg.KL_STS 15 8 * 2 ^ 56 + source * 2 ^ 44 + seq, { s with nextSeq := s.nextSeq.set 0 source ((seq + 1) % 2 ^ 44) })

/-- GT_CTL.SEAL_LEAD_US. -/
def State.lead (s : State) : Nat := s.fld Reg.GT_CTL 9 0

/-- A source opens an item with an anchor under a profile (R11 to R16): the item ID, whether it was opened (R12), and the state.
No item is opened before READY (R47). -/
def State.openItem (s : State) (source : Nat) (anchor : Int) (prof : Nat) (owner : Nat × Nat) : Nat × Bool × State :=
  let n := s.newId source
  let id := n.1
  let s := n.2
  let it := newItem anchor prof (s.profs.get {} prof) s.lead (s.profMask prof) owner
  let it := if 0x800 ≤ source then { it with done := 1 } else it
  if 65536 ≤ s.items.length then
    let s := s.formNotice id it
    let s := (s.formDecision id it .notOpened s.now).1
    (id, false, s.bump Reg.GT_CNT_NOT_OPENED)
  else
    let s := (s.setItem id it).formNotice id it
    let s := if it.sealAt ≤ s.now then s.sealItem id .noBudget else s
    (id, true, s)

/-! ## Deadline commands (R30, R31) -/

/-- OPEN: BAD_CMD for reserved or unused bytes or a profile above 63; otherwise an item of fabric source 0x800 + source. -/
def State.effOpen (s : State) (q : Queue) (b : Bytes) : State × St × Nat :=
  if zeroAt b 18 2 && zeroAt b 24 8 && zeroAt b 10 6 && decide (byteAt b 9 ≤ 63) then
    if s.ready then
      let r := s.openItem (0x800 + byteAt b 8) (leAt b 0 8) (byteAt b 9) q.ownerOf
      (r.2.2, if r.2.1 then .ok else .full, r.1)
    else (s, .unknown, 0)
  else (s, .badCmd, 0)

/-- A deadline command that names an item: UNKNOWN when no entry holds it or its owner's partition does not own it (R396),
SEALED when it is sealed, otherwise `k`. -/
def State.onItem (s : State) (q : Queue) (b : Bytes) (ok : Bool) (k : Nat → Item → State) : State × St × Nat :=
  if ok then
    let id := leAt b 0 8
    match s.item id with
    | none => (s, .unknown, 0)
    | some it => if !s.owns q it.part then (s, .unknown, 0)
                 else if it.sealInfo.isSome then (s, .sealed, 0)
                 else (k id it, .ok, 0)
  else (s, .badCmd, 0)

def reservedOk (b : Bytes) : Bool := zeroAt b 18 2 && zeroAt b 24 8

/-- SET_DEADLINE (R32). -/
def State.setDeadline (s : State) (id : Nat) (it : Item) (dl : Int) : State :=
  let x := planDeadline it.anchor dl it.lead it.pv
  let it := { it with hasDl := true, deadline := dl, sealAt := x.1, ms := x.2 }
  let it := { it with urg := it.urgency s.now }
  let s := s.setItem id it
  if it.sealAt ≤ s.now then s.sealItem id .deadline else s

def State.effSetDeadline (s : State) (q : Queue) (b : Bytes) : State × St × Nat :=
  s.onItem q b (reservedOk b) (fun id it => s.setDeadline id it (leAt b 8 8))

def State.effSealNow (s : State) (q : Queue) (b : Bytes) : State × St × Nat :=
  s.onItem q b (reservedOk b && zeroAt b 8 8) (fun id _ => s.sealItem id .command)

def State.effSetFallback (s : State) (q : Queue) (b : Bytes) : State × St × Nat :=
  s.onItem q b (reservedOk b && zeroAt b 10 6) (fun id it => s.setItem id { it with fallback := leAt b 8 2 })

/-! ## What time brings -/

/-- The timebase reaches the milestone of stage k of an open, unsealed item with a deadline whose stage is not done (R20). -/
def State.milestonePass (s : State) (id k : Nat) : State :=
  match s.item id with
  | none => s
  | some it =>
    if it.sealInfo.isNone ∧ it.shadow.isNone ∧ it.hasDl ∧ k < 4 ∧ it.done.getLsbD k = false ∧ it.ovr.getLsbD k = false ∧ it.milestone k ≤ s.now then
      (s.setItem id (it.overrun k)).raiseOverrun id it k
    else s

/-- The item's urgency changes (R21). -/
def State.urgencyChange (s : State) (id : Nat) : State :=
  match s.item id with
  | none => s
  | some it => s.setItem id { it with urg := it.urgency s.now }

/-- The timebase reaches the seal instant (R23, R15). -/
def State.sealDeadline (s : State) (id : Nat) : State :=
  match s.item id with
  | none => s
  | some it =>
    if s.now < it.sealAt then s
    else if it.shadow.isNone then s.sealItem id .deadline
    else if it.pv.lateMode = 0 then (s.cancelWork id).freeItem id else s

/-- The late limit of a sealed item (R28, R29, R289). -/
def State.lateLimit (s : State) (id : Nat) : State :=
  match s.item id with
  | none => s
  | some it =>
    if it.shadow.isSome ∧ it.lateLimit ≤ s.now then (s.cancelWork id).freeItem id
    else if it.sealInfo.isSome ∧ it.lateLimit ≤ s.now then
      let s := s.cancelWork id
      let s := if it.pv.lateMode = 1 then (s.formLate id it).1 else s
      s.freeItem id
    else s

/-! ## The commit port (R285) -/

/-- A refused commit (R285). -/
def State.commitBad (s : State) : State := (s.bump Reg.REC_CNT_COMMIT_BAD).raise 0x7000 0

/-- A commit of 64 bytes: refused, stale, or executed (R285, R287, R289). A commit before the seal belongs to the decision
record and may write the decision slot; under LATE_MODE EACH, one after it that adds parts forms a LATE record. -/
def State.commit (s : State) (b : Bytes) : State :=
  let id := leAt b 0 8
  let body := leAt b 8 8
  let bytes := leAt b 16 4
  let parts := leAt b 20 2
  let flags := byteAt b 24
  if b.length ≠ 64 ∨ zeroAt b 25 39 = false ∨ 4 ≤ flags ∨ 65024 < bytes ∨ 4095 < parts then s.commitBad
  else match s.item id with
    | none => s.bump Reg.REC_CNT_COMMIT_STALE
    | some it =>
      if it.shadow.isSome then s.bump Reg.REC_CNT_COMMIT_STALE else
      let first := it.bytes == 0 && it.parts == 0 && it.body == 0
      if bytes < it.bytes ∨ parts < it.parts ∨ (first = false ∧ body ≠ it.body) then s.commitBad
      else
        let it1 := { it with body := body, bytes := bytes, parts := parts }
        let s := s.bump Reg.REC_CNT_COMMITS
        match it.sealInfo with
        | none =>
          s.setItem id { it1 with decision := if flags % 2 = 1 then some (leAt b 22 2) else it1.decision,
                                  partFail := it1.partFail || decide (2 ≤ flags) }
        | some _ =>
          if it.pv.lateMode = 2 then
            let r := s.formLate id it1
            r.1.setItem id r.2.1
          else s.setItem id it1

/-! ## Profiles (R33) -/

/-- The profile that the staging window holds. -/
def State.windowProfile (s : State) : Profile :=
  { dist := s.fld Reg.GT_PROF_DIST 23 0, speed := s.fld Reg.GT_PROF_SPEED 15 0, margin := s.fld Reg.GT_PROF_SPEED 31 16,
    cap := s.fld Reg.GT_PROF_SHARES 31 24, det := s.fld Reg.GT_PROF_SHARES 23 16, recog := s.fld Reg.GT_PROF_SHARES 15 8,
    grm := s.fld Reg.GT_PROF_SHARES 7 0, fallback := s.fld Reg.GT_PROF_POLICY 31 16,
    lateMode := s.fld Reg.GT_PROF_POLICY 15 14, lateMs := s.fld Reg.GT_PROF_POLICY 13 4 }

/-- Copy a profile into the staging window. -/
def State.showProfile (s : State) (p : Profile) : State :=
  ((((s.wr Reg.GT_PROF_DIST (BitVec.ofNat 32 p.dist)).wr Reg.GT_PROF_SPEED (BitVec.ofNat 32 (p.margin * 65536 + p.speed))).wr
    Reg.GT_PROF_SHARES (BitVec.ofNat 32 (p.cap * 16777216 + p.det * 65536 + p.recog * 256 + p.grm))).wr
    Reg.GT_PROF_POLICY (BitVec.ofNat 32 (p.fallback * 65536 + p.lateMode * 16384 + p.lateMs * 16)))

/-- A write of GT_PROF_SEL: COMMIT, then LOAD (R33). A COMMIT that would change a profile while group DEADLINE is locked is a
violation, which changes nothing; shares that do not rise strictly from above 0 are refused. -/
def State.profSel (s : State) (req : Req) (v : Word) : State :=
  let i := bits v 5 0
  let w := s.windowProfile
  let cur := s.profs.get {} i
  let commit := bit v 31
  if commit ∧ s.flag 0x201C 0 ∧ w ≠ cur ∧ 0 < w.cap ∧ w.cap < w.det ∧ w.det < w.recog ∧ w.recog < w.grm then
    s.lockViol req Reg.GT_PROF_SEL
  else
    let s := s.wr Reg.GT_PROF_SEL (BitVec.ofNat 32 i)
    let s := if commit then
        (if 0 < w.cap ∧ w.cap < w.det ∧ w.det < w.recog ∧ w.recog < w.grm
         then ({ s with profs := s.profs.set {} i w }).setFlag Reg.GT_STS 17 false
         else s.setFlag Reg.GT_STS 17 true)
      else s
    if bit v 30 then s.showProfile (s.profs.get {} i) else s

end Sys2Proof.Machine
end

