-- ==== Sys2Proof/Machine/Pages.lean ====
section
/-! DEFINITION. The rules of every block page (03): plain register writes, locks, events and their channels, and counter
snapshots. -/
namespace Sys2Proof.Machine

/-- The key of the register shown at BAR0 offset `a`: a register behind a selector has one copy per index (R64, R318, R337,
R365, R410). -/
def State.winKey (s : State) (a : Nat) : Nat :=
  match pageAt a with
  | some .ev => if a = Reg.EVT_CHAN_CFG then bank (s.fld Reg.EVT_CHAN_SEL 7 0) a else a
  | some .mc => if a = Reg.PORT_TGT then bank (s.fld Reg.PORT_SEL 3 0) a else a
  | some .sch => if a = Reg.SRC_MAP then bank (s.fld Reg.SRC_SEL 10 0) a else a
  | some .part =>
    let p := (a - 0x311000) / 0x1000
    let r := a % 0x1000
    if r = 0x88 ∨ (0x94 ≤ r ∧ r ≤ 0xA0) then bank (s.fld (Reg.VI_SEL p) 3 0) a else a
  | some .eth =>
    let n := (a - 0x332000) / 0x1000
    if 0x58 ≤ a % 0x1000 ∧ a % 0x1000 < 0xA0 then bank (s.fld (Reg.IF_SEL n) 2 0) a else a
  | _ => a

/-- Registers whose write is refused by their own rule, whatever it carries: a running tile's TILE_PC, semaphores and registers
(R177), a partition's
registers while it is FREE (R365), a PORT_TGT of the classes 12 to 15 (R318). -/
def State.writeIgnored (s : State) (a : Nat) : Bool :=
  match pageAt a with
  | some .tile =>
    (a % 0x1000 == 0x44 || (decide (0x50 ≤ a % 0x1000 ∧ a % 0x1000 < 0x70)) || decide (0x74 ≤ a % 0x1000 ∧ a % 0x1000 < 0xB0)) &&
    decide (s.fld (Reg.TILE_STS ((a - 0x100000) / 0x1000)) 31 30 = 1)
  | some .part => decide ((s.part ((a - 0x311000) / 0x1000)).state = .free)
  | some .mc => a == Reg.PORT_TGT && decide (12 ≤ s.fld Reg.PORT_SEL 3 0)
  | _ => false

/-- TEMP_CFG: a write that leaves the thresholds out of order changes nothing and sets CFG_ERR (health page). -/
def tempCfgOk (v : Word) : Bool :=
  decide (bits v 15 8 < bits v 23 16) && decide (bits v 23 16 < bits v 31 24) && decide (bits v 31 24 ≤ 120) &&
  decide (bits v 7 0 ≠ 0)

/-- A write to a register without behaviour of its own (R67): its fields are stored. BLK_CTL stores its event channel (R55); a
W1C register clears the bits written 1 (R10). -/
def State.plainWrite (s : State) (req : Req) (a : Nat) (v : Word) : State :=
  match pageAt a with
  | none => s.unmapped req a
  | some _ =>
    if a % 0x1000 = 8 then s.wr a (putBits (s.rd a) 23 16 (bits v 23 16))
    else if s.writeIgnored a then s
    else if a = Reg.TEMP_CFG then
      s.storeThen req a v (fun t => if tempCfgOk v then t.setFlag Reg.HM_STS 29 false
        else (t.wr a (s.rd a)).setFlag Reg.HM_STS 29 true)
    else if a = Reg.GPIO_EDGE_STS then s.wr a (s.rd a &&& ~~~v)
    else (s.store req (s.winKey a) v).1

/-! ## Locks -/

/-- The lock groups of the page of kind k, as LOCK bits (R59). -/
def lockBits (k : PageKind) : Nat :=
  let ds := pageDefs k
  (if ds.any (fun d => d.lk0 ≠ 0) then 1 else 0) + (if ds.any (fun d => d.lk1 ≠ 0) then 2 else 0)

/-- A write to the LOCK register of the page at `p` (R59): bits with a group are set, never cleared. -/
def State.lockWrite (s : State) (req : Req) (p : Nat) (v : Word) : State :=
  match pageAt p with
  | none => s.unmapped req (p + 0x1C)
  | some k => s.wr (p + 0x1C) (s.rd (p + 0x1C) ||| (v &&& BitVec.ofNat 32 (lockBits k)))

/-! ## Events -/

/-- A write to EVT_STS clears the events written 1; the channel is signalled again if the masked OR stays 1 (R63). -/
def State.evtSts (s : State) (req : Req) (p : Nat) (v : Word) : State :=
  if (pageAt p).isNone then s.unmapped req (p + 0x10)
  else
    let t := s.wr (p + 0x10) (s.rd (p + 0x10) &&& ~~~v)
    if t.evtOr p then t.signal (t.evtChan p) else t

/-- The bits of EVT_STS, EVT_EN and EVT_FORCE that are fields (R55). -/
def evtMask : Word := 0xCFFFFFFF

/-- A write to EVT_EN sets the enables; the channel is signalled if the masked OR is 1 after it (R63). -/
def State.evtEn (s : State) (req : Req) (p : Nat) (v : Word) : State :=
  if (pageAt p).isNone then s.unmapped req (p + 0x14)
  else
    let t := s.wr (p + 0x14) (v &&& evtMask)
    if t.evtOr p then t.signal (t.evtChan p) else t

/-- A write to EVT_FORCE raises events as if their units had (R63). -/
def State.evtForce (s : State) (req : Req) (p : Nat) (v : Word) : State :=
  if (pageAt p).isNone then s.unmapped req (p + 0x18) else s.raiseMask p (v &&& evtMask)

/-- The holdoff of channel c ends: the signals received during it produce one message (R64). -/
def State.holdoffEnd (s : State) (c : Nat) : State :=
  if s.holding.contains c then ({ s with holding := s.holding.filter (· ≠ c) }).deliver c else s

/-- A write to EVT_CHAN_CFG sets the selected channel's target; a pending channel whose KIND becomes 1 to 3 delivers (R64). -/
def State.chanCfgWrite (s : State) (v : Word) : State :=
  let c := s.fld Reg.EVT_CHAN_SEL 7 0
  let k := bank c Reg.EVT_CHAN_CFG
  (s.wr k (v &&& 0xFFF7FFFF)).deliver c

/-! ## Counter snapshots (R69 to R72) -/

/-- A write to SNAP_AT_HI arms the staged instant, or is refused (R69). -/
def State.snapArm (s : State) (v : Word) : State :=
  let s := s.wr Reg.SNAP_AT_HI v
  let at64 := (s.rd Reg.SNAP_AT_LO).toNat + v.toNat * 2 ^ 32
  if s.snapAt.isSome ∨ at64 < s.now + 2000 then s.setFlag Reg.SNAP_STS 30 true
  else ({ s with snapAt := some (BitVec.ofNat 64 at64) }).wr Reg.SNAP_STS 0x80000000

/-- A register key is a counter that snapshots latch (R70). -/
def isCounter (a : Nat) : Bool :=
  match defAt a with
  | some d => d.ctr && decide (a < 0x4000000)
  | none => false

/-- The armed snapshot is taken when the timebase has reached its instant (R70, R72). -/
def State.snapTake (s : State) : State :=
  match s.snapAt with
  | none => s
  | some i =>
    if i.toNat ≤ s.now then
      let s := s.commitRegs [Reg.SNAP_CTL]
      let per := bits (s.rd Reg.SNAP_CTL) 19 0
      let s := { s with shadow := s.regs.filter (fun e => isCounter e.1),
                        snapAt := if per = 0 then none else some (i + BitVec.ofNat 64 (per * 1000)) }
      let s := s.wr 0x6020 (s.rd 0x6020 + 1)
      let s := (s.wr Reg.SNAP_LAST_LO (s.clk.tb.setWidth 32)).wr Reg.SNAP_LAST_HI ((s.clk.tb >>> 32).setWidth 32)
      (s.setFlag Reg.SNAP_STS 31 (decide (per ≠ 0))).raise 0x6000 0
    else s

/-- A write to SNAP_CTL: CANCEL disarms at once, PERIOD_US takes effect at the next latch (R72). -/
def State.snapCtl (s : State) (v : Word) : State :=
  let s := match defAt Reg.SNAP_CTL with
    | some d => s.wrHeld Reg.SNAP_CTL (s.stored Reg.SNAP_CTL d v)
    | none => s
  if bit v 31 then ({ s with snapAt := none }).setFlag Reg.SNAP_STS 31 false else s

end Sys2Proof.Machine
end

