-- ==== Sys2Proof/Machine/TileQ.lean ====
section
/-! DEFINITION. The queues through which work reaches the tiles (R168 to R171), shared by ports, Stream Intake and placement. -/
namespace Sys2Proof.Machine

def State.tile (s : State) (t : Nat) : Tile := s.tiles.get {} t
def State.setTile (s : State) (t : Nat) (x : Tile) : State := { s with tiles := s.tiles.set {} t x }
def State.updTile (s : State) (t : Nat) (f : Tile → Tile) : State := s.setTile t (f (s.tile t))

/-- Page base of tile t (R177), and its window (R143). -/
def tilePage (t : Nat) : Nat := 0x100000 + 0x1000 * t
def tileWin (t : Nat) : Nat := tileBase + 0x200000 * t

/-- Tile t shows FENCED (R419). -/
def State.tileFenced (s : State) (t : Nat) : Bool := s.flag (tilePage t + 0xC) 30

/-- A group of tiles holds a fenced one (R419). -/
def State.groupFenced (s : State) (first g : Nat) : Bool := (List.range g).any (fun b => s.tileFenced (first + b))

/-- The queue of tile t takes a descriptor: not full, and the tile not fenced (R168, R419). -/
def State.queueTakes (s : State) (t : Nat) : Bool := decide ((s.tile t).queue.length < 64) && !s.tileFenced t

/-- Put a descriptor in the queue of tile t (R168). -/
def State.enqueue1 (s : State) (t kind band origin : Nat) (d : BitVec 512) : State :=
  s.updTile t (fun x => { x with queue := x.queue ++ [⟨kind, band, x.nextToken, origin, d⟩], nextToken := (x.nextToken + 1) % 65536 })

/-- The home tile of an item is the first to whose queue a descriptor of it was written (R171). -/
def State.noteHome (s : State) (t : Nat) (ids : List Nat) : State :=
  ids.foldl (fun s id => match s.item id with
    | none => s
    | some it => if it.home = 0 then s.setItem id { it with home := t + 1 } else s) s

/-- Put a descriptor in the queues of a group of g tiles from `first` on (R168), for the items `ids`. -/
def State.enqueueGroup (s : State) (first g kind origin : Nat) (ids : List Nat) (d : BitVec 512) : State :=
  ((List.range g).foldl (fun s b => s.enqueue1 (first + b) kind b origin d) s).noteHome first ids

/-- Every tile of a group takes a descriptor. -/
def State.groupTakes (s : State) (first g : Nat) : Bool := (List.range g).all (fun b => s.queueTakes (first + b))

/-- A source's assignment: partition and instance, if any (R337). The value in force is the one taken at its last item
boundary. -/
def State.srcMap (s : State) (i : Nat) : Option (Nat × Nat) :=
  let v := s.inForce (bank i Reg.SRC_MAP)
  if bit v 15 then some (bits v 14 12, bits v 11 8) else none

/-- A descriptor that does not reach a tile of its source's partition ends the item (R337). -/
def State.misroute (s : State) (ids : List Nat) : State :=
  ((ids.foldl (fun s id => s.sealItem id .sourceAbort) s).bump Reg.SCH_CNT_MISROUTE).raise 0x310000 1

/-- A 64-byte write to the queue port of tile t (R168): dropped and counted when it is not 64 bytes, the queue is full or the
tile fenced. -/
def State.queuePort (s : State) (t : Nat) (b : Bytes) : State :=
  if b.length = 64 ∧ s.queueTakes t then
    (s.enqueue1 t 4 0 0 (BitVec.ofNat 512 (leNat b))).noteHome t (if leAt b 0 8 = 0 then [] else [leAt b 0 8])
  else (s.bump (Reg.TILE_CNT_QDROP t)).raise (tilePage t) 3

end Sys2Proof.Machine
end

