-- ==== Sys2Proof/Machine/Fabric.lean ====
section
/-! DEFINITION. The thread fabric outside its instruction set (11): harts, launches, parking, vector slots, software interrupts and
firmware images. -/
namespace Sys2Proof.Machine

def State.hart (s : State) (h : Nat) : Hart := s.harts.get {} h
def State.setHart (s : State) (h : Nat) (x : Hart) : State := { s with harts := s.harts.set {} h x }
def State.updHart (s : State) (h : Nat) (f : Hart → Hart) : State := s.setHart h (f (s.hart h))
def State.core (s : State) (c : Nat) : Core := s.cores.get {} c
def State.setCore (s : State) (c : Nat) (x : Core) : State := { s with cores := s.cores.set {} c x }
def State.updCore (s : State) (c : Nat) (f : Core → Core) : State := s.setCore c (f (s.core c))

def corePage (c : Nat) : Nat := 0x221000 + 0x1000 * c
def tfPage : Nat := 0x220000

/-- The harts of core c that are not parked, and the vector slots of the core that are held (R257, R283). -/
def State.awake (s : State) (c : Nat) : List (Nat × Hart) :=
  s.harts.filter (fun (e : Nat × Hart) => e.1 / 512 == c && e.2.run != .parked)
def State.slotsHeld (s : State) (c : Nat) : Nat := ((s.awake c).filter (fun (e : Nat × Hart) => e.2.slot.isSome)).length
def State.parkedCount (s : State) (c : Nat) : Nat := 512 - (s.awake c).length

/-- The lowest-numbered parked hart of core c (R274). -/
def State.parkedHart (s : State) (c : Nat) : Option Nat :=
  if s.flag (corePage c + 0xC) 30 then none
  else (firstBelow 512 (fun i => (s.hart (512 * c + i)).run == .parked)).map (512 * c + ·)

/-- CSR numbers of the fabric's own CSRs and of the URG CSR (R260). -/
def csrURG : Nat := 0x800

/-- The value 2^64 − 1, which MTIMECMP holds at reset (R276). -/
def ones64 : Nat := 0xFFFFFFFFFFFFFFFF

/-- Fields of a launch record (R273). -/
def launchMode (r : BitVec 512) : Nat := nbits r.toNat 263 256
def launchUrg (r : BitVec 512) : Nat := nbits r.toNat 271 264
def launchWord (r : BitVec 512) (i : Nat) : Nat := nbits r.toNat (64 * i + 63) (64 * i)

/-- A launch record whose reserved bytes, MODE and URG allow the launch (R274). -/
def launchOk (r : BitVec 512) : Bool :=
  decide (r.toNat / 2 ^ 272 = 0) && (launchMode r == 0 || launchMode r == 1 || launchMode r == 3) && decide (launchUrg r ≤ 3)

/-- Start hart h of core c on a launch record for instance v (R274). -/
def State.startHart (s : State) (h v : Nat) (r : BitVec 512) : State :=
  let c := h / 512
  let entry := s.addr48 (Reg.CORE_ENTRY_LO c) (Reg.CORE_ENTRY_HI c)
  let w := fun (n : Nat) => BitVec.ofNat 64 n
  let x : Tab DWord := [(10, w (launchWord r 0)), (11, w (launchWord r 1)), (12, w (launchWord r 2)), (13, w (launchWord r 3)),
    (14, w (launchMode r + 256 * launchUrg r)), (15, w h)].filter (fun (e : Nat × DWord) => decide (e.2 ≠ 0))
  (s.setHart h { run := .running, mode := .m, pc := w entry, x := x,
                 csr := if launchUrg r = 0 then [] else [(csrURG, w (launchUrg r))], vi := v }).bump Reg.TF_CNT_LAUNCHES

/-- A parked hart takes the next launch that waits: its core's queue first, then its partition's (R274, R349; the order between the
two is the model's, log entry 19). -/
def State.serveLaunch (s : State) (c : Nat) : State :=
  match s.parkedHart c with
  | none => s
  | some h =>
    match (s.core c).launchQ with
    | r :: t => (s.updCore c (fun x => { x with launchQ := t })).startHart h 0 r
    | [] =>
      match s.coreOwner c with
      | none => s
      | some p =>
        match (s.part p).launchQ with
        | [] => s
        | (v, r) :: t => (s.updPart p (fun x => { x with launchQ := t })).startHart h v r

/-- Hart h is parked (R275): its slot is released and it waits for nothing. -/
def State.parkOnly (s : State) (h : Nat) : State :=
  (s.setHart h {}).updCore (h / 512) (fun x => { x with slotQ := x.slotQ.filter (· ≠ h) })

/-- Hart h parks and a waiting launch takes it (R274, R275). -/
def State.park (s : State) (h : Nat) : State := (s.parkOnly h).serveLaunch (h / 512)

/-- A launch for instance v is dropped: counted in register `cnt`, with event bit `b` of page `page` (R274, R349). -/
def State.dropLaunch (s : State) (cnt page b : Nat) : State := (s.bump cnt).raise page b

/-- A launch at core c for instance v (R274). -/
def State.launchCore (s : State) (c v : Nat) (r : BitVec 512) : State :=
  match s.parkedHart c with
  | some h => s.startHart h v r
  | none => s.updCore c (fun x => { x with launchQ := x.launchQ ++ [r] })

/-- A write to core c's launch port; `whole` says that it is one aligned 64-byte write (R274). -/
def State.launchPort (s : State) (c : Nat) (r : BitVec 512) (whole : Bool) : State :=
  if whole = false ∨ launchOk r = false ∨ (s.coreOwner c).isNone ∨ s.flag (corePage c + 0xC) 30 ∨
     ((s.parkedHart c).isNone ∧ 64 ≤ (s.core c).launchQ.length)
  then s.dropLaunch (Reg.CORE_CNT_LAUNCH_DROP c) (corePage c) 0
  else s.launchCore c 0 r

/-- A write to TF.IPI: bit 3 (MSIP) or bit 1 (SSIP) of the hart's mip (R276). -/
def csrMip : Nat := 0x344
def State.ipi (s : State) (v : Word) : State :=
  let h := bits v 15 0
  if 49152 ≤ h then s
  else s.updHart h (fun x => { x with csr := x.csr.set 0 csrMip (x.csr.get 0 csrMip ||| (if bit v 30 then 2 else 8)) })

/-! ## Firmware images (R277 to R279) -/

/-- Offset of firmware slot k in the flash. -/
def fwSlot (k : Nat) : Nat := if k = 0 then 0x400000 else 0x2000000

/-- An image of `n` bytes, read by `get` from an address, is valid (R277). -/
def imageOk (fam : Nat) (hdr body : Bytes) : Bool :=
  decide (leAt hdr 0 4 = 0x57465849) && decide (leAt hdr 12 4 = fam) && decide (leAt hdr 8 4 ≤ 29360000) && zeroAt hdr 36 28 &&
  decide (body.length = leAt hdr 8 4) && decide (leAt hdr 32 4 = crc32c (hdr.take 32 ++ body)) && Config.sigValid hdr body

/-- Header and body of the image in flash slot k; the body is read only to its legal length. -/
def State.fwImage (s : State) (k : Nat) : Bytes × Bytes :=
  let hdr := s.fld8 (fwSlot k) 128
  let n := leAt hdr 8 4
  (hdr, if leAt hdr 0 4 = 0x57465849 ∧ n ≤ 29360000 then s.fld8 (fwSlot k + 128) n else [])

def State.famId (s : State) : Nat := (s.rd Reg.FAM_ID).toNat

def State.slotOk (s : State) (k : Nat) : Bool := let i := s.fwImage k; imageOk s.famId i.1 i.2

/-- The slot that E6 loads: the valid image of higher VERSION, slot 0 when equal (R278). -/
def State.fwChoice (s : State) : Option Nat :=
  match s.slotOk 0, s.slotOk 1 with
  | false, false => none
  | true, false => some 0
  | false, true => some 1
  | true, true => if leAt (s.fwImage 0).1 4 4 < leAt (s.fwImage 1).1 4 4 then some 1 else some 0

/-- Every hart is parked, with nothing waiting to be launched on the cores. -/
def State.parkAll (s : State) : State := { s with harts := [], cores := [] }

/-- An image starts: its body goes to LOAD, CORE_ENTRY of every core becomes ENTRY, and hart 0 of core 0 starts there (R278). -/
def State.fwStart (s : State) (hdr body : Bytes) (slot : Nat) : State :=
  let load := leAt hdr 16 8
  let entry := leAt hdr 24 8
  let s := if s.canWrite 0 load body.length = .ok then s.stUnit load body else s
  let s := (List.range 96).foldl (fun s c =>
    (s.wr (Reg.CORE_ENTRY_LO c) (BitVec.ofNat 32 (entry / 4 * 4))).wr (Reg.CORE_ENTRY_HI c) (BitVec.ofNat 32 (entry / 2 ^ 32 % 65536))) s
  let s := s.setHart 0 { run := .running, mode := .m, pc := BitVec.ofNat 64 entry }
  (s.wr Reg.FW_VER (BitVec.ofNat 32 (leAt hdr 4 4))).setFld Reg.TF_STS 27 26 slot

/-- The image in HBM that BOOT and PROGRAM name: its bytes lie in HBM, can be read, are as long as its header says, and are valid. -/
def State.fwSource (s : State) : Option (Bytes × Bytes) :=
  let a := s.addr48 Reg.FW_SRC_LO Reg.FW_SRC_HI
  let n := s.fld Reg.FW_LEN 24 0
  if n < 128 ∨ 0x000C00000000 < a + n ∨ s.canRead 0 a n ≠ .ok then none
  else
    let b := s.ld a n
    let hdr := b.take 128
    let body := b.drop 128
    if imageOk s.famId hdr body then some (hdr, body) else none

def State.fwErr (s : State) (b : Bool) : State := s.setFlag Reg.TF_STS 29 b

/-- A TF_CMD.BOOT (R279). -/
def State.fwBoot (s : State) (req : Req) (v : Word) : State :=
  s.keyed req Reg.TF_CMD v 0x5E6A (fun s =>
    if s.flag Reg.TF_STS 28 ∨ (s.flag Reg.TF_STS 31 = false ∧ s.flag Reg.TF_STS 30 = false) then s.fwErr true
    else match s.fwSource with
      | none => s.fwErr true
      | some (hdr, body) => (((s.fwErr false).setFld Reg.TF_STS 31 30 0).fwStart hdr body 2).raise tfPage 0)

/-- A TF_CMD.PROGRAM (R279): the image is taken to the slot not loaded, which is invalid until the programming ends. -/
def State.fwProgram (s : State) (req : Req) (v : Word) : State :=
  s.keyed req Reg.TF_CMD v 0x5E6A (fun s =>
    if s.flag Reg.TF_STS 28 then s.fwErr true
    else match s.fwSource with
      | none => s.fwErr true
      | some (hdr, body) =>
        let k := if s.fld Reg.TF_STS 27 26 = 0 then 1 else 0
        let s := ((s.fwErr false).setFlag Reg.TF_STS 28 true).flashErase (fwSlot k) (128 + 29360000)
        { s with fwProg := some (k, hdr ++ body) })

/-- The programming of a slot ends; `good` says that the read-back matched (R279). -/
def State.fwProgramDone (s : State) (good : Bool) : State :=
  match s.fwProg with
  | none => s
  | some (k, image) =>
    let s := { s with fwProg := none }
    let s := if good then s.flashProg (fwSlot k) image else s.fwErr true
    (s.setFlag Reg.TF_STS 28 false).raise tfPage 0

/-- TF_STS and CORE_STS as read. -/
def State.tfView (s : State) (a : Nat) : Word :=
  if a = Reg.TF_STS then putBits (s.rd a) 6 0 ((List.range 96).filter (fun c => (s.coreOwner c).isSome)).length
  else
    let c := (a - 0x221000) / 0x1000
    if a = Reg.CORE_STS c then
      BitVec.ofNat 32 (s.parkedCount c * 65536 + (s.core c).launchQ.length * 256 + s.slotsHeld c)
    else s.rd a

end Sys2Proof.Machine
end

