-- ==== Sys2Proof/Machine/Clock.lean ====
section
/-! DEFINITION. The timebase, the calendar and their pairs (R36 to R45). -/
namespace Sys2Proof.Machine

/-! ## The timebase (R36 to R39) -/

/-- One TCLK of the timebase, as R37 writes it. -/
def tickTb (c : Clk) : Clk :=
  let sum : Int := (c.frac.toNat : Int) + c.rate.toInt
  let step : Int := 1 + sum / 2 ^ 32
  let tick := c.tick + 1
  let owed := c.owed || (tick == 0 && c.slew != 0)
  let apply := owed && step == 1
  let sgn : Int := if c.slew.toInt < 0 then -1 else if c.slew = 0 then 0 else 1
  { c with frac := BitVec.ofInt 32 sum, tick := tick, owed := owed && !apply,
           slew := if apply then BitVec.ofInt 32 (c.slew.toInt - sgn) else c.slew,
           tb := c.tb + BitVec.ofInt 64 (if apply then step + sgn else step), tclk := c.tclk + 1 }

/-- The step of the timebase falls due for a slew nanosecond at the next TCLK (R38). -/
def Clk.dueNext (c : Clk) : Bool := c.tick + 1 == 0 && c.slew != 0

/-- The rate step of the next TCLK is 1 (R38). -/
def Clk.stepOne (c : Clk) : Bool := decide (((c.frac.toNat : Int) + c.rate.toInt) / 2 ^ 32 = 0)

/-- The timebase advances one TCLK, while TCLK runs. -/
def State.tclk (s : State) : State := if s.clk.running then { s with clk := tickTb s.clk } else s

/-- SLEW_DUE: the TCLK at which the tick counter returns to 0 while a slew is pending. -/
def State.slewDue (s : State) : State := if s.clk.running && s.clk.dueNext then s.tclk else s

/-- SLEW_APPLY: the TCLK at which a due nanosecond is applied: one is owed, or falls due, and the rate step is 1. -/
def State.slewApply (s : State) : State :=
  if s.clk.running && (s.clk.owed || s.clk.dueNext) && s.clk.stepOne then s.tclk else s

/-- RATE clamped to ±858,993 (R38). -/
def clampRate (v : Word) : Word := BitVec.ofInt 32 (iclamp (-858993) 858993 v.toInt)

/-- Kralon alignment runs (R384): TB_RATE and TB_SLEW change nothing. -/
def State.aligning (s : State) : Bool := decide (s.fld Reg.KL_STS 31 28 = 4)

/-- A write to TB_RATE (R38), refused and counted while alignment runs (R384). -/
def State.tbRate (s : State) (v : Word) : State :=
  if s.aligning then s.bump Reg.KL_CNT_TB_REFUSED else { s with clk := { s.clk with rate := clampRate v } }

/-- A write to TB_SLEW replaces the pending slew (R38), refused and counted while alignment runs (R384). -/
def State.tbSlew (s : State) (v : Word) : State :=
  if s.aligning then s.bump Reg.KL_CNT_TB_REFUSED else { s with clk := { s.clk with slew := v } }

/-- A read of TB_LO returns the low half and latches the high half for the requester (R39). -/
def State.tbLo (s : State) (req : Req) : Word × State :=
  (s.clk.tb.setWidth 32,
   { s with clk := { s.clk with tbHi := s.clk.tbHi.set 0 (latchKey req) ((s.clk.tb >>> 32).setWidth 32) } })

/-! ## The calendar (R41 to R44) -/

/-- The magnitude of a trim. -/
def trimMag (t : Byte) : Nat := t.toInt.natAbs

/-- Tick k of a period is an added or dropped one under trim magnitude `m` (R42). -/
def adjusted (m k : Nat) : Bool := decide (k * m / 2 ^ 20 < (k + 1) * m / 2 ^ 20)

/-- How much tick k of a period advances the fraction: 2, 4 for an added tick, 0 for a dropped one (R42). -/
def tickStep (t : Byte) (k : Nat) : Nat :=
  if adjusted (trimMag t) k then (if 0 < t.toInt then 4 else 0) else 2

/-- The written trim, with −128 stored as −127 (R42). -/
def storeTrim (t : Byte) : Byte := if t = 0x80 then 0x81 else t

/-- One tick of the calendar: the fraction advances under the trim in force, or the staged value is loaded (R42, R43), and the
period counter moves on, the next period starting with the trim then written. -/
def tickCal (c : Clk) (setSec : DWord) (setFrac : Half) : Clk :=
  let f := c.calFrac.toNat + tickStep c.trimNow c.period.toNat
  let p := c.period + 1
  let c' := { c with period := p, trimNow := if p = 0 then c.trim else c.trimNow, setReq := false, capReq := false,
                     firstTick := c.firstTick && !c.running }
  if c.setReq then { c' with calSec := setSec, calFrac := setFrac &&& 0xFFFE, calValid := true, backupLost := false }
  else { c' with calSec := c.calSec + BitVec.ofNat 64 (f / 65536), calFrac := BitVec.ofNat 16 f }

/-- The tick rolls over a second (R45). -/
def rolls (c : Clk) : Bool := decide (65536 ≤ c.calFrac.toNat + tickStep c.trimNow c.period.toNat)

/-- Capture a pair (R45): the calendar value of the tick and the timebase of the first TCLK edge after it; GEN counts. -/
def State.capture (s : State) : State :=
  let p : Pair := { tb := s.clk.tb, sec := s.clk.calSec, frac := s.clk.calFrac }
  let gen := s.fld Reg.PAIR_FRAC 31 16
  let s := { s with pairs := p :: s.pairs }
  ((((s.wr Reg.PAIR_TB_LO (p.tb.setWidth 32)).wr Reg.PAIR_TB_HI ((p.tb >>> 32).setWidth 32)).wr
    Reg.PAIR_SEC_LO (p.sec.setWidth 32)).wr Reg.PAIR_SEC_HI ((p.sec >>> 32).setWidth 32)).wr
    Reg.PAIR_FRAC (BitVec.ofNat 32 ((gen + 1) % 65536 * 65536 + p.frac.toNat))

/-- A tick of the calendar crystal, with the pair that R45 asks for: at a tick at which the seconds increase, at one that carries
a SET or follows a CAPTURE, and at the first after the timebase started. -/
def State.calTick (s : State) : State :=
  if s.clk.calOn then
    let c := s.clk
    let sec := BitVec.ofNat 64 ((s.rd Reg.CAL_SET_LO).toNat + (s.rd Reg.CAL_SET_HI).toNat * 2 ^ 32)
    let t := { s with clk := tickCal c sec ((s.rd Reg.CAL_SET_FRAC).setWidth 16) }
    if c.running && (c.setReq || rolls c || c.capReq || c.firstTick) then t.capture else t
  else s

/-- The five ticks of the table are one and the same tick, told apart by what it carries. -/
def State.calTickIf (s : State) (b : Bool) : State := if b then s.calTick else s

/-- A write of CAL_CTL stores the trim and requests SET and CAPTURE for the next tick (R42, R43, R45). -/
def State.calCtl (s : State) (v : Word) : State :=
  { s with clk := { s.clk with trim := storeTrim (BitVec.ofNat 8 (bits v 7 0)), setReq := s.clk.setReq || bit v 8,
                               capReq := s.clk.capReq || bit v 9 } }

/-- A read of CAL_SEC_LO latches the high seconds and the fraction of the same tick for the requester (R44). -/
def State.calLo (s : State) (req : Req) : Word × State :=
  (s.clk.calSec.setWidth 32,
   { s with clk := { s.clk with calHi := s.clk.calHi.set 0 (latchKey req) ((s.clk.calSec >>> 32).setWidth 32),
                                calFr := s.clk.calFr.set 0 (latchKey req) s.clk.calFrac } })

/-- The backup voltage falls below the retention level: the calendar stops and its trim is lost (R41, R42). The restart from 0
seconds, BACKUP_LOST and VALID 0 come with the next emergence. -/
def State.backupLoss (s : State) : State := { s with clk := { s.clk with calOn := false } }

/-- The calendar restarts after a backup loss (R41, R42). -/
def restartCal (c : Clk) : Clk :=
  if c.calOn then c
  else { c with calOn := true, calSec := 0, calFrac := 0, calValid := false, backupLost := true, trim := 0, trimNow := 0,
                period := 0, setReq := false, capReq := false }

end Sys2Proof.Machine
end

