-- ==== Sys2Proof/Machine/MemCtl.lean ====
section
/-! DEFINITION. The commons and the HBM controller (13): address mapping, queues and issue, training, row disturbance, freeze and
release, and the fabric shared cache.  A unit's own access acts on the device memory at once; the requests that pass through the
channels' queues are the ones these commands name (log entry 17). -/
namespace Sys2Proof.Machine

def State.chan (s : State) (q : Nat) : Chan := s.chans.get {} q
def State.setChan (s : State) (q : Nat) (c : Chan) : State := { s with chans := s.chans.set {} q c }
def State.updChan (s : State) (q : Nat) (f : Chan → Chan) : State := s.setChan q (f (s.chan q))

/-- MCLK cycles since the end of E2: 750 MHz against the 1 GHz TCLK. -/
def State.mclk (s : State) : Nat := s.clk.tclk * 3 / 4

def mcPage : Nat := 0x300000

/-- STATE of channel q: 0 RUN, 1 PAUSE, 2 FROZEN, 3 FENCED. -/
def State.chanState (s : State) (q : Nat) : Nat := s.fld (Reg.CH_STS q) 31 30
def State.setChanState (s : State) (q n : Nat) : State := s.setFld (Reg.CH_STS q) 31 30 n

/-! ## Address mapping (R313) -/

/-- In-channel line of an HBM address, with its channel and the order. -/
def State.chanLine (s : State) (a : Nat) : Nat × Nat × Nat :=
  let seg := a / 0x30000000
  let own := fun (order n i : Nat) (cs : List Nat) =>
    let l := (i * 0x30000000 + (a - seg * 0x30000000)) / 64
    let k := match order with
      | 0 => l % n
      | 1 => l / 16 % n
      | 2 => l % n
      | _ => l / 12582912
    let line := match order with
      | 0 => l / n
      | 1 => l / (16 * n) * 16 + l % 16
      | 2 => l / n
      | _ => l % 12582912
    ((cs.drop k).headD seg, line, order)
  match s.chanOwner seg with
  | none => own 3 1 0 [seg]
  | some p =>
    let cs := (s.part p).channels
    own (s.part p).order cs.length (cs.findIdx (· == seg)) cs

/-- Channel, bank, row and line slot of an HBM address. -/
def State.location (s : State) (a : Nat) : Nat × Nat × Nat × Nat :=
  let x := s.chanLine a
  let l := x.2.1
  let row := l / 768
  let b := l / 16 % 48
  (x.1, if x.2.2 = 2 then (b + row) % 48 else b, row, l % 16)

/-! ## The fabric shared cache (R308) -/

/-- Set of a line. -/
def scSet (line : Nat) : Nat := line % 16384

/-- An access of partition p's cores to the HBM line `line`, before its write: a hit moves the line to the front, a miss takes a way of
the partition, writing the least recently used line back. -/
def State.scAccess (s : State) (p line : Nat) (write : Bool) : State :=
  let old := s.ld (line * 64) 64
  match s.sc.find? (fun e => e.line == line) with
  | some e =>
    let e := if write && !e.dirty then { e with dirty := true, old := old } else e
    { s.bump Reg.COM_CNT_SC_HIT with sc := e :: s.sc.filter (fun x => x.line != line) }
  | none =>
    let s := s.bump Reg.COM_CNT_SC_MISS
    let ways := (List.range 16).filter (fun w => (s.part p).cacheWays.testBit w)
    let inSet := s.sc.filter (fun x => scSet x.line == scSet line && ways.contains x.way)
    match ways.find? (fun w => inSet.all (fun x => x.way != w)) with
    | some w => { s with sc := ⟨line, w, write, if write then old else []⟩ :: s.sc }
    | none =>
      match inSet.getLast? with
      | none => s
      | some v => { s with sc := ⟨line, v.way, write, if write then old else []⟩ :: s.sc.filter (fun x => x.line != v.line) }

/-- Ways are written back and emptied (R308). -/
def State.scEmpty (s : State) (ways : Nat) : State := { s with sc := s.sc.filter (fun x => !ways.testBit x.way) }

/-- The lines stored on a channel leave the cache; what a dirty one held is lost (R327). The number discarded. -/
def State.scFreeze (s : State) (q : Nat) : State × Nat :=
  let gone := s.sc.filter (fun x => s.chanOf (x.line * 64) == q)
  let dirty := gone.filter (fun x => x.dirty)
  let s' := { s with sc := s.sc.filter (fun x => s.chanOf (x.line * 64) != q) }
  (dirty.foldl (fun t x => t.st (x.line * 64) x.old) s', dirty.length)

/-! ## Freeze (R327 to R329) -/

/-- Record a command of channel q: command, bank, row. -/
def State.mcHist (s : State) (q cmd bank row : Nat) : State :=
  s.updChan q (fun c => { c with hist := ((cmd, bank, row, s.mclk) :: c.hist).take 16 })

/-- Channel q freezes with a cause; `a` is the failing request's address, 0 for CA_PARITY and PAIR. A channel already fenced stays as it is. -/
def State.freeze (s : State) (q cause a cls port syn : Nat) : State :=
  if s.chanFenced q then s
  else
    let c := s.chan q
    let loc := s.location a
    let sc := s.scFreeze q
    let named := decide (cause ≠ 2) && decide (cause ≠ 3) && decide (cause ≠ 4)
    let cap : Capture :=
      { tb := s.clk.tb, addr := if named then a else 0, row := if named then loc.2.2.1 else 0, bank := if named then loc.2.1 else 0,
        col := if named then loc.2.2.2 else 0, syn := syn, cause := cause, cls := cls, port := port, dirty := min sc.2 255,
        reads := min c.reads.length 255, writes := min c.writes.length 255, mclk := s.mclk, hist := c.hist }
    let s := sc.1.setChan q { c with reads := [], inflight := [], cap := if c.cap.isSome then c.cap else some cap }
    let s := ((s.setChanState q 2).setFld (Reg.CH_STS q) 23 20 cause).bump Reg.MC_CNT_FREEZE
    (s.log 2 0x21 (blkId mcPage) (q + 256 * cause)).raise mcPage 0

/-- A pair's channels freeze on a command/address parity error (R328). -/
def State.caParity (s : State) (q : Nat) : State := (s.freeze q 2 0 0 0 0).freeze (q ^^^ 1) 3 0 0 0 0

/-! ## Acceptance (R319 to R322) -/

/-- The 64 enables as byte indexes. -/
def enables (m : BitVec 64) : List Nat := (List.range 64).filter (fun i => m.getLsbD i)

/-- Write the enabled bytes of a line. -/
def State.stMasked (s : State) (line : Nat) (m : BitVec 64) (d : Bytes) : State :=
  (enables m).foldl (fun t i => t.st (line * 64 + i) [(d.drop i).headD 0]) s

/-- A request reaches channel q's queue: refused by a fenced channel, waiting at its port when the queue is full, otherwise
accepted. A write is performed at its acceptance and merged into an entry for its line; a read that queued writes cover is served. -/
def State.mcAccept (s : State) (cls port urg : Nat) (write : Bool) (a : Nat) (m : BitVec 64) (d : Bytes) : State :=
  if 0x000C00000000 ≤ a then s
  else
    let q := s.chanOf a
    let c := s.chan q
    let line := a / 64
    let t := s.mclk
    let tgt := s.fld (bank cls Reg.PORT_TGT) 15 0
    let r : MReq := { write := write, line := line, mask := m, cls := cls, port := port, urg := urg,
                      deadline := if urg = 3 then t else t + tgt / 2 ^ urg, order := c.order }
    if s.chanFenced q then s
    else if write then
      let merged := c.writes.any (fun w => w.line == line)
      if merged = false ∧ 64 ≤ c.writes.length then s
      else
        let ws := if merged then c.writes.map (fun w => if w.line = line then { w with mask := w.mask ||| m } else w) else c.writes ++ [r]
        let s := s.setChan q { c with writes := ws, order := c.order + 1, draining := c.draining || decide (s.fld Reg.WQ_CFG 15 8 ≤ ws.length) }
        let s := s.stMasked line m d
        let s := { s with sc := s.sc.filter (fun e => e.line != line) }
        if m = BitVec.allOnes 64 then s.clearUe (line * 64) 64 else s
    else
      let cover := (c.writes.filter (fun w => w.line == line)).foldl (fun x w => x ||| w.mask) (0 : BitVec 64)
      if m ≠ 0 ∧ cover &&& m = m then s.bump (Reg.CH_CNT_FWD q)
      else if 128 ≤ c.reads.length then s
      else s.setChan q { c with reads := c.reads ++ [r], order := c.order + 1 }

/-! ## Issue (R320, R321, R323, R324) -/

/-- A candidate for issue: its place in the order of R320 (smaller first), whether it is a row hit of rank 2, and the request. -/
structure Cand where
  key : Nat
  hit : Bool
  req : MReq

/-- Candidates of channel q, with the banks whose timing allows a command. -/
def State.candidates (s : State) (q : Nat) (banks : BitVec 48) : List Cand :=
  let c := s.chan q
  let now := s.mclk
  let drain := c.draining || c.reads.isEmpty
  let cap := s.fld Reg.WQ_CFG 23 16
  let gap := s.fld Reg.RH_CFG 15 8
  (c.reads ++ c.writes).filterMap (fun r =>
    let loc := s.location (r.line * 64)
    let opened := c.rows.look loc.2.1
    let isOpen := match opened with
      | some o => o.row == loc.2.2.1
      | none => false
    let blocked := if r.write then !drain && !c.reads.any (fun x => x.line == r.line) else c.writes.any (fun x => x.line == r.line)
    let slow := opened.isNone && c.throttled.any (fun (t : Nat × Nat × Nat) => t.1 == r.port && t.2.1 == loc.2.1 && decide (now < t.2.2 + gap))
    if blocked || slow || !banks.getLsbD loc.2.1 then none
    else
      let late := decide (r.deadline < now)
      let capped := match opened with
        | some o => decide (cap ≤ o.hits)
        | none => false
      let hit := !late && isOpen && !capped
      let rank := if late then 1 else if hit then 2 else 3
      some { key := if r.write then rank else if rank = 1 then (if r.urg = 3 then 0 else 1) else rank + 2, hit := hit, req := r })

/-- The first candidate: by key, deadline, acceptance, port. -/
def firstCand (l : List Cand) : Option Cand :=
  l.foldl (fun (b : Option Cand) x => match b with
    | none => some x
    | some y =>
      if x.key < y.key ∨ (x.key = y.key ∧ (x.req.deadline < y.req.deadline ∨ (x.req.deadline = y.req.deadline ∧
        (x.req.order < y.req.order ∨ (x.req.order = y.req.order ∧ x.req.port < y.req.port))))) then some x else some y) none

/-- An activation is counted, and handled when its row group reaches RH_THR (R324). -/
def State.rowAct (s : State) (q bank row port : Nat) : State :=
  let k := bank * 256 + row / 64
  let now := s.mclk
  let c := s.chan q
  let n := c.acts.get 0 k + 1
  let c := { c with throttled := c.throttled.map (fun (t : Nat × Nat × Nat) => if t.1 = port ∧ t.2.1 = bank then (port, bank, now) else t) }
  let s := s.bump (Reg.CH_CNT_ACT q)
  if n < s.fld Reg.RH_CFG 31 16 then s.setChan q { c with acts := c.acts.set 0 k n }
  else
    let second := c.rhOnce.contains k
    let s := s.setChan q { c with acts := c.acts.set 0 k 0, rhOnce := if second then c.rhOnce else k :: c.rhOnce,
                                  throttled := if second then (port, bank, now) :: c.throttled else c.throttled }
    let s := (s.mcHist q 5 bank 0).bump (Reg.CH_CNT_RH_RFM q)
    if second then (s.bump Reg.MC_CNT_RH_THROTTLE).raise mcPage 2 else s

/-- One MCLK of channel q: the command of the first request whose bank timing allows it. -/
def State.mcIssue (s : State) (q : Nat) (banks : BitVec 48) : State :=
  if s.chanState q ≠ 0 then s
  else
    let c := s.chan q
    let drain := if s.fld Reg.WQ_CFG 15 8 ≤ c.writes.length then true else if c.writes.length ≤ s.fld Reg.WQ_CFG 7 0 then false else c.draining
    let s := s.setChan q { c with draining := drain }
    match firstCand (s.candidates q banks) with
    | none => s
    | some x =>
      let r := x.req
      let loc := s.location (r.line * 64)
      let b := loc.2.1
      let row := loc.2.2.1
      let c := s.chan q
      match c.rows.look b with
      | none => (((s.setChan q { c with rows := c.rows.insert b ⟨row, 0, s.mclk⟩ }).mcHist q 0 b row).rowAct q b row r.port)
      | some o =>
        if o.row ≠ row then (s.setChan q { c with rows := c.rows.erase b }).mcHist q 1 b 0
        else
          let older := (c.reads ++ c.writes).any (fun y => decide (y.order < r.order))
          let o := { o with hits := if x.hit && older then o.hits + 1 else o.hits, last := s.mclk }
          let c := { c with rows := c.rows.insert b o }
          let c := if r.write then { c with writes := c.writes.filter (fun y => y.order != r.order) }
                   else { c with reads := c.reads.filter (fun y => y.order != r.order), inflight := c.inflight ++ [r] }
          let s := (s.setChan q c).mcHist q (if r.write then 3 else 2) b row
          let s := s.bump (if r.write then Reg.CH_CNT_WR q else Reg.CH_CNT_RD q)
          if r.deadline < s.mclk then (s.bump (Reg.CH_CNT_LAT_MISS q)).bump Reg.MC_CNT_LAT_MISS else s

/-! ## Read data and errors (R325, R326) -/

/-- A corrected error of channel q: counted, and CE_RATE raised once in a second with more than CE_THR. -/
def State.corrected (s : State) (q : Nat) : State :=
  let sec := s.now / 1000000000
  let c := s.chan q
  let n := if c.ceSec = sec then c.ceNum + 1 else 1
  let s := (s.setChan q { c with ceSec := sec, ceNum := n }).bump (Reg.CH_CNT_CE q)
  if n = s.fld Reg.CE_CFG 15 0 + 1 then s.raise mcPage 3 else s

/-- The data of the oldest read issued returns: 0 clean, 1 corrected (written back), 2 uncorrectable. -/
def State.readReturn (s : State) (q outcome syn : Nat) : State :=
  let c := s.chan q
  match c.inflight with
  | [] => s
  | r :: t =>
    let s := s.setChan q { c with inflight := t }
    match outcome with
    | 0 => s
    | 1 => (s.corrected q).bump (Reg.CH_CNT_WR q)
    | _ => s.freeze q 1 (r.line * 64) r.cls r.port syn

/-- The DRAM reports write data parity for the write of a line: a first report repeats it, a second freezes the channel. -/
def State.writeParity (s : State) (q a port cls : Nat) (second : Bool) : State :=
  if s.chanState q ≠ 0 ∨ s.chanOf a ≠ q then s
  else if second then s.freeze q 1 a cls port 0 else s.bump (Reg.CH_CNT_WR q)

/-- The scrub reads a line (R326). -/
def State.scrub (s : State) (a outcome syn : Nat) : State :=
  let q := s.chanOf a
  if 0x000C00000000 ≤ a ∨ s.chanFenced q ∨ s.fld Reg.SCRUB_CFG 15 0 = 0 then s
  else
    let s := s.bump (Reg.CH_CNT_RD q)
    match outcome with
    | 0 => s
    | 1 => (s.corrected q).bump (Reg.CH_CNT_WR q)
    | _ => s.freeze q 1 a 11 0 syn

/-! ## Refresh, retraining, idle rows (R315 to R318, R323, R324) -/

/-- A bank's refresh: it closes its row. None in a channel fenced with cause STACK. -/
def State.refreshBank (s : State) (q b : Nat) : State :=
  if s.chanState q = 3 ∧ s.fld (Reg.CH_STS q) 23 20 = 5 then s
  else (s.updChan q (fun c => { c with rows := c.rows.erase b })).mcHist q 4 b 0

/-- Channel q is due from now on. -/
def State.setDue (s : State) (q : Nat) : State :=
  if (s.chan q).due.isSome then s else (s.updChan q (fun c => { c with due := some s.now })).setFlag (Reg.CH_STS q) 0 true

/-- The stack temperature of the last reading, of channels 32k to 32k + 31; a move by more than TEMP_DELTA makes them due (R316). -/
def State.hbmTemp (s : State) (stack temp : Nat) : State :=
  (range' (32 * stack) 32).foldl (fun s q =>
    let s := s.setFld (Reg.CH_STS q) 15 8 temp
    let was := (s.chan q).trainTemp
    let d := s.fld Reg.RETRAIN_CFG 19 16
    let moved := (temp - was) + (was - temp)
    if d ≠ 0 ∧ d < moved then s.setDue q else s) s

/-- PERIOD_MS since the last training. -/
def State.retrainDue (s : State) (q : Nat) : State :=
  let p := s.fld Reg.RETRAIN_CFG 7 0
  if p ≠ 0 ∧ (s.chan q).trained + p * 1000000 ≤ s.now then s.setDue q else s

/-- The partition of a channel, in a form that compares unowned channels as different. -/
def State.samePart (s : State) (a b : Nat) : Bool :=
  match s.chanOwner a, s.chanOwner b with
  | some p, some r => p == r
  | _, _ => false

/-- A due channel starts a pause when the conditions of R317 hold; once SLACK_MS have passed, urgent requests hold it no longer. -/
def State.retrainPause (s : State) (q : Nat) : State :=
  match (s.chan q).due with
  | none => s
  | some t =>
    let c := s.chan q
    let urgent := (c.reads ++ c.writes).any (fun r => decide (2 ≤ r.urg))
    let slack := decide (t + s.fld Reg.RETRAIN_CFG 15 8 * 1000000 ≤ s.now)
    let paused := (List.range 64).filter (fun k => s.chanState k == 1)
    if s.chanState q ≠ 0 ∨ (urgent = true ∧ slack = false) ∨ paused.any (fun k => s.samePart k q || k / 2 == q / 2) = true ∨
        s.fld Reg.RETRAIN_CFG 23 20 ≤ paused.length then s
    else
      let s := ((s.setChanState q 1).updChan q (fun c => { c with rows := [] })).bump (Reg.CH_CNT_RETRAIN q)
      let s := s.bump Reg.MC_CNT_RETRAIN
      if slack then (s.bump Reg.MC_CNT_RETRAIN_FORCED).raise mcPage 4 else s

/-- A channel is trained now. -/
def State.trainedNow (s : State) (q : Nat) : State :=
  (s.updChan q (fun c => { c with trained := s.now, trainTemp := s.fld (Reg.CH_STS q) 15 8, due := none })).setFlag (Reg.CH_STS q) 0 false

/-- A pause ends: the channel runs, or its recentring failed and it freezes with cause TRAIN. -/
def State.pauseEnd (s : State) (q : Nat) (ok : Bool) : State :=
  if s.chanState q ≠ 1 then s
  else if ok then (s.setChanState q 0).trainedNow q else s.freeze q 4 0 0 0 0

/-- A bank's idle timer closes its row when no queued request needs it (R323). -/
def State.rowIdle (s : State) (q b : Nat) : State :=
  let c := s.chan q
  match c.rows.look b with
  | none => s
  | some o =>
    let wanted := (c.reads ++ c.writes).any (fun r => let l := s.location (r.line * 64); l.2.1 == b && l.2.2.1 == o.row)
    if wanted = true ∨ s.mclk < o.last + s.fld (Reg.CH_CFG q) 7 0 then s
    else (s.setChan q { c with rows := c.rows.erase b }).mcHist q 1 b 0

/-- The 32 ms window of channel q ends (R324). -/
def State.rhWindow (s : State) (q : Nat) : State := s.updChan q (fun c => { c with acts := [], rhOnce := [], throttled := [] })

/-! ## Release (R330) -/

/-- A release can start on channel q. -/
def State.releasable (s : State) (q : Nat) : Bool :=
  s.chanFenced q && s.fld (Reg.CH_STS q) 23 20 != 5 && (s.chan q).releasing.isNone

/-- A write of CH_CMD with its key. -/
def State.release (s : State) (q : Nat) (v : Word) : State :=
  if bit v 0 = false ∨ s.releasable q = false then s
  else
    let c := s.fld (Reg.CH_STS q) 23 20
    let go := fun (s : State) (k : Nat) => s.updChan k (fun c => { c with releasing := some (bit v 1) })
    let s := go s q
    if (c = 2 ∨ c = 3) ∧ s.releasable (q ^^^ 1) = true then go s (q ^^^ 1) else s

/-- The memory stored on channel q reads zero. -/
def State.zeroChan (s : State) (q : Nat) : State :=
  { s with mem := s.mem.filter (fun e => decide (0x000C00000000 ≤ e.1) || s.chanOf e.1 != q),
           ue := s.ue.filter (fun l => decide (0x000C00000000 ≤ l * 64) || s.chanOf (l * 64) != q) }

/-- The training, and the fill with CLEAR, end: held writes are written or discarded. -/
def State.releaseDone (s : State) (q : Nat) (ok : Bool) : State :=
  let c := s.chan q
  match c.releasing with
  | none => s
  | some clear =>
    if ok then
      let s := if clear then s.zeroChan q else s.count (Reg.CH_CNT_WR q) c.writes.length
      let s := s.setChan q { c with releasing := none, writes := [], reads := [], inflight := [], rows := [], cap := none }
      let s := (s.setChanState q 0).setFld (Reg.CH_STS q) 23 20 0
      (s.trainedNow q).raise mcPage 5
    else
      let s := s.setChan q { c with releasing := none }
      let s := (s.setChanState q 3).setFld (Reg.CH_STS q) 23 20 4
      (s.log 2 0x20 (blkId mcPage) q).raise mcPage 1

/-- A channel, or a stack's channel, is fenced by training at E5 (R314). -/
def State.trainFail (s : State) (q cause : Nat) : State :=
  let s := (s.setChanState q 3).setFld (Reg.CH_STS q) 23 20 cause
  (s.log 2 0x20 (blkId mcPage) q).raise mcPage 1

/-! ## The commons (R306, R307, R309) -/

/-- An access to a commons unit by a requester other than a hart: refused unless the unit is memory; a read that meets an uncorrectable
error is counted, raised and logged, and the line stays so until a write covers it. `err`: 0 none, 1 corrected, 2 uncorrectable. -/
def State.commonsAccess (s : State) (req : Req) (write : Bool) (a : Nat) (m : BitVec 64) (d : Bytes) (err : Nat) : State :=
  let line := a / 64
  if a < commonsBase ∨ 0x001003800000 ≤ a then s
  else if s.unitIsMem ((a - commonsBase) / 0x100000) = false then s.bump Reg.COM_CNT_BAD_UNIT
  else if write then
    (if s.ctxRecordAt (line * 64) 64 then s
     else
       let s := s.stMasked line m d
       if m = BitVec.allOnes 64 then s.clearUe (line * 64) 64 else s)
  else if err = 2 ∨ s.ue.contains line = true then
    let s := if s.ue.contains line then s else { s with ue := line :: s.ue }
    ((s.bump Reg.COM_CNT_UE).log 1 0x22 (blkId 0x301000) (accessDetail req a)).raise 0x301000 0
  else if err = 1 then s.bump Reg.COM_CNT_CE else s

/-! ## Registers -/

/-- A write of WQ_CFG: refused when the levels are out of order. -/
def State.wqCfg (s : State) (req : Req) (v : Word) : State :=
  if bits v 15 8 ≤ bits v 7 0 ∨ 64 < bits v 15 8 ∨ bits v 23 16 = 0 then s.setFlag Reg.MC_STS 30 true
  else ((s.store req Reg.WQ_CFG v).1).setFlag Reg.MC_STS 30 false

/-- A write of PORT_TGT to the class shown (R319). -/
def State.portTgt (s : State) (req : Req) (v : Word) : State :=
  let c := s.fld Reg.PORT_SEL 3 0
  if 12 ≤ c then s else (s.store req (bank c Reg.PORT_TGT) v).1

/-- The views of MC_STS and of the freeze capture page (R334). -/
def State.mcView (s : State) (a : Nat) : Word :=
  if a = Reg.MC_STS then
    putBits (putBits (s.rd a) 22 16 ((List.range 64).filter (fun q => s.chanState q == 2)).length) 6 0
      ((List.range 64).filter s.chanFenced).length
  else if a = Reg.PORT_TGT then s.rd (bank (s.fld Reg.PORT_SEL 3 0) a)
  else
    match (s.chan (s.fld Reg.FRZ_SEL 5 0)).cap with
    | none => 0
    | some c =>
      let w := BitVec.ofNat 32
      if a = Reg.FRZ_TB_LO then w c.tb.toNat
      else if a = Reg.FRZ_TB_HI then w (c.tb.toNat / 2 ^ 32)
      else if a = Reg.FRZ_ADDR_LO then w c.addr
      else if a = Reg.FRZ_ADDR_HI then w (c.addr / 2 ^ 32)
      else if a = Reg.FRZ_LOC then w (c.row * 65536 + c.bank * 256 + c.col)
      else if a = Reg.FRZ_SYN then w (c.syn % 65536 * 65536 + c.cause * 4096 + c.cls * 256)
      else if a = Reg.FRZ_PORT then w c.port
      else if a = Reg.FRZ_QUEUE then w (c.dirty * 16777216 + c.reads * 256 + c.writes)
      else
        match c.hist.drop ((a - Reg.FRZ_HIST 0) / 4) with
        | [] => 0x70000000
        | h :: _ => w (h.1 * 2 ^ 28 + h.2.1 * 2 ^ 22 + h.2.2.1 * 256 + min (c.mclk - h.2.2.2) 255)

end Sys2Proof.Machine
end

