-- ==== Sys2Proof/Machine/Float.lean ====
section
/-! DEFINITION. IEEE 754 binary formats, exactly: values as dyadic rationals, one rounding to nearest, ties to even (R187, R190,
R192).  Every arithmetic chapter uses these operations. -/
namespace Sys2Proof.Machine

/-- A binary format: exponent and fraction widths. -/
structure Fmt where
  ew : Nat
  mw : Nat
  deriving DecidableEq, Repr

def fp16 : Fmt := ⟨5, 10⟩
def bf16 : Fmt := ⟨8, 7⟩
def fp32 : Fmt := ⟨8, 23⟩
def fp64 : Fmt := ⟨11, 52⟩

/-- A decoded number: NaN, infinity, or ±m × 2^e with the sign kept at zero. -/
inductive Num where
  | nan
  | inf (neg : Bool)
  | fin (neg : Bool) (m : Nat) (e : Int)
  deriving DecidableEq, Repr

def Fmt.bias (f : Fmt) : Int := 2 ^ (f.ew - 1) - 1
/-- Exponent of the unit in the last place of the smallest binade. -/
def Fmt.qmin (f : Fmt) : Int := 1 - f.bias - f.mw
def Fmt.infBits (f : Fmt) : Nat := (2 ^ f.ew - 1) * 2 ^ f.mw
def Fmt.signBit (f : Fmt) (neg : Bool) : Nat := if neg then 2 ^ (f.ew + f.mw) else 0

/-- The number that bits mean. -/
def Fmt.decode (f : Fmt) (n : Nat) : Num :=
  let neg := n / 2 ^ (f.ew + f.mw) % 2 == 1
  let e := n / 2 ^ f.mw % 2 ^ f.ew
  let m := n % 2 ^ f.mw
  if e = 2 ^ f.ew - 1 then (if m = 0 then .inf neg else .nan)
  else if e = 0 then .fin neg m f.qmin
  else .fin neg (m + 2 ^ f.mw) (f.qmin + (e - 1 : Nat))

/-- m / 2^k rounded to nearest, ties to even. -/
def rneShift (m k : Nat) : Nat :=
  let q := m / 2 ^ k
  let r := m % 2 ^ k
  if 2 * r > 2 ^ k then q + 1 else if 2 * r = 2 ^ k then q + q % 2 else q

/-- ±m × 2^e in a format, rounded to nearest, ties to even: overflow gives infinity, subnormals are kept, zero keeps the sign. -/
def Fmt.round (f : Fmt) (neg : Bool) (m : Nat) (e : Int) : Nat :=
  if m = 0 then f.signBit neg
  else
    let q := max (e + Nat.log2 m - f.mw) f.qmin
    let sig := if q ≤ e then m * 2 ^ (e - q).toNat else rneShift m (q - e).toNat
    let n := if q = f.qmin then sig else (q - f.qmin).toNat * 2 ^ f.mw + sig
    f.signBit neg + min n f.infBits

/-- The quiet NaN that an operation gives where a rule says only "a NaN": its sign and payload are open. -/
def Fmt.someNan (f : Fmt) (a b : Nat) : Nat :=
  let k := Config.nanBits a b
  f.signBit (k % 2 == 1) + f.infBits + 2 ^ (f.mw - 1) + k / 2 % 2 ^ (f.mw - 1)

/-- The bits of a number in a format; NaN as `someNan`. -/
def Fmt.encode (f : Fmt) (a b : Nat) : Num → Nat
  | .nan => f.someNan a b
  | .inf neg => f.signBit neg + f.infBits
  | .fin neg m e => f.round neg m e

/-! ## Exact dyadic arithmetic -/

/-- An exact value n × 2^e. -/
structure Dy where
  n : Int
  e : Int
  deriving DecidableEq, Repr

def Dy.add (a b : Dy) : Dy :=
  if a.e ≤ b.e then ⟨a.n + b.n * 2 ^ (b.e - a.e).toNat, a.e⟩ else ⟨a.n * 2 ^ (a.e - b.e).toNat + b.n, b.e⟩
def Dy.mul (a b : Dy) : Dy := ⟨a.n * b.n, a.e + b.e⟩
def Dy.scale (a : Dy) (k : Int) : Dy := ⟨a.n, a.e + k⟩

/-- The exact value of a finite number. -/
def Num.dy : Num → Dy
  | .fin neg m e => ⟨if neg then -(m : Int) else m, e⟩
  | _ => ⟨0, 0⟩

/-- Round an exact value; an exact zero has the sign `zneg`. -/
def Fmt.roundDy (f : Fmt) (x : Dy) (zneg : Bool := false) : Nat :=
  if x.n = 0 then f.signBit zneg else f.round (decide (x.n < 0)) x.n.natAbs x.e

def Num.neg? : Num → Bool
  | .nan => false
  | .inf n => n
  | .fin n _ _ => n

def Num.isNan : Num → Bool
  | .nan => true
  | _ => false

def Num.isFin : Num → Bool
  | .fin .. => true
  | _ => false

/-! ## Operations on bits, one rounding each -/

/-- a + b. -/
def Fmt.add (f : Fmt) (a b : Nat) : Nat :=
  match f.decode a, f.decode b with
  | .nan, _ | _, .nan => f.someNan a b
  | .inf x, .inf y => if x = y then f.signBit x + f.infBits else f.someNan a b
  | .inf x, _ | _, .inf x => f.signBit x + f.infBits
  | x, y => f.roundDy (x.dy.add y.dy) (x.neg? && y.neg?)

/-- The bits with the sign turned. -/
def Fmt.negate (f : Fmt) (a : Nat) : Nat :=
  let s := 2 ^ (f.ew + f.mw)
  if a / s % 2 = 1 then a - s else a + s

def Fmt.sub (f : Fmt) (a b : Nat) : Nat := f.add a (f.negate b)

/-- a × b. -/
def Fmt.mul (f : Fmt) (a b : Nat) : Nat :=
  match f.decode a, f.decode b with
  | .nan, _ | _, .nan => f.someNan a b
  | .inf x, .fin y m _ | .fin y m _, .inf x => if m = 0 then f.someNan a b else f.signBit (x != y) + f.infBits
  | .inf x, .inf y => f.signBit (x != y) + f.infBits
  | x, y => f.roundDy (x.dy.mul y.dy) (x.neg? != y.neg?)

/-- fma(a, b, c): one rounding. -/
def Fmt.fma (f : Fmt) (a b c : Nat) : Nat :=
  match f.decode a, f.decode b, f.decode c with
  | .fin x m p, .fin y n q, .fin z k r =>
    f.roundDy (((Num.fin x m p).dy.mul (Num.fin y n q).dy).add (Num.fin z k r).dy) ((x != y) && z)
  | .fin .., .fin .., z => f.encode a b z
  | _, _, _ => f.add (f.mul a b) c

/-- num / den × 2^e rounded, den > 0, with the bits that do not fit kept as a sticky bit. -/
def Fmt.roundQ (f : Fmt) (neg : Bool) (num den : Nat) : Nat :=
  let k := 2 * (f.mw + 4) + Nat.log2 den + 1
  let q := num * 2 ^ k / den
  let r := num * 2 ^ k % den
  f.round neg (2 * q + (if r = 0 then 0 else 1)) (-(k : Int) - 1)

/-- a / d for a positive integer d. -/
def Fmt.divNat (f : Fmt) (a d : Nat) : Nat :=
  match f.decode a with
  | .nan => f.someNan a d
  | .inf x => f.signBit x + f.infBits
  | .fin x m e =>
    let k := 2 * (f.mw + 4) + Nat.log2 d + 1
    let q := m * 2 ^ k / d
    f.round x (2 * q + (if m * 2 ^ k % d = 0 then 0 else 1)) (e - k - 1)

/-- a / b, correctly rounded. -/
def Fmt.div (f : Fmt) (a b : Nat) : Nat :=
  match f.decode a, f.decode b with
  | .nan, _ | _, .nan => f.someNan a b
  | .inf _, .inf _ => f.someNan a b
  | .inf x, y => f.signBit (x != y.neg?) + f.infBits
  | x, .inf y => f.signBit (x.neg? != y)
  | .fin x m p, .fin y n q =>
    if n = 0 then (if m = 0 then f.someNan a b else f.signBit (x != y) + f.infBits)
    else
      let k := 2 * (f.mw + 4) + Nat.log2 n + 1
      let d := m * 2 ^ k / n
      f.round (x != y) (2 * d + (if m * 2 ^ k % n = 0 then 0 else 1)) (p - q - k - 1)

/-- Fractional bits of the exponential's fixed point. -/
def expBits : Nat := 400

/-- Terms k + 1, k + 2, … of the series of exp(−y), from the term before. -/
def expSeries (y : Int) : Nat → Int → Int → Int
  | 0, _, _ => 0
  | n + 1, k, t =>
    let t' := -(t * y / 2 ^ expBits / (k + 1))
    t' + expSeries y n (k + 1) t'

def squareTimes : Nat → Int → Int
  | 0, x => x
  | n + 1, x => squareTimes n (x * x / 2 ^ expBits)

/-- exp of an fp32 value not above zero, correctly rounded (R212): below −104 it rounds to +0. No such value but zero is a tie or
exact, so a sticky bit decides the rounding. -/
def expNeg (a : Nat) : Nat :=
  match fp32.decode a with
  | .nan => fp32.someNan a a
  | .inf _ => 0
  | .fin _ m e =>
    if m = 0 then 0x3F800000
    else
      let y : Int := (m : Int) * 2 ^ (e + expBits - 10).toNat
      if 104 * 2 ^ (expBits - 10) < y then 0
      else
        let v := squareTimes 10 (2 ^ expBits + expSeries y 80 0 (2 ^ expBits))
        fp32.round false (2 * v.toNat + 1) (-(expBits : Int) - 1)

/-- 1 / sqrt(a), correctly rounded: infinity at zero, a NaN below it. -/
def Fmt.rsqrt (f : Fmt) (a : Nat) : Nat :=
  match f.decode a with
  | .nan => f.someNan a a
  | .inf true => f.someNan a a
  | .inf false => 0
  | .fin x m e =>
    if m = 0 then f.signBit x + f.infBits
    else if x then f.someNan a a
    else
      -- m × 2^e with e made even; r = floor(2^K / sqrt m)
      let m' := if e % 2 = 0 then m else 2 * m
      let e' := if e % 2 = 0 then e else e - 1
      let k := f.mw + 8 + Nat.log2 m'
      let r := Nat.sqrt (2 ^ (2 * k) / m')
      let exact := r * r * m' == 2 ^ (2 * k)
      f.round false (2 * r + (if exact then 0 else 1)) (-(k : Int) - 1 - e' / 2)

/-- The integer nearest to an exact value, ties to even. -/
def Dy.roundEven (x : Dy) : Int :=
  if 0 ≤ x.e then x.n * 2 ^ x.e.toNat
  else
    let r := (rneShift x.n.natAbs (-x.e).toNat : Int)
    if x.n < 0 then -r else r

/-- Convert bits of one format to another; a NaN is kept as a quiet NaN with the upper payload bits. -/
def Fmt.conv (f g : Fmt) (a : Nat) : Nat :=
  match f.decode a with
  | .nan =>
    let m := a % 2 ^ f.mw
    let m := if f.mw ≤ g.mw then m * 2 ^ (g.mw - f.mw) else m / 2 ^ (f.mw - g.mw)
    g.signBit (a / 2 ^ (f.ew + f.mw) % 2 == 1) + g.infBits + (if m / 2 ^ (g.mw - 1) % 2 = 1 then m else m + 2 ^ (g.mw - 1))
  | x => g.encode a 0 x

/-- The fp32 bits of an integer. -/
def fp32OfInt (i : Int) : Nat := fp32.roundDy ⟨i, 0⟩

/-- a < b as numbers; false with a NaN. -/
def Fmt.lt (f : Fmt) (a b : Nat) : Bool :=
  match f.decode a, f.decode b with
  | .nan, _ | _, .nan => false
  | .inf x, .inf y => x && !y
  | .inf x, .fin .. => x
  | .fin .., .inf y => !y
  | x, y => decide ((x.dy.add ⟨-y.dy.n, y.dy.e⟩).n < 0)

/-- round_even and clamp to a 16-bit range with an offset: infinities clamp, a NaN gives the offset (R165, R190). -/
def toInt16 (t : Nat) (zp : Int) : Int :=
  match fp32.decode t with
  | .nan => zp
  | .inf n => if n then -32768 else 32767
  | x => iclamp (-32768) 32767 (x.dy.roundEven + zp)

end Sys2Proof.Machine
end

