-- ==== Sys2Proof/Machine/Tgu.lean ====
section
/-! DEFINITION. The Token and Grammar Unit's commands (10): its images (R228 to R240), the tokenizer (R231 to R235), the context
commands (R241, R248, R250), GRM_DONE (R251) and its page (R254). -/
namespace Sys2Proof.Machine

/-- CMD_ERR is raised by any completion other than OK (R254); commands to a disabled TGU complete NOT_LOADED. -/
def State.tguCmd (s : State) (g op : Nat) (k : State → Queue → Bytes → State × St × Nat) : State :=
  s.execCmd g op (fun q b =>
    let r := if s.flag Reg.TGU_CTL 0 = false then (s, St.notLoaded, 0) else k s q b
    (if r.2.1 = .ok then r.1 else r.1.raise tguPage 1, r.2.1, r.2.2))

/-- Answer with the first status that applies, else go on. -/
def firstStop (s : State) (l : List (Option St)) (k : State × St × Nat) : State × St × Nat :=
  match l.findSome? id with
  | some e => (s, e, 0)
  | none => k

/-- A status when a condition fails. -/
def stopIf (b : Bool) (e : St) : Option St := if b then some e else none

/-! ## Images -/

/-- Every pair of neighbours satisfies r. -/
def chain {α : Type} (r : α → α → Bool) : List α → Bool
  | a :: b :: t => r a b && chain r (b :: t)
  | _ => true

/-- A 32-bit field in which all ones mean none. -/
def orNone (n : Nat) : Option Nat := if n = 0xFFFFFFFF then none else some n

/-- Tokens that are neither special nor byte tokens, with their strings (R228). -/
def State.matchables (s : State) (v : Voc) : List (Nat × Bytes) :=
  ((List.range v.vocab).filter (fun t => !s.tokSpecial v t && !isByteTok v.byteBase t)).map (fun t => (t, s.tokStr v t))

/-- Nodes of the byte trie: one per distinct prefix. -/
def trieNodes (l : List Bytes) : Nat := ((l.map (fun b => (List.range (b.length + 1)).map (fun i => b.take i))).flatten.eraseDups).length

/-- The checks of R229. -/
def State.vocOk (s : State) (v : Voc) (strBytes : Nat) : Bool :=
  let h := s.ld v.img 64
  leAt h 0 4 == 0x56435849 && zeroAt h 32 32 && decide (1 ≤ v.vocab) && decide (v.vocab ≤ 65536) &&
  (match v.unk with | none => true | some u => decide (u < v.vocab)) &&
  (match v.byteBase with | none => true | some b => decide (b + 255 < v.vocab)) &&
  (List.range v.vocab).all (fun t =>
    let e := s.vocEntry v.img t
    let len := byteAt e 4
    let special := byteAt e 5 % 2 == 1
    decide (byteAt e 5 < 2) && zeroAt e 6 2 && decide (leAt e 0 4 + len ≤ strBytes) && (!special || len == 0) &&
    (match v.byteBase with
     | some b => if isByteTok v.byteBase t then s.tokStr v t == [BitVec.ofNat 8 (t - b)] else special || len != 0
     | none => special || len != 0)) &&
  (let m := (s.matchables v).map (·.2)
   m.eraseDups.length == m.length)

def State.matchNodes (s : State) : Nat := (s.vocs.map (fun (e : Nat × Voc) => if e.2.noMatch then 0 else e.2.nodes)).sum

def State.effVocLoad (s : State) (q : Queue) (b : Bytes) : State × St × Nat :=
  let img := leAt b 0 8
  let slot := byteAt b 8
  let noMatch := byteAt b 9 % 2 == 1
  let h := s.ld img 64
  let vocab := leAt h 4 4
  let strBytes := leAt h 28 4
  let v : Voc := { img := img, vocab := vocab, tag := BitVec.ofNat 64 (leAt h 8 8), unk := orNone (leAt h 16 4),
                   byteBase := orNone (leAt h 20 4), strOfs := leAt h 24 4, noMatch := noMatch, nodes := 0 }
  let strs := (s.matchables v).map (·.2)
  let nodes := if noMatch then 0 else trieNodes strs
  firstStop s
    [ stopIf (!(decide (slot < 8) && decide (byteAt b 9 < 2) && zeroAt b 10 6 && zeroAt b 18 2 && zeroAt b 24 40)) .badCmd,
      stopIf (s.voc slot).isSome .busy, s.memStop q img 64 false,
      stopIf (leAt h 0 4 != 0x56435849 || vocab == 0 || decide (65536 < vocab)) .badImage,
      s.memStop q (img + 64) (8 * vocab) false, s.memStop q (img + v.strOfs) strBytes false,
      stopIf (!s.vocOk v strBytes) .badImage,
      stopIf (!noMatch && (strs.any (fun x => decide (32 < x.length)) || decide (262144 < nodes))) .tooBig,
      stopIf (decide (s.fld Reg.MATCH_KB 15 0 * 1024 < (s.matchNodes + nodes) * 8)) .noSpace ]
    ({ s with vocs := s.vocs.insert slot { v with nodes := nodes } }, .ok, nodes)

/-- A vocabulary slot is used by a grammar, a lexicon or a context (R253). -/
def State.vocUsed (s : State) (i : Nat) : Bool :=
  s.grms.any (fun (e : Nat × Grm) => e.2.voc == i) || s.lexs.any (fun (e : Nat × Lexicon) => e.2.voc == i) ||
  s.gctxs.any (fun (e : Nat × GCtx) => e.2.voc == i)

/-- An unload: its slot and nothing else in the descriptor, loaded, not in use. -/
def slotOnly (b : Bytes) (wide : Bool) : Bool :=
  zeroAt b 0 8 && (if wide then zeroAt b 10 6 else zeroAt b 9 7) && zeroAt b 18 2 && zeroAt b 24 40

def State.effVocUnload (s : State) (_ : Queue) (b : Bytes) : State × St × Nat :=
  let i := byteAt b 8
  firstStop s [stopIf (!(slotOnly b false && decide (i < 8))) .badCmd, stopIf (s.voc i).isNone .notLoaded, stopIf (s.vocUsed i) .busy]
    ({ s with vocs := s.vocs.erase i }, .ok, 0)

/-- The stage-2 entry of a code point, its CLASS, CCC and MAPLEN (R230). -/
def State.normEntry (s : State) (n : Norm) (cp : Nat) : Nat :=
  let blk := leAt (s.ld (n.img + 64 + 2 * (cp / 256)) 2) 0 2
  leAt (s.ld (n.img + 8768 + 1024 * blk + 4 * (cp % 256)) 4) 0 4

def State.normMap (s : State) (n : Norm) (i : Nat) : Nat := leAt (s.ld (n.img + 8768 + 1024 * n.nb + 4 * i) 4) 0 4

/-- Pair entry i: FIRST, SECOND, COMPOSITE. -/
def State.normPair (s : State) (n : Norm) (i : Nat) : Nat × Nat × Nat :=
  let b := s.ld (n.img + 8768 + 1024 * n.nb + 4 * n.nm + 12 * i) 12
  (leAt b 0 4, leAt b 4 4, leAt b 8 4)

/-- The checks of R230. -/
def State.normOk (s : State) (n : Norm) : Bool :=
  let h := s.ld n.img 64
  leAt h 0 4 == 0x4E435849 && zeroAt h 20 44 &&
  (List.range 4352).all (fun i => decide (leAt (s.ld (n.img + 64 + 2 * i) 2) 0 2 < n.nb)) &&
  (List.range (256 * n.nb)).all (fun i =>
    let e := leAt (s.ld (n.img + 8768 + 4 * i) 4) 0 4
    let k := nbits e 20 18
    decide (k ≤ 5) && (k == 0 || k == 5 || decide (nbits e 17 0 + k ≤ n.nm))) &&
  (List.range n.nm).all (fun i => let c := s.normMap n i; decide (c ≤ 0x10FFFF) && !(decide (0xD800 ≤ c) && decide (c ≤ 0xDFFF))) &&
  chain (fun a b => decide (a.1 < b.1) || (a.1 == b.1 && decide (a.2.1 < b.2.1))) ((List.range n.np).map (s.normPair n))

def State.effNormLoad (s : State) (q : Queue) (b : Bytes) : State × St × Nat :=
  let img := leAt b 0 8
  let slot := byteAt b 8
  let h := s.ld img 64
  let n : Norm := { img := img, nb := leAt h 4 4, nm := leAt h 8 4, np := leAt h 12 4 }
  firstStop s
    [ stopIf (!(decide (slot < 4) && zeroAt b 9 7 && zeroAt b 18 2 && zeroAt b 24 40)) .badCmd,
      stopIf (s.norms.look slot).isSome .busy, s.memStop q img 64 false, stopIf (leAt h 0 4 != 0x4E435849) .badImage,
      s.memStop q img (8768 + 1024 * n.nb + 4 * n.nm + 12 * n.np) false, stopIf (!s.normOk n) .badImage ]
    ({ s with norms := s.norms.insert slot n }, .ok, 0)

def State.effNormUnload (s : State) (_ : Queue) (b : Bytes) : State × St × Nat :=
  let i := byteAt b 8
  firstStop s
    [ stopIf (!(slotOnly b false && decide (i < 4))) .badCmd, stopIf (s.norms.look i).isNone .notLoaded,
      stopIf (s.gctxs.any (fun (e : Nat × GCtx) => e.2.norm == some i)) .busy ]
    ({ s with norms := s.norms.erase i }, .ok, 0)

/-- The checks of R237 on one state record. -/
def State.gstateOk (s : State) (g : Grm) (size vocab st : Nat) : Bool :=
  let ofs := leAt (s.ld (g.img + g.indexOfs + 4 * st) 4) 0 4
  let h := s.ld (g.img + ofs) 8
  let nr := leAt h 2 2
  let nc := byteAt h 1
  ofs % 8 == 0 && decide (ofs + 8 ≤ size) && decide (byteAt h 0 < 2) && decide (nc ≤ 3) && decide (nr ≤ 16384) && zeroAt h 4 4 &&
  decide (ofs + 8 + 8 * (nr + nc) ≤ size) &&
  (let r := s.gstate g st
   r.ranges.all (fun e => decide (e.1 ≤ e.2.1) && decide (e.2.1 < vocab) && decide (e.2.2 < g.nstates)) &&
   chain (fun (a b : Nat × Nat × Nat) => decide (a.2.1 < b.1)) r.ranges && r.calls.all (fun c => decide (c.2 < g.nstates)) &&
   (List.range nc).all (fun i => zeroAt (s.ld (g.img + ofs + 8 + 8 * (nr + i)) 8) 1 3))

def State.effGrmLoad (s : State) (q : Queue) (b : Bytes) : State × St × Nat :=
  let img := leAt b 0 8
  let slot := leAt b 8 2
  let h := s.ld img 64
  let size := leAt h 32 4
  let g : Grm := { img := img, nstates := leAt h 4 4, tag := BitVec.ofNat 64 (leAt h 8 8), start := leAt h 24 4,
                   indexOfs := leAt h 28 4, voc := byteAt b 10 }
  let v := s.voc g.voc
  let vocab := match v with | some v => v.vocab | none => 0
  let states := (s.grms.map (fun (e : Nat × Grm) => e.2.nstates)).sum
  firstStop s
    [ stopIf (!(decide (slot < 256) && decide (g.voc < 8) && zeroAt b 11 5 && zeroAt b 18 2 && zeroAt b 24 40)) .badCmd,
      stopIf (s.grm slot).isSome .busy, stopIf v.isNone .notLoaded, s.memStop q img 64 false,
      stopIf (leAt h 0 4 != 0x47435849 || g.nstates == 0 || decide (4194304 < g.nstates) || !zeroAt h 36 28 || decide (size < 64)
        || decide (g.nstates ≤ g.start) || decide (size < g.indexOfs + 4 * g.nstates)) .badImage,
      s.memStop q img size false,
      stopIf (match v with | some v => decide (v.tag.toNat ≠ leAt h 16 8) | none => false) .mismatch,
      stopIf (!(List.range g.nstates).all (s.gstateOk g size vocab)) .badImage,
      stopIf (decide (4194304 < states + g.nstates)) .noSpace ]
    ({ s with grms := s.grms.insert slot g }, .ok, g.nstates)

def State.effGrmUnload (s : State) (_ : Queue) (b : Bytes) : State × St × Nat :=
  let i := leAt b 8 2
  firstStop s
    [ stopIf (!(slotOnly b true && decide (i < 256))) .badCmd, stopIf (s.grm i).isNone .notLoaded,
      stopIf (s.gctxs.any (fun (e : Nat × GCtx) => e.2.grammar == some i)) .busy ]
    ({ s with grms := s.grms.erase i }, .ok, 0)

def State.lexBytes (s : State) : Nat := (s.lexs.map (fun (e : Nat × Lexicon) => e.2.bytes)).sum

def State.effLexRegister (s : State) (q : Queue) (b : Bytes) : State × St × Nat :=
  let x : Lexicon := { base := leAt b 0 8, bytes := leAt b 24 8, root := leAt b 12 4, voc := byteAt b 9 }
  let i := byteAt b 8
  firstStop s
    [ stopIf (!(zeroAt b 10 2 && zeroAt b 18 2 && zeroAt b 32 32 && x.base % 8 == 0 && decide (x.voc < 8))) .badCmd,
      stopIf (s.lexs.look i).isSome .busy, stopIf (s.voc x.voc).isNone .notLoaded,
      stopIf (decide (2147483648 < s.lexBytes + x.bytes)) .noSpace, s.memStop q x.base x.bytes false ]
    ({ s with lexs := s.lexs.insert i x }, .ok, 0)

def State.effLexUnregister (s : State) (_ : Queue) (b : Bytes) : State × St × Nat :=
  let i := byteAt b 8
  firstStop s
    [ stopIf (!slotOnly b false) .badCmd, stopIf (s.lexs.look i).isNone .notLoaded,
      stopIf (s.gctxs.any (fun (e : Nat × GCtx) => e.2.threads.any (fun t => match t with
        | .lex l _ _ => l == i
        | _ => false))) .busy ]
    ({ s with lexs := s.lexs.erase i }, .ok, 0)

/-! ## The tokenizer (R231 to R235) -/

/-- A code point of the input, or an invalid unit kept for byte tokens, with the source bytes it comes from. -/
structure TCp where
  cp : Nat
  kept : Option Bytes := none
  lo : Nat
  hi : Nat

/-- Decode UTF-8 (R232): the code points, and where the invalid units lie. -/
def u8decode (bytefb : Bool) : Nat → Nat → Bytes → List TCp × List Nat
  | 0, _, _ => ([], [])
  | _, _, [] => ([], [])
  | fuel + 1, i, b =>
    let inv := fun (n : Nat) =>
      let r := u8decode bytefb fuel (i + n) (b.drop n)
      (({ cp := 0xFFFD, kept := if bytefb then some (b.take n) else none, lo := i, hi := i + n } : TCp) :: r.1, i :: r.2)
    match u8scan b with
    | .char n cp =>
      let r := u8decode bytefb fuel (i + n) (b.drop n)
      (({ cp := cp, lo := i, hi := i + n } : TCp) :: r.1, r.2)
    | .bad n => inv n
    | .short => inv b.length

def State.classOf (s : State) (n : Option Norm) (c : TCp) : Nat :=
  match n with
  | none => 0
  | some n => nbits (s.normEntry n c.cp) 31 29

/-- CCC of a code point; a kept unit stands as a starter. -/
def State.cccOf (s : State) (n : Norm) (c : TCp) : Nat := if c.kept.isSome then 0 else nbits (s.normEntry n c.cp) 28 21

/-- Pass 1: folding. -/
def State.foldCps (s : State) (n : Norm) (l : List TCp) : List TCp :=
  (l.map (fun c =>
    if c.kept.isSome then [c]
    else
      let e := s.normEntry n c.cp
      match nbits e 20 18 with
      | 0 => [c]
      | 5 => []
      | k => (List.range k).map (fun i => { c with cp := s.normMap n (nbits e 17 0 + i) }))).flatten

/-- Insert behind every element of at most the same CCC: a stable insertion sort. -/
def insertCcc (f : TCp → Nat) (c : TCp) : List TCp → List TCp
  | [] => [c]
  | d :: t => if f c < f d then c :: d :: t else d :: insertCcc f c t

/-- A run put in order, or left as it is and noted when longer than 32 (pass 2). -/
def orderRun (f : TCp → Nat) (run : List TCp) : List TCp × List Nat :=
  if run.length ≤ 32 then (run.foldl (fun l c => insertCcc f c l) [], [])
  else (run, [(run.map TCp.lo).headD 0])

/-- Pass 2: reordering; `run` is the run under way. -/
def reorderGo (f : TCp → Nat) (run : List TCp) : List TCp → List TCp × List Nat
  | [] => orderRun f run
  | c :: t =>
    if f c = 0 then
      let r := orderRun f run
      let x := reorderGo f [] t
      (r.1 ++ c :: x.1, r.2 ++ x.2)
    else reorderGo f (run ++ [c]) t

/-- Pass 3: composition. `pre` is what is final, latest first; `st` the last starter and `mid` what follows it. -/
def State.composeGo (s : State) (n : Norm) (pairs : List (Nat × Nat × Nat)) (pre : List TCp) (st : Option TCp) (mid : List TCp) :
    List TCp → List TCp
  | [] => pre.reverse ++ st.toList ++ mid
  | c :: t =>
    let k := s.cccOf n c
    match st with
    | none => if k = 0 ∧ c.kept.isNone then s.composeGo n pairs pre (some c) [] t else s.composeGo n pairs (c :: pre) none [] t
    | some x =>
      if c.kept.isSome then s.composeGo n pairs (c :: (mid.reverse ++ x :: pre)) none [] t
      else
        let blocked := mid.any (fun d => s.cccOf n d == 0 || decide (k ≤ s.cccOf n d))
        match (if blocked then none else pairs.find? (fun p => p.1 == x.cp && p.2.1 == c.cp)) with
        | some p => s.composeGo n pairs pre (some { cp := p.2.2, lo := min x.lo c.lo, hi := max x.hi c.hi }) mid t
        | none => if k = 0 then s.composeGo n pairs (mid.reverse ++ x :: pre) (some c) [] t
                  else s.composeGo n pairs pre (some x) (mid ++ [c]) t

/-- The three passes (R231): code points, and the runs left unsorted. -/
def State.normalise (s : State) (n : Norm) (l : List TCp) : List TCp × List Nat :=
  let r := reorderGo (s.cccOf n) [] (s.foldCps n l)
  (s.composeGo n ((List.range n.np).map (s.normPair n)) [] none [] r.1, r.2)

/-- Bytes of a code point in a piece. -/
def TCp.bytes (c : TCp) : Bytes := c.kept.getD (u8enc c.cp)

/-- Cut into pieces (R233); `cur` is the piece under way, `len` its bytes and `prev` the class of the code point before. -/
def cutPieces (cls : TCp → Nat) (cur : List TCp) (len : Nat) (prev : Option Nat) : List TCp → List (List TCp)
  | [] => if cur = [] then [] else [cur]
  | c :: t =>
    let emit := fun (l : List (List TCp)) => if cur = [] then l else cur :: l
    if c.kept.isSome then emit ([c] :: cutPieces cls [] 0 none t)
    else
      let k := cls c
      let n := c.bytes.length
      let starts := cur.isEmpty || (k != 7 && (k == 6 || prev != some k)) || decide (4096 < len + n)
      if starts then emit (cutPieces cls [c] n (some k) t) else cutPieces cls (cur ++ [c]) (len + n) (some k) t

/-- The longest match at the head of a byte string. -/
def longest (m : List (Nat × Bytes)) (b : Bytes) : Option (Nat × Nat) :=
  m.foldl (fun (best : Option (Nat × Nat)) e =>
    if e.2.isPrefixOf b ∧ e.2 ≠ [] ∧ (match best with | some x => decide (x.2 < e.2.length) | none => true) = true
    then some (e.1, e.2.length) else best) none

/-- Tokens of a piece's bytes and its unmatched characters (R234). -/
def tokBytes (v : Voc) (m : List (Nat × Bytes)) : Nat → Bytes → List Nat × Nat
  | 0, _ => ([], 0)
  | _, [] => ([], 0)
  | fuel + 1, b =>
    match longest m b with
    | some (t, n) =>
      let r := tokBytes v m fuel (b.drop n)
      (t :: r.1, r.2)
    | none =>
      let n := match u8scan b with
        | .char n _ => n
        | _ => 1
      let r := tokBytes v m fuel (b.drop n)
      match v.byteBase with
      | some base => ((b.take n).map (fun x => base + x.toNat) ++ r.1, r.2)
      | none => (v.unk.toList ++ r.1, r.2 + 1)

/-- A tokenized piece: tokens, unknown characters, and its span of source bytes. -/
structure Piece where
  toks : List Nat
  unk : Nat
  lo : Nat
  hi : Nat

def piece (v : Voc) (m : List (Nat × Bytes)) (l : List TCp) : Piece :=
  let r := match l with
    | [{ kept := some b, .. }] => (match v.byteBase with
        | some base => (b.map (fun (x : Byte) => base + x.toNat), 0)
        | none => ((b.map (fun (_ : Byte) => v.unk.toList)).flatten, 0))
    | _ => let b := (l.map TCp.bytes).flatten
           tokBytes v m b.length b
  { toks := r.1, unk := r.2, lo := (l.map TCp.lo).foldl min ((l.map TCp.lo).headD 0), hi := (l.map TCp.hi).foldl max 0 }

/-- A text tokenized: pieces, invalid units and unsorted runs by source position. -/
def State.tokenize (s : State) (v : Voc) (norm : Option Norm) (mode : Nat) (b : Bytes) : List Piece × List Nat × List Nat :=
  let d := u8decode (mode.testBit 1) b.length 0 b
  let n := match norm with
    | some n => if mode.testBit 0 then s.normalise n d.1 else (d.1, [])
    | none => (d.1, [])
  ((cutPieces (s.classOf norm) [] 0 none n.1).map (piece v (s.matchables v)), d.2, n.2)

/-- A cut before piece i from which a new command gives the same output: no earlier code point comes from behind it (R235). -/
def cleanCut (l : List Piece) (i : Nat) : Bool :=
  (l.take i).all (fun p => (l.drop i).all (fun r => decide (p.hi ≤ r.lo)))

/-- Words of the first i pieces. -/
def wordsOf (l : List Piece) (i : Nat) : List Nat := ((l.take i).map Piece.toks).flatten

/-- The pieces that fit in `cap` words, up to a clean cut. -/
def fitting (l : List Piece) (cap : Nat) : Nat :=
  ((List.range (l.length + 1)).reverse.find? (fun i => decide ((wordsOf l i).length ≤ cap) && cleanCut l i)).getD 0

/-- Entries of a LIST input: source position and bytes; a separator at the very end begins no further entry. -/
def listEntries (i : Nat) (cur : Bytes) : Bytes → List (Nat × Bytes)
  | [] => if cur = [] then [] else [(i, cur.reverse)]
  | b :: t => if b = 0x0A then (i, cur.reverse) :: listEntries (i + cur.length + 1) [] t else listEntries i (b :: cur) t

/-- What a TOKENIZE has done: words, source bytes, invalid units, unknown characters and unsorted runs counted, and whether all fit. -/
structure TokRes where
  words : List Nat := []
  used : Nat := 0
  inv : Nat := 0
  unk : Nat := 0
  skip : Nat := 0
  all : Bool := true

def State.tokPlain (s : State) (v : Voc) (norm : Option Norm) (mode cap : Nat) (b : Bytes) : TokRes :=
  let r := s.tokenize v norm mode b
  let k := fitting r.1 cap
  let all := k == r.1.length
  let used := if all then b.length else ((r.1.drop k).map Piece.lo).foldl min b.length
  { words := wordsOf r.1 k, used := used, inv := (r.2.1.filter (fun i => decide (i < used))).length,
    unk := ((r.1.take k).map Piece.unk).sum, skip := (r.2.2.filter (fun i => decide (i < used))).length, all := all }

def State.tokList (s : State) (v : Voc) (norm : Option Norm) (mode cap : Nat) (b : Bytes) : TokRes :=
  (listEntries 0 [] b).foldl (fun (a : TokRes) e =>
    if a.all = false then a
    else if 4096 < e.2.length then
      (if cap < a.words.length + 1 then { a with all := false }
       else { a with words := a.words ++ [0xFFFF], used := min b.length (e.1 + e.2.length + 1) })
    else
      let r := s.tokenize v norm mode e.2
      let w := wordsOf r.1 r.1.length
      if cap < a.words.length + 1 + w.length then { a with all := false }
      else { words := a.words ++ w.length :: w, used := min b.length (e.1 + e.2.length + 1), inv := a.inv + r.2.1.length,
             unk := a.unk + (r.1.map Piece.unk).sum, skip := a.skip + r.2.2.length, all := true }) {}

/-- The tokenizer's counters. -/
def State.tokCount (s : State) (r : TokRes) : State :=
  ((((s.count Reg.TGU_CNT_TOK_BYTES r.used).count Reg.TGU_CNT_TOK_TOKENS r.words.length).count Reg.TGU_CNT_INVALID r.inv).count
    Reg.TGU_CNT_UNK r.unk).count Reg.TGU_CNT_REORDER_SKIP r.skip

/-- A normalisation slot of a command: 0xFF for none. -/
def State.normSlot (s : State) (i : Nat) : Option (Option Norm) :=
  if i = 0xFF then some none else (s.norms.look i).map some

def State.effTokenize (s : State) (q : Queue) (b : Bytes) : State × St × Nat :=
  let src := leAt b 0 8
  let n := leAt b 8 4
  let mode := byteAt b 14
  let dst := leAt b 24 8
  let cap := leAt b 32 4
  match s.voc (byteAt b 12), s.normSlot (byteAt b 13) with
  | some v, some norm =>
    firstStop s
      [ stopIf (!(decide (mode < 8) && zeroAt b 15 1 && zeroAt b 18 2 && zeroAt b 36 28)) .badCmd, stopIf v.noMatch .nomatch,
        s.memStop q src n false, s.memStop q dst (2 * cap) true ]
      (let r := s.ldUnit src n
       let t := if mode.testBit 2 then s.tokList v norm mode cap r.1 else s.tokPlain v norm mode cap r.1
       ((r.2.stUnit dst (t.words.map (toLe 2)).flatten).tokCount t, if t.all then .ok else .full, t.words.length + t.used * 2 ^ 32))
  | _, _ => if decide (mode < 8) && zeroAt b 15 1 && zeroAt b 18 2 && zeroAt b 36 28 then (s, .notLoaded, 0) else (s, .badCmd, 0)

/-! ## Context commands -/

/-- Some index below n that satisfies p, if there is one: which of them is free. -/
def State.pick (s : State) (n : Nat) (p : Nat → Bool) : Option Nat × State :=
  let r := s.fresh
  let k := r.1.toNat % n
  (((List.range n).map (fun i => (k + i) % n)).find? p, r.2)

/-- What stops an opening for an item (R199, R241): UNKNOWN, or SEALED under NONE. -/
def State.itemStop (s : State) (q : Queue) (id : Nat) : Option St :=
  match s.item id with
  | none => some .unknown
  | some it =>
    if !s.owns q it.part then some .unknown
    else if it.sealInfo.isSome ∧ it.pv.lateMode ≠ 1 ∧ it.pv.lateMode ≠ 2 then some .sealed else none

def State.effGctxOpen (s : State) (g : Nat) (q : Queue) (b : Bytes) : State × St × Nat :=
  let item := leAt b 0 8
  let gr := leAt b 8 2
  let p := s.pick 32768 (fun i => (s.gctxs.look i).isNone)
  let ni := byteAt b 11
  firstStop s
    [ stopIf (!(decide (gr < 256 ∨ gr = 0xFFFF) && decide (byteAt b 10 < 8) && decide (byteAt b 12 < 4) && decide (byteAt b 13 ≤ 8) &&
        zeroAt b 18 2 && zeroAt b 38 26)) .badCmd,
      s.itemStop q item,
      stopIf ((gr != 0xFFFF && (s.grm gr).isNone) || (s.voc (byteAt b 10)).isNone || (s.normSlot ni).isNone) .notLoaded,
      s.memStop q (leAt b 24 8) (leAt b 32 4) true, stopIf p.1.isNone .noSpace ]
    (match p.1 with
     | none => (s, .noSpace, 0)
     | some i =>
       let s := p.2
       let gen := s.gctxGen.get 0 i
       let own := q.ownerOf
       let c : GCtx :=
         { handle := gen * 32768 + i, item := item, field := leAt b 14 2, grammar := if gr = 0xFFFF then none else some gr,
           voc := byteAt b 10, norm := if ni = 0xFF then none else some ni, mode := byteAt b 12, draftMax := byteAt b 13,
           endTok := leAt b 36 2, text := leAt b 24 8, cap := leAt b 32 4, queue := some g, cmd := q.cur.getD 0,
           part := own.1, vi := own.2 }
       let x := match c.grmOf s with
         | none => ({} : Build)
         | some gm => s.closure (some gm) [.dfa gm.start]
       let c := { (c.noteBuild x) with threads := x.out }
       let s := { s with gctxGen := s.gctxGen.set 0 i ((gen + 1) % 2 ^ 17) }
       let s := s.setQueue g { s.queue g with reserved := (s.queue g).reserved + 2 }
       ((s.noteBuild x).draft i c, .ok, c.handle))

/-- A command on an OPEN context: STALE, BUSY when BOUND, else `k`. -/
def State.onGctx (s : State) (q : Queue) (b : Bytes) (ok : Bool) (k : Nat → GCtx → State × St × Nat) : State × St × Nat :=
  if !ok then (s, .badCmd, 0)
  else match s.gctxOf q (leAt b 0 4) with
    | none => (s, .stale, 0)
    | some (i, c) => if c.bound then (s, .busy, 0) else k i c

def State.effGctxClose (s : State) (q : Queue) (b : Bytes) : State × St × Nat :=
  s.onGctx q b (zeroAt b 4 12 && zeroAt b 18 2 && zeroAt b 24 40) (fun i c => ((s.closeCtx i 2 0 false).refresh c.item, .ok, 0))

/-- The state after token t, which END_TOK leaves as it is (R247). -/
def State.ctxNext (s : State) (c : GCtx) (t : Nat) : Build :=
  if c.grammar.isNone ∨ t = c.endTok then { out := c.threads } else s.threadStep (c.grmOf s) c.threads t

/-- ADVANCE: tokens one by one while the mask allows them. -/
def State.advanceCtx (s : State) (i : Nat) : List Nat → State × Nat
  | [] => (s, 0)
  | t :: l =>
    match s.gctxs.look i with
    | none => (s, 0)
    | some c =>
      if c.allows s c.threads t then
        let x := s.ctxNext c t
        let r := ((s.noteBuild x).commitTokens i (c.noteBuild x) x.out [t]).advanceCtx i l
        (r.1, r.2 + 1)
      else (s, 0)

def State.effAdvance (s : State) (q : Queue) (b : Bytes) : State × St × Nat :=
  let n := byteAt b 4
  s.onGctx q b (zeroAt b 5 11 && zeroAt b 18 2 && zeroAt b 56 8 && decide (1 ≤ n) && decide (n ≤ 16)) (fun i _ =>
    let r := s.advanceCtx i ((List.range n).map (fun k => leAt b (24 + 2 * k) 2))
    (r.1, if r.2 = n then .ok else .rejected, r.2))

/-- MASK also takes a BOUND context (R250). -/
def State.effMask (s : State) (q : Queue) (b : Bytes) : State × St × Nat :=
  let dst := leAt b 24 8
  if !(zeroAt b 4 12 && zeroAt b 18 2 && zeroAt b 32 32 && dst % 64 == 0) then (s, .badCmd, 0)
  else match s.gctxOf q (leAt b 0 4) with
    | none => (s, .stale, 0)
    | some (_, c) => firstStop s [s.memStop q dst 8192 true] (s.stUnit dst (c.maskBytes s c.threads), .ok, 0)

/-- Run tokens from a state while they are allowed: the last state, the tokens taken, the overflows and bad nodes. -/
def State.runToks (s : State) (c : GCtx) (b : Build) : List Nat → Build × Nat
  | [] => (b, 0)
  | t :: l =>
    if c.allows s b.out t then
      let x := s.ctxNext { c with threads := b.out } t
      let r := s.runToks c { x with over' := b.over' + x.over', bad := b.bad + x.bad } l
      (r.1, r.2 + 1)
    else (b, 0)

def State.effCheck (s : State) (q : Queue) (b : Bytes) : State × St × Nat :=
  let n := leAt b 8 4
  let src := leAt b 24 8
  s.onGctx q b (zeroAt b 4 4 && zeroAt b 12 4 && zeroAt b 18 2 && zeroAt b 32 32 && decide (n ≤ 65536)) (fun i c =>
    match s.voc c.voc with
    | none => (s, .notLoaded, 0)
    | some v =>
      firstStop s [stopIf v.noMatch .nomatch, s.memStop q src n false]
        (let norm := c.norm.bind (fun k => s.norms.look k)
         let txt := s.ldUnit src n
         let t := s.tokPlain v norm c.mode (4 * 4 * 65536) txt.1
         let s := txt.2.tokCount t
         let st0 : Build := match c.grmOf s with
           | none => {}
           | some g => s.closure (some g) [.dfa g.start]
         let r := s.runToks c st0 t.words
         let ok := r.2 == t.words.length && (c.grammar.isNone || c.accepting s r.1.out)
         let s := (s.noteBuild r.1).commitTokens i (c.noteBuild r.1) r.1.out t.words
         let s := match s.gctxs.look i with
           | none => s
           | some c => s.setGCtx i { c with tokens := c.tokens - (t.words.length - r.2) }
         ((s.closeCtx i (if ok then 0 else 1) 0 ok).refresh c.item, .ok, t.words.length)))

/-- A draft that is due (R245). -/
def State.draftRow (s : State) (i : Nat) : State :=
  match s.gctxs.look i with
  | none => s
  | some c => if c.drafting then s.draft i c else s

/-! ## GRM_DONE and the page (R251, R254) -/

/-- A write of GRM_DONE_HI. -/
def State.grmDone (s : State) (v : Word) : State :=
  let id := (s.rd Reg.GRM_DONE_LO).toNat + v.toNat * 2 ^ 32
  match s.item id with
  | none => s.bump Reg.TGU_CNT_GRM_STALE
  | some it =>
    if it.done.getLsbD 3 then s.bump Reg.TGU_CNT_GRM_STALE
    else (s.setItem id { it with grmWritten := true }).refresh id

/-- A range lies wholly in commons. -/
def inCommons (a n : Nat) : Bool := decide (commonsBase ≤ a) && decide (a + n ≤ 0x001003800000)

/-- Two ranges do not overlap. -/
def disjoint (a n b m : Nat) : Bool := decide (a + n ≤ b) || decide (b + m ≤ a) || n == 0 || m == 0

/-- The checks of an enable (R254). -/
def State.tguOk (s : State) : Bool :=
  let c := s.addr48 Reg.CTX_BASE_LO Reg.CTX_BASE_HI
  let m := s.addr48 Reg.MATCH_BASE_LO Reg.MATCH_BASE_HI
  let g := s.addr48 Reg.GCACHE_BASE_LO Reg.GCACHE_BASE_HI
  let mk := s.fld Reg.MATCH_KB 15 0
  let gk := s.fld Reg.GCACHE_KB 15 0
  inCommons c 0x200000 && inCommons m (mk * 1024) && inCommons g (gk * 1024) && decide (mk ≤ 16384) && decide (256 ≤ gk) &&
  disjoint c 0x200000 m (mk * 1024) && disjoint c 0x200000 g (gk * 1024) && disjoint m (mk * 1024) g (gk * 1024)

/-- A write of TGU_CTL. -/
def State.tguCtl (s : State) (v : Word) : State :=
  if bit v 0 then
    (if s.flag Reg.TGU_CTL 0 then s
     else if s.tguOk then (s.wr Reg.TGU_CTL 1).setFlag Reg.TGU_STS 31 false else s.setFlag Reg.TGU_STS 31 true)
  else if s.gctxs ≠ [] then s.setFlag Reg.TGU_STS 31 true
  else s.wr Reg.TGU_CTL 0

/-- A write to one of the region registers (R254): refused while the TGU is enabled. -/
def State.tguRegion (s : State) (req : Req) (a : Nat) (v : Word) : State :=
  if s.flag Reg.TGU_CTL 0 then s.setFlag Reg.TGU_STS 31 true else (s.store req a v).1

/-- The views of TGU_STS, TGU_LOADED, LEX_USED and CTX_OPEN. -/
def State.tguView (s : State) (a : Nat) : Word :=
  if a = Reg.TGU_STS then putBits (s.rd a) 22 0 ((s.grms.map (fun (e : Nat × Grm) => e.2.nstates)).sum)
  else if a = Reg.TGU_LOADED then
    BitVec.ofNat 32 ((s.vocs.map (fun (e : Nat × Voc) => 2 ^ e.1)).sum + 256 * (s.norms.map (fun (e : Nat × Norm) => 2 ^ e.1)).sum)
  else if a = Reg.LEX_USED then BitVec.ofNat 32 (s.lexs.length * 65536 + ceilDiv s.lexBytes 1048576)
  else if a = Reg.CTX_OPEN then BitVec.ofNat 32 s.gctxs.length
  else s.rd a

end Sys2Proof.Machine
end

