-- ==== Sys2Proof/Machine/Slices.lean ====
section
/-! DEFINITION. What a slice lets an instance do (R346), and how a switch drains the units and stops the tiles (R355 to R357). -/
namespace Sys2Proof.Machine

/-- Partition page of partition p. -/
def partPage (p : Nat) : Nat := 0x311000 + 0x1000 * p

/-- The instance whose slice it is, for accesses to tiles and units: the outgoing one until TRANSFER, the incoming one from ADAPT. -/
def Part.sliceOf (P : Part) : Option Nat :=
  match P.phase with
  | .run | .adapt => some P.runVi
  | .drain | .yield => some (P.outVi.getD P.runVi)
  | _ => none

/-- Instance v of partition p runs (R346). -/
def State.instRuns (s : State) (p v : Nat) : Bool := (s.part p).sliceOf == some v

/-- An access outside the slice is counted (R346). -/
def State.sliceViol (s : State) : State := (s.bump Reg.SCH_CNT_SLICE_VIOL).raise 0x310000 2

/-- The bytes touch a tile window of partition p, or the page of one of its attention units, and instance v does not run (R346). -/
def State.sliceBlocks (s : State) (p v a n : Nat) : Bool :=
  let P := s.part p
  n != 0 && !s.instRuns p v &&
  ((decide (tileBase < a + n) && decide (a < 0x001114000000) &&
      (range' ((a - tileBase) / 0x200000) ((a + n - 1 - tileBase) / 0x200000 + 1 - (a - tileBase) / 0x200000)).any (fun t => P.tiles.testBit t)) ||
   (List.range 8).any (fun u => P.aus.testBit u && decide (regBase + 0x201000 + 0x1000 * u < a + n) && decide (a < regBase + 0x202000 + 0x1000 * u)))

/-- The attention units serve a command with opcode `op` of the instance of queue q (R346, R355): it runs, no STEP_OPEN in DRAIN or
later, nothing in ADAPT. -/
def State.auServes (s : State) (q : Queue) (op : Nat) : Bool :=
  let o := q.ownerOf
  if 8 ≤ o.1 then true
  else s.instRuns o.1 o.2 && (match (s.part o.1).phase with
    | .run => true
    | .adapt => false
    | _ => op != 0x47)

/-- Tile t is in RUN. -/
def State.tileRuns (s : State) (t : Nat) : Bool := s.fld (Reg.TILE_STS t) 31 30 == 1

/-- The tiles, units and cores of a partition, ascending. -/
def Part.tileList (P : Part) : List Nat := (List.range 160).filter (fun t => P.tiles.testBit t)
def Part.auList (P : Part) : List Nat := (List.range 8).filter (fun u => P.aus.testBit u)
def Part.coreList (P : Part) : List Nat := (List.range 96).filter (fun c => P.cores.testBit c)

/-- YIELD ends when no tile of the partition is in RUN: a switch goes on to TRANSFER, a pass to ADAPT (R355, R360). -/
def State.yieldCheck (s : State) (p : Nat) : State :=
  let P := s.part p
  if P.phase = .yield ∧ P.tileList.all (fun t => !s.tileRuns t) then
    let s := P.tileList.foldl (fun s t => s.updTile t (fun x => { x with yieldReq := false })) s
    if P.pass then
      (s.setPart p { P with phase := .adapt, resume := P.tileList.filter (fun t => (s.tile t).yielded || P.late.contains t) }).raise (partPage p) 0
    else s.setPart p { P with phase := .transfer }
  else s

/-- YIELD begins: the tiles in RUN are asked to stop at their next mark (R355). -/
def State.startYield (s : State) (p : Nat) : State :=
  let P := s.part p
  let s := P.tileList.foldl (fun s t => if s.tileRuns t then s.updTile t (fun x => { x with yieldReq := true }) else s) s
  (s.setPart p { P with phase := .yield, phaseFrom := s.now, late := [] }).yieldCheck p

/-- DRAIN ends when no step of the partition's units is open (R355). -/
def State.drainCheck (s : State) (p : Nat) : State :=
  let P := s.part p
  if P.phase = .drain ∧ P.auList.all (fun u => ((s.aunits.get {} u).step).isNone) then s.startYield p else s

/-- The partition of tile t or unit u tests whether its phase ends. -/
def State.tileStopped (s : State) (t : Nat) : State :=
  match s.tileOwner t with
  | some p => s.yieldCheck p
  | none => s
def State.stepClosed (s : State) (u : Nat) : State :=
  match s.auOwner u with
  | some p => s.drainCheck p
  | none => s

/-! ## Placement (R348) -/

/-- A tile is free when it is in RUN, waits at a DEQ and has an empty queue (R348). -/
def State.tileFree (s : State) (t : Nat) : Bool :=
  s.tileRuns t && !s.tileFenced t && !(s.tile t).stopping && (s.tile t).queue.isEmpty &&
  s.byte (tileWin t + s.fld (Reg.TILE_PC t) 19 5 * 32) == 4

/-- Waiting descriptors of the running instance go to free tiles, the lowest first. -/
def State.servePlace (s : State) (p : Nat) : State :=
  let P := s.part p
  if P.phase ≠ .run then s
  else (P.tileList.filter s.tileFree).foldl (fun s t =>
    match (s.vi p P.runVi).placeQ with
    | [] => s
    | d :: rest => (s.updVi p P.runVi (fun x => { x with placeQ := rest })).queuePort t (toLe 64 d.toNat)) s

/-- A write to the placement port of instance v (R348). -/
def State.placePort (s : State) (p v : Nat) (b : Bytes) : State :=
  let P := s.part p
  let x := s.vi p v
  if b.length ≠ 64 ∨ 64 ≤ x.placeQ.length ∨ P.state ≠ .active ∨ P.nvis ≤ v ∨ x.state = .resetting then
    (s.bump (Reg.PART_CNT_PLACE_DROP p)).raise (partPage p) 6
  else (s.setVi p v { x with placeQ := x.placeQ ++ [BitVec.ofNat 512 (leNat b)] }).servePlace p

end Sys2Proof.Machine
end

