-- ==== Sys2Proof/Machine/Intake.lean ====
section
/-! DEFINITION. Stream Intake (06): stream contexts, RTP reception, decoding in order, pictures and samples, eyespots, transforms,
batches and the shadow table. -/
namespace Sys2Proof.Machine

/-! ## Contexts (R113 to R116) -/

def State.ctx (s : State) (c : Nat) : Ctx := s.ctxs.get {} c
def State.setCtx (s : State) (c : Nat) (x : Ctx) : State := { s with ctxs := s.ctxs.set {} c x }
def State.updCtx (s : State) (c : Nat) (f : Ctx → Ctx) : State := s.setCtx c (f (s.ctx c))

/-- Bits of committed configuration word i (0 CTX_CTL, 1 to 4 CTX_SRC, 5 CTX_MAX, 6 CTX_RATE, 7 CTX_TRACK, 8 CTX_TIME, 9 CTX_PROF,
10 CTX_MAP_RTP, 11 and 12 CTX_MAP_TB). -/
def cfgBits (cfg : List Word) (i hi lo : Nat) : Nat := bits ((cfg.drop i).headD 0) hi lo
def Ctx.f (x : Ctx) (i hi lo : Nat) : Nat := cfgBits x.cfg i hi lo
def Ctx.on (x : Ctx) : Bool := x.f 0 31 31 == 1
def Ctx.h265 (x : Ctx) : Bool := x.f 0 30 30 == 1
def Ctx.espotMax (x : Ctx) : Nat := x.f 7 23 16
def Ctx.retain (x : Ctx) : Nat := x.f 6 23 16

/-- Declared rate of a configuration in luma samples per second (R115). -/
def cfgRate (cfg : List Word) : Nat := ceilDiv (cfgBits cfg 5 29 16 * cfgBits cfg 5 13 0 * cfgBits cfg 6 15 0) 100

/-- Add n to counter word i of context c (R141). -/
def State.ctxCount (s : State) (c i n : Nat) : State :=
  s.updCtx c (fun x => { x with cnt := x.cnt.set i (((x.cnt.drop i).headD 0 + n) % 2 ^ 32) })

/-- The control page's events (R141). -/
def sinPage : Nat := 0x20000

/-- The source number of context c in SRC_MAP (R337), and its partition, 8 for none. -/
def ctxSource (c : Nat) : Nat := 4 + c
def State.ctxOwner (s : State) (c : Nat) : Nat × Nat := (s.srcMap (ctxSource c)).getD (8, 0)
def State.ctxPart (s : State) (c : Nat) : Nat := (s.ctxOwner c).1

/-! ## Batches and handing (R137, R140, R168, R169) -/

/-- The lowest start of n bytes in the sample arena, at a 64-byte boundary and clear of the blocks in use; none when there is no
room (R137; DESIGN CHOICE, log entry 14). -/
def State.arenaFit (s : State) (n : Nat) : Option Nat :=
  let base := s.addr48 Reg.ARENA_BASE_LO Reg.ARENA_BASE_HI
  let top := base + s.fld Reg.ARENA_MB 15 0 * 0x100000
  let starts := base :: s.arena.map (fun e => (e.1 + e.2.1 + 63) / 64 * 64)
  let fits := starts.filter (fun a => decide (base ≤ a) && decide (a + n ≤ top) &&
    s.arena.all (fun e => decide (a + n ≤ e.1) || decide (e.1 + e.2.1 ≤ a)))
  match fits with
  | [] => none
  | a :: t => some (t.foldl min a)

def State.arenaTake (s : State) (a n uid : Nat) : State := { s with arena := (a, n, uid) :: s.arena }
def State.arenaFree (s : State) (uid : Nat) : State := { s with arena := s.arena.filter (fun e => e.2.2 != uid) }

/-- The detection group of partition p: first tile and size (R341); none when the partition has none. -/
def State.detGroup (s : State) (p : Nat) : Option (Nat × Nat) :=
  let g := (s.part p).mask 21 1
  if g ≤ 4 then some ((s.part p).mask 22 1, 2 ^ g) else none

/-- A closed batch or a frame is handed, waits for a full queue or for its instance's slice, or is misrouted (R168, R337, R346). The flag says that it waits. -/
def State.hand1 (s : State) (h : Handing) : State × Bool :=
  let lose := fun (s : State) => ((s.arenaFree h.uid).misroute (h.items.filter (· ≠ 0)), false)
  match (if h.part < 8 then s.detGroup h.part else none) with
  | none => lose s
  | some (first, g) =>
    if s.groupFenced first g then
      ((h.items.filter (· ≠ 0)).foldl (fun s id => s.sealItem id .sourceAbort) (s.arenaFree h.uid), false)  -- R419
    else if (List.range g).all (fun b => s.tileOwner (first + b) == some h.part) then
      if s.groupTakes first g && s.instRuns h.part h.vi then
        let s := s.enqueueGroup first g h.kind h.uid (h.items.filter (· ≠ 0)) h.desc
        (if h.kind = 2 then { s with batchHeld := s.batchHeld.insert h.uid (range' first g) } else s, false)
      else (s, true)
    else lose s

/-- Hand what can be handed, in closing order within each partition (R137). -/
def State.handAll (s : State) : State :=
  let r := s.handing.foldl (fun (acc : State × List Handing) h =>
    if acc.2.any (fun k => k.part == h.part) then (acc.1, acc.2 ++ [h])
    else
      let q := acc.1.hand1 h
      (q.1, if q.2 then acc.2 ++ [h] else acc.2)) ({ s with handing := [] }, [])
  { r.1 with handing := r.2 }

/-- A tile of the group retires its copy of a batch; the arena space is free when all have (R170). -/
def State.batchRetire (s : State) (uid t : Nat) : State :=
  let l := (s.batchHeld.get [] uid).erase t
  if l = [] then ({ s with batchHeld := s.batchHeld.erase uid } : State).arenaFree uid
  else { s with batchHeld := s.batchHeld.insert uid l }

/-- Bucket widths (R136). -/
def bucketWidth (b : Nat) : Nat := 128 * 2 ^ b
def bucketOf (w : Nat) : Nat := (firstBelow 5 (fun b => decide (w ≤ bucketWidth b))).getD 4

/-- A batch closes with a cause (R137, R169) and is handed. -/
def State.closeBatch (s : State) (key cause : Nat) : State :=
  match s.batches.get none key with
  | none => s
  | some b =>
    let no := s.batchNo.get 0 key
    let d := toLe 8 b.hdrs ++ toLe 2 (bucketWidth (key % 8)) ++ toLe 1 b.samples.length ++ toLe 1 cause ++ toLe 4 no ++
      toLe 8 s.now ++ zeros 40
    let h : Handing := { part := key / 8, vi := b.vi, kind := 2, uid := b.uid, items := b.samples.map (·.2), desc := BitVec.ofNat 512 (leNat d) }
    ({ s with batches := s.batches.set none key none, batchNo := s.batchNo.set 0 key ((no + 1) % 2 ^ 32),
              handing := s.handing ++ [h] } : State).handAll

/-- Some item of an open batch has urgency 2 or more (R137). -/
def State.batchUrgent (s : State) (b : Batch) : Bool :=
  b.samples.any (fun e => match s.items.look e.2 with | some it => decide (2 ≤ it.urg) | none => false)

/-- Every open batch that holds an item of urgency 2 or more closes (R137). -/
def State.closeUrgent (s : State) : State :=
  s.batches.foldl (fun s (e : Nat × Option Batch) => match e.2 with
    | some b => if s.batchUrgent b then s.closeBatch e.1 2 else s
    | none => s) s

/-- An item's urgency changes (R21), and batches that hold it may close (R137). -/
def State.urgencyRow (s : State) (id : Nat) : State := (s.urgencyChange id).closeUrgent

/-- BATCH_WAIT_US pass since a batch's first sample (R137). -/
def State.batchWait (s : State) (key : Nat) : State :=
  match s.batches.get none key with
  | some b => if b.opened + s.fld Reg.SIN_CTL 23 8 * 1000 ≤ s.now then s.closeBatch key 1 else s
  | none => s

/-! ## Samples (R128, R132 to R140) -/

/-- A sample header (R139). -/
def sampleHeader (c : Nat) (x : Sample) : Bytes :=
  toLe 8 x.item ++ toLe 8 (tb64 x.stamp) ++ toLe 4 x.ssn ++ toLe 4 x.pn ++ toLe 2 c ++ toLe 1 x.kind ++ toLe 1 x.cause ++ zeros 4 ++
  toLe 2 x.outW ++ toLe 2 x.outH ++ toLe 1 x.espot ++ toLe 1 x.shift ++ zeros 2 ++ toLe 8 (if x.cause = 0 then x.data else 0)

/-- The sample becomes a placeholder (R138), counted. -/
def State.holeCount (s : State) (c cause : Nat) : State :=
  if cause = 0 then s else ((s.ctxCount c (5 + cause) 1).bump Reg.SIN_CNT_PLACEHOLDER).raise sinPage 1

/-- Parameter i of a transform: A, B, C, D, TX, TY, GAIN, OFFSET (R134). -/
def tfAt (tf : List Int) (i : Nat) : Int := (tf.drop i).headD 0

/-- The checks and the halving of R134 and R136 on a crop or re-read sample. -/
def Sample.shape (x : Sample) : Sample :=
  if x.cause ≠ 0 then x
  else if x.outW = 0 ∨ x.outH = 0 ∨ 4096 < x.outW ∨ 4096 < x.outH then { x with cause := 6 }
  else if (x.tf.take 4).any (fun v => decide (0x100000 < v.natAbs)) then { x with cause := 7 }
  else if 2048 < x.outW then
    { x with shift := 1, tf := (x.tf.take 4).map (· * 2) ++ x.tf.drop 4, outW := ceilDiv x.outW 2, outH := ceilDiv x.outH 2 }
  else x

/-- Append a sample with the context's next SSN (R127). -/
def State.addSample (s : State) (c : Nat) (x : Sample) : State :=
  let n := (s.ctx c).ssn
  (s.updCtx c (fun k => { k with ssn := (n + 1) % 2 ^ 32, samples := k.samples ++ [{ x with ssn := n }] })).holeCount c x.cause

/-- One output pixel of a transform on a picture (R134). -/
def tfPixel (luma : Array Byte) (w h : Nat) (tf : List Int) (u v : Nat) : Byte :=
  let pix := fun (x y : Int) =>
    let xx := (iclamp 0 (w - 1 : Int) x).toNat
    let yy := (iclamp 0 (h - 1 : Int) y).toNat
    ((luma.getD (yy * w + xx) 0).toNat : Int)
  let sx := tfAt tf 0 * u + tfAt tf 1 * v + tfAt tf 4
  let sy := tfAt tf 2 * u + tfAt tf 3 * v + tfAt tf 5
  let ix := sx / 65536
  let fx := sx / 256 % 256
  let iy := sy / 65536
  let fy := sy / 256 % 256
  let top := pix ix iy * (256 - fx) + pix (ix + 1) iy * fx
  let bot := pix ix (iy + 1) * (256 - fx) + pix (ix + 1) (iy + 1) * fx
  let val := (top * (256 - fy) + bot * fy + 32768) / 65536
  BitVec.ofInt 8 (iclamp 0 255 ((val * tfAt tf 6 + 128) / 256 + tfAt tf 7))

/-- Bytes that a sample occupies: bucket width × rows (R136). -/
def Sample.rows (x : Sample) : Nat := ceilDiv x.outH 64 * 64
def Sample.bytes (x : Sample) : Nat := bucketWidth (bucketOf x.outW) * x.rows

/-- The pixels of a sample in its bucket, padded (R134, R136). -/
def Sample.produce (x : Sample) (p : Picture) (pad : Byte) : Bytes :=
  let a := p.luma.toArray
  ((List.range x.rows).map (fun v => (List.range (bucketWidth (bucketOf x.outW))).map (fun u =>
    if v < x.outH ∧ u < x.outW then tfPixel a p.w p.h x.tf u v else pad))).flatten

def Ctx.pic (x : Ctx) (pn : Nat) : Option Picture := x.pics.find? (fun p => p.pn == pn)

/-- SAMPLE_PRODUCED: a transform engine finishes a crop or re-read sample (R134). -/
def State.sampleProduced (s : State) (c ssn : Nat) : State :=
  let pad : Byte := BitVec.ofNat 8 (s.fld Reg.SIN_CTL 7 0)
  s.updCtx c (fun k => { k with samples := k.samples.map (fun x =>
    if x.ssn = ssn ∧ x.cause = 0 ∧ 2 ≤ x.kind ∧ x.produced = false then
      (match k.pic x.pn with
       | some p => { x with produced := true, pix := x.produce p pad }
       | none => x)
    else x) })

/-! ## Eyespots (R129 to R133) -/

/-- Capture of an eyespot's item is done when no eyespot tracks it and every crop of it is released (R133). -/
def State.captureCheck (s : State) (c id : Nat) : State :=
  let x := s.ctx c
  if id = 0 ∨ x.espots.any (fun (e : Nat × Espot) => e.2.st == .track && e.2.item == id) ∨
     x.samples.any (fun p => p.kind == 2 && p.item == id) then s
  else match s.item id with
    | none => s
    | some it => if it.done.getLsbD 0 then s else s.stageDone id 0

/-- An eyespot is freed (R131, R132). -/
def State.retireEspot (s : State) (c e : Nat) : State :=
  let x := (s.ctx c).espots.get {} e
  (s.updCtx c (fun k => { k with espots := k.espots.set {} e {} })).captureCheck c x.item

/-- The rectangle of an eyespot in picture p (R132): x0, y0, width and height, or none when it has left the picture. -/
def cropRect (e : Espot) (p pw ph exp : Nat) : Option (Int × Int × Nat × Nat) :=
  let dt : Int := (p : Int) - e.pnUpd
  let cx := e.x + e.vx * dt / 256
  let cy := e.y + e.vy * dt / 256
  let m := exp + ((e.vx.natAbs + e.vy.natAbs : Nat) : Int) * dt / 512
  let x0 := max (cx - m) 0
  let y0 := max (cy - m) 0
  let x1 := min (cx + e.w + m) pw
  let y1 := min (cy + e.h + m) ph
  if x1 - x0 < 16 ∨ y1 - y0 < 16 then none else some (x0, y0, (x1 - x0).toNat, (y1 - y0).toNat)

/-! ## Pictures (R127, R128) -/

/-- A picture is settled (R128): created, its own samples released, and its FRAME_DONE executed when it needs one. -/
def Ctx.settled (x : Ctx) (p : Picture) : Bool :=
  p.created && !(x.samples.any (fun q => q.pn == p.pn && decide (q.kind ≤ 2))) && (!p.need || p.frameDone)

/-- Pictures leave retention when RETAIN later ones have been output and they are settled (R127). -/
def Ctx.trim (x : Ctx) : Ctx := { x with pics := x.pics.filter (fun p => !(x.settled p && decide (p.pn + x.retain < x.pn))) }

def State.setPic (s : State) (c : Nat) (p : Picture) : State :=
  s.updCtx c (fun x => { x with pics := x.pics.map (fun q => if q.pn = p.pn then p else q) })

/-- Create the samples of picture p (R128, R132). -/
def State.createSamples (s : State) (c : Nat) (p : Picture) : State :=
  let s := s.setPic c { p with created := true }
  if p.cause ≠ 0 then
    s.addSample c { item := 0, stamp := p.stamp, ssn := 0, pn := p.pn, kind := 0, cause := p.cause }
  else
    let x := s.ctx c
    let full := p.pn % x.f 7 30 24 == 0
    let s := if full then
        s.addSample c { item := 0, stamp := p.stamp, ssn := 0, pn := p.pn, kind := 1, outW := p.w, outH := p.h, data := p.addr,
                        produced := true }
      else s
    let r := x.espots.foldl (fun (acc : State × Bool) (e : Nat × Espot) =>
      if e.2.st = .track then
        match cropRect e.2 p.pn p.w p.h (x.f 7 7 0) with
        | none => (acc.1.retireEspot c e.1, acc.2)
        | some (x0, y0, w, h) =>
          let q : Sample := { item := e.2.item, stamp := p.stamp, ssn := 0, pn := p.pn, kind := 2, outW := w, outH := h, espot := e.1,
                              tf := [65536, 0, 0, 65536, x0 * 65536, y0 * 65536, 256, 0] }
          (acc.1.addSample c q.shape, true)
      else acc) (s, full)
    r.1.setPic c { p with created := true, need := r.2 }

/-- Pictures whose predecessor is settled get their samples, in order; at most n of them. -/
def State.advance (s : State) (c : Nat) : Nat → State
  | 0 => s.updCtx c Ctx.trim
  | n + 1 =>
    let x := s.ctx c
    match x.pics.find? (fun p => !p.created) with
    | none => s.updCtx c Ctx.trim
    | some p =>
      let before := if p.pn = 0 then true else match x.pic (p.pn - 1) with
        | none => true
        | some q => x.settled q
      if before then State.advance (s.createSamples c p) c n else s.updCtx c Ctx.trim

def State.advanceAll (s : State) (c : Nat) : State := s.advance c ((s.ctx c).pics.length + 1)

/-- A sample of context c is released (R140): the lowest SSN, when it is produced and the arena has room for it. -/
def State.sampleRelease (s : State) (c : Nat) : State :=
  match (s.ctx c).samples with
  | [] => s
  | x :: rest =>
    let drop := fun (s : State) => (((s.updCtx c (fun k => { k with samples := rest })).ctxCount c 4 1).bump Reg.SIN_CNT_SAMPLES)
    let part := s.ctxPart c
    if x.cause ≠ 0 then
      let s := (drop s).updCtx c (fun k => { k with notices := sampleHeader c x :: k.notices })
      (s.captureCheck c x.item).advanceAll c
    else if x.kind = 1 then
      let h : Handing := { part := part, vi := (s.ctxOwner c).2, kind := 3, uid := s.batchUid, items := [], desc := BitVec.ofNat 512 (leNat (sampleHeader c x ++ zeros 16)) }
      ((({ (drop s) with batchUid := s.batchUid + 1, handing := s.handing ++ [h] } : State).handAll).advanceAll c)
    else if x.produced then
      let key := 8 * part + bucketOf x.outW
      let r : Option (Batch × State) := match s.batches.get none key with
        | some b => some (b, s)
        | none => match s.arenaFit 3072 with
          | none => none
          | some a => some ({ uid := s.batchUid, vi := (s.ctxOwner c).2, hdrs := a, opened := s.now },
                            { (s.arenaTake a 3072 s.batchUid) with batchUid := s.batchUid + 1 })
      match r with
      | none => s
      | some (b, s1) =>
        match s1.arenaFit x.bytes with
        | none => s
        | some a =>
          let x := { x with data := a }
          let hd := sampleHeader c x
          let s := (s1.arenaTake a x.bytes b.uid).stUnit a x.pix
          let s := s.stUnit (b.hdrs + 48 * b.samples.length) hd
          let b := { b with samples := b.samples ++ [(hd, x.item)] }
          let s : State := { (drop s) with batches := s.batches.set none key (some b) }
          let s := if s.fld Reg.SIN_CTL 30 24 ≤ b.samples.length then s.closeBatch key 0
                   else if s.batchUrgent b then s.closeBatch key 2 else s
          (s.captureCheck c x.item).advanceAll c
    else s

/-! ## Output of pictures (R126, R127) -/

/-- A decoded picture is output: it takes the next picture number and is retained in HBM at a place the spec leaves open. -/
def State.outputPic (s : State) (c : Nat) (d : DecPic) : State :=
  let r := s.fresh64
  let n := d.w * d.h
  let a := 64 * (r.1.toNat % ((0x000C00000000 - n) / 64))
  let s := r.2.st a d.luma
  let p : Picture := { pn := (s.ctx c).pn, stamp := d.stamp, w := d.w, h := d.h, luma := d.luma, addr := a }
  ((s.updCtx c (fun x => { x with pn := (x.pn + 1) % 2 ^ 32, pics := x.pics ++ [p] })).ctxCount c 3 1).advanceAll c

/-- A placeholder picture is declared (R127, R138). -/
def State.outputHole (s : State) (c cause : Nat) (stamp : Int) : State :=
  let p : Picture := { pn := (s.ctx c).pn, stamp := stamp, cause := cause }
  (s.updCtx c (fun x => { x with pn := (x.pn + 1) % 2 ^ 32, pics := x.pics ++ [p] })).advanceAll c

/-- Output the n first held pictures in output order (R126). -/
def State.flushDpb (s : State) (c : Nat) : Nat → State
  | 0 => s
  | n + 1 =>
    match (s.ctx c).dpb with
    | [] => s
    | d0 :: t =>
      let d := t.foldl (fun b x => if x.order < b.order then x else b) d0
      State.flushDpb ((s.updCtx c (fun x => { x with dpb := x.dpb.erase d })).outputPic c d) c n

/-- Placeholder pictures at the head of what is to be output are declared, after the pictures the decoder still holds (R126). -/
def State.drain (s : State) (c : Nat) : Nat → State
  | 0 => s
  | n + 1 =>
    let x := s.ctx c
    match x.decoding, x.entries with
    | none, .hole cause stamp :: t =>
      let s := s.flushDpb c x.dpb.length
      State.drain ((s.updCtx c (fun x => { x with entries := t })).outputHole c cause stamp) c n
    | _, _ => s

def State.drainAll (s : State) (c : Nat) : State := s.drain c (s.ctx c).entries.length

/-- Access units become placeholders of a cause up to the next IRAP unit; the second component says that one was found. -/
def holesUntilIrap (cause : Nat) : List DecEntry → List DecEntry × Bool
  | [] => ([], false)
  | .hole k t :: l => let r := holesUntilIrap cause l; (.hole k t :: r.1, r.2)
  | .unit a :: l => if a.irap then (.unit a :: l, true) else let r := holesUntilIrap cause l; (.hole cause a.stamp :: r.1, r.2)

/-- The unit being decoded becomes a placeholder picture, and those that follow up to the next IRAP unit too (R124, R126). -/
def State.decodeFail (s : State) (c cause after : Nat) (stamp : Int) : State :=
  let r := holesUntilIrap after (s.ctx c).entries
  (s.updCtx c (fun x => { x with decoding := none, entries := .hole cause stamp :: r.1,
                                 wait := if r.2 then x.wait else some (x.wait.getD after) })).drainAll c

/-! ## Receiving RTP (R117 to R121) -/

/-- The NAL unit types in an H.264 STAP-A or H.265 AP: the units follow with 16-bit sizes. -/
def apTypes (ty : Bytes → Nat) : Nat → Bytes → List Nat
  | 0, _ => []
  | n + 1, b =>
    if b.length < 3 then [] else
      let k := beNat (b.take 2)
      ty (b.drop 2) :: apTypes ty n (b.drop (2 + k))

def nalType264 (b : Bytes) : Nat := byteAt b 0 % 32
def nalType265 (b : Bytes) : Nat := byteAt b 0 / 2 % 64

/-- A payload structure is refused (R119). -/
def payloadRefused (h265 : Bool) (b : Bytes) : Bool :=
  if h265 then decide (50 ≤ nalType265 b)
  else nalType264 b == 0 || (decide (25 ≤ nalType264 b) && nalType264 b != 28)

/-- A payload carries part of an IRAP picture: an H.264 IDR slice, or an H.265 IDR, CRA or BLA slice (R126). -/
def payloadIrap (h265 : Bool) (b : Bytes) : Bool :=
  if h265 then
    let l := match nalType265 b with
      | 48 => apTypes nalType265 b.length (b.drop 2)
      | 49 => [byteAt b 2 % 64]
      | t => [t]
    l.any (fun t => decide (16 ≤ t) && decide (t ≤ 21))
  else
    let l := match nalType264 b with
      | 24 => apTypes nalType264 b.length (b.drop 1)
      | 28 => [byteAt b 1 % 32]
      | t => [t]
    l.any (· == 5)

/-- The capture stamp of an access unit (R120). -/
def Ctx.stamp (x : Ctx) (a : Au) : Int :=
  if x.f 0 28 28 = 0 then (a.first : Int) - x.f 8 31 16 * 1000
  else
    let d := signed 32 ((a.ts + 2 ^ 32 - x.f 10 31 0) % 2 ^ 32)
    ((x.f 11 31 0 + x.f 12 31 0 * 2 ^ 32 : Nat) : Int) + d * 100000 / 9

/-- Units that wait to be decoded. -/
def Ctx.waiting (x : Ctx) : Nat := (x.entries.filter (fun e => match e with | .unit _ => true | .hole _ _ => false)).length

/-- An access unit completes (R119, R120, R125, R126): it waits for a decoder, or becomes a placeholder picture. -/
def State.auDone (s : State) (c : Nat) (a : Au) : State :=
  let x := s.ctx c
  let a := { a with stamp := x.stamp a }
  let hole := fun (cause : Nat) (after : Option Nat) (s : State) =>
    s.updCtx c (fun x => { x with entries := x.entries ++ [.hole cause a.stamp], wait := after })
  let s := (s.updCtx c (fun x => { x with au := none })).ctxCount c 2 1
  let s := if a.refused then hole 4 (some 4) s
    else if 8 * 1048576 < a.size then hole 3 (some 2) s
    else if x.wait.isSome ∧ a.irap = false then hole (x.wait.getD 2) x.wait s
    else if 16 ≤ x.waiting then hole 8 (some 2) s
    else s.updCtx c (fun x => { x with entries := x.entries ++ [.unit a], wait := none })
  s.drainAll c

/-- A packet is passed on in order to the assembly of access units (R119). -/
def State.passOn (s : State) (c : Nat) (p : RtpPkt) : State :=
  let x := s.ctx c
  if x.skip = some p.ts then (if p.marker then s.updCtx c (fun x => { x with skip := none }) else s)
  else
    let s := s.updCtx c (fun x => { x with skip := none })
    let s := match x.au with
      | some a => if a.ts = p.ts then s else s.auDone c a
      | none => s
    let a := (s.ctx c).au.getD { ts := p.ts, first := p.arrival }
    let a := { a with payloads := a.payloads ++ [p.payload], size := a.size + p.payload.length,
                      refused := a.refused || payloadRefused x.h265 p.payload, irap := a.irap || payloadIrap x.h265 p.payload }
    if p.marker then s.auDone c a else s.updCtx c (fun x => { x with au := some a })

/-- Held packets that now follow in order are passed on (R118). -/
def State.passHeld (s : State) (c : Nat) : Nat → State
  | 0 => s
  | n + 1 =>
    let x := s.ctx c
    match x.last with
    | none => s
    | some l =>
      match x.held.find? (fun e => e.1 == l + 1) with
      | none => s
      | some (k, p) =>
        State.passHeld ((s.updCtx c (fun x => { x with last := some k, held := x.held.filter (fun e => e.1 != k) })).passOn c p) c n

/-- JIT_US after a gap end with packets missing: one declared loss, with its placeholder picture (R118, R126). -/
def State.gapLoss (s : State) (c : Nat) : State :=
  let x := s.ctx c
  match x.held with
  | [] => s
  | e :: t =>
    let arrival := t.foldl (fun m q => min m q.2.arrival) e.2.arrival
    if x.on ∧ arrival + x.f 8 15 0 * 1000 ≤ s.now then
      let k := t.foldl (fun m q => min m q.1) e.1
      let s := s.updCtx c (fun x => { x with skip := x.au.map (fun (a : Au) => a.ts), au := none, last := some (k - 1),
                                             entries := x.entries ++ [.hole 1 s.now], wait := some 2 })
      (s.drainAll c).passHeld c (t.length + 1)
    else s

/-- The RTP packet of a UDP payload: sequence number, SSRC, payload type and the packet, none when it is no RTP version 2 packet
(RFC 3550): CSRC lists, header extensions and padding are skipped (R117). -/
def parseRtp (b : Bytes) (now : Nat) : Option (Nat × Nat × Nat × RtpPkt) :=
  let off := 12 + 4 * (byteAt b 0 % 16)
  let off := if byteAt b 0 / 16 % 2 = 1 then off + 4 + 4 * beNat ((b.drop (off + 2)).take 2) else off
  let pad := if byteAt b 0 / 32 % 2 = 1 then byteAt b (b.length - 1) else 0
  if b.length < 12 ∨ byteAt b 0 / 64 ≠ 2 ∨ b.length < off + pad then none
  else some (beNat ((b.drop 2).take 2), beNat ((b.drop 8).take 4), byteAt b 1 % 128,
    { ts := beNat ((b.drop 4).take 4), marker := decide (128 ≤ byteAt b 1),
      payload := (b.drop off).take (b.length - off - pad), arrival := now })

/-- The enabled context of an Ethernet port and UDP port (R114: at most one). -/
def State.ctxAt (s : State) (eth port : Nat) : Option Nat :=
  (s.ctxs.find? (fun (e : Nat × Ctx) => e.2.on && e.2.f 0 27 27 == eth && e.2.f 0 15 0 == port)).map (·.1)

/-- The source address filter of a context (R117). -/
def Ctx.srcOk (x : Ctx) (src : Bytes) : Bool :=
  x.f 0 29 29 == 0 || beNat src == x.f 1 31 0 + x.f 2 31 0 * 2 ^ 32 + x.f 3 31 0 * 2 ^ 64 + x.f 4 31 0 * 2 ^ 96

/-- Extended sequence number nearest to the last one (RFC 3550, Appendix A.1). -/
def extSeq (last : Option Nat) (seq : Nat) : Nat :=
  match last with
  | none => 65536 + seq
  | some l => ((l : Int) + signed 16 ((seq + 65536 - l % 65536) % 65536)).toNat

/-- A UDP datagram that reached the module on an Ethernet port, from `src` (16 bytes, IPv4 as ::FFFF:a.b.c.d) to UDP port `port`
(R117, R118). The flag says that a context or the session firmware took it. -/
def State.rtpDatagram (s : State) (eth : Nat) (src : Bytes) (port : Nat) (b : Bytes) : State × Bool :=
  match s.ctxAt eth port with
  | none =>
    if 0 < port ∧ (s.ctxAt eth (port - 1)).isSome then ({ s with rtcp := b :: s.rtcp }, true) else (s, false)
  | some c =>
    let x := s.ctx c
    match parseRtp b s.now with
    | none => (s, false)
    | some (seq, ssrc, pt, p) =>
      if x.srcOk src = false ∨ pt ≠ x.f 0 22 16 then (s, false)
      else
        let e := extSeq x.last seq
        let stale := match x.last with | some l => decide (e ≤ l) | none => false
        let other := match x.ssrc with | some k => k != ssrc | none => false
        if other || stale || x.held.any (fun h => h.1 == e) then
          (s.ctxCount c 1 1, true)
        else
          let s := (s.ctxCount c 0 1).bump Reg.SIN_CNT_PACKETS
          let s := s.updCtx c (fun x => { x with ssrc := some ssrc, heard := s.now, lost := false })
          match x.last with
          | none => (((s.updCtx c (fun x => { x with last := some e })).passOn c p), true)
          | some l =>
            if e = l + 1 then (((s.updCtx c (fun x => { x with last := some e })).passOn c p).passHeld c x.held.length, true)
            else (s.updCtx c (fun x => { x with held := (e, p) :: x.held }), true)

/-- Items that some eyespot of the context tracks. -/
def Ctx.tracked (x : Ctx) : List Nat := (x.espots.filter (fun (e : Nat × Espot) => e.2.st == .track)).map (fun e => e.2.item)

/-- LOSS_MS pass without an accepted packet (R121). -/
def State.streamLost (s : State) (c : Nat) : State :=
  let x := s.ctx c
  if x.on ∧ x.lost = false ∧ x.heard + max 1 (x.f 9 15 8) * 1000000 ≤ s.now then
    let s := (s.raise sinPage 0).ctxCount c 15 1
    let s := x.tracked.foldl (fun s id => s.sealItem id .sourceAbort) s
    s.updCtx c (fun x => { x with lost := true, espots := [], ssrc := none, last := none, held := [], au := none, skip := none,
                                  wait := some 2 })
  else s

/-! ## Decoding (R123 to R126) -/

/-- The context whose head unit is decoded next: earliest stamp, ties to the lower context (R125). -/
def State.nextDecode (s : State) : Option (Nat × Au) :=
  s.ctxs.foldl (fun (best : Option (Nat × Au)) (e : Nat × Ctx) =>
    if e.2.on = false then best
    else match e.2.decoding, e.2.entries with
    | none, .unit a :: _ => (match best with
      | none => some (e.1, a)
      | some b => if a.stamp < b.2.stamp then some (e.1, a) else best)
    | _, _ => best) none

/-- DECODE_START: a free engine of the 24 takes a unit (R125). -/
def State.decodeStart (s : State) : State :=
  if 24 ≤ (s.ctxs.filter (fun (e : Nat × Ctx) => e.2.decoding.isSome)).length then s
  else match s.nextDecode with
    | none => s
    | some (c, a) => s.updCtx c (fun x => { x with decoding := some a, entries := x.entries.drop 1 })

/-- The coding tools of a parameter set are accepted (R123). -/
def spsTools (h265 : Bool) (p : Sps) : Bool :=
  p.chroma420 && p.progressive && p.plainTools && decide (p.level ≤ 51) &&
  (if h265 then (p.profile == 3 && p.depth == 8) || (p.profile == 4 && (p.depth == 8 || p.depth == 10))
   else decide (p.profile ≤ 2) && p.depth == 8)

/-- Its decoded size is accepted for a context (R124). -/
def spsSize (x : Ctx) (p : Sps) : Bool :=
  decide (p.w ≤ x.f 5 29 16) && decide (p.h ≤ x.f 5 13 0) && decide (p.w ≤ 8192) && decide (p.h ≤ 4320) && p.levelFits

/-- A luma sample as it is passed on (R126). -/
def luma8 (depth y : Nat) : Byte := BitVec.ofNat 8 (if depth = 10 then min ((y + 2) / 4) 255 else y)

/-- PICTURE_DECODED (R124, R126). -/
def State.pictureDecoded (s : State) (c : Nat) (r : Decoded) : State :=
  let x := s.ctx c
  match x.decoding with
  | none => s
  | some a =>
    match r with
    | .corrupt => s.decodeFail c 3 2 a.stamp
    | .picture sps order luma outs =>
      if spsTools x.h265 sps = false then s.decodeFail c 4 4 a.stamp
      else if spsSize x sps = false then s.decodeFail c 5 5 a.stamp
      else
        let d : DecPic := { order := order, stamp := a.stamp, w := sps.w, h := sps.h, luma := (luma.map (luma8 sps.depth)).take (sps.w * sps.h) }
        let s := s.updCtx c (fun x => { x with decoding := none, dpb := x.dpb ++ [d], curW := sps.w, curH := sps.h })
        (s.flushDpb c outs).drainAll c

/-! ## Eyespot commands (R130, R131, R133) -/

/-- A command of a context on an eyespot: the checks that come before its own (R131, R396). -/
def State.onCtx (s : State) (q : Queue) (c : Nat) (ok : Bool) (k : Ctx → State × St × Nat) : State × St × Nat :=
  if ok = false then (s, .badCmd, 0)
  else if 1024 ≤ c then (s, .range, 0)
  else if s.owns q (s.ctxPart c) = false then (s, .unknown, 0)
  else if (s.ctx c).on = false then (s, .range, 0)
  else k (s.ctx c)

def espotZeros (b : Bytes) : Bool := zeroAt b 15 1 && zeroAt b 28 4

/-- A command on eyespot b[14] of context b[18..19]. -/
def State.onEspot (s : State) (q : Queue) (b : Bytes) (k : Nat → Nat → Espot → State × St × Nat) : State × St × Nat :=
  let c := leAt b 18 2
  let e := byteAt b 14
  s.onCtx q c (espotZeros b) (fun x => if x.espotMax ≤ e then (s, .range, 0) else k c e (x.espots.get {} e))

def State.setEspot (s : State) (c e : Nat) (x : Espot) : State := s.updCtx c (fun k => { k with espots := k.espots.set {} e x })

/-- The fields of the command's box, velocity and confidence (R130). -/
def Espot.place (x : Espot) (b : Bytes) : Espot :=
  { x with x := leAt b 0 2, y := leAt b 2 2, w := leAt b 4 2, h := leAt b 6 2, vx := signed 16 (leAt b 8 2),
           vy := signed 16 (leAt b 10 2), conf := leAt b 12 2, pnUpd := leAt b 24 4, misses := 0 }

/-- CREATE (R131, R133): the item is anchored at the capture stamp of picture PN; when R12 refuses it the eyespot is CAPTURED. -/
def State.effCreate (s : State) (q : Queue) (b : Bytes) : State × St × Nat :=
  s.onEspot q b (fun c e x =>
    if x.st ≠ .free then (s, .busy, 0)
    else
      let pn := leAt b 24 4
      let r := match (s.ctx c).pic pn with
        | some p => (tb64 p.stamp, s)
        | none => let f := s.fresh64; (f.1.toNat, f.2)
      let s := r.2.commitRegs [bank (ctxSource c) Reg.SRC_MAP]
      let o := s.openItem (0x400 + c) r.1 ((s.ctx c).f 9 5 0) ((s.srcMap (ctxSource c)).getD (8, 0))
      let y := ({ x with item := o.1, pnNew := pn, st := if o.2.1 then .track else .captured } : Espot).place b
      (o.2.2.setEspot c e y, .ok, 0))

/-- A command on an eyespot that is not FREE. -/
def State.onLive (s : State) (q : Queue) (b : Bytes) (k : Nat → Nat → Espot → State × St × Nat) : State × St × Nat :=
  s.onEspot q b (fun c e x => if x.st = .free then (s, .unknown, 0) else k c e x)

def State.effUpdate (s : State) (q : Queue) (b : Bytes) : State × St × Nat :=
  s.onLive q b (fun c e x =>
    if leAt b 24 4 ≤ x.pnUpd then (s, .stale, 0) else (s.setEspot c e (x.place b), .ok, 0))

def State.effMiss (s : State) (q : Queue) (b : Bytes) : State × St × Nat :=
  s.onLive q b (fun c e x =>
    if leAt b 24 4 ≤ x.pnUpd then (s, .stale, 0)
    else
      let s := s.setEspot c e { x with misses := x.misses + 1 }
      (if (s.ctx c).f 7 15 8 < x.misses + 1 then s.retireEspot c e else s, .ok, 0))

def State.effCaptured (s : State) (q : Queue) (b : Bytes) : State × St × Nat :=
  s.onLive q b (fun c e x => ((s.setEspot c e { x with st := .captured }).captureCheck c x.item, .ok, 0))

def State.effRetireEspot (s : State) (q : Queue) (b : Bytes) : State × St × Nat :=
  s.onLive q b (fun c e _ => (s.retireEspot c e, .ok, 0))

/-- The picture whose FRAME_DONE is awaited (R128, R131). -/
def Ctx.awaited (x : Ctx) : Option Picture := x.pics.find? (fun p => p.created && p.need && !p.frameDone)

def State.effFrameDone (s : State) (q : Queue) (b : Bytes) : State × St × Nat :=
  let c := leAt b 18 2
  s.onCtx q c (espotZeros b) (fun x =>
    match x.awaited with
    | some p =>
      if p.pn = leAt b 24 4 then ((s.setPic c { p with frameDone := true }).advanceAll c, .ok, 0)
      else ((s.bump Reg.SIN_CNT_ESPOT_STALE).raise sinPage 4, .stale, 0)
    | none => ((s.bump Reg.SIN_CNT_ESPOT_STALE).raise sinPage 4, .stale, 0))

/-- REREAD (R135): its SSN is returned. -/
def State.effReread (s : State) (q : Queue) (b : Bytes) : State × St × Nat :=
  let c := leAt b 18 2
  s.onCtx q c (zeroAt b 12 4 && zeroAt b 56 8) (fun x =>
    let id := leAt b 0 8
    match s.item id with
    | none => (s, .unknown, 0)
    | some it =>
      if s.owns q it.part = false then (s, .unknown, 0)
      else if it.sealInfo.isSome ∧ it.pv.lateMode ≠ 1 ∧ it.pv.lateMode ≠ 2 then (s, .sealed, 0)
      else
        let pn := leAt b 8 4
        let gone := match x.pic pn with | some p => p.cause != 0 | none => true
        let stamp := ((x.pic pn).map (fun (p : Picture) => p.stamp)).getD s.now
        let y : Sample := { item := id, stamp := stamp, ssn := 0, pn := pn, kind := 3, cause := if gone then 9 else 0,
                            outW := leAt b 48 2, outH := leAt b 50 2,
                            tf := (List.range 6).map (fun i => signed 32 (leAt b (24 + 4 * i) 4)) ++ [(leAt b 52 2 : Int), signed 16 (leAt b 54 2)] }
        (s.addSample c y.shape, .ok, x.ssn))

/-! ## Committing and loading contexts (R113 to R116) -/

def ctxRegs : List Nat := (List.range 13).map (fun i => Reg.CTX_CTL + 4 * i)

/-- What a configuration that sets ENABLE must satisfy: 0, or the CMT_ERR of the refusal (R114, R115). -/
def State.ctxCheck (s : State) (c : Nat) (n : List Word) : Nat :=
  let others := s.ctxs.filter (fun (e : Nat × Ctx) => e.1 != c && e.2.on)
  let g := cfgBits n
  let port := g 0 15 0
  if port % 2 ≠ 0 ∨ port = 0 ∨ g 5 29 16 < 64 ∨ 8192 < g 5 29 16 ∨ g 5 13 0 < 64 ∨ 4320 < g 5 13 0 ∨ g 6 15 0 < 1 ∨
     12000 < g 6 15 0 ∨ g 7 30 24 < 1 ∨ 64 < g 7 30 24 ∨ g 6 23 16 < 2 ∨ 64 < g 6 23 16 ∨
     16384 < (others.map (fun (e : Nat × Ctx) => e.2.espotMax)).sum + g 7 23 16 then 4
  else if others.any (fun (e : Nat × Ctx) => e.2.f 0 27 27 == g 0 27 27 && e.2.f 0 15 0 == port) then 3
  else if s.fld Reg.DEC_BUDGET 15 0 * 1000000 < (others.map (fun (e : Nat × Ctx) => cfgRate e.2.cfg)).sum + cfgRate n then 2
  else 0

/-- A commit to an enabled context changes a field it must not (R114). -/
def cfgChanged (o n : List Word) : Bool :=
  let d := fun i hi lo => cfgBits o i hi lo != cfgBits n i hi lo
  d 0 30 29 || d 0 27 27 || d 0 22 0 || d 1 31 0 || d 2 31 0 || d 3 31 0 || d 4 31 0 || d 5 29 16 || d 5 13 0 || d 6 15 0

/-- The context stops (R116). -/
def State.ctxDisable (s : State) (c : Nat) : State :=
  let x := s.ctx c
  let ids := (s.items.filter (fun (e : Nat × Item) => sourceOf e.1 == 0x400 + c && e.2.sealInfo.isNone)).map (·.1)
  let s := ids.foldl (fun s id => s.sealItem id .sourceAbort) s
  s.setCtx c { cfg := x.cfg, cmtErr := x.cmtErr, cnt := x.cnt, latch := x.latch, notices := x.notices, ssn := x.ssn, pn := x.pn }

/-- COMMIT of the window to context c (R113, R114, R116). -/
def State.ctxCommit (s : State) (c : Nat) : State :=
  let x := s.ctx c
  let n := ctxRegs.map s.rd
  let on := cfgBits n 0 31 31 == 1
  let err := if on then (if x.on ∧ cfgChanged x.cfg n then 1 else s.ctxCheck c n) else 0
  if err ≠ 0 then (s.updCtx c (fun x => { x with cmtErr := err })).raise sinPage 5
  else
    let s := if x.on ∧ on = false then s.ctxDisable c else s
    let s := s.updCtx c (fun x => { x with cfg := n, cmtErr := 0 })
    if x.on = false ∧ on then
      s.setCtx c { cfg := n, cnt := x.cnt, latch := x.latch, notices := x.notices, heard := s.now }
    else s

/-- STATE of CTX_STS. -/
def Ctx.state (x : Ctx) : Nat := if x.on = false then 0 else if x.lost then 3 else if x.wait.isSome then 1 else 2

/-- LOAD of context c into the window, with its status (R113). -/
def State.ctxLoad (s : State) (c : Nat) : State :=
  let x := s.ctx c
  let s := (ctxRegs.zip x.cfg).foldl (fun s e => s.wr e.1 e.2) s
  ((s.wr Reg.CTX_STS (BitVec.ofNat 32 (x.state * 2 ^ 30 + x.cmtErr * 2 ^ 24))).wr Reg.CTX_DIM
    (BitVec.ofNat 32 (x.curW * 65536 + x.curH))).wr Reg.CTX_SSRC (BitVec.ofNat 32 (x.ssrc.getD 0))

/-- A write of CTX_SEL: COMMIT acts first, then LOAD (R113). -/
def State.ctxSel (s : State) (v : Word) : State :=
  let c := bits v 9 0
  let s := s.wr Reg.CTX_SEL (BitVec.ofNat 32 c)
  let s := if bit v 31 then s.ctxCommit c else s
  if bit v 30 then s.ctxLoad c else s

/-! ## The shadow table (R141) -/

/-- A snapshot latches every context's counters with the others (R70, R141). -/
def State.snapRow (s : State) : State :=
  let t := s.snapTake
  match s.snapAt with
  | none => t
  | some i =>
    if i.toNat ≤ s.now then
      { t with ctxs := t.ctxs.map (fun (e : Nat × Ctx) => (e.1, { e.2 with latch := e.2.cnt })), ctxSnap := some ((t.rd 0x6020).toNat, i.toNat) }
    else t

/-- CNT_COPIED: the latched counters are written to the table at CNT_BASE (R141). -/
def State.cntCopied (s : State) : State :=
  match s.ctxSnap with
  | none => s
  | some (gen, inst) =>
    let base := s.addr48 Reg.SIN_CNT_BASE_LO Reg.SIN_CNT_BASE_HI
    let b := toLe 4 gen ++ zeros 4 ++ toLe 8 inst ++ zeros 48 ++
      ((List.range 1024).map (fun c => ((s.ctx c).latch.map (toLe 4)).flatten)).flatten
    let s := if s.canWrite 0 base b.length = .ok then s.stUnit base b else s
    ({ s with ctxSnap := none } : State).raise sinPage 3

end Sys2Proof.Machine
end

