-- ==== Sys2Proof/Machine/Trig.lean ====
section
/-! DEFINITION. Fixed-point evaluation of the transcendental functions that rules call "correctly rounded": enough fractional bits
that the rounding of R102, R294 and the tables of the arithmetic chapters is decided. -/
namespace Sys2Proof.Machine

/-- Fractional bits of the fixed-point series. -/
def fxBits : Nat := 160
def fxOne : Int := 2 ^ fxBits

/-- x · y in fixed point, rounded down. -/
def fxMul (x y : Int) : Int := x * y / fxOne

/-- The arctangent series z − z³/3 + z⁵/5 − … for a fixed-point z, n terms. -/
def atanSeries (z : Int) : Nat → Int
  | 0 => 0
  | n + 1 =>
    let zz := fxMul z z
    let rec go : Nat → Nat → Int → Int → Int
      | 0, _, _, acc => acc
      | m + 1, k, pow, acc =>
        let term := pow / (2 * (k : Int) + 1)
        go m (k + 1) (fxMul pow zz) (if k % 2 = 0 then acc + term else acc - term)
    go (n + 1) 0 z 0

/-- π in fixed point by Machin's formula. -/
def fxPi : Int := 4 * (4 * atanSeries (fxOne / 5) 80 - atanSeries (fxOne / 239) 40)

/-- atan of a nonnegative rational in fixed point: 1/z is used above 1, and the argument is halved in angle until the series is
short. -/
def fxSqrt (x : Int) : Int := (Nat.sqrt (x.toNat * 2 ^ fxBits) : Nat)

def atanPos (z : Int) : Int :=
  let half := fun (z : Int) => z * fxOne / (fxOne + fxSqrt (fxOne + fxMul z z))
  8 * atanSeries (half (half (half z))) 90

/-- round(atan(num / den) × 180 / π × 64), ties away from zero (R102). -/
def atanDeg64 (num den : Int) : Int :=
  let neg := decide (num * den < 0)
  let a := num.natAbs
  let b := den.natAbs
  let big := decide (b < a)
  let z : Int := if big then (b : Int) * fxOne / a else (a : Int) * fxOne / b
  let t := atanPos z
  let t := if big then fxPi / 2 - t else t
  let v := t * 180 * 64
  let r := (2 * v + fxPi) / (2 * fxPi)
  if neg then -r else r

end Sys2Proof.Machine
end

