-- ==== Sys2Proof/Machine/Framing.lean ====
section
/-! DEFINITION. Item framing, edges, skew and stripes (05): what a line-sensor port does with each output line. -/
namespace Sys2Proof.Machine

/-- C and PIXELS of the port's format (PORT_FMT). -/
def State.colours (s : State) (p : Nat) : Nat := s.fld (Reg.PORT_FMT p) 25 24
def State.pixels (s : State) (p : Nat) : Nat := s.fld (Reg.PORT_FMT p) 14 0

/-- One mixed plane, READ_MODE in force (R93, R96); a port with one colour passes one plane. -/
def State.mixed (s : State) (p : Nat) : Bool := bit (s.inForce (Reg.COND_CTL p)) 8
/-- P, the planes a stripe carries (R96). -/
def State.planes (s : State) (p : Nat) : Nat := if s.mixed p then 1 else s.colours p

/-! ## Stripe geometry (R107 to R109) -/

def State.stripeS (s : State) (p : Nat) : Nat := 16 * 2 ^ s.fld (Reg.STRIPE_CFG p) 1 0
def State.groupG (s : State) (p : Nat) : Nat := 2 ^ s.fld (Reg.STRIPE_CFG p) 14 12
def State.haloH (s : State) (p : Nat) : Nat := s.fld (Reg.STRIPE_CFG p) 8 4
def State.tileFirst (s : State) (p : Nat) : Nat := s.fld (Reg.STRIPE_CFG p) 31 24
def State.winX0 (s : State) (p : Nat) : Nat := s.fld (Reg.STRIPE_WIN p) 7 0
def State.winW (s : State) (p : Nat) : Nat := s.fld (Reg.STRIPE_WIN p) 16 8
def State.ringLines (s : State) (p : Nat) : Nat := s.fld (Reg.RING_LINES p) 19 0
def State.ringBase (s : State) (p : Nat) : Nat := s.addr48 (Reg.RING_BASE_LO p) (Reg.RING_BASE_HI p)
/-- Bytes of one ring line (R108). -/
def State.ringLine (s : State) (p : Nat) : Nat := s.planes p * 64 * s.winW p
/-- Bytes of one landing slot (R108). -/
def State.slotSize (s : State) (p : Nat) : Nat := s.planes p * (s.stripeS p / s.groupG p + 2 * s.haloH p) * 64 * s.winW p

/-- The checks of R109 at an enable. -/
def State.stripeOk (s : State) (p : Nat) : Bool :=
  decide (s.fld (Reg.STRIPE_CFG p) 14 12 ≤ 4) && decide (s.stripeS p % s.groupG p = 0) && decide (s.haloH p ≤ 16) &&
  decide (s.tileFirst p + s.groupG p ≤ 160) && decide (1 ≤ s.winW p ∧ s.winW p ≤ 256) &&
  decide (s.winX0 p + s.winW p ≤ s.pixels p / 64) &&
  decide (s.fld (Reg.ZONE p) 8 0 + s.fld (Reg.ZONE p) 24 16 ≤ 384) &&
  decide (2 * s.slotSize p ≤ s.fld (Reg.ZONE p) 24 16 * 1024) &&
  decide (s.ringBase p < 0x000C00000000)

/-- Stripes of an item whose trailing edge is known (R107). -/
def Face.stripes (f : Face) (trail S : Nat) : Nat := ceilDiv (f.rows trail) S

/-- A face is aborted with a cause (R106): its item ends SOURCE_ABORT, its remaining stripes are discarded, and the END notice
goes out. Under cause CANCELLED the item is sealed already. -/
def State.abortFace (s : State) (p : Nat) (f : Face) (cause : Nat) : State :=
  let f := { f with ended := some cause, aborted := true }
  let s := (s.setFace p f).freeLanded p f
  let s := match cause with
    | 1 => s.bump (Reg.P3_CNT_END_LEN p)
    | 2 => s.bump (Reg.P3_CNT_END_GAP p)
    | 3 => (s.bump (Reg.P3_CNT_END_STALL p)).raise (framePage p) 4
    | _ => s
  let s := if cause = 6 then s else s.sealItem f.id .sourceAbort
  (s.raise (framePage p) 2).endNotice p f  -- ITEM_ABORT (log entry 12)

/-! ## Opening (R98, R100, R102) -/

/-- The weights written in MIX are checked and taken at their commit (R93). -/
def State.takeMix (s : State) (p : Nat) : State :=
  let w := [s.fld (Reg.P1_MIX p) 8 0, s.fld (Reg.P1_MIX p) 17 9, s.fld (Reg.P1_MIX p) 26 18]
  if w.all (fun k => decide (k ≤ 256)) && decide (w.sum = 256) && (w.drop (s.colours p)).all (· == 0) then
    (s.updPort p (fun x => { x with mix := w })).setFlag (Reg.COND_STS p) 2 false
  else s.setFlag (Reg.COND_STS p) 2 true

/-- The delays written in DLY are taken at their commit, and the delay lines refilled; a DLY_BASE outside HBM makes them 0 (R92). -/
def State.takeDly (s : State) (p : Nat) : State :=
  let d := [s.fld (Reg.P1_DLY p) 7 0, s.fld (Reg.P1_DLY p) 15 8, s.fld (Reg.P1_DLY p) 23 16]
  let base := s.addr48 (Reg.DLY_BASE_LO p) (Reg.DLY_BASE_HI p)
  let outside := decide (0x000C00000000 < base + 2 * s.pixels p * d.sum)
  let d' := if outside then [0, 0, 0] else d
  (s.updPort p (fun x => { x with dly := d', refillEnd := x.expect + (d'.take (s.colours p)).foldl max 0 })).setFlag
    (Reg.COND_STS p) 1 outside

/-- The item boundary of a port: every field that waits for it takes effect (R66), the coefficient banks are exchanged when a
swap waits and no load runs (R90), and the delays and weights are checked and taken (R92, R93). -/
def State.itemBoundary (s : State) (p : Nat) : State :=
  let x := s.port p
  let mixWaits := (s.held.look (Reg.P1_MIX p)).isSome
  let dlyWaits := (s.held.look (Reg.P1_DLY p)).isSome || (s.held.look (Reg.DLY_BASE_LO p)).isSome || (s.held.look (Reg.DLY_BASE_HI p)).isSome
  let s := s.commitRange (0x10000 + 0x4000 * p) (0x13000 + 0x4000 * p)
  let s := s.commitRegs [Reg.ITEM_LIM p, Reg.PP_CFG p, bank p Reg.SRC_MAP]
  let busy := s.flag (Reg.COND_STS p) 31
  let s := if x.swapReq ∧ busy = false then
      (s.updPort p (fun x => { x with swapReq := false })).setFlag (Reg.COND_CTL p) 0 (!s.flag (Reg.COND_CTL p) 0)
    else s
  let s := if mixWaits then s.takeMix p else s
  if dlyWaits then s.takeDly p else s

/-- Deadline profile of the port's items in force (PORT_CTL.PROFILE). -/
def State.portProfile (s : State) (p : Nat) : Nat := bits (s.inForce (Reg.PORT_CTL p)) 21 16

/-! ## Detection (R97, R101, R102) -/

/-- Foreground columns of a detection plane: |v − BG| at least THR within X_MIN to X_MAX (R97). -/
def State.foreground (s : State) (p : Nat) (v : List Nat) : List Nat :=
  let bg := s.fld (Reg.EDGE_THR p) 7 0
  let thr := s.fld (Reg.EDGE_THR p) 15 8
  let x0 := s.fld (Reg.EDGE_WIN p) 13 0
  let x1 := s.fld (Reg.EDGE_WIN p) 29 16
  (v.zipIdx.filter (fun e => decide (x0 ≤ e.2) && decide (e.2 ≤ x1) && decide (thr ≤ (if bg ≤ e.1 then e.1 - bg else bg - e.1)))).map (·.2)

/-- Probe column j (R102). -/
def probeCol (x0 x1 j : Nat) : Nat := x0 + j * (x1 - x0) / 63

/-- The face's edges and probes after one more line (R101, R102). -/
def Face.addLine (f : Face) (n x0 x1 : Nat) (fg : List Nat) (occ : Bool) : Face :=
  let f := if occ then { f with left := min f.left (fg.headD f.left), right := max f.right (fg.getLastD f.right), lastOcc := n } else f
  if n < f.lead + f.skewWin then
    { f with probes := (List.range 64).foldl (fun t j =>
        if fg.contains (probeCol x0 x1 j) ∧ (t.look j).isNone then t.insert j (n - f.lead) else t) f.probes }
  else f

/-- The skew of R102 from the probes: slope as an exact rational, the angle correctly rounded with ties away from zero. -/
def skewOf (probes : Tab Nat) (x0 x1 aspect : Nat) : Option Int :=
  let used := (probes.drop 4).take (probes.length - 8)
  let n : Int := used.length
  if used.length < 8 then none
  else
    let xs := used.map (fun e => ((probeCol x0 x1 e.1 : Nat) : Int))
    let ys := used.map (fun e => ((e.2 : Nat) : Int))
    let sx := xs.sum
    let sy := ys.sum
    let sxy := (List.zipWith (· * ·) xs ys).sum
    let sxx := (xs.map (fun x => x * x)).sum
    let num := n * sxy - sx * sy
    let den := n * sxx - sx * sx
    if den = 0 then none else some (atanDeg64 (num * aspect) (den * 4096))

/-- The frame of a face is complete: its skew is computed and the OPEN notice sent (R103). -/
def State.completeFrame (s : State) (p : Nat) (f : Face) : State :=
  let k := skewOf f.probes (s.fld (Reg.EDGE_WIN p) 13 0) (s.fld (Reg.EDGE_WIN p) 29 16) (bits (s.inForce (Reg.PP_CFG p)) 31 16)
  let r := s.sideEdges f
  let f := { f with framed := true, skew := k.getD 0, skewValid := k.isSome, openLeft := r.1.1, openRight := r.1.2 }
  (r.2.setFace p f).notice p (noticeOf f f.anchor false 0)

/-- WAIT_GAP is entered. -/
def Port.toGap (x : Port) : Port := { x with fstate := .waitGap, gap := 0, fell := false }

/-- The port opens an item for a face whose leading edge is line `lead`, with the lines tested since (R98, R100, R11, R12). An item that
R12 refuses gets an END notice with cause REFUSED and the port waits for a gap; one sealed at once under LATE_MODE NONE is CANCELLED. -/
def State.openFace (s : State) (p lead : Nat) (edgePresent followed : Bool) (tests : List (Nat × List Nat × Bool)) : State × Option Face :=
  let s := s.itemBoundary p
  let x := s.port p
  let stamp := (x.info.get {} lead).stamp
  let owner := (s.srcMap p).getD (8, 0)
  let r := s.openItem p stamp.toNat (s.portProfile p) owner
  let s := r.2.2
  let f : Face := { id := r.1, lead := lead, pad := s.fld (Reg.ITEM_LIM p) 27 20, anchor := stamp,
                    skewWin := s.fld (Reg.P3_OCC p) 25 16, edgePresent := edgePresent, followed := followed, lastOcc := lead }
  let f := (tests.filter (fun e => decide (lead ≤ e.1))).foldl
    (fun (f : Face) e => f.addLine e.1 (s.fld (Reg.EDGE_WIN p) 13 0) (s.fld (Reg.EDGE_WIN p) 29 16) e.2.1 e.2.2) f
  let s := s.updPort p (fun x => { x with maxLen := s.fld (Reg.ITEM_LIM p) 19 0, presentRun := 0, tests := [] })
  if r.2.1 then
    let s := s.updPort p (fun x => { x with faces := x.faces ++ [f], fstate := .face, gap := 0 })
    let s := (s.bump (Reg.P3_CNT_ITEMS p)).raise (framePage p) 0
    (if (s.item f.id).isNone then s.cancelFace f.id else s, some f)
  else
    let e := s.sideEdges f
    let s := e.2.notice p (noticeOf { f with ended := some causeRefused, trail := none, left := e.1.1, right := e.1.2 } stamp true 0)
    (s.updPort p Port.toGap, none)

/-! ## Stripes (R107 to R112) -/

/-- The face whose stripes are landed next: the first with stripes not landed. -/
def State.landFace (s : State) (p : Nat) : Option Face :=
  (s.port p).live.find? (fun f => match f.trail with
    | some t => decide (f.landed < f.stripes t (s.stripeS p)) | none => true)

/-- Every row and halo row of stripe k is available (R110). While the trailing edge is not found, the next stripe must be known to
exist, so that LAST is right (R107). -/
def State.rowsReady (s : State) (p : Nat) (f : Face) (k : Nat) : Bool :=
  let S := s.stripeS p
  let need := f.line ((k + 1) * S) - 1 + s.haloH p
  let known := match f.trail with
    | some t => decide (k < f.stripes t S)
    | none => decide (f.left ≤ f.right) && decide ((k + 1) * S < f.rows f.lastOcc)
  known && decide (need ≤ ((s.port p).lastLine.getD 0 : Int)) && (s.port p).lastLine.isSome

/-- One row of a band in a plane, from the stripe ring; a line that does not exist is BG (R107, R108). -/
def State.ringRow (s : State) (p : Nat) (n : Int) (plane : Nat) : Bytes :=
  let w := 64 * s.winW p
  if (s.port p).noLine n then List.replicate w (BitVec.ofNat 8 (s.fld (Reg.EDGE_THR p) 7 0))
  else s.ld (s.ringBase p + (n.toNat % s.ringLines p) * s.ringLine p + plane * w) w

/-- Land stripe k of a face: each band is copied into landing slot k mod 2 of its tile (R108). -/
def State.landStripe (s : State) (p : Nat) (f : Face) (k : Nat) : State :=
  let rows := s.stripeS p / s.groupG p
  let h := s.haloH p
  let zone := s.fld (Reg.ZONE p) 8 0 * 1024
  let src := s
  (List.range (s.groupG p)).foldl (fun s b =>
    let at0 := tileWin (src.tileFirst p + b) + 0x100000 + zone + k % 2 * src.slotSize p
    let data := ((List.range (src.planes p)).map (fun pl => ((List.range (rows + 2 * h)).map (fun r =>
      src.ringRow p (f.line (k * src.stripeS p + b * rows + r) - h) pl)).flatten)).flatten
    s.st at0 data) s

/-- STRIPE_LAND: the next stripe of the port is landed when its lines are available, its frame is complete and its slot free
(R110). -/
def State.stripeLand (s : State) (p : Nat) : State :=
  match s.landFace p with
  | none => s
  | some f =>
    let k := f.landed
    if f.framed ∧ s.rowsReady p f k ∧ ((s.port p).slots.get none (k % 2)).isNone then
      let s := s.landStripe p f k
      let s := s.setFace p { f with landed := k + 1 }
      s.updPort p (fun x => { x with slots := x.slots.set none (k % 2) (some []) })
    else s

/-- FULL_EVERY in force (R111). -/
def State.fullEvery (s : State) (p : Nat) : Nat := bits (s.inForce (Reg.STRIPE_CFG p)) 23 16

/-- The steering mask of all window blocks. -/
def State.fullMask (s : State) (p : Nat) : BitVec 256 := BitVec.ofNat 256 (2 ^ s.winW p - 1)

/-- Stripe k is steered by no post: it is 0 or a multiple of FULL_EVERY (R111). -/
def isFull (every k : Nat) : Bool := k == 0 || (every != 0 && k % every == 0)

/-- The descriptor of stripe k (R110). -/
def State.stripeDesc (s : State) (p : Nat) (f : Face) (k : Nat) (full last : Bool) (mask : BitVec 256) (stamp : DWord) : BitVec 512 :=
  let S := s.stripeS p
  let x := s.port p
  let n0 := f.line (k * S)
  let rows := S + 2 * s.haloH p
  let repl := (List.range rows).any (fun r => x.isReplaced (n0 - s.haloH p + r))
  BitVec.ofNat 512 (leNat (toLe 8 f.id ++
    toLe 4 (k % 2 ^ 24 + ofBool (k == 0) * 2 ^ 24 + ofBool last * 2 ^ 25 + ofBool full * 2 ^ 26 + ofBool repl * 2 ^ 27 +
      ofBool f.skewValid * 2 ^ 28) ++
    toLe 4 (unsign 32 n0) ++ toLe 2 f.openLeft ++ toLe 2 f.openRight ++ toLe 2 (unsign 16 f.skew) ++ toLe 1 (k % 2) ++
    toLe 1 (s.planes p) ++ toLe 8 stamp.toNat ++ toLe 32 mask.toNat))

/-- The last stripe of a face whose trailing edge is known has been handed: capture is done and the END notice goes out (R110,
R103). -/
def State.faceDone (s : State) (p : Nat) (f : Face) : State :=
  match f.trail with
  | none => s
  | some t => if f.handed = f.stripes t (s.stripeS p) then ((s.endNotice p f).raise (framePage p) 1).stageDone f.id 0 else s

/-- STRIPE_HAND: the next landed stripe is handed when its mask is formed and the group's queues take it (R110, R111, R168). A stripe
of a source that no partition is assigned, or whose tiles belong to another, is misrouted (R337). -/
def State.stripeHand (s : State) (p : Nat) : State :=
  match (s.port p).live.find? (fun f => decide (f.handed < f.landed)) with
  | none => s
  | some f =>
    let k := f.handed
    let full := isFull (s.fullEvery p) k
    let first := s.tileFirst p
    let g := s.groupG p
    match (if full then some (s.fullMask p) else f.mask) with
    | none => s
    | some m =>
      match s.srcMap p with
      | none => (s.abortFace p f causeCancelled).misroute [f.id]
      | some (part, vi) =>
        if s.groupFenced first g then (s.abortFace p f causeCancelled).sealItem f.id .sourceAbort  -- R419
        else if (List.range g).all (fun b => s.tileOwner (first + b) == some part) then
          if s.groupTakes first g && s.instRuns part vi then
            let s := s.commitRegs [Reg.STRIPE_CFG p]
            let last := match f.trail with | some t => decide (k + 1 = f.stripes t (s.stripeS p)) | none => false
            let st := s.lineStamp p (f.line (k * s.stripeS p))
            let s := st.2
            let d := s.stripeDesc p f k full last m st.1
            let s := s.enqueueGroup first g 1 (2 * p + k % 2) [f.id] d
            let f := { f with handed := k + 1, mask := none }
            let s := s.updPort p (fun x => { x with slots := x.slots.set none (k % 2) (some (range' first g)) })
            ((s.setFace p f).bump (Reg.P3_CNT_STRIPES p)).faceDone p f
          else s
        else (s.abortFace p f causeCancelled).misroute [f.id]

/-- A post of the staged mask for the awaited stripe (R111): the mask of the next stripe is m | m << 1 | m >> 1 over the window; a
post that names another stripe is ignored and counted. -/
def State.steerPost (s : State) (p : Nat) (v : Word) : State :=
  let m := BitVec.ofNat 256 (leNat ((List.range 8).map (fun i => toLe 4 (s.rd (Reg.STEER_MASK p i)).toNat)).flatten)
  let m := m &&& s.fullMask p
  match (s.port p).live.find? (fun f => decide (0 < f.handed) && f.mask.isNone && !isFull (s.fullEvery p) f.handed) with
  | none => (s.bump (Reg.P3_CNT_STEER_STALE p)).raise (framePage p) 5
  | some f =>
    if bits v 31 16 = f.id % 65536 ∧ bits v 15 0 = (f.handed - 1) % 65536 then
      s.setFace p { f with mask := some ((m ||| (m <<< 1) ||| (m >>> 1)) &&& s.fullMask p) }
    else (s.bump (Reg.P3_CNT_STEER_STALE p)).raise (framePage p) 5

/-- A tile of the group retires its copy of the stripe in a landing slot; the slot is released when all have (R170). -/
def State.slotRetire (s : State) (origin t : Nat) : State :=
  let p := origin / 2
  let k := origin % 2
  match (s.port p).slots.get none k with
  | none => s
  | some l =>
    s.updPort p (fun x => { x with slots := x.slots.set none k (if l = [t] then none else some (l.erase t)) })

/-! ## One available line (R98, R99, R100) -/

/-- MODE in force: a write waits for the current face to end outside SEARCH (R100); 3 acts as 0. -/
def State.frameMode (s : State) (p : Nat) : Nat :=
  let m := (s.port p).modeHeld.getD (s.fld (Reg.FRAME_CTL p) 1 0)
  if m = 3 then 0 else m

/-- A face ends NORMAL or OVERLENGTH (R98, R104, R106); when its item was ended before, framing alone goes on. -/
def State.endFace (s : State) (p : Nat) (f : Face) (cause : Nat) (trail : Option Nat) : State :=
  let s := s.updPort p (fun x =>
    let x := { x with lastTrail := trail, modeHeld := none, gap := 0, presentRun := 0 }
    if cause = causeNormal then { x with fstate := .search } else x.toGap)
  if f.aborted then s.dropFace p f.id
  else
    let f := { f with trail := trail, ended := some cause }
    let s := s.setFace p f
    let s := if f.framed then s else s.completeFrame p f
    let f := ((s.port p).faces.find? (fun g => g.id == f.id)).getD f
    if cause = causeNormal then s.faceDone p f else s.abortFace p f cause

/-- The trailing edge line of a face after TRAIL_RUN unoccupied lines: the last occupied line; a free value for a face that has none. -/
def State.trailLine (s : State) (f : Face) : Nat × State :=
  if f.right < f.left then let r := s.fresh; (r.1.toNat, r.2) else (f.lastOcc, s)

/-- The delayed present of output line n (R99): the sample of raw line n − PP_LEAD. -/
def State.presentAt (s : State) (p n : Nat) : Bool :=
  let lead := s.fld (Reg.PP_CFG p) 11 0
  if n < lead then false else (((s.port p).present.find? (fun e => e.1 == n - lead)).map (·.2)).getD false

/-- Detection on the available line n with detection plane `v` (R98, R99). -/
def State.detect (s : State) (p n : Nat) (v : List Nat) : State :=
  let fg := s.foreground p v
  let occ := decide (s.fld (Reg.P3_OCC p) 13 0 ≤ fg.length)
  let mode := s.frameMode p
  let x := s.port p
  let pres := s.presentAt p n
  let runLen := s.fld (Reg.EDGE_THR p) 19 16 + 1
  let trailRun := s.fld (Reg.EDGE_THR p) 31 24
  let minGap := s.fld (Reg.ITEM_GAP p) 9 0
  let x0 := s.fld (Reg.EDGE_WIN p) 13 0
  let x1 := s.fld (Reg.EDGE_WIN p) 29 16
  match x.fstate with
  | .search =>
    if mode = 0 then s.updPort p (fun x => { x with run := 0, presentRun := 0, tests := [] })
    else
      let live := decide (mode = 1) || pres
      let run := if occ && live then x.run + 1 else 0
      let prun := if mode = 2 ∧ pres then x.presentRun + 1 else 0
      let tests := if run = 0 ∧ prun = 0 then [] else x.tests ++ [(n, fg, occ)]
      let s := s.updPort p (fun x => { x with run := run, presentRun := prun, tests := tests })
      let byEdge := decide (run = runLen)
      let byPresent := decide (mode = 2) && decide (s.fld (Reg.ITEM_GAP p) 25 16 ≤ prun) && decide (0 < prun)
      if byEdge || byPresent then
        let lead := if byEdge then n - (runLen - 1) else n - (prun - 1)
        let overlap := match x.lastTrail with
          | some t => decide (lead < t + minGap)
          | none => false
        let s := s.updPort p (fun x => { x with run := 0 })
        if overlap then
          let prev := (s.port p).live.getLast?
          let s := match prev with
            | some f => s.setFace p { f with followed := true }
            | none => s
          let r := s.openFace p lead (!byEdge) prev.isNone tests
          match r.2 with
          | none => r.1
          | some f =>
            let s := r.1.updPort p Port.toGap
            if (s.item f.id).isNone then s.dropFace p f.id
            else
            let s := s.completeFrame p f
            s.abortFace p (((s.port p).faces.find? (fun g => g.id == f.id)).getD f) causeOverlap
        else
          let r := s.openFace p lead (!byEdge) false tests
          match r.2 with
          | none => r.1
          | some f => if f.lead + f.skewWin ≤ n + 1 ∧ (r.1.item f.id).isSome then r.1.completeFrame p f else r.1
      else s
  | .face =>
    match x.faces.getLast? with
    | none => s.updPort p (fun x => { x with fstate := .search })
    | some f =>
      let f := f.addLine n x0 x1 fg occ
      let gap := if occ then 0 else x.gap + 1
      let s := (s.setFace p f).updPort p (fun x => { x with gap := gap })
      let s := if f.framed = false ∧ f.aborted = false ∧ f.lead + f.skewWin ≤ n + 1 then s.completeFrame p f else s
      let f := ((s.port p).faces.find? (fun g => g.id == f.id)).getD f
      if mode = 2 ∧ pres = false ∧ gap < trailRun then
        s.endFace p { f with trailPresent := true } causeNormal (some (n - 1))
      else if gap = trailRun then let t := s.trailLine f; t.2.endFace p f causeNormal (some t.1)
      else if x.maxLen < n - f.lead + 1 then s.endFace p f causeOverlength none
      else s
  | .waitGap =>
    let gap := if occ then 0 else x.gap + 1
    let s := s.updPort p (fun x => { x with gap := gap, fell := x.fell || !pres })
    if trailRun ≤ gap ∧ (mode = 2 → (s.port p).fell) then s.updPort p (fun x => { x with fstate := .search, run := 0 }) else s

/-- STALL: writing line n into the ring would overwrite a line that an item still needs for a stripe not landed (R112). -/
def State.stallFaces (s : State) (p n : Nat) : List Face :=
  (s.port p).live.filter (fun f =>
    let need := f.line (f.landed * s.stripeS p) - s.haloH p
    let more := match f.trail with | some t => decide (f.landed < f.stripes t (s.stripeS p)) | none => true
    more && decide (need + s.ringLines p ≤ (n : Int)))

/-- The detection plane of an output line (R96). -/
def State.detPlane (s : State) (p : Nat) (planes : List (List Nat)) : List Nat :=
  let k := if s.mixed p then 0 else s.fld (Reg.FRAME_CTL p) 5 4
  (planes.drop k).headD []

/-- An output line that passes is available: it is written into the stripe ring, and framing looks at it (R96 to R112). -/
def State.frameLine (s : State) (p n : Nat) (stamp : DWord) (replaced : Bool) (planes : List (List Nat)) : State :=
  let s := (s.stallFaces p n).foldl (fun s f => s.abortFace p f causeStall) s
  let w := 64 * s.winW p
  let x0 := 64 * s.winX0 p
  let data := (planes.map (fun pl => ((pl.drop x0).take w).map (fun v => (BitVec.ofNat 8 v : Byte)))).flatten
  let a := s.ringBase p + (n % s.ringLines p) * s.ringLine p
  let s := if inRange a data.length then s.st a data else s
  let s := s.updPort p (fun x => { x with lastLine := some n, firstLine := some (x.firstLine.getD n),
                                          info := (x.info.erase (n - s.ringLines p)).set {} n ⟨stamp, replaced⟩ })
  s.detect p n (s.detPlane p planes)

end Sys2Proof.Machine
end

