-- ==== Sys2Proof/Machine/LinePort.lean ====
section
/-! DEFINITION. Line-sensor ports (04): enable and timing sets, the ISL link and its register channel, the receiving of lines,
conditioning, colour alignment, archive and calibration capture. -/
namespace Sys2Proof.Machine

/-- The four pages of port p (R73). -/
def linkPage (p : Nat) : Nat := 0x10000 + 0x4000 * p
def condPage (p : Nat) : Nat := 0x11000 + 0x4000 * p
def archPage (p : Nat) : Nat := 0x12000 + 0x4000 * p

/-- PORT_CTL.ENABLE, and L of PORT_FMT.LANES. -/
def State.portOn (s : State) (p : Nat) : Bool := s.flag (Reg.PORT_CTL p) 0
def State.laneCount (s : State) (p : Nat) : Nat := 4 * 2 ^ s.fld (Reg.PORT_FMT p) 27 26

/-- LINK_STATE (R77). -/
def State.linkState (s : State) (p : Nat) : Nat := s.fld (Reg.PORT_STS p) 1 0
def linkDown : Nat := 0
def linkLocking : Nat := 1
def linkAligning : Nat := 2
def linkUp : Nat := 3

/-! ## Timing sets (R76, R82 to R85) -/

/-- Words of a colour, W_c (R75). -/
def wordsPer (pixels : Nat) : Nat := ceilDiv (3 * pixels) 16

/-- The two conditions of R76 for a line period. -/
def State.rateOk (s : State) (p period : Nat) : Bool :=
  let c := s.colours p
  let b := c * ceilDiv (wordsPer (s.pixels p)) (s.laneCount p) + c + 2
  decide (b ≤ period * 50 / 99) && decide (3 * c * s.pixels p ≤ 128 * period)

/-- The format that an enable accepts (PORT_FMT). -/
def State.formatOk (s : State) (p : Nat) : Bool :=
  decide (s.fld (Reg.PORT_FMT p) 27 26 ≠ 3) && decide (1 ≤ s.colours p) && decide (256 ≤ s.pixels p) &&
  decide (s.pixels p ≤ 16384) && decide (s.pixels p % 64 = 0)

/-- The staged timing set, read from its registers (R85). -/
def State.staged (s : State) (p : Nat) : Timing :=
  let f := fun r => s.fld r 19 0
  { period := f (Reg.LINE_PER p),
    expStart := [f (Reg.EXP_START0 p), f (Reg.EXP_START1 p), f (Reg.EXP_START2 p)],
    expStop := [f (Reg.EXP_STOP0 p), f (Reg.EXP_STOP1 p), f (Reg.EXP_STOP2 p)],
    stbStart := [f (Reg.STB_START0 p), f (Reg.STB_START1 p), f (Reg.STB_START2 p)],
    stbStop := [f (Reg.STB_STOP0 p), f (Reg.STB_STOP1 p), f (Reg.STB_STOP2 p)],
    pol := s.fld (Reg.STB_CTL p) 6 4, follow := s.fld (Reg.STB_CTL p) 2 0,
    stepEn := s.flag (Reg.STEP_CFG p) 31, dir := s.flag (Reg.STEP_CFG p) 30, multM1 := s.fld (Reg.STEP_CFG p) 21 16,
    width := s.fld (Reg.STEP_CFG p) 15 0, stepOfs := f (Reg.STEP_OFS p) }

/-- Windows of the colours below c lie inside the period (R82). -/
def windowsOk (period c : Nat) (starts stops : List Nat) (skip : Nat) : Bool :=
  (List.range c).all (fun i => skip.testBit i ||
    (decide ((starts.drop i).headD 0 < (stops.drop i).headD 0) && decide ((stops.drop i).headD 0 ≤ period)))

/-- The step pulses fit the line (R84). -/
def Timing.stepOk (t : Timing) : Bool :=
  let n := t.multM1 + 1
  !t.stepEn || (decide (1 ≤ t.width) && decide (t.width + 1 ≤ t.period / n) &&
    decide (t.stepOfs + (n - 1) * t.period / n + t.width ≤ t.period))

/-- A staged set is valid (R76, R82 to R85). -/
def State.timingOk (s : State) (p : Nat) (t : Timing) : Bool :=
  decide (600 ≤ t.period) && s.rateOk p t.period && windowsOk t.period (s.colours p) t.expStart t.expStop 0 &&
  windowsOk t.period (s.colours p) t.stbStart t.stbStop t.follow && t.stepOk

/-- APPLY (R85): the staged set is used from the next line clock, or TIMING_ERR is set. -/
def State.apply (s : State) (p : Nat) : State :=
  let t := s.staged p
  if s.timingOk p t then
    let g := s.fld (Reg.TIMING_STS p) 31 16
    (((s.updPort p (fun x => { x with nextSet := some t, applied := true })).setFld (Reg.TIMING_STS p) 31 16 (g + 1)).setFlag
      (Reg.PORT_STS p) 8 false).raise (linkPage p) 5
  else (s.setFlag (Reg.PORT_STS p) 8 true).raise (linkPage p) 4

/-! ## The link (R74, R77, R80) -/

/-- Lanes 0 to L − 1 all hold block lock. -/
def State.allLocked (s : State) (p : Nat) : Bool :=
  (List.range (s.laneCount p)).all (fun i => s.flag (Reg.PORT_STS p) (16 + i))

/-- The link enters state `k`; leaving UP raises LINK_DOWN and marks the raw lines whose window is open (R86), reaching it
raises LINK_UP. -/
def State.linkTo (s : State) (p k : Nat) : State :=
  let was := s.linkState p
  let s := s.setFld (Reg.PORT_STS p) 1 0 k
  if was = linkUp ∧ k ≠ linkUp then
    (s.updPort p (fun x => { x with linkBad := range' x.expect (x.lines - x.expect) ++ x.linkBad })).raise (linkPage p) 1
  else if was ≠ linkUp ∧ k = linkUp then s.raise (linkPage p) 0
  else s

/-- LOCKING, or ALIGNING when every lane already holds block lock (R77). -/
def State.relock (s : State) (p : Nat) : State :=
  let s := s.linkTo p linkLocking
  if s.allLocked p then s.linkTo p linkAligning else s

/-- A lane gains or loses block lock (R74, R77). -/
def State.laneLock (s : State) (p lane : Nat) (b : Bool) : State :=
  if lane < s.laneCount p then
    let s := s.setFlag (Reg.PORT_STS p) (16 + lane) b
    if b then (if s.linkState p = linkLocking ∧ s.allLocked p then s.linkTo p linkAligning else s)
    else if linkAligning ≤ s.linkState p then s.linkTo p linkLocking else s
  else s

/-- Spread of the arrival slots of one marker over the lanes. -/
def spread (l : List Nat) : Nat := l.foldl max 0 - l.foldl min (l.headD 0)

/-- The arrival slots of a marker on the lanes, later by more than one block on some lane than in the established deskew. -/
def offDeskew (d slots : List Nat) : Bool :=
  let k := List.zipWith (fun (a b : Nat) => (a : Int) - b) slots d
  k.any (fun x => k.any (fun y => decide (1 < x - y)))

/-- A marker in a common slot on all lanes, with its arrival slot on each (R77). -/
def State.marker (s : State) (p : Nat) (slots : List Nat) : State :=
  if slots.length = s.laneCount p then
    if s.linkState p = linkAligning then
      (if spread slots ≤ 8 then (s.updPort p (fun x => { x with deskew := slots })).linkTo p linkUp else s)
    else if s.linkState p = linkUp ∧ offDeskew (s.port p).deskew slots then s.relock p
    else s
  else s

/-- The safe-state latch (R426). -/
def State.safe (s : State) : Bool := s.flag Reg.HM_STS 31

/-- A block on the control lane; the gates of the safe state hold it back (R426). -/
def State.islOut (s : State) (o : Out) : State := if s.safe then s else s.emit o

/-- The ISL SerDes PLLs are locked while a port runs (CLK_STS.ISL_LOCK). -/
def State.islLock (s : State) : State :=
  s.setFlag Reg.CLK_STS 1 ((List.range 4).any (fun p => s.portOn p))

/-- The run-time part of a port as an enable leaves it: line count, lines and framing start anew (R80, R86, R88), while
landing slots of handed stripes stay taken until retired (R106, R110). -/
def Port.fresh (x : Port) : Port :=
  { ({} : Port) with active := x.active, nextSet := x.nextSet, coef := x.coef, swapReq := x.swapReq, mix := x.mix, dly := x.dly,
                     regTag := x.regTag, regRead := x.regRead, calArmed := x.calArmed, calFrom := x.calFrom,
                     calSum := x.calSum, dirOut := x.dirOut, slots := x.slots, applied := x.applied, notices := x.notices }

/-- The checks of an enable, and what follows (R80, R85, R109). -/
def State.enablePort (s : State) (p : Nat) : State :=
  let stay := fun (s : State) => (s.setFlag (Reg.PORT_CTL p) 0 false).setFlag (Reg.PORT_STS p) 9 true
  if s.formatOk p = false then stay s
  else if s.timingOk p (s.staged p) = false then (stay (s.setFlag (Reg.PORT_STS p) 8 true)).raise (linkPage p) 4
  else if s.stripeOk p = false then stay (s.setFlag (Reg.FRAME_STS p) 30 true)
  else
    let s := (s.setFlag (Reg.PORT_STS p) 9 false).setFlag (Reg.FRAME_STS p) 30 false
    let s := s.updPort p Port.fresh
    let s := (s.wr (Reg.TIMING_STS p) 0).apply p
    ((s.islOut (.isl p 0xB4 (zeros 7))).relock p).islLock

/-- What a disable does (R80, R67): every open face ends DISABLE, outputs go inactive, lines in progress are discarded, waiting
writes take effect. -/
def State.disablePort (s : State) (p : Nat) : State :=
  let s := (s.port p).live.foldl (fun s f => s.abortFace p f causeDisable) s
  let s := s.linkTo p linkDown
  let s := (s.updPort p (fun x => { x.fresh with nextSet := none })).setFlag (Reg.PORT_STS p) 2 false
  (s.itemBoundary p).islLock

/-- A write to PORT_CTL (R80, R85). -/
def State.portCtl (s : State) (req : Req) (p : Nat) (v : Word) : State :=
  let was := s.portOn p
  s.storeThen req (Reg.PORT_CTL p) v (fun s =>
    if was = false ∧ bit v 0 then s.enablePort p
    else if was ∧ bit v 0 = false then s.disablePort p
    else s)

/-- A write to PORT_FMT (R76): refused while the port is enabled. -/
def State.portFmt (s : State) (req : Req) (p : Nat) (v : Word) : State :=
  if s.portOn p then s.setFlag (Reg.PORT_STS p) 9 true else (s.store req (Reg.PORT_FMT p) v).1

/-! ## Conditioning and colour alignment (R89 to R93) -/

/-- a16 of a raw sample before the clamp: t of R89. -/
def condT (s : Nat) (coef : Word) : Int :=
  (((s : Int) - signed 12 (bits coef 11 0)) * (bits coef 31 16 : Nat) + 128) / 256

/-- v8 of an a16 value (R89). -/
def v8of (a : Nat) : Nat := min ((a + 128) / 256) 255

/-- Coefficient of a colour and pixel in a bank. -/
def Port.coefAt (x : Port) (bank c px : Nat) : Word := x.coef.get 0 (bank * 65536 + 16384 * c + px)

/-- Condition a raw line (R89): a16 planes, with the saturation counts. -/
def State.condition (s : State) (p : Nat) (raw : List (List Nat)) : List (List Nat) × State :=
  let x := s.port p
  let bank := s.fld (Reg.COND_CTL p) 0 0
  let t := raw.zipIdx.map (fun (pl : List Nat × Nat) => pl.1.zipIdx.map (fun (e : Nat × Nat) => condT e.1 (x.coefAt bank pl.2 e.2)))
  let hi := (t.map (fun l => (l.filter (fun v => decide (65535 < v))).length)).sum
  let lo := (t.map (fun l => (l.filter (fun v => decide (v < 0))).length)).sum
  let s := (s.count (Reg.P1_CNT_SAT_HI p) hi).count (Reg.P1_CNT_SAT_LO p) lo
  (t.map (fun l => l.map (fun v => (iclamp 0 65535 v).toNat)), if hi + lo = 0 then s else s.raise (condPage p) 1)

/-- The planes of output line n (R91, R92): each colour from its own raw line, zeros while the delay lines refill. -/
def Port.outPlanes (x : Port) (n c pixels : Nat) : List (List Nat) :=
  (List.range c).map (fun k =>
    let d := (x.dly.drop k).headD 0
    if n < d ∨ (0 < d ∧ n < x.refillEnd) then List.replicate pixels 0
    else match x.hist.find? (fun e => e.1 == n - d) with
      | some e => (e.2.2.drop k).headD (List.replicate pixels 0)
      | none => List.replicate pixels 0)

/-- The link was UP for every raw line that contributes to output line n (R88). -/
def Port.linkGood (x : Port) (n c : Nat) : Bool :=
  (List.range c).all (fun k =>
    let d := (x.dly.drop k).headD 0
    decide (d ≤ n) && ((x.hist.find? (fun e => e.1 == n - d)).map (fun e => e.2.1)).getD false)

/-- The reading copy (R93): one 8-bit plane per colour, or the mixed plane. -/
def State.readCopy (s : State) (p : Nat) (a16 : List (List Nat)) : List (List Nat) :=
  let v := a16.map (fun l => l.map v8of)
  if s.mixed p ∧ 1 < v.length then
    let w := (s.port p).mix
    let sums := (v.zip w).foldl (fun (acc : List Nat) (e : List Nat × Nat) => List.zipWith (· + ·) acc (e.1.map (· * e.2)))
      (List.replicate (s.pixels p) 128)
    [sums.map (· / 256)]
  else v

/-! ## Archive and calibration capture (R94, R95) -/

/-- 16-bit values, little-endian. -/
def halves (l : List Nat) : Bytes := (l.map (toLe 2)).flatten

/-- Write bytes of a port's copy in memory, where they can be written. -/
def State.portStore (s : State) (a : Nat) (b : Bytes) : State := if s.canWrite 0 a b.length = .ok then s.stUnit a b else s

/-- The archive copy of an output line (R94). -/
def State.archive (s : State) (p n : Nat) (stamp : DWord) (replaced : Bool) (a16 : List (List Nat)) : State :=
  let mode := s.fld (Reg.ARCH_CTL p) 1 0
  let x := s.port p
  let item := if x.fstate = FState.face then ((x.faces.getLast?).filter (fun (f : Face) => !f.aborted)).map (fun (f : Face) => f.id) else none
  if mode = 2 ∨ (mode = 1 ∧ item.isSome) then
    let lines := s.fld (Reg.ARCH_LINES p) 23 0
    let w := s.fld (Reg.ARCH_WPTR p) 23 0
    let next := if w + 1 = lines then 0 else w + 1
    if next = s.fld (Reg.ARCH_RPTR p) 23 0 then (s.bump (Reg.P2_CNT_ARCH_DROP p)).raise (archPage p) 0
    else
      let size := ceilDiv (32 + 2 * s.colours p * s.pixels p) 64 * 64
      let b := toLe 8 (item.getD 0) ++ toLe 8 stamp.toNat ++ toLe 4 n ++ toLe 1 (ofBool replaced + 2 * ofBool item.isSome) ++
        zeros 11 ++ (a16.map halves).flatten
      let base := s.addr48 (Reg.ARCH_BASE_LO p) (Reg.ARCH_BASE_HI p)
      (s.portStore (base + w * size) (b ++ zeros (size - b.length))).setFld (Reg.ARCH_WPTR p) 23 0 next
  else s

/-- The end of a capture. -/
def State.calEnd (s : State) (p : Nat) : State := (s.setFlag (Reg.P2_CAL_STS p) 31 false).raise (archPage p) 1

/-- A capture's destination (R95). -/
def State.calDst (s : State) (p : Nat) : Nat := s.addr48 (Reg.CAL_DST_LO p) (Reg.CAL_DST_HI p) / 64 * 64

/-- PROFILE: the means of one line over the window (R95); a window that leaves the line has means the spec does not give. -/
def State.profileLine (s : State) (p : Nat) (a16 : List (List Nat)) : List Nat × State :=
  let x0 := s.fld (Reg.CAL_WIN p) 13 0
  let w := s.fld (Reg.CAL_WIN p) 30 16
  if 1 ≤ w ∧ x0 + w ≤ s.pixels p then
    ((List.range 4).map (fun c => if c < s.colours p then (((a16.drop c).headD []).drop x0 |>.take w).sum / w else 0), s)
  else
    let r := s.fresh64
    ((List.range 4).map (fun c => if c < s.colours p then bits r.1 (16 * c + 15) (16 * c) else 0), r.2)

/-- An accepted raw line is captured, when a capture runs that began at or before its line clock (R95). -/
def State.captureLine (s : State) (p n : Nat) (raw a16 : List (List Nat)) : State :=
  if s.flag (Reg.P2_CAL_STS p) 31 ∧ (s.port p).calFrom ≤ n then
    let done := s.fld (Reg.P2_CAL_STS p) 19 0
    let dst := s.calDst p
    if s.fld (Reg.P2_CAL_CTL p) 29 28 = 1 then
      let r := s.profileLine p a16
      let s := (r.2.portStore (dst + 8 * done) (halves r.1)).setFld (Reg.P2_CAL_STS p) 19 0 (done + 1)
      if s.fld (Reg.CAL_LEN p) 19 0 ≤ done + 1 then s.calEnd p else s
    else
      let k := s.fld (Reg.P2_CAL_CTL p) 3 0
      let px := s.pixels p
      let flat := raw.flatten
      let sum := (List.range (s.colours p * px)).map (fun i => (s.port p).calSum.get 0 i + (flat.drop i).headD 0)
      let s := (s.updPort p (fun x => { x with calSum := (sum.zipIdx.filter (fun (e : Nat × Nat) => e.1 != 0)).map (fun e => (e.2, e.1)) })).setFld
        (Reg.P2_CAL_STS p) 19 0 (done + 1)
      if 2 ^ k ≤ done + 1 then
        (s.portStore dst (halves (sum.map (fun v => if k = 0 then v else (v + 2 ^ (k - 1)) / 2 ^ k)))).calEnd p
      else s
  else s

/-- A capture starts at a line clock (R95). -/
def State.calBegin (s : State) (p n : Nat) : State :=
  if (s.port p).calArmed then
    let s := (s.updPort p (fun x => { x with calArmed := false, calFrom := n, calSum := [] })).wr (Reg.P2_CAL_STS p) 0x80000000
    if s.fld (Reg.P2_CAL_CTL p) 29 28 = 1 ∧ s.fld (Reg.CAL_LEN p) 19 0 = 0 then s.calEnd p else s
  else s

/-- A write of CAL_CTL (R95): START asks for a capture at the next line clock, if MODE is PROFILE or COLUMN. -/
def State.calStart (s : State) (req : Req) (p : Nat) (v : Word) : State :=
  s.storeThen req (Reg.P2_CAL_CTL p) v (fun s =>
    if bit v 31 ∧ (bits v 29 28 = 1 ∨ bits v 29 28 = 2) then s.updPort p (fun x => { x with calArmed := true }) else s)

/-- A write of ARCH_LINES sets the ring size and resets both pointers (R94). -/
def State.archLines (s : State) (req : Req) (p : Nat) (v : Word) : State :=
  s.storeThen req (Reg.ARCH_LINES p) v (fun s => (s.wr (Reg.ARCH_WPTR p) 0).wr (Reg.ARCH_RPTR p) 0)

/-! ## Coefficient banks (R90) -/

/-- COEF_CMD.LOAD: refused while a load runs or a swap waits; otherwise the words are read and fill the inactive bank. Words
that cannot be read leave the bank's contents open (free values) and set LOAD_ERR. -/
def State.coefLoad (s : State) (p : Nat) : State :=
  if s.flag (Reg.COND_STS p) 31 ∨ (s.port p).swapReq then s.setFlag (Reg.COND_STS p) 0 true
  else
    let px := s.pixels p
    let n := s.colours p * px
    let a := s.addr48 (Reg.COEF_SRC_LO p) (Reg.COEF_SRC_HI p) / 4 * 4
    let ok := s.canRead 0 a (4 * n) = .ok
    let r := if ok then s.ldUnit a (4 * n) else s.freshBytes (4 * n)
    let bank := 1 - s.fld (Reg.COND_CTL p) 0 0
    let new := ((List.range n).map (fun i => (bank * 65536 + 16384 * (i / px) + i % px, (BitVec.ofNat 32 (leAt r.1 (4 * i) 4) : Word)))).filter
      (fun (e : Nat × Word) => e.2 != 0)
    let s := r.2.updPort p (fun x =>
      let old := x.coef.filter (fun (e : Nat × Word) => e.1 / 65536 != bank || 16384 * s.colours p ≤ e.1 % 65536 || px ≤ e.1 % 16384)
      { x with coef := new.foldl (fun (t : Tab Word) e => t.insert e.1 e.2) old })
    (s.setFlag (Reg.COND_STS p) 31 true).setFlag (Reg.COND_STS p) 0 (!ok)

/-- The banks are exchanged. -/
def State.swapBanks (s : State) (p : Nat) : State :=
  (s.updPort p (fun x => { x with swapReq := false })).setFlag (Reg.COND_CTL p) 0 (!s.flag (Reg.COND_CTL p) 0)

/-- The load ends (R90); a swap that waited on a disabled port is made now (R67). -/
def State.coefDone (s : State) (p : Nat) : State :=
  if s.flag (Reg.COND_STS p) 31 then
    let s := (s.setFlag (Reg.COND_STS p) 31 false).raise (condPage p) 0
    if (s.port p).swapReq ∧ s.portOn p = false then s.swapBanks p else s
  else s

/-- A write of COND_CTL: READ_MODE waits for the item boundary, and SWAP asks for the exchange there; on a disabled port both
take effect at once (R90, R67). -/
def State.condCtl (s : State) (req : Req) (p : Nat) (v : Word) : State :=
  s.storeThen req (Reg.COND_CTL p) v (fun s =>
    if bit v 4 then
      (if s.portOn p = false ∧ s.flag (Reg.COND_STS p) 31 = false then s.swapBanks p
       else s.updPort p (fun x => { x with swapReq := true }))
    else s)

/-! ## Lines (R86 to R88, R91) -/

/-- Causes of replacement in the order of R86. -/
inductive LineCause where
  | link | seq | fmt | crc | late
  deriving DecidableEq, Repr

/-- The counter of a cause. -/
def LineCause.reg (p : Nat) : LineCause → Nat
  | .link => Reg.P0_CNT_REPL_LINK p
  | .seq => Reg.P0_CNT_REPL_SEQ p
  | .fmt => Reg.P0_CNT_REPL_FMT p
  | .crc => Reg.P0_CNT_REPL_CRC p
  | .late => Reg.P0_CNT_REPL_LATE p

/-- An output line that is passed on: framing, archive, and the run of replaced lines that ends the items whose rows include the line (R87). -/
def State.passLine (s : State) (p n : Nat) (stamp : DWord) (replaced : Bool) (a16 : List (List Nat)) : State :=
  let s := s.frameLine p n stamp replaced (s.readCopy p a16)
  let s := s.archive p n stamp replaced a16
  let s := s.updPort p (fun x => { x with replRun := if replaced then x.replRun + 1 else 0 })
  if s.fld (Reg.PORT_CTL p) 15 8 < (s.port p).replRun then
    ((s.port p).live.filter (fun f => match f.trail with | some t => decide (n ≤ t + f.pad) | none => true)).foldl
      (fun s f => s.abortFace p f causeLink) s
  else s

/-- Raw line n is accepted (`raw`) or replaced with a cause, and output line n is formed (R86, R88, R91, R92). -/
def State.settleLine (s : State) (p n : Nat) (got : Except LineCause (List (List Nat))) : State :=
  let x := s.port p
  let c := s.colours p
  let px := s.pixels p
  let up := decide (s.linkState p = linkUp) && !x.linkBad.contains n
  let stamp := x.stamps.get 0 n
  let raw := match got with
    | .ok r => r
    | .error _ => x.lastRaw.getD (List.replicate c (List.replicate px 0))
  let r := s.condition p raw
  let a16 := r.1
  let s := r.2.updPort p (fun x =>
    { x with expect := n + 1, stamps := x.stamps.erase n, linkBad := x.linkBad.filter (fun k => k != n),
             rx := match x.rx with | some l => if l.n = n then none else some l | none => none,
             lastRaw := match got with | .ok r => some r | .error _ => x.lastRaw,
             hist := (n, up, a16) :: x.hist.take 256 })
  let s := match got with
    | .ok _ => (s.bump (Reg.P0_CNT_LINES p)).captureLine p n raw a16
    | .error _ => s
  let x := s.port p
  let refill := decide (n < x.refillEnd)
  let s := match got with
    | .error e => s.bump ((if up then e else .link).reg p)
    | .ok _ => if refill then s.bump (Reg.P0_CNT_REPL_FMT p) else s
  let replaced := (match got with | .ok _ => false | .error _ => true) || refill
  let s := if replaced then s.raise (linkPage p) 2 else s
  let maxD := (x.dly.take c).foldl max 0
  let passing := x.passing || (decide (maxD ≤ n) && x.linkGood n c)
  let out := x.outPlanes n c px
  if passing then
    ((s.updPort p (fun x => { x with passing := true })).setFlag (Reg.PORT_STS p) 2 true).passLine p n stamp replaced out
  else s

/-- Replace the raw lines from the expected one up to, but not including, line n: FMT where the line had begun, SEQ otherwise
(R86). -/
def State.replaceTo (s : State) (p n : Nat) : State :=
  (range' (s.port p).expect (n - (s.port p).expect)).foldl (fun s k =>
    let begun := match (s.port p).rx with | some l => l.n == k | none => false
    s.settleLine p k (.error (if begun then .fmt else .seq))) s

/-- LINE_START: the 16-bit number names an expected line whose LINE event has been issued, or it is discarded (R86). -/
def State.lineStart (s : State) (p : Nat) (num : BitVec 16) (colours : Nat) (slots : List Nat) : State :=
  let s := s.marker p slots
  let x := s.port p
  if s.portOn p ∧ s.linkState p = linkUp then
    match (range' x.expect (x.lines - x.expect)).find? (fun k => k % 65536 == num.toNat) with
    | none => s
    | some n =>
      if (match x.rx with | some l => l.n == n | none => false) then s
      else
        let s := s.replaceTo p n
        s.updPort p (fun x => { x with rx := some { n := n, fmtOk := decide (colours = s.colours p) } })
  else s

/-- COLOUR_START begins the data blocks of the next colour (R75). -/
def State.colourStart (s : State) (p c pixels : Nat) : State :=
  s.updPort p (fun x => match x.rx with
    | none => x
    | some l => { x with rx := some { l with colour := c, colours := l.colours + 1, count := [],
                                             fmtOk := l.fmtOk && decide (c = l.colours) && decide (pixels = s.pixels p) } })

/-- A data block on a lane: word lane + L × index of the colour (R75). -/
def State.dataBlock (s : State) (p lane : Nat) (w : DWord) : State :=
  let l := s.laneCount p
  if lane < l then
    s.updPort p (fun x => match x.rx with
      | none => x
      | some r =>
        let i := r.count.get 0 lane
        { x with rx := some { r with words := r.words.set 0 (65536 * r.colour + lane + l * i) w, count := r.count.set 0 lane (i + 1),
                                     crc := r.crc.insert lane ((toLe 8 w.toNat).foldl (crcStep 0x82F63B78) (r.crc.get 0xFFFFFFFF lane)) } })
  else s

/-- Sample x of colour c: bits 12x + 11 to 12x of the colour's stream (R75). -/
def RxLine.sample (r : RxLine) (c x : Nat) : Nat :=
  let b := 12 * x
  let w := (r.words.get 0 (65536 * c + b / 64)).toNat + (r.words.get 0 (65536 * c + b / 64 + 1)).toNat * 2 ^ 64
  w / 2 ^ (b % 64) % 4096

/-- What LINE_END on every lane makes of the line being received (R86): its samples, or the cause of its replacement. -/
def State.lineGot (s : State) (p : Nat) (r : RxLine) (num : BitVec 16) (crcs : List Word) : Except LineCause (List (List Nat)) :=
  let c := s.colours p
  let per := ceilDiv (wordsPer (s.pixels p)) (s.laneCount p)
  let lanes := List.range (s.laneCount p)
  let whole := decide (r.colours = c) && (c == 0 || lanes.all (fun i => r.count.get 0 i == per))
  let crcOk := decide (crcs.length = lanes.length) &&
    lanes.all (fun i => (r.crc.get 0xFFFFFFFF i) ^^^ 0xFFFFFFFF == ((crcs.drop i).headD 0).toNat)
  if r.n % 65536 ≠ num.toNat then .error .seq
  else if r.fmtOk = false ∨ whole = false then .error .fmt
  else if crcOk = false then .error .crc
  else .ok ((List.range c).map (fun k => (List.range (s.pixels p)).map (r.sample k)))

/-- LINE_END on every lane: the line is accepted, or replaced with SEQ, FMT or CRC (R86). -/
def State.lineEnd (s : State) (p : Nat) (num : BitVec 16) (crcs : List Word) : State :=
  match (s.port p).rx with
  | none => s
  | some r => (s.replaceTo p r.n).settleLine p r.n ((s.replaceTo p r.n).lineGot p r num crcs)

/-- LINE_CLOCK (R82, R85, R86, R99): the waiting timing set is taken, the LINE event of the next raw line is issued and stamped,
page-present is sampled, the direction follows, an armed capture begins, and the line whose window ends is replaced. -/
def State.lineClock (s : State) (p : Nat) : State :=
  if s.portOn p then
    let x := s.port p
    let n := x.lines
    let active := x.nextSet.getD x.active
    let s := s.updPort p (fun x =>
      { x with active := active, nextSet := none, lines := n + 1, stamps := x.stamps.set 0 n s.clk.tb, dirOut := active.dir,
               linkBad := if s.linkState p = linkUp then x.linkBad else n :: x.linkBad,
               present := (n, s.ppActive.contains p) :: x.present.take 4200 })
    let s := (s.islOut (.islEvent p (n % 256) 1 0)).calBegin p n
    if 2 ≤ n ∧ (s.port p).expect ≤ n - 2 then
      let begun := match (s.port p).rx with | some l => l.n == n - 2 | none => false
      s.settleLine p (n - 2) (.error (if begun then .late else .fmt))
    else s
  else s

/-! ## Events inside the line (R82 to R84) -/

/-- The line in progress. -/
def State.curLine (s : State) (p : Nat) : Nat := ((s.port p).lines - 1) % 256

/-- EXP_ON (kind 2) or EXP_OFF (kind 3) of a colour. -/
def State.expEvent (s : State) (p kind c : Nat) : State :=
  if s.portOn p ∧ c < s.colours p ∧ 0 < (s.port p).lines then s.islOut (.islEvent p (s.curLine p) kind c) else s

/-- A strobe of a colour below C goes to its active or inactive level (R83). -/
def State.strobeTo (s : State) (p c : Nat) (on : Bool) : State :=
  if s.portOn p ∧ c < s.colours p ∧ 0 < (s.port p).lines then
    s.updPort p (fun x => { x with strobe := nbits x.strobe 31 (c + 1) * 2 ^ (c + 1) + ofBool on * 2 ^ c + x.strobe % 2 ^ c })
  else s

/-- A step pulse rises or falls, when the active set issues steps (R84). -/
def State.stepTo (s : State) (p : Nat) (b : Bool) : State :=
  if s.portOn p ∧ (s.port p).active.stepEn ∧ 0 < (s.port p).lines then s.updPort p (fun x => { x with step := b }) else s

/-! ## The register channel (R81) -/

/-- GO of REG_CMD: opens a transaction with a tag of the port's choice, unless one is open. -/
def State.regGo (s : State) (p : Nat) (isRead : Bool) : State :=
  if s.flag (Reg.REG_STS p) 31 then s
  else
    let r := s.freshBytes 1
    let tag := byteAt r.1 0
    let s := (r.2.updPort p (fun x => { x with regTag := tag, regRead := isRead })).setFlag (Reg.REG_STS p) 31 true
    let body := toLe 1 tag ++ toLe 2 (s.fld (Reg.REG_ADDR p) 15 0) ++ (if isRead then zeros 4 else toLe 4 (s.rd (Reg.REG_WDATA p)).toNat)
    if s.portOn p then s.islOut (.isl p (if isRead then 0xAA else 0x99) body) else s

/-- The open transaction ends with a RESULT (R81). -/
def State.regEnd (s : State) (p result : Nat) : State :=
  ((s.setFlag (Reg.REG_STS p) 31 false).setFld (Reg.REG_STS p) 1 0 result).raise (linkPage p) 3

/-- REG_REPLY with the open transaction's tag (R81). -/
def State.regReply (s : State) (p : Nat) (tag status : Byte) (data : Word) : State :=
  if s.flag (Reg.REG_STS p) 31 ∧ tag.toNat = (s.port p).regTag then
    let s := s.setFld (Reg.REG_STS p) 15 8 status.toNat
    let s := if (s.port p).regRead then s.wr (Reg.REG_RDATA p) data else s
    s.regEnd p (if status = 0 then 1 else 2)
  else s

/-- 100 µs pass without the matching reply (R81). -/
def State.regTimeout (s : State) (p : Nat) : State := if s.flag (Reg.REG_STS p) 31 then s.regEnd p 3 else s

end Sys2Proof.Machine
end

