-- ==== Sys2Proof/Machine/Ports.lean ====
section
/-! DEFINITION. The 64-byte ports of R450 and the posted writes that units make to device memory, tile windows and register space. -/
namespace Sys2Proof.Machine

/-! ## Semaphores of the attention units (R226) -/

def auPage (u : Nat) : Nat := 0x201000 + 0x1000 * u

/-- Semaphore i. -/
def State.auSem (s : State) (u i : Nat) : Nat := s.fld (Reg.AU_SEM_01 u + 4 * (i / 2)) (16 * (i % 2) + 15) (16 * (i % 2))
def State.setAuSem (s : State) (u i n : Nat) : State := s.setFld (Reg.AU_SEM_01 u + 4 * (i / 2)) (16 * (i % 2) + 15) (16 * (i % 2)) n

/-- Post a semaphore: above 65,535 not applied, SEM_OVF and CMD_ERR (R226). -/
def State.auPost (s : State) (u i : Nat) : State :=
  if s.auSem u i = 65535 then (s.setFlag (Reg.AU_STS u) 29 true).raise (auPage u) 1 else s.setAuSem u i (s.auSem u i + 1)

/-! ## Launch port of an instance (R349) -/

/-- A write to the launch port of instance v of partition p (R349). -/
def State.partLaunch (s : State) (p v : Nat) (r : BitVec 512) (whole : Bool) : State :=
  let P := s.part p
  if whole = false ∨ launchOk r = false ∨ P.state ≠ .active ∨ P.nvis ≤ v ∨ (s.vi p v).state = .resetting then
    s.dropLaunch (Reg.PART_CNT_LAUNCH_DROP p) (partPage p) 7
  else match P.coreList.find? (fun c => (s.parkedHart c).isSome) with
    | some c => s.launchCore c v r
    | none =>
      if 256 ≤ P.launchQ.length then s.dropLaunch (Reg.PART_CNT_LAUNCH_DROP p) (partPage p) 7
      else s.setPart p { P with launchQ := P.launchQ ++ [(v, r)] }

def klPage : Nat := 0x320000

/-- STATE and SYSID of KL_STS. -/
def State.klState (s : State) : Nat := s.fld Reg.KL_STS 31 28
def State.sysid (s : State) : Nat := s.fld Reg.KL_STS 15 8

/-! ## Shadows (R385) -/

def State.shadowBad (s : State) : State := (s.bump Reg.KL_CNT_SHADOW_BAD).raise klPage 5

/-- A write to the shadow port. -/
def State.shadowPort (s : State) (b : Bytes) : State :=
  let id := leAt b 0 8
  let sh := [byteAt b 32, byteAt b 33, byteAt b 34, byteAt b 35]
  let rising := decide (byteAt b 32 < byteAt b 33) && decide (byteAt b 33 < byteAt b 34) && decide (byteAt b 34 < byteAt b 35)
  let op := byteAt b 40
  if b.length ≠ 64 ∨ zeroAt b 41 23 = false ∨ s.klState = 6 then s.shadowBad
  else if op = 2 then
    (match s.item id with
     | none => s.shadowBad
     | some it => if it.shadow.isSome then s.freeItem id else s.shadowBad)
  else if op = 1 ∧ byteAt b 36 ≤ 4 ∧ byteAt b 37 ≤ 2 ∧ rising ∧ nbits id 63 56 ≠ s.sysid ∧ (s.item id).isNone ∧ s.items.length < 65536 then
    let anchor := leAt b 8 8
    let deadline := leAt b 16 8
    let sealAt := leAt b 24 8
    let budget : Int := (deadline : Int) - anchor
    let it : Item := { anchor := anchor, deadline := deadline, hasDl := true, sealAt := sealAt,
                       ms := sh.map (fun (v : Nat) => let m := (anchor : Int) + budget * (v : Int) / 256; if (sealAt : Int) < m then (sealAt : Int) else m),
                       pv := { lateMode := byteAt b 37, lateMs := leAt b 38 2 }, part := 9, shadow := some (byteAt b 36) }
    s.setItem id { it with urg := it.urgency s.now }
  else s.shadowBad

/-! ## Ports by their address (R450) -/

/-- A write of bytes `b` from BAR0 offset `o` on reaches a port: none where no port lies. What is not one aligned 64-byte write is
dropped under the port's own rule; the post port acts on its first byte alone (R226). -/
def State.portWrite (s : State) (o : Nat) (b : Bytes) : Option State :=
  let r := o % 0x1000
  let whole := decide (r % 64 = 0) && decide (b.length = 64)
  let w := if whole then b else []
  let rcd := BitVec.ofNat 512 (leNat w)
  match pageAt o with
  | some .rcd => if 0xFC0 ≤ r then some (s.commit w) else none
  | some .au => if 0xFC0 ≤ r then some (if r = 0xFC0 then s.auPost ((o - 0x201000) / 0x1000) (byteAt b 0 % 16) else s) else none
  | some .core => if 0xFC0 ≤ r then some (s.launchPort ((o - 0x221000) / 0x1000) rcd whole) else none
  | some .part =>
    let p := (o - 0x311000) / 0x1000
    if 0xC00 ≤ r then some (s.partLaunch p ((r - 0xC00) / 64) rcd whole)
    else if 0x800 ≤ r then some (s.placePort p ((r - 0x800) / 64) w)
    else none
  | some .kl => if 0xFC0 ≤ r then some (s.shadowPort w) else none
  | _ => none

/-! ## Posted writes of units -/

/-- A write within one 64-byte line of a tile window or of register space: a queue port, a port, or a malformed register write
(R58, R143, R168). -/
def State.lineWrite (s : State) (req : Req) (a : Nat) (b : Bytes) : State :=
  if regBase ≤ a then (s.portWrite (a - regBase) b).getD (s.unmapped req (a - regBase))
  else if (a - tileBase) % 0x200000 / 64 = 0x7FFF then s.queuePort ((a - tileBase) / 0x200000) (if a % 64 = 0 then b else [])
  else s.stUnit a b

/-- Cut bytes at the 64-byte lines of their addresses. -/
def cutLines : Nat → Nat → Bytes → List (Nat × Bytes)
  | 0, _, _ => []
  | _, _, [] => []
  | k + 1, a, b => let n := 64 - a % 64; (a, b.take n) :: cutLines k (a + n) (b.drop n)

/-- A unit's write of bytes from device address `a` on, below the peer windows or in host memory. -/
def State.bulkWrite (s : State) (req : Req) (a : Nat) (b : Bytes) : State :=
  if tileBase ≤ a ∧ a < peerBase then (cutLines (b.length / 64 + 2) a b).foldl (fun (s : State) (e : Nat × Bytes) => s.lineWrite req e.1 e.2) s
  else s.stUnit a b

/-- A unit's read: of register space, every 64-byte read covers more than one register and reads zero (R58). -/
def State.bulkRead (s : State) (req : Req) (a n : Nat) : Bytes × State :=
  if regBase ≤ a ∧ a < peerBase then
    (zeros n, (linesOf a n).foldl (fun (s : State) l => s.unmapped req (l * 64 - regBase)) s)
  else s.ldUnit a n

end Sys2Proof.Machine
end

