-- ==== Sys2Proof/Machine/TileArith.lean ====
section
/-! DEFINITION. The arithmetic of a vision tile, bit for bit (08, R165 to R167, R174 to R176): weight block records, generator inputs,
the drain, rescaling and its statistics, pointwise functions, normalisation and the feature-map codec. -/
namespace Sys2Proof.Machine

/-- Fault codes of a tile (R172). -/
inductive TFault where
  | badOpcode | badShape | addr | pane | linkAbsent | linkLen | semOvf | dmaErr | ecc | reservedBits
  deriving DecidableEq, Repr

def TFault.code : TFault → Nat
  | .badOpcode => 1 | .badShape => 2 | .addr => 3 | .pane => 4 | .linkAbsent => 5 | .linkLen => 6 | .semOvf => 7
  | .dmaErr => 8 | .ecc => 9 | .reservedBits => 10

/-! ## Weight block records (R178 to R181) -/

/-- Code width of a format (R178). -/
def codeWidth (fmt : Nat) : Nat := if fmt = 3 then 8 else fmt + 2

/-- The escape pattern of a format, none for 2-bit and 8-bit (R178). -/
def escPattern (fmt : Nat) : Option Nat := match fmt with | 1 => some 4 | 2 => some 8 | _ => none

/-- What field `f` means (R178); an escape selects zero. -/
def codeValue (fmt f : Nat) : Int :=
  if escPattern fmt = some f then 0 else if fmt = 0 then 2 * (f : Int) - 3 else signed (codeWidth fmt) f

/-- A checked weight block: the 64 code rows as numbers, group scale codes, super-scales and the side list (k, n, V). -/
structure WBlock where
  fmt : Nat
  rows : List Nat
  gs : List Nat
  super : List Nat
  side : List (Nat × Nat × Nat)
  deriving DecidableEq, Repr

/-- Code field (k, n) (R180). -/
def WBlock.field (w : WBlock) (k n : Nat) : Nat :=
  (w.rows.drop k).headD 0 / 2 ^ (codeWidth w.fmt * n) % 2 ^ codeWidth w.fmt

/-- Positions that hold the escape pattern, ascending. -/
def WBlock.escapes (w : WBlock) : List (Nat × Nat) :=
  match escPattern w.fmt with
  | none => []
  | some p => ((List.range 64).map (fun k => ((List.range 64).filter (fun n => w.field k n == p)).map (fun n => (k, n)))).flatten

/-- Bytes of a record with e escapes, to its 64-byte boundary (R180). -/
def weightBytes (fmt e : Nat) : Nat := ceilDiv (256 + 512 * codeWidth fmt + 4 * e) 64 * 64

/-- bf16 or fp16 bits are a NaN or an infinity. -/
def notFinite (f : Fmt) (n : Nat) : Bool := !(f.decode n).isFin

/-- The side-list words of a record. -/
def sideWords (fmt esc : Nat) (b : Bytes) : List Nat :=
  (List.range esc).map (fun i => leAt b (256 + 512 * codeWidth fmt + 4 * i) 4)

/-- Check a record of `b`, which holds at least its base size, against R181 in order; `room` is WSTRIDE × 64. -/
def parseBlock (fmt room : Nat) (b : Bytes) : Except TFault WBlock :=
  let esc := leAt b 2 2
  let side := if 511 < esc then [] else sideWords fmt esc b
  let used := 256 + 512 * codeWidth fmt + 4 * esc
  if zeroAt b 1 1 = false ∨ zeroAt b 4 60 = false ∨ side.any (fun v => decide (2 ^ 28 ≤ v)) ∨
     (esc ≤ 511 ∧ zeroAt b used (weightBytes fmt esc - used) = false) then .error .reservedBits
  else if byteAt b 0 ≠ fmt then .error .badShape
  else if 511 < esc ∨ (escPattern fmt = none ∧ esc ≠ 0) then .error .badShape
  else if room < weightBytes fmt esc then .error .badShape
  else
    let w : WBlock :=
      { fmt := fmt, rows := (List.range 64).map (fun k => leAt b (256 + 8 * codeWidth fmt * k) (8 * codeWidth fmt)),
        gs := (List.range 64).map (fun n => byteAt b (64 + n)), super := (List.range 64).map (fun n => leAt b (128 + 2 * n) 2),
        side := side.map (fun v => (nbits v 27 22, nbits v 21 16, v % 65536)) }
    if w.escapes ≠ w.side.map (fun e => (e.1, e.2.1)) then .error .badShape
    else if w.super.any (notFinite fp16) ∨ w.side.any (fun e => notFinite bf16 e.2.2) then .error .badShape
    else .ok w

/-! ## Generator inputs (R183 to R185) -/

/-- An activation vector at the generators: 64 inputs, the scale exponent, and whether it holds a NaN or an infinity. -/
structure GenVec where
  a : List Int
  sx : Int := 0
  bad : Bool := false
  deriving DecidableEq, Repr

/-- int16 and u8 inputs less the zero point (R183). -/
def genInt (q : List Int) (zp : Int) : GenVec := { a := q.map (· - zp) }

/-- bf16 inputs aligned to a shared exponent (R184, R185). -/
def genBf16 (v : List Nat) : GenVec :=
  let e := fun (x : Nat) => x / 128 % 256
  let m := fun (x : Nat) => if e x = 0 ∨ e x = 255 then 0 else 128 + x % 128
  let emax := (v.map (fun x => if m x = 0 then 0 else e x)).foldl max 0
  { a := v.map (fun x =>
      let d := emax - e x
      let r : Int := if m x = 0 then 0 else if d ≤ 7 then (m x * 2 ^ (7 - d) : Nat) else rneShift (m x) (d - 7)
      if x / 32768 % 2 = 1 then -r else r),
    sx := (emax : Int) - 141, bad := v.any (fun x => e x == 255) }

/-! ## The drain (R145, R179, R186 to R188) -/

/-- Group scale of a column, exact (R186). -/
def WBlock.scale (w : WBlock) (n : Nat) : Dy :=
  ((fp16.decode ((w.super.drop n).headD 0)).dy.mul ⟨((w.gs.drop n).headD 0 : Nat) + 1, -8⟩)

/-- Column sum of the array over the rows inside the column's group of g channels (R145, R159). -/
def WBlock.colSum (w : WBlock) (v : GenVec) (n g : Nat) : Int :=
  ((v.a.zip w.rows).zipIdx.map (fun (e : (Int × Nat) × Nat) =>
    if e.2 / g = n / g then e.1.1 * codeValue w.fmt (e.1.2 / 2 ^ (codeWidth w.fmt * n) % 2 ^ codeWidth w.fmt) else 0)).sum

/-- The escape lane's exact sum for a column (R182). -/
def WBlock.escSum (w : WBlock) (v : GenVec) (n g : Nat) : Dy :=
  (w.side.filter (fun e => e.2.1 == n && e.1 / g == n / g)).foldl (fun acc e =>
    acc.add ((bf16.decode e.2.2).dy.mul ⟨(v.a.drop e.1).headD 0, 0⟩)) ⟨0, 0⟩

/-- r of one pass for a column (R187, R185). -/
def passValue (w : WBlock) (v : GenVec) (g n : Nat) : Nat :=
  if v.bad then fp32.someNan n w.fmt
  else fp32.roundDy (((((w.scale n).mul ⟨w.colSum v n g, 0⟩)).add (w.escSum v n g)).scale v.sx)

/-- One step of accumulation (R188). -/
def accAdd (acc r : Nat) : Nat :=
  match fp32.decode acc, fp32.decode r with
  | .inf x, .inf y => if x = y then acc else 0x7FC00000
  | _, _ => fp32.add acc r

/-- The accumulators of one position over a list of passes (R188). -/
def drainRow (g : Nat) (start : List Nat) (passes : List (WBlock × GenVec)) : List Nat :=
  passes.foldl (fun acc p => acc.zipIdx.map (fun (e : Nat × Nat) => accAdd e.1 (passValue p.1 p.2 g e.2))) start

/-! ## The rescale table and statistics (R189 to R193) -/

/-- A rescale table's header. -/
structure RscHead where
  gen : Nat
  stat : Bool
  satSignal : Bool
  stats : Nat
  cReal : Nat
  mReal : Nat
  deriving DecidableEq, Repr

/-- Check and read a header (R189, R193); `conv` for a table that CONV uses, whose M_REAL is zero. -/
def parseHead (conv : Bool) (b : Bytes) : Except TFault RscHead :=
  let h : RscHead := { gen := leAt b 0 4, stat := byteAt b 4 % 2 == 1, satSignal := byteAt b 4 / 2 % 2 == 1, stats := leAt b 8 4,
                       cReal := leAt b 12 2, mReal := leAt b 14 2 }
  if 8 ≤ byteAt b 4 ∨ zeroAt b 5 3 = false ∨ zeroAt b 16 48 = false ∨ (h.stat = false ∧ h.stats ≠ 0) ∨ (conv ∧ h.mReal ≠ 0) ∨
     nbits h.stats 27 15 ≠ 0 then .error .reservedBits
  else if h.satSignal ∧ h.stat = false then .error .badShape
  else .ok h

/-- An entry: MULT, BIAS and OZP (R189). -/
def parseEntry (b : Bytes) : Except TFault (Nat × Nat × Int) :=
  if zeroAt b 10 6 = false then .error .reservedBits
  else if notFinite fp32 (leAt b 0 4) ∨ notFinite fp32 (leAt b 4 4) then .error .badShape
  else .ok (leAt b 0 4, leAt b 4 4, signed 16 (leAt b 8 2))

/-- A statistics record (R191). -/
structure Stats where
  sse : Nat
  count : Nat
  rmax : Nat
  hi : Nat
  lo : Nat
  nonfin : Nat
  gen : Nat
  deriving DecidableEq, Repr

def Stats.read (b : Bytes) : Stats :=
  { sse := leAt b 0 8, count := leAt b 8 8, rmax := leAt b 16 4, hi := leAt b 20 4, lo := leAt b 24 4, nonfin := leAt b 28 4,
    gen := leAt b 32 4 }

def Stats.bytes (s : Stats) : Bytes :=
  toLe 8 s.sse ++ toLe 8 s.count ++ toLe 4 s.rmax ++ toLe 4 s.hi ++ toLe 4 s.lo ++ toLe 4 s.nonfin ++ toLe 4 s.gen ++
  List.replicate 28 0

/-- A saturating 32-bit count. -/
def sat32 (n : Nat) (b : Bool) : Nat := if b then min (n + 1) 0xFFFFFFFF else n

/-- One converted value in the statistics (R192): t as fp32 bits, the output, whether it is int16, and OZP. -/
def Stats.value (s : Stats) (isInt : Bool) (t out : Nat) (ozp : Int) : Stats :=
  match fp32.decode t with
  | .nan => { s with nonfin := sat32 s.nonfin true }
  | .inf n => { s with nonfin := sat32 s.nonfin true, hi := sat32 s.hi !n, lo := sat32 s.lo n }
  | x =>
    let mag := t % 2 ^ 31
    let s := { s with rmax := if fp32.lt s.rmax mag then mag else s.rmax }
    let d : Option Dy :=
      if isInt then some (Dy.add ⟨signed 16 out - ozp, 0⟩ ⟨-x.dy.n, x.dy.e⟩)
      else match bf16.decode out with
        | .fin n m e => some ((Num.fin n m e).dy.add ⟨-x.dy.n, x.dy.e⟩)
        | _ => none
    let r := x.dy.roundEven + ozp
    let s := if isInt then { s with hi := sat32 s.hi (decide (32767 < r)), lo := sat32 s.lo (decide (r < -32768)) }
             else if d.isNone then { s with hi := sat32 s.hi !x.neg?, lo := sat32 s.lo x.neg? } else s
    match d with
    | none => s
    | some d =>
      let d64 := fp64.roundDy d
      { s with sse := fp64.add s.sse (fp64.mul d64 d64), count := (s.count + 1) % 2 ^ 64 }

/-- Convert an accumulator of a channel (R190): t and the 16-bit output. -/
def rescale (isInt : Bool) (e : Nat × Nat × Int) (acc : Nat) : Nat × Nat :=
  let t := fp32.fma acc e.1 e.2.1
  (t, if isInt then unsign 16 (toInt16 t e.2.2)
      else match fp32.decode t with
        | .nan => 0x7FC0
        | _ => fp32.conv bf16 t)

/-! ## Pointwise functions (R165, R166) -/

/-- Bytes of one value: int16 and bf16 two, fp32 four. -/
def elemBytes (fmt : Nat) : Nat := if fmt = 2 then 4 else 2

/-- An input value as fp32 (R165). -/
def pwIn (fmt raw : Nat) (zp : Int) (scale : Nat) : Nat :=
  match fmt with
  | 0 => fp32.mul (fp32OfInt (signed 16 raw - zp)) scale
  | 1 => raw % 65536 * 65536
  | _ => raw

/-- An fp32 value as output (R165). -/
def pwOut (fmt y scale : Nat) (zp : Int) : Nat :=
  match fmt with
  | 0 => unsign 16 (toInt16 (fp32.mul y scale) zp)
  | 1 => fp32.conv bf16 y
  | _ => y

/-- max of two fp32 values; its result with a NaN, and for zeros of different sign, is left open. -/
def pwMax (a b : Nat) : Nat :=
  if (fp32.decode a).isNan ∨ (fp32.decode b).isNan then (Config.openMax a b).toNat
  else if fp32.lt a b then b else if fp32.lt b a then a
  else if a = b then a else (Config.openMax a b).toNat

/-- A table function at x (R166). -/
def pwFunc (tab : Bytes) (x : Nat) : Nat :=
  let f := fun i => leAt tab i 4
  let u := fp32.mul (fp32.sub x (f 0)) (f 4)
  let line := fun a b => fp32.add (fp32.mul (f a) x) (f b)
  if (fp32.decode x).isNan then fp32.someNan x x
  else match fp32.decode u with
    | .nan => (Config.openFunc x).toNat
    | .inf n => if n then line 8 12 else line 16 20
    | u' =>
      if u'.dy.n < 0 then line 8 12
      else if fp32.lt u 0x43800000 = false then line 16 20
      else
        let i : Int := if 0 ≤ u'.dy.e then u'.dy.n * 2 ^ u'.dy.e.toNat else u'.dy.n / 2 ^ (-u'.dy.e).toNat
        let k := i.toNat
        let fr := fp32.roundDy (u'.dy.add ⟨-i, 0⟩)
        let t0 := f (32 + 4 * k)
        fp32.add t0 (fp32.mul fr (fp32.sub (f (36 + 4 * k)) t0))

/-! ## Normalisation (R167) -/

/-- The C_REAL channels of one position, normalised; `gamma` and `beta` are fp32. -/
def normRow (x gamma beta : List Nat) (eps : Nat) : List Nat :=
  let c := x.length
  let m := fp32.divNat (x.foldl fp32.add 0) c
  let v := x.foldl (fun v a => let d := fp32.sub a m; fp32.add v (fp32.mul d d)) 0
  let g := fp32.rsqrt (fp32.add (fp32.divNat v c) eps)
  (x.zip (gamma.zip beta)).map (fun e => fp32.add (fp32.mul (fp32.mul (fp32.sub e.1 m) g) e.2.1) e.2.2)

/-! ## The feature-map codec (R174 to R176) -/

/-- A 16-bit value in the ordered domain, and back. -/
def toOrd (bf : Bool) (v : Nat) : Nat := if bf && decide (32768 ≤ v) then 65535 - v else (v + 32768) % 65536
def ofOrd (bf : Bool) (o : Nat) : Nat := if bf && decide (o < 32768) then 65535 - o else (o + 32768) % 65536

/-- Encode the 64 ordered values of one channel: base, shift and codes (R175). -/
def codecParams (b : Nat) (o : List Nat) : Nat × Nat :=
  let base := o.foldl min 65535
  let dmax := o.foldl max 0 - base
  (base, (firstBelow 17 (fun s => decide (dmax / 2 ^ s ≤ 2 ^ b - 1))).getD 16)

def codecCode (base sh o : Nat) : Nat := (o - base) / 2 ^ sh

/-- The value a code decodes to (R176). -/
def codecValue (base sh code : Nat) : Nat := min (base + code * 2 ^ sh + 2 ^ sh / 2) 65535

/-- Bytes of a channel record, and code bits, of codec 1 (2:1) and 2 (4:1) (R174). -/
def codecRec (codec : Nat) : Nat := if codec = 1 then 64 else 32
def codecBits (codec : Nat) : Nat := if codec = 1 then 7 else 3

/-- The record of one channel. -/
def encodeChannel (codec : Nat) (o : List Nat) : Bytes :=
  let b := codecBits codec
  let p := codecParams b o
  let codes := (o.zipIdx.map (fun (e : Nat × Nat) => codecCode p.1 p.2 e.1 * 2 ^ (b * e.2))).sum
  toLe 2 p.1 ++ toLe 1 p.2 ++ [0] ++ toLe (codecRec codec - 4) codes

/-- The 64 ordered values that a channel record holds. -/
def decodeChannel (codec : Nat) (r : Bytes) : List Nat :=
  let b := codecBits codec
  let codes := leNat ((r.drop 4).take (codecRec codec - 4))
  (List.range 64).map (fun j => codecValue (leAt r 0 2) (byteAt r 2 % 32) (codes / 2 ^ (b * j) % 2 ^ b))

/-- Errors of a channel's values under the codec (R176): sum of squares and largest. -/
def channelError (codec : Nat) (o : List Nat) : Nat × Nat :=
  let d := decodeChannel codec (encodeChannel codec o)
  let e := List.zipWith (fun (a b : Nat) => if a ≤ b then b - a else a - b) o d
  ((e.map (fun x => x * x)).sum, e.foldl max 0)

end Sys2Proof.Machine
end

