-- ==== Sys2Proof/Machine/Tile.lean ====
section
/-! DEFINITION. The vision tiles (07, 08): the sequencer, its units' instructions, semaphores, links, queues and the tile page.  An
instruction's operands are read and its results written when its unit runs it, which the row of the instruction does at its
dispatch where nothing older waits on that unit (log entry 15); its completion follows in INSTRUCTION_COMPLETE. -/
namespace Sys2Proof.Machine

/-! ## Registers, semaphores and faults (R148, R149, R172, R173) -/

/-- Tile register i: TR0 reads zero (R150). -/
def State.tr (s : State) (t i : Nat) : Word := if i = 0 then 0 else s.rd (Reg.TR1 t + 4 * (i - 1))
def State.setTr (s : State) (t i : Nat) (v : Word) : State := if i = 0 then s else s.wr (Reg.TR1 t + 4 * (i - 1)) v

/-- STATE of TILE_STS: 0 IDLE, 1 RUN, 2 FAULT. -/
def State.tileState (s : State) (t : Nat) : Nat := s.fld (Reg.TILE_STS t) 31 30
def State.setTileState (s : State) (t n : Nat) : State := s.setFld (Reg.TILE_STS t) 31 30 n

/-- Program counter as a byte address of the tile store. -/
def State.tpc (s : State) (t : Nat) : Nat := s.fld (Reg.TILE_PC t) 19 5 * 32
def State.setTpc (s : State) (t n : Nat) : State := s.wr (Reg.TILE_PC t) (BitVec.ofNat 32 (n % 0x100000 / 32 * 32))

/-- Semaphore i. -/
def State.tsem (s : State) (t i : Nat) : Nat := s.fld (Reg.TILE_SEM_01 t + 4 * (i / 2)) (16 * (i % 2) + 15) (16 * (i % 2))
def State.setTsem (s : State) (t i n : Nat) : State := s.setFld (Reg.TILE_SEM_01 t + 4 * (i / 2)) (16 * (i % 2) + 15) (16 * (i % 2)) n

/-- Tile t is fenced (R419): it stops, and shows FENCED. -/
def State.fenceTile (s : State) (t : Nat) : State :=
  ((s.setFlag (tilePage t + 0xC) 30 true).setTileState t 0).updTile t (fun x => { x with pend := [], stopping := false, yielding := false })

/-- An ECC fault is counted, and the third within one second fences the tile (R419). -/
def State.tileEcc (s : State) (t pc : Nat) : State :=
  let now := s.clk.tclk
  let l := now :: ((s.tile t).ecc.filter (fun k => decide (now < k + 1000000000)))
  let s := s.updTile t (fun x => { x with ecc := l })
  let detail := pc + t * 2 ^ 48
  if 3 ≤ l.length then ((s.fenceTile t).log 2 0x30 (blkId (tilePage t)) detail).raise 0x8000 6
  else s.log 1 0x30 (blkId (tilePage t)) detail

/-- The tile faults (R172). -/
def State.tileFault (s : State) (t pc : Nat) (f : TFault) : State :=
  let s := ((s.setTileState t 2).setFld (Reg.TILE_STS t) 29 24 f.code).wr (Reg.TILE_FAULT t) (BitVec.ofNat 32 (pc % 0x100000))
  let s := s.raise (tilePage t) 1
  (if f = .ecc then s.tileEcc t pc else s).tileStopped t

/-- Add one to a semaphore, or fault with SEM_OVF (R149). -/
def State.tilePost (s : State) (t pc i : Nat) : State :=
  let n := s.tsem t i
  if n = 65535 then s.tileFault t pc .semOvf else s.setTsem t i (n + 1)

/-- A tile that stops enters IDLE when nothing dispatched is left (R173). -/
def State.tileSettle (s : State) (t : Nat) : State :=
  let x := s.tile t
  if x.stopping ∧ x.pend = [] then
    let s := s.updTile t (fun x => { x with stopping := false, yielding := false, yielded := x.yielding })
    let s := if s.tileState t = 1 then s.setTileState t 0 else s
    (if x.yielding then s.raise (tilePage t) 6 else s).tileStopped t
  else s

/-! ## Operands (R150, R151) -/

/-- A field of an instruction's bytes. -/
def tfield (b : Bytes) (hi lo : Nat) : Nat := nbits (leAt b 4 4) hi lo

/-- The registers an instruction was dispatched with. -/
def trOf (trs : List Word) (i : Nat) : Nat := if i = 0 then 0 else ((trs.drop (i - 1)).headD 0).toNat

/-- The local address of a 32-bit operand word (R150). -/
def localOf (trs : List Word) (w : Nat) : Except TFault Nat :=
  if nbits w 27 15 ≠ 0 then .error .reservedBits else .ok ((trOf trs (nbits w 31 28) + nbits w 14 0) % 32768)

/-- The local address of the operand at byte i. -/
def localAt (trs : List Word) (b : Bytes) (i : Nat) : Except TFault Nat := localOf trs (leAt b i 4)

/-- The external address of the operand at byte i (R150). -/
def externAt (trs : List Word) (b : Bytes) (i : Nat) : Except TFault Nat :=
  let w := leAt b i 8
  if nbits w 59 48 ≠ 0 then .error .reservedBits else .ok ((trOf trs (nbits w 63 60) * 64 + nbits w 47 0) % 2 ^ 48)

/-- A region of `n` units at local address `la` lies in the tile store or in the line buffer (R151). -/
def regionOk (la n : Nat) : Bool := decide (la + n ≤ 0x3800) || (decide (0x4000 ≤ la) && decide (la + n ≤ 0x5800))

def need (b : Bool) (f : TFault) : Except TFault Unit := if b then .ok () else .error f

/-- A local region, readable: ADDR outside the memories, ECC where a line holds an uncorrectable error (R144, R151). -/
def State.region (s : State) (t la n : Nat) : Except TFault Unit :=
  if regionOk la n = false then .error .addr
  else if s.ue.any (fun l => decide (tileWin t / 64 + la ≤ l) && decide (l < tileWin t / 64 + la + n)) then .error .ecc
  else .ok ()

/-- Bytes of tile memory from byte offset `o`, and their store. -/
def State.tld (s : State) (t o n : Nat) : Bytes := s.ld (tileWin t + o) n
def State.tst (s : State) (t o : Nat) (b : Bytes) : State := (s.st (tileWin t + o) b).clearUe (tileWin t + o) b.length

/-- Undefined contents of a region: free bytes (R172). -/
def State.scramble (s : State) (a n : Nat) : State :=
  let r := s.freshBytes n
  r.2.st a r.1

/-- The 64 16-bit values of a column-row, and 64 fp32 values. -/
def vals2 (b : Bytes) : List Nat := (List.range 64).map (fun i => leAt b (2 * i) 2)
def vals4 (b : Bytes) : List Nat := (List.range 64).map (fun i => leAt b (4 * i) 4)
def pack (k : Nat) (l : List Nat) : Bytes := (l.map (toLe k)).flatten

/-! ## MATMUL and CONV (R153 to R159, R178 to R193) -/

/-- The weight block record at local address `la`, checked (R181). -/
def State.block (s : State) (t la fmt wstride : Nat) : Except TFault WBlock := do
  s.region t la (weightBytes fmt 0 / 64)
  let esc := min (leAt (s.tld t (la * 64 + 2) 2) 0 2) 511
  let n := weightBytes fmt esc
  if n ≤ wstride * 64 then s.region t la (n / 64)
  parseBlock fmt (wstride * 64) (s.tld t (la * 64) n)

/-- A generator vector from a column-row's bytes: AFMT 0 int16, 1 bf16. -/
def genOf (afmt : Nat) (zp : Int) (b : Bytes) : GenVec :=
  if afmt = 0 then genInt ((vals2 b).map (signed 16)) zp else genBf16 (vals2 b)

/-- A drained position: its output block, whether statistics take it, the byte offset of its output column-row, its sums. -/
structure Drained where
  n : Nat
  counted : Bool
  out : Nat
  acc : List Nat

/-- Rescale drained positions in order through the table at local address `rsc`, write them and the statistics (R189 to R193). The
flag is SAT_SIGNAL's. -/
def State.finish (s : State) (t rsc nb : Nat) (isInt conv : Bool) (trs : List Word) (mReal : Nat → Bool) (ds : List Drained) :
    Except TFault (State × Bool) := do
  s.region t rsc (1 + 16 * nb)
  let h ← parseHead conv (s.tld t (rsc * 64) 64)
  let es ← (List.range (64 * nb)).mapM (fun n => parseEntry (s.tld t (rsc * 64 + 64 + 16 * n) 16))
  let st ← if h.stat then localOf trs h.stats else .ok 0
  if h.stat then s.region t st 1
  let s0 := Stats.read (s.tld t (st * 64) 64)
  let cReal := if h.cReal = 0 then 64 * nb else h.cReal
  let r := ds.foldl (fun (acc : State × Stats) d =>
    let ch := d.acc.zipIdx.map (fun (e : Nat × Nat) =>
      let en := (es.drop (64 * d.n + e.2)).headD (0, 0, 0)
      (rescale isInt en e.1, en.2.2, 64 * d.n + e.2))
    let st := ch.foldl (fun (k : Stats) c =>
      if d.counted && mReal h.mReal && decide (c.2.2 < cReal) then k.value isInt c.1.1 c.1.2 c.2.1 else k) acc.2
    (acc.1.tst t d.out (pack 2 (ch.map (fun c => c.1.2))), st)) (s, { s0 with gen := h.gen })
  let s := if h.stat then r.1.tst t (st * 64) r.2.bytes else r.1
  pure (s, h.satSignal && (decide (s0.hi < r.2.hi) || decide (s0.lo < r.2.lo)))

/-- Array counters of a list of block passes of `m` vectors (R147, R182): the streaming ACLK and the ACLK lost to escapes. -/
def State.arrayCount (s : State) (t m : Nat) (blocks : List WBlock) : State :=
  let stall := fun (w : WBlock) => max 1 (ceilDiv w.side.length 8)
  let cyc := (blocks.map (fun w => (if w.fmt = 3 then 2 else 1) * m * stall w)).sum
  (s.count (Reg.TILE_CNT_ARRAY_CYC t) cyc).count (Reg.TILE_CNT_ESC_STALL t) ((blocks.map (fun w => (stall w - 1) * m)).sum)

/-- MATMUL (R153, R154). -/
def State.runMatmul (s : State) (t : Nat) (b : Bytes) (trs : List Word) : Except TFault (State × Bool) := do
  let mb := tfield b 5 0 + 1
  let kb := tfield b 11 6 + 1
  let nb := tfield b 17 12 + 1
  let wfmt := tfield b 19 18
  let afmt := tfield b 21 20
  let ofmt := tfield b 23 22
  let accIn := tfield b 24 24 == 1
  let m := 64 * mb
  let zpRaw := leAt b 30 2
  let wstride := leAt b 28 2
  need (tfield b 31 25 == 0) .reservedBits
  need (afmt ≤ 1 && ofmt ≤ 2) .badShape
  need (!(zpRaw != 0 && (afmt == 1 || wfmt == 3))) .badShape
  need (!(nb != 1 && (accIn || ofmt == 2))) .badShape
  let act ← localAt trs b 8
  let w ← localAt trs b 12
  let acc ← localAt trs b 20
  let out ← if ofmt = 2 then .ok 0 else localAt trs b 16
  let rsc ← if ofmt = 2 then .ok 0 else localAt trs b 24
  s.region t act (kb * m * 2)
  s.region t acc (m * 4)
  if ofmt ≠ 2 then need (regionOk out (nb * m * 2)) .addr
  let blocks ← (List.range (nb * kb)).mapM (fun i => s.block t (w + i * wstride) wfmt wstride)
  let vec := fun (k p : Nat) => genOf afmt (signed 16 zpRaw) (s.tld t ((act + (k * m + p) * 2) * 64) 128)
  let ds := ((List.range nb).map (fun n => (List.range m).map (fun p =>
    let start := if accIn then vals4 (s.tld t ((acc + 4 * p) * 64) 256) else List.replicate 64 0
    let passes := (List.range kb).map (fun k => ((blocks.drop (n * kb + k)).headD ⟨0, [], [], [], []⟩, vec k p))
    ({ n := n, counted := true, out := (out + (n * m + p) * 2) * 64, acc := drainRow 64 start passes } : Drained)))).flatten
  let s := s.arrayCount t m blocks
  if ofmt = 2 then
    pure (ds.zipIdx.foldl (fun s (e : Drained × Nat) => s.tst t ((acc + 4 * e.2) * 64) (pack 4 e.1.acc)) s, false)
  else
    let s := s.scramble (tileWin t + acc * 64) (m * 256)
    let hm := leAt (s.tld t (rsc * 64 + 14) 2) 0 2
    let ds := ds.zipIdx.map (fun (e : Drained × Nat) => { e.1 with counted := hm == 0 || decide (e.2 % m < hm) })
    s.finish t rsc nb (ofmt == 0) false trs (fun _ => true) ds

/-- CONV (R155 to R159): `b` is both slots. -/
def State.runConv (s : State) (t : Nat) (b : Bytes) (trs : List Word) : Except TFault (State × Bool) := do
  let kh := tfield b 3 0 + 1
  let kw := tfield b 7 4 + 1
  let st := tfield b 9 8 + 1
  let dil := tfield b 11 10 + 1
  let chunks := tfield b 15 12 + 1
  let nb := tfield b 21 16 + 1
  let wfmt := tfield b 23 22
  let afmt := tfield b 25 24
  let ofmt := tfield b 27 26
  let gl := tfield b 30 28
  let inW := leAt b 36 2
  let rows := leAt b 38 2
  let rowP := leAt b 40 2
  let chP := leAt b 42 2
  let zpRaw := leAt b 44 2
  let zp := signed 16 zpRaw
  let wstride := leAt b 46 2
  let planes := byteAt b 48
  need (tfield b 31 31 == 0 && zeroAt b 28 4 && zeroAt b 49 15 && (afmt == 2 || planes == 0)) .reservedBits
  need (afmt ≤ 2 && ofmt ≤ 2 && gl ≤ 6 && kh ≤ 11 && kw ≤ 11 && 1 ≤ rows) .badShape
  need (afmt != 2 || (chunks == 1 && 1 ≤ planes && planes ≤ 64)) .badShape
  need (decide ((kw - 1) * dil + 1 ≤ inW) && decide (inW ≤ 1024) && decide (inW * kh ≤ 3072)) .badShape
  need (gl == 6 || nb == chunks) .badShape
  need (!(zpRaw != 0 && (afmt == 1 || wfmt == 3))) .badShape
  need (!(ofmt == 2 && nb != 1)) .badShape
  let inp ← localAt trs b 8
  let w ← localAt trs b 12
  let out ← if ofmt = 2 then .ok 0 else localAt trs b 16
  let acc ← localAt trs b 20
  let rsc ← if ofmt = 2 then .ok 0 else localAt trs b 24
  let ring ← localAt trs b 32
  let outW := (inW - (kw - 1) * dil - 1) / st + 1
  let mrow := ceilDiv outW 64 * 64
  let inRows := (rows - 1) * st + (kh - 1) * dil + 1
  let cs := if afmt = 2 then planes else chunks
  s.region t inp ((inRows - 1) * rowP + (cs - 1) * chP + (if afmt = 2 then ceilDiv inW 64 else 2 * inW))
  need (decide (0x4000 ≤ ring) && decide (ring + inW * kh * 2 ≤ 0x5800)) .pane
  s.region t acc (mrow * 4)
  if ofmt ≠ 2 then need (regionOk out (((nb - 1) * rows + rows - 1) * mrow * 2 + outW * 2)) .addr
  let cper := if gl = 6 then chunks else 1
  let kb := cper * kh * kw
  let blocks ← (List.range (nb * kb)).mapM (fun i => s.block t (w + i * wstride) wfmt wstride)
  let vec := fun (c r x : Nat) =>
    if afmt = 2 then
      genInt ((List.range 64).map (fun p => if p < planes
        then (byteAt (s.tld t ((inp + p * chP + r * rowP) * 64 + x) 1) 0 : Int) else zp)) zp
    else genOf afmt zp (s.tld t ((inp + c * chP + r * rowP + 2 * x) * 64) 128)
  let ds := ((List.range rows).map (fun y => ((List.range nb).map (fun n => (List.range outW).map (fun x =>
    let passes := (List.range kb).map (fun i =>
      let c := if gl = 6 then i / (kh * kw) else n
      let ky := i % (kh * kw) / kw
      let kx := i % kw
      ((blocks.drop (n * kb + i)).headD ⟨0, [], [], [], []⟩, vec c (y * st + ky * dil) (x * st + kx * dil)))
    ({ n := n, counted := true, out := (out + ((n * rows + y) * mrow + x) * 2) * 64,
       acc := drainRow (2 ^ gl) (List.replicate 64 0) passes } : Drained)))).flatten)).flatten
  let s := (s.arrayCount t (mrow * rows) blocks).scramble (tileWin t + ring * 64) (inW * kh * 128)
  if ofmt = 2 then
    let last := (ds.drop ((rows - 1) * outW)).zipIdx
    pure (last.foldl (fun s (e : Drained × Nat) => s.tst t ((acc + 4 * e.2) * 64) (pack 4 e.1.acc)) s, false)
  else (s.scramble (tileWin t + acc * 64) (mrow * 256)).finish t rsc nb (ofmt == 0) true trs (fun _ => true) ds

/-! ## PWISE and NORM (R165 to R167) -/

/-- A parameter record (R165). -/
def State.params (s : State) (t : Nat) (b : Bytes) (trs : List Word) : Except TFault Bytes := do
  let la ← localAt trs b 20
  s.region t la 1
  let p := s.tld t (la * 64) 32
  need (zeroAt p 18 2 && zeroAt p 30 2) .reservedBits
  pure p

/-- Units of a column-row in a format. -/
def rowUnits (fmt : Nat) : Nat := if fmt = 2 then 4 else 2
def valsOf (fmt : Nat) (b : Bytes) : List Nat := if fmt = 2 then vals4 b else vals2 b

def State.runPwise (s : State) (t : Nat) (b : Bytes) (trs : List Word) : Except TFault (State × Bool) := do
  let op := tfield b 3 0
  let af := tfield b 5 4
  let bf := tfield b 7 6
  let ofm := tfield b 9 8
  let n := leAt b 24 4
  let two := decide (2 ≤ op)
  need (tfield b 31 10 == 0 && zeroAt b 28 4) .reservedBits
  need (op ≤ 4 && af ≤ 2 && ofm ≤ 2 && (!two || bf ≤ 2) && 1 ≤ n && n ≤ 65535) .badShape
  let a ← localAt trs b 8
  let bb ← if two then localAt trs b 12 else .ok 0
  let out ← localAt trs b 16
  let p ← s.params t b trs
  s.region t a (n * rowUnits af)
  if two then s.region t bb (n * rowUnits bf)
  need (regionOk out (n * rowUnits ofm)) .addr
  let tab ← if op = 1 then localOf trs (leAt p 20 4) else .ok 0
  if op = 1 then
    s.region t tab 17
    need (zeroAt (s.tld t (tab * 64) 32) 24 8) .reservedBits
  let table := s.tld t (tab * 64) 1060
  let row := fun i =>
    let xs := (valsOf af (s.tld t ((a + i * rowUnits af) * 64) (64 * rowUnits af))).map (fun v => pwIn af v (signed 16 (leAt p 4 2)) (leAt p 0 4))
    let ys := if two then (valsOf bf (s.tld t ((bb + i * rowUnits bf) * 64) (64 * rowUnits bf))).map
      (fun v => pwIn bf v (signed 16 (leAt p 6 2)) (leAt p 8 4)) else []
    let zs := match op with
      | 0 => xs
      | 1 => xs.map (pwFunc table)
      | 2 => List.zipWith fp32.add xs ys
      | 3 => List.zipWith fp32.mul xs ys
      | _ => List.zipWith pwMax xs ys
    zs.map (fun y => pwOut ofm y (leAt p 12 4) (signed 16 (leAt p 16 2)))
  let rows := (List.range n).map row
  pure (rows.zipIdx.foldl (fun s (e : List Nat × Nat) => s.tst t ((out + e.2 * rowUnits ofm) * 64) (pack (elemBytes ofm) e.1)) s, false)

def State.runNorm (s : State) (t : Nat) (b : Bytes) (trs : List Word) : Except TFault (State × Bool) := do
  let af := tfield b 1 0
  let ofm := tfield b 3 2
  let chunks := tfield b 9 4 + 1
  let n := leAt b 24 4
  need (tfield b 31 10 == 0 && zeroAt b 28 4) .reservedBits
  need (af ≤ 2 && ofm ≤ 2 && 1 ≤ n && n ≤ 65535) .badShape
  let a ← localAt trs b 8
  let gb ← localAt trs b 12
  let out ← localAt trs b 16
  let p ← s.params t b trs
  let cReal := leAt p 28 2
  need (1 ≤ cReal && cReal ≤ chunks * 64) .badShape
  s.region t a (chunks * n * rowUnits af)
  s.region t gb (chunks * 8)
  need (regionOk out (chunks * n * rowUnits ofm)) .addr
  let gamma := (List.range cReal).map (fun i => leAt (s.tld t (gb * 64 + 4 * i) 4) 0 4)
  let beta := (List.range cReal).map (fun i => leAt (s.tld t (gb * 64 + 4 * (chunks * 64 + i)) 4) 0 4)
  let zp := signed 16 (leAt p 16 2)
  let row := fun i =>
    let xs := ((List.range chunks).map (fun c => valsOf af (s.tld t ((a + (c * n + i) * rowUnits af) * 64) (64 * rowUnits af)))).flatten
    let xs := (xs.take cReal).map (fun v => pwIn af v (signed 16 (leAt p 4 2)) (leAt p 0 4))
    let ys := (normRow xs gamma beta (leAt p 24 4)).map (fun y => pwOut ofm y (leAt p 12 4) zp)
    ys ++ List.replicate (chunks * 64 - cReal) (if ofm = 0 then unsign 16 zp else 0)
  let rows := (List.range n).map row
  pure (rows.zipIdx.foldl (fun s (e : List Nat × Nat) =>
    (List.range chunks).foldl (fun s c => s.tst t ((out + (c * n + e.2) * rowUnits ofm) * 64)
      (pack (elemBytes ofm) ((e.1.drop (64 * c)).take 64))) s) s, false)

/-! ## LOAD and STORE (R160, R174 to R176) -/

/-- Requester code of tile t (R452). -/
def reqTile (t : Nat) : Req := BitVec.ofNat 16 (0xC100 + t)

/-- A tile's access to device memory: memory its partition is granted, no fenced channel, no uncorrectable error (R160); a peer window is
not device memory of this module. -/
def State.tileMem (s : State) (t a n : Nat) (w : Bool) : Bool :=
  match s.tileOwner t with
  | none => n == 0
  | some p => s.granted p a n && (decide (a < peerBase) || decide (hostBase ≤ a)) && ((if w then s.canWrite 0 a n else s.canRead 0 a n) == .ok)

/-- Ordered values of channel ch of the block at column-rows of LOC (R174). -/
def State.blockChannel (s : State) (t la pitch col : Nat) (bf : Bool) (ch : Nat) : List Nat :=
  ((List.range 8).map (fun r => (List.range 8).map (fun c =>
    toOrd bf (leAt (s.tld t ((la + r * pitch + (col + c) * 2) * 64 + 2 * ch) 2) 0 2)))).flatten

/-- Write the decoded channels of a block into its column-rows. -/
def State.storeBlock (s : State) (t la pitch col : Nat) (bf : Bool) (chans : List (List Nat)) : State :=
  (List.range 64).foldl (fun s j =>
    s.tst t ((la + j / 8 * pitch + (col + j % 8) * 2) * 64) (pack 2 (chans.map (fun o => ofOrd bf ((o.drop j).headD 0))))) s

/-- The codec's statistics (R176): SSE saturates at 2^64 − 1. -/
def State.codecStat (s : State) (t sse maxErr : Nat) : State :=
  let n := min ((s.rd (Reg.CODEC_SSE_LO t)).toNat + (s.rd (Reg.CODEC_SSE_HI t)).toNat * 2 ^ 32 + sse) (2 ^ 64 - 1)
  ((s.wr (Reg.CODEC_SSE_LO t) (BitVec.ofNat 32 n)).wr (Reg.CODEC_SSE_HI t) (BitVec.ofNat 32 (n / 2 ^ 32))).wr (Reg.CODEC_MAXERR t)
    (BitVec.ofNat 32 (max maxErr (s.fld (Reg.CODEC_MAXERR t) 15 0)))

/-- The fields LOAD and STORE share: codec, bf16, rows, external and local addresses, length and pitches. -/
structure DmaOp where
  codec : Nat
  bf : Bool
  rows : Nat
  ext : Nat
  loc : Nat
  len : Nat
  extP : Nat
  locP : Nat

def DmaOp.read (b : Bytes) (trs : List Word) : Except TFault DmaOp := do
  need (tfield b 15 3 == 0 && zeroAt b 30 2) .reservedBits
  need (tfield b 1 0 != 3) .badShape
  let ext ← externAt trs b 8
  let loc ← localAt trs b 16
  let d : DmaOp := { codec := tfield b 1 0, bf := tfield b 2 2 == 1, rows := tfield b 31 16 + 1, ext := ext, loc := loc,
                     len := leAt b 20 4, extP := leAt b 24 4, locP := leAt b 28 2 }
  need (regionOk d.loc (if d.codec = 0 then (d.rows - 1) * d.locP + d.len else (8 * d.rows - 1) * d.locP + 16 * d.len)) .addr
  pure d

/-- External address and bytes of row j. -/
def DmaOp.extRow (d : DmaOp) (j : Nat) : Nat × Nat :=
  ((d.ext + j * d.extP * 64) % 2 ^ 48, if d.codec = 0 then d.len * 64 else d.len * 64 * codecRec d.codec)

def State.runLoad (s : State) (t : Nat) (b : Bytes) (trs : List Word) : Except TFault (State × Bool) := do
  let d ← DmaOp.read b trs
  need ((List.range d.rows).all (fun j => s.tileMem t (d.extRow j).1 (d.extRow j).2 false)) .dmaErr
  pure ((List.range d.rows).foldl (fun s j =>
    let r := s.bulkRead (reqTile t) (d.extRow j).1 (d.extRow j).2
    if d.codec = 0 then r.2.tst t ((d.loc + j * d.locP) * 64) r.1
    else (List.range d.len).foldl (fun s i =>
      let blk := (r.1.drop (i * 64 * codecRec d.codec)).take (64 * codecRec d.codec)
      s.storeBlock t (d.loc + 8 * j * d.locP) d.locP (8 * i) d.bf
        ((List.range 64).map (fun ch => decodeChannel d.codec ((blk.drop (ch * codecRec d.codec)).take (codecRec d.codec))))) r.2) s, false)

def State.runStore (s : State) (t : Nat) (b : Bytes) (trs : List Word) : Except TFault (State × Bool) := do
  let d ← DmaOp.read b trs
  s.region t d.loc (if d.codec = 0 then (d.rows - 1) * d.locP + d.len else (8 * d.rows - 1) * d.locP + 16 * d.len)
  need ((List.range d.rows).all (fun j => s.tileMem t (d.extRow j).1 (d.extRow j).2 true)) .dmaErr
  pure ((List.range d.rows).foldl (fun s j =>
    if d.codec = 0 then s.bulkWrite (reqTile t) (d.extRow j).1 (s.tld t ((d.loc + j * d.locP) * 64) (d.len * 64))
    else
      let chans := (List.range d.len).map (fun i => (List.range 64).map (fun ch =>
        s.blockChannel t (d.loc + 8 * j * d.locP) d.locP (8 * i) d.bf ch))
      let s := s.bulkWrite (reqTile t) (d.extRow j).1 ((chans.map (fun l => (l.map (encodeChannel d.codec)).flatten)).flatten)
      let errs := chans.flatten.map (channelError d.codec)
      s.codecStat t ((errs.map (·.1)).sum) ((errs.map (·.2)).foldl max 0)) s, false)

/-! ## Links (R142, R163, R164) -/

/-- The neighbour of tile t in direction d, if any (R142). -/
def neighbour (t d : Nat) : Option Nat :=
  let row := t / 16
  let col := if row % 2 = 0 then t % 16 else 15 - t % 16
  let at' := fun r c => 16 * r + (if r % 2 = 0 then c else 15 - c)
  match d with
  | 0 => if row = 0 then none else some (at' (row - 1) col)
  | 1 => if col = 15 then none else some (at' row (col + 1))
  | 2 => if row = 9 then none else some (at' (row + 1) col)
  | 3 => if col = 0 then none else some (at' row (col - 1))
  | 4 => if t = 0 then none else some (t - 1)
  | 5 => if t = 159 then none else some (t + 1)
  | _ => none

/-- The tile at the end of a present link (R164, R419). -/
def State.linkTile (s : State) (t d : Nat) : Option Nat :=
  match neighbour t d with
  | none => none
  | some u => if s.tileOwner t = s.tileOwner u ∧ (s.tileOwner t).isSome ∧ s.tileFenced u = false then some u else none

/-- The fields of HSEND and HRECV (R163): direction, rows, local address, row length and pitch. -/
def linkOp (b : Bytes) (trs : List Word) : Except TFault (Nat × Nat × Nat × Nat × Nat) := do
  need (tfield b 15 3 == 0 && zeroAt b 24 4 && zeroAt b 30 2) .reservedBits
  need (tfield b 2 0 ≤ 5) .badShape
  let loc ← localAt trs b 16
  let rows := tfield b 31 16 + 1
  need (regionOk loc ((rows - 1) * leAt b 28 2 + leAt b 20 4)) .addr
  pure (tfield b 2 0, rows, loc, leAt b 20 4, leAt b 28 2)

/-- HSEND: the message is put in the receiver's buffer for this link. -/
def State.runHsend (s : State) (t : Nat) (b : Bytes) (trs : List Word) : Except TFault (State × Bool) := do
  let (d, rows, loc, len, pitch) ← linkOp b trs
  s.region t loc ((rows - 1) * pitch + len)
  match s.linkTile t d with
  | none => .error .linkAbsent
  | some u =>
    let msg := ((List.range rows).map (fun j => s.tld t ((loc + j * pitch) * 64) (len * 64))).flatten
    pure (s.updTile u (fun x => { x with links := x.links.upd [] t (fun l => l ++ [msg]) }), false)

/-- HRECV takes the next message of its link; none while it has not come. -/
def State.runHrecv (s : State) (t : Nat) (b : Bytes) (trs : List Word) : Except TFault (Option (State × Bool)) := do
  let (d, rows, loc, len, pitch) ← linkOp b trs
  match s.linkTile t d with
  | none => .error .linkAbsent
  | some u =>
    match (s.tile t).links.get [] u with
    | [] => .ok none
    | msg :: _ =>
      need (msg.length == rows * len * 64) .linkLen
      let s := s.updTile t (fun x => { x with links := x.links.upd [] u (fun l => l.drop 1) })
      pure (some ((List.range rows).foldl (fun s j => s.tst t ((loc + j * pitch) * 64) ((msg.drop (j * len * 64)).take (len * 64))) s, false))

/-- The link an HRECV that faults LINK_LEN empties of its message (R163). -/
def State.discardMsg (s : State) (t : Nat) (b : Bytes) : State :=
  match s.linkTile t (tfield b 2 0) with
  | none => s
  | some u => s.updTile t (fun x => { x with links := x.links.upd [] u (fun l => l.drop 1) })

/-- Bytes of this tile's messages that wait at the receiver of an HSEND. -/
def State.sendBacklog (s : State) (t : Nat) (b : Bytes) : Nat :=
  match s.linkTile t (tfield b 2 0) with
  | none => 0
  | some u => (((s.tile u).links.get [] t).map List.length).sum

/-! ## Units and completion (R148, R149, R172) -/

/-- The unit of an opcode. -/
def unitOf (op : Nat) : Option TUnit :=
  match op with
  | 0x10 | 0x11 => some .array
  | 0x20 | 0x21 => some .vector
  | 0x30 | 0x31 => some .dma
  | 0x38 => some .lsend
  | 0x39 => some .lrecv
  | _ => none

/-- The units in the order of TILE_STS.BUSY (R177). -/
def unitNo (i : Nat) : TUnit :=
  match i with
  | 0 => .array
  | 1 => .vector
  | 2 => .dma
  | 3 => .lsend
  | _ => .lrecv

/-- The opcodes of R152. -/
def tileOps : List Nat := [0, 1, 2, 3, 4, 5, 6, 7, 0x10, 0x11, 0x20, 0x21, 0x30, 0x31, 0x38, 0x39]

/-- A unit runs an instruction: done with the state and the saturation flag, or waiting for a message. -/
def State.runUnit (s : State) (t : Nat) (b : Bytes) (trs : List Word) : Except TFault (Option (State × Bool)) :=
  match byteAt b 0 with
  | 0x10 => (s.runMatmul t b trs).map some
  | 0x11 => (s.runConv t b trs).map some
  | 0x20 => (s.runPwise t b trs).map some
  | 0x21 => (s.runNorm t b trs).map some
  | 0x30 => (s.runLoad t b trs).map some
  | 0x31 => (s.runStore t b trs).map some
  | 0x38 => (s.runHsend t b trs).map some
  | 0x39 => s.runHrecv t b trs
  | _ => .error .badOpcode

/-- Destination regions of an instruction, as local addresses and units (R172). -/
def destOf (b : Bytes) (trs : List Word) : List (Nat × Nat) :=
  let la := fun i => (localAt trs b i).toOption
  let one := fun (i n : Nat) => match la i with | some a => if regionOk a n then [(a, n)] else [] | none => []
  match byteAt b 0 with
  | 0x10 =>
    let m := 64 * (tfield b 5 0 + 1)
    (if tfield b 23 22 = 2 then [] else one 16 ((tfield b 17 12 + 1) * m * 2)) ++ one 20 (m * 4)
  | 0x11 =>
    let outW := (leAt b 36 2 - tfield b 7 4 * (tfield b 11 10 + 1) - 1) / (tfield b 9 8 + 1) + 1
    let mrow := ceilDiv outW 64 * 64
    (if tfield b 27 26 = 2 then [] else one 16 ((tfield b 21 16 + 1) * leAt b 38 2 * mrow * 2)) ++ one 20 (mrow * 4) ++
      one 32 (leAt b 36 2 * (tfield b 3 0 + 1) * 2)
  | 0x20 => one 16 (leAt b 24 4 * rowUnits (tfield b 9 8))
  | 0x21 => one 16 ((tfield b 9 4 + 1) * leAt b 24 4 * rowUnits (tfield b 3 2))
  | 0x30 => match DmaOp.read b trs with
    | .ok d => (List.range d.rows).map (fun j => (d.loc + j * d.locP, if d.codec = 0 then d.len else 16 * d.len))
    | .error _ => []
  | 0x39 => match linkOp b trs with
    | .ok (_, rows, loc, len, pitch) => (List.range rows).map (fun j => (loc + j * pitch, len))
    | .error _ => []
  | _ => []

/-- A unit's instruction faults: its destination's contents are undefined, and it posts nothing (R172). -/
def State.unitFault (s : State) (t pc : Nat) (b : Bytes) (trs : List Word) (f : TFault) : State :=
  let s := (destOf b trs).foldl (fun s e => s.scramble (tileWin t + e.1 * 64) (e.2 * 64)) s
  let s := if byteAt b 0 = 0x31 then
      (match DmaOp.read b trs with
       | .ok d => (List.range d.rows).foldl (fun s j => let e := d.extRow j
           if s.tileMem t e.1 e.2 true then s.scramble e.1 e.2 else s) s
       | .error _ => s)
    else s
  let s := if f = .linkLen then s.discardMsg t b else s
  s.tileFault t pc f

/-- An instruction completes (R148): its POST is applied and SIGNAL raised. -/
def State.tileComplete (s : State) (t pc : Nat) (b : Bytes) (sat : Bool) : State :=
  let s := if 128 ≤ byteAt b 3 then s.tilePost t pc (byteAt b 3 % 16) else s
  if byteAt b 1 / 2 % 2 = 1 ∨ sat then s.raise (tilePage t) 5 else s

/-- INSTRUCTION_COMPLETE: the oldest instruction of a unit completes; one whose work waits is run now if it can be, and an HSEND
completes when its last byte has left the sender (R148, R163). -/
def State.instrComplete (s : State) (t : Nat) (u : TUnit) : State :=
  match (s.tile t).pend.find? (fun p => p.unit == u) with
  | none => s
  | some p =>
    let b := cmdBytes p.slot
    let drop := fun (s : State) => s.updTile t (fun x => { x with pend := x.pend.erase p })
    if p.ran then
      if u = .lsend ∧ 8192 < s.sendBacklog t b then s
      else (((drop s).tileComplete t p.pc b p.sat).tileSettle t)
    else match s.runUnit t b p.trs with
      | .error f => ((drop s).unitFault t p.pc b p.trs f).tileSettle t
      | .ok none => s
      | .ok (some (s', sat)) => ((drop s').tileComplete t p.pc b sat).tileSettle t

/-! ## The sequencer (R150 to R152, R168 to R173) -/

/-- The tile registers as dispatched. -/
def State.trs (s : State) (t : Nat) : List Word := (List.range 15).map (fun i => s.tr t (i + 1))

/-- The sequencer dispatches an instruction to its unit, which runs it unless an older one of that unit waits. -/
def State.dispatch (s : State) (t pc : Nat) (u : TUnit) (b : Bytes) : State :=
  let trs := s.trs t
  let waits := (s.tile t).pend.any (fun p => p.unit == u && !p.ran)
  let put := fun (s : State) (ran sat : Bool) =>
    s.updTile t (fun x => { x with pend := x.pend ++ [{ unit := u, pc := pc, slot := BitVec.ofNat 512 (leNat b), trs := trs, ran := ran, sat := sat }] })
  let s := s.setTpc t (pc + (if byteAt b 0 = 0x11 then 64 else 32))
  if waits then put s false false
  else match s.runUnit t b trs with
    | .error f => (s.unitFault t pc b trs f).setTpc t pc
    | .ok none => put s false false
    | .ok (some (s', sat)) => put s' true sat

/-- The items of a descriptor (R169). -/
def TDesc.release (s : State) (t : Nat) (d : TDesc) : State :=
  match d.kind with
  | 1 => s.slotRetire d.origin t
  | 2 => s.batchRetire d.origin t
  | _ => s

/-- RETIRE of the descriptor with a token (R170). -/
def State.retire (s : State) (t token : Nat) : State :=
  match (s.tile t).taken.find? (fun d => d.token == token) with
  | none => (s.bump (Reg.TILE_CNT_RETIRE_STALE t)).raise (tilePage t) 4
  | some d => TDesc.release (s.updTile t (fun x => { x with taken := x.taken.erase d })) t d

/-- A sequencer instruction that has executed: its completion, and the next PC. -/
def State.seqDone (s : State) (t pc next : Nat) (b : Bytes) : State := (s.setTpc t next).tileComplete t pc b false

/-- A sequencer instruction (R152): the state after it, or none when it waits. -/
def State.seqInstr (s : State) (t pc : Nat) (b : Bytes) : Option State :=
  let d := byteAt b 8
  let a := byteAt b 9
  let next := pc + 32
  let fault := fun f => some (s.tileFault t pc f)
  let idle := (s.tile t).pend = []
  match byteAt b 0 with
  | 0 => if zeroAt b 8 24 then some (s.seqDone t pc next b) else fault .reservedBits
  | 1 => if d = 0 ∨ 15 < d then fault .badShape else some ((s.setTr t d (BitVec.ofNat 32 (leAt b 12 4))).seqDone t pc next b)
  | 2 => if d = 0 ∨ 15 < d ∨ a = 0 ∨ 15 < a then fault .badShape
         else some ((s.setTr t d (s.tr t a + BitVec.ofNat 32 (leAt b 12 4))).seqDone t pc next b)
  | 3 => if a = 0 ∨ 15 < a then fault .badShape
         else
           let v := s.tr t a - 1
           let dest := ((pc : Int) + signed 32 (leAt b 12 4) * 32) % 0x100000
           some ((s.setTr t a v).seqDone t pc (if v = 0 then next else dest.toNat) b)
  | 4 =>
    if d = 0 ∨ 15 < d then fault .badShape
    else match localAt (s.trs t) b 16 with
      | .error f => fault f
      | .ok dst =>
        if regionOk dst 1 = false then fault .addr
        else match (s.tile t).queue with
          | [] => none
          | q :: rest =>
            let s := s.updTile t (fun x => { x with queue := rest, taken := x.taken ++ [q] })
            let s := (s.tst t (dst * 64) (cmdBytes q.bytes)).setTr t d (BitVec.ofNat 32 (q.kind * 2 ^ 24 + q.band * 2 ^ 16 + q.token))
            some ((s.handAll).seqDone t pc next b)
  | 5 => if 15 < a then fault .badShape else some ((s.retire t (bits (s.tr t a) 15 0)).seqDone t pc next b)
  | 6 => if zeroAt b 8 24 = false then fault .reservedBits else if idle then some (s.seqDone t pc next b) else none
  | _ => if zeroAt b 8 24 = false then fault .reservedBits
         else if idle then some (((s.seqDone t pc next b).setTileState t 0).raise (tilePage t) 0) else none

/-- The header's reserved bits (R150). -/
def headerOk (b : Bytes) : Bool :=
  decide (byteAt b 1 < 4) && decide (byteAt b 2 / 16 % 8 = 0) && decide (byteAt b 3 / 16 % 8 = 0)

/-- The sequencer of a running tile reaches an instruction with opcode `op` (R148 to R152, R173): it stops at a YIELD mark when a
preemption is requested; it waits while it cannot dispatch; otherwise the instruction is dispatched or executed. -/
def State.tileInstr (s : State) (t op : Nat) : State :=
  if s.tileState t ≠ 1 ∨ s.tileFenced t ∨ (s.tile t).stopping then s
  else
    let pc := s.tpc t
    if 0xE0000 < pc + 32 then s.tileFault t pc .addr
    else
      let b := s.tld t pc 64
      let o := byteAt b 0
      if s.ue.any (fun l => l == (tileWin t + pc) / 64) then s.tileFault t pc .ecc
      else if tileOps.contains o = false then s.tileFault t pc .badOpcode
      else if o ≠ op then s
      else if o = 0x11 ∧ 0xE0000 < pc + 64 then s.tileFault t pc .addr
      else if (s.tile t).yieldReq ∧ byteAt b 1 % 2 = 1 then
        (s.updTile t (fun x => { x with stopping := true, yielding := true, yieldReq := false })).tileSettle t
      else if headerOk b = false then s.tileFault t pc .reservedBits
      else
        let b := if o = 0x11 then b else b.take 32 ++ zeros 32
        let w := byteAt b 2 % 16
        let waits := decide (128 ≤ byteAt b 2)
        if waits ∧ s.tsem t w = 0 then s
        else
          let s1 := if waits then s.setTsem t w (s.tsem t w - 1) else s
          match unitOf o with
          | some u => if 5 ≤ ((s.tile t).pend.filter (fun p => p.unit == u)).length then s else s1.dispatch t pc u b
          | none => match s1.seqInstr t pc b with
            | some r => if s.tileRuns t && !r.tileRuns t then r.tileStopped t else r
            | none => match s.tileOwner t with
              | some p => s.servePlace p
              | none => s

/-! ## The tile page (R171, R173, R177) -/

/-- TILE_CTL.START runs an idle tile; a tile that no partition owns stays IDLE (R335). -/
def State.tileStart (s : State) (t : Nat) : State :=
  if s.tileState t = 0 ∧ s.tileFenced t = false ∧ (s.tile t).stopping = false ∧ (s.tileOwner t).isSome then
    (s.setTileState t 1).updTile t (fun x => { x with yielded := false })
  else s

/-- TILE_CTL.STOP (R173); a tile in FAULT returns to IDLE with the PC after the faulting instruction (R420). -/
def State.tileStop (s : State) (t : Nat) : State :=
  if s.tileState t = 2 then
    let pc := s.fld (Reg.TILE_FAULT t) 19 5 * 32
    let next := pc + (if byteAt (s.tld t pc 1) 0 = 0x11 then 64 else 32)
    (s.setTileState t 0).setTpc t next
  else if s.tileState t = 1 then (s.updTile t (fun x => { x with stopping := true })).tileSettle t
  else s

/-- TILE_CTL.CODEC_CLR (R176). -/
def State.codecClr (s : State) (t : Nat) : State :=
  ((s.wr (Reg.CODEC_SSE_LO t) 0).wr (Reg.CODEC_SSE_HI t) 0).wr (Reg.CODEC_MAXERR t) 0

/-- A write of TILE_CTL: STOP acts before START where both are written. -/
def State.tileCtl (s : State) (t : Nat) (v : Word) : State :=
  let s := if bit v 2 then s.codecClr t else s
  let s := if bit v 1 then s.tileStop t else s
  if bit v 0 then s.tileStart t else s

/-- A write of DET_DONE_HI marks the item's detection stage done on a page of its partition's tiles (R171). -/
def State.detDone (s : State) (t : Nat) (v : Word) : State :=
  let id := (s.rd (Reg.DET_DONE_LO t)).toNat + v.toNat * 2 ^ 32
  match s.item id with
  | none => s.bump (Reg.TILE_CNT_DET_STALE t)
  | some it =>
    if it.done.getLsbD 1 ∨ (s.tileOwner t ≠ some it.part ∧ it.shadow.isNone) then s.bump (Reg.TILE_CNT_DET_STALE t) else s.stageDone id 1

end Sys2Proof.Machine
end

