-- ==== Sys2Proof/Machine/SeqBase.lean ====
section
/-! DEFINITION. Attention units: models, pages, prefix nodes and the end of a sequence (R198 to R208, R225, R227).  Steps are in
`SeqStep`. -/
namespace Sys2Proof.Machine

def State.aunit (s : State) (u : Nat) : AUnit := s.aunits.get {} u
def State.setAunit (s : State) (u : Nat) (x : AUnit) : State := { s with aunits := s.aunits.set {} u x }
def State.updAunit (s : State) (u : Nat) (f : AUnit → AUnit) : State := s.setAunit u (f (s.aunit u))

/-- Sequences resident on unit u (R198). -/
def State.resident (s : State) (u : Nat) : Nat := (s.seqs.filter (fun (e : Nat × Sequence) => e.2.unit == u)).length

/-- The resident sequence of a handle, of a partition the queue may name (R198, R396). -/
def State.seqOf (s : State) (q : Queue) (u h : Nat) : Option Sequence :=
  match s.seqs.look (h % 16384) with
  | none => none
  | some x => if x.handle = h ∧ x.unit = u ∧ s.owns q x.part then some x else none

def State.setSeq (s : State) (x : Sequence) : State := { s with seqs := s.seqs.insert (x.handle % 16384) x }

/-! ## Models (R225, R202) -/

def modelOfBytes (b : Bytes) : Model :=
  { tag := BitVec.ofNat 64 (leAt b 0 8), layers := byteAt b 8, heads := byteAt b 9, hd := if byteAt b 10 = 1 then 128 else 64,
    win := byteAt b 11, scale := leAt b 12 4, vocab := leAt b 16 2 + 1, fp32 := byteAt b 18 == 1, pfxHeads := leAt b 20 2,
    bias := leAt b 24 8 }

/-- The limits of a descriptor. -/
def modelOk (b : Bytes) : Bool :=
  let m := modelOfBytes b
  decide (1 ≤ m.layers) && decide (m.layers ≤ 32) && decide (1 ≤ m.heads) && decide (m.heads ≤ 16) && decide (byteAt b 10 ≤ 1) &&
  decide (1 ≤ m.win) && decide (m.win ≤ 128) && (fp32.decode m.scale).isFin && decide (byteAt b 18 ≤ 1) && zeroAt b 19 1 &&
  zeroAt b 22 2 && m.bias % 64 == 0 && zeroAt b 32 32

/-- Where the descriptor of a slot lies. -/
def State.modelAddr (s : State) (slot : Nat) : Nat := s.addr48 Reg.MDL_BASE_LO Reg.MDL_BASE_HI + 64 * slot

/-- Bytes of a page, and those a model needs (R202). -/
def pageBytes (code : Nat) : Nat := 16384 * 2 ^ code
def Model.need (m : Model) : Nat := m.layers * 2 * m.heads * 16 * m.hd * 2

/-- Device address of the page with handle h. -/
def State.pageAddr (s : State) (u h : Nat) : Nat :=
  (if h < 524288 then s.addr48 (Reg.POOL0_BASE_LO u) (Reg.POOL0_BASE_HI u) else s.addr48 (Reg.POOL1_BASE_LO u) (Reg.POOL1_BASE_HI u))
    + h % 524288 * pageBytes (s.aunit u).code

/-- Byte offset of a K (kv 0) or V (kv 1) vector in its page. -/
def Model.ofs (m : Model) (l kv h slot : Nat) : Nat := ((((l * 2 + kv) * m.heads + h) * 16 + slot) * m.hd) * 2 % 2 ^ 32

/-- Some line of the page lies in a fenced channel (R200, R329). -/
def State.rangeFenced (s : State) (a n : Nat) : Bool :=
  decide (a < 0x000C00000000) && (List.range 64).any s.chanFenced && (linesOf a n).any (fun l => s.chanFenced (s.chanOf (l * 64)))

def State.pageFenced (s : State) (u h : Nat) : Bool := s.rangeFenced (s.pageAddr u h) (pageBytes (s.aunit u).code)

/-! ## Prefix nodes (R205 to R208) -/

def AUnit.node (x : AUnit) (h : Nat) : Option PNode :=
  match x.nodes.look (h % 1048576) with
  | none => none
  | some n => if n.handle = h then some n else none

def AUnit.setNode (x : AUnit) (n : PNode) : AUnit := { x with nodes := x.nodes.insert (n.handle % 1048576) n }

/-- The path from the first node to the node h; a token list has at most 64 blocks. -/
def AUnit.path (x : AUnit) : Nat → Option Nat → List PNode
  | 0, _ => []
  | _, none => []
  | fuel + 1, some h =>
    match x.node h with
    | none => []
    | some n => x.path fuel n.parent ++ [n]

/-- Tokens of a path. -/
def pathLen (l : List PNode) : Nat := (l.map (fun n => n.toks.length)).sum

/-- The hash of R205. -/
def pfxHash (parent : Nat) (toks : List Nat) : Nat :=
  toks.foldl (fun h t =>
    let h := (h ^^^ t) * 0x9E3779B97F4A7C15 % 2 ^ 64
    h ^^^ (h >>> 31)) (parent ^^^ toks.length)

/-- A node whose last reference may be gone: a FILLING one is freed, and with it its reference on its parent; a READY one becomes
evictable, stamped (R208). -/
def AUnit.release (now : Nat) : Nat → AUnit → Nat → AUnit
  | 0, x, _ => x
  | fuel + 1, x, h =>
    match x.node h with
    | none => x
    | some n =>
      if n.refs ≠ 0 ∨ n.acq ≠ [] then x
      else if n.ready then x.setNode { n with stamp := now }
      else
        let x := { x with nodes := x.nodes.erase (h % 1048576) }
        match n.parent with
        | none => x
        | some p =>
          match x.node p with
          | none => x
          | some m => AUnit.release now fuel (x.setNode { m with refs := m.refs - 1 }) p

/-- Drop one reference on node h. -/
def AUnit.deref (now : Nat) (x : AUnit) (h : Nat) : AUnit :=
  match x.node h with
  | none => x
  | some n => AUnit.release now 65 (x.setNode { n with refs := n.refs - 1 }) h

def AUnit.addRef (x : AUnit) (h : Nat) : AUnit :=
  match x.node h with
  | none => x
  | some n => x.setNode { n with refs := n.refs + 1 }

/-- A page handle is in use. -/
def AUnit.used (x : AUnit) (h : Nat) : Bool := (x.nodes.look h).isSome || x.own.contains h

/-- The evictable node with the earliest stamp, ties to the lower handle. -/
def AUnit.victim (x : AUnit) : Option PNode :=
  x.nodes.foldl (fun (b : Option PNode) (e : Nat × PNode) =>
    let n := e.2
    if n.ready ∧ n.refs = 0 ∧ n.acq = [] then
      match b with
      | none => some n
      | some m => if n.stamp < m.stamp ∨ (n.stamp = m.stamp ∧ n.handle < m.handle) then some n else b
    else b) none

/-- Free pages of pool n. -/
def State.poolPages (s : State) (u n : Nat) : Nat := s.fld (if n = 0 then Reg.POOL0_PAGES u else Reg.POOL1_PAGES u) 19 0
def State.poolFree (s : State) (u n : Nat) : Nat :=
  let x := s.aunit u
  s.poolPages u n - (x.nodes.filter (fun (e : Nat × PNode) => e.1 / 524288 == n)).length - (x.own.filter (fun h => h / 524288 == n)).length

/-- Take a free page of pool n: which one is free. -/
def State.takeFree (s : State) (u n : Nat) : Option Nat × State :=
  if s.poolFree u n = 0 then (none, s)
  else
    let x := s.aunit u
    let r := s.pick (s.poolPages u n) (fun i => !x.used (n * 524288 + i))
    (r.1.map (n * 524288 + ·), r.2)

/-- A page for a command (R202, R208): the pools in the order asked for, then the evictable node with the earliest stamp. -/
def State.takePage (s : State) (u : Nat) (pool1 : Bool) : Option Nat × State :=
  let a := s.takeFree u (if pool1 then 1 else 0)
  match a.1 with
  | some h => (some h, a.2)
  | none =>
    let b := a.2.takeFree u (if pool1 then 0 else 1)
    match b.1 with
    | some h => (some h, b.2)
    | none =>
      let s := b.2
      match (s.aunit u).victim with
      | none => (none, s)
      | some n =>
        let x := { s.aunit u with nodes := (s.aunit u).nodes.erase (n.handle % 1048576) }
        let x := match n.parent with
          | none => x
          | some p => x.deref s.now p
        (some (n.handle % 1048576), (s.setAunit u x).bump (Reg.AU_CNT_PFX_EVICT u))

/-- n own pages; none when some page cannot be found. -/
def State.takePages (s : State) (u : Nat) (pool1 : Bool) : Nat → Option (List Nat × State)
  | 0 => some ([], s)
  | n + 1 =>
    let r := s.takePage u pool1
    match r.1 with
    | none => none
    | some h =>
      let s := r.2.updAunit u (fun x => { x with own := h :: x.own })
      (s.takePages u pool1 n).map (fun t => (h :: t.1, t.2))

/-! ## The end of a sequence (R200, R248) -/

/-- The verdict of a cause. -/
def verdictOf (cause : Nat) : Nat := if cause = 1 then 0 else if cause ≤ 3 then 1 else 2

/-- A resident sequence ends: pages freed, leaf reference dropped, context closed, ID free; its item's stages are looked at again. -/
def State.seqEnd (s : State) (id cause : Nat) : State :=
  match s.seqs.look id with
  | none => s
  | some x =>
    let s := { s with seqs := s.seqs.erase id }
    let s := s.updAunit x.unit (fun a =>
      let a := { a with own := a.own.filter (fun h => !x.pages.contains h) }
      match x.leaf with
      | none => a
      | some l => a.deref s.now l)
    let s := s.closeCtx x.ctx (verdictOf cause) cause (cause == 1)
    (s.bump Reg.SEQ_CNT_SEQ_ENDED).refresh x.item

/-! ## The unit's page (R226, R227) -/

/-- The checks of an enable. -/
def State.auOk (s : State) (u : Nat) : Bool :=
  let n := pageBytes (s.fld (Reg.AU_CTL u) 10 8)
  let p0 := s.poolPages u 0
  let p1 := s.poolPages u 1
  decide (p0 ≤ 524288) && decide (p1 ≤ 524288) && inCommons (s.addr48 (Reg.POOL0_BASE_LO u) (Reg.POOL0_BASE_HI u)) (p0 * n) &&
  decide (s.addr48 (Reg.POOL1_BASE_LO u) (Reg.POOL1_BASE_HI u) + p1 * n ≤ 0x000C00000000) &&
  inCommons (s.addr48 (Reg.PFX_BASE_LO u) (Reg.PFX_BASE_HI u)) (32 * 2 ^ s.fld (Reg.PFX_BUCKETS u) 4 0)

/-- Every sequence of the unit ends with a cause and every node is freed. -/
def State.auClear (s : State) (u cause : Nat) : State :=
  let s := ((s.seqs.filter (fun (e : Nat × Sequence) => e.2.unit == u)).map Prod.fst).foldl (fun s id => s.seqEnd id cause) s
  s.updAunit u (fun x => { x with nodes := [], own := [], disabling := false, step := none })

/-- The unit becomes disabled: its sequences end CANCELLED and every node is freed (R227). -/
def State.auOff (s : State) (u : Nat) : State := (s.auClear u 4).setFlag (Reg.AU_CTL u) 0 false

/-- A write of AU_CTL. -/
def State.auCtl (s : State) (req : Req) (u : Nat) (v : Word) : State :=
  let on := s.flag (Reg.AU_CTL u) 0
  s.storeThen req (Reg.AU_CTL u) v (fun s =>
    let s := s.setFlag (Reg.AU_CTL u) 0 on
    if bit v 0 then
      (if on then s.updAunit u (fun x => { x with disabling := false })
       else if s.auOk u then
         ((s.setFlag (Reg.AU_CTL u) 0 true).setFld (Reg.AU_STS u) 30 29 0).updAunit u
           (fun x => { x with code := s.fld (Reg.AU_CTL u) 10 8, disabling := false })
       else s.setFlag (Reg.AU_STS u) 30 true)
    else if on = false then s
    else if (s.aunit u).step.isSome then s.updAunit u (fun x => { x with disabling := true })
    else s.auOff u)

/-- A write to one of the pool or hash-table registers: refused while the unit is enabled. -/
def State.auRegion (s : State) (req : Req) (u a : Nat) (v : Word) : State :=
  if s.flag (Reg.AU_CTL u) 0 then s.setFlag (Reg.AU_STS u) 30 true else (s.store req a v).1

/-- A write to a semaphore register: nothing while a step is open. -/
def State.auSemWrite (s : State) (req : Req) (u a : Nat) (v : Word) : State :=
  if (s.aunit u).step.isSome then s else (s.store req a v).1

/-- The step closes; a disable that waited takes effect (R219, R224, R227). -/
def State.closeStep (s : State) (u : Nat) : State :=
  let s := s.updAunit u (fun x => { x with step := none })
  (if (s.aunit u).disabling then s.auOff u else s).stepClosed u

/-- The views of AU_STS, the FREE registers and SEQ_STS. -/
def State.auView (s : State) (u a : Nat) : Word :=
  if a = Reg.AU_STS u then putBit (putBits (s.rd a) 11 0 (s.resident u)) 31 (s.aunit u).step.isSome
  else if a = Reg.POOL0_FREE u then BitVec.ofNat 32 (if s.flag (Reg.AU_CTL u) 0 then s.poolFree u 0 else 0)
  else if a = Reg.POOL1_FREE u then BitVec.ofNat 32 (if s.flag (Reg.AU_CTL u) 0 then s.poolFree u 1 else 0)
  else s.rd a

end Sys2Proof.Machine
end

