-- ==== Sys2Proof/Machine/SeqStep.lean ====
section
/-! DEFINITION. The attention units' commands (R199 to R224): sequences, prefixes, batch steps, attention and verification. -/
namespace Sys2Proof.Machine

/-- The unit a queue's commands go to, and their status on it: commands to a disabled or fenced unit complete NO_STEP (R227, R419); completions other than OK
raise CMD_ERR, and NO_SPACE also POOL_EMPTY (R227). A command that gives no answer holds its queue. -/
def State.auCmd (s : State) (g op : Nat) (k : State → Nat → Queue → Bytes → Option (State × St × Nat)) : State :=
  s.execHeld g op (fun q b =>
    let u := q.target - 8
    let r := if s.auServes q op = false then none else if s.flag (Reg.AU_CTL u) 0 = false ∨ s.flag (auPage u + 0xC) 30 then some (s, St.noStep, 0) else k s u q b
    r.map (fun r =>
      let t := if r.2.1 = .ok then r.1 else r.1.raise (auPage u) 1
      (if r.2.1 = .noSpace then t.raise (auPage u) 3 else t, r.2.1, r.2.2)))

/-! ## SEQ_OPEN and SEQ_END (R199, R200) -/

def State.effSeqOpen (s : State) (u : Nat) (q : Queue) (b : Bytes) : State × St × Nat :=
  let flags := byteAt b 13
  let contig := flags % 2 == 1
  let most := if contig then 256 else 1024
  let maxOwn := if leAt b 28 2 = 0 then most else leAt b 28 2
  let md := s.ld (s.modelAddr (byteAt b 12)) 64
  let m := modelOfBytes md
  let x := s.aunit u
  let leaf := leAt b 24 4
  let item := leAt b 0 8
  let rows := byteAt b 40
  let cols := leAt b 42 2
  let feat := leAt b 32 8
  let ctx := s.gctxOf q (leAt b 48 4)
  firstStop s
    [ stopIf (!(decide (flags < 4) && decide (byteAt b 12 < 64) && zeroAt b 18 2 && zeroAt b 46 2 && zeroAt b 52 12 &&
        decide (maxOwn ≤ most) && decide (1 ≤ rows) && decide (rows ≤ 16) && decide (1 ≤ cols) && decide (cols ≤ 1024))) .badCmd,
      s.itemStop q item,
      stopIf (s.canRead 0 (s.modelAddr (byteAt b 12)) 64 != .ok) .memErr,
      stopIf (!modelOk md) .model, stopIf (decide (pageBytes x.code < m.need)) .page,
      stopIf (leaf != 0xFFFFFFFF && (x.node leaf).isNone) .stale, stopIf ctx.isNone .stale,
      stopIf (match ctx with | some c => c.2.bound | none => false) .busy,
      stopIf (!s.mayUse q feat (m.layers * 2 * m.heads * rows * cols * m.hd * 2)) .access ]
    (let s0 := s
     let lf := if leaf = 0xFFFFFFFF then none else some leaf
     let s := match lf with
       | none => s
       | some l => s.updAunit u (fun x => x.addRef l)
     let p := s.pick 16384 (fun i => (s.seqs.look i).isNone)
     match p.1, ctx, (if 2048 ≤ s.resident u then none else p.2.takePages u (flags.testBit 1) (if contig then 16 else 9)) with
     | some i, some (ci, c), some (pages, s) =>
       let gen := s.seqGen.get 0 i
       let own := q.ownerOf
       let sq : Sequence :=
         { handle := gen * 16384 + i, unit := u, item := item, line := leAt b 8 4, slot := byteAt b 12, model := m, contig := contig,
           leaf := lf, plen := pathLen ((s.aunit u).path 65 lf), len := 0, root := leAt b 14 2, maxOwn := maxOwn, endTok := leAt b 30 2,
           feat := feat, featRows := rows, featCols := cols, featCentre := byteAt b 41, featValid := leAt b 44 2, ctx := ci,
           pages := pages, part := own.1, vi := own.2 }
       let s := { s with seqGen := s.seqGen.set 0 i ((gen + 1) % 2 ^ 18) }
       (((s.setSeq sq).setGCtx ci { c with bound := true }).bump Reg.SEQ_CNT_SEQ_OPENED, .ok, sq.handle)
     | _, _, _ => (s0, .noSpace, 0))

/-- The open step of a unit names sequence h. -/
def State.stepNames (s : State) (u h : Nat) : Bool :=
  match (s.aunit u).step with
  | none => false
  | some st => st.members.any (fun m => m.seq == h && m.pad.isNone)

def State.effSeqEnd (s : State) (u : Nat) (q : Queue) (b : Bytes) : State × St × Nat :=
  let h := leAt b 0 4
  firstStop s
    [ stopIf (!(zeroAt b 4 12 && zeroAt b 18 2 && zeroAt b 24 40)) .badCmd, stopIf (s.seqOf q u h).isNone .stale,
      stopIf (s.stepNames u h) .busy ]
    (s.seqEnd (h % 16384) 4, .ok, 0)

/-! ## Prefixes (R206, R208) -/

/-- The caller of an acquire. -/
def callerOf (q : Queue) : Nat := if q.owner = 0xFFFF then 0x8000 + 16 * q.part + q.vi else q.owner

/-- Blocks of 16 and a shorter last one; at most 64. -/
def blocksOf : Nat → List Nat → List (List Nat)
  | 0, _ => []
  | _, [] => []
  | fuel + 1, l => l.take 16 :: blocksOf fuel (l.drop 16)

/-- What a block takes: a node found, or a new one, entered in the table or not. -/
structure PBlock where
  toks : List Nat
  hash : Nat
  found : Option Nat
  table : Bool

/-- Look every block up, in order (R206): `parent` is the node of the block before, none for the first block, and `fresh` says that
it is a new one; `planned` are the hashes of new table entries. -/
def AUnit.plan (x : AUnit) (log2 : Nat) (parent : Option Nat) (fresh : Bool) (h : Nat) (planned : List Nat) : List (List Nat) → List PBlock
  | [] => []
  | t :: l =>
    let k := pfxHash h t
    match x.nodes.find? (fun (e : Nat × PNode) => e.2.inTable && e.2.hash == k) with
    | some e =>
      if fresh = false ∧ e.2.parent = parent ∧ e.2.toks = t then
        ⟨t, k, some e.2.handle, true⟩ :: x.plan log2 (some e.2.handle) false k planned l
      else ⟨t, k, none, false⟩ :: x.plan log2 none true k planned l
    | none =>
      let bkt := Config.bucket k log2
      let load := (x.nodes.filter (fun (e : Nat × PNode) => e.2.inTable && Config.bucket e.2.hash log2 == bkt)).length +
        (planned.filter (fun p => Config.bucket p log2 == bkt)).length
      let tab := decide (load < 4) && !planned.contains k
      ⟨t, k, none, tab⟩ :: x.plan log2 none true k (if tab then k :: planned else planned) l

/-- Make the new nodes of a plan, in order: the leaf, the handles of the new nodes, or none when a page cannot be found. -/
def State.makeNodes (s : State) (u : Nat) (m : Model) (pool1 : Bool) (parent : Option Nat) :
    List PBlock → Option (Option Nat × List Nat × State)
  | [] => some (parent, [], s)
  | p :: l =>
    match p.found with
    | some h => s.makeNodes u m pool1 (some h) l
    | none =>
      let r := s.takePage u pool1
      match r.1 with
      | none => none
      | some pg =>
        let s := r.2.updAunit u (fun x =>
          let gen := x.gens.get 0 pg
          let n : PNode := { handle := gen * 1048576 + pg, parent := parent, toks := p.toks, hash := p.hash, model := m, ready := false,
                             inTable := p.table, refs := 0, acq := [0x10000], stamp := 0 }
          let x := { x with gens := x.gens.set 0 pg ((gen + 1) % 4096) }
          let x := match parent with
            | none => x
            | some q => x.addRef q
          x.setNode n)
        let h := (match (s.aunit u).nodes.look pg with | some n => n.handle | none => pg)
        (s.makeNodes u m pool1 (some h) l).map (fun t => (t.1, h :: t.2.1, t.2.2))

def State.effPfxAcquire (s : State) (u : Nat) (q : Queue) (b : Bytes) : State × St × Nat :=
  let src := leAt b 0 8
  let n := leAt b 8 2
  let md := s.ld (s.modelAddr (byteAt b 10)) 64
  let m := modelOfBytes md
  let x := s.aunit u
  let toks := (List.range n).map (fun i => leAt (s.ldUnit src (2 * n)).1 (2 * i) 2)
  let plan := x.plan (s.fld (Reg.PFX_BUCKETS u) 4 0) none false m.tag.toNat [] (blocksOf 64 toks)
  let fill := plan.filter (fun p => p.found.isNone)
  firstStop s
    [ stopIf (!((byteAt b 11 == 0 || byteAt b 11 == 2) && decide (byteAt b 10 < 64) && zeroAt b 12 4 && zeroAt b 18 2 && zeroAt b 32 32 &&
        decide (1 ≤ n) && decide (n ≤ 1024))) .badCmd,
      stopIf (s.canRead 0 (s.modelAddr (byteAt b 10)) 64 != .ok) .memErr,
      stopIf (!modelOk md) .model, stopIf (decide (pageBytes x.code < m.need)) .page,
      s.memStop q src (2 * n) false, s.memStop q (leAt b 24 8) (4 * fill.length) true ]
    (let deepest := (plan.filterMap PBlock.found).getLast?
     let s0 := s
     let s := match deepest with
       | none => s
       | some h => s.updAunit u (fun x => x.addRef h)
     match s.makeNodes u m (byteAt b 11 == 2) none plan with
     | none => (s0, .noSpace, 0)
     | some (leaf, new, s) =>
       let lf := leaf.getD 0
       let s := s.updAunit u (fun x =>
         let x := match deepest with
           | none => x
           | some h => (match x.node h with | some n => x.setNode { n with refs := n.refs - 1 } | none => x)
         let x := new.foldl (fun (x : AUnit) h => match x.node h with
           | some n => x.setNode { n with acq := [] }
           | none => x) x
         match x.node lf with
         | some n => x.setNode { n with acq := callerOf q :: n.acq }
         | none => x)
       let s := ((s.count (Reg.AU_CNT_PFX_HIT u) (plan.filter (fun p => p.found.isSome)).length).count (Reg.AU_CNT_PFX_MISS u)
         (fill.filter (fun p => p.table)).length).count (Reg.AU_CNT_PFX_UNSHARED u) (fill.filter (fun p => !p.table)).length
       (s.stUnit (leAt b 24 8) (new.map (toLe 4)).flatten, .ok, lf + new.length * 2 ^ 32))

def State.effPfxRelease (s : State) (u : Nat) (q : Queue) (b : Bytes) : State × St × Nat :=
  if !(zeroAt b 4 12 && zeroAt b 18 2 && zeroAt b 24 40) then (s, .badCmd, 0)
  else
    match (s.aunit u).node (leAt b 0 4) with
    | none => (s, .stale, 0)
    | some n =>
      if n.acq.contains (callerOf q) then
        (s.updAunit u (fun x => AUnit.release s.now 65 (x.setNode { n with acq := n.acq.erase (callerOf q) }) n.handle), .ok, 0)
      else (s, .stale, 0)

/-! ## STEP_OPEN (R214, R215, R246) -/

/-- The pad states of R221. -/
def padStale : Nat := 9
def padDuplicate : Nat := 10
def padNotReady : Nat := 11
def padBadEntry : Nat := 12

/-- An entry of the table holds zero wherever R214 says so. -/
def entryOk (e : Bytes) : Bool :=
  let pre := byteAt e 4 == 1
  let nq := byteAt e 5
  zeroAt e 6 2 && zeroAt e 12 4 && (pre || zeroAt e 8 4) && (!pre || leAt e 0 4 == 0xFFFFFFFF) &&
  (let used := if pre then 0 else min 8 (nq - 1)
   zeroAt e (16 + 2 * used) (16 - 2 * used))

/-- Grammar states along the candidates while each is allowed (R246): s₀, s₁, …, and the overflows and bad nodes met. -/
def State.speculate (s : State) (c : GCtx) (l : List Thread) : List Nat → List (List Thread) × Nat × Nat
  | [] => ([l], 0, 0)
  | t :: ts =>
    if c.allows s l t then
      let x := s.ctxNext { c with threads := l } t
      let r := s.speculate c x.out ts
      (l :: r.1, x.over' + r.2.1, x.bad + r.2.2)
    else ([l], 0, 0)

/-- A node is READY, or an earlier entry fills it. -/
def filledBy (ms : List Member) (h : Nat) : Bool := ms.any (fun m => m.prefill && m.pad.isNone && m.node == h)

/-- One entry becomes a member; a sequence that its condition ends is ended (R200, R214). -/
def State.member (s : State) (u : Nat) (q : Queue) (qstep : Nat) (ms : List Member) (e : Bytes) : Member × State :=
  let sh := leAt e 0 4
  let nq := byteAt e 5
  let node := leAt e 8 4
  let cands := (List.range (min 8 (nq - 1))).map (fun i => leAt e (16 + 2 * i) 2)
  let x := s.aunit u
  let base : Member := { seq := sh, prefill := byteAt e 4 == 1, nq := nq, node := node, cands := cands, pad := none, item := 0, spec := [] }
  if byteAt e 4 = 1 then
    match x.node node with
    | none => ({ base with pad := some padNotReady }, s)
    | some n =>
      if s.pageFenced u (node % 1048576) then ({ base with pad := some 5 }, s)
      else if n.ready ∨ (match n.parent with
          | none => false
          | some p => !((match x.node p with | some m => m.ready | none => false) || filledBy ms p)) = true then
        ({ base with pad := some padNotReady }, s)
      else if nq ≠ n.toks.length ∨ qstep < nq then ({ base with pad := some padBadEntry }, s)
      else ({ base with cands := [] }, s)
  else
    match s.seqOf q u sh with
    | none => ({ base with pad := some padStale }, s)
    | some sq =>
      let base := { base with item := sq.item }
      let path := x.path 65 sq.leaf
      if ms.any (fun m => !m.prefill && m.seq == sh) then ({ base with pad := some padDuplicate }, s)
      else if (match s.item sq.item with
          | none => true
          | some it => it.sealInfo.isSome && it.pv.lateMode != 1 && it.pv.lateMode != 2) = true then
        ({ base with pad := some 4 }, s.seqEnd (sh % 16384) 4)
      else if sq.pages.any (s.pageFenced u) || path.any (fun n => s.pageFenced u (n.handle % 1048576)) then
        ({ base with pad := some 5 }, s.seqEnd (sh % 16384) 5)
      else if path.any (fun n => !n.ready && !filledBy ms n.handle) then ({ base with pad := some padNotReady }, s)
      else if 2 ≤ byteAt e 4 ∨ nq = 0 ∨ 9 < nq ∨ qstep < nq then ({ base with pad := some padBadEntry }, s)
      else
        let nq := min nq (sq.maxOwn - sq.len)
        let cands := cands.take (nq - 1)
        match s.gctxs.look sq.ctx with
        | none => ({ base with nq := nq, cands := cands }, s)
        | some c =>
          let r := s.speculate c c.threads cands
          let b : Build := { over' := r.2.1, bad := r.2.2 }
          let s := s.noteBuild b
          let s := if b.over' = 0 ∧ b.bad = 0 then s else s.setGCtx sq.ctx (c.noteBuild b)
          ({ base with nq := nq, cands := cands, spec := r.1 }, s)

/-- Rows issued for n members. -/
def stepRows (n qstep : Nat) : Nat := ceilDiv (n * qstep) 64 * 64

def State.effStepOpen (s : State) (u : Nat) (q : Queue) (b : Bytes) : State × St × Nat :=
  let a := leAt b 0 8
  let h := (s.ldUnit a 64).1
  let n := leAt h 0 2
  let qs := byteAt h 2
  let ents := (List.range n).map (fun m => (s.ldUnit (a + 64 + 32 * m) 32).1)
  firstStop s
    [ stopIf (!(zeroAt b 8 8 && zeroAt b 18 2 && zeroAt b 24 40)) .badCmd, stopIf (s.aunit u).step.isSome .busy,
      s.memStop q a 64 false,
      stopIf (!(decide (1 ≤ n) && decide (n ≤ 256) && decide (1 ≤ qs) && decide (qs ≤ 16) && decide (n * qs ≤ 4096) && zeroAt h 3 61)) .badStep,
      s.memStop q (a + 64) (32 * n) false, stopIf (!ents.all entryOk) .badStep ]
    (let r := ents.foldl (fun (r : List Member × State) e =>
       let m := r.2.member u q qs r.1 e
       (r.1 ++ [m.1], m.2)) ([], s)
     let s := r.2
     let urg := (r.1.map (fun m => if m.pad.isSome then 0 else match s.item m.item with
       | some it => it.urgency s.now
       | none => 0)).foldl max 0
     (s.updAunit u (fun x => { x with step := some { table := a, qstep := qs, urg := urg, members := r.1 } }), .ok,
      stepRows n qs + ceilDiv n (16 / qs) % 256 * 65536))

/-! ## Attention (R204, R209 to R216) -/

/-- The bucket of a distance (R209). -/
def biasBucket (d : Nat) : Nat :=
  if d < 16 then d else if 1024 ≤ d then 63 else let e := Nat.log2 d; 16 + 8 * (e - 4) + d / 2 ^ (e - 3) % 8

/-- The model of a member: its sequence's, or its node's. -/
def State.memberModel (s : State) (u : Nat) (m : Member) : Option Model :=
  if m.pad.isSome then none
  else if m.prefill then ((s.aunit u).node m.node).map PNode.model else (s.seqs.look (m.seq % 16384)).map Sequence.model

/-- The vector addresses of one key: K and V of layer l, head h in a page's slot. -/
def State.kvAddr (s : State) (u : Nat) (m : Model) (l h page slot : Nat) : Nat × Nat :=
  let a := s.pageAddr u page
  (a + m.ofs l 0 h slot, a + m.ofs l 1 h slot)

/-- Page and slot of prefix index i and of own index j (R203). -/
def prefixSlot (path : List PNode) (i : Nat) : Nat × Nat := ((((path.drop (i / 16)).map (fun n => n.handle % 1048576)).headD 0), i % 16)
def Sequence.ownSlot (x : Sequence) (j : Nat) : Nat × Nat :=
  let k := if x.contig then j else j % 144
  ((x.pages.drop (k / 16)).headD 0, k % 16)

/-- A key of a row's span: bias distance, whether it is a prefix key, and its page and slot. -/
structure Key where
  dist : Nat
  pfx : Bool
  page : Nat
  slot : Nat

/-- Where row i of a member writes its key, and its span in key order (R204). -/
def State.rowKeys (s : State) (u : Nat) (m : Member) (i : Nat) : (Nat × Nat) × List Key :=
  let x := s.aunit u
  if m.prefill then
    let path := x.path 65 (some m.node)
    let t := 16 * (path.length - 1) + i
    (prefixSlot path t, (List.range (t + 1)).map (fun j => let p := prefixSlot path j; ⟨t - j, true, p.1, p.2⟩))
  else
    match s.seqs.look (m.seq % 16384) with
    | none => ((0, 0), [])
    | some q =>
      let path := x.path 65 q.leaf
      let t := q.len + i
      let lo := t + 1 - q.model.win
      (q.ownSlot t,
       (List.range q.plen).map (fun j => let p := prefixSlot path j; ⟨q.plen + t - j, true, p.1, p.2⟩) ++
       (range' lo (t + 1 - lo)).map (fun j => let p := q.ownSlot j; ⟨t - j, false, p.1, p.2⟩))

/-- fp32 of a stored bf16. -/
def ofBf16 (n : Nat) : Nat := n * 65536

/-- One row and head (R212, R213): keys with bias, K and V bytes. The second component is 0, 1 for NONFINITE, 2 for EMPTY_SPAN. -/
def attendHead (hd scale : Nat) (qv : Bytes) (keys : List (Nat × Bytes × Bytes)) : Bytes × Nat :=
  let q := (List.range hd).map (fun x => ofBf16 (leAt qv (2 * x) 2))
  let score := fun (k : Nat × Bytes × Bytes) =>
    let d := q.zipIdx.foldl (fun d (e : Nat × Nat) => fp32.fma e.1 (ofBf16 (leAt k.2.1 (2 * e.2) 2)) d) 0
    fp32.fma d scale k.1
  let sc := keys.map (fun k => (score k, k.2.2))
  if sc.any (fun e => (fp32.decode e.1).isNan || fp32.decode e.1 == .inf false) then
    ((List.replicate hd (toLe 2 0x7FC0)).flatten, 1)
  else if sc.all (fun e => fp32.decode e.1 == .inf true) then (zeros (2 * hd), 2)
  else
    let mx := sc.foldl (fun b (e : Nat × Bytes) => if fp32.lt b e.1 then e.1 else b) 0xFF800000
    let p := sc.map (fun e => (if fp32.decode e.1 == .inf true then 0 else expNeg (fp32.sub e.1 mx), e.2))
    let z := p.foldl (fun z (e : Nat × Bytes) => fp32.add z e.1) 0
    (((List.range hd).map (fun x =>
      let a := p.foldl (fun a (e : Nat × Bytes) => fp32.fma e.1 (ofBf16 (leAt e.2 (2 * x) 2)) a) 0
      toLe 2 (fp32.conv bf16 (fp32.div a z)))).flatten, 0)

/-- The fp32 bias entry i of T_self (or T_vert, from 64 on) of head h (R211). -/
def Model.biasAddr (m : Model) (l : Nat) : Nat := m.bias + l * m.heads * 320
def State.biasAt (s : State) (m : Model) (l h i : Nat) : Nat := leAt (s.ld (m.biasAddr l + h * 320 + 4 * i) 4) 0 4

/-- A bias table's half that a mode reads holds no NaN and no +∞. -/
def State.biasOk (s : State) (m : Model) (l : Nat) (cross : Bool) : Bool :=
  (List.range m.heads).all (fun h => (if cross then range' 64 16 else List.range 64).all (fun i =>
    let d := fp32.decode (s.biasAt m l h i)
    !d.isNan && d != .inf false))

/-- Rows of a step that are not pad rows: row number, member, index in it, and its model. -/
def State.liveRows (s : State) (u : Nat) (st : BStep) : List (Nat × Member × Nat × Model) :=
  ((st.members.zipIdx.map (fun (e : Member × Nat) => match s.memberModel u e.1 with
    | none => []
    | some m => (List.range e.1.nq).map (fun i => (e.2 * st.qstep + i, e.1, i, m)))).flatten)

/-- The keys of a row in self mode, with bias of head h (R209, R210). -/
def State.selfKeys (s : State) (u l h : Nat) (m : Model) (keys : List Key) : List (Nat × Bytes × Bytes) :=
  keys.map (fun k =>
    let a := s.kvAddr u m l h k.page k.slot
    (if k.pfx && !m.pfxHeads.testBit h then 0xFF800000 else s.biasAt m l h (biasBucket k.dist),
     (s.ldUnit a.1 (2 * m.hd)).1, (s.ldUnit a.2 (2 * m.hd)).1))

/-- K and V of feature f, layer l, head h: for each layer the K and then the V of each head, for each feature (R223). -/
def Sequence.featAddr (x : Sequence) (l h f : Nat) : Nat × Nat :=
  let n := x.featRows * x.featCols
  let v := fun (kv : Nat) => x.feat + (((l * 2 + kv) * x.model.heads + h) * n + f) * x.model.hd * 2
  (v 0, v 1)

/-- The keys of a row in cross mode: the line's features (R210); a prefill row has none. -/
def State.crossKeys (s : State) (l h : Nat) (m : Member) : List (Nat × Bytes × Bytes) :=
  if m.prefill then [] else
    match s.seqs.look (m.seq % 16384) with
    | none => []
    | some q => (List.range (q.featRows * q.featCols)).map (fun f =>
        let a := q.featAddr l h f
        let r : Int := (f / q.featCols : Nat) - (q.featCentre : Int)
        (if q.featValid ≤ f % q.featCols then 0xFF800000 else s.biasAt q.model l h (64 + (iclamp (-8) 7 r + 8).toNat),
         (s.ldUnit a.1 (2 * q.model.hd)).1, (s.ldUnit a.2 (2 * q.model.hd)).1))

/-- Device ranges an ATTEND touches besides its inputs and outputs: bias tables, keys and values. -/
def State.attendReads (s : State) (u l : Nat) (cross : Bool) (rows : List (Nat × Member × Nat × Model)) : List (Nat × Nat) :=
  (rows.map (fun r =>
    let m := r.2.2.2
    (m.biasAddr l, m.heads * 320) ::
    (if cross then (match s.seqs.look (r.2.1.seq % 16384) with
        | some q => if r.2.1.prefill then [] else
            [(q.feat + l * 2 * m.heads * q.featRows * q.featCols * m.hd * 2, 2 * m.heads * q.featRows * q.featCols * m.hd * 2)]
        | none => [])
     else ((s.rowKeys u r.2.1 r.2.2.1).2.map (fun k => (List.range m.heads).map (fun h =>
        let a := s.kvAddr u m l h k.page k.slot
        [(a.1, 2 * m.hd), (a.2, 2 * m.hd)]))).flatten.flatten))).flatten

/-- WAIT and POST bytes: reserved bits zero. -/
def semByteOk (n : Nat) : Bool := nbits n 6 4 == 0

/-- The POST of a completion: semaphore of a tile, or of the unit when POST_TILE is 0xFFFF (R223). -/
def State.auPostTo (s : State) (u post tile : Nat) : State :=
  if post < 128 then s
  else if tile = 0xFFFF then s.auPost u (post % 16)
  else s.tilePost tile (s.tpc tile) (post % 16)

/-- A command with WAIT and POST: held while its WAIT semaphore is 0, which it takes when it starts; it posts at its completion. -/
def State.waiting (s : State) (u wait post tile : Nat) (k : State → State × St × Nat) : Option (State × St × Nat) :=
  if 128 ≤ wait ∧ s.auSem u (wait % 16) = 0 then none
  else
    let s := if 128 ≤ wait then s.setAuSem u (wait % 16) (s.auSem u (wait % 16) - 1) else s
    let r := k s
    some (r.1.auPostTo u post tile, r.2.1, r.2.2)

/-- An error on an access closes the step without committing (R219). -/
def State.memClosed (s : State) (u : Nat) : State × St × Nat := (s.closeStep u, .memErr, 0)

/-- ATTEND on the open step (R212, R216): K and V of every row first, then the scores. -/
def State.attend (s : State) (u : Nat) (q : Queue) (st : BStep) (l : Nat) (cross : Bool) (inp out : Nat) : State × St × Nat :=
  let rows := s.liveRows u st
  let total := stepRows st.members.length st.qstep
  let first := (rows.map (fun r => r.2.2.2)).head?
  let vec := fun (m : Model) => m.heads * m.hd * 2
  let rin := fun (m : Model) => if cross then vec m else 3 * vec m
  let modelOf := fun (r : Nat) => match rows.find? (fun e => e.1 == r) with
    | some e => some e.2.2.2
    | none => first
  let outs := (List.range total).filterMap (fun r => (modelOf r).map (fun m => (r, out + r * vec m, vec m)))
  let ins := rows.map (fun r => (inp + r.1 * rin r.2.2.2, rin r.2.2.2))
  let writes := if cross then [] else rows.map (fun r =>
    let w := (s.rowKeys u r.2.1 r.2.2.1).1
    (r, (List.range r.2.2.2.heads).map (fun h => s.kvAddr u r.2.2.2 l h w.1 w.2)))
  let stops := ins.map (fun a => s.memStop q a.1 a.2 false) ++ outs.map (fun a => s.memStop q a.2.1 a.2.2 true) ++
    (s.attendReads u l cross rows).map (fun a => stopIf (s.canRead 0 a.1 a.2 != .ok) .memErr) ++
    (writes.map (fun w => w.2.map (fun a => stopIf (s.canWrite 0 a.1 (2 * w.1.2.2.2.hd) != .ok || s.canWrite 0 a.2 (2 * w.1.2.2.2.hd) != .ok)
      .memErr))).flatten
  match stops.findSome? id with
  | some .memErr => s.memClosed u
  | some e => (s, e, 0)
  | none =>
    if !rows.all (fun r => s.biasOk r.2.2.2 l cross) then (s, .badTable, 0)
    else
      let row := fun (t : State) (r : Nat × Member × Nat × Model) => (t.ldUnit (inp + r.1 * rin r.2.2.2) (rin r.2.2.2)).1
      let s := writes.foldl (fun t w =>
        let m := w.1.2.2.2
        let b := row s w.1
        w.2.zipIdx.foldl (fun t (e : (Nat × Nat) × Nat) =>
          (t.stUnit e.1.1 ((b.drop (vec m + e.2 * m.hd * 2)).take (m.hd * 2))).stUnit e.1.2
            ((b.drop (2 * vec m + e.2 * m.hd * 2)).take (m.hd * 2))) t) s
      let res := rows.map (fun r =>
        let m := r.2.2.2
        let b := row s r
        (r.1, (List.range m.heads).map (fun h =>
          attendHead m.hd m.scale ((b.drop (h * m.hd * 2)).take (m.hd * 2))
            (if cross then s.crossKeys l h r.2.1 else s.selfKeys u l h m (s.rowKeys u r.2.1 r.2.2.1).2))))
      let s := outs.foldl (fun t o =>
        match res.find? (fun e => e.1 == o.1) with
        | some e => t.stUnit o.2.1 (e.2.map Prod.fst).flatten
        | none => t.stUnit o.2.1 (zeros o.2.2)) s
      let kinds := (res.map (fun e => e.2.map Prod.snd)).flatten
      let nf := (kinds.filter (· == 1)).length
      let s := (s.count (Reg.AU_CNT_NONFINITE u) nf).count (Reg.AU_CNT_EMPTY_SPAN u) (kinds.filter (· == 2)).length
      (if nf = 0 then s else s.raise (auPage u) 2, .ok, 0)

/-- The open step that a STEP address names. -/
def State.openStep (s : State) (u a : Nat) : Option BStep :=
  match (s.aunit u).step with
  | none => none
  | some st => if st.table = a then some st else none

def State.effAttend (s : State) (u : Nat) (q : Queue) (b : Bytes) : Option (State × St × Nat) :=
  let l := byteAt b 8
  let wait := byteAt b 10
  let post := byteAt b 11
  let tile := leAt b 12 2
  let stp := s.openStep u (leAt b 0 8)
  let deep := match stp with
    | none => true
    | some st => (s.liveRows u st).all (fun r => decide (l < r.2.2.2.layers))
  if !(decide (byteAt b 9 ≤ 1) && semByteOk wait && semByteOk post && decide (tile < 160 ∨ tile = 0xFFFF) && zeroAt b 14 2 && zeroAt b 18 2 &&
      zeroAt b 40 24 && deep) then some (s, .badCmd, 0)
  else s.waiting u wait post tile (fun s =>
    match stp with
    | none => (s, .noStep, 0)
    | some st => s.attend u q st l (byteAt b 9 == 1) (leAt b 24 8) (leAt b 32 8))

/-! ## Verification (R217 to R221) -/

/-- What VERIFY finds for a member: accepted count, tokens emitted, end cause (0 for none), the grammar state after, rows scanned, FCLK
the masks added, overflows and bad nodes. -/
structure Found where
  acc : Nat
  toks : List Nat
  cause : Nat
  threads : List Thread
  masks : Nat
  stall : Nat
  over' : Nat := 0
  bad : Nat := 0

/-- The constrained choice at a row (R217): none when no token is allowed. -/
def choose (wide : Bool) (vocab : Nat) (row : Bytes) (allowed : Nat → Bool) : Option Nat :=
  let val := fun (t : Nat) =>
    let v := if wide then leAt row (4 * t) 4 else ofBf16 (leAt row (2 * t) 2)
    if (fp32.decode v).isNan then 0xFF800000 else v
  ((List.range vocab).filter allowed).foldl (fun (b : Option Nat) t => match b with
    | none => some t
    | some c => if fp32.lt (val c) (val t) then some t else some c) none

/-- Scan the rows of a DECODE member from row i on (R218); `l` is the grammar state at the row, and `e` the tokens accepted. -/
def State.scan (s : State) (q : Queue) (sq : Sequence) (c : GCtx) (logits row0 : Nat) (e : List Nat) :
    Nat → List Nat → List (List Thread) → Except St Found
  | i, cands, spec =>
    let m := sq.model
    let w := if m.fp32 then 4 else 2
    let a := logits + (row0 + i) * m.vocab * w
    match s.memStop q a (m.vocab * w) false with
    | some st => .error st
    | none =>
      let l := spec.headD []
      let r := c.maskRanges s l
      let acc := c.accepting s l
      let v := c.vocab s
      let stall := ceilDiv (c.entries s l) 4 - ceilDiv v 64
      match choose m.fp32 m.vocab (s.ldUnit a (m.vocab * w)).1 (c.bitOf v r acc) with
      | none => .ok { acc := i, toks := e, cause := 3, threads := l, masks := 1, stall := stall }
      | some g =>
        let stop := fun (cause : Nat) =>
          let x := s.ctxNext { c with threads := l } g
          Except.ok { acc := i, toks := e ++ [g], cause := cause, threads := x.out, masks := 1, stall := stall, over' := x.over', bad := x.bad }
        match cands with
        | [] => stop (if g = sq.endTok then 1 else if sq.len + i + 1 = sq.maxOwn then 2 else 0)
        | t :: ts =>
          if t = g then
            (if g = sq.endTok then .ok { acc := i + 1, toks := e ++ [g], cause := 1, threads := l, masks := 1, stall := stall }
             else match s.scan q sq c logits row0 (e ++ [g]) (i + 1) ts (spec.drop 1) with
               | .error st => .error st
               | .ok f => .ok { f with masks := f.masks + 1, stall := f.stall + stall })
          else stop (if g = sq.endTok then 1 else if sq.len + i + 1 = sq.maxOwn then 2 else 0)

/-- A result record (R221). -/
def resultRec (h : Nat) (toks : List Nat) (acc k st item stamp : Nat) : Bytes :=
  toLe 4 h ++ toLe 1 toks.length ++ toLe 1 acc ++ toLe 1 k ++ toLe 1 st ++ toLe 8 item ++ (toks.map (toLe 2)).flatten ++
  zeros (18 - 2 * toks.length) ++ zeros 6 ++ toLe 8 stamp ++ zeros 16

/-- Every member's finding, or what stops the command. -/
def State.findAll (s : State) (q : Queue) (st : BStep) (logits : Nat) : Except St (List (Member × Option Found)) :=
  st.members.zipIdx.mapM (fun (e : Member × Nat) =>
    if e.1.pad.isSome ∨ e.1.prefill then .ok (e.1, none)
    else match s.seqs.look (e.1.seq % 16384) with
      | none => .ok (e.1, none)
      | some sq =>
        match s.gctxs.look sq.ctx with
        | none => .ok (e.1, none)
        | some c => (s.scan q sq c logits (e.2 * st.qstep) [] 0 e.1.cands e.1.spec).map (fun f => (e.1, some f)))

/-- Commit one DECODE member (R218, R220, R247); its end, if it ends. -/
def State.commitMember (s : State) (m : Member) (f : Found) : State :=
  match s.seqs.look (m.seq % 16384) with
  | none => s
  | some sq =>
    let b : Build := { over' := f.over', bad := f.bad }
    let s := match s.gctxs.look sq.ctx with
      | none => s
      | some c => (s.noteBuild b).commitTokens sq.ctx (c.noteBuild b) f.threads f.toks
    let s := s.setSeq { sq with len := sq.len + f.acc + (if f.cause = 3 then 0 else 1), root := (f.toks.getLast?).getD sq.root }
    if f.cause = 0 then s else s.seqEnd (m.seq % 16384) f.cause

/-- VERIFY on the open step. -/
def State.verify (s : State) (u : Nat) (q : Queue) (st : BStep) (logits result : Nat) : State × St × Nat :=
  match s.memStop q result (64 * st.members.length) true with
  | some .memErr => s.memClosed u
  | some e => (s, e, 0)
  | none =>
    match s.findAll q st logits with
    | .error .memErr => s.memClosed u
    | .error e => (s, e, 0)
    | .ok l =>
      let stamp := s.now
      let recs := l.map (fun e => match e.1.pad, e.2 with
        | some p, _ => resultRec e.1.seq [] 0 0 p e.1.item stamp
        | none, some f => resultRec e.1.seq f.toks f.acc e.1.cands.length f.cause e.1.item stamp
        | none, none => resultRec e.1.seq [] 0 0 13 e.1.item stamp)
      let live := l.filter (fun e => e.1.pad.isNone)
      let fs := l.filterMap (fun e => e.2)
      let toks := (fs.map (fun f => f.toks.length)).sum
      let wait := s.fresh
      let s := (wait.2.count Reg.TGU_CNT_MASKS ((fs.map Found.masks).sum)).count Reg.TGU_CNT_MASK_STALL
        ((fs.map Found.stall).sum + (if fs = [] then 0 else wait.1.toNat))
      let s := l.foldl (fun s e => match e.2 with
        | some f => s.commitMember e.1 f
        | none => s) s
      let s := live.foldl (fun (s : State) e => if e.1.prefill then s.updAunit u (fun x => match x.node e.1.node with
          | some n => x.setNode { n with ready := true }
          | none => x) else s) s
      let s := s.updAunit u (fun x => live.foldl (fun x e => if e.1.prefill then AUnit.release stamp 65 x e.1.node else x) x)
      let s := s.stUnit result recs.flatten
      let s := (((((s.bump (Reg.AU_CNT_STEPS u)).count (Reg.AU_CNT_ROWS_ISSUED u) (stepRows st.members.length st.qstep)).count
        (Reg.AU_CNT_ROWS_USED u) ((live.map (fun e => e.1.nq)).sum)).count (Reg.AU_CNT_CAND_OFFERED u)
        ((live.map (fun e => e.1.cands.length)).sum)).count (Reg.AU_CNT_CAND_ACCEPTED u) ((fs.map Found.acc).sum)).count
        (Reg.AU_CNT_TOKENS u) toks
      ((s.closeStep u).raise (auPage u) 0, .ok, toks)

def State.effVerify (s : State) (u : Nat) (q : Queue) (b : Bytes) : Option (State × St × Nat) :=
  let wait := byteAt b 18
  let post := byteAt b 19
  let tile := leAt b 24 2
  if !(semByteOk wait && semByteOk post && decide (tile < 160 ∨ tile = 0xFFFF) && zeroAt b 26 6 && zeroAt b 40 24) then some (s, .badCmd, 0)
  else s.waiting u wait post tile (fun s =>
    match s.openStep u (leAt b 0 8) with
    | none => (s, .noStep, 0)
    | some st => s.verify u q st (leAt b 8 8) (leAt b 32 8))

end Sys2Proof.Machine
end

