-- ==== Sys2Proof/Machine/Sched.lean ====
section
/-! DEFINITION. Partitions, virtual instances, slices and cocoons (14). -/
namespace Sys2Proof.Machine

def schPage : Nat := 0x310000

/-- Function number of instance v of partition p (R345). -/
def vfOf (p v : Nat) : Nat := p * 16 + v + 1

/-- Instances of a partition. -/
def Part.insts (P : Part) : List Nat := List.range P.nvis

/-- Commons units by rank: slices, then MEMORY ways (R341). -/
def Part.unitList (P : Part) : List Nat :=
  ((List.range 40).filter (fun u => P.slices.testBit u)) ++ ((List.range 16).filter (fun w => P.memWays.testBit w)).map (40 + ·)

/-! ## Readiness (R350) -/

/-- Unsealed items of an instance. -/
def State.instItems (s : State) (p v : Nat) : List (Nat × Item) :=
  s.items.filter (fun (e : Nat × Item) => e.2.part == p && e.2.vi == v && e.2.sealInfo.isNone)

/-- Highest urgency of the instance's open items, 0 when it has none. -/
def State.instUrg (s : State) (p v : Nat) : Nat := ((s.instItems p v).map (fun e => e.2.urgency s.now)).foldl max 0

/-- A descriptor waits at a source assigned to the instance: a landed stripe of a port, or a batch or frame not yet handed. -/
def State.sourceWaits (s : State) (p v : Nat) : Bool :=
  (List.range 4).any (fun i => s.srcMap i == some (p, v) && (s.port i).live.any (fun f => decide (f.handed < f.landed))) ||
  s.handing.any (fun h => h.part == p && h.vi == v)

/-- A command of the instance waits for one of the partition's attention units. -/
def State.auWaits (s : State) (p v : Nat) : Bool :=
  s.qs.any (fun (e : Nat × Queue) => e.2.state == .run && decide (8 ≤ e.2.target) && (s.part p).aus.testBit (e.2.target - 8) &&
    e.2.ownerOf == (p, v) && (e.2.cur.isSome || e.2.head != e.2.tail))

def State.instReady (s : State) (p v : Nat) : Bool :=
  s.auWaits p v || !(s.vi p v).placeQ.isEmpty || s.sourceWaits p v || !(s.instItems p v).isEmpty

/-! ## Slices (R350, R351) -/

/-- The quantum of instance v in force, in nanoseconds. -/
def State.quantum (s : State) (p v : Nat) : Nat := bits (s.inForce (bank v (Reg.VI_CFG p))) 23 0 * 1000

/-- The writes that wait for the partition's next slice take effect (R66, R347). -/
def State.sliceCommit (s : State) (p : Nat) : State :=
  { s with held := s.held.filter (fun (e : Nat × Word) => pageBase (e.1 % 0x4000000) != partPage p) }

/-- The running instance starts a new quantum. -/
def State.newQuantum (s : State) (p : Nat) : State :=
  let s := s.sliceCommit p
  s.updPart p (fun P => { P with sliceFrom := s.now, sliceEnd := s.now + s.quantum p P.runVi, due := false })

/-- Whether a can be preferred to b as the next instance: higher urgency, earlier last slice, lower number (R351). -/
def State.prefer (s : State) (p a b : Nat) : Bool :=
  let ua := s.instUrg p a
  let ub := s.instUrg p b
  let ea := (s.vi p a).lastEnd
  let eb := (s.vi p b).lastEnd
  decide (ub < ua) || (ua == ub && (decide (ea < eb) || (ea == eb && decide (a < b))))

def State.bestOf (s : State) (p : Nat) (l : List Nat) : Option Nat :=
  l.foldl (fun (b : Option Nat) v => match b with
    | none => some v
    | some w => if s.prefer p v w then some v else some w) none

/-- The instances that can be chosen: READY and not running. -/
def State.schedCands (s : State) (p : Nat) (run : Option Nat) : List Nat :=
  (s.part p).insts.filter (fun v => some v != run && (s.vi p v).state == .idle && s.instReady p v)

/-- A switch with no instance running: i is brought in with no save (R351). -/
def State.bringIn (s : State) (p i : Nat) : State :=
  s.updPart p (fun P => { P with phase := .transfer, runVi := i, outVi := none, pass := false, due := false, switchFrom := s.now, phaseFrom := s.now })

/-- A switch from o to i starts (R355). -/
def State.startSwitch (s : State) (p o i : Nat) : State :=
  let s := s.updPart p (fun P => { P with phase := .drain, runVi := i, outVi := some o, pass := false, due := false, switchFrom := s.now, phaseFrom := s.now })
  ((s.bump (Reg.PART_CNT_SLICES p)).raise (partPage p) 4).drainCheck p

/-- A slice decision (R351). -/
def State.decide1 (s : State) (p : Nat) : State :=
  let P := s.part p
  match P.phase with
  | .none =>
    (match s.bestOf p (s.schedCands p none) with
     | none => s
     | some v => s.bringIn p v)
  | .run =>
    (match s.bestOf p (s.schedCands p (some P.runVi)) with
     | none => s.newQuantum p
     | some v => if s.instReady p P.runVi && decide (s.instUrg p v < s.instUrg p P.runVi) then s.newQuantum p else s.startSwitch p P.runVi v)
  | _ => s

/-- A waiting instance of urgency 3 ends a slice that has run for MIN_RUN_US and whose instance's urgency is at most 1. -/
def State.preempts (s : State) (p : Nat) : Bool :=
  let P := s.part p
  decide (s.instUrg p P.runVi ≤ 1) && decide (P.sliceFrom + bits (s.inForce (Reg.PART_TIME p)) 31 16 * 1000 ≤ s.now) &&
  (s.schedCands p (some P.runVi)).any (fun v => s.instUrg p v == 3)

/-- A decision is due (R350). -/
def State.sliceDue (s : State) (p : Nat) : Bool :=
  let P := s.part p
  let r := P.runVi
  decide (P.sliceEnd ≤ s.now) || !s.instReady p r || s.preempts p

/-- The scheduler's test of one PCLK (R350): a decision that falls due during an adaptation pass waits for its end (R360). -/
def State.sliceTest (s : State) (p : Nat) : State :=
  let P := s.part p
  if P.state ≠ .active then s
  else match P.phase with
    | .none => s.decide1 p
    | .run => if s.sliceDue p then s.decide1 p else s
    | _ => if P.pass ∧ (s.instReady p P.runVi = false ∨ s.preempts p) then s.setPart p { P with due := true } else s

/-! ## DRAIN and YIELD limits (R356, R357) -/

def State.drainLimit (s : State) (p : Nat) : State :=
  let P := s.part p
  let lim := bits (s.inForce (Reg.PART_LIM p)) 23 12 * 1000
  let openUnits := P.auList.filter (fun u => ((s.aunits.get {} u).step).isSome)
  if P.phase = .drain ∧ P.phaseFrom + lim ≤ s.now ∧ openUnits ≠ [] then
    openUnits.foldl (fun s u => s.closeStep u)
      ((s.count (Reg.PART_CNT_DRAIN_CUT p) openUnits.length).raise (partPage p) 2)
  else s

def State.yieldLimit (s : State) (p : Nat) : State :=
  let P := s.part p
  let lim := bits (s.inForce (Reg.PART_LIM p)) 11 0 * 1000
  let l := P.tileList.filter (fun t => s.tileRuns t && !P.late.contains t)
  if P.phase = .yield ∧ P.phaseFrom + lim ≤ s.now ∧ l ≠ [] then
    let s := ((s.setPart p { P with late := P.late ++ l }).count (Reg.PART_CNT_YIELD_LATE p) l.length).raise (partPage p) 1
    l.foldl (fun s t => s.tileStop t) s
  else s

/-! ## TRANSFER (R357, R358) -/

/-- Page registers of a tile context: TILE_PC, the semaphores and TR1 to TR15, and the state that TILE_STS shows. -/
def tileCtxRegs (t : Nat) : List Nat :=
  Reg.TILE_PC t :: Reg.TILE_STS t :: ((List.range 8).map (fun i => Reg.TILE_SEM_01 t + 4 * i) ++ (List.range 15).map (fun i => Reg.TR1 t + 4 * i))

def savedTileBase (save r : Nat) : Nat := save + r * 1364224

/-- Where offset `o` of the tile window is saved (R354). -/
def savedOfs (o : Nat) : Nat := if o < 0x100000 then 53504 + o else 53504 + 917504 + (o - 0x100000)

/-- Copy n bytes of device memory from a to b; none on a memory error. -/
def State.moveMem (s : State) (a b n : Nat) : Option State :=
  if s.canRead 0 a n = .ok ∧ s.canWrite 0 b n = .ok then some (s.stUnit b (s.ld a n)) else none

/-- Write n free bytes: the layout of the bytes is the scheduler's own (R354). -/
def State.privateBytes (s : State) (a n : Nat) : Option State :=
  if s.canWrite 0 a n = .ok then
    let r := s.freshBytes n
    some (r.2.stUnit a r.1)
  else none

/-- Apply `f` to each element in order, stopping at a memory error. -/
def State.tryAll {α : Type} (f : State → α → Option State) : List α → State → Option State
  | [], s => some s
  | x :: t, s => match f s x with
    | none => none
    | some s => State.tryAll f t s

/-- The whole tile store and line buffer. -/
def wholeTile : List (Nat × Nat) := [(0, 917504), (0x100000, 393216)]

/-- The context and ranges of tile t of rank r are saved for instance o (R357). -/
def State.saveTile (s : State) (p o r t : Nat) (late : Bool) : Option State :=
  let x := s.tile t
  let base := savedTileBase (s.vi p o).save r
  let restart := x.yielded || late
  let mark := if x.yielded && !late then ((s.vsaved.get {} (16 * p + o)).yields.find? (fun e => e.tile == r && e.pc == s.tpc t)) else none
  let full := restart && mark.isNone
  let ranges := if restart then (match mark with | some e => e.ranges | none => wholeTile) else []
  let s1 := if full then s.bump (Reg.PART_CNT_FULL_SAVE p) else s
  match s1.privateBytes base 53504 with
  | none => none
  | some s2 =>
    (State.tryAll (fun (s : State) (e : Nat × Nat) => s.moveMem (tileWin t + e.1) (base + savedOfs e.1) e.2) ranges s2).map (fun s =>
      { s with vsaved := s.vsaved.upd {} (16 * p + o) (fun y =>
          { y with tiles := y.tiles ++ [{ tile := r, x := { x with yielded := false, yieldReq := false }, regs := (tileCtxRegs t).map s.rd,
                                          ranges := ranges, restart := restart }] }) })

/-- The image of unit u of rank k is saved for instance o. -/
def State.saveUnit (s : State) (p o k u : Nat) : Option State :=
  let P := s.part p
  (s.privateBytes ((s.vi p o).save + P.tileList.length * 1364224 + k * 262144) 262144).map (fun s =>
    { s with
      vsaved := s.vsaved.upd {} (16 * p + o) (fun y =>
        { y with units := y.units ++ [{ unit := k, x := s.aunit u, seqs := s.seqs.filter (fun (e : Nat × Sequence) => e.2.unit == u),
                                        sems := (List.range 8).map (fun i => s.rd (Reg.AU_SEM_01 u + 4 * i)) }] }),
      seqs := s.seqs.filter (fun (e : Nat × Sequence) => e.2.unit != u) })

/-- Device address of a segment's target. -/
def Part.segAddr (P : Part) (g : CSeg) : Nat :=
  if g.commons then commonsBase + ((P.unitList.drop g.target).headD 0) * 0x100000 + g.dst
  else tileWin ((P.tileList.drop g.target).headD 0) + g.dst

/-- The outgoing instance is saved (R357, R358): tile contexts and live ranges, unit images, LIVE segments. -/
def State.saveOut (s : State) (p o : Nat) : Option State :=
  let P := s.part p
  let key := 16 * p + o
  let s := { s with vsaved := s.vsaved.upd {} key (fun y => { y with tiles := [], units := [] }) }
  match State.tryAll (fun (s : State) (e : Nat × Nat) => s.saveTile p o e.2 e.1 (P.late.contains e.1)) P.tileList.zipIdx s with
  | none => none
  | some s =>
    match State.tryAll (fun (s : State) (e : Nat × Nat) => s.saveUnit p o e.2 e.1) P.auList.zipIdx s with
    | none => none
    | some s => (State.tryAll (fun (s : State) g => s.moveMem (P.segAddr g) g.src g.bytes)
        ((s.vsaved.get {} key).segs.filter (fun g => g.kind == 2)) s).map (fun s => s.updVi p o (fun x => { x with saved := true }))

/-- A tile as CREATE leaves it: IDLE, TILE_PC, semaphores and TRs 0, nothing queued (R343). -/
def State.tileFresh (s : State) (t : Nat) : State :=
  ((tileCtxRegs t).foldl (fun s a => s.wr a 0) s).updTile t (fun x => { nextToken := x.nextToken, ecc := x.ecc })

/-- An attention unit with no resident sequence, no node, and semaphores at 0. -/
def State.unitFresh (s : State) (u : Nat) : State :=
  ((List.range 8).foldl (fun s i => s.wr (Reg.AU_SEM_01 u + 4 * i) 0) s).updAunit u (fun x => { code := x.code })

/-- The cocoon and the saved state of instance i are brought in (R358). -/
def State.loadIn (s : State) (p i : Nat) : Option State :=
  let P := s.part p
  let y := s.vsaved.get {} (16 * p + i)
  let s := P.tileList.foldl (fun s t => s.tileFresh t) s
  let s := P.auList.foldl (fun s u => s.unitFresh u) s
  match State.tryAll (fun (s : State) g =>
      let a := P.segAddr g
      if g.kind = 1 then (if s.canWrite 0 a g.bytes = .ok then some ((s.zeroMem a g.bytes).clearUe a g.bytes) else none)
      else s.moveMem g.src a g.bytes) y.segs s with
  | none => none
  | some s =>
    if (s.vi p i).saved = false then some (s.setPart p { s.part p with resume := [] })
    else
      let base := (s.vi p i).save
      (State.tryAll (fun (s : State) (c : SavedTile) =>
        let t := (P.tileList.drop c.tile).headD 0
        if s.canRead 0 (savedTileBase base c.tile) 53504 ≠ .ok then none
        else
          let s := ((tileCtxRegs t).zip c.regs).foldl (fun (s : State) (e : Nat × Word) => s.wr e.1 e.2) s
          let s := s.updTile t (fun x => { c.x with ecc := x.ecc })
          State.tryAll (fun (s : State) (e : Nat × Nat) => s.moveMem (savedTileBase base c.tile + savedOfs e.1) (tileWin t + e.1) e.2) c.ranges s)
        y.tiles s).map (fun s =>
          let s := y.units.foldl (fun (s : State) (c : SavedUnit) =>
            let u := (P.auList.drop c.unit).headD 0
            let s := c.sems.zipIdx.foldl (fun (s : State) (e : Word × Nat) => s.wr (Reg.AU_SEM_01 u + 4 * e.2) e.1) (s.setAunit u c.x)
            { s with seqs := c.seqs.foldl (fun (m : Tab Sequence) (e : Nat × Sequence) => m.insert e.1 e.2) s.seqs }) s
          s.setPart p { s.part p with resume := (y.tiles.filter (fun c => c.restart)).map (fun c => (P.tileList.drop c.tile).headD 0) })

/-- An instance is no longer running in its partition, and its slice has ended (R351). -/
def State.endSlice (s : State) (p v : Nat) : State :=
  let n := (s.part p).sliceNo + 1
  let s := s.updPart p (fun P => { P with sliceNo := n })
  s.updVi p v (fun x => { x with lastEnd := n, state := if x.state = .running then .idle else x.state })

/-- No instance runs: writes that waited for a slice take effect. -/
def State.noneRuns (s : State) (p : Nat) : State :=
  (s.sliceCommit p).updPart p (fun P => { P with phase := .none, outVi := none, pass := false, due := false, runVi := 0 })

/-- A transfer access met a memory error: the instance becomes OFF and a new decision is made (R358). -/
def State.badTransfer (s : State) (p v : Nat) : State :=
  let s := s.updVi p v (fun x => { x with state := .off, saved := false })
  ((s.noneRuns p).raise (partPage p) 5).decide1 p

/-- RUN begins: the tiles restart where they stopped, and the quantum begins or, after a pass, resumes (R355, R360). -/
def State.enterRun (s : State) (p : Nat) : State :=
  let P := s.part p
  let s := P.resume.foldl (fun s t => (s.setTileState t 1).updTile t (fun x => { x with yielded := false })) s
  let s := s.setPart p { P with phase := .run, outVi := none, pass := false, resume := [], late := [], adapted := s.now }
  if P.pass then
    let s := s.updPart p (fun P => { P with sliceFrom := s.now + P.left - s.quantum p P.runVi, sliceEnd := s.now + P.left, due := false })
    let s := s.count (Reg.PART_CNT_SWITCH_US p) ((s.now - P.switchFrom) / 1000)
    if P.due then s.decide1 p else s.servePlace p
  else ((s.newQuantum p).servePlace p).handAll

/-- TRANSFER ends (R355, R358, R359). An incoming instance that was reset is not brought in (R364). -/
def State.transferDone (s : State) (p : Nat) : State :=
  let P := s.part p
  if P.phase ≠ .transfer then s
  else
    let out : Option State := match P.outVi with
      | none => some s
      | some o => (s.saveOut p o).map (fun (s : State) => s.endSlice p o)
    match out with
    | none => s.badTransfer p (P.outVi.getD 0)
    | some s =>
      if (s.vi p P.runVi).state ≠ .idle then (s.noneRuns p).decide1 p
      else match s.loadIn p P.runVi with
        | none => s.badTransfer p P.runVi
        | some s =>
          let s := s.updVi p P.runVi (fun x => { x with state := .running })
          let s := if P.outVi.isSome then s.count (Reg.PART_CNT_SWITCH_US p) ((s.now - P.switchFrom) / 1000) else s
          let s := (s.updPart p (fun P => { P with phase := .adapt, outVi := none })).raise (partPage p) 0
          if P.adapts then s else s.enterRun p

/-- A write of PART_CMD.RELEASE (R359). -/
def State.adaptRelease (s : State) (p : Nat) (v : Word) : State :=
  if (s.part p).phase = .adapt ∧ bit v 0 then s.enterRun p else s

/-- An adaptation pass starts (R360). -/
def State.adaptPass (s : State) (p : Nat) : State :=
  let P := s.part p
  let ms := s.fld (Reg.PART_TIME p) 15 0
  if P.state = .active ∧ P.phase = .run ∧ P.adapts ∧ ms ≠ 0 ∧ P.adapted + ms * 1000000 ≤ s.now then
    ((s.setPart p { P with phase := .drain, pass := true, outVi := some P.runVi, left := P.sliceEnd - s.now, due := false,
                           switchFrom := s.now, phaseFrom := s.now }).raise (partPage p) 4).drainCheck p
  else s

/-! ## Starting an instance (R352 to R354) -/

/-- A range lies wholly in the tile store, the line buffer or a commons unit (R143, R352). -/
def segFits (commons : Bool) (o n : Nat) : Bool :=
  if commons then decide (o + n ≤ 0x100000)
  else decide (o + n ≤ 0xE0000) || (decide (0x100000 ≤ o) && decide (o + n ≤ 0x160000))

/-- Results of START, in the order of VI_STS.RESULT. -/
inductive StartRes where
  | ok (c : Saved) | resources | bad
  deriving DecidableEq, Repr

def segOf (b : Bytes) : CSeg :=
  { src := leAt b 0 8, dst := leAt b 8 4, target := leAt b 12 2, kind := byteAt b 14 % 4, commons := decide (128 ≤ byteAt b 14), bytes := leAt b 16 4 }

/-- A segment's reserved fields, alignments and ranges. -/
def segOk (b : Bytes) : Bool :=
  let g := segOf b
  decide (byteAt b 14 / 4 % 32 = 0) && decide (g.kind ≤ 2) && zeroAt b 15 1 && zeroAt b 20 12 && decide (g.src % 64 = 0) && decide (g.dst % 64 = 0) &&
  decide (g.bytes % 64 = 0) && segFits g.commons g.dst g.bytes && (g.kind == 1 || decide (g.src + g.bytes ≤ 0x000C00000000))

/-- Bytes of the scheduler's reads; none when they cannot be read. -/
def State.schRead (s : State) (a n : Nat) : Option Bytes := if s.canRead 0 a n = .ok then some (s.ld a n) else none

/-- Read `n` entries of `k` bytes. -/
def State.schList (s : State) (a k n : Nat) : Option (List Bytes) :=
  (s.schRead a (k * n)).map (fun b => (List.range n).map (fun i => (b.drop (k * i)).take k))

/-- A yield entry's reserved fields, alignment and ranges. -/
def yieldOk (b : Bytes) : Bool :=
  zeroAt b 2 2 && zeroAt b 14 2 && decide (leAt b 4 4 % 32 = 0) && decide (leAt b 4 4 < 0xE0000) && decide (leAt b 12 2 ≤ 64)

def rangeOk (b : Bytes) : Bool := decide (leAt b 0 4 % 64 = 0) && decide (leAt b 4 4 % 64 = 0) && segFits false (leAt b 0 4) (leAt b 4 4)

/-- The check of a cocoon (R354): format before resources in the header, then the entries in list order. -/
def State.cocoonCheck (s : State) (P : Part) (a : Nat) : StartRes :=
  match s.schRead a 64 with
  | none => .bad
  | some h =>
    let segs := leAt h 4 4
    let ylds := leAt h 8 4
    if leAt h 0 4 ≠ 0x43435849 ∨ zeroAt h 15 1 = false ∨ zeroAt h 40 24 = false ∨ 65535 < segs ∨ 65535 < ylds then .bad
    else if P.tileList.length < byteAt h 12 ∨ P.auList.length < byteAt h 13 ∨ P.unitList.length < byteAt h 14 then .resources
    else match s.schList (leAt h 16 8) 32 segs, s.schList (leAt h 24 8) 16 ylds with
      | some sb, some yb =>
        let badSeg := sb.find? (fun b => !segOk b || decide ((if (segOf b).commons then P.unitList.length else P.tileList.length) ≤ (segOf b).target))
        match badSeg with
        | some b => if segOk b then .resources else .bad
        | none =>
          let ys := yb.map (fun b => (b, s.schList (leAt h 32 8 + 8 * leAt b 8 4) 8 (leAt b 12 2)))
          let badY := ys.find? (fun e => !yieldOk e.1 || e.2.isNone || !(e.2.getD []).all rangeOk || decide (P.tileList.length ≤ leAt e.1 0 2))
          match badY with
          | some e => if yieldOk e.1 && e.2.isSome && (e.2.getD []).all rangeOk then .resources else .bad
          | none => .ok { segs := sb.map segOf,
                          yields := ys.map (fun e => { tile := leAt e.1 0 2, pc := leAt e.1 4 4,
                                                       ranges := (e.2.getD []).map (fun b => (leAt b 0 4, leAt b 4 4)) }) }
      | _, _ => .bad

/-- A write of VI_CMD.START (R354): the cocoon and save area are taken; a START under way is not disturbed. -/
def State.viStart (s : State) (p v : Nat) : State :=
  let P := s.part p
  let x := s.vi p v
  if P.state ≠ .active ∨ P.nvis ≤ v ∨ x.checking.isSome then s
  else
    let c := s.addr48 (bank v (Reg.VI_COC_LO p)) (bank v (Reg.VI_COC_HI p))
    let a := s.addr48 (bank v (Reg.VI_SAVE_LO p)) (bank v (Reg.VI_SAVE_HI p))
    s.setVi p v { x with result := 7, checking := some (if x.state = .off then some (c, a) else none) }

/-- The check of a START ends (R354). With no instance running, a decision is made, and the started instance is brought in when
none is READY (R347). -/
def State.viStartCheck (s : State) (p v : Nat) : State :=
  let x := s.vi p v
  match x.checking with
  | none => s
  | some none => s.setVi p v { x with checking := none, result := 1 }
  | some (some (c, a)) =>
    if x.state ≠ .off then s.setVi p v { x with checking := none, result := 1 }
    else match s.cocoonCheck (s.part p) c with
      | .resources => s.setVi p v { x with checking := none, result := 2 }
      | .bad => (s.setVi p v { x with checking := none, result := 3 }).raise (partPage p) 5
      | .ok y =>
        let s := s.setVi p v { x with checking := none, result := 0, state := .idle, save := a, saved := false }
        let s := { s with vsaved := s.vsaved.set {} (16 * p + v) y }
        if (s.part p).phase = .none then
          let s := s.decide1 p
          if (s.part p).phase = .none then s.bringIn p v else s
        else s

/-! ## Resetting an instance (R362 to R364) -/

/-- The queues of an instance: its function's and its fabric queues. -/
def Queue.isOf (q : Queue) (p v : Nat) : Bool := q.state != .off && q.ownerOf == (p, v)

/-- The sources assigned to the instance become unassigned, at once. -/
def State.unassign (s : State) (p v : Nat) : State :=
  let hit := fun (e : Nat × Word) => e.1 % 0x4000000 == Reg.SRC_MAP && decide (0x4000000 ≤ e.1) && bit e.2 15 && bits e.2 14 12 == p && bits e.2 11 8 == v
  let keys := ((s.regs.filter hit) ++ (s.held.filter hit)).map Prod.fst
  keys.foldl (fun s a => (s.wr a 0).commitRegs [a]) s

/-- Operations in flight with the instance's tag: commands its queues execute (R363). -/
def State.inflight (s : State) (p v : Nat) : Nat := (s.qs.filter (fun (e : Nat × Queue) => e.2.isOf p v && e.2.cur.isSome)).length

/-- The harts that run for the instance. -/
def State.instHarts (s : State) (p v : Nat) : List Nat :=
  (s.harts.filter (fun (e : Nat × Hart) => (s.part p).cores.testBit (e.1 / 512) && e.2.vi == v && e.2.run != .parked)).map Prod.fst

/-- Commands, placements and launches of the instance that wait are discarded (R362, 1). -/
def State.viDiscard (s : State) (p v : Nat) : State :=
  let s := { s with qs := s.qs.map (fun (e : Nat × Queue) => if e.2.isOf p v && e.2.cur.isNone then (e.1, { e.2 with head := e.2.tail }) else e) }
  let s := (s.updVi p v (fun x => { x with placeQ := [] })).updPart p (fun P => { P with launchQ := P.launchQ.filter (fun e => e.1 != v) })
  if v = 0 then (s.part p).coreList.foldl (fun (s : State) c => s.updCore c (fun x => { x with launchQ := [] })) s else s

/-- The open steps of the partition's units close without committing, and its tiles are stopped (R362, 3). -/
def State.viHalt (s : State) (p : Nat) : State :=
  let P := s.part p
  let s := (P.auList.filter (fun u => (s.aunit u).step.isSome)).foldl (fun (s : State) u =>
    let s := s.updAunit u (fun x => { x with step := none })
    if (s.aunit u).disabling then s.auOff u else s) s
  P.tileList.foldl (fun (s : State) t => s.tileStop t) s

/-- Sequences end CANCELLED, contexts close ABANDONED, items and sources end (R362, 4). -/
def State.viEndWork (s : State) (p v : Nat) : State :=
  let s := ((s.seqs.filter (fun (e : Nat × Sequence) => e.2.part == p && e.2.vi == v)).map Prod.fst).foldl (fun (s : State) id => s.seqEnd id 4) s
  let s := ((s.gctxs.filter (fun (e : Nat × GCtx) => e.2.part == p && e.2.vi == v)).map Prod.fst).foldl (fun (s : State) id => s.closeCtx id 2 0 false) s
  let s := ((s.instItems p v).map Prod.fst).foldl (fun (s : State) id => s.sealItem id .sourceAbort) s
  s.unassign p v

/-- What becomes of the partition's slice, switch or pass when instance v, whose slice it is or is not, is reset (R364). -/
def State.viLeave (s : State) (p v : Nat) (mine : Bool) : State :=
  let P := s.part p
  if mine then
    if P.pass = false ∧ (P.phase = .drain ∨ P.phase = .yield) then s.setPart p { P with phase := .transfer, outVi := none }
    else s.noneRuns p
  else if P.phase = .transfer ∧ P.outVi = some v then s.setPart p { P with outVi := none }
  else s

/-- What a reset of an instance ends (R362). -/
def State.viResetWork (s : State) (p v : Nat) : State :=
  let mine := (s.part p).sliceOf == some v
  let s := s.viDiscard p v
  let s := (s.instHarts p v).foldl (fun (s : State) h => s.park h) s
  let s := if mine then s.viHalt p else s
  let s := s.updVi p v (fun x => { x with saved := false })
  let s := { s with vsaved := s.vsaved.upd {} (16 * p + v) (fun y => { y with tiles := [], units := [] }) }
  (s.viEndWork p v).viLeave p v mine

/-- RESET of instance v (R362). -/
def State.viReset (s : State) (p v : Nat) : State :=
  let P := s.part p
  let x := s.vi p v
  if P.state = .free ∨ P.nvis ≤ v ∨ x.state = .resetting then s
  else (s.setVi p v { x with state := .resetting, resetAt := s.now }).viResetWork p v

/-- A keyed write of VI_CMD.RESET (R362). -/
def State.viResetCmd (s : State) (req : Req) (p v : Nat) (w : Word) : State :=
  if (s.part p).state = .free then s else s.keyed req (Reg.VI_CMD p) w 0x5C1E (fun s => s.viReset p v)

/-- The commands that the instance's queues still execute are cut off: nothing of them is written (R363). -/
def State.cutOff (s : State) (p v : Nat) : State :=
  { s with qs := s.qs.map (fun (e : Nat × Queue) => if e.2.isOf p v then (e.1, { e.2 with cur := none, head := e.2.tail }) else e) }

/-- 40 µs after a RESET (R363). -/
def State.resetCutoff (s : State) (p v : Nat) : State :=
  let x := s.vi p v
  if x.state = .resetting ∧ x.resetAt + 40000 ≤ s.now then s.cutOff p v else s

/-- A RESET ends (R363). -/
def State.viResetEnd (s : State) (p v : Nat) : State :=
  let s := (s.cutOff p v).updVi p v (fun x => { gen := x.gen + 1, result := x.result, lastEnd := x.lastEnd, checking := x.checking })
  let s := { s with vsaved := s.vsaved.set {} (16 * p + v) {} }
  (s.raise (partPage p) 3).sliceTest p

def State.viResetDone (s : State) (p v : Nat) : State :=
  let x := s.vi p v
  if x.state = .resetting ∧ (s.inflight p v = 0 ∨ x.resetAt + 50000 ≤ s.now) then s.viResetEnd p v else s

/-! ## Partition commands (R341 to R344) -/

/-- The result of the checks of R342 on a descriptor for partition p. -/
def State.createCheck (s : State) (p : Nat) (d : BitVec 1024) : Nat :=
  let P : Part := { desc := d }
  let b := descBytes d
  let g := byteAt b 21
  let taken := fun (f : Part → Nat) => (List.range 8).any (fun i => (s.part i).state != .free && (f (s.part i) &&& f P) != 0)
  let ways := fun (P : Part) => P.cacheWays ||| P.memWays
  let units := (List.range 40).filter (fun u => P.slices.testBit u) ++ ((List.range 16).filter (fun w => (ways P).testBit w)).map (40 + ·)
  if byteAt b 0 ≠ p ∨ 4 ≤ byteAt b 1 ∨ 16 ≤ byteAt b 2 ∨ P.nvis = 0 ∨ 16 < P.nvis ∨ 2 ^ 40 ≤ P.slices ∨ zeroAt b 23 1 = false ∨
     zeroAt b 36 4 = false ∨ zeroAt b 60 4 = false ∨ zeroAt b 96 32 = false ∨ (4 < g ∧ g ≠ 7) ∨ P.pairs = 0 ∨ P.cores = 0 ∨
     P.cacheWays &&& P.memWays ≠ 0 then 4
  else if (s.part p).state ≠ .free then 1
  else if taken Part.tiles || taken Part.cores || taken Part.aus || taken Part.pairs || taken Part.slices || taken ways then 2
  else if (List.range 64).any (fun q => P.pairs.testBit (q / 2) && s.chanFenced q) || units.any (fun u => (s.unitMap u).testBit 5) then 3
  else if g ≠ 7 ∧ (List.range (2 ^ g)).any (fun i => !P.tiles.testBit (byteAt b 22 + i)) then 5
  else 0

def State.setUnitMap (s : State) (u n : Nat) : State := s.setFld (Reg.UNIT_MAP (u / 4)) (8 * (u % 4) + 7) (8 * (u % 4)) n

/-- The registers that show what partition p owns (R365): zero while it is FREE. -/
def State.showMasks (s : State) (p : Nat) : State :=
  let P := s.part p
  let w := fun (n k : Nat) => BitVec.ofNat 32 (n / 2 ^ (32 * k))
  let s := (List.range 5).foldl (fun s k => s.wr (Reg.TILE_MASK p k) (w P.tiles k)) s
  let s := (List.range 3).foldl (fun s k => s.wr (Reg.CORE_MASK p k) (w P.cores k)) s
  let s := ((s.wr (Reg.PAIR_MASK p) (w P.pairs 0)).wr (Reg.SLICE_MASK_LO p) (w P.slices 0)).wr (Reg.SLICE_MASK_HI p) (w P.slices 1)
  let s := s.wr (Reg.WAY_MASK p) (BitVec.ofNat 32 (P.cacheWays * 65536 + P.memWays))
  if P.state = .free then s.wr (Reg.PART_RES p) 0x7000
  else s.wr (Reg.PART_RES p) (BitVec.ofNat 32 (P.aus * 2 ^ 24 + P.mask 22 1 * 2 ^ 16 + P.mask 21 1 * 2 ^ 12 + P.order * 256 + (P.nvis - 1) * 16 + P.flags))

/-- UNIT_MAP and CH_STS show the owner of partition p's units and channels, or none (R306, R333). -/
def State.showOwner (s : State) (p : Nat) (P : Part) (owned : Bool) : State :=
  let failed := fun (s : State) (u : Nat) => if (s.unitMap u).testBit 5 then 32 else 0
  let ways := (List.range 16).filter (fun w => (P.cacheWays ||| P.memWays).testBit w)
  let s := ((List.range 40).filter (fun u => P.slices.testBit u)).foldl (fun s u => s.setUnitMap u (failed s u + if owned then 128 + p else 0)) s
  let s := ways.foldl (fun s w => s.setUnitMap (40 + w) (failed s (40 + w) + if owned then 128 + p + (if P.memWays.testBit w then 64 else 0) else 0)) s
  P.channels.foldl (fun s q => s.setFld (Reg.CH_STS q) 29 24 (if owned then P.order * 16 + 8 + p else 48)) s

/-- The creation of partition p is accepted (R343). -/
def State.acceptCreate (s : State) (p : Nat) (d : BitVec 1024) : State :=
  let s := s.setPart p { state := .creating, desc := d }
  { s with pcmd := some (1, p) }

/-- What the scheduler does while the partition is CREATING (R343). -/
def State.createWork (s : State) (p : Nat) : State :=
  let P := s.part p
  let s := s.scEmpty (P.cacheWays ||| P.memWays)
  let s := P.tileList.foldl (fun s t =>
    (((s.zeroMem (tileWin t) 0xE0000).clearUe (tileWin t) 0xE0000).zeroMem (tileWin t + 0x100000) 0x60000).clearUe (tileWin t + 0x100000) 0x60000) s
  let s := P.unitList.foldl (fun s u => (s.zeroMem (commonsBase + u * 0x100000) 0x100000).clearUe (commonsBase + u * 0x100000) 0x100000) s
  let s := if P.zeroHbm then P.channels.foldl (fun s q => s.zeroChan q) s else s
  let s := P.tileList.foldl (fun s t => s.tileFresh t) s
  let s := P.auList.foldl (fun s u =>
    let s := s.auOff u
    (s.unitFresh u).setFlag (Reg.AU_CTL u) 0 true |>.updAunit u (fun x => { x with code := s.fld (Reg.AU_CTL u) 10 8 })) s
  let s := { s with vis := s.vis.filter (fun (e : Nat × Vi) => e.1 / 16 != p), vsaved := s.vsaved.filter (fun (e : Nat × Saved) => e.1 / 16 != p) }
  let s := s.updPart p (fun P => { P with state := .active, phase := .none, adapted := s.now })
  (s.showMasks p).showOwner p P true

/-- A partition command ends with a result. -/
def State.pcmdEnd (s : State) (p res : Nat) : State :=
  (({ s with pcmd := none } : State).wr Reg.PCMD_STS (BitVec.ofNat 32 (p * 256 + res))).raise schPage 0

def State.pcmdBegin (s : State) (p : Nat) : State := s.wr Reg.PCMD_STS (BitVec.ofNat 32 (2 ^ 31 + p * 256))

/-- CREATE (R342, R343). -/
def State.pcmdCreate (s : State) (p : Nat) : State :=
  let a := s.addr48 Reg.PDESC_LO Reg.PDESC_HI
  match s.schRead a 128 with
  | none => s.pcmdEnd p 4
  | some b =>
    let d := BitVec.ofNat 1024 (leNat b)
    let r := s.createCheck p d
    if r = 0 then (s.acceptCreate p d).pcmdBegin p else s.pcmdEnd p r

/-- DESTROY, or the DESTROY of a RESET (R344): instances are reset, tiles stopped, harts parked. -/
def State.pcmdDestroy (s : State) (p : Nat) (again : Bool) : State :=
  let P := s.part p
  if P.state = .free then s.pcmdEnd p 6
  else
    let s := P.insts.foldl (fun s v => s.viReset p v) s
    let s := P.tileList.foldl (fun s t => s.tileStop t) s
    let s := s.updPart p (fun P => { P with launchQ := [] })
    let s := P.coreList.foldl (fun s c => s.updCore c (fun _ => {})) s
    let s := ((P.coreList.map (fun c => (s.awake c).map Prod.fst)).flatten).foldl (fun s h => s.parkOnly h) s
    let s := s.updPart p (fun P => { P with state := .destroying, phase := .none, outVi := none, pass := false, due := false })
    ({ s with pcmd := some (if again then 3 else 2, p) } : State).pcmdBegin p

/-- The end of a DESTROY (R344): what is still resident ends, and every resource becomes unowned. -/
def State.destroyWork (s : State) (p : Nat) : State :=
  let P := s.part p
  let s := P.insts.foldl (fun s v => if (s.vi p v).state = .resetting then s.viResetEnd p v else s) s
  let s := P.auList.foldl (fun s u => s.auOff u) s
  let s := s.scEmpty (P.cacheWays ||| P.memWays)
  let s := (s.sliceCommit p).setPart p {}
  let s := { s with vis := s.vis.filter (fun (e : Nat × Vi) => e.1 / 16 != p), vsaved := s.vsaved.filter (fun (e : Nat × Saved) => e.1 / 16 != p) }
  (s.showMasks p).showOwner p P false

/-- A partition command finishes (R343, R344). -/
def State.pcmdDone (s : State) : State :=
  match s.pcmd with
  | none => s
  | some (1, p) => (s.createWork p).pcmdEnd p 0
  | some (2, p) => (s.destroyWork p).pcmdEnd p 0
  | some (_, p) =>
    -- RESET: the CREATE from the descriptor last accepted, with ZERO_HBM taken as 0
    let b := descBytes (s.part p).desc
    let d := BitVec.ofNat 1024 (leNat (b.take 2 ++ [BitVec.ofNat 8 (byteAt b 2 % 8)] ++ b.drop 3))
    let s := s.destroyWork p
    let r := s.createCheck p d
    if r = 0 then s.acceptCreate p d else s.pcmdEnd p r

/-- A write of PCMD (R342 to R344): nothing while a command runs or for OP 0. -/
def State.pcmdWrite (s : State) (req : Req) (v : Word) : State :=
  if bits v 1 0 = 0 then s
  else s.keyed req Reg.SCH_PCMD v 0x5CA1 (fun s =>
    if s.pcmd.isSome then s
    else match bits v 1 0 with
      | 0 => s
      | 1 => s.pcmdCreate (bits v 10 8)
      | 2 => s.pcmdDestroy (bits v 10 8) false
      | _ => s.pcmdDestroy (bits v 10 8) true)

/-! ## Launch ports and views (R349, R365) -/

def PState.code : PState → Nat
  | .free => 0 | .creating => 1 | .active => 2 | .destroying => 3
def Phase.code : Phase → Nat
  | .run => 0 | .drain => 1 | .yield => 2 | .transfer => 3 | .adapt => 4 | .none => 5

/-- PART_STS and VI_STS as read. -/
def State.partView (s : State) (p a : Nat) : Word :=
  let P := s.part p
  if a = Reg.PART_STS p then
    BitVec.ofNat 32 (P.state.code * 2 ^ 30 + (if P.state = .active then P.phase.code else 0) * 2 ^ 26 + P.runVi * 2 ^ 20 +
      (if P.state = .free then 0 else P.tileList.length * 256 + P.coreList.length))
  else if a = Reg.VI_STS p then
    let v := s.fld (Reg.VI_SEL p) 3 0
    let x := s.vi p v
    let st := match x.state with
      | .off => 0
      | .resetting => 4
      | .running => 3
      | _ => if s.instReady p v then 2 else 1
    BitVec.ofNat 32 (st * 2 ^ 29 + x.result * 2 ^ 26 + s.instUrg p v * 2 ^ 24 + x.gen.toNat * 65536 + min 65535 (s.inflight p v))
  else s.rd (s.winKey a)

end Sys2Proof.Machine
end

