-- ==== Sys2Proof/Machine/Kralon.lean ====
section
/-! DEFINITION. Kralon links and kaleidoscope systems (15): flits, credits and resending, routing, start-up, alignment, shadows and the
loss of modules. -/
namespace Sys2Proof.Machine

def klinkPage (l : Nat) : Nat := 0x321000 + 0x1000 * l

def State.klink (s : State) (l : Nat) : KLink := s.klinks.get {} l
def State.setKlink (s : State) (l : Nat) (x : KLink) : State := { s with klinks := s.klinks.set {} l x }
def State.updKlink (s : State) (l : Nat) (f : KLink → KLink) : State := s.setKlink l (f (s.klink l))
def State.updKal (s : State) (f : Kal → Kal) : State := { s with kal := f s.kal }

/-- STATE of link l: 0 DOWN, 1 TRAINING, 2 UP, 3 FAILED. -/
def State.klinkState (s : State) (l : Nat) : Nat := s.fld (Reg.LINK_STS l) 31 30
def State.linkUp (s : State) (l : Nat) : Bool := s.klinkState l == 2
def upLinks (s : State) : List Nat := (List.range 8).filter s.linkUp

/-- COORD of KL_STS. -/
def State.isCoord (s : State) : Bool := s.flag Reg.KL_STS 27
def ownSerial : Nat := Config.serial.toNat

/-- STATE changes, with STATE_CHG (R389). -/
def State.setKl (s : State) (n : Nat) : State :=
  if s.klState = n then s else (s.setFld Reg.KL_STS 31 28 n).raise klPage 0

def State.linkSerial (s : State) (l : Nat) : Nat := (s.rd (Reg.LINK_PEER_LO l)).toNat + (s.rd (Reg.LINK_PEER_HI l)).toNat * 2 ^ 32

/-! ## Sending (R368, R371, R372) -/

/-- The lowest virtual channel with credits to return, and how many (at most 255). -/
def credOf (owe : List Nat) : Nat × Nat :=
  match (List.range 3).find? (fun v => decide (0 < (owe.drop v).headD 0)) with
  | none => (0, 0)
  | some v => (v, min 255 ((owe.drop v).headD 0))

/-- The 256 bytes of a flit with SEQ n, an ACK and credits. -/
def flitBytes (f : Flit) (n ack : Nat) (cr : Nat × Nat) : Bytes :=
  let h := f.ttl * 2 ^ 56 + cr.2 * 2 ^ 48 + cr.1 * 2 ^ 46 + ack * 2 ^ 34 + n * 2 ^ 22 + f.vc * 2 ^ 20 + f.type * 2 ^ 16 + f.src * 256 + f.dst
  let b := toLe 8 h ++ f.payload
  b ++ toLe 4 (crc32c b)

/-- Element v of a list of three counts, changed. -/
def updAt (l : List Nat) (v : Nat) (f : Nat → Nat) : List Nat := l.zipIdx.map (fun (e : Nat × Nat) => if e.2 = v then f e.1 else e.1)

/-- Put a flit on the wire with SEQ n: it carries an ACK and returned credits. -/
def State.wire (s : State) (l : Nat) (f : Flit) (n : Nat) : State :=
  let x := s.klink l
  let cr := credOf x.owe
  let b := flitBytes f n ((x.expect + 4095) % 4096) cr
  let s := s.setKlink l { x with owe := updAt x.owe cr.1 (· - cr.2), sent := s.now }
  let s := if f.type = 0 then s else s.bump (Reg.LINK_CNT_TX l)
  s.emit (.flit l f.type b)

/-- Send what waits: in order, while a credit is held and the replay buffer has room; `fuel` bounds the flits. -/
def State.flushLink (s : State) (l : Nat) : Nat → State
  | 0 => s
  | fuel + 1 =>
    let x := s.klink l
    match x.waits with
    | [] => s
    | f :: t =>
      if (x.credits.drop f.vc).headD 0 = 0 ∨ 256 ≤ x.replay.length then s
      else
        let s := s.setKlink l { x with waits := t, credits := updAt x.credits f.vc (· - 1), next := (x.next + 1) % 4096,
                                       replay := x.replay ++ [{ f with seq := x.next }] }
        State.flushLink (s.wire l f x.next) l fuel

/-- Queue a flit for a link that is UP. -/
def State.sendOn (s : State) (l : Nat) (f : Flit) : State :=
  if s.linkUp l then (s.updKlink l (fun x => { x with waits := x.waits ++ [f] })).flushLink l 512 else s

/-- A NULL or NAK, which use no credit and no SEQ (R368): SEQ shows the next one. -/
def State.sendCtl (s : State) (l type : Nat) : State :=
  if s.linkUp l then s.wire l { vc := 0, type := type, ttl := 64, src := s.sysid, dst := 0, payload := zeros 244 } (s.klink l).next else s

/-! ## Routing (R377) -/

/-- The link toward system ID d: the primary if it is UP, else the alternate if valid and UP. -/
def State.routeTo (s : State) (d : Nat) : Option Nat :=
  let e := s.kal.routes.get 0 d
  if e / 128 % 2 = 0 ∨ s.kal.lost.contains d then none
  else if s.linkUp (e % 8) then some (e % 8)
  else if e / 64 % 2 = 1 ∧ s.linkUp (e / 8 % 8) then some (e / 8 % 8)
  else none

/-- Send a flit of this module to system ID d; the flag is false when there is no route. -/
def State.sendTo (s : State) (d vc type : Nat) (payload : Bytes) : State × Bool :=
  match s.routeTo d with
  | none => (s, false)
  | some l => (s.sendOn l { vc := vc, type := type, ttl := 64, src := s.sysid, dst := d, payload := payload }, true)

/-- Payload of WR, RD_REQ, RD_RSP and CMPL flits (R369). -/
def accPayload (addr len vtag tid status urg : Nat) (data : Bytes) : Bytes :=
  toLe 6 addr ++ toLe 2 len ++ toLe 2 vtag ++ toLe 2 tid ++ toLe 1 status ++ toLe 1 urg ++ zeros 10 ++
  (data ++ zeros (192 - data.length)) ++ zeros 28

/-- An answer to a request flit with a status: RD_RSP for a read, CMPL for a write. -/
def State.answerPeer (s : State) (src : Nat) (read : Bool) (req : Bytes) (status : Nat) (data : Bytes) : State :=
  let p := accPayload 0 (if read then data.length else 0) (leAt req 16 2) (leAt req 18 2) status (byteAt req 21) data
  (s.sendTo src 1 (if read then 3 else 6) p).1

/-! ## Management flits (R370) -/

def mgmtPayload (kind mseq serial : Nat) (content : Bytes) : Bytes :=
  let b := toLe 1 kind ++ zeros 3 ++ toLe 4 mseq ++ toLe 8 serial ++ content
  b ++ zeros (244 - b.length)

/-- One hop: a management flit on link l. -/
def State.mgmtOn (s : State) (l kind : Nat) (content : Bytes) : State :=
  let n := s.kal.mseq
  (s.updKal (fun k => { k with mseq := n + 1 })).sendOn l
    { vc := 2, type := 4, ttl := 64, src := s.sysid, dst := s.fld (Reg.LINK_STS l) 23 16, payload := mgmtPayload kind n ownSerial content }

/-- To one module, by its system ID, on a given link. -/
def State.mgmtTo (s : State) (l d kind : Nat) (content : Bytes) : State :=
  let n := s.kal.mseq
  (s.updKal (fun k => { k with mseq := n + 1 })).sendOn l
    { vc := 2, type := 4, ttl := 64, src := s.sysid, dst := d, payload := mgmtPayload kind n ownSerial content }

/-- Flood a management flit of this module. -/
def State.flood (s : State) (kind : Nat) (content : Bytes) : State :=
  let n := s.kal.mseq
  let s := s.updKal (fun k => { k with mseq := n + 1, seen := (ownSerial, kind, n) :: k.seen })
  (upLinks s).foldl (fun (s : State) l => s.sendOn l
    { vc := 2, type := 4, ttl := 64, src := s.sysid, dst := 0, payload := mgmtPayload kind n ownSerial content }) s

/-- Forward a flit on every UP link but one. -/
def State.forwardFlood (s : State) (l : Nat) (f : Flit) : State :=
  ((upLinks s).filter (· ≠ l)).foldl (fun (s : State) k => s.sendOn k f) s

def State.sendBeacon (s : State) (l : Nat) : State :=
  s.mgmtOn l 1 (toLe 8 s.kal.best ++ toLe 1 s.kal.hops ++ toLe 1 s.klState ++ toLe 1 l)

def State.sendBeacons (s : State) : State := (upLinks s).foldl (fun (s : State) l => s.sendBeacon l) s

/-- The far-end serials of this module's links, zero for a link not UP. -/
def State.farEnds (s : State) : List Nat := (List.range 8).map (fun l => if s.linkUp l then s.linkSerial l else 0)

/-- REPORT reaches every module that may be coordinator or deputy: it is sent on as a flood (log entry 21). -/
def State.sendReport (s : State) : State :=
  (s.updKal (fun k => { k with reports := k.reports.insert ownSerial s.farEnds })).flood 2 (s.farEnds.map (toLe 8)).flatten

/-! ## Phases K1 and K2 (R379) -/

/-- K2 begins: this module knows its own serial. -/
def State.enterK2 (s : State) : State :=
  let s := s.updKal (fun k => { k with best := ownSerial, hops := 0, changed := s.now, elect := s.fld Reg.KL_CTL 23 16 })
  (s.setKl 2).sendBeacons.sendReport

/-- K1 ends when every enabled link is UP or FAILED. -/
def State.k1Check (s : State) : State :=
  if s.klState = 1 ∧ (List.range 8).all (fun l => !s.flag (Reg.LINK_CTL l) 0 || decide (2 ≤ s.klinkState l)) then s.enterK2 else s

/-- Something known to the election changed. -/
def State.news (s : State) : State := (s.updKal (fun k => { k with changed := s.now })).sendBeacons

/-! ## Links (R367, R373) -/

/-- An enabled link starts training, when the Kralon logic runs and the module is READY. -/
def State.trainLink (s : State) (l : Nat) : State :=
  if s.flag Reg.KL_CTL 0 ∧ s.ready ∧ s.flag (Reg.LINK_CTL l) 0 ∧ s.klinkState l ≠ 2 then
    (s.setFld (Reg.LINK_STS l) 31 30 1).updKlink l (fun x => { x with trainFrom := s.now })
  else s

/-- The logic starts, at its enable or at READY (R367, R379): K1, with every enabled link training. -/
def State.klStart (s : State) : State :=
  if s.flag Reg.KL_CTL 0 ∧ s.ready ∧ s.klState = 0 then
    ((List.range 8).foldl (fun (s : State) l => s.trainLink l) (s.setKl 1)).k1Check
  else s

/-- What a link forgets when it stops being UP. -/
def State.linkClear (s : State) (l n : Nat) : State :=
  let s := s.wr (Reg.LINK_STS l) (BitVec.ofNat 32 (n * 2 ^ 30))
  let s := (s.wr (Reg.LINK_PEER_LO l) 0).wr (Reg.LINK_PEER_HI l) 0
  s.setKlink l { failedAt := if n = 3 then s.now else 0 }

/-- Whether a route leads to the coordinator, which has system ID 0 or is the serial's holder in the plan. -/
def State.coordId (s : State) : Nat :=
  let c := (s.rd Reg.KL_COORD_LO).toNat + (s.rd Reg.KL_COORD_HI).toNat * 2 ^ 32
  ((s.kal.ids.find? (fun (e : Nat × Nat) => e.2 == c)).map Prod.fst).getD 0

def State.cutCheck (s : State) : State :=
  if s.klState < 4 ∨ s.isCoord then s.updKal (fun k => { k with cut := none })
  else if (s.routeTo s.coordId).isSome then s.updKal (fun k => { k with cut := none })
  else s.updKal (fun k => { k with cut := some (k.cut.getD s.now) })

/-- A LINK_EVENT to the coordinator and the deputy (R370, R373). -/
def State.linkEvent (s : State) (l n far : Nat) : State :=
  let c := toLe 1 l ++ toLe 1 n ++ toLe 8 far
  let s := s.updKal (fun k => { k with reports := k.reports.insert ownSerial s.farEnds })
  if s.klState < 3 then s
  else [s.coordId, s.kal.deputy].eraseDups.foldl (fun (s : State) d =>
    if d = s.sysid then s else match s.routeTo d with
      | none => s
      | some k => s.mgmtTo k d 6 c) s

/-- Link l becomes FAILED (R373); from UP, LINK_DOWN is raised and a LINK_EVENT sent. A failure with a reason of R424 is logged; one in
training has none. -/
def State.linkFailed (s : State) (l : Nat) (reason : Option Nat) : State :=
  let was := s.linkUp l
  let far := s.linkSerial l
  let s := (s.linkClear l 3).bump (Reg.LINK_CNT_FAIL l)
  let s := match reason with
    | some r => s.log 2 0x80 (blkId (klinkPage l)) (l * 2 ^ 48 + r)
    | none => s
  if was then
    let s := (s.raise (klinkPage l) 1).raise klPage 2
    ((s.linkEvent l 3 far).cutCheck.news).k1Check
  else s.k1Check

/-- Link l gains lock on all lanes (R367). -/
def State.linkTrained (s : State) (l : Nat) : State :=
  if s.klinkState l = 1 then
    let s := s.setKlink l { heard := s.now, sent := s.now }
    let s := ((s.setFld (Reg.LINK_STS l) 31 30 2).setFld (Reg.LINK_STS l) 11 8 15).raise (klinkPage l) 0
    let s := s.cutCheck
    if s.klState = 1 then s.k1Check else (s.news).sendReport
  else s

def State.linkTimeout (s : State) (l : Nat) : State :=
  if s.klinkState l = 1 ∧ (s.klink l).trainFrom + 80000000 ≤ s.now then s.linkFailed l none else s

/-- A FAILED link retries training (R367). -/
def State.linkRetry (s : State) (l : Nat) : State :=
  if s.klinkState l = 3 ∧ (s.klink l).failedAt + 1000000000 ≤ s.now then s.trainLink l else s

/-- A cause of R373: no good flit for 4 µs, a lane that loses lock, a flit resent 8 times. -/
def State.linkFail (s : State) (l : Nat) (laneLost : Bool) : State :=
  let x := s.klink l
  if s.linkUp l = false then s
  else if laneLost then s.linkFailed l (some 1)
  else if x.heard + 4000 ≤ s.now then s.linkFailed l (some 0)
  else if x.replay.any (fun f => decide (8 ≤ f.resent)) then s.linkFailed l (some 2)
  else s

/-- A write of LINK_CTL (R367, R390). -/
def State.linkCtl (s : State) (req : Req) (l : Nat) (v : Word) : State :=
  s.storeThen req (Reg.LINK_CTL l) v (fun s =>
    if s.flag (Reg.LINK_CTL l) 0 then (if s.klinkState l = 0 then s.trainLink l else s)
    else if s.klinkState l = 0 then s
    else
      let far := s.linkSerial l
      let was := s.linkUp l
      let s := s.linkClear l 0
      if was then ((s.linkEvent l 0 far).cutCheck.news).k1Check else s.k1Check)

/-! ## Failures of peer accesses (R268, R376) -/

/-- An access fails: a store sets PEERR and is counted; a load or a COPY finds the failure in its answer. -/
def State.peerFailed (s : State) (r : PeerReq) (status : Nat) : State :=
  match r.who with
  | .store h => ((s.updHart h (fun x => if x.run = .parked then x else { x with csr := x.csr.set 0 0x801 1 })).bump Reg.TF_CNT_PEER_FAIL).raise tfPage 2
  | _ => s.updKal (fun k => { k with answers := k.answers ++ [(r, status, [])] })

def State.dropPeer (s : State) (r : PeerReq) : State := s.updKal (fun k => { k with peers := k.peers.filter (· ≠ r) })

/-- Every unanswered access to a module fails (R386). -/
def State.failPeers (s : State) (p : PeerReq → Bool) : State :=
  (s.kal.peers.filter p).foldl (fun (s : State) r => (s.dropPeer r).peerFailed r 4) s

/-- The logic stops (R389): every link that trains or is UP fails, and the module leaves the kaleidoscope. -/
def State.klStop (s : State) : State :=
  let s := (List.range 8).foldl (fun (s : State) l => if s.klinkState l = 1 ∨ s.klinkState l = 2 then
    ((s.linkClear l 3).bump (Reg.LINK_CNT_FAIL l)).raise (klinkPage l) 1 |>.raise klPage 2 else s) s
  let s := s.failPeers (fun _ => true)
  let s := s.updKal (fun k => { mseq := k.mseq, nextTid := k.nextTid, answers := k.answers })
  let s := (s.wr Reg.KL_COORD_LO 0).wr Reg.KL_COORD_HI 0
  (s.setFld Reg.KL_STS 27 0 0).setKl 0

/-- A write of KL_CTL (R389). ALIGN_MAX_MS and ELECT_MS are taken when K4 and K2 begin. -/
def State.klCtl (s : State) (req : Req) (v : Word) : State :=
  let on := s.flag Reg.KL_CTL 0
  s.storeThen req Reg.KL_CTL v (fun s =>
    if s.flag Reg.KL_CTL 0 then s.klStart else if on then s.klStop else s)

/-! ## Receiving (R368, R372) -/

/-- Fields of a received flit. -/
def hdrOf (b : Bytes) : Nat := leAt b 0 8
def flitType (b : Bytes) : Nat := nbits (hdrOf b) 19 16
def flitDst (b : Bytes) : Nat := nbits (hdrOf b) 7 0
def flitSrc (b : Bytes) : Nat := nbits (hdrOf b) 15 8

/-- The flit's check word is right (R368). -/
def flitGood (b : Bytes) : Bool := b.length == 256 && leAt b 252 4 == crc32c (b.take 252)

/-- The flit's SEQ is the next expected; NULL and NAK are not numbered. -/
def State.flitInOrder (s : State) (l : Nat) (b : Bytes) : Bool :=
  flitType b == 0 || flitType b == 5 || nbits (hdrOf b) 33 22 == (s.klink l).expect

/-- A flit that fails its check or has an unexpected SEQ is discarded, and a NAK sent (R372). -/
def State.badFlit (s : State) (l : Nat) (b : Bytes) : State :=
  if s.linkUp l = false then s
  else if flitGood b = false then (s.bump (Reg.LINK_CNT_CRC l)).sendCtl l 5
  else if s.flitInOrder l b = false then (s.updKlink l (fun x => { x with heard := s.now })).sendCtl l 5
  else s

/-- The flits that an ACK covers leave the replay buffer, and returned credits are taken (R371, R372). -/
def State.takeAck (s : State) (l : Nat) (b : Bytes) : State :=
  let h := hdrOf b
  let ack := nbits h 45 34
  s.updKlink l (fun x =>
    { x with heard := s.now,
             replay := match x.replay.findIdx? (fun f => f.seq == ack) with
               | some i => x.replay.drop (i + 1)
               | none => x.replay,
             credits := updAt x.credits (nbits h 47 46) (· + nbits h 55 48) })

/-- Link l receives a flit of type `t`, and `k` handles it; a bad flit is discarded (R372). Its buffer is free at once. -/
def State.flitIn (s : State) (l t : Nat) (b : Bytes) (k : State → State) : State :=
  if s.linkUp l = false then s
  else if flitGood b = false ∨ s.flitInOrder l b = false then s.badFlit l b
  else if flitType b ≠ t then s
  else
    let s := s.takeAck l b
    let s := if t = 0 then s else s.bump (Reg.LINK_CNT_RX l)
    let s := if t = 0 ∨ t = 5 then s
             else s.updKlink l (fun x => { x with expect := (x.expect + 1) % 4096, owe := updAt x.owe (nbits (hdrOf b) 21 20) (· + 1) })
    (k s).flushLink l 512

/-- A NAK: everything after the SEQ it carries is sent again (R372). -/
def State.resend (s : State) (l : Nat) : State :=
  let again := (s.klink l).replay
  let s := again.foldl (fun (s : State) f => (s.wire l f f.seq).bump (Reg.LINK_CNT_REPLAY l)) s
  s.updKlink l (fun x => { x with replay := x.replay.map (fun f => { f with resent := f.resent + 1 }) })

/-- A flit for another module goes on, with one hop less (R368, R377); a request with no route is answered NO_ROUTE. -/
def State.forward (s : State) (b : Bytes) : State :=
  let h := hdrOf b
  let ttl := nbits h 63 56 - 1
  let t := flitType b
  if ttl = 0 then s.bump Reg.KL_CNT_TTL
  else match s.routeTo (flitDst b) with
    | some l => s.sendOn l { vc := nbits h 21 20, type := t, ttl := ttl, src := flitSrc b, dst := flitDst b, payload := (b.drop 8).take 244 }
    | none => if t = 1 ∨ t = 2 then s.answerPeer (flitSrc b) (t == 2) b 4 [] else s

/-- A flit of a type that is routed: served here by `k`, or forwarded. -/
def State.routedIn (s : State) (l t : Nat) (b : Bytes) (k : State → State) : State :=
  s.flitIn l t b (fun s => if flitDst b = s.sysid then k s else s.forward b)

/-! ## Requests of this module (R374, R376) -/

/-- The alias of an address in the window of the module's own system ID (R374). -/
def State.ownWindow (s : State) (a : Nat) : Bool := decide (peerBase ≤ a) && decide (a < hostBase) && (a - peerBase) / 0x4000000000 == s.sysid

/-- Issue one access of at most 192 bytes within 4 KiB to a peer window; with no route it fails at once (R374). -/
def State.issuePeer (s : State) (who : PeerWho) (write : Bool) (a : Nat) (data : Bytes) (n urg vtag : Nat) : State :=
  let sys := (a - peerBase) / 0x4000000000
  let tid := s.kal.nextTid
  let r : PeerReq := { tid := tid, sys := sys, write := write, bytes := n, who := who, limit := s.now + s.fld Reg.KL_TIMEOUT 15 0 * 1000 }
  let s := s.updKal (fun k => { k with nextTid := (tid + 1) % 65536 })
  let x := s.sendTo sys 0 (if write then 1 else 2) (accPayload ((a - peerBase) % 0x4000000000) n vtag tid 0 urg data)
  if x.2 then x.1.updKal (fun k => { k with peers := k.peers ++ [r] }) else x.1.peerFailed r 4

/-- Split a larger access into flits: at most 192 bytes each, none across 4 KiB, in ascending order (R369). -/
def peerChunks : Nat → Nat → Nat → List (Nat × Nat)
  | 0, _, _ => []
  | fuel + 1, a, n =>
    if n = 0 then [] else
      let k := min n (min 192 (4096 - a % 4096))
      (a, k) :: peerChunks fuel (a + k) (n - k)

/-- An answer arrives (R376): RD_RSP or CMPL. An answer that matches nothing is discarded. -/
def State.peerAnswer (s : State) (read : Bool) (b : Bytes) : State :=
  match s.kal.peers.find? (fun r => r.tid == leAt b 18 2 && r.sys == flitSrc b && r.write == !read) with
  | none => s
  | some r =>
    let s := s.dropPeer r
    let st := byteAt b 20
    if st ≠ 0 then s.peerFailed r st
    else match r.who with
      | .store _ => s
      | _ => s.updKal (fun k => { k with answers := k.answers ++ [(r, 0, if read then (b.drop 32).take r.bytes else [])] })

/-- An access gets no answer in time (R376). -/
def State.peerTimeout (s : State) (tid : Nat) : State :=
  match s.kal.peers.find? (fun r => r.tid == tid && decide (r.limit ≤ s.now)) with
  | none => s
  | some r => ((s.dropPeer r).bump Reg.KL_CNT_TIMEOUT).peerFailed r 4

/-! ## What a peer may reach (R375) -/

/-- ACCEPT entry of source system ID i. -/
def State.acceptOf (s : State) (i : Nat) : Nat := s.fld (Reg.ACCEPT (i / 2)) (16 * (i % 2) + 8) (16 * (i % 2))

/-- The partition to which the bytes a to a + n − 1 belong, which lie in one aligned 4 KiB (R336, R375). -/
def State.partOfAddr (s : State) (a : Nat) : Option Nat :=
  if a < 0x000C00000000 then s.chanOwner (a / 0x30000000)
  else if a < 0x001003800000 then
    let u := (a - commonsBase) / 0x100000
    if s.unitIsMem u then some (s.unitMap u % 8) else none
  else if a < 0x001114000000 then s.tileOwner ((a - tileBase) / 0x200000)
  else
    let o := a - regBase
    match pageAt o with
    | some .tile => s.tileOwner ((o - 0x100000) / 0x1000)
    | some .core => s.coreOwner ((o - 0x221000) / 0x1000)
    | some .au => s.auOwner ((o - 0x201000) / 0x1000)
    | some .part => let p := (o - 0x311000) / 0x1000; if (s.part p).state = .free then none else some p
    | _ => none

/-- A service port (R375): the commit port, the shadow port, or the tail doorbell of a command queue of a shared unit. -/
def State.servicePort (s : State) (a : Nat) : Bool :=
  let o := a - regBase
  decide (regBase ≤ a) &&
  ((decide (0x7FC0 ≤ o) && decide (o < 0x8000)) || (decide (0x320FC0 ≤ o) && decide (o < 0x321000)) ||
   (decide (0x338000 ≤ o) && decide (o < 0x340000) && o % 8 == 0 && decide (0x800 ≤ o % 0x1000) &&
    (let q := s.queue ((o - 0x338000) / 0x1000 * 256 + (o % 0x1000 - 0x800) / 8); q.state != .off && decide (q.target < 8))))

/-- The status with which a request of source `src` for n bytes at a is turned away, 0 when it is served (R375). -/
def State.peerCheck (s : State) (src a n : Nat) : Nat :=
  if inRange a n = false ∨ 0x4000000000 ≤ a then 2
  else
    let e := s.acceptOf src
    let part := match s.partOfAddr a with
      | some p => e.testBit p
      | none => false
    if (s.servicePort a && e.testBit 8) || part then 0 else 1

/-! ## Planning (R377, R379, R380) -/

/-- The modules reachable from `root` in the reports, in order of depth and, within a depth, of serial: serial and depth. -/
def bfsLevels (reports : Tab (List Nat)) : Nat → List Nat → List Nat → Nat → List (Nat × Nat)
  | 0, _, _, _ => []
  | fuel + 1, seen, level, d =>
    if level = [] then []
    else
      let next := ((level.map (fun m => (reports.get [] m).filter (fun f => f ≠ 0 && !seen.contains f && (reports.look f).isSome))).flatten).eraseDups
      level.map (fun m => (m, d)) ++ bfsLevels reports fuel (seen ++ next) (next.mergeSort (· ≤ ·)) (d + 1)

/-- A node of the plan: system ID, serial, depth. -/
structure PlanNode where
  id : Nat
  serial : Nat
  depth : Nat
  deriving DecidableEq, Repr

/-- Links of a node to other nodes of the plan: link number and neighbour. -/
def planNbrs (reports : Tab (List Nat)) (nodes : List PlanNode) (n : PlanNode) : List (Nat × PlanNode) :=
  ((reports.get [] n.serial).zipIdx.filterMap (fun (e : Nat × Nat) =>
    if e.1 = 0 then none else (nodes.find? (fun m => m.serial == e.1)).map (fun m => (e.2, m))))

/-- The link from a to b is an up link: toward the module nearer the coordinator, or of lower system ID at equal depth. -/
def upward (a b : PlanNode) : Bool := decide (b.depth < a.depth) || (b.depth == a.depth && decide (b.id < a.id))

/-- A distance above every path. -/
def tooFar : Nat := 1000000

/-- One relaxation of the shortest distances to `d`: by down links alone, or by legal paths (no up link after a down link). -/
def relaxDown (nbrs : List (PlanNode × List (Nat × PlanNode))) (d : Nat) (t : Tab Nat) : Tab Nat :=
  nbrs.foldl (fun (t : Tab Nat) e => if e.1.id = d then t.insert d 0
    else t.insert e.1.id ((e.2.filter (fun x => !upward e.1 x.2)).foldl (fun m x => min m (1 + t.get tooFar x.2.id)) (t.get tooFar e.1.id))) t

def relaxLegal (nbrs : List (PlanNode × List (Nat × PlanNode))) (d : Nat) (down t : Tab Nat) : Tab Nat :=
  nbrs.foldl (fun (t : Tab Nat) e => if e.1.id = d then t.insert d 0
    else t.insert e.1.id ((e.2.filter (fun x => upward e.1 x.2)).foldl (fun m x => min m (1 + t.get tooFar x.2.id)) (min (t.get tooFar e.1.id) (down.get tooFar e.1.id)))) t

def iterate {α : Type} (f : α → α) : Nat → α → α
  | 0, x => x
  | n + 1, x => iterate f n (f x)

/-- The route entries of one destination at every node (R377): node and entry. -/
def routesTo (nbrs : List (PlanNode × List (Nat × PlanNode))) (d : Nat) : List (Nat × Nat) :=
  let n := nbrs.length
  let down := iterate (relaxDown nbrs d) n []
  let legal := iterate (relaxLegal nbrs d down) n []
  nbrs.filterMap (fun e =>
    if e.1.id = d then none
    else
      let cost := fun (x : Nat × PlanNode) => 1 + (if upward e.1 x.2 then legal.get tooFar x.2.id else down.get tooFar x.2.id)
      let best := (e.2.map cost).foldl min tooFar
      if tooFar ≤ best then none
      else match (e.2.filter (fun x => cost x == best)).map Prod.fst with
        | [] => none
        | [l] => some (e.1.id, 128 + l)
        | l :: k :: _ => some (e.1.id, 128 + 64 + 8 * k + l))

/-- The nodes of a plan: known modules keep their system IDs, new ones take the lowest free (R379, R380); at most 256. -/
def planNodes (reports : Tab (List Nat)) (root : Nat) (ids : Tab Nat) (lost : List Nat) : List PlanNode :=
  let order := (bfsLevels reports 257 [root] [root] 0)
  let r := order.foldl (fun (acc : List PlanNode × Tab Nat) (e : Nat × Nat) =>
    match acc.2.find? (fun (x : Nat × Nat) => x.2 == e.1) with
    | some x => (acc.1 ++ [{ id := x.1, serial := e.1, depth := e.2 }], acc.2)
    | none => match firstBelow 256 (fun i => (acc.2.look i).isNone) with
      | none => acc
      | some i => (acc.1 ++ [{ id := i, serial := e.1, depth := e.2 }], acc.2.insert i e.1)) ([], ids)
  r.1.filter (fun n => !lost.contains n.id || n.serial == root || ((reports.get [] n.serial).any (· ≠ 0)))

/-- The parent of a node: the neighbour one level up of lowest system ID, by the lowest link. -/
def parentOf (nbrs : List (Nat × PlanNode)) (n : PlanNode) : Option (Nat × PlanNode) :=
  (nbrs.filter (fun x => x.2.depth + 1 == n.depth)).foldl (fun (b : Option (Nat × PlanNode)) x => match b with
    | none => some x
    | some y => if x.2.id < y.2.id then some x else some y) none

/-- The first link from the root toward a node, up its parents; `fuel` bounds the depth. -/
def firstHop (nodes : List (PlanNode × List (Nat × PlanNode))) : Nat → PlanNode → Option Nat
  | 0, _ => none
  | fuel + 1, n =>
    match nodes.find? (fun e => e.1 == n) with
    | none => none
    | some e => match parentOf e.2 n with
      | none => none
      | some p =>
        if p.2.depth = 0 then
          ((nodes.find? (fun x => x.1 == p.2)).bind (fun x => (x.2.find? (fun y => y.2 == n)).map Prod.fst))
        else firstHop nodes fuel p.2

/-- Bytes of route entries i0 to i0 + 127. -/
def routeBytes (t : Tab Nat) (i0 : Nat) : Bytes := (List.range 128).map (fun i => BitVec.ofNat 8 (t.get 0 (i0 + i)))

/-- The coordinator plans, loads its own table and sends every module its PLAN and ROUTES, for an ACT instant `delay` ns ahead. -/
def State.makePlan (s : State) (delay : Nat) : State :=
  let reports := s.kal.reports.insert ownSerial s.farEnds
  let nodes := planNodes reports ownSerial s.kal.ids s.kal.lost
  let nbrs := nodes.map (fun n => (n, planNbrs reports nodes n))
  let act := s.now + delay
  let deputy := match (nodes.filter (fun n => n.serial ≠ ownSerial)).mergeSort (fun a b => a.serial ≤ b.serial) with
    | [] => 0
    | n :: _ => n.id
  let table := nodes.map (fun d => (d.id, routesTo nbrs d.id))
  let tableOf := fun (i : Nat) => table.foldl (fun (t : Tab Nat) e => match e.2.find? (fun x => x.1 == i) with
    | some x => t.insert e.1 x.2
    | none => t) []
  let me := ((nodes.find? (fun n => n.serial == ownSerial)).map (fun n => n.id)).getD 0
  let s := s.updKal (fun k => { k with ids := nodes.foldl (fun (t : Tab Nat) n => t.insert n.id n.serial) k.ids,
                                       lost := k.lost.filter (fun i => !nodes.any (fun n => n.id == i)),
                                       deputy := deputy, parent := none, staged := tableOf me, act := some act })
  let s := ((s.setFld Reg.KL_STS 24 16 nodes.length).setFld Reg.KL_STS 15 8 me).setFld Reg.KL_STS 7 0 0
  let s := (s.setFld Reg.KL_STS 27 26 2).wr Reg.KL_COORD_LO (BitVec.ofNat 32 ownSerial)
  let s := s.wr Reg.KL_COORD_HI (BitVec.ofNat 32 (ownSerial / 2 ^ 32))
  (nbrs.filter (fun e => e.1.serial ≠ ownSerial)).foldl (fun (s : State) e =>
    match firstHop nbrs 257 e.1 with
    | none => s
    | some l =>
      let t := tableOf e.1.id
      let par := ((parentOf e.2 e.1).map Prod.fst).getD 0
      let s := s.mgmtTo l e.1.id 3 (toLe 1 e.1.id ++ toLe 1 e.1.depth ++ toLe 1 par ++ toLe 1 deputy ++ toLe 8 act)
      let s := s.mgmtTo l e.1.id 9 (toLe 1 0 ++ routeBytes t 0)
      s.mgmtTo l e.1.id 9 (toLe 1 1 ++ routeBytes t 128)) s

/-- READY has come from every module of the plan (R379). -/
def State.readyCheck (s : State) : State :=
  let n := s.fld Reg.KL_STS 24 16
  if s.klState = 4 ∧ s.kal.align = 3 ∧ n ≤ s.kal.ready.length then s.setKl 5 else s

/-- The module is aligned (or, with flag 0, unaligned): it floods READY. -/
def State.floodReady (s : State) (aligned : Bool) : State :=
  let s := s.updKal (fun k => { k with ready := if k.ready.contains ownSerial then k.ready else ownSerial :: k.ready, align := 3 })
  (s.flood 8 (toLe 1 (ofBool aligned))).readyCheck

/-- K2 ends after ELECT_MS with no change (R379): the lowest serial plans; the others wait for their PLAN. A module that stays without
one beside a planned neighbour is UNJOINED (R380). -/
def State.electQuiet (s : State) : State :=
  let quiet := decide (s.kal.changed + s.kal.elect * 1000000 ≤ s.now)
  if s.klState = 2 ∧ quiet then
    if s.kal.best = ownSerial then ((((s.setKl 3).makePlan 4000000).setKl 4).updKal (fun k => { k with align := 3 })).floodReady true
    else (s.setKl 3).updKal (fun k => { k with changed := s.now })
  else if s.klState = 3 ∧ quiet ∧ (upLinks s).any (fun l => decide (4 ≤ (s.klink l).nbState) && decide ((s.klink l).nbState ≤ 6)) then s.setKl 7
  else s

/-- Modules with no route to the coordinator for 1 ms elect among themselves (R388). -/
def State.splitTimeout (s : State) : State :=
  match s.kal.cut with
  | none => s
  | some t => if t + 1000000 ≤ s.now ∧ 4 ≤ s.klState then
      (s.updKal (fun k => { k with cut := none, reports := [] })).enterK2
    else s

/-! ## Loss of a module (R386, R387) -/

/-- The effects of LOST on this module: accesses fail, shadows are freed, no route leads there; the deputy takes a lost coordinator's
place. -/
def State.loseModule (s : State) (id : Nat) : State :=
  if s.kal.lost.contains id then s
  else
    let coord := s.coordId
    let s := s.updKal (fun k => { k with lost := id :: k.lost })
    let s := (s.bump Reg.KL_CNT_LOST).raise klPage 1
    let s := s.log 2 0x81 (blkId klPage) (id * 2 ^ 48 + s.kal.ids.get 0 id % 2 ^ 32)
    let s := s.failPeers (fun r => r.sys == id)
    let s := { s with items := s.items.filter (fun (e : Nat × Item) => !(e.2.shadow.isSome && nbits e.1 63 56 == id)) }
    if id = coord ∧ s.flag Reg.KL_STS 26 then s.makePlan 250000 else if s.isCoord then s.makePlan 250000 else s

/-- The coordinator, or the deputy for a lost coordinator, declares a module with no link left LOST. -/
def State.declareLost (s : State) (serial : Nat) : State :=
  match s.kal.ids.find? (fun (e : Nat × Nat) => e.2 == serial) with
  | none => s
  | some e =>
    let may := s.isCoord || (s.flag Reg.KL_STS 26 && e.1 == s.coordId)
    let known := s.kal.reports.filter (fun (x : Nat × List Nat) => x.1 != serial)
    let linked := known.any (fun (x : Nat × List Nat) => x.2.contains serial) || s.farEnds.contains serial
    if may ∧ linked = false ∧ s.kal.lost.contains e.1 = false then
      (s.flood 7 (toLe 1 e.1 ++ toLe 8 serial)).loseModule e.1
    else s

/-! ## Management flits received (R370) -/

/-- Content of a management flit. -/
def mKind (b : Bytes) : Nat := byteAt b 8
def mSerial (b : Bytes) : Nat := leAt b 16 8
def mContent (b : Bytes) : Bytes := (b.drop 24).take 228
def mKey (b : Bytes) : Nat × Nat × Nat := (mSerial b, mKind b, leAt b 12 4)

def State.mgmtIn (s : State) (l kind : Nat) (b : Bytes) (k : State → Bytes → State) : State :=
  if flitGood b ∧ flitType b = 4 ∧ mKind b ≠ kind then s else s.flitIn l 4 b (fun s => k s (mContent b))

/-- A flooded flit: handled and forwarded the first time it is seen. -/
def State.floodIn (s : State) (l kind : Nat) (b : Bytes) (k : State → Bytes → State) : State :=
  s.mgmtIn l kind b (fun s c =>
    if s.kal.seen.contains (mKey b) then s
    else
      let h := hdrOf b
      let s := s.updKal (fun x => { x with seen := mKey b :: x.seen })
      let s := s.forwardFlood l { vc := 2, type := 4, ttl := nbits h 63 56, src := flitSrc b, dst := flitDst b, payload := (b.drop 8).take 244 }
      k s c)

/-- BEACON (R379): the far end's serial, and the lowest serial it knows. -/
def State.beacon (s : State) (l : Nat) (b : Bytes) : State :=
  s.mgmtIn l 1 b (fun s c =>
    let ser := mSerial b
    let fresh := s.linkSerial l ≠ ser
    let s := (s.wr (Reg.LINK_PEER_LO l) (BitVec.ofNat 32 ser)).wr (Reg.LINK_PEER_HI l) (BitVec.ofNat 32 (ser / 2 ^ 32))
    let s := (s.setFld (Reg.LINK_STS l) 15 12 (byteAt c 10)).setFld (Reg.LINK_STS l) 23 16 (flitSrc b)
    let s := s.updKlink l (fun x => { x with nbState := byteAt c 9 })
    let low := leAt c 0 8
    let better := decide (low < s.kal.best) && (s.klState == 2)
    let s := if better then s.updKal (fun k => { k with best := low, hops := byteAt c 8 + 1 }) else s
    let s := if fresh then s.sendReport else s
    if better || fresh then s.news else s)

/-- REPORT (R370, R380): kept; a coordinator that learns of a module outside its plan admits it. -/
def State.report (s : State) (l : Nat) (b : Bytes) : State :=
  s.floodIn l 2 b (fun s c =>
    let v := (List.range 8).map (fun i => leAt c (8 * i) 8)
    let old := s.kal.reports.look (mSerial b)
    let s := s.updKal (fun k => { k with reports := k.reports.insert (mSerial b) v })
    let known := s.kal.ids.find? (fun (e : Nat × Nat) => e.2 == mSerial b)
    let joins : Bool := match known with
      | none => true
      | some e => s.kal.lost.contains e.1
    if s.klState = 2 then (if old = some v then s else s.updKal (fun k => { k with changed := s.now }))
    else if s.isCoord ∧ joins then s.makePlan 4000000
    else s)

/-- A flit to one module that is not this one goes on by the table loaded or in effect. -/
def State.mgmtForward (s : State) (b : Bytes) : State :=
  let d := flitDst b
  let e := if s.kal.act.isSome then s.kal.staged.get 0 d else s.kal.routes.get 0 d
  if e / 128 % 2 = 1 then
    s.sendOn (e % 8) { vc := 2, type := 4, ttl := nbits (hdrOf b) 63 56 - 1, src := flitSrc b, dst := d, payload := (b.drop 8).take 244 }
  else s

/-- PLAN (R379): this module's place. A module in K2 or K3 takes it; one with a place takes those for its system ID. -/
def State.plan (s : State) (l : Nat) (b : Bytes) : State :=
  s.mgmtIn l 3 b (fun s c =>
    if s.klState = 2 ∨ s.klState = 3 ∨ s.klState = 7 ∨ byteAt c 0 = s.sysid then
      let first := decide (s.klState < 4) || s.klState == 7
      let s := ((s.setFld Reg.KL_STS 15 8 (byteAt c 0)).setFld Reg.KL_STS 7 0 (byteAt c 1)).setFld Reg.KL_STS 27 26 (if byteAt c 3 = byteAt c 0 then 1 else 0)
      let s := (s.wr Reg.KL_COORD_LO (BitVec.ofNat 32 (mSerial b))).wr Reg.KL_COORD_HI (BitVec.ofNat 32 (mSerial b / 2 ^ 32))
      let s := s.setFlag (Reg.LINK_STS (byteAt c 2 % 8)) 29 true
      let s := s.updKal (fun k => { k with parent := some (byteAt c 2 % 8), deputy := byteAt c 3, act := some (leAt c 4 8), staged := [],
                                           ids := (k.ids.insert (byteAt c 0) ownSerial).insert (flitSrc b) (mSerial b) })
      if first then
        let s := (s.updKal (fun k => { k with align := 0, alignMax := s.fld Reg.KL_CTL 31 24 })).setKl 4
        if 32 < byteAt c 1 then ((s.setKl 6).raise klPage 4).floodReady false else s
      else s
    else s.mgmtForward b)

/-- ROUTES (R377): half of the table for the next ACT instant. -/
def State.routesIn (s : State) (l : Nat) (b : Bytes) : State :=
  s.mgmtIn l 9 b (fun s c =>
    if flitDst b = s.sysid ∧ s.kal.act.isSome then
      let i0 := 128 * (byteAt c 0 % 2)
      let s := s.updKal (fun k => { k with staged := (List.range 128).foldl (fun (t : Tab Nat) i => t.set 0 (i0 + i) (byteAt c (1 + i))) k.staged })
      s.setFld Reg.KL_STS 24 16 ((s.kal.staged.filter (fun (e : Nat × Nat) => e.2 / 128 % 2 == 1)).length + 1)
    else s.mgmtForward b)

/-- The timebase reaches ACT: the new table takes effect (R377). -/
def State.routeAct (s : State) : State :=
  match s.kal.act with
  | none => s
  | some t => if t ≤ s.now then (s.updKal (fun k => { k with routes := k.staged, act := none })).cutCheck else s

/-- LINK_EVENT (R386): a link of a module changed state. -/
def State.linkEventIn (s : State) (l : Nat) (b : Bytes) : State :=
  s.mgmtIn l 6 b (fun s c =>
    if flitDst b = s.sysid then
      let link := byteAt c 0 % 8
      let up := byteAt c 1 == 2
      let ends := s.kal.reports.get [0, 0, 0, 0, 0, 0, 0, 0] (mSerial b)
      let s := s.updKal (fun k => { k with reports := k.reports.insert (mSerial b) (updAt ends link (fun _ => if up then leAt c 2 8 else 0)) })
      if up then s else s.declareLost (leAt c 2 8)
    else s.forward b)

/-- LOST (R386). -/
def State.lostIn (s : State) (l : Nat) (b : Bytes) : State := s.floodIn l 7 b (fun s c => s.loseModule (byteAt c 0))

/-- READY (R379). -/
def State.readyIn (s : State) (l : Nat) (b : Bytes) : State :=
  s.floodIn l 8 b (fun s _ =>
    (s.updKal (fun k => { k with ready := if k.ready.contains (mSerial b) then k.ready else mSerial b :: k.ready })).readyCheck)

/-- HEARTBEAT (R373, R386): the neighbour's state, or its FAULT, which fails the link. -/
def State.heartbeat (s : State) (l : Nat) (b : Bytes) : State :=
  s.mgmtIn l 5 b (fun s c =>
    let s := (s.updKlink l (fun x => { x with nbState := byteAt c 1 })).setFld (Reg.LINK_STS l) 23 16 (flitSrc b)
    if byteAt c 0 = 1 then
      let ser := mSerial b
      let s := s.linkFailed l (some 3)
      if s.isCoord ∨ s.flag Reg.KL_STS 26 then
        (s.updKal (fun k => { k with reports := k.reports.map (fun (e : Nat × List Nat) => (e.1, e.2.map (fun f => if f = ser then 0 else f))) })).declareLost ser
      else s
    else s)

def State.heartbeatTimer (s : State) : State :=
  (upLinks s).foldl (fun (s : State) l => s.mgmtOn l 5 (toLe 1 (ofBool (s.flag Reg.HM_STS 30)) ++ toLe 1 s.klState ++ toLe 8 s.now)) s

/-! ## Alignment (R382 to R384) -/

/-- The reference sends t1 on every link but its parent link; a child answers on the link that is its own parent link. -/
def State.syncTimer (s : State) : State :=
  if s.klState = 4 ∨ s.klState = 5 then
    ((upLinks s).filter (fun l => some l != s.kal.parent)).foldl (fun (s : State) l => s.mgmtOn l 4 (toLe 8 s.now ++ zeros 32)) s
  else s

/-- 32-bit signed, saturating (R389). -/
def satWord (i : Int) : Word := BitVec.ofInt 32 (iclamp (-2147483648) 2147483647 i)

/-- A measurement of the offset: the rate, then the slew, then READY (R383, R384). -/
def State.measured (s : State) (ofs : Int) : State :=
  let s := (s.updKal (fun k => { k with ofs := ofs })).wr Reg.KL_OFFSET (satWord ofs)
  if s.klState ≠ 4 then s
  else match s.kal.align with
    | 0 =>
      if s.kal.alignMax * 1000000 < ofs.natAbs then ((s.setKl 6).raise klPage 4).floodReady false
      else
        -- the rate that matches the coordinator's frequency is not given: a free value, held in its range
        let r := s.fresh
        ({ r.2 with clk := { s.clk with rate := clampRate r.1 } } : State).updKal (fun k => { k with align := 1 })
    | 1 => ({ s with clk := { s.clk with slew := satWord (-ofs) } } : State).updKal (fun k => { k with align := 2 })
    | _ => if s.clk.slew = 0 ∧ s.kal.align = 2 then
             (if ofs.natAbs ≤ 50 then s.floodReady true else { s with clk := { s.clk with slew := satWord (-ofs) } })
           else s

/-- SYNC (R383): on the parent link, t1 is answered with t2 and t3, and the answer with t4 gives the offset; on another link, the
child's answer is returned with t4 and this module's own offset. -/
def State.syncIn (s : State) (l : Nat) (b : Bytes) : State :=
  s.mgmtIn l 4 b (fun s c =>
    let t1 := leAt c 0 8
    let t3 := leAt c 16 8
    if s.kal.parent = some l then
      if t3 = 0 then
        let s := s.updKal (fun k => { k with t1 := t1, t2 := s.now, t3 := s.now })
        s.mgmtOn l 4 (toLe 8 t1 ++ toLe 8 s.now ++ toLe 8 s.now ++ zeros 16)
      else
        let t2 := leAt c 8 8
        let asym := signed 8 (s.fld (Reg.LINK_CTL l) 15 8)
        let ofs := (((t2 : Int) - t1) - ((leAt c 24 8 : Int) - t3)).tdiv 2 - asym
        s.measured (ofs + signed 64 (leAt c 32 8))
    else
      let s := (s.updKlink l (fun x => { x with child := true })).setFlag (Reg.LINK_STS l) 29 true
      s.mgmtOn l 4 (c.take 24 ++ toLe 8 s.now ++ toLe 8 (unsign 64 s.kal.ofs)))

end Sys2Proof.Machine
end

