-- ==== Sys2Proof/Machine/HostNet.lean ====
section
/-! DEFINITION. The host port, the queue engine and the Ethernet ports (16): queue creation, doorbells, fetching, MSI-X and configuration
space, received frames.  COPY and SEND stand in `Dma`. -/
namespace Sys2Proof.Machine

def hpPage : Nat := 0x330000
def ethPage (n : Nat) : Nat := 0x332000 + 0x1000 * n

/-! ## Creating and destroying queues (R395) -/

/-- The fields of a queue descriptor are in range (R395). -/
def qdescOk (recq : Bool) (g : Nat) (b : Bytes) : Bool :=
  let owner := leAt b 2 2
  let t := byteAt b 1
  let vec := leAt b 32 2
  let limit := if owner = 0xFFFF then 256 else vectors owner
  (byteAt b 0 == if recq then 2 else 1) && zeroAt b 40 24 && (!recq || decide (g < 512)) &&
  (decide (owner ≤ 128) || owner == 0xFFFF) && decide (leAt b 4 2 < if recq then 16 else 64) &&
  decide (4 ≤ byteAt b 6) && decide (byteAt b 6 ≤ 15) &&
  (if recq then byteAt b 7 == 0 && zeroAt b 16 8 && (t == 0 || t == 6 || t == 7)
   else decide (4 ≤ byteAt b 7) && decide (byteAt b 7 ≤ 15) && (decide (t ≤ 4) || t == 6 || t == 7 || (decide (8 ≤ t) && decide (t ≤ 15)))) &&
  (vec == 0xFFFF || decide (vec < limit)) && decide (1 ≤ leAt b 34 2) && decide (leAt b 34 2 ≤ 4096) && decide (leAt b 36 2 ≤ 10000) &&
  (owner != 0xFFFF || (decide (byteAt b 38 < 8) && decide (byteAt b 39 < 16))) &&
  leAt b 8 8 % 64 == 0 && leAt b 16 8 % 64 == 0 && leAt b 24 8 % 64 == 0

/-- The queue that a descriptor describes, in RUN with every count at 0. -/
def queueOf (b : Bytes) : Queue :=
  { state := .run, target := byteAt b 1, owner := leAt b 2 2, loc := leAt b 4 2, logN := byteAt b 6, logM := byteAt b 7,
    ring := leAt b 8 8, cq := leAt b 16 8, wb := leAt b 24 8, vector := leAt b 32 2, coalN := leAt b 34 2, coalUs := leAt b 36 2,
    part := byteAt b 38, vi := byteAt b 39 }

/-- A ring or block of n bytes lies in host memory for a function, in the partition's memory for the fabric (R395). -/
def State.placeOk (s : State) (q : Queue) (a n : Nat) : Bool :=
  if q.owner = 0xFFFF then s.granted q.part a n else decide (hostBase ≤ a) && decide (a + n ≤ 2 ^ 48)

/-- RESULT of a CREATE, 0 when the queue may be created (R395). -/
def State.createResult (s : State) (recq : Bool) (g : Nat) (b : Bytes) : Nat :=
  let q := queueOf b
  let t := if recq then s.rqs else s.qs
  if qdescOk recq g b = false then 2
  else if (t.get {} g).state ≠ .off ∨ t.any (fun (e : Nat × Queue) => e.2.state != .off && e.2.owner == q.owner && e.2.loc == q.loc) ∨
          (recq ∧ q.target ≠ 0 ∧ t.any (fun (e : Nat × Queue) => e.2.state != .off && e.2.target == q.target)) then 1
  else if s.placeOk q q.ring ((if recq then 64 else 32) * 2 ^ q.logN) && (recq || s.placeOk q q.cq (64 * 2 ^ q.logM)) && s.placeOk q q.wb 64 then 0
  else 3

def State.queueSts (s : State) (busy : Bool) (res : Nat) : State := s.wr Reg.QUEUE_STS (BitVec.ofNat 32 (ofBool busy * 2 ^ 31 + res))

/-- QUEUE_CMD CREATE. -/
def State.queueCreate (s : State) (recq : Bool) (g : Nat) : State :=
  let a := s.addr48 Reg.QUEUE_DESC_LO Reg.QUEUE_DESC_HI
  match s.schRead a 64 with
  | none => s.queueSts false 2
  | some b =>
    let r := s.createResult recq g b
    if r ≠ 0 then s.queueSts false r
    else (if recq then s.setRqueue g (queueOf b) else s.setQueue g (queueOf b)).queueSts false 0

/-- QUEUE_CMD DESTROY. -/
def State.queueDestroy (s : State) (recq : Bool) (g : Nat) : State :=
  if recq then
    if (s.rqueue g).state = .off then s.queueSts false 4 else ({ s with rqs := s.rqs.set {} g {} } : State).queueSts false 0
  else if (s.queue g).state = .off then s.queueSts false 4
  else (s.queueSts (s.queue g).cur.isSome 0).stopQueue g

/-- A keyed write of QUEUE_CMD (R395). -/
def State.queueCmd (s : State) (req : Req) (v : Word) : State :=
  if bits v 14 13 = 0 then s
  else s.keyed req Reg.QUEUE_CMD v 0x90E5 (fun s =>
    match bits v 14 13 with
    | 1 => s.queueCreate (bit v 15) (bits v 10 0)
    | 2 => s.queueDestroy (bit v 15) (bits v 10 0)
    | _ => s)

/-- QUEUE_STATE as read. -/
def State.queueView (s : State) : Word :=
  let g := s.fld Reg.QUEUE_SEL 10 0
  let q := if s.flag Reg.QUEUE_SEL 11 then s.rqueue g else s.queue g
  if q.state = .off then 0 else BitVec.ofNat 32 (q.state.code * 2 ^ 30 + q.owner)

/-! ## Doorbells (R402) -/

def State.dbBad (s : State) : State := s.bump Reg.HP_CNT_DB_BAD

/-- A queue goes into ERROR (R397), which its write-back block then holds (R401). -/
def State.queueError (s : State) (g : Nat) : State :=
  let q := { s.queue g with state := .error }
  (((s.setQueue g q).bump Reg.HP_CNT_QERR).raise hpPage 2).writeBack q

/-- Bytes of ring slot c of a command queue; none when they cannot be read. -/
def State.ringSlot (s : State) (q : Queue) (c : Nat) : Option Bytes :=
  let a := q.ring + 32 * (c % 2 ^ q.logN)
  if s.canRead q.fnOf a 32 = .ok then some (s.ld a 32) else none

/-- From slot c the commands end exactly at slot `tail`; false also for a slot that cannot be read. `fuel` bounds the slots. -/
def State.slotsEnd (s : State) (q : Queue) (tail : Nat) : Nat → Nat → Bool
  | 0, c => c == tail
  | fuel + 1, c =>
    if c = tail then true
    else match s.ringSlot q c with
      | none => false
      | some b =>
        let k := slotsOf (leAt b 16 2)
        if k = 2 ∧ (c + 1) % 65536 = tail then false else State.slotsEnd s q tail fuel ((c + k) % 65536)

/-- A tail doorbell of command queue g (R397, R402). -/
def State.tailDb (s : State) (g : Nat) (v : Word) : State :=
  let q := s.queue g
  let n := bits v 15 0
  if q.state = .off then s.dbBad
  else if n = q.tail ∨ q.state ≠ .run ∨ s.tagFenced q then s
  else if 2 ^ q.logN < between q.head n ∨ s.slotsEnd q n (between q.tail n + 1) q.tail = false then s.queueError g
  else s.setQueue g { q with tail := n }

/-- A completion head doorbell: entries are free again. -/
def State.cqHeadDb (s : State) (g : Nat) (v : Word) : State :=
  let q := s.queue g
  if q.state = .off then s.dbBad else s.setQueue g { q with cqHead := bits v 15 0 }

/-- A record head doorbell. -/
def State.recHeadDb (s : State) (g : Nat) (v : Word) : State :=
  let q := s.rqueue g
  if q.state = .off then s.dbBad else s.setRqueue g { q with head := bits v 15 0 }

/-- The queue that a doorbell names: a global number, or a local number of function f (R402). -/
def ownedQueue (t : Tab Queue) (f n : Nat) : Option Nat :=
  (t.find? (fun (e : Nat × Queue) => e.2.state != .off && e.2.owner == f && e.2.loc == n)).map Prod.fst

/-- A doorbell write that reached the queue engine: which table, the function whose area it came through (none: BAR0), the number, and
whether it was one 32-bit write of an unreserved word. -/
def State.doorbell (s : State) (recq : Bool) (fn : Option Nat) (n : Nat) (ok : Bool) (k : State → Nat → State) : State :=
  if ok = false then s.dbBad
  else match fn with
    | none => k s n
    | some f => match ownedQueue (if recq then s.rqs else s.qs) f n with
      | none => s.dbBad
      | some g => k s g

/-! ## Fetching (R397, R399, R403) -/

/-- The unit's page raises CMD_ERR for a command that completes other than OK without reaching it. -/
def State.cmdErr (s : State) (target : Nat) : State :=
  if target = 3 then s.raise 0x210000 1 else if 8 ≤ target then s.raise (auPage (target - 8)) 1 else s

/-- The queue engine takes the next command of queue g when it runs, executes none, and its completion ring has room (R399). A ring that
cannot be read, or that lies outside the instance's slice (R346), puts the queue in ERROR. -/
def State.cmdFetch (s : State) (g : Nat) : State :=
  let q := s.queue g
  if q.state ≠ .run ∨ q.cur.isSome ∨ q.head = q.tail ∨ s.tagFenced q then s
  else
    let o := q.ownerOf
    let a := q.ring + 32 * (q.head % 2 ^ q.logN)
    if o.1 < 8 ∧ s.sliceBlocks o.1 o.2 a 32 then s.sliceViol.queueError g
    else match s.ringSlot q q.head with
      | none => s.queueError g
      | some b0 =>
        let op := leAt b0 16 2
        let room := 2 ^ q.logM - (between q.cqHead q.cqTail + q.reserved)
        if room < (if op = 0x69 then 3 else 1) then s
        else match (if slotsOf op = 1 then some (zeros 32) else s.ringSlot q ((q.head + 1) % 65536)) with
          | none => s.queueError g
          | some b1 =>
            let s := s.setQueue g { q with cur := some (BitVec.ofNat 512 (leNat (b0 ++ b1))) }
            if opTarget q.target op then s else (s.cmdErr q.target).complete g .badOpcode

/-- COAL_US after the first entry not yet signalled, the queue's message is sent (R401). -/
def State.coalTimer (s : State) (recq : Bool) (g : Nat) : State :=
  let q := if recq then s.rqueue g else s.queue g
  if (q.state = .run ∨ q.state = .error) ∧ 0 < q.unsig ∧ q.unsigAt + q.coalUs * 1000 ≤ s.now then
    let q := { q with unsig := 0 }
    (if recq then s.setRqueue g q else s.setQueue g q).qMessage q
  else s

/-! ## MSI-X and configuration space (R392 to R394) -/

/-- The held messages of function f that nothing masks any more are sent (R394). -/
def State.sendHeld (s : State) (f : Nat) : State :=
  (s.msix.filter (fun (e : Nat × Vector) => e.1 / 2048 == f && e.2.pend && !e.2.mask)).foldl (fun (s : State) e =>
    let F := s.fn f
    if F.funcMask ∨ F.msixEnable = false ∨ F.busMaster = false ∨ s.fnEnabled f = false then s
    else ({ s with msix := s.msix.set {} e.1 { e.2 with pend := false } } : State).emit (.msix f (e.1 % 2048) e.2.addr e.2.data)) s

/-- Clearing a vector's mask, or the Function Mask (R394). -/
def State.msixUnmask (s : State) (f : Nat) (v : Option Nat) : State :=
  (match v with
   | some n => if n < vectors f then { s with msix := s.msix.upd {} (f * 2048 + n) (fun x => { x with mask := false }) } else s
   | none => { s with fns := s.fns.upd {} f (fun x => { x with funcMask := false }) } : State).sendHeld f

/-- VF_INFO of virtual function f: partition, instance and generation, or all ones when the instance does not exist (R345, R392). -/
def State.vfInfo (s : State) (f : Nat) : Word :=
  let p := (f - 1) / 16
  let v := (f - 1) % 16
  if (s.part p).state = .free ∨ (s.part p).nvis ≤ v then 0xFFFFFFFF
  else BitVec.ofNat 32 (p * 4096 + v * 256 + (s.vi p v).gen.toNat)

/-- Word i of the MSI-X table entry of vector n of function f (R392): message address, data and vector control. -/
def State.msixWord (s : State) (f n i : Nat) : Word :=
  let x := s.msix.get {} (f * 2048 + n)
  match i with
  | 0 => x.addr.setWidth 32
  | 1 => (x.addr >>> 32).setWidth 32
  | 2 => x.data
  | _ => BitVec.ofNat 32 (ofBool x.mask)

/-- Word i of the pending bits of function f (R394). -/
def State.pbaWord (s : State) (f i : Nat) : Word :=
  BitVec.ofNat 32 (((List.range 32).map (fun k => if (s.msix.get {} (f * 2048 + 32 * i + k)).pend then 2 ^ k else 0)).sum)

/-- The queues of function f are destroyed. -/
def State.destroyFnQueues (s : State) (f : Nat) : State :=
  let s := ((s.qs.filter (fun (e : Nat × Queue) => e.2.owner == f && e.2.state != .off)).map Prod.fst).foldl (fun (s : State) g => s.stopQueue g) s
  { s with rqs := s.rqs.filter (fun (e : Nat × Queue) => e.2.owner != f) }

/-- The settings and messages of a function return to their reset values. -/
def State.resetFn (s : State) (f : Nat) : State :=
  { s with fns := s.fns.set {} f {}, msix := s.msix.filter (fun (e : Nat × Vector) => e.1 / 2048 != f) }

/-- FLR of virtual function f: its instance is reset and its queues are destroyed (R409). -/
def State.vfFlr (s : State) (f : Nat) : State :=
  if f = 0 ∨ 128 < f then s
  else ((s.viReset ((f - 1) / 16) ((f - 1) % 16)).destroyFnQueues f).resetFn f

/-- HP_STS as read. -/
def State.hpView (s : State) : Word :=
  putBits (putBit (s.rd Reg.HP_STS) 22 (s.fn 0).busMaster) 7 0 (if s.vfEnable then s.numVfs else 0)

/-- A host write to a function's configuration space or MSI-X structures, by what it changes (R393, R394): 0 Bus Master Enable, 1 VF
Enable, 2 NumVFs, 3 MSI-X Enable, 4 Function Mask, 5 the mask of vector n, 6 and 7 its address words, 8 its data, 9 Memory Space Enable.
Clearing VF Enable is an FLR of every virtual function (R409). -/
def State.configWrite (s : State) (f field n : Nat) (v : Word) : State :=
  let b := bit v 0
  let setFn := fun (k : Fn → Fn) => { s with fns := s.fns.upd {} f k }
  let setVec := fun (k : Vector → Vector) => if n < vectors f then { s with msix := s.msix.upd {} (f * 2048 + n) k } else s
  match field with
  | 0 =>
    let t := setFn (fun x => { x with busMaster := b })
    let t := if f = 0 ∧ b ∧ (s.fn 0).busMaster = false ∧ s.flag Reg.HP_STS 31 then t.raise hpPage 1 else t
    t.sendHeld f
  | 1 =>
    if f ≠ 0 then s
    else if s.vfEnable ∧ b = false then { ((range' 1 128).foldl (fun (s : State) k => s.vfFlr k) s) with vfEnable := false }
    else { s with vfEnable := b }
  | 2 => if f ≠ 0 ∨ s.vfEnable then s else { s with numVfs := min 128 (bits v 15 0) }
  | 3 => (setFn (fun x => { x with msixEnable := b })).sendHeld f
  | 4 => (setFn (fun x => { x with funcMask := b })).sendHeld f
  | 5 => (setVec (fun x => { x with mask := b })).sendHeld f
  | 6 => setVec (fun x => { x with addr := (x.addr >>> 32 <<< 32) ||| v.setWidth 64 })
  | 7 => setVec (fun x => { x with addr := (x.addr &&& 0xFFFFFFFF) ||| (v.setWidth 64 <<< 32) })
  | 8 => setVec (fun x => { x with data := v })
  | _ => setFn (fun x => { x with memEnable := b })

/-- The PCIe link comes up with Bus Master Enable set (R409). -/
def State.hostUp (s : State) (speed width : Nat) : State :=
  if s.clk.running then
    let s := s.wr Reg.HP_STS (BitVec.ofNat 32 (2 ^ 31 + speed * 2 ^ 28 + width * 2 ^ 23))
    ({ s with fns := s.fns.upd {} 0 (fun x => { x with busMaster := true }) } : State).raise hpPage 1
  else s

/-- The host is lost with HOST_RST_MODE 0 (R409): function queues stop and are destroyed, and MSI-X state returns to its reset values. -/
def State.hostLost (s : State) : State :=
  let s := s.wr Reg.HP_STS 0
  let fs := ((s.qs.filter (fun (e : Nat × Queue) => e.2.owner != 0xFFFF && e.2.state != .off)).map Prod.fst)
  let s := fs.foldl (fun (s : State) g => s.stopQueue g) s
  let s := { s with rqs := s.rqs.filter (fun (e : Nat × Queue) => e.2.owner == 0xFFFF), msix := [], fns := [], vfEnable := false, numVfs := 0 }
  (s.bump Reg.HP_CNT_HOST_LOST).raise hpPage 0

/-! ## Ethernet ports (R406, R407, R410) -/

/-- LINK of port n changes (R410). -/
def State.netLink (s : State) (n : Nat) (up : Bool) : State :=
  let up := up && s.flag (Reg.ETH_CTL n) 0 && s.flag (Reg.ETH_STS n) 30
  if s.flag (Reg.ETH_STS n) 31 = up then s else (s.setFlag (Reg.ETH_STS n) 31 up).raise (ethPage n) 0

/-- A module or cable is inserted or removed; a removal takes the link down. -/
def State.presence (s : State) (n : Nat) (present : Bool) : State :=
  let s := s.setFlag (Reg.ETH_STS n) 30 present
  if present then s else s.netLink n false

/-- A write of ETH_CTL: a port that is not enabled has no link. -/
def State.ethCtl (s : State) (req : Req) (n : Nat) (v : Word) : State :=
  s.storeThen req (Reg.ETH_CTL n) v (fun s => if s.flag (Reg.ETH_CTL n) 0 then s else s.netLink n false)

/-- A received frame taken apart: VLAN (0 untagged), whether it has more than one tag, and the bytes after the EtherType with it. -/
def frameOf (b : Bytes) : Nat × Bool × Nat × Bytes :=
  let et := beNat ((b.drop 12).take 2)
  if et = 0x8100 then
    let e2 := beNat ((b.drop 16).take 2)
    (beNat ((b.drop 14).take 2) % 4096, e2 == 0x8100 || e2 == 0x88A8, e2, b.drop 18)
  else (0, et == 0x88A8, et, b.drop 14)

/-- The UDP datagram of an IP packet that is no fragment: source address as 16 bytes, source port, destination port and payload. -/
def udpOf (et : Nat) (p : Bytes) : Option (Bytes × Nat × Nat × Bytes) :=
  let take := fun (u : Bytes) (src : Bytes) =>
    let n := beNat ((u.drop 4).take 2)
    if u.length < 8 ∨ n < 8 ∨ u.length < n then none
    else some (src, beNat (u.take 2), beNat ((u.drop 2).take 2), (u.take n).drop 8)
  if et = 0x0800 then
    let frag := beNat ((p.drop 6).take 2) % 0x4000
    if byteAt p 0 = 0x45 ∧ byteAt p 9 = 17 ∧ frag = 0 then
      take ((p.take (beNat ((p.drop 2).take 2))).drop 20) (zeros 10 ++ [0xFF, 0xFF] ++ (p.drop 12).take 4)
    else none
  else if et = 0x86DD then
    if byteAt p 0 / 16 = 6 ∧ byteAt p 6 = 17 then take ((p.take (40 + beNat ((p.drop 4).take 2))).drop 40) ((p.drop 8).take 16) else none
  else none

/-- An IPv4 packet with options. -/
def hasOptions (et : Nat) (p : Bytes) : Bool := et == 0x0800 && byteAt p 0 / 16 == 4 && decide (5 < byteAt p 0 % 16)

/-- The enabled interface of port n with a VLAN (R407). -/
def State.ifOf (s : State) (n vid : Nat) : Option Nat :=
  (List.range 8).find? (fun i => let c := s.rd (bank i (Reg.IF_CTL n)); bit c 31 && bits c 11 0 == vid)

/-- A received frame without preamble and FCS (R407): `fcsOk`, and whether its destination is in the port's multicast filter, which the
network service writes. -/
def State.frameRx (s : State) (n : Nat) (b : Bytes) (fcsOk mcast : Bool) : State :=
  if s.flag (Reg.ETH_STS n) 31 = false then s
  else
    let s := s.bump (Reg.ETH_CNT_RX_FRAMES n)
    let drop := fun (s : State) => s.bump (Reg.ETH_CNT_RX_FILTER n)
    let dst := b.take 6
    let f := frameOf b
    if fcsOk = false then drop (s.bump (Reg.ETH_CNT_FCS n))
    else if !(dst == s.mac n || dst == List.replicate 6 0xFF || mcast) then drop s
    else if f.2.1 || hasOptions f.2.2.1 f.2.2.2 || (s.ifOf n f.1).isNone then drop s
    else
      let toQueue := fun (s : State) =>
        match s.rqs.find? (fun (e : Nat × Queue) => e.2.state == .run && e.2.target == 6 + n) with
        | none => s.bump (Reg.ETH_CNT_RX_DROP n)
        | some e =>
          let r := s.pushRecord e.1 8 s.now b
          if r.2 then r.1 else r.1.bump (Reg.ETH_CNT_RX_DROP n)
      match udpOf f.2.2.1 f.2.2.2 with
      | none => toQueue s
      | some u =>
        let r := s.rtpDatagram n u.1 u.2.2.1 u.2.2.2
        if r.2 then r.1 else toQueue s

end Sys2Proof.Machine
end

