-- ==== Sys2Proof/Machine/Health.lean ====
section
/-! DEFINITION. Health monitors, throttling, module-wide faults, fences, the safe state and the fault log (17), and what a device reset
does at its trigger (R453, R456).  Emergence itself stands in `Emergence`. -/
namespace Sys2Proof.Machine

def hmPage : Nat := 0x8000
def hmId : Nat := blkId hmPage

def State.updHealth (s : State) (f : Health → Health) : State := { s with health := f s.health }
def State.updEmg (s : State) (f : Emg → Emg) : State := { s with emg := f s.emg }

/-- HEALTH follows the watchdog, FORCE_FAULT and the fault being handled (R422). -/
def State.healthUpd (s : State) : State :=
  s.setFlag Reg.HM_STS 30 (s.flag Reg.HM_CTL 2 || s.health.missed || s.health.handling.isSome)

/-! ## The committed fault log (R423, R425) -/

/-- Append an entry to the committed log; a full log loses its oldest sector of 2,048 entries. -/
def commitTo (l : List FEntry) (e : FEntry) : List FEntry :=
  (if 65536 ≤ l.length then l.drop 2048 else l) ++ [{ e with committed := true }]

/-- Commit the entries of the ring that satisfy `p` and are not committed yet. -/
def State.commitLog (s : State) (p : FEntry → Bool) : State :=
  { s with flogFlash := (s.flogRing.filter (fun e => p e && !e.committed)).foldl commitTo s.flogFlash,
           flogRing := s.flogRing.map (fun e => if p e then { e with committed := true } else e) }

/-- The 32 bytes of an entry (R424). -/
def FEntry.bytes (e : FEntry) : Bytes :=
  toLe 8 e.tb.toNat ++ toLe 4 e.fseq.toNat ++ toLe 4 e.cal.toNat ++ toLe 1 e.cls ++
  toLe 1 (ofBool e.tbValid + 2 * ofBool e.calValid + 4 * ofBool e.committed) ++ toLe 2 e.code ++ toLe 2 e.block ++ toLe 2 e.inst ++
  toLe 8 e.detail.toNat

def State.flogBusy (s : State) : State := s.setFlag Reg.FLOG_STS 31 (s.health.load.isSome || s.health.erasing)

/-- A write of FLOG_SEL loads an entry of the view chosen (R425). -/
def State.flogSelect (s : State) (v : Word) : State :=
  ((s.wr Reg.FLOG_SEL v).updHealth (fun h => { h with load := some (v, s.flag Reg.FLOG_CTL 8) })).flogBusy

/-- The window is loaded: the latest entry of that FSEQ, or zero (R423). -/
def State.flogLoaded (s : State) : State :=
  match s.health.load with
  | none => s
  | some (n, view) =>
    let l := (if view then s.flogFlash else s.flogRing).reverse
    let b := match l.find? (fun e => e.fseq == n) with
      | some e => e.bytes
      | none => zeros 32
    let found := l.any (fun e => e.fseq == n)
    let s := (List.range 8).foldl (fun (s : State) i => s.wr (Reg.FLOG_W i) (BitVec.ofNat 32 (leAt b (4 * i) 4))) s
    ((s.updHealth (fun h => { h with load := none })).setFlag Reg.FLOG_STS 30 found).flogBusy

/-- The warden commits one entry of class 2 or 3 (R423). -/
def State.flogCommit (s : State) (n : Word) : State := s.commitLog (fun e => e.fseq == n && decide (2 ≤ e.cls))

/-- A keyed write of FLOG_CMD. -/
def State.flogCmd (s : State) (req : Req) (v : Word) : State :=
  s.keyed req Reg.FLOG_CMD v 0xF1E5 (fun s => if bit v 0 then (s.updHealth (fun h => { h with erasing := true })).flogBusy else s)

def State.flogErased (s : State) : State :=
  if s.health.erasing then ({ s with flogFlash := [] }.updHealth (fun h => { h with erasing := false })).flogBusy else s

/-! ## The safe state (R426, R427) -/

/-- A class 3 fault is being handled, or emergence has stopped. -/
def State.stopped3 (s : State) : Bool := s.health.handling.isSome || s.flag Reg.AO_EMG_STS 30

/-- A keyed write of SAFE_CMD: ENTER sets the latch and wins over LEAVE. -/
def State.safeCmd (s : State) (req : Req) (v : Word) : State :=
  s.keyed req Reg.SAFE_CMD v 0x5AF3 (fun s =>
    if bit v 0 then s.setFlag Reg.HM_STS 31 true
    else if bit v 1 ∧ s.stopped3 = false then s.setFlag Reg.HM_STS 31 false
    else s)

/-! ## Faults of the whole module (R415 to R417, R454) -/

/-- A fault that stops the module is detected: logged; the first one sets the safe state, makes HEALTH FAULT, discards open items
without records, commits the log and stops the clocks; with the main regulators off, no PLL runs. -/
def State.stopModule (s : State) (k : Stop) (code detail : Nat) : State :=
  let s := (s.log 3 code hmId detail).commitLog (fun _ => true)
  if s.health.handling.isSome then s.updHealth (fun h => { h with others := h.others ++ [k] })
  else
    let s := ((s.setFlag Reg.HM_STS 31 true).updHealth (fun h => { h with handling := some k, cool := 0 })).updEmg
      (fun e => { e with e6 := false, resetting := false })
    let s := (s.setFlag Reg.AO_EMG_STS 31 false).setFld Reg.AO_EMG_STS 7 0 0
    let s := if k = .pll then s else s.wr Reg.CLK_STS (s.rd Reg.CLK_STS &&& 0xFFFFFFFA)
    ({ s with items := [], clk := { s.clk with running := false } } : State).healthUpd

/-- A thermal shutdown has been detected and its recovery has not ended: there is one shutdown until then. -/
def State.inShutdown (s : State) : Bool := s.health.handling == some .thermal || s.health.others.contains .thermal

/-- A thermal shutdown; the fourth within an hour of the first of three earlier ones is latched (R415). -/
def State.thermalStop (s : State) (trip : Bool) (site : Nat) (t : BitVec 16) : State :=
  let n := s.health.samples
  let fourth : Bool := match s.health.shutdowns.drop 2 with
    | [] => false
    | x :: _ => decide (n ≤ x + 72000000)
  let s := s.updHealth (fun h => { h with shutdowns := n :: h.shutdowns })
  let s := if fourth then s.setFlag Reg.HM_STS 28 true else s
  s.stopModule .thermal 0x51 (ofBool trip * 2 ^ 63 + site * 2 ^ 48 + t.toNat)

/-- The rail fault is the third within ten minutes of the first of three. -/
def State.thirdRail (s : State) : Bool :=
  match s.health.rails with
  | a :: _ :: c :: _ => decide (a ≤ c + 12000000)
  | _ => false

/-- A rail fault; a third within ten minutes leaves the regulators off, with FAILED and FAIL_STEP 1 (R416). -/
def State.railStop (s : State) (m : Nat) (mv : BitVec 16) : State :=
  let s := (s.updHealth (fun h => { h with rails := h.samples :: h.rails })).stopModule .rail 0x61 (m * 2 ^ 48 + mv.toNat)
  if s.thirdRail ∧ s.health.handling = some .rail then
    ((s.updHealth (fun h => { h with latched := true })).setFlag Reg.AO_EMG_STS 30 true).setFld Reg.AO_EMG_STS 15 8 1
  else s

/-- The root PLL loses lock (R454). -/
def State.pllStop (s : State) : State :=
  let v := s.rd Reg.CLK_STS
  let s := s.wr Reg.CLK_STS (putBit (putBits v 31 16 (min 65535 (bits v 31 16 + 1))) 0 false)
  s.stopModule .pll 0x70 (s.rd Reg.CLK_STS).toNat

/-! ## Monitors and throttling (R411 to R415) -/

/-- Nominal voltage of monitor m in mV. -/
def railNom (m : Nat) : Nat :=
  ([48000, 750, 750, 750, 850, 800, 400, 400, 1100, 1800, 900, 900, 900, 900, 1800, 3300].drop m).headD 0

/-- Outside the warning window and the fault window of R412. -/
def railWarns (m mv : Nat) : Bool :=
  if m = 0 then decide (mv < 40000) || decide (60000 < mv)
  else decide (mv * 100 < railNom m * 97) || decide (railNom m * 103 < mv * 100)
def railFails (m mv : Nat) : Bool :=
  if m = 0 then decide (62000 < mv) else decide (mv * 100 < railNom m * 95) || decide (railNom m * 105 < mv * 100)

/-- Store readings, two to a register, from register `a` on. -/
def State.putPairs (s : State) (a : Nat) (l : List (BitVec 16)) : State :=
  l.zipIdx.foldl (fun (s : State) (e : BitVec 16 × Nat) => s.setFld (a + 4 * (e.2 / 2)) (16 * (e.2 % 2) + 15) (16 * (e.2 % 2)) e.1.toNat) s

/-- The largest site temperature and the first site that has it. -/
def hottest (l : List (BitVec 16)) : BitVec 16 × Nat :=
  l.zipIdx.foldl (fun b (e : BitVec 16 × Nat) => if b.1.toInt < e.1.toInt then e else b) (l.headD 0, 0)

/-- Thresholds in 1/16 °C. -/
def State.warnT (s : State) : Int := 16 * (s.fld Reg.TEMP_CFG 15 8 : Int)
def State.critT (s : State) : Int := 16 * (s.fld Reg.TEMP_CFG 23 16 : Int)
def State.shutT (s : State) : Int := 16 * (s.fld Reg.TEMP_CFG 31 24 : Int)
def State.hystT (s : State) : Int := 16 * (s.fld Reg.TEMP_CFG 7 0 : Int)

/-- The throttle level of R414 at a sample; `since` counts samples of 50 µs since its last change. -/
def nextLevel (tMax warn crit hyst : Int) (lvl since : Nat) : Nat :=
  if crit ≤ tMax then 3
  else if lvl = 3 ∧ tMax < crit - hyst then 2
  else if warn ≤ tMax ∧ lvl < 2 ∧ 200 ≤ since then lvl + 1
  else if tMax < warn - hyst ∧ 0 < lvl ∧ 2000 ≤ since then lvl - 1
  else lvl

/-- The throttle level follows a sample. -/
def State.throttle (s : State) (t : BitVec 16) : State :=
  let lvl := s.fld Reg.HM_STS 25 24
  let s := if lvl = 0 then s else s.count Reg.HM_CNT_THROT_US 50
  let since := min 2000 (s.health.since + 1)
  let n := nextLevel t.toInt s.warnT s.critT s.hystT lvl since
  if n = lvl then s.updHealth (fun h => { h with since := since })
  else
    let s := (s.setFld Reg.HM_STS 25 24 n).updHealth (fun h => { h with since := 0 })
    let s := (s.log 0 0x50 hmId (n * 2 ^ 56 + t.toNat)).raise hmPage 4
    let s := if lvl = 0 then (s.bump Reg.HM_CNT_TEMP_WARN).raise hmPage 0 else s
    if n = 3 then s.raise hmPage 1 else s

/-- A sample of every temperature site and voltage monitor (R411). -/
def State.monitorSample (s : State) (temps volts : List (BitVec 16)) : State :=
  if s.emg.powered = false ∨ temps.length ≠ 24 ∨ volts.length ≠ 16 then s
  else
    let h := hottest temps
    let before : Int := signed 16 (s.fld Reg.HM_STS 15 0)
    let s := ((s.putPairs Reg.TEMP_01 temps).putPairs Reg.VOLT_01 volts).setFld Reg.HM_STS 15 0 h.1.toNat
    let calm := decide (h.1.toInt < s.warnT - s.hystT)
    let s := s.updHealth (fun x =>
      { x with samples := x.samples + 1, cool := if calm then x.cool + 1 else 0,
               warned := (x.warned.map (fun (e : Nat × Nat) =>
                 (e.1, if railWarns e.1 ((volts.drop e.1).headD 0).toNat then 0 else e.2 + 1))).filter (fun (e : Nat × Nat) => decide (e.2 < 20)) })
    let s := s.throttle h.1
    if s.shutT ≤ before ∧ s.shutT ≤ h.1.toInt ∧ s.inShutdown = false then s.thermalStop false h.2 h.1 else s

/-- A trip comparator crosses 125 °C (R415). -/
def State.thermalTrip (s : State) (site : Nat) (t : BitVec 16) : State :=
  if s.emg.powered ∧ 2000 ≤ t.toInt ∧ s.inShutdown = false then s.thermalStop true site t else s

/-- A sample of every process site (R413). -/
def State.procSample (s : State) (counts : List (BitVec 16)) : State :=
  if s.emg.powered = false ∨ counts.length ≠ 32 then s
  else
    let low := s.fld Reg.PROC_CFG 15 0
    counts.zipIdx.foldl (fun (s : State) (e : BitVec 16 × Nat) =>
      if low ≤ e.1.toNat then s
      else
        if s.health.slow.contains e.2 then s
        else ((s.raise hmPage 3).log 0 0x62 hmId (e.2 * 2 ^ 48 + e.1.toNat)).updHealth (fun h => { h with slow := e.2 :: h.slow }))
      (s.putPairs Reg.PROC_01 counts)

/-- A rail has been outside its warning window for 1 ms (R412). -/
def State.railWarn (s : State) (m : Nat) (mv : BitVec 16) : State :=
  if s.emg.powered ∧ railWarns m mv.toNat ∧ (s.health.warned.look m).isNone then
    let s := (s.bump Reg.HM_CNT_RAIL_WARN).log 0 0x60 hmId (m * 2 ^ 48 + mv.toNat)
    (s.updHealth (fun h => { h with warned := h.warned.insert m 0 })).raise hmPage 2
  else s

/-- A rail has been outside its fault window for 10 µs (R412, R416). -/
def State.railFault (s : State) (m : Nat) (mv : BitVec 16) : State :=
  if s.emg.powered ∧ railFails m mv.toNat then s.railStop m mv else s

/-- The root PLL loses lock while the clocks run (R454). -/
def State.pllLoss (s : State) : State := if s.clk.running then s.pllStop else s

/-! ## The firmware watchdog (R422) -/

/-- A write to ALIVE. -/
def State.alive (s : State) : State := (s.updHealth (fun h => { h with aliveAt := s.now, missed := false })).healthUpd

/-- A write of HM_CTL: the watchdog's time counts from the write that turns it on. -/
def State.hmCtl (s : State) (req : Req) (v : Word) : State :=
  let off := s.fld Reg.HM_CTL 23 16 == 0
  s.storeThen req Reg.HM_CTL v (fun s => (if off then s.updHealth (fun h => { h with aliveAt := s.now }) else s).healthUpd)

/-- ALIVE_MS pass without a write; the flag says that the miss performs a device reset. -/
def State.aliveMiss (s : State) : State × Bool :=
  let ms := s.fld Reg.HM_CTL 23 16
  if ms = 0 ∨ s.health.aliveOn = false ∨ s.health.missed ∨ s.now < s.health.aliveAt + ms * 1000000 then (s, false)
  else
    let act := s.flag Reg.HM_CTL 1
    let s := ((s.bump Reg.HM_CNT_ALIVE_MISS).log (if act then 3 else 0) 0x90 hmId ms).raise hmPage 5
    ((s.updHealth (fun h => { h with missed := true })).healthUpd, act)

/-! ## Fencing elements (R419) -/

/-- Page of element `i` of a kind (0 tile, 1 core, 2 attention unit), none when there is none. -/
def elementPage (kind i : Nat) : Option Nat :=
  match kind with
  | 0 => if i < 160 then some (tilePage i) else none
  | 1 => if i < 96 then some (corePage i) else none
  | 2 => if i < 8 then some (auPage i) else none
  | _ => none

/-- Fence an element: a tile stops; a core's harts park and its launches are gone; a unit's sequences end FAULT. -/
def State.fenceElement (s : State) (kind i : Nat) : State :=
  match kind with
  | 0 => s.fenceTile i
  | 1 =>
    let s := ((s.harts.filter (fun (e : Nat × Hart) => e.1 / 512 == i)).map Prod.fst).foldl (fun (s : State) h => s.parkOnly h) s
    (s.updCore i (fun _ => {})).setFlag (corePage i + 0xC) 30 true
  | _ => (s.auClear i 5).setFlag (auPage i + 0xC) 30 true

/-- Unfence an element, which returns zeroed. -/
def State.unfenceElement (s : State) (kind i : Nat) : State :=
  match kind with
  | 0 => (((s.setTile i {}).setTileState i 0).zeroMem (tileWin i) 0x200000).setFlag (tilePage i + 0xC) 30 false
  | 1 => s.setFlag (corePage i + 0xC) 30 false
  | _ => (s.setFlag (Reg.AU_CTL i) 0 true).setFlag (auPage i + 0xC) 30 false

def State.fenceResult (s : State) (kind i r : Nat) : State :=
  (s.setFld Reg.FENCE_STS 1 0 r).log 2 0xA0 hmId (kind * 2 ^ 56 + i * 2 ^ 48 + r)

/-- A write of FENCE_CMD: KIND 3 does nothing and is not checked. -/
def State.fenceCmd (s : State) (req : Req) (v : Word) : State :=
  let kind := bits v 9 8
  let i := bits v 7 0
  if kind = 3 then s
  else s.keyed req Reg.FENCE_CMD v 0xFE4C (fun s =>
    match elementPage kind i with
    | none => s.fenceResult kind i 2
    | some p =>
      let fenced := s.flag (p + 0xC) 30
      if s.health.test.isSome then s.fenceResult kind i 2
      else if bit v 15 then
        (if fenced then (s.setFlag Reg.FENCE_STS 31 true).updHealth (fun h => { h with test := some (kind, i) }) else s.fenceResult kind i 2)
      else if fenced then s.fenceResult kind i 0
      else ((s.fenceElement kind i).raise hmPage 6).fenceResult kind i 0)

/-- The self-test ends. -/
def State.selfTest (s : State) (pass : Bool) : State :=
  match s.health.test with
  | none => s
  | some (kind, i) =>
    let s := (s.setFlag Reg.FENCE_STS 31 false).updHealth (fun h => { h with test := none })
    if pass then (s.unfenceElement kind i).fenceResult kind i 0 else s.fenceResult kind i 1

/-! ## The trigger of a device reset (R453, R456) -/

/-- The calendar, which every reset keeps: the timebase and its trims start again. -/
def Clk.kept (c : Clk) : Clk :=
  { calSec := c.calSec, calFrac := c.calFrac, calOn := c.calOn, calValid := c.calValid, backupLost := c.backupLost, trim := c.trim,
    trimNow := c.trimNow, period := c.period, setReq := c.setReq, calHi := c.calHi, calFr := c.calFr }

/-- A register that a device reset keeps: the always-on page but its lock and the pairs, the fault log page, the monitors, and the
register fields below. -/
def keptReg (a : Nat) : Bool :=
  (decide (0x4000 ≤ a) && decide (a < 0x5000) && a != 0x401C && !(decide (Reg.PAIR_TB_LO ≤ a) && decide (a ≤ Reg.PAIR_FRAC))) ||
  (decide (0x9000 ≤ a) && decide (a < 0xA000) && a != 0x901C) || (decide (Reg.TEMP_01 ≤ a) && decide (a < Reg.PROC_CFG))

/-- The fields of other registers that a device reset keeps: LOCK_LOSS, FORCE_PENDING, T_MAX, THROT and THERM_LATCH, the SAFE levels of
the pins, and the modules present. -/
def State.keptFields (s t : State) : State :=
  let t := t.wr Reg.CLK_STS (s.rd Reg.CLK_STS &&& 0xFFFF0000)
  let t := t.wr Reg.CFG_STS (s.rd Reg.CFG_STS &&& 0x20)
  let t := t.wr Reg.HM_STS (0x80000000 ||| (s.rd Reg.HM_STS &&& 0x1300FFFF))
  let t := (List.range 32).foldl (fun (t : State) i => t.setFld (Reg.PIN_CFG i) 31 30 (s.fld (Reg.PIN_CFG i) 31 30)) t
  (List.range 2).foldl (fun (t : State) n => t.setFlag (Reg.ETH_STS n) 30 (s.flag (Reg.ETH_STS n) 30)) t

/-- What is left of the state at the trigger of a device reset: host memory, the flash, the calendar, the always-on domain. -/
def State.kept (s : State) : State :=
  { pending := s.pending, free := s.free, mem := s.mem.filter (fun e => decide (hostBase ≤ e.1)), flash := s.flash,
    regs := s.regs.filter (fun e => keptReg e.1), clk := s.clk.kept, flogRing := s.flogRing, flogFlash := s.flogFlash, warden := s.warden,
    out := s.out, pins := { ir := s.pins.ir, boundary := s.pins.boundary },
    health := { samples := s.health.samples, since := s.health.since, cool := s.health.cool, shutdowns := s.health.shutdowns,
                rails := s.health.rails, warned := s.health.warned, load := s.health.load, erasing := s.health.erasing } }

/-- A device reset is triggered; one already in progress changes nothing (R456). A reset through AO_RST_CTL, cause 2, also clears
THERM_LATCH and both histories (R453). -/
def State.deviceReset (s : State) (cause : Nat) : State :=
  if s.emg.resetting then s
  else
    let t := s.keptFields s.kept
    let t := (t.setFlag Reg.AO_EMG_STS 31 false).setFld Reg.AO_EMG_STS 7 0 0
    let t := t.wr Reg.AO_RST_CAUSE (BitVec.ofNat 32 cause)
    let t := if cause = 2 then (t.setFlag Reg.HM_STS 28 false).updHealth (fun h => { h with shutdowns := [], rails := [] }) else t
    { t with emg := { powered := s.emg.powered, resetting := true, cause := some cause } }

/-- A write of AO_RST_CTL: HOST_RST_MODE is stored, and DEVICE with its key triggers a device reset (R54, R456). -/
def State.rstCtl (s : State) (req : Req) (v : Word) : State :=
  if bit v 0 = false then (s.store req Reg.AO_RST_CTL v).1
  else s.keyed req Reg.AO_RST_CTL v 0xD1A5 (fun s => s.storeThen req Reg.AO_RST_CTL v (fun s => s.deviceReset 2))

/-! ## The warden (R280) -/

/-- The warden's watchdog resets it alone. -/
def State.wardenWatchdog (s : State) : State :=
  ({ s with warden := { sram := s.warden.sram } } : State).log 0 0x41 (blkId 0x4000) s.warden.pc.toNat

/-- An access of the warden through the bridge gets no answer in 10 µs: a read of zero or a write with no effect, logged. -/
def State.wardenBridge (s : State) (write : Bool) (a : Nat) : State :=
  let s := s.log 0 0x40 (blkId 0x4000) (accessDetail reqWarden a)
  if write then s else s.emit (.read reqWarden a 0)

end Sys2Proof.Machine
end

