-- ==== Sys2Proof/Machine/Pins.lean ====
section
/-! DEFINITION. The general pins, the Schmitt inputs, the JTAG port and the alert output (18). -/
namespace Sys2Proof.Machine

def pinPage : Nat := 0xA000
def alertPage : Nat := 0xB000

def State.updPins (s : State) (f : Pins → Pins) : State := { s with pins := f s.pins }
def State.updAlert (s : State) (f : Alert → Alert) : State := { s with alert := f s.alert }

/-! ## General pins (R434 to R438, R445) -/

def State.pinFunc (s : State) (n : Nat) : Nat := s.fld (Reg.PIN_CFG n) 3 0
def State.pinInv (s : State) (n : Nat) : Bool := s.flag (Reg.PIN_CFG n) 27

/-- The level at pad n, as its Schmitt stage sees it. -/
def State.padLevel (s : State) (n : Nat) : Bool := s.flag Reg.GPIO_IN n != s.pinInv n

/-- GPIO_IN bit n changes: a watched pin sets its edge bit and raises GPIO_EDGE (R445). -/
def State.gpioIn (s : State) (n : Nat) (b : Bool) : State :=
  if s.flag Reg.GPIO_IN n = b then s
  else
    let s := s.setFlag Reg.GPIO_IN n b
    if s.flag Reg.GPIO_EDGE_EN n then (s.setFlag Reg.GPIO_EDGE_STS n true).raise pinPage 0 else s

/-- What drives a pad. -/
inductive Pad where
  | hiz | low | high | keeper (level : Bool) | func (k : Nat)
  deriving DecidableEq, Repr

def padOf (b : Bool) : Pad := if b then .high else .low

/-- The boundary-scan instruction in effect: EXTEST, CLAMP and HIGHZ act only in the safe state, and are BYPASS otherwise (R439). -/
def State.jtagActs (s : State) : JInstr :=
  match s.pins.ir with
  | .extest => if s.safe then .extest else .bypass
  | .clamp => if s.safe then .clamp else .bypass
  | .highz => if s.safe then .highz else .bypass
  | i => i

/-- The level of TB_PPS: high for the first 100 ms of each calendar second, by the calendar fraction (R435, log entry 76). -/
def State.pps (s : State) : Bool := decide (s.clk.calFrac.toNat < 6554)

/-- What general pin n drives: the boundary scan, the safe level, the hold's keeper, or its function; an open-drain output that is high
drives nothing. -/
def State.pad (s : State) (n : Nat) : Pad :=
  match s.jtagActs with
  | .highz => .hiz
  | .extest | .clamp => padOf (s.pins.boundary.getLsbD n)
  | _ =>
    if s.safe then
      (match s.fld (Reg.PIN_CFG n) 31 30 with
       | 0 => .hiz | 1 => .low | 2 => .high | _ => .keeper (s.padLevel n))
    else match s.pins.hold.look n with
      | some b => .keeper b
      | none =>
        let drive := fun (l : Bool) => if s.flag (Reg.PIN_CFG n) 26 && l then Pad.hiz else padOf l
        let f := s.pinFunc n
        if f = 0 ∨ (f = 1 ∧ 28 ≤ n) ∨ (f = 2 ∧ 8 ≤ n ∧ n < 28) then
          if s.flag Reg.GPIO_OE n then drive (s.flag Reg.GPIO_OUT n != s.pinInv n) else .hiz
        else if f = 2 ∧ n = 31 then drive s.pps
        else .func f

/-- After a change of what pin n drives, its Schmitt stage follows a driven pad, once emergence has ended (R437). -/
def State.pinSettle (s : State) (n : Nat) : State :=
  if s.ready = false then s
  else match s.pad n with
    | .low => s.gpioIn n (false != s.pinInv n)
    | .high => s.gpioIn n (true != s.pinInv n)
    | _ => s

def State.pinsSettle (s : State) : State := (List.range 32).foldl (fun (s : State) n => s.pinSettle n) s

/-- A tick of the calendar that meets the condition `b`, and what TB_PPS on pin 31 does at it (R435, R437). -/
def State.tickPins (s : State) (b : Bool) : State :=
  let t := s.calTickIf b
  if b ∧ t.pinFunc 31 = 2 then t.pinSettle 31 else t

/-- The pads and the alert stage follow a change of the safe-state latch: a hold under way ends with it (R438). -/
def State.safeSettle (s : State) : State := (s.updPins (fun x => { x with hold := [] })).pinsSettle

/-- A write of SAFE_CMD, with what follows for the pads. -/
def State.safeWrite (s : State) (req : Req) (v : Word) : State :=
  let t := s.safeCmd req v
  if t.safe = s.safe then t else t.safeSettle

/-- A write of PIN_CFGn (R436): a FUNC above 2 changes nothing in the register; a changed FUNC starts a hold, or restarts one under way
with the level it first held; a changed INV forces the Schmitt stage inactive (R437). -/
def State.pinCfg (s : State) (req : Req) (n : Nat) (v : Word) : State :=
  let f := s.pinFunc n
  let inv := s.pinInv n
  let level := s.padLevel n
  if 2 < bits v 3 0 then s
  else s.storeThen req (Reg.PIN_CFG n) v (fun s =>
    let s := if s.pinInv n = inv then s else s.gpioIn n false
    let s := if s.pinFunc n = f ∨ s.safe then s
             else s.updPins (fun x => { x with hold := x.hold.insert n ((x.hold.look n).getD level) })
    s.pinSettle n)

/-- The hold of pin n ends: its incoming function is connected. -/
def State.pinHoldEnd (s : State) (n : Nat) : State :=
  if (s.pins.hold.look n).isSome then (s.updPins (fun x => { x with hold := x.hold.erase n })).pinSettle n else s

/-- A write to GPIO_OUT, GPIO_OE, GPIO_SET or GPIO_CLR. -/
def State.gpioWrite (s : State) (a : Nat) (v : Word) : State :=
  (if a = Reg.GPIO_SET then s.wr Reg.GPIO_OUT (s.rd Reg.GPIO_OUT ||| v)
   else if a = Reg.GPIO_CLR then s.wr Reg.GPIO_OUT (s.rd Reg.GPIO_OUT &&& ~~~v)
   else s.wr a v).pinsSettle

/-- A Schmitt input crosses its threshold on its active or inactive side (R437): general pin i below 32, page-present input of port
i − 32. Before E7 has ended every stage is held inactive; a pad that the pin itself drives does not cross. -/
def State.inputCross (s : State) (i : Nat) (active : Bool) : State :=
  if s.ready = false then s
  else if i < 32 then
    (match s.pad i with
     | .low | .high => s
     | _ => s.gpioIn i active)
  else
    let p := i - 32
    if active then (if s.ppActive.contains p then s else { s with ppActive := p :: s.ppActive })
    else { s with ppActive := s.ppActive.filter (· ≠ p) }

/-- A write of PORT_CTL's polarity of the page-present input forces the stage inactive. -/
def State.ppForce (s : State) (p : Nat) : State := { s with ppActive := s.ppActive.filter (· ≠ p) }

/-! ## The alert stage (R440 to R444) -/

def State.alertMode (s : State) : Nat := let m := s.fld Reg.ALERT_CTL 1 0; if m = 3 then 0 else m

/-- The stage is enabled: no trip, no latched short, not in the safe state. -/
def State.stageOn (s : State) : Bool := !s.safe && !s.flag Reg.ALERT 31 && !s.flag Reg.ALERT 30

/-- π/2 × 2^96, rounded. -/
def halfPi : Nat := 124451306656115542615260972311

/-- Terms of the Taylor series of sin x, scaled by 2^96: `t` is the term of degree 2k − 1, and the sum so far is `acc`. -/
def sinSeries : Nat → Nat → Int → Int → Int → Int
  | 0, _, _, _, acc => acc
  | fuel + 1, k, x2, t, acc =>
    let t' := -(t * x2 / 2 ^ 96) / (((2 * k) * (2 * k + 1) : Nat) : Int)
    sinSeries fuel (k + 1) x2 t' (acc + t')

/-- round(32,767 × sin(2π × phase / 2^32)) (R441). -/
def sine (phase : Nat) : Int :=
  let q := phase / 2 ^ 30 % 4
  let r := phase % 2 ^ 30
  let u := if q % 2 = 0 then r else 2 ^ 30 - r
  let x : Int := ((u * halfPi / 2 ^ 30 : Nat) : Int)
  let v := sinSeries 24 1 (x * x / 2 ^ 96) x x
  let y := (32767 * v + 2 ^ 95) / 2 ^ 96
  if q < 2 then y else -y

/-- The tone generator's sample, before the cadence. -/
def State.toneSample (s : State) : Int :=
  if s.flag Reg.TONE_CFG 15 then (if bit s.alert.phase 31 then -32767 else 32767) else sine s.alert.phase.toNat

/-- s × VOL asr 8 (R440). -/
def State.scaled (s : State) (v : Int) : Int := v * (s.fld Reg.ALERT_CTL 17 9 : Int) / 256

/-- The stage plays a value, unless it is disabled. -/
def State.play (s : State) (v : Int) : State := if s.stageOn then s.emit (.tone (s.scaled v)) else s

/-- One sample (R441 to R443): the tone's phase and cadence, or the ring's pointer, advance whether or not the stage is enabled. -/
def State.alertSample (s : State) : State :=
  match s.alertMode with
  | 1 =>
    let on := s.fld Reg.TONE_CAD 31 16 * 48
    let all := on + s.fld Reg.TONE_CAD 15 0 * 48
    let c := if s.alert.cad < all then s.alert.cad else 0
    let v := if c < on then s.toneSample else 0
    let step := (s.fld Reg.TONE_CFG 14 0 * 2 ^ 33 + 48000) / 96000
    (s.play v).updAlert (fun x => { x with phase := x.phase + BitVec.ofNat 32 step, cad := c + 1 })
  | 2 =>
    let r := s.fld Reg.PCM_RPTR 19 0
    if r = s.fld Reg.PCM_WPTR 19 0 then
      let s := (s.play 0).bump Reg.ALERT_CNT_UNDERRUN
      if s.alert.empty then s else (s.updAlert (fun x => { x with empty := true })).raise alertPage 2
    else
      let a := s.alert.base + 2 * r
      let v := if s.canRead 0 a 2 = .ok then (leAt (s.ldUnit a 2).1 0 2, s) else (let f := s.fresh; (f.1.toNat % 65536, f.2))
      let s := (v.2.play (signed 16 v.1)).updAlert (fun x => { x with empty := false })
      s.setFld Reg.PCM_RPTR 19 0 (if r + 1 < s.alert.len then r + 1 else 0)
  | _ => s

/-- The ring may be placed: 64 to 524,288 samples, wholly in one commons slice or MEMORY way (R442). -/
def State.ringOk (s : State) : Bool :=
  let a := s.addr48 Reg.PCM_BASE_LO Reg.PCM_BASE_HI
  let n := s.fld Reg.PCM_LEN 19 0
  decide (64 ≤ n) && decide (n ≤ 524288) && decide (commonsBase ≤ a) && decide (a + 2 * n ≤ 0x001003800000) &&
  (a - commonsBase) / 0x100000 == (a + 2 * n - 1 - commonsBase) / 0x100000 && s.unitIsMem ((a - commonsBase) / 0x100000)

/-- A write of ALERT_CTL (R441, R442). -/
def State.alertCtl (s : State) (req : Req) (v : Word) : State :=
  let old := s.alertMode
  let new := if bits v 1 0 = 3 then 0 else bits v 1 0
  if new = 2 ∧ old ≠ 2 ∧ s.ringOk = false then s.setFlag Reg.ALERT 29 true
  else s.storeThen req Reg.ALERT_CTL v (fun s =>
    if new = 1 ∧ old ≠ 1 then s.updAlert (fun x => { x with cad := 0 })
    else if new = 2 ∧ old ≠ 2 then
      (((s.setFlag Reg.ALERT 29 false).wr Reg.PCM_RPTR 0).wr Reg.PCM_WPTR 0).updAlert (fun x =>
        { x with base := s.addr48 Reg.PCM_BASE_LO Reg.PCM_BASE_HI, len := s.fld Reg.PCM_LEN 19 0, empty := false })
    else s)

/-- An overcurrent: the stage trips; the third trip within 10 s of the first latches it off (R443). -/
def State.overcurrent (s : State) : State :=
  if s.stageOn = false then s
  else
    let l := s.now :: s.alert.trips.filter (fun t => decide (s.now ≤ t + 10000000000))
    let s := (s.bump Reg.ALERT_CNT_TRIPS).raise alertPage 0
    if 3 ≤ l.length then
      ((s.updAlert (fun x => { x with trips := l, retry := none })).setFlag Reg.ALERT 31 true).raise alertPage 1
    else (s.updAlert (fun x => { x with trips := l, retry := some (s.now + 200000000) })).setFlag Reg.ALERT 30 true

/-- The retry, 200 ms after a trip, and not before the safe state has ended (R443, R444). -/
def State.tripRetry (s : State) : State :=
  match s.alert.retry with
  | none => s
  | some t => if t ≤ s.now ∧ s.safe = false then (s.updAlert (fun x => { x with retry := none })).setFlag Reg.ALERT 30 false else s

/-- A keyed write of ALERT_CMD (R444). -/
def State.alertCmd (s : State) (req : Req) (v : Word) : State :=
  s.keyed req Reg.ALERT_CMD v 0xA1E7 (fun s =>
    if bit v 0 ∧ s.flag Reg.ALERT 31 then (s.updAlert (fun x => { x with trips := [] })).setFlag Reg.ALERT 31 false else s)

/-- ALERT as read: TRIPS counts the trips within the last 10 s. -/
def State.alertView (s : State) : Word :=
  putBits (s.rd Reg.ALERT) 1 0 (min 3 (s.alert.trips.filter (fun t => decide (s.now ≤ t + 10000000000))).length)

/-! ## JTAG (R439) -/

/-- The IDCODE word. -/
def idcode : Word := BitVec.ofNat 32 (2 ^ 28 + 0x9160 * 2 ^ 12 + Config.jep106.toNat * 2 + 1)

/-- The levels that the boundary register samples, cell by cell. -/
def State.boundaryNow (s : State) : BitVec 57 :=
  let pins := (List.range 32).map s.padLevel
  let ports := ((List.range 4).map (fun p =>
    let x := s.port p
    [x.strobe.testBit 0, x.strobe.testBit 1, x.strobe.testBit 2, x.step, x.dirOut, s.ppActive.contains p])).flatten
  BitVec.ofNat 57 ((pins ++ ports ++ [s.stageOn && s.alertMode != 0]).zipIdx.foldl (fun n (e : Bool × Nat) => n + ofBool e.1 * 2 ^ e.2) 0)

/-- An instruction becomes current; the pads follow. -/
def State.jtag (s : State) (i : JInstr) : State := (s.updPins (fun x => { x with ir := i })).pinsSettle

/-- IDCODE shifts out its 32 bits. -/
def State.jtagId (s : State) : State := (s.jtag .idcode).emit (.tdo idcode.toNat 32)

/-- BYPASS selects the one-bit bypass register, which shifts out a 0 first. -/
def State.jtagByp (s : State) : State := (s.jtag .bypass).emit (.tdo 0 1)

/-- SAMPLE/PRELOAD shifts out the sampled levels and loads the boundary register. -/
def State.jtagSample (s : State) (d : BitVec 57) : State :=
  let b := s.boundaryNow
  ((s.jtag .sample).emit (.tdo b.toNat 57)).updPins (fun x => { x with boundary := d })

/-- EXTEST drives the pads from the boundary register, samples them and loads it anew; outside the safe state it is BYPASS. -/
def State.jtagExtest (s : State) (d : BitVec 57) : State :=
  let s := s.jtag .extest
  if s.safe then
    let b := s.boundaryNow
    ((s.emit (.tdo b.toNat 57)).updPins (fun x => { x with boundary := d })).pinsSettle
  else s.emit (.tdo 0 1)

end Sys2Proof.Machine
end

