-- ==== Sys2Proof/Machine/Boot.lean ====
section
/-! DEFINITION. The configuration store (R50 to R53) and the end of emergence: FW_READY (R278) and step E7 (R46, R48). The steps E1 to
E6 stand in `Emergence`. -/
namespace Sys2Proof.Machine

def cfgPage : Nat := 0x5000

/-! ## The configuration store -/

/-- Flash offset of a bank: 0 A, 1 B. -/
def bankBase (k : Nat) : Nat := if k = 0 then 0 else 0x100000

/-- The entries of a record: BAR0 offset and value. -/
def entriesOf : Nat → Bytes → List (Nat × Word)
  | 0, _ => []
  | n + 1, b => (leAt b 0 4, BitVec.ofNat 32 (leAt b 4 4)) :: entriesOf n (b.drop 8)

/-- The record of bank k when it is valid (R51): its instar and entries. -/
def State.cfgRecord (s : State) (k : Nat) : Option (Nat × List (Nat × Word)) :=
  let h := s.fld8 (bankBase k) 32
  let n := leAt h 8 4
  if leAt h 0 4 ≠ 0x46435849 ∨ leAt h 12 4 ≠ s.famId ∨ 131067 < n ∨ zeroAt h 16 16 = false then none
  else
    let b := s.fld8 (bankBase k + 32) (8 * n + 4)
    let es := entriesOf n b
    if leAt b (8 * n) 4 = crc32c (h ++ b.take (8 * n)) ∧ es.all (fun (e : Nat × Word) => decide (e.1 % 4 = 0) && decide (e.1 ≤ 0x33FFFF)) then
      some (leAt h 4 4, es)
    else none

/-- The instar that a PROGRAM writes: one above the highest valid one, or 1. -/
def State.nextInstar (s : State) : Nat :=
  match s.cfgRecord 0, s.cfgRecord 1 with
  | none, none => 1
  | some a, none => a.1 + 1
  | none, some b => b.1 + 1
  | some a, some b => max a.1 b.1 + 1

/-- A record (R50): header, entries and check word. -/
def cfgBytes (instar n fam : Nat) (entries : Bytes) : Bytes :=
  let b := toLe 4 0x46435849 ++ toLe 4 instar ++ toLe 4 n ++ toLe 4 fam ++ zeros 16 ++ entries
  b ++ toLe 4 (crc32c b)

/-- The entries of a PROGRAM, none when they cannot be read as memory of this module. -/
def State.cfgEntries (s : State) (a n : Nat) : Option Bytes :=
  if n = 0 then some []
  else if (regBase ≤ a ∧ a < hostBase) ∨ s.canRead 0 a n ≠ .ok then none
  else some (s.ldUnit a n).1

/-- CFG_CMD.PROGRAM (R53): refused at once, or the target bank is erased and the record formed. -/
def State.cfgProgram (s : State) : State :=
  if s.flag Reg.CFG_STS 6 then s
  else
    let n := s.fld Reg.CFG_LEN 17 0
    let a := s.addr48 Reg.CFG_SRC_LO Reg.CFG_SRC_HI / 8 * 8
    let i := s.nextInstar
    if 131067 < n ∨ 0xFFFFFFFF < i ∨ inRange a (8 * n) = false then s.setFlag Reg.CFG_STS 7 true
    else
      let k := if s.flag Reg.CFG_STS 0 then 0 else if s.flag Reg.CFG_STS 1 then 0 else 1
      let r := (s.cfgEntries a (8 * n)).map (fun b => cfgBytes i n s.famId b)
      let s := (s.setFlag Reg.CFG_STS 7 false).setFlag Reg.CFG_STS 6 true
      (s.flashErase (bankBase k) 0x100000).updEmg (fun e => { e with prog := some (k, r) })

/-- A keyed write of CFG_CMD. -/
def State.cfgCmd (s : State) (req : Req) (v : Word) : State :=
  if bit v 0 = false ∧ bit v 1 = false then s
  else s.keyed req Reg.CFG_CMD v 0x1A57 (fun s =>
    let s := if bit v 1 then s.setFlag Reg.CFG_STS 5 true else s
    if bit v 0 then s.cfgProgram else s)

/-- Erasing, programming and read-back end; `good` says that the read-back matched (R53). -/
def State.cfgProgramDone (s : State) (good : Bool) : State :=
  match s.emg.prog with
  | none => s
  | some (k, r) =>
    let s := (s.updEmg (fun e => { e with prog := none })).setFlag Reg.CFG_STS 6 false
    match r with
    | some b => if good then s.flashProg (bankBase k) b else s.setFlag Reg.CFG_STS 7 true
    | none => s.setFlag Reg.CFG_STS 7 true

/-! ## Step E7 -/

/-- Whether register `a` holds an ENABLE in bit 0 that step E7 sets: PORT_CTL, ETH_CTL, KL_CTL, LINK_CTL, AU_CTL, TGU_CTL (R46, R48). -/
def enableReg (a : Nat) : Bool :=
  decide (a % 0x1000 = 0x40) &&
  (match pageAt a with
   | some .p0 | some .eth | some .kl | some .link | some .au | some .tgu => true
   | _ => false)

/-- A write of an ENABLE register by its address. -/
def State.enableWrite (s : State) (req : Req) (a : Nat) (v : Word) : State :=
  match pageAt a with
  | some .p0 => s.portCtl req ((a - 0x10000) / 0x4000) v
  | some .eth => s.ethCtl req ((a - 0x332000) / 0x1000) v
  | some .kl => s.klCtl req v
  | some .link => s.linkCtl req ((a - 0x321000) / 0x1000) v
  | some .au => s.auCtl req ((a - 0x201000) / 0x1000) v
  | some .tgu => s.tguCtl v
  | _ => s

/-- One unit is enabled as configured; a refusal leaves it disabled and is logged (R48). The spec gives the entry no code: a free one. -/
def State.enableOne (s : State) (a : Nat) : State :=
  let s := s.enableWrite reqWarden a (s.rd a ||| 1)
  if s.flag a 0 then s
  else
    let f := s.fresh
    f.2.log 0 (f.1.toNat % 65536) (blkId a) a

/-- Step E7: READY is set and the safe-state latch cleared (R46, R427), units are enabled as configured, and Kralon start-up begins
(R47). The enabling falls at the end of the step, so that a port's LINK_RESET passes the gates (log entry 22). -/
def State.finishEmergence (s : State) : State :=
  let es := s.emg.enables
  let s := s.updEmg (fun e => { e with enables := [], e6 := false, resetting := false })
  let s := (((s.setFld Reg.AO_EMG_STS 7 0 7).setFlag Reg.AO_EMG_STS 31 true).setFlag Reg.HM_STS 31 false).safeSettle
  (es.foldl (fun (s : State) a => s.enableOne a) s).klStart

/-! ## FW_READY (R278) -/

/-- FW_READY becomes 1: the firmware watchdog counts from now on (R422), and E6 ends. -/
def State.fwIsReady (s : State) : State :=
  let s := (s.updHealth (fun h => { h with aliveOn := true, aliveAt := s.now }))
  if s.emg.e6 then s.finishEmergence else s

/-- A write of TF_CTL. -/
def State.tfCtl (s : State) (req : Req) (v : Word) : State :=
  let was := s.flag Reg.TF_CTL 0
  s.storeThen req Reg.TF_CTL v (fun s => if was = false ∧ s.flag Reg.TF_CTL 0 then s.fwIsReady else s)

/-- The E6 bound passes without FW_READY: every hart is parked and emergence continues. -/
def State.fwTimeout (s : State) : State :=
  if s.emg.e6 then ((s.parkAll.setFlag Reg.TF_STS 30 true).log 2 0x12 (blkId tfPage) 1).finishEmergence else s

/-! ## Other registers whose writes have rules of their own -/

/-- EDGE_WIN: refused when X_MAX is below X_MIN + 63 or at or above PIXELS (05). -/
def State.edgeWin (s : State) (req : Req) (p : Nat) (v : Word) : State :=
  if bits v 29 16 < bits v 13 0 + 63 ∨ s.fld (Reg.PORT_FMT p) 14 0 ≤ bits v 29 16 then s.setFlag (Reg.FRAME_STS p) 31 true
  else (s.store req (Reg.EDGE_WIN p) v).1

/-- STRIPE_CFG, STRIPE_WIN, ZONE and RING registers: a write while the port is enabled is refused, but for one to STRIPE_CFG that
changes FULL_EVERY alone (R109). -/
def State.stripeReg (s : State) (req : Req) (p a : Nat) (v : Word) : State :=
  if s.portOn p ∧ (a ≠ Reg.STRIPE_CFG p ∨ (v ^^^ s.rd a) &&& 0xFF0071F3 ≠ 0) then s.setFlag (Reg.FRAME_STS p) 31 true
  else (s.store req a v).1

/-- FRAME_CTL: a MODE written while a face is open waits for it to end (R100); a PP_POL write changes the sense of the input. -/
def State.frameCtl (s : State) (req : Req) (p : Nat) (v : Word) : State :=
  let m := s.fld (Reg.FRAME_CTL p) 1 0
  let pol := s.flag (Reg.FRAME_CTL p) 9
  s.storeThen req (Reg.FRAME_CTL p) v (fun s =>
    let s := if (s.port p).fstate ≠ .face then s
      else s.updPort p (fun x => { x with modeHeld := some (x.modeHeld.getD m) })
    if s.flag (Reg.FRAME_CTL p) 9 = pol then s else s.ppForce p)

/-- A write to register `a` is no lock violation. -/
def State.accepts (s : State) (a : Nat) (v : Word) : Bool :=
  match defAt a with
  | some d => !s.violates a d v
  | none => false

/-- A register of a framing page; the next accepted write clears CFG_ERR. -/
def State.framePage (s : State) (req : Req) (p a : Nat) (v : Word) : State :=
  let r := a % 0x1000
  let s0 := if s.accepts a v then s.setFlag (Reg.FRAME_STS p) 31 false else s
  if a = Reg.EDGE_WIN p then s0.edgeWin req p v
  else if 0x5C ≤ r ∧ r ≤ 0x70 then s0.stripeReg req p a v
  else if a = Reg.FRAME_CTL p then s0.frameCtl req p v
  else if a = Reg.STEER_POST p then s0.steerPost p v
  else s0.plainWrite req a v

/-- A register of a conditioning page; weights and delays of a disabled port take effect at once (R67). -/
def State.condPage (s : State) (req : Req) (p a : Nat) (v : Word) : State :=
  if a = Reg.COND_CTL p then s.condCtl req p v
  else if a = Reg.COEF_CMD p then (if bit v 0 then s.coefLoad p else s)
  else
    let s := s.plainWrite req a v
    if s.portOn p then s
    else if a = Reg.P1_MIX p then s.takeMix p
    else if a = Reg.P1_DLY p ∨ a = Reg.DLY_BASE_LO p ∨ a = Reg.DLY_BASE_HI p then s.takeDly p
    else s

end Sys2Proof.Machine
end

