-- ==== Sys2Proof/Machine/Service.lean ====
section
/-! DEFINITION. Record assembly's end, destination descriptors and the hostless service with its management requests (12, R408). -/
namespace Sys2Proof.Machine

/-! ## Record assembly (R282) and destinations (R296) -/

/-- A write of ASM_DONE_HI: the item's record assembly is done, unless it is not open or done before. -/
def State.asmDone (s : State) (v : Word) : State :=
  let s := s.wr Reg.ASM_DONE_HI v
  let id := (s.rd Reg.ASM_DONE_LO).toNat + v.toNat * 2 ^ 32
  let stale := s.bump Reg.TF_CNT_ASM_STALE
  match s.item id with
  | none => stale
  | some it => if it.shadow.isSome ∨ it.done.getLsbD 4 then stale else s.stageDone id 4

/-- The 64 bytes of a descriptor. -/
def destDesc (b : Bytes) : Dest :=
  { kind := byteAt b 0, classes := byteAt b 1, copies := byteAt b 2, net := byteAt b 3, func := leAt b 4 2, queue := leAt b 6 2,
    lport := leAt b 8 2, rport := leAt b 10 2, maxSeg := leAt b 12 2, vlan := leAt b 14 2, mac := beNat ((b.drop 16).take 6),
    addr := (b.drop 24).take 16 }

/-- Every field that the KIND uses is in range (R296, R406, R407). -/
def State.destOk (s : State) (b : Bytes) : Bool :=
  let D := destDesc b
  let n := D.net % 2
  let v4 := zeroAt b 24 10 && byteAt b 34 == 0xFF && byteAt b 35 == 0xFF
  zeroAt b 22 2 && zeroAt b 40 24 && decide (D.kind ≤ 3) &&
  (match D.kind with
   | 0 => true
   | 1 => decide (D.classes < 16) && (decide (D.func ≤ 128) || D.func == 0xFFFF) && decide (D.queue < 16) && (s.recQueueOf D).isSome
   | k =>
     decide (D.classes < 16) && decide (1 ≤ D.copies) && decide (D.copies ≤ 3) && D.net / 2 % 2 == 0 && D.rport != 0 &&
     decide (256 ≤ D.maxSeg) && decide (D.maxSeg ≤ 8960) &&
     (D.vlan == 0 || (D.vlan / 4096 % 2 == 0 && decide (1 ≤ D.vlan % 4096) && decide (D.vlan % 4096 ≤ 4094))) &&
     (if k = 2 then v4 else !v4) && decide (D.maxSeg + (if k = 2 then 60 else 80) ≤ s.fld (Reg.ETH_CTL n) 29 16) &&
     (s.sourceAddr n (D.vlan % 4096) (decide (k = 3))).isSome)

/-- Load descriptor d. -/
def State.destLoad1 (s : State) (d : Nat) : State :=
  let a := s.addr48 Reg.DEST_BASE_LO Reg.DEST_BASE_HI + 64 * d
  let r := s.ldUnit a 64
  let ok := inCommons a 64 && decide (s.canRead 0 a 64 = .ok) && s.destOk r.1
  let s := r.2
  if ok then
    let D := destDesc r.1
    (({ s with dests := s.dests.set {} d (if D.kind = 0 then {} else D) } : State).setFlag Reg.REC_STS d (D.kind != 0)).setFlag Reg.REC_STS (24 + d) false
  else (s.setFlag Reg.REC_STS (24 + d) true).raise 0x7000 2

/-- A write of DEST_CMD. -/
def State.destLoad (s : State) (v : Word) : State :=
  (List.range 8).foldl (fun (s : State) d => if bit v d then s.destLoad1 d else s) s

/-! ## CBOR items (R304, R408) -/

/-- A CBOR data item of the kinds that configurations and requests use; `raw` holds its own encoding. -/
inductive Cbor where
  | uint (n : Nat)
  | bytes (b : Bytes)
  | text (b : Bytes)
  | arr (l : List Cbor)
  | map (l : List (Cbor × Cbor))
  | bool (b : Bool)
  deriving Repr

/-- The head of an item: major type, argument, and the rest. Indefinite lengths are not accepted. -/
def cborTake (b : Bytes) : Option (Nat × Nat × Bytes) :=
  match b with
  | [] => none
  | h :: t =>
    let m := h.toNat / 32
    let n := h.toNat % 32
    let k := if n < 24 then 0 else if n = 24 then 1 else if n = 25 then 2 else if n = 26 then 4 else if n = 27 then 8 else 99
    if k = 99 ∨ t.length < k then none else some (m, if k = 0 then n else beNat (t.take k), t.drop k)

/-- Parse work: one item, or `n` items. `fuel` bounds the bytes. -/
def cborItems : Nat → Nat → Bytes → Option (List Cbor × Bytes)
  | 0, n, b => if n = 0 then some ([], b) else none
  | fuel + 1, n, b =>
    if n = 0 then some ([], b)
    else match cborTake b with
      | none => none
      | some (m, v, t) =>
        let one : Option (Cbor × Bytes) :=
          match m with
          | 0 => some (.uint v, t)
          | 2 => if v ≤ t.length then some (.bytes (t.take v), t.drop v) else none
          | 3 => if v ≤ t.length then some (.text (t.take v), t.drop v) else none
          | 4 => (cborItems fuel v t).map (fun r => (.arr r.1, r.2))
          | 5 => (cborItems fuel (2 * v) t).map (fun r =>
              (.map ((List.range v).filterMap (fun i => match r.1.drop (2 * i) with
                | a :: c :: _ => some (a, c)
                | _ => none)), r.2))
          | 7 => if v = 20 then some (.bool false, t) else if v = 21 then some (.bool true, t) else none
          | _ => none
        match one with
        | none => none
        | some (x, t) => (cborItems fuel (n - 1) t).map (fun r => (x :: r.1, r.2))

/-- A whole byte string as one item. -/
def cborParse (b : Bytes) : Option Cbor :=
  match cborItems (2 * b.length + 2) 1 b with
  | some ([x], []) => some x
  | _ => none

def Cbor.nat? : Cbor → Option Nat
  | .uint n => some n
  | _ => none

def Cbor.isText : Cbor → Bool
  | .text _ => true
  | _ => false

def Cbor.isBool : Cbor → Bool
  | .bool _ => true
  | _ => false

def Cbor.elems : Cbor → Option (List Cbor)
  | .arr l => some l
  | _ => none

/-- The value of an integer key of a map. -/
def Cbor.key (c : Cbor) (k : Nat) : Option Cbor :=
  match c with
  | .map l => (l.find? (fun e => e.1.nat? == some k)).map Prod.snd
  | _ => none

/-- A map whose keys are integers from 1 to n, each once. -/
def Cbor.keysTo (c : Cbor) (n : Nat) : Bool :=
  match c with
  | .map l =>
    let ks := l.map (fun e => e.1.nat?)
    ks.all (fun k => match k with | some k => decide (1 ≤ k) && decide (k ≤ n) | none => false) && decide (ks.eraseDups.length = ks.length)
  | _ => false

def Cbor.natBelow (c : Cbor) (k n : Nat) : Bool :=
  match c.key k with
  | some (.uint v) => decide (v < n)
  | _ => false

def Cbor.has (c : Cbor) (k : Nat) (p : Cbor → Bool) : Bool := match c.key k with | some v => p v | none => false
def Cbor.opt (c : Cbor) (k : Nat) (p : Cbor → Bool) : Bool := match c.key k with | some v => p v | none => true

def Cbor.isBytes (n : Nat) : Cbor → Bool
  | .bytes b => b.length == n
  | _ => false

/-- An array whose elements all satisfy p. -/
def Cbor.allOf (p : Cbor → Bool) : Cbor → Bool
  | .arr l => l.all p
  | _ => false

/-! ## The service configuration (R303, R304) -/

/-- The configuration map is valid: no unknown key, no value out of range. -/
def configOk (c : Cbor) : Bool :=
  c.keysTo 9 &&
  c.opt 1 (Cbor.allOf (fun x => x.keysTo 3 && x.has 1 Cbor.isText && x.has 2 (Cbor.isBytes 32) && x.has 3 (fun v => v.nat?.isSome))) &&
  c.opt 2 (Cbor.allOf (fun x => x.keysTo 6 && x.natBelow 1 1024 && x.has 2 Cbor.isText && x.opt 3 Cbor.isText && x.opt 4 Cbor.isText &&
    x.opt 5 Cbor.isBool && x.natBelow 6 64)) &&
  c.opt 3 (Cbor.allOf (fun x => x.keysTo 2 && x.natBelow 1 4 && x.natBelow 2 64)) &&
  c.opt 4 (Cbor.isBytes 512) && c.opt 5 (Cbor.isBytes 64) &&
  c.opt 6 (Cbor.allOf (fun x => x.keysTo 3 && x.has 1 Cbor.isText && x.natBelow 2 65536 && x.natBelow 3 2)) &&
  c.opt 7 (fun v => match v with | .uint n => decide (n ≤ 600) | _ => false) &&
  c.opt 8 (fun v => match v with | .uint n => decide (100 ≤ n) && decide (n ≤ 60000) | _ => false) &&
  c.opt 9 (fun v => match v with | .arr l => l.length == 3 && l.all (fun x => x.nat?.isSome) | _ => false)

/-- Flash offset of service bank k. -/
def svcBank (k : Nat) : Nat := 0x03C00000 + 0x100000 * k

/-- GEN and map of service bank k, when its header and map are valid (R303). -/
def State.svcBank? (s : State) (k : Nat) : Option (Nat × Cbor) :=
  let h := s.fld8 (svcBank k) 16
  let n := leAt h 8 4
  if leAt h 0 4 ≠ 0x56535849 ∨ 0x100000 - 16 < n then none
  else
    let b := s.fld8 (svcBank k + 16) n
    if leAt h 12 4 ≠ crc32c (h.take 12 ++ b) then none
    else match cborParse b with
      | none => none
      | some c => if configOk c then some (leAt h 4 4, c) else none

/-- The bank in use: the valid one of higher GEN, the first when equal. -/
def State.svcChoice (s : State) : Option (Nat × Nat × Cbor) :=
  match s.svcBank? 0, s.svcBank? 1 with
  | none, none => none
  | some x, none => some (0, x)
  | none, some y => some (1, y)
  | some x, some y => if x.1 < y.1 then some (1, y) else some (0, x)

/-- Items opened, DEFAULTED and PARTIAL records since emergence (R295). -/
def State.svcCounts (s : State) : List Nat :=
  [((s.nextSeq.map Prod.snd).foldl (· + ·) 0) - (s.rd Reg.GT_CNT_NOT_OPENED).toNat, (s.rd Reg.GT_CNT_DEFAULTED).toNat, (s.rd Reg.GT_CNT_PARTIAL).toNat]

def State.updSvc (s : State) (f : Svc → Svc) : State := { s with svc := f s.svc }

/-- H1: what the service takes from its configuration. -/
def Svc.load (gen : Nat) (c : Cbor) (base : List Nat) (now : Nat) : Svc :=
  let l := fun (k : Nat) => ((c.key k).bind Cbor.elems).getD []
  let n := fun (x : Cbor) (k : Nat) => ((x.key k).bind Cbor.nat?).getD 0
  let b := fun (k : Nat) => match c.key k with | some (.bytes b) => b | _ => []
  { state := .starting, gen := gen, streams := (l 2).map (fun x => n x 1), ports := (l 3).map (fun x => (n x 1, n x 2)), dests := b 4,
    masks := b 5, statusMs := ((c.key 8).bind Cbor.nat?).getD 1000, base := base, statusAt := now }

/-- H6: profile masks and destination descriptors are loaded, the line ports take their profiles and are enabled. What H4 and H5 load is
listed in the deployment manifest, and the firmware does it with the commands of those chapters. -/
def State.svcFinish (s : State) : State :=
  let c := s.svc
  let s := (List.range (c.masks.length / 4)).foldl (fun (s : State) i => s.wr (Reg.PROF_DMASK i) (BitVec.ofNat 32 (leAt c.masks (4 * i) 4))) s
  let a := s.addr48 Reg.DEST_BASE_LO Reg.DEST_BASE_HI
  let s := if c.dests = [] ∨ inCommons a 512 = false then s else (s.stUnit a c.dests).destLoad 0xFF
  let s := c.ports.foldl (fun (s : State) e =>
    s.portCtl (reqHart 0) e.1 (putBits (s.rd (Reg.PORT_CTL e.1)) 21 16 e.2 ||| 1)) s
  s.updSvc (fun c => { c with state := .running, fetchAt := none })

/-- H1 to H6 (R305). `fetched` says that every bundle of H3 arrived with its size and digest; otherwise the fetch is tried again. -/
def State.svcStart (s : State) (fetched : Bool) : State :=
  match s.svcChoice with
  | none => s.updSvc (fun c => { c with state := .off, fetchAt := none })
  | some (_, gen, c) =>
    let s := { s with svc := Svc.load gen c s.svcCounts s.now }
    if fetched then s.svcFinish else s.updSvc (fun c => { c with fetchAt := some s.now })

/-- SERVICE_START: the service starts when the firmware is ready and it is OFF. -/
def State.serviceStart (s : State) (fetched : Bool) : State :=
  if s.flag Reg.TF_CTL 0 ∧ s.svc.state = .off then s.svcStart fetched else s

/-- A failed fetch is repeated after 5 s. -/
def State.bundleRetry (s : State) (fetched : Bool) : State :=
  match s.svc.fetchAt with
  | none => s
  | some t =>
    if s.now < t + 5000000000 then s
    else if fetched then s.svcFinish else s.updSvc (fun c => { c with fetchAt := some s.now })

/-- A configured stream runs: its context is enabled and not lost. -/
def State.streamRuns (s : State) (c : Nat) : Bool := let x := s.ctxs.get {} c; x.on && !x.lost

/-- The service state as records carry it (R305). -/
def State.svcCode (s : State) : Nat :=
  match s.svc.state with
  | .off => 0
  | .starting => 1
  | .running => if s.svc.streams.all s.streamRuns && s.svc.ports.all (fun (e : Nat × Nat) => s.portOn e.1) then 2 else 3

/-- A status record (R295). -/
def State.statusBytes (s : State) : Bytes :=
  let d := fun (i : Nat) => ((s.svcCounts.drop i).headD 0 + 2 ^ 32 - (s.svc.base.drop i).headD 0) % 2 ^ 32
  cborMap [(0, cborUint 7), (1, cborUint Config.serial.toNat), (2, cborUint s.svcCode), (3, cborUint s.now), (4, s.cborCal s.now),
           (5, cborUint s.svc.gen), (6, cborUint (d 0)), (7, cborUint (d 1)), (8, cborUint (d 2))]

/-- A status record is due every STATUS_MS from H1 on. -/
def State.statusRecord (s : State) : State :=
  if s.svc.state ≠ .off ∧ s.svc.statusAt + s.svc.statusMs * 1000000 ≤ s.now then
    (s.post 255 { cls := .status, item := 0, order := s.now, bytes := s.statusBytes }).updSvc (fun c => { c with statusAt := s.now })
  else s

/-- A lost stream of the configuration is set up again after 1 s, then 2, 4 and so on up to 60 s; the wait returns to 1 s once it runs. -/
def State.streamSetup (s : State) (c : Nat) : State :=
  if s.svc.state = .off ∨ s.svc.streams.contains c = false then s
  else if s.streamRuns c then s.updSvc (fun x => { x with setups := x.setups.erase c })
  else
    let e := (s.svc.setups.look c).getD (1, (s.ctxs.get {} c).heard + 1000000000)
    if s.now < e.2 then s
    else
      let w := min 60 (2 * e.1)
      s.updSvc (fun x => { x with setups := x.setups.insert c (w, s.now + w * 1000000000) })

/-! ## Management requests (R408) -/

/-- The encoding of the value of key 3 of a request map: what follows the key, which the deterministic order puts last. -/
def bodyBytes (b : Bytes) : Bytes :=
  match cborTake b with
  | some (5, n, t) =>
    match cborItems (2 * b.length + 2) (2 * n - 1) t with
    | some (_, rest) => rest
    | none => []
  | _ => []

/-- Write a new configuration to the bank not in use, with GEN one higher (R303). -/
def State.putConfig (s : State) (body : Bytes) : State :=
  let cur := s.svcChoice
  let k := match cur with | some (0, _) => 1 | _ => 0
  let gen := match cur with | some (_, g, _) => g + 1 | none => 1
  let h := toLe 4 0x56535849 ++ toLe 4 gen ++ toLe 4 body.length
  (s.flashErase (svcBank k) 0x100000).flashProg (svcBank k) (h ++ toLe 4 (crc32c (h ++ body)) ++ body)

/-- Perform a request: the state and the response. `udp` refuses bodies above 65,000 bytes; `fetched` is as in `svcStart`. -/
def State.manage (s : State) (b : Bytes) (udp fetched : Bool) : State × Bytes :=
  let answer := fun (op n r : Nat) => cborMap [(1, cborUint op), (2, cborUint n), (3, cborUint r)]
  match cborParse b with
  | none => (s, answer 0 0 1)
  | some c =>
    let op := ((c.key 1).bind Cbor.nat?).getD 0
    let n := ((c.key 2).bind Cbor.nat?).getD 0
    if c.keysTo 3 = false then (s, answer op n 1)
    else match op with
      | 1 => (s, s.statusBytes)
      | 2 =>
        let body := bodyBytes b
        let ok : Bool := match c.key 3 with
          | some x => configOk x && decide (body.length ≤ 0x100000 - 16)
          | none => false
        if ok = false ∨ (udp ∧ 65000 < body.length) then (s, answer op n 1) else (s.putConfig body, answer op n 0)
      | 3 => (s.svcStart fetched, answer op n 0)
      | _ => (s, answer op n 1)

/-- The MGMT command of queue g. -/
def State.effMgmt (s : State) (fetched : Bool) (q : Queue) (b : Bytes) : State × St × Nat :=
  let src := leAt b 0 8
  let n := leAt b 8 4
  let dst := leAt b 24 8
  let cap := leAt b 32 4
  if zeroAt b 12 4 = false ∨ zeroAt b 18 2 = false ∨ zeroAt b 36 28 = false then (s, .badCmd, 0)
  else match s.memStop q src n false with
    | some e => (s, e, 0)
    | none =>
      let r := s.ldUnit src n
      let m := r.2.manage r.1 false fetched
      if cap < m.2.length then (m.1, .tooBig, 0)
      else match m.1.memStop q dst m.2.length true with
        | some e => (m.1, e, 0)
        | none => (m.1.stUnit dst m.2, .ok, m.2.length)

/-- A management datagram that arrives on port n (R408): it must be for MGMT_PORT, on an enabled interface of its VLAN whose MGMT bit is 1;
the answer goes to its source. -/
def State.mgmtFrame (s : State) (n : Nat) (frame : Bytes) (fetched : Bool) : State :=
  let f := frameOf frame
  match s.ifOf n f.1, udpOf f.2.2.1 f.2.2.2 with
  | some i, some u =>
    if s.flag (bank i (Reg.IF_CTL n)) 30 = false ∨ u.2.2.1 ≠ s.fld (Reg.MGMT_PORT n) 15 0 ∨ s.flag (Reg.ETH_STS n) 31 = false then s
    else
      let m := s.manage u.2.2.2 true fetched
      let v6 := f.2.2.1 == 0x86DD
      let p := f.2.2.2
      (m.1.emit (.udp { port := n, dmac := beNat ((frame.drop 6).take 6), vlan := f.1, v6 := v6,
                        src := if v6 then (p.drop 24).take 16 else (p.drop 16).take 4, dst := if v6 then u.1 else u.1.drop 12, dscp := 0,
                        ttl := 64, df := !v6, sport := u.2.2.1, dport := u.2.1, payload := m.2 })).bump (Reg.ETH_CNT_TX_FRAMES n)
  | _, _ => s

end Sys2Proof.Machine
end

