-- ==== Sys2Proof/Machine/RegBus.lean ====
section
/-! DEFINITION. The register space (03, 19): what a read of a register returns, where a write goes, and accesses of every width by any
requester. -/
namespace Sys2Proof.Machine

/-! ## What reads return -/

/-- A SerDes PLL group runs while a unit of its group is enabled and the regulators are on (R455); a running PLL holds lock. -/
def State.groupOn (s : State) (l : List Nat) : Bool :=
  l.any (fun a => s.flag a 0) && s.health.handling != some .thermal && s.health.handling != some .rail

/-- CLK_STS as read. -/
def State.clkView (s : State) : Word :=
  putBit (putBit (putBit (s.rd Reg.CLK_STS) 1 (s.groupOn ((List.range 4).map Reg.PORT_CTL)))
    3 (s.groupOn ((List.range 2).map Reg.ETH_CTL))) 4 (s.groupOn ((List.range 8).map Reg.LINK_CTL))

/-- AO_CAL_CTL and AO_CAL_STS as read. -/
def State.calView (s : State) (a : Nat) : Word :=
  if a = Reg.AO_CAL_CTL then s.clk.trim.setWidth 32 else BitVec.ofNat 32 (ofBool s.clk.backupLost * 2 + ofBool s.clk.calValid)

/-- FRAME_STS as read: items with stripes not yet handed, and the framing state. -/
def State.frameView (s : State) (p : Nat) : Word :=
  let x := s.port p
  let st := match x.fstate with
    | .search => 0
    | .face => 1
    | .waitGap => 2
  putBits (putBits (s.rd (Reg.FRAME_STS p)) 15 8 (min 255 (x.faces.filter (fun f => !f.aborted)).length)) 1 0 st

/-- The enabled contexts. -/
def State.ctxOn (s : State) : List Ctx := (s.ctxs.filter (fun (e : Nat × Ctx) => cfgBits e.2.cfg 0 31 31 == 1)).map Prod.snd

/-- DEC_BUDGET and SIN_STS as read (R115). -/
def State.sinView (s : State) (a : Nat) : Word :=
  if a = Reg.DEC_BUDGET then putBits (s.rd a) 31 16 (min 65535 (ceilDiv ((s.ctxOn.map (fun c => cfgRate c.cfg)).sum) 1000000))
  else if a = Reg.SIN_STS then
    let n := (s.ctxs.map (fun (e : Nat × Ctx) => (e.2.espots.filter (fun (x : Nat × Espot) => x.2.st != .free)).length)).sum
    BitVec.ofNat 32 (n * 65536 + s.ctxOn.length)
  else s.rd a

/-- The sequencer of tile t waits: its next instruction can neither be dispatched nor executed now. -/
def State.tileWaits (s : State) (t : Nat) : Bool :=
  s.tileState t == 1 && !s.tileFenced t && !(s.tile t).stopping &&
  (let r := s.tileInstr t (byteAt (s.tld t (s.tpc t) 64) 0)
   r.tpc t == s.tpc t && r.trs t == s.trs t && r.tileState t == 1 && !(r.tile t).stopping)

/-- TILE_STS as read. -/
def State.tileView (s : State) (t a : Nat) : Word :=
  if a = Reg.TILE_STS t then
    let x := s.tile t
    let busy := (List.range 5).foldl (fun n i => n + ofBool (x.pend.any (fun p => p.unit == unitNo i)) * 2 ^ i) 0
    putBits (putBits (s.rd a) 22 16 x.queue.length) 5 0 (busy + ofBool (s.tileWaits t) * 32)
  else if a = Reg.DET_DONE_LO t ∨ a = Reg.DET_DONE_HI t then 0
  else s.rd a

/-- BLK_STS.PENDING of the page at `p` (R67). -/
def State.pagePending (s : State) (p : Nat) : Bool :=
  s.pendingAt p ||
  (match pageAt p with
   | some .p1 => (s.port ((p - 0x10000) / 0x4000)).swapReq
   | some .p3 => (s.port ((p - 0x10000) / 0x4000)).modeHeld.isSome
   | some .ao => s.clk.trim != s.clk.trimNow
   | _ => false)

/-- The common registers of a page (R55). -/
def State.commonView (s : State) (o : Nat) : Word :=
  let r := o % 0x1000
  if r = 0x0C then putBit (s.rd o) 31 (s.pagePending (o - r))
  else if r = 0x18 then 0
  else if r = 0x20 then s.rd 0x6020
  else if 0x20 < r then 0
  else s.rd o

/-- The value that a read of the register at BAR0 offset `o` by `req` returns, where the read itself changes nothing. -/
def State.regView (s : State) (req : Req) (o : Nat) : Word :=
  if o % 0x1000 < 0x40 then s.commonView o
  else match pageAt o with
    | some .gt => if o = Reg.GT_STS then putBits (s.rd o) 16 0 s.items.length else s.rd o
    | some .clk =>
      if o = Reg.CLK_STS then s.clkView
      else if o = Reg.TB_HI then s.clk.tbHi.get 0 (latchKey req)
      else if o = Reg.TB_RATE then s.clk.rate
      else if o = Reg.TB_SLEW then s.clk.slew
      else s.rd o
    | some .ao =>
      if o = Reg.CAL_SEC_HI then s.clk.calHi.get 0 (latchKey req)
      else if o = Reg.CAL_FRAC then (s.clk.calFr.get 0 (latchKey req)).setWidth 32
      else if o = Reg.AO_CAL_CTL ∨ o = Reg.AO_CAL_STS then s.calView o
      else s.rd o
    | some .alert => if o = Reg.ALERT then s.alertView else s.rd o
    | some .p3 => if o % 0x1000 = 0x74 then s.frameView ((o - 0x10000) / 0x4000) else s.rd o
    | some .sin => s.sinView o
    | some .tile => s.tileView ((o - 0x100000) / 0x1000) o
    | some .seqc => if o = Reg.SEQ_STS then putBits (s.rd o) 14 0 s.seqs.length else s.rd o
    | some .au => s.auView ((o - 0x201000) / 0x1000) o
    | some .tgu => if o = Reg.GRM_DONE_LO ∨ o = Reg.GRM_DONE_HI then 0 else s.tguView o
    | some .tf => if o = Reg.ASM_DONE_LO ∨ o = Reg.ASM_DONE_HI then 0 else s.tfView o
    | some .core => s.tfView o
    | some .mc => if o = Reg.MC_STS ∨ o = Reg.PORT_TGT then s.mcView o else s.rd o
    | some .frz => if o = Reg.FRZ_SEL then s.rd o else s.mcView o
    | some .part => s.partView ((o - 0x311000) / 0x1000) o
    | some .hp => if o = Reg.HP_STS then s.hpView else s.rd o
    | some .qp => if o = Reg.QUEUE_STATE then s.queueView else s.rd o
    | _ => s.rd (s.winKey o)

/-- A read in the snapshot mirror of the register at `o` (R71). -/
def State.mirrorView (s : State) (o : Nat) : Word :=
  if isCounter o then s.shadow.get 0 o
  else if o % 0x1000 = 0x20 ∧ (pageAt o).isSome then s.rd 0x6020
  else 0

/-- One 32-bit read (R39, R44, R57, R71). -/
def State.busRead (s : State) (req : Req) (o : Nat) : Word × State :=
  if 0x2000000 ≤ o ∧ o < 0x2340000 then (s.mirrorView (o - 0x2000000), s)
  else if (pageAt o).isNone then (0, s.unmapped req o)
  else if o = Reg.TB_LO then s.tbLo req
  else if o = Reg.CAL_SEC_LO then s.calLo req
  else (s.regView req o, s)

/-! ## Where writes go -/

/-- System pages: gate timer, clock, always-on, configuration store, events. -/
def State.sysWrite (s : State) (req : Req) (o : Nat) (v : Word) : State :=
  if o = Reg.GT_PROF_SEL then s.profSel req v
  else if o = Reg.TB_RATE then s.tbRate v
  else if o = Reg.TB_SLEW then s.tbSlew v
  else if o = Reg.AO_RST_CTL then s.rstCtl req v
  else if o = Reg.AO_CAL_CTL then s.calCtl v
  else if o = Reg.CFG_CMD then s.cfgCmd req v
  else if o = Reg.SNAP_AT_HI then s.snapArm v
  else if o = Reg.SNAP_CTL then s.snapCtl v
  else if o = Reg.EVT_CHAN_CFG then s.chanCfgWrite v
  else if o = Reg.DEST_CMD then s.destLoad v
  else s.plainWrite req o v

/-- Health, fault log, pins and alert pages. A keyed register whose command field is zero is not checked (R54). -/
def State.careWrite (s : State) (req : Req) (o : Nat) (v : Word) : State :=
  if o = Reg.HM_CTL then s.hmCtl req v
  else if o = Reg.HM_ALIVE then s.alive
  else if o = Reg.SAFE_CMD then (if bits v 1 0 = 0 then s else s.safeWrite req v)
  else if o = Reg.FENCE_CMD then s.fenceCmd req v
  else if o = Reg.FLOG_SEL then s.flogSelect v
  else if o = Reg.FLOG_CMD then (if bit v 0 then s.flogCmd req v else s)
  else if 0xA040 ≤ o ∧ o < 0xA0C0 then s.pinCfg req ((o - 0xA040) / 4) v
  else if o = Reg.GPIO_OUT ∨ o = Reg.GPIO_OE ∨ o = Reg.GPIO_SET ∨ o = Reg.GPIO_CLR then s.gpioWrite o v
  else if o = Reg.ALERT_CTL then s.alertCtl req v
  else if o = Reg.ALERT_CMD then (if bit v 0 then s.alertCmd req v else s)
  else s.plainWrite req o v

/-- The pages of port p. -/
def State.portPages (s : State) (req : Req) (k : PageKind) (p o : Nat) (v : Word) : State :=
  match k with
  | .p0 =>
    if o = Reg.PORT_CTL p then s.portCtl req p v
    else if o = Reg.PORT_FMT p then s.portFmt req p v
    else if o = Reg.TIMING_CTL p then (let t := s.plainWrite req o v; if bit v 0 then t.apply p else t)
    else if o = Reg.REG_CMD p then (if bit v 0 then s.regGo p (bit v 1) else s)
    else s.plainWrite req o v
  | .p1 => s.condPage req p o v
  | .p2 =>
    if o = Reg.ARCH_LINES p then s.archLines req p v
    else if o = Reg.P2_CAL_CTL p then s.calStart req p v
    else s.plainWrite req o v
  | _ => s.framePage req p o v

/-- The page of tile t. -/
def State.tilePageWrite (s : State) (req : Req) (t o : Nat) (v : Word) : State :=
  if o = Reg.TILE_CTL t then s.tileCtl t v
  else if o = Reg.TILE_SEM_POST t then s.tilePost t (s.tpc t) (bits v 3 0)
  else if o = Reg.DET_DONE_LO t then s.wr o v
  else if o = Reg.DET_DONE_HI t then s.detDone t v
  else s.plainWrite req o v

/-- The page of attention unit u. -/
def State.auPageWrite (s : State) (req : Req) (u o : Nat) (v : Word) : State :=
  if o = Reg.AU_CTL u then s.auCtl req u v
  else if Reg.POOL0_BASE_LO u ≤ o ∧ o ≤ Reg.PFX_BUCKETS u then s.auRegion req u o v
  else if Reg.AU_SEM_01 u ≤ o ∧ o ≤ Reg.AU_SEM_1415 u then s.auSemWrite req u o v
  else if o = Reg.AU_SEM_POST u then s.auPost u (bits v 3 0)
  else s.plainWrite req o v

/-- The TGU page. -/
def State.tguPageWrite (s : State) (req : Req) (o : Nat) (v : Word) : State :=
  if o = Reg.TGU_CTL then s.tguCtl v
  else if Reg.CTX_BASE_LO ≤ o ∧ o ≤ Reg.GCACHE_KB then s.tguRegion req o v
  else if o = Reg.GRM_DONE_LO then s.wr o v
  else if o = Reg.GRM_DONE_HI then s.grmDone v
  else s.plainWrite req o v

/-- The TF control page; a TF_CMD with both commands boots, then programs. -/
def State.tfPageWrite (s : State) (req : Req) (o : Nat) (v : Word) : State :=
  if o = Reg.TF_CTL then s.tfCtl req v
  else if o = Reg.TF_CMD then
    (if bits v 1 0 = 0 then s
     else s.keyed req Reg.TF_CMD v 0x5E6A (fun s =>
       let s := if bit v 0 then s.fwBoot req v else s
       if bit v 1 then s.fwProgram req v else s))
  else if o = Reg.TF_IPI then s.ipi v
  else if o = Reg.ASM_DONE_LO then s.wr o v
  else if o = Reg.ASM_DONE_HI then s.asmDone v
  else s.plainWrite req o v

/-- The memory pages. -/
def State.memPages (s : State) (req : Req) (k : PageKind) (o : Nat) (v : Word) : State :=
  match k with
  | .mc => if o = Reg.WQ_CFG then s.wqCfg req v else if o = Reg.PORT_TGT then s.portTgt req v else s.plainWrite req o v
  | .ch =>
    let q := (o - 0x302000) / 0x1000 * 32 + (o % 0x1000 - 0x100) / 0x40
    if o % 0x1000 < 0x100 ∨ 0x900 ≤ o % 0x1000 then s.plainWrite req o v
    else if o = Reg.CH_CMD q then
      (if bits v 1 0 = 0 then s else s.keyed req (Reg.CH_CMD q) v 0xC4A7 (fun s => s.release q v))
    else s.plainWrite req o v
  | _ => s.plainWrite req o v

/-- The scheduler and partition pages. -/
def State.schPages (s : State) (req : Req) (k : PageKind) (o : Nat) (v : Word) : State :=
  match k with
  | .sch => if o = Reg.SCH_PCMD then s.pcmdWrite req v else s.plainWrite req o v
  | _ =>
    let p := (o - 0x311000) / 0x1000
    let i := s.fld (Reg.VI_SEL p) 3 0
    if o = Reg.PART_CMD p then s.adaptRelease p v
    else if o = Reg.VI_CMD p then
      (if bit v 1 then
         (if bits v 31 16 ≠ 0x5C1E ∨ bit v 0 = false then s.viResetCmd req p i v else (s.viResetCmd req p i v).viStart p i)
       else if bit v 0 then s.viStart p i else s)
    else s.plainWrite req o v

/-- Kralon, host and network pages. -/
def State.netPages (s : State) (req : Req) (k : PageKind) (o : Nat) (v : Word) : State :=
  match k with
  | .kl => if o = Reg.KL_CTL then s.klCtl req v else s.plainWrite req o v
  | .link => let l := (o - 0x321000) / 0x1000; if o = Reg.LINK_CTL l then s.linkCtl req l v else s.plainWrite req o v
  | .qp => if o = Reg.QUEUE_CMD then s.queueCmd req v else s.plainWrite req o v
  | .eth => let n := (o - 0x332000) / 0x1000; if o = Reg.ETH_CTL n then s.ethCtl req n v else s.plainWrite req o v
  | .dbr =>
    let r := o % 0x1000
    if r < 0x800 then s.dbBad
    else s.doorbell true none ((o - 0x336000) / 0x1000 * 256 + (r - 0x800) / 8) (r % 8 == 0) (fun s g => s.recHeadDb g v)
  | .dbc =>
    let r := o % 0x1000
    let g := (o - 0x338000) / 0x1000 * 256 + (r - 0x800) / 8
    if r < 0x800 then s.dbBad
    else if r % 8 = 0 then s.doorbell false none g true (fun s g => s.tailDb g v)
    else s.doorbell false none g true (fun s g => s.cqHeadDb g v)
  | _ => s.plainWrite req o v

/-- A write to a common register of the page at `p` (R55). -/
def State.commonWrite (s : State) (req : Req) (p r : Nat) (v : Word) : State :=
  if r = 0x08 then s.plainWrite req (p + r) v
  else if r = 0x10 then s.evtSts req p v
  else if r = 0x14 then s.evtEn req p v
  else if r = 0x18 then s.evtForce req p v
  else if r = 0x1C then s.lockWrite req p v
  else s

/-- One 32-bit write at BAR0 offset `o`. -/
def State.busWrite (s : State) (req : Req) (o : Nat) (v : Word) : State :=
  if 0x2000000 ≤ o ∧ o < 0x2340000 then s
  else match pageAt o with
    | none => s.unmapped req o
    | some k =>
      if o % 0x1000 < 0x40 then s.commonWrite req (o / 0x1000 * 0x1000) (o % 0x1000) v
      else match k with
        | .gt | .clk | .ao | .cfg | .ev | .rcd => s.sysWrite req o v
        | .hm | .flog | .pin | .alert => s.careWrite req o v
        | .p0 | .p1 | .p2 | .p3 => s.portPages req k ((o - 0x10000) / 0x4000) o v
        | .sctx => if o = Reg.CTX_SEL then s.ctxSel v else s.plainWrite req o v
        | .tile => s.tilePageWrite req ((o - 0x100000) / 0x1000) o v
        | .au => s.auPageWrite req ((o - 0x201000) / 0x1000) o v
        | .tgu => s.tguPageWrite req o v
        | .tf => s.tfPageWrite req o v
        | .mc | .ch => s.memPages req k o v
        | .sch | .part => s.schPages req k o v
        | .kl | .link | .qp | .eth | .dbr | .dbc => s.netPages req k o v
        | _ => s.plainWrite req o v

/-! ## Accesses of every width (R57, R58) -/

/-- An access of n bytes at BAR0 offset `o` is outside the rules: no page, or a form R58 does not allow. -/
def offRules (o n : Nat) (write : Bool) : Bool :=
  let mirror := decide (0x2000000 ≤ o) && decide (o < 0x2340000)
  let form := if write then (n == 4 && o % 4 == 0) || (n == 8 && o % 8 == 0)
    else (decide (1 ≤ n) && decide (o % 4 + n ≤ 4)) || (n == 8 && o % 8 == 0)
  !form || ((pageAt o).isNone && !mirror)

/-- BAR0 offset `o` lies in the doorbell words of a doorbell page. -/
def doorbellAt (o : Nat) : Bool :=
  decide (0x40 ≤ o % 0x1000) && (match pageAt o with | some .dbr | some .dbc => true | _ => false)

/-- A write of bytes at a BAR0 offset: a port, one 32-bit write, a 64-bit write as two, or a malformed one. A doorbell takes only 32 bits
(R402). -/
def State.regWrite (s : State) (req : Req) (o : Nat) (b : Bytes) : State :=
  match s.portWrite o b with
  | some t => t
  | none =>
    let n := b.length
    if n = 4 ∧ o % 4 = 0 then s.busWrite req o (BitVec.ofNat 32 (leNat b))
    else
      let s := if doorbellAt o then s.dbBad else s
      if n = 8 ∧ o % 8 = 0 then
        (if doorbellAt o then s
         else (s.busWrite req o (BitVec.ofNat 32 (leAt b 0 4))).busWrite req (o + 4) (BitVec.ofNat 32 (leAt b 4 4)))
      else s.unmapped req o

/-- A read of n bytes at a BAR0 offset (R58). -/
def State.regRead (s : State) (req : Req) (o n : Nat) : Bytes × State :=
  if 1 ≤ n ∧ o % 4 + n ≤ 4 then
    let r := s.busRead req (o / 4 * 4)
    (((toLe 4 r.1.toNat).drop (o % 4)).take n, r.2)
  else if n = 8 ∧ o % 8 = 0 then
    let r := s.busRead req o
    let q := r.2.busRead req (o + 4)
    (toLe 4 r.1.toNat ++ toLe 4 q.1.toNat, q.2)
  else (zeros n, s.unmapped req o)

/-- A requester's write of bytes at a device address below the peer windows or in host memory: register space in pieces of one line. -/
def State.devWrite (s : State) (req : Req) (a : Nat) (b : Bytes) : State :=
  if regBase ≤ a ∧ a < peerBase then
    (cutLines (b.length / 64 + 2) a b).foldl (fun (s : State) (e : Nat × Bytes) => s.regWrite req (e.1 - regBase) e.2) s
  else s.bulkWrite req a b

/-- A requester's read of n bytes. -/
def State.devRead (s : State) (req : Req) (a n : Nat) : Bytes × State :=
  if regBase ≤ a ∧ a < peerBase then
    (cutLines (n / 64 + 2) a (zeros n)).foldl (fun (x : Bytes × State) (e : Nat × Bytes) =>
      let r := x.2.regRead req (e.1 - regBase) e.2.length
      (x.1 ++ r.1, r.2)) ([], s)
  else s.ldUnit a n

/-- An access outside the rules: a read returns zero. A write that reaches a port is none. -/
def State.badAccess (s : State) (req : Req) (o n : Nat) (write : Bool) : State :=
  if offRules o n write = false ∨ (write = true ∧ (s.portWrite o (zeros n)).isSome = true) then s
  else if write then s.regWrite req o (zeros n)
  else (s.regRead req o n).2.emit (.read req o 0)

end Sys2Proof.Machine
end

