-- ==== Sys2Proof/Machine/Emergence.lean ====
section
/-! DEFINITION. Power, the steps E1 to E6 of emergence (R46 to R53), and the device resets that the warden and the host trigger
(R409, R415 to R417, R422, R454, R456). -/
namespace Sys2Proof.Machine

/-! ## Steps -/

/-- Emergence stops at step n: FAILED and FAIL_STEP (R48). The entry of a step 4 failure is the SRAM's own. -/
def State.emgFail (s : State) (n : Nat) : State :=
  let s := (s.setFlag Reg.AO_EMG_STS 30 true).setFld Reg.AO_EMG_STS 15 8 n
  let s := s.updEmg (fun e => { e with resetting := false })
  if n = 4 then s else s.log 3 0x10 (blkId 0x4000) n

/-- E2 ends: the core clocks and the timebase start at 0, the calendar restarts if it had stopped, the PCIe PLL runs (R36, R41, R455). -/
def State.startClocks (s : State) : State :=
  let c := restartCal s.clk.kept
  let s := { s with clk := { c with running := true, firstTick := true } }
  s.wr Reg.CLK_STS (s.rd Reg.CLK_STS ||| 5)

/-- The chrysalis record (R52): the host port needs no entry; interface 0 of Ethernet port 0 accepts management. -/
def chrysalis : List (Nat × Word) := [(Reg.IF_SEL 0, 0), (Reg.IF_CTL 0, 0xC0000000), (Reg.ETH_CTL 0, 0x05DC0001)]

/-- Step E3 chooses the record: the valid bank with the higher instar, A when equal, or the chrysalis (R51, R53). -/
def State.cfgLoad (s : State) : State × List (Nat × Word) :=
  let a := s.cfgRecord 0
  let b := s.cfgRecord 1
  let forced := s.flag Reg.CFG_STS 5
  let v := ofBool a.isSome * 4 + ofBool b.isSome * 8
  let dflt := fun (s : State) =>
    (((s.wr Reg.CFG_STS (BitVec.ofNat 32 (v + 1))).wr Reg.CFG_INSTAR 0).log 0 0x11 (blkId cfgPage)
      (ofBool a.isNone + 2 * ofBool b.isNone + 4 * ofBool forced), chrysalis)
  let use := fun (s : State) (k : Nat) (r : Nat × List (Nat × Word)) =>
    ((s.wr Reg.CFG_STS (BitVec.ofNat 32 (v + 2 * k))).wr Reg.CFG_INSTAR (BitVec.ofNat 32 r.1), r.2)
  if forced then dflt s
  else match a, b with
    | none, none => dflt s
    | some x, none => use s 0 x
    | none, some y => use s 1 y
    | some x, some y => if x.1 < y.1 then use s 1 y else use s 0 x

/-- One entry is applied as a write of the warden (R52); an ENABLE of E7 is stored as 0 and noted. -/
def State.cfgApply (s : State) (e : Nat × Word) : State :=
  let n := s.rd Reg.LOCKVIOL_CNT
  let t := if enableReg e.1 then s.enableWrite reqWarden e.1 (e.2 &&& 0xFFFFFFFE) else s.busWrite reqWarden e.1 e.2
  if t.rd Reg.LOCKVIOL_CNT ≠ n then t.setFlag Reg.CFG_STS 4 true
  else if enableReg e.1 then
    t.updEmg (fun x => { x with enables := x.enables.filter (· ≠ e.1) ++ (if bit e.2 0 then [e.1] else []) })
  else t

/-- Step E3. -/
def State.stepE3 (s : State) : State :=
  let r := (s.setFld Reg.AO_EMG_STS 7 0 3).cfgLoad
  r.2.foldl (fun (s : State) e => s.cfgApply e) r.1

/-- An element whose SRAM failed in E4 is fenced or marked FAILED, and logged (R48). -/
def State.sramFail (s : State) (e : Nat × Nat) : State :=
  let n := if e.1 < 4 then e.2 else 0
  let s := s.log (if e.1 < 4 then 2 else 3) 0x13 (blkId 0x4000) (e.1 * 2 ^ 56 + n)
  if e.1 < 3 then (if (elementPage e.1 e.2).isSome then (s.fenceElement e.1 e.2).raise hmPage 6 else s)
  else if e.1 = 3 ∧ e.2 < 56 then s.setUnitMap e.2 0x20
  else s

/-- Step E6: the firmware starts, or E6 ends with FW_NONE (R278). -/
def State.stepE6 (s : State) : State :=
  let s := s.setFld Reg.AO_EMG_STS 7 0 6
  match s.fwChoice with
  | some k => let i := s.fwImage k; (s.fwStart i.1 i.2 k).updEmg (fun e => { e with e6 := true, resetting := s.emg.resetting })
  | none => (((s.setFlag Reg.TF_STS 31 true).setFld Reg.TF_STS 27 26 3).log 2 0x12 (blkId tfPage) 0).finishEmergence

/-- Emergence from E1 on (R46, R48). -/
def State.emerge (s : State) (e : Emerge) : State :=
  let s := (s.wr Reg.AO_EMG_STS 1).updEmg (fun x => { x with cause := none, resetting := true })
  if e.railsOk = false then s.emgFail 1
  else
    let s := s.setFld Reg.AO_EMG_STS 7 0 2
    if 3 < e.pllFails then s.emgFail 2
    else
      let s := s.startClocks.stepE3.setFld Reg.AO_EMG_STS 7 0 4
      let s := e.sram.foldl (fun (s : State) x => s.sramFail x) s
      if e.sram.any (fun (x : Nat × Nat) => decide (4 ≤ x.1)) then s.emgFail 4
      else
        let s := s.setFld Reg.AO_EMG_STS 7 0 5
        let s := e.hbm.foldl (fun (s : State) (x : Nat × Nat) =>
          if x.1 < 64 then s.trainFail x.1 (if x.2 = 5 then 5 else 4) else s) s
        (s.setFlag Reg.MC_STS 31 true).stepE6

/-! ## Power (R46, R49) -/

/-- What is left without the 48 V input: host memory, the flash with the committed log, and the calendar. -/
def State.dark (s : State) : State :=
  { pending := s.pending, free := s.free, mem := s.mem.filter (fun e => decide (hostBase ≤ e.1)), flash := s.flash,
    clk := { s.clk.kept with setReq := false, calHi := [], calFr := [] }, flogFlash := s.flogFlash, out := s.out }

/-- The input rises above 38 V: E0, and emergence. An input that is already there does nothing. -/
def State.powerOn (s : State) (e : Emerge) : State :=
  if s.emg.powered then s
  else
    let t := s.dark.updEmg (fun x => { x with powered := true })
    let t := t.emerge e
    -- a device reset requested later in a cold emergence is accepted (R456)
    t.updEmg (fun x => { x with resetting := false })

/-- The input falls below 36 V (R49). -/
def State.powerLoss (s : State) : State := if s.emg.powered then s.dark else s

/-! ## Device resets (R453, R456) -/

/-- A device reset with a cause, and the emergence it starts. -/
def State.resetWith (s : State) (cause : Nat) (e : Emerge) : State :=
  if s.emg.resetting then s else (s.deviceReset cause).emerge e

/-- A keyed write of DEVICE; the emergence of a reset triggered by another write before runs here too (log entry 23). -/
def State.deviceResetRow (s : State) (req : Req) (v : Word) (e : Emerge) : State :=
  let t := s.rstCtl req (v ||| 1)
  if t.emg.cause.isSome then t.emerge e else t

/-- The conditions of the faults detected beside the governing one are over (R417): a shutdown's is a T_MAX at or above SHUT_C. -/
def State.othersOver (s : State) : Bool :=
  s.health.others.all (fun k => match k with
    | .thermal => if s.health.extended then decide (200000 ≤ s.health.cool) else decide (signed 16 (s.fld Reg.HM_STS 15 0) < s.shutT)
    | .rail => (List.range 16).all (fun m => !railFails m (s.fld (Reg.VOLT_01 + 4 * (m / 2)) (16 * (m % 2) + 15) (16 * (m % 2))))
    | .pll => true)

/-- The recovery from the governing fault ends with a device reset, unless another fault's condition extends it (R417): a shutdown's
until its own recovery has ended too, a rail's until it is inside its window. -/
def State.recover (s : State) (cause : Nat) (e : Emerge) : State :=
  if s.othersOver then s.resetWith cause e else s.updHealth (fun h => { h with extended := true })

/-- Every site has been cool for 10 s after a shutdown (R415). -/
def State.thermalRecovery (s : State) (e : Emerge) : State :=
  if s.health.handling = some .thermal ∧ 200000 ≤ s.health.cool ∧ s.flag Reg.HM_STS 28 = false then s.recover 5 e else s

/-- 100 ms after a rail fault (R416). -/
def State.railReset (s : State) (e : Emerge) : State :=
  if s.health.handling = some .rail ∧ s.health.latched = false then s.recover 3 e else s

/-- Within 10 ms of a loss of root PLL lock (R454). -/
def State.pllReset (s : State) (e : Emerge) : State := if s.health.handling = some .pll then s.recover 6 e else s

/-- ALIVE_MS pass without a write of ALIVE; with ALIVE_ACT the warden resets the device (R422). -/
def State.aliveMissRow (s : State) (e : Emerge) : State :=
  let r := s.aliveMiss
  if r.2 then r.1.resetWith 3 e else r.1

/-- PERST#, a hot reset or link down (R409): the host port alone, or a device reset, which waits while a fault of the module is handled. -/
def State.hostReset (s : State) (e : Emerge) : State :=
  if s.flag Reg.AO_RST_CTL 1 then (if s.health.handling.isSome then s else s.resetWith 4 e) else s.hostLost

end Sys2Proof.Machine
end

