-- ==== Sys2Proof/Machine/BootRows.lean ====
section
/-! DEFINITION. The meanings of the commands that act through `Emergence`: one per row of the table, each with the effect its rule
gives it. -/
namespace Sys2Proof.Machine

/-- POWER_ON (R46): The 48 V input rises above 38 V and emergence runs steps E0 to E7 to READY. -/
def execPowerOn (env : Emerge) (s : State) : Host.Outcome State Fault Refusal :=
  finish s (s.powerOn env) Fld.all

/-- POWER_LOSS (R49): The input falls below 36 V and every domain except the calendar powers down without emitting
records. -/
def execPowerLoss (s : State) : Host.Outcome State Fault Refusal :=
  finish s s.powerLoss
    [.mem, .regs, .held, .wosDone, .shadow, .snapAt, .clk, .pairs, .flogRing, .flogLast, .holding, .hevt, .fns,
     .numVfs, .vfEnable, .msix, .qs, .rqs, .profs, .items, .nextSeq, .dests, .egress, .rsn, .svc, .parts, .vis, .ue,
     .ports, .ppActive, .tiles, .ctxs, .batches, .batchNo, .batchUid, .batchHeld, .arena, .handing, .rtcp, .ctxSnap,
     .vocs, .norms, .grms, .lexs, .gctxs, .gctxGen, .seqs, .seqGen, .aunits, .chans, .sc, .harts, .cores, .fwProg,
     .warden, .vsaved, .pcmd, .klinks, .kal, .health, .emg, .pins, .alert, .copyAt]

/-- DEVICE_RESET (R456): A keyed write of DEVICE to AO_RST_CTL triggers a device reset that discards open items and
reruns emergence from E1. -/
def execDeviceReset (req : BitVec 16) (v : Word) (env : Emerge) (s : State) : Host.Outcome State Fault Refusal :=
  finish s (s.deviceResetRow req v env) Fld.all

/-- HOST_LOST (R409): PERST#, a hot reset or link down at the host port stops and destroys function queues, or
performs a device reset when HOST_RST_MODE is 1. -/
def execHostLost (env : Emerge) (s : State) : Host.Outcome State Fault Refusal :=
  finish s (s.hostReset env) Fld.all

/-- CFG_PROGRAM (R53): A keyed PROGRAM write to CFG_CMD checks the request and starts writing a new record to the bank
not loaded. -/
def execCfgProgram (req : BitVec 16) (v : Word) (s : State) : Host.Outcome State Fault Refusal :=
  finish s (s.cfgCmd req ((v &&& 0xFFFFFFFC) ||| 1))
    [.flash, .regs, .flogRing, .flogLast, .holding, .hevt, .msix, .out, .emg]

/-- CFG_PROGRAM_DONE (R53): Erasing, programming and read-back of the target bank end, clearing BUSY and setting
PROG_ERR on failure. -/
def execCfgProgramDone (good : Bool) (s : State) : Host.Outcome State Fault Refusal :=
  finish s (s.cfgProgramDone good) [.flash, .regs, .emg]

/-- FORCE_CHRYSALIS (R53): A keyed FORCE_CHRYSALIS write sets FORCE_PENDING so that the next emergence loads the
chrysalis. -/
def execForceChrysalis (req : BitVec 16) (v : Word) (s : State) : Host.Outcome State Fault Refusal :=
  finish s (s.cfgCmd req ((v &&& 0xFFFFFFFC) ||| 2))
    [.flash, .regs, .flogRing, .flogLast, .holding, .hevt, .msix, .out, .emg]

/-- FW_READY (R278): A write of TF_CTL.FW_READY ends step E6. -/
def execFwReady (req : BitVec 16) (v : Word) (s : State) : Host.Outcome State Fault Refusal :=
  finish s (s.tfCtl req (v ||| 1))
    [.free, .mem, .regs, .held, .wosDone, .flogRing, .flogLast, .holding, .hevt, .msix, .qs, .items, .egress,
     .ue, .out, .ports, .gctxs, .seqs, .aunits, .sc, .harts, .klinks, .kal, .health, .emg, .pins]

/-- FW_READY_TIMEOUT (R278): FW_READY is not written within the E6 bound; every hart is parked, FW_FAIL is set and
emergence continues. -/
def execFwReadyTimeout (s : State) : Host.Outcome State Fault Refusal :=
  finish s s.fwTimeout
    [.free, .mem, .regs, .held, .wosDone, .flogRing, .flogLast, .holding, .hevt, .msix, .qs, .items, .egress,
     .ue, .out, .ports, .gctxs, .seqs, .aunits, .sc, .harts, .cores, .klinks, .kal, .emg, .pins]

/-- THERMAL_RECOVERY (R415): Every site reads below WARN_C − HYST_C for 10 s and the warden performs a device reset. -/
def execThermalRecovery (env : Emerge) (s : State) : Host.Outcome State Fault Refusal :=
  finish s (s.thermalRecovery env) Fld.all

/-- RAIL_FAULT_RESET (R416): 100 ms after a rail fault the warden performs a device reset, or latches off after a
third fault. -/
def execRailFaultReset (env : Emerge) (s : State) : Host.Outcome State Fault Refusal :=
  finish s (s.railReset env) Fld.all

/-- PLL_LOSS_RESET (R454): Within 10 ms of the loss the warden performs a device reset with cause 0x06. -/
def execPllLossReset (env : Emerge) (s : State) : Host.Outcome State Fault Refusal :=
  finish s (s.pllReset env) Fld.all

/-- ALIVE_MISS (R422): ALIVE_MS pass without an ALIVE write; HEALTH becomes FAULT and a device reset follows with
ALIVE_ACT. -/
def execAliveMiss (env : Emerge) (s : State) : Host.Outcome State Fault Refusal :=
  finish s (s.aliveMissRow env) Fld.all

end Sys2Proof.Machine
end

