-- ==== Sys2Proof/Machine/BusRows.lean ====
section
/-! DEFINITION. The meanings of the commands that act through `RegBus`: one per row of the table, each with the effect its rule
gives it. -/
namespace Sys2Proof.Machine

/-- REGISTER_WRITE (R67): A write to a register without behaviour of its own stores its fields, clamped as their rules
state, for their commit instants. -/
def execRegisterWrite (req : BitVec 16) (a : BitVec 26) (v : Word) (s : State) : Host.Outcome State Fault Refusal :=
  finish s (s.regWrite req a.toNat (toLe 4 v.toNat)) Fld.all

/-- UNMAPPED_ACCESS (R57): An access to an offset with no page, or a malformed write or cross-register read, completes
with no effect and is counted and logged. -/
def execUnmappedAccess (req : BitVec 16) (write : Bool) (a : BitVec 26) (n : Fin 65) (s : State) : Host.Outcome State Fault Refusal :=
  finish s (s.badAccess req a.toNat n write) Fld.all

end Sys2Proof.Machine
end

