-- ==== Sys2Proof/Machine/ClockRows.lean ====
section
/-! DEFINITION. The meanings of the commands that act through `Pins`: one per row of the table, each with the effect its rule
gives it. -/
namespace Sys2Proof.Machine

/-- SLEW_DUE (R38): The 11-bit tick counter returns to 0 while a slew is pending, and one slew nanosecond falls due. -/
def execSlewDue (s : State) : Host.Outcome State Fault Refusal :=
  finish s s.slewDue [.clk]

/-- SLEW_APPLY (R37): At the first TCLK with a rate step of 1 after a nanosecond falls due, the timebase steps by 0 or
2 and the pending slew moves by one. -/
def execSlewApply (s : State) : Host.Outcome State Fault Refusal :=
  finish s s.slewApply [.clk]

/-- TB_LO_READ (R39): A read of TB_LO returns the low timebase bits and latches the high bits into the requester's
TB_HI latch. -/
def execTbLoRead (req : BitVec 16) (s : State) : Host.Outcome State Fault Refusal :=
  finish s (s.readOut req Reg.TB_LO (s.tbLo req)) [.clk, .out]

/-- TB_RATE_WRITE (R38): A write to TB_RATE stores the rate trim clamped to ±200 ppm, or changes nothing while Kralon
alignment runs. -/
def execTbRateWrite (v : Word) (s : State) : Host.Outcome State Fault Refusal :=
  finish s (s.tbRate v) [.regs, .clk]

/-- TB_SLEW_WRITE (R38): A write to TB_SLEW replaces the slew still pending, or changes nothing while Kralon alignment
runs. -/
def execTbSlewWrite (v : Word) (s : State) : Host.Outcome State Fault Refusal :=
  finish s (s.tbSlew v) [.regs, .clk]

/-- CALENDAR_SECOND (R45): A calendar tick increases the calendar seconds. -/
def execCalendarSecond (s : State) : Host.Outcome State Fault Refusal :=
  finish s (s.tickPins (rolls s.clk)) [.regs, .clk, .pairs, .holding, .hevt, .msix, .out]

/-- TRIM_PERIOD (R42): A period of 2^20 calendar ticks ends and the next period starts with the trim then written. -/
def execTrimPeriod (s : State) : Host.Outcome State Fault Refusal :=
  finish s (s.tickPins (s.clk.period + 1 == 0)) [.regs, .clk, .pairs, .holding, .hevt, .msix, .out]

/-- TRIM_WRITE (R42): A write to CAL_CTL.TRIM stores the signed trim, with −128 stored as −127, for the next period. -/
def execTrimWrite (v : Word) (s : State) : Host.Outcome State Fault Refusal :=
  finish s (s.calCtl v) [.clk]

/-- CAL_SET (R43): A write of 1 to CAL_CTL.SET requests that the staged calendar value be loaded at the next tick. -/
def execCalSet (v : Word) (s : State) : Host.Outcome State Fault Refusal :=
  finish s (s.calCtl (v ||| 0x100)) [.clk]

/-- CAL_SET_TICK (R43): The tick after a SET loads the staged value into the calendar, sets VALID, clears BACKUP_LOST
and captures a pair. -/
def execCalSetTick (s : State) : Host.Outcome State Fault Refusal :=
  finish s (s.tickPins s.clk.setReq) [.regs, .clk, .pairs, .holding, .hevt, .msix, .out]

/-- CAPTURE (R45): A write of 1 to CAL_CTL.CAPTURE requests a pair capture at the next calendar tick. -/
def execCalCapture (v : Word) (s : State) : Host.Outcome State Fault Refusal :=
  finish s (s.calCtl (v ||| 0x200)) [.clk]

/-- CAPTURE_TICK (R45): The tick after a CAPTURE write captures a timebase–calendar pair. -/
def execCaptureTick (s : State) : Host.Outcome State Fault Refusal :=
  finish s (s.tickPins s.clk.capReq) [.regs, .clk, .pairs, .holding, .hevt, .msix, .out]

/-- CAL_SEC_LO_READ (R44): A read of CAL_SEC_LO returns the low seconds and latches CAL_SEC_HI and CAL_FRAC of the
same tick for the requester. -/
def execCalSecLoRead (req : BitVec 16) (s : State) : Host.Outcome State Fault Refusal :=
  finish s (s.readOut req Reg.CAL_SEC_LO (s.calLo req)) [.clk, .out]

/-- BACKUP_LOST (R41): The backup voltage falls below the retention level, the calendar stops and its trim is lost. -/
def execBackupLost (s : State) : Host.Outcome State Fault Refusal :=
  finish s s.backupLoss [.clk]

/-- CALENDAR_TICK (R42): A tick of the 32.768 kHz calendar crystal that does not roll over a second advances the
fraction by 2, by 4 or by 0 under the trim. -/
def execCalendarTick (s : State) : Host.Outcome State Fault Refusal :=
  finish s (s.tickPins (!rolls s.clk)) [.regs, .clk, .pairs, .holding, .hevt, .msix, .out]

end Sys2Proof.Machine
end

