-- ==== Sys2Proof/Machine/PeerServe.lean ====
section
/-! DEFINITION. Requests of peers served by this module (R375, R376), and the timers of the Kralon links. -/
namespace Sys2Proof.Machine

/-- A WR or RD_REQ for this module: turned away, failed by a memory error, or performed and answered (R375, R376). -/
def State.servePeer (s : State) (read : Bool) (b : Bytes) : State :=
  let src := flitSrc b
  let a := leAt b 8 6
  let n := leAt b 14 2
  match s.peerCheck src a n with
  | 0 =>
    let ok := decide ((if read then s.canRead 0 a n else s.canWrite 0 a n) = .ok)
    if ok = false then s.answerPeer src read b 3 []
    else
      let s := s.bump Reg.KL_CNT_PEER_IN
      if read then (let r := s.devRead (reqPeer src) a n; r.2.answerPeer src true b 0 r.1)
      else (s.devWrite (reqPeer src) a ((b.drop 32).take n)).answerPeer src false b 0 []
  | 1 => ((s.bump Reg.KL_CNT_REFUSED).raise klPage 3).answerPeer src read b 1 []
  | st => s.answerPeer src read b st []

/-- A link that has had nothing to send for 0.5 µs sends a NULL (R372). -/
def State.nullTimer (s : State) (l : Nat) : State :=
  if s.linkUp l ∧ (s.klink l).sent + 500 ≤ s.now ∧ (s.klink l).waits = [] then s.sendCtl l 0 else s

/-- Every 20 µs a module whose logic runs sends BEACON on each link (R370). -/
def State.beaconTimer (s : State) : State := if s.klState = 0 then s else s.sendBeacons

end Sys2Proof.Machine
end

