-- ==== Sys2Proof/Machine/Dma.lean ====
section
/-! DEFINITION. COPY of the DMA queues and SEND of the Ethernet queues (R404, R405). -/
namespace Sys2Proof.Machine

/-- An address in the window of the module's own system ID is the local one (R374). -/
def State.localAddr (s : State) (a : Nat) : Nat := if s.ownWindow a then (a - peerBase) % 0x4000000000 else a

/-- An address lies in another module's window. -/
def isPeer (a : Nat) : Bool := decide (peerBase ≤ a) && decide (a < hostBase)

/-- The status with which a range that cannot be read or written ends a COPY. -/
def MemRes.status : MemRes → Option St
  | .ok => none
  | .host => some .hostErr
  | .unmapped => some .access
  | .error => some .memErr

/-- What stops a local read or write of a COPY; register space and peer windows are checked by their own rules. -/
def State.copyStop (s : State) (q : Queue) (a n : Nat) (write : Bool) : Option St :=
  if isPeer a then none else (if write then s.canWrite q.fnOf a n else s.canRead q.fnOf a n).status

/-- A COPY that fails leaves an undefined prefix of its destination: a free number of free bytes, where they can be written and lie in
memory. -/
def State.spoil (s : State) (q : Queue) (a n : Nat) : State :=
  if regBase ≤ a ∧ a < hostBase then s
  else
    let k := s.fresh.1.toNat % (n + 1)
    let r := s.fresh.2.freshBytes k
    (cutLines (k / 64 + 2) a r.1).foldl (fun (s : State) (e : Nat × Bytes) =>
      if s.canWrite q.fnOf e.1 e.2.length = .ok then s.stUnit e.1 e.2 else s) r.2

/-- The whole COPY between addresses of this module and host memory. -/
def State.copyLocal (s : State) (q : Queue) (src dst n : Nat) : State × St × Nat :=
  match s.copyStop q src n false, s.copyStop q dst n true with
  | some e, _ => (s.spoil q dst n, e, 0)
  | none, some e => (s.spoil q dst n, e, 0)
  | none, none => let r := s.devRead q.req src n; (r.2.devWrite q.req dst r.1, .ok, 0)

/-- Bytes a COPY of queue g through a peer window has done, and that many recorded. -/
def State.copied (s : State) (g : Nat) (q : Queue) : Nat :=
  let v := s.copyAt.get 0 g
  if v / 2 ^ 32 = q.head + 1 then v % 2 ^ 32 else 0
def State.setCopied (s : State) (g : Nat) (q : Queue) (k : Nat) : State :=
  { s with copyAt := s.copyAt.set 0 g ((q.head + 1) * 2 ^ 32 + k) }

/-- The requester of the chunk at offset k. -/
def copyWho (g : Nat) (q : Queue) (k : Nat) : PeerWho := .copy g (q.head * 2 ^ 32 + k)

/-- The tag of instance v of partition p (R345). -/
def State.vtag (s : State) (p v : Nat) : Nat := p * 4096 + v * 256 + (s.vi p v).gen.toNat

/-- The tag that a queue's peer accesses carry; a queue that acts for no instance carries zero. -/
def State.qtag (s : State) (q : Queue) : Nat := let o := q.ownerOf; if o.1 < 8 then s.vtag o.1 o.2 else 0

/-- The chunk at offset k: at most 192 bytes within one 4 KiB of each peer window. -/
def chunkLen (src dst n k : Nat) : Nat :=
  let cap := fun a => if isPeer a then 4096 - (a + k) % 4096 else 192
  min (n - k) (min 192 (min (cap src) (cap dst)))

/-- A chunk's bytes are at hand: they are written here, or sent to the peer. -/
def State.copyPut (s : State) (g : Nat) (q : Queue) (dst k : Nat) (urg : Nat) (b : Bytes) : Except St State :=
  if isPeer dst then .ok (s.issuePeer (copyWho g q k) true (dst + k) b b.length urg (s.qtag q))
  else match s.copyStop q (dst + k) b.length true with
    | some e => .error e
    | none => .ok ((s.devWrite q.req (dst + k) b).setCopied g q (k + b.length))

/-- A COPY through a peer window goes on: it takes an answer, or issues its next chunk; the answer of R376 that fails ends it. -/
def State.copyStep (s : State) (g : Nat) (q : Queue) (src dst n urg : Nat) : Option (State × St × Nat) :=
  let k := s.copied g q
  let who := copyWho g q k
  let fin := fun (r : Except St State) => match r with
    | .error e => some (s.spoil q dst n, e, 0)
    | .ok t => if n ≤ t.copied g q then some ({ t with copyAt := t.copyAt.set 0 g 0 }, .ok, 0) else none
  let m := chunkLen src dst n k
  match s.kal.answers.find? (fun e => e.1.who == who) with
  | some (r, st, d) =>
    let t := s.updKal (fun x => { x with answers := x.answers.filter (fun e => e.1.who != who) })
    if st ≠ 0 then some (t.spoil q dst n, .memErr, 0)
    else if r.write then fin (.ok (t.setCopied g q (k + m)))
    else fin (t.copyPut g q dst k urg d)
  | none =>
    if s.kal.peers.any (fun r => r.who == who) then none
    else if isPeer src then none
    else match s.copyStop q (src + k) m false with
      | some e => fin (.error e)
      | none => let r := s.devRead q.req (src + k) m; fin (r.2.copyPut g q dst k urg r.1)

/-- The state in which a COPY through a peer window waits. -/
def State.copyWait (s : State) (g : Nat) (q : Queue) (src dst n urg : Nat) : State :=
  let k := s.copied g q
  let who := copyWho g q k
  let m := chunkLen src dst n k
  match s.kal.answers.find? (fun e => e.1.who == who) with
  | some (r, _, d) =>
    let t := s.updKal (fun x => { x with answers := x.answers.filter (fun e => e.1.who != who) })
    if r.write then t.setCopied g q (k + m)
    else match t.copyPut g q dst k urg d with
      | .ok u => u
      | .error _ => t
  | none =>
    if s.kal.peers.any (fun r => r.who == who) then s
    else if isPeer src then s.issuePeer who false (src + k) [] m urg (s.qtag q)
    else
      let r := s.devRead q.req (src + k) m
      match r.2.copyPut g q dst k urg r.1 with
      | .ok u => u
      | .error _ => s

/-- COPY (R404): none while it waits for a peer. -/
def State.effCopy (s : State) (g : Nat) (q : Queue) (b : Bytes) : Option (State × St × Nat) :=
  let src := s.localAddr (leAt b 0 8)
  let dst := s.localAddr (leAt b 8 8)
  let n := leAt b 24 4
  let o := q.ownerOf
  if zeroAt b 18 2 = false ∨ 4 ≤ leAt b 28 4 ∨ n = 0 ∨ 16777216 < n then some (s, .badCmd, 0)
  else if s.mayUse q src n = false ∨ s.mayUse q dst n = false then some (s, .access, 0)
  else if o.1 < 8 ∧ (s.sliceBlocks o.1 o.2 src n ∨ s.sliceBlocks o.1 o.2 dst n) then some (s.sliceViol, .access, 0)
  else if isPeer src ∨ isPeer dst then s.copyStep g q src dst n (leAt b 28 4)
  else some (s.copyLocal q src dst n)

/-- The COPY of queue g (R404). -/
def State.copyRow (s : State) (g : Nat) : State :=
  match s.executing g 0x10 with
  | none => s
  | some d =>
    let q := s.queue g
    let b := cmdBytes d
    if s.tagFenced q then s.dropCmd g
    else match s.effCopy g q b with
      | some r => r.1.complete g r.2.1 r.2.2
      | none => s.copyWait g q (s.localAddr (leAt b 0 8)) (s.localAddr (leAt b 8 8)) (leAt b 24 4) (leAt b 28 4)

/-- SEND (R405): a port that is disabled or whose link is down sends nothing, and the egress stamp is then open. -/
def State.effSend (s : State) (q : Queue) (b : Bytes) : State × St × Nat :=
  let n := q.target - 6
  let a := leAt b 0 8
  let len := leAt b 8 2
  let o := q.ownerOf
  let stamp := byteAt b 10 == 1
  if 1 < byteAt b 10 ∨ zeroAt b 11 5 = false ∨ zeroAt b 18 2 = false ∨ zeroAt b 24 8 = false ∨ len < 60 ∨
     s.fld (Reg.ETH_CTL n) 29 16 + 18 < len then (s, .badCmd, 0)
  else if s.mayUse q a len = false then (s, .access, 0)
  else if o.1 < 8 ∧ s.sliceBlocks o.1 o.2 a len then (s.sliceViol, .access, 0)
  else if regBase ≤ a ∧ a < hostBase then (s, .memErr, 0)
  else match (s.canRead q.fnOf a len).status with
    | some e => (s, e, 0)
    | none =>
      let r := s.ldUnit a len
      if s.flag (Reg.ETH_CTL n) 0 ∧ s.flag (Reg.ETH_STS n) 31 then
        ((r.2.emit (.frame n r.1)).bump (Reg.ETH_CNT_TX_FRAMES n), .ok, if stamp then s.now else 0)
      else if stamp then (r.2.fresh64.2, .ok, r.2.fresh64.1.toNat)
      else (r.2, .ok, 0)

end Sys2Proof.Machine
end

