-- ==== Sys2Proof/Machine/DmaRows.lean ====
section
/-! DEFINITION. The meanings of the commands that act through `Dma`: one per row of the table, each with the effect its rule
gives it. -/
namespace Sys2Proof.Machine

/-- COPY (R404): DMA queue command that copies bytes between device and host memory. -/
def execCopy (q : Fin 2048) (s : State) : Host.Outcome State Fault Refusal :=
  finish s (s.copyRow q) Fld.all

/-- SEND (R405): Ethernet queue command that sends a frame, optionally returning its egress stamp. -/
def execSend (q : Fin 2048) (s : State) : Host.Outcome State Fault Refusal :=
  finish s (s.execCmd q 0x12 s.effSend)
    [.free, .mem, .regs, .holding, .hevt, .msix, .qs, .ue, .out, .gctxs, .sc, .harts]

end Sys2Proof.Machine
end

