-- ==== Sys2Proof/Machine/FabricRows.lean ====
section
/-! DEFINITION. The meanings of the commands that act through `Fabric`: one per row of the table, each with the effect its rule
gives it. -/
namespace Sys2Proof.Machine

/-- CORE_LAUNCH (R274): A 64-byte write to a core's launch port starts a parked hart at CORE_ENTRY, queues the launch
or drops it. -/
def execCoreLaunch (c : Fin 96) (r : BitVec 512) (whole : Bool) (s : State) : Host.Outcome State Fault Refusal :=
  finish s (s.launchPort c r whole) [.regs, .holding, .hevt, .msix, .out, .harts, .cores]

/-- IPI (R276): A write to TF.IPI sets the machine or supervisor software interrupt of one hart. -/
def execIpi (v : Word) (s : State) : Host.Outcome State Fault Refusal :=
  finish s (s.ipi v) [.harts]

/-- FW_BOOT (R279): A keyed BOOT write checks a firmware image in HBM and starts it as E6 would. -/
def execFwBoot (req : BitVec 16) (v : Word) (s : State) : Host.Outcome State Fault Refusal :=
  finish s (s.fwBoot req (v ||| 1)) [.mem, .regs, .flogRing, .flogLast, .holding, .hevt, .msix, .ue, .out, .sc, .harts]

/-- FW_PROGRAM (R279): A keyed PROGRAM write checks a firmware image and starts writing it to the other flash slot. -/
def execFwProgram (req : BitVec 16) (v : Word) (s : State) : Host.Outcome State Fault Refusal :=
  finish s (s.fwProgram req ((v &&& 0xFFFFFFFC) ||| 2))
    [.flash, .regs, .flogRing, .flogLast, .holding, .hevt, .msix, .out, .fwProg]

/-- FW_PROGRAM_DONE (R279): Writing and read-back of the firmware slot end and FW_DONE is raised. -/
def execFwProgramDone (good : Bool) (s : State) : Host.Outcome State Fault Refusal :=
  finish s (s.fwProgramDone good) [.flash, .regs, .holding, .hevt, .msix, .out, .fwProg]

end Sys2Proof.Machine
end

