-- ==== Sys2Proof/Machine/GateRows.lean ====
section
/-! DEFINITION. The meanings of the commands that act through `Gate`: one per row of the table, each with the effect its rule
gives it. -/
namespace Sys2Proof.Machine

/-- OPEN (R31): Deadline command that opens an item of a fabric source with the anchor and profile it names and
completes with the item ID, or FULL when the item is refused. -/
def execOpenItem (q : Fin 2048) (s : State) : Host.Outcome State Fault Refusal :=
  finish s (s.execCmd q 4 s.effOpen)
    [.free, .mem, .regs, .holding, .hevt, .msix, .qs, .items, .nextSeq, .egress, .ue, .out, .ports, .gctxs, .sc,
     .harts]

/-- SET_DEADLINE (R32): Deadline command that gives an open item a new deadline and recomputes its milestones, seal
instant and urgency, sealing it at once if the new seal instant has already passed. -/
def execSetDeadline (q : Fin 2048) (s : State) : Host.Outcome State Fault Refusal :=
  finish s (s.execCmd q 1 s.effSetDeadline)
    [.free, .mem, .regs, .holding, .hevt, .msix, .qs, .items, .egress, .ue, .out, .ports, .gctxs, .sc, .harts]

/-- SEAL_NOW (R31): Deadline command that seals an open item at once with seal cause COMMAND. -/
def execSealNow (q : Fin 2048) (s : State) : Host.Outcome State Fault Refusal :=
  finish s (s.execCmd q 2 s.effSealNow)
    [.free, .mem, .regs, .holding, .hevt, .msix, .qs, .items, .egress, .ue, .out, .ports, .gctxs, .sc, .harts]

/-- SET_FALLBACK (R31): Deadline command that replaces the fallback decision of an open item. -/
def execSetFallback (q : Fin 2048) (s : State) : Host.Outcome State Fault Refusal :=
  finish s (s.execCmd q 3 s.effSetFallback)
    [.mem, .regs, .holding, .hevt, .msix, .qs, .items, .ue, .out, .gctxs, .sc, .harts]

/-- MILESTONE_PASS (R20): The timebase reaches a stage milestone of an open, unsealed item whose stage is not done,
and the stage's overrun bit is set. -/
def execMilestonePass (id : DWord) (k : Fin 5) (s : State) : Host.Outcome State Fault Refusal :=
  finish s (s.milestonePass id.toNat k) [.regs, .holding, .hevt, .msix, .items, .out]

/-- SEAL_DEADLINE (R23): The timebase reaches an item's seal instant, or its hold under SPEED 0, and the item is
sealed with seal cause DEADLINE. -/
def execSealDeadline (id : DWord) (s : State) : Host.Outcome State Fault Refusal :=
  finish s (s.sealDeadline id.toNat)
    [.free, .mem, .regs, .holding, .hevt, .msix, .qs, .items, .egress, .ue, .out, .ports, .gctxs, .sc, .harts]

/-- LATE_LIMIT (R29): The late limit of an item is reached; its remaining work is cancelled, a pending single LATE
record is formed, and its entry is freed. -/
def execLateLimit (id : DWord) (s : State) : Host.Outcome State Fault Refusal :=
  finish s (s.lateLimit id.toNat)
    [.free, .mem, .regs, .holding, .hevt, .msix, .qs, .items, .egress, .ue, .out, .ports, .gctxs, .sc, .harts]

/-- RECORD_EGRESS (R26): A formed record leaves on a destination, in seal order with decision records first, at most
32 seals per 6 µs. -/
def execRecordEgress (d : Fin 8) (s : State) : Host.Outcome State Fault Refusal :=
  finish s (s.egress1 d) [.mem, .regs, .holding, .hevt, .msix, .rqs, .egress, .rsn, .ue, .out, .sc, .harts]

/-- PROFILE_COMMIT (R33): A write of COMMIT to GT_PROF_SEL copies the staging window into profile INDEX, refusing
shares that are not strictly increasing. -/
def execProfileCommit (req : BitVec 16) (v : Word) (s : State) : Host.Outcome State Fault Refusal :=
  finish s (s.profSel req (v ||| 0x80000000)) [.regs, .flogRing, .flogLast, .holding, .hevt, .msix, .profs, .out]

/-- PROFILE_LOAD (R33): A write of LOAD to GT_PROF_SEL copies the committed values of profile INDEX into the staging
window. -/
def execProfileLoad (req : BitVec 16) (v : Word) (s : State) : Host.Outcome State Fault Refusal :=
  finish s (s.profSel req (v ||| 0x40000000)) [.regs, .flogRing, .flogLast, .holding, .hevt, .msix, .profs, .out]

end Sys2Proof.Machine
end

