-- ==== Sys2Proof/Machine/FloatRv.lean ====
section
/-! DEFINITION. Floating point as RISC-V computes it: the five rounding modes, the exception flags and the canonical NaN (R259; PRESUMED,
log entry 24). Every operation answers bits and flags: 16 invalid, 8 divide by zero, 4 overflow, 2 underflow, 1 inexact. -/
namespace Sys2Proof.Machine

def Fmt.width (f : Fmt) : Nat := f.ew + f.mw + 1
def Fmt.canon (f : Fmt) : Nat := f.infBits + 2 ^ (f.mw - 1)
def Fmt.isSnan (f : Fmt) (a : Nat) : Bool := (f.decode a).isNan && !a.testBit (f.mw - 1)
def Fmt.infOf (f : Fmt) (neg : Bool) : Nat := f.signBit neg + f.infBits

/-- m / 2^k rounded in mode rm (0 nearest even, 1 to zero, 2 down, 3 up, 4 nearest away, 5 to odd), and whether it was inexact. -/
def rmShift (rm : Nat) (neg : Bool) (m k : Nat) : Nat × Bool :=
  let q := m / 2 ^ k
  let r := m % 2 ^ k
  let up : Bool := match rm with
    | 0 => decide (2 ^ k < 2 * r) || (decide (2 * r = 2 ^ k) && q % 2 == 1)
    | 1 => false
    | 2 => neg && r != 0
    | 3 => !neg && r != 0
    | 5 => q % 2 == 0 && r != 0
    | _ => decide (2 ^ k ≤ 2 * r) && r != 0
  (if up then q + 1 else q, r != 0)

/-- ±m × 2^e, m > 0, rounded; underflow is detected after rounding. -/
def Fmt.roundM (f : Fmt) (rm : Nat) (neg : Bool) (m : Nat) (e : Int) : Nat × Nat :=
  let t := e + Nat.log2 m - f.mw
  let q := max t f.qmin
  let x := if q ≤ e then (m * 2 ^ (e - q).toNat, false) else rmShift rm neg m (q - e).toNat
  let n := if q = f.qmin then x.1 else (q - f.qmin).toNat * 2 ^ f.mw + x.1
  if f.infBits ≤ n then
    let toInf := rm = 0 ∨ rm = 4 ∨ (rm = 2 ∧ neg) ∨ (rm = 3 ∧ !neg)
    (f.signBit neg + (if toInf then f.infBits else f.infBits - 1), 5)
  else
    let tiny : Bool := decide (t < f.qmin) && !(decide (t = f.qmin - 1) &&
      (if t ≤ e then false else decide ((rmShift rm neg m (t - e).toNat).1 = 2 ^ (f.mw + 1))))
    (f.signBit neg + n, (if x.2 then 1 else 0) + (if x.2 && tiny then 2 else 0))

/-- An exact sum or product rounded; an exact zero has the sign `zneg`. -/
def Fmt.roundDyM (f : Fmt) (rm : Nat) (x : Dy) (zneg : Bool) : Nat × Nat :=
  if x.n = 0 then (f.signBit zneg, 0) else f.roundM rm (decide (x.n < 0)) x.n.natAbs x.e

/-- A NaN result: invalid when an operand signals, or when the operation itself is invalid. -/
def Fmt.nanOf (f : Fmt) (ops : List Nat) (inv : Bool) : Nat × Nat := (f.canon, if inv || ops.any f.isSnan then 16 else 0)

def Fmt.addM (f : Fmt) (rm a b : Nat) : Nat × Nat :=
  match f.decode a, f.decode b with
  | .nan, _ | _, .nan => f.nanOf [a, b] false
  | .inf x, .inf y => if x = y then (f.infOf x, 0) else f.nanOf [] true
  | .inf x, _ | _, .inf x => (f.infOf x, 0)
  | x, y => f.roundDyM rm (x.dy.add y.dy) (if x.neg? = y.neg? then x.neg? else rm == 2)

def Fmt.subM (f : Fmt) (rm a b : Nat) : Nat × Nat :=
  if (f.decode b).isNan then f.nanOf [a, b] false else f.addM rm a (f.negate b)

def Fmt.mulM (f : Fmt) (rm a b : Nat) : Nat × Nat :=
  match f.decode a, f.decode b with
  | .nan, _ | _, .nan => f.nanOf [a, b] false
  | .inf x, .fin y m _ | .fin y m _, .inf x => if m = 0 then f.nanOf [] true else (f.infOf (x != y), 0)
  | .inf x, .inf y => (f.infOf (x != y), 0)
  | x, y => f.roundDyM rm (x.dy.mul y.dy) (x.neg? != y.neg?)

/-- a × b + c with one rounding; `pn` and `cn` turn the signs of the product and of c. Infinity times zero is invalid even with a NaN c. -/
def Fmt.fmaM (f : Fmt) (rm : Nat) (pn cn : Bool) (a b c : Nat) : Nat × Nat :=
  let x := f.decode a
  let y := f.decode b
  let z := f.decode c
  let zeroInf : Bool := match x, y with
    | .inf _, .fin _ m _ | .fin _ m _, .inf _ => m == 0
    | _, _ => false
  if x.isNan ∨ y.isNan ∨ z.isNan ∨ zeroInf then f.nanOf [a, b, c] zeroInf
  else
    let ps := (x.neg? != y.neg?) != pn
    let cs := z.neg? != cn
    if x.isFin = false ∨ y.isFin = false then
      (if z.isFin = false ∧ cs ≠ ps then f.nanOf [] true else (f.infOf ps, 0))
    else if z.isFin = false then (f.infOf cs, 0)
    else
      let p := x.dy.mul y.dy
      let p : Dy := if pn then ⟨-p.n, p.e⟩ else p
      let k : Dy := if cn then ⟨-z.dy.n, z.dy.e⟩ else z.dy
      f.roundDyM rm (p.add k) (if ps = cs then ps else rm == 2)

def Fmt.divM (f : Fmt) (rm a b : Nat) : Nat × Nat :=
  match f.decode a, f.decode b with
  | .nan, _ | _, .nan => f.nanOf [a, b] false
  | .inf _, .inf _ => f.nanOf [] true
  | .inf x, y => (f.infOf (x != y.neg?), 0)
  | x, .inf y => (f.signBit (x.neg? != y), 0)
  | .fin x m p, .fin y n q =>
    if n = 0 then (if m = 0 then f.nanOf [] true else (f.infOf (x != y), 8))
    else if m = 0 then (f.signBit (x != y), 0)
    else
      let k := 2 * (f.mw + 4) + Nat.log2 n + 1
      f.roundM rm (x != y) (2 * (m * 2 ^ k / n) + (if m * 2 ^ k % n = 0 then 0 else 1)) (p - q - k - 1)

def Fmt.sqrtM (f : Fmt) (rm a : Nat) : Nat × Nat :=
  match f.decode a with
  | .nan => f.nanOf [a] false
  | .inf neg => if neg then f.nanOf [] true else (f.infOf false, 0)
  | .fin neg m e =>
    if m = 0 then (f.signBit neg, 0)
    else if neg then f.nanOf [] true
    else
      let m' := if e % 2 = 0 then m else 2 * m
      let e' := if e % 2 = 0 then e else e - 1
      let k := f.mw + 4
      let r := Nat.sqrt (m' * 2 ^ (2 * k))
      f.roundM rm false (2 * r + (if r * r = m' * 2 ^ (2 * k) then 0 else 1)) (e' / 2 - k - 1)

/-- Order of two numbers that are not NaN. -/
def Num.ltB : Num → Num → Bool
  | .inf a, .inf b => a && !b
  | .inf a, _ => a
  | _, .inf b => !b
  | x, y => decide ((x.dy.add ⟨-y.dy.n, y.dy.e⟩).n < 0)
def Num.eqB : Num → Num → Bool
  | .inf a, .inf b => a == b
  | .inf _, _ | _, .inf _ => false
  | x, y => decide ((x.dy.add ⟨-y.dy.n, y.dy.e⟩).n = 0)

def Fmt.eqM (f : Fmt) (a b : Nat) : Bool × Nat :=
  let x := f.decode a
  let y := f.decode b
  if x.isNan ∨ y.isNan then (false, (f.nanOf [a, b] false).2) else (x.eqB y, 0)
def Fmt.ltM (f : Fmt) (a b : Nat) : Bool × Nat :=
  let x := f.decode a
  let y := f.decode b
  if x.isNan ∨ y.isNan then (false, 16) else (x.ltB y, 0)
def Fmt.leM (f : Fmt) (a b : Nat) : Bool × Nat :=
  let x := f.decode a
  let y := f.decode b
  if x.isNan ∨ y.isNan then (false, 16) else (x.ltB y || x.eqB y, 0)

/-- Minimum or maximum: a NaN gives the other operand, and −0 is below +0. -/
def Fmt.minM (f : Fmt) (isMax : Bool) (a b : Nat) : Nat × Nat :=
  let x := f.decode a
  let y := f.decode b
  let fl := (f.nanOf [a, b] false).2
  if x.isNan ∧ y.isNan then (f.canon, fl)
  else if x.isNan then (b, fl)
  else if y.isNan then (a, fl)
  else
    let less := x.ltB y || (x.eqB y && x.neg? && !y.neg?)
    (if less != isMax then a else b, fl)

/-- The class mask of a number. -/
def Fmt.classM (f : Fmt) (a : Nat) : Nat :=
  match f.decode a with
  | .nan => if f.isSnan a then 0x100 else 0x200
  | .inf neg => if neg then 0x001 else 0x080
  | .fin neg m _ =>
    if m = 0 then (if neg then 0x008 else 0x010)
    else if m < 2 ^ f.mw then (if neg then 0x004 else 0x020)
    else (if neg then 0x002 else 0x040)

/-- From one format to another. -/
def Fmt.convM (f g : Fmt) (rm a : Nat) : Nat × Nat :=
  match f.decode a with
  | .nan => (g.canon, if f.isSnan a then 16 else 0)
  | .inf neg => (g.infOf neg, 0)
  | .fin neg m e => if m = 0 then (g.signBit neg, 0) else g.roundM rm neg m e

/-- The integer that a number rounds to, and whether that was inexact. -/
def roundInt (rm : Nat) (neg : Bool) (m : Nat) (e : Int) : Int × Bool :=
  let r := if 0 ≤ e then (m * 2 ^ e.toNat, false) else rmShift rm neg m (-e).toNat
  (if neg then -(r.1 : Int) else (r.1 : Int), r.2)

/-- To an integer of w bits, signed or not: out of range saturates and is invalid, a NaN gives the largest. -/
def Fmt.toIntM (f : Fmt) (rm w : Nat) (sgn : Bool) (a : Nat) : Int × Nat :=
  let lo : Int := if sgn then -(2 ^ (w - 1)) else 0
  let hi : Int := if sgn then 2 ^ (w - 1) - 1 else 2 ^ w - 1
  match f.decode a with
  | .nan => (hi, 16)
  | .inf neg => (if neg then lo else hi, 16)
  | .fin neg m e =>
    let r := roundInt rm neg m e
    if r.1 < lo then (lo, 16) else if hi < r.1 then (hi, 16) else (r.1, if r.2 then 1 else 0)

/-- From an integer. -/
def Fmt.ofIntM (f : Fmt) (rm : Nat) (i : Int) : Nat × Nat := f.roundDyM rm ⟨i, 0⟩ false

/-- Sign injection: 0 the sign of b, 1 its opposite, 2 the two signs' difference. -/
def Fmt.sgnj (f : Fmt) (k a b : Nat) : Nat :=
  let p := f.width - 1
  let sa := a.testBit p
  let sb := b.testBit p
  let t := if k = 0 then sb else if k = 1 then !sb else sa != sb
  a % 2 ^ p + (if t then 2 ^ p else 0)

/-! ## The 7-bit estimates of the V extension -/

/-- The significand of the reciprocal estimate: 1 / 1.(i + ½) rounded to 7 bits. -/
def recTab (i : Nat) : Nat := (2 * (128 * (255 - 2 * i)) + (2 * i + 257)) / (2 * (2 * i + 257))

/-- The significand of the reciprocal square root estimate of 1.(i + ½), or of twice that, with i of 6 bits. -/
def rsqrtTab (even : Bool) (i : Nat) : Nat :=
  ((List.range 128).filter (fun k => k != 0 &&
    decide ((255 + 2 * k) ^ 2 * ((2 * i + 129) * (if even then 1 else 2)) ≤ 512 ^ 2 * 128))).length

/-- Exponent and fraction of a finite nonzero number with a subnormal shifted up to a leading one. -/
def Fmt.normal (f : Fmt) (a : Nat) : Int × Nat :=
  let e := nbits a (f.ew + f.mw - 1) f.mw
  let m := a % 2 ^ f.mw
  if e ≠ 0 then (e, m) else (1 - ((f.mw - Nat.log2 m : Nat) : Int), m * 2 ^ (f.mw - Nat.log2 m) % 2 ^ f.mw)

def Fmt.rec7 (f : Fmt) (rm a : Nat) : Nat × Nat :=
  match f.decode a with
  | .nan => f.nanOf [a] false
  | .inf neg => (f.signBit neg, 0)
  | .fin neg m _ =>
    if m = 0 then (f.infOf neg, 8)
    else
      let x := f.normal a
      let oe : Int := 2 * f.bias - 1 - x.1
      let sig := recTab (x.2 / 2 ^ (f.mw - 7))
      if 2 * f.bias < oe then
        (if rm = 1 ∨ (rm = 2 ∧ !neg) ∨ (rm = 3 ∧ neg) then (f.signBit neg + f.infBits - 1, 5) else (f.infOf neg, 5))
      else if oe ≤ 0 then
        (f.signBit neg + (2 ^ f.mw + sig * 2 ^ (f.mw - 7)) / 2 ^ (1 - oe).toNat, 0)
      else (f.signBit neg + oe.toNat * 2 ^ f.mw + sig * 2 ^ (f.mw - 7), 0)

def Fmt.rsqrt7 (f : Fmt) (a : Nat) : Nat × Nat :=
  match f.decode a with
  | .nan => f.nanOf [a] false
  | .inf neg => if neg then f.nanOf [] true else (0, 0)
  | .fin neg m _ =>
    if m = 0 then (f.infOf neg, 8)
    else if neg then f.nanOf [] true
    else
      let x := f.normal a
      let oe := (3 * f.bias - 1 - x.1) / 2
      (oe.toNat * 2 ^ f.mw + rsqrtTab (x.1 % 2 == 1) (x.2 / 2 ^ (f.mw - 6)) * 2 ^ (f.mw - 7), 0)

end Sys2Proof.Machine
end

