-- ==== Sys2Proof/Machine/HartBase.lean ====
section
/-! DEFINITION. What every instruction of a fabric hart shares (R255 to R276): registers, control and status registers, traps and
interrupts, translation, protection and the partition check, and accesses to memory, devices and peers.  The RISC-V specifications
themselves are PRESUMED (R259 names them): log entry 24. -/
namespace Sys2Proof.Machine

/-! ## Results -/

/-- What part of an instruction answers: a value and the state after it; a trap with its cause, trap value and the state it leaves; or
that the hart waits, with the peer read (address, bytes) to be issued first, if one is, and the state in which it waits. -/
inductive MR (α : Type) where
  | ok (a : α) (s : State)
  | trap (cause tval : Nat) (s : State)
  | wait (req : Option (Nat × Nat)) (s : State)

def MR.bind {α β : Type} (r : MR α) (f : α → State → MR β) : MR β :=
  match r with
  | .ok a s => f a s
  | .trap c t s => .trap c t s
  | .wait q s => .wait q s

/-! ## Registers -/

def Priv.num : Priv → Nat
  | .u => 0
  | .s => 1
  | .m => 3

def privOf (n : Nat) : Priv := if n % 4 = 0 then .u else if n % 4 = 1 then .s else .m

/-- x0 reads zero and takes nothing. -/
def Hart.rx (x : Hart) (r : Nat) : DWord := if r % 32 = 0 then 0 else x.x.get 0 (r % 32)
def Hart.wx (x : Hart) (r : Nat) (v : DWord) : Hart := if r % 32 = 0 then x else { x with x := x.x.set 0 (r % 32) v }
def State.rx (s : State) (h r : Nat) : DWord := (s.hart h).rx r
def State.wx (s : State) (h r : Nat) (v : DWord) : State := s.updHart h (fun x => x.wx r v)

/-- A 64-bit value with bits hi..lo replaced. -/
def put64 (v : DWord) (hi lo n : Nat) : DWord :=
  BitVec.ofNat 64 (v.toNat - nbits v.toNat hi lo * 2 ^ lo + n % 2 ^ (hi + 1 - lo) * 2 ^ lo)

/-- Reset value of a CSR (R276): all ones in MTIMECMP. -/
def csrReset (n : Nat) : DWord := if n = 0x7C0 then BitVec.ofNat 64 ones64 else 0

/-- A CSR as it is kept, and one kept. -/
def Hart.cs (x : Hart) (n : Nat) : DWord := x.csr.get 0 n ^^^ csrReset n
def Hart.setCs (x : Hart) (n : Nat) (v : DWord) : Hart := { x with csr := x.csr.set 0 n (v ^^^ csrReset n) }
def Hart.csf (x : Hart) (n hi lo : Nat) : Nat := bits (x.cs n) hi lo
def Hart.putCs (x : Hart) (n hi lo v : Nat) : Hart := x.setCs n (put64 (x.cs n) hi lo v)

/-- Fields of mstatus. -/
def Hart.fs (x : Hart) : Nat := x.csf 0x300 14 13
def Hart.vs (x : Hart) : Nat := x.csf 0x300 10 9

/-- The urgency of the hart (R256). -/
def Hart.urg (x : Hart) : Nat := x.csf csrURG 1 0

/-! ## Interrupts and traps (R276) -/

/-- mip: the bits set by IPI and by software, the timers and the event channels. -/
def State.mip (s : State) (h : Nat) : DWord :=
  let x := s.hart h
  let v := (x.cs csrMip).toNat &&& 0x22A
  let stce := bit (x.cs 0x30A) 63
  let v := if stce then v &&& 0x20A else v
  let v := if stce ∧ (x.cs 0x14D).toNat ≤ s.now then v ||| 0x20 else v
  let v := if (x.cs 0x7C0).toNat ≤ s.now then v ||| 0x80 else v
  BitVec.ofNat 64 (if s.hevt.get 0 h ≠ 0 then v ||| 0x800 else v)

/-- Pending and enabled. -/
def State.irqs (s : State) (h : Nat) : Nat := ((s.mip h) &&& (s.hart h).cs 0x304).toNat

/-- The interrupt that the hart takes now. -/
def State.irq (s : State) (h : Nat) : Option Nat :=
  let x := s.hart h
  let p := s.irqs h
  let del := (x.cs 0x303).toNat
  let mOn := x.mode != .m || bit (x.cs 0x300) 3
  let sOn := x.mode == .u || (x.mode == .s && bit (x.cs 0x300) 1)
  let order := [11, 3, 7, 9, 1, 5]
  match order.find? (fun i => p.testBit i && !del.testBit i && mOn) with
  | some i => some i
  | none => order.find? (fun i => p.testBit i && del.testBit i && sOn)

/-- A trap: its saved registers, the mode and the handler's address. `irq` marks an interrupt. -/
def State.hartTrap (s : State) (h cause tval : Nat) (irq : Bool) : State :=
  s.updHart h (fun x =>
    let del := bit (x.cs (if irq then 0x303 else 0x302)) cause && x.mode != .m
    let cv : DWord := BitVec.ofNat 64 (cause + (if irq then 2 ^ 63 else 0))
    let tv : DWord := if Config.tvalShown cause then BitVec.ofNat 64 tval else 0
    let target := fun (v : DWord) => BitVec.ofNat 64 (v.toNat / 4 * 4 + (if irq && bit v 0 then 4 * cause else 0))
    if del then
      let t := (((x.setCs 0x141 x.pc).setCs 0x142 cv).setCs 0x143 tv)
      let t := ((t.putCs 0x300 5 5 (x.csf 0x300 1 1)).putCs 0x300 1 1 0).putCs 0x300 8 8 (x.mode.num % 2)
      { t with mode := .s, pc := target (x.cs 0x105) }
    else
      let t := (((x.setCs 0x341 x.pc).setCs 0x342 cv).setCs 0x343 tv)
      let t := ((t.putCs 0x300 7 7 (x.csf 0x300 3 3)).putCs 0x300 3 3 0).putCs 0x300 12 11 x.mode.num
      { t with mode := .m, pc := target (x.cs 0x305) })

/-- Return from a machine or supervisor trap. -/
def State.mret (s : State) (h : Nat) : State :=
  s.updHart h (fun x =>
    let md := privOf (x.csf 0x300 12 11)
    let t := ((x.putCs 0x300 3 3 (x.csf 0x300 7 7)).putCs 0x300 7 7 1).putCs 0x300 12 11 0
    let t := if md = .m then t else t.putCs 0x300 17 17 0
    { t with mode := md, pc := x.cs 0x341 })
def State.sret (s : State) (h : Nat) : State :=
  s.updHart h (fun x =>
    let t := ((x.putCs 0x300 1 1 (x.csf 0x300 5 5)).putCs 0x300 5 5 1).putCs 0x300 8 8 0
    { t.putCs 0x300 17 17 0 with mode := privOf (x.csf 0x300 8 8), pc := x.cs 0x141 })

/-! ## Kinds of access -/

inductive Acc where
  | x | r | w
  deriving DecidableEq, Repr

def Acc.misaligned : Acc → Nat
  | .x => 0
  | .r => 4
  | .w => 6
def Acc.accessFault : Acc → Nat
  | .x => 1
  | .r => 5
  | .w => 7
def Acc.pageFault : Acc → Nat
  | .x => 12
  | .r => 13
  | .w => 15

/-- The mode in which an access of a kind is checked: MPRV acts on loads and stores. -/
def Hart.eff (x : Hart) (k : Acc) : Priv := if k ≠ .x ∧ bit (x.cs 0x300) 17 then privOf (x.csf 0x300 12 11) else x.mode

/-! ## Physical memory protection (R259, R263): 16 entries, 4 KiB granularity -/

def Hart.pmpCfg (x : Hart) (i : Nat) : Nat := x.csf (0x3A0 + 2 * (i / 8)) (8 * (i % 8) + 7) (8 * (i % 8))
def Hart.pmpAddr (x : Hart) (i : Nat) : Nat := (x.cs (0x3B0 + i)).toNat

/-- Trailing ones of a number below 2^54. -/
def trailingOnes (n : Nat) : Nat := (firstBelow 54 (fun i => !n.testBit i)).getD 54

/-- First byte and size of entry i's region; none where it is off. -/
def Hart.pmpRange (x : Hart) (i : Nat) : Option (Nat × Nat) :=
  let a := x.pmpAddr i
  match nbits (x.pmpCfg i) 4 3 with
  | 1 =>
    let lo := if i = 0 then 0 else x.pmpAddr (i - 1) / 1024 * 4096
    some (lo, a / 1024 * 4096 - lo)
  | 3 =>
    let k := trailingOnes (a ||| 0x1FF)
    some (a / 2 ^ (k + 1) * 2 ^ (k + 1) * 4, 2 ^ (k + 3))
  | _ => none

/-- The lowest-numbered entry that matches a byte of the access decides. -/
def Hart.pmpOk (x : Hart) (eff : Priv) (k : Acc) (a n : Nat) : Bool :=
  match firstBelow 16 (fun i => match x.pmpRange i with
    | some (lo, m) => decide (a < lo + m) && decide (lo < a + n)
    | none => false) with
  | none => eff == .m
  | some i =>
    match x.pmpRange i with
    | none => eff == .m
    | some (lo, m) =>
      let c := x.pmpCfg i
      decide (lo ≤ a) && decide (a + n ≤ lo + m) &&
      ((eff == .m && !c.testBit 7) || c.testBit (match k with | .r => 0 | .w => 1 | .x => 2))

/-! ## The partition check (R263, R306, R346) and physical accesses -/

/-- The partition check; the boot hart of a core that no partition owns passes it everywhere (log entry 25). -/
def State.hartOwns (s : State) (h a n : Nat) : Bool :=
  match s.coreOwner (h / 512) with
  | some p => s.granted p a n
  | none => inRange a n && (if commonsBase ≤ a ∧ a < 0x001003800000 then (unitsOf a n).all s.unitIsMem else true)
def State.hartBlocked (s : State) (h a n : Nat) : Bool :=
  match s.coreOwner (h / 512) with
  | some p => s.sliceBlocks p (s.hart h).vi a n
  | none => false

/-- A physical address and size pass PMP, the partition check and the slice of the hart's instance, and hold no error; where not, the
state that the refusal leaves. -/
def State.physStop (s : State) (h : Nat) (eff : Priv) (k : Acc) (a n : Nat) : Option State :=
  let x := s.hart h
  if x.pmpOk eff k a n = false then some s
  else
    if s.hartOwns h a n = false then some s
    else if s.hartBlocked h a n = true then some s.sliceViol
    else if isPeer a then none
    else if (if k = .w then s.canWrite 0 a n else s.canRead 0 a n) = .ok then none
    else some s

/-- An access to HBM goes through the ways of the owner's cache (R308). -/
def State.hartCache (s : State) (h a : Nat) (write : Bool) : State :=
  match s.coreOwner (h / 512) with
  | some p => if a < 0x000C00000000 then s.scAccess p (a / 64) write else s
  | none => s

/-- The answer to a peer read of this hart at an address, and whether one is awaited. -/
def State.peerData (s : State) (h a n : Nat) : Option (Nat × Bytes) :=
  (s.kal.answers.find? (fun (e : PeerReq × Nat × Bytes) => e.1.who == .load h a && e.1.bytes == n)).map Prod.snd
def isLoadOf (h : Nat) (r : PeerReq) : Bool := match r.who with | .load k _ => k == h | _ => false
def isStoreOf (h : Nat) (r : PeerReq) : Bool := match r.who with | .store k => k == h | _ => false
def State.peerBusy (s : State) (h : Nat) : Bool :=
  s.kal.peers.any (isLoadOf h) || s.kal.answers.any (fun (e : PeerReq × Nat × Bytes) => isLoadOf h e.1)
def State.dropAnswers (s : State) (h : Nat) : State :=
  if s.kal.answers.any (fun (e : PeerReq × Nat × Bytes) => isLoadOf h e.1) then
    s.updKal (fun q => { q with answers := q.answers.filter (fun (e : PeerReq × Nat × Bytes) => !isLoadOf h e.1) })
  else s

/-- Read bytes of a physical address. A failure raises the access fault of kind `k`, with trap value `tv`. -/
def State.physRead (s : State) (h : Nat) (eff : Priv) (pk k : Acc) (pa n tv : Nat) : MR Bytes :=
  let a := s.localAddr pa
  match s.physStop h eff pk a n with
  | some t => .trap k.accessFault tv t
  | none =>
    if isPeer a then
      match s.peerData h a n with
      | some (0, d) => .ok d s
      | some _ => .trap k.accessFault tv s
      | none => .wait (some (a, n)) s
    else
      let r := (s.hartCache h a false).devRead (reqHart h) a n
      .ok r.1 r.2

/-- Write bytes at a physical address; a peer write is posted, and waits while eight accesses of the hart are unanswered (R258). -/
def State.physWrite (s : State) (h : Nat) (eff : Priv) (pa : Nat) (b : Bytes) (tv : Nat) : MR Unit :=
  let a := s.localAddr pa
  match s.physStop h eff .w a b.length with
  | some t => .trap 7 tv t
  | none =>
    if isPeer a then
      if 8 ≤ (s.kal.peers.filter (isStoreOf h)).length then .wait none s
      else
        let p := (s.coreOwner (h / 512)).getD 0
        .ok () (s.issuePeer (.store h) true a b b.length (s.hart h).urg (s.vtag p (s.hart h).vi))
    else if a < 0x000C00000000 then .ok () (((s.hartCache h a true).st a b).clearUe a b.length)
    else .ok () (s.devWrite (reqHart h) a b)

/-! ## Translation (R262): Sv48 with Svade -/

/-- A leaf entry allows the access. -/
def pteAllows (x : Hart) (eff : Priv) (k : Acc) (pte : Nat) : Bool :=
  let u := pte.testBit 4
  let sum := bit (x.cs 0x300) 18
  let mxr := bit (x.cs 0x300) 19
  (if eff = .u then u else (!u || (sum && k != .x))) &&
  (match k with
   | .x => pte.testBit 3
   | .r => pte.testBit 1 || (mxr && pte.testBit 3)
   | .w => pte.testBit 2) &&
  pte.testBit 6 && (k != .w || pte.testBit 7)

/-- The walk from the table at `base`, with `lv` levels left below this one. -/
def State.walk (s : State) (h : Nat) (eff : Priv) (k : Acc) (va : Nat) : Nat → Nat → MR Nat
  | 0, _ => .trap k.pageFault va s
  | lv + 1, base =>
    let idx := nbits va (12 + 9 * lv + 8) (12 + 9 * lv)
    let fault : MR Nat := .trap k.pageFault va s
    (s.physRead h .s .r k (base + 8 * idx) 8 va).bind fun b s1 =>
      let pte := leNat b
      let leaf := pte.testBit 1 || pte.testBit 3
      let ppn := nbits pte 53 10
      if pte.testBit 0 = false ∨ (pte.testBit 2 ∧ pte.testBit 1 = false) ∨ 2 ^ 54 ≤ pte then fault
      else if leaf then
        if pteAllows (s1.hart h) eff k pte = false ∨ ppn % 2 ^ (9 * lv) ≠ 0 then fault
        else .ok (ppn * 4096 + va % 2 ^ (12 + 9 * lv)) s1
      else if nbits pte 7 6 ≠ 0 ∨ pte.testBit 4 then fault
      else State.walk s1 h eff k va lv (ppn * 4096)

/-- The physical address of a virtual one. -/
def State.translate (s : State) (h : Nat) (k : Acc) (va : Nat) : MR Nat :=
  let x := s.hart h
  let eff := x.eff k
  let satp := x.cs 0x180
  if eff = .m ∨ bits satp 63 60 = 0 then .ok va s
  else if nbits va 63 48 ≠ (if va.testBit 47 then 65535 else 0) then .trap k.pageFault va s
  else s.walk h eff k va 4 (bits satp 43 0 * 4096)

/-! ## Accesses of instructions (R261) -/

/-- A load or fetch of n bytes: misaligned across 64 bytes traps. -/
def State.hread (s : State) (h : Nat) (k : Acc) (va n : Nat) : MR Bytes :=
  if 64 < va % 64 + n then .trap k.misaligned va s
  else (s.translate h k va).bind fun pa s => s.physRead h ((s.hart h).eff k) k k pa n va

/-- A store. -/
def State.hwrite (s : State) (h va : Nat) (b : Bytes) : MR Unit :=
  if 64 < va % 64 + b.length then .trap 6 va s
  else (s.translate h .w va).bind fun pa s => s.physWrite h ((s.hart h).eff .w) pa b va

/-- The physical address of an atomic access, which HBM and commons alone take (R270). -/
def State.atomAddr (s : State) (h : Nat) (k : Acc) (va n : Nat) : MR Nat :=
  if va % n ≠ 0 then .trap k.misaligned va s
  else (s.translate h k va).bind fun pa s =>
    let a := s.localAddr pa
    if 0x001003800000 ≤ a then .trap k.accessFault va s
    else match s.physStop h ((s.hart h).eff k) k a n with
      | some t => .trap k.accessFault va t
      | none => if k = .w ∧ s.canRead 0 a n ≠ .ok then .trap k.accessFault va s else .ok a s

end Sys2Proof.Machine
end

