-- ==== Sys2Proof/Machine/HartCsr.lean ====
section
/-! DEFINITION. The control and status registers of a fabric hart (R256 to R262, R276). The RISC-V registers are PRESUMED, log entry
24. -/
namespace Sys2Proof.Machine

/-- CSRs whose bits are kept as written, with the bits that a write may change. -/
def csrMask (n : Nat) : Option Nat :=
  if n = 0x105 ∨ n = 0x305 then some 0xFFFFFFFFFFFFFFFD        -- stvec, mtvec: MODE 0 or 1
  else if n = 0x106 ∨ n = 0x306 then some 0xFFFFFFFF           -- counter enables
  else if n = 0x10A then some 1                                -- senvcfg.FIOM
  else if n = 0x30A then some 0x8000000000000001               -- menvcfg.STCE, FIOM
  else if n = 0x140 ∨ n = 0x340 ∨ n = 0x142 ∨ n = 0x342 ∨ n = 0x143 ∨ n = 0x343 then some ones64
  else if n = 0x141 ∨ n = 0x341 then some 0xFFFFFFFFFFFFFFFE   -- sepc, mepc: 16-bit instructions
  else if n = 0x14D ∨ n = 0x7C0 then some ones64               -- stimecmp, MTIMECMP
  else if n = 0x302 then some 0xB3FF                           -- medeleg: not from machine mode
  else if n = 0x303 then some 0x222                            -- mideleg: the supervisor interrupts
  else if n = 0x304 then some 0xAAA                            -- mie
  else if n = 0x320 then some 5                                -- mcountinhibit
  else if n = 0xB02 then some ones64                           -- minstret
  else if n = csrURG then some 3
  else none

/-- Read-only zero, or a write that changes nothing: performance counters and their events (R259), misa and mcycle. -/
def csrZero (n : Nat) : Bool :=
  (decide (0xB03 ≤ n) && decide (n ≤ 0xB1F)) || (decide (0x323 ≤ n) && decide (n ≤ 0x33F)) || (decide (0xC03 ≤ n) && decide (n ≤ 0xC1F))

/-- The CSR exists on a fabric hart. -/
def csrExists (n : Nat) : Bool :=
  (csrMask n).isSome || csrZero n ||
  [0x001, 0x002, 0x003, 0x008, 0x009, 0x00A, 0x00F, 0xC20, 0xC21, 0xC22, 0xC00, 0xC01, 0xC02, 0x100, 0x104, 0x144, 0x180,
   0xF11, 0xF12, 0xF13, 0xF14, 0xF15, 0x300, 0x301, 0x344, 0xB00, 0x801, 0x7C1, 0x3A0, 0x3A2].contains n ||
  (decide (0x3B0 ≤ n) && decide (n ≤ 0x3BF))

/-- The hart may access CSR n in this way; an access that may not is an illegal instruction. -/
def Hart.csrOk (x : Hart) (n : Nat) (write : Bool) : Bool :=
  let tm := fun (c : Nat) (i : Nat) => bit (x.cs c) i
  csrExists n && decide (nbits n 9 8 ≤ x.mode.num) && !(write && (nbits n 11 10 == 3 || n == 0x7C1)) &&
  (if n = 1 ∨ n = 2 ∨ n = 3 then x.fs != 0 else true) &&
  (if n = 8 ∨ n = 9 ∨ n = 10 ∨ n = 15 ∨ (0xC20 ≤ n ∧ n ≤ 0xC22) then x.vs != 0 else true) &&
  (if 0xC00 ≤ n ∧ n ≤ 0xC1F then
     (x.mode == .m || tm 0x306 (n - 0xC00)) && (x.mode != .u || tm 0x106 (n - 0xC00)) else true) &&
  (if n = 0x180 then !(x.mode == .s && bit (x.cs 0x300) 20) else true) &&
  (if n = 0x14D then x.mode == .m || (tm 0x306 1 && tm 0x30A 63) else true)

/-- mstatus as read: UXL and SXL 64-bit, SD computed. -/
def Hart.mstatus (x : Hart) : DWord :=
  let v := (x.cs 0x300).toNat
  BitVec.ofNat 64 (v ||| 0xA00000000 ||| (if x.fs = 3 ∨ x.vs = 3 then 2 ^ 63 else 0))

/-- Bits of mstatus that are kept, and those that sstatus shows. -/
def mstatusMask : Nat := 0x7E7FAA
def sstatusMask : Nat := 0xC6722

/-- pmpaddr as read: with 4 KiB granularity its low bits are ones under NAPOT and zeros otherwise. -/
def Hart.pmpRead (x : Hart) (i : Nat) : DWord :=
  let a := x.pmpAddr i
  BitVec.ofNat 64 (if (x.pmpCfg i).testBit 4 then a ||| 0x1FF else a / 1024 * 1024)

/-- What a CSR reads, and the state after: a counter whose value is open takes a free value, and MEVTQ gives up its lowest channel
(R276). -/
def State.csrRead (s : State) (h n : Nat) : DWord × State :=
  let x := s.hart h
  let slot := x.slot.getD {}
  let w := fun (k : Nat) => BitVec.ofNat 64 k
  if n = 0xC00 ∨ n = 0xB00 then s.fresh64
  else if n = 0x7C1 then
    match firstBelow 256 (fun i => bit (s.hevt.get 0 h) i) with
    | none => (0, s)
    | some i => (w (i + 2 ^ 63), { s with hevt := s.hevt.upd 0 h (fun b => b ^^^ BitVec.ofNat 256 (2 ^ i)) })
  else
    let v : DWord :=
      if n = 1 then w (x.csf 3 4 0)
      else if n = 2 then w (x.csf 3 7 5)
      else if n = 3 then x.cs 3
      else if n = 0x008 then w slot.vstart
      else if n = 0x009 then w (ofBool slot.vxsat)
      else if n = 0x00A then w slot.vxrm
      else if n = 0x00F then w (slot.vxrm * 2 + ofBool slot.vxsat)
      else if n = 0xC20 then w slot.vl
      else if n = 0xC21 then slot.vtype
      else if n = 0xC22 then w 64
      else if n = 0xC01 then w s.now
      else if n = 0xC02 then x.cs 0xB02
      else if csrZero n then 0
      else if 0xF11 ≤ n ∧ n ≤ 0xF15 then (if n = 0xF14 then w h else Config.idCsr n)
      else if n = 0x300 then x.mstatus
      else if n = 0x100 then w (x.mstatus.toNat &&& (sstatusMask + 2 ^ 63 + 0x300000000))
      else if n = 0x301 then w 0x800000000034112F
      else if n = 0x104 then w ((x.cs 0x304).toNat &&& (x.cs 0x303).toNat)
      else if n = 0x344 then s.mip h
      else if n = 0x144 then w ((s.mip h).toNat &&& (x.cs 0x303).toNat)
      else if 0x3B0 ≤ n ∧ n ≤ 0x3BF then x.pmpRead (n - 0x3B0)
      else x.cs n
    (v, s)

/-- `old` with the bits of `mask` taken from `v`. -/
def mix (mask : Nat) (old v : DWord) : DWord := (old &&& ~~~(BitVec.ofNat 64 mask)) ||| (v &&& BitVec.ofNat 64 mask)

/-- mstatus after a write; MPP keeps its value when 2 is written. -/
def Hart.newStatus (x : Hart) (mask : Nat) (v : DWord) : DWord :=
  let old := x.cs 0x300
  let t := mix mask old v
  if bits t 12 11 = 2 then put64 t 12 11 (bits old 12 11) else t

/-- A write of mstatus or sstatus: VS at Off releases the vector slot, and VS leaving Off takes one (R257). -/
def Hart.setStatus (x : Hart) (v : DWord) : Hart :=
  let t := x.setCs 0x300 v
  if bits v 10 9 = 0 then { t with slot := none } else if x.slot.isNone then { t with slot := some {} } else t

/-- A byte of pmpcfg after a write: a locked entry, one with W and not R, and one that asks for NA4 keep their value. -/
def Hart.newPmpCfg (x : Hart) (i v : Nat) : Nat :=
  let old := x.pmpCfg i
  if old.testBit 7 ∨ (v.testBit 1 ∧ v.testBit 0 = false) ∨ nbits v 4 3 = 2 then old else v &&& 0x9F

/-- Entry i's address is locked: by itself, or as the bottom of a locked region. -/
def Hart.pmpLocked (x : Hart) (i : Nat) : Bool :=
  (x.pmpCfg i).testBit 7 || (decide (i < 15) && (x.pmpCfg (i + 1)).testBit 7 && nbits (x.pmpCfg (i + 1)) 4 3 == 1)

/-- The vector CSRs are written. -/
def Hart.setSlot (x : Hart) (f : VSlot → VSlot) : Hart := ({ x with slot := x.slot.map f }).putCs 0x300 10 9 3

/-- A CSR write that is allowed. -/
def State.csrWrite (s : State) (h n : Nat) (v : DWord) : State :=
  s.updHart h (fun x =>
    let k := v.toNat
    let fp := fun (hi lo : Nat) => (x.putCs 3 hi lo k).putCs 0x300 14 13 3
    if n = 1 then fp 4 0
    else if n = 2 then fp 7 5
    else if n = 3 then fp 7 0
    else if n = 0x008 then x.setSlot (fun t => { t with vstart := k % 512 })
    else if n = 0x009 then x.setSlot (fun t => { t with vxsat := k.testBit 0 })
    else if n = 0x00A then x.setSlot (fun t => { t with vxrm := k % 4 })
    else if n = 0x00F then x.setSlot (fun t => { t with vxsat := k.testBit 0, vxrm := nbits k 2 1 })
    else if n = 0x300 then x.setStatus (x.newStatus mstatusMask v)
    else if n = 0x100 then x.setStatus (x.newStatus sstatusMask v)
    else if n = 0x104 then x.setCs 0x304 (mix (x.cs 0x303).toNat (x.cs 0x304) v)
    else if n = 0x344 then x.setCs csrMip (mix (if bit (x.cs 0x30A) 63 then 0x20A else 0x22A) (x.cs csrMip) v)
    else if n = 0x144 then x.setCs csrMip (mix ((x.cs 0x303).toNat &&& 2) (x.cs csrMip) v)
    else if n = 0x180 then (if bits v 63 60 = 0 ∨ bits v 63 60 = 9 then x.setCs 0x180 v else x)
    else if n = 0x801 then (if bit v 0 then x.setCs 0x801 0 else x)
    else if n = 0x3A0 ∨ n = 0x3A2 then
      (List.range 8).foldl (fun (y : Hart) j =>
        y.putCs n (8 * j + 7) (8 * j) (x.newPmpCfg ((n - 0x3A0) * 4 + j) (bits v (8 * j + 7) (8 * j)))) x
    else if 0x3B0 ≤ n ∧ n ≤ 0x3BF then (if x.pmpLocked (n - 0x3B0) then x else x.setCs n (BitVec.ofNat 64 (k % 2 ^ 54)))
    else match csrMask n with
      | some m => x.setCs n (mix m (x.cs n) v)
      | none => x)

/-- A CSR instruction's funct3: the value written from the old one and the source. -/
def csrNew (f3 : Nat) (old src : DWord) : DWord :=
  match f3 % 4 with
  | 1 => src
  | 2 => old ||| src
  | _ => old &&& ~~~src

/-- The fields of a CSR instruction: register, source value, and whether it reads and writes. -/
def csrSrc (x : Hart) (insn : Nat) : DWord := if insn.testBit 14 then BitVec.ofNat 64 (nbits insn 19 15) else x.rx (nbits insn 19 15)
def csrReads (insn : Nat) : Bool := !(nbits insn 13 12 == 1 && nbits insn 11 7 == 0)
def csrWrites (insn : Nat) : Bool := nbits insn 13 12 == 1 || nbits insn 19 15 != 0

/-- What a CSR instruction would write. A read-modify-write of mip does not take the computed pending bits into what is kept. -/
def State.csrTarget (s : State) (h insn : Nat) : DWord :=
  let x := s.hart h
  let n := nbits insn 31 20
  let old := if n = 0x344 ∨ n = 0x144 then x.cs csrMip else if n = 0x100 then x.cs 0x300 else (s.csrRead h n).1
  csrNew (nbits insn 14 12) old (csrSrc x insn)

/-- A CSR instruction. -/
def State.csrInsn (s : State) (h insn : Nat) : MR Unit :=
  let x := s.hart h
  let n := nbits insn 31 20
  if x.csrOk n (csrWrites insn) = false then .trap 2 insn s
  else
    let v := s.csrTarget h insn
    let r := if csrReads insn then s.csrRead h n else (0, s)
    let t := if csrWrites insn then r.2.csrWrite h n v else r.2
    .ok () (if csrReads insn then t.wx h (nbits insn 11 7) r.1 else t)

/-- mstatus.VS after a CSR instruction that the hart may execute and that writes mstatus or sstatus. -/
def State.newVs (s : State) (h insn : Nat) : Option Nat :=
  let x := s.hart h
  let n := nbits insn 31 20
  if insn % 128 = 0x73 ∧ nbits insn 13 12 ≠ 0 ∧ (n = 0x300 ∨ n = 0x100) ∧ csrWrites insn ∧ x.csrOk n true then
    some (bits (s.csrTarget h insn) 10 9)
  else none

end Sys2Proof.Machine
end

