-- ==== Sys2Proof/Machine/HartInt.lean ====
section
/-! DEFINITION. The integer instructions of a fabric hart: RV64IMAC with Zba, Zbb, Zbs, Zicond, Zicsr and Zawrs (R259, R260).
PRESUMED from the RISC-V specifications, log entry 24. -/
namespace Sys2Proof.Machine

/-! ## Fields of an instruction -/

def iRd (i : Nat) : Nat := nbits i 11 7
def iRs1 (i : Nat) : Nat := nbits i 19 15
def iRs2 (i : Nat) : Nat := nbits i 24 20
def iF3 (i : Nat) : Nat := nbits i 14 12
def iF7 (i : Nat) : Nat := nbits i 31 25

/-- A signed field of w bits as 64 bits. -/
def sext64 (w n : Nat) : DWord := BitVec.ofInt 64 (signed w n)
def immI (i : Nat) : DWord := sext64 12 (nbits i 31 20)
def immS (i : Nat) : DWord := sext64 12 (nbits i 31 25 * 32 + nbits i 11 7)
def immB (i : Nat) : DWord := sext64 13 (nbits i 31 31 * 4096 + nbits i 7 7 * 2048 + nbits i 30 25 * 32 + nbits i 11 8 * 2)
def immU (i : Nat) : DWord := sext64 32 (nbits i 31 12 * 4096)
def immJ (i : Nat) : DWord := sext64 21 (nbits i 31 31 * 2 ^ 20 + nbits i 19 12 * 4096 + nbits i 20 20 * 2048 + nbits i 30 21 * 2)

/-! ## Compressed instructions -/

def mkI (op f3 rd rs1 imm : Nat) : Nat := op + rd * 2 ^ 7 + f3 * 2 ^ 12 + rs1 * 2 ^ 15 + imm % 4096 * 2 ^ 20
def mkS (op f3 rs1 rs2 imm : Nat) : Nat := op + imm % 32 * 2 ^ 7 + f3 * 2 ^ 12 + rs1 * 2 ^ 15 + rs2 * 2 ^ 20 + imm / 32 % 128 * 2 ^ 25
def mkR (op f3 f7 rd rs1 rs2 : Nat) : Nat := op + rd * 2 ^ 7 + f3 * 2 ^ 12 + rs1 * 2 ^ 15 + rs2 * 2 ^ 20 + f7 * 2 ^ 25
def mkB (f3 rs1 rs2 imm : Nat) : Nat :=
  0x63 + nbits imm 11 11 * 2 ^ 7 + nbits imm 4 1 * 2 ^ 8 + f3 * 2 ^ 12 + rs1 * 2 ^ 15 + rs2 * 2 ^ 20 + nbits imm 10 5 * 2 ^ 25 + nbits imm 12 12 * 2 ^ 31
def mkJ (rd imm : Nat) : Nat :=
  0x6F + rd * 2 ^ 7 + nbits imm 19 12 * 2 ^ 12 + nbits imm 11 11 * 2 ^ 20 + nbits imm 10 1 * 2 ^ 21 + nbits imm 20 20 * 2 ^ 31

/-- A signed field of w bits as a 32-bit number, for the immediates above. -/
def simm (w n : Nat) : Nat := unsign 32 (signed w n)

/-- Quadrant 0: loads and stores through x8 to x15. -/
def expandC0 (c : Nat) : Option Nat :=
  let rd := 8 + nbits c 4 2
  let rs := 8 + nbits c 9 7
  let w := nbits c 12 10 * 8 + nbits c 6 6 * 4 + nbits c 5 5 * 64
  let d := nbits c 12 10 * 8 + nbits c 6 5 * 64
  match nbits c 15 13 with
  | 0 =>
    let imm := nbits c 12 11 * 16 + nbits c 10 7 * 64 + nbits c 6 6 * 4 + nbits c 5 5 * 8
    if imm = 0 then none else some (mkI 0x13 0 rd 2 imm)
  | 1 => some (mkI 0x07 3 rd rs d)
  | 2 => some (mkI 0x03 2 rd rs w)
  | 3 => some (mkI 0x03 3 rd rs d)
  | 5 => some (mkS 0x27 3 rs rd d)
  | 6 => some (mkS 0x23 2 rs rd w)
  | 7 => some (mkS 0x23 3 rs rd d)
  | _ => none

/-- The register-register and shift forms of quadrant 1. -/
def expandC1Alu (c : Nat) : Option Nat :=
  let rd := 8 + nbits c 9 7
  let rs2 := 8 + nbits c 4 2
  let sh := nbits c 12 12 * 32 + nbits c 6 2
  match nbits c 11 10 with
  | 0 => some (mkI 0x13 5 rd rd sh)
  | 1 => some (mkI 0x13 5 rd rd (sh + 0x400))
  | 2 => some (mkI 0x13 7 rd rd (simm 6 sh))
  | _ =>
    match nbits c 12 12 * 4 + nbits c 6 5 with
    | 0 => some (mkR 0x33 0 0x20 rd rd rs2)
    | 1 => some (mkR 0x33 4 0 rd rd rs2)
    | 2 => some (mkR 0x33 6 0 rd rd rs2)
    | 3 => some (mkR 0x33 7 0 rd rd rs2)
    | 4 => some (mkR 0x3B 0 0x20 rd rd rs2)
    | 5 => some (mkR 0x3B 0 0 rd rd rs2)
    | _ => none

/-- Quadrant 1. -/
def expandC1 (c : Nat) : Option Nat :=
  let rd := nbits c 11 7
  let imm6 := simm 6 (nbits c 12 12 * 32 + nbits c 6 2)
  let j := simm 12 (nbits c 12 12 * 2048 + nbits c 11 11 * 16 + nbits c 10 9 * 256 + nbits c 8 8 * 1024 + nbits c 7 7 * 64 +
    nbits c 6 6 * 128 + nbits c 5 3 * 2 + nbits c 2 2 * 32)
  let b := simm 9 (nbits c 12 12 * 256 + nbits c 11 10 * 8 + nbits c 6 5 * 64 + nbits c 4 3 * 2 + nbits c 2 2 * 32)
  match nbits c 15 13 with
  | 0 => some (mkI 0x13 0 rd rd imm6)
  | 1 => if rd = 0 then none else some (mkI 0x1B 0 rd rd imm6)
  | 2 => some (mkI 0x13 0 rd 0 imm6)
  | 3 =>
    if imm6 = 0 then none
    else if rd = 2 then
      some (mkI 0x13 0 2 2 (simm 10 (nbits c 12 12 * 512 + nbits c 6 6 * 16 + nbits c 5 5 * 64 + nbits c 4 3 * 128 + nbits c 2 2 * 32)))
    else some (0x37 + rd * 2 ^ 7 + imm6 % 2 ^ 20 * 2 ^ 12)
  | 4 => expandC1Alu c
  | 5 => some (mkJ 0 j)
  | 6 => some (mkB 0 (8 + nbits c 9 7) 0 b)
  | _ => some (mkB 1 (8 + nbits c 9 7) 0 b)

/-- Quadrant 2. -/
def expandC2 (c : Nat) : Option Nat :=
  let rd := nbits c 11 7
  let rs2 := nbits c 6 2
  let d := nbits c 12 12 * 32 + nbits c 6 5 * 8 + nbits c 4 2 * 64
  let w := nbits c 12 12 * 32 + nbits c 6 4 * 4 + nbits c 3 2 * 64
  let sd := nbits c 12 10 * 8 + nbits c 9 7 * 64
  let sw := nbits c 12 9 * 4 + nbits c 8 7 * 64
  match nbits c 15 13 with
  | 0 => some (mkI 0x13 1 rd rd (nbits c 12 12 * 32 + rs2))
  | 1 => some (mkI 0x07 3 rd 2 d)
  | 2 => if rd = 0 then none else some (mkI 0x03 2 rd 2 w)
  | 3 => if rd = 0 then none else some (mkI 0x03 3 rd 2 d)
  | 4 =>
    if nbits c 12 12 = 0 then
      (if rs2 = 0 then (if rd = 0 then none else some (mkI 0x67 0 0 rd 0)) else some (mkR 0x33 0 0 rd 0 rs2))
    else if rs2 = 0 then (if rd = 0 then some 0x00100073 else some (mkI 0x67 0 1 rd 0))
    else some (mkR 0x33 0 0 rd rd rs2)
  | 5 => some (mkS 0x27 3 2 rs2 sd)
  | 6 => some (mkS 0x23 2 2 rs2 sw)
  | _ => some (mkS 0x23 3 2 rs2 sd)

/-- The 32-bit instruction that a 16-bit one stands for; 0, which is illegal, where there is none. -/
def expand (c : Nat) : Nat :=
  (match c % 4 with
   | 0 => expandC0 c
   | 1 => expandC1 c
   | 2 => expandC2 c
   | _ => some c).getD 0

/-! ## Integer arithmetic -/

def dw (i : Int) : DWord := BitVec.ofInt 64 i
def dn (n : Nat) : DWord := BitVec.ofNat 64 n

/-- Signed quotient and remainder of width w: division by zero and overflow as RISC-V defines them. -/
def divS (w : Nat) (a b : Int) : Int := if b = 0 then -1 else if a = -(2 ^ (w - 1)) ∧ b = -1 then a else a.tdiv b
def remS (w : Nat) (a b : Int) : Int := if b = 0 then a else if a = -(2 ^ (w - 1)) ∧ b = -1 then 0 else a.tmod b
def divU (w a b : Nat) : Nat := if b = 0 then 2 ^ w - 1 else a / b
def remU (a b : Nat) : Nat := if b = 0 then a else a % b

/-- Leading zeros, trailing zeros and ones of a w-bit number. -/
def clzN (w n : Nat) : Nat := (firstBelow w (fun i => n.testBit (w - 1 - i))).getD w
def ctzN (w n : Nat) : Nat := (firstBelow w (fun i => n.testBit i)).getD w
def cpopN (w n : Nat) : Nat := ((List.range w).filter (fun i => n.testBit i)).length

/-- The bytes of a 64-bit value. -/
def mapBytes (f : Nat → Nat) (n : Nat) : DWord := dn (leNat ((toLe 8 n).map (fun b => BitVec.ofNat 8 (f b.toNat))))

/-- The M instructions on 64 bits. -/
def mulOp (f3 : Nat) (a b : DWord) : DWord :=
  match f3 with
  | 0 => a * b
  | 1 => dw (a.toInt * b.toInt / 2 ^ 64)
  | 2 => dw (a.toInt * (b.toNat : Int) / 2 ^ 64)
  | 3 => dn (a.toNat * b.toNat / 2 ^ 64)
  | 4 => dw (divS 64 a.toInt b.toInt)
  | 5 => dn (divU 64 a.toNat b.toNat)
  | 6 => dw (remS 64 a.toInt b.toInt)
  | _ => dn (remU a.toNat b.toNat)

/-- The base and bit-manipulation instructions of opcode OP on 64 bits. -/
def opR (f7 f3 : Nat) (a b : DWord) : Option DWord :=
  let sh := b.toNat % 64
  let one : DWord := 1#64 <<< sh
  match f7, f3 with
  | 0x00, 0 => some (a + b)
  | 0x00, 1 => some (a <<< sh)
  | 0x00, 2 => some (dn (ofBool (decide (a.toInt < b.toInt))))
  | 0x00, 3 => some (dn (ofBool (decide (a.toNat < b.toNat))))
  | 0x00, 4 => some (a ^^^ b)
  | 0x00, 5 => some (a >>> sh)
  | 0x00, 6 => some (a ||| b)
  | 0x00, 7 => some (a &&& b)
  | 0x20, 0 => some (a - b)
  | 0x20, 4 => some (~~~(a ^^^ b))
  | 0x20, 5 => some (a.sshiftRight sh)
  | 0x20, 6 => some (a ||| ~~~b)
  | 0x20, 7 => some (a &&& ~~~b)
  | 0x01, f3 => some (mulOp f3 a b)
  | 0x05, 4 => some (if a.toInt < b.toInt then a else b)
  | 0x05, 5 => some (if a.toNat < b.toNat then a else b)
  | 0x05, 6 => some (if a.toInt < b.toInt then b else a)
  | 0x05, 7 => some (if a.toNat < b.toNat then b else a)
  | 0x07, 5 => some (if b = 0 then 0 else a)
  | 0x07, 7 => some (if b = 0 then a else 0)
  | 0x10, 2 => some ((a <<< 1) + b)
  | 0x10, 4 => some ((a <<< 2) + b)
  | 0x10, 6 => some ((a <<< 3) + b)
  | 0x14, 1 => some (a ||| one)
  | 0x24, 1 => some (a &&& ~~~one)
  | 0x24, 5 => some ((a >>> sh) &&& 1)
  | 0x30, 1 => some (a.rotateLeft sh)
  | 0x30, 5 => some (a.rotateRight sh)
  | 0x34, 1 => some (a ^^^ one)
  | _, _ => none

/-- 32-bit results are sign-extended. -/
def sw32 (v : BitVec 32) : DWord := v.signExtend 64

/-- The instructions of opcode OP-32. -/
def opR32 (f7 f3 rs2 : Nat) (a b : DWord) : Option DWord :=
  let x : BitVec 32 := a.setWidth 32
  let y : BitVec 32 := b.setWidth 32
  let sh := y.toNat % 32
  let zx : DWord := x.setWidth 64
  match f7, f3 with
  | 0x00, 0 => some (sw32 (x + y))
  | 0x00, 1 => some (sw32 (x <<< sh))
  | 0x00, 5 => some (sw32 (x >>> sh))
  | 0x20, 0 => some (sw32 (x - y))
  | 0x20, 5 => some (sw32 (x.sshiftRight sh))
  | 0x01, 0 => some (sw32 (x * y))
  | 0x01, 4 => some (sw32 (BitVec.ofInt 32 (divS 32 x.toInt y.toInt)))
  | 0x01, 5 => some (sw32 (BitVec.ofNat 32 (divU 32 x.toNat y.toNat)))
  | 0x01, 6 => some (sw32 (BitVec.ofInt 32 (remS 32 x.toInt y.toInt)))
  | 0x01, 7 => some (sw32 (BitVec.ofNat 32 (remU x.toNat y.toNat)))
  | 0x04, 0 => some (zx + b)
  | 0x04, 4 => if rs2 = 0 then some (dn (a.toNat % 65536)) else none
  | 0x10, 2 => some ((zx <<< 1) + b)
  | 0x10, 4 => some ((zx <<< 2) + b)
  | 0x10, 6 => some ((zx <<< 3) + b)
  | 0x30, 1 => some (sw32 (x.rotateLeft sh))
  | 0x30, 5 => some (sw32 (x.rotateRight sh))
  | _, _ => none

/-- The shifts and bit operations with an immediate, by bits 31..26 and funct3. -/
def opSh (f6 f3 imm12 : Nat) (a : DWord) : Option DWord :=
  let sh := imm12 % 64
  let one : DWord := 1#64 <<< sh
  match f6, f3 with
  | 0x00, 1 => some (a <<< sh)
  | 0x0A, 1 => some (a ||| one)
  | 0x12, 1 => some (a &&& ~~~one)
  | 0x1A, 1 => some (a ^^^ one)
  | 0x18, 1 =>
    (match sh with
     | 0 => some (dn (clzN 64 a.toNat))
     | 1 => some (dn (ctzN 64 a.toNat))
     | 2 => some (dn (cpopN 64 a.toNat))
     | 4 => some (sext64 8 a.toNat)
     | 5 => some (sext64 16 a.toNat)
     | _ => none)
  | 0x00, 5 => some (a >>> sh)
  | 0x10, 5 => some (a.sshiftRight sh)
  | 0x12, 5 => some ((a >>> sh) &&& 1)
  | 0x18, 5 => some (a.rotateRight sh)
  | 0x0A, 5 => if imm12 = 0x287 then some (mapBytes (fun b => if b = 0 then 0 else 255) a.toNat) else none
  | 0x1A, 5 => if imm12 = 0x6B8 then some (dn (beNat (toLe 8 a.toNat))) else none
  | _, _ => none

/-- Opcode OP-IMM. -/
def opI (insn : Nat) (a : DWord) : Option DWord :=
  let b := immI insn
  match iF3 insn with
  | 0 => some (a + b)
  | 2 => some (dn (ofBool (decide (a.toInt < b.toInt))))
  | 3 => some (dn (ofBool (decide (a.toNat < b.toNat))))
  | 4 => some (a ^^^ b)
  | 6 => some (a ||| b)
  | 7 => some (a &&& b)
  | f3 => opSh (nbits insn 31 26) f3 (nbits insn 31 20) a

/-- Opcode OP-IMM-32. -/
def opI32 (insn : Nat) (a : DWord) : Option DWord :=
  let x : BitVec 32 := a.setWidth 32
  let sh := iRs2 insn
  match iF3 insn with
  | 0 => some (sw32 (x + (immI insn).setWidth 32))
  | 1 =>
    if iF7 insn = 0 then some (sw32 (x <<< sh))
    else if nbits insn 31 26 = 2 then some ((x.setWidth 64 : DWord) <<< (nbits insn 25 20))
    else if iF7 insn = 0x30 then
      (match sh with
       | 0 => some (dn (clzN 32 x.toNat))
       | 1 => some (dn (ctzN 32 x.toNat))
       | 2 => some (dn (cpopN 32 x.toNat))
       | _ => none)
    else none
  | 5 =>
    if iF7 insn = 0 then some (sw32 (x >>> sh))
    else if iF7 insn = 0x20 then some (sw32 (x.sshiftRight sh))
    else if iF7 insn = 0x30 then some (sw32 (x.rotateRight sh))
    else none
  | _ => none

/-- The condition of a branch. -/
def branchTaken (f3 : Nat) (a b : DWord) : Option Bool :=
  match f3 with
  | 0 => some (a == b)
  | 1 => some (a != b)
  | 4 => some (decide (a.toInt < b.toInt))
  | 5 => some (decide (b.toInt ≤ a.toInt))
  | 6 => some (decide (a.toNat < b.toNat))
  | 7 => some (decide (b.toNat ≤ a.toNat))
  | _ => none

/-! ## Meanings. Each answers the next pc, or none where the hart has parked; `nx` is the address after the instruction. -/

def illegal (s : State) (insn : Nat) : MR (Option DWord) := .trap 2 insn s

/-- A result goes to rd. -/
def State.xRes (s : State) (h insn : Nat) (nx : DWord) (v : Option DWord) : MR (Option DWord) :=
  match v with
  | some v => .ok (some nx) (s.wx h (iRd insn) v)
  | none => illegal s insn

/-- Arithmetic, upper immediates, jumps and branches. -/
def State.xArith (s : State) (h insn : Nat) (nx : DWord) : MR (Option DWord) :=
  let a := s.rx h (iRs1 insn)
  let b := s.rx h (iRs2 insn)
  let pc := (s.hart h).pc
  match insn % 128 with
  | 0x33 => s.xRes h insn nx (opR (iF7 insn) (iF3 insn) a b)
  | 0x3B => s.xRes h insn nx (opR32 (iF7 insn) (iF3 insn) (iRs2 insn) a b)
  | 0x13 => s.xRes h insn nx (opI insn a)
  | 0x1B => s.xRes h insn nx (opI32 insn a)
  | 0x37 => s.xRes h insn nx (some (immU insn))
  | 0x17 => s.xRes h insn nx (some (pc + immU insn))
  | 0x6F => .ok (some (pc + immJ insn)) (s.wx h (iRd insn) nx)
  | 0x67 => if iF3 insn ≠ 0 then illegal s insn else .ok (some ((a + immI insn) &&& ~~~(1#64))) (s.wx h (iRd insn) nx)
  | _ =>
    match branchTaken (iF3 insn) a b with
    | none => illegal s insn
    | some t => .ok (some (if t then pc + immB insn else nx)) s

/-- WFI: the hart waits until an interrupt is pending and enabled. -/
def State.xWfi (s : State) (h insn : Nat) (nx : DWord) : MR (Option DWord) :=
  let x := s.hart h
  if x.mode = .u ∨ (x.mode = .s ∧ bit (x.cs 0x300) 21) then illegal s insn
  else if s.irqs h ≠ 0 then .ok (some nx) s
  else .ok (some nx) (s.updHart h (fun x => { x with run := .wfi }))

/-- The system instructions that access no CSR. No address-translation cache is kept, so SFENCE.VMA has nothing to do. -/
def State.xSystem (s : State) (h insn : Nat) (nx : DWord) : MR (Option DWord) :=
  let x := s.hart h
  let st := x.cs 0x300
  if insn = 0x00000073 then .trap (8 + x.mode.num) 0 s
  else if insn = 0x00100073 then .trap 3 x.pc.toNat s
  else if insn = 0x30200073 then
    (if x.mode ≠ .m then illegal s insn else .ok (some (x.cs 0x341)) (s.mret h))
  else if insn = 0x10200073 then
    (if x.mode = .u ∨ (x.mode = .s ∧ bit st 22) then illegal s insn else .ok (some (x.cs 0x141)) (s.sret h))
  else if insn = 0x10500073 then s.xWfi h insn nx
  else if iF7 insn = 0x09 ∧ iRd insn = 0 ∧ iF3 insn = 0 then
    (if x.mode = .u ∨ (x.mode = .s ∧ bit st 20) then illegal s insn else .ok (some nx) s)
  else illegal s insn

/-- A CSR instruction. -/
def State.xCsr (s : State) (h insn : Nat) (nx : DWord) : MR (Option DWord) :=
  if iF3 insn = 4 then illegal s insn else (s.csrInsn h insn).bind fun _ s => .ok (some nx) s

/-- WRS.NTO and WRS.STO (R270): the hart waits while its reservation stands and no interrupt is pending, WRS.STO at most 1 µs. -/
def State.xWrs (s : State) (h insn : Nat) (nx : DWord) : MR (Option DWord) :=
  let x := s.hart h
  let sto := insn == 0x01D00073
  if insn = 0x00D00073 ∧ ((x.mode = .u ∨ x.mode = .s) ∧ bit (x.cs 0x300) 21) ∧ x.resv.isSome ∧ s.irqs h = 0 then illegal s insn
  else if x.resv.isNone ∨ s.irqs h ≠ 0 then .ok (some nx) s
  else .ok (some nx) (s.updHart h (fun x => { x with run := .wrs (if sto then some (s.now + 1000) else none) }))

/-- FENCE, FENCE.I: every access of the model is performed at device scope when its instruction ends, so they order nothing more. -/
def State.xFence (s : State) (_h _insn : Nat) (nx : DWord) : MR (Option DWord) := .ok (some nx) s

/-- XFENCE (R260, R267, R268): at kaleidoscope scope it waits for the accesses to peers that its predecessor set names. -/
def State.xXfence (s : State) (h insn : Nat) (nx : DWord) : MR (Option DWord) :=
  let scope := nbits insn 31 30
  let pred := nbits insn 27 24
  let succ := nbits insn 23 20
  if iRd insn ≠ 0 ∨ iRs1 insn ≠ 0 ∨ scope = 3 ∨ nbits insn 29 28 ≠ 0 then illegal s insn
  else if pred = 0 ∨ succ = 0 ∨ scope ≠ 2 then .ok (some nx) s
  else if ((pred.testBit 0 || pred.testBit 2) && s.kal.peers.any (isStoreOf h)) = true then .wait none s
  else .ok (some nx) s

/-- XPARK (R275). -/
def State.xXpark (s : State) (h insn : Nat) : MR (Option DWord) :=
  if insn ≠ 0x100B then illegal s insn else .ok none (s.park h)

/-! ## Loads, stores and atomics (R261, R270) -/

/-- A scalar load's value of n bytes, sign-extended or not. -/
def loadVal (f3 : Nat) (b : Bytes) : DWord := if f3 < 4 then sext64 (8 * b.length) (leNat b) else dn (leNat b)

def State.xLoad (s : State) (h insn : Nat) (nx : DWord) : MR (Option DWord) :=
  let f3 := iF3 insn
  if f3 = 7 then illegal s insn
  else (s.hread h .r (s.rx h (iRs1 insn) + immI insn).toNat (2 ^ (f3 % 4))).bind fun b s =>
    .ok (some nx) (s.wx h (iRd insn) (loadVal f3 b))

def State.xStore (s : State) (h insn : Nat) (nx : DWord) : MR (Option DWord) :=
  let f3 := iF3 insn
  if 3 < f3 then illegal s insn
  else (s.hwrite h (s.rx h (iRs1 insn) + immS insn).toNat (toLe (2 ^ f3) (s.rx h (iRs2 insn)).toNat)).bind fun _ s => .ok (some nx) s

/-- The value an AMO stores, from what memory held and the register, both of n bytes. -/
def amoOp (f5 n : Nat) (m r : Nat) : Option Nat :=
  let w := 8 * n
  let lt := decide (signed w m < signed w r)
  match f5 with
  | 0x01 => some r
  | 0x00 => some ((m + r) % 2 ^ w)
  | 0x04 => some (m ^^^ r)
  | 0x0C => some (m &&& r)
  | 0x08 => some (m ||| r)
  | 0x10 => some (if lt then m else r)
  | 0x14 => some (if lt then r else m)
  | 0x18 => some (min m r)
  | 0x1C => some (max m r)
  | _ => none

/-- Bytes of an atomic; 0 where the width does not exist. -/
def atomBytes (insn : Nat) : Nat := if iF3 insn = 2 then 4 else if iF3 insn = 3 then 8 else 0

/-- Write at the point of coherence. -/
def State.atomWrite (s : State) (h a : Nat) (b : Bytes) : State := ((s.hartCache h a true).st a b).clearUe a b.length

def State.xAmo (s : State) (h insn : Nat) (nx : DWord) : MR (Option DWord) :=
  let n := atomBytes insn
  let r := (s.rx h (iRs2 insn)).toNat % 2 ^ (8 * n)
  if n = 0 ∨ (amoOp (nbits insn 31 27) n 0 0).isNone then illegal s insn
  else (s.atomAddr h .w (s.rx h (iRs1 insn)).toNat n).bind fun a s =>
    let old := leNat (s.ld a n)
    .ok (some nx) ((s.atomWrite h a (toLe n ((amoOp (nbits insn 31 27) n old r).getD 0))).wx h (iRd insn) (sext64 (8 * n) old))

def State.xLr (s : State) (h insn : Nat) (nx : DWord) : MR (Option DWord) :=
  let n := atomBytes insn
  if n = 0 ∨ iRs2 insn ≠ 0 then illegal s insn
  else (s.atomAddr h .r (s.rx h (iRs1 insn)).toNat n).bind fun a s =>
    let s := s.hartCache h a false
    .ok (some nx) ((s.updHart h (fun x => { x with resv := some (a / 64) })).wx h (iRd insn) (sext64 (8 * n) (leNat (s.ld a n))))

/-- SC succeeds only while the reservation of its block stands (R270); either way the reservation is gone. -/
def State.xSc (s : State) (h insn : Nat) (nx : DWord) : MR (Option DWord) :=
  let n := atomBytes insn
  let v := (s.rx h (iRs2 insn)).toNat
  if n = 0 then illegal s insn
  else (s.atomAddr h .w (s.rx h (iRs1 insn)).toNat n).bind fun a s =>
    let good := (s.hart h).resv == some (a / 64)
    let s := s.updHart h (fun x => { x with resv := none })
    .ok (some nx) ((if good then s.atomWrite h a (toLe n v) else s).wx h (iRd insn) (dn (ofBool (!good))))

end Sys2Proof.Machine
end

