-- ==== Sys2Proof/Machine/HartFp.lean ====
section
/-! DEFINITION. The floating-point instructions of a fabric hart: F, D, Zfhmin and Zfbfmin (R259). PRESUMED from the RISC-V specifications,
log entry 24. -/
namespace Sys2Proof.Machine

/-- Register f r, and a number of format f in it: one that is not NaN-boxed is the canonical NaN. -/
def Hart.rf (x : Hart) (r : Nat) : DWord := x.f.get 0 (r % 32)
def boxed (f : Fmt) (v : DWord) : Bool := v.toNat / 2 ^ f.width == 2 ^ (64 - f.width) - 1
def Hart.rfp (x : Hart) (f : Fmt) (r : Nat) : Nat :=
  let v := x.rf r
  if boxed f v then v.toNat % 2 ^ f.width else f.canon
def box (f : Fmt) (n : Nat) : DWord := BitVec.ofNat 64 ((2 ^ (64 - f.width) - 1) * 2 ^ f.width + n % 2 ^ f.width)

/-- The unit's state is dirty. -/
def Hart.fDirty (x : Hart) : Hart := x.putCs 0x300 14 13 3
def State.wf (s : State) (h r : Nat) (v : DWord) : State := s.updHart h (fun x => { x.fDirty with f := x.f.set 0 (r % 32) v })
/-- Exception flags accrue. -/
def State.fFlags (s : State) (h fl : Nat) : State :=
  if fl = 0 then s else s.updHart h (fun x => x.fDirty.setCs 3 (x.cs 3 ||| BitVec.ofNat 64 fl))

/-- The rounding mode of an instruction; none where it is reserved. -/
def Hart.rm (x : Hart) (k : Nat) : Option Nat :=
  let r := if k = 7 then x.csf 3 7 5 else k
  if r ≤ 4 then some r else none

/-- A floating-point result to f rd, and an integer result to x rd. -/
def State.fRes (s : State) (h insn : Nat) (nx : DWord) (f : Fmt) (v : Nat × Nat) : MR (Option DWord) :=
  .ok (some nx) ((s.wf h (iRd insn) (box f v.1)).fFlags h v.2)
def State.fIntRes (s : State) (h insn : Nat) (nx : DWord) (v : DWord × Nat) : MR (Option DWord) :=
  .ok (some nx) ((s.wx h (iRd insn) v.1).fFlags h v.2)

/-- The format of a conversion's operand or result, by the fmt field. -/
def fmtOf (k : Nat) : Option Fmt :=
  match k with
  | 0 => some fp32
  | 1 => some fp64
  | 2 => some fp16
  | _ => none

/-- FCVT between formats, by the target's fmt and rs2. -/
def fcvtPair (fmt rs2 : Nat) : Option (Fmt × Fmt) :=
  match fmt, rs2 with
  | 0, 1 => some (fp64, fp32)
  | 0, 2 => some (fp16, fp32)
  | 0, 6 => some (bf16, fp32)
  | 1, 0 => some (fp32, fp64)
  | 1, 2 => some (fp16, fp64)
  | 2, 0 => some (fp32, fp16)
  | 2, 1 => some (fp64, fp16)
  | 2, 8 => some (fp32, bf16)
  | _, _ => none

/-- Arithmetic with a rounding mode, by funct5. -/
def fArith (f : Fmt) (f5 rs2 rm a b : Nat) : Option (Nat × Nat) :=
  match f5 with
  | 0x00 => some (f.addM rm a b)
  | 0x01 => some (f.subM rm a b)
  | 0x02 => some (f.mulM rm a b)
  | 0x03 => some (f.divM rm a b)
  | 0x0B => if rs2 = 0 then some (f.sqrtM rm a) else none
  | _ => none

/-- Operations without rounding, by funct5 and funct3. -/
def fPlain (f : Fmt) (f5 f3 a b : Nat) : Option (Nat × Nat) :=
  match f5 with
  | 0x04 => if f3 ≤ 2 then some (f.sgnj f3 a b, 0) else none
  | 0x05 => if f3 ≤ 1 then some (f.minM (f3 == 1) a b) else none
  | _ => none

/-- Comparisons. -/
def fCmp (f : Fmt) (f3 a b : Nat) : Option (Bool × Nat) :=
  match f3 with
  | 0 => some (f.leM a b)
  | 1 => some (f.ltM a b)
  | 2 => some (f.eqM a b)
  | _ => none

/-- To an integer of the width that rs2 names, sign-extended from 32 bits. -/
def fToInt (f : Fmt) (rs2 rm a : Nat) : Option (DWord × Nat) :=
  match rs2 with
  | 0 => let r := f.toIntM rm 32 true a; some (dw r.1, r.2)
  | 1 => let r := f.toIntM rm 32 false a; some (sext64 32 (unsign 32 r.1), r.2)
  | 2 => let r := f.toIntM rm 64 true a; some (dw r.1, r.2)
  | 3 => let r := f.toIntM rm 64 false a; some (dw r.1, r.2)
  | _ => none

/-- The integer that FCVT from rs1 takes. -/
def fFromInt (rs2 : Nat) (v : DWord) : Option Int :=
  match rs2 with
  | 0 => some (signed 32 v.toNat)
  | 1 => some (v.toNat % 2 ^ 32 : Nat)
  | 2 => some v.toInt
  | 3 => some v.toNat
  | _ => none

/-- Moves and classes, which exist for halves as moves alone. -/
def State.fMove (s : State) (h insn fmt : Nat) (f : Fmt) (nx : DWord) : MR (Option DWord) :=
  let x := s.hart h
  if iRs2 insn ≠ 0 then illegal s insn
  else if nbits insn 31 27 = 0x1C ∧ iF3 insn = 0 then s.fIntRes h insn nx (sext64 f.width (x.rf (iRs1 insn)).toNat, 0)
  else if nbits insn 31 27 = 0x1C ∧ iF3 insn = 1 ∧ fmt ≠ 2 then s.fIntRes h insn nx (dn (f.classM (x.rfp f (iRs1 insn))), 0)
  else if nbits insn 31 27 = 0x1E ∧ iF3 insn = 0 then s.fRes h insn nx f ((x.rx (iRs1 insn)).toNat, 0)
  else illegal s insn

/-- Conversions. -/
def State.fConv (s : State) (h insn fmt : Nat) (f : Fmt) (nx : DWord) : MR (Option DWord) :=
  let x := s.hart h
  match x.rm (iF3 insn) with
  | none => illegal s insn
  | some rm =>
    let rs2 := iRs2 insn
    if nbits insn 31 27 = 0x08 then
      match fcvtPair fmt rs2 with
      | none => illegal s insn
      | some (src, dst) => s.fRes h insn nx dst (src.convM dst rm (x.rfp src (iRs1 insn)))
    else if fmt = 2 then illegal s insn
    else if nbits insn 31 27 = 0x18 then
      match fToInt f rs2 rm (x.rfp f (iRs1 insn)) with
      | none => illegal s insn
      | some v => s.fIntRes h insn nx v
    else
      match fFromInt rs2 (x.rx (iRs1 insn)) with
      | none => illegal s insn
      | some i => s.fRes h insn nx f (f.ofIntM rm i)

/-- Opcode OP-FP. -/
def State.xFp (s : State) (h insn : Nat) (nx : DWord) : MR (Option DWord) :=
  let x := s.hart h
  let fmt := nbits insn 26 25
  let f5 := nbits insn 31 27
  match fmtOf fmt with
  | none => illegal s insn
  | some f =>
    if x.fs = 0 then illegal s insn
    else if f5 = 0x1C ∨ f5 = 0x1E then s.fMove h insn fmt f nx
    else if f5 = 0x08 ∨ f5 = 0x18 ∨ f5 = 0x1A then s.fConv h insn fmt f nx
    else if fmt = 2 then illegal s insn
    else
      let a := x.rfp f (iRs1 insn)
      let b := x.rfp f (iRs2 insn)
      if f5 = 0x14 then
        match fCmp f (iF3 insn) a b with
        | some r => s.fIntRes h insn nx (dn (ofBool r.1), r.2)
        | none => illegal s insn
      else
        match fPlain f f5 (iF3 insn) a b, x.rm (iF3 insn) with
        | some v, _ => s.fRes h insn nx f v
        | none, some rm =>
          (match fArith f f5 (iRs2 insn) rm a b with
           | some v => s.fRes h insn nx f v
           | none => illegal s insn)
        | none, none => illegal s insn

/-- The fused multiply-add opcodes. -/
def State.xFma (s : State) (h insn : Nat) (nx : DWord) : MR (Option DWord) :=
  let x := s.hart h
  let fmt := nbits insn 26 25
  let k := nbits insn 3 2
  match fmtOf fmt, x.rm (iF3 insn) with
  | some f, some rm =>
    if x.fs = 0 ∨ fmt = 2 then illegal s insn
    else s.fRes h insn nx f (f.fmaM rm (decide (2 ≤ k)) (k == 1 || k == 3)
      (x.rfp f (iRs1 insn)) (x.rfp f (iRs2 insn)) (x.rfp f (nbits insn 31 27)))
  | _, _ => illegal s insn

/-- FLH, FLW, FLD. -/
def State.xFload (s : State) (h insn : Nat) (nx : DWord) : MR (Option DWord) :=
  let n := 2 ^ iF3 insn
  if (s.hart h).fs = 0 ∨ iF3 insn = 4 then illegal s insn
  else (s.hread h .r (s.rx h (iRs1 insn) + immI insn).toNat n).bind fun b s =>
    .ok (some nx) (s.wf h (iRd insn) (BitVec.ofNat 64 (2 ^ 64 - 2 ^ (8 * n) + leNat b)))

/-- FSH, FSW, FSD. -/
def State.xFstore (s : State) (h insn : Nat) (nx : DWord) : MR (Option DWord) :=
  let n := 2 ^ iF3 insn
  if (s.hart h).fs = 0 ∨ iF3 insn = 4 then illegal s insn
  else (s.hwrite h (s.rx h (iRs1 insn) + immS insn).toNat (toLe n ((s.hart h).rf (iRs2 insn)).toNat)).bind fun _ s => .ok (some nx) s

end Sys2Proof.Machine
end

