-- ==== Sys2Proof/Machine/VecOps.lean ====
section
/-! DEFINITION. The element operations of the vector extension (R257, R259): what one element of a result is. PRESUMED from the RISC-V
V specification, log entry 24. An operation answers the element and flags: the five floating-point flags, and 32 for vxsat. -/
namespace Sys2Proof.Machine

/-- The settings under which a vector instruction runs. -/
structure VCtx where
  vl : Nat
  vstart : Nat
  sew : Nat
  /-- LMUL in eighths. -/
  lm : Nat
  vta : Bool
  vma : Bool
  vxrm : Nat
  frm : Nat
  /-- First number of the free choices for agnostic elements. -/
  free : Nat

def VCtx.vlmax (c : VCtx) : Nat := 64 * c.lm / c.sew

abbrev VRegs := Tab (BitVec 512)

/-- Element i of width w of the group that begins at register r; bit i of a mask register. -/
def velt (v : VRegs) (r w i : Nat) : Nat :=
  nbits (v.get 0 (r + i * w / 512)).toNat (i * w % 512 + w - 1) (i * w % 512)
def vput (v : VRegs) (r w i n : Nat) : VRegs :=
  let k := r + i * w / 512
  let o := i * w % 512
  let x := (v.get 0 k).toNat
  v.set 0 k (BitVec.ofNat 512 (x - nbits x (o + w - 1) o * 2 ^ o + n % 2 ^ w * 2 ^ o))
def vbit (v : VRegs) (r i : Nat) : Bool := bit (v.get 0 r) i

/-- v / 2^d rounded as vxrm says. -/
def roundoff (vxrm : Nat) (v : Int) (d : Nat) : Int :=
  let q := v / 2 ^ d
  let r := v % 2 ^ d
  let half : Int := 2 ^ d / 2
  let up : Bool := match vxrm with
    | 0 => decide (d ≠ 0) && decide (half ≤ r)
    | 1 => decide (d ≠ 0) && (decide (half < r) || (decide (r = half) && q % 2 != 0))
    | 2 => false
    | _ => q % 2 == 0 && r != 0
  if up then q + 1 else q

/-- An integer clipped to w bits, signed or not, with the saturation flag. -/
def satTo (w : Nat) (sgn : Bool) (i : Int) : Nat × Nat :=
  let lo : Int := if sgn then -(2 ^ (w - 1)) else 0
  let hi : Int := if sgn then 2 ^ (w - 1) - 1 else 2 ^ w - 1
  if i < lo then (unsign w lo, 32) else if hi < i then (unsign w hi, 32) else (unsign w i, 0)

/-- Single-width integer operations of OPIVV, OPIVX and OPIVI on vs2 element a and the other operand b. -/
def vIntOp (c : VCtx) (f6 : Nat) (a b : Nat) : Option (Nat × Nat) :=
  let w := c.sew
  let sa := signed w a
  let sb := signed w b
  let sh := b % w
  let r := fun (i : Int) => some (unsign w i, 0)
  let n := fun (k : Nat) => some (k % 2 ^ w, 0)
  match f6 with
  | 0x00 => n (a + b)
  | 0x02 => r ((a : Int) - b)
  | 0x03 => r ((b : Int) - a)
  | 0x04 => n (min a b)
  | 0x05 => n (if sa < sb then a else b)
  | 0x06 => n (max a b)
  | 0x07 => n (if sa < sb then b else a)
  | 0x09 => n (a &&& b)
  | 0x0A => n (a ||| b)
  | 0x0B => n (a ^^^ b)
  | 0x20 => some (satTo w false (a + b))
  | 0x21 => some (satTo w true (sa + sb))
  | 0x22 => some (satTo w false ((a : Int) - b))
  | 0x23 => some (satTo w true (sa - sb))
  | 0x25 => n (a * 2 ^ sh)
  | 0x27 => some (satTo w true (roundoff c.vxrm (sa * sb) (w - 1)))
  | 0x28 => n (a / 2 ^ sh)
  | 0x29 => r (sa / 2 ^ sh)
  | 0x2A => r (roundoff c.vxrm a sh)
  | 0x2B => r (roundoff c.vxrm sa sh)
  | _ => none

/-- Comparisons of the same encodings. -/
def vIntCmp (w f6 a b : Nat) : Option Bool :=
  let sa := signed w a
  let sb := signed w b
  match f6 with
  | 0x18 => some (a == b)
  | 0x19 => some (a != b)
  | 0x1A => some (decide (a < b))
  | 0x1B => some (decide (sa < sb))
  | 0x1C => some (decide (a ≤ b))
  | 0x1D => some (decide (sa ≤ sb))
  | 0x1E => some (decide (b < a))
  | 0x1F => some (decide (sb < sa))
  | _ => none

/-- Narrowing shifts and clips: vs2 is twice as wide. -/
def vNarrowOp (c : VCtx) (f6 a b : Nat) : Option (Nat × Nat) :=
  let w := c.sew
  let sh := b % (2 * w)
  let sa := signed (2 * w) a
  match f6 with
  | 0x2C => some (a / 2 ^ sh % 2 ^ w, 0)
  | 0x2D => some (unsign w (sa / 2 ^ sh), 0)
  | 0x2E => some (satTo w false (roundoff c.vxrm a sh))
  | 0x2F => some (satTo w true (roundoff c.vxrm sa sh))
  | _ => none

/-- Single-width operations of OPMVV and OPMVX; d is the old destination element. -/
def vMulOp (c : VCtx) (f6 a b d : Nat) : Option (Nat × Nat) :=
  let w := c.sew
  let sa := signed w a
  let sb := signed w b
  let r := fun (i : Int) => some (unsign w i, 0)
  match f6 with
  | 0x08 => r (roundoff c.vxrm ((a : Int) + b) 1)
  | 0x09 => r (roundoff c.vxrm (sa + sb) 1)
  | 0x0A => r (roundoff c.vxrm ((a : Int) - b) 1)
  | 0x0B => r (roundoff c.vxrm (sa - sb) 1)
  | 0x20 => r (divU w a b)
  | 0x21 => r (divS w sa sb)
  | 0x22 => r (remU a b)
  | 0x23 => r (remS w sa sb)
  | 0x24 => r ((a * b / 2 ^ w : Nat) : Int)
  | 0x25 => r ((a * b : Nat) : Int)
  | 0x26 => r (sa * (b : Int) / 2 ^ w)
  | 0x27 => r (sa * sb / 2 ^ w)
  | 0x29 => r ((b * d + a : Nat) : Int)
  | 0x2B => r ((a : Int) - b * d)
  | 0x2D => r ((b * a + d : Nat) : Int)
  | 0x2F => r ((d : Int) - b * a)
  | _ => none

/-- Widening operations: both sources of width w, the result and d of width 2w. -/
def vWideOp (w f6 a b d : Nat) : Option (Nat × Nat) :=
  let sa := signed w a
  let sb := signed w b
  let r := fun (i : Int) => some (unsign (2 * w) i, 0)
  match f6 with
  | 0x30 => r ((a : Int) + b)
  | 0x31 => r (sa + sb)
  | 0x32 => r ((a : Int) - b)
  | 0x33 => r (sa - sb)
  | 0x38 => r ((a : Int) * b)
  | 0x3A => r (sa * b)
  | 0x3B => r (sa * sb)
  | 0x3C => r ((d : Int) + a * b)
  | 0x3D => r (d + sa * sb)
  | 0x3E => r (d + (b : Int) * sa)
  | 0x3F => r (d + sb * a)
  | _ => none

/-- Widening operations whose vs2 is already of width 2w. -/
def vWideWOp (w f6 a b : Nat) : Option (Nat × Nat) :=
  let r := fun (i : Int) => some (unsign (2 * w) i, 0)
  match f6 with
  | 0x34 => r ((a : Int) + b)
  | 0x35 => r (a + signed w b)
  | 0x36 => r ((a : Int) - b)
  | 0x37 => r (a - signed w b)
  | _ => none

/-- Reductions by funct6 of OPMVV. -/
def vRedOp (w f6 a b : Nat) : Option Nat :=
  match f6 with
  | 0x00 => some ((a + b) % 2 ^ w)
  | 0x01 => some (a &&& b)
  | 0x02 => some (a ||| b)
  | 0x03 => some (a ^^^ b)
  | 0x04 => some (min a b)
  | 0x05 => some (if signed w a < signed w b then a else b)
  | 0x06 => some (max a b)
  | 0x07 => some (if signed w a < signed w b then b else a)
  | _ => none

/-- Mask operations: a from vs2, b from vs1. -/
def vMaskOp (f6 : Nat) (a b : Bool) : Option Bool :=
  match f6 with
  | 0x18 => some (a && !b)
  | 0x19 => some (a && b)
  | 0x1A => some (a || b)
  | 0x1B => some (a != b)
  | 0x1C => some (a || !b)
  | 0x1D => some (!(a && b))
  | 0x1E => some (!(a || b))
  | 0x1F => some (a == b)
  | _ => none

/-- The format of floating-point elements of width w. -/
def vFmt (w : Nat) : Option Fmt := if w = 32 then some fp32 else if w = 64 then some fp64 else none

/-- Single-width floating point. -/
def vFpOp (f : Fmt) (rm f6 a b d : Nat) : Option (Nat × Nat) :=
  match f6 with
  | 0x00 => some (f.addM rm a b)
  | 0x02 => some (f.subM rm a b)
  | 0x04 => some (f.minM false a b)
  | 0x06 => some (f.minM true a b)
  | 0x08 => some (f.sgnj 0 a b, 0)
  | 0x09 => some (f.sgnj 1 a b, 0)
  | 0x0A => some (f.sgnj 2 a b, 0)
  | 0x20 => some (f.divM rm a b)
  | 0x21 => some (f.divM rm b a)
  | 0x24 => some (f.mulM rm a b)
  | 0x27 => some (f.subM rm b a)
  | 0x28 => some (f.fmaM rm false false b d a)
  | 0x29 => some (f.fmaM rm true true b d a)
  | 0x2A => some (f.fmaM rm false true b d a)
  | 0x2B => some (f.fmaM rm true false b d a)
  | 0x2C => some (f.fmaM rm false false b a d)
  | 0x2D => some (f.fmaM rm true true b a d)
  | 0x2E => some (f.fmaM rm false true b a d)
  | 0x2F => some (f.fmaM rm true false b a d)
  | _ => none

/-- Floating-point comparisons. -/
def vFpCmp (f : Fmt) (f6 a b : Nat) : Option (Bool × Nat) :=
  match f6 with
  | 0x18 => some (f.eqM a b)
  | 0x19 => some (f.leM a b)
  | 0x1B => some (f.ltM a b)
  | 0x1C => let r := f.eqM a b; some (!r.1, r.2)
  | 0x1D => some (f.ltM b a)
  | 0x1F => some (f.leM b a)
  | _ => none

/-- Widening floating point from fp32 to fp64; the sources are widened exactly. -/
def vFpWide (rm f6 a b d : Nat) : Option (Nat × Nat) :=
  let x := fp32.convM fp64 0 a
  let y := fp32.convM fp64 0 b
  let k := fun (r : Nat × Nat) => some (r.1, r.2 ||| x.2 ||| y.2)
  match f6 with
  | 0x30 => k (fp64.addM rm x.1 y.1)
  | 0x32 => k (fp64.subM rm x.1 y.1)
  | 0x38 => k (fp64.mulM rm x.1 y.1)
  | 0x3C => k (fp64.fmaM rm false false x.1 y.1 d)
  | 0x3D => k (fp64.fmaM rm true true x.1 y.1 d)
  | 0x3E => k (fp64.fmaM rm false true x.1 y.1 d)
  | 0x3F => k (fp64.fmaM rm true false x.1 y.1 d)
  | _ => none

/-- The same with a wide vs2. -/
def vFpWideW (rm f6 a b : Nat) : Option (Nat × Nat) :=
  let y := fp32.convM fp64 0 b
  match f6 with
  | 0x34 => let r := fp64.addM rm a y.1; some (r.1, r.2 ||| y.2)
  | 0x36 => let r := fp64.subM rm a y.1; some (r.1, r.2 ||| y.2)
  | _ => none

/-- bf16 widening multiply-add into fp32. -/
def vFpBf16 (rm a b d : Nat) : Nat × Nat :=
  let x := bf16.convM fp32 0 a
  let y := bf16.convM fp32 0 b
  let r := fp32.fmaM rm false false x.1 y.1 d
  (r.1, r.2 ||| x.2 ||| y.2)

/-- Conversions of VFUNARY0: width factors of destination and source in halves of SEW, and the operation. `w` is SEW. -/
def vCvt (w rm k : Nat) : Option (Nat × Nat × (Nat → Nat × Nat)) :=
  let toI := fun (f : Fmt) (rm iw : Nat) (sgn : Bool) (a : Nat) => let r := f.toIntM rm iw sgn a; (unsign iw r.1, r.2)
  let ofU := fun (f : Fmt) (a : Nat) => f.ofIntM rm (a : Int)
  let ofS := fun (f : Fmt) (iw a : Nat) => f.ofIntM rm (signed iw a)
  match k, vFmt w, vFmt (2 * w) with
  | 0x00, some f, _ => some (1, 1, toI f rm w false)
  | 0x01, some f, _ => some (1, 1, toI f rm w true)
  | 0x02, some f, _ => some (1, 1, ofU f)
  | 0x03, some f, _ => some (1, 1, ofS f w)
  | 0x06, some f, _ => some (1, 1, toI f 1 w false)
  | 0x07, some f, _ => some (1, 1, toI f 1 w true)
  | 0x08, some f, some _ => some (2, 1, toI f rm (2 * w) false)
  | 0x09, some f, some _ => some (2, 1, toI f rm (2 * w) true)
  | 0x0A, _, some g => some (2, 1, ofU g)
  | 0x0B, _, some g => some (2, 1, ofS g w)
  | 0x0C, some f, some g => some (2, 1, f.convM g rm)
  | 0x0C, none, some g => some (2, 1, fp16.convM g rm)
  | 0x0D, none, some g => some (2, 1, bf16.convM g rm)
  | 0x0E, some f, some _ => some (2, 1, toI f 1 (2 * w) false)
  | 0x0F, some f, some _ => some (2, 1, toI f 1 (2 * w) true)
  | 0x10, _, some g => some (1, 2, toI g rm w false)
  | 0x11, _, some g => some (1, 2, toI g rm w true)
  | 0x12, some f, some _ => some (1, 2, ofU f)
  | 0x13, some f, some _ => some (1, 2, ofS f (2 * w))
  | 0x14, some f, some g => some (1, 2, g.convM f rm)
  | 0x14, none, some g => some (1, 2, g.convM fp16 rm)
  | 0x15, some f, some g => some (1, 2, g.convM f 5)
  | 0x16, _, some g => some (1, 2, toI g 1 w false)
  | 0x17, _, some g => some (1, 2, toI g 1 w true)
  | 0x1D, none, some g => some (1, 2, g.convM bf16 rm)
  | _, _, _ => none

/-- VFUNARY1. -/
def vFpUnary (f : Fmt) (rm k a : Nat) : Option (Nat × Nat) :=
  match k with
  | 0x00 => some (f.sqrtM rm a)
  | 0x04 => some (f.rsqrt7 a)
  | 0x05 => some (f.rec7 rm a)
  | 0x10 => some (f.classM a, 0)
  | _ => none

end Sys2Proof.Machine
end

