-- ==== Sys2Proof/Machine/HartVec.lean ====
section
/-! DEFINITION. The vector instructions of a fabric hart (R257, R259, R261): settings, arithmetic, reductions, permutations and masks.
PRESUMED from the RISC-V V specification, log entry 24; a reserved form is an illegal instruction, and agnostic elements are free. -/
namespace Sys2Proof.Machine

/-! ## Settings -/

/-- LMUL in eighths by vtype.vlmul; 0 where reserved. -/
def lmOf (k : Nat) : Nat := (([8, 16, 32, 64, 0, 1, 2, 4] : List Nat).drop (k % 8)).headD 0

def vtSew (vt : Nat) : Nat := 8 * 2 ^ nbits vt 5 3

/-- A vtype that this machine has: SEW 8 to 64, SEW/LMUL at most 64 (ELEN), reserved bits zero. -/
def vtOk (vt : Nat) : Bool :=
  decide (vt < 256) && decide (nbits vt 5 3 ≤ 3) && lmOf vt != 0 && decide (vtSew vt ≤ 8 * lmOf vt)

def vtMax (vt : Nat) : Nat := 64 * lmOf vt / vtSew vt

/-- The context of the hart's slot. -/
def State.vctx (s : State) (h : Nat) : VCtx :=
  let x := s.hart h
  let t := x.slot.getD {}
  let vt := t.vtype.toNat
  { vl := t.vl, vstart := t.vstart, sew := vtSew vt, lm := lmOf vt, vta := vt.testBit 6, vma := vt.testBit 7, vxrm := t.vxrm,
    frm := x.csf 3 7 5, free := s.free }
def State.vill (s : State) (h : Nat) : Bool := ((s.hart h).slot.getD {}).vtype.toNat.testBit 63
def State.vregs (s : State) (h : Nat) : VRegs := ((s.hart h).slot.getD {}).v

/-- vl for an application length. -/
def newVl (avl max : Nat) : Nat :=
  if avl ≤ max then avl
  else if 2 * max ≤ avl then max
  else nclamp ((avl + 1) / 2) max (Config.vlChoice avl max)

/-- vset{i}vl{i}. -/
def State.vset (s : State) (h insn : Nat) : State :=
  let t := (s.hart h).slot.getD {}
  let imm := nbits insn 31 30 == 3
  let vt := if imm then nbits insn 29 20 else if insn.testBit 31 then (s.rx h (iRs2 insn)).toNat else nbits insn 30 20
  let ok := vtOk vt
  let max := vtMax vt
  let keep := !imm && iRs1 insn == 0 && iRd insn == 0
  let ok := ok && !(keep && (t.vtype.toNat.testBit 63 || vtMax t.vtype.toNat != max))
  let vl := if !ok then 0
    else if imm then newVl (iRs1 insn) max
    else if iRs1 insn ≠ 0 then newVl (s.rx h (iRs1 insn)).toNat max
    else if iRd insn ≠ 0 then max else t.vl
  let s := s.updHart h (fun x => x.setSlot (fun t =>
    { t with vl := vl, vtype := BitVec.ofNat 64 (if ok then vt else 2 ^ 63), vstart := 0 }))
  s.wx h (iRd insn) (dn vl)

/-! ## Register groups -/

/-- Registers of a group of `e` eighths, and whether register r may begin one. -/
def grpRegs (e : Nat) : Nat := (e + 7) / 8
def grpOk (e r : Nat) : Bool := decide (1 ≤ e) && decide (e ≤ 64) && r % grpRegs e == 0

/-- A destination may overlap a source of another element width only in the lowest part of a wider source, or in the highest part of
a narrower source of at least one register. -/
def overlapOk (vd de dw vs se sw : Nat) : Bool :=
  let dn := grpRegs de
  let sn := grpRegs se
  decide (vd + dn ≤ vs) || decide (vs + sn ≤ vd) ||
  (if dw = sw then true
   else if dw < sw then vd == vs
   else decide (8 ≤ se) && vs + sn == vd + dn)

/-- What a vector instruction leaves: registers and flags; none where it is illegal. -/
abbrev VRes := Option (VRegs × Nat)

/-- The instruction's mask bit of element i. -/
def vact (v : VRegs) (insn i : Nat) : Bool := insn.testBit 25 || vbit v 0 i

/-- Write a destination group of `e` eighths and width w, element by element from `lo` on; `f` answers the active elements. -/
def VCtx.fillFrom (c : VCtx) (lo : Nat) (v : VRegs) (insn vd e w : Nat) (f : Nat → Nat → Nat × Nat) : VRegs × Nat :=
  if c.vl ≤ c.vstart then (v, 0)
  else
    let n := 512 * grpRegs e / w
    (List.range n).foldl (fun (a : VRegs × Nat) i =>
      if i < c.vstart ∨ i < lo then a
      else
        let old := velt v vd w i
        if i < c.vl ∧ vact v insn i then let r := f i old; (vput a.1 vd w i r.1, a.2 ||| r.2)
        else if (if i < c.vl then c.vma else c.vta) ∧ Config.agnostic (c.free + i) then (vput a.1 vd w i (2 ^ w - 1), a.2)
        else a) (v, 0)

/-- The whole group. -/
def VCtx.fill (c : VCtx) (v : VRegs) (insn vd e w : Nat) (f : Nat → Nat → Nat × Nat) : VRegs × Nat := c.fillFrom 0 v insn vd e w f

/-- Write a mask destination: bits past vl are free. -/
def VCtx.fillMask (c : VCtx) (v : VRegs) (insn vd : Nat) (useMask : Bool) (f : Nat → Bool × Nat) : VRegs × Nat :=
  if c.vl ≤ c.vstart then (v, 0)
  else
    (List.range 512).foldl (fun (a : VRegs × Nat) i =>
      if i < c.vstart then a
      else if c.vl ≤ i then (vput a.1 vd 1 i (ofBool (Config.agnostic (c.free + i))), a.2)
      else if !useMask || vact v insn i then let r := f i; (vput a.1 vd 1 i (ofBool r.1), a.2 ||| r.2)
      else if c.vma ∧ Config.agnostic (c.free + i) then (vput a.1 vd 1 i 1, a.2)
      else a) (v, 0)

/-- The second operand: element i of vs1, or a scalar. -/
inductive VB where
  | vec
  | sc (n : Nat)

def VB.get (b : VB) (v : VRegs) (insn w i : Nat) : Nat :=
  match b with
  | .vec => velt v (iRs1 insn) w i
  | .sc n => n % 2 ^ w

/-- An element operation with destination width `dm` SEW, vs2 of `am` SEW and vs1 of `bm` SEW (each 1 or 2). -/
def VCtx.elem (c : VCtx) (v : VRegs) (insn dm am bm : Nat) (b : VB) (f : Nat → Nat → Nat → Option (Nat × Nat)) : VRes :=
  let vd := iRd insn
  let vs2 := iRs2 insn
  let bOk : Bool := match b with
    | .vec => grpOk (c.lm * bm) (iRs1 insn) && overlapOk vd (c.lm * dm) dm (iRs1 insn) (c.lm * bm) bm
    | .sc _ => true
  if (dm = 2 ∨ am = 2) ∧ c.sew = 64 then none
  else if grpOk (c.lm * dm) vd = false ∨ grpOk (c.lm * am) vs2 = false ∨ bOk = false ∨ (insn.testBit 25 = false ∧ vd = 0) ∨
     overlapOk vd (c.lm * dm) dm vs2 (c.lm * am) am = false ∨ (f 0 0 0).isNone then none
  else some (c.fill v insn vd (c.lm * dm) (c.sew * dm) (fun i d =>
    (f (velt v vs2 (c.sew * am) i) (b.get v insn (c.sew * bm) i) d).getD (0, 0)))

/-- A comparison into a mask register. -/
def VCtx.cmp (c : VCtx) (v : VRegs) (insn : Nat) (b : VB) (useMask : Bool) (f : Nat → Nat → Nat → Option (Bool × Nat)) : VRes :=
  let vd := iRd insn
  let vs2 := iRs2 insn
  let inside := fun (r : Nat) => decide (r < vd) && decide (vd < r + grpRegs c.lm)
  let bOk : Bool := match b with
    | .vec => grpOk c.lm (iRs1 insn) && !inside (iRs1 insn)
    | .sc _ => true
  if grpOk c.lm vs2 = false ∨ bOk = false ∨ inside vs2 = true ∨ (f 0 0 0).isNone then none
  else some (c.fillMask v insn vd useMask (fun i => (f i (velt v vs2 c.sew i) (b.get v insn c.sew i)).getD (false, 0)))

/-! ## Integer instructions of OPIVV, OPIVX, OPIVI -/

/-- Which operand kinds a funct6 has: 1 V, 2 X, 4 I. -/
def vIntKinds (f6 : Nat) : Nat :=
  if f6 = 0x00 ∨ f6 = 0x09 ∨ f6 = 0x0A ∨ f6 = 0x0B ∨ f6 = 0x0C ∨ f6 = 0x10 ∨ f6 = 0x11 ∨ f6 = 0x17 ∨ f6 = 0x18 ∨ f6 = 0x19 ∨ f6 = 0x1C ∨
     f6 = 0x1D ∨ f6 = 0x20 ∨ f6 = 0x21 ∨ f6 = 0x25 ∨ (0x28 ≤ f6 ∧ f6 ≤ 0x2F) then 7
  else if f6 = 0x03 ∨ f6 = 0x0E ∨ f6 = 0x0F ∨ f6 = 0x1E ∨ f6 = 0x1F then 6
  else if f6 = 0x02 ∨ (0x04 ≤ f6 ∧ f6 ≤ 0x07) ∨ f6 = 0x12 ∨ f6 = 0x13 ∨ f6 = 0x1A ∨ f6 = 0x1B ∨ f6 = 0x22 ∨ f6 = 0x23 ∨ f6 = 0x27 then 3
  else 0

/-- Slides by n: up leaves the elements below n, down reads zero past VLMAX. -/
def VCtx.slideUp (c : VCtx) (v : VRegs) (insn n : Nat) : VRes :=
  let vd := iRd insn
  let vs2 := iRs2 insn
  if grpOk c.lm vd = false ∨ grpOk c.lm vs2 = false ∨ (vd < vs2 + grpRegs c.lm ∧ vs2 < vd + grpRegs c.lm) ∨
     (insn.testBit 25 = false ∧ vd = 0) then none
  else some (c.fillFrom (min n c.vl) v insn vd c.lm c.sew (fun i _ => (velt v vs2 c.sew (i - n), 0)))

def VCtx.slideDown (c : VCtx) (v : VRegs) (insn n : Nat) : VRes :=
  c.elem v insn 1 1 1 (.sc 0) (fun _ _ _ => some (0, 0)) |>.map (fun _ =>
    c.fill v insn (iRd insn) c.lm c.sew (fun i _ => (if i + n < c.vlmax then velt v (iRs2 insn) c.sew (i + n) else 0, 0)))

/-- vslide1up, vslide1down: `x` enters. -/
def VCtx.slide1Up (c : VCtx) (v : VRegs) (insn x : Nat) : VRes :=
  (c.slideUp v insn 1).map (fun _ =>
    c.fill v insn (iRd insn) c.lm c.sew (fun i _ => (if i = 0 then x else velt v (iRs2 insn) c.sew (i - 1), 0)))
def VCtx.slide1Down (c : VCtx) (v : VRegs) (insn x : Nat) : VRes :=
  (c.slideDown v insn 1).map (fun _ =>
    c.fill v insn (iRd insn) c.lm c.sew (fun i _ => (if i + 1 = c.vl then x else velt v (iRs2 insn) c.sew (i + 1), 0)))

/-- vrgather: the index comes from elements of width iw (a group of `ie` eighths), or is a scalar. -/
def VCtx.gather (c : VCtx) (v : VRegs) (insn iw ie : Nat) (b : VB) (n : Nat) : VRes :=
  let vd := iRd insn
  let vs2 := iRs2 insn
  let meets := fun (r e : Nat) => decide (vd < r + grpRegs e) && decide (r < vd + grpRegs c.lm)
  let bOk : Bool := match b with
    | .vec => grpOk ie (iRs1 insn) && !meets (iRs1 insn) ie
    | .sc _ => true
  if grpOk c.lm vd = false ∨ grpOk c.lm vs2 = false ∨ meets vs2 c.lm = true ∨ bOk = false ∨ (insn.testBit 25 = false ∧ vd = 0) then none
  else some (c.fill v insn vd c.lm c.sew (fun i _ =>
    let k := match b with
      | .vec => velt v (iRs1 insn) iw i
      | .sc _ => n
    (if k < c.vlmax then velt v vs2 c.sew k else 0, 0)))

/-- vadc and vsbc, and the carry and borrow masks. -/
def VCtx.carry (c : VCtx) (v : VRegs) (insn f6 : Nat) (b : VB) : VRes :=
  let w := c.sew
  let m := fun (i : Nat) => if insn.testBit 25 then 0 else ofBool (vbit v 0 i)
  let all := insn / 2 ^ 25 % 2 = 1
  if f6 = 0x10 ∨ f6 = 0x12 then
    if all ∨ iRd insn = 0 then none
    else (c.elem v insn 1 1 1 b (fun _ _ _ => some (0, 0))).map (fun _ =>
      c.fill v (insn ||| 2 ^ 25) (iRd insn) c.lm w (fun i _ =>
        let x := velt v (iRs2 insn) w i
        let y := b.get v insn w i
        (if f6 = 0x10 then (x + y + m i) % 2 ^ w else unsign w ((x : Int) - y - m i), 0)))
  else
    c.cmp v insn b false (fun i x y => some (if f6 = 0x11 then decide (2 ^ w ≤ x + y + m i) else decide (x < y + m i), 0))

/-- vmv<nr>r.v. -/
def VCtx.moveRegs (c : VCtx) (v : VRegs) (insn : Nat) : VRes :=
  let n := iRs1 insn % 8 + 1
  if (n ≠ 1 ∧ n ≠ 2 ∧ n ≠ 4 ∧ n ≠ 8) ∨ 8 ≤ iRs1 insn ∨ iRd insn % n ≠ 0 ∨ iRs2 insn % n ≠ 0 ∨ insn.testBit 25 = false then none
  else some ((range' (c.vstart * c.sew / 512) (n - c.vstart * c.sew / 512)).foldl (fun (u : VRegs) k =>
    if k * 512 < c.vstart * c.sew then
      (range' c.vstart (512 * (k + 1) / c.sew - c.vstart)).foldl (fun (u : VRegs) i => vput u (iRd insn) c.sew i (velt v (iRs2 insn) c.sew i)) u
    else u.set 0 (iRd insn + k) (v.get 0 (iRs2 insn + k))) v, 0)

/-- Reductions of vs2 into element 0, from element 0 of vs1; widths `am` and `dm` SEW. -/
def VCtx.reduce (c : VCtx) (v : VRegs) (insn am dm : Nat) (f : Nat → Nat → Nat × Nat) : VRes :=
  if grpOk c.lm (iRs2 insn) = false ∨ c.vstart ≠ 0 ∨ (dm = 2 ∧ c.sew = 64) then none
  else if c.vl = 0 then some (v, 0)
  else
    let w := c.sew * dm
    let r := (List.range c.vl).foldl (fun (a : Nat × Nat) i =>
      if vact v insn i then let q := f a.1 (velt v (iRs2 insn) (c.sew * am) i); (q.1, a.2 ||| q.2) else a) (velt v (iRs1 insn) w 0, 0)
    some (({ c with vl := 1 }.fill v (insn ||| 2 ^ 25) (iRd insn) 8 w (fun _ _ => (r.1, 0))).1, r.2)

/-- Opcodes OPIVV, OPIVX, OPIVI. -/
def VCtx.opInt (c : VCtx) (v : VRegs) (insn kind : Nat) (x : DWord) : VRes :=
  let f6 := nbits insn 31 26
  let w := c.sew
  let unsgn := f6 = 0x25 ∨ (0x28 ≤ f6 ∧ f6 ≤ 0x2F) ∨ f6 = 0x0C ∨ f6 = 0x0E ∨ f6 = 0x0F
  let imm := if unsgn then iRs1 insn else (sext64 5 (iRs1 insn)).toNat
  let b : VB := if kind = 1 then .vec else if kind = 2 then .sc x.toNat else .sc imm
  let n := if kind = 2 then x.toNat else imm
  if f6 = 0x27 ∧ kind = 4 then c.moveRegs v insn
  else if f6 = 0x0E ∧ kind = 1 then c.gather v insn 16 (16 * c.lm / w) b n
  else if f6 = 0x30 ∧ kind = 1 then c.reduce v insn 1 2 (fun a e => ((a + e) % 2 ^ (2 * w), 0))
  else if f6 = 0x31 ∧ kind = 1 then c.reduce v insn 1 2 (fun a e => (unsign (2 * w) (a + signed w e), 0))
  else if vIntKinds f6 &&& kind = 0 then none
  else if f6 = 0x0C then c.gather v insn w c.lm b n
  else if f6 = 0x0E then c.slideUp v insn n
  else if f6 = 0x0F then c.slideDown v insn n
  else if 0x10 ≤ f6 ∧ f6 ≤ 0x13 then c.carry v insn f6 b
  else if f6 = 0x17 then
    if insn.testBit 25 then (if iRs2 insn ≠ 0 then none else c.elem v insn 1 1 1 b (fun _ y _ => some (y, 0)))
    else if iRd insn = 0 then none
    else (c.elem v insn 1 1 1 b (fun _ _ _ => some (0, 0))).map (fun _ =>
      c.fill v (insn ||| 2 ^ 25) (iRd insn) c.lm w (fun i _ => (if vbit v 0 i then b.get v insn w i else velt v (iRs2 insn) w i, 0)))
  else if 0x18 ≤ f6 ∧ f6 ≤ 0x1F then c.cmp v insn b true (fun _ p q => (vIntCmp w f6 p q).map (fun r => (r, 0)))
  else if 0x2C ≤ f6 ∧ f6 ≤ 0x2F then c.elem v insn 1 2 1 b (fun p q _ => vNarrowOp c f6 p q)
  else c.elem v insn 1 1 1 b (fun p q _ => vIntOp c f6 p q)

/-! ## OPMVV, OPMVX -/

/-- vmsbf, vmsof, vmsif: whether bit i is set, from the first active set bit of vs2. -/
def VCtx.maskFirst (c : VCtx) (v : VRegs) (insn : Nat) : VRes :=
  let vs2 := iRs2 insn
  let k := iRs1 insn
  let first := ((List.range c.vl).find? (fun i => vact v insn i && vbit v vs2 i)).getD 512
  if c.vstart ≠ 0 ∨ iRd insn = vs2 ∨ (insn.testBit 25 = false ∧ iRd insn = 0) then none
  else some (c.fillMask v insn (iRd insn) true (fun i =>
    (if k = 1 then decide (i < first) else if k = 2 then i == first else decide (i ≤ first), 0)))

/-- viota and vid. -/
def VCtx.iota (c : VCtx) (v : VRegs) (insn : Nat) : VRes :=
  let vd := iRd insn
  let vs2 := iRs2 insn
  let isId := iRs1 insn == 0x11
  if grpOk c.lm vd = false ∨ (insn.testBit 25 = false ∧ vd = 0) ∨
     (if isId then vs2 ≠ 0 else (c.vstart ≠ 0 ∨ (vd ≤ vs2 ∧ vs2 < vd + grpRegs c.lm))) then none
  else some (c.fill v insn vd c.lm c.sew (fun i _ =>
    (if isId then i else ((List.range i).filter (fun j => vact v insn j && vbit v vs2 j)).length, 0)))

/-- vzext and vsext: vs2 of SEW / k. -/
def VCtx.extend (c : VCtx) (v : VRegs) (insn k : Nat) (sgn : Bool) : VRes :=
  let vd := iRd insn
  let vs2 := iRs2 insn
  let w := c.sew / k
  let e := c.lm / k
  if w < 8 ∨ c.lm % k ≠ 0 ∨ grpOk c.lm vd = false ∨ grpOk e vs2 = false ∨ overlapOk vd c.lm c.sew vs2 e w = false ∨
     (insn.testBit 25 = false ∧ vd = 0) then none
  else some (c.fill v insn vd c.lm c.sew (fun i _ =>
    let n := velt v vs2 w i
    (if sgn then unsign c.sew (signed w n) else n, 0)))

/-- vcompress. -/
def VCtx.compress (c : VCtx) (v : VRegs) (insn : Nat) : VRes :=
  let vd := iRd insn
  let vs2 := iRs2 insn
  let vs1 := iRs1 insn
  if insn.testBit 25 = false ∨ c.vstart ≠ 0 ∨ grpOk c.lm vd = false ∨ grpOk c.lm vs2 = false ∨
     (vd < vs2 + grpRegs c.lm ∧ vs2 < vd + grpRegs c.lm) ∨ (vd ≤ vs1 ∧ vs1 < vd + grpRegs c.lm) then none
  else
    let l := (List.range c.vl).filter (fun i => vbit v vs1 i)
    if c.vl = 0 then some (v, 0)
    else
      let n := l.length
      let u := l.zipIdx.foldl (fun (u : VRegs) (e : Nat × Nat) => vput u vd c.sew e.2 (velt v vs2 c.sew e.1)) v
      some ((range' n (512 * grpRegs c.lm / c.sew - n)).foldl (fun (u : VRegs) i =>
        if c.vta ∧ Config.agnostic (c.free + i) then vput u vd c.sew i (2 ^ c.sew - 1) else u) u, 0)

/-- The scalar that vmv.x.s, vcpop and vfirst write to x rd. -/
def VCtx.toX (c : VCtx) (v : VRegs) (insn : Nat) : Option DWord :=
  let vs2 := iRs2 insn
  let set := (List.range c.vl).filter (fun i => vact v insn i && vbit v vs2 i)
  match iRs1 insn with
  | 0x00 => if insn.testBit 25 then some (sext64 c.sew (velt v vs2 c.sew 0)) else none
  | 0x10 => if c.vstart ≠ 0 then none else some (dn set.length)
  | 0x11 => if c.vstart ≠ 0 then none else some (match set with | [] => dw (-1) | i :: _ => dn i)
  | _ => none

/-- vmv.s.x and vfmv.s.f: element 0 alone. -/
def VCtx.setFirst (c : VCtx) (v : VRegs) (insn n : Nat) : VRes :=
  if iRs2 insn ≠ 0 ∨ insn.testBit 25 = false then none
  else some ({ c with vl := min c.vl 1 }.fill v insn (iRd insn) 8 c.sew (fun _ _ => (n % 2 ^ c.sew, 0)))

/-- Opcodes OPMVV and OPMVX. -/
def VCtx.opMul (c : VCtx) (v : VRegs) (insn : Nat) (vec : Bool) (x : DWord) : VRes :=
  let f6 := nbits insn 31 26
  let w := c.sew
  let b : VB := if vec then .vec else .sc x.toNat
  let k := iRs1 insn
  if f6 ≤ 0x07 ∧ vec then c.reduce v insn 1 1 (fun a e => ((vRedOp w f6 e a).getD 0, 0))
  else if f6 = 0x0E ∧ !vec then c.slide1Up v insn x.toNat
  else if f6 = 0x0F ∧ !vec then c.slide1Down v insn x.toNat
  else if f6 = 0x10 ∧ !vec then c.setFirst v insn x.toNat
  else if f6 = 0x12 ∧ vec then
    (if 2 ≤ k ∧ k ≤ 7 then c.extend v insn (if k ≤ 3 then 8 else if k ≤ 5 then 4 else 2) (k % 2 == 1) else none)
  else if f6 = 0x14 ∧ vec then
    (if 1 ≤ k ∧ k ≤ 3 then c.maskFirst v insn else if k = 0x10 ∨ k = 0x11 then c.iota v insn else none)
  else if f6 = 0x17 ∧ vec then c.compress v insn
  else if 0x18 ≤ f6 ∧ f6 ≤ 0x1F then
    (if !vec ∨ insn.testBit 25 = false then none
     else some (c.fillMask v insn (iRd insn) false (fun i => ((vMaskOp f6 (vbit v (iRs2 insn) i) (vbit v k i)).getD false, 0))))
  else if 0x30 ≤ f6 ∧ f6 ≤ 0x33 ∨ 0x38 ≤ f6 then
    (if f6 = 0x3E ∧ vec then none else c.elem v insn 2 1 1 b (fun p q d => vWideOp w f6 p q d))
  else if 0x34 ≤ f6 then c.elem v insn 2 2 1 b (fun p q _ => vWideWOp w f6 p q)
  else c.elem v insn 1 1 1 b (fun p q d => vMulOp c f6 p q d)

/-! ## OPFVV, OPFVF -/

/-- Conversions. -/
def VCtx.convert (c : VCtx) (v : VRegs) (insn : Nat) : VRes :=
  match vCvt c.sew c.frm (iRs1 insn) with
  | none => none
  | some (dm, am, f) => c.elem v insn dm am 1 (.sc 0) (fun a _ _ => some (f a))

/-- The unordered sums, whose order of additions is open: a free value, with free flags. -/
def VCtx.freeSum (c : VCtx) (r : VRes) (insn w : Nat) : VRes :=
  r.map (fun u =>
    if c.vl = 0 then u
    else (vput u.1 (iRd insn) w 0 (Config.freeDWord c.free).toNat, u.2 ||| (Config.freeWord (c.free + 1)).toNat % 32))

/-- Opcodes OPFVV and OPFVF; `x` is the scalar's f register. -/
def VCtx.opFp (c : VCtx) (v : VRegs) (insn : Nat) (vec : Bool) (x : DWord) : VRes :=
  let f6 := nbits insn 31 26
  let w := c.sew
  let rm := c.frm
  let k := iRs1 insn
  let sc := fun (f : Fmt) => if boxed f x then x.toNat % 2 ^ f.width else f.canon
  if 4 < rm then none
  else if f6 = 0x12 ∧ vec then c.convert v insn
  else if f6 = 0x3B then
    (if w = 16 then c.elem v insn 2 1 1 (if vec then .vec else .sc (sc bf16)) (fun p q d => some (vFpBf16 rm p q d)) else none)
  else match vFmt w with
    | none => none
    | some f =>
      let b : VB := if vec then .vec else .sc (sc f)
      if f6 = 0x10 then (if vec then none else c.setFirst v insn (sc f))
      else if f6 = 0x13 then (if vec then c.elem v insn 1 1 1 (.sc 0) (fun p _ _ => vFpUnary f rm k p) else none)
      else if f6 = 0x01 ∧ vec then c.freeSum (c.reduce v insn 1 1 (fun a e => f.addM rm a e)) insn w
      else if f6 = 0x03 ∧ vec then c.reduce v insn 1 1 (fun a e => f.addM rm a e)
      else if (f6 = 0x05 ∨ f6 = 0x07) ∧ vec then c.reduce v insn 1 1 (fun a e => f.minM (f6 == 0x07) a e)
      else if f6 = 0x0E ∧ !vec then c.slide1Up v insn (sc f)
      else if f6 = 0x0F ∧ !vec then c.slide1Down v insn (sc f)
      else if f6 = 0x17 then
        if vec then none
        else if insn.testBit 25 then (if iRs2 insn ≠ 0 then none else c.elem v insn 1 1 1 b (fun _ y _ => some (y, 0)))
        else if iRd insn = 0 then none
        else (c.elem v insn 1 1 1 b (fun _ _ _ => some (0, 0))).map (fun _ =>
          c.fill v (insn ||| 2 ^ 25) (iRd insn) c.lm w (fun i _ => (if vbit v 0 i then sc f else velt v (iRs2 insn) w i, 0)))
      else if 0x18 ≤ f6 ∧ f6 ≤ 0x1F then
        (if vec ∧ (f6 = 0x1D ∨ f6 = 0x1F) then none else c.cmp v insn b true (fun _ p q => vFpCmp f f6 p q))
      else if (f6 = 0x21 ∨ f6 = 0x27) ∧ vec then none
      else if f6 = 0x31 ∧ vec ∧ w = 32 then
        c.freeSum (c.reduce v insn 1 2 (fun a e => fp64.addM rm a (fp32.convM fp64 0 e).1)) insn 64
      else if f6 = 0x33 ∧ vec ∧ w = 32 then
        c.reduce v insn 1 2 (fun a e => let y := fp32.convM fp64 0 e; let r := fp64.addM rm a y.1; (r.1, r.2 ||| y.2))
      else if f6 = 0x34 ∨ f6 = 0x36 then (if w = 32 then c.elem v insn 2 2 1 b (fun p q _ => vFpWideW rm f6 p q) else none)
      else if 0x30 ≤ f6 then (if w = 32 then c.elem v insn 2 1 1 b (fun p q d => vFpWide rm f6 p q d) else none)
      else c.elem v insn 1 1 1 b (fun p q d => vFpOp f rm f6 p q d)

/-! ## The instruction -/

/-- FCLK that an instruction occupies a vector unit (R257), from elements of width w. -/
def vecTime (vl w : Nat) (slow : Bool) : Nat := max 1 (ceilDiv vl (512 / w)) * (if slow then 4 else 1)

/-- Divide, square root and reductions take four times as long. -/
def vecSlow (insn : Nat) : Bool :=
  let f6 := nbits insn 31 26
  match iF3 insn with
  | 0 => f6 == 0x30 || f6 == 0x31
  | 1 | 5 => f6 == 0x20 || f6 == 0x21 || (iF3 insn == 1 && (f6 == 0x01 || f6 == 0x03 || f6 == 0x05 || f6 == 0x07 || f6 == 0x31 ||
      f6 == 0x33 || (f6 == 0x13 && iRs1 insn == 0)))
  | 2 | 6 => (decide (0x20 ≤ f6) && decide (f6 ≤ 0x23)) || (iF3 insn == 2 && decide (f6 ≤ 0x07))
  | _ => false

/-- The registers, flags and counters after a vector arithmetic instruction. -/
def State.vecDone (s : State) (h insn : Nat) (r : VRegs × Nat) : State :=
  let c := s.vctx h
  let t := s.updHart h (fun x => x.setSlot (fun t => { t with v := r.1, vstart := 0, vxsat := t.vxsat || r.2.testBit 5 }))
  let t := t.fFlags h (r.2 % 32)
  { t.count (Reg.CORE_CNT_VEC_BUSY (h / 512)) (vecTime c.vl c.sew (vecSlow insn)) with free := t.free + 1024 }

/-- Opcode OP-V with the unit on. -/
def State.xOpV (s : State) (h insn : Nat) (nx : DWord) : MR (Option DWord) :=
  let x := s.hart h
  let c := s.vctx h
  let v := s.vregs h
  let f3 := iF3 insn
  let f6 := nbits insn 31 26
  let fin := fun (r : VRes) => match r with
    | none => illegal s insn
    | some r => MR.ok (some nx) (s.vecDone h insn r)
  if f3 = 7 then
    (if nbits insn 31 30 = 2 ∧ nbits insn 29 25 ≠ 0 then illegal s insn
     else
       let t := s.vset h insn
       .ok (some nx) (t.count (Reg.CORE_CNT_VEC_BUSY (h / 512)) (vecTime (t.vctx h).vl (min 64 (t.vctx h).sew) false)))
  else if s.vill h then illegal s insn
  else if f3 = 0 then fin (c.opInt v insn 1 0)
  else if f3 = 3 then fin (c.opInt v insn 4 0)
  else if f3 = 4 then fin (c.opInt v insn 2 (x.rx (iRs1 insn)))
  else if f3 = 2 then
    (if f6 = 0x10 then
       match c.toX v insn with
       | none => illegal s insn
       | some w => .ok (some nx) ((s.vecDone h insn (v, 0)).wx h (iRd insn) w)
     else fin (c.opMul v insn true 0))
  else if f3 = 6 then fin (c.opMul v insn false (x.rx (iRs1 insn)))
  else if x.fs = 0 then illegal s insn
  else if f3 = 1 ∧ f6 = 0x10 then
    match vFmt c.sew with
    | some f =>
      if iRs1 insn ≠ 0 ∨ insn.testBit 25 = false ∨ 4 < c.frm then illegal s insn
      else .ok (some nx) ((s.vecDone h insn (v, 0)).wf h (iRd insn) (box f (velt v (iRs2 insn) c.sew 0)))
    | none => illegal s insn
  else fin (c.opFp v insn (f3 == 1) (x.rf (iRs1 insn)))

end Sys2Proof.Machine
end

