-- ==== Sys2Proof/Machine/HartVecMem.lean ====
section
/-! DEFINITION. The vector loads and stores of a fabric hart (R257, R261). A unit-stride store writes the elements that follow each other
in one aligned 64-byte block as one write, so that 64 bytes reach a port whole (R268, R272; DEDUCED, log entry 26). PRESUMED from the
RISC-V V specification otherwise, log entry 24. -/
namespace Sys2Proof.Machine

/-- A vector memory access: its elements (an index and the byte address of field 0), element bytes, fields, and the registers of each
field's group, first one and number. -/
structure VMem where
  els : List (Nat × Nat)
  bytes : Nat
  fields : Nat
  vd : Nat
  regs : Nat
  /-- Elements in all, and what the policies leave: 0 whole registers, 1 elements, 2 a mask, whose tail is always agnostic. -/
  evl : Nat
  agn : Nat
  deriving DecidableEq, Repr

/-- The elements that are accessed: from vstart to the end, active. -/
def vmEls (v : VRegs) (insn start evl : Nat) (addr : Nat → Nat) : List (Nat × Nat) :=
  ((range' start (evl - start)).filter (fun i => vact v insn i)).map (fun i => (i, addr i % 2 ^ 64))

/-- Registers of a group of `e` eighths with `nf` fields fit. -/
def fieldsOk (e nf vd : Nat) : Bool := grpOk e vd && decide (grpRegs e * nf ≤ 8) && decide (vd + grpRegs e * nf ≤ 32)

/-- EMUL in eighths of elements of width w under the settings; 0 where it is reserved. -/
def VCtx.emul (c : VCtx) (w : Nat) : Nat := if w * c.lm % c.sew = 0 ∧ w * c.lm / c.sew ≤ 64 then w * c.lm / c.sew else 0

/-- The access of an instruction; none where it is illegal. -/
def State.vmem (s : State) (h insn : Nat) (store : Bool) : Option VMem :=
  let c := s.vctx h
  let v := s.vregs h
  let vd := iRd insn
  let nf := nbits insn 31 29 + 1
  let w := match iF3 insn with | 0 => 8 | 5 => 16 | 6 => 32 | _ => 64
  let base := (s.rx h (iRs1 insn)).toNat
  let vm := insn.testBit 25
  let op := iRs2 insn
  let mk := fun (e eb : Nat) (addr : Nat → Nat) =>
    if fieldsOk e nf vd = false ∨ (vm = false ∧ vd = 0 ∧ store = false) then none
    else some { els := vmEls v insn c.vstart c.vl addr, bytes := eb, fields := nf, vd := vd, regs := grpRegs e, evl := c.vl, agn := 1 : VMem }
  if insn.testBit 28 then none
  else match nbits insn 27 26 with
    | 0 =>
      if op = 8 then
        (if vm = false ∨ (nf ≠ 1 ∧ nf ≠ 2 ∧ nf ≠ 4 ∧ nf ≠ 8) ∨ vd % nf ≠ 0 ∨ (store = true ∧ w ≠ 8) then none
         else
           let n := nf * 512 / w
           some { els := vmEls v insn c.vstart n (fun i => base + i * (w / 8)), bytes := w / 8, fields := 1, vd := vd, regs := nf, evl := n, agn := 0 })
      else if s.vill h then none
      else if op = 11 then
        (if vm = false ∨ nf ≠ 1 ∨ w ≠ 8 then none
         else
           let n := (c.vl + 7) / 8
           some { els := vmEls v insn c.vstart n (fun i => base + i), bytes := 1, fields := 1, vd := vd, regs := 1, evl := n, agn := 2 })
      else if op = 0 ∨ (op = 16 ∧ store = false) then mk (c.emul w) (w / 8) (fun i => base + i * nf * (w / 8))
      else none
    | 2 =>
      if s.vill h then none
      else mk (c.emul w) (w / 8) (fun i => (base + i * (s.rx h op).toNat) % 2 ^ 64)
    | _ =>
      let ie := c.emul w
      if s.vill h ∨ grpOk ie op = false then none
      else if store = false ∧ (overlapOk vd c.lm c.sew op ie w = false ∨ (1 < nf ∧ op < vd + grpRegs c.lm * nf ∧ vd < op + grpRegs ie)) then none
      else mk c.lm (c.sew / 8) (fun i => base + velt v op w i)

/-- What a vector load has done when it stops: the registers, and at which element it stopped, with a trap or waiting. -/
inductive VStop where
  | done
  | trap (i cause tval : Nat)
  | wait (i : Nat) (req : Option (Nat × Nat))

/-- Load the fields j, j + 1, … of one element. -/
def State.vloadFields (s : State) (h : Nat) (m : VMem) (i a : Nat) (v : VRegs) : Nat → Nat → MR VRegs
  | 0, _ => .ok v s
  | n + 1, j =>
    (s.hread h .r ((a + j * m.bytes) % 2 ^ 64) m.bytes).bind fun b s1 =>
      State.vloadFields s1 h m i a (vput v (m.vd + j * m.regs) (8 * m.bytes) i (leNat b)) n (j + 1)

/-- Load the elements in order. -/
def State.vloadEls (s : State) (h : Nat) (m : VMem) (v : VRegs) : List (Nat × Nat) → State × VRegs × VStop
  | [] => (s, v, .done)
  | (i, a) :: t =>
    match s.vloadFields h m i a v m.fields 0 with
    | .ok u s1 => State.vloadEls s1 h m u t
    | .trap c tv s1 => (s1, v, .trap i c tv)
    | .wait q s1 => (s1, v, .wait i q)

/-- A write of the elements from i on. -/
def vrun (a b : Nat × Nat × Bytes) : Option (Nat × Nat × Bytes) :=
  let e := a.2.1 + a.2.2.length
  if e = b.2.1 ∧ a.2.1 / 64 = (b.2.1 + b.2.2.length - 1) / 64 then some (a.1, a.2.1, a.2.2 ++ b.2.2) else none

/-- The writes of a store: each element and field by itself, or joined. -/
def vruns (join : Bool) : List (Nat × Nat × Bytes) → List (Nat × Nat × Bytes)
  | [] => []
  | x :: t =>
    match vruns join t with
    | [] => [x]
    | y :: u => match (if join then vrun x y else none) with
      | some z => z :: u
      | none => x :: y :: u

def State.vstoreRuns (s : State) (h : Nat) : List (Nat × Nat × Bytes) → State × VStop
  | [] => (s, .done)
  | (i, a, b) :: t =>
    match s.hwrite h a b with
    | .ok _ s1 => State.vstoreRuns s1 h t
    | .trap c tv s1 => (s1, .trap i c tv)
    | .wait q s1 => (s1, .wait i q)

/-- The bytes of element i, field by field. -/
def VMem.stores (m : VMem) (v : VRegs) : List (Nat × Nat × Bytes) :=
  m.els.flatMap (fun (e : Nat × Nat) => (List.range m.fields).map (fun j =>
    (e.1, (e.2 + j * m.bytes) % 2 ^ 64, toLe m.bytes (velt v (m.vd + j * m.regs) (8 * m.bytes) e.1))))

/-- Elements that are not loaded take what the agnostic policies leave them. -/
def VCtx.agnosticMem (c : VCtx) (v : VRegs) (insn : Nat) (m : VMem) (vl : Nat) : VRegs :=
  if m.agn = 0 then v
  else (List.range m.fields).foldl (fun (v : VRegs) j =>
    ({ c with vl := vl, vta := c.vta || m.agn == 2, free := c.free + 512 * j }.fill v insn (m.vd + j * m.regs) (8 * m.regs) (8 * m.bytes) (fun _ d => (d, 0))).1) v

/-- The slot after an access, with vstart and vl as it leaves them. -/
def State.vecLeave (s : State) (h start : Nat) (v : VRegs) (vl : Option Nat) : State :=
  s.updHart h (fun x => x.setSlot (fun t => { t with v := v, vstart := start, vl := vl.getD t.vl }))

/-- A vector load or store with the unit on. -/
def State.xVecMem (s : State) (h insn : Nat) (store : Bool) (nx : DWord) : MR (Option DWord) :=
  let c := s.vctx h
  let v := s.vregs h
  match s.vmem h insn store with
  | none => illegal s insn
  | some m =>
    let fin := fun (s : State) (v : VRegs) (vl : Option Nat) =>
      MR.ok (some nx) (({ s.vecLeave h 0 v vl with free := s.free + 4096 } : State).count (Reg.CORE_CNT_VEC_BUSY (h / 512))
        (vecTime (m.evl * m.fields) (8 * m.bytes) false))
    let unit := nbits insn 27 26 == 0
    if store then
      match s.vstoreRuns h (vruns (unit && m.fields == 1) (m.stores v)) with
      | (t, .done) => fin t v none
      | (t, .trap i k tv) => .trap k tv (t.vecLeave h i v none)
      | (t, .wait i q) => .wait q (t.vecLeave h i v none)
    else
      match s.vloadEls h m v m.els with
      | (t, u, .done) => fin t (c.agnosticMem u insn m m.evl) none
      | (t, u, .trap i k tv) =>
        if unit ∧ iRs2 insn = 16 ∧ i ≠ 0 then fin t (c.agnosticMem u insn m i) (some i)
        else .trap k tv (t.vecLeave h i u none)
      | (t, u, .wait i q) => .wait q (t.vecLeave h i u none)

/-- A vector instruction: with VS Off it is illegal (R257). -/
def State.xVec (s : State) (h insn : Nat) (nx : DWord) : MR (Option DWord) :=
  if (s.hart h).vs = 0 then illegal s insn
  else if insn % 128 = 0x57 then s.xOpV h insn nx
  else s.xVecMem h insn (insn % 128 == 0x27) nx

end Sys2Proof.Machine
end

