-- ==== Sys2Proof/Machine/HartRun.lean ====
section
/-! DEFINITION. A fabric hart issues an instruction (R255, R259): waking, interrupts, the fetch, the choice of a row by the instruction, and
what follows it.  One command issues one instruction of one hart, as the row of the instruction; a row that does not fit the hart's next
instruction changes nothing (log entry 8). -/
namespace Sys2Proof.Machine

/-- The rows of the table that issue a hart's instruction. -/
inductive IClass where
  | instr | load | store | amo | lr | sc | fence | fencei | xfence | xpark | wrs | urg | peerr | mevtq | satp | vs | vec
  deriving DecidableEq, Repr

/-- The row of a CSR instruction: by the register it names and whether it reads or writes it. -/
def State.csrClass (s : State) (h insn : Nat) : IClass :=
  let n := nbits insn 31 20
  if n = 0x7C1 ∧ csrReads insn then .mevtq
  else if csrWrites insn = false then .instr
  else if n = csrURG then .urg
  else if n = 0x801 then .peerr
  else if n = 0x180 then .satp
  else match s.newVs h insn with
    | some v => if (v = 0) ≠ ((s.hart h).vs = 0) then .vs else .instr
    | none => .instr

/-- The row of an instruction. -/
def State.iclass (s : State) (h insn : Nat) : IClass :=
  let f3 := iF3 insn
  let scalar := decide (1 ≤ f3) && decide (f3 ≤ 4)
  match insn % 128 with
  | 0x03 => .load
  | 0x23 => .store
  | 0x07 => if scalar then .load else .vec
  | 0x27 => if scalar then .store else .vec
  | 0x57 => .vec
  | 0x2F => if nbits insn 31 27 = 2 then .lr else if nbits insn 31 27 = 3 then .sc else .amo
  | 0x0F => if f3 = 0 then .fence else if f3 = 1 then .fencei else .instr
  | 0x0B => if f3 = 0 then .xfence else if f3 = 1 then .xpark else .instr
  | 0x73 =>
    if insn = 0x00D00073 ∨ insn = 0x01D00073 then .wrs
    else if f3 = 0 ∨ f3 = 4 then .instr else s.csrClass h insn
  | _ => .instr

/-- HART_LOAD and HART_STORE, of integer and floating-point registers. -/
def State.xLoads (s : State) (h insn : Nat) (nx : DWord) : MR (Option DWord) :=
  if insn % 128 = 0x03 then s.xLoad h insn nx else s.xFload h insn nx
def State.xStores (s : State) (h insn : Nat) (nx : DWord) : MR (Option DWord) :=
  if insn % 128 = 0x23 then s.xStore h insn nx else s.xFstore h insn nx

/-- The instructions without a row of their own. -/
def State.xOther (s : State) (h insn : Nat) (nx : DWord) : MR (Option DWord) :=
  let op := insn % 128
  if op = 0x53 then s.xFp h insn nx
  else if op = 0x43 ∨ op = 0x47 ∨ op = 0x4B ∨ op = 0x4F then s.xFma h insn nx
  else if op = 0x73 then (if iF3 insn = 0 then s.xSystem h insn nx else s.xCsr h insn nx)
  else if op = 0x33 ∨ op = 0x3B ∨ op = 0x13 ∨ op = 0x1B ∨ op = 0x37 ∨ op = 0x17 ∨ op = 0x6F ∨ op = 0x67 ∨ op = 0x63 then s.xArith h insn nx
  else illegal s insn

/-- A hart that waits in WFI or WRS goes on: an interrupt is pending and enabled, its reservation is gone, or the 1 µs of WRS.STO has
passed (R270). -/
def State.wakes (s : State) (h : Nat) : Bool :=
  let x := s.hart h
  match x.run with
  | .wfi => s.irqs h != 0
  | .wrs sto => x.resv.isNone || s.irqs h != 0 || (match sto with | some t => decide (t ≤ s.now) | none => false)
  | _ => false
def State.woken (s : State) (h : Nat) : State := if s.wakes h then s.updHart h (fun x => { x with run := .running }) else s

/-- A vector slot is free for the hart, which waits its turn (R257). -/
def State.slotFor (s : State) (h : Nat) : Bool :=
  let c := h / 512
  decide (s.slotsHeld c < 64) && ((s.core c).slotQ.isEmpty || (s.core c).slotQ.head? == some h)

/-- The instruction at the hart's pc: its 32-bit form and its length. -/
def State.hfetch (s : State) (h : Nat) : MR (Nat × Nat) :=
  let pc := (s.hart h).pc.toNat
  (s.hread h .x pc 2).bind fun b s1 =>
    let lo := leNat b
    if lo % 4 = 3 then
      (s1.hread h .x ((pc + 2) % 2 ^ 64) 2).bind fun c s2 => .ok (lo + 65536 * leNat c, 4) s2
    else .ok (expand lo, 2) s1

/-- The hart counts what it retires: the core's instructions, and instret unless mcountinhibit stops it. -/
def State.retired (s : State) (h : Nat) : State :=
  let s := s.bump (Reg.CORE_CNT_INSTR (h / 512))
  if bit ((s.hart h).cs 0x320) 2 then s else s.updHart h (fun x => x.setCs 0xB02 (x.cs 0xB02 + 1))

/-- The hart waits; a peer read is issued unless one is under way. -/
def State.hwait (s : State) (h : Nat) (q : Option (Nat × Nat)) : State :=
  match q with
  | none => s
  | some (a, n) =>
    if s.kal.peers.any (isLoadOf h) then s
    else s.issuePeer (.load h a) false a [] n (s.hart h).urg (s.vtag ((s.coreOwner (h / 512)).getD 0) (s.hart h).vi)

/-- An instruction has been carried out: it retires, traps or waits. -/
def State.hfinish (s : State) (h : Nat) : MR (Option DWord) → State
  | .ok (some nx) t => ((t.updHart h (fun x => { x with pc := nx })).retired h).dropAnswers h
  | .ok none t => (t.bump (Reg.CORE_CNT_INSTR (h / 512))).dropAnswers h
  | .trap c tv t => (t.hartTrap h c tv false).dropAnswers h
  | .wait q t => t.hwait h q

/-- The hart joins the harts that wait for a vector slot; each FCLK of the wait is counted, a number that is open here. -/
def State.slotWait (s : State) (h : Nat) : State :=
  if (s.core (h / 512)).slotQ.contains h then s
  else (s.updHart h (fun x => { x with run := .slotWait })).updCore (h / 512) (fun c => { c with slotQ := c.slotQ ++ [h] })
def State.slotGot (s : State) (h : Nat) : State :=
  if (s.core (h / 512)).slotQ.contains h then
    let s := (s.updHart h (fun x => { x with run := .running })).updCore (h / 512) (fun c => { c with slotQ := c.slotQ.filter (· ≠ h) })
    s.fresh.2.count (Reg.CORE_CNT_VSLOT_WAIT (h / 512)) s.fresh.1.toNat
  else s

/-- The hart can issue now: it runs, or it waits for a vector slot. -/
def Hart.issues (x : Hart) : Bool := x.run == .running || x.run == .slotWait

/-- What a hart does when it can issue: it takes an interrupt, or the fetch at its pc answers. -/
inductive Issue where
  | no
  | irq (i : Nat)
  | fetch (r : MR (Nat × Nat))

def State.issue (s : State) (h : Nat) : Issue :=
  let x := s.hart h
  if x.issues = false then .no
  else match (if x.run = .running ∧ s.peerBusy h = false then s.irq h else none) with
    | some i => .irq i
    | none => .fetch (s.hfetch h)

/-- Hart h issues its next instruction if that belongs to row `k`, whose instructions do what `body` says (R255). -/
def State.hartRow (s0 : State) (h : Nat) (k : IClass) (body : State → Nat → DWord → MR (Option DWord)) : State :=
  match (s0.woken h).issue h with
  | .fetch (.ok (insn, n) t) =>
    if t.iclass h insn = k then t.hfinish h (body t insn ((t.hart h).pc + BitVec.ofNat 64 n)) else s0
  | _ => s0

/-- HART_INSTRUCTION: also the interrupts that the hart takes and the fetches that fail or wait. -/
def State.hartInstr (s0 : State) (h : Nat) : State :=
  let s := s0.woken h
  match s.issue h with
  | .no => s0
  | .irq i => s.hartTrap h i 0 true
  | .fetch (.trap c tv t) => (t.hartTrap h c tv false).dropAnswers h
  | .fetch (.wait q t) => t.hwait h q
  | .fetch (.ok _ _) => s0.hartRow h .instr (fun s insn nx => s.xOther h insn nx)

/-- VS_WRITE: a write that takes VS from Off waits until a slot is free and its turn has come (R257). -/
def State.vsRow (s0 : State) (h : Nat) : State :=
  match (s0.woken h).issue h with
  | .fetch (.ok (insn, n) t) =>
    if t.iclass h insn ≠ .vs then s0
    else
      let nx := (t.hart h).pc + BitVec.ofNat 64 n
      if (t.hart h).vs ≠ 0 then t.hfinish h (t.xCsr h insn nx)
      else if t.slotFor h then let u := t.slotGot h; u.hfinish h (u.xCsr h insn nx)
      else t.slotWait h
  | _ => s0

/-- WRS_STO_TIMEOUT (R270). -/
def State.wrsTimeout (s : State) (h : Nat) : State :=
  match (s.hart h).run with
  | .wrs (some t) => if t ≤ s.now then s.updHart h (fun x => { x with run := .running }) else s
  | _ => s

/-- WRS: the instruction, or a waiting hart that goes on. -/
def State.wrsRow (s : State) (h : Nat) : State :=
  match (s.hart h).run with
  | .wrs _ => s.woken h
  | _ => s.hartRow h .wrs (fun s insn nx => s.xWrs h insn nx)

/-- MTIMER (R276): MTIP is pending once the time has come, and a hart that waits for it goes on. -/
def State.mtimer (s : State) (h : Nat) : State := if ((s.hart h).cs 0x7C0).toNat ≤ s.now then s.woken h else s

end Sys2Proof.Machine
end

