-- ==== Sys2Proof/Machine/HartRows.lean ====
section
/-! DEFINITION. The meanings of the commands that act through `HartRun`: one per row of the table, each with the effect its rule
gives it. -/
namespace Sys2Proof.Machine

/-- HART_INSTRUCTION (R259): A fabric hart issues an instruction of its ISA not given a row of its own. -/
def execHartInstruction (h : Fin 49152) (s : State) : Host.Outcome State Fault Refusal :=
  finish s (s.hartInstr h)
    [.free, .mem, .regs, .clk, .flogRing, .flogLast, .holding, .hevt, .msix, .qs, .items, .egress, .parts, .vis,
     .ue, .out, .ports, .tiles, .batchHeld, .arena, .handing, .gctxs, .sc, .harts, .cores, .klinks, .kal]

/-- HART_LOAD (R261): A hart load is translated, checked and performed, faulting when misaligned across 64 bytes or
failing a check. -/
def execHartLoad (h : Fin 49152) (s : State) : Host.Outcome State Fault Refusal :=
  finish s (s.hartRow h .load (fun s insn nx => s.xLoads h insn nx))
    [.free, .mem, .regs, .clk, .flogRing, .flogLast, .holding, .hevt, .msix, .qs, .items, .egress, .parts, .vis,
     .ue, .out, .ports, .tiles, .batchHeld, .arena, .handing, .gctxs, .sc, .harts, .cores, .klinks, .kal]

/-- HART_STORE (R261): A hart store is translated, checked and performed, faulting when misaligned across 64 bytes or
failing a check. -/
def execHartStore (h : Fin 49152) (s : State) : Host.Outcome State Fault Refusal :=
  finish s (s.hartRow h .store (fun s insn nx => s.xStores h insn nx)) Fld.all

/-- AMO (R270): A hart AMO is performed at the point of coherence on HBM or commons, or faults on any other target. -/
def execAmo (h : Fin 49152) (s : State) : Host.Outcome State Fault Refusal :=
  finish s (s.hartRow h .amo (fun s insn nx => s.xAmo h insn nx))
    [.free, .mem, .regs, .clk, .flogRing, .flogLast, .holding, .hevt, .msix, .qs, .items, .egress, .parts, .vis,
     .ue, .out, .ports, .tiles, .batchHeld, .arena, .handing, .gctxs, .sc, .harts, .cores, .klinks, .kal]

/-- LR (R270): A hart load-reserved reserves its 64-byte block. -/
def execLr (h : Fin 49152) (s : State) : Host.Outcome State Fault Refusal :=
  finish s (s.hartRow h .lr (fun s insn nx => s.xLr h insn nx))
    [.free, .mem, .regs, .clk, .flogRing, .flogLast, .holding, .hevt, .msix, .qs, .items, .egress, .parts, .vis,
     .ue, .out, .ports, .tiles, .batchHeld, .arena, .handing, .gctxs, .sc, .harts, .cores, .klinks, .kal]

/-- SC (R270): A hart store-conditional succeeds only if no requester wrote the reserved block. -/
def execSc (h : Fin 49152) (s : State) : Host.Outcome State Fault Refusal :=
  finish s (s.hartRow h .sc (fun s insn nx => s.xSc h insn nx))
    [.free, .mem, .regs, .clk, .flogRing, .flogLast, .holding, .hevt, .msix, .qs, .items, .egress, .parts, .vis,
     .ue, .out, .ports, .tiles, .batchHeld, .arena, .handing, .gctxs, .sc, .harts, .cores, .klinks, .kal]

/-- FENCE (R267): A FENCE or FENCE.TSO orders the hart's accesses at device scope. -/
def execFence (h : Fin 49152) (s : State) : Host.Outcome State Fault Refusal :=
  finish s (s.hartRow h .fence (fun s insn nx => s.xFence h insn nx))
    [.free, .mem, .regs, .clk, .flogRing, .flogLast, .holding, .hevt, .msix, .qs, .items, .egress, .parts, .vis,
     .ue, .out, .ports, .tiles, .batchHeld, .arena, .handing, .gctxs, .sc, .harts, .cores, .klinks, .kal]

/-- FENCE_I (R269): FENCE.I makes the hart's later fetches see stores performed at device scope. -/
def execFenceI (h : Fin 49152) (s : State) : Host.Outcome State Fault Refusal :=
  finish s (s.hartRow h .fencei (fun s insn nx => s.xFence h insn nx))
    [.free, .mem, .regs, .clk, .flogRing, .flogLast, .holding, .hevt, .msix, .qs, .items, .egress, .parts, .vis,
     .ue, .out, .ports, .tiles, .batchHeld, .arena, .handing, .gctxs, .sc, .harts, .cores, .klinks, .kal]

/-- XFENCE (R267): Custom scoped fence that orders accesses at core, device or kaleidoscope scope. -/
def execXfence (h : Fin 49152) (s : State) : Host.Outcome State Fault Refusal :=
  finish s (s.hartRow h .xfence (fun s insn nx => s.xXfence h insn nx))
    [.free, .mem, .regs, .clk, .flogRing, .flogLast, .holding, .hevt, .msix, .qs, .items, .egress, .parts, .vis,
     .ue, .out, .ports, .tiles, .batchHeld, .arena, .handing, .gctxs, .sc, .harts, .cores, .klinks, .kal]

/-- XPARK (R275): Custom instruction that releases the vector slot and parks the hart after its accesses are
performed. -/
def execXpark (h : Fin 49152) (s : State) : Host.Outcome State Fault Refusal :=
  finish s (s.hartRow h .xpark (fun s insn _ => s.xXpark h insn))
    [.free, .mem, .regs, .clk, .flogRing, .flogLast, .holding, .hevt, .msix, .qs, .items, .egress, .parts, .vis,
     .ue, .out, .ports, .tiles, .batchHeld, .arena, .handing, .gctxs, .sc, .harts, .cores, .klinks, .kal]

/-- WRS (R270): WRS waits until the reservation set is written or an interrupt is pending. -/
def execWrs (h : Fin 49152) (s : State) : Host.Outcome State Fault Refusal :=
  finish s (s.wrsRow h)
    [.free, .mem, .regs, .clk, .flogRing, .flogLast, .holding, .hevt, .msix, .qs, .items, .egress, .parts, .vis,
     .ue, .out, .ports, .tiles, .batchHeld, .arena, .handing, .gctxs, .sc, .harts, .cores, .klinks, .kal]

/-- WRS_STO_TIMEOUT (R270): A WRS.STO wait ends after 1 µs. -/
def execWrsStoTimeout (h : Fin 49152) (s : State) : Host.Outcome State Fault Refusal :=
  finish s (s.wrsTimeout h) [.harts]

/-- URG_WRITE (R256): A write to CSR URG sets the hart's urgency for issue choice and memory requests. -/
def execUrgWrite (h : Fin 49152) (s : State) : Host.Outcome State Fault Refusal :=
  finish s (s.hartRow h .urg (fun s insn nx => s.xCsr h insn nx))
    [.free, .mem, .regs, .clk, .flogRing, .flogLast, .holding, .hevt, .msix, .qs, .items, .egress, .parts, .vis,
     .ue, .out, .ports, .tiles, .batchHeld, .arena, .handing, .gctxs, .sc, .harts, .cores, .klinks, .kal]

/-- PEERR_WRITE (R260): A write of 1 to bit 0 of CSR PEERR clears the sticky peer access failure. -/
def execPeerrWrite (h : Fin 49152) (s : State) : Host.Outcome State Fault Refusal :=
  finish s (s.hartRow h .peerr (fun s insn nx => s.xCsr h insn nx))
    [.free, .mem, .regs, .clk, .flogRing, .flogLast, .holding, .hevt, .msix, .qs, .items, .egress, .parts, .vis,
     .ue, .out, .ports, .tiles, .batchHeld, .arena, .handing, .gctxs, .sc, .harts, .cores, .klinks, .kal]

/-- MEVTQ_READ (R276): A CSR read of MEVTQ removes and returns the lowest pending event channel. -/
def execMevtqRead (h : Fin 49152) (s : State) : Host.Outcome State Fault Refusal :=
  finish s (s.hartRow h .mevtq (fun s insn nx => s.xCsr h insn nx))
    [.free, .mem, .regs, .clk, .flogRing, .flogLast, .holding, .hevt, .msix, .qs, .items, .egress, .parts, .vis,
     .ue, .out, .ports, .tiles, .batchHeld, .arena, .handing, .gctxs, .sc, .harts, .cores, .klinks, .kal]

/-- SATP_WRITE (R262): A write to satp sets translation mode Bare or Sv48, and other modes change nothing. -/
def execSatpWrite (h : Fin 49152) (s : State) : Host.Outcome State Fault Refusal :=
  finish s (s.hartRow h .satp (fun s insn nx => s.xCsr h insn nx))
    [.free, .mem, .regs, .clk, .flogRing, .flogLast, .holding, .hevt, .msix, .qs, .items, .egress, .parts, .vis,
     .ue, .out, .ports, .tiles, .batchHeld, .arena, .handing, .gctxs, .sc, .harts, .cores, .klinks, .kal]

/-- VS_WRITE (R257): A CSR write changing mstatus.VS from Off takes a vector slot, waiting when none is free, or
releases it when set to Off. -/
def execVsWrite (h : Fin 49152) (s : State) : Host.Outcome State Fault Refusal :=
  finish s (s.vsRow h)
    [.free, .mem, .regs, .clk, .flogRing, .flogLast, .holding, .hevt, .msix, .qs, .items, .egress, .parts, .vis,
     .ue, .out, .ports, .tiles, .batchHeld, .arena, .handing, .gctxs, .sc, .harts, .cores, .klinks, .kal]

/-- VECTOR_INSTRUCTION (R257): A vector instruction occupies a vector unit for ceil(vl / r) FCLK, or traps when VS is
Off. -/
def execVectorInstruction (h : Fin 49152) (s : State) : Host.Outcome State Fault Refusal :=
  finish s (s.hartRow h .vec (fun s insn nx => s.xVec h insn nx)) Fld.all

/-- MTIMER (R276): The timebase reaches MTIMECMP and MTIP becomes pending. -/
def execMtimer (h : Fin 49152) (s : State) : Host.Outcome State Fault Refusal :=
  finish s (s.mtimer h) [.harts]

end Sys2Proof.Machine
end

