-- ==== Sys2Proof/Machine/HealthRows.lean ====
section
/-! DEFINITION. The meanings of the commands that act through `Health`: one per row of the table, each with the effect its rule
gives it. -/
namespace Sys2Proof.Machine

/-- MONITOR_SAMPLE (R411): Every 50 µs each temperature site and voltage monitor is sampled. -/
def execMonitorSample (temps : List (BitVec 16)) (volts : List (BitVec 16)) (s : State) : Host.Outcome State Fault Refusal :=
  finish s (s.monitorSample temps volts)
    [.regs, .clk, .flogRing, .flogFlash, .holding, .hevt, .msix, .items, .out, .health, .emg]

/-- THERMAL_TRIP (R415): A site's trip comparator crosses 125 °C and cuts the main regulators directly. -/
def execThermalTrip (site : Fin 24) (t : BitVec 16) (s : State) : Host.Outcome State Fault Refusal :=
  finish s (s.thermalTrip site t)
    [.regs, .clk, .flogRing, .flogFlash, .holding, .hevt, .msix, .items, .out, .health, .emg]

/-- PROC_SAMPLE (R413): Each second each process site is sampled, raising PROC_LOW below MIN. -/
def execProcSample (counts : List (BitVec 16)) (s : State) : Host.Outcome State Fault Refusal :=
  finish s (s.procSample counts) [.regs, .flogRing, .holding, .hevt, .msix, .out, .health]

/-- RAIL_WARN (R412): A rail stays outside its warning window for 1 ms and RAIL_WARN is raised and logged. -/
def execRailWarn (m : Fin 16) (mv : BitVec 16) (s : State) : Host.Outcome State Fault Refusal :=
  finish s (s.railWarn m mv) [.regs, .flogRing, .holding, .hevt, .msix, .out, .health]

/-- RAIL_FAULT (R416): A rail stays outside its fault window for 10 µs; the safe state is entered and the regulators
turned off. -/
def execRailFault (m : Fin 16) (mv : BitVec 16) (s : State) : Host.Outcome State Fault Refusal :=
  finish s (s.railFault m mv) [.regs, .clk, .flogRing, .flogFlash, .holding, .hevt, .msix, .items, .out, .health, .emg]

/-- ROOT_PLL_LOSS (R454): The root PLL loses lock; the safe state is entered, items discarded and PLL_LOSS logged. -/
def execRootPllLoss (s : State) : Host.Outcome State Fault Refusal :=
  finish s s.pllLoss [.regs, .clk, .flogRing, .flogFlash, .holding, .hevt, .msix, .items, .out, .health, .emg]

/-- ALIVE (R422): A write to HM.ALIVE restarts the firmware watchdog and returns HEALTH to OK. -/
def execAlive (s : State) : Host.Outcome State Fault Refusal :=
  finish s s.alive [.regs, .health]

/-- FENCE_ELEMENT (R419): A keyed FENCE_CMD without CLR fences a tile, core or attention unit. -/
def execFenceElement (req : BitVec 16) (v : Word) (s : State) : Host.Outcome State Fault Refusal :=
  finish s (s.fenceCmd req (v &&& 0xFFFF7FFF))
    [.free, .mem, .regs, .flogRing, .flogLast, .holding, .hevt, .msix, .qs, .items, .egress, .ue, .out, .ports,
     .tiles, .gctxs, .seqs, .aunits, .sc, .harts, .cores, .health]

/-- UNFENCE_ELEMENT (R419): A keyed FENCE_CMD with CLR starts a self-test of a fenced element. -/
def execUnfenceElement (req : BitVec 16) (v : Word) (s : State) : Host.Outcome State Fault Refusal :=
  finish s (s.fenceCmd req (v ||| 0x8000))
    [.free, .mem, .regs, .flogRing, .flogLast, .holding, .hevt, .msix, .qs, .items, .egress, .ue, .out, .ports,
     .tiles, .gctxs, .seqs, .aunits, .sc, .harts, .cores, .health]

/-- SELF_TEST_DONE (R419): The self-test ends and the element is unfenced and zeroed, or stays fenced with RESULT
FAIL. -/
def execSelfTestDone (pass : Bool) (s : State) : Host.Outcome State Fault Refusal :=
  finish s (s.selfTest pass) [.mem, .regs, .flogRing, .holding, .hevt, .msix, .out, .tiles, .harts, .health]

/-- FLOG_SELECT (R425): A write to FLOG_SEL starts loading an entry of the chosen view into the window. -/
def execFlogSelect (v : Word) (s : State) : Host.Outcome State Fault Refusal :=
  finish s (s.flogSelect v) [.regs, .health]

/-- FLOG_LOAD_DONE (R425): The entry window finishes loading and FOUND is set. -/
def execFlogLoadDone (s : State) : Host.Outcome State Fault Refusal :=
  finish s s.flogLoaded [.regs, .health]

/-- FLOG_COMMIT (R423): The warden copies a class 2 or 3 entry to the committed log in flash. -/
def execFlogCommit (fseq : Word) (s : State) : Host.Outcome State Fault Refusal :=
  finish s (s.flogCommit fseq) [.flogRing, .flogFlash]

/-- FLOG_ERASE (R423): A keyed FLOG_CMD ERASE starts erasing the committed log. -/
def execFlogErase (req : BitVec 16) (v : Word) (s : State) : Host.Outcome State Fault Refusal :=
  finish s (s.flogCmd req (v ||| 1)) [.regs, .flogRing, .flogLast, .holding, .hevt, .msix, .out, .health]

/-- FLOG_ERASE_DONE (R423): The committed log erase ends and BUSY clears. -/
def execFlogEraseDone (s : State) : Host.Outcome State Fault Refusal :=
  finish s s.flogErased [.regs, .flogFlash, .health]

/-- WARDEN_WATCHDOG (R280): The warden firmware does not service its watchdog for 100 ms and the warden alone is
reset. -/
def execWardenWatchdog (s : State) : Host.Outcome State Fault Refusal :=
  finish s s.wardenWatchdog [.regs, .flogRing, .holding, .hevt, .msix, .out, .warden]

/-- WARDEN_BRIDGE_TIMEOUT (R280): A warden access through the bridge gets no answer within 10 µs and completes as a
null access and a log entry. -/
def execWardenBridgeTimeout (write : Bool) (a : BitVec 48) (s : State) : Host.Outcome State Fault Refusal :=
  finish s (s.wardenBridge write a.toNat) [.regs, .flogRing, .holding, .hevt, .msix, .out]

end Sys2Proof.Machine
end

