-- ==== Sys2Proof/Machine/HostRows.lean ====
section
/-! DEFINITION. The meanings of the commands that act through `HostNet`: one per row of the table, each with the effect its rule
gives it. -/
namespace Sys2Proof.Machine

/-- QUEUE_CREATE (R395): A keyed QUEUE_CMD CREATE checks a queue descriptor and creates a command or record queue in
RUN. -/
def execQueueCreate (req : BitVec 16) (v : Word) (s : State) : Host.Outcome State Fault Refusal :=
  finish s (s.queueCmd req ((v &&& 0xFFFF9FFF) ||| 0x2000))
    [.regs, .flogRing, .flogLast, .holding, .hevt, .msix, .qs, .rqs, .out, .gctxs]

/-- QUEUE_DESTROY (R395): A keyed QUEUE_CMD DESTROY discards unfetched commands and sets the queue OFF. -/
def execQueueDestroy (req : BitVec 16) (v : Word) (s : State) : Host.Outcome State Fault Refusal :=
  finish s (s.queueCmd req ((v &&& 0xFFFF9FFF) ||| 0x4000))
    [.regs, .flogRing, .flogLast, .holding, .hevt, .msix, .qs, .rqs, .out, .gctxs]

/-- TAIL_DOORBELL (R402): A tail doorbell write advances a command queue's tail, or puts the queue in ERROR. -/
def execTailDoorbell (fn : Option (Fin 129)) (n : Fin 2048) (v : Word) (whole : Bool) (s : State) : Host.Outcome State Fault Refusal :=
  finish s (s.doorbell false (fn.map Fin.val) n whole (fun s g => s.tailDb g v))
    [.mem, .regs, .holding, .hevt, .msix, .qs, .ue, .out, .sc, .harts]

/-- CQ_HEAD_DOORBELL (R402): A completion head doorbell write frees completion ring entries. -/
def execCqHeadDoorbell (fn : Option (Fin 129)) (n : Fin 2048) (v : Word) (whole : Bool) (s : State) : Host.Outcome State Fault Refusal :=
  finish s (s.doorbell false (fn.map Fin.val) n whole (fun s g => s.cqHeadDb g v)) [.regs, .qs]

/-- RECORD_HEAD_DOORBELL (R402): A record head doorbell write frees record ring units. -/
def execRecordHeadDoorbell (fn : Option (Fin 129)) (n : Fin 512) (v : Word) (whole : Bool) (s : State) : Host.Outcome State Fault Refusal :=
  finish s (s.doorbell true (fn.map Fin.val) n whole (fun s g => s.recHeadDb g v)) [.regs, .rqs]

/-- CMD_FETCH (R399): The queue engine fetches a command when its completion ring has room and passes it to the
target. -/
def execCmdFetch (q : Fin 2048) (s : State) : Host.Outcome State Fault Refusal :=
  finish s (s.cmdFetch q) [.mem, .regs, .holding, .hevt, .msix, .qs, .ue, .out, .gctxs, .sc, .harts]

/-- COAL_TIMER (R401): COAL_US after the first unsignalled entry, the queue sends its message. -/
def execCoalTimer (record : Bool) (q : Fin 2048) (s : State) : Host.Outcome State Fault Refusal :=
  finish s (s.coalTimer record q) [.regs, .holding, .hevt, .msix, .qs, .rqs, .out]

/-- ETH_FRAME_RX (R407): A received Ethernet frame is filtered, passed to Stream Intake or placed in the frame queue. -/
def execEthFrameRx (port : Fin 2) (frame : List Byte) (fcsOk : Bool) (mcast : Bool) (s : State) : Host.Outcome State Fault Refusal :=
  finish s (s.frameRx port frame fcsOk mcast)
    [.free, .mem, .regs, .holding, .hevt, .msix, .qs, .rqs, .items, .egress, .ue, .out, .ports, .ctxs, .rtcp,
     .gctxs, .sc, .harts]

/-- NET_LINK (R410): An Ethernet port's link changes state and NET_LINK is raised. -/
def execNetLink (port : Fin 2) (isUp : Bool) (s : State) : Host.Outcome State Fault Refusal :=
  finish s (s.netLink port isUp) [.regs, .holding, .hevt, .msix, .out]

/-- PRESENCE_CHANGE (R410): A QSFP28 or QSFP56 module or cable is inserted or removed and the presence pin changes
ETH_STS.PRESENT. -/
def execPresenceChange (port : Fin 2) (present : Bool) (s : State) : Host.Outcome State Fault Refusal :=
  finish s (s.presence port present) [.regs, .holding, .hevt, .msix, .out]

/-- VF_FLR (R409): A VF FLR or VF Enable clear resets the instance and destroys the function's queues. -/
def execVfFlr (f : Fin 129) (s : State) : Host.Outcome State Fault Refusal :=
  finish s (s.vfFlr f)
    [.free, .mem, .regs, .held, .holding, .hevt, .fns, .msix, .qs, .rqs, .items, .egress, .parts, .vis, .ue,
     .out, .ports, .tiles, .gctxs, .seqs, .aunits, .sc, .harts, .cores, .vsaved]

/-- MSIX_UNMASK (R394): Clearing an MSI-X vector or function mask sends the message held in the PBA. -/
def execMsixUnmask (f : Fin 129) (vector : Option (Fin 2048)) (s : State) : Host.Outcome State Fault Refusal :=
  finish s (s.msixUnmask f (vector.map Fin.val)) [.fns, .msix, .out]

/-- CONFIG_SPACE_WRITE (R393): A host write to a function's configuration space or MSI-X structures changes Bus Master
Enable, VF Enable, MSI-X Enable, the Function Mask or a vector mask, which gates that function's requests and
messages. -/
def execConfigSpaceWrite (f : Fin 129) (field : Fin 10) (n : Fin 2048) (v : Word) (s : State) : Host.Outcome State Fault Refusal :=
  finish s (s.configWrite f field n v)
    [.free, .mem, .regs, .held, .holding, .hevt, .fns, .numVfs, .vfEnable, .msix, .qs, .rqs, .items, .egress,
     .parts, .vis, .ue, .out, .ports, .tiles, .gctxs, .seqs, .aunits, .sc, .harts, .cores, .vsaved]

/-- HOST_UP (R409): The PCIe link comes up with Bus Master Enable set and HOST_UP is raised. -/
def execHostUp (speed : Fin 8) (width : Fin 32) (s : State) : Host.Outcome State Fault Refusal :=
  finish s (s.hostUp speed width) [.regs, .holding, .hevt, .fns, .msix, .out]

end Sys2Proof.Machine
end

