-- ==== Sys2Proof/Machine/IntakeRows.lean ====
section
/-! DEFINITION. The meanings of the commands that act through `Intake`: one per row of the table, each with the effect its rule
gives it. -/
namespace Sys2Proof.Machine

/-- URGENCY_CHANGE (R21): An open item's remaining time in its current stage window crosses a half or quarter
boundary, or its milestone, and its urgency changes. -/
def execUrgencyChange (id : DWord) (s : State) : Host.Outcome State Fault Refusal :=
  finish s (s.urgencyRow id.toNat)
    [.free, .mem, .regs, .holding, .hevt, .msix, .qs, .items, .egress, .ue, .out, .ports, .tiles, .batches,
     .batchNo, .batchHeld, .arena, .handing, .gctxs, .sc, .harts]

/-- SNAP_TAKE (R70): The timebase reaches the armed instant; every counter latches its shadow, SNAP_GEN increments,
and a periodic snapshot re-arms. -/
def execSnapTake (s : State) : Host.Outcome State Fault Refusal :=
  finish s s.snapRow [.regs, .held, .shadow, .snapAt, .holding, .hevt, .msix, .out, .ctxs, .ctxSnap]

/-- CTX_COMMIT (R114): A write of CTX_SEL.COMMIT copies the window into a stream context subject to its checks and
admission. -/
def execCtxCommit (v : Word) (s : State) : Host.Outcome State Fault Refusal :=
  finish s (s.ctxSel (v ||| 0x80000000))
    [.free, .mem, .regs, .holding, .hevt, .msix, .qs, .items, .egress, .ue, .out, .ports, .ctxs, .gctxs, .sc,
     .harts]

/-- CTX_LOAD (R113): A write of CTX_SEL.LOAD copies a context's committed values and status into the window. -/
def execCtxLoad (v : Word) (s : State) : Host.Outcome State Fault Refusal :=
  finish s (s.ctxSel (v ||| 0x40000000))
    [.free, .mem, .regs, .holding, .hevt, .msix, .qs, .items, .egress, .ue, .out, .ports, .ctxs, .gctxs, .sc,
     .harts]

/-- RTP_PACKET (R117): A UDP datagram of a stream context is matched, reordered by sequence number and assembled into
access units. -/
def execRtpPacket (eth : Fin 2) (src : List Byte) (port : BitVec 16) (payload : List Byte) (s : State) : Host.Outcome State Fault Refusal :=
  finish s (s.rtpDatagram eth src port.toNat payload).1
    [.free, .mem, .regs, .holding, .hevt, .msix, .qs, .items, .egress, .ue, .out, .ports, .ctxs, .rtcp, .gctxs,
     .sc, .harts]

/-- GAP_LOSS (R118): The JIT_US wait after a gap ends with packets missing and the gap is declared one loss. -/
def execGapLoss (c : Fin 1024) (s : State) : Host.Outcome State Fault Refusal :=
  finish s (s.gapLoss c)
    [.free, .mem, .regs, .holding, .hevt, .msix, .qs, .items, .egress, .ue, .out, .ports, .ctxs, .gctxs, .sc,
     .harts]

/-- STREAM_LOST (R121): LOSS_MS pass without an accepted packet; the stream is lost, items abort and eyespots and the
SSRC lock are freed. -/
def execStreamLost (c : Fin 1024) (s : State) : Host.Outcome State Fault Refusal :=
  finish s (s.streamLost c)
    [.free, .mem, .regs, .holding, .hevt, .msix, .qs, .items, .egress, .ue, .out, .ports, .ctxs, .gctxs, .sc,
     .harts]

/-- DECODE_START (R125): A free decoder engine takes the complete access unit with the earliest capture stamp across
contexts. -/
def execDecodeStart (s : State) : Host.Outcome State Fault Refusal :=
  finish s s.decodeStart [.ctxs]

/-- PICTURE_DECODED (R126): A decoder finishes a picture and outputs its luma plane with the next picture number. -/
def execPictureDecoded (c : Fin 1024) (r : Decoded) (s : State) : Host.Outcome State Fault Refusal :=
  finish s (s.pictureDecoded c r)
    [.free, .mem, .regs, .holding, .hevt, .msix, .qs, .items, .egress, .ue, .out, .ports, .ctxs, .gctxs, .sc,
     .harts]

/-- CREATE (R131): Eyespot command that sets a FREE eyespot to TRACK and opens an item for the label. -/
def execCreateEspot (q : Fin 2048) (s : State) : Host.Outcome State Fault Refusal :=
  finish s (s.execCmd q 0x21 s.effCreate)
    [.free, .mem, .regs, .held, .holding, .hevt, .msix, .qs, .items, .nextSeq, .egress, .ue, .out, .ports,
     .ctxs, .gctxs, .sc, .harts]

/-- UPDATE (R131): Eyespot command that sets box, velocity and confidence and resets MISSES. -/
def execUpdateEspot (q : Fin 2048) (s : State) : Host.Outcome State Fault Refusal :=
  finish s (s.execCmd q 0x22 s.effUpdate)
    [.mem, .regs, .holding, .hevt, .msix, .qs, .ue, .out, .ctxs, .gctxs, .sc, .harts]

/-- MISS (R131): Eyespot command that increments MISSES and retires the eyespot above MISS_MAX. -/
def execMissEspot (q : Fin 2048) (s : State) : Host.Outcome State Fault Refusal :=
  finish s (s.execCmd q 0x23 s.effMiss)
    [.free, .mem, .regs, .holding, .hevt, .msix, .qs, .items, .egress, .ue, .out, .ports, .ctxs, .gctxs, .sc,
     .harts]

/-- CAPTURED (R131): Eyespot command that sets the eyespot to CAPTURED. -/
def execCapturedEspot (q : Fin 2048) (s : State) : Host.Outcome State Fault Refusal :=
  finish s (s.execCmd q 0x24 s.effCaptured)
    [.free, .mem, .regs, .holding, .hevt, .msix, .qs, .items, .egress, .ue, .out, .ports, .ctxs, .gctxs, .sc,
     .harts]

/-- ESPOT_RETIRE (R131): Eyespot command RETIRE that frees the eyespot. -/
def execEspotRetire (q : Fin 2048) (s : State) : Host.Outcome State Fault Refusal :=
  finish s (s.execCmd q 0x25 s.effRetireEspot)
    [.free, .mem, .regs, .holding, .hevt, .msix, .qs, .items, .egress, .ue, .out, .ports, .ctxs, .gctxs, .sc,
     .harts]

/-- FRAME_DONE (R131): Eyespot command that settles the awaited picture, or completes STALE. -/
def execFrameDone (q : Fin 2048) (s : State) : Host.Outcome State Fault Refusal :=
  finish s (s.execCmd q 0x26 s.effFrameDone)
    [.free, .mem, .regs, .holding, .hevt, .msix, .qs, .items, .egress, .ue, .out, .ports, .ctxs, .gctxs, .sc,
     .harts]

/-- REREAD (R135): Command that creates a re-read sample of a retained picture under a given transform. -/
def execReread (q : Fin 2048) (s : State) : Host.Outcome State Fault Refusal :=
  finish s (s.execCmd q 0x30 s.effReread)
    [.mem, .regs, .holding, .hevt, .msix, .qs, .ue, .out, .ctxs, .gctxs, .sc, .harts]

/-- SAMPLE_PRODUCED (R134): A transform engine finishes producing a crop or re-read sample into its bucket. -/
def execSampleProduced (c : Fin 1024) (ssn : Word) (s : State) : Host.Outcome State Fault Refusal :=
  finish s (s.sampleProduced c ssn.toNat) [.ctxs]

/-- SAMPLE_RELEASE (R140): A sample is released once every lower SSN of its context is released and there is arena
room. -/
def execSampleRelease (c : Fin 1024) (s : State) : Host.Outcome State Fault Refusal :=
  finish s (s.sampleRelease c)
    [.free, .mem, .regs, .holding, .hevt, .msix, .qs, .items, .egress, .ue, .out, .ports, .tiles, .ctxs,
     .batches, .batchNo, .batchUid, .batchHeld, .arena, .handing, .gctxs, .sc, .harts]

/-- BATCH_WAIT_EXPIRY (R137): BATCH_WAIT_US pass since a batch's first sample and the batch closes. -/
def execBatchWaitExpiry (part : Fin 9) (bucket : Fin 5) (s : State) : Host.Outcome State Fault Refusal :=
  finish s (s.batchWait (8 * part + bucket))
    [.free, .mem, .regs, .holding, .hevt, .msix, .qs, .items, .egress, .ue, .out, .ports, .tiles, .batches,
     .batchNo, .batchHeld, .arena, .handing, .gctxs, .sc, .harts]

/-- CNT_COPIED (R141): The per-context counters latched at a snapshot have been written to the shadow table and
CNT_COPIED is raised. -/
def execCntCopied (s : State) : Host.Outcome State Fault Refusal :=
  finish s s.cntCopied [.mem, .regs, .holding, .hevt, .msix, .ue, .out, .ctxSnap, .sc, .harts]

end Sys2Proof.Machine
end

