-- ==== Sys2Proof/Machine/KralonRows.lean ====
section
/-! DEFINITION. The meanings of the commands that act through `PeerServe`: one per row of the table, each with the effect its rule
gives it. -/
namespace Sys2Proof.Machine

/-- KL_ENABLE (R389): A write of 1 to KL_CTL.ENABLE starts the Kralon logic. -/
def execKlEnable (req : BitVec 16) (v : Word) (s : State) : Host.Outcome State Fault Refusal :=
  finish s (s.klCtl req (v ||| 1))
    [.regs, .held, .wosDone, .flogRing, .flogLast, .holding, .hevt, .msix, .out, .harts, .klinks, .kal]

/-- KL_DISABLE (R389): A write of 0 to KL_CTL.ENABLE fails every link and leaves the kaleidoscope. -/
def execKlDisable (req : BitVec 16) (v : Word) (s : State) : Host.Outcome State Fault Refusal :=
  finish s (s.klCtl req (v &&& 0xFFFFFFFE))
    [.regs, .held, .wosDone, .flogRing, .flogLast, .holding, .hevt, .msix, .out, .harts, .klinks, .kal]

/-- LINK_ENABLE (R367): A write of 1 to LINK_CTL.ENABLE lets the link train once the module is READY. -/
def execLinkEnable (req : BitVec 16) (l : Fin 8) (v : Word) (s : State) : Host.Outcome State Fault Refusal :=
  finish s (s.linkCtl req l (v ||| 1))
    [.regs, .held, .wosDone, .flogRing, .flogLast, .holding, .hevt, .msix, .out, .klinks, .kal]

/-- LINK_DISABLE (R367): A write of 0 to LINK_CTL.ENABLE takes the link DOWN. -/
def execLinkDisable (req : BitVec 16) (l : Fin 8) (v : Word) (s : State) : Host.Outcome State Fault Refusal :=
  finish s (s.linkCtl req l (v &&& 0xFFFFFFFE))
    [.regs, .held, .wosDone, .flogRing, .flogLast, .holding, .hevt, .msix, .out, .klinks, .kal]

/-- LINK_TRAINED (R367): PCS, FEC and flit delineation lock on all lanes and the link becomes UP. -/
def execLinkTrained (l : Fin 8) (s : State) : Host.Outcome State Fault Refusal :=
  finish s (s.linkTrained l) [.regs, .holding, .hevt, .msix, .out, .klinks, .kal]

/-- LINK_TRAIN_TIMEOUT (R367): A link not UP within 80 ms becomes FAILED and retries training every 1 s. -/
def execLinkTrainTimeout (l : Fin 8) (s : State) : Host.Outcome State Fault Refusal :=
  finish s (s.linkTimeout l) [.regs, .flogRing, .holding, .hevt, .msix, .out, .klinks, .kal]

/-- TRAINING_RETRY (R367): Each 1 s after a Kralon link became FAILED, the link retries training. -/
def execTrainingRetry (l : Fin 8) (s : State) : Host.Outcome State Fault Refusal :=
  finish s (s.linkRetry l) [.regs, .klinks]

/-- LINK_FAIL (R373): No flit passes for 4 µs, a lane loses lock, a flit is resent 8 times or the far end reports
FAULT, and the link becomes FAILED. -/
def execLinkFail (l : Fin 8) (laneLost : Bool) (s : State) : Host.Outcome State Fault Refusal :=
  finish s (s.linkFail l laneLost) [.regs, .flogRing, .holding, .hevt, .msix, .out, .klinks, .kal]

/-- BAD_FLIT (R372): A flit that fails its check or has an unexpected SEQ is discarded and a NAK is sent. -/
def execBadFlit (l : Fin 8) (flit : List Byte) (s : State) : Host.Outcome State Fault Refusal :=
  finish s (s.badFlit l flit) [.regs, .out, .klinks]

/-- WR (R376): A WR flit is served at the target if ACCEPT allows it and answered with CMPL, or forwarded toward its
destination. -/
def execWr (l : Fin 8) (flit : List Byte) (s : State) : Host.Outcome State Fault Refusal :=
  finish s (s.routedIn l 1 flit (fun s => s.servePeer false flit)) Fld.all

/-- RD_REQ (R376): An RD_REQ flit is served at the target and answered with RD_RSP, or forwarded. -/
def execRdReq (l : Fin 8) (flit : List Byte) (s : State) : Host.Outcome State Fault Refusal :=
  finish s (s.routedIn l 2 flit (fun s => s.servePeer true flit)) Fld.all

/-- RD_RSP (R376): An RD_RSP flit completes an outstanding peer read. -/
def execRdRsp (l : Fin 8) (flit : List Byte) (s : State) : Host.Outcome State Fault Refusal :=
  finish s (s.routedIn l 3 flit (fun s => s.peerAnswer true flit))
    [.regs, .holding, .hevt, .msix, .out, .harts, .klinks, .kal]

/-- CMPL (R376): A CMPL flit completes an outstanding peer write. -/
def execCmpl (l : Fin 8) (flit : List Byte) (s : State) : Host.Outcome State Fault Refusal :=
  finish s (s.routedIn l 6 flit (fun s => s.peerAnswer false flit))
    [.regs, .holding, .hevt, .msix, .out, .harts, .klinks, .kal]

/-- NAK (R372): A NAK makes the sender resend from the SEQ after the one it carries. -/
def execNak (l : Fin 8) (flit : List Byte) (s : State) : Host.Outcome State Fault Refusal :=
  finish s (s.flitIn l 5 flit (fun s => s.resend l)) [.regs, .out, .klinks]

/-- NULL (R372): A NULL flit delivers ACK and credits only. -/
def execNullFlit (l : Fin 8) (flit : List Byte) (s : State) : Host.Outcome State Fault Refusal :=
  finish s (s.flitIn l 0 flit (fun s => s)) [.regs, .out, .klinks]

/-- NULL_TIMER (R372): A sender with nothing to send for 0.5 µs sends a NULL. -/
def execNullTimer (l : Fin 8) (s : State) : Host.Outcome State Fault Refusal :=
  finish s (s.nullTimer l) [.regs, .out, .klinks]

/-- BEACON (R379): A BEACON carries the lowest serial known and updates election state. -/
def execBeacon (l : Fin 8) (flit : List Byte) (s : State) : Host.Outcome State Fault Refusal :=
  finish s (s.beacon l flit) [.regs, .out, .klinks, .kal]

/-- BEACON_TIMER (R370): Every 20 µs a module sends BEACON on each link. -/
def execBeaconTimer (s : State) : Host.Outcome State Fault Refusal :=
  finish s s.beaconTimer [.regs, .out, .klinks, .kal]

/-- REPORT (R370): A REPORT tells the coordinator and deputy the far ends of a module's links. -/
def execReport (l : Fin 8) (flit : List Byte) (s : State) : Host.Outcome State Fault Refusal :=
  finish s (s.report l flit) [.regs, .out, .klinks, .kal]

/-- ELECT_QUIET (R379): Nothing known changes for ELECT_MS and K2 ends, the lowest serial becoming coordinator. -/
def execElectQuiet (s : State) : Host.Outcome State Fault Refusal :=
  finish s s.electQuiet [.regs, .holding, .hevt, .msix, .out, .klinks, .kal]

/-- PLAN (R379): A PLAN gives a module its system ID, depth, parent, deputy and ACT instant. -/
def execPlan (l : Fin 8) (flit : List Byte) (s : State) : Host.Outcome State Fault Refusal :=
  finish s (s.plan l flit) [.regs, .holding, .hevt, .msix, .out, .klinks, .kal]

/-- ROUTES (R377): A ROUTES message delivers half of a module's route table for the next ACT instant. -/
def execRoutes (l : Fin 8) (flit : List Byte) (s : State) : Host.Outcome State Fault Refusal :=
  finish s (s.routesIn l flit) [.regs, .out, .klinks, .kal]

/-- ROUTE_ACT (R377): The timebase reaches the ACT instant and the new route table takes effect. -/
def execRouteAct (s : State) : Host.Outcome State Fault Refusal :=
  finish s s.routeAct [.kal]

/-- SYNC_FLIT (R383): A SYNC exchange gives the offset to the parent and drives rate matching and slew toward the
coordinator. -/
def execSyncFlit (l : Fin 8) (flit : List Byte) (s : State) : Host.Outcome State Fault Refusal :=
  finish s (s.syncIn l flit) [.free, .regs, .clk, .holding, .hevt, .msix, .out, .klinks, .kal]

/-- SYNC_TIMER (R383): Every 50 µs a parent sends SYNC on its tree links. -/
def execSyncTimer (s : State) : Host.Outcome State Fault Refusal :=
  finish s s.syncTimer [.regs, .out, .klinks, .kal]

/-- HEARTBEAT (R370): A HEARTBEAT carries the neighbour's HEALTH, and a FAULT fails the link. -/
def execHeartbeat (l : Fin 8) (flit : List Byte) (s : State) : Host.Outcome State Fault Refusal :=
  finish s (s.heartbeat l flit) [.regs, .flogRing, .holding, .hevt, .msix, .items, .out, .harts, .klinks, .kal]

/-- HEARTBEAT_TIMER (R422): Every 10 µs the link logic sends HEARTBEAT with the current HEALTH. -/
def execHeartbeatTimer (s : State) : Host.Outcome State Fault Refusal :=
  finish s s.heartbeatTimer [.regs, .out, .klinks, .kal]

/-- LINK_EVENT (R386): A LINK_EVENT reaches the coordinator or deputy, which may declare a module LOST. -/
def execLinkEvent (l : Fin 8) (flit : List Byte) (s : State) : Host.Outcome State Fault Refusal :=
  finish s (s.linkEventIn l flit) [.regs, .flogRing, .holding, .hevt, .msix, .items, .out, .harts, .klinks, .kal]

/-- LOST (R386): A flooded LOST makes every access to the module fail, frees its shadows and raises MODULE_LOST. -/
def execLost (l : Fin 8) (flit : List Byte) (s : State) : Host.Outcome State Fault Refusal :=
  finish s (s.lostIn l flit) [.regs, .flogRing, .holding, .hevt, .msix, .items, .out, .harts, .klinks, .kal]

/-- READY (R379): A flooded READY is recorded, and a module that has READY from every module of the plan becomes
kaleidoscope-ready. -/
def execReadyFlit (l : Fin 8) (flit : List Byte) (s : State) : Host.Outcome State Fault Refusal :=
  finish s (s.readyIn l flit) [.regs, .holding, .hevt, .msix, .out, .klinks, .kal]

/-- PEER_TIMEOUT (R376): A peer access gets no answer within PEER_US and fails. -/
def execPeerTimeout (tid : BitVec 16) (s : State) : Host.Outcome State Fault Refusal :=
  finish s (s.peerTimeout tid.toNat) [.regs, .holding, .hevt, .msix, .out, .harts, .kal]

/-- SPLIT_TIMEOUT (R388): Modules without a route to the coordinator for 1 ms run election and planning among
themselves. -/
def execSplitTimeout (s : State) : Host.Outcome State Fault Refusal :=
  finish s s.splitTimeout [.regs, .holding, .hevt, .msix, .out, .klinks, .kal]

/-- SHADOW_OPEN (R385): A shadow port write with OP OPEN takes a gate timer entry for a peer item's shadow. -/
def execShadowOpen (data : List Byte) (s : State) : Host.Outcome State Fault Refusal :=
  finish s (s.shadowPort (data.set 40 1)) [.regs, .holding, .hevt, .msix, .items, .out]

/-- SHADOW_CLOSE (R385): A shadow port write with OP CLOSE frees an item's shadow. -/
def execShadowClose (data : List Byte) (s : State) : Host.Outcome State Fault Refusal :=
  finish s (s.shadowPort (data.set 40 2)) [.regs, .holding, .hevt, .msix, .items, .out]

end Sys2Proof.Machine
end

