-- ==== Sys2Proof/Machine/MemRows.lean ====
section
/-! DEFINITION. The meanings of the commands that act through `MemCtl`: one per row of the table, each with the effect its rule
gives it. -/
namespace Sys2Proof.Machine

/-- COMMONS_ACCESS (R307): A commons unit serves a 64-byte access, refusing units that are not memory. -/
def execCommonsAccess (req : BitVec 16) (write : Bool) (a : BitVec 48) (mask : BitVec 64) (data : List Byte) (err : Fin 3) (s : State) : Host.Outcome State Fault Refusal :=
  finish s (s.commonsAccess req write a.toNat mask data err)
    [.mem, .regs, .flogRing, .holding, .hevt, .msix, .ue, .out, .harts]

/-- MC_ACCEPT (R319): The memory controller accepts a request into a channel queue with a deadline from its port class
and urgency. -/
def execMcAccept (cls : Fin 16) (port : BitVec 16) (urg : Fin 4) (write : Bool) (a : BitVec 48) (mask : BitVec 64) (data : List Byte) (s : State) : Host.Outcome State Fault Refusal :=
  finish s (s.mcAccept cls port.toNat urg write a.toNat mask data) [.mem, .regs, .ue, .chans, .sc, .harts]

/-- MC_ISSUE (R320): A channel issues the command of the first request, by rank and deadline, that bank timing allows. -/
def execMcIssue (q : Fin 64) (banks : BitVec 48) (s : State) : Host.Outcome State Fault Refusal :=
  finish s (s.mcIssue q banks) [.regs, .holding, .hevt, .msix, .out, .chans]

/-- MC_READ_RETURN (R325): Read data returns and is checked, corrected or found uncorrectable. -/
def execMcReadReturn (q : Fin 64) (outcome : Fin 3) (syn : BitVec 16) (s : State) : Host.Outcome State Fault Refusal :=
  finish s (s.readReturn q outcome syn.toNat)
    [.mem, .regs, .flogRing, .holding, .hevt, .msix, .out, .chans, .sc, .harts]

/-- WRITE_PARITY_REPORT (R311): The DRAM reports write data parity; the write is repeated once, and a second report
freezes the channel. -/
def execWriteParityReport (q : Fin 64) (a : BitVec 48) (cls : Fin 16) (port : BitVec 16) (second : Bool) (s : State) : Host.Outcome State Fault Refusal :=
  finish s (s.writeParity q a.toNat port.toNat cls second)
    [.mem, .regs, .flogRing, .holding, .hevt, .msix, .out, .chans, .sc, .harts]

/-- CA_PARITY (R328): A command/address parity error freezes both channels of the pair. -/
def execCaParity (q : Fin 64) (s : State) : Host.Outcome State Fault Refusal :=
  finish s (s.caParity q) [.mem, .regs, .flogRing, .holding, .hevt, .msix, .out, .chans, .sc, .harts]

/-- REFRESH (R315): A channel's per-bank refresh interval expires and a refresh is issued. -/
def execRefresh (q : Fin 64) (b : Fin 48) (s : State) : Host.Outcome State Fault Refusal :=
  finish s (s.refreshBank q b) [.chans]

/-- HBM_TEMP_READ (R315): Every 1 ms the MC reads each stack's temperature, which sets the refresh rate and retraining
due. -/
def execHbmTempRead (stack : Fin 2) (temp : Byte) (s : State) : Host.Outcome State Fault Refusal :=
  finish s (s.hbmTemp stack temp.toNat) [.regs, .chans]

/-- RETRAIN_DUE (R316): PERIOD_MS since last training pass, or temperature moves by TEMP_DELTA, and the channel
becomes due. -/
def execRetrainDue (q : Fin 64) (s : State) : Host.Outcome State Fault Refusal :=
  finish s (s.retrainDue q) [.regs, .chans]

/-- RETRAIN_PAUSE (R317): A due channel starts a retraining pause when its conditions hold or SLACK_MS forces it. -/
def execRetrainPause (q : Fin 64) (s : State) : Host.Outcome State Fault Refusal :=
  finish s (s.retrainPause q) [.regs, .holding, .hevt, .msix, .out, .chans]

/-- RETRAIN_PAUSE_END (R318): A pause's recentring ends and the channel resumes, or freezes with cause TRAIN. -/
def execRetrainPauseEnd (q : Fin 64) (ok : Bool) (s : State) : Host.Outcome State Fault Refusal :=
  finish s (s.pauseEnd q ok) [.mem, .regs, .flogRing, .holding, .hevt, .msix, .out, .chans, .sc, .harts]

/-- ROW_IDLE_CLOSE (R323): A bank's idle timer counts IDLE MCLK and its open row closes. -/
def execRowIdleClose (q : Fin 64) (b : Fin 48) (s : State) : Host.Outcome State Fault Refusal :=
  finish s (s.rowIdle q b) [.chans]

/-- RH_WINDOW (R324): The 32 ms row-disturbance window ends; counters return to 0 and throttles lift. -/
def execRhWindow (q : Fin 64) (s : State) : Host.Outcome State Fault Refusal :=
  finish s (s.rhWindow q) [.chans]

/-- SCRUB (R326): The scrub reads a line through port class 11 and writes back corrected errors. -/
def execScrub (a : BitVec 48) (outcome : Fin 3) (syn : BitVec 16) (s : State) : Host.Outcome State Fault Refusal :=
  finish s (s.scrub a.toNat outcome syn.toNat)
    [.mem, .regs, .flogRing, .holding, .hevt, .msix, .out, .chans, .sc, .harts]

/-- CH_RELEASE (R330): A keyed CH_CMD RELEASE without CLEAR retrains a frozen or fenced channel and writes its held
writes. -/
def execChRelease (req : BitVec 16) (q : Fin 64) (v : Word) (s : State) : Host.Outcome State Fault Refusal :=
  finish s (s.keyed req (Reg.CH_CMD q) v 0xC4A7 (fun s => s.release q ((v ||| 1) &&& 0xFFFFFFFD)))
    [.regs, .flogRing, .flogLast, .holding, .hevt, .msix, .out, .chans]

/-- CH_RELEASE_CLEAR (R330): A keyed CH_CMD RELEASE with CLEAR retrains the channel, discards held writes and
zero-fills it. -/
def execChReleaseClear (req : BitVec 16) (q : Fin 64) (v : Word) (s : State) : Host.Outcome State Fault Refusal :=
  finish s (s.keyed req (Reg.CH_CMD q) v 0xC4A7 (fun s => s.release q (v ||| 3)))
    [.regs, .flogRing, .flogLast, .holding, .hevt, .msix, .out, .chans]

/-- CH_RELEASE_DONE (R330): The release training and fill end; the channel enters RUN and RELEASED is raised, or stays
FENCED. -/
def execChReleaseDone (q : Fin 64) (ok : Bool) (s : State) : Host.Outcome State Fault Refusal :=
  finish s (s.releaseDone q ok) [.mem, .regs, .flogRing, .holding, .hevt, .msix, .ue, .out, .chans]

end Sys2Proof.Machine
end

