-- ==== Sys2Proof/Machine/PageRows.lean ====
section
/-! DEFINITION. The meanings of the commands that act through `Pages`: one per row of the table, each with the effect its rule
gives it. -/
namespace Sys2Proof.Machine

/-- LOCK_WRITE (R59): A write of 1 to a LOCK bit locks its group from the next clock of the block. -/
def execLockWrite (req : BitVec 16) (page : BitVec 14) (v : Word) (s : State) : Host.Outcome State Fault Refusal :=
  finish s (s.lockWrite req (page.toNat * 0x1000) v) [.regs, .flogRing, .flogLast, .holding, .hevt, .msix, .out]

/-- EVT_STS_WRITE (R63): A W1C write to EVT_STS clears events and signals the channel again if the masked OR stays 1. -/
def execEvtStsWrite (req : BitVec 16) (page : BitVec 14) (v : Word) (s : State) : Host.Outcome State Fault Refusal :=
  finish s (s.evtSts req (page.toNat * 0x1000) v) [.regs, .flogRing, .flogLast, .holding, .hevt, .msix, .out]

/-- EVT_EN_WRITE (R63): A write to EVT_EN sets the event enables and signals the channel if the masked OR rises or
stays 1. -/
def execEvtEnWrite (req : BitVec 16) (page : BitVec 14) (v : Word) (s : State) : Host.Outcome State Fault Refusal :=
  finish s (s.evtEn req (page.toNat * 0x1000) v) [.regs, .flogRing, .flogLast, .holding, .hevt, .msix, .out]

/-- EVT_FORCE (R63): A write to EVT_FORCE sets EVT_STS bits as if their units had raised the events. -/
def execEvtForce (req : BitVec 16) (page : BitVec 14) (v : Word) (s : State) : Host.Outcome State Fault Refusal :=
  finish s (s.evtForce req (page.toNat * 0x1000) v) [.regs, .flogRing, .flogLast, .holding, .hevt, .msix, .out]

/-- HOLDOFF_EXPIRY (R64): A channel's holdoff of HOLDOFF_US ends and signals received during it produce one message. -/
def execHoldoffExpiry (c : Fin 256) (s : State) : Host.Outcome State Fault Refusal :=
  finish s (s.holdoffEnd c) [.regs, .holding, .hevt, .msix, .out]

/-- EVT_CHAN_CFG_WRITE (R64): A write to EVT_CHAN_CFG sets a channel's target, and a pending channel whose KIND
becomes 1 to 3 delivers a message. -/
def execEvtChanCfgWrite (v : Word) (s : State) : Host.Outcome State Fault Refusal :=
  finish s (s.chanCfgWrite v) [.regs, .holding, .hevt, .msix, .out]

/-- SNAP_ARM (R69): A write to SNAP_AT_HI arms a snapshot at the staged instant, or is refused if the instant is under
2,000 ns away or one is armed. -/
def execSnapArm (v : Word) (s : State) : Host.Outcome State Fault Refusal :=
  finish s (s.snapArm v) [.regs, .snapAt]

/-- SNAP_CANCEL (R72): A write of CANCEL to SNAP_CTL disarms the snapshot immediately. -/
def execSnapCancel (v : Word) (s : State) : Host.Outcome State Fault Refusal :=
  finish s (s.snapCtl (v ||| 0x80000000)) [.regs, .held, .snapAt]

end Sys2Proof.Machine
end

