-- ==== Sys2Proof/Machine/PinRows.lean ====
section
/-! DEFINITION. The meanings of the commands that act through `Pins`: one per row of the table, each with the effect its rule
gives it. -/
namespace Sys2Proof.Machine

/-- SAFE_ENTER (R427): A keyed SAFE_CMD ENTER sets the safe-state latch. -/
def execSafeEnter (req : BitVec 16) (v : Word) (s : State) : Host.Outcome State Fault Refusal :=
  finish s (s.safeWrite req (v ||| 1)) [.regs, .flogRing, .flogLast, .holding, .hevt, .msix, .out, .pins]

/-- SAFE_LEAVE (R427): A keyed SAFE_CMD LEAVE clears the safe-state latch unless a class 3 fault is being handled. -/
def execSafeLeave (req : BitVec 16) (v : Word) (s : State) : Host.Outcome State Fault Refusal :=
  finish s (s.safeWrite req (v &&& 0xFFFFFFFE ||| 2)) [.regs, .flogRing, .flogLast, .holding, .hevt, .msix, .out, .pins]

/-- PIN_FUNC_WRITE (R436): A write changing PIN_CFGn.FUNC disconnects both functions and starts a 20 ns keeper hold. -/
def execPinFuncWrite (req : BitVec 16) (n : Fin 32) (v : Word) (s : State) : Host.Outcome State Fault Refusal :=
  finish s (s.pinCfg req n v) [.regs, .held, .wosDone, .flogRing, .flogLast, .holding, .hevt, .msix, .out, .pins]

/-- PIN_HOLD_END (R436): The hold ends and the incoming function is connected to the pad. -/
def execPinHoldEnd (n : Fin 32) (s : State) : Host.Outcome State Fault Refusal :=
  finish s (s.pinHoldEnd n) [.regs, .holding, .hevt, .msix, .out, .pins]

/-- GPIO_SET (R445): A write to GPIO_SET sets the bits of GPIO_OUT written as 1. -/
def execGpioSet (v : Word) (s : State) : Host.Outcome State Fault Refusal :=
  finish s (s.gpioWrite Reg.GPIO_SET v) [.regs, .holding, .hevt, .msix, .out]

/-- GPIO_CLR (R445): A write to GPIO_CLR clears the bits of GPIO_OUT written as 1. -/
def execGpioClr (v : Word) (s : State) : Host.Outcome State Fault Refusal :=
  finish s (s.gpioWrite Reg.GPIO_CLR v) [.regs, .holding, .hevt, .msix, .out]

/-- INPUT_CROSS (R437): A Schmitt input crosses its threshold on its active or inactive side and changes state. -/
def execInputCross (n : Fin 36) (active : Bool) (s : State) : Host.Outcome State Fault Refusal :=
  finish s (s.inputCross n active) [.regs, .holding, .hevt, .msix, .out, .ppActive]

/-- ALERT_SAMPLE (R441): Every 1/48,000 s the stage plays one tone or PCM sample scaled by VOL. -/
def execAlertSample (s : State) : Host.Outcome State Fault Refusal :=
  finish s s.alertSample [.free, .regs, .holding, .hevt, .msix, .out, .alert]

/-- ALERT_MODE_WRITE (R442): A write to ALERT_CTL.MODE selects the source, refusing MODE 2 when the ring is misplaced
and restarting cadence or pointers. -/
def execAlertModeWrite (req : BitVec 16) (v : Word) (s : State) : Host.Outcome State Fault Refusal :=
  finish s (s.alertCtl req v) [.regs, .held, .wosDone, .flogRing, .flogLast, .holding, .hevt, .msix, .out, .alert]

/-- OVERCURRENT (R443): A leg exceeds 1.5 A for 1 µs and the stage trips, latching SHORT on the third trip in 10 s. -/
def execOvercurrent (s : State) : Host.Outcome State Fault Refusal :=
  finish s s.overcurrent [.regs, .holding, .hevt, .msix, .out, .alert]

/-- TRIP_RETRY (R443): 200 ms after a trip the stage is enabled again and TRIPPED is cleared. -/
def execTripRetry (s : State) : Host.Outcome State Fault Refusal :=
  finish s s.tripRetry [.regs, .alert]

/-- ALERT_CLEAR (R444): A keyed ALERT_CMD CLEAR clears SHORT and the trip history and enables the stage. -/
def execAlertClear (req : BitVec 16) (v : Word) (s : State) : Host.Outcome State Fault Refusal :=
  finish s (s.alertCmd req (v ||| 1)) [.regs, .flogRing, .flogLast, .holding, .hevt, .msix, .out, .alert]

/-- JTAG_RESET (R439): TRST_N low resets the JTAG port. -/
def execJtagReset (s : State) : Host.Outcome State Fault Refusal :=
  finish s (s.jtag .idcode) [.regs, .holding, .hevt, .msix, .out, .pins]

/-- BYPASS (R439): JTAG instruction that selects the bypass register. -/
def execJtagBypass (s : State) : Host.Outcome State Fault Refusal :=
  finish s s.jtagByp [.regs, .holding, .hevt, .msix, .out, .pins]

/-- IDCODE (R439): JTAG instruction that shifts out the IDCODE. -/
def execIdcode (s : State) : Host.Outcome State Fault Refusal :=
  finish s s.jtagId [.regs, .holding, .hevt, .msix, .out, .pins]

/-- SAMPLE_PRELOAD (R439): JTAG instruction that samples and preloads the boundary register. -/
def execSamplePreload (d : BitVec 57) (s : State) : Host.Outcome State Fault Refusal :=
  finish s (s.jtagSample d) [.regs, .holding, .hevt, .msix, .out, .pins]

/-- EXTEST (R439): JTAG instruction that drives the pads from the boundary register while the safe-state latch is set,
else acts as BYPASS. -/
def execExtest (d : BitVec 57) (s : State) : Host.Outcome State Fault Refusal :=
  finish s (s.jtagExtest d) [.regs, .holding, .hevt, .msix, .out, .pins]

/-- CLAMP (R439): JTAG instruction that clamps the pads while the safe-state latch is set, else acts as BYPASS. -/
def execClamp (s : State) : Host.Outcome State Fault Refusal :=
  finish s (s.jtag .clamp) [.regs, .holding, .hevt, .msix, .out, .pins]

/-- HIGHZ (R439): JTAG instruction that sets the pads to high impedance while the safe-state latch is set, else acts
as BYPASS. -/
def execHighz (s : State) : Host.Outcome State Fault Refusal :=
  finish s (s.jtag .highz) [.regs, .holding, .hevt, .msix, .out, .pins]

end Sys2Proof.Machine
end

