-- ==== Sys2Proof/Machine/PortRows.lean ====
section
/-! DEFINITION. The meanings of the commands that act through `LinePort`: one per row of the table, each with the effect its rule
gives it. -/
namespace Sys2Proof.Machine

/-- PORT_ENABLE (R80): A write of 1 to PORT_CTL.ENABLE checks format, timing and stripe configuration, sends
LINK_RESET and starts line clocks. -/
def execPortEnable (req : BitVec 16) (p : Fin 4) (v : Word) (s : State) : Host.Outcome State Fault Refusal :=
  finish s (s.portCtl req p (v ||| 1))
    [.free, .mem, .regs, .held, .wosDone, .flogRing, .flogLast, .holding, .hevt, .msix, .qs, .items, .egress,
     .ue, .out, .ports, .gctxs, .sc, .harts]

/-- PORT_DISABLE (R80): A write of 0 to PORT_CTL.ENABLE idles the control lane, deactivates strobes and step, discards
lines and aborts the open item. -/
def execPortDisable (req : BitVec 16) (p : Fin 4) (v : Word) (s : State) : Host.Outcome State Fault Refusal :=
  finish s (s.portCtl req p (v &&& 0xFFFFFFFE))
    [.free, .mem, .regs, .held, .wosDone, .flogRing, .flogLast, .holding, .hevt, .msix, .qs, .items, .egress,
     .ue, .out, .ports, .gctxs, .sc, .harts]

/-- PORT_FMT_WRITE (R76): A write to PORT_FMT stores the line format, or changes nothing and sets CFG_ERR while the
port is enabled. -/
def execPortFmtWrite (req : BitVec 16) (p : Fin 4) (v : Word) (s : State) : Host.Outcome State Fault Refusal :=
  finish s (s.portFmt req p v) [.regs, .held, .wosDone, .flogRing, .flogLast, .holding, .hevt, .msix, .out]

/-- LANE_LOCK (R74): An ISL lane sees 64 consecutive valid sync headers and gains block lock. -/
def execLaneLock (p : Fin 4) (lane : Fin 16) (s : State) : Host.Outcome State Fault Refusal :=
  finish s (s.laneLock p lane true) [.regs, .holding, .hevt, .msix, .out, .ports]

/-- LANE_LOCK_LOSS (R74): An ISL lane sees 16 invalid headers within 64 and loses block lock, returning the link to
LOCKING. -/
def execLaneLockLoss (p : Fin 4) (lane : Fin 16) (s : State) : Host.Outcome State Fault Refusal :=
  finish s (s.laneLock p lane false) [.regs, .holding, .hevt, .msix, .out, .ports]

/-- ALIGN (R77): An ALIGN block arrives on the data lanes and establishes or checks the deskew of the link. -/
def execAlign (p : Fin 4) (slots : List Nat) (s : State) : Host.Outcome State Fault Refusal :=
  finish s (s.marker p slots) [.regs, .holding, .hevt, .msix, .out, .ports]

/-- LINE_START (R86): A LINE_START block arrives, begins a line and replaces missing earlier lines or is discarded if
out of order. -/
def execLineStart (p : Fin 4) (num : BitVec 16) (colours : BitVec 2) (slots : List Nat) (s : State) : Host.Outcome State Fault Refusal :=
  finish s (s.lineStart p num colours.toNat slots)
    [.free, .mem, .regs, .held, .holding, .hevt, .msix, .qs, .items, .nextSeq, .egress, .ue, .out, .ports,
     .gctxs, .sc, .harts]

/-- COLOUR_START (R75): A COLOUR_START block arrives and begins the data blocks of one colour of the line. -/
def execColourStart (p : Fin 4) (c : BitVec 2) (pixels : BitVec 15) (s : State) : Host.Outcome State Fault Refusal :=
  finish s (s.colourStart p c.toNat pixels.toNat) [.ports]

/-- DATA_BLOCK (R75): A data block arrives on a lane and carries packed 12-bit samples of the current colour. -/
def execDataBlock (p : Fin 4) (lane : Fin 16) (w : DWord) (s : State) : Host.Outcome State Fault Refusal :=
  finish s (s.dataBlock p lane w) [.ports]

/-- LINE_END (R86): A LINE_END block completes a line that is accepted if numbers, format and CRCs match within its
window, and the output line is formed and framed. -/
def execLineEnd (p : Fin 4) (num : BitVec 16) (crcs : List Word) (s : State) : Host.Outcome State Fault Refusal :=
  finish s (s.lineEnd p num crcs)
    [.free, .mem, .regs, .held, .holding, .hevt, .msix, .qs, .items, .nextSeq, .egress, .ue, .out, .ports,
     .gctxs, .sc, .harts]

/-- REG_REPLY (R81): A REG_REPLY with the open transaction's tag ends the register transaction with OK or SENSOR_ERR. -/
def execRegReply (p : Fin 4) (tag status : Byte) (data : Word) (s : State) : Host.Outcome State Fault Refusal :=
  finish s (s.regReply p tag status data) [.regs, .holding, .hevt, .msix, .out]

/-- LINE_CLOCK (R82): A line period ends; the port issues the LINE event, samples page-present and replaces the line
whose window closed unaccepted. -/
def execLineClock (p : Fin 4) (s : State) : Host.Outcome State Fault Refusal :=
  finish s (s.lineClock p)
    [.free, .mem, .regs, .held, .holding, .hevt, .msix, .qs, .items, .nextSeq, .egress, .ue, .out, .ports,
     .gctxs, .sc, .harts]

/-- EXP_ON (R82): The EXP_ON event of a colour is issued at its scheduled offset. -/
def execExpOn (p : Fin 4) (c : Fin 3) (s : State) : Host.Outcome State Fault Refusal :=
  finish s (s.expEvent p 2 c) [.out]

/-- EXP_OFF (R82): The EXP_OFF event of a colour is issued at its scheduled offset. -/
def execExpOff (p : Fin 4) (c : Fin 3) (s : State) : Host.Outcome State Fault Refusal :=
  finish s (s.expEvent p 3 c) [.out]

/-- STROBE_ON (R83): A strobe output goes to its active level at its scheduled offset. -/
def execStrobeOn (p : Fin 4) (c : Fin 3) (s : State) : Host.Outcome State Fault Refusal :=
  finish s (s.strobeTo p c true) [.ports]

/-- STROBE_OFF (R83): A strobe output goes to its inactive level at its scheduled offset. -/
def execStrobeOff (p : Fin 4) (c : Fin 3) (s : State) : Host.Outcome State Fault Refusal :=
  finish s (s.strobeTo p c false) [.ports]

/-- STEP_RISE (R84): A step pulse rises at STEP_OFS plus its share of the period. -/
def execStepRise (p : Fin 4) (s : State) : Host.Outcome State Fault Refusal :=
  finish s (s.stepTo p true) [.ports]

/-- STEP_FALL (R84): A step pulse falls WIDTH counts after it rose. -/
def execStepFall (p : Fin 4) (s : State) : Host.Outcome State Fault Refusal :=
  finish s (s.stepTo p false) [.ports]

/-- REG_WRITE (R81): GO without READ sends REG_WRITE on the control lane and opens a register transaction. -/
def execRegWrite (p : Fin 4) (s : State) : Host.Outcome State Fault Refusal :=
  finish s (s.regGo p false) [.free, .regs, .out, .ports]

/-- REG_READ (R81): GO with READ sends REG_READ on the control lane and opens a register transaction. -/
def execRegRead (p : Fin 4) (s : State) : Host.Outcome State Fault Refusal :=
  finish s (s.regGo p true) [.free, .regs, .out, .ports]

/-- REG_TIMEOUT (R81): 100 µs pass without the matching REG_REPLY and the transaction ends with TIMEOUT. -/
def execRegTimeout (p : Fin 4) (s : State) : Host.Outcome State Fault Refusal :=
  finish s (s.regTimeout p) [.regs, .holding, .hevt, .msix, .out]

/-- APPLY (R85): A write of TIMING_CTL.APPLY checks the staged timing set and uses it from the next line clock, or
sets TIMING_ERR. -/
def execApplyTiming (p : Fin 4) (s : State) : Host.Outcome State Fault Refusal :=
  finish s (s.apply p) [.regs, .holding, .hevt, .msix, .out, .ports]

/-- COEF_LOAD (R90): A write of COEF_CMD.LOAD starts copying coefficient words into the inactive bank, or is refused
with LOAD_ERR. -/
def execCoefLoad (p : Fin 4) (s : State) : Host.Outcome State Fault Refusal :=
  finish s (s.coefLoad p) [.free, .regs, .ports]

/-- COEF_LOAD_DONE (R90): The coefficient load finishes, LOAD_BUSY clears and COEF_DONE is raised. -/
def execCoefLoadDone (p : Fin 4) (s : State) : Host.Outcome State Fault Refusal :=
  finish s (s.coefDone p) [.regs, .holding, .hevt, .msix, .out, .ports]

/-- SWAP (R90): A write of COND_CTL.SWAP requests exchange of the coefficient banks at the next item boundary. -/
def execSwap (req : BitVec 16) (p : Fin 4) (v : Word) (s : State) : Host.Outcome State Fault Refusal :=
  finish s (s.condCtl req p (v ||| 0x10))
    [.regs, .held, .wosDone, .flogRing, .flogLast, .holding, .hevt, .msix, .out, .ports]

/-- ARCH_LINES_WRITE (R94): A write to ARCH_LINES sets the archive ring size and resets both ring pointers to 0. -/
def execArchLinesWrite (req : BitVec 16) (p : Fin 4) (v : Word) (s : State) : Host.Outcome State Fault Refusal :=
  finish s (s.archLines req p v) [.regs, .held, .wosDone, .flogRing, .flogLast, .holding, .hevt, .msix, .out]

/-- CAL_START (R95): A write of CAL_CTL.START starts or restarts a PROFILE or COLUMN capture at the next line clock. -/
def execCalStart (req : BitVec 16) (p : Fin 4) (v : Word) (s : State) : Host.Outcome State Fault Refusal :=
  finish s (s.calStart req p (v ||| 0x80000000))
    [.regs, .held, .wosDone, .flogRing, .flogLast, .holding, .hevt, .msix, .out, .ports]

/-- STRIPE_LAND (R110): A stripe whose lines, frame and landing slot are ready is copied into the tile group's landing
slot. -/
def execStripeLand (p : Fin 4) (s : State) : Host.Outcome State Fault Refusal :=
  finish s (s.stripeLand p) [.mem, .ports, .harts]

/-- STRIPE_HAND (R110): A landed stripe whose steering mask is formed is handed by writing its descriptor to the
group's tile queues. -/
def execStripeHand (p : Fin 4) (s : State) : Host.Outcome State Fault Refusal :=
  finish s (s.stripeHand p)
    [.free, .mem, .regs, .held, .holding, .hevt, .msix, .qs, .items, .egress, .ue, .out, .ports, .tiles, .gctxs,
     .sc, .harts]

/-- STEER_POST (R111): A write to STEER_POST posts the staged mask for the awaited stripe, or is ignored as stale. -/
def execSteerPost (p : Fin 4) (v : Word) (s : State) : Host.Outcome State Fault Refusal :=
  finish s (s.steerPost p v) [.regs, .holding, .hevt, .msix, .out, .ports]

/-- INVALID_HEADER (R74): A block arrives on an ISL data lane with an invalid sync header or an unlisted block type,
and it is counted in CNT_HDR_ERR and otherwise ignored. -/
def execInvalidHeader (p : Fin 4) (s : State) : Host.Outcome State Fault Refusal :=
  finish s (s.bump (Reg.P0_CNT_HDR_ERR p)) [.regs]

end Sys2Proof.Machine
end

