-- ==== Sys2Proof/Machine/SchedRows.lean ====
section
/-! DEFINITION. The meanings of the commands that act through `Sched`: one per row of the table, each with the effect its rule
gives it. -/
namespace Sys2Proof.Machine

/-- PCMD_CREATE (R342): A keyed PCMD CREATE checks a partition descriptor and starts creating the partition. -/
def execPcmdCreate (req : BitVec 16) (v : Word) (s : State) : Host.Outcome State Fault Refusal :=
  finish s (s.pcmdWrite req (v &&& 0xFFFFFFFC ||| 1))
    [.free, .mem, .regs, .held, .flogRing, .flogLast, .holding, .hevt, .msix, .qs, .items, .egress, .parts,
     .vis, .ue, .out, .ports, .tiles, .gctxs, .seqs, .aunits, .sc, .harts, .cores, .vsaved, .pcmd]

/-- PCMD_DESTROY (R344): A keyed PCMD DESTROY resets instances, stops tiles, parks harts and frees the partition's
resources. -/
def execPcmdDestroy (req : BitVec 16) (v : Word) (s : State) : Host.Outcome State Fault Refusal :=
  finish s (s.pcmdWrite req (v &&& 0xFFFFFFFC ||| 2))
    [.free, .mem, .regs, .held, .flogRing, .flogLast, .holding, .hevt, .msix, .qs, .items, .egress, .parts,
     .vis, .ue, .out, .ports, .tiles, .gctxs, .seqs, .aunits, .sc, .harts, .cores, .vsaved, .pcmd]

/-- PCMD_RESET (R344): A keyed PCMD RESET destroys the partition and creates it again from its last descriptor. -/
def execPcmdReset (req : BitVec 16) (v : Word) (s : State) : Host.Outcome State Fault Refusal :=
  finish s (s.pcmdWrite req (v ||| 3))
    [.free, .mem, .regs, .held, .flogRing, .flogLast, .holding, .hevt, .msix, .qs, .items, .egress, .parts,
     .vis, .ue, .out, .ports, .tiles, .gctxs, .seqs, .aunits, .sc, .harts, .cores, .vsaved, .pcmd]

/-- PCMD_DONE (R343): A partition command finishes, the partition reaches ACTIVE or FREE and PCMD_DONE is raised. -/
def execPcmdDone (s : State) : Host.Outcome State Fault Refusal :=
  finish s s.pcmdDone
    [.free, .mem, .regs, .held, .holding, .hevt, .msix, .qs, .items, .egress, .parts, .vis, .ue, .out, .ports,
     .tiles, .gctxs, .seqs, .aunits, .sc, .harts, .vsaved, .pcmd]

/-- TILE_PLACEMENT (R348): A write to an instance's placement port places a WORK descriptor in the lowest free tile or
queues or drops it. -/
def execTilePlacement (p : Fin 8) (v : Fin 16) (data : List Byte) (s : State) : Host.Outcome State Fault Refusal :=
  finish s (s.placePort p v data) [.regs, .holding, .hevt, .msix, .items, .vis, .out, .tiles]

/-- PARTITION_LAUNCH (R349): A write to an instance's launch port passes the launch to the lowest core with a parked
hart or queues it. -/
def execPartitionLaunch (p : Fin 8) (v : Fin 16) (r : BitVec 512) (whole : Bool) (s : State) : Host.Outcome State Fault Refusal :=
  finish s (s.partLaunch p v r whole) [.regs, .holding, .hevt, .msix, .parts, .out, .harts, .cores]

/-- QUANTUM_EXPIRY (R350): A slice decision falls due at quantum expiry, loss of READY or an urgency-3 preemption. -/
def execQuantumExpiry (p : Fin 8) (s : State) : Host.Outcome State Fault Refusal :=
  finish s (s.sliceTest p) [.regs, .held, .holding, .hevt, .msix, .parts, .out, .tiles]

/-- DRAIN_LIMIT (R356): DRAIN_LIMIT_US pass with a step still open and the step is closed without committing. -/
def execDrainLimit (p : Fin 8) (s : State) : Host.Outcome State Fault Refusal :=
  finish s (s.drainLimit p)
    [.free, .mem, .regs, .holding, .hevt, .msix, .qs, .items, .egress, .parts, .ue, .out, .ports, .tiles,
     .gctxs, .seqs, .aunits, .sc, .harts]

/-- YIELD_LIMIT (R357): YIELD_LIMIT_US pass and tiles not yet stopped are stopped and fully saved. -/
def execYieldLimit (p : Fin 8) (s : State) : Host.Outcome State Fault Refusal :=
  finish s (s.yieldLimit p) [.regs, .holding, .hevt, .msix, .parts, .out, .tiles]

/-- TRANSFER_DONE (R358): The save and load of cocoons finish, ADAPT begins and SWITCHED is raised. -/
def execTransferDone (p : Fin 8) (s : State) : Host.Outcome State Fault Refusal :=
  finish s (s.transferDone p)
    [.free, .mem, .regs, .held, .holding, .hevt, .msix, .qs, .items, .egress, .parts, .vis, .ue, .out, .ports,
     .tiles, .batchHeld, .arena, .handing, .gctxs, .seqs, .aunits, .sc, .harts, .vsaved]

/-- ADAPT_RELEASE (R359): A write of PART_CMD.RELEASE ends ADAPT and the tiles restart in RUN. -/
def execAdaptRelease (p : Fin 8) (v : Word) (s : State) : Host.Outcome State Fault Refusal :=
  finish s (s.adaptRelease p (v ||| 1))
    [.free, .mem, .regs, .held, .holding, .hevt, .msix, .qs, .items, .egress, .parts, .vis, .ue, .out, .ports,
     .tiles, .batchHeld, .arena, .handing, .gctxs, .sc, .harts]

/-- ADAPT_PASS (R360): ADAPT_MS pass and an adaptation pass drains and yields the running instance without saving. -/
def execAdaptPass (p : Fin 8) (s : State) : Host.Outcome State Fault Refusal :=
  finish s (s.adaptPass p) [.regs, .holding, .hevt, .msix, .parts, .out, .tiles]

/-- VI_START (R354): A write of VI_CMD.START begins checking an instance's cocoon and save area. -/
def execViStart (p : Fin 8) (s : State) : Host.Outcome State Fault Refusal :=
  finish s (s.viStart p (s.fld (Reg.VI_SEL p) 3 0)) [.vis]

/-- VI_START_CHECK (R354): The cocoon check ends and RESULT is set to OK, BUSY, RESOURCES or BAD_COCOON. -/
def execViStartCheck (p : Fin 8) (v : Fin 16) (s : State) : Host.Outcome State Fault Refusal :=
  finish s (s.viStartCheck p v) [.regs, .held, .holding, .hevt, .msix, .parts, .vis, .out, .tiles, .vsaved]

/-- VI_RESET (R362): A keyed VI_CMD.RESET fences an instance's tag, discards its queued work and ends its sequences
and items. -/
def execViReset (req : BitVec 16) (p : Fin 8) (w : Word) (s : State) : Host.Outcome State Fault Refusal :=
  finish s (s.viResetCmd req p (s.fld (Reg.VI_SEL p) 3 0) w)
    [.free, .mem, .regs, .held, .flogRing, .flogLast, .holding, .hevt, .msix, .qs, .items, .egress, .parts,
     .vis, .ue, .out, .ports, .tiles, .gctxs, .seqs, .aunits, .sc, .harts, .cores, .vsaved]

/-- RESET_CUTOFF (R363): 40 µs after a reset, engine operations of the fenced tag are cut off at their next write. -/
def execResetCutoff (p : Fin 8) (v : Fin 16) (s : State) : Host.Outcome State Fault Refusal :=
  finish s (s.resetCutoff p v) [.qs]

/-- VI_RESET_DONE (R363): The instance's in-flight count reaches zero or 50 µs pass; the generation increments and the
instance becomes OFF. -/
def execViResetDone (p : Fin 8) (v : Fin 16) (s : State) : Host.Outcome State Fault Refusal :=
  finish s (s.viResetDone p v) [.regs, .held, .holding, .hevt, .msix, .qs, .parts, .vis, .out, .tiles, .vsaved]

end Sys2Proof.Machine
end

