-- ==== Sys2Proof/Machine/SeqRows.lean ====
section
/-! DEFINITION. The meanings of the commands that act through `SeqStep`: one per row of the table, each with the effect its rule
gives it. -/
namespace Sys2Proof.Machine

/-- SEQ_OPEN (R199): Sequence engine command that opens a recognition sequence, binding its grammar context and
allocating own pages. -/
def execSeqOpen (q : Fin 2048) (s : State) : Host.Outcome State Fault Refusal :=
  finish s (s.auCmd q 0x40 (fun s u q b => some (s.effSeqOpen u q b)))
    [.free, .mem, .regs, .holding, .hevt, .msix, .qs, .ue, .out, .gctxs, .seqs, .seqGen, .aunits, .sc, .harts]

/-- SEQ_END (R200): Sequence engine command that ends a sequence CANCELLED, freeing its pages and leaf reference. -/
def execSeqEnd (q : Fin 2048) (s : State) : Host.Outcome State Fault Refusal :=
  finish s (s.auCmd q 0x41 (fun s u q b => some (s.effSeqEnd u q b)))
    [.free, .mem, .regs, .holding, .hevt, .msix, .qs, .items, .egress, .ue, .out, .ports, .gctxs, .seqs,
     .aunits, .sc, .harts]

/-- PFX_ACQUIRE (R206): Sequence engine command that finds or creates the prefix nodes of a token list and returns the
leaf handle. -/
def execPfxAcquire (q : Fin 2048) (s : State) : Host.Outcome State Fault Refusal :=
  finish s (s.auCmd q 0x42 (fun s u q b => some (s.effPfxAcquire u q b)))
    [.free, .mem, .regs, .holding, .hevt, .msix, .qs, .ue, .out, .gctxs, .aunits, .sc, .harts]

/-- PFX_RELEASE (R208): Sequence engine command that drops a reference on a prefix node. -/
def execPfxRelease (q : Fin 2048) (s : State) : Host.Outcome State Fault Refusal :=
  finish s (s.auCmd q 0x43 (fun s u q b => some (s.effPfxRelease u q b)))
    [.mem, .regs, .holding, .hevt, .msix, .qs, .ue, .out, .gctxs, .aunits, .sc, .harts]

/-- STEP_OPEN (R214): Sequence engine command that checks a step table and opens a batch step, preparing grammar
speculation. -/
def execStepOpen (q : Fin 2048) (s : State) : Host.Outcome State Fault Refusal :=
  finish s (s.auCmd q 0x47 (fun s u q b => some (s.effStepOpen u q b)))
    [.free, .mem, .regs, .holding, .hevt, .msix, .qs, .items, .egress, .ue, .out, .ports, .gctxs, .seqs,
     .aunits, .sc, .harts]

/-- ATTEND (R216): Sequence engine command that writes keys and values and computes attention for a step in self or
cross mode. -/
def execAttend (q : Fin 2048) (s : State) : Host.Outcome State Fault Refusal :=
  finish s (s.auCmd q 0x48 (fun s u q b => s.effAttend u q b))
    [.free, .mem, .regs, .flogRing, .holding, .hevt, .msix, .qs, .items, .egress, .parts, .ue, .out, .ports,
     .tiles, .gctxs, .seqs, .aunits, .sc, .harts]

/-- VERIFY (R218): Sequence engine command that chooses constrained tokens, accepts candidates, commits and closes the
step. -/
def execVerify (q : Fin 2048) (s : State) : Host.Outcome State Fault Refusal :=
  finish s (s.auCmd q 0x4A (fun s u q b => s.effVerify u q b))
    [.free, .mem, .regs, .flogRing, .holding, .hevt, .msix, .qs, .items, .egress, .parts, .ue, .out, .ports,
     .tiles, .gctxs, .seqs, .aunits, .sc, .harts]

/-- POST_PORT (R226): A 64-byte store to an attention unit's post port adds one to the semaphore named in its first
byte. -/
def execPostPort (u : Fin 8) (data : List Byte) (s : State) : Host.Outcome State Fault Refusal :=
  finish s (s.auPost u (byteAt data 0 % 16)) [.regs, .holding, .hevt, .msix, .out]

/-- AU_SEM_POST (R226): A write to an attention unit's SEM_POST adds one to a semaphore, or sets SEM_OVF. -/
def execAuSemPost (u : Fin 8) (v : Word) (s : State) : Host.Outcome State Fault Refusal :=
  finish s (s.auPost u (bits v 3 0)) [.regs, .holding, .hevt, .msix, .out]

/-- AU_ENABLE (R227): A write of 1 to AU_CTL.ENABLE checks the pools and hash table and starts the unit, or sets
CFG_ERR. -/
def execAuEnable (req : BitVec 16) (u : Fin 8) (v : Word) (s : State) : Host.Outcome State Fault Refusal :=
  finish s (s.auCtl req u (v ||| 1))
    [.free, .mem, .regs, .held, .wosDone, .flogRing, .flogLast, .holding, .hevt, .msix, .qs, .items, .egress,
     .ue, .out, .ports, .gctxs, .seqs, .aunits, .sc, .harts]

/-- AU_DISABLE (R227): A write of 0 to AU_CTL.ENABLE requests disabling once no step is open. -/
def execAuDisable (req : BitVec 16) (u : Fin 8) (v : Word) (s : State) : Host.Outcome State Fault Refusal :=
  finish s (s.auCtl req u (v &&& 0xFFFFFFFE))
    [.free, .mem, .regs, .held, .wosDone, .flogRing, .flogLast, .holding, .hevt, .msix, .qs, .items, .egress,
     .ue, .out, .ports, .gctxs, .seqs, .aunits, .sc, .harts]

end Sys2Proof.Machine
end

