-- ==== Sys2Proof/Machine/ServiceRows.lean ====
section
/-! DEFINITION. The meanings of the commands that act through `Service`: one per row of the table, each with the effect its rule
gives it. -/
namespace Sys2Proof.Machine

/-- ASM_DONE (R282): A write to ASM_DONE_HI marks the item's record assembly stage done, or is counted as stale. -/
def execAsmDone (v : Word) (s : State) : Host.Outcome State Fault Refusal :=
  finish s (s.asmDone v)
    [.free, .mem, .regs, .holding, .hevt, .msix, .qs, .items, .egress, .ue, .out, .ports, .gctxs, .sc, .harts]

/-- RECORD_COMMIT (R285): A 64-byte write to the commit port publishes an item's body bytes, parts and decision, or is
refused or stale. -/
def execRecordCommit (data : List Byte) (s : State) : Host.Outcome State Fault Refusal :=
  finish s (s.commit data) [.regs, .holding, .hevt, .msix, .items, .egress, .out]

/-- DEST_LOAD (R296): A write of a DEST_CMD.LOAD bit reads, checks and activates one destination descriptor. -/
def execDestLoad (v : Word) (s : State) : Host.Outcome State Fault Refusal :=
  finish s (s.destLoad v) [.regs, .holding, .hevt, .msix, .dests, .out]

/-- SERVICE_START (R305): After FW_READY the hostless service runs steps H1 to H6 from its configuration. -/
def execServiceStart (fetched : Bool) (s : State) : Host.Outcome State Fault Refusal :=
  finish s (s.serviceStart fetched)
    [.free, .mem, .regs, .held, .wosDone, .flogRing, .flogLast, .holding, .hevt, .msix, .qs, .items, .dests,
     .egress, .svc, .ue, .out, .ports, .gctxs, .sc, .harts]

/-- STATUS_RECORD (R295): Every STATUS_MS the firmware forms a status record for destinations taking status records. -/
def execStatusRecord (s : State) : Host.Outcome State Fault Refusal :=
  finish s s.statusRecord [.egress, .svc]

/-- MGMT_REQUEST (R408): A UDP management request on a MGMT interface is performed and answered to its source. -/
def execMgmtRequest (eth : Fin 2) (frame : List Byte) (fetched : Bool) (s : State) : Host.Outcome State Fault Refusal :=
  finish s (s.mgmtFrame eth frame fetched)
    [.free, .mem, .flash, .regs, .held, .wosDone, .flogRing, .flogLast, .holding, .hevt, .msix, .qs, .items,
     .dests, .egress, .svc, .ue, .out, .ports, .gctxs, .sc, .harts]

/-- MGMT (R408): Firmware queue command that performs a management request and writes its response. -/
def execMgmt (q : Fin 2048) (fetched : Bool) (s : State) : Host.Outcome State Fault Refusal :=
  finish s (s.execCmd q 0x70 (s.effMgmt fetched))
    [.free, .mem, .flash, .regs, .held, .wosDone, .flogRing, .flogLast, .holding, .hevt, .msix, .qs, .items,
     .dests, .egress, .svc, .ue, .out, .ports, .gctxs, .sc, .harts]

/-- BUNDLE_RETRY (R305): 5 s after a failed bundle fetch in step H3, the service fetches the bundle again. -/
def execBundleRetry (fetched : Bool) (s : State) : Host.Outcome State Fault Refusal :=
  finish s (s.bundleRetry fetched)
    [.free, .mem, .regs, .held, .wosDone, .flogRing, .flogLast, .holding, .hevt, .msix, .qs, .items, .dests,
     .egress, .svc, .ue, .out, .ports, .gctxs, .sc, .harts]

/-- LOST_STREAM_SETUP (R305): A lost stream is set up again after 1 s, then after 2, 4 and so on up to 60 s. -/
def execLostStreamSetup (c : Fin 1024) (s : State) : Host.Outcome State Fault Refusal :=
  finish s (s.streamSetup c) [.svc]

end Sys2Proof.Machine
end

