-- ==== Sys2Proof/Machine/TguRows.lean ====
section
/-! DEFINITION. The meanings of the commands that act through `Tgu`: one per row of the table, each with the effect its rule
gives it. -/
namespace Sys2Proof.Machine

/-- VOC_LOAD (R229): TGU command that checks a vocabulary image, loads it into a slot and builds its match trie. -/
def execVocLoad (q : Fin 2048) (s : State) : Host.Outcome State Fault Refusal :=
  finish s (s.tguCmd q 0x60 State.effVocLoad)
    [.mem, .regs, .holding, .hevt, .msix, .qs, .ue, .out, .vocs, .gctxs, .sc, .harts]

/-- VOC_UNLOAD (R253): TGU command that unloads a vocabulary slot unless it is in use. -/
def execVocUnload (q : Fin 2048) (s : State) : Host.Outcome State Fault Refusal :=
  finish s (s.tguCmd q 0x61 State.effVocUnload)
    [.mem, .regs, .holding, .hevt, .msix, .qs, .ue, .out, .vocs, .gctxs, .sc, .harts]

/-- NORM_LOAD (R230): TGU command that checks and loads a normalisation table. -/
def execNormLoad (q : Fin 2048) (s : State) : Host.Outcome State Fault Refusal :=
  finish s (s.tguCmd q 0x62 State.effNormLoad)
    [.mem, .regs, .holding, .hevt, .msix, .qs, .ue, .out, .norms, .gctxs, .sc, .harts]

/-- NORM_UNLOAD (R253): TGU command that unloads a normalisation slot unless in use. -/
def execNormUnload (q : Fin 2048) (s : State) : Host.Outcome State Fault Refusal :=
  finish s (s.tguCmd q 0x63 State.effNormUnload)
    [.mem, .regs, .holding, .hevt, .msix, .qs, .ue, .out, .norms, .gctxs, .sc, .harts]

/-- GRM_LOAD (R238): TGU command that checks and loads a grammar image into a slot. -/
def execGrmLoad (q : Fin 2048) (s : State) : Host.Outcome State Fault Refusal :=
  finish s (s.tguCmd q 0x64 State.effGrmLoad)
    [.mem, .regs, .holding, .hevt, .msix, .qs, .ue, .out, .grms, .gctxs, .sc, .harts]

/-- GRM_UNLOAD (R253): TGU command that unloads a grammar slot unless in use. -/
def execGrmUnload (q : Fin 2048) (s : State) : Host.Outcome State Fault Refusal :=
  finish s (s.tguCmd q 0x65 State.effGrmUnload)
    [.mem, .regs, .holding, .hevt, .msix, .qs, .ue, .out, .grms, .gctxs, .sc, .harts]

/-- LEX_REGISTER (R239): TGU command that registers a lexicon trie region. -/
def execLexRegister (q : Fin 2048) (s : State) : Host.Outcome State Fault Refusal :=
  finish s (s.tguCmd q 0x66 State.effLexRegister)
    [.mem, .regs, .holding, .hevt, .msix, .qs, .ue, .out, .lexs, .gctxs, .sc, .harts]

/-- LEX_UNREGISTER (R253): TGU command that unregisters a lexicon unless a context holds a thread in it. -/
def execLexUnregister (q : Fin 2048) (s : State) : Host.Outcome State Fault Refusal :=
  finish s (s.tguCmd q 0x67 State.effLexUnregister)
    [.mem, .regs, .holding, .hevt, .msix, .qs, .ue, .out, .lexs, .gctxs, .sc, .harts]

/-- TOKENIZE (R235): TGU command that decodes, normalises, cuts and tokenizes source text into 16-bit tokens. -/
def execTokenize (q : Fin 2048) (s : State) : Host.Outcome State Fault Refusal :=
  finish s (s.tguCmd q 0x68 State.effTokenize)
    [.mem, .regs, .holding, .hevt, .msix, .qs, .ue, .out, .gctxs, .sc, .harts]

/-- GCTX_OPEN (R241): TGU command that allocates a grammar context in its start state and drafts its candidates. -/
def execGctxOpen (q : Fin 2048) (s : State) : Host.Outcome State Fault Refusal :=
  finish s (s.tguCmd q 0x69 (fun s x b => s.effGctxOpen q x b))
    [.free, .mem, .regs, .holding, .hevt, .msix, .qs, .ue, .out, .gctxs, .gctxGen, .sc, .harts]

/-- GCTX_CLOSE (R248): TGU command that closes an OPEN context ABANDONED. -/
def execGctxClose (q : Fin 2048) (s : State) : Host.Outcome State Fault Refusal :=
  finish s (s.tguCmd q 0x6A State.effGctxClose)
    [.free, .mem, .regs, .holding, .hevt, .msix, .qs, .items, .egress, .ue, .out, .ports, .gctxs, .sc, .harts]

/-- ADVANCE (R250): TGU command that commits up to 16 tokens to an OPEN context while its mask allows them. -/
def execAdvance (q : Fin 2048) (s : State) : Host.Outcome State Fault Refusal :=
  finish s (s.tguCmd q 0x6B State.effAdvance) [.mem, .regs, .holding, .hevt, .msix, .qs, .ue, .out, .gctxs, .sc, .harts]

/-- MASK (R250): TGU command that writes the 8 KB mask of a context's committed state. -/
def execGrmMask (q : Fin 2048) (s : State) : Host.Outcome State Fault Refusal :=
  finish s (s.tguCmd q 0x6C State.effMask) [.mem, .regs, .holding, .hevt, .msix, .qs, .ue, .out, .gctxs, .sc, .harts]

/-- CHECK (R250): TGU command that tokenizes text, runs it through the grammar and closes the context ACCEPTED or
REJECTED. -/
def execGrmCheck (q : Fin 2048) (s : State) : Host.Outcome State Fault Refusal :=
  finish s (s.tguCmd q 0x6D State.effCheck)
    [.free, .mem, .regs, .holding, .hevt, .msix, .qs, .items, .egress, .ue, .out, .ports, .gctxs, .sc, .harts]

/-- DRAFT (R245): After a commit or open, the TGU drafts a context's candidate list and sets CAND_GEN. -/
def execDraft (ctx : Fin 32768) (s : State) : Host.Outcome State Fault Refusal :=
  finish s (s.draftRow ctx) [.mem, .regs, .holding, .hevt, .msix, .out, .gctxs, .harts]

/-- GRM_DONE (R251): A write to GRM_DONE_HI marks the item's grammar stage done once recognition is done and no
context names it. -/
def execGrmDone (v : Word) (s : State) : Host.Outcome State Fault Refusal :=
  finish s (s.grmDone v)
    [.free, .mem, .regs, .holding, .hevt, .msix, .qs, .items, .egress, .ue, .out, .ports, .gctxs, .sc, .harts]

/-- TGU_ENABLE (R254): A write of 1 to TGU_CTL.ENABLE checks the commons regions and starts the TGU, or sets CFG_ERR. -/
def execTguEnable (v : Word) (s : State) : Host.Outcome State Fault Refusal :=
  finish s (s.tguCtl (v ||| 1)) [.regs]

/-- TGU_DISABLE (R254): A write of 0 to TGU_CTL.ENABLE disables the TGU, or is refused while contexts are open. -/
def execTguDisable (v : Word) (s : State) : Host.Outcome State Fault Refusal :=
  finish s (s.tguCtl (v &&& 0xFFFFFFFE)) [.regs]

end Sys2Proof.Machine
end

