-- ==== Sys2Proof/Machine/TileRows.lean ====
section
/-! DEFINITION. The meanings of the commands that act through `Tile`: one per row of the table, each with the effect its rule
gives it. -/
namespace Sys2Proof.Machine

/-- NOP (R152): Tile instruction that does nothing. -/
def execTileNop (t : Fin 160) (s : State) : Host.Outcome State Fault Refusal :=
  finish s (s.tileInstr t 0x0)
    [.free, .mem, .regs, .flogRing, .flogLast, .holding, .hevt, .msix, .qs, .items, .egress, .parts, .vis, .ue,
     .out, .ports, .tiles, .batchHeld, .arena, .handing, .gctxs, .sc, .harts, .cores]

/-- SETI (R152): Tile instruction that sets a tile register to an immediate. -/
def execSeti (t : Fin 160) (s : State) : Host.Outcome State Fault Refusal :=
  finish s (s.tileInstr t 0x1)
    [.free, .mem, .regs, .flogRing, .flogLast, .holding, .hevt, .msix, .qs, .items, .egress, .parts, .vis, .ue,
     .out, .ports, .tiles, .batchHeld, .arena, .handing, .gctxs, .sc, .harts, .cores]

/-- ADDI (R152): Tile instruction that adds an immediate to a tile register. -/
def execAddi (t : Fin 160) (s : State) : Host.Outcome State Fault Refusal :=
  finish s (s.tileInstr t 0x2)
    [.free, .mem, .regs, .flogRing, .flogLast, .holding, .hevt, .msix, .qs, .items, .egress, .parts, .vis, .ue,
     .out, .ports, .tiles, .batchHeld, .arena, .handing, .gctxs, .sc, .harts, .cores]

/-- BNZ (R152): Tile instruction that decrements a register and branches while it is not zero. -/
def execBnz (t : Fin 160) (s : State) : Host.Outcome State Fault Refusal :=
  finish s (s.tileInstr t 0x3)
    [.free, .mem, .regs, .flogRing, .flogLast, .holding, .hevt, .msix, .qs, .items, .egress, .parts, .vis, .ue,
     .out, .ports, .tiles, .batchHeld, .arena, .handing, .gctxs, .sc, .harts, .cores]

/-- DEQ (R152): Tile instruction that waits for a queue descriptor, writes it to tile memory and sets KIND, BAND and
TOKEN. -/
def execDeq (t : Fin 160) (s : State) : Host.Outcome State Fault Refusal :=
  finish s (s.tileInstr t 0x4)
    [.free, .mem, .regs, .flogRing, .flogLast, .holding, .hevt, .msix, .qs, .items, .egress, .parts, .vis, .ue,
     .out, .ports, .tiles, .batchHeld, .arena, .handing, .gctxs, .sc, .harts, .cores]

/-- RETIRE (R170): Tile instruction that ends the tile's hold on a descriptor, releasing landing slots or arena space
when the group has retired. -/
def execRetire (t : Fin 160) (s : State) : Host.Outcome State Fault Refusal :=
  finish s (s.tileInstr t 0x5)
    [.free, .mem, .regs, .flogRing, .flogLast, .holding, .hevt, .msix, .qs, .items, .egress, .parts, .vis, .ue,
     .out, .ports, .tiles, .batchHeld, .arena, .handing, .gctxs, .sc, .harts, .cores]

/-- SYNC (R152): Tile instruction that executes once every unit is idle and its queue empty. -/
def execSync (t : Fin 160) (s : State) : Host.Outcome State Fault Refusal :=
  finish s (s.tileInstr t 0x6)
    [.free, .mem, .regs, .flogRing, .flogLast, .holding, .hevt, .msix, .qs, .items, .egress, .parts, .vis, .ue,
     .out, .ports, .tiles, .batchHeld, .arena, .handing, .gctxs, .sc, .harts, .cores]

/-- END (R152): Tile instruction that waits like SYNC, then stops the tile and raises DONE. -/
def execTileEnd (t : Fin 160) (s : State) : Host.Outcome State Fault Refusal :=
  finish s (s.tileInstr t 0x7)
    [.free, .mem, .regs, .flogRing, .flogLast, .holding, .hevt, .msix, .qs, .items, .egress, .parts, .vis, .ue,
     .out, .ports, .tiles, .batchHeld, .arena, .handing, .gctxs, .sc, .harts, .cores]

/-- MATMUL (R153): Tile instruction that multiplies activations by narrow weight blocks and rescales or accumulates
the result. -/
def execMatmul (t : Fin 160) (s : State) : Host.Outcome State Fault Refusal :=
  finish s (s.tileInstr t 0x10)
    [.free, .mem, .regs, .flogRing, .flogLast, .holding, .hevt, .msix, .qs, .items, .egress, .parts, .vis, .ue,
     .out, .ports, .tiles, .batchHeld, .arena, .handing, .gctxs, .sc, .harts, .cores]

/-- CONV (R155): Tile instruction that runs a direct convolution through the pane ring on the array. -/
def execConv (t : Fin 160) (s : State) : Host.Outcome State Fault Refusal :=
  finish s (s.tileInstr t 0x11)
    [.free, .mem, .regs, .flogRing, .flogLast, .holding, .hevt, .msix, .qs, .items, .egress, .parts, .vis, .ue,
     .out, .ports, .tiles, .batchHeld, .arena, .handing, .gctxs, .sc, .harts, .cores]

/-- PWISE (R165): Tile instruction that applies COPY, FUNC, ADD, MUL or MAX to column-rows. -/
def execPwise (t : Fin 160) (s : State) : Host.Outcome State Fault Refusal :=
  finish s (s.tileInstr t 0x20)
    [.free, .mem, .regs, .flogRing, .flogLast, .holding, .hevt, .msix, .qs, .items, .egress, .parts, .vis, .ue,
     .out, .ports, .tiles, .batchHeld, .arena, .handing, .gctxs, .sc, .harts, .cores]

/-- NORM (R167): Tile instruction that normalises each position over its channels. -/
def execTileNorm (t : Fin 160) (s : State) : Host.Outcome State Fault Refusal :=
  finish s (s.tileInstr t 0x21)
    [.free, .mem, .regs, .flogRing, .flogLast, .holding, .hevt, .msix, .qs, .items, .egress, .parts, .vis, .ue,
     .out, .ports, .tiles, .batchHeld, .arena, .handing, .gctxs, .sc, .harts, .cores]

/-- LOAD (R160): Tile instruction that copies device memory into tile memory, decoding the feature-map codec if asked. -/
def execTileLoad (t : Fin 160) (s : State) : Host.Outcome State Fault Refusal :=
  finish s (s.tileInstr t 0x30)
    [.free, .mem, .regs, .flogRing, .flogLast, .holding, .hevt, .msix, .qs, .items, .egress, .parts, .vis, .ue,
     .out, .ports, .tiles, .batchHeld, .arena, .handing, .gctxs, .sc, .harts, .cores]

/-- STORE (R160): Tile instruction that copies tile memory to device memory, encoding with the codec if asked. -/
def execTileStore (t : Fin 160) (s : State) : Host.Outcome State Fault Refusal :=
  finish s (s.tileInstr t 0x31)
    [.free, .mem, .regs, .flogRing, .flogLast, .holding, .hevt, .msix, .qs, .items, .egress, .parts, .vis, .ue,
     .out, .ports, .tiles, .batchHeld, .arena, .handing, .gctxs, .sc, .harts, .cores]

/-- HSEND (R163): Tile instruction that sends a message of rows over a neighbour link. -/
def execHsend (t : Fin 160) (s : State) : Host.Outcome State Fault Refusal :=
  finish s (s.tileInstr t 0x38)
    [.free, .mem, .regs, .flogRing, .flogLast, .holding, .hevt, .msix, .qs, .items, .egress, .parts, .vis, .ue,
     .out, .ports, .tiles, .batchHeld, .arena, .handing, .gctxs, .sc, .harts, .cores]

/-- HRECV (R163): Tile instruction that takes the next message of a link into tile memory. -/
def execHrecv (t : Fin 160) (s : State) : Host.Outcome State Fault Refusal :=
  finish s (s.tileInstr t 0x39)
    [.free, .mem, .regs, .flogRing, .flogLast, .holding, .hevt, .msix, .qs, .items, .egress, .parts, .vis, .ue,
     .out, .ports, .tiles, .batchHeld, .arena, .handing, .gctxs, .sc, .harts, .cores]

/-- INSTRUCTION_COMPLETE (R148): A dispatched tile instruction completes with its writes visible and posts its
semaphore. -/
def execInstructionComplete (t : Fin 160) (u : Fin 5) (s : State) : Host.Outcome State Fault Refusal :=
  finish s (s.instrComplete t (unitNo u))
    [.free, .mem, .regs, .flogRing, .flogLast, .holding, .hevt, .msix, .items, .egress, .parts, .vis, .ue, .out,
     .tiles, .sc, .harts, .cores]

/-- QUEUE_PORT_WRITE (R168): A 64-byte write to a tile's queue port enqueues a WORK descriptor, or is dropped when
full or malformed. -/
def execQueuePortWrite (t : Fin 160) (data : List Byte) (s : State) : Host.Outcome State Fault Refusal :=
  finish s (s.queuePort t data) [.regs, .holding, .hevt, .msix, .items, .out, .tiles]

/-- TILE_START (R177): A write of TILE_CTL.START runs the tile from TILE_PC when it is IDLE. -/
def execTileStart (t : Fin 160) (v : Word) (s : State) : Host.Outcome State Fault Refusal :=
  finish s (s.tileCtl t (v ||| 1)) [.regs, .holding, .hevt, .msix, .parts, .out, .tiles]

/-- TILE_STOP (R173): A write of TILE_CTL.STOP stops dispatch and returns the tile to IDLE once dispatched work
completes. -/
def execTileStop (t : Fin 160) (v : Word) (s : State) : Host.Outcome State Fault Refusal :=
  finish s (s.tileCtl t (v ||| 2)) [.regs, .holding, .hevt, .msix, .parts, .out, .tiles]

/-- CODEC_CLR (R176): A write of TILE_CTL.CODEC_CLR zeroes CODEC_SSE and CODEC_MAXERR. -/
def execCodecClr (t : Fin 160) (v : Word) (s : State) : Host.Outcome State Fault Refusal :=
  finish s (s.tileCtl t (v ||| 4)) [.regs, .holding, .hevt, .msix, .parts, .out, .tiles]

/-- SEM_POST (R149): A write to a tile's SEM_POST adds one to a semaphore, or faults the tile on overflow. -/
def execSemPost (t : Fin 160) (sem : Fin 16) (s : State) : Host.Outcome State Fault Refusal :=
  finish s (s.tilePost t (s.tpc t) sem) [.regs, .flogRing, .holding, .hevt, .msix, .parts, .out, .tiles]

/-- DET_DONE (R171): A write to DET_DONE_HI marks the named item's detection stage done, or is counted as stale. -/
def execDetDone (t : Fin 160) (v : Word) (s : State) : Host.Outcome State Fault Refusal :=
  finish s (s.detDone t v)
    [.free, .mem, .regs, .holding, .hevt, .msix, .qs, .items, .egress, .ue, .out, .ports, .gctxs, .sc, .harts]

end Sys2Proof.Machine
end

