-- ==== Sys2Proof/Machine/Dispatch.lean ====
section
/-! DEFINITION. The effect of each command on everything but the queue: one arm per constructor. -/
namespace Sys2Proof.Machine

def exec (i : Instr) (s : State) : Host.Outcome State Fault Refusal :=
  match i with
  | .openItem q => Sys2Proof.Machine.execOpenItem q s
  | .setDeadline q => Sys2Proof.Machine.execSetDeadline q s
  | .sealNow q => Sys2Proof.Machine.execSealNow q s
  | .setFallback q => Sys2Proof.Machine.execSetFallback q s
  | .milestonePass id k => Sys2Proof.Machine.execMilestonePass id k s
  | .urgencyChange id => Sys2Proof.Machine.execUrgencyChange id s
  | .sealDeadline id => Sys2Proof.Machine.execSealDeadline id s
  | .lateLimit id => Sys2Proof.Machine.execLateLimit id s
  | .recordEgress d => Sys2Proof.Machine.execRecordEgress d s
  | .profileCommit req v => Sys2Proof.Machine.execProfileCommit req v s
  | .profileLoad req v => Sys2Proof.Machine.execProfileLoad req v s
  | .slewDue => Sys2Proof.Machine.execSlewDue s
  | .slewApply => Sys2Proof.Machine.execSlewApply s
  | .tbLoRead req => Sys2Proof.Machine.execTbLoRead req s
  | .tbRateWrite v => Sys2Proof.Machine.execTbRateWrite v s
  | .tbSlewWrite v => Sys2Proof.Machine.execTbSlewWrite v s
  | .calendarSecond => Sys2Proof.Machine.execCalendarSecond s
  | .trimPeriod => Sys2Proof.Machine.execTrimPeriod s
  | .trimWrite v => Sys2Proof.Machine.execTrimWrite v s
  | .calSet v => Sys2Proof.Machine.execCalSet v s
  | .calSetTick => Sys2Proof.Machine.execCalSetTick s
  | .calCapture v => Sys2Proof.Machine.execCalCapture v s
  | .captureTick => Sys2Proof.Machine.execCaptureTick s
  | .calSecLoRead req => Sys2Proof.Machine.execCalSecLoRead req s
  | .backupLost => Sys2Proof.Machine.execBackupLost s
  | .powerOn env => Sys2Proof.Machine.execPowerOn env s
  | .powerLoss => Sys2Proof.Machine.execPowerLoss s
  | .deviceReset req v env => Sys2Proof.Machine.execDeviceReset req v env s
  | .hostLost env => Sys2Proof.Machine.execHostLost env s
  | .hostUp speed width => Sys2Proof.Machine.execHostUp speed width s
  | .wardenWatchdog => Sys2Proof.Machine.execWardenWatchdog s
  | .cfgProgram req v => Sys2Proof.Machine.execCfgProgram req v s
  | .cfgProgramDone good => Sys2Proof.Machine.execCfgProgramDone good s
  | .forceChrysalis req v => Sys2Proof.Machine.execForceChrysalis req v s
  | .registerWrite req a v => Sys2Proof.Machine.execRegisterWrite req a v s
  | .unmappedAccess req write a n => Sys2Proof.Machine.execUnmappedAccess req write a n s
  | .lockWrite req page v => Sys2Proof.Machine.execLockWrite req page v s
  | .evtStsWrite req page v => Sys2Proof.Machine.execEvtStsWrite req page v s
  | .evtEnWrite req page v => Sys2Proof.Machine.execEvtEnWrite req page v s
  | .evtForce req page v => Sys2Proof.Machine.execEvtForce req page v s
  | .holdoffExpiry c => Sys2Proof.Machine.execHoldoffExpiry c s
  | .evtChanCfgWrite v => Sys2Proof.Machine.execEvtChanCfgWrite v s
  | .snapArm v => Sys2Proof.Machine.execSnapArm v s
  | .snapTake => Sys2Proof.Machine.execSnapTake s
  | .snapCancel v => Sys2Proof.Machine.execSnapCancel v s
  | .portEnable req p v => Sys2Proof.Machine.execPortEnable req p v s
  | .portDisable req p v => Sys2Proof.Machine.execPortDisable req p v s
  | .portFmtWrite req p v => Sys2Proof.Machine.execPortFmtWrite req p v s
  | .laneLock p lane => Sys2Proof.Machine.execLaneLock p lane s
  | .laneLockLoss p lane => Sys2Proof.Machine.execLaneLockLoss p lane s
  | .align p slots => Sys2Proof.Machine.execAlign p slots s
  | .lineStart p num colours slots => Sys2Proof.Machine.execLineStart p num colours slots s
  | .colourStart p c pixels => Sys2Proof.Machine.execColourStart p c pixels s
  | .dataBlock p lane w => Sys2Proof.Machine.execDataBlock p lane w s
  | .lineEnd p num crcs => Sys2Proof.Machine.execLineEnd p num crcs s
  | .regReply p tag status data => Sys2Proof.Machine.execRegReply p tag status data s
  | .lineClock p => Sys2Proof.Machine.execLineClock p s
  | .expOn p c => Sys2Proof.Machine.execExpOn p c s
  | .expOff p c => Sys2Proof.Machine.execExpOff p c s
  | .strobeOn p c => Sys2Proof.Machine.execStrobeOn p c s
  | .strobeOff p c => Sys2Proof.Machine.execStrobeOff p c s
  | .stepRise p => Sys2Proof.Machine.execStepRise p s
  | .stepFall p => Sys2Proof.Machine.execStepFall p s
  | .regWrite p => Sys2Proof.Machine.execRegWrite p s
  | .regRead p => Sys2Proof.Machine.execRegRead p s
  | .regTimeout p => Sys2Proof.Machine.execRegTimeout p s
  | .applyTiming p => Sys2Proof.Machine.execApplyTiming p s
  | .coefLoad p => Sys2Proof.Machine.execCoefLoad p s
  | .coefLoadDone p => Sys2Proof.Machine.execCoefLoadDone p s
  | .swap req p v => Sys2Proof.Machine.execSwap req p v s
  | .archLinesWrite req p v => Sys2Proof.Machine.execArchLinesWrite req p v s
  | .calStart req p v => Sys2Proof.Machine.execCalStart req p v s
  | .stripeLand p => Sys2Proof.Machine.execStripeLand p s
  | .stripeHand p => Sys2Proof.Machine.execStripeHand p s
  | .steerPost p v => Sys2Proof.Machine.execSteerPost p v s
  | .ctxCommit v => Sys2Proof.Machine.execCtxCommit v s
  | .ctxLoad v => Sys2Proof.Machine.execCtxLoad v s
  | .rtpPacket eth src port payload => Sys2Proof.Machine.execRtpPacket eth src port payload s
  | .gapLoss c => Sys2Proof.Machine.execGapLoss c s
  | .streamLost c => Sys2Proof.Machine.execStreamLost c s
  | .decodeStart => Sys2Proof.Machine.execDecodeStart s
  | .pictureDecoded c r => Sys2Proof.Machine.execPictureDecoded c r s
  | .createEspot q => Sys2Proof.Machine.execCreateEspot q s
  | .updateEspot q => Sys2Proof.Machine.execUpdateEspot q s
  | .missEspot q => Sys2Proof.Machine.execMissEspot q s
  | .capturedEspot q => Sys2Proof.Machine.execCapturedEspot q s
  | .espotRetire q => Sys2Proof.Machine.execEspotRetire q s
  | .frameDone q => Sys2Proof.Machine.execFrameDone q s
  | .reread q => Sys2Proof.Machine.execReread q s
  | .sampleProduced c ssn => Sys2Proof.Machine.execSampleProduced c ssn s
  | .sampleRelease c => Sys2Proof.Machine.execSampleRelease c s
  | .batchWaitExpiry part bucket => Sys2Proof.Machine.execBatchWaitExpiry part bucket s
  | .cntCopied => Sys2Proof.Machine.execCntCopied s
  | .tileNop t => Sys2Proof.Machine.execTileNop t s
  | .seti t => Sys2Proof.Machine.execSeti t s
  | .addi t => Sys2Proof.Machine.execAddi t s
  | .bnz t => Sys2Proof.Machine.execBnz t s
  | .deq t => Sys2Proof.Machine.execDeq t s
  | .retire t => Sys2Proof.Machine.execRetire t s
  | .sync t => Sys2Proof.Machine.execSync t s
  | .tileEnd t => Sys2Proof.Machine.execTileEnd t s
  | .matmul t => Sys2Proof.Machine.execMatmul t s
  | .conv t => Sys2Proof.Machine.execConv t s
  | .pwise t => Sys2Proof.Machine.execPwise t s
  | .tileNorm t => Sys2Proof.Machine.execTileNorm t s
  | .tileLoad t => Sys2Proof.Machine.execTileLoad t s
  | .tileStore t => Sys2Proof.Machine.execTileStore t s
  | .hsend t => Sys2Proof.Machine.execHsend t s
  | .hrecv t => Sys2Proof.Machine.execHrecv t s
  | .instructionComplete t u => Sys2Proof.Machine.execInstructionComplete t u s
  | .queuePortWrite t data => Sys2Proof.Machine.execQueuePortWrite t data s
  | .tileStart t v => Sys2Proof.Machine.execTileStart t v s
  | .tileStop t v => Sys2Proof.Machine.execTileStop t v s
  | .codecClr t v => Sys2Proof.Machine.execCodecClr t v s
  | .semPost t sem => Sys2Proof.Machine.execSemPost t sem s
  | .detDone t v => Sys2Proof.Machine.execDetDone t v s
  | .seqOpen q => Sys2Proof.Machine.execSeqOpen q s
  | .seqEnd q => Sys2Proof.Machine.execSeqEnd q s
  | .pfxAcquire q => Sys2Proof.Machine.execPfxAcquire q s
  | .pfxRelease q => Sys2Proof.Machine.execPfxRelease q s
  | .stepOpen q => Sys2Proof.Machine.execStepOpen q s
  | .attend q => Sys2Proof.Machine.execAttend q s
  | .verify q => Sys2Proof.Machine.execVerify q s
  | .postPort u data => Sys2Proof.Machine.execPostPort u data s
  | .auSemPost u v => Sys2Proof.Machine.execAuSemPost u v s
  | .auEnable req u v => Sys2Proof.Machine.execAuEnable req u v s
  | .auDisable req u v => Sys2Proof.Machine.execAuDisable req u v s
  | .vocLoad q => Sys2Proof.Machine.execVocLoad q s
  | .vocUnload q => Sys2Proof.Machine.execVocUnload q s
  | .normLoad q => Sys2Proof.Machine.execNormLoad q s
  | .normUnload q => Sys2Proof.Machine.execNormUnload q s
  | .grmLoad q => Sys2Proof.Machine.execGrmLoad q s
  | .grmUnload q => Sys2Proof.Machine.execGrmUnload q s
  | .lexRegister q => Sys2Proof.Machine.execLexRegister q s
  | .lexUnregister q => Sys2Proof.Machine.execLexUnregister q s
  | .tokenize q => Sys2Proof.Machine.execTokenize q s
  | .gctxOpen q => Sys2Proof.Machine.execGctxOpen q s
  | .gctxClose q => Sys2Proof.Machine.execGctxClose q s
  | .advance q => Sys2Proof.Machine.execAdvance q s
  | .grmMask q => Sys2Proof.Machine.execGrmMask q s
  | .grmCheck q => Sys2Proof.Machine.execGrmCheck q s
  | .draft ctx => Sys2Proof.Machine.execDraft ctx s
  | .grmDone v => Sys2Proof.Machine.execGrmDone v s
  | .tguEnable v => Sys2Proof.Machine.execTguEnable v s
  | .tguDisable v => Sys2Proof.Machine.execTguDisable v s
  | .hartInstruction h => Sys2Proof.Machine.execHartInstruction h s
  | .hartLoad h => Sys2Proof.Machine.execHartLoad h s
  | .hartStore h => Sys2Proof.Machine.execHartStore h s
  | .amo h => Sys2Proof.Machine.execAmo h s
  | .lr h => Sys2Proof.Machine.execLr h s
  | .sc h => Sys2Proof.Machine.execSc h s
  | .fence h => Sys2Proof.Machine.execFence h s
  | .fenceI h => Sys2Proof.Machine.execFenceI h s
  | .xfence h => Sys2Proof.Machine.execXfence h s
  | .xpark h => Sys2Proof.Machine.execXpark h s
  | .wrs h => Sys2Proof.Machine.execWrs h s
  | .wrsStoTimeout h => Sys2Proof.Machine.execWrsStoTimeout h s
  | .urgWrite h => Sys2Proof.Machine.execUrgWrite h s
  | .peerrWrite h => Sys2Proof.Machine.execPeerrWrite h s
  | .mevtqRead h => Sys2Proof.Machine.execMevtqRead h s
  | .satpWrite h => Sys2Proof.Machine.execSatpWrite h s
  | .vsWrite h => Sys2Proof.Machine.execVsWrite h s
  | .vectorInstruction h => Sys2Proof.Machine.execVectorInstruction h s
  | .mtimer h => Sys2Proof.Machine.execMtimer h s
  | .coreLaunch c r whole => Sys2Proof.Machine.execCoreLaunch c r whole s
  | .ipi v => Sys2Proof.Machine.execIpi v s
  | .fwReady req v => Sys2Proof.Machine.execFwReady req v s
  | .fwReadyTimeout => Sys2Proof.Machine.execFwReadyTimeout s
  | .fwBoot req v => Sys2Proof.Machine.execFwBoot req v s
  | .fwProgram req v => Sys2Proof.Machine.execFwProgram req v s
  | .fwProgramDone good => Sys2Proof.Machine.execFwProgramDone good s
  | .wardenBridgeTimeout write a => Sys2Proof.Machine.execWardenBridgeTimeout write a s
  | .asmDone v => Sys2Proof.Machine.execAsmDone v s
  | .recordCommit data => Sys2Proof.Machine.execRecordCommit data s
  | .destLoad v => Sys2Proof.Machine.execDestLoad v s
  | .serviceStart fetched => Sys2Proof.Machine.execServiceStart fetched s
  | .statusRecord => Sys2Proof.Machine.execStatusRecord s
  | .mgmtRequest eth frame fetched => Sys2Proof.Machine.execMgmtRequest eth frame fetched s
  | .commonsAccess req write a mask data err => Sys2Proof.Machine.execCommonsAccess req write a mask data err s
  | .mcAccept cls port urg write a mask data => Sys2Proof.Machine.execMcAccept cls port urg write a mask data s
  | .mcIssue q banks => Sys2Proof.Machine.execMcIssue q banks s
  | .mcReadReturn q outcome syn => Sys2Proof.Machine.execMcReadReturn q outcome syn s
  | .writeParityReport q a cls port second => Sys2Proof.Machine.execWriteParityReport q a cls port second s
  | .caParity q => Sys2Proof.Machine.execCaParity q s
  | .refresh q b => Sys2Proof.Machine.execRefresh q b s
  | .hbmTempRead stack temp => Sys2Proof.Machine.execHbmTempRead stack temp s
  | .retrainDue q => Sys2Proof.Machine.execRetrainDue q s
  | .retrainPause q => Sys2Proof.Machine.execRetrainPause q s
  | .retrainPauseEnd q ok => Sys2Proof.Machine.execRetrainPauseEnd q ok s
  | .rowIdleClose q b => Sys2Proof.Machine.execRowIdleClose q b s
  | .rhWindow q => Sys2Proof.Machine.execRhWindow q s
  | .scrub a outcome syn => Sys2Proof.Machine.execScrub a outcome syn s
  | .chRelease req q v => Sys2Proof.Machine.execChRelease req q v s
  | .chReleaseClear req q v => Sys2Proof.Machine.execChReleaseClear req q v s
  | .chReleaseDone q ok => Sys2Proof.Machine.execChReleaseDone q ok s
  | .pcmdCreate req v => Sys2Proof.Machine.execPcmdCreate req v s
  | .pcmdDestroy req v => Sys2Proof.Machine.execPcmdDestroy req v s
  | .pcmdReset req v => Sys2Proof.Machine.execPcmdReset req v s
  | .pcmdDone => Sys2Proof.Machine.execPcmdDone s
  | .tilePlacement p v data => Sys2Proof.Machine.execTilePlacement p v data s
  | .partitionLaunch p v r whole => Sys2Proof.Machine.execPartitionLaunch p v r whole s
  | .quantumExpiry p => Sys2Proof.Machine.execQuantumExpiry p s
  | .drainLimit p => Sys2Proof.Machine.execDrainLimit p s
  | .yieldLimit p => Sys2Proof.Machine.execYieldLimit p s
  | .transferDone p => Sys2Proof.Machine.execTransferDone p s
  | .adaptRelease p v => Sys2Proof.Machine.execAdaptRelease p v s
  | .adaptPass p => Sys2Proof.Machine.execAdaptPass p s
  | .viStart p => Sys2Proof.Machine.execViStart p s
  | .viStartCheck p v => Sys2Proof.Machine.execViStartCheck p v s
  | .viReset req p w => Sys2Proof.Machine.execViReset req p w s
  | .resetCutoff p v => Sys2Proof.Machine.execResetCutoff p v s
  | .viResetDone p v => Sys2Proof.Machine.execViResetDone p v s
  | .klEnable req v => Sys2Proof.Machine.execKlEnable req v s
  | .klDisable req v => Sys2Proof.Machine.execKlDisable req v s
  | .linkEnable req l v => Sys2Proof.Machine.execLinkEnable req l v s
  | .linkDisable req l v => Sys2Proof.Machine.execLinkDisable req l v s
  | .linkTrained l => Sys2Proof.Machine.execLinkTrained l s
  | .linkTrainTimeout l => Sys2Proof.Machine.execLinkTrainTimeout l s
  | .linkFail l laneLost => Sys2Proof.Machine.execLinkFail l laneLost s
  | .badFlit l flit => Sys2Proof.Machine.execBadFlit l flit s
  | .wr l flit => Sys2Proof.Machine.execWr l flit s
  | .rdReq l flit => Sys2Proof.Machine.execRdReq l flit s
  | .rdRsp l flit => Sys2Proof.Machine.execRdRsp l flit s
  | .cmpl l flit => Sys2Proof.Machine.execCmpl l flit s
  | .nak l flit => Sys2Proof.Machine.execNak l flit s
  | .nullFlit l flit => Sys2Proof.Machine.execNullFlit l flit s
  | .nullTimer l => Sys2Proof.Machine.execNullTimer l s
  | .beacon l flit => Sys2Proof.Machine.execBeacon l flit s
  | .beaconTimer => Sys2Proof.Machine.execBeaconTimer s
  | .report l flit => Sys2Proof.Machine.execReport l flit s
  | .electQuiet => Sys2Proof.Machine.execElectQuiet s
  | .plan l flit => Sys2Proof.Machine.execPlan l flit s
  | .routes l flit => Sys2Proof.Machine.execRoutes l flit s
  | .routeAct => Sys2Proof.Machine.execRouteAct s
  | .syncFlit l flit => Sys2Proof.Machine.execSyncFlit l flit s
  | .syncTimer => Sys2Proof.Machine.execSyncTimer s
  | .heartbeat l flit => Sys2Proof.Machine.execHeartbeat l flit s
  | .heartbeatTimer => Sys2Proof.Machine.execHeartbeatTimer s
  | .linkEvent l flit => Sys2Proof.Machine.execLinkEvent l flit s
  | .lost l flit => Sys2Proof.Machine.execLost l flit s
  | .readyFlit l flit => Sys2Proof.Machine.execReadyFlit l flit s
  | .peerTimeout tid => Sys2Proof.Machine.execPeerTimeout tid s
  | .splitTimeout => Sys2Proof.Machine.execSplitTimeout s
  | .shadowOpen data => Sys2Proof.Machine.execShadowOpen data s
  | .shadowClose data => Sys2Proof.Machine.execShadowClose data s
  | .queueCreate req v => Sys2Proof.Machine.execQueueCreate req v s
  | .queueDestroy req v => Sys2Proof.Machine.execQueueDestroy req v s
  | .tailDoorbell fn n v whole => Sys2Proof.Machine.execTailDoorbell fn n v whole s
  | .cqHeadDoorbell fn n v whole => Sys2Proof.Machine.execCqHeadDoorbell fn n v whole s
  | .recordHeadDoorbell fn n v whole => Sys2Proof.Machine.execRecordHeadDoorbell fn n v whole s
  | .cmdFetch q => Sys2Proof.Machine.execCmdFetch q s
  | .copy q => Sys2Proof.Machine.execCopy q s
  | .send q => Sys2Proof.Machine.execSend q s
  | .mgmt q fetched => Sys2Proof.Machine.execMgmt q fetched s
  | .coalTimer record q => Sys2Proof.Machine.execCoalTimer record q s
  | .ethFrameRx port frame fcsOk mcast => Sys2Proof.Machine.execEthFrameRx port frame fcsOk mcast s
  | .netLink port isUp => Sys2Proof.Machine.execNetLink port isUp s
  | .vfFlr f => Sys2Proof.Machine.execVfFlr f s
  | .msixUnmask f vector => Sys2Proof.Machine.execMsixUnmask f vector s
  | .monitorSample temps volts => Sys2Proof.Machine.execMonitorSample temps volts s
  | .thermalTrip site t => Sys2Proof.Machine.execThermalTrip site t s
  | .thermalRecovery env => Sys2Proof.Machine.execThermalRecovery env s
  | .procSample counts => Sys2Proof.Machine.execProcSample counts s
  | .railWarn m mv => Sys2Proof.Machine.execRailWarn m mv s
  | .railFault m mv => Sys2Proof.Machine.execRailFault m mv s
  | .railFaultReset env => Sys2Proof.Machine.execRailFaultReset env s
  | .rootPllLoss => Sys2Proof.Machine.execRootPllLoss s
  | .pllLossReset env => Sys2Proof.Machine.execPllLossReset env s
  | .alive => Sys2Proof.Machine.execAlive s
  | .aliveMiss env => Sys2Proof.Machine.execAliveMiss env s
  | .fenceElement req v => Sys2Proof.Machine.execFenceElement req v s
  | .unfenceElement req v => Sys2Proof.Machine.execUnfenceElement req v s
  | .selfTestDone pass => Sys2Proof.Machine.execSelfTestDone pass s
  | .safeEnter req v => Sys2Proof.Machine.execSafeEnter req v s
  | .safeLeave req v => Sys2Proof.Machine.execSafeLeave req v s
  | .flogSelect v => Sys2Proof.Machine.execFlogSelect v s
  | .flogLoadDone => Sys2Proof.Machine.execFlogLoadDone s
  | .flogCommit fseq => Sys2Proof.Machine.execFlogCommit fseq s
  | .flogErase req v => Sys2Proof.Machine.execFlogErase req v s
  | .flogEraseDone => Sys2Proof.Machine.execFlogEraseDone s
  | .pinFuncWrite req n v => Sys2Proof.Machine.execPinFuncWrite req n v s
  | .pinHoldEnd n => Sys2Proof.Machine.execPinHoldEnd n s
  | .gpioSet v => Sys2Proof.Machine.execGpioSet v s
  | .gpioClr v => Sys2Proof.Machine.execGpioClr v s
  | .inputCross n active => Sys2Proof.Machine.execInputCross n active s
  | .alertSample => Sys2Proof.Machine.execAlertSample s
  | .alertModeWrite req v => Sys2Proof.Machine.execAlertModeWrite req v s
  | .overcurrent => Sys2Proof.Machine.execOvercurrent s
  | .tripRetry => Sys2Proof.Machine.execTripRetry s
  | .alertClear req v => Sys2Proof.Machine.execAlertClear req v s
  | .jtagReset => Sys2Proof.Machine.execJtagReset s
  | .jtagBypass => Sys2Proof.Machine.execJtagBypass s
  | .idcode => Sys2Proof.Machine.execIdcode s
  | .samplePreload d => Sys2Proof.Machine.execSamplePreload d s
  | .extest d => Sys2Proof.Machine.execExtest d s
  | .clamp => Sys2Proof.Machine.execClamp s
  | .highz => Sys2Proof.Machine.execHighz s
  | .calendarTick => Sys2Proof.Machine.execCalendarTick s
  | .invalidHeader p => Sys2Proof.Machine.execInvalidHeader p s
  | .trainingRetry l => Sys2Proof.Machine.execTrainingRetry l s
  | .bundleRetry fetched => Sys2Proof.Machine.execBundleRetry fetched s
  | .lostStreamSetup c => Sys2Proof.Machine.execLostStreamSetup c s
  | .presenceChange port present => Sys2Proof.Machine.execPresenceChange port present s
  | .configSpaceWrite f field n v => Sys2Proof.Machine.execConfigSpaceWrite f field n v s

end Sys2Proof.Machine
end

