-- ==== Sys2Proof/Machine/Step.lean ====
section
/-! DEFINITION. One step of the block: the command at the front of its queue, or a clock edge when none waits. -/
namespace Sys2Proof.Machine

/-- The state with the front command taken from the queue. -/
def State.rest (s : State) : State := { s with pending := s.pending.drop 1 }

/-- Take the command at the front and execute it with the rest of the queue; an empty queue lets one TCLK pass (R37; DESIGN
CHOICE, log entry 13). -/
def step (s : State) : Host.Outcome State Fault Refusal :=
  match s.pending with
  | [] => .next s.tclk
  | i :: _ => exec i s.rest

/-- The command that a word spells, put at the front of the queue. The table gives no row any bits, so no word spells one. -/
def State.withFetchWord (s : State) (nbits w : Nat) : State :=
  match Sys2Proof.decodeTableWord nbits w with
  | some i => { s with pending := i :: s.pending }
  | none => s

end Sys2Proof.Machine
end

