-- ==== Sys2Proof/Safety.lean ====
section
/-! DEFINITION. The terms in which claims about runs are stated: what it is for a field to be unchanged, which fields each command
may change, and the memory's canonical form. -/
namespace Sys2Proof.Machine

/-- Memory is in its canonical form: addresses strictly rising, and no entry equal to what an unlisted address reads as. -/
def Memory.wf (m : List Host.Cell) : Bool := Tab.wf (0 : Byte) m

/-- Field `f` holds in `t` what it holds in `s`. -/
def Fld.same (f : Fld) (s t : State) : Prop :=
  match f with
  | .free => t.free = s.free
  | .mem => t.mem = s.mem
  | .flash => t.flash = s.flash
  | .regs => t.regs = s.regs
  | .held => t.held = s.held
  | .wosDone => t.wosDone = s.wosDone
  | .shadow => t.shadow = s.shadow
  | .snapAt => t.snapAt = s.snapAt
  | .clk => t.clk = s.clk
  | .pairs => t.pairs = s.pairs
  | .flogRing => t.flogRing = s.flogRing
  | .flogFlash => t.flogFlash = s.flogFlash
  | .flogLast => t.flogLast = s.flogLast
  | .holding => t.holding = s.holding
  | .hevt => t.hevt = s.hevt
  | .fns => t.fns = s.fns
  | .numVfs => t.numVfs = s.numVfs
  | .vfEnable => t.vfEnable = s.vfEnable
  | .msix => t.msix = s.msix
  | .qs => t.qs = s.qs
  | .rqs => t.rqs = s.rqs
  | .profs => t.profs = s.profs
  | .items => t.items = s.items
  | .nextSeq => t.nextSeq = s.nextSeq
  | .dests => t.dests = s.dests
  | .egress => t.egress = s.egress
  | .rsn => t.rsn = s.rsn
  | .svc => t.svc = s.svc
  | .parts => t.parts = s.parts
  | .vis => t.vis = s.vis
  | .ue => t.ue = s.ue
  | .out => t.out = s.out
  | .ports => t.ports = s.ports
  | .ppActive => t.ppActive = s.ppActive
  | .tiles => t.tiles = s.tiles
  | .ctxs => t.ctxs = s.ctxs
  | .batches => t.batches = s.batches
  | .batchNo => t.batchNo = s.batchNo
  | .batchUid => t.batchUid = s.batchUid
  | .batchHeld => t.batchHeld = s.batchHeld
  | .arena => t.arena = s.arena
  | .handing => t.handing = s.handing
  | .rtcp => t.rtcp = s.rtcp
  | .ctxSnap => t.ctxSnap = s.ctxSnap
  | .vocs => t.vocs = s.vocs
  | .norms => t.norms = s.norms
  | .grms => t.grms = s.grms
  | .lexs => t.lexs = s.lexs
  | .gctxs => t.gctxs = s.gctxs
  | .gctxGen => t.gctxGen = s.gctxGen
  | .seqs => t.seqs = s.seqs
  | .seqGen => t.seqGen = s.seqGen
  | .aunits => t.aunits = s.aunits
  | .chans => t.chans = s.chans
  | .sc => t.sc = s.sc
  | .harts => t.harts = s.harts
  | .cores => t.cores = s.cores
  | .fwProg => t.fwProg = s.fwProg
  | .warden => t.warden = s.warden
  | .vsaved => t.vsaved = s.vsaved
  | .pcmd => t.pcmd = s.pcmd
  | .klinks => t.klinks = s.klinks
  | .kal => t.kal = s.kal
  | .health => t.health = s.health
  | .emg => t.emg = s.emg
  | .pins => t.pins = s.pins
  | .alert => t.alert = s.alert
  | .copyAt => t.copyAt = s.copyAt

/-- The fields of the state that a command may change. -/
def footprint : Instr → List Fld
  | .openItem _ =>
    [.free, .mem, .regs, .holding, .hevt, .msix, .qs, .items, .nextSeq, .egress, .ue, .out, .ports, .gctxs, .sc,
     .harts]
  | .setDeadline _ | .sealNow _ | .sealDeadline _ | .lateLimit _ | .detDone _ _ | .gctxClose _ | .grmCheck _ |
    .grmDone _ | .asmDone _ =>
    [.free, .mem, .regs, .holding, .hevt, .msix, .qs, .items, .egress, .ue, .out, .ports, .gctxs, .sc, .harts]
  | .setFallback _ =>
    [.mem, .regs, .holding, .hevt, .msix, .qs, .items, .ue, .out, .gctxs, .sc, .harts]
  | .milestonePass _ _ | .shadowOpen _ | .shadowClose _ =>
    [.regs, .holding, .hevt, .msix, .items, .out]
  | .urgencyChange _ | .batchWaitExpiry _ _ =>
    [.free, .mem, .regs, .holding, .hevt, .msix, .qs, .items, .egress, .ue, .out, .ports, .tiles, .batches, .batchNo,
     .batchHeld, .arena, .handing, .gctxs, .sc, .harts]
  | .recordEgress _ =>
    [.mem, .regs, .holding, .hevt, .msix, .rqs, .egress, .rsn, .ue, .out, .sc, .harts]
  | .profileCommit _ _ | .profileLoad _ _ =>
    [.regs, .flogRing, .flogLast, .holding, .hevt, .msix, .profs, .out]
  | .slewDue | .slewApply | .trimWrite _ | .calSet _ | .calCapture _ | .backupLost =>
    [.clk]
  | .tbLoRead _ | .calSecLoRead _ =>
    [.clk, .out]
  | .tbRateWrite _ | .tbSlewWrite _ =>
    [.regs, .clk]
  | .calendarSecond | .trimPeriod | .calSetTick | .captureTick | .calendarTick =>
    [.regs, .clk, .pairs, .holding, .hevt, .msix, .out]
  | .powerOn _ | .deviceReset _ _ _ | .hostLost _ | .registerWrite _ _ _ | .unmappedAccess _ _ _ _ | .hartStore _ |
    .vectorInstruction _ | .wr _ _ | .rdReq _ _ | .copy _ | .thermalRecovery _ | .railFaultReset _ | .pllLossReset _ |
    .aliveMiss _ =>
    Fld.all
  | .powerLoss =>
    [.mem, .regs, .held, .wosDone, .shadow, .snapAt, .clk, .pairs, .flogRing, .flogLast, .holding, .hevt, .fns,
     .numVfs, .vfEnable, .msix, .qs, .rqs, .profs, .items, .nextSeq, .dests, .egress, .rsn, .svc, .parts, .vis, .ue,
     .ports, .ppActive, .tiles, .ctxs, .batches, .batchNo, .batchUid, .batchHeld, .arena, .handing, .rtcp, .ctxSnap,
     .vocs, .norms, .grms, .lexs, .gctxs, .gctxGen, .seqs, .seqGen, .aunits, .chans, .sc, .harts, .cores, .fwProg,
     .warden, .vsaved, .pcmd, .klinks, .kal, .health, .emg, .pins, .alert, .copyAt]
  | .hostUp _ _ =>
    [.regs, .holding, .hevt, .fns, .msix, .out]
  | .wardenWatchdog =>
    [.regs, .flogRing, .holding, .hevt, .msix, .out, .warden]
  | .cfgProgram _ _ | .forceChrysalis _ _ =>
    [.flash, .regs, .flogRing, .flogLast, .holding, .hevt, .msix, .out, .emg]
  | .cfgProgramDone _ =>
    [.flash, .regs, .emg]
  | .lockWrite _ _ _ | .evtStsWrite _ _ _ | .evtEnWrite _ _ _ | .evtForce _ _ _ =>
    [.regs, .flogRing, .flogLast, .holding, .hevt, .msix, .out]
  | .holdoffExpiry _ | .evtChanCfgWrite _ | .regReply _ _ _ _ | .regTimeout _ | .postPort _ _ | .auSemPost _ _ |
    .netLink _ _ | .gpioSet _ | .gpioClr _ | .presenceChange _ _ =>
    [.regs, .holding, .hevt, .msix, .out]
  | .snapArm _ =>
    [.regs, .snapAt]
  | .snapTake =>
    [.regs, .held, .shadow, .snapAt, .holding, .hevt, .msix, .out, .ctxs, .ctxSnap]
  | .snapCancel _ =>
    [.regs, .held, .snapAt]
  | .portEnable _ _ _ | .portDisable _ _ _ =>
    [.free, .mem, .regs, .held, .wosDone, .flogRing, .flogLast, .holding, .hevt, .msix, .qs, .items, .egress, .ue,
     .out, .ports, .gctxs, .sc, .harts]
  | .portFmtWrite _ _ _ | .archLinesWrite _ _ _ =>
    [.regs, .held, .wosDone, .flogRing, .flogLast, .holding, .hevt, .msix, .out]
  | .laneLock _ _ | .laneLockLoss _ _ | .align _ _ | .applyTiming _ | .coefLoadDone _ | .steerPost _ _ =>
    [.regs, .holding, .hevt, .msix, .out, .ports]
  | .lineStart _ _ _ _ | .lineEnd _ _ _ | .lineClock _ =>
    [.free, .mem, .regs, .held, .holding, .hevt, .msix, .qs, .items, .nextSeq, .egress, .ue, .out, .ports, .gctxs,
     .sc, .harts]
  | .colourStart _ _ _ | .dataBlock _ _ _ | .strobeOn _ _ | .strobeOff _ _ | .stepRise _ | .stepFall _ =>
    [.ports]
  | .expOn _ _ | .expOff _ _ =>
    [.out]
  | .regWrite _ | .regRead _ =>
    [.free, .regs, .out, .ports]
  | .coefLoad _ =>
    [.free, .regs, .ports]
  | .swap _ _ _ | .calStart _ _ _ =>
    [.regs, .held, .wosDone, .flogRing, .flogLast, .holding, .hevt, .msix, .out, .ports]
  | .stripeLand _ =>
    [.mem, .ports, .harts]
  | .stripeHand _ =>
    [.free, .mem, .regs, .held, .holding, .hevt, .msix, .qs, .items, .egress, .ue, .out, .ports, .tiles, .gctxs, .sc,
     .harts]
  | .ctxCommit _ | .ctxLoad _ | .gapLoss _ | .streamLost _ | .pictureDecoded _ _ | .missEspot _ | .capturedEspot _ |
    .espotRetire _ | .frameDone _ =>
    [.free, .mem, .regs, .holding, .hevt, .msix, .qs, .items, .egress, .ue, .out, .ports, .ctxs, .gctxs, .sc, .harts]
  | .rtpPacket _ _ _ _ =>
    [.free, .mem, .regs, .holding, .hevt, .msix, .qs, .items, .egress, .ue, .out, .ports, .ctxs, .rtcp, .gctxs, .sc,
     .harts]
  | .decodeStart | .sampleProduced _ _ =>
    [.ctxs]
  | .createEspot _ =>
    [.free, .mem, .regs, .held, .holding, .hevt, .msix, .qs, .items, .nextSeq, .egress, .ue, .out, .ports, .ctxs,
     .gctxs, .sc, .harts]
  | .updateEspot _ | .reread _ =>
    [.mem, .regs, .holding, .hevt, .msix, .qs, .ue, .out, .ctxs, .gctxs, .sc, .harts]
  | .sampleRelease _ =>
    [.free, .mem, .regs, .holding, .hevt, .msix, .qs, .items, .egress, .ue, .out, .ports, .tiles, .ctxs, .batches,
     .batchNo, .batchUid, .batchHeld, .arena, .handing, .gctxs, .sc, .harts]
  | .cntCopied =>
    [.mem, .regs, .holding, .hevt, .msix, .ue, .out, .ctxSnap, .sc, .harts]
  | .tileNop _ | .seti _ | .addi _ | .bnz _ | .deq _ | .retire _ | .sync _ | .tileEnd _ | .matmul _ | .conv _ | .pwise
    _ | .tileNorm _ | .tileLoad _ | .tileStore _ | .hsend _ | .hrecv _ =>
    [.free, .mem, .regs, .flogRing, .flogLast, .holding, .hevt, .msix, .qs, .items, .egress, .parts, .vis, .ue, .out,
     .ports, .tiles, .batchHeld, .arena, .handing, .gctxs, .sc, .harts, .cores]
  | .instructionComplete _ _ =>
    [.free, .mem, .regs, .flogRing, .flogLast, .holding, .hevt, .msix, .items, .egress, .parts, .vis, .ue, .out,
     .tiles, .sc, .harts, .cores]
  | .queuePortWrite _ _ =>
    [.regs, .holding, .hevt, .msix, .items, .out, .tiles]
  | .tileStart _ _ | .tileStop _ _ | .codecClr _ _ | .yieldLimit _ | .adaptPass _ =>
    [.regs, .holding, .hevt, .msix, .parts, .out, .tiles]
  | .semPost _ _ =>
    [.regs, .flogRing, .holding, .hevt, .msix, .parts, .out, .tiles]
  | .seqOpen _ =>
    [.free, .mem, .regs, .holding, .hevt, .msix, .qs, .ue, .out, .gctxs, .seqs, .seqGen, .aunits, .sc, .harts]
  | .seqEnd _ | .stepOpen _ =>
    [.free, .mem, .regs, .holding, .hevt, .msix, .qs, .items, .egress, .ue, .out, .ports, .gctxs, .seqs, .aunits, .sc,
     .harts]
  | .pfxAcquire _ =>
    [.free, .mem, .regs, .holding, .hevt, .msix, .qs, .ue, .out, .gctxs, .aunits, .sc, .harts]
  | .pfxRelease _ =>
    [.mem, .regs, .holding, .hevt, .msix, .qs, .ue, .out, .gctxs, .aunits, .sc, .harts]
  | .attend _ | .verify _ =>
    [.free, .mem, .regs, .flogRing, .holding, .hevt, .msix, .qs, .items, .egress, .parts, .ue, .out, .ports, .tiles,
     .gctxs, .seqs, .aunits, .sc, .harts]
  | .auEnable _ _ _ | .auDisable _ _ _ =>
    [.free, .mem, .regs, .held, .wosDone, .flogRing, .flogLast, .holding, .hevt, .msix, .qs, .items, .egress, .ue,
     .out, .ports, .gctxs, .seqs, .aunits, .sc, .harts]
  | .vocLoad _ | .vocUnload _ =>
    [.mem, .regs, .holding, .hevt, .msix, .qs, .ue, .out, .vocs, .gctxs, .sc, .harts]
  | .normLoad _ | .normUnload _ =>
    [.mem, .regs, .holding, .hevt, .msix, .qs, .ue, .out, .norms, .gctxs, .sc, .harts]
  | .grmLoad _ | .grmUnload _ =>
    [.mem, .regs, .holding, .hevt, .msix, .qs, .ue, .out, .grms, .gctxs, .sc, .harts]
  | .lexRegister _ | .lexUnregister _ =>
    [.mem, .regs, .holding, .hevt, .msix, .qs, .ue, .out, .lexs, .gctxs, .sc, .harts]
  | .tokenize _ | .advance _ | .grmMask _ | .cmdFetch _ =>
    [.mem, .regs, .holding, .hevt, .msix, .qs, .ue, .out, .gctxs, .sc, .harts]
  | .gctxOpen _ =>
    [.free, .mem, .regs, .holding, .hevt, .msix, .qs, .ue, .out, .gctxs, .gctxGen, .sc, .harts]
  | .draft _ =>
    [.mem, .regs, .holding, .hevt, .msix, .out, .gctxs, .harts]
  | .tguEnable _ | .tguDisable _ | .invalidHeader _ =>
    [.regs]
  | .hartInstruction _ | .hartLoad _ | .amo _ | .lr _ | .sc _ | .fence _ | .fenceI _ | .xfence _ | .xpark _ | .wrs _ |
    .urgWrite _ | .peerrWrite _ | .mevtqRead _ | .satpWrite _ | .vsWrite _ =>
    [.free, .mem, .regs, .clk, .flogRing, .flogLast, .holding, .hevt, .msix, .qs, .items, .egress, .parts, .vis, .ue,
     .out, .ports, .tiles, .batchHeld, .arena, .handing, .gctxs, .sc, .harts, .cores, .klinks, .kal]
  | .wrsStoTimeout _ | .mtimer _ | .ipi _ =>
    [.harts]
  | .coreLaunch _ _ _ =>
    [.regs, .holding, .hevt, .msix, .out, .harts, .cores]
  | .fwReady _ _ =>
    [.free, .mem, .regs, .held, .wosDone, .flogRing, .flogLast, .holding, .hevt, .msix, .qs, .items, .egress, .ue,
     .out, .ports, .gctxs, .seqs, .aunits, .sc, .harts, .klinks, .kal, .health, .emg, .pins]
  | .fwReadyTimeout =>
    [.free, .mem, .regs, .held, .wosDone, .flogRing, .flogLast, .holding, .hevt, .msix, .qs, .items, .egress, .ue,
     .out, .ports, .gctxs, .seqs, .aunits, .sc, .harts, .cores, .klinks, .kal, .emg, .pins]
  | .fwBoot _ _ =>
    [.mem, .regs, .flogRing, .flogLast, .holding, .hevt, .msix, .ue, .out, .sc, .harts]
  | .fwProgram _ _ =>
    [.flash, .regs, .flogRing, .flogLast, .holding, .hevt, .msix, .out, .fwProg]
  | .fwProgramDone _ =>
    [.flash, .regs, .holding, .hevt, .msix, .out, .fwProg]
  | .wardenBridgeTimeout _ _ =>
    [.regs, .flogRing, .holding, .hevt, .msix, .out]
  | .recordCommit _ =>
    [.regs, .holding, .hevt, .msix, .items, .egress, .out]
  | .destLoad _ =>
    [.regs, .holding, .hevt, .msix, .dests, .out]
  | .serviceStart _ | .bundleRetry _ =>
    [.free, .mem, .regs, .held, .wosDone, .flogRing, .flogLast, .holding, .hevt, .msix, .qs, .items, .dests, .egress,
     .svc, .ue, .out, .ports, .gctxs, .sc, .harts]
  | .statusRecord =>
    [.egress, .svc]
  | .mgmtRequest _ _ _ | .mgmt _ _ =>
    [.free, .mem, .flash, .regs, .held, .wosDone, .flogRing, .flogLast, .holding, .hevt, .msix, .qs, .items, .dests,
     .egress, .svc, .ue, .out, .ports, .gctxs, .sc, .harts]
  | .commonsAccess _ _ _ _ _ _ =>
    [.mem, .regs, .flogRing, .holding, .hevt, .msix, .ue, .out, .harts]
  | .mcAccept _ _ _ _ _ _ _ =>
    [.mem, .regs, .ue, .chans, .sc, .harts]
  | .mcIssue _ _ | .retrainPause _ =>
    [.regs, .holding, .hevt, .msix, .out, .chans]
  | .mcReadReturn _ _ _ | .writeParityReport _ _ _ _ _ | .caParity _ | .retrainPauseEnd _ _ | .scrub _ _ _ =>
    [.mem, .regs, .flogRing, .holding, .hevt, .msix, .out, .chans, .sc, .harts]
  | .refresh _ _ | .rowIdleClose _ _ | .rhWindow _ =>
    [.chans]
  | .hbmTempRead _ _ | .retrainDue _ =>
    [.regs, .chans]
  | .chRelease _ _ _ | .chReleaseClear _ _ _ =>
    [.regs, .flogRing, .flogLast, .holding, .hevt, .msix, .out, .chans]
  | .chReleaseDone _ _ =>
    [.mem, .regs, .flogRing, .holding, .hevt, .msix, .ue, .out, .chans]
  | .pcmdCreate _ _ | .pcmdDestroy _ _ | .pcmdReset _ _ =>
    [.free, .mem, .regs, .held, .flogRing, .flogLast, .holding, .hevt, .msix, .qs, .items, .egress, .parts, .vis, .ue,
     .out, .ports, .tiles, .gctxs, .seqs, .aunits, .sc, .harts, .cores, .vsaved, .pcmd]
  | .pcmdDone =>
    [.free, .mem, .regs, .held, .holding, .hevt, .msix, .qs, .items, .egress, .parts, .vis, .ue, .out, .ports, .tiles,
     .gctxs, .seqs, .aunits, .sc, .harts, .vsaved, .pcmd]
  | .tilePlacement _ _ _ =>
    [.regs, .holding, .hevt, .msix, .items, .vis, .out, .tiles]
  | .partitionLaunch _ _ _ _ =>
    [.regs, .holding, .hevt, .msix, .parts, .out, .harts, .cores]
  | .quantumExpiry _ =>
    [.regs, .held, .holding, .hevt, .msix, .parts, .out, .tiles]
  | .drainLimit _ =>
    [.free, .mem, .regs, .holding, .hevt, .msix, .qs, .items, .egress, .parts, .ue, .out, .ports, .tiles, .gctxs,
     .seqs, .aunits, .sc, .harts]
  | .transferDone _ =>
    [.free, .mem, .regs, .held, .holding, .hevt, .msix, .qs, .items, .egress, .parts, .vis, .ue, .out, .ports, .tiles,
     .batchHeld, .arena, .handing, .gctxs, .seqs, .aunits, .sc, .harts, .vsaved]
  | .adaptRelease _ _ =>
    [.free, .mem, .regs, .held, .holding, .hevt, .msix, .qs, .items, .egress, .parts, .vis, .ue, .out, .ports, .tiles,
     .batchHeld, .arena, .handing, .gctxs, .sc, .harts]
  | .viStart _ =>
    [.vis]
  | .viStartCheck _ _ =>
    [.regs, .held, .holding, .hevt, .msix, .parts, .vis, .out, .tiles, .vsaved]
  | .viReset _ _ _ =>
    [.free, .mem, .regs, .held, .flogRing, .flogLast, .holding, .hevt, .msix, .qs, .items, .egress, .parts, .vis, .ue,
     .out, .ports, .tiles, .gctxs, .seqs, .aunits, .sc, .harts, .cores, .vsaved]
  | .resetCutoff _ _ =>
    [.qs]
  | .viResetDone _ _ =>
    [.regs, .held, .holding, .hevt, .msix, .qs, .parts, .vis, .out, .tiles, .vsaved]
  | .klEnable _ _ | .klDisable _ _ =>
    [.regs, .held, .wosDone, .flogRing, .flogLast, .holding, .hevt, .msix, .out, .harts, .klinks, .kal]
  | .linkEnable _ _ _ | .linkDisable _ _ _ =>
    [.regs, .held, .wosDone, .flogRing, .flogLast, .holding, .hevt, .msix, .out, .klinks, .kal]
  | .linkTrained _ | .electQuiet | .plan _ _ | .readyFlit _ _ | .splitTimeout =>
    [.regs, .holding, .hevt, .msix, .out, .klinks, .kal]
  | .linkTrainTimeout _ | .linkFail _ _ =>
    [.regs, .flogRing, .holding, .hevt, .msix, .out, .klinks, .kal]
  | .badFlit _ _ | .nak _ _ | .nullFlit _ _ | .nullTimer _ =>
    [.regs, .out, .klinks]
  | .rdRsp _ _ | .cmpl _ _ =>
    [.regs, .holding, .hevt, .msix, .out, .harts, .klinks, .kal]
  | .beacon _ _ | .beaconTimer | .report _ _ | .routes _ _ | .syncTimer | .heartbeatTimer =>
    [.regs, .out, .klinks, .kal]
  | .routeAct =>
    [.kal]
  | .syncFlit _ _ =>
    [.free, .regs, .clk, .holding, .hevt, .msix, .out, .klinks, .kal]
  | .heartbeat _ _ | .linkEvent _ _ | .lost _ _ =>
    [.regs, .flogRing, .holding, .hevt, .msix, .items, .out, .harts, .klinks, .kal]
  | .peerTimeout _ =>
    [.regs, .holding, .hevt, .msix, .out, .harts, .kal]
  | .queueCreate _ _ | .queueDestroy _ _ =>
    [.regs, .flogRing, .flogLast, .holding, .hevt, .msix, .qs, .rqs, .out, .gctxs]
  | .tailDoorbell _ _ _ _ =>
    [.mem, .regs, .holding, .hevt, .msix, .qs, .ue, .out, .sc, .harts]
  | .cqHeadDoorbell _ _ _ _ =>
    [.regs, .qs]
  | .recordHeadDoorbell _ _ _ _ =>
    [.regs, .rqs]
  | .send _ =>
    [.free, .mem, .regs, .holding, .hevt, .msix, .qs, .ue, .out, .gctxs, .sc, .harts]
  | .coalTimer _ _ =>
    [.regs, .holding, .hevt, .msix, .qs, .rqs, .out]
  | .ethFrameRx _ _ _ _ =>
    [.free, .mem, .regs, .holding, .hevt, .msix, .qs, .rqs, .items, .egress, .ue, .out, .ports, .ctxs, .rtcp, .gctxs,
     .sc, .harts]
  | .vfFlr _ =>
    [.free, .mem, .regs, .held, .holding, .hevt, .fns, .msix, .qs, .rqs, .items, .egress, .parts, .vis, .ue, .out,
     .ports, .tiles, .gctxs, .seqs, .aunits, .sc, .harts, .cores, .vsaved]
  | .msixUnmask _ _ =>
    [.fns, .msix, .out]
  | .monitorSample _ _ | .thermalTrip _ _ | .railFault _ _ | .rootPllLoss =>
    [.regs, .clk, .flogRing, .flogFlash, .holding, .hevt, .msix, .items, .out, .health, .emg]
  | .procSample _ | .railWarn _ _ =>
    [.regs, .flogRing, .holding, .hevt, .msix, .out, .health]
  | .alive | .flogSelect _ | .flogLoadDone =>
    [.regs, .health]
  | .fenceElement _ _ | .unfenceElement _ _ =>
    [.free, .mem, .regs, .flogRing, .flogLast, .holding, .hevt, .msix, .qs, .items, .egress, .ue, .out, .ports,
     .tiles, .gctxs, .seqs, .aunits, .sc, .harts, .cores, .health]
  | .selfTestDone _ =>
    [.mem, .regs, .flogRing, .holding, .hevt, .msix, .out, .tiles, .harts, .health]
  | .safeEnter _ _ | .safeLeave _ _ =>
    [.regs, .flogRing, .flogLast, .holding, .hevt, .msix, .out, .pins]
  | .flogCommit _ =>
    [.flogRing, .flogFlash]
  | .flogErase _ _ =>
    [.regs, .flogRing, .flogLast, .holding, .hevt, .msix, .out, .health]
  | .flogEraseDone =>
    [.regs, .flogFlash, .health]
  | .pinFuncWrite _ _ _ =>
    [.regs, .held, .wosDone, .flogRing, .flogLast, .holding, .hevt, .msix, .out, .pins]
  | .pinHoldEnd _ | .jtagReset | .jtagBypass | .idcode | .samplePreload _ | .extest _ | .clamp | .highz =>
    [.regs, .holding, .hevt, .msix, .out, .pins]
  | .inputCross _ _ =>
    [.regs, .holding, .hevt, .msix, .out, .ppActive]
  | .alertSample =>
    [.free, .regs, .holding, .hevt, .msix, .out, .alert]
  | .alertModeWrite _ _ =>
    [.regs, .held, .wosDone, .flogRing, .flogLast, .holding, .hevt, .msix, .out, .alert]
  | .overcurrent =>
    [.regs, .holding, .hevt, .msix, .out, .alert]
  | .tripRetry =>
    [.regs, .alert]
  | .alertClear _ _ =>
    [.regs, .flogRing, .flogLast, .holding, .hevt, .msix, .out, .alert]
  | .trainingRetry _ =>
    [.regs, .klinks]
  | .lostStreamSetup _ =>
    [.svc]
  | .configSpaceWrite _ _ _ _ =>
    [.free, .mem, .regs, .held, .holding, .hevt, .fns, .numVfs, .vfEnable, .msix, .qs, .rqs, .items, .egress, .parts,
     .vis, .ue, .out, .ports, .tiles, .gctxs, .seqs, .aunits, .sc, .harts, .cores, .vsaved]

/-- The sequencer of tile t has come to the instruction `b` with opcode `op` and can take it: the tile is in RUN, no STOP is under way,
the slot lies in the tile store with no uncorrectable error, its header's reserved bits are zero, and no YIELD mark is due (R148 to R152,
R173). -/
def State.tileAt (s : State) (t op : Nat) (b : Bytes) : Prop :=
  s.tileState t = 1 ∧ s.tileFenced t = false ∧ (s.tile t).stopping = false ∧ s.tpc t + 64 ≤ 0xE0000 ∧
  s.ue.any (fun l => l == (tileWin t + s.tpc t) / 64) = false ∧ b = s.tld t (s.tpc t) 64 ∧ byteAt b 0 = op ∧ headerOk b = true ∧
  ¬ ((s.tile t).yieldReq = true ∧ byteAt b 1 % 2 = 1)

/-- The instruction neither waits on a semaphore nor posts one, and does not ask for SIGNAL. -/
def plainHeader (b : Bytes) : Prop := byteAt b 2 < 128 ∧ byteAt b 3 < 128 ∧ byteAt b 1 / 2 % 2 = 0

/-- No partition waits for this tile to stop (R355). -/
def State.noYield (s : State) (t : Nat) : Prop := ∀ p, s.tileOwner t = some p → (s.part p).phase ≠ .yield

/-- A unit of tile t has room for an instruction and no older one of it waits to run (R148). -/
def State.unitFree (s : State) (t : Nat) (u : TUnit) : Prop :=
  ((s.tile t).pend.filter (fun p => p.unit == u)).length < 5 ∧ (s.tile t).pend.any (fun p => p.unit == u && !p.ran) = false

/-- Queue `q` executes the command `d` with opcode `op` on attention unit `u`, which is enabled, not fenced and serves it (R223, R227,
R356, R419). -/
def State.auTakes (s : State) (q op u : Nat) (d : BitVec 512) : Prop :=
  s.executing q op = some d ∧ s.tagFenced (s.queue q) = false ∧ (s.queue q).target - 8 = u ∧ s.auServes (s.queue q) op = true ∧
  s.flag (Reg.AU_CTL u) 0 = true ∧ s.flag (auPage u + 0xC) 30 = false

/-- Every byte outside the completion queue and the write-back block of queue `q` holds in `t` what it holds in `v`. -/
def Queue.rest (q : Queue) (v t : State) : Prop :=
  ∀ x, (x < q.cq ∨ q.cq + 64 * 2 ^ q.logM ≤ x) → (x < q.wb ∨ q.wb + 64 ≤ x) → t.byte x = v.byte x

/-- Queue `q`, which runs or is in error, executes the command `d` with opcode `op`, and the TGU is enabled (R254). -/
def State.tguTakes (s : State) (q op : Nat) (d : BitVec 512) : Prop :=
  s.executing q op = some d ∧ s.tagFenced (s.queue q) = false ∧ s.flag Reg.TGU_CTL 0 = true ∧
  ((s.queue q).state = .run ∨ (s.queue q).state = .error)

/-- The item of a context, if it is there, still waits for its result stage. -/
def State.resultOpen (s : State) (id : Nat) : Prop := ∀ it, s.item id = some it → it.done.getLsbD 4 = false

/-- An intact flit of type `t`, the next in order, arrives on link l, which is UP (R368, R372). -/
def State.flitArrives (s : State) (l t : Nat) (b : Bytes) : Prop :=
  s.linkUp l = true ∧ flitGood b = true ∧ s.flitInOrder l b = true ∧ flitType b = t

/-- A management flit of kind `k` arrives so (R370). -/
def State.mgmtArrives (s : State) (l k : Nat) (b : Bytes) : Prop := s.flitArrives l 4 b ∧ mKind b = k

/-- A flooded flit of kind `k` arrives that this module has not seen before (R370). -/
def State.floodArrives (s : State) (l k : Nat) (b : Bytes) : Prop := s.mgmtArrives l k b ∧ s.kal.seen.contains (mKey b) = false

/-- Link l is UP with nothing waiting, a credit of virtual channel `vc` and room to keep a flit until it is acknowledged (R371, R372). -/
def State.canSend (s : State) (l vc : Nat) : Prop :=
  s.linkUp l = true ∧ (s.klink l).waits = [] ∧ 0 < ((s.klink l).credits.drop vc).headD 0 ∧ (s.klink l).replay.length < 256

/-- A flit carries a management message of kind `k` with content `c` (R370). -/
def Flit.mgmt (f : Flit) (k : Nat) (c : Bytes) : Prop :=
  f.vc = 2 ∧ f.type = 4 ∧ byteAt f.payload 0 = k ∧ (f.payload.drop 16).take c.length = c

/-- Between `s` and `t`, link l has sent one management flit of kind `k` with content `c`, and keeps it until an ACK covers it. -/
def State.sentMgmt (s t : State) (l k : Nat) (c : Bytes) : Prop :=
  ∃ f : Flit, (t.klink l).replay = (s.klink l).replay ++ [f] ∧ f.mgmt k c

/-- Link l has sent, or waits to send, a management flit of kind `k` with content `c`. -/
def State.holdsMgmt (t : State) (l k : Nat) (c : Bytes) : Prop :=
  ∃ f : Flit, f ∈ (t.klink l).replay ++ (t.klink l).waits ∧ f.mgmt k c

/-- The offset to the coordinator that the end of a SYNC exchange with content `c` on link l gives (R383). -/
def State.syncOffset (s : State) (l : Nat) (c : Bytes) : Int :=
  (((leAt c 8 8 : Int) - leAt c 0 8) - ((leAt c 24 8 : Int) - leAt c 16 8)).tdiv 2 - signed 8 (s.fld (Reg.LINK_CTL l) 15 8) + signed 64 (leAt c 32 8)

/-- Hart h issues now and takes no interrupt, and the fetch at its pc gives the n-byte instruction `insn` and leaves the state `t`
(R255, R263). -/
def State.hartAt (s : State) (h insn n : Nat) (t : State) : Prop := (s.woken h).issue h = .fetch (.ok (insn, n) t)

/-- From `t` to `u` hart h has retired an instruction that writes `v` to rd: its pc is `nx`, and its other integer registers, its
floating-point registers, its mode and its CSRs but minstret are as they were. Register 0 reads zero and takes nothing. -/
def State.retires (t u : State) (h : Nat) (nx : DWord) (rd : Nat) (v : DWord) : Prop :=
  (u.hart h).pc = nx ∧ u.rx h rd = (if rd = 0 then 0 else v) ∧ (∀ r, r < 32 → r ≠ rd → u.rx h r = t.rx h r) ∧
  (u.hart h).f = (t.hart h).f ∧ (u.hart h).mode = (t.hart h).mode ∧ ∀ k, k ≠ 0xB02 → (u.hart h).cs k = (t.hart h).cs k

/-- A trap of a hart goes to machine mode: it runs there, or the cause is not delegated. -/
def Hart.trapsToM (x : Hart) (cause : Nat) (irq : Bool) : Prop := x.mode = .m ∨ bit (x.cs (if irq then 0x303 else 0x302)) cause = false

/-- From `t` to `u` hart h has taken the trap `cause` into machine mode: mepc, mcause, mtval and the mstatus fields are saved, the pc is
at mtvec, vectored for an interrupt, and nothing else of the hart has changed. -/
def State.tookTrap (t u : State) (h cause tval : Nat) (irq : Bool) : Prop :=
  let x := t.hart h
  let y := u.hart h
  y.mode = .m ∧ y.pc = BitVec.ofNat 64 ((x.cs 0x305).toNat / 4 * 4 + (if irq && bit (x.cs 0x305) 0 then 4 * cause else 0)) ∧
  y.cs 0x341 = x.pc ∧ y.cs 0x342 = BitVec.ofNat 64 (cause + (if irq then 2 ^ 63 else 0)) ∧
  y.cs 0x343 = (if Config.tvalShown cause then BitVec.ofNat 64 tval else 0) ∧
  y.csf 0x300 7 7 = x.csf 0x300 3 3 ∧ y.csf 0x300 3 3 = 0 ∧ y.csf 0x300 12 11 = x.mode.num ∧ y.x = x.x ∧ y.f = x.f ∧
  ∀ k, k ∉ [0x300, 0x341, 0x342, 0x343] → y.cs k = x.cs k

/-- Bytes a to a + n − 1 of `u` hold the number `v`, and every other byte is as in `t`. -/
def State.storedNat (t u : State) (a n v : Nat) : Prop :=
  leNat (u.ld a n) = v ∧ ∀ x, (x < a ∨ a + n ≤ x) → u.byte x = t.byte x

end Sys2Proof.Machine
end

