-- ==== Sys2Proof/Certificates/Slice0/Obligations.lean ====
section
/-! DEFINITION. The statements for the provers, written from the spec's numbered rules. Each says, for the commands it names, that `exec`
answers a next state and what that state holds. -/
section
open Sys2Proof Sys2Proof.Machine


/-- For every command c and state s: a step of s with c put at the front of its queue answers what exec of c answers on s itself, whose queue is the rest. (spec/95_what_each_step_holds.md) -/
def Obligations.StepRunsFrontCommand : Prop :=
  ∀ (c : Instr) (s : State), step { s with pending := c :: s.pending } = exec c s

/-- For every state with an empty queue: a step answers a next state in which, while TCLK runs, the timebase has advanced by 0, 1 or 2 and, with no rate and no slew set, by 1 with the fraction as before; while TCLK does not run nothing changes at all. That such a step is one TCLK is the model's choice (log entry 13). (R36, R38) -/
def Obligations.EmptyQueueLetsOneClockPass : Prop :=
  ∀ s : State, s.pending = [] →
    ∃ t, step s = .next t ∧
      (s.clk.running = false → t = s) ∧
      (s.clk.running = true →
        (t.clk.tb = s.clk.tb ∨ t.clk.tb = s.clk.tb + 1 ∨ t.clk.tb = s.clk.tb + 2) ∧
        (s.clk.rate = 0 → s.clk.slew = 0 → s.clk.owed = false → t.clk.tb = s.clk.tb + 1 ∧ t.clk.frac = s.clk.frac)) ∧
      (∀ f : Fld, f ≠ .clk → f.same s t) ∧ t.pending = []

/-- For every command and state exec answers a next state, and the queue of waiting commands is as before. (spec/95_what_each_step_holds.md) -/
def Obligations.EveryCommandAnswersAndKeepsQueue : Prop :=
  ∀ (c : Instr) (s : State), ∃ t, exec c s = .next t ∧ t.pending = s.pending

/-- For every command, state and field of the state: when exec answers a next state and the field is not in the command's footprint, the field holds afterwards what it held before. The footprints are written out per command in Safety; for example no row of the calendar or the timebase changes memory, tiles, partitions, queues or links. (spec/95_what_each_step_holds.md, spec/19_address_map.md) -/
def Obligations.CommandsKeepFieldsOutsideTheirFootprint : Prop :=
  ∀ (c : Instr) (s t : State) (f : Fld), exec c s = .next t → f ∉ footprint c → f.same s t

/-- For every state whose memory has strictly rising addresses and lists no byte that reads as an unlisted one, every step answers a next state whose memory has that form too, so that equal memories are equal data throughout every run. (R446, R447) -/
def Obligations.MemoryStaysCanonical : Prop :=
  ∀ s : State, Memory.wf s.mem = true → ∃ t, step s = .next t ∧ Memory.wf t.mem = true

/-- At reset memory lists nothing and has its canonical form, the queue is empty, the timebase is 0 and does not run, READY is 0, and no item, tile state, command queue or link is open. (R446, R46, R36) -/
def Obligations.ResetMemoryIsCanonicalAndEmpty : Prop :=
  Memory.wf State.reset.mem = true ∧ State.reset.pending = [] ∧ State.reset.clk.tb = 0 ∧ State.reset.clk.running = false ∧
  State.reset.ready = false ∧ State.reset.items = [] ∧ (∀ q, (State.reset.queue q).state = .off)

/-- Executed by their queue with a well-formed descriptor, on an item of the queue's owner that is open and not sealed: OPEN (READY, fewer than 65,536 items, a seal instant still to come) takes the source's next item ID, opens an item with the anchor and profile of the command whose capture is done, and moves the source's sequence on; SET_DEADLINE gives the item the new deadline, with its seal instant SEAL_LEAD before it and its anchor kept, if that instant is still to come; SEAL_NOW seals it with cause COMMAND, keeping the entry under LATE_MODE ONE and freeing it under NONE; SET_FALLBACK replaces its fallback decision and nothing else of it. (R11, R12, R14, R31, R32, R16, R24, R28, R30) -/
def Obligations.DeadlineCommandsActOnItems : Prop :=
  (∀ (q : Fin 2048) (s : State) (d : BitVec 512), s.executing q 4 = some d → s.tagFenced (s.queue q) = false →
    zeroAt (cmdBytes d) 18 2 = true → zeroAt (cmdBytes d) 24 8 = true → zeroAt (cmdBytes d) 10 6 = true →
    byteAt (cmdBytes d) 9 ≤ 63 → s.ready = true → s.items.length < 65536 →
    let source := 0x800 + byteAt (cmdBytes d) 8
    let id := s.fld Reg.KL_STS 15 8 * 2 ^ 56 + source * 2 ^ 44 + s.nextSeq.get 0 source
    let prof := byteAt (cmdBytes d) 9
    (s.now : Int) < (newItem (leAt (cmdBytes d) 0 8) prof (s.profs.get {} prof) s.lead (s.profMask prof) (s.queue q).ownerOf).sealAt →
    ∃ t, exec (.openItem q) s = .next t ∧ t.nextSeq.get 0 source = (s.nextSeq.get 0 source + 1) % 2 ^ 44 ∧
      ∃ it, t.item id = some it ∧ it.anchor = leAt (cmdBytes d) 0 8 ∧ it.prof = prof ∧ it.done = 1 ∧ it.sealInfo = none) ∧
  (∀ (q : Fin 2048) (s : State) (d : BitVec 512) (it : Item), s.executing q 1 = some d → s.tagFenced (s.queue q) = false →
    reservedOk (cmdBytes d) = true → s.item (leAt (cmdBytes d) 0 8) = some it → s.owns (s.queue q) it.part = true →
    it.sealInfo = none → (s.now : Int) < (leAt (cmdBytes d) 8 8 : Int) - it.lead * 1000 →
    ∃ t, exec (.setDeadline q) s = .next t ∧
      ∃ u, t.item (leAt (cmdBytes d) 0 8) = some u ∧ u.hasDl = true ∧ u.deadline = leAt (cmdBytes d) 8 8 ∧
        u.sealAt = (leAt (cmdBytes d) 8 8 : Int) - it.lead * 1000 ∧ u.anchor = it.anchor ∧ u.ovr = it.ovr ∧ u.sealInfo = none) ∧
  (∀ (q : Fin 2048) (s : State) (d : BitVec 512) (it : Item), s.executing q 2 = some d → s.tagFenced (s.queue q) = false →
    reservedOk (cmdBytes d) = true → zeroAt (cmdBytes d) 8 8 = true → s.item (leAt (cmdBytes d) 0 8) = some it →
    s.owns (s.queue q) it.part = true → it.sealInfo = none → it.shadow = none →
    ∃ t, exec (.sealNow q) s = .next t ∧
      (it.pv.lateMode = 0 → t.item (leAt (cmdBytes d) 0 8) = none) ∧
      (it.pv.lateMode = 1 → ∃ u x, t.item (leAt (cmdBytes d) 0 8) = some u ∧ u.sealInfo = some x ∧ x.cause = .command ∧
        x.stamp = s.now ∧ x.decision = it.decision.getD it.fallback)) ∧
  (∀ (q : Fin 2048) (s : State) (d : BitVec 512) (it : Item), s.executing q 3 = some d → s.tagFenced (s.queue q) = false →
    reservedOk (cmdBytes d) = true → zeroAt (cmdBytes d) 10 6 = true → s.item (leAt (cmdBytes d) 0 8) = some it →
    s.owns (s.queue q) it.part = true → it.sealInfo = none →
    ∃ t, exec (.setFallback q) s = .next t ∧
      t.item (leAt (cmdBytes d) 0 8) = some { it with fallback := leAt (cmdBytes d) 8 2 })

/-- For an item that is open: a milestone that has passed with its stage not done sets that stage's overrun bit and no other; a seal instant that is reached seals it with cause DEADLINE, keeping the entry under LATE_MODE ONE and freeing it under NONE; the late limit of a sealed item frees its entry; a change of urgency stores the urgency of R21; and the record that leaves next on a destination is taken off its waiting records while the destination's record number moves on. (R20, R21, R23, R29, R28, R24, R299, R297) -/
def Obligations.TimeActsOnItemsAndRecords : Prop :=
  (∀ (id : DWord) (k : Fin 5) (s : State) (it : Item), s.item id.toNat = some it → it.sealInfo = none → it.shadow = none →
    it.hasDl = true → (k : Nat) < 4 → it.done.getLsbD k = false → it.ovr.getLsbD k = false → it.milestone k ≤ (s.now : Int) →
    ∃ t, exec (.milestonePass id k) s = .next t ∧ ∃ u, t.item id.toNat = some u ∧ u.ovr = it.ovr ||| BitVec.ofNat 5 (2 ^ (k : Nat)) ∧
      u.done = it.done ∧ u.deadline = it.deadline ∧ u.sealInfo = none) ∧
  (∀ (id : DWord) (s : State) (it : Item), s.item id.toNat = some it → it.sealInfo = none → it.shadow = none →
    it.sealAt ≤ (s.now : Int) →
    ∃ t, exec (.sealDeadline id) s = .next t ∧ (it.pv.lateMode = 0 → t.item id.toNat = none) ∧
      (it.pv.lateMode = 1 → ∃ u x, t.item id.toNat = some u ∧ u.sealInfo = some x ∧ x.cause = .deadline ∧ x.stamp = it.sealAt ∧
        x.decision = it.decision.getD it.fallback)) ∧
  (∀ (id : DWord) (s : State) (it : Item), s.item id.toNat = some it → it.sealInfo.isSome = true → it.shadow = none →
    it.lateLimit ≤ (s.now : Int) → ∃ t, exec (.lateLimit id) s = .next t ∧ t.item id.toNat = none) ∧
  (∀ (id : DWord) (s : State) (it : Item), s.item id.toNat = some it →
    (∀ k b, (k, some b) ∈ s.batches → (s.urgencyChange id.toNat).batchUrgent b = false) →
    ∃ t, exec (.urgencyChange id) s = .next t ∧ t.item id.toNat = some { it with urg := it.urgency s.now }) ∧
  (∀ (d : Fin 8) (s : State) (r : OutRec), nextRec (s.egress.get [] d) = some r →
    ∃ t, exec (.recordEgress d) s = .next t ∧ t.egress.get [] d = (s.egress.get [] d).erase r ∧
      t.rsn.get 0 d = (s.rsn.get 0 d + 1) % 2 ^ 64)

/-- Whatever source opens an item under a profile whose SPEED is not 0 (one without SPEED has no deadline), and whether the item stays open or is sealed at once, the entry that stands under its ID holds the deadline that the profile's committed values give from its anchor, in exact arithmetic: anchor + (dist * 100000000) div speed - margin_us * 1000. The OPEN command with room for the item and a seal instant still to come opens such an entry with the anchor of its descriptor. (R13) -/
def Obligations.DeadlineOfAnOpenedItem : Prop :=
  (∀ (s : State) (source : Nat) (anchor : Int) (prof : Nat) (owner : Nat × Nat) (it : Item), s.items.length < 65536 →
    (s.profs.get {} prof).speed ≠ 0 →
    (s.openItem source anchor prof owner).2.2.item (s.openItem source anchor prof owner).1 = some it → it.hasDl = true ∧
      it.deadline = anchor + ((s.profs.get {} prof).dist * 100000000 / (s.profs.get {} prof).speed : Nat) - (s.profs.get {} prof).margin * 1000) ∧
  (∀ (q : Fin 2048) (s : State) (d : BitVec 512), s.executing q 4 = some d → s.tagFenced (s.queue q) = false →
    zeroAt (cmdBytes d) 18 2 = true → zeroAt (cmdBytes d) 24 8 = true → zeroAt (cmdBytes d) 10 6 = true →
    byteAt (cmdBytes d) 9 ≤ 63 → s.ready = true → s.items.length < 65536 →
    let source := 0x800 + byteAt (cmdBytes d) 8
    let p := s.profs.get {} (byteAt (cmdBytes d) 9)
    let deadline : Int := leAt (cmdBytes d) 0 8 + (p.dist * 100000000 / p.speed : Nat) - p.margin * 1000
    p.speed ≠ 0 → (s.now : Int) < deadline - s.lead * 1000 →
    ∃ t it, exec (.openItem q) s = .next t ∧
      t.item (s.fld Reg.KL_STS 15 8 * 2 ^ 56 + source * 2 ^ 44 + s.nextSeq.get 0 source) = some it ∧ it.deadline = deadline)

/-- For an open item with a deadline, its current stage is the earliest of the five that is not done, and its window runs from the previous milestone (for capture, the anchor) to the stage's own milestone, which is not earlier. When the gate timer looks at its urgency, what is left of the window decides: more than half of the window, or a window not yet begun, gives 0; more than a quarter up to half gives 1; from 1 ns up to a quarter gives 2; nothing left gives 3. Halves and quarters are floored. The urgency is always from 0 to 3. No open batch is urgent for the change, as a batch that closes may change the item further. (R21) -/
def Obligations.UrgencyOfAnOpenItem : Prop :=
  ∀ (id : DWord) (k : Fin 5) (s : State) (it : Item), s.item id.toNat = some it → it.sealInfo = none → it.shadow = none → it.hasDl = true →
    (∀ j : Nat, j < k → it.done.getLsbD j = true) → it.done.getLsbD k = false →
    (∀ n b, (n, some b) ∈ s.batches → (s.urgencyChange id.toNat).batchUrgent b = false) →
    let start := if k.val = 0 then it.anchor else it.milestone (k - 1)
    let len := it.milestone k - start
    let left := it.milestone k - s.now
    0 ≤ len →
    ∃ t, exec (.urgencyChange id) s = .next t ∧ ∃ u, t.item id.toNat = some u ∧ u.urg ≤ 3 ∧
      (s.now < start ∨ len / 2 < left → u.urg = 0) ∧
      (start ≤ s.now → len / 4 < left → left ≤ len / 2 → u.urg = 1) ∧
      (start ≤ s.now → 1 ≤ left → left ≤ len / 4 → u.urg = 2) ∧
      (left ≤ 0 → u.urg = 3)

/-- A read of CAL_SEC_LO by a requester answers the low half of the seconds and latches, from the same tick, bits 63 to 32 of the seconds into that requester's CAL_SEC_HI latch and the fraction into its CAL_FRAC latch. The latches of every other requester keep their values, and so does the calendar. As R39 has it for the timebase, a read of CAL_SEC_HI or CAL_FRAC answers the requester's latch and changes no latch. (R44) -/
def Obligations.CalendarReadLatches : Prop :=
  (∀ (req : BitVec 16) (s : State), ∃ t, exec (.calSecLoRead req) s = .next t ∧
    t.out = .read req Reg.CAL_SEC_LO (s.clk.calSec.setWidth 32) :: s.out ∧
    t.clk.calHi.get 0 (latchKey req) = (s.clk.calSec >>> 32).setWidth 32 ∧ t.clk.calFr.get 0 (latchKey req) = s.clk.calFrac ∧
    (∀ other : BitVec 16, latchKey other ≠ latchKey req → t.clk.calHi.get 0 (latchKey other) = s.clk.calHi.get 0 (latchKey other) ∧
      t.clk.calFr.get 0 (latchKey other) = s.clk.calFr.get 0 (latchKey other)) ∧
    t.clk.calSec = s.clk.calSec ∧ t.clk.calFrac = s.clk.calFrac) ∧
  (∀ (req : BitVec 16) (s : State),
    (s.regRead req Reg.CAL_SEC_HI 4).1 = toLe 4 (s.clk.calHi.get 0 (latchKey req)).toNat ∧ (s.regRead req Reg.CAL_SEC_HI 4).2 = s ∧
    (s.regRead req Reg.CAL_FRAC 4).1 = toLe 4 (s.clk.calFr.get 0 (latchKey req)).toNat ∧ (s.regRead req Reg.CAL_FRAC 4).2 = s)

/-- A COMMIT with group DEADLINE open and shares 0 < CAP < DET < REC < GRM makes the window's values the profile of INDEX, clears PROF_ERR and leaves every other profile as it was; one whose shares do not satisfy that sets PROF_ERR and changes no profile; a LOAD alone copies the profile of INDEX into the window and changes no profile, locked or not. (R33, R60) -/
def Obligations.ProfileCommitAndLoad : Prop :=
  (∀ (req : BitVec 16) (v : Word) (s : State), let w := s.windowProfile
    (0 < w.cap ∧ w.cap < w.det ∧ w.det < w.recog ∧ w.recog < w.grm) → s.flag 0x201C 0 = false →
    ∃ t, exec (.profileCommit req v) s = .next t ∧ t.profs.get {} (bits v 5 0) = w ∧
      (∀ j, j ≠ bits v 5 0 → t.profs.get {} j = s.profs.get {} j) ∧
      (bit v 30 = false → t.flag Reg.GT_STS 17 = false ∧ t.rd Reg.GT_PROF_DIST = s.rd Reg.GT_PROF_DIST)) ∧
  (∀ (req : BitVec 16) (v : Word) (s : State), let w := s.windowProfile
    ¬ (0 < w.cap ∧ w.cap < w.det ∧ w.det < w.recog ∧ w.recog < w.grm) →
    ∃ t, exec (.profileCommit req v) s = .next t ∧ t.profs = s.profs ∧ (bit v 30 = false → t.flag Reg.GT_STS 17 = true)) ∧
  (∀ (req : BitVec 16) (v : Word) (s : State), bit v 31 = false →
    ∃ t, exec (.profileLoad req v) s = .next t ∧ t.profs = s.profs ∧
      t.rd Reg.GT_PROF_SPEED = BitVec.ofNat 32 ((s.profs.get {} (bits v 5 0)).margin * 65536 + (s.profs.get {} (bits v 5 0)).speed) ∧
      t.rd Reg.GT_PROF_DIST = BitVec.ofNat 32 (s.profs.get {} (bits v 5 0)).dist)

/-- A read of TB_LO answers the low half and latches the high half for its requester; a write of TB_RATE stores the rate clamped to 858,993 either way and one of TB_SLEW replaces the slew, unless alignment runs, when each leaves the clock as it is; the TCLK at which the tick counter wraps with a slew pending makes a nanosecond due when the rate step is not 1; and the TCLK that applies a due nanosecond moves the timebase by 2 or 0 in place of 1 and the slew by one towards 0. (R36, R38, R39, R384) -/
def Obligations.TimebaseReadTrimAndSlew : Prop :=
  (∀ (req : BitVec 16) (s : State), ∃ t, exec (.tbLoRead req) s = .next t ∧
    t.out = .read req Reg.TB_LO (s.clk.tb.setWidth 32) :: s.out ∧ t.clk.tb = s.clk.tb ∧
    t.clk.tbHi.get 0 (latchKey req) = (s.clk.tb >>> 32).setWidth 32) ∧
  (∀ (v : Word) (s : State), ∃ t, exec (.tbRateWrite v) s = .next t ∧
    (s.aligning = false → t.clk.rate.toInt = iclamp (-858993) 858993 v.toInt ∧ t.clk.tb = s.clk.tb) ∧
    (s.aligning = true → t.clk = s.clk)) ∧
  (∀ (v : Word) (s : State), ∃ t, exec (.tbSlewWrite v) s = .next t ∧
    (s.aligning = false → t.clk = { s.clk with slew := v }) ∧ (s.aligning = true → t.clk = s.clk)) ∧
  (∀ s : State, s.clk.running = true → s.clk.tick + 1 = 0 → s.clk.slew ≠ 0 → s.clk.stepOne = false →
    ∃ t, exec .slewDue s = .next t ∧ t.clk.owed = true ∧ t.clk.slew = s.clk.slew ∧ t.clk.tick = 0) ∧
  (∀ s : State, s.clk.running = true → s.clk.owed = true → s.clk.slew ≠ 0 → s.clk.stepOne = true →
    ∃ t, exec .slewApply s = .next t ∧ t.clk.owed = false ∧
      (s.clk.slew.toInt < 0 → t.clk.tb = s.clk.tb ∧ t.clk.slew = BitVec.ofInt 32 (s.clk.slew.toInt + 1)) ∧
      (0 < s.clk.slew.toInt → t.clk.tb = s.clk.tb + 2 ∧ t.clk.slew = BitVec.ofInt 32 (s.clk.slew.toInt - 1)))

/-- While the calendar runs: an ordinary tick advances the fraction by 2, by 4 when added and by 0 when dropped, and the period by one; a tick that rolls over a second adds one to the seconds and captures a pair while the timebase runs; the tick that ends a period takes the written trim into force; a SET is requested by its write and loaded at the tick, setting VALID and clearing BACKUP_LOST; a CAPTURE is requested by its write and its tick captures a pair. A write of TRIM stores it with -128 as -127, a read of CAL_SEC_LO latches the high seconds and the fraction, and a loss of the backup stops the calendar. TB_PPS on general pin 31 rises at a tick at which the seconds increase and falls at the first tick past 100 ms, as GPIO_IN shows; that it follows the fraction is the model's reading (log entry 76). (R41, R42, R43, R44, R45, R435) -/
def Obligations.CalendarTicksAndWrites : Prop :=
  (∀ s : State, s.clk.calOn = true → s.clk.setReq = false → rolls s.clk = false →
    ∃ t, exec .calendarTick s = .next t ∧ t.clk.calSec = s.clk.calSec ∧ t.clk.period = s.clk.period + 1 ∧
      t.clk.calFrac.toNat = s.clk.calFrac.toNat + tickStep s.clk.trimNow s.clk.period.toNat) ∧
  (∀ s : State, s.clk.calOn = true → s.clk.setReq = false → rolls s.clk = true →
    ∃ t, exec .calendarSecond s = .next t ∧ t.clk.calSec = s.clk.calSec + 1 ∧
      (s.clk.running = true → t.pairs = { tb := s.clk.tb, sec := t.clk.calSec, frac := t.clk.calFrac } :: s.pairs)) ∧
  (∀ s : State, s.clk.calOn = true → s.clk.period + 1 = 0 →
    ∃ t, exec .trimPeriod s = .next t ∧ t.clk.trimNow = s.clk.trim ∧ t.clk.period = 0) ∧
  (∀ (v : Word) (s : State), ∃ t, exec (.trimWrite v) s = .next t ∧
    t.clk.trim = (if bits v 7 0 = 0x80 then 0x81 else BitVec.ofNat 8 (bits v 7 0)) ∧ t.clk.trimNow = s.clk.trimNow) ∧
  (∀ (v : Word) (s : State), ∃ t, exec (.calSet v) s = .next t ∧ t.clk.setReq = true ∧ t.clk.calSec = s.clk.calSec) ∧
  (∀ s : State, s.clk.calOn = true → s.clk.setReq = true →
    ∃ t, exec .calSetTick s = .next t ∧
      t.clk.calSec = BitVec.ofNat 64 ((s.rd Reg.CAL_SET_LO).toNat + (s.rd Reg.CAL_SET_HI).toNat * 2 ^ 32) ∧
      t.clk.calFrac = (s.rd Reg.CAL_SET_FRAC).setWidth 16 &&& 0xFFFE ∧ t.clk.calValid = true ∧ t.clk.backupLost = false ∧
      t.clk.setReq = false) ∧
  (∀ (v : Word) (s : State), ∃ t, exec (.calCapture v) s = .next t ∧ t.clk.capReq = true ∧ t.pairs = s.pairs) ∧
  (∀ s : State, s.clk.calOn = true → s.clk.capReq = true → s.clk.running = true →
    ∃ t, exec .captureTick s = .next t ∧ t.clk.capReq = false ∧
      t.pairs = { tb := s.clk.tb, sec := t.clk.calSec, frac := t.clk.calFrac } :: s.pairs ∧
      t.rd Reg.PAIR_TB_LO = s.clk.tb.setWidth 32) ∧
  (∀ (req : BitVec 16) (s : State), ∃ t, exec (.calSecLoRead req) s = .next t ∧
    t.out = .read req Reg.CAL_SEC_LO (s.clk.calSec.setWidth 32) :: s.out ∧
    t.clk.calHi.get 0 (latchKey req) = (s.clk.calSec >>> 32).setWidth 32 ∧ t.clk.calFr.get 0 (latchKey req) = s.clk.calFrac) ∧
  (∀ s : State, ∃ t, exec .backupLost s = .next t ∧ t.clk.calOn = false ∧ t.clk.tb = s.clk.tb) ∧
  (∀ s : State, s.clk.calOn = true → s.clk.setReq = false → s.ready = true → s.safe = false → s.pinFunc 31 = 2 → s.pins.hold.look 31 = none →
    s.flag (Reg.PIN_CFG 31) 26 = false → s.pinInv 31 = false →
    (rolls s.clk = true → ∃ t, exec .calendarSecond s = .next t ∧ t.flag Reg.GPIO_IN 31 = true) ∧
    (rolls s.clk = false → 6554 ≤ s.clk.calFrac.toNat + tickStep s.clk.trimNow s.clk.period.toNat →
      ∃ t, exec .calendarTick s = .next t ∧ t.flag Reg.GPIO_IN 31 = false))

/-- On every page that exists: a write of LOCK sets the lock bits that have a group, clears none and changes no other register; a write of EVT_STS clears the bits written 1, a write of EVT_EN stores the enables, and EVT_FORCE sets event bits as their units would, and none of them changes a register outside the page but the channels' pending bits and the count of dropped messages. A channel whose holdoff ends leaves the holdoff, and with a signal pending and KIND 3 it signals the warden and its pending bit clears; a write of EVT_CHAN_CFG stores the target of the channel selected. (R59, R63, R64) -/
def Obligations.EventAndLockRegisters : Prop :=
  (∀ (req : BitVec 16) (page : BitVec 14) (v : Word) (s : State) (k : PageKind), pageAt (page.toNat * 0x1000) = some k →
    ∃ t, exec (.lockWrite req page v) s = .next t ∧
      t.rd (page.toNat * 0x1000 + 0x1C) = s.rd (page.toNat * 0x1000 + 0x1C) ||| (v &&& BitVec.ofNat 32 (lockBits k)) ∧
      ∀ a, a ≠ page.toNat * 0x1000 + 0x1C → t.rd a = s.rd a) ∧
  (∀ (req : BitVec 16) (page : BitVec 14) (v : Word) (s : State), (pageAt (page.toNat * 0x1000)).isSome = true →
    (∃ t, exec (.evtStsWrite req page v) s = .next t ∧
      t.rd (page.toNat * 0x1000 + 0x10) = s.rd (page.toNat * 0x1000 + 0x10) &&& ~~~v ∧
      ∀ a, a ≠ page.toNat * 0x1000 + 0x10 → (a < 0x6060 ∨ 0x6080 ≤ a) → a ≠ Reg.HP_CNT_VEC_DROP → t.rd a = s.rd a) ∧
    (∃ t, exec (.evtEnWrite req page v) s = .next t ∧ t.rd (page.toNat * 0x1000 + 0x14) = v &&& 0xCFFFFFFF ∧
      ∀ a, a ≠ page.toNat * 0x1000 + 0x14 → (a < 0x6060 ∨ 0x6080 ≤ a) → a ≠ Reg.HP_CNT_VEC_DROP → t.rd a = s.rd a) ∧
    (∃ t, exec (.evtForce req page v) s = .next t ∧
      t.rd (page.toNat * 0x1000 + 0x10) = s.rd (page.toNat * 0x1000 + 0x10) ||| (v &&& 0xCFFFFFFF) ∧
      ∀ a, a ≠ page.toNat * 0x1000 + 0x10 → (a < 0x6060 ∨ 0x6080 ≤ a) → a ≠ Reg.HP_CNT_VEC_DROP → t.rd a = s.rd a)) ∧
  (∀ (c : Fin 256) (s : State), s.holding.contains c.val = true →
    (s.chanPend c = false → ∃ t, exec (.holdoffExpiry c) s = .next t ∧ t.holding.contains c.val = false ∧ t.out = s.out) ∧
    (s.chanPend c = true → bits (s.chanCfg c) 31 30 = 3 →
      ∃ t, exec (.holdoffExpiry c) s = .next t ∧ t.out = .warden c.val :: s.out ∧ t.chanPend c = false)) ∧
  (∀ (v : Word) (s : State), ∃ t, exec (.evtChanCfgWrite v) s = .next t ∧
    t.rd (bank (s.fld Reg.EVT_CHAN_SEL 7 0) Reg.EVT_CHAN_CFG) = v &&& 0xFFF7FFFF)

/-- A write of SNAP_AT_HI with no snapshot armed and an instant at least 2,000 ns ahead arms that instant; with one armed, or an instant nearer than that, it arms nothing, leaves the armed one and sets REFUSED. When the timebase has reached the armed instant the snapshot is taken: the shadows hold the counters, SNAP_LAST holds the timebase, and with no PERIOD_US nothing stays armed. A CANCEL disarms at once. The copy of the stream counters that a snapshot leaves to write is made once. (R69, R70, R72, R141) -/
def Obligations.SnapshotsArmTakeAndCancel : Prop :=
  (∀ (v : Word) (s : State), s.snapAt = none → s.now + 2000 ≤ (s.rd Reg.SNAP_AT_LO).toNat + v.toNat * 2 ^ 32 →
    ∃ t, exec (.snapArm v) s = .next t ∧ t.snapAt = some (BitVec.ofNat 64 ((s.rd Reg.SNAP_AT_LO).toNat + v.toNat * 2 ^ 32)) ∧
      t.rd Reg.SNAP_STS = 0x80000000 ∧ t.rd Reg.SNAP_AT_HI = v) ∧
  (∀ (v : Word) (s : State), (s.snapAt.isSome = true ∨ (s.rd Reg.SNAP_AT_LO).toNat + v.toNat * 2 ^ 32 < s.now + 2000) →
    ∃ t, exec (.snapArm v) s = .next t ∧ t.snapAt = s.snapAt ∧ t.flag Reg.SNAP_STS 30 = true ∧ t.rd Reg.SNAP_AT_HI = v) ∧
  (∀ (s : State) (i : DWord), s.snapAt = some i → i.toNat ≤ s.now →
    ∃ t, exec .snapTake s = .next t ∧ t.shadow = s.regs.filter (fun e => isCounter e.1) ∧
      t.rd Reg.SNAP_LAST_LO = s.clk.tb.setWidth 32 ∧ (s.fld Reg.SNAP_CTL 19 0 = 0 → t.snapAt = none) ∧ t.ctxSnap.isSome = true) ∧
  (∀ (v : Word) (s : State), ∃ t, exec (.snapCancel v) s = .next t ∧ t.snapAt = none ∧ t.flag Reg.SNAP_STS 31 = false) ∧
  (∀ s : State, ∃ t, exec .cntCopied s = .next t ∧ t.ctxSnap = none)

/-- On an enabled port whose line clock has issued a line: EXP_ON and EXP_OFF of a colour below C are sent on the control lane with the number of the line in progress (unless the safe state holds the lane back), and nothing else is sent; the strobe of a colour below C goes to the level named and the other strobes keep theirs; with STEP_EN of the active set a step pulse rises and falls. COLOUR_START begins the next colour of the line being received, and a data block on a lane of the link stores its word as word lane + L times the lane's count of that colour and counts it. A block with an invalid header counts once in CNT_HDR_ERR and changes no other register and no port. (R82, R83, R84, R75, R74) -/
def Obligations.PortLineEvents : Prop :=
  (∀ (p : Fin 4) (c : Fin 3) (s : State), s.portOn p = true → c.val < s.colours p → 0 < (s.port p).lines →
    (s.safe = false →
      (∃ t, exec (.expOn p c) s = .next t ∧ t.out = .islEvent p (s.curLine p) 2 c :: s.out) ∧
      (∃ t, exec (.expOff p c) s = .next t ∧ t.out = .islEvent p (s.curLine p) 3 c :: s.out)) ∧
    (∃ t, exec (.strobeOn p c) s = .next t ∧ (t.port p).strobe.testBit c = true ∧
      ∀ i, i < 3 → i ≠ c.val → (t.port p).strobe.testBit i = (s.port p).strobe.testBit i) ∧
    (∃ t, exec (.strobeOff p c) s = .next t ∧ (t.port p).strobe.testBit c = false ∧
      ∀ i, i < 3 → i ≠ c.val → (t.port p).strobe.testBit i = (s.port p).strobe.testBit i)) ∧
  (∀ (p : Fin 4) (s : State), s.portOn p = true → (s.port p).active.stepEn = true → 0 < (s.port p).lines →
    (∃ t, exec (.stepRise p) s = .next t ∧ t.port p = { s.port p with step := true }) ∧
    (∃ t, exec (.stepFall p) s = .next t ∧ t.port p = { s.port p with step := false })) ∧
  (∀ (p : Fin 4) (c : BitVec 2) (pixels : BitVec 15) (l : RxLine) (s : State), (s.port p).rx = some l →
    ∃ t, exec (.colourStart p c pixels) s = .next t ∧
      (t.port p).rx = some { l with
        colour := c.toNat, colours := l.colours + 1, count := [],
        fmtOk := l.fmtOk && decide (c.toNat = l.colours) && decide (pixels.toNat = s.pixels p) }) ∧
  (∀ (p : Fin 4) (lane : Fin 16) (w : DWord) (l : RxLine) (s : State), (s.port p).rx = some l → lane.val < s.laneCount p →
    ∃ t, ∃ r, exec (.dataBlock p lane w) s = .next t ∧ (t.port p).rx = some r ∧
      r.words.get 0 (65536 * l.colour + lane + s.laneCount p * l.count.get 0 lane) = w ∧
      r.count.get 0 lane = l.count.get 0 lane + 1 ∧ ∀ q, q ≠ p.val → t.port q = s.port q) ∧
  (∀ (p : Fin 4) (s : State), ∃ t, exec (.invalidHeader p) s = .next t ∧
    t.rd (Reg.P0_CNT_HDR_ERR p) = s.rd (Reg.P0_CNT_HDR_ERR p) + 1 ∧
    (∀ a, a ≠ Reg.P0_CNT_HDR_ERR p → t.rd a = s.rd a) ∧ ∀ q, t.port q = s.port q)

/-- With no transaction open, GO sends REG_WRITE with the address and the data, or REG_READ with the address, under a tag of the port's choice (a free value), and sets BUSY; a GO while BUSY changes nothing. A REG_REPLY with the tag ends it: RESULT is OK for status 0 and SENSOR_ERR otherwise, the sensor's code is kept, REG_RDATA is loaded when it was a read and only then, BUSY is cleared and REG_DONE raised; a reply with another tag changes nothing. When 100 µs pass without a reply, RESULT is TIMEOUT, BUSY is cleared and REG_DONE raised. (On an enabled port outside the safe state the block goes out at once.) (R81) -/
def Obligations.RegisterChannelTransactions : Prop :=
  (∀ (p : Fin 4) (s : State), s.flag (Reg.REG_STS p) 31 = false → s.portOn p = true → s.safe = false →
    (∃ t, exec (.regWrite p) s = .next t ∧ t.flag (Reg.REG_STS p) 31 = true ∧ (t.port p).regRead = false ∧
      (t.port p).regTag = (Config.freeByte s.free).toNat ∧
      t.out = .isl p 0x99 (toLe 1 (t.port p).regTag ++ toLe 2 (s.fld (Reg.REG_ADDR p) 15 0) ++ toLe 4 (s.rd (Reg.REG_WDATA p)).toNat) :: s.out) ∧
    (∃ t, exec (.regRead p) s = .next t ∧ t.flag (Reg.REG_STS p) 31 = true ∧ (t.port p).regRead = true ∧
      (t.port p).regTag = (Config.freeByte s.free).toNat ∧
      t.out = .isl p 0xAA (toLe 1 (t.port p).regTag ++ toLe 2 (s.fld (Reg.REG_ADDR p) 15 0) ++ zeros 4) :: s.out)) ∧
  (∀ (p : Fin 4) (s : State) (f : Fld), s.flag (Reg.REG_STS p) 31 = true →
    (∃ t, exec (.regWrite p) s = .next t ∧ f.same s t) ∧ (∃ t, exec (.regRead p) s = .next t ∧ f.same s t)) ∧
  (∀ (p : Fin 4) (tag status : Byte) (data : Word) (s : State), s.flag (Reg.REG_STS p) 31 = true →
    (tag.toNat = (s.port p).regTag →
      ∃ t, exec (.regReply p tag status data) s = .next t ∧ t.flag (Reg.REG_STS p) 31 = false ∧
        t.fld (Reg.REG_STS p) 1 0 = (if status = 0 then 1 else 2) ∧ t.fld (Reg.REG_STS p) 15 8 = status.toNat ∧
        t.rd (Reg.REG_RDATA p) = (if (s.port p).regRead then data else s.rd (Reg.REG_RDATA p)) ∧
        t.flag (linkPage p + 0x10) 3 = true) ∧
    (tag.toNat ≠ (s.port p).regTag → ∃ t, exec (.regReply p tag status data) s = .next t ∧ ∀ f : Fld, f.same s t)) ∧
  (∀ (p : Fin 4) (s : State), s.flag (Reg.REG_STS p) 31 = true →
    ∃ t, exec (.regTimeout p) s = .next t ∧ t.flag (Reg.REG_STS p) 31 = false ∧ t.fld (Reg.REG_STS p) 1 0 = 3 ∧
      t.rd (Reg.REG_RDATA p) = s.rd (Reg.REG_RDATA p) ∧ t.flag (linkPage p + 0x10) 3 = true)

/-- A lane of the link that gains block lock sets its bit; when the link is LOCKING and every lane then holds lock it is ALIGNING. A lane that loses lock clears its bit, and a link that was ALIGNING or UP is LOCKING. A marker that comes on all lanes of an ALIGNING link with at most 8 blocks of skew makes it UP with that deskew and raises LINK_UP; one more than a block from the established deskew takes a link that was UP and whose lanes lack a lock back to LOCKING. PORT_FMT of an enabled port keeps its value and CFG_ERR is set; on a disabled port an unlocked write is stored. APPLY of a valid staged set hands the whole set to the next line clock, clears TIMING_ERR and increments APPLY_GEN; of another, nothing is handed over and TIMING_ERR is set; the active set is kept either way. (R74, R76, R77, R85) -/
def Obligations.LinkLockAndTimingSets : Prop :=
  (∀ (p : Fin 4) (lane : Fin 16) (s : State), lane.val < s.laneCount p →
    (∃ t, exec (.laneLock p lane) s = .next t ∧ t.flag (Reg.PORT_STS p) (16 + lane) = true ∧
      (s.linkState p = 1 → (s.setFlag (Reg.PORT_STS p) (16 + lane) true).allLocked p = true → t.linkState p = 2) ∧
      (s.linkState p ≠ 1 → t.linkState p = s.linkState p)) ∧
    (∃ t, exec (.laneLockLoss p lane) s = .next t ∧ t.flag (Reg.PORT_STS p) (16 + lane) = false ∧
      (2 ≤ s.linkState p → t.linkState p = 1) ∧ (s.linkState p < 2 → t.linkState p = s.linkState p))) ∧
  (∀ (p : Fin 4) (slots : List Nat) (s : State), slots.length = s.laneCount p →
    (s.linkState p = 2 → spread slots ≤ 8 → ∃ t, exec (.align p slots) s = .next t ∧ t.linkState p = 3 ∧
      (t.port p).deskew = slots ∧ t.flag (linkPage p + 0x10) 0 = true) ∧
    (s.linkState p = 3 → offDeskew (s.port p).deskew slots = true → s.flag (Reg.PORT_STS p) 16 = false →
      ∃ t, exec (.align p slots) s = .next t ∧ t.linkState p = 1 ∧ t.flag (linkPage p + 0x10) 1 = true)) ∧
  (∀ (req : BitVec 16) (p : Fin 4) (v : Word) (s : State),
    (s.portOn p = true → ∃ t, exec (.portFmtWrite req p v) s = .next t ∧ t.rd (Reg.PORT_FMT p) = s.rd (Reg.PORT_FMT p) ∧
      t.flag (Reg.PORT_STS p) 9 = true) ∧
    (s.portOn p = false → (s.store req (Reg.PORT_FMT p) v).2 = true → ∃ t, exec (.portFmtWrite req p v) s = .next t ∧
      t.rd (Reg.PORT_FMT p) = (s.rd (Reg.PORT_FMT p) &&& ~~~0x0F007FFF) ||| (v &&& 0x0F007FFF) ∧ ∀ a, a ≠ Reg.PORT_FMT p → t.rd a = s.rd a)) ∧
  (∀ (p : Fin 4) (s : State),
    (s.timingOk p (s.staged p) = true → ∃ t, exec (.applyTiming p) s = .next t ∧ (t.port p).nextSet = some (s.staged p) ∧
      (t.port p).active = (s.port p).active ∧ t.flag (Reg.PORT_STS p) 8 = false ∧
      t.fld (Reg.TIMING_STS p) 31 16 = (s.fld (Reg.TIMING_STS p) 31 16 + 1) % 65536 ∧ t.flag (linkPage p + 0x10) 5 = true) ∧
    (s.timingOk p (s.staged p) = false → ∃ t, exec (.applyTiming p) s = .next t ∧ t.port p = s.port p ∧
      t.flag (Reg.PORT_STS p) 8 = true ∧ t.flag (linkPage p + 0x10) 4 = true))

/-- A write with ENABLE 1 to a port that is off, not turned away by a lock: with valid format, timing and stripe settings the port is enabled with the staged timing set handed over and its lines starting at 0, the link is LOCKING or ALIGNING, and outside the safe state LINK_RESET has been sent; with an invalid format ENABLE stays 0 and CFG_ERR is set. A write with ENABLE 0 to a port that is on takes the link DOWN and starts lines anew with strobes and step inactive. SWAP on a port that is on waits for the item boundary. COEF_CMD.LOAD while a load runs or a swap waits is refused with LOAD_ERR and copies nothing; otherwise the load runs and the disabled-bank fill is LOAD_BUSY until it is done, which clears LOAD_BUSY and raises COEF_DONE. A write of ARCH_LINES sets both ring pointers to 0. A write of CAL_CTL.START with MODE PROFILE or COLUMN arms a capture. (R80, R85, R90, R94, R95) -/
def Obligations.PortEnableAndSettings : Prop :=
  (∀ (req : BitVec 16) (p : Fin 4) (v : Word) (s : State), s.portOn p = false → (s.store req (Reg.PORT_CTL p) (v ||| 1)).2 = true →
    let u := (s.store req (Reg.PORT_CTL p) (v ||| 1)).1
    (u.formatOk p = true → u.timingOk p (u.staged p) = true → u.stripeOk p = true →
      ∃ t, exec (.portEnable req p v) s = .next t ∧ t.portOn p = true ∧ (t.port p).nextSet = some (u.staged p) ∧ (t.port p).lines = 0 ∧
        (t.linkState p = 1 ∨ t.linkState p = 2) ∧ (s.safe = false → .isl p 0xB4 (zeros 7) ∈ t.out)) ∧
    (u.formatOk p = false → ∃ t, exec (.portEnable req p v) s = .next t ∧ t.portOn p = false ∧ t.flag (Reg.PORT_STS p) 9 = true)) ∧
  (∀ (req : BitVec 16) (p : Fin 4) (v : Word) (s : State), s.portOn p = true → (s.store req (Reg.PORT_CTL p) (v &&& 0xFFFFFFFE)).2 = true →
    ∃ t, exec (.portDisable req p v) s = .next t ∧ (t.port p).lines = 0 ∧ (t.port p).strobe = 0 ∧ (t.port p).step = false ∧
      (t.port p).rx = none ∧ t.linkState p = 0) ∧
  (∀ (req : BitVec 16) (p : Fin 4) (v : Word) (s : State), s.portOn p = true → (s.store req (Reg.COND_CTL p) (v ||| 0x10)).2 = true →
    ∃ t, exec (.swap req p v) s = .next t ∧ t.port p = { s.port p with swapReq := true }) ∧
  (∀ (p : Fin 4) (s : State),
    (s.flag (Reg.COND_STS p) 31 = true ∨ (s.port p).swapReq = true →
      ∃ t, exec (.coefLoad p) s = .next t ∧ t.port p = s.port p ∧ t.flag (Reg.COND_STS p) 0 = true) ∧
    (s.flag (Reg.COND_STS p) 31 = false → (s.port p).swapReq = false →
      ∃ t, exec (.coefLoad p) s = .next t ∧ t.flag (Reg.COND_STS p) 31 = true) ∧
    (s.flag (Reg.COND_STS p) 31 = true → (s.port p).swapReq = false →
      ∃ t, exec (.coefLoadDone p) s = .next t ∧ t.flag (Reg.COND_STS p) 31 = false ∧ t.flag (condPage p + 0x10) 0 = true ∧
        t.port p = s.port p)) ∧
  (∀ (req : BitVec 16) (p : Fin 4) (v : Word) (s : State), (s.store req (Reg.ARCH_LINES p) v).2 = true →
    ∃ t, exec (.archLinesWrite req p v) s = .next t ∧ t.rd (Reg.ARCH_WPTR p) = 0 ∧ t.rd (Reg.ARCH_RPTR p) = 0 ∧
      t.rd (Reg.ARCH_LINES p) = (s.rd (Reg.ARCH_LINES p) &&& ~~~0xFFFFFF) ||| (v &&& 0xFFFFFF)) ∧
  (∀ (req : BitVec 16) (p : Fin 4) (v : Word) (s : State), (s.store req (Reg.P2_CAL_CTL p) (v ||| 0x80000000)).2 = true →
    bits v 29 28 = 1 ∨ bits v 29 28 = 2 →
    ∃ t, exec (.calStart req p v) s = .next t ∧ t.port p = { s.port p with calArmed := true })

/-- A line clock of an enabled port outside the safe state, with no capture armed and no window closing, takes the waiting timing set, stamps the next raw line with the timebase, samples page-present, lets the direction follow the set and sends the LINE event. On an UP link a LINE_START that names the expected line, whose LINE event has been issued, begins it. LINE_END with matching number, format and CRCs accepts the line: it counts once, the next line is expected and the samples are kept (shown while readout has not begun and no capture runs). A framed face whose next stripe is ready and whose slot is free has it landed in slot k mod 2; a landed stripe with its mask formed, of a mapped source whose group takes it, is handed, its slot stays taken by the group's tiles and its face counts it. A post that names the awaited stripe forms the mask of the next one as m, m << 1 and m >> 1 over the window; one that names another is counted and changes no face. (R82, R85, R86, R99, R108, R110, R111) -/
def Obligations.LinesAndStripes : Prop :=
  (∀ (p : Fin 4) (s : State), s.portOn p = true → s.safe = false → (s.port p).calArmed = false →
    ((s.port p).lines < 2 ∨ (s.port p).lines < (s.port p).expect + 2) →
    ∃ t, exec (.lineClock p) s = .next t ∧ (t.port p).lines = (s.port p).lines + 1 ∧
      (t.port p).active = (s.port p).nextSet.getD (s.port p).active ∧ (t.port p).nextSet = none ∧
      (t.port p).stamps.get 0 (s.port p).lines = s.clk.tb ∧ (t.port p).dirOut = (t.port p).active.dir ∧
      (t.port p).present.head? = some ((s.port p).lines, s.ppActive.contains p) ∧
      t.out = .islEvent p ((s.port p).lines % 256) 1 0 :: s.out) ∧
  (∀ (p : Fin 4) (num : BitVec 16) (colours : BitVec 2) (slots : List Nat) (s : State), s.portOn p = true → s.linkState p = 3 →
    slots.length = s.laneCount p → offDeskew (s.port p).deskew slots = false → (s.port p).expect < (s.port p).lines →
    num.toNat = (s.port p).expect % 65536 → (s.port p).rx = none →
    ∃ t, exec (.lineStart p num colours slots) s = .next t ∧
      (t.port p).rx = some { n := (s.port p).expect, fmtOk := decide (colours.toNat = s.colours p) }) ∧
  (∀ (p : Fin 4) (num : BitVec 16) (crcs : List Word) (r : RxLine) (raw : List (List Nat)) (s : State), (s.port p).rx = some r →
    (s.port p).expect = r.n → s.lineGot p r num crcs = .ok raw → s.flag (Reg.P2_CAL_STS p) 31 = false → (s.port p).passing = false →
    r.n < ((s.port p).dly.take (s.colours p)).foldl max 0 →
    ∃ t, exec (.lineEnd p num crcs) s = .next t ∧ (t.port p).expect = r.n + 1 ∧ (t.port p).rx = none ∧ (t.port p).lastRaw = some raw ∧
      t.rd (Reg.P0_CNT_LINES p) = s.rd (Reg.P0_CNT_LINES p) + 1) ∧
  (∀ (p : Fin 4) (f : Face) (s : State), s.landFace p = some f → f.framed = true → s.rowsReady p f f.landed = true →
    (s.port p).slots.get none (f.landed % 2) = none →
    ∃ t, exec (.stripeLand p) s = .next t ∧ (t.port p).slots.get none (f.landed % 2) = some [] ∧
      ∀ g ∈ (t.port p).faces, g.id = f.id → g = { f with landed := f.landed + 1 }) ∧
  (∀ (p : Fin 4) (f : Face) (part vi : Nat) (s : State),
    (s.port p).live.find? (fun f => decide (f.handed < f.landed)) = some f → f.trail = none →
    (isFull (s.fullEvery p) f.handed = true ∨ f.mask.isSome = true) → s.srcMap p = some (part, vi) →
    s.groupFenced (s.tileFirst p) (s.groupG p) = false →
    (List.range (s.groupG p)).all (fun b => s.tileOwner (s.tileFirst p + b) == some part) = true →
    s.groupTakes (s.tileFirst p) (s.groupG p) = true → s.instRuns part vi = true →
    ∃ t, exec (.stripeHand p) s = .next t ∧
      (t.port p).slots.get none (f.handed % 2) = some (range' (s.tileFirst p) (s.groupG p)) ∧
      ∀ g ∈ (t.port p).faces, g.id = f.id → g = { f with handed := f.handed + 1, mask := none }) ∧
  (∀ (p : Fin 4) (v : Word) (f : Face) (s : State),
    (s.port p).live.find? (fun f => decide (0 < f.handed) && f.mask.isNone && !isFull (s.fullEvery p) f.handed) = some f →
    (bits v 31 16 = f.id % 65536 → bits v 15 0 = (f.handed - 1) % 65536 →
      let m := BitVec.ofNat 256 (leNat ((List.range 8).map (fun i => toLe 4 (s.rd (Reg.STEER_MASK p i)).toNat)).flatten) &&& s.fullMask p
      ∃ t, exec (.steerPost p v) s = .next t ∧
        ∀ g ∈ (t.port p).faces, g.id = f.id → g = { f with mask := some ((m ||| (m <<< 1) ||| (m >>> 1)) &&& s.fullMask p) }) ∧
    (bits v 31 16 ≠ f.id % 65536 ∨ bits v 15 0 ≠ (f.handed - 1) % 65536 →
      ∃ t, exec (.steerPost p v) s = .next t ∧ t.port p = s.port p ∧
        t.rd (Reg.P3_CNT_STEER_STALE p) = s.rd (Reg.P3_CNT_STEER_STALE p) + 1))

/-- A write of PIN_CFGn with a FUNC above 2 changes nothing; one that is stored and changes FUNC outside the safe state starts a hold at the level the pad had, or keeps the level of one under way; the hold's end connects the new function. GPIO_SET and GPIO_CLR set and clear bits of GPIO_OUT and change no register but GPIO_IN, the edge bits and what an event changes. After emergence an input crossing on a pad the pin does not drive becomes GPIO_IN, and one of a page-present input the port's present state. The JTAG instructions become current; BYPASS shifts out 0 first, IDCODE its word, SAMPLE/PRELOAD the sampled levels while it loads the boundary register; in the safe state EXTEST loads the boundary register, HIGHZ puts every pad in high impedance and CLAMP drives it from the boundary register; outside it they are BYPASS. (R436, R437, R439, R445, R427) -/
def Obligations.PinsAndBoundaryScan : Prop :=
  (∀ (req : BitVec 16) (n : Fin 32) (v : Word) (s : State),
    (2 < bits v 3 0 → ∃ t, exec (.pinFuncWrite req n v) s = .next t ∧ ∀ f : Fld, f.same s t) ∧
    (bits v 3 0 ≤ 2 → (s.store req (Reg.PIN_CFG n) v).2 = true → bits v 3 0 ≠ s.pinFunc n → s.safe = false →
      ∃ t, exec (.pinFuncWrite req n v) s = .next t ∧ t.pins.hold.look n = some ((s.pins.hold.look n).getD (s.padLevel n)) ∧
        t.pinFunc n = bits v 3 0)) ∧
  (∀ (n : Fin 32) (s : State), (s.pins.hold.look n).isSome = true →
    ∃ t, exec (.pinHoldEnd n) s = .next t ∧ t.pins = { s.pins with hold := s.pins.hold.erase n } ∧ t.pins.hold.look n = none) ∧
  (∀ (v : Word) (s : State),
    (∃ t, exec (.gpioSet v) s = .next t ∧ t.rd Reg.GPIO_OUT = s.rd Reg.GPIO_OUT ||| v ∧
      ∀ a, (a < 0x6060 ∨ 0x6080 ≤ a) → a ≠ Reg.HP_CNT_VEC_DROP → a ≠ Reg.GPIO_OUT → a ≠ Reg.GPIO_IN → a ≠ Reg.GPIO_EDGE_STS →
        a ≠ 0xA010 → t.rd a = s.rd a) ∧
    (∃ t, exec (.gpioClr v) s = .next t ∧ t.rd Reg.GPIO_OUT = s.rd Reg.GPIO_OUT &&& ~~~v)) ∧
  (∀ (n : Fin 36) (active : Bool) (s : State), s.ready = true →
    (n.val < 32 → s.pad n ≠ .low → s.pad n ≠ .high →
      ∃ t, exec (.inputCross n active) s = .next t ∧ t.flag Reg.GPIO_IN n = active) ∧
    (32 ≤ n.val → ∃ t, exec (.inputCross n active) s = .next t ∧ t.ppActive.contains (n.val - 32) = active ∧
      ∀ q, q ≠ n.val - 32 → t.ppActive.contains q = s.ppActive.contains q)) ∧
  (∀ s : State,
    (∃ t, exec .jtagReset s = .next t ∧ t.pins = { s.pins with ir := .idcode }) ∧
    (∃ t, exec .jtagBypass s = .next t ∧ t.pins = { s.pins with ir := .bypass } ∧ t.out.head? = some (.tdo 0 1)) ∧
    (∃ t, exec .idcode s = .next t ∧ t.pins = { s.pins with ir := .idcode } ∧ t.out.head? = some (.tdo idcode.toNat 32)) ∧
    (∃ t, exec .clamp s = .next t ∧ t.pins = { s.pins with ir := .clamp } ∧
      (s.safe = true → ∀ k, t.pad k = padOf (s.pins.boundary.getLsbD k)) ∧ (s.safe = false → t.jtagActs = .bypass)) ∧
    (∃ t, exec .highz s = .next t ∧ t.pins = { s.pins with ir := .highz } ∧
      (s.safe = true → ∀ k, t.pad k = .hiz) ∧ (s.safe = false → t.jtagActs = .bypass))) ∧
  (∀ (d : BitVec 57) (s : State),
    (∃ t, exec (.samplePreload d) s = .next t ∧ t.pins = { s.pins with ir := .sample, boundary := d } ∧
      t.out.head? = some (.tdo s.boundaryNow.toNat 57)) ∧
    (s.safe = true → ∃ t, exec (.extest d) s = .next t ∧ t.pins = { s.pins with ir := .extest, boundary := d } ∧
      ∀ k, t.pad k = padOf (d.getLsbD k)) ∧
    (s.safe = false → ∃ t, exec (.extest d) s = .next t ∧ t.pins = { s.pins with ir := .extest } ∧ t.out.head? = some (.tdo 0 1)))

/-- SAFE_CMD with its key and ENTER sets the safe-state latch; with LEAVE and no class 3 fault being handled it clears it; the hold of every pin ends when the latch changes; with a wrong key the latch keeps its value. A write that makes MODE 1 starts the cadence anew; one that would make it 2 with a ring that R442 does not allow sets BAD_RING and changes nothing else of the stage. With MODE 1 an enabled stage plays the sample scaled by VOL within the cadence, and the phase advances by the tone's step. An overcurrent of an enabled stage counts a trip, and retries after 200 ms, or with two trips in the last 10 s latches SHORT. The retry clears TRIPPED. ALERT_CMD with its key clears a latched SHORT and the trip history. (R427, R54, R440, R441, R442, R443, R444) -/
def Obligations.SafeStateAndAlertStage : Prop :=
  (∀ (req : BitVec 16) (v : Word) (s : State),
    (bits v 31 16 = 0x5AF3 → s.safe = false → ∃ t, exec (.safeEnter req v) s = .next t ∧ t.safe = true ∧ t.pins.hold = []) ∧
    (bits v 31 16 = 0x5AF3 → s.safe = true → s.stopped3 = false →
      ∃ t, exec (.safeLeave req v) s = .next t ∧ t.safe = false ∧ t.pins.hold = []) ∧
    (bits v 31 16 ≠ 0x5AF3 → ∃ t, exec (.safeEnter req v) s = .next t ∧ t.safe = s.safe ∧ t.pins = s.pins)) ∧
  (∀ (req : BitVec 16) (v : Word) (s : State),
    (bits v 1 0 = 1 → s.alertMode ≠ 1 → (s.store req Reg.ALERT_CTL v).2 = true →
      ∃ t, exec (.alertModeWrite req v) s = .next t ∧ t.alertMode = 1 ∧ t.alert = { s.alert with cad := 0 }) ∧
    (bits v 1 0 = 2 → s.alertMode ≠ 2 → s.ringOk = false →
      ∃ t, exec (.alertModeWrite req v) s = .next t ∧ t.alert = s.alert ∧ t.flag Reg.ALERT 29 = true ∧
        ∀ a, a ≠ Reg.ALERT → t.rd a = s.rd a)) ∧
  (∀ s : State, s.alertMode = 1 → s.stageOn = true → s.alert.cad < s.fld Reg.TONE_CAD 31 16 * 48 →
    ∃ t, exec .alertSample s = .next t ∧ t.out = .tone (s.scaled s.toneSample) :: s.out ∧
      t.alert = { s.alert with phase := s.alert.phase + BitVec.ofNat 32 ((s.fld Reg.TONE_CFG 14 0 * 2 ^ 33 + 48000) / 96000), cad := s.alert.cad + 1 }) ∧
  (∀ s : State, s.stageOn = true →
    let recent := s.alert.trips.filter (fun t => decide (s.now ≤ t + 10000000000))
    (recent.length < 2 → ∃ t, exec .overcurrent s = .next t ∧ t.alert.retry = some (s.now + 200000000) ∧
      t.alert.trips = s.now :: recent ∧ t.flag Reg.ALERT 30 = true ∧ t.rd Reg.ALERT_CNT_TRIPS = s.rd Reg.ALERT_CNT_TRIPS + 1) ∧
    (2 ≤ recent.length → ∃ t, exec .overcurrent s = .next t ∧ t.alert.retry = none ∧ t.flag Reg.ALERT 31 = true ∧ t.stageOn = false)) ∧
  (∀ (s : State) (i : Nat), s.alert.retry = some i → i ≤ s.now → s.safe = false →
    ∃ t, exec .tripRetry s = .next t ∧ t.alert = { s.alert with retry := none } ∧ t.flag Reg.ALERT 30 = false) ∧
  (∀ (req : BitVec 16) (v : Word) (s : State), bits v 31 16 = 0xA1E7 → s.flag Reg.ALERT 31 = true →
    ∃ t, exec (.alertClear req v) s = .next t ∧ t.alert = { s.alert with trips := [] } ∧ t.flag Reg.ALERT 31 = false)

/-- A monitor sample of a powered module with every site below SHUT_C counts one sample, sets T_MAX to the largest site temperature and discards no item; a process sample stores every site's count where none is below MIN; a rail outside its warning window for 1 ms is counted, raised and remembered. A trip comparator crossing 125 °C with no shutdown under way, a rail outside its fault window for 10 µs and a loss of the root PLL while the clocks run, with no such fault being handled, enter the safe state, end READY, discard every open item, stop the clocks and leave every log entry committed. A write of ALIVE restarts the firmware watchdog and ends its miss. The warden's watchdog resets the warden alone but for its SRAM and is logged; a bridge access without an answer reads 0 and is logged. (R411, R412, R413, R415, R416, R422, R454, R280) -/
def Obligations.MonitorsAndWatchdogs : Prop :=
  (∀ (temps volts : List (BitVec 16)) (s : State), s.emg.powered = true → temps.length = 24 → volts.length = 16 →
    (hottest temps).1.toInt < s.shutT → ∃ t, exec (.monitorSample temps volts) s = .next t ∧ t.health.samples = s.health.samples + 1 ∧
      t.fld Reg.HM_STS 15 0 = (hottest temps).1.toNat ∧ t.items = s.items ∧ t.clk = s.clk) ∧
  (∀ (counts : List (BitVec 16)) (s : State), s.emg.powered = true → counts.length = 32 →
    (∀ c ∈ counts, s.fld Reg.PROC_CFG 15 0 ≤ c.toNat) → ∃ t, exec (.procSample counts) s = .next t ∧
      ∀ (i : Nat) (h : i < counts.length), t.fld (Reg.PROC_01 + 4 * (i / 2)) (16 * (i % 2) + 15) (16 * (i % 2)) = (counts[i]).toNat) ∧
  (∀ (m : Fin 16) (mv : BitVec 16) (s : State), s.emg.powered = true → railWarns m mv.toNat = true → s.health.warned.look m = none →
    ∃ t, exec (.railWarn m mv) s = .next t ∧ t.rd Reg.HM_CNT_RAIL_WARN = s.rd Reg.HM_CNT_RAIL_WARN + 1 ∧
      t.health.warned.look m = some 0 ∧ t.flag 0x8010 2 = true ∧
      ∃ e, t.flogRing.getLast? = some e ∧ e.cls = 0 ∧ e.code = 0x60) ∧
  (∀ (site : Fin 24) (x : BitVec 16) (s : State), s.emg.powered = true → 2000 ≤ x.toInt → s.inShutdown = false → s.health.handling = none →
    ∃ t, exec (.thermalTrip site x) s = .next t ∧ t.safe = true ∧ t.ready = false ∧ t.items = [] ∧ t.clk.running = false ∧
      t.health.handling = some .thermal ∧ ∀ e ∈ t.flogRing, e.committed = true) ∧
  (∀ (m : Fin 16) (mv : BitVec 16) (s : State), s.emg.powered = true → railFails m mv.toNat = true → s.health.handling = none →
    ∃ t, exec (.railFault m mv) s = .next t ∧ t.safe = true ∧ t.ready = false ∧ t.items = [] ∧ t.clk.running = false ∧
      t.health.handling = some .rail ∧ ∀ e ∈ t.flogRing, e.committed = true) ∧
  (∀ s : State, s.clk.running = true → s.health.handling = none →
    ∃ t, exec .rootPllLoss s = .next t ∧ t.safe = true ∧ t.ready = false ∧ t.items = [] ∧ t.clk.running = false ∧
      t.health.handling = some .pll ∧ ∀ e ∈ t.flogRing, e.committed = true) ∧
  (∀ s : State, ∃ t, exec .alive s = .next t ∧ t.health = { s.health with aliveAt := s.now, missed := false } ∧
    t.flag Reg.HM_STS 30 = (s.flag Reg.HM_CTL 2 || s.health.handling.isSome)) ∧
  (∀ s : State, ∃ t, exec .wardenWatchdog s = .next t ∧ t.warden = { ({} : Warden) with sram := s.warden.sram } ∧
    ∃ e, t.flogRing.getLast? = some e ∧ e.cls = 0 ∧ e.code = 0x41) ∧
  (∀ (w : Bool) (a : BitVec 48) (s : State), ∃ t, exec (.wardenBridgeTimeout w a) s = .next t ∧
    (w = false → t.out.head? = some (.read reqWarden a.toNat 0)) ∧ t.mem = s.mem ∧ ∃ e, t.flogRing.getLast? = some e ∧ e.code = 0x40)

/-- FLOG_SEL starts a load of the entry of the view FLOG_CTL names and sets BUSY; when the load is done the window holds the latest entry with that FSEQ, or zero with FOUND 0. A commit of an entry of class 2 or 3 leaves it marked and, where it was the one entry of that FSEQ not committed, last in the committed log; entries of other FSEQ keep their marks. FLOG_CMD with its key and ERASE starts an erase, whose end leaves the committed log empty. FENCE_CMD with its key, without CLR, on an element that exists, is not fenced while no self-test runs: the element is fenced, RESULT is OK and the fence is logged with class 2; with CLR on a fenced element its self-test starts. A self-test that passes unfences the element with RESULT OK, one that fails leaves it fenced with RESULT FAIL. (R419, R423, R424, R425, R54) -/
def Obligations.FaultLogAndFences : Prop :=
  (∀ (v : Word) (s : State), ∃ t, exec (.flogSelect v) s = .next t ∧ t.health.load = some (v, s.flag Reg.FLOG_CTL 8) ∧
    t.flag Reg.FLOG_STS 31 = true ∧ t.rd Reg.FLOG_SEL = v) ∧
  (∀ (n : Word) (view : Bool) (s : State), s.health.load = some (n, view) →
    ∃ t, exec .flogLoadDone s = .next t ∧ t.health.load = none ∧
      (∀ e, (if view then s.flogFlash else s.flogRing).reverse.find? (fun e => e.fseq == n) = some e →
        t.flag Reg.FLOG_STS 30 = true ∧ ∀ i, i < 8 → t.rd (Reg.FLOG_W i) = BitVec.ofNat 32 (leAt e.bytes (4 * i) 4)) ∧
      ((if view then s.flogFlash else s.flogRing).reverse.find? (fun e => e.fseq == n) = none →
        t.flag Reg.FLOG_STS 30 = false ∧ ∀ i, i < 8 → t.rd (Reg.FLOG_W i) = 0)) ∧
  (∀ (n : Word) (s : State), ∃ t, exec (.flogCommit n) s = .next t ∧
    t.flogRing = s.flogRing.map (fun e => if e.fseq == n && decide (2 ≤ e.cls) then { e with committed := true } else e) ∧
    ∀ e, s.flogRing.filter (fun e => e.fseq == n && decide (2 ≤ e.cls) && !e.committed) = [e] →
      t.flogFlash.getLast? = some { e with committed := true }) ∧
  (∀ (req : BitVec 16) (v : Word) (s : State), bits v 31 16 = 0xF1E5 →
    ∃ t, exec (.flogErase req v) s = .next t ∧ t.health.erasing = true ∧ t.flag Reg.FLOG_STS 31 = true) ∧
  (∀ s : State, s.health.erasing = true → ∃ t, exec .flogEraseDone s = .next t ∧ t.flogFlash = [] ∧ t.health.erasing = false) ∧
  (∀ (req : BitVec 16) (v : Word) (page : Nat) (s : State), bits v 31 16 = 0xFE4C →
    elementPage (bits v 9 8) (bits v 7 0) = some page → s.health.test = none →
    (s.flag (page + 0xC) 30 = false → ∃ t, exec (.fenceElement req v) s = .next t ∧ t.flag (page + 0xC) 30 = true ∧
      t.fld Reg.FENCE_STS 1 0 = 0 ∧ ∃ e, t.flogRing.getLast? = some e ∧ e.cls = 2 ∧ e.code = 0xA0) ∧
    (s.flag (page + 0xC) 30 = true → ∃ t, exec (.unfenceElement req v) s = .next t ∧ t.flag Reg.FENCE_STS 31 = true ∧
      t.health.test = some (bits v 9 8, bits v 7 0) ∧ t.flag (page + 0xC) 30 = true)) ∧
  (∀ (kind i page : Nat) (s : State), s.health.test = some (kind, i) → elementPage kind i = some page →
    (∃ t, exec (.selfTestDone true) s = .next t ∧ t.flag (page + 0xC) 30 = false ∧ t.fld Reg.FENCE_STS 1 0 = 0 ∧ t.health.test = none) ∧
    (∃ t, exec (.selfTestDone false) s = .next t ∧ t.flag (page + 0xC) 30 = s.flag (page + 0xC) 30 ∧ t.fld Reg.FENCE_STS 1 0 = 1 ∧
      t.health.test = none))

/-- The flash holds no configuration record and no firmware image, the rails and PLLs start, and no SRAM or HBM test fails. Then a power-on of an unpowered module and a device reset — by its keyed register write, by the host under HOST_RST_MODE DEVICE, by the end of a thermal shutdown, of a rail fault and of a loss of the root PLL, and by a missed watchdog with ALIVE_ACT — run emergence to READY: READY is 1, the safe-state latch is 0, FAILED is 0, the timebase is 0 and runs, no item is open, and AO_RST_CAUSE holds the cause of that reset. With the rails failing, emergence stops at step 1 with FAILED. A loss of power keeps host memory, the flash, the committed log and the calendar, and nothing of the registers. (R46, R48, R52, R278, R409, R415, R416, R422, R453, R454, R456) -/
def Obligations.EmergenceAndResets : Prop :=
  (∀ (env : Emerge) (s : State), env.railsOk = true → env.pllFails ≤ 3 → env.sram = [] → env.hbm = [] →
    leAt (s.fld8 (bankBase 0) 32) 0 4 ≠ 0x46435849 → leAt (s.fld8 (bankBase 1) 32) 0 4 ≠ 0x46435849 →
    leAt (s.fld8 (fwSlot 0) 128) 0 4 ≠ 0x57465849 → leAt (s.fld8 (fwSlot 1) 128) 0 4 ≠ 0x57465849 →
    let up := fun (t : State) (cause : Nat) => t.ready = true ∧ t.safe = false ∧ t.flag Reg.AO_EMG_STS 30 = false ∧ t.clk.running = true ∧
      t.clk.tb = 0 ∧ t.items = [] ∧ t.rd Reg.AO_RST_CAUSE = BitVec.ofNat 32 cause
    (s.emg.powered = false → ∃ t, exec (.powerOn env) s = .next t ∧ up t 1) ∧
    (s.emg.resetting = false →
      (∀ (req : BitVec 16) (v : Word), bits v 31 16 = 0xD1A5 → (s.store req Reg.AO_RST_CTL (v ||| 1)).2 = true →
        ∃ t, exec (.deviceReset req v env) s = .next t ∧ up t 2) ∧
      (s.flag Reg.AO_RST_CTL 1 = true → s.health.handling = none → ∃ t, exec (.hostLost env) s = .next t ∧ up t 4) ∧
      (s.health.others = [] →
        (s.health.handling = some .thermal → 200000 ≤ s.health.cool → s.flag Reg.HM_STS 28 = false →
          ∃ t, exec (.thermalRecovery env) s = .next t ∧ up t 5) ∧
        (s.health.handling = some .rail → s.health.latched = false → ∃ t, exec (.railFaultReset env) s = .next t ∧ up t 3) ∧
        (s.health.handling = some .pll → ∃ t, exec (.pllLossReset env) s = .next t ∧ up t 6)) ∧
      (s.fld Reg.HM_CTL 23 16 ≠ 0 → s.health.aliveOn = true → s.health.missed = false →
        s.health.aliveAt + s.fld Reg.HM_CTL 23 16 * 1000000 ≤ s.now → s.flag Reg.HM_CTL 1 = true →
        ∃ t, exec (.aliveMiss env) s = .next t ∧ up t 3))) ∧
  (∀ (env : Emerge) (s : State), s.emg.powered = false → env.railsOk = false →
    ∃ t, exec (.powerOn env) s = .next t ∧ t.flag Reg.AO_EMG_STS 30 = true ∧ t.fld Reg.AO_EMG_STS 15 8 = 1) ∧
  (∀ s : State, s.emg.powered = true → ∃ t, exec .powerLoss s = .next t ∧ t.regs = [] ∧ t.flash = s.flash ∧ t.flogFlash = s.flogFlash ∧
    t.items = [] ∧ t.qs = [] ∧ t.clk.running = false ∧ t.clk.calSec = s.clk.calSec ∧ t.clk.calFrac = s.clk.calFrac ∧ t.emg.powered = false)

/-- A keyed PROGRAM that no check refuses sets BUSY, clears PROG_ERR, erases the bank not loaded (A after the chrysalis) and leaves the rest of the flash; one whose ENTRIES exceed the limit sets PROG_ERR and leaves the flash; one while BUSY changes nothing of the flash and the registers. At its end a good read-back leaves the formed record in the bank and a bad one, or unread entries, sets PROG_ERR, both with BUSY 0. A keyed FORCE_CHRYSALIS sets FORCE_PENDING. A write of FW_READY starts the firmware watchdog, and in step E6 makes the module READY with the safe-state latch clear, when no unit is to be enabled and KL_CTL.ENABLE is 0; without it the E6 bound parks every hart, sets FW_FAIL and makes the module READY. (R46, R48, R50, R51, R53, R278, R422) -/
def Obligations.FirmwareReadyAndConfigurationStore : Prop :=
  (∀ (req : BitVec 16) (v : Word) (s : State), bits v 31 16 = 0x1A57 →
    let k := if s.flag Reg.CFG_STS 0 then 0 else if s.flag Reg.CFG_STS 1 then 0 else 1
    let n := s.fld Reg.CFG_LEN 17 0
    (s.flag Reg.CFG_STS 6 = false → n ≤ 131067 → s.nextInstar ≤ 0xFFFFFFFF →
      inRange (s.addr48 Reg.CFG_SRC_LO Reg.CFG_SRC_HI / 8 * 8) (8 * n) = true →
      ∃ t, exec (.cfgProgram req v) s = .next t ∧ t.flag Reg.CFG_STS 6 = true ∧ t.flag Reg.CFG_STS 7 = false ∧
        (∃ r, t.emg.prog = some (k, r)) ∧
        (∀ x, bankBase k ≤ x → x < bankBase k + 0x100000 → t.flashByte x = 0xFF) ∧
        (∀ x, x < bankBase k ∨ bankBase k + 0x100000 ≤ x → t.flashByte x = s.flashByte x) ∧ ∀ b, b ≠ Reg.CFG_STS → t.rd b = s.rd b) ∧
    (s.flag Reg.CFG_STS 6 = false → 131067 < n →
      ∃ t, exec (.cfgProgram req v) s = .next t ∧ t.flag Reg.CFG_STS 7 = true ∧ t.flag Reg.CFG_STS 6 = false ∧ t.flash = s.flash) ∧
    (s.flag Reg.CFG_STS 6 = true → ∃ t, exec (.cfgProgram req v) s = .next t ∧ t.flash = s.flash ∧ ∀ b, t.rd b = s.rd b) ∧
    ∃ t, exec (.forceChrysalis req v) s = .next t ∧ t.flag Reg.CFG_STS 5 = true ∧ t.flash = s.flash ∧ ∀ b, b ≠ Reg.CFG_STS → t.rd b = s.rd b) ∧
  (∀ (k : Nat) (s : State),
    (∀ b : Bytes, s.emg.prog = some (k, some b) →
      (∃ t, exec (.cfgProgramDone true) s = .next t ∧ t.flag Reg.CFG_STS 6 = false ∧ t.emg.prog = none ∧ t.fld8 (bankBase k) b.length = b ∧
        ∀ x, x < bankBase k ∨ bankBase k + b.length ≤ x → t.flashByte x = s.flashByte x) ∧
      ∃ t, exec (.cfgProgramDone false) s = .next t ∧ t.flag Reg.CFG_STS 6 = false ∧ t.flag Reg.CFG_STS 7 = true ∧ t.flash = s.flash) ∧
    (s.emg.prog = some (k, none) → ∀ good, ∃ t, exec (.cfgProgramDone good) s = .next t ∧ t.flag Reg.CFG_STS 6 = false ∧
      t.flag Reg.CFG_STS 7 = true ∧ t.flash = s.flash)) ∧
  (∀ (req : BitVec 16) (v : Word) (s : State), s.flag Reg.TF_CTL 0 = false → (s.store req Reg.TF_CTL (v ||| 1)).2 = true →
    ∃ t, exec (.fwReady req v) s = .next t ∧ t.health.aliveOn = true ∧ t.health.aliveAt = s.now ∧
      (s.emg.e6 = false → t.flag Reg.TF_CTL 0 = true ∧ ∀ b, b ≠ Reg.TF_CTL → t.rd b = s.rd b) ∧
      (s.emg.e6 = true → s.emg.enables = [] → s.flag Reg.KL_CTL 0 = false → t.ready = true ∧ t.safe = false ∧ t.fld Reg.AO_EMG_STS 7 0 = 7 ∧ t.emg.e6 = false)) ∧
  (∀ s : State, s.emg.e6 = true → s.emg.enables = [] → s.flag Reg.KL_CTL 0 = false →
    ∃ t, exec .fwReadyTimeout s = .next t ∧ t.flag Reg.TF_STS 30 = true ∧ t.harts = [] ∧ t.ready = true ∧ t.safe = false ∧ t.emg.e6 = false)

/-- On the pages whose registers have no behaviour of their own, an aligned 32-bit write without a lock violation gives its register its writable fields, clamped, and changes no other register and no byte of memory; a write of another SEAL_LEAD_US while group DEADLINE is locked leaves the register, sets LOCKVIOL of the page and increments LOCKVIOL_CNT. A write to LOCK sets the bits that have a group and clears none. A write in the snapshot mirror changes no register. Where no page lies, a write, a read inside one register or a misaligned read of two to seven bytes increments UNMAPPED_CNT and changes no register but the log's; a read returns zero. SEAL_LEAD_US below 6 stores 6 and above 1,000 stores 1,000. (R9, R10, R57, R58, R59, R60, R61, R67, R71) -/
def Obligations.RegisterWritesAndUnmappedAccesses : Prop :=
  (∀ (req : BitVec 16) (a : BitVec 26) (v : Word) (s : State), Memory.wf s.mem = true → a.toNat % 4 = 0 → ∀ k, pageAt a.toNat = some k →
    (0x40 ≤ a.toNat % 0x1000 → a.toNat % 0x1000 < 0xFC0 → k ∈ [.dir, .fam, .sin, .seqc, .core, .com, .frz, .hp] → ∀ d, defAt a.toNat = some d →
      (s.violates a.toNat d v = false → ∃ t, exec (.registerWrite req a v) s = .next t ∧ t.rd a.toNat = s.stored a.toNat d v ∧
        (∀ b, b ≠ a.toNat → t.rd b = s.rd b) ∧ ∀ x, t.byte x = s.byte x)) ∧
    (a.toNat % 0x1000 = 0x1C → ∃ t, exec (.registerWrite req a v) s = .next t ∧
      t.rd a.toNat = s.rd a.toNat ||| (v &&& BitVec.ofNat 32 (lockBits k)) ∧ ∀ b, b ≠ a.toNat → t.rd b = s.rd b)) ∧
  (∀ (req : BitVec 16) (a : BitVec 26) (v : Word) (s : State), Memory.wf s.mem = true → a.toNat % 4 = 0 → 0x2000000 ≤ a.toNat → a.toNat < 0x2340000 →
    ∃ t, exec (.registerWrite req a v) s = .next t ∧ (∀ b, t.rd b = s.rd b) ∧ ∀ x, t.byte x = s.byte x) ∧
  (∀ (req : BitVec 16) (v : Word) (s : State), s.flag 0x201C 0 = false →
    ∃ t, exec (.registerWrite req 0x2040 v) s = .next t ∧
      t.fld Reg.GT_CTL 9 0 = (if bits v 9 0 < 6 then 6 else if 1000 < bits v 9 0 then 1000 else bits v 9 0) ∧ ∀ b, b ≠ Reg.GT_CTL → t.rd b = s.rd b) ∧
  (∀ (req : BitVec 16) (v : Word) (s : State), Memory.wf s.mem = true → s.flag 0x201C 0 = true → bits v 9 0 ≠ s.fld Reg.GT_CTL 9 0 →
    ∃ t, exec (.registerWrite req 0x2040 v) s = .next t ∧ t.rd Reg.GT_CTL = s.rd Reg.GT_CTL ∧ t.flag 0x2010 31 = true ∧
      t.rd Reg.LOCKVIOL_CNT = s.rd Reg.LOCKVIOL_CNT + 1 ∧ ∀ x, t.byte x = s.byte x) ∧
  (∀ (req : BitVec 16) (a : BitVec 26) (n : Fin 65) (s : State), Memory.wf s.mem = true → pageAt a.toNat = none → (a.toNat < 0x2000000 ∨ 0x2340000 ≤ a.toNat) →
    let counted := fun (t : State) => t.rd Reg.UNMAPPED_CNT = s.rd Reg.UNMAPPED_CNT + 1 ∧ (∀ x, t.byte x = s.byte x) ∧
      ∀ b, (b < 0x6060 ∨ 0x6080 ≤ b) → (b < 0x9000 ∨ 0xA000 ≤ b) → b ≠ Reg.HP_CNT_VEC_DROP → b ≠ Reg.UNMAPPED_CNT → t.rd b = s.rd b
    ((n.val ≠ 8 ∨ a.toNat % 8 ≠ 0) → ∃ t, exec (.unmappedAccess req true a n) s = .next t ∧ counted t) ∧
    (1 ≤ n.val → a.toNat % 4 + n.val ≤ 4 → ∃ t, exec (.unmappedAccess req false a n) s = .next t ∧ counted t ∧
      ∃ l, t.out = .read req a.toNat 0 :: l)) ∧
  (∀ (req : BitVec 16) (a : BitVec 26) (n : Fin 65) (s : State), 2 ≤ n.val → n.val < 8 → 4 < a.toNat % 4 + n.val →
    ∃ t, exec (.unmappedAccess req false a n) s = .next t ∧ t.rd Reg.UNMAPPED_CNT = s.rd Reg.UNMAPPED_CNT + 1 ∧
      (∃ l, t.out = .read req a.toNat 0 :: l) ∧ ∀ b, (b < 0x6060 ∨ 0x6080 ≤ b) → (b < 0x9000 ∨ 0xA000 ≤ b) → b ≠ Reg.HP_CNT_VEC_DROP → b ≠ Reg.UNMAPPED_CNT → t.rd b = s.rd b)

/-- A COMMIT without LOAD copies the window to the selected context: with ENABLE 0 to a disabled one, and with ENABLE 1 when no check fails, which starts it anew; a configuration that fails its checks changes nothing of the context but CMT_ERR and raises CMT_REFUSED. A LOAD without COMMIT puts the committed values into the window and changes no context. The first accepted packet of a stream locks the SSRC, is counted and starts an access unit; a packet beyond the next is held; an old or repeated one is only counted late; a datagram to the RTCP port of a context is passed to the session firmware. When the wait after a gap ends, the gap is one loss, with its placeholder picture, and reception goes on after it. LOSS_MS without a packet loses the stream: eyespots, SSRC and what is held are freed. (R113, R114, R115, R116, R117, R118, R119, R121, R126) -/
def Obligations.StreamContextsAndPackets : Prop :=
  (∀ (v : Word) (s : State), let c := bits v 9 0
    bit v 30 = false →
    (bits (s.rd Reg.CTX_CTL) 31 31 = 0 → (s.ctx c).on = false → ∃ t, exec (.ctxCommit v) s = .next t ∧
      t.ctx c = { s.ctx c with cfg := ctxRegs.map s.rd, cmtErr := 0 } ∧ (∀ k, k ≠ c → t.ctx k = s.ctx k) ∧ ∀ b, b ≠ Reg.CTX_SEL → t.rd b = s.rd b) ∧
    (bits (s.rd Reg.CTX_CTL) 31 31 = 1 → (s.ctx c).on = false → s.ctxCheck c (ctxRegs.map s.rd) = 0 → ∃ t, exec (.ctxCommit v) s = .next t ∧
      (t.ctx c).cfg = ctxRegs.map s.rd ∧ (t.ctx c).cmtErr = 0 ∧ (t.ctx c).last = none ∧ (t.ctx c).heard = s.now ∧ (t.ctx c).cnt = (s.ctx c).cnt ∧
      ∀ k, k ≠ c → t.ctx k = s.ctx k) ∧
    (bits (s.rd Reg.CTX_CTL) 31 31 = 1 → (s.ctx c).on = false → s.ctxCheck c (ctxRegs.map s.rd) ≠ 0 → ∃ t, exec (.ctxCommit v) s = .next t ∧
      t.ctx c = { s.ctx c with cmtErr := s.ctxCheck c (ctxRegs.map s.rd) } ∧ t.flag (sinPage + 0x10) 5 = true)) ∧
  (∀ (v : Word) (s : State), let c := bits v 9 0
    bit v 31 = false → (s.ctx c).cfg.length = 13 → ∃ t, exec (.ctxLoad v) s = .next t ∧
      ctxRegs.map t.rd = (s.ctx c).cfg ∧ t.fld Reg.CTX_SEL 9 0 = c ∧ t.fld Reg.CTX_STS 31 30 = (s.ctx c).state ∧ (∀ k, t.ctx k = s.ctx k) ∧
      ∀ b, b < Reg.CTX_SEL ∨ Reg.CTX_SSRC < b → t.rd b = s.rd b) ∧
  (∀ (eth : Fin 2) (src payload : Bytes) (port : BitVec 16) (s : State) (c seq ssrc pt : Nat) (p : RtpPkt),
    s.ctxAt eth port.toNat = some c → parseRtp payload s.now = some (seq, ssrc, pt, p) → (s.ctx c).srcOk src = true → pt = (s.ctx c).f 0 22 16 →
    (s.ctx c).ssrc.getD ssrc = ssrc →
    ((s.ctx c).last = none → (s.ctx c).held = [] → (s.ctx c).au = none → (s.ctx c).skip = none → p.marker = false →
      ∃ t, exec (.rtpPacket eth src port payload) s = .next t ∧ (t.ctx c).last = some (65536 + seq) ∧ (t.ctx c).ssrc = some ssrc ∧
        (t.ctx c).heard = s.now ∧ (t.ctx c).lost = false ∧ (∃ a, (t.ctx c).au = some a ∧ a.ts = p.ts ∧ a.payloads = [p.payload] ∧ a.first = p.arrival) ∧
        t.rd Reg.SIN_CNT_PACKETS = s.rd Reg.SIN_CNT_PACKETS + 1 ∧ ∀ k, k ≠ c → t.ctx k = s.ctx k) ∧
    (∀ l, (s.ctx c).last = some l → l + 1 < extSeq (some l) seq → (s.ctx c).held.any (fun h => h.1 == extSeq (some l) seq) = false →
      ∃ t, exec (.rtpPacket eth src port payload) s = .next t ∧ (t.ctx c).held = (extSeq (some l) seq, p) :: (s.ctx c).held ∧
        (t.ctx c).last = some l ∧ (t.ctx c).au = (s.ctx c).au) ∧
    (∀ l, (s.ctx c).last = some l → extSeq (some l) seq ≤ l →
      ∃ t, exec (.rtpPacket eth src port payload) s = .next t ∧ (t.ctx c).cnt = (s.ctx c).cnt.set 1 ((((s.ctx c).cnt.drop 1).headD 0 + 1) % 2 ^ 32) ∧
        (t.ctx c).last = some l ∧ (t.ctx c).au = (s.ctx c).au ∧ (t.ctx c).held = (s.ctx c).held ∧ ∀ b, t.rd b = s.rd b)) ∧
  (∀ (eth : Fin 2) (src payload : Bytes) (port : BitVec 16) (s : State), s.ctxAt eth port.toNat = none → 0 < port.toNat →
    (s.ctxAt eth (port.toNat - 1)).isSome = true →
    ∃ t, exec (.rtpPacket eth src port payload) s = .next t ∧ t.rtcp = payload :: s.rtcp ∧ (∀ k, t.ctx k = s.ctx k) ∧ ∀ b, t.rd b = s.rd b) ∧
  (∀ (c : Fin 1024) (s : State) (k : Nat) (p : RtpPkt), (s.ctx c).on = true → (s.ctx c).held = [(k, p)] → 0 < k →
    p.arrival + (s.ctx c).f 8 15 0 * 1000 ≤ s.now → (s.ctx c).au = none → (s.ctx c).decoding.isSome = true → p.marker = false →
    ∃ t, exec (.gapLoss c) s = .next t ∧ (t.ctx c).entries = (s.ctx c).entries ++ [.hole 1 s.now] ∧ (t.ctx c).last = some k ∧
      (t.ctx c).held = [] ∧ (t.ctx c).wait = some 2 ∧ ∃ a, (t.ctx c).au = some a ∧ a.payloads = [p.payload]) ∧
  (∀ (c : Fin 1024) (s : State), (s.ctx c).on = true → (s.ctx c).lost = false →
    (s.ctx c).heard + max 1 ((s.ctx c).f 9 15 8) * 1000000 ≤ s.now → (s.ctx c).tracked = [] →
    ∃ t, exec (.streamLost c) s = .next t ∧ (t.ctx c).lost = true ∧ (t.ctx c).espots = [] ∧ (t.ctx c).ssrc = none ∧
      (t.ctx c).last = none ∧ (t.ctx c).held = [] ∧ (t.ctx c).au = none ∧ (t.ctx c).wait = some 2 ∧ t.flag (sinPage + 0x10) 0 = true ∧
      (t.ctx c).entries = (s.ctx c).entries ∧ (t.ctx c).pics = (s.ctx c).pics)

/-- While fewer than 24 engines decode, DECODE_START gives the unit at the head of the context with the earliest stamp to an engine; with 24 busy nothing changes. A decoded picture of accepted tools and size is held for output; where it is output at once it takes the next picture number, is retained, and with PN mod FULL_EVERY 0 gets a full-frame sample with the next SSN. A corrupt unit becomes a CORRUPT placeholder picture with its placeholder sample, counted, and the context waits for an IRAP picture. A transform engine gives the sample its pixels and changes no other. A placeholder at the head is released to record assembly, counted; a produced crop whose batch is open and does not fill up goes into the arena and its batch. A batch whose wait has passed closes and takes a batch number. (R125, R126, R127, R128, R134, R136, R137, R138, R139, R140) -/
def Obligations.DecodingAndSamples : Prop :=
  (∀ s : State,
    ((s.ctxs.filter (fun (e : Nat × Ctx) => e.2.decoding.isSome)).length < 24 → ∀ c a, s.nextDecode = some (c, a) →
      ∃ t, exec .decodeStart s = .next t ∧ t.ctx c = { s.ctx c with decoding := some a, entries := (s.ctx c).entries.drop 1 } ∧
        ∀ k, k ≠ c → t.ctx k = s.ctx k) ∧
    (24 ≤ (s.ctxs.filter (fun (e : Nat × Ctx) => e.2.decoding.isSome)).length → ∃ t, exec .decodeStart s = .next t ∧ ∀ k, t.ctx k = s.ctx k)) ∧
  (∀ (c : Fin 1024) (s : State) (a : Au), (s.ctx c).decoding = some a → (s.ctx c).entries = [] →
    (∀ (sps : Sps) (order : Int) (luma : List Nat) (outs : Nat), spsTools (s.ctx c).h265 sps = true → spsSize (s.ctx c) sps = true →
      (outs = 0 → ∃ t, exec (.pictureDecoded c (.picture sps order luma outs)) s = .next t ∧ (t.ctx c).decoding = none ∧
        (∃ d, (t.ctx c).dpb = (s.ctx c).dpb ++ [d] ∧ d.stamp = a.stamp ∧ d.w = sps.w ∧ d.h = sps.h) ∧ (t.ctx c).pn = (s.ctx c).pn) ∧
      (outs = 1 → (s.ctx c).dpb = [] → (s.ctx c).pics = [] → (s.ctx c).espots = [] → (s.ctx c).samples = [] →
        (s.ctx c).pn % (s.ctx c).f 7 30 24 = 0 → ∃ t, exec (.pictureDecoded c (.picture sps order luma outs)) s = .next t ∧
          (t.ctx c).pn = ((s.ctx c).pn + 1) % 2 ^ 32 ∧ (t.ctx c).ssn = ((s.ctx c).ssn + 1) % 2 ^ 32 ∧ (t.ctx c).dpb = [] ∧
          (∃ p, (t.ctx c).pics = [p] ∧ p.pn = (s.ctx c).pn ∧ p.stamp = a.stamp ∧ p.need = true ∧
            p.luma = (luma.map (luma8 sps.depth)).take (sps.w * sps.h)) ∧
          ∃ x, (t.ctx c).samples = [x] ∧ x.kind = 1 ∧ x.ssn = (s.ctx c).ssn ∧ x.pn = (s.ctx c).pn ∧ x.outW = sps.w ∧ x.outH = sps.h)) ∧
    ((s.ctx c).dpb = [] → (s.ctx c).pics = [] → (s.ctx c).samples = [] → ∃ t, exec (.pictureDecoded c .corrupt) s = .next t ∧
      (t.ctx c).decoding = none ∧ (t.ctx c).pn = ((s.ctx c).pn + 1) % 2 ^ 32 ∧ (t.ctx c).wait = some ((s.ctx c).wait.getD 2) ∧
      (∃ x, (t.ctx c).samples = [x] ∧ x.kind = 0 ∧ x.cause = 3 ∧ x.ssn = (s.ctx c).ssn) ∧ t.rd Reg.SIN_CNT_PLACEHOLDER = s.rd Reg.SIN_CNT_PLACEHOLDER + 1)) ∧
  (∀ (c : Fin 1024) (ssn : Word) (s : State), ∃ t, exec (.sampleProduced c ssn) s = .next t ∧ (∀ k, k ≠ c.val → t.ctx k = s.ctx k) ∧
    ∀ (i : Nat) (x : Sample), (s.ctx c).samples[i]? = some x →
      (x.ssn = ssn.toNat → x.cause = 0 → 2 ≤ x.kind → x.produced = false → ∀ p, (s.ctx c).pic x.pn = some p →
        (t.ctx c).samples[i]? = some { x with produced := true, pix := x.produce p (BitVec.ofNat 8 (s.fld Reg.SIN_CTL 7 0)) }) ∧
      (x.ssn ≠ ssn.toNat → (t.ctx c).samples[i]? = some x)) ∧
  (∀ (c : Fin 1024) (s : State) (x : Sample) (rest : List Sample), (s.ctx c).samples = x :: rest → (s.ctx c).pics.all (·.created) = true →
    (x.cause ≠ 0 → x.item = 0 → ∃ t, exec (.sampleRelease c) s = .next t ∧ (t.ctx c).samples = rest ∧
      (t.ctx c).notices = sampleHeader c x :: (s.ctx c).notices ∧ t.rd Reg.SIN_CNT_SAMPLES = s.rd Reg.SIN_CNT_SAMPLES + 1) ∧
    (x.cause = 0 → x.kind ≠ 1 → x.produced = true → (x.item = 0 ∨ (s.ctx c).espots.any (fun (e : Nat × Espot) => e.2.st == .track && e.2.item == x.item) = true) →
      ∀ (b : Batch) (a : Nat), s.batches.get none (8 * s.ctxPart c + bucketOf x.outW) = some b → s.arenaFit x.bytes = some a →
      b.samples.length + 1 < s.fld Reg.SIN_CTL 30 24 → (∀ it, s.items.look x.item = some it → it.urg < 2) → s.batchUrgent b = false →
      ∃ t, exec (.sampleRelease c) s = .next t ∧ (t.ctx c).samples = rest ∧
        t.batches.get none (8 * s.ctxPart c + bucketOf x.outW) = some { b with samples := b.samples ++ [(sampleHeader c { x with data := a }, x.item)] } ∧
        t.arena = (a, x.bytes, b.uid) :: s.arena)) ∧
  (∀ (part : Fin 9) (bucket : Fin 5) (s : State) (b : Batch), s.batches.get none (8 * part.val + bucket.val) = some b →
    (b.opened + s.fld Reg.SIN_CTL 23 8 * 1000 ≤ s.now → ∃ t, exec (.batchWaitExpiry part bucket) s = .next t ∧
      t.batches.get none (8 * part.val + bucket.val) = none ∧
      t.batchNo.get 0 (8 * part.val + bucket.val) = (s.batchNo.get 0 (8 * part.val + bucket.val) + 1) % 2 ^ 32) ∧
    (s.now < b.opened + s.fld Reg.SIN_CTL 23 8 * 1000 → ∃ t, exec (.batchWaitExpiry part bucket) s = .next t ∧
      t.batches = s.batches ∧ t.batchNo = s.batchNo ∧ t.handing = s.handing))

/-- For a command with its reserved bytes zero that its queue executes on an enabled context of the queue's owner: CREATE on a FREE eyespot gives it the box, velocity, confidence and picture of the command and state TRACK, with the next item of the context's source, opened with the capture stamp of that picture as its anchor. UPDATE with a later picture replaces box, velocity, confidence and PN_UPD, keeps the state and clears MISSES; MISS with a later picture increments MISSES and frees the eyespot above MISS_MAX; CAPTURED sets the state, RETIRE frees; an UPDATE or MISS that is not later, or any of them on a FREE eyespot, changes no eyespot. FRAME_DONE settles the awaited picture; another number changes no picture and is counted. REREAD of an item that is open appends a re-read sample with the next SSN, a placeholder RETAIN_GONE when its picture is not retained. (R129, R130, R131, R133, R135, R127, R128, R138) -/
def Obligations.EyespotCommandsAndRereads : Prop :=
  (∀ (q : Fin 2048) (s : State) (op : Nat) (d : BitVec 512), s.executing q op = some d → s.tagFenced (s.queue q) = false →
    let b := cmdBytes d
    let c := leAt b 18 2
    let e := byteAt b 14
    let x := (s.ctx c).espots.get {} e
    c < 1024 → s.owns (s.queue q) (s.ctxPart c) = true → (s.ctx c).on = true → espotZeros b = true →
    (e < (s.ctx c).espotMax →
      (∀ p, op = 0x21 → x.st = .free → (s.ctx c).pic (leAt b 24 4) = some p → s.held = [] → s.items.length < 65536 →
        (s.now : Int) < (newItem (tb64 p.stamp) ((s.ctx c).f 9 5 0) (s.profs.get {} ((s.ctx c).f 9 5 0)) s.lead (s.profMask ((s.ctx c).f 9 5 0))
          (s.ctxOwner c)).sealAt →
        let id := s.fld Reg.KL_STS 15 8 * 2 ^ 56 + (0x400 + c) * 2 ^ 44 + s.nextSeq.get 0 (0x400 + c)
        ∃ t, exec (.createEspot q) s = .next t ∧
          (t.ctx c).espots.get {} e = ({ x with item := id, pnNew := leAt b 24 4, st := .track } : Espot).place b ∧
          (∃ it, t.item id = some it ∧ it.anchor = (tb64 p.stamp : Nat) ∧ it.sealInfo = none) ∧ ∀ k, k ≠ c → t.ctx k = s.ctx k) ∧
      (op = 0x22 → x.st ≠ .free → x.pnUpd < leAt b 24 4 → ∃ t, exec (.updateEspot q) s = .next t ∧
        (t.ctx c).espots.get {} e = x.place b ∧ (x.place b).misses = 0 ∧ (x.place b).st = x.st ∧
        (∀ j, j ≠ e → (t.ctx c).espots.get {} j = (s.ctx c).espots.get {} j) ∧ ∀ k, k ≠ c → t.ctx k = s.ctx k) ∧
      (op = 0x22 → x.st ≠ .free → leAt b 24 4 ≤ x.pnUpd → ∃ t, exec (.updateEspot q) s = .next t ∧ ∀ k, t.ctx k = s.ctx k) ∧
      (op = 0x23 → x.st ≠ .free → x.pnUpd < leAt b 24 4 → ∃ t, exec (.missEspot q) s = .next t ∧
        (t.ctx c).espots.get {} e = (if (s.ctx c).f 7 15 8 < x.misses + 1 then {} else { x with misses := x.misses + 1 }) ∧
        (∀ j, j ≠ e → (t.ctx c).espots.get {} j = (s.ctx c).espots.get {} j) ∧ ∀ k, k ≠ c → t.ctx k = s.ctx k) ∧
      (op = 0x24 → x.st ≠ .free → ∃ t, exec (.capturedEspot q) s = .next t ∧ (t.ctx c).espots.get {} e = { x with st := .captured } ∧
        (∀ j, j ≠ e → (t.ctx c).espots.get {} j = (s.ctx c).espots.get {} j) ∧ ∀ k, k ≠ c → t.ctx k = s.ctx k) ∧
      (op = 0x25 → x.st ≠ .free → ∃ t, exec (.espotRetire q) s = .next t ∧ (t.ctx c).espots.get {} e = {} ∧
        (∀ j, j ≠ e → (t.ctx c).espots.get {} j = (s.ctx c).espots.get {} j) ∧ ∀ k, k ≠ c → t.ctx k = s.ctx k) ∧
      (x.st = .free → ∀ cmd, (op, cmd) ∈ [(0x22, Instr.updateEspot q), (0x23, .missEspot q), (0x24, .capturedEspot q), (0x25, .espotRetire q)] →
        ∃ t, exec cmd s = .next t ∧ ∀ k, t.ctx k = s.ctx k)) ∧
    (op = 0x26 → ∀ p, (s.ctx c).awaited = some p →
      (p.pn = leAt b 24 4 → (s.ctx c).samples = [] → (s.ctx c).pics = [p] → (s.ctx c).pn ≤ p.pn + (s.ctx c).retain →
        ∃ t, exec (.frameDone q) s = .next t ∧ (t.ctx c).pics = [{ p with frameDone := true }]) ∧
      (p.pn ≠ leAt b 24 4 → ∃ t, exec (.frameDone q) s = .next t ∧ (∀ k, t.ctx k = s.ctx k)))) ∧
  (∀ (q : Fin 2048) (s : State) (d : BitVec 512) (it : Item), s.executing q 0x30 = some d → s.tagFenced (s.queue q) = false →
    let b := cmdBytes d
    let c := leAt b 18 2
    c < 1024 → s.owns (s.queue q) (s.ctxPart c) = true → (s.ctx c).on = true → zeroAt b 12 4 = true → zeroAt b 56 8 = true →
    s.item (leAt b 0 8) = some it → s.owns (s.queue q) it.part = true → it.sealInfo = none →
    ∃ t x, exec (.reread q) s = .next t ∧ (t.ctx c).samples = (s.ctx c).samples ++ [x] ∧ x.kind = 3 ∧ x.ssn = (s.ctx c).ssn ∧ x.item = leAt b 0 8 ∧
      x.pn = leAt b 8 4 ∧ (t.ctx c).ssn = ((s.ctx c).ssn + 1) % 2 ^ 32 ∧ ((s.ctx c).pic (leAt b 8 4) = none → x.cause = 9) ∧
      (∀ p, (s.ctx c).pic (leAt b 8 4) = some p → p.cause = 0 → 1 ≤ leAt b 48 2 → leAt b 48 2 ≤ 2048 → 1 ≤ leAt b 50 2 → leAt b 50 2 ≤ 4096 →
        (∀ i, i < 4 → (signed 32 (leAt b (24 + 4 * i) 4)).natAbs ≤ 0x100000) → x.cause = 0 ∧ x.stamp = p.stamp ∧ x.outW = leAt b 48 2 ∧ x.outH = leAt b 50 2))

/-- For a tile in RUN whose sequencer has come to the instruction, with no WAIT, POST or SIGNAL: NOP moves the PC on and changes no register else; SETI and ADDI set TR[D], BNZ decrements TR[A] and branches while it is not zero; DEQ takes the head of the queue, writes its 64 bytes at DST and sets TR[D]; RETIRE ends the tile's hold on the descriptor with the token, or counts a stale one and raises RETIRE_STALE; SYNC and END execute when nothing is dispatched, and END also stops the tile and raises DONE; SYNC and END with an instruction dispatched leave the PC. A D or A of 0 faults with BAD_SHAPE at the PC. (R148, R150, R151, R152, R168, R170, R172) -/
def Obligations.TileSequencerInstructions : Prop :=
  ∀ (t : Fin 160) (s : State) (b : Bytes), Memory.wf s.mem = true → plainHeader b →
    let pc := s.tpc t
    let d := byteAt b 8
    let a := byteAt b 9
    let imm := BitVec.ofNat 32 (leAt b 12 4)
    let same := fun (u : State) => (∀ x, u.byte x = s.byte x)
    let stays := fun (u : State) (n : Nat) => u.tpc t = n ∧ u.tileState t = 1
    (s.tileAt t 0 b → zeroAt b 8 24 = true → ∃ u, exec (.tileNop t) s = .next u ∧ stays u (pc + 32) ∧ same u ∧ (∀ r, r ≠ Reg.TILE_PC t → u.rd r = s.rd r)) ∧
    (s.tileAt t 1 b → 1 ≤ d → d ≤ 15 → ∃ u, exec (.seti t) s = .next u ∧ stays u (pc + 32) ∧ same u ∧ u.tr t d = imm ∧
      (∀ r, r ≠ Reg.TILE_PC t → r ≠ Reg.TR1 t + 4 * (d - 1) → u.rd r = s.rd r)) ∧
    (s.tileAt t 2 b → 1 ≤ d → d ≤ 15 → 1 ≤ a → a ≤ 15 → ∃ u, exec (.addi t) s = .next u ∧ stays u (pc + 32) ∧ same u ∧ u.tr t d = s.tr t a + imm ∧
      (∀ r, r ≠ Reg.TILE_PC t → r ≠ Reg.TR1 t + 4 * (d - 1) → u.rd r = s.rd r)) ∧
    (s.tileAt t 3 b → 1 ≤ a → a ≤ 15 → ∃ u, exec (.bnz t) s = .next u ∧
      stays u (if s.tr t a = 1 then pc + 32 else (((pc : Int) + signed 32 (leAt b 12 4) * 32) % 0x100000).toNat) ∧ same u ∧ u.tr t a = s.tr t a - 1 ∧
      (∀ r, r ≠ Reg.TILE_PC t → r ≠ Reg.TR1 t + 4 * (a - 1) → u.rd r = s.rd r)) ∧
    (s.tileAt t 4 b → 1 ≤ d → d ≤ 15 → ∀ q rest dst, (s.tile t).queue = q :: rest → localAt (s.trs t) b 16 = .ok dst → regionOk dst 1 = true → s.handing = [] →
      ∃ u, exec (.deq t) s = .next u ∧ stays u (pc + 32) ∧ (u.tile t).queue = rest ∧ (u.tile t).taken = (s.tile t).taken ++ [q] ∧
        u.tr t d = BitVec.ofNat 32 (q.kind * 2 ^ 24 + q.band * 2 ^ 16 + q.token) ∧
        (∀ i, i < 64 → u.byte (tileWin t + dst * 64 + i) = (cmdBytes q.bytes).getD i 0) ∧
        (∀ x, (x < tileWin t + dst * 64 ∨ tileWin t + dst * 64 + 64 ≤ x) → u.byte x = s.byte x) ∧
        (∀ r, r ≠ Reg.TILE_PC t → r ≠ Reg.TR1 t + 4 * (d - 1) → u.rd r = s.rd r)) ∧
    (s.tileAt t 5 b → a ≤ 15 →
      (∀ k, (s.tile t).taken.find? (fun k => k.token == bits (s.tr t a) 15 0) = some k → k.kind = 4 →
        ∃ u, exec (.retire t) s = .next u ∧ stays u (pc + 32) ∧ same u ∧ (u.tile t).taken = (s.tile t).taken.erase k) ∧
      ((s.tile t).taken.find? (fun k => k.token == bits (s.tr t a) 15 0) = none →
        ∃ u, exec (.retire t) s = .next u ∧ stays u (pc + 32) ∧ same u ∧ u.tile t = s.tile t ∧ u.flag (tilePage t + 0x10) 4 = true ∧
          u.rd (Reg.TILE_CNT_RETIRE_STALE t) = s.rd (Reg.TILE_CNT_RETIRE_STALE t) + 1)) ∧
    (zeroAt b 8 24 = true → (s.tile t).pend = [] →
      (s.tileAt t 6 b → ∃ u, exec (.sync t) s = .next u ∧ stays u (pc + 32) ∧ same u ∧ (∀ r, r ≠ Reg.TILE_PC t → u.rd r = s.rd r)) ∧
      (s.tileAt t 7 b → s.noYield t → ∃ u, exec (.tileEnd t) s = .next u ∧ u.tpc t = pc + 32 ∧ u.tileState t = 0 ∧
        u.flag (tilePage t + 0x10) 0 = true ∧ same u ∧ ∀ i, i < 16 → u.tr t i = s.tr t i)) ∧
    (zeroAt b 8 24 = true → (s.tile t).pend ≠ [] → (s.tileAt t 6 b → ∃ u, exec (.sync t) s = .next u ∧ stays u pc) ∧
      (s.tileAt t 7 b → ∃ u, exec (.tileEnd t) s = .next u ∧ stays u pc)) ∧
    (s.noYield t → ∀ op cmd, (op, cmd) ∈ [(1, Instr.seti t), (2, .addi t), (4, .deq t)] → s.tileAt t op b → d = 0 →
      ∃ u, exec cmd s = .next u ∧ u.tileState t = 2 ∧ u.fld (Reg.TILE_STS t) 29 24 = 2 ∧ u.tpc t = pc ∧ u.rd (Reg.TILE_FAULT t) = BitVec.ofNat 32 pc)

/-- A NOP that waits on a semaphore not zero takes one from it, one whose semaphore is zero leaves the tile; a POST adds one, and a POST at 65,535 faults the tile with SEM_OVF; SIGNAL raises SIGNAL. SEM_POST does the same as a POST. A 64-byte write to a queue port with room puts a WORK descriptor with the next token at the queue's end; another length, or a full queue, is counted and raises QDROP. START runs an idle tile that a partition owns. STOP with nothing dispatched returns a running tile to IDLE, with something dispatched it waits for it; a faulted tile returns to IDLE with the PC behind the faulting instruction. CODEC_CLR zeroes the codec's statistics. The completion of a unit's oldest instruction removes it and applies its POST. DET_DONE for an open item of the tile's partition marks its detection stage done; one for an unknown item is counted. (R148, R149, R168, R171, R173, R176, R177) -/
def Obligations.TileControlAndSemaphores : Prop :=
  (∀ (t : Fin 160) (s : State) (b : Bytes), s.tileAt t 0 b → zeroAt b 8 24 = true →
    let w := byteAt b 2 % 16
    let p := byteAt b 3 % 16
    (128 ≤ byteAt b 2 → byteAt b 3 < 128 → byteAt b 1 / 2 % 2 = 0 →
      (0 < s.tsem t w → ∃ u, exec (.tileNop t) s = .next u ∧ u.tsem t w = s.tsem t w - 1 ∧ u.tpc t = s.tpc t + 32 ∧ ∀ i, i < 16 → i ≠ w → u.tsem t i = s.tsem t i) ∧
      (s.tsem t w = 0 → ∃ u, exec (.tileNop t) s = .next u ∧ (∀ r, u.rd r = s.rd r) ∧ u.tiles = s.tiles)) ∧
    (byteAt b 2 < 128 → 128 ≤ byteAt b 3 → byteAt b 1 / 2 % 2 = 0 →
      (s.tsem t p < 65535 → ∃ u, exec (.tileNop t) s = .next u ∧ u.tsem t p = s.tsem t p + 1 ∧ u.tpc t = s.tpc t + 32 ∧ ∀ i, i < 16 → i ≠ p → u.tsem t i = s.tsem t i) ∧
      (s.tsem t p = 65535 → s.noYield t → ∃ u, exec (.tileNop t) s = .next u ∧ u.tileState t = 2 ∧ u.fld (Reg.TILE_STS t) 29 24 = 7)) ∧
    (byteAt b 2 < 128 → byteAt b 3 < 128 → byteAt b 1 / 2 % 2 = 1 → ∃ u, exec (.tileNop t) s = .next u ∧ u.flag (tilePage t + 0x10) 5 = true)) ∧
  (∀ (t : Fin 160) (i : Fin 16) (s : State),
    (s.tsem t i < 65535 → ∃ u, exec (.semPost t i) s = .next u ∧ u.tsem t i = s.tsem t i + 1 ∧ (∀ j, j < 16 → j ≠ i.val → u.tsem t j = s.tsem t j) ∧
      ∀ r, r ≠ Reg.TILE_SEM_01 t + 4 * (i / 2) → u.rd r = s.rd r) ∧
    (s.tsem t i = 65535 → s.noYield t → ∃ u, exec (.semPost t i) s = .next u ∧ u.tileState t = 2 ∧ u.fld (Reg.TILE_STS t) 29 24 = 7 ∧
      u.flag (tilePage t + 0x10) 1 = true)) ∧
  (∀ (t : Fin 160) (data : List Byte) (s : State),
    (data.length = 64 → s.queueTakes t = true → ∃ u, exec (.queuePortWrite t data) s = .next u ∧
      (u.tile t).queue = (s.tile t).queue ++ [⟨4, 0, (s.tile t).nextToken, 0, BitVec.ofNat 512 (leNat data)⟩] ∧
      (u.tile t).nextToken = ((s.tile t).nextToken + 1) % 65536 ∧ (∀ k, k ≠ t.val → u.tile k = s.tile k) ∧ ∀ r, u.rd r = s.rd r) ∧
    ((data.length ≠ 64 ∨ s.queueTakes t = false) → ∃ u, exec (.queuePortWrite t data) s = .next u ∧ u.tiles = s.tiles ∧
      u.rd (Reg.TILE_CNT_QDROP t) = s.rd (Reg.TILE_CNT_QDROP t) + 1 ∧ u.flag (tilePage t + 0x10) 3 = true)) ∧
  (∀ (t : Fin 160) (s : State), s.noYield t →
    (s.tileState t = 0 → s.tileFenced t = false → (s.tile t).stopping = false → s.tileOwner t ≠ none →
      ∃ u, exec (.tileStart t 1) s = .next u ∧ u.tileState t = 1 ∧ u.tpc t = s.tpc t ∧ ∀ r, r ≠ Reg.TILE_STS t → u.rd r = s.rd r) ∧
    (s.tileState t = 1 → (s.tile t).pend = [] → (s.tile t).yielding = false → ∃ u, exec (.tileStop t 2) s = .next u ∧ u.tileState t = 0 ∧ u.tpc t = s.tpc t ∧
      ∀ r, r ≠ Reg.TILE_STS t → u.rd r = s.rd r) ∧
    (s.tileState t = 1 → (s.tile t).pend ≠ [] → ∃ u, exec (.tileStop t 2) s = .next u ∧ (u.tile t).stopping = true ∧ ∀ r, u.rd r = s.rd r) ∧
    (s.tileState t = 2 → let pc := s.fld (Reg.TILE_FAULT t) 19 5 * 32
      ∃ u, exec (.tileStop t 2) s = .next u ∧ u.tileState t = 0 ∧ u.tpc t = (pc + if byteAt (s.tld t pc 1) 0 = 0x11 then 64 else 32) % 0x100000) ∧
    ∃ u, exec (.codecClr t 4) s = .next u ∧ u.rd (Reg.CODEC_SSE_LO t) = 0 ∧ u.rd (Reg.CODEC_SSE_HI t) = 0 ∧ u.rd (Reg.CODEC_MAXERR t) = 0 ∧
      (∀ r, r ≠ Reg.CODEC_SSE_LO t → r ≠ Reg.CODEC_SSE_HI t → r ≠ Reg.CODEC_MAXERR t → u.rd r = s.rd r) ∧ u.tiles = s.tiles) ∧
  (∀ (t : Fin 160) (k : Fin 5) (s : State) (p : TPend), (s.tile t).pend.find? (fun p => p.unit == unitNo k) = some p → p.ran = true → p.sat = false →
    (s.tile t).stopping = false → unitNo k ≠ .lsend →
    let b := cmdBytes p.slot
    let i := byteAt b 3 % 16
    byteAt b 1 / 2 % 2 = 0 → (byteAt b 3 < 128 ∨ s.tsem t i < 65535) →
    ∃ u, exec (.instructionComplete t k) s = .next u ∧ (u.tile t).pend = (s.tile t).pend.erase p ∧
      (∀ j, j < 16 → u.tsem t j = if 128 ≤ byteAt b 3 ∧ j = i then s.tsem t i + 1 else s.tsem t j) ∧ u.tpc t = s.tpc t) ∧
  (∀ (t : Fin 160) (v : Word) (s : State), let id := (s.rd (Reg.DET_DONE_LO t)).toNat + v.toNat * 2 ^ 32
    (s.item id = none → ∃ u, exec (.detDone t v) s = .next u ∧ u.rd (Reg.TILE_CNT_DET_STALE t) = s.rd (Reg.TILE_CNT_DET_STALE t) + 1 ∧ u.items = s.items) ∧
    (∀ it, s.item id = some it → it.done.getLsbD 1 = false → it.done.getLsbD 4 = false → (s.tileOwner t = some it.part ∨ it.shadow ≠ none) →
      ∃ u, exec (.detDone t v) s = .next u ∧ (∃ it', u.item id = some it' ∧ it'.done.getLsbD 1 = true ∧ it'.sealInfo = it.sealInfo) ∧
        (∀ j, j ≠ id → u.item j = s.item j) ∧ ∀ r, u.rd r = s.rd r))

/-- For a tile whose sequencer has come to the instruction, without WAIT, and whose unit is free: where the operation accepts its operands, the instruction is appended to the tile's dispatched ones with its work done, the PC moves behind its one slot, or CONV's two, and memory is that of the operation, which leaves every byte outside the tile's own window as it was. A PWISE COPY of one fp32 column-row writes its 64 values unchanged at OUT and changes no other byte. Where the operation faults, the tile stands in FAULT with the operation's code and TILE_PC at the instruction. (R148, R151, R153, R155, R165, R166, R167, R172) -/
def Obligations.TileArrayAndVectorInstructions : Prop :=
  ∀ (t : Fin 160) (s : State) (b : Bytes), Memory.wf s.mem = true → byteAt b 2 < 128 →
    let pc := s.tpc t
    let b1 := b.take 32 ++ zeros 32
    let trs := s.trs t
    (∀ op cmd un n bb, (op, cmd, un, n, bb) ∈ [(0x10, Instr.matmul t, TUnit.array, 32, b1), (0x11, .conv t, .array, 64, b), (0x20, .pwise t, .vector, 32, b1),
        (0x21, .tileNorm t, .vector, 32, b1)] → s.tileAt t op b → s.unitFree t un →
      (∀ v sat, (s.setTpc t (pc + n)).runUnit t bb trs = .ok (some (v, sat)) →
        ∃ u p, exec cmd s = .next u ∧ u.tpc t = pc + n ∧ u.tileState t = 1 ∧ (u.tile t).pend = (s.tile t).pend ++ [p] ∧
          p.unit = un ∧ p.ran = true ∧ p.pc = pc ∧ (∀ x, u.byte x = v.byte x) ∧
          ∀ x, (x < tileWin t ∨ tileWin t + 0x200000 ≤ x) → u.byte x = s.byte x) ∧
      (∀ f, s.noYield t → (s.setTpc t (pc + n)).runUnit t bb trs = .error f → ∃ u, exec cmd s = .next u ∧ u.tileState t = 2 ∧ u.tpc t = pc ∧
        u.fld (Reg.TILE_STS t) 29 24 = f.code ∧ u.rd (Reg.TILE_FAULT t) = BitVec.ofNat 32 pc)) ∧
    (s.tileAt t 0x20 b → s.unitFree t .vector → byteAt b 3 < 128 → ∀ a o k, tfield b 31 10 = 0 → zeroAt b 28 4 = true → tfield b 3 0 = 0 → tfield b 5 4 = 2 →
      tfield b 7 6 ≤ 3 → tfield b 9 8 = 2 → leAt b 24 4 = 1 → localAt trs b 8 = .ok a → localAt trs b 16 = .ok o → localAt trs b 20 = .ok k →
      s.region t a 4 = .ok () → regionOk o 4 = true → s.region t k 1 = .ok () → zeroAt (s.tld t (k * 64) 32) 18 2 = true → zeroAt (s.tld t (k * 64) 32) 30 2 = true →
      ∃ u, exec (.pwise t) s = .next u ∧ (∀ i, i < 256 → u.byte (tileWin t + o * 64 + i) = s.byte (tileWin t + a * 64 + i)) ∧
        ∀ x, (x < tileWin t + o * 64 ∨ tileWin t + o * 64 + 256 ≤ x) → u.byte x = s.byte x)

/-- For a tile whose sequencer has come to the instruction, without WAIT, and whose unit is free: a LOAD of one row without codec copies the row's bytes from HBM the partition is granted to tile memory and changes no other byte; a STORE of one row copies tile memory to HBM; HSEND of one row to a tile of the same partition appends the row as a message to the receiver's buffer of this link; HRECV takes the oldest message of its length into tile memory, and with none waiting stays dispatched until one comes; a message of another length faults with LINK_LEN. A link that is absent faults with LINK_ABSENT. (R160, R163, R164, R148, R172, R142) -/
def Obligations.TileTransferInstructions : Prop :=
  ∀ (t : Fin 160) (s : State) (b : Bytes), Memory.wf s.mem = true → byteAt b 2 < 128 →
    let pc := s.tpc t
    let b1 := b.take 32 ++ zeros 32
    let trs := s.trs t
    let put := fun (u : State) (un : TUnit) (ran : Bool) => u.tpc t = pc + 32 ∧ u.tileState t = 1 ∧
      ∃ p, (u.tile t).pend = (s.tile t).pend ++ [p] ∧ p.unit = un ∧ p.ran = ran ∧ p.pc = pc
    (∀ d, DmaOp.read b1 trs = .ok d → d.rows = 1 → d.codec = 0 → d.ext + d.len * 64 ≤ 0xC00000000 → s.unitFree t .dma →
      let lo := tileWin t + d.loc * 64
      (s.tileAt t 0x30 b → s.tileMem t d.ext (d.len * 64) false = true → ∃ u, exec (.tileLoad t) s = .next u ∧ put u .dma true ∧
        (∀ i, i < d.len * 64 → u.byte (lo + i) = s.byte (d.ext + i)) ∧ ∀ x, (x < lo ∨ lo + d.len * 64 ≤ x) → u.byte x = s.byte x) ∧
      (s.tileAt t 0x31 b → s.tileMem t d.ext (d.len * 64) true = true → s.region t d.loc d.len = .ok () → ∃ u, exec (.tileStore t) s = .next u ∧ put u .dma true ∧
        (∀ i, i < d.len * 64 → u.byte (d.ext + i) = s.byte (lo + i)) ∧ ∀ x, (x < d.ext ∨ d.ext + d.len * 64 ≤ x) → u.byte x = s.byte x)) ∧
    (∀ d loc len pitch, linkOp b1 trs = .ok (d, 1, loc, len, pitch) →
      (s.tileAt t 0x38 b → s.unitFree t .lsend → s.region t loc len = .ok () →
        (∀ k, s.linkTile t d = some k → ∃ u, exec (.hsend t) s = .next u ∧ put u .lsend true ∧
          (u.tile k).links.get [] t = (s.tile k).links.get [] t ++ [s.tld t (loc * 64) (len * 64)] ∧ ∀ x, u.byte x = s.byte x) ∧
        (s.noYield t → s.linkTile t d = none → ∃ u, exec (.hsend t) s = .next u ∧ u.tileState t = 2 ∧ u.fld (Reg.TILE_STS t) 29 24 = 5 ∧ u.tpc t = pc)) ∧
      (s.tileAt t 0x39 b → s.unitFree t .lrecv →
        (∀ k, s.linkTile t d = some k →
          ((s.tile t).links.get [] k = [] → ∃ u, exec (.hrecv t) s = .next u ∧ put u .lrecv false ∧ ∀ x, u.byte x = s.byte x) ∧
          (∀ msg rest, (s.tile t).links.get [] k = msg :: rest → msg.length = len * 64 → ∃ u, exec (.hrecv t) s = .next u ∧ put u .lrecv true ∧
            (u.tile t).links.get [] k = rest ∧ (∀ i, i < len * 64 → u.byte (tileWin t + loc * 64 + i) = msg.getD i 0) ∧
            ∀ x, (x < tileWin t + loc * 64 ∨ tileWin t + loc * 64 + len * 64 ≤ x) → u.byte x = s.byte x) ∧
          (∀ msg rest, (s.tile t).links.get [] k = msg :: rest → msg.length ≠ len * 64 → s.noYield t →
            ∃ u, exec (.hrecv t) s = .next u ∧ u.tileState t = 2 ∧ u.fld (Reg.TILE_STS t) 29 24 = 6 ∧ (u.tile t).links.get [] k = rest)) ∧
        (s.noYield t → s.linkTile t d = none → ∃ u, exec (.hrecv t) s = .next u ∧ u.tileState t = 2 ∧ u.fld (Reg.TILE_STS t) 29 24 = 5 ∧ u.tpc t = pc)))

/-- Of the commands that an enabled attention unit executes: SEQ_OPEN, where it completes OK, makes a sequence with the answered handle for its item with no tokens and 9 own pages, or 16 contiguous ones; SEQ_END of a sequence that no open step names removes it and frees its own pages; PFX_ACQUIRE of at most 16 tokens on an empty unit, where it completes OK, makes one FILLING node of those tokens held by the caller; PFX_RELEASE takes one hold of the caller from a node, and leaves the nodes when the caller holds none. A post to a unit's semaphore adds one, or sets SEM_OVF at 65,535. A write of 1 to ENABLE of a disabled unit whose pools and table are in order enables it, otherwise CFG_ERR is set; a write of 0 with no step open ends its sequences, frees every node and disables it, and with a step open waits for the step. (R199, R200, R206, R208, R226, R227) -/
def Obligations.SequenceAndPrefixCommands : Prop :=
  (∀ (q : Fin 2048) (s : State) (u : Nat) (d : BitVec 512),
    let b := cmdBytes d
    let qu := s.queue q
    (s.auTakes q 0x40 u d → (s.effSeqOpen u qu b).2.1 = .ok → let h := (s.effSeqOpen u qu b).2.2
      ∃ t x, exec (.seqOpen q) s = .next t ∧ t.seqs.look (h % 16384) = some x ∧ x.handle = h ∧ x.unit = u ∧ x.item = leAt b 0 8 ∧ x.len = 0 ∧
        x.root = leAt b 14 2 ∧ x.endTok = leAt b 30 2 ∧ x.leaf = (if leAt b 24 4 = 0xFFFFFFFF then none else some (leAt b 24 4)) ∧
        x.pages.length = (if byteAt b 13 % 2 = 1 then 16 else 9) ∧ ∀ j, j ≠ h % 16384 → t.seqs.look j = s.seqs.look j) ∧
    (s.auTakes q 0x41 u d → zeroAt b 4 12 = true → zeroAt b 18 2 = true → zeroAt b 24 40 = true → ∀ x, s.seqOf qu u (leAt b 0 4) = some x →
      s.stepNames u (leAt b 0 4) = false →
      ∃ t, exec (.seqEnd q) s = .next t ∧ t.seqs = s.seqs.erase (leAt b 0 4 % 16384) ∧ (∀ p ∈ x.pages, (t.aunit u).own.contains p = false)) ∧
    (s.auTakes q 0x42 u d → (s.effPfxAcquire u qu b).2.1 = .ok → (s.aunit u).nodes = [] → leAt b 8 2 ≤ 16 → s.poolPages u 0 ≤ 524288 → s.poolPages u 1 ≤ 524288 →
      ∃ t k n, exec (.pfxAcquire q) s = .next t ∧ (t.aunit u).nodes = [(k, n)] ∧ n.acq = [callerOf qu] ∧ n.ready = false ∧ n.parent = none ∧
        n.toks.length = leAt b 8 2 ∧ (∀ j, j ≠ u → t.aunit j = s.aunit j) ∧ t.seqs = s.seqs) ∧
    (s.auTakes q 0x43 u d → zeroAt b 4 12 = true → zeroAt b 18 2 = true → zeroAt b 24 40 = true → ∀ n, (s.aunit u).node (leAt b 0 4) = some n →
      (n.acq.contains (callerOf qu) = true → n.refs ≠ 0 → ∃ t, exec (.pfxRelease q) s = .next t ∧
        (t.aunit u).node (leAt b 0 4) = some { n with acq := n.acq.erase (callerOf qu) }) ∧
      (n.refs = 0 → n.acq = [callerOf qu] → n.ready = true → ∃ t, exec (.pfxRelease q) s = .next t ∧
        (t.aunit u).node (leAt b 0 4) = some { n with acq := [], stamp := s.now }) ∧
      (n.acq.contains (callerOf qu) = false → ∃ t, exec (.pfxRelease q) s = .next t ∧ t.aunits = s.aunits))) ∧
  (∀ (u : Fin 8) (s : State) (i : Nat) (cmd : Instr), ((∃ data, i = byteAt data 0 % 16 ∧ cmd = .postPort u data) ∨ (∃ v, i = bits v 3 0 ∧ cmd = .auSemPost u v)) →
    (s.auSem u i < 65535 → ∃ t, exec cmd s = .next t ∧ t.auSem u i = s.auSem u i + 1 ∧ (∀ j, j < 16 → j ≠ i → t.auSem u j = s.auSem u j) ∧
      ∀ r, r ≠ Reg.AU_SEM_01 u + 4 * (i / 2) → t.rd r = s.rd r) ∧
    (s.auSem u i = 65535 → ∃ t, exec cmd s = .next t ∧ t.auSem u i = 65535 ∧ t.flag (Reg.AU_STS u) 29 = true ∧ t.flag (auPage u + 0x10) 1 = true)) ∧
  (∀ (u : Fin 8) (data : List Byte) (v : Word) (s : State), (∃ t, exec (.postPort u data) s = .next t ∧ t.aunits = s.aunits) ∧
    ∃ t, exec (.auSemPost u v) s = .next t ∧ t.aunits = s.aunits) ∧
  (∀ (req : BitVec 16) (u : Fin 8) (v : Word) (s : State),
    (s.flag (Reg.AU_CTL u) 0 = false → (s.store req (Reg.AU_CTL u) (v ||| 1)).2 = true →
      ((s.store req (Reg.AU_CTL u) (v ||| 1)).1.auOk u = true → ∃ t, exec (.auEnable req u v) s = .next t ∧ t.flag (Reg.AU_CTL u) 0 = true ∧
        t.flag (Reg.AU_STS u) 30 = false ∧ t.flag (Reg.AU_STS u) 29 = false ∧ (t.aunit u).disabling = false) ∧
      ((s.store req (Reg.AU_CTL u) (v ||| 1)).1.auOk u = false → ∃ t, exec (.auEnable req u v) s = .next t ∧ t.flag (Reg.AU_CTL u) 0 = false ∧
        t.flag (Reg.AU_STS u) 30 = true)) ∧
    (s.flag (Reg.AU_CTL u) 0 = true → (s.store req (Reg.AU_CTL u) (v &&& 0xFFFFFFFE)).2 = true →
      ((s.aunit u).step = none → s.seqs.rising = true → ∃ t, exec (.auDisable req u v) s = .next t ∧ t.flag (Reg.AU_CTL u) 0 = false ∧
        (t.aunit u).nodes = [] ∧ (t.aunit u).own = [] ∧ t.resident u = 0) ∧
      ((s.aunit u).step ≠ none → ∃ t, exec (.auDisable req u v) s = .next t ∧ t.flag (Reg.AU_CTL u) 0 = true ∧ (t.aunit u).disabling = true ∧ t.seqs = s.seqs)))

/-- Of the commands that an enabled attention unit executes: STEP_OPEN of a well-formed, readable table on a unit without a step opens the step with the table's address, QSTEP and one member per entry, in order. ATTEND and VERIFY whose WAIT semaphore is 0 hold their queue and change nothing of the unit. ATTEND that completes OK leaves the step open and the unit's own state as it was, and memory outside the queue's own areas as its operation made it; VERIFY that completes OK closes the step and raises STEP_DONE. Each completion moves its queue's head past the command. Naming no open step, ATTEND and VERIFY complete NO_STEP and change no step. (R214, R215, R216, R218, R219, R221, R223, R224) -/
def Obligations.BatchStepCommands : Prop :=
  ∀ (q : Fin 2048) (s : State) (u : Nat) (d : BitVec 512), Memory.wf s.mem = true →
    let b := cmdBytes d
    let qu := s.queue q
    let gone := fun (t : State) (op : Nat) => (t.queue q).cur = none ∧ (t.queue q).head = (qu.head + slotsOf op) % 65536
    (qu.state = .run ∨ qu.state = .error) →
    (s.auTakes q 0x47 u d → zeroAt b 8 8 = true → zeroAt b 18 2 = true → zeroAt b 24 40 = true → (s.aunit u).step = none →
      let a := leAt b 0 8
      let h := (s.ldUnit a 64).1
      let n := leAt h 0 2
      s.memStop qu a 64 false = none → 1 ≤ n → n ≤ 256 → 1 ≤ byteAt h 2 → byteAt h 2 ≤ 16 → n * byteAt h 2 ≤ 4096 → zeroAt h 3 61 = true →
      s.memStop qu (a + 64) (32 * n) false = none → (∀ m, m < n → entryOk (s.ldUnit (a + 64 + 32 * m) 32).1 = true) →
      ∃ t st, exec (.stepOpen q) s = .next t ∧ gone t 0x47 ∧ (t.aunit u).step = some st ∧ st.table = a ∧ st.qstep = byteAt h 2 ∧ st.members.length = n ∧
        ∀ j, j ≠ u → t.aunit j = s.aunit j) ∧
    (s.auTakes q 0x48 u d →
      (∀ v r, s.effAttend u qu b = some (v, .ok, r) → byteAt b 11 < 128 → ∃ t, exec (.attend q) s = .next t ∧ gone t 0x48 ∧ t.aunits = s.aunits ∧ t.seqs = s.seqs ∧
        qu.rest v t) ∧
      (128 ≤ byteAt b 10 → s.auSem u (byteAt b 10 % 16) = 0 → byteAt b 9 ≤ 1 → semByteOk (byteAt b 10) = true → semByteOk (byteAt b 11) = true →
        leAt b 12 2 = 0xFFFF → zeroAt b 14 2 = true → zeroAt b 18 2 = true → zeroAt b 40 24 = true →
        (∀ st, s.openStep u (leAt b 0 8) = some st → (s.liveRows u st).all (fun r => decide (byteAt b 8 < r.2.2.2.layers)) = true) →
        (s.openStep u (leAt b 0 8)).isSome = true →
        ∃ t, exec (.attend q) s = .next t ∧ (∀ x, t.byte x = s.byte x) ∧ (∀ r, t.rd r = s.rd r) ∧ t.qs = s.qs ∧ t.aunits = s.aunits)) ∧
    (s.auTakes q 0x4A u d →
      (∀ v r, s.effVerify u qu b = some (v, .ok, r) → byteAt b 19 < 128 → ∃ t, exec (.verify q) s = .next t ∧ gone t 0x4A ∧ (t.aunit u).step = none ∧
        t.flag (auPage u + 0x10) 0 = true ∧ t.seqs = v.seqs ∧ qu.rest v t) ∧
      (128 ≤ byteAt b 18 → s.auSem u (byteAt b 18 % 16) = 0 → semByteOk (byteAt b 18) = true → semByteOk (byteAt b 19) = true → leAt b 24 2 = 0xFFFF →
        zeroAt b 26 6 = true → zeroAt b 40 24 = true →
        ∃ t, exec (.verify q) s = .next t ∧ (∀ x, t.byte x = s.byte x) ∧ (∀ r, t.rd r = s.rd r) ∧ t.qs = s.qs ∧ t.aunits = s.aunits) ∧
      (byteAt b 18 < 128 → byteAt b 19 < 128 → semByteOk (byteAt b 18) = true → semByteOk (byteAt b 19) = true → leAt b 24 2 = 0xFFFF →
        zeroAt b 26 6 = true → zeroAt b 40 24 = true → s.openStep u (leAt b 0 8) = none →
        ∃ t, exec (.verify q) s = .next t ∧ gone t 0x4A ∧ t.aunits = s.aunits ∧ t.seqs = s.seqs))

/-- Of the commands that the enabled TGU executes: each load that completes OK puts the image of the command in its free slot and changes no other slot; LEX_REGISTER of an aligned, readable region with room registers it; each unload of a loaded slot in no use empties that slot, and leaves a slot in use. A write of 1 to ENABLE of the disabled TGU whose regions are in order enables it and clears CFG_ERR, otherwise CFG_ERR is set and it stays disabled; a write of 0 disables it when no context is open and sets CFG_ERR otherwise. (R229, R230, R237, R238, R239, R253, R254) -/
def Obligations.TguImagesAndRegions : Prop :=
  (∀ (q : Fin 2048) (s : State) (d : BitVec 512),
    let b := cmdBytes d
    let qu := s.queue q
    let i := byteAt b 8
    let img := s.ld (leAt b 0 8) 64
    (s.tguTakes q 0x60 d → (s.effVocLoad qu b).2.1 = .ok → ∃ t v, exec (.vocLoad q) s = .next t ∧ t.vocs = s.vocs.insert i v ∧ s.voc i = none ∧ v.img = leAt b 0 8 ∧
      v.vocab = leAt img 4 4 ∧ v.tag = BitVec.ofNat 64 (leAt img 8 8) ∧ v.noMatch = (byteAt b 9 % 2 == 1) ∧ t.norms = s.norms ∧ t.grms = s.grms ∧ t.lexs = s.lexs) ∧
    (s.tguTakes q 0x62 d → (s.effNormLoad qu b).2.1 = .ok → ∃ t n, exec (.normLoad q) s = .next t ∧ t.norms = s.norms.insert i n ∧ s.norms.look i = none ∧
      n.img = leAt b 0 8 ∧ n.nb = leAt img 4 4 ∧ n.nm = leAt img 8 4 ∧ n.np = leAt img 12 4 ∧ t.vocs = s.vocs ∧ t.grms = s.grms ∧ t.lexs = s.lexs) ∧
    (s.tguTakes q 0x64 d → (s.effGrmLoad qu b).2.1 = .ok → ∃ t g, exec (.grmLoad q) s = .next t ∧ t.grms = s.grms.insert (leAt b 8 2) g ∧ s.grm (leAt b 8 2) = none ∧
      g.img = leAt b 0 8 ∧ g.nstates = leAt img 4 4 ∧ g.start = leAt img 24 4 ∧ g.voc = byteAt b 10 ∧ t.vocs = s.vocs ∧ t.norms = s.norms ∧ t.lexs = s.lexs) ∧
    (s.tguTakes q 0x66 d → zeroAt b 10 2 = true → zeroAt b 18 2 = true → zeroAt b 32 32 = true → leAt b 0 8 % 8 = 0 → byteAt b 9 < 8 → s.lexs.look i = none →
      (s.voc (byteAt b 9)).isSome = true → s.lexBytes + leAt b 24 8 ≤ 2147483648 → s.memStop qu (leAt b 0 8) (leAt b 24 8) false = none →
      ∃ t, exec (.lexRegister q) s = .next t ∧ t.lexs = s.lexs.insert i { base := leAt b 0 8, bytes := leAt b 24 8, root := leAt b 12 4, voc := byteAt b 9 } ∧
        t.vocs = s.vocs ∧ t.norms = s.norms ∧ t.grms = s.grms) ∧
    (slotOnly b false = true →
      (s.tguTakes q 0x61 d → i < 8 → (s.voc i).isSome = true →
        (s.vocUsed i = false → ∃ t, exec (.vocUnload q) s = .next t ∧ t.vocs = s.vocs.erase i ∧ t.norms = s.norms ∧ t.grms = s.grms ∧ t.lexs = s.lexs) ∧
        (s.vocUsed i = true → ∃ t, exec (.vocUnload q) s = .next t ∧ t.vocs = s.vocs)) ∧
      (s.tguTakes q 0x63 d → i < 4 → (s.norms.look i).isSome = true → s.gctxs.any (fun (e : Nat × GCtx) => e.2.norm == some i) = false →
        ∃ t, exec (.normUnload q) s = .next t ∧ t.norms = s.norms.erase i ∧ t.vocs = s.vocs ∧ t.grms = s.grms ∧ t.lexs = s.lexs) ∧
      (s.tguTakes q 0x67 d → (s.lexs.look i).isSome = true → s.gctxs.any (fun (e : Nat × GCtx) => e.2.threads.any (fun t => match t with
          | .lex l _ _ => l == i
          | _ => false)) = false →
        ∃ t, exec (.lexUnregister q) s = .next t ∧ t.lexs = s.lexs.erase i ∧ t.vocs = s.vocs ∧ t.norms = s.norms ∧ t.grms = s.grms)) ∧
    (slotOnly b true = true → s.tguTakes q 0x65 d → leAt b 8 2 < 256 → (s.grm (leAt b 8 2)).isSome = true →
      s.gctxs.any (fun (e : Nat × GCtx) => e.2.grammar == some (leAt b 8 2)) = false →
      ∃ t, exec (.grmUnload q) s = .next t ∧ t.grms = s.grms.erase (leAt b 8 2) ∧ t.vocs = s.vocs ∧ t.norms = s.norms ∧ t.lexs = s.lexs)) ∧
  (∀ (v : Word) (s : State),
    (s.flag Reg.TGU_CTL 0 = false → s.tguOk = true → ∃ t, exec (.tguEnable v) s = .next t ∧ t.flag Reg.TGU_CTL 0 = true ∧ t.flag Reg.TGU_STS 31 = false ∧
      ∀ r, r ≠ Reg.TGU_CTL → r ≠ Reg.TGU_STS → t.rd r = s.rd r) ∧
    (s.flag Reg.TGU_CTL 0 = false → s.tguOk = false → ∃ t, exec (.tguEnable v) s = .next t ∧ t.flag Reg.TGU_CTL 0 = false ∧ t.flag Reg.TGU_STS 31 = true ∧
      ∀ r, r ≠ Reg.TGU_STS → t.rd r = s.rd r) ∧
    (s.gctxs = [] → ∃ t, exec (.tguDisable v) s = .next t ∧ t.flag Reg.TGU_CTL 0 = false ∧ ∀ r, r ≠ Reg.TGU_CTL → t.rd r = s.rd r) ∧
    (s.gctxs ≠ [] → ∃ t, exec (.tguDisable v) s = .next t ∧ t.rd Reg.TGU_CTL = s.rd Reg.TGU_CTL ∧ t.flag Reg.TGU_STS 31 = true))

/-- Of the commands that the enabled TGU executes on a queue that runs or is in error: GCTX_OPEN that completes OK makes a context with the answered handle for its item and field whose candidate list is drafted; ADVANCE that completes OK adds its tokens to the context's TOKENS and COMMIT_GEN and makes a draft due, and a first token the mask does not allow leaves every context; MASK writes the mask of the context's committed state at its address and nothing else but the queue's own areas; GCTX_CLOSE and a completed CHECK close the context and no other, where the item still waits for its result; TOKENIZE writes its tokens and leaves every context. A draft that is due sets CAND_GEN to COMMIT_GEN with at most DRAFT_MAX candidates. GRM_DONE marks the item, and counts one for an unknown item. (R235, R241, R245, R247, R248, R249, R250, R251) -/
def Obligations.TguContextsAndText : Prop :=
  (∀ (q : Fin 2048) (s : State) (d : BitVec 512), Memory.wf s.mem = true →
    let b := cmdBytes d
    let qu := s.queue q
    (s.tguTakes q 0x69 d → (s.effGctxOpen q qu b).2.1 = .ok → let h := (s.effGctxOpen q qu b).2.2
      ∃ t c, exec (.gctxOpen q) s = .next t ∧ t.gctxs.look (h % 32768) = some c ∧ c.handle = h ∧ c.item = leAt b 0 8 ∧ c.field = leAt b 14 2 ∧ c.voc = byteAt b 10 ∧
        c.bound = false ∧ c.tokens = 0 ∧ c.drafting = false ∧ c.queue = some q.val ∧ ∀ j, j ≠ h % 32768 → t.gctxs.look j = s.gctxs.look j) ∧
    (∀ i c, s.gctxOf qu (leAt b 0 4) = some (i, c) → c.bound = false →
      (s.tguTakes q 0x6A d → zeroAt b 4 12 = true → zeroAt b 18 2 = true → zeroAt b 24 40 = true → s.resultOpen c.item →
        ∃ t, exec (.gctxClose q) s = .next t ∧ t.gctxs.look i = none ∧ ∀ j, j ≠ i → t.gctxs.look j = s.gctxs.look j) ∧
      (s.tguTakes q 0x6B d →
        ((s.effAdvance qu b).2.1 = .ok → ∃ t c', exec (.advance q) s = .next t ∧ t.gctxs.look i = some c' ∧ c'.tokens = c.tokens + byteAt b 4 ∧
          c'.commitGen = (c.commitGen + byteAt b 4) % 2 ^ 32 ∧ c'.drafting = true ∧ c'.handle = c.handle ∧ ∀ j, j ≠ i → t.gctxs.look j = s.gctxs.look j) ∧
        (zeroAt b 5 11 = true → zeroAt b 18 2 = true → zeroAt b 56 8 = true → 1 ≤ byteAt b 4 → byteAt b 4 ≤ 16 → c.allows s c.threads (leAt b 24 2) = false →
          ∃ t, exec (.advance q) s = .next t ∧ t.gctxs = s.gctxs)) ∧
      (s.tguTakes q 0x6D d → (s.effCheck qu b).2.1 = .ok → s.resultOpen c.item → ∃ t, exec (.grmCheck q) s = .next t ∧ t.gctxs.look i = none ∧
        ∀ j, j ≠ i → t.gctxs.look j = s.gctxs.look j)) ∧
    (s.tguTakes q 0x6C d → zeroAt b 4 12 = true → zeroAt b 18 2 = true → zeroAt b 32 32 = true → leAt b 24 8 % 64 = 0 → ∀ i c, s.gctxOf qu (leAt b 0 4) = some (i, c) →
      s.memStop qu (leAt b 24 8) 8192 true = none →
      ∃ t, exec (.grmMask q) s = .next t ∧ qu.rest (s.stUnit (leAt b 24 8) (c.maskBytes s c.threads)) t ∧ t.gctxs = s.gctxs) ∧
    (s.tguTakes q 0x68 d → (s.effTokenize qu b).2.1 = .ok → ∃ t, exec (.tokenize q) s = .next t ∧ qu.rest (s.effTokenize qu b).1 t ∧ t.gctxs = s.gctxs ∧
      (t.queue q).cur = none)) ∧
  (∀ (i : Fin 32768) (s : State) (c : GCtx), s.gctxs.look i = some c → c.drafting = true →
    ∃ t c', exec (.draft i) s = .next t ∧ t.gctxs.look i = some c' ∧ c'.drafting = false ∧ c'.candGen = c.commitGen ∧ c'.cands.length ≤ c.draftMax ∧
      c'.threads = c.threads ∧ ∀ j, j ≠ i.val → t.gctxs.look j = s.gctxs.look j) ∧
  (∀ (v : Word) (s : State), let id := (s.rd Reg.GRM_DONE_LO).toNat + v.toNat * 2 ^ 32
    (s.item id = none → ∃ t, exec (.grmDone v) s = .next t ∧ t.rd Reg.TGU_CNT_GRM_STALE = s.rd Reg.TGU_CNT_GRM_STALE + 1 ∧ t.items = s.items) ∧
    (∀ it, s.item id = some it → it.done.getLsbD 3 = false → it.done.getLsbD 4 = false → ∃ t it', exec (.grmDone v) s = .next t ∧ t.item id = some it' ∧
      it'.grmWritten = true ∧ it'.sealInfo = it.sealInfo ∧ (it.done.getLsbD 2 = true → s.ctxNames id = false → it'.done.getLsbD 3 = true) ∧
      (∀ j, j ≠ id → t.item j = s.item j) ∧ ∀ r, t.rd r = s.rd r))

/-- A launch of a good record at an unfenced core that a partition owns starts its lowest-numbered parked hart at CORE_ENTRY in machine mode with the record's four words in x10 to x13, its MODE and URG in x14 and the hart's number in x15, all other registers zero, and counts it; with no hart parked it waits at the end of the core's queue of 64; a bad one, or one with no room, is counted and raises LAUNCH_DROP. An IPI sets MSIP, or SSIP with bit 30, of its hart and nothing else, and names no hart above 49,151. A keyed BOOT of a valid image, in HANDOVER or CHRYSALIS and with no programming under way, starts hart 0 at the image's ENTRY, gives every core that entry, FW_VER the image's VERSION; an invalid source sets FW_ERR. A keyed PROGRAM of a valid image erases the slot not loaded and sets FW_BUSY; its end clears FW_BUSY, raises FW_DONE and, when the read-back matched, the slot holds the image. (R273, R274, R276, R277, R278, R279) -/
def Obligations.LaunchesInterruptsAndFirmware : Prop :=
  (∀ (c : Fin 96) (r : BitVec 512) (s : State),
    (launchOk r = true → s.coreOwner c ≠ none → s.flag (corePage c + 0xC) 30 = false →
      (∀ h, s.parkedHart c = some h → ∃ t, exec (.coreLaunch c r true) s = .next t ∧ (t.hart h).run = .running ∧ (t.hart h).mode = .m ∧
        (t.hart h).pc = BitVec.ofNat 64 (s.addr48 (Reg.CORE_ENTRY_LO c) (Reg.CORE_ENTRY_HI c)) ∧
        (∀ i, i < 4 → (t.hart h).x.get 0 (10 + i) = BitVec.ofNat 64 (launchWord r i)) ∧
        (t.hart h).x.get 0 14 = BitVec.ofNat 64 (launchMode r + 256 * launchUrg r) ∧ (t.hart h).x.get 0 15 = BitVec.ofNat 64 h ∧
        (∀ i, i < 10 ∨ 15 < i → (t.hart h).x.get 0 i = 0) ∧ (t.hart h).f = [] ∧ (t.hart h).vi = 0 ∧ (t.hart h).slot = none ∧
        (∀ k, k ≠ h → t.hart k = s.hart k) ∧ t.rd Reg.TF_CNT_LAUNCHES = s.rd Reg.TF_CNT_LAUNCHES + 1 ∧
        ∀ a, a ≠ Reg.TF_CNT_LAUNCHES → t.rd a = s.rd a) ∧
      (s.parkedHart c = none → (s.core c).launchQ.length < 64 → ∃ t, exec (.coreLaunch c r true) s = .next t ∧
        (t.core c).launchQ = (s.core c).launchQ ++ [r] ∧ t.harts = s.harts ∧ (∀ k, k ≠ c.val → t.core k = s.core k) ∧ ∀ a, t.rd a = s.rd a)) ∧
    (∀ whole, (whole = false ∨ launchOk r = false ∨ s.coreOwner c = none ∨ (s.parkedHart c = none ∧ 64 ≤ (s.core c).launchQ.length)) →
      ∃ t, exec (.coreLaunch c r whole) s = .next t ∧ t.harts = s.harts ∧ t.cores = s.cores ∧
        t.rd (Reg.CORE_CNT_LAUNCH_DROP c) = s.rd (Reg.CORE_CNT_LAUNCH_DROP c) + 1 ∧ t.flag (corePage c + 0x10) 0 = true)) ∧
  (∀ (v : Word) (s : State), let h := bits v 15 0
    (h < 49152 → ∃ t, exec (.ipi v) s = .next t ∧
      (t.hart h).csr.get 0 csrMip = (s.hart h).csr.get 0 csrMip ||| (if bit v 30 then 2 else 8) ∧ (∀ n, n ≠ csrMip → (t.hart h).csr.get 0 n = (s.hart h).csr.get 0 n) ∧
      (t.hart h).x = (s.hart h).x ∧ (t.hart h).pc = (s.hart h).pc ∧ (t.hart h).run = (s.hart h).run ∧ ∀ k, k ≠ h → t.hart k = s.hart k) ∧
    (49152 ≤ h → ∃ t, exec (.ipi v) s = .next t ∧ t.harts = s.harts)) ∧
  (∀ (req : BitVec 16) (v : Word) (s : State), bits v 31 16 = 0x5E6A → s.flag Reg.TF_STS 28 = false →
    ((s.flag Reg.TF_STS 31 = true ∨ s.flag Reg.TF_STS 30 = true) → ∀ hdr body, s.fwSource = some (hdr, body) → ∃ t, exec (.fwBoot req v) s = .next t ∧
      (t.hart 0).run = .running ∧ (t.hart 0).pc = BitVec.ofNat 64 (leAt hdr 24 8) ∧ t.rd Reg.FW_VER = BitVec.ofNat 32 (leAt hdr 4 4) ∧
      t.fld Reg.TF_STS 27 26 = 2 ∧ t.flag Reg.TF_STS 29 = false ∧ t.flag (tfPage + 0x10) 0 = true ∧ t.flash = s.flash ∧
      (∀ c, c < 96 → t.rd (Reg.CORE_ENTRY_LO c) = BitVec.ofNat 32 (leAt hdr 24 8 / 4 * 4)) ∧ ∀ k, k ≠ 0 → (t.hart k).run = (s.hart k).run) ∧
    (s.fwSource = none → ∃ t, exec (.fwBoot req v) s = .next t ∧ t.flag Reg.TF_STS 29 = true ∧ t.harts = s.harts ∧ ∀ a, a ≠ Reg.TF_STS → t.rd a = s.rd a) ∧
    (∀ hdr body, s.fwSource = some (hdr, body) → let k := if s.fld Reg.TF_STS 27 26 = 0 then 1 else 0
      ∃ t, exec (.fwProgram req v) s = .next t ∧ t.flag Reg.TF_STS 28 = true ∧ t.flag Reg.TF_STS 29 = false ∧ t.fwProg = some (k, hdr ++ body) ∧
        (∀ i, i < 128 + 29360000 → t.flashByte (fwSlot k + i) = 0xFF) ∧ (∀ i, (i < fwSlot k ∨ fwSlot k + 128 + 29360000 ≤ i) → t.flashByte i = s.flashByte i)) ∧
    (s.fwSource = none → ∃ t, exec (.fwProgram req v) s = .next t ∧ t.flag Reg.TF_STS 29 = true ∧ t.flash = s.flash ∧ t.fwProg = s.fwProg)) ∧
  (∀ (good : Bool) (s : State) (k : Nat) (image : Bytes), s.fwProg = some (k, image) → ∃ t, exec (.fwProgramDone good) s = .next t ∧ t.fwProg = none ∧
    t.flag Reg.TF_STS 28 = false ∧ t.flag (tfPage + 0x10) 0 = true ∧ (good = false → t.flag Reg.TF_STS 29 = true ∧ t.flash = s.flash) ∧
    (good = true → (∀ i, i < image.length → t.flashByte (fwSlot k + i) = image.getD i 0) ∧
      ∀ i, (i < fwSlot k ∨ fwSlot k + image.length ≤ i) → t.flashByte i = s.flashByte i))

/-- ASM_DONE for an item whose result stage is not done marks it done; where that was the last of the five stages of an open item under LATE_MODE NONE, the item is sealed and its entry freed; for an unknown item it is counted. A commit of 64 bytes that is well-formed and takes nothing back gives its open item the body, bytes and parts of the commit and, with DEC_VALID, the decision, counts it and changes no other item; one with a field out of range, or that takes published bytes or parts back, is counted and raises COMMIT_BAD without changing an item; one for an unknown item is counted as stale. DEST_LOAD activates each descriptor named that lies readable in commons and is in range, keeps the active one of a descriptor in error and sets its ERROR bit, and leaves every destination not named. (R282, R285, R287, R289, R296) -/
def Obligations.RecordAssemblyAndDestinations : Prop :=
  (∀ (v : Word) (s : State), let id := (s.rd Reg.ASM_DONE_LO).toNat + v.toNat * 2 ^ 32
    (s.item id = none → ∃ t, exec (.asmDone v) s = .next t ∧ t.rd Reg.TF_CNT_ASM_STALE = s.rd Reg.TF_CNT_ASM_STALE + 1 ∧ t.items = s.items) ∧
    (∀ it, s.item id = some it → it.shadow = none → it.done.getLsbD 4 = false →
      (it.done.getLsbD 0 = false → ∃ t it', exec (.asmDone v) s = .next t ∧ t.item id = some it' ∧ it'.done.getLsbD 4 = true ∧ it'.sealInfo = it.sealInfo ∧
        ∀ j, j ≠ id → t.item j = s.item j) ∧
      (it.done = 15 → it.sealInfo = none → it.pv.lateMode = 0 → ∃ t, exec (.asmDone v) s = .next t ∧ t.item id = none ∧ ∀ j, j ≠ id → t.item j = s.item j))) ∧
  (∀ (b : List Byte) (s : State), let id := leAt b 0 8
    (b.length = 64 → zeroAt b 25 39 = true → byteAt b 24 < 4 → leAt b 16 4 ≤ 65024 → leAt b 20 2 ≤ 4095 →
      (∀ it, s.item id = some it → it.shadow = none →
        (it.bytes ≤ leAt b 16 4 → it.parts ≤ leAt b 20 2 → (it.body = leAt b 8 8 ∨ (it.body = 0 ∧ it.bytes = 0 ∧ it.parts = 0)) → it.sealInfo = none →
          ∃ t, exec (.recordCommit b) s = .next t ∧ t.item id = some { it with
              body := leAt b 8 8, bytes := leAt b 16 4, parts := leAt b 20 2, decision := if byteAt b 24 % 2 = 1 then some (leAt b 22 2) else it.decision, partFail := it.partFail || decide (2 ≤ byteAt b 24) } ∧
            (∀ j, j ≠ id → t.item j = s.item j) ∧ t.rd Reg.REC_CNT_COMMITS = s.rd Reg.REC_CNT_COMMITS + 1 ∧ ∀ a, a ≠ Reg.REC_CNT_COMMITS → t.rd a = s.rd a) ∧
        (leAt b 16 4 < it.bytes ∨ leAt b 20 2 < it.parts → ∃ t, exec (.recordCommit b) s = .next t ∧ t.items = s.items ∧ t.flag 0x7010 0 = true ∧
          t.rd Reg.REC_CNT_COMMIT_BAD = s.rd Reg.REC_CNT_COMMIT_BAD + 1)) ∧
      (s.item id = none → ∃ t, exec (.recordCommit b) s = .next t ∧ t.items = s.items ∧ t.rd Reg.REC_CNT_COMMIT_STALE = s.rd Reg.REC_CNT_COMMIT_STALE + 1 ∧
        ∀ a, a ≠ Reg.REC_CNT_COMMIT_STALE → t.rd a = s.rd a)) ∧
    ((b.length ≠ 64 ∨ zeroAt b 25 39 = false ∨ 4 ≤ byteAt b 24 ∨ 65024 < leAt b 16 4 ∨ 4095 < leAt b 20 2) →
      ∃ t, exec (.recordCommit b) s = .next t ∧ t.items = s.items ∧ t.flag 0x7010 0 = true ∧ t.rd Reg.REC_CNT_COMMIT_BAD = s.rd Reg.REC_CNT_COMMIT_BAD + 1)) ∧
  (∀ (v : Word) (s : State), ∃ t, exec (.destLoad v) s = .next t ∧ t.egress = s.egress ∧ (∀ d, d < 8 →
    let a := s.addr48 Reg.DEST_BASE_LO Reg.DEST_BASE_HI + 64 * d
    let b := (s.ldUnit a 64).1
    let good := inCommons a 64 && decide (s.canRead 0 a 64 = .ok) && s.destOk b
    (bit v d = false → t.dest d = s.dest d) ∧
    (bit v d = true → good = true → t.dest d = (if byteAt b 0 = 0 then {} else destDesc b) ∧ t.flag Reg.REC_STS d = (byteAt b 0 != 0) ∧
      t.flag Reg.REC_STS (24 + d) = false) ∧
    (bit v d = true → good = false → t.dest d = s.dest d ∧ t.flag Reg.REC_STS (24 + d) = true ∧ t.flag 0x7010 2 = true)))

/-- With FW_READY and the service OFF, SERVICE_START on a valid configuration bank takes its GEN and, where every bundle was fetched, comes to RUNNING; otherwise it stays STARTING and tries the fetch again: BUNDLE_RETRY does nothing before 5 s have passed, then comes to RUNNING when the fetch succeeds and sets the next try otherwise. Without a valid bank the service stays OFF. A status record is put on every active destination that takes status records once STATUS_MS has passed, and not before. A lost configured stream is set up again after its wait, which doubles up to 60 s; a running one forgets its wait. A MGMT command that completes OK answers the length of its response, has the request's effect on flash and service, and writes the response; a status request changes neither. A management datagram to an enabled MGMT interface is answered to its source port with the response to its payload. (R295, R303, R304, R305, R408) -/
def Obligations.HostlessServiceAndManagement : Prop :=
  (∀ (s : State) (fetched : Bool),
    (s.flag Reg.TF_CTL 0 = true → s.svc.state = .off →
      (s.svcChoice = none → ∃ t, exec (.serviceStart fetched) s = .next t ∧ t.svc.state = .off ∧ ∀ a, t.rd a = s.rd a) ∧
      (∀ k gen c, s.svcChoice = some (k, gen, c) → ∃ t, exec (.serviceStart fetched) s = .next t ∧ t.svc.gen = gen ∧
        (fetched = true → t.svc.state = .running ∧ t.svc.fetchAt = none) ∧
        (fetched = false → t.svc.state = .starting ∧ t.svc.fetchAt = some s.now ∧ ∀ a, t.rd a = s.rd a))) ∧
    (∀ w, s.svc.fetchAt = some w →
      (s.now < w + 5000000000 → ∃ t, exec (.bundleRetry fetched) s = .next t ∧ t.svc = s.svc ∧ ∀ a, t.rd a = s.rd a) ∧
      (w + 5000000000 ≤ s.now → ∃ t, exec (.bundleRetry fetched) s = .next t ∧ (fetched = true → t.svc.state = .running ∧ t.svc.fetchAt = none) ∧
        (fetched = false → t.svc = { s.svc with fetchAt := some s.now })))) ∧
  (∀ s : State,
    (s.svc.state ≠ .off → s.svc.statusAt + s.svc.statusMs * 1000000 ≤ s.now → ∃ t, exec .statusRecord s = .next t ∧ t.svc = { s.svc with statusAt := s.now } ∧
      ∀ d, d < 8 → t.egress.get [] d = s.egress.get [] d ++ (if (s.dest d).kind ≠ 0 ∧ (s.dest d).classes.testBit 3 then
        [{ cls := .status, item := 0, order := s.now, bytes := s.statusBytes }] else [])) ∧
    ((s.svc.state = .off ∨ s.now < s.svc.statusAt + s.svc.statusMs * 1000000) → ∃ t, exec .statusRecord s = .next t ∧ t.svc = s.svc ∧ t.egress = s.egress)) ∧
  (∀ (c : Fin 1024) (s : State), s.svc.state ≠ .off → s.svc.streams.contains c.val = true →
    (s.streamRuns c = true → ∃ t, exec (.lostStreamSetup c) s = .next t ∧ t.svc.setups.look c = none) ∧
    (s.streamRuns c = false → ∀ w due, s.svc.setups.look c = some (w, due) → due ≤ s.now → ∃ t, exec (.lostStreamSetup c) s = .next t ∧
      t.svc.setups.look c = some (min 60 (2 * w), s.now + min 60 (2 * w) * 1000000000))) ∧
  (∀ (q : Fin 2048) (s : State) (fetched : Bool) (d : BitVec 512), Memory.wf s.mem = true → s.executing q 0x70 = some d → s.tagFenced (s.queue q) = false →
    let b := cmdBytes d
    let qu := s.queue q
    (qu.state = .run ∨ qu.state = .error) → zeroAt b 12 4 = true → zeroAt b 18 2 = true → zeroAt b 36 28 = true → s.memStop qu (leAt b 0 8) (leAt b 8 4) false = none →
    let m := (s.ldUnit (leAt b 0 8) (leAt b 8 4)).2.manage (s.ldUnit (leAt b 0 8) (leAt b 8 4)).1 false fetched
    m.2.length ≤ leAt b 32 4 → m.1.memStop qu (leAt b 24 8) m.2.length true = none → ∃ t, exec (.mgmt q fetched) s = .next t ∧ t.flash = m.1.flash ∧ t.svc = m.1.svc ∧
      (t.queue q).cur = none ∧ (∀ c, cborParse (s.ldUnit (leAt b 0 8) (leAt b 8 4)).1 = some c → c.keysTo 3 = true → (c.key 1).bind Cbor.nat? = some 1 →
        t.flash = s.flash ∧ t.svc = s.svc ∧ m.2 = (s.ldUnit (leAt b 0 8) (leAt b 8 4)).2.statusBytes)) ∧
  (∀ (eth : Fin 2) (frame : List Byte) (fetched : Bool) (s : State) (i : Nat) (u : Bytes × Nat × Nat × Bytes), let f := frameOf frame
    s.ifOf eth f.1 = some i → udpOf f.2.2.1 f.2.2.2 = some u → s.flag (bank i (Reg.IF_CTL eth)) 30 = true → u.2.2.1 = s.fld (Reg.MGMT_PORT eth) 15 0 →
    s.flag (Reg.ETH_STS eth) 31 = true →
    let m := s.manage u.2.2.2 true fetched
    ∃ t g l, exec (.mgmtRequest eth frame fetched) s = .next t ∧ t.out = .udp g :: l ∧ g.payload = m.2 ∧ g.dport = u.2.1 ∧ g.sport = u.2.2.1 ∧ g.port = eth.val ∧
      g.dmac = beNat ((frame.drop 6).take 6) ∧ t.flash = m.1.flash ∧ t.svc = m.1.svc)

/-- A write to a memory unit of the commons stores its enabled bytes and no other; a read with an uncorrectable error is counted, raised and keeps its line in error, one with a corrected error is counted; an access to a unit that is no memory is counted. A request to a channel not fenced with room joins the end of its queue with the deadline of its class and urgency, and a write is seen at once. A channel in RUN issues its first candidate: it opens a closed bank's row, closes another row, or moves the request out of its queue. Read data that returns clean leaves everything else; a corrected error is counted; an uncorrectable one, a second write parity report and an uncorrectable scrub freeze the channel, which forgets its reads and keeps its writes. A command/address parity error freezes both channels of the pair with causes CA_PARITY and PAIR. (R306, R309, R311, R319, R320, R322, R325, R326, R327, R328) -/
def Obligations.MemoryRequestsAndErrors : Prop :=
  (∀ (req : BitVec 16) (a : BitVec 48) (m : BitVec 64) (d : List Byte) (s : State), Memory.wf s.mem = true → commonsBase ≤ a.toNat → a.toNat < 0x001003800000 →
    let line := a.toNat / 64
    let unit := (a.toNat - commonsBase) / 0x100000
    (s.unitIsMem unit = true →
      (s.ctxRecordAt (line * 64) 64 = false → ∃ t, exec (.commonsAccess req true a m d 0) s = .next t ∧
        (∀ i, i < 64 → t.byte (line * 64 + i) = if m.getLsbD i then d.getD i 0 else s.byte (line * 64 + i)) ∧
        (∀ x, (x < line * 64 ∨ line * 64 + 64 ≤ x) → t.byte x = s.byte x) ∧ ∀ r, t.rd r = s.rd r) ∧
      (∃ t, exec (.commonsAccess req false a m d 2) s = .next t ∧ line ∈ t.ue ∧ t.rd Reg.COM_CNT_UE = s.rd Reg.COM_CNT_UE + 1 ∧ t.flag 0x301010 0 = true ∧
        ∀ x, t.byte x = s.byte x) ∧
      (line ∉ s.ue → ∃ t, exec (.commonsAccess req false a m d 1) s = .next t ∧ t.rd Reg.COM_CNT_CE = s.rd Reg.COM_CNT_CE + 1 ∧ (∀ x, t.byte x = s.byte x) ∧ t.ue = s.ue)) ∧
    (s.unitIsMem unit = false → ∀ w e, ∃ t, exec (.commonsAccess req w a m d e) s = .next t ∧ t.rd Reg.COM_CNT_BAD_UNIT = s.rd Reg.COM_CNT_BAD_UNIT + 1 ∧
      ∀ x, t.byte x = s.byte x)) ∧
  (∀ (cls : Fin 16) (port : BitVec 16) (urg : Fin 4) (a : BitVec 48) (m : BitVec 64) (d : List Byte) (s : State), Memory.wf s.mem = true → a.toNat < 0x000C00000000 →
    let q := s.chanOf a.toNat
    let c := s.chan q
    let line := a.toNat / 64
    let dl := if urg.val = 3 then s.mclk else s.mclk + s.fld (bank cls Reg.PORT_TGT) 15 0 / 2 ^ urg.val
    s.chanFenced q = false →
      (c.writes.any (fun w => w.line == line) = false → c.writes.length < 64 → ∃ t, exec (.mcAccept cls port urg true a m d) s = .next t ∧
        (t.chan q).writes = c.writes ++ [⟨true, line, m, cls, port.toNat, urg, dl, c.order⟩] ∧ (t.chan q).reads = c.reads ∧
        (∀ i, i < 64 → t.byte (line * 64 + i) = if m.getLsbD i then d.getD i 0 else s.byte (line * 64 + i)) ∧
        (∀ x, (x < line * 64 ∨ line * 64 + 64 ≤ x) → t.byte x = s.byte x) ∧ ∀ k, k ≠ q → t.chan k = s.chan k) ∧
      (c.writes.any (fun w => w.line == line) = false → m ≠ 0 → c.reads.length < 128 → ∃ t, exec (.mcAccept cls port urg false a m d) s = .next t ∧
        (t.chan q).reads = c.reads ++ [⟨false, line, m, cls, port.toNat, urg, dl, c.order⟩] ∧ (t.chan q).writes = c.writes ∧
        (∀ x, t.byte x = s.byte x) ∧ (∀ k, k ≠ q → t.chan k = s.chan k) ∧ ∀ r, t.rd r = s.rd r)) ∧
  (∀ (q : Fin 64) (banks : BitVec 48) (s : State), s.chanState q = 0 →
    let c := s.chan q
    let s1 := s.setChan q { c with draining := if s.fld Reg.WQ_CFG 15 8 ≤ c.writes.length then true else if c.writes.length ≤ s.fld Reg.WQ_CFG 7 0 then false else c.draining }
    ∀ x, firstCand (s1.candidates q banks) = some x →
      let r := x.req
      let loc := s.location (r.line * 64)
      (c.rows.look loc.2.1 = none → ∃ t, exec (.mcIssue q banks) s = .next t ∧ (t.chan q).rows.look loc.2.1 = some ⟨loc.2.2.1, 0, s.mclk⟩ ∧
        (t.chan q).reads = c.reads ∧ (t.chan q).writes = c.writes) ∧
      (∀ o, c.rows.look loc.2.1 = some o →
        (o.row ≠ loc.2.2.1 → ∃ t, exec (.mcIssue q banks) s = .next t ∧ (t.chan q).rows.look loc.2.1 = none ∧ (t.chan q).reads = c.reads ∧ (t.chan q).writes = c.writes) ∧
        (o.row = loc.2.2.1 → r.write = false → ∃ t, exec (.mcIssue q banks) s = .next t ∧ (t.chan q).reads = c.reads.filter (fun y => y.order != r.order) ∧
          (t.chan q).inflight = c.inflight ++ [r] ∧ (t.chan q).writes = c.writes ∧ t.rd (Reg.CH_CNT_RD q) = s.rd (Reg.CH_CNT_RD q) + 1) ∧
        (o.row = loc.2.2.1 → r.write = true → ∃ t, exec (.mcIssue q banks) s = .next t ∧ (t.chan q).writes = c.writes.filter (fun y => y.order != r.order) ∧
          (t.chan q).reads = c.reads ∧ t.rd (Reg.CH_CNT_WR q) = s.rd (Reg.CH_CNT_WR q) + 1))) ∧
  (∀ (q : Fin 64) (syn : BitVec 16) (s : State),
    let c := s.chan q
    let frozen := fun (t : State) (k cause : Nat) => t.chanState k = 2 ∧ t.fld (Reg.CH_STS k) 23 20 = cause ∧ (t.chan k).reads = [] ∧ (t.chan k).inflight = [] ∧
      (t.chan k).writes = (s.chan k).writes ∧ t.flag (mcPage + 0x10) 0 = true
    (∀ r rest, c.inflight = r :: rest →
      (∃ t, exec (.mcReadReturn q 0 syn) s = .next t ∧ (t.chan q).inflight = rest ∧ ∀ x, t.rd x = s.rd x) ∧
      (∃ t, exec (.mcReadReturn q 1 syn) s = .next t ∧ (t.chan q).inflight = rest ∧ t.rd (Reg.CH_CNT_CE q) = s.rd (Reg.CH_CNT_CE q) + 1 ∧
        t.rd (Reg.CH_CNT_WR q) = s.rd (Reg.CH_CNT_WR q) + 1) ∧
      (s.chanFenced q = false → ∃ t, exec (.mcReadReturn q 2 syn) s = .next t ∧ frozen t q 1)) ∧
    (∀ (a : BitVec 48) cls port, s.chanState q = 0 → s.chanOf a.toNat = q.val →
      (∃ t, exec (.writeParityReport q a cls port true) s = .next t ∧ frozen t q 1) ∧
      ∃ t, exec (.writeParityReport q a cls port false) s = .next t ∧ t.chans = s.chans ∧ t.rd (Reg.CH_CNT_WR q) = s.rd (Reg.CH_CNT_WR q) + 1) ∧
    (s.chanFenced q = false → s.chanFenced (q.val ^^^ 1) = false → ∃ t, exec (.caParity q) s = .next t ∧ frozen t q 2 ∧ frozen t (q.val ^^^ 1) 3) ∧
    (∀ a : BitVec 48, a.toNat < 0x000C00000000 → s.chanOf a.toNat = q.val → s.chanFenced q = false → s.fld Reg.SCRUB_CFG 15 0 ≠ 0 →
      (∃ t, exec (.scrub a 0 syn) s = .next t ∧ t.rd (Reg.CH_CNT_RD q) = s.rd (Reg.CH_CNT_RD q) + 1 ∧ t.chans = s.chans) ∧
      (∃ t, exec (.scrub a 1 syn) s = .next t ∧ t.rd (Reg.CH_CNT_CE q) = s.rd (Reg.CH_CNT_CE q) + 1) ∧
      ∃ t, exec (.scrub a 2 syn) s = .next t ∧ frozen t q 1))

/-- A refresh of a bank closes its row and no other. A temperature reading shows in CH_STS of the stack's channels, and one moved by more than TEMP_DELTA makes them due; PERIOD_MS since the last training makes a channel due. A due channel in RUN with no urgent request, or past its slack, no paused partner and a place free starts a pause, which closes its rows and is counted; the pause's end returns it to RUN, trained now and not due, or freezes it with cause TRAIN. A bank idle for IDLE MCLK whose row no request wants closes it. The row window's end clears counters and throttles. A keyed RELEASE of a frozen or fenced channel, unless its stack is absent, starts its training, and CLEAR says what becomes of its writes; its end returns it to RUN with empty queues and raises RELEASED, with CLEAR after its memory is zero; a failed one leaves it FENCED with cause TRAIN. (R315, R316, R317, R318, R323, R324, R330) -/
def Obligations.ChannelRefreshTrainingAndRelease : Prop :=
  (∀ (q : Fin 64) (b : Fin 48) (s : State),
    (¬ (s.chanState q = 3 ∧ s.fld (Reg.CH_STS q) 23 20 = 5) → ∃ t, exec (.refresh q b) s = .next t ∧ (t.chan q).rows.look b = none ∧
      (∀ k, k ≠ b.val → (t.chan q).rows.look k = (s.chan q).rows.look k) ∧ (t.chan q).reads = (s.chan q).reads ∧ ∀ k, k ≠ q.val → t.chan k = s.chan k) ∧
    (∀ o, (s.chan q).rows.look b = some o → o.last + s.fld (Reg.CH_CFG q) 7 0 ≤ s.mclk → (s.chan q).reads = [] → (s.chan q).writes = [] →
      ∃ t, exec (.rowIdleClose q b) s = .next t ∧ (t.chan q).rows.look b = none ∧ ∀ k, k ≠ b.val → (t.chan q).rows.look k = (s.chan q).rows.look k) ∧
    ∃ t, exec (.rhWindow q) s = .next t ∧ t.chan q = { s.chan q with acts := [], rhOnce := [], throttled := [] } ∧ ∀ k, k ≠ q.val → t.chan k = s.chan k) ∧
  (∀ (k : Fin 2) (temp : Byte) (s : State), ∃ t, exec (.hbmTempRead k temp) s = .next t ∧ (∀ q, 32 * k.val ≤ q → q < 32 * k.val + 32 →
      t.fld (Reg.CH_STS q) 15 8 = temp.toNat ∧ (s.fld Reg.RETRAIN_CFG 19 16 ≠ 0 → (s.chan q).trainTemp + s.fld Reg.RETRAIN_CFG 19 16 < temp.toNat →
        (t.chan q).due.isSome = true ∧ ((s.chan q).due = none → t.flag (Reg.CH_STS q) 0 = true))) ∧
      ∀ q, (q < 32 * k.val ∨ 32 * k.val + 32 ≤ q) → t.chan q = s.chan q) ∧
  (∀ (q : Fin 64) (s : State),
    (s.fld Reg.RETRAIN_CFG 7 0 ≠ 0 → (s.chan q).trained + s.fld Reg.RETRAIN_CFG 7 0 * 1000000 ≤ s.now → (s.chan q).due = none →
      ∃ t, exec (.retrainDue q) s = .next t ∧ (t.chan q).due = some s.now ∧ t.flag (Reg.CH_STS q) 0 = true) ∧
    ((s.fld Reg.RETRAIN_CFG 7 0 = 0 ∨ s.now < (s.chan q).trained + s.fld Reg.RETRAIN_CFG 7 0 * 1000000) →
      ∃ t, exec (.retrainDue q) s = .next t ∧ t.chans = s.chans ∧ ∀ r, t.rd r = s.rd r) ∧
    (∀ w, (s.chan q).due = some w → s.chanState q = 0 → (∀ k, k < 64 → s.chanState k ≠ 1) → 1 ≤ s.fld Reg.RETRAIN_CFG 23 20 →
      (((s.chan q).reads ++ (s.chan q).writes).any (fun r => decide (2 ≤ r.urg)) = false ∨ w + s.fld Reg.RETRAIN_CFG 15 8 * 1000000 ≤ s.now) →
      ∃ t, exec (.retrainPause q) s = .next t ∧ t.chanState q = 1 ∧ (t.chan q).rows = [] ∧ t.rd (Reg.CH_CNT_RETRAIN q) = s.rd (Reg.CH_CNT_RETRAIN q) + 1 ∧
        t.rd Reg.MC_CNT_RETRAIN = s.rd Reg.MC_CNT_RETRAIN + 1) ∧
    (s.chanState q = 1 →
      (∃ t, exec (.retrainPauseEnd q true) s = .next t ∧ t.chanState q = 0 ∧ (t.chan q).due = none ∧ (t.chan q).trained = s.now ∧ t.flag (Reg.CH_STS q) 0 = false) ∧
      ∃ t, exec (.retrainPauseEnd q false) s = .next t ∧ t.chanState q = 2 ∧ t.fld (Reg.CH_STS q) 23 20 = 4)) ∧
  (∀ (req : BitVec 16) (q : Fin 64) (v : Word) (s : State), bits v 31 16 = 0xC4A7 →
    (s.releasable q = true → (∃ t, exec (.chRelease req q v) s = .next t ∧ (t.chan q).releasing = some false ∧ (t.chan q).writes = (s.chan q).writes ∧ ∀ r, t.rd r = s.rd r) ∧
      ∃ t, exec (.chReleaseClear req q v) s = .next t ∧ (t.chan q).releasing = some true ∧ (t.chan q).writes = (s.chan q).writes ∧ ∀ r, t.rd r = s.rd r) ∧
    (s.releasable q = false → (∃ t, exec (.chRelease req q v) s = .next t ∧ t.chans = s.chans) ∧ ∃ t, exec (.chReleaseClear req q v) s = .next t ∧ t.chans = s.chans)) ∧
  (∀ (q : Fin 64) (s : State) (clear : Bool), Memory.wf s.mem = true → (s.chan q).releasing = some clear →
    (∃ t, exec (.chReleaseDone q true) s = .next t ∧ t.chanState q = 0 ∧ t.fld (Reg.CH_STS q) 23 20 = 0 ∧ (t.chan q).releasing = none ∧ (t.chan q).writes = [] ∧
      (t.chan q).reads = [] ∧ (t.chan q).cap = none ∧ t.flag (mcPage + 0x10) 5 = true ∧
      (clear = false → ∀ x, t.byte x = s.byte x) ∧
      (clear = true → ∀ x, t.byte x = if x < 0x000C00000000 ∧ s.chanOf x = q.val then 0 else s.byte x)) ∧
    ∃ t, exec (.chReleaseDone q false) s = .next t ∧ t.chanState q = 3 ∧ t.fld (Reg.CH_STS q) 23 20 = 4 ∧ (t.chan q).releasing = none ∧ t.flag (mcPage + 0x10) 1 = true ∧
      ∀ x, t.byte x = s.byte x)

/-- A keyed PCMD with no command running acts on the partition it names. CREATE whose descriptor can be read and passes every check leaves the partition CREATING with that descriptor and PCMD busy; one that fails leaves every partition and reports the first failing check. DESTROY and RESET of a partition that is not FREE leave it DESTROYING with every hart of its cores parked and PCMD busy; of a FREE one they report NOT_ACTIVE. While a command runs, and with a wrong key, a PCMD changes no partition. The end of a CREATE makes the partition ACTIVE with no instance running and its tiles IDLE at PC 0; the end of a DESTROY makes it FREE; both clear PCMD's BUSY and raise PCMD_DONE. (R341, R342, R343, R344) -/
def Obligations.PartitionCommands : Prop :=
  (∀ (req : BitVec 16) (v : Word) (s : State), let p := bits v 10 8
    let reported := fun (t : State) (n : Nat) => t.parts = s.parts ∧ t.pcmd = none ∧ t.rd Reg.PCMD_STS = BitVec.ofNat 32 (p * 256 + n) ∧ t.flag (schPage + 0x10) 0 = true
    (bits v 31 16 = 0x5CA1 → s.pcmd = none →
      (∀ b, s.schRead (s.addr48 Reg.PDESC_LO Reg.PDESC_HI) 128 = some b → let d := BitVec.ofNat 1024 (leNat b)
        (s.createCheck p d = 0 → ∃ t, exec (.pcmdCreate req v) s = .next t ∧ t.part p = { state := .creating, desc := d } ∧ t.pcmd = some (1, p) ∧
          t.flag Reg.PCMD_STS 31 = true ∧ ∀ k, k ≠ p → t.part k = s.part k) ∧
        (s.createCheck p d ≠ 0 → ∃ t, exec (.pcmdCreate req v) s = .next t ∧ reported t (s.createCheck p d))) ∧
      (s.schRead (s.addr48 Reg.PDESC_LO Reg.PDESC_HI) 128 = none → ∃ t, exec (.pcmdCreate req v) s = .next t ∧ reported t 4) ∧
      (∀ n cmd, (n, cmd) ∈ [(2, Instr.pcmdDestroy req v), (3, .pcmdReset req v)] →
        ((s.part p).state ≠ .free → ∃ t, exec cmd s = .next t ∧ (t.part p).state = .destroying ∧ (t.part p).phase = .none ∧ t.pcmd = some (n, p) ∧
          t.flag Reg.PCMD_STS 31 = true ∧ ∀ h, h < 49152 → (s.part p).cores.testBit (h / 512) = true → (t.hart h).run = .parked) ∧
        ((s.part p).state = .free → ∃ t, exec cmd s = .next t ∧ reported t 6))) ∧
    ((s.pcmd ≠ none ∨ bits v 31 16 ≠ 0x5CA1) → ∀ cmd, cmd ∈ [Instr.pcmdCreate req v, .pcmdDestroy req v, .pcmdReset req v] →
      ∃ t, exec cmd s = .next t ∧ t.parts = s.parts ∧ t.pcmd = s.pcmd ∧ t.vis = s.vis)) ∧
  (∀ (s : State) (p : Nat), p < 8 →
    (s.pcmd = some (1, p) → ∃ t, exec .pcmdDone s = .next t ∧ (t.part p).state = .active ∧ (t.part p).phase = .none ∧ (t.part p).desc = (s.part p).desc ∧
      t.pcmd = none ∧ t.rd Reg.PCMD_STS = BitVec.ofNat 32 (p * 256) ∧ t.flag (schPage + 0x10) 0 = true ∧
      (∀ k ∈ (s.part p).tileList, t.tileState k = 0 ∧ t.tpc k = 0) ∧ ∀ k, k ≠ p → (t.part k).state = (s.part k).state) ∧
    (s.pcmd = some (2, p) → ∃ t, exec .pcmdDone s = .next t ∧ t.part p = {} ∧ t.pcmd = none ∧ t.rd Reg.PCMD_STS = BitVec.ofNat 32 (p * 256) ∧
      t.flag (schPage + 0x10) 0 = true ∧ ∀ k, k ≠ p → (t.part k).state = (s.part k).state)) ∧
  (∀ s : State, s.pcmd = none → ∃ t, exec .pcmdDone s = .next t ∧ t.parts = s.parts)

/-- In an ACTIVE partition, a due decision with no candidate starts a new quantum of the running instance; with a candidate preferred it starts a switch to it, which is counted and raises SLICE; with no instance running it brings the candidate in. A decision that is not due changes nothing. DRAIN_LIMIT closes every open step of the partition's units and raises DRAIN_CUT; YIELD_LIMIT stops the tiles still in RUN and raises YIELD_LATE. The end of a TRANSFER that meets no memory error makes the incoming instance RUNNING, raises SWITCHED and comes to ADAPT, or to RUN where the partition does not adapt. RELEASE ends ADAPT: the partition is in RUN and its stopped tiles run again. ADAPT_MS after the last ADAPT a pass leaves RUN with the time left of the slice kept. (R350, R351, R355, R356, R357, R358, R359, R360) -/
def Obligations.SlicesSwitchesAndPasses : Prop :=
  ∀ (p : Fin 8) (s : State), let P := s.part p
    let r := P.runVi
    (P.state = .active →
      (P.phase = .run → s.sliceDue p = true →
        (s.bestOf p (s.schedCands p (some r)) = none → ∃ t, exec (.quantumExpiry p) s = .next t ∧ (t.part p).phase = .run ∧ (t.part p).runVi = r ∧
          (t.part p).sliceFrom = s.now ∧ (t.part p).sliceEnd = s.now + t.quantum p r ∧ t.tiles = s.tiles) ∧
        (∀ v, s.bestOf p (s.schedCands p (some r)) = some v → (s.instReady p r = false ∨ s.instUrg p r ≤ s.instUrg p v) →
          ∃ t, exec (.quantumExpiry p) s = .next t ∧ (t.part p).runVi = v ∧ (t.part p).outVi = some r ∧ (t.part p).phase ∈ [Phase.drain, .yield, .transfer] ∧
            t.rd (Reg.PART_CNT_SLICES p) = s.rd (Reg.PART_CNT_SLICES p) + 1 ∧ t.flag (partPage p + 0x10) 4 = true)) ∧
      (P.phase = .run → s.sliceDue p = false → ∃ t, exec (.quantumExpiry p) s = .next t ∧ t.parts = s.parts ∧ t.tiles = s.tiles) ∧
      (P.phase = .none → ∀ v, s.bestOf p (s.schedCands p none) = some v → ∃ t, exec (.quantumExpiry p) s = .next t ∧ (t.part p).phase = .transfer ∧
        (t.part p).runVi = v ∧ (t.part p).outVi = none)) ∧
    (P.phase = .drain → P.phaseFrom + bits (s.inForce (Reg.PART_LIM p)) 23 12 * 1000 ≤ s.now →
      P.auList.filter (fun u => ((s.aunits.get {} u).step).isSome) ≠ [] → ∃ t, exec (.drainLimit p) s = .next t ∧ (∀ u ∈ P.auList, (t.aunit u).step = none) ∧
        t.flag (partPage p + 0x10) 2 = true) ∧
    (P.phase = .yield → P.phaseFrom + bits (s.inForce (Reg.PART_LIM p)) 11 0 * 1000 ≤ s.now →
      P.tileList.filter (fun k => s.tileRuns k && !P.late.contains k) ≠ [] → ∃ t, exec (.yieldLimit p) s = .next t ∧ t.flag (partPage p + 0x10) 1 = true ∧
        ∀ k ∈ P.tileList.filter (fun k => s.tileRuns k && !P.late.contains k), (t.tile k).stopping = true ∨ t.tileState k = 0) ∧
    (P.phase = .transfer → P.pass = false → ∀ u, (match P.outVi with | none => some s | some o => (s.saveOut p o).map (fun x => x.endSlice p o)) = some u →
      (u.vi p r).state = .idle → (u.loadIn p r).isSome = true → ∃ t, exec (.transferDone p) s = .next t ∧ (t.vi p r).state = .running ∧ (t.part p).runVi = r ∧
        (t.part p).phase = (if P.adapts then .adapt else .run) ∧ t.flag (partPage p + 0x10) 0 = true) ∧
    (P.phase = .adapt → P.due = false → ∀ v, ∃ t, exec (.adaptRelease p v) s = .next t ∧ (t.part p).phase = .run ∧ (t.part p).runVi = r ∧
      (t.part p).adapted = s.now ∧ (t.part p).resume = [] ∧ (∀ k ∈ P.resume, k < 160 → t.tileState k = 1) ∧ (P.pass = true → (t.part p).sliceEnd = s.now + P.left)) ∧
    (P.state = .active → P.phase = .run → P.adapts = true → s.fld (Reg.PART_TIME p) 15 0 ≠ 0 →
      P.adapted + s.fld (Reg.PART_TIME p) 15 0 * 1000000 ≤ s.now → ∃ t, exec (.adaptPass p) s = .next t ∧ (t.part p).pass = true ∧ (t.part p).runVi = r ∧
        (t.part p).outVi = some r ∧ (t.part p).phase ∈ [Phase.drain, .yield, .adapt] ∧ (t.part p).left = P.sliceEnd - s.now ∧ t.flag (partPage p + 0x10) 4 = true)

/-- Of an ACTIVE partition and an instance it has that is not being reset: a 64-byte placement goes to the lowest free tile where the instance runs and nothing waits before it, and otherwise waits in its queue of 64; a launch of a good record starts a parked hart of the lowest core that has one for that instance, and otherwise waits in the partition's queue of 256; any other placement or launch is dropped, counted and raised. A START takes cocoon and save area and answers PENDING; the end of its check answers OK with the instance idle, BUSY, RESOURCES or BAD_COCOON. A keyed RESET leaves the instance RESETTING with nothing waiting for it, no hart running for it and no sequence of it; the cut-off ends what its queues execute after 40 us; its end comes when nothing is in flight or 50 us have passed: the instance is OFF with the next generation and RESET_DONE is raised. (R345, R348, R349, R352, R354, R362, R363, R364) -/
def Obligations.InstancesAndPlacement : Prop :=
  (∀ (p : Fin 8) (v : Fin 16) (s : State) (data : List Byte), let P := s.part p
    let d := BitVec.ofNat 512 (leNat data)
    (data.length = 64 → (s.vi p v).placeQ.length < 64 → P.state = .active → v.val < P.nvis → (s.vi p v).state ≠ .resetting →
      ((P.phase ≠ .run ∨ P.runVi ≠ v.val) → ∃ t, exec (.tilePlacement p v data) s = .next t ∧ (t.vi p v).placeQ = (s.vi p v).placeQ ++ [d]) ∧
      (∀ k, P.phase = .run → P.runVi = v.val → (s.vi p v).placeQ = [] → (P.tileList.filter s.tileFree).head? = some k →
        ∃ t, exec (.tilePlacement p v data) s = .next t ∧ (t.vi p v).placeQ = [] ∧ (t.tile k).queue = [⟨4, 0, (s.tile k).nextToken, 0, d⟩] ∧
          ∀ j, j ≠ k → t.tile j = s.tile j)) ∧
    ((data.length ≠ 64 ∨ 64 ≤ (s.vi p v).placeQ.length ∨ P.state ≠ .active ∨ P.nvis ≤ v.val ∨ (s.vi p v).state = .resetting) →
      ∃ t, exec (.tilePlacement p v data) s = .next t ∧ t.vis = s.vis ∧ t.tiles = s.tiles ∧ t.flag (partPage p + 0x10) 6 = true ∧
        t.rd (Reg.PART_CNT_PLACE_DROP p) = s.rd (Reg.PART_CNT_PLACE_DROP p) + 1)) ∧
  (∀ (p : Fin 8) (v : Fin 16) (s : State) (r : BitVec 512), let P := s.part p
    (launchOk r = true → P.state = .active → v.val < P.nvis → (s.vi p v).state ≠ .resetting →
      (∀ c h, P.coreList.find? (fun c => (s.parkedHart c).isSome) = some c → s.parkedHart c = some h → ∃ t, exec (.partitionLaunch p v r true) s = .next t ∧
        (t.hart h).run = .running ∧ (t.hart h).vi = v.val ∧ (t.hart h).x.get 0 15 = BitVec.ofNat 64 h ∧ ∀ k, k ≠ h → t.hart k = s.hart k) ∧
      (P.coreList.find? (fun c => (s.parkedHart c).isSome) = none → P.launchQ.length < 256 → ∃ t, exec (.partitionLaunch p v r true) s = .next t ∧
        (t.part p).launchQ = P.launchQ ++ [(v.val, r)] ∧ t.harts = s.harts)) ∧
    (∀ whole, (whole = false ∨ launchOk r = false ∨ P.state ≠ .active ∨ P.nvis ≤ v.val ∨ (s.vi p v).state = .resetting) →
      ∃ t, exec (.partitionLaunch p v r whole) s = .next t ∧ t.harts = s.harts ∧ t.parts = s.parts ∧ t.flag (partPage p + 0x10) 7 = true ∧
        t.rd (Reg.PART_CNT_LAUNCH_DROP p) = s.rd (Reg.PART_CNT_LAUNCH_DROP p) + 1)) ∧
  (∀ (p : Fin 8) (s : State), let v := s.fld (Reg.VI_SEL p) 3 0
    (s.part p).state = .active → v < (s.part p).nvis → (s.vi p v).checking = none →
    ∃ t, exec (.viStart p) s = .next t ∧ (t.vi p v).result = 7 ∧ (t.vi p v).state = (s.vi p v).state ∧ (t.vi p v).checking =
      some (if (s.vi p v).state = .off then some (s.addr48 (bank v (Reg.VI_COC_LO p)) (bank v (Reg.VI_COC_HI p)), s.addr48 (bank v (Reg.VI_SAVE_LO p)) (bank v (Reg.VI_SAVE_HI p)))
        else none)) ∧
  (∀ (p : Fin 8) (v : Fin 16) (s : State),
    ((s.vi p v).checking = some none → ∃ t, exec (.viStartCheck p v) s = .next t ∧ t.vi p v = { s.vi p v with checking := none, result := 1 }) ∧
    (∀ c a, (s.vi p v).checking = some (some (c, a)) → (s.vi p v).state = .off →
      (∀ y, s.cocoonCheck (s.part p) c = .ok y → ∃ t, exec (.viStartCheck p v) s = .next t ∧ (t.vi p v).state = .idle ∧ (t.vi p v).result = 0 ∧ (t.vi p v).save = a ∧
        (t.vi p v).saved = false ∧ ((s.part p).phase = .none → (t.part p).phase = .transfer)) ∧
      (s.cocoonCheck (s.part p) c = .resources → ∃ t, exec (.viStartCheck p v) s = .next t ∧ (t.vi p v).result = 2 ∧ (t.vi p v).state = .off) ∧
      (s.cocoonCheck (s.part p) c = .bad → ∃ t, exec (.viStartCheck p v) s = .next t ∧ (t.vi p v).result = 3 ∧ (t.vi p v).state = .off ∧
        t.flag (partPage p + 0x10) 5 = true)) ∧
    ((s.vi p v).state = .resetting → (s.vi p v).resetAt + 40000 ≤ s.now → ∃ t, exec (.resetCutoff p v) s = .next t ∧
      ∀ g, (s.queue g).isOf p v = true → (t.queue g).cur = none ∧ (t.queue g).head = (s.queue g).tail) ∧
    ((s.vi p v).state = .resetting → (s.inflight p v = 0 ∨ (s.vi p v).resetAt + 50000 ≤ s.now) → ∃ t, exec (.viResetDone p v) s = .next t ∧
      (t.vi p v).state = .off ∧ (t.vi p v).gen = (s.vi p v).gen + 1 ∧ (t.vi p v).placeQ = [] ∧ t.flag (partPage p + 0x10) 3 = true)) ∧
  (∀ (req : BitVec 16) (p : Fin 8) (w : Word) (s : State), let v := s.fld (Reg.VI_SEL p) 3 0
    bits w 31 16 = 0x5C1E → (s.part p).state ≠ .free → v < (s.part p).nvis → (s.vi p v).state ≠ .resetting → s.seqs.rising = true →
    ∃ t, exec (.viReset req p w) s = .next t ∧ (t.vi p v).state = .resetting ∧ (t.vi p v).resetAt = s.now ∧ (t.vi p v).placeQ = [] ∧ (t.vi p v).saved = false ∧
      (∀ e ∈ t.seqs, ¬ (e.2.part = p.val ∧ e.2.vi = v)) ∧ (∀ e ∈ (t.part p).launchQ, e.1 ≠ v))

/-- Enabling the Kralon logic of a module that is READY and in no kaleidoscope starts training on every enabled link that is not UP, in K1, or goes on to K2 where no link has to train; disabling it fails every link that trains or is UP and leaves the kaleidoscope, with no route and no peer access. Enabling a DOWN link starts its training when the logic runs and the module is READY; disabling a link takes it DOWN. A training link that gains lock becomes UP with all lanes and raises LINK_UP; one that is not UP within 80 ms becomes FAILED and is counted, and 1 s later an enabled link trains again. An UP link that loses a lane, hears no good flit for 4 us or has resent a flit 8 times becomes FAILED, is counted and raises LINK_DOWN on its page and on the KL page; with no such cause it stays as it is. No such command changes the state of another link. (R367, R373, R379, R389, R390) -/
def Obligations.LinkTrainingAndFailure : Prop :=
  (∀ (req : BitVec 16) (v : Word) (s : State),
    ((s.store req Reg.KL_CTL (v ||| 1)).2 = true → s.ready = true → s.klState = 0 → ∃ t, exec (.klEnable req v) s = .next t ∧ t.flag Reg.KL_CTL 0 = true ∧
      (∀ l, l < 8 → s.flag (Reg.LINK_CTL l) 0 = true → s.klinkState l ≠ 2 → t.klState = 1 ∧ t.klinkState l = 1 ∧ (t.klink l).trainFrom = s.now) ∧
      ((∀ l, l < 8 → s.flag (Reg.LINK_CTL l) 0 = false) → t.klState = 2)) ∧
    ((s.store req Reg.KL_CTL (v &&& 0xFFFFFFFE)).2 = true → s.flag Reg.KL_CTL 0 = true → ∃ t, exec (.klDisable req v) s = .next t ∧
      t.flag Reg.KL_CTL 0 = false ∧ t.klState = 0 ∧ t.isCoord = false ∧ t.kal.routes = [] ∧ t.kal.peers = [] ∧
      ∀ l, l < 8 → t.klinkState l = if s.klinkState l = 1 ∨ s.klinkState l = 2 then 3 else s.klinkState l)) ∧
  (∀ (req : BitVec 16) (l : Fin 8) (v : Word) (s : State), let others := fun (t : State) => ∀ k, k < 8 → k ≠ l.val → t.klinkState k = s.klinkState k
    ((s.store req (Reg.LINK_CTL l) (v ||| 1)).2 = true → s.klinkState l = 0 → ∃ t, exec (.linkEnable req l v) s = .next t ∧ others t ∧
      ((s.flag Reg.KL_CTL 0 = true ∧ s.ready = true) → t.klinkState l = 1 ∧ (t.klink l).trainFrom = s.now) ∧
      ((s.flag Reg.KL_CTL 0 = false ∨ s.ready = false) → t.klinkState l = 0)) ∧
    ((s.store req (Reg.LINK_CTL l) (v &&& 0xFFFFFFFE)).2 = true → ∃ t, exec (.linkDisable req l v) s = .next t ∧ t.klinkState l = 0 ∧ others t ∧
      (s.klinkState l ≠ 0 → t.linkSerial l = 0)) ∧
    (s.klinkState l = 1 → ∃ t, exec (.linkTrained l) s = .next t ∧ t.klinkState l = 2 ∧ t.fld (Reg.LINK_STS l) 11 8 = 15 ∧
      t.flag (klinkPage l + 0x10) 0 = true ∧ others t) ∧
    (s.klinkState l ≠ 1 → ∃ t, exec (.linkTrained l) s = .next t ∧ t.klinks = s.klinks ∧ t.klinkState l = s.klinkState l) ∧
    (s.klinkState l = 1 → (s.klink l).trainFrom + 80000000 ≤ s.now → ∃ t, exec (.linkTrainTimeout l) s = .next t ∧ t.klinkState l = 3 ∧
      (t.klink l).failedAt = s.now ∧ t.rd (Reg.LINK_CNT_FAIL l) = s.rd (Reg.LINK_CNT_FAIL l) + 1 ∧ others t) ∧
    (s.klinkState l = 3 → (s.klink l).failedAt + 1000000000 ≤ s.now → s.flag Reg.KL_CTL 0 = true → s.ready = true → s.flag (Reg.LINK_CTL l) 0 = true →
      ∃ t, exec (.trainingRetry l) s = .next t ∧ t.klinkState l = 1 ∧ (t.klink l).trainFrom = s.now ∧ others t) ∧
    ((s.klinkState l ≠ 3 ∨ s.now < (s.klink l).failedAt + 1000000000) → ∃ t, exec (.trainingRetry l) s = .next t ∧ t.klinkState l = s.klinkState l ∧ t.klinks = s.klinks) ∧
    (∀ lane : Bool, s.linkUp l = true → (lane = true ∨ (s.klink l).heard + 4000 ≤ s.now ∨ (∃ f ∈ (s.klink l).replay, 8 ≤ f.resent)) →
      ∃ t, exec (.linkFail l lane) s = .next t ∧ t.klinkState l = 3 ∧ t.rd (Reg.LINK_CNT_FAIL l) = s.rd (Reg.LINK_CNT_FAIL l) + 1 ∧
        (t.klink l).replay = [] ∧ t.flag (klinkPage l + 0x10) 1 = true ∧ t.flag (klPage + 0x10) 2 = true ∧ others t) ∧
    (s.now < (s.klink l).heard + 4000 → (∀ f ∈ (s.klink l).replay, f.resent < 8) →
      ∃ t, exec (.linkFail l false) s = .next t ∧ t.klinks = s.klinks ∧ t.klinkState l = s.klinkState l))

/-- On an UP link, a flit that fails its check is discarded, counted and answered with a NAK; one out of order is answered with a NAK. An arriving NULL frees the flits its ACK covers and returns credits, and changes nothing else of the module; a NAK does so and resends every flit after its ACK, each counted. With nothing to send for 0.5 us a NULL is sent. A request for this module that ACCEPT does not allow is counted and raises REFUSED and changes no memory; a WR allowed to HBM stores its bytes there and no others, and is counted; an RD_REQ allowed of HBM changes no memory. A flit for another module with no hop left is discarded and counted in CNT_TTL; with hops left and a route by another link that can send, it goes on with one hop less. An answer OK ends the access it matches and gives the requester its data; one that matches nothing changes no access. An access not answered in time is counted and fails with NO_ROUTE. (R368, R369, R371, R372, R374, R375, R376, R377) -/
def Obligations.FlitsAndPeerAccesses : Prop :=
  (∀ (l : Fin 8) (b : List Byte) (s : State), s.linkUp l = true →
    let nak := Out.flit l 5 (flitBytes { vc := 0, type := 5, ttl := 64, src := s.sysid, dst := 0, payload := zeros 244 } (s.klink l).next
      (((s.klink l).expect + 4095) % 4096) (credOf (s.klink l).owe))
    (flitGood b = false → ∃ t, exec (.badFlit l b) s = .next t ∧ t.out = nak :: s.out ∧ (t.klink l).expect = (s.klink l).expect ∧
      t.rd (Reg.LINK_CNT_CRC l) = s.rd (Reg.LINK_CNT_CRC l) + 1) ∧
    (flitGood b = true → s.flitInOrder l b = false → ∃ t, exec (.badFlit l b) s = .next t ∧ t.out = nak :: s.out ∧ (t.klink l).expect = (s.klink l).expect) ∧
    ((s.klink l).sent + 500 ≤ s.now → (s.klink l).waits = [] → ∃ t, exec (.nullTimer l) s = .next t ∧ ∃ x, t.out = .flit l 0 x :: s.out) ∧
    (s.now < (s.klink l).sent + 500 → ∃ t, exec (.nullTimer l) s = .next t ∧ t.out = s.out ∧ t.klinks = s.klinks)) ∧
  (∀ (l : Fin 8) (b : List Byte) (s : State), (s.klink l).waits = [] → let x := s.klink l
    let kept := (match x.replay.findIdx? (fun f => f.seq == nbits (hdrOf b) 45 34) with
      | some i => x.replay.drop (i + 1)
      | none => x.replay)
    let credits := updAt x.credits (nbits (hdrOf b) 47 46) (· + nbits (hdrOf b) 55 48)
    (s.flitArrives l 0 b → ∃ t, exec (.nullFlit l b) s = .next t ∧ t.klink l = { x with heard := s.now, replay := kept, credits := credits } ∧
      t.regs = s.regs ∧ t.out = s.out ∧ ∀ k, k ≠ l.val → t.klink k = s.klink k) ∧
    (s.flitArrives l 5 b → ∃ t, exec (.nak l b) s = .next t ∧ (t.klink l).replay = kept.map (fun f => { f with resent := f.resent + 1 }) ∧
      (t.klink l).credits = credits ∧ t.rd (Reg.LINK_CNT_REPLAY l) = s.rd (Reg.LINK_CNT_REPLAY l) + BitVec.ofNat 32 kept.length)) ∧
  (∀ (l : Fin 8) (b : List Byte) (s : State), let a := leAt b 8 6
    let n := leAt b 14 2
    (flitDst b = s.sysid → s.peerCheck (flitSrc b) a n = 1 → ∀ ty cmd, (ty, cmd) ∈ [(1, Instr.wr l b), (2, .rdReq l b)] → s.flitArrives l ty b →
      ∃ t, exec cmd s = .next t ∧ t.rd Reg.KL_CNT_REFUSED = s.rd Reg.KL_CNT_REFUSED + 1 ∧ t.flag (klPage + 0x10) 3 = true ∧ ∀ x, t.byte x = s.byte x) ∧
    (s.flitArrives l 1 b → flitDst b = s.sysid → s.peerCheck (flitSrc b) a n = 0 → s.canWrite 0 a n = .ok → a + n ≤ 0xC00000000 → n ≤ 192 →
      Memory.wf s.mem = true → ∃ t, exec (.wr l b) s = .next t ∧ t.rd Reg.KL_CNT_PEER_IN = s.rd Reg.KL_CNT_PEER_IN + 1 ∧
        (∀ i, i < n → t.byte (a + i) = (b.drop (32 + i)).headD 0) ∧ ∀ x, (x < a ∨ a + n ≤ x) → t.byte x = s.byte x) ∧
    (s.flitArrives l 2 b → flitDst b = s.sysid → s.peerCheck (flitSrc b) a n = 0 → s.canRead 0 a n = .ok → a + n ≤ 0xC00000000 →
      ∃ t, exec (.rdReq l b) s = .next t ∧ t.rd Reg.KL_CNT_PEER_IN = s.rd Reg.KL_CNT_PEER_IN + 1 ∧ ∀ x, t.byte x = s.byte x) ∧
    (flitDst b ≠ s.sysid → ∀ ty cmd, (ty, cmd) ∈ [(1, Instr.wr l b), (2, .rdReq l b), (3, .rdRsp l b), (6, .cmpl l b)] → s.flitArrives l ty b →
      (nbits (hdrOf b) 63 56 ≤ 1 → ∃ t, exec cmd s = .next t ∧ t.rd Reg.KL_CNT_TTL = s.rd Reg.KL_CNT_TTL + 1 ∧ (∀ k, k ≠ l.val → t.klink k = s.klink k)) ∧
      (∀ k, 1 < nbits (hdrOf b) 63 56 → s.routeTo (flitDst b) = some k → k ≠ l.val → s.canSend k (nbits (hdrOf b) 21 20) → ∃ t, exec cmd s = .next t ∧
        (t.klink k).replay = (s.klink k).replay ++ [{ vc := nbits (hdrOf b) 21 20, type := ty, ttl := nbits (hdrOf b) 63 56 - 1, src := flitSrc b, dst := flitDst b, payload := (b.drop 8).take 244, seq := (s.klink k).next }])) ∧
    (flitDst b = s.sysid → ∀ read ty cmd, (read, ty, cmd) ∈ [(true, 3, Instr.rdRsp l b), (false, 6, .cmpl l b)] → s.flitArrives l ty b →
      let hit := s.kal.peers.find? (fun r => r.tid == leAt b 18 2 && r.sys == flitSrc b && r.write == !read)
      (hit = none → ∃ t, exec cmd s = .next t ∧ t.kal = s.kal) ∧
      (∀ r, hit = some r → byteAt b 20 = 0 → ∃ t, exec cmd s = .next t ∧ t.kal.peers = s.kal.peers.filter (· ≠ r) ∧
        ((∀ h, r.who ≠ .store h) → t.kal.answers = s.kal.answers ++ [(r, 0, if read then (b.drop 32).take r.bytes else [])])) ∧
      (∀ r, hit = some r → byteAt b 20 ≠ 0 → ∃ t, exec cmd s = .next t ∧ t.kal.peers = s.kal.peers.filter (· ≠ r) ∧
        (∀ h, r.who = .store h → t.rd Reg.TF_CNT_PEER_FAIL = s.rd Reg.TF_CNT_PEER_FAIL + 1 ∧ ((s.hart h).run ≠ .parked → (t.hart h).csr.get 0 0x801 = 1)) ∧
        ((∀ h, r.who ≠ .store h) → t.kal.answers = s.kal.answers ++ [(r, byteAt b 20, [])])))) ∧
  (∀ (tid : BitVec 16) (s : State), let late := s.kal.peers.find? (fun r => r.tid == tid.toNat && decide (r.limit ≤ s.now))
    (late = none → ∃ t, exec (.peerTimeout tid) s = .next t ∧ t.kal = s.kal) ∧
    (∀ r, late = some r → ∃ t, exec (.peerTimeout tid) s = .next t ∧ t.kal.peers = s.kal.peers.filter (· ≠ r) ∧
      t.rd Reg.KL_CNT_TIMEOUT = s.rd Reg.KL_CNT_TIMEOUT + 1 ∧
      ((∀ h, r.who ≠ .store h) → t.kal.answers = s.kal.answers ++ [(r, 4, [])])))

/-- A BEACON gives the link its far end's serial, link number and system ID; in K2 a lower serial than the lowest known is adopted. Every 20 us a running module sends a BEACON on each link that can send. A new REPORT is kept. After ELECT_MS with nothing new in K2, the module of the lowest serial becomes coordinator with a plan that acts 4 ms ahead and any other module goes to K3; before that nothing changes. A PLAN in K2, K3 or UNJOINED gives system ID, depth, coordinator, deputy, parent and ACT instant and leads to K4, or to UNALIGNED at a depth above 32. ROUTES loads half of the table; at the ACT instant the loaded table takes effect, and not before. A new READY is recorded, and with one from every module an aligned module is READY. 1 ms without a route to the coordinator begins a new election. (R370, R377, R379, R380, R388) -/
def Obligations.ElectionAndPlan : Prop :=
  (∀ (l : Fin 8) (b : List Byte) (s : State), let c := mContent b
    let low := leAt c 0 8
    s.mgmtArrives l 1 b →
    ∃ t, exec (.beacon l b) s = .next t ∧ t.linkSerial l = mSerial b ∧ t.fld (Reg.LINK_STS l) 15 12 = byteAt c 10 % 16 ∧ t.fld (Reg.LINK_STS l) 23 16 = flitSrc b ∧
      (t.klink l).nbState = byteAt c 9 ∧ t.klState = s.klState ∧
      ((s.klState = 2 ∧ low < s.kal.best) → t.kal.best = low ∧ t.kal.hops = byteAt c 8 + 1 ∧ t.kal.changed = s.now) ∧
      ((s.klState ≠ 2 ∨ s.kal.best ≤ low) → t.kal.best = s.kal.best)) ∧
  (∀ s : State,
    (s.klState ≠ 0 → ∃ t, exec .beaconTimer s = .next t ∧ ∀ l, l < 8 → s.canSend l 2 →
      s.sentMgmt t l 1 (toLe 8 s.kal.best ++ toLe 1 s.kal.hops ++ toLe 1 s.klState ++ toLe 1 l)) ∧
    (s.klState = 0 → ∃ t, exec .beaconTimer s = .next t ∧ t.out = s.out ∧ t.klinks = s.klinks)) ∧
  (∀ (l : Fin 8) (b : List Byte) (s : State),
    (s.floodArrives l 2 b → ∃ t, exec (.report l b) s = .next t ∧
      t.kal.reports = s.kal.reports.insert (mSerial b) ((List.range 8).map (fun i => leAt (mContent b) (8 * i) 8)) ∧
      ((s.isCoord = true ∧ s.klState ≠ 2 ∧ s.kal.ids.find? (fun (e : Nat × Nat) => e.2 == mSerial b) = none) → t.kal.act = some (s.now + 4000000))) ∧
    (s.mgmtArrives l 2 b → s.kal.seen.contains (mKey b) = true → ∃ t, exec (.report l b) s = .next t ∧ t.kal = s.kal)) ∧
  (∀ s : State,
    (s.klState = 2 → s.kal.changed + s.kal.elect * 1000000 ≤ s.now → s.kal.best = ownSerial → ∃ t, exec .electQuiet s = .next t ∧ t.klState ∈ [4, 5] ∧
      t.isCoord = true ∧ t.kal.act = some (s.now + 4000000) ∧ t.rd Reg.KL_COORD_LO = BitVec.ofNat 32 ownSerial) ∧
    (s.klState = 2 → s.kal.changed + s.kal.elect * 1000000 ≤ s.now → s.kal.best ≠ ownSerial → ∃ t, exec .electQuiet s = .next t ∧ t.klState = 3) ∧
    (s.now < s.kal.changed + s.kal.elect * 1000000 → ∃ t, exec .electQuiet s = .next t ∧ t.klState = s.klState ∧ t.kal = s.kal)) ∧
  (∀ (l : Fin 8) (b : List Byte) (s : State), let c := mContent b
    (s.mgmtArrives l 3 b → s.klState ∈ [2, 3, 7] → ∃ t, exec (.plan l b) s = .next t ∧ t.sysid = byteAt c 0 ∧ t.fld Reg.KL_STS 7 0 = byteAt c 1 ∧
      t.rd Reg.KL_COORD_LO = BitVec.ofNat 32 (mSerial b) ∧ t.kal.parent = some (byteAt c 2 % 8) ∧ t.kal.deputy = byteAt c 3 ∧ t.kal.act = some (leAt c 4 8) ∧
      t.klState = if 32 < byteAt c 1 then 6 else 4) ∧
    (s.mgmtArrives l 9 b → flitDst b = s.sysid → s.kal.act.isSome = true → ∃ t, exec (.routes l b) s = .next t ∧ t.kal.routes = s.kal.routes ∧
      (∀ i, i < 128 → t.kal.staged.get 0 (128 * (byteAt c 0 % 2) + i) = byteAt c (1 + i)) ∧
      ∀ i, i < 128 → t.kal.staged.get 0 (128 * (1 - byteAt c 0 % 2) + i) = s.kal.staged.get 0 (128 * (1 - byteAt c 0 % 2) + i))) ∧
  (∀ s : State,
    (∀ i, s.kal.act = some i → i ≤ s.now → ∃ t, exec .routeAct s = .next t ∧ t.kal.routes = s.kal.staged ∧ t.kal.act = none) ∧
    ((∀ i, s.kal.act = some i → s.now < i) → ∃ t, exec .routeAct s = .next t ∧ t.kal = s.kal)) ∧
  (∀ (l : Fin 8) (b : List Byte) (s : State), s.floodArrives l 8 b →
    let ready := if s.kal.ready.contains (mSerial b) then s.kal.ready else mSerial b :: s.kal.ready
    ∃ t, exec (.readyFlit l b) s = .next t ∧ t.kal.ready = ready ∧
      t.klState = if s.klState = 4 ∧ s.kal.align = 3 ∧ s.fld Reg.KL_STS 24 16 ≤ ready.length then 5 else s.klState) ∧
  (∀ s : State,
    (∀ i, s.kal.cut = some i → i + 1000000 ≤ s.now → 4 ≤ s.klState → ∃ t, exec .splitTimeout s = .next t ∧ t.klState = 2 ∧ t.kal.cut = none ∧
      t.kal.best = ownSerial ∧ t.kal.changed = s.now ∧ t.sysid = s.sysid) ∧
    (s.kal.cut = none → ∃ t, exec .splitTimeout s = .next t ∧ t.kal = s.kal ∧ t.klState = s.klState))

/-- In K4 and K5 a module sends SYNC with its timebase on every link that can send but its parent link. A SYNC that opens an exchange on the parent link is stamped and answered; the one that closes it gives the offset, shown in KL_OFFSET: in K4, too large an offset leaves the module UNALIGNED, the first one sets the rate within its range, the next writes the negated offset to TB_SLEW, and one within 50 ns with no slew left aligns it. On another link SYNC marks the far end a child and is answered. Every 10 us each link that can send sends a HEARTBEAT with HEALTH, STATE and timebase. A HEARTBEAT sets the neighbour's STATE and system ID; one with FAULT fails the link. A LINK_EVENT of an UP link is recorded. A new LOST is counted, raises MODULE_LOST, ends every access to that module and frees its shadows. A shadow port write opens an item of another module with its parts and shares, or frees one; a bad one is counted, raises SHADOW_BAD and changes no item. (R373, R383, R384, R385, R386, R387, R389, R422) -/
def Obligations.AlignmentLossAndShadows : Prop :=
  (∀ s : State, s.klState ∈ [4, 5] → ∃ t, exec .syncTimer s = .next t ∧
    ∀ l, l < 8 → s.kal.parent ≠ some l → s.canSend l 2 → s.sentMgmt t l 4 (toLe 8 s.now ++ zeros 32)) ∧
  (∀ s : State, ∃ t, exec .heartbeatTimer s = .next t ∧
    ∀ l, l < 8 → s.canSend l 2 → s.sentMgmt t l 5 (toLe 1 (ofBool (s.flag Reg.HM_STS 30)) ++ toLe 1 s.klState ++ toLe 8 s.now)) ∧
  (∀ (l : Fin 8) (b : List Byte) (s : State), s.mgmtArrives l 4 b → let c := mContent b
    let ofs := s.syncOffset l c
    (s.kal.parent = some l.val → leAt c 16 8 = 0 → ∃ t, exec (.syncFlit l b) s = .next t ∧ t.kal.t1 = leAt c 0 8 ∧ t.kal.t2 = s.now ∧ t.kal.t3 = s.now ∧
      t.holdsMgmt l 4 (toLe 8 (leAt c 0 8) ++ toLe 8 s.now ++ toLe 8 s.now)) ∧
    (s.kal.parent = some l.val → leAt c 16 8 ≠ 0 → ∃ t, exec (.syncFlit l b) s = .next t ∧ t.kal.ofs = ofs ∧ t.rd Reg.KL_OFFSET = satWord ofs ∧
      (s.klState ≠ 4 → t.clk = s.clk ∧ t.klState = s.klState) ∧
      (s.klState = 4 → s.kal.align = 0 → s.kal.alignMax * 1000000 < ofs.natAbs → t.klState = 6 ∧ t.clk = s.clk ∧ t.flag (klPage + 0x10) 4 = true) ∧
      (s.klState = 4 → s.kal.align = 0 → ofs.natAbs ≤ s.kal.alignMax * 1000000 → t.klState = 4 ∧ t.kal.align = 1 ∧ ∃ r, t.clk = { s.clk with rate := clampRate r }) ∧
      (s.klState = 4 → s.kal.align = 1 → t.klState = 4 ∧ t.kal.align = 2 ∧ t.clk = { s.clk with slew := satWord (-ofs) }) ∧
      (s.klState = 4 → s.kal.align = 2 → s.clk.slew = 0 → ofs.natAbs ≤ 50 → t.kal.align = 3 ∧ t.clk = s.clk)) ∧
    (s.kal.parent ≠ some l.val → ∃ t, exec (.syncFlit l b) s = .next t ∧ (t.klink l).child = true ∧ t.flag (Reg.LINK_STS l) 29 = true ∧ t.clk = s.clk ∧
      t.holdsMgmt l 4 (c.take 24 ++ toLe 8 s.now ++ toLe 8 (unsign 64 s.kal.ofs)))) ∧
  (∀ (l : Fin 8) (b : List Byte) (s : State), let c := mContent b
    (s.mgmtArrives l 5 b →
      (byteAt c 0 ≠ 1 → ∃ t, exec (.heartbeat l b) s = .next t ∧ (t.klink l).nbState = byteAt c 1 ∧ t.fld (Reg.LINK_STS l) 23 16 = flitSrc b ∧ t.linkUp l = true) ∧
      (byteAt c 0 = 1 → ∃ t, exec (.heartbeat l b) s = .next t ∧ t.klinkState l = 3 ∧ t.rd (Reg.LINK_CNT_FAIL l) = s.rd (Reg.LINK_CNT_FAIL l) + 1 ∧
        t.flag (klinkPage l + 0x10) 1 = true ∧ t.flag (klPage + 0x10) 2 = true)) ∧
    (s.mgmtArrives l 6 b → flitDst b = s.sysid → byteAt c 1 = 2 → ∃ t, exec (.linkEvent l b) s = .next t ∧ t.rd Reg.KL_CNT_LOST = s.rd Reg.KL_CNT_LOST ∧
      t.kal.reports = s.kal.reports.insert (mSerial b)
        (updAt (s.kal.reports.get [0, 0, 0, 0, 0, 0, 0, 0] (mSerial b)) (byteAt c 0 % 8) (fun _ => leAt c 2 8))) ∧
    (s.mgmtArrives l 6 b → flitDst b = s.sysid → byteAt c 1 ≠ 2 → s.isCoord = true → ∀ e, s.kal.ids.find? (fun (e : Nat × Nat) => e.2 == leAt c 2 8) = some e →
      s.farEnds.contains (leAt c 2 8) = false → s.kal.lost.contains e.1 = false →
      (∀ x ∈ s.kal.reports.insert (mSerial b) (updAt (s.kal.reports.get [0, 0, 0, 0, 0, 0, 0, 0] (mSerial b)) (byteAt c 0 % 8) (fun _ => 0)),
        x.1 ≠ leAt c 2 8 → x.2.contains (leAt c 2 8) = false) →
      ∃ t, exec (.linkEvent l b) s = .next t ∧ t.rd Reg.KL_CNT_LOST = s.rd Reg.KL_CNT_LOST + 1 ∧ t.flag (klPage + 0x10) 1 = true) ∧
    (s.floodArrives l 7 b → let id := byteAt c 0
      (s.kal.lost.contains id = false → ∃ t, exec (.lost l b) s = .next t ∧ t.rd Reg.KL_CNT_LOST = s.rd Reg.KL_CNT_LOST + 1 ∧ t.flag (klPage + 0x10) 1 = true ∧
        t.items = s.items.filter (fun (e : Nat × Item) => !(e.2.shadow.isSome && nbits e.1 63 56 == id)) ∧ ∀ r ∈ t.kal.peers, r.sys ≠ id) ∧
      (s.kal.lost.contains id = true → ∃ t, exec (.lost l b) s = .next t ∧ t.items = s.items ∧ t.kal.peers = s.kal.peers ∧ t.kal.lost = s.kal.lost))) ∧
  (∀ (data : List Byte) (s : State), let b := data.set 40 1
    let id := leAt b 0 8
    let bad := fun (cmd : Instr) => ∃ t, exec cmd s = .next t ∧ t.items = s.items ∧ t.rd Reg.KL_CNT_SHADOW_BAD = s.rd Reg.KL_CNT_SHADOW_BAD + 1 ∧ t.flag (klPage + 0x10) 5 = true
    (data.length = 64 → zeroAt b 41 23 = true → s.klState ≠ 6 → byteAt b 36 ≤ 4 → byteAt b 37 ≤ 2 →
      byteAt b 32 < byteAt b 33 → byteAt b 33 < byteAt b 34 → byteAt b 34 < byteAt b 35 → nbits id 63 56 ≠ s.sysid → s.item id = none → s.items.length < 65536 →
      ∃ t, exec (.shadowOpen data) s = .next t ∧ (∀ k, k ≠ id → t.items.get {} k = s.items.get {} k) ∧ ∃ it, t.item id = some it ∧ it.anchor = leAt b 8 8 ∧
        it.deadline = leAt b 16 8 ∧ it.sealAt = leAt b 24 8 ∧ it.shadow = some (byteAt b 36)) ∧
    ((data.length ≠ 64 ∨ zeroAt b 41 23 = false ∨ s.klState = 6 ∨ 4 < byteAt b 36 ∨ nbits id 63 56 = s.sysid ∨ (s.item id).isSome = true) → bad (.shadowOpen data)) ∧
    (∀ it, data.length = 64 → zeroAt b 41 23 = true → s.klState ≠ 6 → s.item id = some it → it.shadow.isSome = true → ∃ t, exec (.shadowClose data) s = .next t ∧ t.item id = none) ∧
    ((s.item id = none ∨ data.length ≠ 64) → bad (.shadowClose data)))

/-- A keyed QUEUE_CMD CREATE whose descriptor can be read and passes every check puts the described queue in RUN with every count 0 and shows OK; otherwise no queue changes and QUEUE_STS shows why. DESTROY of an OFF queue shows NOT_FOUND; a command queue that executes nothing and any record queue are OFF at once, and an executing command queue is STOPPED. A tail doorbell of a running queue moves its tail, and puts it in ERROR, counted and raising QERR, when more than 2^N slots would wait or the tail lies inside a command; a head doorbell moves the completion or record head; a doorbell of an OFF queue, of an unused local number or of a bad width is counted and changes no queue. A running queue with nothing executing, a command waiting and room in its completion ring fetches the next command; one whose target does not know it ends as BAD_OPCODE; a slot that cannot be read puts the queue in ERROR; with nothing waiting, one executing or no room it fetches nothing. COAL_US after the first entry not signalled the queue's message is sent. (R395, R397, R399, R401, R402, R403) -/
def Obligations.QueuesDoorbellsAndFetching : Prop :=
  (∀ (req : BitVec 16) (v : Word) (s : State), let g := bits v 10 0
    (bits v 31 16 = 0x90E5 →
      (∀ b, s.schRead (s.addr48 Reg.QUEUE_DESC_LO Reg.QUEUE_DESC_HI) 64 = some b →
        (s.createResult (bit v 15) g b = 0 → ∃ t, exec (.queueCreate req v) s = .next t ∧ t.rd Reg.QUEUE_STS = 0 ∧
          (bit v 15 = true → t.rqueue g = queueOf b ∧ t.qs = s.qs ∧ ∀ k, k ≠ g → t.rqueue k = s.rqueue k) ∧
          (bit v 15 = false → t.queue g = queueOf b ∧ t.rqs = s.rqs ∧ ∀ k, k ≠ g → t.queue k = s.queue k)) ∧
        (s.createResult (bit v 15) g b ≠ 0 → ∃ t, exec (.queueCreate req v) s = .next t ∧ t.qs = s.qs ∧ t.rqs = s.rqs ∧
          t.rd Reg.QUEUE_STS = BitVec.ofNat 32 (s.createResult (bit v 15) g b))) ∧
      (s.schRead (s.addr48 Reg.QUEUE_DESC_LO Reg.QUEUE_DESC_HI) 64 = none → ∃ t, exec (.queueCreate req v) s = .next t ∧ t.qs = s.qs ∧ t.rqs = s.rqs ∧
        t.rd Reg.QUEUE_STS = 2) ∧
      (bit v 15 = true →
        ((s.rqueue g).state = .off → ∃ t, exec (.queueDestroy req v) s = .next t ∧ t.rqs = s.rqs ∧ t.qs = s.qs ∧ t.rd Reg.QUEUE_STS = 4) ∧
        ((s.rqueue g).state ≠ .off → ∃ t, exec (.queueDestroy req v) s = .next t ∧ t.rqueue g = {} ∧ t.qs = s.qs ∧ t.rd Reg.QUEUE_STS = 0)) ∧
      (bit v 15 = false →
        ((s.queue g).state = .off → ∃ t, exec (.queueDestroy req v) s = .next t ∧ t.qs = s.qs ∧ t.rd Reg.QUEUE_STS = 4) ∧
        ((s.queue g).state ≠ .off → (s.queue g).cur = none → ∃ t, exec (.queueDestroy req v) s = .next t ∧ t.queue g = {} ∧ t.rd Reg.QUEUE_STS = 0) ∧
        ((s.queue g).state ≠ .off → (s.queue g).cur ≠ none → ∃ t, exec (.queueDestroy req v) s = .next t ∧
          t.queue g = { s.queue g with state := .stopped } ∧ t.flag Reg.QUEUE_STS 31 = true))) ∧
    (bits v 31 16 ≠ 0x90E5 → ∀ cmd, cmd ∈ [Instr.queueCreate req v, .queueDestroy req v] → ∃ t, exec cmd s = .next t ∧ t.qs = s.qs ∧ t.rqs = s.rqs)) ∧
  (∀ (fn : Option (Fin 129)) (n : Fin 2048) (v : Word) (s : State),
    let hit := (match fn with
      | none => some n.val
      | some f => ownedQueue s.qs f.val n.val)
    (∀ g, hit = some g → let q := s.queue g
      (q.state ≠ .off → ∃ t, exec (.cqHeadDoorbell fn n v true) s = .next t ∧ t.queue g = { q with cqHead := bits v 15 0 } ∧ ∀ k, k ≠ g → t.queue k = s.queue k) ∧
      (q.state = .run → s.tagFenced q = false → bits v 15 0 ≠ q.tail →
        (between q.head (bits v 15 0) ≤ 2 ^ q.logN → s.slotsEnd q (bits v 15 0) (between q.tail (bits v 15 0) + 1) q.tail = true →
          ∃ t, exec (.tailDoorbell fn n v true) s = .next t ∧ t.queue g = { q with tail := bits v 15 0 } ∧ ∀ k, k ≠ g → t.queue k = s.queue k) ∧
        ((2 ^ q.logN < between q.head (bits v 15 0) ∨ s.slotsEnd q (bits v 15 0) (between q.tail (bits v 15 0) + 1) q.tail = false) →
          ∃ t, exec (.tailDoorbell fn n v true) s = .next t ∧ t.queue g = { q with state := .error } ∧ t.flag (hpPage + 0x10) 2 = true ∧
            t.rd Reg.HP_CNT_QERR = s.rd Reg.HP_CNT_QERR + 1)) ∧
      (bits v 15 0 = q.tail → q.state ≠ .off → ∃ t, exec (.tailDoorbell fn n v true) s = .next t ∧ t.qs = s.qs)) ∧
    (∀ whole, (whole = false ∨ hit = none ∨ (∃ g, hit = some g ∧ (s.queue g).state = .off)) →
      ∀ cmd, cmd ∈ [Instr.tailDoorbell fn n v whole, .cqHeadDoorbell fn n v whole] →
        ∃ t, exec cmd s = .next t ∧ t.qs = s.qs ∧ t.rd Reg.HP_CNT_DB_BAD = s.rd Reg.HP_CNT_DB_BAD + 1)) ∧
  (∀ (fn : Option (Fin 129)) (n : Fin 512) (v : Word) (s : State),
    let hit := (match fn with
      | none => some n.val
      | some f => ownedQueue s.rqs f.val n.val)
    (∀ g, hit = some g → (s.rqueue g).state ≠ .off → ∃ t, exec (.recordHeadDoorbell fn n v true) s = .next t ∧
      t.rqueue g = { s.rqueue g with head := bits v 15 0 } ∧ ∀ k, k ≠ g → t.rqueue k = s.rqueue k) ∧
    (∀ whole, (whole = false ∨ hit = none ∨ (∃ g, hit = some g ∧ (s.rqueue g).state = .off)) →
      ∃ t, exec (.recordHeadDoorbell fn n v whole) s = .next t ∧ t.rqs = s.rqs ∧ t.rd Reg.HP_CNT_DB_BAD = s.rd Reg.HP_CNT_DB_BAD + 1)) ∧
  (∀ (g : Fin 2048) (s : State), let q := s.queue g
    (q.state = .run → q.cur = none → q.head ≠ q.tail → s.tagFenced q = false →
      (q.ownerOf.1 < 8 → s.sliceBlocks q.ownerOf.1 q.ownerOf.2 (q.ring + 32 * (q.head % 2 ^ q.logN)) 32 = false) →
      (∀ b0, s.ringSlot q q.head = some b0 → let op := leAt b0 16 2
        let room := 2 ^ q.logM - (between q.cqHead q.cqTail + q.reserved)
        (room < (if op = 0x69 then 3 else 1) → ∃ t, exec (.cmdFetch g) s = .next t ∧ t.qs = s.qs) ∧
        ((if op = 0x69 then 3 else 1) ≤ room → ∀ b1, (if slotsOf op = 1 then some (zeros 32) else s.ringSlot q ((q.head + 1) % 65536)) = some b1 →
          (opTarget q.target op = true → ∃ t, exec (.cmdFetch g) s = .next t ∧ t.queue g = { q with cur := some (BitVec.ofNat 512 (leNat (b0 ++ b1))) } ∧
            t.mem = canonMem s.mem ∧ t.regs = s.regs ∧ ∀ k, k ≠ g.val → t.queue k = s.queue k) ∧
          (opTarget q.target op = false → ∃ t, exec (.cmdFetch g) s = .next t ∧ (t.queue g).cur = none ∧ (t.queue g).head = (q.head + slotsOf op) % 65536 ∧
            (t.queue g).cqTail = (q.cqTail + 1) % 65536 ∧ (t.queue g).state = .run ∧ ∀ k, k ≠ g.val → t.queue k = s.queue k))) ∧
      (s.ringSlot q q.head = none → ∃ t, exec (.cmdFetch g) s = .next t ∧ t.queue g = { q with state := .error } ∧ t.flag (hpPage + 0x10) 2 = true)) ∧
    ((q.state ≠ .run ∨ q.cur ≠ none ∨ q.head = q.tail) → ∃ t, exec (.cmdFetch g) s = .next t ∧ t.qs = s.qs ∧ t.regs = s.regs)) ∧
  (∀ (record : Bool) (g : Fin 2048) (s : State), let q := if record then s.rqueue g else s.queue g
    ((q.state = .run ∨ q.state = .error) → 0 < q.unsig → q.unsigAt + q.coalUs * 1000 ≤ s.now → ∃ t, exec (.coalTimer record g) s = .next t ∧
      (if record then t.rqueue g else t.queue g) = { q with unsig := 0 } ∧ t.out = (s.qMessage q).out ∧ t.msix = (s.qMessage q).msix) ∧
    ((q.unsig = 0 ∨ s.now < q.unsigAt + q.coalUs * 1000) → ∃ t, exec (.coalTimer record g) s = .next t ∧ t.qs = s.qs ∧ t.rqs = s.rqs ∧ t.out = s.out))

/-- With the timebase running, HOST_UP shows the link in HP_STS, sets the physical function's Bus Master Enable and raises HOST_UP. An FLR of a virtual function leaves it no running queue, no record queue and reset settings, and starts the reset of its instance; one of the physical function changes nothing. A configuration write sets the field that it names: Bus Master, MSI-X and Memory Enable, Function Mask, a vector's mask, address and data; NumVFs only while VF Enable is 0; clearing VF Enable resets every virtual function. A vector unmasked in a function that may send sends its held message. An Ethernet port has a link when it comes up, is enabled and has a module; a change raises NET_LINK, and removing the module takes the link down. On a port with a link, a received frame is counted; one with a bad FCS, for another address, or with no interface for its VLAN is dropped and counted; one that is not a datagram goes to the port's frame queue when it has room, and is counted as dropped when there is none. (R392, R393, R394, R406, R407, R409, R410) -/
def Obligations.FunctionsMessagesAndFrames : Prop :=
  (∀ (speed : Fin 8) (width : Fin 32) (s : State),
    (s.clk.running = true → ∃ t, exec (.hostUp speed width) s = .next t ∧ t.rd Reg.HP_STS = BitVec.ofNat 32 (2 ^ 31 + speed.val * 2 ^ 28 + width.val * 2 ^ 23) ∧
      (t.fn 0).busMaster = true ∧ t.flag (hpPage + 0x10) 1 = true) ∧
    (s.clk.running = false → ∃ t, exec (.hostUp speed width) s = .next t ∧ t.rd Reg.HP_STS = s.rd Reg.HP_STS ∧ t.fns = s.fns)) ∧
  (∀ (f : Fin 129) (s : State),
    (f ≠ 0 → ∃ t, exec (.vfFlr f) s = .next t ∧ t.fn f = {} ∧ (∀ g, (t.queue g).owner = f.val → (t.queue g).state ∈ [QState.off, .stopped]) ∧
      (∀ e ∈ t.rqs, e.2.owner ≠ f.val) ∧ (∀ n, n < 2048 → t.msix.get {} (f.val * 2048 + n) = {})) ∧
    (f = 0 → ∃ t, exec (.vfFlr f) s = .next t ∧ t.fns = s.fns ∧ t.qs = s.qs ∧ t.rqs = s.rqs ∧ t.vis = s.vis)) ∧
  (∀ (f : Fin 129) (n : Fin 2048) (v : Word) (s : State), let old := s.msix.get {} (f.val * 2048 + n.val)
    let now := fun (t : State) => t.msix.get {} (f.val * 2048 + n.val)
    (n.val < vectors f →
      (∃ t, exec (.msixUnmask f (some n)) s = .next t ∧ (now t).mask = false ∧
        ((old.pend = true ∧ (s.fn f).funcMask = false ∧ (s.fn f).msixEnable = true ∧ (s.fn f).busMaster = true ∧ s.fnEnabled f = true) →
          (now t).pend = false ∧ Out.msix f n old.addr old.data ∈ t.out) ∧
        (((s.fn f).funcMask = true ∨ (s.fn f).msixEnable = false) → (now t).pend = old.pend ∧ t.out = s.out)) ∧
      (s.msix.rising = true → ∃ t, exec (.configSpaceWrite f 5 n v) s = .next t ∧ (now t).mask = bit v 0) ∧
      (∃ t, exec (.configSpaceWrite f 6 n v) s = .next t ∧ (now t).addr.setWidth 32 = v ∧ (now t).addr >>> 32 = old.addr >>> 32 ∧ (now t).data = old.data) ∧
      (∃ t, exec (.configSpaceWrite f 7 n v) s = .next t ∧ ((now t).addr >>> 32).setWidth 32 = v ∧ (now t).addr.setWidth 32 = old.addr.setWidth 32) ∧
      (∃ t, exec (.configSpaceWrite f 8 n v) s = .next t ∧ now t = { old with data := v })) ∧
    (vectors f ≤ n.val → ∀ k : Fin 10, k ∈ [6, 7, 8] → ∃ t, exec (.configSpaceWrite f k n v) s = .next t ∧ t.msix = s.msix) ∧
    (∃ t, exec (.msixUnmask f none) s = .next t ∧ (t.fn f).funcMask = false) ∧
    (∃ t, exec (.configSpaceWrite f 0 n v) s = .next t ∧ (t.fn f).busMaster = bit v 0 ∧
      (f = 0 → bit v 0 = true → (s.fn 0).busMaster = false → s.flag Reg.HP_STS 31 = true → t.flag (hpPage + 0x10) 1 = true)) ∧
    (f = 0 → ∃ t, exec (.configSpaceWrite f 1 n v) s = .next t ∧ t.vfEnable = bit v 0 ∧
      (s.vfEnable = true → bit v 0 = false → ∀ k, 0 < k → k ≤ 128 → t.fn k = {})) ∧
    (f = 0 → s.vfEnable = false → ∃ t, exec (.configSpaceWrite f 2 n v) s = .next t ∧ t.numVfs = min 128 (bits v 15 0)) ∧
    ((f ≠ 0 ∨ s.vfEnable = true) → ∃ t, exec (.configSpaceWrite f 2 n v) s = .next t ∧ t.numVfs = s.numVfs) ∧
    (∃ t, exec (.configSpaceWrite f 3 n v) s = .next t ∧ t.fn f = { s.fn f with msixEnable := bit v 0 }) ∧
    (∃ t, exec (.configSpaceWrite f 4 n v) s = .next t ∧ t.fn f = { s.fn f with funcMask := bit v 0 }) ∧
    (∃ t, exec (.configSpaceWrite f 9 n v) s = .next t ∧ t.fn f = { s.fn f with memEnable := bit v 0 } ∧ t.out = s.out)) ∧
  (∀ (n : Fin 2) (s : State),
    (∀ isUp : Bool, let link := isUp && s.flag (Reg.ETH_CTL n) 0 && s.flag (Reg.ETH_STS n) 30
      ∃ t, exec (.netLink n isUp) s = .next t ∧ t.flag (Reg.ETH_STS n) 31 = link ∧
        (s.flag (Reg.ETH_STS n) 31 ≠ link → t.flag (ethPage n + 0x10) 0 = true) ∧ (s.flag (Reg.ETH_STS n) 31 = link → t.regs = s.regs)) ∧
    (∃ t, exec (.presenceChange n true) s = .next t ∧ t.flag (Reg.ETH_STS n) 30 = true ∧ t.flag (Reg.ETH_STS n) 31 = s.flag (Reg.ETH_STS n) 31) ∧
    (∃ t, exec (.presenceChange n false) s = .next t ∧ t.flag (Reg.ETH_STS n) 30 = false ∧ t.flag (Reg.ETH_STS n) 31 = false ∧
      (s.flag (Reg.ETH_STS n) 31 = true → t.flag (ethPage n + 0x10) 0 = true))) ∧
  (∀ (n : Fin 2) (b : List Byte) (fcsOk mcast : Bool) (s : State), let f := frameOf b
    let mine := b.take 6 == s.mac n || b.take 6 == List.replicate 6 0xFF || mcast
    let kept := mine && !f.2.1 && !hasOptions f.2.2.1 f.2.2.2 && (s.ifOf n f.1).isSome
    let port := s.rqs.find? (fun (e : Nat × Queue) => e.2.state == .run && e.2.target == 6 + n.val)
    (s.flag (Reg.ETH_STS n) 31 = false → ∃ t, exec (.ethFrameRx n b fcsOk mcast) s = .next t ∧ t.regs = s.regs ∧ t.rqs = s.rqs ∧ t.ctxs = s.ctxs) ∧
    (s.flag (Reg.ETH_STS n) 31 = true →
      ((fcsOk = false ∨ kept = false) → ∃ t, exec (.ethFrameRx n b fcsOk mcast) s = .next t ∧ t.rqs = s.rqs ∧ t.ctxs = s.ctxs ∧
        t.rd (Reg.ETH_CNT_RX_FRAMES n) = s.rd (Reg.ETH_CNT_RX_FRAMES n) + 1 ∧ t.rd (Reg.ETH_CNT_RX_FILTER n) = s.rd (Reg.ETH_CNT_RX_FILTER n) + 1 ∧
        t.rd (Reg.ETH_CNT_FCS n) = s.rd (Reg.ETH_CNT_FCS n) + (if fcsOk then 0 else 1)) ∧
      (fcsOk = true → kept = true → udpOf f.2.2.1 f.2.2.2 = none →
        (port = none → ∃ t, exec (.ethFrameRx n b fcsOk mcast) s = .next t ∧ t.rqs = s.rqs ∧
          t.rd (Reg.ETH_CNT_RX_FRAMES n) = s.rd (Reg.ETH_CNT_RX_FRAMES n) + 1 ∧ t.rd (Reg.ETH_CNT_RX_DROP n) = s.rd (Reg.ETH_CNT_RX_DROP n) + 1) ∧
        (∀ e, port = some e → let q := s.rqueue e.1
          let u := recUnits b.length
          let skip := if 2 ^ q.logN < q.tail % 2 ^ q.logN + u then 2 ^ q.logN - q.tail % 2 ^ q.logN else 0
          q.state = .run → u ≤ 2 ^ q.logN →
          (between q.head q.tail + u + skip ≤ 2 ^ q.logN → ∃ t, exec (.ethFrameRx n b fcsOk mcast) s = .next t ∧
            (t.rqueue e.1).tail = (q.tail + skip + u) % 65536 ∧ t.rd (Reg.ETH_CNT_RX_DROP n) = s.rd (Reg.ETH_CNT_RX_DROP n)) ∧
          (2 ^ q.logN < between q.head q.tail + u + skip → ∃ t, exec (.ethFrameRx n b fcsOk mcast) s = .next t ∧ t.rqs = s.rqs ∧
            t.rd (Reg.ETH_CNT_RX_DROP n) = s.rd (Reg.ETH_CNT_RX_DROP n) + 1)))))

/-- A COPY of a running queue between HBM or host memory that its owner may use, readable and writable, leaves in every destination byte what the source byte held, changes no other byte outside its queue's completion ring and write-back block, and completes. One with a bad field or addresses its owner may not use changes no byte outside those either, and completes. One whose source is another module issues its first access and waits. A SEND on an enabled port with a link of a frame of good length that can be read sends those bytes, counts the frame and completes; one with a bad field sends nothing and completes. (R374, R376, R393, R396, R404, R405) -/
def Obligations.CopyAndSend : Prop :=
  (∀ (q : Fin 2048) (s : State) (d : BitVec 512), let qu := s.queue q
    let b := cmdBytes d
    let n := leAt b 24 4
    let src := s.localAddr (leAt b 0 8)
    let dst := s.localAddr (leAt b 8 8)
    let own := fun (x : Nat) => (x < qu.cq ∨ qu.cq + 64 * 2 ^ qu.logM ≤ x) ∧ (x < qu.wb ∨ qu.wb + 64 ≤ x)
    let done := fun (t : State) => (t.queue q).cur = none ∧ (t.queue q).head = (qu.head + 1) % 65536 ∧ ∀ k, k ≠ q.val → t.queue k = s.queue k
    let usable := zeroAt b 18 2 = true ∧ leAt b 28 4 < 4 ∧ 0 < n ∧ n ≤ 16777216 ∧ s.mayUse qu src n = true ∧ s.mayUse qu dst n = true ∧
      (qu.ownerOf.1 < 8 → s.sliceBlocks qu.ownerOf.1 qu.ownerOf.2 src n = false ∧ s.sliceBlocks qu.ownerOf.1 qu.ownerOf.2 dst n = false)
    s.executing q 0x10 = some d → s.tagFenced qu = false → (qu.state = .run ∨ qu.state = .error) → Memory.wf s.mem = true →
    (usable → (src + n ≤ 0xC00000000 ∨ hostBase ≤ src) → (dst + n ≤ 0xC00000000 ∨ hostBase ≤ dst) → s.canRead qu.fnOf src n = .ok → s.canWrite qu.fnOf dst n = .ok →
      ∃ t, exec (.copy q) s = .next t ∧ done t ∧ ∀ x, own x → t.byte x = if dst ≤ x ∧ x < dst + n then s.byte (src + (x - dst)) else s.byte x) ∧
    ((zeroAt b 18 2 = false ∨ 4 ≤ leAt b 28 4 ∨ n = 0 ∨ 16777216 < n ∨ s.mayUse qu src n = false ∨ s.mayUse qu dst n = false) →
      ∃ t, exec (.copy q) s = .next t ∧ done t ∧ ∀ x, own x → t.byte x = s.byte x) ∧
    (∀ l, let k := s.copied q qu
      let who := copyWho q qu k
      let sys := (src + k - peerBase) / 0x4000000000
      usable → isPeer src = true → s.routeTo sys = some l →
      s.kal.answers.find? (fun e => e.1.who == who) = none → s.kal.peers.any (fun r => r.who == who) = false →
      ∃ t, exec (.copy q) s = .next t ∧ t.qs = s.qs ∧ (∀ x, t.byte x = s.byte x) ∧ ∃ r ∈ t.kal.peers, r.who = who ∧ r.write = false ∧ r.sys = sys)) ∧
  (∀ (q : Fin 2048) (n : Fin 2) (s : State) (d : BitVec 512), let qu := s.queue q
    let b := cmdBytes d
    let a := leAt b 0 8
    let len := leAt b 8 2
    let bad := 1 < byteAt b 10 ∨ zeroAt b 11 5 = false ∨ zeroAt b 18 2 = false ∨ zeroAt b 24 8 = false ∨ len < 60 ∨ s.fld (Reg.ETH_CTL n) 29 16 + 18 < len
    let done := fun (t : State) => (t.queue q).cur = none ∧ (t.queue q).head = (qu.head + 1) % 65536 ∧ ∀ k, k ≠ q.val → t.queue k = s.queue k
    s.executing q 0x12 = some d → s.tagFenced qu = false → (qu.state = .run ∨ qu.state = .error) → qu.target = 6 + n.val →
    (¬ bad → s.mayUse qu a len = true → (qu.ownerOf.1 < 8 → s.sliceBlocks qu.ownerOf.1 qu.ownerOf.2 a len = false) → (a < regBase ∨ hostBase ≤ a) →
      s.canRead qu.fnOf a len = .ok → s.flag (Reg.ETH_CTL n) 0 = true → s.flag (Reg.ETH_STS n) 31 = true →
      ∃ t, exec (.send q) s = .next t ∧ done t ∧ Out.frame n (s.ldUnit a len).1 ∈ t.out ∧ t.rd (Reg.ETH_CNT_TX_FRAMES n) = s.rd (Reg.ETH_CNT_TX_FRAMES n) + 1) ∧
    ((bad ∨ s.mayUse qu a len = false) → ∃ t, exec (.send q) s = .next t ∧ done t ∧ t.rd (Reg.ETH_CNT_TX_FRAMES n) = s.rd (Reg.ETH_CNT_TX_FRAMES n)))

/-- In machine mode a running hart of a core that no partition owns, with no interrupt to take, fetches the 32-bit instruction at an aligned pc in HBM that PMP allows. A register or immediate operation writes its result to rd and goes on to the next instruction; a jump links and goes to its target; a branch goes to its target when its condition holds; none of them changes memory or another register. An operation without a meaning, and MRET outside machine mode, raise an illegal instruction, ECALL and EBREAK their own causes; a trap not delegated goes to machine mode with pc, cause, value and status saved. MRET in machine mode restores mode, pc and interrupt enable. A pending interrupt that may be taken is taken so. WFI waits until an interrupt is pending and enabled. Any other instruction of this row that completes leaves the registers its meaning gives and goes on at its next pc. A hart that cannot issue changes nothing. Once the timebase reaches MTIMECMP, MTIP is pending, and a hart that waits for it runs. (R255, R259, R263, R276) -/
def Obligations.HartArithmeticTrapsAndReturns : Prop :=
  (∀ (h : Fin 49152) (s : State), (s.hart h).run = .running → s.irq h = none → s.peerBusy h = false → (s.hart h).mode = .m → s.coreOwner (h / 512) = none →
    let pc := (s.hart h).pc.toNat
    pc % 4 = 0 → pc + 4 ≤ 0xC00000000 → s.physStop h .m .x pc 2 = none → s.physStop h .m .x (pc + 2) 2 = none → leNat (s.ld pc 2) % 4 = 3 →
    s.hartAt h (leNat (s.ld pc 4)) 4 s) ∧
  (∀ (h : Fin 49152) (insn n : Nat) (s t : State), s.hartAt h insn n t → Memory.wf t.mem = true →
    let x := t.hart h
    let nx := x.pc + BitVec.ofNat 64 n
    let a := t.rx h (iRs1 insn)
    let b := t.rx h (iRs2 insn)
    let counted := fun (u : State) => u.rd (Reg.CORE_CNT_INSTR (h / 512)) = t.rd (Reg.CORE_CNT_INSTR (h / 512)) + 1 ∧ ∀ k, u.byte k = t.byte k
    (∀ op r v, (op, r) ∈ [(0x33, opR (iF7 insn) (iF3 insn) a b), (0x3B, opR32 (iF7 insn) (iF3 insn) (iRs2 insn) a b), (0x13, opI insn a), (0x1B, opI32 insn a),
        (0x37, some (immU insn)), (0x17, some (x.pc + immU insn))] → insn % 128 = op → r = some v →
      ∃ u, exec (.hartInstruction h) s = .next u ∧ t.retires u h nx (iRd insn) v ∧ counted u) ∧
    (insn % 128 = 0x6F → ∃ u, exec (.hartInstruction h) s = .next u ∧ t.retires u h (x.pc + immJ insn) (iRd insn) nx ∧ counted u) ∧
    (insn % 128 = 0x67 → iF3 insn = 0 → ∃ u, exec (.hartInstruction h) s = .next u ∧ t.retires u h ((a + immI insn) &&& ~~~(1#64)) (iRd insn) nx ∧ counted u) ∧
    (∀ taken, insn % 128 = 0x63 → branchTaken (iF3 insn) a b = some taken →
      ∃ u, exec (.hartInstruction h) s = .next u ∧ t.retires u h (if taken then x.pc + immB insn else nx) 0 0 ∧ counted u) ∧
    (x.trapsToM 2 false → ((insn % 128 = 0x33 ∧ opR (iF7 insn) (iF3 insn) a b = none) ∨ (insn % 128 = 0x13 ∧ opI insn a = none) ∨ (insn = 0x30200073 ∧ x.mode ≠ .m)) →
      ∃ u, exec (.hartInstruction h) s = .next u ∧ t.tookTrap u h 2 insn false) ∧
    (insn = 0x00000073 → x.trapsToM (8 + x.mode.num) false → ∃ u, exec (.hartInstruction h) s = .next u ∧ t.tookTrap u h (8 + x.mode.num) 0 false) ∧
    (insn = 0x00100073 → x.trapsToM 3 false → ∃ u, exec (.hartInstruction h) s = .next u ∧ t.tookTrap u h 3 x.pc.toNat false) ∧
    (insn = 0x30200073 → x.mode = .m → ∃ u, exec (.hartInstruction h) s = .next u ∧ (u.hart h).pc = x.cs 0x341 ∧ (u.hart h).mode = privOf (x.csf 0x300 12 11) ∧
      (u.hart h).csf 0x300 3 3 = x.csf 0x300 7 7 ∧ (u.hart h).csf 0x300 7 7 = 1 ∧ (u.hart h).csf 0x300 12 11 = 0 ∧ (u.hart h).x = x.x) ∧
    (insn = 0x10500073 → x.mode = .m →
      (t.irqs h = 0 → ∃ u, exec (.hartInstruction h) s = .next u ∧ t.retires u h nx 0 0 ∧ (u.hart h).run = .wfi) ∧
      (t.irqs h ≠ 0 → ∃ u, exec (.hartInstruction h) s = .next u ∧ t.retires u h nx 0 0 ∧ (u.hart h).run = x.run)) ∧
    (∀ nx' v, t.iclass h insn = .instr → t.xOther h insn nx = .ok (some nx') v → ∃ u, exec (.hartInstruction h) s = .next u ∧ (u.hart h).pc = nx' ∧
      (u.hart h).x = (v.hart h).x ∧ (u.hart h).f = (v.hart h).f ∧ (u.hart h).mode = (v.hart h).mode ∧ ∀ k, k ≠ 0xB02 → (u.hart h).cs k = (v.hart h).cs k)) ∧
  (∀ (h : Fin 49152) (s : State),
    (∀ i, (s.woken h).issue h = .irq i → ((s.woken h).hart h).trapsToM i true → ∃ u, exec (.hartInstruction h) s = .next u ∧ (s.woken h).tookTrap u h i 0 true) ∧
    (∀ c tv t, (s.woken h).issue h = .fetch (.trap c tv t) → (t.hart h).trapsToM c false → ∃ u, exec (.hartInstruction h) s = .next u ∧ t.tookTrap u h c tv false) ∧
    ((s.woken h).issue h = .no → ∃ u, exec (.hartInstruction h) s = .next u ∧ u.harts = s.harts ∧ u.regs = s.regs) ∧
    (((s.hart h).cs 0x7C0).toNat ≤ s.now → ∃ u, exec (.mtimer h) s = .next u ∧ bit (u.mip h) 7 = true ∧
      ((s.hart h).run = .wfi → bit ((s.hart h).cs 0x304) 7 = true → (u.hart h).run = .running)) ∧
    (s.now < ((s.hart h).cs 0x7C0).toNat → ∃ u, exec (.mtimer h) s = .next u ∧ u.harts = s.harts))

/-- A load of HBM that translation, PMP and the partition check allow writes the bytes there, extended, to rd, or boxed to the floating-point register, and changes no byte; a store puts its value there and changes no other byte. One that crosses 64 bytes raises address-misaligned. An AMO that may be performed stores the result of its operation and returns the old value; a misaligned one raises a store address-misaligned. LR returns the value and reserves its 64-byte block; SC stores and returns 0 while the reservation of its block stands, returns 1 and stores nothing otherwise, and either way ends the reservation. FENCE, FENCE.TSO and FENCE.I go on with nothing changed. A legal XFENCE goes on likewise, but one of kaleidoscope scope whose predecessors take in unanswered stores to peers waits. (R261, R262, R263, R267, R269, R270) -/
def Obligations.HartLoadsStoresAndAtomics : Prop :=
  ∀ (h : Fin 49152) (insn n : Nat) (s t : State), s.hartAt h insn n t → Memory.wf t.mem = true →
    let nx := (t.hart h).pc + BitVec.ofNat 64 n
    let rs1 := t.rx h (iRs1 insn)
    let rs2 := (t.rx h (iRs2 insn)).toNat
    let lva := (rs1 + immI insn).toNat
    let sva := (rs1 + immS insn).toNat
    let len := 2 ^ (iF3 insn % 4)
    let same := fun (u : State) => ∀ k, u.byte k = t.byte k
    (insn % 128 = 0x03 → iF3 insn ≠ 7 →
      (64 < lva % 64 + len → (t.hart h).trapsToM 4 false → ∃ u, exec (.hartLoad h) s = .next u ∧ t.tookTrap u h 4 lva false) ∧
      (lva % 64 + len ≤ 64 → ∀ pa t1, t.translate h .r lva = .ok pa t1 → t1.localAddr pa + len ≤ 0xC00000000 → Memory.wf t1.mem = true →
        t1.physStop h ((t1.hart h).eff .r) .r (t1.localAddr pa) len = none → ∃ u, exec (.hartLoad h) s = .next u ∧
          t1.retires u h nx (iRd insn) (loadVal (iF3 insn) (t1.ld (t1.localAddr pa) len)) ∧ ∀ k, u.byte k = t1.byte k)) ∧
    (insn % 128 = 0x07 → iF3 insn ∈ [1, 2, 3] → (t.hart h).fs ≠ 0 → lva % 64 + len ≤ 64 → ∀ pa t1, t.translate h .r lva = .ok pa t1 →
      t1.localAddr pa + len ≤ 0xC00000000 → t1.physStop h ((t1.hart h).eff .r) .r (t1.localAddr pa) len = none → ∃ u, exec (.hartLoad h) s = .next u ∧
        (u.hart h).pc = nx ∧ (u.hart h).rf (iRd insn) = BitVec.ofNat 64 (2 ^ 64 - 2 ^ (8 * len) + leNat (t1.ld (t1.localAddr pa) len)) ∧
        (u.hart h).x = (t1.hart h).x ∧ ∀ r, r < 32 → r ≠ iRd insn → (u.hart h).rf r = (t1.hart h).rf r) ∧
    (insn % 128 = 0x23 → iF3 insn ≤ 3 →
      (64 < sva % 64 + len → (t.hart h).trapsToM 6 false → ∃ u, exec (.hartStore h) s = .next u ∧ t.tookTrap u h 6 sva false ∧ same u) ∧
      (sva % 64 + len ≤ 64 → ∀ pa t1, t.translate h .w sva = .ok pa t1 → t1.localAddr pa + len ≤ 0xC00000000 → Memory.wf t1.mem = true →
        t1.physStop h ((t1.hart h).eff .w) .w (t1.localAddr pa) len = none → ∃ u, exec (.hartStore h) s = .next u ∧ t1.retires u h nx 0 0 ∧
          t1.storedNat u (t1.localAddr pa) len (rs2 % 2 ^ (8 * len)))) ∧
    (insn % 128 = 0x27 → iF3 insn ∈ [1, 2, 3] → (t.hart h).fs ≠ 0 → sva % 64 + len ≤ 64 → ∀ pa t1, t.translate h .w sva = .ok pa t1 →
      t1.localAddr pa + len ≤ 0xC00000000 → Memory.wf t1.mem = true → t1.physStop h ((t1.hart h).eff .w) .w (t1.localAddr pa) len = none →
      ∃ u, exec (.hartStore h) s = .next u ∧ t1.retires u h nx 0 0 ∧ t1.storedNat u (t1.localAddr pa) len (((t.hart h).rf (iRs2 insn)).toNat % 2 ^ (8 * len))) ∧
    (insn % 128 = 0x2F → atomBytes insn ≠ 0 → let w := atomBytes insn
      let f5 := nbits insn 31 27
      (f5 ≠ 2 → f5 ≠ 3 → ∀ v a t1, t.atomAddr h .w rs1.toNat w = .ok a t1 → Memory.wf t1.mem = true → amoOp f5 w (leNat (t1.ld a w)) (rs2 % 2 ^ (8 * w)) = some v →
        ∃ u, exec (.amo h) s = .next u ∧ t1.retires u h nx (iRd insn) (sext64 (8 * w) (leNat (t1.ld a w))) ∧ t1.storedNat u a w v) ∧
      (f5 ≠ 2 → f5 ≠ 3 → (amoOp f5 w 0 0).isSome = true → rs1.toNat % w ≠ 0 → (t.hart h).trapsToM 6 false → ∃ u, exec (.amo h) s = .next u ∧
        t.tookTrap u h 6 rs1.toNat false ∧ same u) ∧
      (f5 = 2 → iRs2 insn = 0 → ∀ a t1, t.atomAddr h .r rs1.toNat w = .ok a t1 → Memory.wf t1.mem = true → ∃ u, exec (.lr h) s = .next u ∧
        t1.retires u h nx (iRd insn) (sext64 (8 * w) (leNat (t1.ld a w))) ∧ (u.hart h).resv = some (a / 64) ∧ ∀ k, u.byte k = t1.byte k) ∧
      (f5 = 3 → ∀ a t1, t.atomAddr h .w rs1.toNat w = .ok a t1 → Memory.wf t1.mem = true →
        ((t1.hart h).resv = some (a / 64) → ∃ u, exec (.sc h) s = .next u ∧ t1.retires u h nx (iRd insn) 0 ∧ (u.hart h).resv = none ∧
          t1.storedNat u a w (rs2 % 2 ^ (8 * w))) ∧
        ((t1.hart h).resv ≠ some (a / 64) → ∃ u, exec (.sc h) s = .next u ∧ t1.retires u h nx (iRd insn) 1 ∧ (u.hart h).resv = none ∧ ∀ k, u.byte k = t1.byte k))) ∧
    (insn % 128 = 0x0F → iF3 insn = 0 → ∃ u, exec (.fence h) s = .next u ∧ t.retires u h nx 0 0 ∧ same u) ∧
    (insn % 128 = 0x0F → iF3 insn = 1 → ∃ u, exec (.fenceI h) s = .next u ∧ t.retires u h nx 0 0 ∧ same u) ∧
    (insn % 128 = 0x0B → iF3 insn = 0 → iRd insn = 0 → iRs1 insn = 0 → nbits insn 31 30 ≠ 3 → nbits insn 29 28 = 0 →
      let pred := nbits insn 27 24
      ((nbits insn 31 30 ≠ 2 ∨ pred = 0 ∨ nbits insn 23 20 = 0 ∨ t.kal.peers.any (isStoreOf h) = false) →
        ∃ u, exec (.xfence h) s = .next u ∧ t.retires u h nx 0 0 ∧ same u) ∧
      (nbits insn 31 30 = 2 → nbits insn 23 20 ≠ 0 → (pred.testBit 0 = true ∨ pred.testBit 2 = true) → t.kal.peers.any (isStoreOf h) = true →
        ∃ u, exec (.xfence h) s = .next u ∧ u.harts = t.harts ∧ same u))

/-- A CSR instruction that the hart may execute returns the old value in rd and goes on. One that writes URG keeps bits 1 and 0; one that writes a 1 to bit 0 of PEERR clears it, and a 0 leaves it; satp takes modes 0 and 9 and keeps its value for any other; none of these changes another CSR. One that reads MEVTQ removes the lowest pending event channel and returns it with bit 63 set, or returns zero. One that the hart may not execute is an illegal instruction. XPARK parks the hart when no launch waits for its core. WRS waits while the hart's reservation stands and no enabled interrupt is pending, WRS.STO at most 1 us, and otherwise goes on; a waiting hart runs again once that ends, and WRS.STO once 1 us has passed. (R256, R260, R262, R268, R270, R275, R276) -/
def Obligations.HartCsrsWaitsAndParking : Prop :=
  (∀ (h : Fin 49152) (insn n : Nat) (s t : State), s.hartAt h insn n t → let x := t.hart h
    let nx := x.pc + BitVec.ofNat 64 n
    let c := nbits insn 31 20
    let new := t.csrTarget h insn
    let done := fun (u : State) => (u.hart h).pc = nx ∧ (u.hart h).mode = x.mode ∧ (csrReads insn = true → iRd insn ≠ 0 → u.rx h (iRd insn) = x.cs c) ∧
      (∀ r, r < 32 → r ≠ iRd insn → u.rx h r = t.rx h r) ∧ ∀ k, k ≠ c → k ≠ 0xB02 → (u.hart h).cs k = x.cs k
    (insn % 128 = 0x73 → iF3 insn ≠ 0 → iF3 insn ≠ 4 →
      (csrWrites insn = true →
        (x.csrOk c true = true →
          (c = 0x800 → ∃ u, exec (.urgWrite h) s = .next u ∧ done u ∧ (u.hart h).urg = bits new 1 0) ∧
          (c = 0x801 → ∃ u, exec (.peerrWrite h) s = .next u ∧ done u ∧ (u.hart h).cs 0x801 = if bit new 0 then 0 else x.cs 0x801) ∧
          (c = 0x180 → ∃ u, exec (.satpWrite h) s = .next u ∧ done u ∧ (u.hart h).cs 0x180 = if bits new 63 60 = 0 ∨ bits new 63 60 = 9 then new else x.cs 0x180)) ∧
        (x.csrOk c true = false → x.trapsToM 2 false → ∀ k cmd, (k, cmd) ∈ [(0x800, Instr.urgWrite h), (0x801, .peerrWrite h), (0x180, .satpWrite h)] → c = k →
          ∃ u, exec cmd s = .next u ∧ t.tookTrap u h 2 insn false)) ∧
      (c = 0x7C1 → csrReads insn = true → csrWrites insn = false → x.csrOk c false = true →
        (∀ i, i < 256 → bit (t.hevt.get 0 h) i = true → (∀ j, j < i → bit (t.hevt.get 0 h) j = false) → ∃ u, exec (.mevtqRead h) s = .next u ∧ (u.hart h).pc = nx ∧
          (iRd insn ≠ 0 → u.rx h (iRd insn) = BitVec.ofNat 64 (i + 2 ^ 63)) ∧ u.hevt.get 0 h = t.hevt.get 0 h ^^^ BitVec.ofNat 256 (2 ^ i)) ∧
        (t.hevt.get 0 h = 0 → ∃ u, exec (.mevtqRead h) s = .next u ∧ (u.hart h).pc = nx ∧ (iRd insn ≠ 0 → u.rx h (iRd insn) = 0) ∧ u.hevt.get 0 h = 0))) ∧
    (insn = 0x100B → (t.core (h / 512)).launchQ = [] → (∀ p, t.coreOwner (h / 512) = some p → (t.part p).launchQ = []) →
      ∃ u, exec (.xpark h) s = .next u ∧ u.hart h = {} ∧ ∀ k, k ≠ h.val → u.hart k = t.hart k) ∧
    ((insn = 0x00D00073 ∨ insn = 0x01D00073) → (∀ i, (s.hart h).run ≠ .wrs i) → (x.mode = .m ∨ bit (x.cs 0x300) 21 = false) →
      (x.resv ≠ none → t.irqs h = 0 → ∃ u, exec (.wrs h) s = .next u ∧ t.retires u h nx 0 0 ∧
        (u.hart h).run = .wrs (if insn = 0x01D00073 then some (t.now + 1000) else none)) ∧
      ((x.resv = none ∨ t.irqs h ≠ 0) → ∃ u, exec (.wrs h) s = .next u ∧ t.retires u h nx 0 0 ∧ (u.hart h).run = x.run))) ∧
  (∀ (h : Fin 49152) (s : State),
    (∀ i, (s.hart h).run = .wrs i → (((s.hart h).resv = none ∨ s.irqs h ≠ 0) → ∃ u, exec (.wrs h) s = .next u ∧ u.hart h = { s.hart h with run := .running }) ∧
      ((s.hart h).resv ≠ none → s.irqs h = 0 → (∀ k, i = some k → s.now < k) → ∃ u, exec (.wrs h) s = .next u ∧ u.hart h = s.hart h)) ∧
    (∀ k, (s.hart h).run = .wrs (some k) → k ≤ s.now → ∃ u, exec (.wrsStoTimeout h) s = .next u ∧ u.hart h = { s.hart h with run := .running } ∧
      ∀ j, j ≠ h.val → u.hart j = s.hart j) ∧
    (∀ k, (s.hart h).run = .wrs (some k) → s.now < k → ∃ u, exec (.wrsStoTimeout h) s = .next u ∧ u.harts = s.harts))

/-- A CSR write that takes mstatus.VS from Off takes a new slot, all zero, when one is free and the hart's turn has come, and otherwise waits at the end of the core's list with nothing written; one that takes VS to Off releases the slot. With VS Off a vector instruction is illegal. A vector setting of a supported type sets vl, vtype and vstart and returns vl; one of an unsupported type sets vill. An integer vector operation that its type admits leaves the register file that the operation gives and vstart 0; a vector load or store whose every access is performed leaves the registers or bytes that its elements give. Each counts the time it occupies a vector unit, and goes on at the next instruction. (R255, R257, R259, R261) -/
def Obligations.VectorSlotsAndInstructions : Prop :=
  ∀ (h : Fin 49152) (insn n : Nat) (s t : State), s.hartAt h insn n t →
    let x := t.hart h
    let nx := x.pc + BitVec.ofNat 64 n
    let c := t.vctx h
    let v := t.vregs h
    let busy := Reg.CORE_CNT_VEC_BUSY (h / 512)
    (∀ k, t.newVs h insn = some k →
      (x.vs = 0 → k ≠ 0 → x.slot = none → t.slotFor h = true → ∃ u, exec (.vsWrite h) s = .next u ∧ (u.hart h).slot = some {} ∧ (u.hart h).vs = k ∧ (u.hart h).pc = nx) ∧
      (x.vs = 0 → k ≠ 0 → t.slotFor h = false → (t.core (h / 512)).slotQ.contains h.val = false → ∃ u, exec (.vsWrite h) s = .next u ∧
        u.hart h = { x with run := .slotWait } ∧ (u.core (h / 512)).slotQ = (t.core (h / 512)).slotQ ++ [h.val]) ∧
      (x.vs ≠ 0 → k = 0 → ∃ u, exec (.vsWrite h) s = .next u ∧ (u.hart h).slot = none ∧ (u.hart h).vs = 0 ∧ (u.hart h).pc = nx)) ∧
    (t.iclass h insn = .vec →
      (x.vs = 0 → x.trapsToM 2 false → ∃ u, exec (.vectorInstruction h) s = .next u ∧ t.tookTrap u h 2 insn false) ∧
      (x.vs ≠ 0 → ∀ sl, x.slot = some sl →
        (insn % 128 = 0x57 → iF3 insn = 7 → ¬ (nbits insn 31 30 = 2 ∧ nbits insn 29 25 ≠ 0) → let imm := nbits insn 31 30 == 3
          let vt := if imm then nbits insn 29 20 else if insn.testBit 31 then (t.rx h (iRs2 insn)).toNat else nbits insn 30 20
          ¬ (imm = false ∧ iRs1 insn = 0 ∧ iRd insn = 0) →
          (vtOk vt = true → let vl := if imm then newVl (iRs1 insn) (vtMax vt) else if iRs1 insn ≠ 0 then newVl (t.rx h (iRs1 insn)).toNat (vtMax vt) else vtMax vt
            ∃ u, exec (.vectorInstruction h) s = .next u ∧ (u.hart h).slot = some { sl with vl := vl, vtype := BitVec.ofNat 64 vt, vstart := 0 } ∧ (u.hart h).pc = nx ∧
              (iRd insn ≠ 0 → u.rx h (iRd insn) = BitVec.ofNat 64 vl)) ∧
          (vtOk vt = false → ∃ u, exec (.vectorInstruction h) s = .next u ∧
            (u.hart h).slot = some { sl with vl := 0, vtype := BitVec.ofNat 64 (2 ^ 63), vstart := 0 } ∧ (u.hart h).pc = nx)) ∧
        (insn % 128 = 0x57 → t.vill h = false → ∀ f3 r, (f3, r) ∈ [(0, c.opInt v insn 1 0), (3, c.opInt v insn 4 0), (4, c.opInt v insn 2 (x.rx (iRs1 insn))),
            (6, c.opMul v insn false (x.rx (iRs1 insn)))] → iF3 insn = f3 →
          (∀ g, r = some g → ∃ u, exec (.vectorInstruction h) s = .next u ∧ u.vregs h = g.1 ∧ ((u.hart h).slot.map (·.vstart)) = some 0 ∧ (u.hart h).pc = nx ∧
            (u.hart h).x = x.x ∧ u.rd busy = t.rd busy + BitVec.ofNat 32 (vecTime c.vl c.sew (vecSlow insn))) ∧
          (r = none → x.trapsToM 2 false → ∃ u, exec (.vectorInstruction h) s = .next u ∧ t.tookTrap u h 2 insn false)) ∧
        (∀ m t1 g, insn % 128 = 0x07 → t.vmem h insn false = some m → t.vloadEls h m v m.els = (t1, g, .done) → (t1.hart h).slot = some sl →
          ∃ u, exec (.vectorInstruction h) s = .next u ∧ u.vregs h = c.agnosticMem g insn m m.evl ∧ (u.hart h).pc = nx ∧ ((u.hart h).slot.map (·.vstart)) = some 0) ∧
        (∀ m t1, insn % 128 = 0x27 → t.vmem h insn true = some m → t.vstoreRuns h (vruns (nbits insn 27 26 == 0 && m.fields == 1) (m.stores v)) = (t1, .done) →
          Memory.wf t1.mem = true → ∃ u, exec (.vectorInstruction h) s = .next u ∧ (u.hart h).pc = nx ∧ ∀ k, u.byte k = t1.byte k)))

end
end

