-- ==== Sys2Proof/Laws/Tab.lean ====
section
/-! SUPPORT. What a sparse table answers after an update, and that updates keep its canonical form. -/
namespace Sys2Proof.Machine

variable {α : Type}

@[simp] theorem Tab.get_insert_same (d : α) (t : Tab α) (k : Nat) (v : α) : (t.insert k v).get d k = v := by
  induction t with
  | nil => simp [Tab.insert, Tab.get]
  | cons e t ih =>
    obtain ⟨j, w⟩ := e
    unfold Tab.insert
    split
    · simp [Tab.get]
    · split
      · simp [Tab.get]
      · simp [Tab.get, *]

theorem Tab.get_insert_ne (d : α) (t : Tab α) {k k' : Nat} (v : α) (h : k' ≠ k) :
    (t.insert k v).get d k' = t.get d k' := by
  induction t with
  | nil => simp [Tab.insert, Tab.get, h]
  | cons e t ih =>
    obtain ⟨j, w⟩ := e
    unfold Tab.insert
    split
    · simp [Tab.get, h]
    · split
      · subst k; simp [Tab.get, h]
      · simp [Tab.get, ih]

@[simp] theorem Tab.get_erase_same (d : α) (t : Tab α) (k : Nat) : (t.erase k).get d k = d := by
  induction t with
  | nil => rfl
  | cons e t ih =>
    obtain ⟨j, w⟩ := e
    unfold Tab.erase
    split
    · exact ih
    · simp [Tab.get, *]

theorem Tab.get_erase_ne (d : α) (t : Tab α) {k k' : Nat} (h : k' ≠ k) : (t.erase k).get d k' = t.get d k' := by
  induction t with
  | nil => rfl
  | cons e t ih =>
    obtain ⟨j, w⟩ := e
    unfold Tab.erase
    split
    · subst k; simp [Tab.get, h, ih]
    · simp [Tab.get, ih]

/-- A key reads what was last given to it. -/
@[simp] theorem Tab.get_set_same [DecidableEq α] (d : α) (t : Tab α) (k : Nat) (v : α) : (t.set d k v).get d k = v := by
  unfold Tab.set; split
  · simp [*]
  · simp

/-- Every other key reads as before. -/
theorem Tab.get_set_ne [DecidableEq α] {d : α} (e : α) (t : Tab α) {k k' : Nat} (v : α) (h : k' ≠ k) :
    (t.set d k v).get e k' = t.get e k' := by
  unfold Tab.set; split
  · exact Tab.get_erase_ne e t h
  · exact Tab.get_insert_ne e t v h

/-- Both cases at once. -/
theorem Tab.get_set [DecidableEq α] (d : α) (t : Tab α) (k k' : Nat) (v : α) :
    (t.set d k v).get d k' = if k' = k then v else t.get d k' := by
  split
  · subst k'; simp
  · exact Tab.get_set_ne d t v ‹_›

@[simp] theorem Tab.look_insert_same (t : Tab α) (k : Nat) (v : α) : (t.insert k v).look k = some v := by
  induction t with
  | nil => simp [Tab.insert, Tab.look]
  | cons e t ih =>
    obtain ⟨j, w⟩ := e
    unfold Tab.insert
    split
    · simp [Tab.look]
    · split
      · simp [Tab.look]
      · simp [Tab.look, *]

@[simp] theorem Tab.look_erase_same (t : Tab α) (k : Nat) : (t.erase k).look k = none := by
  induction t with
  | nil => rfl
  | cons e t ih =>
    obtain ⟨j, w⟩ := e
    unfold Tab.erase
    split
    · exact ih
    · simp [Tab.look, *]

/-! ## The canonical form -/

/-- The keys of a table are all above `k`. -/
def Tab.above (k : Nat) (t : Tab α) : Prop := ∀ e ∈ t, k < e.1

theorem Tab.rising_cons {j : Nat} {w : α} {t : Tab α} : Tab.rising ((j, w) :: t) = true ↔ Tab.above j t ∧ t.rising = true := by
  induction t generalizing j w with
  | nil => simp [Tab.rising, Tab.above]
  | cons e t ih =>
    obtain ⟨k, v⟩ := e
    simp only [Tab.rising, Bool.and_eq_true, decide_eq_true_eq]
    constructor
    · rintro ⟨h, hr⟩
      refine ⟨?_, hr⟩
      intro e he
      rcases List.mem_cons.mp he with rfl | he
      · exact h
      · exact Nat.lt_trans h ((ih.mp hr).1 e he)
    · rintro ⟨h, hr⟩
      exact ⟨h (k, v) (by simp), hr⟩

theorem Tab.above_insert {j k : Nat} {v : α} {t : Tab α} (h : Tab.above j t) (hk : j < k) : Tab.above j (t.insert k v) := by
  induction t with
  | nil => intro e he; simp [Tab.insert] at he; subst e; exact hk
  | cons x t ih =>
    obtain ⟨i, w⟩ := x
    have ht : Tab.above j t := fun e he => h e (List.mem_cons_of_mem _ he)
    unfold Tab.insert
    intro e he
    split at he
    · rcases List.mem_cons.mp he with rfl | he
      · exact hk
      · exact h e he
    · split at he
      · rcases List.mem_cons.mp he with rfl | he
        · exact hk
        · exact ht e he
      · rcases List.mem_cons.mp he with rfl | he
        · exact h (i, w) (by simp)
        · exact ih ht e he

theorem Tab.rising_insert {k : Nat} {v : α} {t : Tab α} (h : t.rising = true) : (t.insert k v).rising = true := by
  induction t with
  | nil => rfl
  | cons x t ih =>
    obtain ⟨i, w⟩ := x
    obtain ⟨ha, hr⟩ := Tab.rising_cons.mp h
    unfold Tab.insert
    split
    · refine Tab.rising_cons.mpr ⟨?_, h⟩
      intro e he
      rcases List.mem_cons.mp he with rfl | he
      · assumption
      · exact Nat.lt_trans ‹_› (ha e he)
    · split
      · subst i; exact Tab.rising_cons.mpr ⟨ha, hr⟩
      · exact Tab.rising_cons.mpr ⟨Tab.above_insert ha (by omega), ih hr⟩

theorem Tab.mem_erase {k : Nat} {t : Tab α} {e : Nat × α} (h : e ∈ t.erase k) : e ∈ t := by
  induction t with
  | nil => exact h
  | cons x t ih =>
    obtain ⟨i, w⟩ := x
    unfold Tab.erase at h
    split at h
    · exact List.mem_cons_of_mem _ (ih h)
    · rcases List.mem_cons.mp h with rfl | h
      · simp
      · exact List.mem_cons_of_mem _ (ih h)

theorem Tab.rising_erase {k : Nat} {t : Tab α} (h : t.rising = true) : (t.erase k).rising = true := by
  induction t with
  | nil => rfl
  | cons x t ih =>
    obtain ⟨i, w⟩ := x
    obtain ⟨ha, hr⟩ := Tab.rising_cons.mp h
    unfold Tab.erase
    split
    · exact ih hr
    · exact Tab.rising_cons.mpr ⟨fun e he => ha e (Tab.mem_erase he), ih hr⟩

theorem Tab.mem_insert {k : Nat} {v : α} {t : Tab α} {e : Nat × α} (h : e ∈ t.insert k v) : e = (k, v) ∨ e ∈ t := by
  induction t with
  | nil => simpa [Tab.insert] using h
  | cons x t ih =>
    obtain ⟨i, w⟩ := x
    unfold Tab.insert at h
    split at h
    · exact List.mem_cons.mp h
    · split at h
      · rcases List.mem_cons.mp h with h | h
        · exact .inl h
        · exact .inr (List.mem_cons_of_mem _ h)
      · rcases List.mem_cons.mp h with h | h
        · exact .inr (by simp [h])
        · rcases ih h with h | h
          · exact .inl h
          · exact .inr (List.mem_cons_of_mem _ h)

/-- A table is canonical when its keys rise and no value is the default. -/
theorem Tab.wf_iff [DecidableEq α] {d : α} {t : Tab α} : t.wf d = true ↔ t.rising = true ∧ ∀ e ∈ t, e.2 ≠ d := by
  simp [Tab.wf]

/-- Giving a key a value keeps the canonical form. -/
theorem Tab.wf_set [DecidableEq α] {d : α} {t : Tab α} (k : Nat) (v : α) (h : t.wf d = true) : (t.set d k v).wf d = true := by
  obtain ⟨hr, hd⟩ := Tab.wf_iff.mp h
  unfold Tab.set
  split
  · exact Tab.wf_iff.mpr ⟨Tab.rising_erase hr, fun e he => hd e (Tab.mem_erase he)⟩
  · refine Tab.wf_iff.mpr ⟨Tab.rising_insert hr, fun e he => ?_⟩
    rcases Tab.mem_insert he with rfl | he
    · assumption
    · exact hd e he

theorem Tab.wf_nil [DecidableEq α] (d : α) : Tab.wf d ([] : Tab α) = true := rfl

/-! ## Memory -/

/-- Stores keep the canonical form of memory. -/
theorem memStore_wf {m : List Host.Cell} (a : Nat) (b : Bytes) (h : Tab.wf (0 : Byte) m = true) :
    Tab.wf (0 : Byte) (memStore m a b) = true := by
  induction b generalizing m a with
  | nil => exact h
  | cons x b ih => exact ih (a + 1) (Tab.wf_set a x h)

theorem canonMem_foldl_wf (l : List Host.Cell) (m : List Host.Cell) (h : Tab.wf (0 : Byte) m = true) :
    Tab.wf (0 : Byte) (l.foldl (fun t e => Tab.set (0 : Byte) t e.1 e.2) m) = true := by
  induction l generalizing m with
  | nil => exact h
  | cons e l ih => exact ih _ (Tab.wf_set e.1 e.2 h)

/-- Memory after `canonMem` is canonical, whatever it was before. -/
theorem canonMem_wf (m : List Host.Cell) : Tab.wf (0 : Byte) (canonMem m) = true := by
  unfold canonMem
  split
  · assumption
  · exact canonMem_foldl_wf m [] rfl

/-- Canonical memory is left as it is. -/
theorem canonMem_of_wf {m : List Host.Cell} (h : Tab.wf (0 : Byte) m = true) : canonMem m = m := by
  unfold canonMem; exact if_pos h

/-- An address outside the stored bytes reads as before. -/
theorem get_memStore_ne (m : List Host.Cell) (a : Nat) (b : Bytes) {k : Nat} (h : k < a ∨ a + b.length ≤ k) :
    Tab.get (0 : Byte) (memStore m a b) k = Tab.get 0 m k := by
  induction b generalizing m a with
  | nil => rfl
  | cons x b ih =>
    simp only [List.length_cons] at h
    rw [memStore, ih _ _ (by omega), Tab.get_set_ne _ _ _ (by omega)]

/-- An address among the stored bytes reads the byte stored there. -/
theorem get_memStore (m : List Host.Cell) (a : Nat) (b : Bytes) {k : Nat} (h1 : a ≤ k) (h2 : k < a + b.length) :
    Tab.get (0 : Byte) (memStore m a b) k = (b.drop (k - a)).headD 0 := by
  induction b generalizing m a with
  | nil => simp at h2; omega
  | cons x b ih =>
    simp only [List.length_cons] at h2
    rw [memStore]
    by_cases hk : k = a
    · subst hk
      rw [get_memStore_ne _ _ _ (by omega)]; simp
    · rw [ih _ (a + 1) (by omega) (by omega)]
      obtain ⟨n, hn⟩ : ∃ n, k - a = n + 1 := ⟨k - a - 1, by omega⟩
      rw [hn, List.drop_succ_cons]
      congr 2; omega

end Sys2Proof.Machine
end

