-- ==== Sys2Proof/Laws/State.lean ====
section
/-! SUPPORT. One lemma per field for each update of the state, and what registers read after a write. -/
namespace Sys2Proof.Machine

/-! ## The next state that a command takes -/

@[simp] theorem taken_pending (s t : State) (w : List Fld) : (s.taken t w).pending = s.pending := (rfl)
@[simp] theorem taken_mem (s t : State) (w : List Fld) : (s.taken t w).mem = if .mem ∈ w then canonMem t.mem else s.mem := (rfl)
@[simp] theorem taken_free (s t : State) (w : List Fld) : (s.taken t w).free = if .free ∈ w then t.free else s.free := (rfl)
@[simp] theorem taken_flash (s t : State) (w : List Fld) : (s.taken t w).flash = if .flash ∈ w then t.flash else s.flash := (rfl)
@[simp] theorem taken_regs (s t : State) (w : List Fld) : (s.taken t w).regs = if .regs ∈ w then t.regs else s.regs := (rfl)
@[simp] theorem taken_held (s t : State) (w : List Fld) : (s.taken t w).held = if .held ∈ w then t.held else s.held := (rfl)
@[simp] theorem taken_wosDone (s t : State) (w : List Fld) : (s.taken t w).wosDone = if .wosDone ∈ w then t.wosDone else s.wosDone := (rfl)
@[simp] theorem taken_shadow (s t : State) (w : List Fld) : (s.taken t w).shadow = if .shadow ∈ w then t.shadow else s.shadow := (rfl)
@[simp] theorem taken_snapAt (s t : State) (w : List Fld) : (s.taken t w).snapAt = if .snapAt ∈ w then t.snapAt else s.snapAt := (rfl)
@[simp] theorem taken_clk (s t : State) (w : List Fld) : (s.taken t w).clk = if .clk ∈ w then t.clk else s.clk := (rfl)
@[simp] theorem taken_pairs (s t : State) (w : List Fld) : (s.taken t w).pairs = if .pairs ∈ w then t.pairs else s.pairs := (rfl)
@[simp] theorem taken_flogRing (s t : State) (w : List Fld) : (s.taken t w).flogRing = if .flogRing ∈ w then t.flogRing else s.flogRing := (rfl)
@[simp] theorem taken_flogFlash (s t : State) (w : List Fld) : (s.taken t w).flogFlash = if .flogFlash ∈ w then t.flogFlash else s.flogFlash := (rfl)
@[simp] theorem taken_flogLast (s t : State) (w : List Fld) : (s.taken t w).flogLast = if .flogLast ∈ w then t.flogLast else s.flogLast := (rfl)
@[simp] theorem taken_holding (s t : State) (w : List Fld) : (s.taken t w).holding = if .holding ∈ w then t.holding else s.holding := (rfl)
@[simp] theorem taken_hevt (s t : State) (w : List Fld) : (s.taken t w).hevt = if .hevt ∈ w then t.hevt else s.hevt := (rfl)
@[simp] theorem taken_fns (s t : State) (w : List Fld) : (s.taken t w).fns = if .fns ∈ w then t.fns else s.fns := (rfl)
@[simp] theorem taken_numVfs (s t : State) (w : List Fld) : (s.taken t w).numVfs = if .numVfs ∈ w then t.numVfs else s.numVfs := (rfl)
@[simp] theorem taken_vfEnable (s t : State) (w : List Fld) : (s.taken t w).vfEnable = if .vfEnable ∈ w then t.vfEnable else s.vfEnable := (rfl)
@[simp] theorem taken_msix (s t : State) (w : List Fld) : (s.taken t w).msix = if .msix ∈ w then t.msix else s.msix := (rfl)
@[simp] theorem taken_qs (s t : State) (w : List Fld) : (s.taken t w).qs = if .qs ∈ w then t.qs else s.qs := (rfl)
@[simp] theorem taken_rqs (s t : State) (w : List Fld) : (s.taken t w).rqs = if .rqs ∈ w then t.rqs else s.rqs := (rfl)
@[simp] theorem taken_profs (s t : State) (w : List Fld) : (s.taken t w).profs = if .profs ∈ w then t.profs else s.profs := (rfl)
@[simp] theorem taken_items (s t : State) (w : List Fld) : (s.taken t w).items = if .items ∈ w then t.items else s.items := (rfl)
@[simp] theorem taken_nextSeq (s t : State) (w : List Fld) : (s.taken t w).nextSeq = if .nextSeq ∈ w then t.nextSeq else s.nextSeq := (rfl)
@[simp] theorem taken_dests (s t : State) (w : List Fld) : (s.taken t w).dests = if .dests ∈ w then t.dests else s.dests := (rfl)
@[simp] theorem taken_egress (s t : State) (w : List Fld) : (s.taken t w).egress = if .egress ∈ w then t.egress else s.egress := (rfl)
@[simp] theorem taken_rsn (s t : State) (w : List Fld) : (s.taken t w).rsn = if .rsn ∈ w then t.rsn else s.rsn := (rfl)
@[simp] theorem taken_svc (s t : State) (w : List Fld) : (s.taken t w).svc = if .svc ∈ w then t.svc else s.svc := (rfl)
@[simp] theorem taken_parts (s t : State) (w : List Fld) : (s.taken t w).parts = if .parts ∈ w then t.parts else s.parts := (rfl)
@[simp] theorem taken_vis (s t : State) (w : List Fld) : (s.taken t w).vis = if .vis ∈ w then t.vis else s.vis := (rfl)
@[simp] theorem taken_ue (s t : State) (w : List Fld) : (s.taken t w).ue = if .ue ∈ w then t.ue else s.ue := (rfl)
@[simp] theorem taken_out (s t : State) (w : List Fld) : (s.taken t w).out = if .out ∈ w then t.out else s.out := (rfl)
@[simp] theorem taken_ports (s t : State) (w : List Fld) : (s.taken t w).ports = if .ports ∈ w then t.ports else s.ports := (rfl)
@[simp] theorem taken_ppActive (s t : State) (w : List Fld) : (s.taken t w).ppActive = if .ppActive ∈ w then t.ppActive else s.ppActive := (rfl)
@[simp] theorem taken_tiles (s t : State) (w : List Fld) : (s.taken t w).tiles = if .tiles ∈ w then t.tiles else s.tiles := (rfl)
@[simp] theorem taken_ctxs (s t : State) (w : List Fld) : (s.taken t w).ctxs = if .ctxs ∈ w then t.ctxs else s.ctxs := (rfl)
@[simp] theorem taken_batches (s t : State) (w : List Fld) : (s.taken t w).batches = if .batches ∈ w then t.batches else s.batches := (rfl)
@[simp] theorem taken_batchNo (s t : State) (w : List Fld) : (s.taken t w).batchNo = if .batchNo ∈ w then t.batchNo else s.batchNo := (rfl)
@[simp] theorem taken_batchUid (s t : State) (w : List Fld) : (s.taken t w).batchUid = if .batchUid ∈ w then t.batchUid else s.batchUid := (rfl)
@[simp] theorem taken_batchHeld (s t : State) (w : List Fld) : (s.taken t w).batchHeld = if .batchHeld ∈ w then t.batchHeld else s.batchHeld := (rfl)
@[simp] theorem taken_arena (s t : State) (w : List Fld) : (s.taken t w).arena = if .arena ∈ w then t.arena else s.arena := (rfl)
@[simp] theorem taken_handing (s t : State) (w : List Fld) : (s.taken t w).handing = if .handing ∈ w then t.handing else s.handing := (rfl)
@[simp] theorem taken_rtcp (s t : State) (w : List Fld) : (s.taken t w).rtcp = if .rtcp ∈ w then t.rtcp else s.rtcp := (rfl)
@[simp] theorem taken_ctxSnap (s t : State) (w : List Fld) : (s.taken t w).ctxSnap = if .ctxSnap ∈ w then t.ctxSnap else s.ctxSnap := (rfl)
@[simp] theorem taken_vocs (s t : State) (w : List Fld) : (s.taken t w).vocs = if .vocs ∈ w then t.vocs else s.vocs := (rfl)
@[simp] theorem taken_norms (s t : State) (w : List Fld) : (s.taken t w).norms = if .norms ∈ w then t.norms else s.norms := (rfl)
@[simp] theorem taken_grms (s t : State) (w : List Fld) : (s.taken t w).grms = if .grms ∈ w then t.grms else s.grms := (rfl)
@[simp] theorem taken_lexs (s t : State) (w : List Fld) : (s.taken t w).lexs = if .lexs ∈ w then t.lexs else s.lexs := (rfl)
@[simp] theorem taken_gctxs (s t : State) (w : List Fld) : (s.taken t w).gctxs = if .gctxs ∈ w then t.gctxs else s.gctxs := (rfl)
@[simp] theorem taken_gctxGen (s t : State) (w : List Fld) : (s.taken t w).gctxGen = if .gctxGen ∈ w then t.gctxGen else s.gctxGen := (rfl)
@[simp] theorem taken_seqs (s t : State) (w : List Fld) : (s.taken t w).seqs = if .seqs ∈ w then t.seqs else s.seqs := (rfl)
@[simp] theorem taken_seqGen (s t : State) (w : List Fld) : (s.taken t w).seqGen = if .seqGen ∈ w then t.seqGen else s.seqGen := (rfl)
@[simp] theorem taken_aunits (s t : State) (w : List Fld) : (s.taken t w).aunits = if .aunits ∈ w then t.aunits else s.aunits := (rfl)
@[simp] theorem taken_chans (s t : State) (w : List Fld) : (s.taken t w).chans = if .chans ∈ w then t.chans else s.chans := (rfl)
@[simp] theorem taken_sc (s t : State) (w : List Fld) : (s.taken t w).sc = if .sc ∈ w then t.sc else s.sc := (rfl)
@[simp] theorem taken_harts (s t : State) (w : List Fld) : (s.taken t w).harts = if .harts ∈ w then t.harts else s.harts := (rfl)
@[simp] theorem taken_cores (s t : State) (w : List Fld) : (s.taken t w).cores = if .cores ∈ w then t.cores else s.cores := (rfl)
@[simp] theorem taken_fwProg (s t : State) (w : List Fld) : (s.taken t w).fwProg = if .fwProg ∈ w then t.fwProg else s.fwProg := (rfl)
@[simp] theorem taken_warden (s t : State) (w : List Fld) : (s.taken t w).warden = if .warden ∈ w then t.warden else s.warden := (rfl)
@[simp] theorem taken_vsaved (s t : State) (w : List Fld) : (s.taken t w).vsaved = if .vsaved ∈ w then t.vsaved else s.vsaved := (rfl)
@[simp] theorem taken_pcmd (s t : State) (w : List Fld) : (s.taken t w).pcmd = if .pcmd ∈ w then t.pcmd else s.pcmd := (rfl)
@[simp] theorem taken_klinks (s t : State) (w : List Fld) : (s.taken t w).klinks = if .klinks ∈ w then t.klinks else s.klinks := (rfl)
@[simp] theorem taken_kal (s t : State) (w : List Fld) : (s.taken t w).kal = if .kal ∈ w then t.kal else s.kal := (rfl)
@[simp] theorem taken_health (s t : State) (w : List Fld) : (s.taken t w).health = if .health ∈ w then t.health else s.health := (rfl)
@[simp] theorem taken_emg (s t : State) (w : List Fld) : (s.taken t w).emg = if .emg ∈ w then t.emg else s.emg := (rfl)
@[simp] theorem taken_pins (s t : State) (w : List Fld) : (s.taken t w).pins = if .pins ∈ w then t.pins else s.pins := (rfl)
@[simp] theorem taken_alert (s t : State) (w : List Fld) : (s.taken t w).alert = if .alert ∈ w then t.alert else s.alert := (rfl)
@[simp] theorem taken_copyAt (s t : State) (w : List Fld) : (s.taken t w).copyAt = if .copyAt ∈ w then t.copyAt else s.copyAt := (rfl)

/-! ## A register write -/

@[simp] theorem wr_pending (s : State) (a : Nat) (v : Word) : (s.wr a v).pending = s.pending := (rfl)
@[simp] theorem wr_free (s : State) (a : Nat) (v : Word) : (s.wr a v).free = s.free := (rfl)
@[simp] theorem wr_mem (s : State) (a : Nat) (v : Word) : (s.wr a v).mem = s.mem := (rfl)
@[simp] theorem wr_flash (s : State) (a : Nat) (v : Word) : (s.wr a v).flash = s.flash := (rfl)
@[simp] theorem wr_held (s : State) (a : Nat) (v : Word) : (s.wr a v).held = s.held := (rfl)
@[simp] theorem wr_wosDone (s : State) (a : Nat) (v : Word) : (s.wr a v).wosDone = s.wosDone := (rfl)
@[simp] theorem wr_shadow (s : State) (a : Nat) (v : Word) : (s.wr a v).shadow = s.shadow := (rfl)
@[simp] theorem wr_snapAt (s : State) (a : Nat) (v : Word) : (s.wr a v).snapAt = s.snapAt := (rfl)
@[simp] theorem wr_clk (s : State) (a : Nat) (v : Word) : (s.wr a v).clk = s.clk := (rfl)
@[simp] theorem wr_pairs (s : State) (a : Nat) (v : Word) : (s.wr a v).pairs = s.pairs := (rfl)
@[simp] theorem wr_flogRing (s : State) (a : Nat) (v : Word) : (s.wr a v).flogRing = s.flogRing := (rfl)
@[simp] theorem wr_flogFlash (s : State) (a : Nat) (v : Word) : (s.wr a v).flogFlash = s.flogFlash := (rfl)
@[simp] theorem wr_flogLast (s : State) (a : Nat) (v : Word) : (s.wr a v).flogLast = s.flogLast := (rfl)
@[simp] theorem wr_holding (s : State) (a : Nat) (v : Word) : (s.wr a v).holding = s.holding := (rfl)
@[simp] theorem wr_hevt (s : State) (a : Nat) (v : Word) : (s.wr a v).hevt = s.hevt := (rfl)
@[simp] theorem wr_fns (s : State) (a : Nat) (v : Word) : (s.wr a v).fns = s.fns := (rfl)
@[simp] theorem wr_numVfs (s : State) (a : Nat) (v : Word) : (s.wr a v).numVfs = s.numVfs := (rfl)
@[simp] theorem wr_vfEnable (s : State) (a : Nat) (v : Word) : (s.wr a v).vfEnable = s.vfEnable := (rfl)
@[simp] theorem wr_msix (s : State) (a : Nat) (v : Word) : (s.wr a v).msix = s.msix := (rfl)
@[simp] theorem wr_qs (s : State) (a : Nat) (v : Word) : (s.wr a v).qs = s.qs := (rfl)
@[simp] theorem wr_rqs (s : State) (a : Nat) (v : Word) : (s.wr a v).rqs = s.rqs := (rfl)
@[simp] theorem wr_profs (s : State) (a : Nat) (v : Word) : (s.wr a v).profs = s.profs := (rfl)
@[simp] theorem wr_items (s : State) (a : Nat) (v : Word) : (s.wr a v).items = s.items := (rfl)
@[simp] theorem wr_nextSeq (s : State) (a : Nat) (v : Word) : (s.wr a v).nextSeq = s.nextSeq := (rfl)
@[simp] theorem wr_dests (s : State) (a : Nat) (v : Word) : (s.wr a v).dests = s.dests := (rfl)
@[simp] theorem wr_egress (s : State) (a : Nat) (v : Word) : (s.wr a v).egress = s.egress := (rfl)
@[simp] theorem wr_rsn (s : State) (a : Nat) (v : Word) : (s.wr a v).rsn = s.rsn := (rfl)
@[simp] theorem wr_svc (s : State) (a : Nat) (v : Word) : (s.wr a v).svc = s.svc := (rfl)
@[simp] theorem wr_parts (s : State) (a : Nat) (v : Word) : (s.wr a v).parts = s.parts := (rfl)
@[simp] theorem wr_vis (s : State) (a : Nat) (v : Word) : (s.wr a v).vis = s.vis := (rfl)
@[simp] theorem wr_ue (s : State) (a : Nat) (v : Word) : (s.wr a v).ue = s.ue := (rfl)
@[simp] theorem wr_out (s : State) (a : Nat) (v : Word) : (s.wr a v).out = s.out := (rfl)
@[simp] theorem wr_ports (s : State) (a : Nat) (v : Word) : (s.wr a v).ports = s.ports := (rfl)
@[simp] theorem wr_ppActive (s : State) (a : Nat) (v : Word) : (s.wr a v).ppActive = s.ppActive := (rfl)
@[simp] theorem wr_tiles (s : State) (a : Nat) (v : Word) : (s.wr a v).tiles = s.tiles := (rfl)
@[simp] theorem wr_ctxs (s : State) (a : Nat) (v : Word) : (s.wr a v).ctxs = s.ctxs := (rfl)
@[simp] theorem wr_batches (s : State) (a : Nat) (v : Word) : (s.wr a v).batches = s.batches := (rfl)
@[simp] theorem wr_batchNo (s : State) (a : Nat) (v : Word) : (s.wr a v).batchNo = s.batchNo := (rfl)
@[simp] theorem wr_batchUid (s : State) (a : Nat) (v : Word) : (s.wr a v).batchUid = s.batchUid := (rfl)
@[simp] theorem wr_batchHeld (s : State) (a : Nat) (v : Word) : (s.wr a v).batchHeld = s.batchHeld := (rfl)
@[simp] theorem wr_arena (s : State) (a : Nat) (v : Word) : (s.wr a v).arena = s.arena := (rfl)
@[simp] theorem wr_handing (s : State) (a : Nat) (v : Word) : (s.wr a v).handing = s.handing := (rfl)
@[simp] theorem wr_rtcp (s : State) (a : Nat) (v : Word) : (s.wr a v).rtcp = s.rtcp := (rfl)
@[simp] theorem wr_ctxSnap (s : State) (a : Nat) (v : Word) : (s.wr a v).ctxSnap = s.ctxSnap := (rfl)
@[simp] theorem wr_vocs (s : State) (a : Nat) (v : Word) : (s.wr a v).vocs = s.vocs := (rfl)
@[simp] theorem wr_norms (s : State) (a : Nat) (v : Word) : (s.wr a v).norms = s.norms := (rfl)
@[simp] theorem wr_grms (s : State) (a : Nat) (v : Word) : (s.wr a v).grms = s.grms := (rfl)
@[simp] theorem wr_lexs (s : State) (a : Nat) (v : Word) : (s.wr a v).lexs = s.lexs := (rfl)
@[simp] theorem wr_gctxs (s : State) (a : Nat) (v : Word) : (s.wr a v).gctxs = s.gctxs := (rfl)
@[simp] theorem wr_gctxGen (s : State) (a : Nat) (v : Word) : (s.wr a v).gctxGen = s.gctxGen := (rfl)
@[simp] theorem wr_seqs (s : State) (a : Nat) (v : Word) : (s.wr a v).seqs = s.seqs := (rfl)
@[simp] theorem wr_seqGen (s : State) (a : Nat) (v : Word) : (s.wr a v).seqGen = s.seqGen := (rfl)
@[simp] theorem wr_aunits (s : State) (a : Nat) (v : Word) : (s.wr a v).aunits = s.aunits := (rfl)
@[simp] theorem wr_chans (s : State) (a : Nat) (v : Word) : (s.wr a v).chans = s.chans := (rfl)
@[simp] theorem wr_sc (s : State) (a : Nat) (v : Word) : (s.wr a v).sc = s.sc := (rfl)
@[simp] theorem wr_harts (s : State) (a : Nat) (v : Word) : (s.wr a v).harts = s.harts := (rfl)
@[simp] theorem wr_cores (s : State) (a : Nat) (v : Word) : (s.wr a v).cores = s.cores := (rfl)
@[simp] theorem wr_fwProg (s : State) (a : Nat) (v : Word) : (s.wr a v).fwProg = s.fwProg := (rfl)
@[simp] theorem wr_warden (s : State) (a : Nat) (v : Word) : (s.wr a v).warden = s.warden := (rfl)
@[simp] theorem wr_vsaved (s : State) (a : Nat) (v : Word) : (s.wr a v).vsaved = s.vsaved := (rfl)
@[simp] theorem wr_pcmd (s : State) (a : Nat) (v : Word) : (s.wr a v).pcmd = s.pcmd := (rfl)
@[simp] theorem wr_klinks (s : State) (a : Nat) (v : Word) : (s.wr a v).klinks = s.klinks := (rfl)
@[simp] theorem wr_kal (s : State) (a : Nat) (v : Word) : (s.wr a v).kal = s.kal := (rfl)
@[simp] theorem wr_health (s : State) (a : Nat) (v : Word) : (s.wr a v).health = s.health := (rfl)
@[simp] theorem wr_emg (s : State) (a : Nat) (v : Word) : (s.wr a v).emg = s.emg := (rfl)
@[simp] theorem wr_pins (s : State) (a : Nat) (v : Word) : (s.wr a v).pins = s.pins := (rfl)
@[simp] theorem wr_alert (s : State) (a : Nat) (v : Word) : (s.wr a v).alert = s.alert := (rfl)
@[simp] theorem wr_copyAt (s : State) (a : Nat) (v : Word) : (s.wr a v).copyAt = s.copyAt := (rfl)

/-! ## A register field -/

@[simp] theorem setFld_pending (s : State) (a hi lo n : Nat) : (s.setFld a hi lo n).pending = s.pending := wr_pending _ _ _
@[simp] theorem setFld_free (s : State) (a hi lo n : Nat) : (s.setFld a hi lo n).free = s.free := wr_free _ _ _
@[simp] theorem setFld_mem (s : State) (a hi lo n : Nat) : (s.setFld a hi lo n).mem = s.mem := wr_mem _ _ _
@[simp] theorem setFld_flash (s : State) (a hi lo n : Nat) : (s.setFld a hi lo n).flash = s.flash := wr_flash _ _ _
@[simp] theorem setFld_held (s : State) (a hi lo n : Nat) : (s.setFld a hi lo n).held = s.held := wr_held _ _ _
@[simp] theorem setFld_wosDone (s : State) (a hi lo n : Nat) : (s.setFld a hi lo n).wosDone = s.wosDone := wr_wosDone _ _ _
@[simp] theorem setFld_shadow (s : State) (a hi lo n : Nat) : (s.setFld a hi lo n).shadow = s.shadow := wr_shadow _ _ _
@[simp] theorem setFld_snapAt (s : State) (a hi lo n : Nat) : (s.setFld a hi lo n).snapAt = s.snapAt := wr_snapAt _ _ _
@[simp] theorem setFld_clk (s : State) (a hi lo n : Nat) : (s.setFld a hi lo n).clk = s.clk := wr_clk _ _ _
@[simp] theorem setFld_pairs (s : State) (a hi lo n : Nat) : (s.setFld a hi lo n).pairs = s.pairs := wr_pairs _ _ _
@[simp] theorem setFld_flogRing (s : State) (a hi lo n : Nat) : (s.setFld a hi lo n).flogRing = s.flogRing := wr_flogRing _ _ _
@[simp] theorem setFld_flogFlash (s : State) (a hi lo n : Nat) : (s.setFld a hi lo n).flogFlash = s.flogFlash := wr_flogFlash _ _ _
@[simp] theorem setFld_flogLast (s : State) (a hi lo n : Nat) : (s.setFld a hi lo n).flogLast = s.flogLast := wr_flogLast _ _ _
@[simp] theorem setFld_holding (s : State) (a hi lo n : Nat) : (s.setFld a hi lo n).holding = s.holding := wr_holding _ _ _
@[simp] theorem setFld_hevt (s : State) (a hi lo n : Nat) : (s.setFld a hi lo n).hevt = s.hevt := wr_hevt _ _ _
@[simp] theorem setFld_fns (s : State) (a hi lo n : Nat) : (s.setFld a hi lo n).fns = s.fns := wr_fns _ _ _
@[simp] theorem setFld_numVfs (s : State) (a hi lo n : Nat) : (s.setFld a hi lo n).numVfs = s.numVfs := wr_numVfs _ _ _
@[simp] theorem setFld_vfEnable (s : State) (a hi lo n : Nat) : (s.setFld a hi lo n).vfEnable = s.vfEnable := wr_vfEnable _ _ _
@[simp] theorem setFld_msix (s : State) (a hi lo n : Nat) : (s.setFld a hi lo n).msix = s.msix := wr_msix _ _ _
@[simp] theorem setFld_qs (s : State) (a hi lo n : Nat) : (s.setFld a hi lo n).qs = s.qs := wr_qs _ _ _
@[simp] theorem setFld_rqs (s : State) (a hi lo n : Nat) : (s.setFld a hi lo n).rqs = s.rqs := wr_rqs _ _ _
@[simp] theorem setFld_profs (s : State) (a hi lo n : Nat) : (s.setFld a hi lo n).profs = s.profs := wr_profs _ _ _
@[simp] theorem setFld_items (s : State) (a hi lo n : Nat) : (s.setFld a hi lo n).items = s.items := wr_items _ _ _
@[simp] theorem setFld_nextSeq (s : State) (a hi lo n : Nat) : (s.setFld a hi lo n).nextSeq = s.nextSeq := wr_nextSeq _ _ _
@[simp] theorem setFld_dests (s : State) (a hi lo n : Nat) : (s.setFld a hi lo n).dests = s.dests := wr_dests _ _ _
@[simp] theorem setFld_egress (s : State) (a hi lo n : Nat) : (s.setFld a hi lo n).egress = s.egress := wr_egress _ _ _
@[simp] theorem setFld_rsn (s : State) (a hi lo n : Nat) : (s.setFld a hi lo n).rsn = s.rsn := wr_rsn _ _ _
@[simp] theorem setFld_svc (s : State) (a hi lo n : Nat) : (s.setFld a hi lo n).svc = s.svc := wr_svc _ _ _
@[simp] theorem setFld_parts (s : State) (a hi lo n : Nat) : (s.setFld a hi lo n).parts = s.parts := wr_parts _ _ _
@[simp] theorem setFld_vis (s : State) (a hi lo n : Nat) : (s.setFld a hi lo n).vis = s.vis := wr_vis _ _ _
@[simp] theorem setFld_ue (s : State) (a hi lo n : Nat) : (s.setFld a hi lo n).ue = s.ue := wr_ue _ _ _
@[simp] theorem setFld_out (s : State) (a hi lo n : Nat) : (s.setFld a hi lo n).out = s.out := wr_out _ _ _
@[simp] theorem setFld_ports (s : State) (a hi lo n : Nat) : (s.setFld a hi lo n).ports = s.ports := wr_ports _ _ _
@[simp] theorem setFld_ppActive (s : State) (a hi lo n : Nat) : (s.setFld a hi lo n).ppActive = s.ppActive := wr_ppActive _ _ _
@[simp] theorem setFld_tiles (s : State) (a hi lo n : Nat) : (s.setFld a hi lo n).tiles = s.tiles := wr_tiles _ _ _
@[simp] theorem setFld_ctxs (s : State) (a hi lo n : Nat) : (s.setFld a hi lo n).ctxs = s.ctxs := wr_ctxs _ _ _
@[simp] theorem setFld_batches (s : State) (a hi lo n : Nat) : (s.setFld a hi lo n).batches = s.batches := wr_batches _ _ _
@[simp] theorem setFld_batchNo (s : State) (a hi lo n : Nat) : (s.setFld a hi lo n).batchNo = s.batchNo := wr_batchNo _ _ _
@[simp] theorem setFld_batchUid (s : State) (a hi lo n : Nat) : (s.setFld a hi lo n).batchUid = s.batchUid := wr_batchUid _ _ _
@[simp] theorem setFld_batchHeld (s : State) (a hi lo n : Nat) : (s.setFld a hi lo n).batchHeld = s.batchHeld := wr_batchHeld _ _ _
@[simp] theorem setFld_arena (s : State) (a hi lo n : Nat) : (s.setFld a hi lo n).arena = s.arena := wr_arena _ _ _
@[simp] theorem setFld_handing (s : State) (a hi lo n : Nat) : (s.setFld a hi lo n).handing = s.handing := wr_handing _ _ _
@[simp] theorem setFld_rtcp (s : State) (a hi lo n : Nat) : (s.setFld a hi lo n).rtcp = s.rtcp := wr_rtcp _ _ _
@[simp] theorem setFld_ctxSnap (s : State) (a hi lo n : Nat) : (s.setFld a hi lo n).ctxSnap = s.ctxSnap := wr_ctxSnap _ _ _
@[simp] theorem setFld_vocs (s : State) (a hi lo n : Nat) : (s.setFld a hi lo n).vocs = s.vocs := wr_vocs _ _ _
@[simp] theorem setFld_norms (s : State) (a hi lo n : Nat) : (s.setFld a hi lo n).norms = s.norms := wr_norms _ _ _
@[simp] theorem setFld_grms (s : State) (a hi lo n : Nat) : (s.setFld a hi lo n).grms = s.grms := wr_grms _ _ _
@[simp] theorem setFld_lexs (s : State) (a hi lo n : Nat) : (s.setFld a hi lo n).lexs = s.lexs := wr_lexs _ _ _
@[simp] theorem setFld_gctxs (s : State) (a hi lo n : Nat) : (s.setFld a hi lo n).gctxs = s.gctxs := wr_gctxs _ _ _
@[simp] theorem setFld_gctxGen (s : State) (a hi lo n : Nat) : (s.setFld a hi lo n).gctxGen = s.gctxGen := wr_gctxGen _ _ _
@[simp] theorem setFld_seqs (s : State) (a hi lo n : Nat) : (s.setFld a hi lo n).seqs = s.seqs := wr_seqs _ _ _
@[simp] theorem setFld_seqGen (s : State) (a hi lo n : Nat) : (s.setFld a hi lo n).seqGen = s.seqGen := wr_seqGen _ _ _
@[simp] theorem setFld_aunits (s : State) (a hi lo n : Nat) : (s.setFld a hi lo n).aunits = s.aunits := wr_aunits _ _ _
@[simp] theorem setFld_chans (s : State) (a hi lo n : Nat) : (s.setFld a hi lo n).chans = s.chans := wr_chans _ _ _
@[simp] theorem setFld_sc (s : State) (a hi lo n : Nat) : (s.setFld a hi lo n).sc = s.sc := wr_sc _ _ _
@[simp] theorem setFld_harts (s : State) (a hi lo n : Nat) : (s.setFld a hi lo n).harts = s.harts := wr_harts _ _ _
@[simp] theorem setFld_cores (s : State) (a hi lo n : Nat) : (s.setFld a hi lo n).cores = s.cores := wr_cores _ _ _
@[simp] theorem setFld_fwProg (s : State) (a hi lo n : Nat) : (s.setFld a hi lo n).fwProg = s.fwProg := wr_fwProg _ _ _
@[simp] theorem setFld_warden (s : State) (a hi lo n : Nat) : (s.setFld a hi lo n).warden = s.warden := wr_warden _ _ _
@[simp] theorem setFld_vsaved (s : State) (a hi lo n : Nat) : (s.setFld a hi lo n).vsaved = s.vsaved := wr_vsaved _ _ _
@[simp] theorem setFld_pcmd (s : State) (a hi lo n : Nat) : (s.setFld a hi lo n).pcmd = s.pcmd := wr_pcmd _ _ _
@[simp] theorem setFld_klinks (s : State) (a hi lo n : Nat) : (s.setFld a hi lo n).klinks = s.klinks := wr_klinks _ _ _
@[simp] theorem setFld_kal (s : State) (a hi lo n : Nat) : (s.setFld a hi lo n).kal = s.kal := wr_kal _ _ _
@[simp] theorem setFld_health (s : State) (a hi lo n : Nat) : (s.setFld a hi lo n).health = s.health := wr_health _ _ _
@[simp] theorem setFld_emg (s : State) (a hi lo n : Nat) : (s.setFld a hi lo n).emg = s.emg := wr_emg _ _ _
@[simp] theorem setFld_pins (s : State) (a hi lo n : Nat) : (s.setFld a hi lo n).pins = s.pins := wr_pins _ _ _
@[simp] theorem setFld_alert (s : State) (a hi lo n : Nat) : (s.setFld a hi lo n).alert = s.alert := wr_alert _ _ _
@[simp] theorem setFld_copyAt (s : State) (a hi lo n : Nat) : (s.setFld a hi lo n).copyAt = s.copyAt := wr_copyAt _ _ _

/-! ## A register bit -/

@[simp] theorem setFlag_pending (s : State) (a i : Nat) (b : Bool) : (s.setFlag a i b).pending = s.pending := wr_pending _ _ _
@[simp] theorem setFlag_free (s : State) (a i : Nat) (b : Bool) : (s.setFlag a i b).free = s.free := wr_free _ _ _
@[simp] theorem setFlag_mem (s : State) (a i : Nat) (b : Bool) : (s.setFlag a i b).mem = s.mem := wr_mem _ _ _
@[simp] theorem setFlag_flash (s : State) (a i : Nat) (b : Bool) : (s.setFlag a i b).flash = s.flash := wr_flash _ _ _
@[simp] theorem setFlag_held (s : State) (a i : Nat) (b : Bool) : (s.setFlag a i b).held = s.held := wr_held _ _ _
@[simp] theorem setFlag_wosDone (s : State) (a i : Nat) (b : Bool) : (s.setFlag a i b).wosDone = s.wosDone := wr_wosDone _ _ _
@[simp] theorem setFlag_shadow (s : State) (a i : Nat) (b : Bool) : (s.setFlag a i b).shadow = s.shadow := wr_shadow _ _ _
@[simp] theorem setFlag_snapAt (s : State) (a i : Nat) (b : Bool) : (s.setFlag a i b).snapAt = s.snapAt := wr_snapAt _ _ _
@[simp] theorem setFlag_clk (s : State) (a i : Nat) (b : Bool) : (s.setFlag a i b).clk = s.clk := wr_clk _ _ _
@[simp] theorem setFlag_pairs (s : State) (a i : Nat) (b : Bool) : (s.setFlag a i b).pairs = s.pairs := wr_pairs _ _ _
@[simp] theorem setFlag_flogRing (s : State) (a i : Nat) (b : Bool) : (s.setFlag a i b).flogRing = s.flogRing := wr_flogRing _ _ _
@[simp] theorem setFlag_flogFlash (s : State) (a i : Nat) (b : Bool) : (s.setFlag a i b).flogFlash = s.flogFlash := wr_flogFlash _ _ _
@[simp] theorem setFlag_flogLast (s : State) (a i : Nat) (b : Bool) : (s.setFlag a i b).flogLast = s.flogLast := wr_flogLast _ _ _
@[simp] theorem setFlag_holding (s : State) (a i : Nat) (b : Bool) : (s.setFlag a i b).holding = s.holding := wr_holding _ _ _
@[simp] theorem setFlag_hevt (s : State) (a i : Nat) (b : Bool) : (s.setFlag a i b).hevt = s.hevt := wr_hevt _ _ _
@[simp] theorem setFlag_fns (s : State) (a i : Nat) (b : Bool) : (s.setFlag a i b).fns = s.fns := wr_fns _ _ _
@[simp] theorem setFlag_numVfs (s : State) (a i : Nat) (b : Bool) : (s.setFlag a i b).numVfs = s.numVfs := wr_numVfs _ _ _
@[simp] theorem setFlag_vfEnable (s : State) (a i : Nat) (b : Bool) : (s.setFlag a i b).vfEnable = s.vfEnable := wr_vfEnable _ _ _
@[simp] theorem setFlag_msix (s : State) (a i : Nat) (b : Bool) : (s.setFlag a i b).msix = s.msix := wr_msix _ _ _
@[simp] theorem setFlag_qs (s : State) (a i : Nat) (b : Bool) : (s.setFlag a i b).qs = s.qs := wr_qs _ _ _
@[simp] theorem setFlag_rqs (s : State) (a i : Nat) (b : Bool) : (s.setFlag a i b).rqs = s.rqs := wr_rqs _ _ _
@[simp] theorem setFlag_profs (s : State) (a i : Nat) (b : Bool) : (s.setFlag a i b).profs = s.profs := wr_profs _ _ _
@[simp] theorem setFlag_items (s : State) (a i : Nat) (b : Bool) : (s.setFlag a i b).items = s.items := wr_items _ _ _
@[simp] theorem setFlag_nextSeq (s : State) (a i : Nat) (b : Bool) : (s.setFlag a i b).nextSeq = s.nextSeq := wr_nextSeq _ _ _
@[simp] theorem setFlag_dests (s : State) (a i : Nat) (b : Bool) : (s.setFlag a i b).dests = s.dests := wr_dests _ _ _
@[simp] theorem setFlag_egress (s : State) (a i : Nat) (b : Bool) : (s.setFlag a i b).egress = s.egress := wr_egress _ _ _
@[simp] theorem setFlag_rsn (s : State) (a i : Nat) (b : Bool) : (s.setFlag a i b).rsn = s.rsn := wr_rsn _ _ _
@[simp] theorem setFlag_svc (s : State) (a i : Nat) (b : Bool) : (s.setFlag a i b).svc = s.svc := wr_svc _ _ _
@[simp] theorem setFlag_parts (s : State) (a i : Nat) (b : Bool) : (s.setFlag a i b).parts = s.parts := wr_parts _ _ _
@[simp] theorem setFlag_vis (s : State) (a i : Nat) (b : Bool) : (s.setFlag a i b).vis = s.vis := wr_vis _ _ _
@[simp] theorem setFlag_ue (s : State) (a i : Nat) (b : Bool) : (s.setFlag a i b).ue = s.ue := wr_ue _ _ _
@[simp] theorem setFlag_out (s : State) (a i : Nat) (b : Bool) : (s.setFlag a i b).out = s.out := wr_out _ _ _
@[simp] theorem setFlag_ports (s : State) (a i : Nat) (b : Bool) : (s.setFlag a i b).ports = s.ports := wr_ports _ _ _
@[simp] theorem setFlag_ppActive (s : State) (a i : Nat) (b : Bool) : (s.setFlag a i b).ppActive = s.ppActive := wr_ppActive _ _ _
@[simp] theorem setFlag_tiles (s : State) (a i : Nat) (b : Bool) : (s.setFlag a i b).tiles = s.tiles := wr_tiles _ _ _
@[simp] theorem setFlag_ctxs (s : State) (a i : Nat) (b : Bool) : (s.setFlag a i b).ctxs = s.ctxs := wr_ctxs _ _ _
@[simp] theorem setFlag_batches (s : State) (a i : Nat) (b : Bool) : (s.setFlag a i b).batches = s.batches := wr_batches _ _ _
@[simp] theorem setFlag_batchNo (s : State) (a i : Nat) (b : Bool) : (s.setFlag a i b).batchNo = s.batchNo := wr_batchNo _ _ _
@[simp] theorem setFlag_batchUid (s : State) (a i : Nat) (b : Bool) : (s.setFlag a i b).batchUid = s.batchUid := wr_batchUid _ _ _
@[simp] theorem setFlag_batchHeld (s : State) (a i : Nat) (b : Bool) : (s.setFlag a i b).batchHeld = s.batchHeld := wr_batchHeld _ _ _
@[simp] theorem setFlag_arena (s : State) (a i : Nat) (b : Bool) : (s.setFlag a i b).arena = s.arena := wr_arena _ _ _
@[simp] theorem setFlag_handing (s : State) (a i : Nat) (b : Bool) : (s.setFlag a i b).handing = s.handing := wr_handing _ _ _
@[simp] theorem setFlag_rtcp (s : State) (a i : Nat) (b : Bool) : (s.setFlag a i b).rtcp = s.rtcp := wr_rtcp _ _ _
@[simp] theorem setFlag_ctxSnap (s : State) (a i : Nat) (b : Bool) : (s.setFlag a i b).ctxSnap = s.ctxSnap := wr_ctxSnap _ _ _
@[simp] theorem setFlag_vocs (s : State) (a i : Nat) (b : Bool) : (s.setFlag a i b).vocs = s.vocs := wr_vocs _ _ _
@[simp] theorem setFlag_norms (s : State) (a i : Nat) (b : Bool) : (s.setFlag a i b).norms = s.norms := wr_norms _ _ _
@[simp] theorem setFlag_grms (s : State) (a i : Nat) (b : Bool) : (s.setFlag a i b).grms = s.grms := wr_grms _ _ _
@[simp] theorem setFlag_lexs (s : State) (a i : Nat) (b : Bool) : (s.setFlag a i b).lexs = s.lexs := wr_lexs _ _ _
@[simp] theorem setFlag_gctxs (s : State) (a i : Nat) (b : Bool) : (s.setFlag a i b).gctxs = s.gctxs := wr_gctxs _ _ _
@[simp] theorem setFlag_gctxGen (s : State) (a i : Nat) (b : Bool) : (s.setFlag a i b).gctxGen = s.gctxGen := wr_gctxGen _ _ _
@[simp] theorem setFlag_seqs (s : State) (a i : Nat) (b : Bool) : (s.setFlag a i b).seqs = s.seqs := wr_seqs _ _ _
@[simp] theorem setFlag_seqGen (s : State) (a i : Nat) (b : Bool) : (s.setFlag a i b).seqGen = s.seqGen := wr_seqGen _ _ _
@[simp] theorem setFlag_aunits (s : State) (a i : Nat) (b : Bool) : (s.setFlag a i b).aunits = s.aunits := wr_aunits _ _ _
@[simp] theorem setFlag_chans (s : State) (a i : Nat) (b : Bool) : (s.setFlag a i b).chans = s.chans := wr_chans _ _ _
@[simp] theorem setFlag_sc (s : State) (a i : Nat) (b : Bool) : (s.setFlag a i b).sc = s.sc := wr_sc _ _ _
@[simp] theorem setFlag_harts (s : State) (a i : Nat) (b : Bool) : (s.setFlag a i b).harts = s.harts := wr_harts _ _ _
@[simp] theorem setFlag_cores (s : State) (a i : Nat) (b : Bool) : (s.setFlag a i b).cores = s.cores := wr_cores _ _ _
@[simp] theorem setFlag_fwProg (s : State) (a i : Nat) (b : Bool) : (s.setFlag a i b).fwProg = s.fwProg := wr_fwProg _ _ _
@[simp] theorem setFlag_warden (s : State) (a i : Nat) (b : Bool) : (s.setFlag a i b).warden = s.warden := wr_warden _ _ _
@[simp] theorem setFlag_vsaved (s : State) (a i : Nat) (b : Bool) : (s.setFlag a i b).vsaved = s.vsaved := wr_vsaved _ _ _
@[simp] theorem setFlag_pcmd (s : State) (a i : Nat) (b : Bool) : (s.setFlag a i b).pcmd = s.pcmd := wr_pcmd _ _ _
@[simp] theorem setFlag_klinks (s : State) (a i : Nat) (b : Bool) : (s.setFlag a i b).klinks = s.klinks := wr_klinks _ _ _
@[simp] theorem setFlag_kal (s : State) (a i : Nat) (b : Bool) : (s.setFlag a i b).kal = s.kal := wr_kal _ _ _
@[simp] theorem setFlag_health (s : State) (a i : Nat) (b : Bool) : (s.setFlag a i b).health = s.health := wr_health _ _ _
@[simp] theorem setFlag_emg (s : State) (a i : Nat) (b : Bool) : (s.setFlag a i b).emg = s.emg := wr_emg _ _ _
@[simp] theorem setFlag_pins (s : State) (a i : Nat) (b : Bool) : (s.setFlag a i b).pins = s.pins := wr_pins _ _ _
@[simp] theorem setFlag_alert (s : State) (a i : Nat) (b : Bool) : (s.setFlag a i b).alert = s.alert := wr_alert _ _ _
@[simp] theorem setFlag_copyAt (s : State) (a i : Nat) (b : Bool) : (s.setFlag a i b).copyAt = s.copyAt := wr_copyAt _ _ _

/-! ## A counter -/

@[simp] theorem bump_pending (s : State) (a : Nat) : (s.bump a).pending = s.pending := wr_pending _ _ _
@[simp] theorem bump_free (s : State) (a : Nat) : (s.bump a).free = s.free := wr_free _ _ _
@[simp] theorem bump_mem (s : State) (a : Nat) : (s.bump a).mem = s.mem := wr_mem _ _ _
@[simp] theorem bump_flash (s : State) (a : Nat) : (s.bump a).flash = s.flash := wr_flash _ _ _
@[simp] theorem bump_held (s : State) (a : Nat) : (s.bump a).held = s.held := wr_held _ _ _
@[simp] theorem bump_wosDone (s : State) (a : Nat) : (s.bump a).wosDone = s.wosDone := wr_wosDone _ _ _
@[simp] theorem bump_shadow (s : State) (a : Nat) : (s.bump a).shadow = s.shadow := wr_shadow _ _ _
@[simp] theorem bump_snapAt (s : State) (a : Nat) : (s.bump a).snapAt = s.snapAt := wr_snapAt _ _ _
@[simp] theorem bump_clk (s : State) (a : Nat) : (s.bump a).clk = s.clk := wr_clk _ _ _
@[simp] theorem bump_pairs (s : State) (a : Nat) : (s.bump a).pairs = s.pairs := wr_pairs _ _ _
@[simp] theorem bump_flogRing (s : State) (a : Nat) : (s.bump a).flogRing = s.flogRing := wr_flogRing _ _ _
@[simp] theorem bump_flogFlash (s : State) (a : Nat) : (s.bump a).flogFlash = s.flogFlash := wr_flogFlash _ _ _
@[simp] theorem bump_flogLast (s : State) (a : Nat) : (s.bump a).flogLast = s.flogLast := wr_flogLast _ _ _
@[simp] theorem bump_holding (s : State) (a : Nat) : (s.bump a).holding = s.holding := wr_holding _ _ _
@[simp] theorem bump_hevt (s : State) (a : Nat) : (s.bump a).hevt = s.hevt := wr_hevt _ _ _
@[simp] theorem bump_fns (s : State) (a : Nat) : (s.bump a).fns = s.fns := wr_fns _ _ _
@[simp] theorem bump_numVfs (s : State) (a : Nat) : (s.bump a).numVfs = s.numVfs := wr_numVfs _ _ _
@[simp] theorem bump_vfEnable (s : State) (a : Nat) : (s.bump a).vfEnable = s.vfEnable := wr_vfEnable _ _ _
@[simp] theorem bump_msix (s : State) (a : Nat) : (s.bump a).msix = s.msix := wr_msix _ _ _
@[simp] theorem bump_qs (s : State) (a : Nat) : (s.bump a).qs = s.qs := wr_qs _ _ _
@[simp] theorem bump_rqs (s : State) (a : Nat) : (s.bump a).rqs = s.rqs := wr_rqs _ _ _
@[simp] theorem bump_profs (s : State) (a : Nat) : (s.bump a).profs = s.profs := wr_profs _ _ _
@[simp] theorem bump_items (s : State) (a : Nat) : (s.bump a).items = s.items := wr_items _ _ _
@[simp] theorem bump_nextSeq (s : State) (a : Nat) : (s.bump a).nextSeq = s.nextSeq := wr_nextSeq _ _ _
@[simp] theorem bump_dests (s : State) (a : Nat) : (s.bump a).dests = s.dests := wr_dests _ _ _
@[simp] theorem bump_egress (s : State) (a : Nat) : (s.bump a).egress = s.egress := wr_egress _ _ _
@[simp] theorem bump_rsn (s : State) (a : Nat) : (s.bump a).rsn = s.rsn := wr_rsn _ _ _
@[simp] theorem bump_svc (s : State) (a : Nat) : (s.bump a).svc = s.svc := wr_svc _ _ _
@[simp] theorem bump_parts (s : State) (a : Nat) : (s.bump a).parts = s.parts := wr_parts _ _ _
@[simp] theorem bump_vis (s : State) (a : Nat) : (s.bump a).vis = s.vis := wr_vis _ _ _
@[simp] theorem bump_ue (s : State) (a : Nat) : (s.bump a).ue = s.ue := wr_ue _ _ _
@[simp] theorem bump_out (s : State) (a : Nat) : (s.bump a).out = s.out := wr_out _ _ _
@[simp] theorem bump_ports (s : State) (a : Nat) : (s.bump a).ports = s.ports := wr_ports _ _ _
@[simp] theorem bump_ppActive (s : State) (a : Nat) : (s.bump a).ppActive = s.ppActive := wr_ppActive _ _ _
@[simp] theorem bump_tiles (s : State) (a : Nat) : (s.bump a).tiles = s.tiles := wr_tiles _ _ _
@[simp] theorem bump_ctxs (s : State) (a : Nat) : (s.bump a).ctxs = s.ctxs := wr_ctxs _ _ _
@[simp] theorem bump_batches (s : State) (a : Nat) : (s.bump a).batches = s.batches := wr_batches _ _ _
@[simp] theorem bump_batchNo (s : State) (a : Nat) : (s.bump a).batchNo = s.batchNo := wr_batchNo _ _ _
@[simp] theorem bump_batchUid (s : State) (a : Nat) : (s.bump a).batchUid = s.batchUid := wr_batchUid _ _ _
@[simp] theorem bump_batchHeld (s : State) (a : Nat) : (s.bump a).batchHeld = s.batchHeld := wr_batchHeld _ _ _
@[simp] theorem bump_arena (s : State) (a : Nat) : (s.bump a).arena = s.arena := wr_arena _ _ _
@[simp] theorem bump_handing (s : State) (a : Nat) : (s.bump a).handing = s.handing := wr_handing _ _ _
@[simp] theorem bump_rtcp (s : State) (a : Nat) : (s.bump a).rtcp = s.rtcp := wr_rtcp _ _ _
@[simp] theorem bump_ctxSnap (s : State) (a : Nat) : (s.bump a).ctxSnap = s.ctxSnap := wr_ctxSnap _ _ _
@[simp] theorem bump_vocs (s : State) (a : Nat) : (s.bump a).vocs = s.vocs := wr_vocs _ _ _
@[simp] theorem bump_norms (s : State) (a : Nat) : (s.bump a).norms = s.norms := wr_norms _ _ _
@[simp] theorem bump_grms (s : State) (a : Nat) : (s.bump a).grms = s.grms := wr_grms _ _ _
@[simp] theorem bump_lexs (s : State) (a : Nat) : (s.bump a).lexs = s.lexs := wr_lexs _ _ _
@[simp] theorem bump_gctxs (s : State) (a : Nat) : (s.bump a).gctxs = s.gctxs := wr_gctxs _ _ _
@[simp] theorem bump_gctxGen (s : State) (a : Nat) : (s.bump a).gctxGen = s.gctxGen := wr_gctxGen _ _ _
@[simp] theorem bump_seqs (s : State) (a : Nat) : (s.bump a).seqs = s.seqs := wr_seqs _ _ _
@[simp] theorem bump_seqGen (s : State) (a : Nat) : (s.bump a).seqGen = s.seqGen := wr_seqGen _ _ _
@[simp] theorem bump_aunits (s : State) (a : Nat) : (s.bump a).aunits = s.aunits := wr_aunits _ _ _
@[simp] theorem bump_chans (s : State) (a : Nat) : (s.bump a).chans = s.chans := wr_chans _ _ _
@[simp] theorem bump_sc (s : State) (a : Nat) : (s.bump a).sc = s.sc := wr_sc _ _ _
@[simp] theorem bump_harts (s : State) (a : Nat) : (s.bump a).harts = s.harts := wr_harts _ _ _
@[simp] theorem bump_cores (s : State) (a : Nat) : (s.bump a).cores = s.cores := wr_cores _ _ _
@[simp] theorem bump_fwProg (s : State) (a : Nat) : (s.bump a).fwProg = s.fwProg := wr_fwProg _ _ _
@[simp] theorem bump_warden (s : State) (a : Nat) : (s.bump a).warden = s.warden := wr_warden _ _ _
@[simp] theorem bump_vsaved (s : State) (a : Nat) : (s.bump a).vsaved = s.vsaved := wr_vsaved _ _ _
@[simp] theorem bump_pcmd (s : State) (a : Nat) : (s.bump a).pcmd = s.pcmd := wr_pcmd _ _ _
@[simp] theorem bump_klinks (s : State) (a : Nat) : (s.bump a).klinks = s.klinks := wr_klinks _ _ _
@[simp] theorem bump_kal (s : State) (a : Nat) : (s.bump a).kal = s.kal := wr_kal _ _ _
@[simp] theorem bump_health (s : State) (a : Nat) : (s.bump a).health = s.health := wr_health _ _ _
@[simp] theorem bump_emg (s : State) (a : Nat) : (s.bump a).emg = s.emg := wr_emg _ _ _
@[simp] theorem bump_pins (s : State) (a : Nat) : (s.bump a).pins = s.pins := wr_pins _ _ _
@[simp] theorem bump_alert (s : State) (a : Nat) : (s.bump a).alert = s.alert := wr_alert _ _ _
@[simp] theorem bump_copyAt (s : State) (a : Nat) : (s.bump a).copyAt = s.copyAt := wr_copyAt _ _ _

/-! ## An output -/

@[simp] theorem emit_pending (s : State) (o : Out) : (s.emit o).pending = s.pending := (rfl)
@[simp] theorem emit_free (s : State) (o : Out) : (s.emit o).free = s.free := (rfl)
@[simp] theorem emit_mem (s : State) (o : Out) : (s.emit o).mem = s.mem := (rfl)
@[simp] theorem emit_flash (s : State) (o : Out) : (s.emit o).flash = s.flash := (rfl)
@[simp] theorem emit_regs (s : State) (o : Out) : (s.emit o).regs = s.regs := (rfl)
@[simp] theorem emit_held (s : State) (o : Out) : (s.emit o).held = s.held := (rfl)
@[simp] theorem emit_wosDone (s : State) (o : Out) : (s.emit o).wosDone = s.wosDone := (rfl)
@[simp] theorem emit_shadow (s : State) (o : Out) : (s.emit o).shadow = s.shadow := (rfl)
@[simp] theorem emit_snapAt (s : State) (o : Out) : (s.emit o).snapAt = s.snapAt := (rfl)
@[simp] theorem emit_clk (s : State) (o : Out) : (s.emit o).clk = s.clk := (rfl)
@[simp] theorem emit_pairs (s : State) (o : Out) : (s.emit o).pairs = s.pairs := (rfl)
@[simp] theorem emit_flogRing (s : State) (o : Out) : (s.emit o).flogRing = s.flogRing := (rfl)
@[simp] theorem emit_flogFlash (s : State) (o : Out) : (s.emit o).flogFlash = s.flogFlash := (rfl)
@[simp] theorem emit_flogLast (s : State) (o : Out) : (s.emit o).flogLast = s.flogLast := (rfl)
@[simp] theorem emit_holding (s : State) (o : Out) : (s.emit o).holding = s.holding := (rfl)
@[simp] theorem emit_hevt (s : State) (o : Out) : (s.emit o).hevt = s.hevt := (rfl)
@[simp] theorem emit_fns (s : State) (o : Out) : (s.emit o).fns = s.fns := (rfl)
@[simp] theorem emit_numVfs (s : State) (o : Out) : (s.emit o).numVfs = s.numVfs := (rfl)
@[simp] theorem emit_vfEnable (s : State) (o : Out) : (s.emit o).vfEnable = s.vfEnable := (rfl)
@[simp] theorem emit_msix (s : State) (o : Out) : (s.emit o).msix = s.msix := (rfl)
@[simp] theorem emit_qs (s : State) (o : Out) : (s.emit o).qs = s.qs := (rfl)
@[simp] theorem emit_rqs (s : State) (o : Out) : (s.emit o).rqs = s.rqs := (rfl)
@[simp] theorem emit_profs (s : State) (o : Out) : (s.emit o).profs = s.profs := (rfl)
@[simp] theorem emit_items (s : State) (o : Out) : (s.emit o).items = s.items := (rfl)
@[simp] theorem emit_nextSeq (s : State) (o : Out) : (s.emit o).nextSeq = s.nextSeq := (rfl)
@[simp] theorem emit_dests (s : State) (o : Out) : (s.emit o).dests = s.dests := (rfl)
@[simp] theorem emit_egress (s : State) (o : Out) : (s.emit o).egress = s.egress := (rfl)
@[simp] theorem emit_rsn (s : State) (o : Out) : (s.emit o).rsn = s.rsn := (rfl)
@[simp] theorem emit_svc (s : State) (o : Out) : (s.emit o).svc = s.svc := (rfl)
@[simp] theorem emit_parts (s : State) (o : Out) : (s.emit o).parts = s.parts := (rfl)
@[simp] theorem emit_vis (s : State) (o : Out) : (s.emit o).vis = s.vis := (rfl)
@[simp] theorem emit_ue (s : State) (o : Out) : (s.emit o).ue = s.ue := (rfl)
@[simp] theorem emit_ports (s : State) (o : Out) : (s.emit o).ports = s.ports := (rfl)
@[simp] theorem emit_ppActive (s : State) (o : Out) : (s.emit o).ppActive = s.ppActive := (rfl)
@[simp] theorem emit_tiles (s : State) (o : Out) : (s.emit o).tiles = s.tiles := (rfl)
@[simp] theorem emit_ctxs (s : State) (o : Out) : (s.emit o).ctxs = s.ctxs := (rfl)
@[simp] theorem emit_batches (s : State) (o : Out) : (s.emit o).batches = s.batches := (rfl)
@[simp] theorem emit_batchNo (s : State) (o : Out) : (s.emit o).batchNo = s.batchNo := (rfl)
@[simp] theorem emit_batchUid (s : State) (o : Out) : (s.emit o).batchUid = s.batchUid := (rfl)
@[simp] theorem emit_batchHeld (s : State) (o : Out) : (s.emit o).batchHeld = s.batchHeld := (rfl)
@[simp] theorem emit_arena (s : State) (o : Out) : (s.emit o).arena = s.arena := (rfl)
@[simp] theorem emit_handing (s : State) (o : Out) : (s.emit o).handing = s.handing := (rfl)
@[simp] theorem emit_rtcp (s : State) (o : Out) : (s.emit o).rtcp = s.rtcp := (rfl)
@[simp] theorem emit_ctxSnap (s : State) (o : Out) : (s.emit o).ctxSnap = s.ctxSnap := (rfl)
@[simp] theorem emit_vocs (s : State) (o : Out) : (s.emit o).vocs = s.vocs := (rfl)
@[simp] theorem emit_norms (s : State) (o : Out) : (s.emit o).norms = s.norms := (rfl)
@[simp] theorem emit_grms (s : State) (o : Out) : (s.emit o).grms = s.grms := (rfl)
@[simp] theorem emit_lexs (s : State) (o : Out) : (s.emit o).lexs = s.lexs := (rfl)
@[simp] theorem emit_gctxs (s : State) (o : Out) : (s.emit o).gctxs = s.gctxs := (rfl)
@[simp] theorem emit_gctxGen (s : State) (o : Out) : (s.emit o).gctxGen = s.gctxGen := (rfl)
@[simp] theorem emit_seqs (s : State) (o : Out) : (s.emit o).seqs = s.seqs := (rfl)
@[simp] theorem emit_seqGen (s : State) (o : Out) : (s.emit o).seqGen = s.seqGen := (rfl)
@[simp] theorem emit_aunits (s : State) (o : Out) : (s.emit o).aunits = s.aunits := (rfl)
@[simp] theorem emit_chans (s : State) (o : Out) : (s.emit o).chans = s.chans := (rfl)
@[simp] theorem emit_sc (s : State) (o : Out) : (s.emit o).sc = s.sc := (rfl)
@[simp] theorem emit_harts (s : State) (o : Out) : (s.emit o).harts = s.harts := (rfl)
@[simp] theorem emit_cores (s : State) (o : Out) : (s.emit o).cores = s.cores := (rfl)
@[simp] theorem emit_fwProg (s : State) (o : Out) : (s.emit o).fwProg = s.fwProg := (rfl)
@[simp] theorem emit_warden (s : State) (o : Out) : (s.emit o).warden = s.warden := (rfl)
@[simp] theorem emit_vsaved (s : State) (o : Out) : (s.emit o).vsaved = s.vsaved := (rfl)
@[simp] theorem emit_pcmd (s : State) (o : Out) : (s.emit o).pcmd = s.pcmd := (rfl)
@[simp] theorem emit_klinks (s : State) (o : Out) : (s.emit o).klinks = s.klinks := (rfl)
@[simp] theorem emit_kal (s : State) (o : Out) : (s.emit o).kal = s.kal := (rfl)
@[simp] theorem emit_health (s : State) (o : Out) : (s.emit o).health = s.health := (rfl)
@[simp] theorem emit_emg (s : State) (o : Out) : (s.emit o).emg = s.emg := (rfl)
@[simp] theorem emit_pins (s : State) (o : Out) : (s.emit o).pins = s.pins := (rfl)
@[simp] theorem emit_alert (s : State) (o : Out) : (s.emit o).alert = s.alert := (rfl)
@[simp] theorem emit_copyAt (s : State) (o : Out) : (s.emit o).copyAt = s.copyAt := (rfl)

/-! ## A store -/

@[simp] theorem st_pending (s : State) (a : Nat) (b : Bytes) : (s.st a b).pending = s.pending := (rfl)
@[simp] theorem st_free (s : State) (a : Nat) (b : Bytes) : (s.st a b).free = s.free := (rfl)
@[simp] theorem st_flash (s : State) (a : Nat) (b : Bytes) : (s.st a b).flash = s.flash := (rfl)
@[simp] theorem st_regs (s : State) (a : Nat) (b : Bytes) : (s.st a b).regs = s.regs := (rfl)
@[simp] theorem st_held (s : State) (a : Nat) (b : Bytes) : (s.st a b).held = s.held := (rfl)
@[simp] theorem st_wosDone (s : State) (a : Nat) (b : Bytes) : (s.st a b).wosDone = s.wosDone := (rfl)
@[simp] theorem st_shadow (s : State) (a : Nat) (b : Bytes) : (s.st a b).shadow = s.shadow := (rfl)
@[simp] theorem st_snapAt (s : State) (a : Nat) (b : Bytes) : (s.st a b).snapAt = s.snapAt := (rfl)
@[simp] theorem st_clk (s : State) (a : Nat) (b : Bytes) : (s.st a b).clk = s.clk := (rfl)
@[simp] theorem st_pairs (s : State) (a : Nat) (b : Bytes) : (s.st a b).pairs = s.pairs := (rfl)
@[simp] theorem st_flogRing (s : State) (a : Nat) (b : Bytes) : (s.st a b).flogRing = s.flogRing := (rfl)
@[simp] theorem st_flogFlash (s : State) (a : Nat) (b : Bytes) : (s.st a b).flogFlash = s.flogFlash := (rfl)
@[simp] theorem st_flogLast (s : State) (a : Nat) (b : Bytes) : (s.st a b).flogLast = s.flogLast := (rfl)
@[simp] theorem st_holding (s : State) (a : Nat) (b : Bytes) : (s.st a b).holding = s.holding := (rfl)
@[simp] theorem st_hevt (s : State) (a : Nat) (b : Bytes) : (s.st a b).hevt = s.hevt := (rfl)
@[simp] theorem st_fns (s : State) (a : Nat) (b : Bytes) : (s.st a b).fns = s.fns := (rfl)
@[simp] theorem st_numVfs (s : State) (a : Nat) (b : Bytes) : (s.st a b).numVfs = s.numVfs := (rfl)
@[simp] theorem st_vfEnable (s : State) (a : Nat) (b : Bytes) : (s.st a b).vfEnable = s.vfEnable := (rfl)
@[simp] theorem st_msix (s : State) (a : Nat) (b : Bytes) : (s.st a b).msix = s.msix := (rfl)
@[simp] theorem st_qs (s : State) (a : Nat) (b : Bytes) : (s.st a b).qs = s.qs := (rfl)
@[simp] theorem st_rqs (s : State) (a : Nat) (b : Bytes) : (s.st a b).rqs = s.rqs := (rfl)
@[simp] theorem st_profs (s : State) (a : Nat) (b : Bytes) : (s.st a b).profs = s.profs := (rfl)
@[simp] theorem st_items (s : State) (a : Nat) (b : Bytes) : (s.st a b).items = s.items := (rfl)
@[simp] theorem st_nextSeq (s : State) (a : Nat) (b : Bytes) : (s.st a b).nextSeq = s.nextSeq := (rfl)
@[simp] theorem st_dests (s : State) (a : Nat) (b : Bytes) : (s.st a b).dests = s.dests := (rfl)
@[simp] theorem st_egress (s : State) (a : Nat) (b : Bytes) : (s.st a b).egress = s.egress := (rfl)
@[simp] theorem st_rsn (s : State) (a : Nat) (b : Bytes) : (s.st a b).rsn = s.rsn := (rfl)
@[simp] theorem st_svc (s : State) (a : Nat) (b : Bytes) : (s.st a b).svc = s.svc := (rfl)
@[simp] theorem st_parts (s : State) (a : Nat) (b : Bytes) : (s.st a b).parts = s.parts := (rfl)
@[simp] theorem st_vis (s : State) (a : Nat) (b : Bytes) : (s.st a b).vis = s.vis := (rfl)
@[simp] theorem st_ue (s : State) (a : Nat) (b : Bytes) : (s.st a b).ue = s.ue := (rfl)
@[simp] theorem st_out (s : State) (a : Nat) (b : Bytes) : (s.st a b).out = s.out := (rfl)
@[simp] theorem st_ports (s : State) (a : Nat) (b : Bytes) : (s.st a b).ports = s.ports := (rfl)
@[simp] theorem st_ppActive (s : State) (a : Nat) (b : Bytes) : (s.st a b).ppActive = s.ppActive := (rfl)
@[simp] theorem st_tiles (s : State) (a : Nat) (b : Bytes) : (s.st a b).tiles = s.tiles := (rfl)
@[simp] theorem st_ctxs (s : State) (a : Nat) (b : Bytes) : (s.st a b).ctxs = s.ctxs := (rfl)
@[simp] theorem st_batches (s : State) (a : Nat) (b : Bytes) : (s.st a b).batches = s.batches := (rfl)
@[simp] theorem st_batchNo (s : State) (a : Nat) (b : Bytes) : (s.st a b).batchNo = s.batchNo := (rfl)
@[simp] theorem st_batchUid (s : State) (a : Nat) (b : Bytes) : (s.st a b).batchUid = s.batchUid := (rfl)
@[simp] theorem st_batchHeld (s : State) (a : Nat) (b : Bytes) : (s.st a b).batchHeld = s.batchHeld := (rfl)
@[simp] theorem st_arena (s : State) (a : Nat) (b : Bytes) : (s.st a b).arena = s.arena := (rfl)
@[simp] theorem st_handing (s : State) (a : Nat) (b : Bytes) : (s.st a b).handing = s.handing := (rfl)
@[simp] theorem st_rtcp (s : State) (a : Nat) (b : Bytes) : (s.st a b).rtcp = s.rtcp := (rfl)
@[simp] theorem st_ctxSnap (s : State) (a : Nat) (b : Bytes) : (s.st a b).ctxSnap = s.ctxSnap := (rfl)
@[simp] theorem st_vocs (s : State) (a : Nat) (b : Bytes) : (s.st a b).vocs = s.vocs := (rfl)
@[simp] theorem st_norms (s : State) (a : Nat) (b : Bytes) : (s.st a b).norms = s.norms := (rfl)
@[simp] theorem st_grms (s : State) (a : Nat) (b : Bytes) : (s.st a b).grms = s.grms := (rfl)
@[simp] theorem st_lexs (s : State) (a : Nat) (b : Bytes) : (s.st a b).lexs = s.lexs := (rfl)
@[simp] theorem st_gctxs (s : State) (a : Nat) (b : Bytes) : (s.st a b).gctxs = s.gctxs := (rfl)
@[simp] theorem st_gctxGen (s : State) (a : Nat) (b : Bytes) : (s.st a b).gctxGen = s.gctxGen := (rfl)
@[simp] theorem st_seqs (s : State) (a : Nat) (b : Bytes) : (s.st a b).seqs = s.seqs := (rfl)
@[simp] theorem st_seqGen (s : State) (a : Nat) (b : Bytes) : (s.st a b).seqGen = s.seqGen := (rfl)
@[simp] theorem st_aunits (s : State) (a : Nat) (b : Bytes) : (s.st a b).aunits = s.aunits := (rfl)
@[simp] theorem st_chans (s : State) (a : Nat) (b : Bytes) : (s.st a b).chans = s.chans := (rfl)
@[simp] theorem st_sc (s : State) (a : Nat) (b : Bytes) : (s.st a b).sc = s.sc := (rfl)
@[simp] theorem st_cores (s : State) (a : Nat) (b : Bytes) : (s.st a b).cores = s.cores := (rfl)
@[simp] theorem st_fwProg (s : State) (a : Nat) (b : Bytes) : (s.st a b).fwProg = s.fwProg := (rfl)
@[simp] theorem st_warden (s : State) (a : Nat) (b : Bytes) : (s.st a b).warden = s.warden := (rfl)
@[simp] theorem st_vsaved (s : State) (a : Nat) (b : Bytes) : (s.st a b).vsaved = s.vsaved := (rfl)
@[simp] theorem st_pcmd (s : State) (a : Nat) (b : Bytes) : (s.st a b).pcmd = s.pcmd := (rfl)
@[simp] theorem st_klinks (s : State) (a : Nat) (b : Bytes) : (s.st a b).klinks = s.klinks := (rfl)
@[simp] theorem st_kal (s : State) (a : Nat) (b : Bytes) : (s.st a b).kal = s.kal := (rfl)
@[simp] theorem st_health (s : State) (a : Nat) (b : Bytes) : (s.st a b).health = s.health := (rfl)
@[simp] theorem st_emg (s : State) (a : Nat) (b : Bytes) : (s.st a b).emg = s.emg := (rfl)
@[simp] theorem st_pins (s : State) (a : Nat) (b : Bytes) : (s.st a b).pins = s.pins := (rfl)
@[simp] theorem st_alert (s : State) (a : Nat) (b : Bytes) : (s.st a b).alert = s.alert := (rfl)
@[simp] theorem st_copyAt (s : State) (a : Nat) (b : Bytes) : (s.st a b).copyAt = s.copyAt := (rfl)

/-! ## A register write that waits -/

@[simp] theorem wrHeld_pending (s : State) (a : Nat) (v : Word) : (s.wrHeld a v).pending = s.pending := (rfl)
@[simp] theorem wrHeld_free (s : State) (a : Nat) (v : Word) : (s.wrHeld a v).free = s.free := (rfl)
@[simp] theorem wrHeld_mem (s : State) (a : Nat) (v : Word) : (s.wrHeld a v).mem = s.mem := (rfl)
@[simp] theorem wrHeld_flash (s : State) (a : Nat) (v : Word) : (s.wrHeld a v).flash = s.flash := (rfl)
@[simp] theorem wrHeld_wosDone (s : State) (a : Nat) (v : Word) : (s.wrHeld a v).wosDone = s.wosDone := (rfl)
@[simp] theorem wrHeld_shadow (s : State) (a : Nat) (v : Word) : (s.wrHeld a v).shadow = s.shadow := (rfl)
@[simp] theorem wrHeld_snapAt (s : State) (a : Nat) (v : Word) : (s.wrHeld a v).snapAt = s.snapAt := (rfl)
@[simp] theorem wrHeld_clk (s : State) (a : Nat) (v : Word) : (s.wrHeld a v).clk = s.clk := (rfl)
@[simp] theorem wrHeld_pairs (s : State) (a : Nat) (v : Word) : (s.wrHeld a v).pairs = s.pairs := (rfl)
@[simp] theorem wrHeld_flogRing (s : State) (a : Nat) (v : Word) : (s.wrHeld a v).flogRing = s.flogRing := (rfl)
@[simp] theorem wrHeld_flogFlash (s : State) (a : Nat) (v : Word) : (s.wrHeld a v).flogFlash = s.flogFlash := (rfl)
@[simp] theorem wrHeld_flogLast (s : State) (a : Nat) (v : Word) : (s.wrHeld a v).flogLast = s.flogLast := (rfl)
@[simp] theorem wrHeld_holding (s : State) (a : Nat) (v : Word) : (s.wrHeld a v).holding = s.holding := (rfl)
@[simp] theorem wrHeld_hevt (s : State) (a : Nat) (v : Word) : (s.wrHeld a v).hevt = s.hevt := (rfl)
@[simp] theorem wrHeld_fns (s : State) (a : Nat) (v : Word) : (s.wrHeld a v).fns = s.fns := (rfl)
@[simp] theorem wrHeld_numVfs (s : State) (a : Nat) (v : Word) : (s.wrHeld a v).numVfs = s.numVfs := (rfl)
@[simp] theorem wrHeld_vfEnable (s : State) (a : Nat) (v : Word) : (s.wrHeld a v).vfEnable = s.vfEnable := (rfl)
@[simp] theorem wrHeld_msix (s : State) (a : Nat) (v : Word) : (s.wrHeld a v).msix = s.msix := (rfl)
@[simp] theorem wrHeld_qs (s : State) (a : Nat) (v : Word) : (s.wrHeld a v).qs = s.qs := (rfl)
@[simp] theorem wrHeld_rqs (s : State) (a : Nat) (v : Word) : (s.wrHeld a v).rqs = s.rqs := (rfl)
@[simp] theorem wrHeld_profs (s : State) (a : Nat) (v : Word) : (s.wrHeld a v).profs = s.profs := (rfl)
@[simp] theorem wrHeld_items (s : State) (a : Nat) (v : Word) : (s.wrHeld a v).items = s.items := (rfl)
@[simp] theorem wrHeld_nextSeq (s : State) (a : Nat) (v : Word) : (s.wrHeld a v).nextSeq = s.nextSeq := (rfl)
@[simp] theorem wrHeld_dests (s : State) (a : Nat) (v : Word) : (s.wrHeld a v).dests = s.dests := (rfl)
@[simp] theorem wrHeld_egress (s : State) (a : Nat) (v : Word) : (s.wrHeld a v).egress = s.egress := (rfl)
@[simp] theorem wrHeld_rsn (s : State) (a : Nat) (v : Word) : (s.wrHeld a v).rsn = s.rsn := (rfl)
@[simp] theorem wrHeld_svc (s : State) (a : Nat) (v : Word) : (s.wrHeld a v).svc = s.svc := (rfl)
@[simp] theorem wrHeld_parts (s : State) (a : Nat) (v : Word) : (s.wrHeld a v).parts = s.parts := (rfl)
@[simp] theorem wrHeld_vis (s : State) (a : Nat) (v : Word) : (s.wrHeld a v).vis = s.vis := (rfl)
@[simp] theorem wrHeld_ue (s : State) (a : Nat) (v : Word) : (s.wrHeld a v).ue = s.ue := (rfl)
@[simp] theorem wrHeld_out (s : State) (a : Nat) (v : Word) : (s.wrHeld a v).out = s.out := (rfl)
@[simp] theorem wrHeld_ports (s : State) (a : Nat) (v : Word) : (s.wrHeld a v).ports = s.ports := (rfl)
@[simp] theorem wrHeld_ppActive (s : State) (a : Nat) (v : Word) : (s.wrHeld a v).ppActive = s.ppActive := (rfl)
@[simp] theorem wrHeld_tiles (s : State) (a : Nat) (v : Word) : (s.wrHeld a v).tiles = s.tiles := (rfl)
@[simp] theorem wrHeld_ctxs (s : State) (a : Nat) (v : Word) : (s.wrHeld a v).ctxs = s.ctxs := (rfl)
@[simp] theorem wrHeld_batches (s : State) (a : Nat) (v : Word) : (s.wrHeld a v).batches = s.batches := (rfl)
@[simp] theorem wrHeld_batchNo (s : State) (a : Nat) (v : Word) : (s.wrHeld a v).batchNo = s.batchNo := (rfl)
@[simp] theorem wrHeld_batchUid (s : State) (a : Nat) (v : Word) : (s.wrHeld a v).batchUid = s.batchUid := (rfl)
@[simp] theorem wrHeld_batchHeld (s : State) (a : Nat) (v : Word) : (s.wrHeld a v).batchHeld = s.batchHeld := (rfl)
@[simp] theorem wrHeld_arena (s : State) (a : Nat) (v : Word) : (s.wrHeld a v).arena = s.arena := (rfl)
@[simp] theorem wrHeld_handing (s : State) (a : Nat) (v : Word) : (s.wrHeld a v).handing = s.handing := (rfl)
@[simp] theorem wrHeld_rtcp (s : State) (a : Nat) (v : Word) : (s.wrHeld a v).rtcp = s.rtcp := (rfl)
@[simp] theorem wrHeld_ctxSnap (s : State) (a : Nat) (v : Word) : (s.wrHeld a v).ctxSnap = s.ctxSnap := (rfl)
@[simp] theorem wrHeld_vocs (s : State) (a : Nat) (v : Word) : (s.wrHeld a v).vocs = s.vocs := (rfl)
@[simp] theorem wrHeld_norms (s : State) (a : Nat) (v : Word) : (s.wrHeld a v).norms = s.norms := (rfl)
@[simp] theorem wrHeld_grms (s : State) (a : Nat) (v : Word) : (s.wrHeld a v).grms = s.grms := (rfl)
@[simp] theorem wrHeld_lexs (s : State) (a : Nat) (v : Word) : (s.wrHeld a v).lexs = s.lexs := (rfl)
@[simp] theorem wrHeld_gctxs (s : State) (a : Nat) (v : Word) : (s.wrHeld a v).gctxs = s.gctxs := (rfl)
@[simp] theorem wrHeld_gctxGen (s : State) (a : Nat) (v : Word) : (s.wrHeld a v).gctxGen = s.gctxGen := (rfl)
@[simp] theorem wrHeld_seqs (s : State) (a : Nat) (v : Word) : (s.wrHeld a v).seqs = s.seqs := (rfl)
@[simp] theorem wrHeld_seqGen (s : State) (a : Nat) (v : Word) : (s.wrHeld a v).seqGen = s.seqGen := (rfl)
@[simp] theorem wrHeld_aunits (s : State) (a : Nat) (v : Word) : (s.wrHeld a v).aunits = s.aunits := (rfl)
@[simp] theorem wrHeld_chans (s : State) (a : Nat) (v : Word) : (s.wrHeld a v).chans = s.chans := (rfl)
@[simp] theorem wrHeld_sc (s : State) (a : Nat) (v : Word) : (s.wrHeld a v).sc = s.sc := (rfl)
@[simp] theorem wrHeld_harts (s : State) (a : Nat) (v : Word) : (s.wrHeld a v).harts = s.harts := (rfl)
@[simp] theorem wrHeld_cores (s : State) (a : Nat) (v : Word) : (s.wrHeld a v).cores = s.cores := (rfl)
@[simp] theorem wrHeld_fwProg (s : State) (a : Nat) (v : Word) : (s.wrHeld a v).fwProg = s.fwProg := (rfl)
@[simp] theorem wrHeld_warden (s : State) (a : Nat) (v : Word) : (s.wrHeld a v).warden = s.warden := (rfl)
@[simp] theorem wrHeld_vsaved (s : State) (a : Nat) (v : Word) : (s.wrHeld a v).vsaved = s.vsaved := (rfl)
@[simp] theorem wrHeld_pcmd (s : State) (a : Nat) (v : Word) : (s.wrHeld a v).pcmd = s.pcmd := (rfl)
@[simp] theorem wrHeld_klinks (s : State) (a : Nat) (v : Word) : (s.wrHeld a v).klinks = s.klinks := (rfl)
@[simp] theorem wrHeld_kal (s : State) (a : Nat) (v : Word) : (s.wrHeld a v).kal = s.kal := (rfl)
@[simp] theorem wrHeld_health (s : State) (a : Nat) (v : Word) : (s.wrHeld a v).health = s.health := (rfl)
@[simp] theorem wrHeld_emg (s : State) (a : Nat) (v : Word) : (s.wrHeld a v).emg = s.emg := (rfl)
@[simp] theorem wrHeld_pins (s : State) (a : Nat) (v : Word) : (s.wrHeld a v).pins = s.pins := (rfl)
@[simp] theorem wrHeld_alert (s : State) (a : Nat) (v : Word) : (s.wrHeld a v).alert = s.alert := (rfl)
@[simp] theorem wrHeld_copyAt (s : State) (a : Nat) (v : Word) : (s.wrHeld a v).copyAt = s.copyAt := (rfl)

/-! ## Registers -/

/-- States with the same register file read the same registers. -/
theorem rd_congr {s t : State} (h : t.regs = s.regs) (a : Nat) : t.rd a = s.rd a := by unfold State.rd; rw [h]

/-- A register reads what was written to it. -/
@[simp] theorem rd_wr_same (s : State) (a : Nat) (v : Word) : (s.wr a v).rd a = v := by simp [State.rd, State.wr]

/-- Every other register reads as before. -/
theorem rd_wr_ne (s : State) {a b : Nat} (v : Word) (h : b ≠ a) : (s.wr a v).rd b = s.rd b :=
  Tab.get_set_ne _ _ _ h

/-- Both cases at once. -/
theorem rd_wr (s : State) (a b : Nat) (v : Word) : (s.wr a v).rd b = if b = a then v else s.rd b := by
  split
  · subst b; simp
  · exact rd_wr_ne s v ‹_›

/-- A register of the next state is that of `t` when the command may change registers. -/
theorem taken_rd (s t : State) {w : List Fld} (h : .regs ∈ w) (a : Nat) : (s.taken t w).rd a = t.rd a := by
  simp [State.rd, h]

/-- A field of the next state that the command may not change is that of `s`. -/
theorem taken_rd_of_not (s t : State) {w : List Fld} (h : .regs ∉ w) (a : Nat) : (s.taken t w).rd a = s.rd a := by
  simp [State.rd, h]

/-- A byte of the next state is that of `t` when the command may change a canonical memory. -/
theorem taken_byte (s t : State) {w : List Fld} (h : .mem ∈ w) (hm : Tab.wf (0 : Byte) t.mem = true) (a : Nat) :
    (s.taken t w).byte a = t.byte a := by
  simp [State.byte, h, canonMem_of_wf hm]

/-- The memory of a next state is canonical if it was before. -/
theorem taken_mem_wf (s t : State) (w : List Fld) (h : Tab.wf (0 : Byte) s.mem = true) :
    Tab.wf (0 : Byte) (s.taken t w).mem = true := by
  rw [taken_mem]; split
  · exact canonMem_wf _
  · exact h

end Sys2Proof.Machine
end

