-- ==== Sys2Proof/Laws/Bits.lean ====
section
/-! SUPPORT. Bit fields after a mask, and after a field is replaced. -/
namespace Sys2Proof.Machine

theorem nbits_testBit (n hi lo i : Nat) : (nbits n hi lo).testBit i = (decide (i < hi + 1 - lo) && n.testBit (lo + i)) := by
  unfold nbits
  rw [Nat.testBit_mod_two_pow, Nat.testBit_div_two_pow, Nat.add_comm lo i]

theorem nbits_lt (n hi lo : Nat) : nbits n hi lo < 2 ^ (hi + 1 - lo) := Nat.mod_lt _ (Nat.two_pow_pos _)

theorem bits_or {w : Nat} (v m : BitVec w) (hi lo : Nat) : bits (v ||| m) hi lo = bits v hi lo ||| bits m hi lo := by
  apply Nat.eq_of_testBit_eq; intro i
  simp only [bits, Nat.testBit_or, nbits_testBit, BitVec.toNat_or]
  cases decide (i < hi + 1 - lo) <;> simp

theorem bits_and {w : Nat} (v m : BitVec w) (hi lo : Nat) : bits (v &&& m) hi lo = bits v hi lo &&& bits m hi lo := by
  apply Nat.eq_of_testBit_eq; intro i
  simp only [bits, Nat.testBit_and, nbits_testBit, BitVec.toNat_and]
  cases decide (i < hi + 1 - lo) <;> simp

/-- A mask that is zero in a field leaves it as it is. -/
theorem bits_or_zero {w : Nat} (v m : BitVec w) {hi lo : Nat} (h : bits m hi lo = 0) : bits (v ||| m) hi lo = bits v hi lo := by
  simp [bits_or, h]

@[simp] theorem bit_or {w : Nat} (v m : BitVec w) (i : Nat) : bit (v ||| m) i = (bit v i || bit m i) := by simp [bit]
@[simp] theorem bit_and {w : Nat} (v m : BitVec w) (i : Nat) : bit (v &&& m) i = (bit v i && bit m i) := by simp [bit]

/-- The number with a field replaced, bit by bit. -/
theorem putBits_bit (v : Word) {hi lo : Nat} (n : Nat) (h : hi < 32) (hl : lo ≤ hi) (i : Nat) (hi32 : i < 32) :
    bit (putBits v hi lo n) i = if lo ≤ i ∧ i ≤ hi then n.testBit (i - lo) else bit v i := by
  obtain ⟨k, rfl⟩ : ∃ k, hi = lo + k := ⟨hi - lo, by omega⟩
  have hw : lo + k + 1 - lo = k + 1 := by omega
  unfold putBits bit nbits
  rw [hw]
  have hx : v.toNat - v.toNat / 2 ^ lo % 2 ^ (k + 1) * 2 ^ lo + n % 2 ^ (k + 1) * 2 ^ lo =
      2 ^ (lo + (k + 1)) * (v.toNat / 2 ^ (lo + (k + 1))) + (2 ^ lo * (n % 2 ^ (k + 1)) + v.toNat % 2 ^ lo) := by
    have h1 := Nat.div_add_mod v.toNat (2 ^ lo)
    have h2 := Nat.div_add_mod (v.toNat / 2 ^ lo) (2 ^ (k + 1))
    rw [Nat.div_div_eq_div_mul, ← Nat.pow_add] at h2
    generalize v.toNat / 2 ^ (lo + (k + 1)) = A at *
    generalize v.toNat / 2 ^ lo % 2 ^ (k + 1) = B at *
    generalize v.toNat / 2 ^ lo = C at *
    generalize v.toNat % 2 ^ lo = D at *
    generalize n % 2 ^ (k + 1) = N at *
    rw [← h1, ← h2, Nat.pow_add 2 lo (k + 1)]
    have e : 2 ^ lo * (2 ^ (k + 1) * A + B) = 2 ^ lo * 2 ^ (k + 1) * A + B * 2 ^ lo := by ring
    rw [e]
    have : 2 ^ lo * 2 ^ (k + 1) * A + B * 2 ^ lo + D - B * 2 ^ lo = 2 ^ lo * 2 ^ (k + 1) * A + D := by omega
    rw [this]; ring
  rw [hx]
  have hN : n % 2 ^ (k + 1) < 2 ^ (k + 1) := Nat.mod_lt _ (Nat.two_pow_pos _)
  have hD : v.toNat % 2 ^ lo < 2 ^ lo := Nat.mod_lt _ (Nat.two_pow_pos _)
  have hlow : 2 ^ lo * (n % 2 ^ (k + 1)) + v.toNat % 2 ^ lo < 2 ^ (lo + (k + 1)) := by
    rw [Nat.pow_add 2 lo (k + 1)]
    calc 2 ^ lo * (n % 2 ^ (k + 1)) + v.toNat % 2 ^ lo < 2 ^ lo * (n % 2 ^ (k + 1)) + 2 ^ lo := by omega
      _ = 2 ^ lo * (n % 2 ^ (k + 1) + 1) := by ring
      _ ≤ 2 ^ lo * 2 ^ (k + 1) := Nat.mul_le_mul_left _ hN
  rw [BitVec.getLsbD_ofNat]
  simp only [hi32, decide_true, Bool.true_and]
  rw [Nat.testBit_two_pow_mul_add _ hlow]
  split
  · rw [Nat.testBit_two_pow_mul_add _ hD]
    split
    · rw [Nat.testBit_mod_two_pow]
      have : ¬ (lo ≤ i ∧ i ≤ lo + k) := by omega
      simp only [this, if_false, BitVec.getLsbD]
      simp [*]
    · rw [Nat.testBit_mod_two_pow]
      have : lo ≤ i ∧ i ≤ lo + k := by omega
      simp only [this, and_self, if_true]
      have : i - lo < k + 1 := by omega
      simp [this]
  · have h' : ¬ (lo ≤ i ∧ i ≤ lo + k) := by omega
    simp only [h', if_false]
    rw [Nat.testBit_div_two_pow, BitVec.getLsbD]
    congr 1; omega

/-- A replaced field reads what was put there. -/
theorem bits_putBits (v : Word) {hi lo : Nat} (n : Nat) (h : hi < 32) (hl : lo ≤ hi) :
    bits (putBits v hi lo n) hi lo = n % 2 ^ (hi + 1 - lo) := by
  apply Nat.eq_of_testBit_eq; intro i
  rw [bits, nbits_testBit, Nat.testBit_mod_two_pow]
  by_cases hi' : i < hi + 1 - lo
  · have := putBits_bit v n h hl (lo + i) (by omega)
    simp only [bit, BitVec.getLsbD] at this
    rw [this, if_pos (by omega)]; simp
  · simp [hi']

/-- Another field reads as before. -/
theorem bits_putBits_ne (v : Word) {hi lo : Nat} (n : Nat) {hi' lo' : Nat} (h : hi < 32) (hl : lo ≤ hi) (h' : hi' < 32)
    (hd : hi' < lo ∨ hi < lo') : bits (putBits v hi lo n) hi' lo' = bits v hi' lo' := by
  apply Nat.eq_of_testBit_eq; intro i
  rw [bits, bits, nbits_testBit, nbits_testBit]
  by_cases hi2 : i < hi' + 1 - lo'
  · have := putBits_bit v n h hl (lo' + i) (by omega)
    simp only [bit, BitVec.getLsbD] at this
    rw [this, if_neg (by omega)]
  · simp [hi2]

/-! ## Register fields -/

theorem fld_setFld (s : State) (a : Nat) {hi lo : Nat} (n : Nat) (h : hi < 32) (hl : lo ≤ hi) :
    (s.setFld a hi lo n).fld a hi lo = n % 2 ^ (hi + 1 - lo) := by
  simp [State.fld, State.setFld, bits_putBits _ n h hl]

theorem fld_setFld_ne (s : State) (a : Nat) {hi lo : Nat} (n : Nat) {hi' lo' : Nat} (h : hi < 32) (hl : lo ≤ hi) (h' : hi' < 32)
    (hd : hi' < lo ∨ hi < lo') : (s.setFld a hi lo n).fld a hi' lo' = s.fld a hi' lo' := by
  simp [State.fld, State.setFld, bits_putBits_ne _ n h hl h' hd]

theorem flag_setFlag (s : State) (a : Nat) {i : Nat} (b : Bool) (h : i < 32) : (s.setFlag a i b).flag a i = b := by
  simp only [State.flag, State.setFlag, State.setFld, rd_wr_same]
  rw [putBits_bit _ _ h (Nat.le_refl _) _ h]
  cases b <;> simp [ofBool]

theorem flag_setFlag_ne (s : State) (a : Nat) {i j : Nat} (b : Bool) (h : i < 32) (hj : j < 32) (hne : j ≠ i) :
    (s.setFlag a i b).flag a j = s.flag a j := by
  simp only [State.flag, State.setFlag, State.setFld, rd_wr_same]
  rw [putBits_bit _ _ h (Nat.le_refl _) _ hj, if_neg (by omega)]

theorem rd_setFld_ne (s : State) {a b : Nat} (hi lo n : Nat) (h : b ≠ a) : (s.setFld a hi lo n).rd b = s.rd b := rd_wr_ne _ _ h
theorem rd_setFlag_ne (s : State) {a b : Nat} (i : Nat) (x : Bool) (h : b ≠ a) : (s.setFlag a i x).rd b = s.rd b := rd_wr_ne _ _ h

end Sys2Proof.Machine
end

