-- ==== Sys2Proof/Laws/Flags.lean ====
section
/-! SUPPORT. What raising events, signalling channels, logging and refusing writes can change: one lemma per operation for the fields,
one for the registers. -/
namespace Sys2Proof.Machine

/-- The registers that a message or a channel may change: the pending bits of the channels and the count of dropped messages. -/
def msgReg (a : Nat) : Prop := a = Reg.HP_CNT_VEC_DROP ∨ ∃ k < 8, a = Reg.EVT_CHAN_PEND k

theorem not_msgReg {a : Nat} (h : a < 0x6060 ∨ 0x6080 ≤ a) (h' : a ≠ 0x3300C8) : ¬ msgReg a := by
  rintro (e | ⟨k, hk, e⟩)
  · exact h' e
  · unfold Reg.EVT_CHAN_PEND at e; omega

theorem Fld.same_refl (f : Fld) (s : State) : f.same s s := by cases f <;> rfl

theorem Fld.same_trans {f : Fld} {s t u : State} (h : f.same s t) (k : f.same t u) : f.same s u := by
  cases f <;> exact Eq.trans k h

theorem Fld.same_ite {f : Fld} {s t u : State} {c : Prop} [Decidable c] (h : f.same s t) (k : f.same s u) :
    f.same s (if c then t else u) := by split <;> assumption

theorem wr_same {f : Fld} (s : State) (a : Nat) (v : Word) (h : f ∉ [Fld.regs]) : f.same s (s.wr a v) := by
  cases f <;> first | rfl | simp at h

theorem taken_same {f : Fld} (s t : State) {w : List Fld} (h : f ∉ w) : f.same s (s.taken t w) := by
  cases f <;> exact if_neg h

theorem msixSend_same {f : Fld} (s : State) (g v : Nat) (h : f ∉ [Fld.regs, .msix, .out]) : f.same s (s.msixSend g v) := by
  unfold State.msixSend State.bump State.count State.emit
  dsimp only
  split
  · exact wr_same _ _ _ (by revert h; cases f <;> decide)
  · split <;> (cases f <;> first | rfl | simp at h)

theorem rd_msixSend (s : State) (g v : Nat) {a : Nat} (h : ¬ msgReg a) : (s.msixSend g v).rd a = s.rd a := by
  unfold State.msixSend State.bump State.count State.emit
  dsimp only
  split
  · exact rd_wr_ne _ _ (fun e => h (.inl e))
  · split <;> rfl

theorem deliver_same {f : Fld} (s : State) (c : Nat) (h : f ∉ [Fld.regs, .holding, .msix, .hevt, .out]) :
    f.same s (s.deliver c) := by
  have hr : f ∉ [Fld.regs] := by revert h; cases f <;> decide
  have hm : f ∉ [Fld.regs, .msix, .out] := by revert h; cases f <;> decide
  unfold State.deliver
  dsimp only
  split
  · exact Fld.same_refl _ _
  · have h0 : f.same s (s.setFlag (Reg.EVT_CHAN_PEND (c / 32)) (c % 32) false) := wr_same _ _ _ hr
    have h1 : ∀ u : State, f.same s u → f.same s (if bits (s.chanCfg c) 29 20 = 0 then u else { u with holding := c :: u.holding }) := by
      intro u hu
      split
      · exact hu
      · exact Fld.same_trans hu (by cases f <;> first | rfl | simp at h)
    have h2 := h1 _ h0
    split
    · exact Fld.same_trans h2 (msixSend_same _ _ _ hm)
    · exact Fld.same_trans h2 (by unfold State.hartEvent; cases f <;> first | rfl | simp at h)
    · exact Fld.same_trans h2 (by unfold State.emit; cases f <;> first | rfl | simp at h)

theorem rd_deliver (s : State) {c : Nat} (hc : c < 256) {a : Nat} (h : ¬ msgReg a) : (s.deliver c).rd a = s.rd a := by
  unfold State.deliver
  dsimp only
  split
  · rfl
  · have h0 : (s.setFlag (Reg.EVT_CHAN_PEND (c / 32)) (c % 32) false).rd a = s.rd a :=
      rd_wr_ne _ _ (fun e => h (.inr ⟨_, by omega, e⟩))
    have h1 : ∀ u : State, u.rd a = s.rd a →
        (if bits (s.chanCfg c) 29 20 = 0 then u else { u with holding := c :: u.holding } : State).rd a = s.rd a := by
      intro u hu
      split
      · exact hu
      · exact hu
    have h2 := h1 _ h0
    split
    · exact (rd_msixSend _ _ _ h).trans h2
    · exact h2
    · exact h2

/-- A pending channel of KIND 3 outside its holdoff signals the warden, and its pending bit clears (R64). -/
theorem deliver_warden (s : State) (c : Nat) (hp : s.chanPend c = true) (hk : bits (s.chanCfg c) 31 30 = 3)
    (hh : s.holding.contains c = false) :
    (s.deliver c).out = .warden c :: s.out ∧ (s.deliver c).rd (Reg.EVT_CHAN_PEND (c / 32)) =
      putBits (s.rd (Reg.EVT_CHAN_PEND (c / 32))) (c % 32) (c % 32) 0 := by
  unfold State.deliver
  dsimp only
  rw [if_neg (by rw [hp, hk, hh]; simp), hk]
  have key : ∀ u : State, u.out = s.out → u.rd (Reg.EVT_CHAN_PEND (c / 32)) = putBits (s.rd (Reg.EVT_CHAN_PEND (c / 32))) (c % 32) (c % 32) 0 →
      (u.emit (.warden c)).out = .warden c :: s.out ∧
      (u.emit (.warden c)).rd (Reg.EVT_CHAN_PEND (c / 32)) = putBits (s.rd (Reg.EVT_CHAN_PEND (c / 32))) (c % 32) (c % 32) 0 := by
    intro u h1 h2
    exact ⟨by rw [← h1]; rfl, h2⟩
  have h0 := rd_wr_same s (Reg.EVT_CHAN_PEND (c / 32)) (putBits (s.rd (Reg.EVT_CHAN_PEND (c / 32))) (c % 32) (c % 32) (ofBool false))
  refine key _ ?_ ?_
  · split <;> rfl
  · split
    · exact h0
    · exact h0

theorem signal_same {f : Fld} (s : State) (c : Nat) (h : f ∉ [Fld.regs, .holding, .msix, .hevt, .out]) : f.same s (s.signal c) :=
  Fld.same_trans (wr_same _ _ _ (by revert h; cases f <;> decide)) (deliver_same _ _ h)

theorem rd_signal (s : State) (c : Nat) {a : Nat} (h : ¬ msgReg a) : (s.signal c).rd a = s.rd a :=
  (rd_deliver _ (Nat.mod_lt _ (by decide)) h).trans (rd_wr_ne _ _ (fun e => h (.inr ⟨_, by omega, e⟩)))

/-- Raising events changes only the page's event bits, and what a signal changes. -/
theorem raiseMask_same {f : Fld} (s : State) (p : Nat) (m : Word) (h : f ∉ [Fld.regs, .holding, .msix, .hevt, .out]) :
    f.same s (s.raiseMask p m) := by
  have hr : f ∉ [Fld.regs] := by revert h; cases f <;> decide
  unfold State.raiseMask
  dsimp only
  split
  · exact Fld.same_trans (wr_same _ _ _ hr) (signal_same _ _ h)
  · exact wr_same _ _ _ hr

theorem rd_raiseMask (s : State) (p : Nat) (m : Word) {a : Nat} (h : ¬ msgReg a) (hp : a ≠ p + 0x10) :
    (s.raiseMask p m).rd a = s.rd a := by
  unfold State.raiseMask
  dsimp only
  split
  · exact (rd_signal _ _ h).trans (rd_wr_ne _ _ hp)
  · exact rd_wr_ne _ _ hp

/-- The raised events stand in EVT_STS afterwards. -/
theorem rd_raiseMask_sts (s : State) (p : Nat) (m : Word) (h : ¬ msgReg (p + 0x10)) :
    (s.raiseMask p m).rd (p + 0x10) = s.rd (p + 0x10) ||| m := by
  unfold State.raiseMask
  dsimp only
  split
  · exact (rd_signal _ _ h).trans (rd_wr_same _ _ _)
  · exact rd_wr_same _ _ _

theorem raise_same {f : Fld} (s : State) (p b : Nat) (h : f ∉ [Fld.regs, .holding, .msix, .hevt, .out]) : f.same s (s.raise p b) :=
  raiseMask_same _ _ _ h

theorem rd_raise (s : State) (p b : Nat) {a : Nat} (h : ¬ msgReg a) (hp : a ≠ p + 0x10) : (s.raise p b).rd a = s.rd a :=
  rd_raiseMask _ _ _ h hp

theorem rd_bump_ne (s : State) {a b : Nat} (h : b ≠ a) : (s.bump a).rd b = s.rd b := rd_wr_ne _ _ h

@[simp] theorem rd_bump_same (s : State) (a : Nat) : (s.bump a).rd a = s.rd a + 1 := rd_wr_same _ _ _

/-- Registers that the fault log changes beside its own events and what a signal changes. -/
def logReg (a : Nat) : Prop :=
  msgReg a ∨ a = Reg.FLOG_NEXT ∨ a = Reg.FLOG_CNT_ENTRIES ∨ a = Reg.FLOG_CNT_OVERWRITTEN ∨ a = 0x9010

theorem log_same {f : Fld} (s : State) (cls code id d : Nat) (h : f ∉ [Fld.regs, .holding, .msix, .hevt, .out, .flogRing]) :
    f.same s (s.log cls code id d) := by
  have hr : f ∉ [Fld.regs] := by revert h; cases f <;> decide
  have he : f ∉ [Fld.regs, .holding, .msix, .hevt, .out] := by revert h; cases f <;> decide
  have key : ∀ (c : Prop) [Decidable c] (u : State), f.same s u → f.same s (if c then u.raise 0x9000 0 else u) := by
    intro c _ u hu
    split
    · exact Fld.same_trans hu (raise_same _ _ _ he)
    · exact hu
  unfold State.log
  dsimp only
  apply key
  have h0 : ∀ l : List FEntry, f.same s { s with flogRing := l } := by
    intro l; cases f <;> first | rfl | simp at h
  have h1 : ∀ u : State, f.same s u → f.same s ((u.wr Reg.FLOG_NEXT (s.rd Reg.FLOG_NEXT + 1)).bump Reg.FLOG_CNT_ENTRIES) :=
    fun u hu => Fld.same_trans hu (Fld.same_trans (wr_same _ _ _ hr) (wr_same _ _ _ hr))
  split
  · exact Fld.same_trans (Fld.same_trans (h1 _ (h0 _)) (wr_same _ _ _ hr)) (raise_same _ _ _ he)
  · exact h1 _ (h0 _)

theorem rd_log (s : State) (cls code id d : Nat) {a : Nat} (h : ¬ logReg a) : (s.log cls code id d).rd a = s.rd a := by
  simp only [logReg, not_or] at h
  obtain ⟨hm, h1, h2, h3, h4⟩ := h
  have key : ∀ (c : Prop) [Decidable c] (u : State), u.rd a = s.rd a → (if c then u.raise 0x9000 0 else u).rd a = s.rd a := by
    intro c _ u hu
    split
    · exact (rd_raise _ _ _ hm h4).trans hu
    · exact hu
  unfold State.log
  dsimp only
  apply key
  have e : ∀ u : State, u.rd a = s.rd a → ((u.wr Reg.FLOG_NEXT (s.rd Reg.FLOG_NEXT + 1)).bump Reg.FLOG_CNT_ENTRIES).rd a = s.rd a :=
    fun u hu => (rd_bump_ne _ h2).trans ((rd_wr_ne _ _ h1).trans hu)
  split
  · exact (rd_raise _ _ _ hm h4).trans ((rd_bump_ne _ h3).trans (e _ rfl))
  · exact e _ rfl

theorem logLimited_same {f : Fld} (s : State) (code p id d : Nat)
    (h : f ∉ [Fld.regs, .holding, .msix, .hevt, .out, .flogRing, .flogLast]) : f.same s (s.logLimited code p id d) := by
  unfold State.logLimited
  dsimp only
  split
  · exact Fld.same_refl _ _
  · exact Fld.same_trans (log_same s 0 code id d (by revert h; cases f <;> decide)) (by cases f <;> first | rfl | simp at h)

theorem rd_logLimited (s : State) (code p id d : Nat) {a : Nat} (h : ¬ logReg a) : (s.logLimited code p id d).rd a = s.rd a := by
  unfold State.logLimited
  dsimp only
  split
  · rfl
  · exact rd_log s 0 code id d h

theorem lockViol_same {f : Fld} (s : State) (req : Req) (a : Nat)
    (h : f ∉ [Fld.regs, .holding, .msix, .hevt, .out, .flogRing, .flogLast]) : f.same s (s.lockViol req a) :=
  Fld.same_trans (Fld.same_trans (raise_same _ _ _ (by revert h; cases f <;> decide)) (wr_same _ _ _ (by revert h; cases f <;> decide)))
    (logLimited_same _ _ _ _ _ h)

theorem rd_lockViol (s : State) (req : Req) (a : Nat) {b : Nat} (h : ¬ logReg b) (h1 : b ≠ pageBase a + 0x10)
    (h2 : b ≠ Reg.LOCKVIOL_CNT) : (s.lockViol req a).rd b = s.rd b :=
  (rd_logLimited _ _ _ _ _ h).trans ((rd_bump_ne _ h2).trans (rd_raise _ _ _ (fun e => h (.inl e)) h1))

theorem keyViol_same {f : Fld} (s : State) (req : Req) (a : Nat)
    (h : f ∉ [Fld.regs, .holding, .msix, .hevt, .out, .flogRing, .flogLast]) : f.same s (s.keyViol req a) :=
  Fld.same_trans (Fld.same_trans (raise_same _ _ _ (by revert h; cases f <;> decide)) (wr_same _ _ _ (by revert h; cases f <;> decide)))
    (logLimited_same _ _ _ _ _ h)

theorem rd_keyViol (s : State) (req : Req) (a : Nat) {b : Nat} (h : ¬ logReg b) (h1 : b ≠ pageBase a + 0x10)
    (h2 : b ≠ Reg.KEYVIOL_CNT) : (s.keyViol req a).rd b = s.rd b :=
  (rd_logLimited _ _ _ _ _ h).trans ((rd_bump_ne _ h2).trans (rd_raise _ _ _ (fun e => h (.inl e)) h1))

/-! ## Raising an event -/

@[simp] theorem raise_free (s : State) (p b : Nat) : (s.raise p b).free = s.free :=
  raise_same (f := .free) s p b (by decide)
@[simp] theorem raise_mem (s : State) (p b : Nat) : (s.raise p b).mem = s.mem :=
  raise_same (f := .mem) s p b (by decide)
@[simp] theorem raise_flash (s : State) (p b : Nat) : (s.raise p b).flash = s.flash :=
  raise_same (f := .flash) s p b (by decide)
@[simp] theorem raise_held (s : State) (p b : Nat) : (s.raise p b).held = s.held :=
  raise_same (f := .held) s p b (by decide)
@[simp] theorem raise_wosDone (s : State) (p b : Nat) : (s.raise p b).wosDone = s.wosDone :=
  raise_same (f := .wosDone) s p b (by decide)
@[simp] theorem raise_shadow (s : State) (p b : Nat) : (s.raise p b).shadow = s.shadow :=
  raise_same (f := .shadow) s p b (by decide)
@[simp] theorem raise_snapAt (s : State) (p b : Nat) : (s.raise p b).snapAt = s.snapAt :=
  raise_same (f := .snapAt) s p b (by decide)
@[simp] theorem raise_clk (s : State) (p b : Nat) : (s.raise p b).clk = s.clk :=
  raise_same (f := .clk) s p b (by decide)
@[simp] theorem raise_pairs (s : State) (p b : Nat) : (s.raise p b).pairs = s.pairs :=
  raise_same (f := .pairs) s p b (by decide)
@[simp] theorem raise_flogRing (s : State) (p b : Nat) : (s.raise p b).flogRing = s.flogRing :=
  raise_same (f := .flogRing) s p b (by decide)
@[simp] theorem raise_flogFlash (s : State) (p b : Nat) : (s.raise p b).flogFlash = s.flogFlash :=
  raise_same (f := .flogFlash) s p b (by decide)
@[simp] theorem raise_flogLast (s : State) (p b : Nat) : (s.raise p b).flogLast = s.flogLast :=
  raise_same (f := .flogLast) s p b (by decide)
@[simp] theorem raise_fns (s : State) (p b : Nat) : (s.raise p b).fns = s.fns :=
  raise_same (f := .fns) s p b (by decide)
@[simp] theorem raise_numVfs (s : State) (p b : Nat) : (s.raise p b).numVfs = s.numVfs :=
  raise_same (f := .numVfs) s p b (by decide)
@[simp] theorem raise_vfEnable (s : State) (p b : Nat) : (s.raise p b).vfEnable = s.vfEnable :=
  raise_same (f := .vfEnable) s p b (by decide)
@[simp] theorem raise_qs (s : State) (p b : Nat) : (s.raise p b).qs = s.qs :=
  raise_same (f := .qs) s p b (by decide)
@[simp] theorem raise_rqs (s : State) (p b : Nat) : (s.raise p b).rqs = s.rqs :=
  raise_same (f := .rqs) s p b (by decide)
@[simp] theorem raise_profs (s : State) (p b : Nat) : (s.raise p b).profs = s.profs :=
  raise_same (f := .profs) s p b (by decide)
@[simp] theorem raise_items (s : State) (p b : Nat) : (s.raise p b).items = s.items :=
  raise_same (f := .items) s p b (by decide)
@[simp] theorem raise_nextSeq (s : State) (p b : Nat) : (s.raise p b).nextSeq = s.nextSeq :=
  raise_same (f := .nextSeq) s p b (by decide)
@[simp] theorem raise_dests (s : State) (p b : Nat) : (s.raise p b).dests = s.dests :=
  raise_same (f := .dests) s p b (by decide)
@[simp] theorem raise_egress (s : State) (p b : Nat) : (s.raise p b).egress = s.egress :=
  raise_same (f := .egress) s p b (by decide)
@[simp] theorem raise_rsn (s : State) (p b : Nat) : (s.raise p b).rsn = s.rsn :=
  raise_same (f := .rsn) s p b (by decide)
@[simp] theorem raise_svc (s : State) (p b : Nat) : (s.raise p b).svc = s.svc :=
  raise_same (f := .svc) s p b (by decide)
@[simp] theorem raise_parts (s : State) (p b : Nat) : (s.raise p b).parts = s.parts :=
  raise_same (f := .parts) s p b (by decide)
@[simp] theorem raise_vis (s : State) (p b : Nat) : (s.raise p b).vis = s.vis :=
  raise_same (f := .vis) s p b (by decide)
@[simp] theorem raise_ue (s : State) (p b : Nat) : (s.raise p b).ue = s.ue :=
  raise_same (f := .ue) s p b (by decide)
@[simp] theorem raise_ports (s : State) (p b : Nat) : (s.raise p b).ports = s.ports :=
  raise_same (f := .ports) s p b (by decide)
@[simp] theorem raise_ppActive (s : State) (p b : Nat) : (s.raise p b).ppActive = s.ppActive :=
  raise_same (f := .ppActive) s p b (by decide)
@[simp] theorem raise_tiles (s : State) (p b : Nat) : (s.raise p b).tiles = s.tiles :=
  raise_same (f := .tiles) s p b (by decide)
@[simp] theorem raise_ctxs (s : State) (p b : Nat) : (s.raise p b).ctxs = s.ctxs :=
  raise_same (f := .ctxs) s p b (by decide)
@[simp] theorem raise_batches (s : State) (p b : Nat) : (s.raise p b).batches = s.batches :=
  raise_same (f := .batches) s p b (by decide)
@[simp] theorem raise_batchNo (s : State) (p b : Nat) : (s.raise p b).batchNo = s.batchNo :=
  raise_same (f := .batchNo) s p b (by decide)
@[simp] theorem raise_batchUid (s : State) (p b : Nat) : (s.raise p b).batchUid = s.batchUid :=
  raise_same (f := .batchUid) s p b (by decide)
@[simp] theorem raise_batchHeld (s : State) (p b : Nat) : (s.raise p b).batchHeld = s.batchHeld :=
  raise_same (f := .batchHeld) s p b (by decide)
@[simp] theorem raise_arena (s : State) (p b : Nat) : (s.raise p b).arena = s.arena :=
  raise_same (f := .arena) s p b (by decide)
@[simp] theorem raise_handing (s : State) (p b : Nat) : (s.raise p b).handing = s.handing :=
  raise_same (f := .handing) s p b (by decide)
@[simp] theorem raise_rtcp (s : State) (p b : Nat) : (s.raise p b).rtcp = s.rtcp :=
  raise_same (f := .rtcp) s p b (by decide)
@[simp] theorem raise_ctxSnap (s : State) (p b : Nat) : (s.raise p b).ctxSnap = s.ctxSnap :=
  raise_same (f := .ctxSnap) s p b (by decide)
@[simp] theorem raise_vocs (s : State) (p b : Nat) : (s.raise p b).vocs = s.vocs :=
  raise_same (f := .vocs) s p b (by decide)
@[simp] theorem raise_norms (s : State) (p b : Nat) : (s.raise p b).norms = s.norms :=
  raise_same (f := .norms) s p b (by decide)
@[simp] theorem raise_grms (s : State) (p b : Nat) : (s.raise p b).grms = s.grms :=
  raise_same (f := .grms) s p b (by decide)
@[simp] theorem raise_lexs (s : State) (p b : Nat) : (s.raise p b).lexs = s.lexs :=
  raise_same (f := .lexs) s p b (by decide)
@[simp] theorem raise_gctxs (s : State) (p b : Nat) : (s.raise p b).gctxs = s.gctxs :=
  raise_same (f := .gctxs) s p b (by decide)
@[simp] theorem raise_gctxGen (s : State) (p b : Nat) : (s.raise p b).gctxGen = s.gctxGen :=
  raise_same (f := .gctxGen) s p b (by decide)
@[simp] theorem raise_seqs (s : State) (p b : Nat) : (s.raise p b).seqs = s.seqs :=
  raise_same (f := .seqs) s p b (by decide)
@[simp] theorem raise_seqGen (s : State) (p b : Nat) : (s.raise p b).seqGen = s.seqGen :=
  raise_same (f := .seqGen) s p b (by decide)
@[simp] theorem raise_aunits (s : State) (p b : Nat) : (s.raise p b).aunits = s.aunits :=
  raise_same (f := .aunits) s p b (by decide)
@[simp] theorem raise_chans (s : State) (p b : Nat) : (s.raise p b).chans = s.chans :=
  raise_same (f := .chans) s p b (by decide)
@[simp] theorem raise_sc (s : State) (p b : Nat) : (s.raise p b).sc = s.sc :=
  raise_same (f := .sc) s p b (by decide)
@[simp] theorem raise_harts (s : State) (p b : Nat) : (s.raise p b).harts = s.harts :=
  raise_same (f := .harts) s p b (by decide)
@[simp] theorem raise_cores (s : State) (p b : Nat) : (s.raise p b).cores = s.cores :=
  raise_same (f := .cores) s p b (by decide)
@[simp] theorem raise_fwProg (s : State) (p b : Nat) : (s.raise p b).fwProg = s.fwProg :=
  raise_same (f := .fwProg) s p b (by decide)
@[simp] theorem raise_warden (s : State) (p b : Nat) : (s.raise p b).warden = s.warden :=
  raise_same (f := .warden) s p b (by decide)
@[simp] theorem raise_vsaved (s : State) (p b : Nat) : (s.raise p b).vsaved = s.vsaved :=
  raise_same (f := .vsaved) s p b (by decide)
@[simp] theorem raise_pcmd (s : State) (p b : Nat) : (s.raise p b).pcmd = s.pcmd :=
  raise_same (f := .pcmd) s p b (by decide)
@[simp] theorem raise_klinks (s : State) (p b : Nat) : (s.raise p b).klinks = s.klinks :=
  raise_same (f := .klinks) s p b (by decide)
@[simp] theorem raise_kal (s : State) (p b : Nat) : (s.raise p b).kal = s.kal :=
  raise_same (f := .kal) s p b (by decide)
@[simp] theorem raise_health (s : State) (p b : Nat) : (s.raise p b).health = s.health :=
  raise_same (f := .health) s p b (by decide)
@[simp] theorem raise_emg (s : State) (p b : Nat) : (s.raise p b).emg = s.emg :=
  raise_same (f := .emg) s p b (by decide)
@[simp] theorem raise_pins (s : State) (p b : Nat) : (s.raise p b).pins = s.pins :=
  raise_same (f := .pins) s p b (by decide)
@[simp] theorem raise_alert (s : State) (p b : Nat) : (s.raise p b).alert = s.alert :=
  raise_same (f := .alert) s p b (by decide)
@[simp] theorem raise_copyAt (s : State) (p b : Nat) : (s.raise p b).copyAt = s.copyAt :=
  raise_same (f := .copyAt) s p b (by decide)

/-! ## Signalling a channel -/

@[simp] theorem signal_free (s : State) (c : Nat) : (s.signal c).free = s.free :=
  signal_same (f := .free) s c (by decide)
@[simp] theorem signal_mem (s : State) (c : Nat) : (s.signal c).mem = s.mem :=
  signal_same (f := .mem) s c (by decide)
@[simp] theorem signal_flash (s : State) (c : Nat) : (s.signal c).flash = s.flash :=
  signal_same (f := .flash) s c (by decide)
@[simp] theorem signal_held (s : State) (c : Nat) : (s.signal c).held = s.held :=
  signal_same (f := .held) s c (by decide)
@[simp] theorem signal_wosDone (s : State) (c : Nat) : (s.signal c).wosDone = s.wosDone :=
  signal_same (f := .wosDone) s c (by decide)
@[simp] theorem signal_shadow (s : State) (c : Nat) : (s.signal c).shadow = s.shadow :=
  signal_same (f := .shadow) s c (by decide)
@[simp] theorem signal_snapAt (s : State) (c : Nat) : (s.signal c).snapAt = s.snapAt :=
  signal_same (f := .snapAt) s c (by decide)
@[simp] theorem signal_clk (s : State) (c : Nat) : (s.signal c).clk = s.clk :=
  signal_same (f := .clk) s c (by decide)
@[simp] theorem signal_pairs (s : State) (c : Nat) : (s.signal c).pairs = s.pairs :=
  signal_same (f := .pairs) s c (by decide)
@[simp] theorem signal_flogRing (s : State) (c : Nat) : (s.signal c).flogRing = s.flogRing :=
  signal_same (f := .flogRing) s c (by decide)
@[simp] theorem signal_flogFlash (s : State) (c : Nat) : (s.signal c).flogFlash = s.flogFlash :=
  signal_same (f := .flogFlash) s c (by decide)
@[simp] theorem signal_flogLast (s : State) (c : Nat) : (s.signal c).flogLast = s.flogLast :=
  signal_same (f := .flogLast) s c (by decide)
@[simp] theorem signal_fns (s : State) (c : Nat) : (s.signal c).fns = s.fns :=
  signal_same (f := .fns) s c (by decide)
@[simp] theorem signal_numVfs (s : State) (c : Nat) : (s.signal c).numVfs = s.numVfs :=
  signal_same (f := .numVfs) s c (by decide)
@[simp] theorem signal_vfEnable (s : State) (c : Nat) : (s.signal c).vfEnable = s.vfEnable :=
  signal_same (f := .vfEnable) s c (by decide)
@[simp] theorem signal_qs (s : State) (c : Nat) : (s.signal c).qs = s.qs :=
  signal_same (f := .qs) s c (by decide)
@[simp] theorem signal_rqs (s : State) (c : Nat) : (s.signal c).rqs = s.rqs :=
  signal_same (f := .rqs) s c (by decide)
@[simp] theorem signal_profs (s : State) (c : Nat) : (s.signal c).profs = s.profs :=
  signal_same (f := .profs) s c (by decide)
@[simp] theorem signal_items (s : State) (c : Nat) : (s.signal c).items = s.items :=
  signal_same (f := .items) s c (by decide)
@[simp] theorem signal_nextSeq (s : State) (c : Nat) : (s.signal c).nextSeq = s.nextSeq :=
  signal_same (f := .nextSeq) s c (by decide)
@[simp] theorem signal_dests (s : State) (c : Nat) : (s.signal c).dests = s.dests :=
  signal_same (f := .dests) s c (by decide)
@[simp] theorem signal_egress (s : State) (c : Nat) : (s.signal c).egress = s.egress :=
  signal_same (f := .egress) s c (by decide)
@[simp] theorem signal_rsn (s : State) (c : Nat) : (s.signal c).rsn = s.rsn :=
  signal_same (f := .rsn) s c (by decide)
@[simp] theorem signal_svc (s : State) (c : Nat) : (s.signal c).svc = s.svc :=
  signal_same (f := .svc) s c (by decide)
@[simp] theorem signal_parts (s : State) (c : Nat) : (s.signal c).parts = s.parts :=
  signal_same (f := .parts) s c (by decide)
@[simp] theorem signal_vis (s : State) (c : Nat) : (s.signal c).vis = s.vis :=
  signal_same (f := .vis) s c (by decide)
@[simp] theorem signal_ue (s : State) (c : Nat) : (s.signal c).ue = s.ue :=
  signal_same (f := .ue) s c (by decide)
@[simp] theorem signal_ports (s : State) (c : Nat) : (s.signal c).ports = s.ports :=
  signal_same (f := .ports) s c (by decide)
@[simp] theorem signal_ppActive (s : State) (c : Nat) : (s.signal c).ppActive = s.ppActive :=
  signal_same (f := .ppActive) s c (by decide)
@[simp] theorem signal_tiles (s : State) (c : Nat) : (s.signal c).tiles = s.tiles :=
  signal_same (f := .tiles) s c (by decide)
@[simp] theorem signal_ctxs (s : State) (c : Nat) : (s.signal c).ctxs = s.ctxs :=
  signal_same (f := .ctxs) s c (by decide)
@[simp] theorem signal_batches (s : State) (c : Nat) : (s.signal c).batches = s.batches :=
  signal_same (f := .batches) s c (by decide)
@[simp] theorem signal_batchNo (s : State) (c : Nat) : (s.signal c).batchNo = s.batchNo :=
  signal_same (f := .batchNo) s c (by decide)
@[simp] theorem signal_batchUid (s : State) (c : Nat) : (s.signal c).batchUid = s.batchUid :=
  signal_same (f := .batchUid) s c (by decide)
@[simp] theorem signal_batchHeld (s : State) (c : Nat) : (s.signal c).batchHeld = s.batchHeld :=
  signal_same (f := .batchHeld) s c (by decide)
@[simp] theorem signal_arena (s : State) (c : Nat) : (s.signal c).arena = s.arena :=
  signal_same (f := .arena) s c (by decide)
@[simp] theorem signal_handing (s : State) (c : Nat) : (s.signal c).handing = s.handing :=
  signal_same (f := .handing) s c (by decide)
@[simp] theorem signal_rtcp (s : State) (c : Nat) : (s.signal c).rtcp = s.rtcp :=
  signal_same (f := .rtcp) s c (by decide)
@[simp] theorem signal_ctxSnap (s : State) (c : Nat) : (s.signal c).ctxSnap = s.ctxSnap :=
  signal_same (f := .ctxSnap) s c (by decide)
@[simp] theorem signal_vocs (s : State) (c : Nat) : (s.signal c).vocs = s.vocs :=
  signal_same (f := .vocs) s c (by decide)
@[simp] theorem signal_norms (s : State) (c : Nat) : (s.signal c).norms = s.norms :=
  signal_same (f := .norms) s c (by decide)
@[simp] theorem signal_grms (s : State) (c : Nat) : (s.signal c).grms = s.grms :=
  signal_same (f := .grms) s c (by decide)
@[simp] theorem signal_lexs (s : State) (c : Nat) : (s.signal c).lexs = s.lexs :=
  signal_same (f := .lexs) s c (by decide)
@[simp] theorem signal_gctxs (s : State) (c : Nat) : (s.signal c).gctxs = s.gctxs :=
  signal_same (f := .gctxs) s c (by decide)
@[simp] theorem signal_gctxGen (s : State) (c : Nat) : (s.signal c).gctxGen = s.gctxGen :=
  signal_same (f := .gctxGen) s c (by decide)
@[simp] theorem signal_seqs (s : State) (c : Nat) : (s.signal c).seqs = s.seqs :=
  signal_same (f := .seqs) s c (by decide)
@[simp] theorem signal_seqGen (s : State) (c : Nat) : (s.signal c).seqGen = s.seqGen :=
  signal_same (f := .seqGen) s c (by decide)
@[simp] theorem signal_aunits (s : State) (c : Nat) : (s.signal c).aunits = s.aunits :=
  signal_same (f := .aunits) s c (by decide)
@[simp] theorem signal_chans (s : State) (c : Nat) : (s.signal c).chans = s.chans :=
  signal_same (f := .chans) s c (by decide)
@[simp] theorem signal_sc (s : State) (c : Nat) : (s.signal c).sc = s.sc :=
  signal_same (f := .sc) s c (by decide)
@[simp] theorem signal_harts (s : State) (c : Nat) : (s.signal c).harts = s.harts :=
  signal_same (f := .harts) s c (by decide)
@[simp] theorem signal_cores (s : State) (c : Nat) : (s.signal c).cores = s.cores :=
  signal_same (f := .cores) s c (by decide)
@[simp] theorem signal_fwProg (s : State) (c : Nat) : (s.signal c).fwProg = s.fwProg :=
  signal_same (f := .fwProg) s c (by decide)
@[simp] theorem signal_warden (s : State) (c : Nat) : (s.signal c).warden = s.warden :=
  signal_same (f := .warden) s c (by decide)
@[simp] theorem signal_vsaved (s : State) (c : Nat) : (s.signal c).vsaved = s.vsaved :=
  signal_same (f := .vsaved) s c (by decide)
@[simp] theorem signal_pcmd (s : State) (c : Nat) : (s.signal c).pcmd = s.pcmd :=
  signal_same (f := .pcmd) s c (by decide)
@[simp] theorem signal_klinks (s : State) (c : Nat) : (s.signal c).klinks = s.klinks :=
  signal_same (f := .klinks) s c (by decide)
@[simp] theorem signal_kal (s : State) (c : Nat) : (s.signal c).kal = s.kal :=
  signal_same (f := .kal) s c (by decide)
@[simp] theorem signal_health (s : State) (c : Nat) : (s.signal c).health = s.health :=
  signal_same (f := .health) s c (by decide)
@[simp] theorem signal_emg (s : State) (c : Nat) : (s.signal c).emg = s.emg :=
  signal_same (f := .emg) s c (by decide)
@[simp] theorem signal_pins (s : State) (c : Nat) : (s.signal c).pins = s.pins :=
  signal_same (f := .pins) s c (by decide)
@[simp] theorem signal_alert (s : State) (c : Nat) : (s.signal c).alert = s.alert :=
  signal_same (f := .alert) s c (by decide)
@[simp] theorem signal_copyAt (s : State) (c : Nat) : (s.signal c).copyAt = s.copyAt :=
  signal_same (f := .copyAt) s c (by decide)

/-! ## Logging -/

@[simp] theorem log_free (s : State) (a b c d : Nat) : (s.log a b c d).free = s.free :=
  log_same (f := .free) s a b c d (by decide)
@[simp] theorem log_mem (s : State) (a b c d : Nat) : (s.log a b c d).mem = s.mem :=
  log_same (f := .mem) s a b c d (by decide)
@[simp] theorem log_flash (s : State) (a b c d : Nat) : (s.log a b c d).flash = s.flash :=
  log_same (f := .flash) s a b c d (by decide)
@[simp] theorem log_held (s : State) (a b c d : Nat) : (s.log a b c d).held = s.held :=
  log_same (f := .held) s a b c d (by decide)
@[simp] theorem log_wosDone (s : State) (a b c d : Nat) : (s.log a b c d).wosDone = s.wosDone :=
  log_same (f := .wosDone) s a b c d (by decide)
@[simp] theorem log_shadow (s : State) (a b c d : Nat) : (s.log a b c d).shadow = s.shadow :=
  log_same (f := .shadow) s a b c d (by decide)
@[simp] theorem log_snapAt (s : State) (a b c d : Nat) : (s.log a b c d).snapAt = s.snapAt :=
  log_same (f := .snapAt) s a b c d (by decide)
@[simp] theorem log_clk (s : State) (a b c d : Nat) : (s.log a b c d).clk = s.clk :=
  log_same (f := .clk) s a b c d (by decide)
@[simp] theorem log_pairs (s : State) (a b c d : Nat) : (s.log a b c d).pairs = s.pairs :=
  log_same (f := .pairs) s a b c d (by decide)
@[simp] theorem log_flogFlash (s : State) (a b c d : Nat) : (s.log a b c d).flogFlash = s.flogFlash :=
  log_same (f := .flogFlash) s a b c d (by decide)
@[simp] theorem log_flogLast (s : State) (a b c d : Nat) : (s.log a b c d).flogLast = s.flogLast :=
  log_same (f := .flogLast) s a b c d (by decide)
@[simp] theorem log_fns (s : State) (a b c d : Nat) : (s.log a b c d).fns = s.fns :=
  log_same (f := .fns) s a b c d (by decide)
@[simp] theorem log_numVfs (s : State) (a b c d : Nat) : (s.log a b c d).numVfs = s.numVfs :=
  log_same (f := .numVfs) s a b c d (by decide)
@[simp] theorem log_vfEnable (s : State) (a b c d : Nat) : (s.log a b c d).vfEnable = s.vfEnable :=
  log_same (f := .vfEnable) s a b c d (by decide)
@[simp] theorem log_qs (s : State) (a b c d : Nat) : (s.log a b c d).qs = s.qs :=
  log_same (f := .qs) s a b c d (by decide)
@[simp] theorem log_rqs (s : State) (a b c d : Nat) : (s.log a b c d).rqs = s.rqs :=
  log_same (f := .rqs) s a b c d (by decide)
@[simp] theorem log_profs (s : State) (a b c d : Nat) : (s.log a b c d).profs = s.profs :=
  log_same (f := .profs) s a b c d (by decide)
@[simp] theorem log_items (s : State) (a b c d : Nat) : (s.log a b c d).items = s.items :=
  log_same (f := .items) s a b c d (by decide)
@[simp] theorem log_nextSeq (s : State) (a b c d : Nat) : (s.log a b c d).nextSeq = s.nextSeq :=
  log_same (f := .nextSeq) s a b c d (by decide)
@[simp] theorem log_dests (s : State) (a b c d : Nat) : (s.log a b c d).dests = s.dests :=
  log_same (f := .dests) s a b c d (by decide)
@[simp] theorem log_egress (s : State) (a b c d : Nat) : (s.log a b c d).egress = s.egress :=
  log_same (f := .egress) s a b c d (by decide)
@[simp] theorem log_rsn (s : State) (a b c d : Nat) : (s.log a b c d).rsn = s.rsn :=
  log_same (f := .rsn) s a b c d (by decide)
@[simp] theorem log_svc (s : State) (a b c d : Nat) : (s.log a b c d).svc = s.svc :=
  log_same (f := .svc) s a b c d (by decide)
@[simp] theorem log_parts (s : State) (a b c d : Nat) : (s.log a b c d).parts = s.parts :=
  log_same (f := .parts) s a b c d (by decide)
@[simp] theorem log_vis (s : State) (a b c d : Nat) : (s.log a b c d).vis = s.vis :=
  log_same (f := .vis) s a b c d (by decide)
@[simp] theorem log_ue (s : State) (a b c d : Nat) : (s.log a b c d).ue = s.ue :=
  log_same (f := .ue) s a b c d (by decide)
@[simp] theorem log_ports (s : State) (a b c d : Nat) : (s.log a b c d).ports = s.ports :=
  log_same (f := .ports) s a b c d (by decide)
@[simp] theorem log_ppActive (s : State) (a b c d : Nat) : (s.log a b c d).ppActive = s.ppActive :=
  log_same (f := .ppActive) s a b c d (by decide)
@[simp] theorem log_tiles (s : State) (a b c d : Nat) : (s.log a b c d).tiles = s.tiles :=
  log_same (f := .tiles) s a b c d (by decide)
@[simp] theorem log_ctxs (s : State) (a b c d : Nat) : (s.log a b c d).ctxs = s.ctxs :=
  log_same (f := .ctxs) s a b c d (by decide)
@[simp] theorem log_batches (s : State) (a b c d : Nat) : (s.log a b c d).batches = s.batches :=
  log_same (f := .batches) s a b c d (by decide)
@[simp] theorem log_batchNo (s : State) (a b c d : Nat) : (s.log a b c d).batchNo = s.batchNo :=
  log_same (f := .batchNo) s a b c d (by decide)
@[simp] theorem log_batchUid (s : State) (a b c d : Nat) : (s.log a b c d).batchUid = s.batchUid :=
  log_same (f := .batchUid) s a b c d (by decide)
@[simp] theorem log_batchHeld (s : State) (a b c d : Nat) : (s.log a b c d).batchHeld = s.batchHeld :=
  log_same (f := .batchHeld) s a b c d (by decide)
@[simp] theorem log_arena (s : State) (a b c d : Nat) : (s.log a b c d).arena = s.arena :=
  log_same (f := .arena) s a b c d (by decide)
@[simp] theorem log_handing (s : State) (a b c d : Nat) : (s.log a b c d).handing = s.handing :=
  log_same (f := .handing) s a b c d (by decide)
@[simp] theorem log_rtcp (s : State) (a b c d : Nat) : (s.log a b c d).rtcp = s.rtcp :=
  log_same (f := .rtcp) s a b c d (by decide)
@[simp] theorem log_ctxSnap (s : State) (a b c d : Nat) : (s.log a b c d).ctxSnap = s.ctxSnap :=
  log_same (f := .ctxSnap) s a b c d (by decide)
@[simp] theorem log_vocs (s : State) (a b c d : Nat) : (s.log a b c d).vocs = s.vocs :=
  log_same (f := .vocs) s a b c d (by decide)
@[simp] theorem log_norms (s : State) (a b c d : Nat) : (s.log a b c d).norms = s.norms :=
  log_same (f := .norms) s a b c d (by decide)
@[simp] theorem log_grms (s : State) (a b c d : Nat) : (s.log a b c d).grms = s.grms :=
  log_same (f := .grms) s a b c d (by decide)
@[simp] theorem log_lexs (s : State) (a b c d : Nat) : (s.log a b c d).lexs = s.lexs :=
  log_same (f := .lexs) s a b c d (by decide)
@[simp] theorem log_gctxs (s : State) (a b c d : Nat) : (s.log a b c d).gctxs = s.gctxs :=
  log_same (f := .gctxs) s a b c d (by decide)
@[simp] theorem log_gctxGen (s : State) (a b c d : Nat) : (s.log a b c d).gctxGen = s.gctxGen :=
  log_same (f := .gctxGen) s a b c d (by decide)
@[simp] theorem log_seqs (s : State) (a b c d : Nat) : (s.log a b c d).seqs = s.seqs :=
  log_same (f := .seqs) s a b c d (by decide)
@[simp] theorem log_seqGen (s : State) (a b c d : Nat) : (s.log a b c d).seqGen = s.seqGen :=
  log_same (f := .seqGen) s a b c d (by decide)
@[simp] theorem log_aunits (s : State) (a b c d : Nat) : (s.log a b c d).aunits = s.aunits :=
  log_same (f := .aunits) s a b c d (by decide)
@[simp] theorem log_chans (s : State) (a b c d : Nat) : (s.log a b c d).chans = s.chans :=
  log_same (f := .chans) s a b c d (by decide)
@[simp] theorem log_sc (s : State) (a b c d : Nat) : (s.log a b c d).sc = s.sc :=
  log_same (f := .sc) s a b c d (by decide)
@[simp] theorem log_harts (s : State) (a b c d : Nat) : (s.log a b c d).harts = s.harts :=
  log_same (f := .harts) s a b c d (by decide)
@[simp] theorem log_cores (s : State) (a b c d : Nat) : (s.log a b c d).cores = s.cores :=
  log_same (f := .cores) s a b c d (by decide)
@[simp] theorem log_fwProg (s : State) (a b c d : Nat) : (s.log a b c d).fwProg = s.fwProg :=
  log_same (f := .fwProg) s a b c d (by decide)
@[simp] theorem log_warden (s : State) (a b c d : Nat) : (s.log a b c d).warden = s.warden :=
  log_same (f := .warden) s a b c d (by decide)
@[simp] theorem log_vsaved (s : State) (a b c d : Nat) : (s.log a b c d).vsaved = s.vsaved :=
  log_same (f := .vsaved) s a b c d (by decide)
@[simp] theorem log_pcmd (s : State) (a b c d : Nat) : (s.log a b c d).pcmd = s.pcmd :=
  log_same (f := .pcmd) s a b c d (by decide)
@[simp] theorem log_klinks (s : State) (a b c d : Nat) : (s.log a b c d).klinks = s.klinks :=
  log_same (f := .klinks) s a b c d (by decide)
@[simp] theorem log_kal (s : State) (a b c d : Nat) : (s.log a b c d).kal = s.kal :=
  log_same (f := .kal) s a b c d (by decide)
@[simp] theorem log_health (s : State) (a b c d : Nat) : (s.log a b c d).health = s.health :=
  log_same (f := .health) s a b c d (by decide)
@[simp] theorem log_emg (s : State) (a b c d : Nat) : (s.log a b c d).emg = s.emg :=
  log_same (f := .emg) s a b c d (by decide)
@[simp] theorem log_pins (s : State) (a b c d : Nat) : (s.log a b c d).pins = s.pins :=
  log_same (f := .pins) s a b c d (by decide)
@[simp] theorem log_alert (s : State) (a b c d : Nat) : (s.log a b c d).alert = s.alert :=
  log_same (f := .alert) s a b c d (by decide)
@[simp] theorem log_copyAt (s : State) (a b c d : Nat) : (s.log a b c d).copyAt = s.copyAt :=
  log_same (f := .copyAt) s a b c d (by decide)


end Sys2Proof.Machine
end

