-- ==== Sys2Proof/Laws/Queue.lean ====
section
/-! SUPPORT. What the queue engine's operations can change, and where a queue stands after a completion. -/
namespace Sys2Proof.Machine

/-- The fields that a unit's store may change. -/
def stFlds : List Fld := [.mem, .harts, .ue, .sc, .regs]

theorem st_same {f : Fld} (s : State) (a : Nat) (b : Bytes) (h : f ∉ [Fld.mem, .harts]) : f.same s (s.st a b) := by
  cases f <;> first | rfl | simp at h

theorem clearUe_same {f : Fld} (s : State) (a n : Nat) (h : f ∉ [Fld.ue]) : f.same s (s.clearUe a n) := by
  cases f <;> first | rfl | simp at h

theorem foldl_same {β : Type} {f : Fld} (g : State → β → State) (hg : ∀ s e, f.same s (g s e)) (l : List β) (s : State) :
    f.same s (l.foldl g s) := by
  induction l generalizing s with
  | nil => exact Fld.same_refl _ _
  | cons e l ih => exact Fld.same_trans (hg s e) (ih _)

theorem stUnit_same {f : Fld} (s : State) (a : Nat) (b : Bytes) (h : f ∉ stFlds) : f.same s (s.stUnit a b) := by
  have h1 : f ∉ [Fld.mem, .harts] := by revert h; cases f <;> decide
  have h2 : f ∉ [Fld.ue] := by revert h; cases f <;> decide
  have h3 : f ∉ [Fld.regs] := by revert h; cases f <;> decide
  have hst : ∀ u : State, f.same u ((u.st a b).clearUe a b.length) :=
    fun u => Fld.same_trans (st_same u a b h1) (clearUe_same _ _ _ h2)
  have hfold : ∀ (p : Byte × Nat → Bool) (u : State), f.same u
      (b.zipIdx.foldl (fun t (e : Byte × Nat) => if p e then t.st (a + e.2) [e.1] else t) u) := by
    intro p u
    refine foldl_same _ (fun t e => ?_) _ _
    split
    · exact st_same _ _ _ h1
    · exact Fld.same_refl _ _
  unfold State.stUnit
  dsimp only
  split
  · split
    · exact hst _
    · exact Fld.same_trans (hfold _ _) (wr_same _ _ _ h3)
  · split
    · exact Fld.same_trans (by cases f <;> first | rfl | simp [stFlds] at h) (hst _)
    · split
      · exact Fld.same_trans (hfold _ _) (clearUe_same _ _ _ h2)
      · exact hst _

/-- The fields that the completion of a queue command may change. -/
def postFlds : List Fld := [.mem, .harts, .ue, .sc, .regs, .holding, .msix, .hevt, .out, .qs, .gctxs]

theorem writeBack_same {f : Fld} (s : State) (q : Queue) (h : f ∉ stFlds) : f.same s (s.writeBack q) := by
  unfold State.writeBack; split
  · exact stUnit_same _ _ _ h
  · exact Fld.same_refl _ _

theorem qMessage_same {f : Fld} (s : State) (q : Queue) (h : f ∉ [Fld.regs, .holding, .msix, .hevt, .out]) :
    f.same s (s.qMessage q) := by
  unfold State.qMessage; split
  · exact Fld.same_refl _ _
  · split
    · exact signal_same _ _ h
    · exact msixSend_same _ _ _ (by revert h; cases f <;> decide)

theorem setQueue_same {f : Fld} (s : State) (g : Nat) (q : Queue) (h : f ∉ [Fld.qs]) : f.same s (s.setQueue g q) := by
  cases f <;> first | rfl | simp at h

@[simp] theorem queue_setQueue (s : State) (g : Nat) (q : Queue) : (s.setQueue g q).queue g = q := by
  simp [State.queue, State.setQueue]

theorem queue_setQueue_ne (s : State) {g k : Nat} (q : Queue) (h : k ≠ g) : (s.setQueue g q).queue k = s.queue k :=
  Tab.get_set_ne _ _ _ h

theorem postEntries_same {f : Fld} (s : State) (g : Nat) (q : Queue) (es : List Bytes) (h : f ∉ postFlds) :
    f.same s (s.postEntries g q es) := by
  have h1 : f ∉ stFlds := by revert h; cases f <;> decide
  have h2 : f ∉ [Fld.regs, .holding, .msix, .hevt, .out] := by revert h; cases f <;> decide
  have h3 : f ∉ [Fld.qs] := by revert h; cases f <;> decide
  unfold State.postEntries
  dsimp only
  have e : f.same s (es.zipIdx.foldl (fun (t : State) (e : Bytes × Nat) =>
      if t.canWrite q.fnOf (q.cq + 64 * ((q.cqTail + e.2) % 2 ^ q.logM)) 64 = .ok
      then t.stUnit (q.cq + 64 * ((q.cqTail + e.2) % 2 ^ q.logM)) e.1 else t) s) := by
    refine foldl_same _ (fun t e => ?_) _ _
    split
    · exact stUnit_same _ _ _ h1
    · exact Fld.same_refl _ _
  split
  · exact Fld.same_trans (Fld.same_trans (Fld.same_trans e (setQueue_same _ _ _ h3)) (writeBack_same _ _ h1)) (qMessage_same _ _ h2)
  · exact Fld.same_trans (Fld.same_trans e (setQueue_same _ _ _ h3)) (writeBack_same _ _ h1)

/-- The queue after its entries are posted: its completion tail has moved past them, its head is as given. -/
theorem postEntries_queue (s : State) (g : Nat) (q : Queue) (es : List Bytes) :
    ((s.postEntries g q es).queue g).head = q.head ∧ ((s.postEntries g q es).queue g).cur = q.cur ∧
    ((s.postEntries g q es).queue g).cqTail = (q.cqTail + es.length) % 65536 ∧
    ((s.postEntries g q es).queue g).state = q.state := by
  have hw : ∀ (t : State) (x : Queue), ((t.setQueue g x).writeBack x).queue g = x := by
    intro t x
    have := writeBack_same (f := .qs) (t.setQueue g x) x (by decide)
    unfold State.queue; rw [show ((t.setQueue g x).writeBack x).qs = (t.setQueue g x).qs from this]; simp [State.setQueue]
  have hm : ∀ (t : State) (x : Queue), (t.qMessage x).queue g = t.queue g := by
    intro t x
    unfold State.queue; rw [show (t.qMessage x).qs = t.qs from qMessage_same (f := .qs) t x (by decide)]
  unfold State.postEntries
  dsimp only
  split <;> simp only [hm, hw] <;> simp

theorem queueOff_same {f : Fld} (s : State) (g : Nat) (h : f ∉ [Fld.qs, .gctxs, .regs]) : f.same s (s.queueOff g) := by
  unfold State.queueOff
  refine Fld.same_trans (t := { s with qs := s.qs.set {} g {}, gctxs := _ }) ?_ (wr_same _ _ _ ?_)
  · cases f <;> first | rfl | simp at h
  · revert h; cases f <;> decide

/-- A completion changes the queue, its entries in memory, and what its message changes. -/
theorem complete_same {f : Fld} (s : State) (g : Nat) (st : St) (r : Nat) (h : f ∉ postFlds) : f.same s (s.complete g st r) := by
  unfold State.complete
  dsimp only
  split
  · exact Fld.same_refl _ _
  · split
    · exact postEntries_same _ _ _ _ h
    · exact postEntries_same _ _ _ _ h
    · exact queueOff_same _ _ (by revert h; cases f <;> decide)

/-- The head of a queue that goes on advances past the completed command, and the queue executes none. -/
theorem complete_queue (s : State) (g : Nat) (st : St) (r : Nat) {d : BitVec 512} (hc : (s.queue g).cur = some d)
    (hs : (s.queue g).state = .run ∨ (s.queue g).state = .error) :
    ((s.complete g st r).queue g).head = ((s.queue g).head + slotsOf (opcodeOf d)) % 65536 ∧
    ((s.complete g st r).queue g).cur = none := by
  unfold State.complete
  simp only [hc]
  rcases hs with h | h <;> simp only [h] <;> exact ⟨(postEntries_queue _ _ _ _).1, (postEntries_queue _ _ _ _).2.1⟩

/-- A queue that executes a command of the named opcode has its effect and completes. -/
theorem execCmd_eq (s : State) {g op : Nat} (k : Queue → Bytes → State × St × Nat) {d : BitVec 512}
    (h : s.executing g op = some d) (hf : s.tagFenced (s.queue g) = false) :
    s.execCmd g op k = (k (s.queue g) (cmdBytes d)).1.complete g (k (s.queue g) (cmdBytes d)).2.1 (k (s.queue g) (cmdBytes d)).2.2 := by
  unfold State.execCmd; simp [h, hf]

/-- The command that a queue executes stands in it. -/
theorem executing_cur {s : State} {g op : Nat} {d : BitVec 512} (h : s.executing g op = some d) :
    (s.queue g).cur = some d ∧ opcodeOf d = op := by
  unfold State.executing at h
  split at h
  all_goals first | (split at h <;> simp at h <;> subst h <;> constructor <;> assumption) | simp at h

end Sys2Proof.Machine
end

