-- ==== Sys2Proof/Laws/Gate.lean ====
section
/-! SUPPORT. Items and their records: what forming a record, an overrun and a completion leave as it was. -/
namespace Sys2Proof.Machine

@[simp] theorem item_setItem (s : State) (id : Nat) (it : Item) : (s.setItem id it).item id = some it := by
  simp [State.item, State.setItem]

@[simp] theorem item_freeItem (s : State) (id : Nat) : (s.freeItem id).item id = none := by simp [State.item, State.freeItem]

/-- An item of the next state is that of `t` when the command may change items. -/
theorem taken_item (s t : State) {w : List Fld} (h : .items ∈ w) (id : Nat) : (s.taken t w).item id = t.item id := by
  simp [State.item, h]

/-- An operation that keeps the item table keeps every item. -/
theorem item_of_same {s t : State} (h : Fld.items.same s t) (id : Nat) : t.item id = s.item id := by
  unfold State.item; rw [show t.items = s.items from h]

theorem complete_item (s : State) (g : Nat) (st : St) (r id : Nat) : (s.complete g st r).item id = s.item id :=
  item_of_same (complete_same (f := .items) s g st r (by decide)) id

theorem setItem_same {f : Fld} (s : State) (id : Nat) (it : Item) (h : f ∉ [Fld.items]) : f.same s (s.setItem id it) := by
  cases f <;> first | rfl | simp at h

/-- A record put on its destinations changes their waiting records only. -/
theorem post_same {f : Fld} (s : State) (m : Nat) (r : OutRec) (h : f ∉ [Fld.egress]) : f.same s (s.post m r) := by
  unfold State.post
  refine foldl_same _ (fun t e => ?_) _ _
  dsimp only
  split
  · cases f <;> first | rfl | simp at h
  · exact Fld.same_refl _ _

theorem formNotice_same {f : Fld} (s : State) (id : Nat) (it : Item) (h : f ∉ [Fld.egress, .regs]) : f.same s (s.formNotice id it) :=
  Fld.same_trans (wr_same _ _ _ (by revert h; cases f <;> decide)) (post_same _ _ _ (by revert h; cases f <;> decide))

/-- The fields that forming a record may change. -/
def recFlds : List Fld := [.regs, .holding, .msix, .hevt, .out, .egress]

theorem formDecision_same {f : Fld} (s : State) (id : Nat) (it : Item) (c : SealCause) (stamp : Int) (h : f ∉ recFlds) :
    f.same s (s.formDecision id it c stamp).1 := by
  have hr : f ∉ [Fld.regs] := by revert h; cases f <;> decide
  have he : f ∉ [Fld.regs, .holding, .msix, .hevt, .out] := by revert h; cases f <;> decide
  have hg : f ∉ [Fld.egress] := by revert h; cases f <;> decide
  unfold State.formDecision
  dsimp only
  have a : f.same s (if (s.body it).isSome = true then s else (s.bump Reg.REC_CNT_COMMIT_BAD).raise 0x7000 0) := by
    split
    · exact Fld.same_refl _ _
    · exact Fld.same_trans (wr_same _ _ _ hr) (raise_same _ _ _ he)
  generalize (if (s.body it).isSome = true then s else (s.bump Reg.REC_CNT_COMMIT_BAD).raise 0x7000 0) = u at a
  have b : ∀ n : Nat, f.same u (match n with
      | 2 => u.bump Reg.GT_CNT_DEFAULTED
      | 1 => u.bump Reg.GT_CNT_PARTIAL
      | _ => u) := by
    intro n; split
    · exact wr_same _ _ _ hr
    · exact wr_same _ _ _ hr
    · exact Fld.same_refl _ _
  exact Fld.same_trans (Fld.same_trans a (b _)) (Fld.same_trans (wr_same _ _ _ hr) (post_same _ _ _ hg))

/-- What a decision record carries stands in the sealed item (R24). -/
theorem formDecision_seal (s : State) (id : Nat) (it : Item) (c : SealCause) (stamp : Int) :
    ∃ st, (s.formDecision id it c stamp).2.sealInfo =
      some { cause := c, stamp := stamp, decision := it.decision.getD it.fallback, status := st } ∧
      (s.formDecision id it c stamp).2.pv = it.pv ∧ (s.formDecision id it c stamp).2.done = it.done :=
  ⟨_, rfl, rfl, rfl⟩

theorem raiseOverrun_same {f : Fld} (s : State) (id : Nat) (it : Item) (k : Nat)
    (h : f ∉ [Fld.regs, .holding, .msix, .hevt, .out]) : f.same s (s.raiseOverrun id it k) := by
  unfold State.raiseOverrun
  repeat' split
  all_goals first | exact raise_same _ _ _ h | exact Fld.same_refl _ _

/-- Sealing under LATE_MODE ONE keeps the entry, with the decision record's contents. -/
theorem sealItem_one (s : State) (id : Nat) {it : Item} (c : SealCause) (hi : s.item id = some it) (hs : it.sealInfo = none)
    (hh : it.shadow = none) (hl : it.pv.lateMode = 1) :
    ∃ u st, (s.sealItem id c).item id = some u ∧ u.sealInfo = some
      { cause := c, stamp := if c = .deadline then it.sealAt else s.now, decision := it.decision.getD it.fallback, status := st } := by
  have key : ∀ (x : State) (j : Item), x.now = s.now → j.sealAt = it.sealAt → j.decision.getD j.fallback = it.decision.getD it.fallback →
      j.pv = it.pv → ∃ u st, (match j.pv.lateMode with
        | 1 => (x.formDecision id j c (if c = .deadline then j.sealAt else x.now)).1.setItem id
                (x.formDecision id j c (if c = .deadline then j.sealAt else x.now)).2
        | 2 => if j.done = 31 then (x.formDecision id j c (if c = .deadline then j.sealAt else x.now)).1.freeItem id
               else (x.formDecision id j c (if c = .deadline then j.sealAt else x.now)).1.setItem id
                (x.formDecision id j c (if c = .deadline then j.sealAt else x.now)).2
        | _ => ((x.formDecision id j c (if c = .deadline then j.sealAt else x.now)).1.cancelWork id).freeItem id : State).item id = some u ∧
        u.sealInfo = some
      { cause := c, stamp := if c = .deadline then it.sealAt else s.now, decision := it.decision.getD it.fallback, status := st } := by
    intro x j hn hsa hd hp
    rw [hp, hl]
    obtain ⟨st, h1, _, _⟩ := formDecision_seal x id j c (if c = .deadline then j.sealAt else x.now)
    exact ⟨_, st, item_setItem _ _ _, by rw [h1, hd, hn, hsa]⟩
  unfold State.sealItem
  simp only [hi, hs, hh]
  simp only [Option.isSome_none, Bool.false_eq_true, or_self, if_false]
  cases (c == SealCause.deadline && !it.done.getLsbD 4 && !it.ovr.getLsbD 4)
  · exact key s it rfl rfl rfl rfl
  · refine key (s.raiseOverrun id (it.overrun 4) 4) (it.overrun 4) ?_ rfl rfl rfl
    exact congrArg (fun c : Clk => c.tb.toNat) (raiseOverrun_same (f := .clk) s id _ 4 (by decide))

/-- Sealing under LATE_MODE NONE frees the entry. -/
theorem sealItem_none (s : State) (id : Nat) {it : Item} (c : SealCause) (hi : s.item id = some it) (hs : it.sealInfo = none)
    (hh : it.shadow = none) (hl : it.pv.lateMode = 0) : (s.sealItem id c).item id = none := by
  unfold State.sealItem
  simp only [hi, hs, hh]
  simp only [Option.isSome_none, Bool.false_eq_true, or_self, if_false]
  cases (c == SealCause.deadline && !it.done.getLsbD 4 && !it.ovr.getLsbD 4)
  · simp only [Bool.false_eq_true, if_false, hl]; exact item_freeItem _ _
  · simp only [if_true, Item.overrun, hl]; exact item_freeItem _ _

/-- With room for it and a seal instant still to come, a source opens an item under its next ID and its sequence moves on. -/
theorem openItem_opened (s : State) (source : Nat) (anchor : Int) (prof : Nat) (owner : Nat × Nat) (hl : s.items.length < 65536)
    (hs : (s.now : Int) < (newItem anchor prof (s.profs.get {} prof) s.lead (s.profMask prof) owner).sealAt) :
    (s.openItem source anchor prof owner).1 = (s.newId source).1 ∧ (s.openItem source anchor prof owner).2.1 = true ∧
    (s.openItem source anchor prof owner).2.2.nextSeq = (s.newId source).2.nextSeq ∧
    (s.openItem source anchor prof owner).2.2.item (s.newId source).1 = some (
      if 0x800 ≤ source then { newItem anchor prof (s.profs.get {} prof) s.lead (s.profMask prof) owner with done := 1 }
      else newItem anchor prof (s.profs.get {} prof) s.lead (s.profMask prof) owner) := by
  unfold State.openItem
  dsimp only
  have h1 : (s.newId source).2.items = s.items := rfl
  have h2 : (s.newId source).2.profs = s.profs := rfl
  have h3 : (s.newId source).2.lead = s.lead := rfl
  have h4 : (s.newId source).2.profMask prof = s.profMask prof := rfl
  rw [h1, h2, h3, h4, if_neg (by omega)]
  dsimp only
  generalize hn : newItem anchor prof (s.profs.get {} prof) s.lead (s.profMask prof) owner = n at *
  generalize hm : (if 0x800 ≤ source then { n with done := 1 } else n : Item) = m
  have hms : m.sealAt = n.sealAt := by subst hm; split <;> rfl
  generalize hu : ((s.newId source).2.setItem (s.newId source).1 m).formNotice (s.newId source).1 m = u
  have hnow : u.now = s.now := by
    subst hu
    exact congrArg (fun c : Clk => c.tb.toNat) (formNotice_same (f := .clk) ((s.newId source).2.setItem (s.newId source).1 m) _ m (by decide))
  have hseq : u.nextSeq = (s.newId source).2.nextSeq := by
    subst hu; exact formNotice_same (f := .nextSeq) ((s.newId source).2.setItem (s.newId source).1 m) _ m (by decide)
  have hit : u.item (s.newId source).1 = some m := by
    subst hu; rw [item_of_same (formNotice_same (f := .items) _ _ _ (by decide))]; exact item_setItem _ _ _
  have hlt : ¬ (m.sealAt ≤ (u.now : Int)) := by rw [hms, hnow]; omega
  simp only [hlt, if_false]
  exact ⟨trivial, trivial, hseq, hit⟩

theorem setRqueue_same {f : Fld} (s : State) (g : Nat) (q : Queue) (h : f ∉ [Fld.rqs]) : f.same s (s.setRqueue g q) := by
  cases f <;> first | rfl | simp at h

theorem same_ite_fst {β : Type} {f : Fld} {s : State} {c : Prop} [Decidable c] {x y : State × β} (h : f.same s x.1) (k : f.same s y.1) :
    f.same s (if c then x else y).1 := by split <;> assumption

/-- The fields that putting a record into a record queue may change. -/
def pushFlds : List Fld := [.mem, .harts, .ue, .sc, .regs, .holding, .msix, .hevt, .out, .rqs]

theorem pushRecord_same {f : Fld} (s : State) (g cls n : Nat) (b : Bytes) (h : f ∉ pushFlds) : f.same s (s.pushRecord g cls n b).1 := by
  have h1 : f ∉ stFlds := by revert h; cases f <;> decide
  have h2 : f ∉ [Fld.regs, .holding, .msix, .hevt, .out] := by revert h; cases f <;> decide
  have h3 : f ∉ [Fld.rqs] := by revert h; cases f <;> decide
  have hr : ∀ (u : State) (q : Queue) (p : Nat) (x : Bytes), f.same u (u.ringStore q p x) := by
    intro u q p x; unfold State.ringStore; dsimp only; split
    · exact stUnit_same _ _ _ h1
    · exact Fld.same_refl _ _
  have hm : ∀ (c : Prop) [Decidable c] (u : State) (q : Queue), f.same u (if c then u.qMessage q else u) := by
    intro c _ u q; split
    · exact qMessage_same _ _ h2
    · exact Fld.same_refl _ _
  have h0 : ∀ (c : Prop) [Decidable c] (u v : State), f.same u v → f.same u (if c then u else v) := by
    intro c _ u v k; split
    · exact Fld.same_refl _ _
    · exact k
  unfold State.pushRecord
  dsimp only
  refine same_ite_fst (Fld.same_refl _ _) ?_
  · exact Fld.same_trans (Fld.same_trans (h0 _ _ _ (hr _ _ _ _)) (hr _ _ _ _))
      (Fld.same_trans (setRqueue_same _ _ _ h3) (Fld.same_trans (writeBack_same _ _ h1) (hm _ _ _)))

/-- A record that leaves, or is dropped, is taken off the destination's waiting records, and its record number moves on. -/
theorem egress1_same (s : State) (d : Nat) {r : OutRec} (h : nextRec (s.egress.get [] d) = some r) {f : Fld} (hf : f ∉ pushFlds) :
    f.same { s with egress := s.egress.set [] d ((s.egress.get [] d).erase r), rsn := s.rsn.set 0 d ((s.rsn.get 0 d + 1) % 2 ^ 64) }
      (s.egress1 d) := by
  have h1 : f ∉ [Fld.regs] := by revert hf; cases f <;> decide
  have h2 : f ∉ [Fld.regs, .holding, .msix, .hevt, .out] := by revert hf; cases f <;> decide
  have h4 : f ∉ [Fld.out] := by revert hf; cases f <;> decide
  have hd : ∀ u v : State, f.same u v → f.same u ((v.bump (Reg.REC_CNT_DROP d)).raise 0x7000 1) :=
    fun u v k => Fld.same_trans k (Fld.same_trans (wr_same _ _ _ h1) (raise_same _ _ _ h2))
  unfold State.egress1
  dsimp only
  rw [h]
  dsimp only
  split
  · exact Fld.same_refl _ _
  · split
    · exact hd _ _ (Fld.same_refl _ _)
    · split
      · exact pushRecord_same _ _ _ _ _ hf
      · exact hd _ _ (Fld.same_refl _ _)
  · split
    · split
      · refine foldl_same _ (fun t e => Fld.same_trans (t := t.emit (.udp e)) ?_ (wr_same _ _ _ h1)) _ _
        cases f <;> first | rfl | simp at h4
      · exact hd _ _ (Fld.same_refl _ _)
    · exact hd _ _ (Fld.same_refl _ _)

theorem egress1_egress (s : State) (d : Nat) {r : OutRec} (h : nextRec (s.egress.get [] d) = some r) :
    (s.egress1 d).egress = s.egress.set [] d ((s.egress.get [] d).erase r) := egress1_same s d h (f := .egress) (by decide)

theorem egress1_rsn (s : State) (d : Nat) {r : OutRec} (h : nextRec (s.egress.get [] d) = some r) :
    (s.egress1 d).rsn = s.rsn.set 0 d ((s.rsn.get 0 d + 1) % 2 ^ 64) := egress1_same s d h (f := .rsn) (by decide)

end Sys2Proof.Machine
end

