-- ==== Sys2Proof/Laws/Units.lean ====
section
/-! SUPPORT. What reading one unit's record gives after another operation, and what the storing of a register write does. -/
namespace Sys2Proof.Machine

/-! ## One bit and one field of a register -/

theorem taken_self {f : Fld} (s : State) (w : List Fld) (h : .mem ∉ w) : f.same s (s.taken s w) := by
  cases f <;> first | exact if_neg h | exact ite_self _

theorem taken_flag (s t : State) {w : List Fld} (h : .regs ∈ w) (a i : Nat) : (s.taken t w).flag a i = t.flag a i := by
  unfold State.flag; rw [taken_rd _ _ h]

theorem taken_fld (s t : State) {w : List Fld} (h : .regs ∈ w) (a i j : Nat) : (s.taken t w).fld a i j = t.fld a i j := by
  unfold State.fld; rw [taken_rd _ _ h]

theorem flag_raise_self (s : State) (p b : Nat) (hb : b < 32) (h : ¬ msgReg (p + 0x10)) : (s.raise p b).flag (p + 0x10) b = true := by
  unfold State.flag State.raise
  rw [rd_raiseMask_sts _ _ _ h, bit_or]
  have : bit (BitVec.ofNat 32 (2 ^ b)) b = true := by
    unfold bit; rw [BitVec.getLsbD_ofNat]; simp [hb, Nat.testBit_two_pow_self]
  rw [this]; simp

theorem flag_congr {s t : State} {a : Nat} (h : t.rd a = s.rd a) (i : Nat) : t.flag a i = s.flag a i := by unfold State.flag; rw [h]

theorem fld_congr {s t : State} {a : Nat} (h : t.rd a = s.rd a) (i j : Nat) : t.fld a i j = s.fld a i j := by unfold State.fld; rw [h]

theorem fld_setFlag_ne (s : State) (a : Nat) {i : Nat} (b : Bool) {hi lo : Nat} (h : i < 32) (h' : hi < 32)
    (hd : hi < i ∨ i < lo) : (s.setFlag a i b).fld a hi lo = s.fld a hi lo := fld_setFld_ne s a _ h (Nat.le_refl _) h' hd

theorem flag_setFld_ne (s : State) (a : Nat) {hi lo : Nat} (n : Nat) {j : Nat} (h : hi < 32) (hl : lo ≤ hi) (hj : j < 32) (hd : j < lo ∨ hi < j) :
    (s.setFld a hi lo n).flag a j = s.flag a j := by
  simp only [State.flag, State.setFld, rd_wr_same]
  rw [putBits_bit _ _ h hl _ hj, if_neg (by omega)]

/-! ## Ports -/

@[simp] theorem port_updPort (s : State) (p : Nat) (f : Port → Port) : (s.updPort p f).port p = f (s.port p) := by
  simp [State.port, State.updPort, State.setPort]

theorem port_updPort_ne (s : State) {p q : Nat} (f : Port → Port) (h : q ≠ p) : (s.updPort p f).port q = s.port q :=
  Tab.get_set_ne _ _ _ h

theorem port_congr {s t : State} (h : t.ports = s.ports) (p : Nat) : t.port p = s.port p := by unfold State.port; rw [h]

@[simp] theorem rd_updPort (s : State) (p : Nat) (f : Port → Port) (a : Nat) : (s.updPort p f).rd a = s.rd a := (rfl)

theorem taken_port (s t : State) {w : List Fld} (h : .ports ∈ w) (p : Nat) : (s.taken t w).port p = t.port p := by
  simp [State.port, h]

@[simp] theorem port_wr (s : State) (a : Nat) (v : Word) (p : Nat) : (s.wr a v).port p = s.port p := (rfl)

@[simp] theorem port_setFld (s : State) (a hi lo n : Nat) (p : Nat) : (s.setFld a hi lo n).port p = s.port p := (rfl)

@[simp] theorem port_setFlag (s : State) (a i : Nat) (b : Bool) (p : Nat) : (s.setFlag a i b).port p = s.port p := (rfl)

@[simp] theorem port_raise (s : State) (g b p : Nat) : (s.raise g b).port p = s.port p :=
  port_congr (raise_ports s g b) p

/-! ## Storing a write -/

/-- A write that is not turned away is followed by its behaviour. -/
theorem storeThen_eq (s : State) (req : Req) (a : Nat) (v : Word) (k : State → State) (h : (s.store req a v).2 = true) :
    s.storeThen req a v k = k (s.store req a v).1 := by
  unfold State.storeThen; dsimp only; rw [h, if_pos rfl]

theorem wrHeld_same {f : Fld} (s : State) (a : Nat) (w : Word) (h : f ∉ [Fld.regs, .held]) : f.same s (s.wrHeld a w) := by
  cases f <;> first | rfl | simp at h

theorem wosDone_same {f : Fld} (s : State) (l : List Nat) (h : f ∉ [Fld.wosDone]) : f.same s { s with wosDone := l } := by
  cases f <;> first | rfl | simp at h

/-- The fields that a write which is stored may change. -/
theorem store_same {f : Fld} (s : State) (req : Req) (a : Nat) (v : Word) (h : (s.store req a v).2 = true)
    (hf : f ∉ [Fld.regs, .held, .wosDone]) : f.same s (s.store req a v).1 := by
  have h1 : f ∉ [Fld.regs] := by revert hf; cases f <;> decide
  have h2 : f ∉ [Fld.regs, .held] := by revert hf; cases f <;> decide
  have h3 : f ∉ [Fld.wosDone] := by revert hf; cases f <;> decide
  revert h
  unfold State.store
  split
  · intro _; exact Fld.same_refl _ _
  · split
    · intro h; simp at h
    · intro _
      dsimp only
      split <;> split
      · exact Fld.same_trans (wrHeld_same _ _ _ h2) (wosDone_same _ _ h3)
      · exact Fld.same_trans (wr_same _ _ _ h1) (wosDone_same _ _ h3)
      · exact wrHeld_same _ _ _ h2
      · exact wr_same _ _ _ h1

/-- A stored write gives its register the stored word and changes no other. -/
theorem regs_store (s : State) (req : Req) {a : Nat} (v : Word) {d : RegDef} (hd : defAt a = some d)
    (h : (s.store req a v).2 = true) : (s.store req a v).1.regs = (s.wr a (s.stored a d v)).regs := by
  revert h
  unfold State.store
  simp only [hd]
  split
  · intro h; simp at h
  · intro _
    dsimp only
    split <;> split <;> rfl

theorem rd_store (s : State) (req : Req) {a : Nat} (v : Word) {d : RegDef} (hd : defAt a = some d)
    (h : (s.store req a v).2 = true) : (s.store req a v).1.rd a = s.stored a d v :=
  (rd_congr (regs_store s req v hd h) a).trans (rd_wr_same _ _ _)

theorem rd_store_ne (s : State) (req : Req) {a b : Nat} (v : Word) (hb : b ≠ a)
    (h : (s.store req a v).2 = true) : (s.store req a v).1.rd b = s.rd b := by
  cases hd : defAt a with
  | none => unfold State.store; rw [hd]
  | some d => exact (rd_congr (regs_store s req v hd h) b).trans (rd_wr_ne s _ hb)

/-- No clamp concerns the register. -/
theorem clampWord_id {a : Nat} (h : clamps.all (fun c => !(pageAt (a % 0x4000000) == some c.kind && a % 0x4000000 % 0x1000 == c.off)) = true)
    (w : Word) : clampWord a w = w := by
  unfold clampWord
  dsimp only
  revert h
  generalize clamps = l
  induction l with
  | nil => intro _; rfl
  | cons c l ih =>
    intro h
    simp only [List.all_cons, Bool.and_eq_true] at h
    simp only [List.foldl_cons]
    rw [if_neg]
    · exact ih h.2
    · intro hc
      have h1 := h.1
      rw [hc.1, hc.2] at h1
      simp at h1

/-- A stored write to a register with no clamp gives it the written fields and keeps its other bits. -/
theorem rd_store_plain (s : State) (req : Req) {a : Nat} (v : Word) {d : RegDef} (hd : defAt a = some d)
    (hc : clamps.all (fun c => !(pageAt (a % 0x4000000) == some c.kind && a % 0x4000000 % 0x1000 == c.off)) = true)
    (h : (s.store req a v).2 = true) :
    (s.store req a v).1.rd a = (s.rd a &&& ~~~(BitVec.ofNat 32 d.rw)) ||| (v &&& BitVec.ofNat 32 d.rw) := by
  rw [rd_store s req v hd h]; unfold State.stored; dsimp only; exact clampWord_id hc _

theorem bits_and_ones (v m : Word) {hi lo : Nat} (h : bits m hi lo = 2 ^ (hi + 1 - lo) - 1) : bits (v &&& m) hi lo = bits v hi lo := by
  rw [bits_and, h, Nat.and_two_pow_sub_one_eq_mod]
  exact Nat.mod_eq_of_lt (nbits_lt _ _ _)

theorem bits_not_ones (m : Word) {hi lo : Nat} (h : bits m hi lo = 2 ^ (hi + 1 - lo) - 1) : bits (~~~m) hi lo = 0 := by
  apply Nat.eq_of_testBit_eq; intro i
  rw [Nat.zero_testBit, bits, nbits_testBit]
  by_cases hk : i < hi + 1 - lo
  · have h1 : (bits m hi lo).testBit i = true := by rw [h, Nat.testBit_two_pow_sub_one]; simp [hk]
    rw [bits, nbits_testBit] at h1
    simp only [hk, decide_true, Bool.true_and] at h1 ⊢
    have h2 : m.getLsbD (lo + i) = true := h1
    have h3 : (~~~m).toNat.testBit (lo + i) = (~~~m).getLsbD (lo + i) := rfl
    rw [h3, BitVec.getLsbD_not, h2]; simp
  · simp [hk]

/-- A stored write gives a writable field what is written to it. -/
theorem fld_store (s : State) (req : Req) {a : Nat} (v : Word) {d : RegDef} {hi lo : Nat} (hd : defAt a = some d)
    (hc : clamps.all (fun c => !(pageAt (a % 0x4000000) == some c.kind && a % 0x4000000 % 0x1000 == c.off)) = true)
    (h : (s.store req a v).2 = true) (hm : bits (BitVec.ofNat 32 d.rw) hi lo = 2 ^ (hi + 1 - lo) - 1) :
    (s.store req a v).1.fld a hi lo = bits v hi lo := by
  unfold State.fld
  rw [rd_store_plain s req v hd hc h, bits_or, bits_and_ones _ _ hm, bits_and, bits_not_ones _ hm]
  simp

/-- A write that is turned away is a lock violation and nothing else. -/
theorem store_refused (s : State) (req : Req) (a : Nat) (v : Word) (h : (s.store req a v).2 = false) :
    (s.store req a v).1 = s.lockViol req (a % 0x4000000) := by
  revert h
  unfold State.store
  split
  · intro h; simp at h
  · split
    · intro _; rfl
    · intro h; simp at h

/-- What a write, stored or not, leaves as it was. -/
theorem store_any_same {f : Fld} (s : State) (req : Req) (a : Nat) (v : Word)
    (hf : f ∉ [Fld.regs, .held, .wosDone, .holding, .msix, .hevt, .out, .flogRing, .flogLast]) : f.same s (s.store req a v).1 := by
  cases h : (s.store req a v).2 with
  | true => exact store_same s req a v h (by revert hf; cases f <;> decide)
  | false => rw [store_refused s req a v h]; exact lockViol_same _ _ _ (by revert hf; cases f <;> decide)

theorem rd_store_any (s : State) (req : Req) {a b : Nat} (v : Word) (hb : b ≠ a) (h1 : ¬ logReg b)
    (h2 : b ≠ pageBase (a % 0x4000000) + 0x10) (h3 : b ≠ Reg.LOCKVIOL_CNT) : (s.store req a v).1.rd b = s.rd b := by
  cases h : (s.store req a v).2 with
  | true => exact rd_store_ne s req v hb h
  | false => rw [store_refused s req a v h]; exact rd_lockViol _ _ _ h1 h2 h3

/-! ## The fault log -/

/-- The entry just logged is the ring's last. -/
theorem log_last (s : State) (cls code id d : Nat) : ∃ e, (s.log cls code id d).flogRing.getLast? = some e ∧ e.cls = cls ∧ e.code = code ∧
    e.block = id / 0x10000 ∧ e.inst = id % 0x10000 ∧ e.detail = BitVec.ofNat 64 d ∧ e.committed = false ∧ e.fseq = s.rd Reg.FLOG_NEXT := by
  unfold State.log; dsimp only
  have h1 : ∀ (l : List FEntry) (e : FEntry), (l ++ [e]).getLast? = some e := fun l e => by simp
  have h2 : ∀ (c : Prop) [Decidable c] (t : State), (if c then t.raise 0x9000 0 else t).flogRing = t.flogRing := by
    intro c _ t; split
    · exact raise_flogRing _ _ _
    · rfl
  rw [h2]
  split
  · rw [raise_flogRing, bump_flogRing, bump_flogRing, wr_flogRing, h1]; exact ⟨_, rfl, rfl, rfl, rfl, rfl, rfl, rfl, rfl⟩
  · rw [bump_flogRing, wr_flogRing, h1]; exact ⟨_, rfl, rfl, rfl, rfl, rfl, rfl, rfl, rfl⟩

/-! ## Readings stored two to a register -/

theorem putPairs_append (s : State) (a : Nat) (l : List (BitVec 16)) (x : BitVec 16) :
    s.putPairs a (l ++ [x]) = (s.putPairs a l).setFld (a + 4 * (l.length / 2)) (16 * (l.length % 2) + 15) (16 * (l.length % 2)) x.toNat := by
  unfold State.putPairs; rw [List.zipIdx_append, List.foldl_append]; simp

theorem rd_putPairs (s : State) (a : Nat) (l : List (BitVec 16)) {b : Nat} (h : b < a ∨ a + 4 * ((l.length + 1) / 2) ≤ b) :
    (s.putPairs a l).rd b = s.rd b := by
  induction l using List.reverseRecOn with
  | nil => rfl
  | append_singleton l x ih =>
    rw [List.length_append, List.length_singleton] at h
    rw [putPairs_append, rd_setFld_ne _ _ _ _ (by omega)]
    exact ih (by omega)

theorem fld_putPairs (s : State) (a : Nat) (l : List (BitVec 16)) (i : Nat) (h : i < l.length) :
    (s.putPairs a l).fld (a + 4 * (i / 2)) (16 * (i % 2) + 15) (16 * (i % 2)) = (l[i]).toNat := by
  induction l using List.reverseRecOn with
  | nil => simp at h
  | append_singleton l x ih =>
    rw [List.length_append, List.length_singleton] at h
    rw [putPairs_append]
    by_cases hi : i = l.length
    · subst hi
      rw [fld_setFld _ _ _ (by omega) (by omega), show 16 * (l.length % 2) + 15 + 1 - 16 * (l.length % 2) = 16 by omega]
      simp only [List.getElem_concat_length]
      exact Nat.mod_eq_of_lt x.isLt
    · have hl : i < l.length := by omega
      rw [List.getElem_append_left hl, ← ih hl]
      by_cases hr : a + 4 * (i / 2) = a + 4 * (l.length / 2)
      · rw [hr]
        exact fld_setFld_ne _ _ _ (by omega) (by omega) (by omega) (by omega)
      · unfold State.fld; rw [rd_setFld_ne _ _ _ _ hr]

/-! ## Registers after a change of another field -/

theorem rd_updHealth (s : State) (f : Health → Health) (a : Nat) : (s.updHealth f).rd a = s.rd a := (rfl)
theorem rd_updEmg (s : State) (f : Emg → Emg) (a : Nat) : (s.updEmg f).rd a = s.rd a := (rfl)

theorem rd_updTile (s : State) (t : Nat) (f : Tile → Tile) (a : Nat) : (s.updTile t f).rd a = s.rd a := (rfl)

theorem health_updHealth (s : State) (f : Health → Health) : (s.updHealth f).health = f s.health := (rfl)

theorem updHealth_same {f : Fld} (s : State) (g : Health → Health) (h : f ∉ [Fld.health]) : f.same s (s.updHealth g) := by
  cases f <;> first | rfl | simp at h

theorem updEmg_same {f : Fld} (s : State) (g : Emg → Emg) (h : f ∉ [Fld.emg]) : f.same s (s.updEmg g) := by
  cases f <;> first | rfl | simp at h

/-! ## What is sent -/

theorem mem_out_msixSend {o : Out} {s : State} (h : o ∈ s.out) (f v : Nat) : o ∈ (s.msixSend f v).out := by
  unfold State.msixSend; dsimp only
  split
  · exact h
  · split
    · exact h
    · exact List.mem_cons_of_mem _ h

theorem mem_out_deliver {o : Out} {s : State} (h : o ∈ s.out) (c : Nat) : o ∈ (s.deliver c).out := by
  unfold State.deliver; dsimp only
  split
  · exact h
  · have h2 : o ∈ (if bits (s.chanCfg c) 29 20 = 0 then s.setFlag (Reg.EVT_CHAN_PEND (c / 32)) (c % 32) false
        else { s.setFlag (Reg.EVT_CHAN_PEND (c / 32)) (c % 32) false with holding := c :: (s.setFlag (Reg.EVT_CHAN_PEND (c / 32)) (c % 32) false).holding }).out := by
      split <;> exact h
    revert h2
    generalize (if bits (s.chanCfg c) 29 20 = 0 then _ else _ : State) = t
    intro h2
    split
    · exact mem_out_msixSend h2 _ _
    · exact h2
    · exact List.mem_cons_of_mem _ h2

theorem mem_out_signal {o : Out} {s : State} (h : o ∈ s.out) (c : Nat) : o ∈ (s.signal c).out := by
  unfold State.signal
  refine mem_out_deliver ?_ _
  rw [setFlag_out]; exact h

/-- What has been sent stays sent when a unit raises an event. -/
theorem mem_out_raise {o : Out} {s : State} (h : o ∈ s.out) (p b : Nat) : o ∈ (s.raise p b).out := by
  unfold State.raise State.raiseMask
  generalize (BitVec.ofNat 32 (2 ^ b)) = m
  dsimp only
  split
  · refine mem_out_signal ?_ _
    rw [wr_out]; exact h
  · rw [wr_out]; exact h

end Sys2Proof.Machine
end

