-- ==== Sys2Proof/Laws/Intake.lean ====
section
/-! SUPPORT. What reading a stream context gives after an operation of Stream Intake. -/
namespace Sys2Proof.Machine

@[simp] theorem ctx_updCtx (s : State) (c : Nat) (f : Ctx → Ctx) : (s.updCtx c f).ctx c = f (s.ctx c) := by
  simp [State.ctx, State.updCtx, State.setCtx]

@[simp] theorem ctx_setCtx (s : State) (c : Nat) (x : Ctx) : (s.setCtx c x).ctx c = x := by simp [State.ctx, State.setCtx]

theorem ctx_updCtx_ne (s : State) {c k : Nat} (f : Ctx → Ctx) (h : k ≠ c) : (s.updCtx c f).ctx k = s.ctx k := Tab.get_set_ne _ _ _ h

theorem ctx_setCtx_ne (s : State) {c k : Nat} (x : Ctx) (h : k ≠ c) : (s.setCtx c x).ctx k = s.ctx k := Tab.get_set_ne _ _ _ h

theorem ctx_congr {s t : State} (h : t.ctxs = s.ctxs) (c : Nat) : t.ctx c = s.ctx c := by unfold State.ctx; rw [h]

theorem taken_ctx (s t : State) {w : List Fld} (h : .ctxs ∈ w) (c : Nat) : (s.taken t w).ctx c = t.ctx c := by
  simp [State.ctx, h]

theorem taken_ctx_of_not (s t : State) {w : List Fld} (h : .ctxs ∉ w) (c : Nat) : (s.taken t w).ctx c = s.ctx c := by
  simp [State.ctx, h]

theorem setCtx_same {f : Fld} (s : State) (c : Nat) (x : Ctx) (h : f ∉ [Fld.ctxs]) : f.same s (s.setCtx c x) := by
  cases f <;> first | rfl | simp at h

theorem updCtx_same {f : Fld} (s : State) (c : Nat) (g : Ctx → Ctx) (h : f ∉ [Fld.ctxs]) : f.same s (s.updCtx c g) :=
  setCtx_same _ _ _ h

theorem rd_updCtx (s : State) (c : Nat) (f : Ctx → Ctx) (a : Nat) : (s.updCtx c f).rd a = s.rd a := (rfl)

theorem rd_setCtx (s : State) (c : Nat) (x : Ctx) (a : Nat) : (s.setCtx c x).rd a = s.rd a := (rfl)

theorem ctx_wr (s : State) (a : Nat) (v : Word) (c : Nat) : (s.wr a v).ctx c = s.ctx c := (rfl)

theorem ctx_raise (s : State) (p b c : Nat) : (s.raise p b).ctx c = s.ctx c := ctx_congr (raise_ctxs s p b) c

theorem ctx_complete (s : State) (g : Nat) (st : St) (r c : Nat) : (s.complete g st r).ctx c = s.ctx c :=
  ctx_congr (complete_same (f := .ctxs) _ _ _ _ (by decide)) c

/-- A wait for a decoder leaves the queue of pictures to declare as it stands. -/
theorem drainAll_decoding (s : State) (c : Nat) {a : Au} (h : (s.ctx c).decoding = some a) : s.drainAll c = s := by
  unfold State.drainAll
  cases (s.ctx c).entries.length with
  | zero => rfl
  | succ n => unfold State.drain; dsimp only; rw [h]

end Sys2Proof.Machine
end

