-- ==== Sys2Proof/Laws/Seal.lean ====
section
/-! SUPPORT. What sealing an item, settling it and marking a stage done can change: one lemma per operation for the fields. -/
namespace Sys2Proof.Machine

/-- The fields that a seal and the cancelled work of an item may change. -/
def sealFlds : List Fld :=
  [.free, .mem, .regs, .holding, .hevt, .msix, .qs, .items, .egress, .ue, .out, .ports, .gctxs, .sc, .harts]

theorem updPort_same {f : Fld} (s : State) (p : Nat) (g : Port → Port) (h : f ∉ [Fld.ports]) : f.same s (s.updPort p g) := by
  cases f <;> first | rfl | simp at h

theorem fresh_same {f : Fld} (s : State) (h : f ∉ [Fld.free]) : f.same s s.fresh.2 := by cases f <;> first | rfl | simp at h

theorem fresh64_same {f : Fld} (s : State) (h : f ∉ [Fld.free]) : f.same s s.fresh64.2 := by cases f <;> first | rfl | simp at h

theorem endNotice_same {f : Fld} (s : State) (p : Nat) (x : Face) (h : f ∉ [Fld.free, .ports]) : f.same s (s.endNotice p x) := by
  have h1 : f ∉ [Fld.free] := by revert h; cases f <;> decide
  have h2 : f ∉ [Fld.ports] := by revert h; cases f <;> decide
  have a : f.same s (s.sideEdges x).2 := by
    unfold State.sideEdges; split
    · exact fresh_same _ h1
    · exact Fld.same_refl _ _
  unfold State.endNotice
  dsimp only
  split
  · exact Fld.same_trans (Fld.same_trans a (updPort_same _ _ _ h2)) (updPort_same _ _ _ h2)
  · exact Fld.same_trans (Fld.same_trans a (updPort_same _ _ _ h2)) (updPort_same _ _ _ h2)

theorem cancelFace_same {f : Fld} (s : State) (id : Nat) (h : f ∉ [Fld.free, .ports]) : f.same s (s.cancelFace id) := by
  have h2 : f ∉ [Fld.ports] := by revert h; cases f <;> decide
  unfold State.cancelFace
  dsimp only
  split
  · split
    · exact Fld.same_refl _ _
    · exact Fld.same_trans (foldl_same _ (fun t e => updPort_same _ _ _ h2) _ _) (endNotice_same _ _ _ h)
  · exact Fld.same_refl _ _

theorem putText_same {f : Fld} (s : State) (c : GCtx) (b : Bytes) (h : f ∉ stFlds) : f.same s (s.putText c b).1 := by
  have hr : f ∉ [Fld.regs] := by revert h; cases f <;> decide
  unfold State.putText
  split
  · exact Fld.same_refl _ _
  · split
    · exact wr_same _ _ _ hr
    · dsimp only; split
      · exact stUnit_same _ _ _ h
      · exact Fld.same_refl _ _

theorem putRepl_same {f : Fld} (s : State) (c : GCtx) (h : f ∉ stFlds) : f.same s (s.putRepl c).1 :=
  Fld.same_trans (wr_same _ _ _ (by revert h; cases f <;> decide)) (putText_same _ _ _ h)

theorem drainHold_same {f : Fld} (s : State) (c : GCtx) (b : Bool) (n : Nat) (h : f ∉ stFlds) : f.same s (s.drainHold c b n).1 := by
  induction n generalizing s c with
  | zero => exact Fld.same_refl _ _
  | succ n ih =>
    unfold State.drainHold
    split
    · exact Fld.same_trans (putText_same _ _ _ h) (ih _ _)
    · exact Fld.same_trans (putRepl_same _ _ h) (ih _ _)
    · split
      · exact putRepl_same _ _ h
      · exact Fld.same_refl _ _

theorem closeNotice_same {f : Fld} (s : State) (c : GCtx) (b : Bytes) (h : f ∉ postFlds) : f.same s (s.closeNotice c b) := by
  unfold State.closeNotice
  split
  · exact Fld.same_refl _ _
  · dsimp only
    split
    · exact postEntries_same _ _ _ _ h
    · exact postEntries_same _ _ _ _ h
    · exact setQueue_same _ _ _ (by revert h; cases f <;> decide)

theorem gctxs_same {f : Fld} (s : State) (g : Tab GCtx) (h : f ∉ [Fld.gctxs]) : f.same s { s with gctxs := g } := by
  cases f <;> first | rfl | simp at h

theorem closeCtx_same {f : Fld} (s : State) (id v c : Nat) (e : Bool) (h : f ∉ postFlds) : f.same s (s.closeCtx id v c e) := by
  have h1 : f ∉ stFlds := by revert h; cases f <;> decide
  have h2 : f ∉ [Fld.mem, .harts] := by revert h; cases f <;> decide
  have h3 : f ∉ [Fld.gctxs] := by revert h; cases f <;> decide
  unfold State.closeCtx
  split
  · exact Fld.same_refl _ _
  · exact Fld.same_trans (Fld.same_trans (drainHold_same _ _ _ _ h1) (closeNotice_same _ _ _ h))
      (Fld.same_trans (gctxs_same _ _ h3) (st_same _ _ _ h2))

theorem abandonCtxs_same {f : Fld} (s : State) (id : Nat) (h : f ∉ postFlds) : f.same s (s.abandonCtxs id) :=
  foldl_same _ (fun _ _ => closeCtx_same _ _ _ _ _ h) _ _

theorem cancelWork_same {f : Fld} (s : State) (id : Nat) (h : f ∉ sealFlds) : f.same s (s.cancelWork id) :=
  Fld.same_trans (cancelFace_same _ _ (by revert h; cases f <;> decide)) (abandonCtxs_same _ _ (by revert h; cases f <;> decide))

theorem freeItem_same {f : Fld} (s : State) (id : Nat) (h : f ∉ [Fld.items]) : f.same s (s.freeItem id) := by
  cases f <;> first | rfl | simp at h

/-- What a seal leaves as it was. -/
theorem sealItem_same {f : Fld} (s : State) (id : Nat) (c : SealCause) (h : f ∉ sealFlds) : f.same s (s.sealItem id c) := by
  have h1 : f ∉ [Fld.regs, .holding, .msix, .hevt, .out] := by revert h; cases f <;> decide
  have h2 : f ∉ recFlds := by revert h; cases f <;> decide
  have h3 : f ∉ [Fld.items] := by revert h; cases f <;> decide
  unfold State.sealItem
  split
  · exact Fld.same_refl _ _
  · rename_i it _
    split
    · exact Fld.same_refl _ _
    · dsimp only
      generalize (if (c == .deadline && !it.done.getLsbD 4 && !it.ovr.getLsbD 4) = true then it.overrun 4 else it) = jt
      have a : f.same s (if (c == .deadline && !it.done.getLsbD 4 && !it.ovr.getLsbD 4) = true then s.raiseOverrun id jt 4 else s) := by
        split
        · exact raiseOverrun_same _ _ _ _ h1
        · exact Fld.same_refl _ _
      generalize (if (c == .deadline && !it.done.getLsbD 4 && !it.ovr.getLsbD 4) = true then s.raiseOverrun id jt 4 else s) = u at a
      have b := Fld.same_trans a (formDecision_same u id jt c (if c = .deadline then jt.sealAt else (u.now : Int)) h2)
      split
      · exact Fld.same_trans b (setItem_same _ _ _ h3)
      · split
        · exact Fld.same_trans b (freeItem_same _ _ h3)
        · exact Fld.same_trans b (setItem_same _ _ _ h3)
      · exact Fld.same_trans (Fld.same_trans b (cancelWork_same _ _ h)) (freeItem_same _ _ h3)

theorem formLate_same {f : Fld} (s : State) (id : Nat) (it : Item) (h : f ∉ recFlds) : f.same s (s.formLate id it).1 := by
  have hr : f ∉ [Fld.regs] := by revert h; cases f <;> decide
  have he : f ∉ [Fld.regs, .holding, .msix, .hevt, .out] := by revert h; cases f <;> decide
  have hg : f ∉ [Fld.egress] := by revert h; cases f <;> decide
  unfold State.formLate
  split
  · exact Fld.same_refl _ _
  · split
    · exact Fld.same_refl _ _
    · split
      · exact Fld.same_trans (wr_same _ _ _ hr) (raise_same _ _ _ he)
      · exact Fld.same_trans (wr_same _ _ _ hr) (post_same _ _ _ hg)

theorem settle_same {f : Fld} (s : State) (id : Nat) (h : f ∉ sealFlds) : f.same s (s.settle id) := by
  have h2 : f ∉ recFlds := by revert h; cases f <;> decide
  have h3 : f ∉ [Fld.items] := by revert h; cases f <;> decide
  unfold State.settle
  split
  · exact Fld.same_refl _ _
  · split
    · exact Fld.same_refl _ _
    · split
      · exact sealItem_same _ _ _ h
      · split
        · dsimp only
          split
          · exact Fld.same_trans (formLate_same _ _ _ h2) (freeItem_same _ _ h3)
          · exact Fld.same_trans (formLate_same _ _ _ h2) (setItem_same _ _ _ h3)
        · exact freeItem_same _ _ h3

/-- What marking a stage done leaves as it was. -/
theorem stageDone_same {f : Fld} (s : State) (id k : Nat) (h : f ∉ sealFlds) : f.same s (s.stageDone id k) := by
  have h3 : f ∉ [Fld.items] := by revert h; cases f <;> decide
  unfold State.stageDone
  have a : f.same s (s.markDone id k) := by
    unfold State.markDone; split
    · exact Fld.same_refl _ _
    · exact setItem_same _ _ _ h3
  refine Fld.same_trans a ?_
  unfold State.refresh
  split
  · exact Fld.same_refl _ _
  · exact Fld.same_trans (setItem_same _ _ _ h3) (settle_same _ _ h)

theorem captureCheck_same {f : Fld} (s : State) (c id : Nat) (h : f ∉ sealFlds) : f.same s (s.captureCheck c id) := by
  unfold State.captureCheck
  dsimp only
  split
  · exact Fld.same_refl _ _
  · split
    · exact Fld.same_refl _ _
    · split
      · exact Fld.same_refl _ _
      · exact stageDone_same _ _ _ h

/-- The fields that opening an item may change. -/
theorem openItem_same {f : Fld} (s : State) (source : Nat) (anchor : Int) (prof : Nat) (owner : Nat × Nat) (h : f ∉ Fld.nextSeq :: sealFlds) :
    f.same s (s.openItem source anchor prof owner).2.2 := by
  have h0 : f.same s (s.newId source).2 := by cases f <;> first | rfl | simp at h
  have h1 : f ∉ sealFlds := fun k => h (List.mem_cons_of_mem _ k)
  have h2 : f ∉ recFlds := by revert h1; cases f <;> decide
  have h3 : f ∉ [Fld.items] := by revert h1; cases f <;> decide
  have h4 : f ∉ [Fld.egress, .regs] := by revert h1; cases f <;> decide
  have h5 : f ∉ [Fld.regs] := by revert h1; cases f <;> decide
  unfold State.openItem
  dsimp only
  split
  · exact Fld.same_trans (Fld.same_trans h0 (formNotice_same _ _ _ h4)) (Fld.same_trans (formDecision_same _ _ _ _ _ h2) (wr_same _ _ _ h5))
  · have a : ∀ m : Item, f.same s (((s.newId source).2.setItem (s.newId source).1 m).formNotice (s.newId source).1 m) := fun m =>
      Fld.same_trans h0 (Fld.same_trans (setItem_same _ _ _ h3) (formNotice_same _ _ _ h4))
    exact Fld.same_ite (Fld.same_trans (a _) (sealItem_same _ _ _ h1)) (a _)

theorem ctx_captureCheck (s : State) (c id k : Nat) : (s.captureCheck c id).ctx k = s.ctx k :=
  ctx_congr (captureCheck_same (f := .ctxs) _ _ _ (by decide)) k

end Sys2Proof.Machine
end

