-- ==== Sys2Proof/WellFormed.lean ====
section
/-! DEFINITION. Which commands can reach the block: the lengths and ranges of the operands that are lists.  Every other operand's type
holds exactly its values.  A meaning is total and is defined on ill-formed commands as well. -/
namespace Sys2Proof

/-- An emergence: the kinds of SRAM of step E4 with the numbers each has, and channels that fail training with cause TRAIN or STACK
(R48, R314). -/
def Emerge.wf (e : Emerge) : Bool :=
  e.sram.all (fun x => decide (x.1 < 6) && decide (x.2 < [160, 96, 8, 56, 1, 1].getD x.1 0)) &&
  e.hbm.all (fun x => decide (x.1 < 64) && (x.2 == 4 || x.2 == 5))

/-- A decoder's result: a picture has one sample of its bit depth for each place (R126). -/
def Decoded.wf : Decoded → Bool
  | .picture sps _ luma _ => decide (sps.profile < 6) && decide (luma.length = sps.w * sps.h) && luma.all (fun y => decide (y < 2 ^ sps.depth))
  | .corrupt => true

/-- Arrival times of one marker, for each of 4, 8 or 16 data lanes (R77). -/
def laneTimes (l : List Nat) : Bool := l.length == 4 || l.length == 8 || l.length == 16

/-- An IPv4 or an IPv6 address (R117). -/
def ipAddr (b : List Byte) : Bool := b.length == 4 || b.length == 16

/-- What one write to a 64-byte port carries (R168). -/
def portBytes (b : List Byte) : Bool := decide (1 ≤ b.length ∧ b.length ≤ 64)

/-- A line of memory (R307, R319). -/
def lineBytes (b : List Byte) : Bool := b.length == 64

/-- An Ethernet frame holds at least its addresses and its type (R407). -/
def ethBytes (b : List Byte) : Bool := decide (14 ≤ b.length)

/-- A Kralon flit has 256 bytes (R368). -/
def flitLength (b : List Byte) : Bool := b.length == 256

/-- The well-formed commands. -/
def Instr.wf : Instr → Bool
  | .powerOn env => env.wf
  | .deviceReset _ _ env => env.wf
  | .hostLost env => env.wf
  | .align _ slots => laneTimes slots
  | .lineStart _ _ _ slots => laneTimes slots
  | .lineEnd _ _ crcs => crcs.length == 4 || crcs.length == 8 || crcs.length == 16
  | .rtpPacket _ src _ payload => ipAddr src && decide (payload.length ≤ 65507)
  | .pictureDecoded _ r => r.wf
  | .queuePortWrite _ data => portBytes data
  | .postPort _ data => portBytes data
  | .recordCommit data => portBytes data
  | .mgmtRequest _ frame _ => ethBytes frame
  | .commonsAccess _ _ _ _ data _ => lineBytes data
  | .mcAccept _ _ _ _ _ _ data => lineBytes data
  | .tilePlacement _ _ data => portBytes data
  | .badFlit _ flit => flitLength flit
  | .wr _ flit => flitLength flit
  | .rdReq _ flit => flitLength flit
  | .rdRsp _ flit => flitLength flit
  | .cmpl _ flit => flitLength flit
  | .nak _ flit => flitLength flit
  | .nullFlit _ flit => flitLength flit
  | .beacon _ flit => flitLength flit
  | .report _ flit => flitLength flit
  | .plan _ flit => flitLength flit
  | .routes _ flit => flitLength flit
  | .syncFlit _ flit => flitLength flit
  | .heartbeat _ flit => flitLength flit
  | .linkEvent _ flit => flitLength flit
  | .lost _ flit => flitLength flit
  | .readyFlit _ flit => flitLength flit
  | .shadowOpen data => portBytes data
  | .shadowClose data => portBytes data
  | .ethFrameRx _ frame _ _ => ethBytes frame
  | .monitorSample temps volts => decide (temps.length = 24 ∧ volts.length = 16)
  | .thermalRecovery env => env.wf
  | .procSample counts => decide (counts.length = 32)
  | .railFaultReset env => env.wf
  | .pllLossReset env => env.wf
  | .aliveMiss env => env.wf
  | .openItem _ | .setDeadline _ | .sealNow _ | .setFallback _ | .milestonePass _ _ | .urgencyChange _ | .sealDeadline _ | .lateLimit _
    | .recordEgress _ | .profileCommit _ _ | .profileLoad _ _ | .slewDue | .slewApply | .tbLoRead _ | .tbRateWrite _ | .tbSlewWrite _
    | .calendarSecond | .trimPeriod | .trimWrite _ | .calSet _ | .calSetTick | .calCapture _ | .captureTick | .calSecLoRead _ | .backupLost
    | .powerLoss | .hostUp _ _ | .wardenWatchdog | .cfgProgram _ _ | .cfgProgramDone _ | .forceChrysalis _ _ | .registerWrite _ _ _
    | .unmappedAccess _ _ _ _ | .lockWrite _ _ _ | .evtStsWrite _ _ _ | .evtEnWrite _ _ _ | .evtForce _ _ _ | .holdoffExpiry _
    | .evtChanCfgWrite _ | .snapArm _ | .snapTake | .snapCancel _ | .portEnable _ _ _ | .portDisable _ _ _ | .portFmtWrite _ _ _
    | .laneLock _ _ | .laneLockLoss _ _ | .colourStart _ _ _ | .dataBlock _ _ _ | .regReply _ _ _ _ | .lineClock _ | .expOn _ _
    | .expOff _ _ | .strobeOn _ _ | .strobeOff _ _ | .stepRise _ | .stepFall _ | .regWrite _ | .regRead _ | .regTimeout _ | .applyTiming _
    | .coefLoad _ | .coefLoadDone _ | .swap _ _ _ | .archLinesWrite _ _ _ | .calStart _ _ _ | .stripeLand _ | .stripeHand _ | .steerPost _ _
    | .ctxCommit _ | .ctxLoad _ | .gapLoss _ | .streamLost _ | .decodeStart | .createEspot _ | .updateEspot _ | .missEspot _
    | .capturedEspot _ | .espotRetire _ | .frameDone _ | .reread _ | .sampleProduced _ _ | .sampleRelease _ | .batchWaitExpiry _ _
    | .cntCopied | .tileNop _ | .seti _ | .addi _ | .bnz _ | .deq _ | .retire _ | .sync _ | .tileEnd _ | .matmul _ | .conv _ | .pwise _
    | .tileNorm _ | .tileLoad _ | .tileStore _ | .hsend _ | .hrecv _ | .instructionComplete _ _ | .tileStart _ _ | .tileStop _ _
    | .codecClr _ _ | .semPost _ _ | .detDone _ _ | .seqOpen _ | .seqEnd _ | .pfxAcquire _ | .pfxRelease _ | .stepOpen _ | .attend _
    | .verify _ | .auSemPost _ _ | .auEnable _ _ _ | .auDisable _ _ _ | .vocLoad _ | .vocUnload _ | .normLoad _ | .normUnload _ | .grmLoad _
    | .grmUnload _ | .lexRegister _ | .lexUnregister _ | .tokenize _ | .gctxOpen _ | .gctxClose _ | .advance _ | .grmMask _ | .grmCheck _
    | .draft _ | .grmDone _ | .tguEnable _ | .tguDisable _ | .hartInstruction _ | .hartLoad _ | .hartStore _ | .amo _ | .lr _ | .sc _
    | .fence _ | .fenceI _ | .xfence _ | .xpark _ | .wrs _ | .wrsStoTimeout _ | .urgWrite _ | .peerrWrite _ | .mevtqRead _ | .satpWrite _
    | .vsWrite _ | .vectorInstruction _ | .mtimer _ | .coreLaunch _ _ _ | .ipi _ | .fwReady _ _ | .fwReadyTimeout | .fwBoot _ _
    | .fwProgram _ _ | .fwProgramDone _ | .wardenBridgeTimeout _ _ | .asmDone _ | .destLoad _ | .serviceStart _ | .statusRecord
    | .mcIssue _ _ | .mcReadReturn _ _ _ | .writeParityReport _ _ _ _ _ | .caParity _ | .refresh _ _ | .hbmTempRead _ _ | .retrainDue _
    | .retrainPause _ | .retrainPauseEnd _ _ | .rowIdleClose _ _ | .rhWindow _ | .scrub _ _ _ | .chRelease _ _ _ | .chReleaseClear _ _ _
    | .chReleaseDone _ _ | .pcmdCreate _ _ | .pcmdDestroy _ _ | .pcmdReset _ _ | .pcmdDone | .partitionLaunch _ _ _ _ | .quantumExpiry _
    | .drainLimit _ | .yieldLimit _ | .transferDone _ | .adaptRelease _ _ | .adaptPass _ | .viStart _ | .viStartCheck _ _ | .viReset _ _ _
    | .resetCutoff _ _ | .viResetDone _ _ | .klEnable _ _ | .klDisable _ _ | .linkEnable _ _ _ | .linkDisable _ _ _ | .linkTrained _
    | .linkTrainTimeout _ | .linkFail _ _ | .nullTimer _ | .beaconTimer | .electQuiet | .routeAct | .syncTimer | .heartbeatTimer
    | .peerTimeout _ | .splitTimeout | .queueCreate _ _ | .queueDestroy _ _ | .tailDoorbell _ _ _ _ | .cqHeadDoorbell _ _ _ _
    | .recordHeadDoorbell _ _ _ _ | .cmdFetch _ | .copy _ | .send _ | .mgmt _ _ | .coalTimer _ _ | .netLink _ _ | .vfFlr _ | .msixUnmask _ _
    | .thermalTrip _ _ | .railWarn _ _ | .railFault _ _ | .rootPllLoss | .alive | .fenceElement _ _ | .unfenceElement _ _ | .selfTestDone _
    | .safeEnter _ _ | .safeLeave _ _ | .flogSelect _ | .flogLoadDone | .flogCommit _ | .flogErase _ _ | .flogEraseDone
    | .pinFuncWrite _ _ _ | .pinHoldEnd _ | .gpioSet _ | .gpioClr _ | .inputCross _ _ | .alertSample | .alertModeWrite _ _ | .overcurrent
    | .tripRetry | .alertClear _ _ | .jtagReset | .jtagBypass | .idcode | .samplePreload _ | .extest _ | .clamp | .highz | .calendarTick
    | .invalidHeader _ | .trainingRetry _ | .bundleRetry _ | .lostStreamSetup _ | .presenceChange _ _ | .configSpaceWrite _ _ _ _ => true

end Sys2Proof
end

