-- ==== Sys2Proof/Tests/Slice0.lean ====
section
/-! SUPPORT. Tests: one ill-formed term for each check of `WellFormed`, and for each statement a concrete state and operands that meet
its hypotheses. -/
namespace Sys2Proof.Tests
open Sys2Proof Sys2Proof.Machine
set_option Elab.async false

/-- The 64 bytes of a command. -/
def cmdBits (b : Bytes) : BitVec 512 := BitVec.ofNat 512 (leNat b)
/-- Queue 9 executes the command `b`, for the physical function. -/
def cmdQueue (s : State) (b : Bytes) : State := { s with qs := [(9, { state := .run, cur := some (cmdBits b), part := 8 })] }
/-- `s` with the timebase at n, running. -/
def atTime (s : State) (n : Nat) : State := { s with clk := { s.clk with running := true, tb := BitVec.ofNat 64 n } }

/-! ## Ill-formed commands, one for each check -/

/-- An emergence that nothing fails, but for the elements listed. -/
def emergeWith (sram hbm : List (Nat × Nat)) : Emerge := { railsOk := true, pllFails := 0, sram := sram, hbm := hbm }
theorem test_wf_emergeKind : (Instr.powerOn (emergeWith [(6, 0)] [])).wf = false := by decide
theorem test_wf_emergeElement : (Instr.deviceReset 0 0 (emergeWith [(0, 160)] [])).wf = false := by decide
theorem test_wf_emergeChannel : (Instr.hostLost (emergeWith [] [(64, 4)])).wf = false := by decide
theorem test_wf_emergeCause : (Instr.thermalRecovery (emergeWith [] [(0, 3)])).wf = false ∧ (Instr.railFaultReset (emergeWith [] [(0, 6)])).wf = false ∧
    (Instr.pllLossReset (emergeWith [] [(0, 0)])).wf = false ∧ (Instr.aliveMiss (emergeWith [(1, 96)] [])).wf = false ∧
    (Instr.aliveMiss (emergeWith [(1, 95)] [(63, 5)])).wf = true := by decide
theorem test_wf_laneTimes : (Instr.align 0 [0, 0, 0]).wf = false ∧ (Instr.lineStart 0 0 3 []).wf = false ∧ (Instr.align 0 [0, 0, 0, 0]).wf = true := by decide
theorem test_wf_lineCrcs : (Instr.lineEnd 0 0 [0, 0, 0, 0, 0]).wf = false := by decide
theorem test_wf_address : (Instr.rtpPacket 0 [1, 2, 3] 5004 []).wf = false := by decide
theorem test_wf_datagram : (Instr.rtpPacket 0 [1, 2, 3, 4] 5004 (zeros 65508)).wf = false := by
  have h : (zeros 65508).length = 65508 := List.length_replicate
  show (ipAddr [1, 2, 3, 4] && decide ((zeros 65508).length ≤ 65507)) = false
  rw [h]; rfl
/-- A decoded picture of 2 × 1 samples. -/
def tinyPic (profile : Nat) (luma : List Nat) : Decoded :=
  .picture { profile := profile, level := 40, depth := 8, chroma420 := true, progressive := true, plainTools := true, w := 2, h := 1, levelFits := true } 0 luma 1
theorem test_wf_pictureProfile : (Instr.pictureDecoded 0 (tinyPic 6 [0, 255])).wf = false := by decide
theorem test_wf_pictureSize : (Instr.pictureDecoded 0 (tinyPic 1 [0])).wf = false := by decide
theorem test_wf_pictureDepth : (Instr.pictureDecoded 0 (tinyPic 1 [0, 256])).wf = false ∧ (Instr.pictureDecoded 0 (tinyPic 1 [0, 255])).wf = true := by decide
theorem test_wf_portEmpty : (Instr.queuePortWrite 0 []).wf = false ∧ (Instr.postPort 0 []).wf = false ∧ (Instr.recordCommit []).wf = false := by decide
theorem test_wf_portLong : (Instr.tilePlacement 0 0 (zeros 65)).wf = false ∧ (Instr.shadowOpen (zeros 65)).wf = false ∧
    (Instr.shadowClose (zeros 65)).wf = false ∧ (Instr.shadowClose (zeros 64)).wf = true := by decide
theorem test_wf_lineBytes : (Instr.commonsAccess 0 true 0 0 (zeros 63) 0).wf = false ∧ (Instr.mcAccept 0 0 0 true 0 0 (zeros 65)).wf = false := by decide
theorem test_wf_frame : (Instr.mgmtRequest 0 (zeros 13) true).wf = false ∧ (Instr.ethFrameRx 0 (zeros 13) true false).wf = false := by decide
theorem test_wf_flit : (Instr.badFlit 0 []).wf = false ∧ (Instr.wr 0 [1]).wf = false ∧ (Instr.rdReq 0 [1]).wf = false ∧ (Instr.rdRsp 0 [1]).wf = false ∧
    (Instr.cmpl 0 [1]).wf = false ∧ (Instr.nak 0 [1]).wf = false ∧ (Instr.nullFlit 0 [1]).wf = false := by decide
theorem test_wf_managementFlit : (Instr.beacon 0 [1]).wf = false ∧ (Instr.report 0 [1]).wf = false ∧ (Instr.plan 0 [1]).wf = false ∧
    (Instr.routes 0 [1]).wf = false ∧ (Instr.syncFlit 0 [1]).wf = false ∧ (Instr.heartbeat 0 [1]).wf = false ∧ (Instr.linkEvent 0 [1]).wf = false ∧
    (Instr.lost 0 [1]).wf = false ∧ (Instr.readyFlit 0 [1]).wf = false := by decide
theorem test_wf_monitors : (Instr.monitorSample (List.replicate 23 0) (List.replicate 16 0)).wf = false ∧
    (Instr.monitorSample (List.replicate 24 0) (List.replicate 17 0)).wf = false ∧ (Instr.procSample [0]).wf = false := by decide

/-! ## One step on a small state, with the result the spec gives -/

/-- A property of the state after one command. -/
def after (i : Instr) (s : State) (p : State → Bool) : Bool := match exec i s with | .next t => p t | _ => false
/-- A register write reaches its register; SEAL_LEAD_US below 6 stores 6 (GT_CTL). -/
theorem test_sealLeadClamped : after (.registerWrite 0 0x2040 5) State.reset (fun t => t.fld Reg.GT_CTL 9 0 == 6) = true := by decide +kernel
/-- A locked group turns another value away and keeps the register (R60, R61). -/
theorem test_lockedWrite : after (.registerWrite 0 0x2040 5) (State.reset.wr 0x201C 1) (fun t => t.rd Reg.GT_CTL == 12 && t.rd Reg.LOCKVIOL_CNT == 1) = true := by
  decide +kernel
/-- −128 is stored as −127 in CAL_TRIM (R42). -/
theorem test_trimClamped : after (.trimWrite 0x80) State.reset (fun t => t.clk.trim == 0x81) = true := by decide +kernel
/-- A power-on with nothing stored ends in READY, outside the safe state (R46). -/
theorem test_powerOnReady : after (.powerOn (emergeWith [] [])) State.reset (fun t => t.ready && !t.safe && t.clk.running) = true := by decide +kernel

theorem witness_idle : State.reset.pending = [] ∧ State.reset.clk.running = false := by decide
theorem witness_idle_runs : ({ State.reset with clk := { running := true } } : State).clk.running = true := by decide

theorem witness_footprint : Fld.mem ∉ footprint (.captureTick) ∧ Fld.tiles ∉ footprint (.tbSlewWrite 0) := by decide

theorem witness_memory : Memory.wf State.reset.mem = true ∧ Memory.wf (State.reset.st 0x1000 [1, 0, 2]).mem = true := by decide +kernel

/-- An open item with ID 55, of no partition. -/
def wOpenItem : Item := { anchor := 0, prof := 0, pv := {}, lead := 12, fallback := 0, dmask := 0, part := 8, vi := 0, sealAt := 1000000, hasDl := true }
def wOpenCmd : Bytes := toLe 8 1000 ++ [2, 5] ++ zeros 6 ++ toLe 2 4 ++ zeros 46
def wOpenItemState : State := { (cmdQueue State.reset wOpenCmd).setFlag Reg.AO_EMG_STS 31 true with profs := [(5, { speed := 1, dist := 100 })] }
theorem witness_openItem : wOpenItemState.executing 9 4 = some (cmdBits wOpenCmd) ∧ wOpenItemState.tagFenced (wOpenItemState.queue 9) = false ∧
    zeroAt (cmdBytes (cmdBits wOpenCmd)) 18 2 = true ∧ zeroAt (cmdBytes (cmdBits wOpenCmd)) 24 8 = true ∧ zeroAt (cmdBytes (cmdBits wOpenCmd)) 10 6 = true ∧
    byteAt (cmdBytes (cmdBits wOpenCmd)) 9 = 5 ∧ wOpenItemState.ready = true ∧
    (wOpenItemState.now : Int) < (newItem 1000 5 (wOpenItemState.profs.get {} 5) wOpenItemState.lead (wOpenItemState.profMask 5) (wOpenItemState.queue 9).ownerOf).sealAt := by decide +kernel
def gateCmd (op x : Nat) : Bytes := toLe 8 55 ++ toLe 8 x ++ toLe 2 op ++ zeros 46
def wGateCmd (op x : Nat) : State := { cmdQueue State.reset (gateCmd op x) with items := [(55, wOpenItem)] }
theorem witness_setDeadline : (wGateCmd 1 90000000).executing 9 1 = some (cmdBits (gateCmd 1 90000000)) ∧ (wGateCmd 1 90000000).tagFenced ((wGateCmd 1 90000000).queue 9) = false ∧
    reservedOk (cmdBytes (cmdBits (gateCmd 1 90000000))) = true ∧ (wGateCmd 1 90000000).item 55 = some wOpenItem ∧
    (wGateCmd 1 90000000).owns ((wGateCmd 1 90000000).queue 9) 8 = true ∧ leAt (cmdBytes (cmdBits (gateCmd 1 90000000))) 8 8 = 90000000 := by decide +kernel
theorem witness_sealNow : (wGateCmd 2 0).executing 9 2 = some (cmdBits (gateCmd 2 0)) ∧ reservedOk (cmdBytes (cmdBits (gateCmd 2 0))) = true ∧
    zeroAt (cmdBytes (cmdBits (gateCmd 2 0))) 8 8 = true ∧ wOpenItem.sealInfo = none ∧ wOpenItem.shadow = none := by decide +kernel
theorem witness_setFallback : (wGateCmd 3 7).executing 9 3 = some (cmdBits (gateCmd 3 7)) ∧ zeroAt (cmdBytes (cmdBits (gateCmd 3 7))) 10 6 = true := by decide +kernel

def wItemAt (n : Nat) (it : Item) : State := { atTime State.reset n with items := [(55, it)] }
theorem witness_milestonePass : (wItemAt 2000000 wOpenItem).item 55 = some wOpenItem ∧ wOpenItem.hasDl = true ∧ wOpenItem.done.getLsbD 1 = false ∧ wOpenItem.ovr.getLsbD 1 = false ∧
    wOpenItem.milestone 1 ≤ ((wItemAt 2000000 wOpenItem).now : Int) := by decide +kernel
theorem witness_sealDeadline : wOpenItem.sealAt ≤ ((wItemAt 1000000 wOpenItem).now : Int) := by decide +kernel
def wSealedItem : Item := { wOpenItem with sealInfo := some { cause := .deadline, stamp := 1000000, decision := 0, status := 0 } }
theorem witness_lateLimit : (wItemAt 9000000000000 wSealedItem).item 55 = some wSealedItem ∧ wSealedItem.sealInfo.isSome = true ∧ wSealedItem.shadow = none ∧
    wSealedItem.lateLimit ≤ ((wItemAt 9000000000000 wSealedItem).now : Int) := by decide +kernel
theorem witness_urgencyChange : (wItemAt 5 wOpenItem).batches = [] := rfl

theorem witness_openDeadline : (wOpenItemState.profs.get {} 5).speed ≠ 0 ∧
    (wOpenItemState.now : Int) < (1000 + ((wOpenItemState.profs.get {} 5).dist * 100000000 / (wOpenItemState.profs.get {} 5).speed : Nat) - (wOpenItemState.profs.get {} 5).margin * 1000 : Int) - wOpenItemState.lead * 1000 := by
  decide +kernel
theorem witness_openStays : ((wOpenItemState.openItem 2050 1000 5 (8, 0)).2.2.item (wOpenItemState.openItem 2050 1000 5 (8, 0)).1).isSome = true := by decide +kernel

/-- An item in detection: capture is done, its window is from 1,000,000 to 2,000,000. -/
def wWindow : Item := { wOpenItem with done := 1, ms := [1000000, 2000000, 3000000, 4000000], sealAt := 5000000 }
theorem witness_urgencyWindow : let s := wItemAt 1600000 wWindow
    s.item 55 = some wWindow ∧ wWindow.sealInfo = none ∧ wWindow.shadow = none ∧ wWindow.hasDl = true ∧ wWindow.done.getLsbD 0 = true ∧
    wWindow.done.getLsbD 1 = false ∧ s.batches = [] ∧ wWindow.milestone 0 = 1000000 ∧ 0 ≤ wWindow.milestone 1 - wWindow.milestone 0 ∧
    (wWindow.milestone 1 - wWindow.milestone 0) / 4 < wWindow.milestone 1 - (s.now : Int) ∧
    wWindow.milestone 1 - (s.now : Int) ≤ (wWindow.milestone 1 - wWindow.milestone 0) / 2 := by decide +kernel
theorem witness_urgencyEdges : (wWindow.milestone 1 - wWindow.milestone 0) / 2 < wWindow.milestone 1 - 1499999 ∧
    wWindow.milestone 1 - 1500000 = (wWindow.milestone 1 - wWindow.milestone 0) / 2 ∧ wWindow.milestone 1 - 1750000 = (wWindow.milestone 1 - wWindow.milestone 0) / 4 ∧
    wWindow.milestone 1 - 2000000 ≤ 0 := by decide +kernel

theorem witness_latchKey : latchKey 0xC000 ≠ latchKey 5 ∧ latchKey 0xFFFF ≠ latchKey 5 := by decide

def wShares : State := State.reset.wr Reg.GT_PROF_SHARES 0x4080C0E0
theorem witness_profileCommit : let w := wShares.windowProfile
    (0 < w.cap ∧ w.cap < w.det ∧ w.det < w.recog ∧ w.recog < w.grm) ∧ wShares.flag 0x201C 0 = false := by decide +kernel
theorem witness_profileBad : let w := (State.reset.wr Reg.GT_PROF_SHARES 0x40404040).windowProfile
    ¬ (0 < w.cap ∧ w.cap < w.det ∧ w.det < w.recog ∧ w.recog < w.grm) := by decide +kernel
theorem witness_profileLoad : bit (5 : Word) 31 = false := by decide

theorem witness_aligning : State.reset.aligning = false ∧ (State.reset.setFld Reg.KL_STS 31 28 4).aligning = true := by decide +kernel
theorem witness_slewDue : let s : State := { State.reset with clk := { State.reset.clk with running := true, tick := 2047, slew := 5, rate := 0xFFFFFFFF } }
    s.clk.tick + 1 = 0 ∧ s.clk.slew ≠ 0 ∧ s.clk.stepOne = false := by decide +kernel
theorem witness_slewApply : let s : State := { State.reset with clk := { State.reset.clk with running := true, owed := true, slew := 0xFFFFFFFF } }
    s.clk.owed = true ∧ s.clk.slew.toInt < 0 ∧ s.clk.stepOne = true := by decide +kernel

def wCal (setReq capReq : Bool) (frac : BitVec 16) : State :=
  { State.reset with clk := { State.reset.clk with running := true, calOn := true, setReq := setReq, capReq := capReq, calFrac := frac } }
theorem witness_calendarTick : (wCal false false 0).clk.calOn = true ∧ (wCal false false 0).clk.setReq = false ∧ rolls (wCal false false 0).clk = false := by decide +kernel
theorem witness_calendarSecond : rolls (wCal false false 65534).clk = true := by decide +kernel
theorem witness_trimPeriod : let s : State := { State.reset with clk := { State.reset.clk with calOn := true, period := 0 - 1 } }
    s.clk.period + 1 = 0 := by decide +kernel
theorem witness_calSet : (wCal true true 0).clk.setReq = true ∧ (wCal true true 0).clk.capReq = true ∧ (wCal true true 0).clk.running = true := by decide +kernel
/-- Pin 31 shows TB_PPS, outside the safe state. -/
def wPps (frac : BitVec 16) : State := (((wCal false false frac).setFlag Reg.AO_EMG_STS 31 true).wr Reg.HM_STS 0).wr (Reg.PIN_CFG 31) 2
theorem witness_pps : (wPps 65534).ready = true ∧ (wPps 65534).safe = false ∧ (wPps 65534).pinFunc 31 = 2 ∧ (wPps 65534).pins.hold.look 31 = none ∧
    (wPps 65534).flag (Reg.PIN_CFG 31) 26 = false ∧ (wPps 65534).pinInv 31 = false ∧ rolls (wPps 65534).clk = true ∧
    rolls (wPps 6552).clk = false ∧ 6554 ≤ (wPps 6552).clk.calFrac.toNat + tickStep (wPps 6552).clk.trimNow (wPps 6552).clk.period.toNat := by decide +kernel

theorem witness_page : pageAt ((0x002 : BitVec 14).toNat * 0x1000) = some .gt := by decide +kernel
theorem witness_holdoff : let s : State := { State.reset with holding := [7] }
    s.holding.contains 7 = true ∧ s.chanPend 7 = false := by decide +kernel
/-- Channel 7 holds a signal of KIND 3. -/
def wChanPend : State := (({ State.reset with holding := [7] } : State).setFlag (Reg.EVT_CHAN_PEND 0) 7 true).wr (bank 7 Reg.EVT_CHAN_CFG) 0xC0000000
theorem witness_holdoffPending : wChanPend.holding.contains 7 = true ∧ wChanPend.chanPend 7 = true ∧ bits (wChanPend.chanCfg 7) 31 30 = 3 := by decide +kernel

theorem witness_snapArm : State.reset.snapAt = none ∧ State.reset.now + 2000 ≤ (State.reset.rd Reg.SNAP_AT_LO).toNat + (1 : Word).toNat * 2 ^ 32 := by decide +kernel
theorem witness_snapRefused : (State.reset.rd Reg.SNAP_AT_LO).toNat + (0 : Word).toNat * 2 ^ 32 < State.reset.now + 2000 := by decide +kernel
theorem witness_snapTake : ({ State.reset with snapAt := some 0 } : State).snapAt = some 0 ∧ (0 : DWord).toNat ≤ State.reset.now := by decide +kernel

def portRun : State := ((({ State.reset with ports := [(1, { ({} : Port) with lines := 5, active := { ({} : Timing) with stepEn := true }, rx := some { n := 4, fmtOk := true } })] } : State).wr (Reg.PORT_CTL 1) 1).wr (Reg.PORT_FMT 1) 0x0300_0100).wr Reg.HM_STS 0
theorem witness_portEvents : portRun.portOn 1 = true ∧ 2 < portRun.colours 1 ∧ 0 < (portRun.port 1).lines ∧ portRun.safe = false ∧ (portRun.port 1).active.stepEn = true ∧ (portRun.port 1).rx.isSome = true ∧ 3 < portRun.laneCount 1 := by decide

def wRegOpen : State := ({ portRun with ports := [(1, { ({} : Port) with regTag := 9, regRead := true })] } : State).setFlag (Reg.REG_STS 1) 31 true
theorem witness_regFree : portRun.flag (Reg.REG_STS 1) 31 = false ∧ portRun.portOn 1 = true ∧ portRun.safe = false := by decide +kernel
theorem witness_regOpen : wRegOpen.flag (Reg.REG_STS 1) 31 = true ∧ (9 : Byte).toNat = (wRegOpen.port 1).regTag ∧ (8 : Byte).toNat ≠ (wRegOpen.port 1).regTag := by decide +kernel

def linkAt (k : Nat) : State := ((({ portRun with ports := [(1, { ({} : Port) with deskew := [0, 1, 2, 3] })] } : State).setFld (Reg.PORT_STS 1) 1 0 k).setFld
  (Reg.PORT_STS 1) 31 16 7)
theorem witness_laneLock : 3 < (linkAt 1).laneCount 1 ∧ (linkAt 1).linkState 1 = 1 ∧ ((linkAt 1).setFlag (Reg.PORT_STS 1) (16 + 3) true).allLocked 1 = true := by decide +kernel
theorem witness_laneLoss : 2 ≤ (linkAt 3).linkState 1 ∧ (linkAt 0).linkState 1 < 2 := by decide +kernel
theorem witness_align : [8, 0, 3, 5].length = (linkAt 2).laneCount 1 ∧ (linkAt 2).linkState 1 = 2 ∧ spread [8, 0, 3, 5] ≤ 8 := by decide +kernel
theorem witness_deskew : (linkAt 3).linkState 1 = 3 ∧ offDeskew ((linkAt 3).port 1).deskew [0, 3, 2, 3] = true ∧
    ((linkAt 3).setFlag (Reg.PORT_STS 1) 16 false).flag (Reg.PORT_STS 1) 16 = false := by decide +kernel
theorem witness_portFmt : State.reset.portOn 1 = false ∧ (State.reset.store 0 (Reg.PORT_FMT 1) 0x01000140).2 = true := by decide +kernel
/-- A staged set that meets R76 and R82 to R85: a line of 600 cycles, exposures of 500, strobes that follow. -/
def wTiming : State := (((((portRun.wr (Reg.LINE_PER 1) 600).wr (Reg.EXP_STOP0 1) 500).wr (Reg.EXP_STOP1 1) 500).wr (Reg.EXP_STOP2 1) 500).wr (Reg.STB_CTL 1) 7).wr
  (Reg.STEP_CFG 1) 1
theorem witness_applyTiming : wTiming.timingOk 1 (wTiming.staged 1) = true ∧ (wTiming.wr (Reg.LINE_PER 1) 599).timingOk 1 ((wTiming.wr (Reg.LINE_PER 1) 599).staged 1) = false := by
  decide +kernel

/-- Port 1 off, with a format, a timing set and stripes that an enable accepts. -/
def wEnable : State := (((wTiming.wr (Reg.PORT_CTL 1) 0).wr (Reg.STRIPE_CFG 1) 0).wr (Reg.STRIPE_WIN 1) 0x400).wr (Reg.ZONE 1) 0x180000
theorem witness_portEnable : wEnable.portOn 1 = false ∧ (wEnable.store 0 (Reg.PORT_CTL 1) (0 ||| 1)).2 = true ∧
    (wEnable.store 0 (Reg.PORT_CTL 1) (0 ||| 1)).1.formatOk 1 = true ∧
    (wEnable.store 0 (Reg.PORT_CTL 1) (0 ||| 1)).1.timingOk 1 ((wEnable.store 0 (Reg.PORT_CTL 1) (0 ||| 1)).1.staged 1) = true ∧
    (wEnable.store 0 (Reg.PORT_CTL 1) (0 ||| 1)).1.stripeOk 1 = true ∧ wEnable.safe = false := by decide +kernel
theorem witness_portFormatBad : ((wEnable.wr (Reg.PORT_FMT 1) 0x0F000100).store 0 (Reg.PORT_CTL 1) (0 ||| 1)).1.formatOk 1 = false := by decide +kernel
theorem witness_portDisable : portRun.portOn 1 = true ∧ (portRun.store 0 (Reg.PORT_CTL 1) (0 &&& 0xFFFFFFFE)).2 = true := by decide +kernel
theorem witness_swap : (portRun.store 0 (Reg.COND_CTL 1) (0 ||| 0x10)).2 = true := by decide +kernel
theorem witness_coefLoad : portRun.flag (Reg.COND_STS 1) 31 = false ∧ (portRun.port 1).swapReq = false ∧
    (portRun.setFlag (Reg.COND_STS 1) 31 true).flag (Reg.COND_STS 1) 31 = true := by decide +kernel
theorem witness_archLines : (portRun.store 0 (Reg.ARCH_LINES 1) 4096).2 = true := by decide +kernel
theorem witness_calStart : (portRun.store 0 (Reg.P2_CAL_CTL 1) (0x20000000 ||| 0x80000000)).2 = true ∧ bits (0x20000000 : Word) 29 28 = 2 := by decide +kernel

def lineUp (x : Port) : State := ({ portRun with ports := [(1, x)] } : State).setFld (Reg.PORT_STS 1) 1 0 3
theorem witness_lineClock : portRun.portOn 1 = true ∧ portRun.safe = false ∧ (portRun.port 1).calArmed = false ∧
    (lineUp { lines := 5, expect := 4 }).port 1 = { lines := 5, expect := 4 } ∧ 5 < 4 + 2 := by decide +kernel
def wLineWait : State := lineUp { lines := 5, expect := 4, deskew := [0, 0, 0, 0] }
theorem witness_lineStart : wLineWait.portOn 1 = true ∧ wLineWait.linkState 1 = 3 ∧ [1, 1, 1, 1].length = wLineWait.laneCount 1 ∧
    offDeskew (wLineWait.port 1).deskew [1, 1, 1, 1] = false ∧ (wLineWait.port 1).expect < (wLineWait.port 1).lines ∧
    (4 : BitVec 16).toNat = (wLineWait.port 1).expect % 65536 ∧ (wLineWait.port 1).rx = none := by decide +kernel
/-- Every lane has sent its 12 words of each colour of line 4; the running CRCs stand at their initial value. -/
def wRxLine : RxLine := { n := 4, fmtOk := true, colours := 3, colour := 2, count := [(0, 12), (1, 12), (2, 12), (3, 12)] }
def wLineGot : State := lineUp { lines := 5, expect := 4, rx := some wRxLine, dly := [5, 0, 0] }
theorem witness_lineEnd : (wLineGot.port 1).rx = some wRxLine ∧ (wLineGot.port 1).expect = wRxLine.n ∧
    (wLineGot.lineGot 1 wRxLine 4 [0, 0, 0, 0]).toBool = true ∧ wLineGot.flag (Reg.P2_CAL_STS 1) 31 = false ∧ (wLineGot.port 1).passing = false ∧
    wRxLine.n < ((wLineGot.port 1).dly.take (wLineGot.colours 1)).foldl max 0 := by decide +kernel
def wFace (landed handed : Nat) : Face := { id := 55, lead := 0, pad := 0, anchor := 0, skewWin := 0, framed := true, landed := landed, handed := handed }
/-- Port 1 with that face, lines to 60 passed, stripes of 16 rows on tile 0, which partition 2 owns; the port is assigned to its instance 0. -/
def stripeRun (f : Face) : State :=
  let s : State := { portRun with
    ports := [(1, { faces := [f], lastLine := some 60, firstLine := some 0 })],
    parts := [(2, { state := .active, desc := 2 ^ 1024 - 1, phase := .run })] }
  (((s.wr (Reg.STRIPE_CFG 1) 0).wr (Reg.STRIPE_WIN 1) 0x400).wr (Reg.ZONE 1) 0x180000).wr (bank 1 Reg.SRC_MAP) 0xA000
theorem witness_stripeLand : let f : Face := { wFace 0 0 with trail := some 40 }
    (stripeRun f).landFace 1 = some f ∧ f.framed = true ∧ (stripeRun f).rowsReady 1 f f.landed = true ∧ ((stripeRun f).port 1).slots.get none 0 = none := by
  decide +kernel
theorem witness_stripeHand : let s := stripeRun (wFace 1 0)
    (s.port 1).live.find? (fun f => decide (f.handed < f.landed)) = some (wFace 1 0) ∧ isFull (s.fullEvery 1) 0 = true ∧ s.srcMap 1 = some (2, 0) ∧
    s.groupFenced (s.tileFirst 1) (s.groupG 1) = false ∧
    (List.range (s.groupG 1)).all (fun b => s.tileOwner (s.tileFirst 1 + b) == some 2) = true ∧
    s.groupTakes (s.tileFirst 1) (s.groupG 1) = true ∧ s.instRuns 2 0 = true := by decide +kernel
theorem witness_steerPost : let s := stripeRun (wFace 1 1)
    (s.port 1).live.find? (fun f => decide (0 < f.handed) && f.mask.isNone && !isFull (s.fullEvery 1) f.handed) = some (wFace 1 1) ∧
    bits (0x00370000 : Word) 31 16 = 55 ∧ bits (0x00370000 : Word) 15 0 = 1 - 1 ∧ bits (0x00380000 : Word) 31 16 ≠ 55 := by decide +kernel

/-- The reset state outside the safe state, with pin 5 held high. -/
def wPins : State := { (State.reset.wr Reg.HM_STS 0) with pins := { State.reset.pins with hold := [(5, true)] } }
theorem witness_pinFunc : 2 < bits (3 : Word) 3 0 ∧ bits (1 : Word) 3 0 ≤ 2 ∧ (wPins.store 0 (Reg.PIN_CFG 5) 1).2 = true ∧
    bits (1 : Word) 3 0 ≠ wPins.pinFunc 5 ∧ wPins.safe = false := by decide +kernel
theorem witness_pinHold : (wPins.pins.hold.look 5).isSome = true := by decide +kernel
theorem witness_inputCross : let s := State.reset.setFlag Reg.AO_EMG_STS 31 true
    s.ready = true ∧ s.pad 7 ≠ .low ∧ s.pad 7 ≠ .high ∧ s.safe = true ∧ wPins.safe = false := by decide +kernel

/-- The stage enabled, mode 1, a cadence under way. -/
def wTone : State := ((State.reset.wr Reg.HM_STS 0).wr Reg.ALERT_CTL 1).wr Reg.TONE_CAD 0x00640064
theorem witness_safeEnter : bits (0x5AF30001 : Word) 31 16 = 0x5AF3 ∧ wTone.safe = false ∧ State.reset.safe = true ∧ State.reset.stopped3 = false := by
  decide +kernel
theorem witness_alertMode : bits (1 : Word) 1 0 = 1 ∧ State.reset.alertMode ≠ 1 ∧ (State.reset.store 0 Reg.ALERT_CTL 1).2 = true ∧
    bits (2 : Word) 1 0 = 2 ∧ State.reset.alertMode ≠ 2 ∧ State.reset.ringOk = false := by decide +kernel
theorem witness_alertSample : wTone.alertMode = 1 ∧ wTone.stageOn = true ∧ wTone.alert.cad < wTone.fld Reg.TONE_CAD 31 16 * 48 := by decide +kernel
def wTrips (n : Nat) (retry : Option Nat) : State := { wTone with alert := { wTone.alert with trips := List.replicate n 0, retry := retry } }
theorem witness_overcurrent : (wTrips 1 none).stageOn = true ∧
    ((wTrips 1 none).alert.trips.filter (fun t => decide ((wTrips 1 none).now ≤ t + 10000000000))).length < 2 ∧
    2 ≤ ((wTrips 2 none).alert.trips.filter (fun t => decide ((wTrips 2 none).now ≤ t + 10000000000))).length := by decide +kernel
theorem witness_tripRetry : (wTrips 1 (some 0)).alert.retry = some 0 ∧ 0 ≤ (wTrips 1 (some 0)).now ∧ (wTrips 1 (some 0)).safe = false := by decide +kernel
theorem witness_alertClear : bits (0xA1E70000 : Word) 31 16 = 0xA1E7 ∧ (wTone.setFlag Reg.ALERT 31 true).flag Reg.ALERT 31 = true := by decide +kernel

/-- The module is powered, with TCLK running. -/
def wOn : State := { atTime State.reset 7 with emg := { State.reset.emg with powered := true } }
theorem witness_monitorSample : wOn.emg.powered = true ∧ (List.replicate 24 (400 : BitVec 16)).length = 24 ∧ (List.replicate 16 (750 : BitVec 16)).length = 16 ∧
    (hottest (List.replicate 24 400)).1.toInt < wOn.shutT := by decide +kernel
theorem witness_procSample : (List.replicate 32 (0xFFFF : BitVec 16)).length = 32 ∧ ∀ c ∈ List.replicate 32 (0xFFFF : BitVec 16), wOn.fld Reg.PROC_CFG 15 0 ≤ c.toNat :=
  ⟨rfl, fun c h => (List.eq_of_mem_replicate h) ▸ (by decide +kernel)⟩
theorem witness_railWarn : railWarns 1 (727 : BitVec 16).toNat = true ∧ wOn.health.warned.look 1 = none := by decide +kernel
theorem witness_thermalTrip : 2000 ≤ (2000 : BitVec 16).toInt ∧ wOn.inShutdown = false ∧ wOn.health.handling = none ∧ wOn.clk.running = true := by decide +kernel
theorem witness_railFault : railFails 1 (712 : BitVec 16).toNat = true := by decide +kernel

def wFlogEntry : FEntry := { tb := 1, fseq := 7, cal := 0, cls := 2, tbValid := true, calValid := false, committed := false, code := 0xA0, block := 1, inst := 0, detail := 0 }
def wFlog : State := { State.reset with flogRing := [wFlogEntry], health := { State.reset.health with load := some (7, false), erasing := true } }
theorem witness_flogLoad : wFlog.health.load = some (7, false) ∧ wFlog.flogRing.reverse.find? (fun e => e.fseq == 7) = some wFlogEntry ∧
    wFlog.flogRing.reverse.find? (fun e => e.fseq == 8) = none := by decide +kernel
theorem witness_flogCommit : wFlog.flogRing.filter (fun e => e.fseq == 7 && decide (2 ≤ e.cls) && !e.committed) = [wFlogEntry] := by decide +kernel
theorem witness_flogErase : bits (0xF1E50001 : Word) 31 16 = 0xF1E5 ∧ wFlog.health.erasing = true := by decide +kernel
theorem witness_fenceElement : bits (0xFE4C005F : Word) 31 16 = 0xFE4C ∧ elementPage (bits (0xFE4C015F : Word) 9 8) (bits (0xFE4C015F : Word) 7 0) = some (corePage 95) ∧
    State.reset.health.test = none ∧ State.reset.flag (corePage 95 + 0xC) 30 = false ∧
    (State.reset.setFlag (corePage 95 + 0xC) 30 true).flag (corePage 95 + 0xC) 30 = true := by decide +kernel
theorem witness_selfTest : let s : State := { State.reset with health := { State.reset.health with test := some (2, 7) } }
    s.health.test = some (2, 7) ∧ elementPage 2 7 = some (auPage 7) := by decide +kernel

/-- Rails and PLLs start, and every test passes. -/
def wEmerge : Emerge := { railsOk := true, pllFails := 0, sram := [], hbm := [] }
def wHandling (k : Stop) : State := { wOn with health := { wOn.health with handling := some k, cool := 200000 } }
theorem witness_emergence : wEmerge.railsOk = true ∧ wEmerge.pllFails ≤ 3 ∧ leAt (State.reset.fld8 (bankBase 0) 32) 0 4 ≠ 0x46435849 ∧
    leAt (State.reset.fld8 (bankBase 1) 32) 0 4 ≠ 0x46435849 ∧ leAt (State.reset.fld8 (fwSlot 0) 128) 0 4 ≠ 0x57465849 ∧
    leAt (State.reset.fld8 (fwSlot 1) 128) 0 4 ≠ 0x57465849 ∧ State.reset.emg.powered = false ∧ wOn.emg.resetting = false := by decide +kernel
theorem witness_deviceReset : bits (0xD1A50001 : Word) 31 16 = 0xD1A5 ∧ (wOn.store 0 Reg.AO_RST_CTL (0xD1A50001 ||| 1)).2 = true := by decide +kernel
theorem witness_hostLost : (wOn.setFlag Reg.AO_RST_CTL 1 true).flag Reg.AO_RST_CTL 1 = true ∧ (wOn.setFlag Reg.AO_RST_CTL 1 true).health.handling = none := by
  decide +kernel
theorem witness_stopReset : (wHandling .thermal).health.others = [] ∧ (wHandling .thermal).flag Reg.HM_STS 28 = false ∧
    200000 ≤ (wHandling .thermal).health.cool ∧ (wHandling .rail).health.latched = false ∧ (wHandling .pll).health.handling = some .pll := by decide +kernel
theorem witness_aliveMiss : let s := ({ atTime wOn 300000000 with health := { wOn.health with aliveOn := true } } : State).wr Reg.HM_CTL 0x00010002
    s.fld Reg.HM_CTL 23 16 ≠ 0 ∧ s.health.aliveOn = true ∧ s.health.missed = false ∧ s.health.aliveAt + s.fld Reg.HM_CTL 23 16 * 1000000 ≤ s.now ∧
    s.flag Reg.HM_CTL 1 = true ∧ s.emg.resetting = false := by decide +kernel

def wProgram (n : Word) : State := State.reset.wr Reg.CFG_LEN n
theorem witness_cfgProgram : bits (0x1A570001 : Word) 31 16 = 0x1A57 ∧ (wProgram 2).flag Reg.CFG_STS 6 = false ∧ (wProgram 2).fld Reg.CFG_LEN 17 0 ≤ 131067 ∧
    (wProgram 2).nextInstar ≤ 0xFFFFFFFF ∧ inRange ((wProgram 2).addr48 Reg.CFG_SRC_LO Reg.CFG_SRC_HI / 8 * 8) (8 * (wProgram 2).fld Reg.CFG_LEN 17 0) = true ∧
    131067 < (wProgram 131068).fld Reg.CFG_LEN 17 0 ∧ ((wProgram 2).setFlag Reg.CFG_STS 6 true).flag Reg.CFG_STS 6 = true := by decide +kernel
def wE6 : State := { State.reset with emg := { State.reset.emg with e6 := true, prog := some (1, some [1, 2]) } }
theorem witness_cfgProgramDone : wE6.emg.prog = some (1, some [1, 2]) ∧
    ({ State.reset with emg := { State.reset.emg with prog := some (1, none) } } : State).emg.prog = some (1, none) := by decide +kernel
theorem witness_fwReady : wE6.flag Reg.TF_CTL 0 = false ∧ (wE6.store 0 Reg.TF_CTL (0 ||| 1)).2 = true ∧ wE6.emg.e6 = true ∧ State.reset.emg.e6 = false ∧
    wE6.emg.enables = [] ∧ wE6.flag Reg.KL_CTL 0 = false := by decide +kernel

/-- The register GT_CTL with its DEADLINE group locked. -/
def wLocked : State := State.reset.wr 0x201C 1
theorem witness_plainWrite : Memory.wf State.reset.mem = true ∧ pageAt Reg.DEC_BUDGET = some .sin ∧ Reg.DEC_BUDGET < 2 ^ 26 ∧ 0x40 ≤ Reg.DEC_BUDGET % 0x1000 ∧
    ((defAt Reg.DEC_BUDGET).any fun d => !State.reset.violates Reg.DEC_BUDGET d 5) = true := by decide +kernel
theorem witness_unlockedWrite : State.reset.flag 0x201C 0 = false := by decide +kernel
theorem witness_lockedWrite : wLocked.flag 0x201C 0 = true ∧ bits (5 : Word) 9 0 ≠ wLocked.fld Reg.GT_CTL 9 0 := by decide +kernel
theorem witness_unmapped : pageAt (0x3FFF000 : BitVec 26).toNat = none := by decide +kernel
theorem witness_misaligned : 4 < (3 : BitVec 26).toNat % 4 + (2 : Fin 65).val := by decide

/-- A configuration that R114 and R115 accept: UDP port 5004 of Ethernet port 0, payload type 96, 1280 by 720 at 25 pictures per second. -/
def wCtxCfg : List Word := [0x8060138C, 0, 0, 0, 0, 0x050002D0, 0x000809C4, 0x08100618, 0x7D0, 0xC800, 0, 0, 0]
def wCtxStage (cfg : List Word) : State := (ctxRegs.zip cfg).foldl (fun s e => s.wr e.1 e.2) State.reset
theorem witness_ctxCommit : bit (3 : Word) 30 = false ∧ bits ((wCtxStage wCtxCfg).rd Reg.CTX_CTL) 31 31 = 1 ∧ ((wCtxStage wCtxCfg).ctx 3).on = false ∧
    (wCtxStage wCtxCfg).ctxCheck 3 (ctxRegs.map (wCtxStage wCtxCfg).rd) = 0 := by decide +kernel
theorem witness_ctxRefused : let s := wCtxStage (0x8060138D :: wCtxCfg.drop 1)
    bits (s.rd Reg.CTX_CTL) 31 31 = 1 ∧ (s.ctx 3).on = false ∧ s.ctxCheck 3 (ctxRegs.map s.rd) ≠ 0 := by decide +kernel
theorem witness_ctxOff : bits ((wCtxStage (0x0060138C :: wCtxCfg.drop 1)).rd Reg.CTX_CTL) 31 31 = 0 := by decide +kernel
theorem witness_ctxLoad : bit (3 : Word) 31 = false ∧ (State.reset.ctx 3).cfg.length = 13 := by decide +kernel
def wStream (x : Ctx) : State := { atTime State.reset 1000000000 with ctxs := [(3, { x with cfg := wCtxCfg })] }
/-- A packet with sequence number n, payload type 96 and source 9. -/
def rtp (n : Byte) : Bytes := [0x80, 0x60, 0, n, 0, 0, 0, 5, 0, 0, 0, 9, 0x65, 1, 2]
theorem witness_rtpFirst : (wStream {}).ctxAt (0 : Fin 2) (5004 : BitVec 16).toNat = some 3 ∧
    parseRtp (rtp 1) (wStream {}).now = some (1, 9, 96, { ts := 5, marker := false, payload := [0x65, 1, 2], arrival := 1000000000 }) ∧
    ((wStream {}).ctx 3).srcOk [] = true ∧ 96 = ((wStream {}).ctx 3).f 0 22 16 ∧ ((wStream {}).ctx 3).ssrc.getD 9 = 9 ∧
    ((wStream {}).ctx 3).last = none ∧ ((wStream {}).ctx 3).held = [] ∧ ((wStream {}).ctx 3).au = none ∧ ((wStream {}).ctx 3).skip = none := by
  decide +kernel
theorem witness_rtpLater : let x := (wStream { last := some 65540, ssrc := some 9 }).ctx 3
    x.last = some 65540 ∧ x.ssrc.getD 9 = 9 ∧ 65540 + 1 < extSeq x.last 6 ∧ x.held.any (fun h => h.1 == extSeq x.last 6) = false ∧ extSeq x.last 4 ≤ 65540 := by
  decide +kernel
theorem witness_rtcp : (wStream {}).ctxAt (0 : Fin 2) (5005 : BitVec 16).toNat = none ∧ 0 < (5005 : BitVec 16).toNat ∧
    ((wStream {}).ctxAt (0 : Fin 2) ((5005 : BitVec 16).toNat - 1)).isSome = true := by decide +kernel
def wGapPkt : RtpPkt := { ts := 5, marker := false, payload := [1], arrival := 1 }
theorem witness_gapLoss : let s := wStream { held := [(65542, wGapPkt)], decoding := some { ts := 1, payloads := [], first := 0 } }
    (s.ctx 3).on = true ∧ (s.ctx 3).held = [(65542, wGapPkt)] ∧ wGapPkt.arrival + (s.ctx 3).f 8 15 0 * 1000 ≤ s.now ∧ (s.ctx 3).au = none ∧
    (s.ctx 3).decoding.isSome = true := by decide +kernel
theorem witness_streamLost : let s := wStream {}
    (s.ctx 3).on = true ∧ (s.ctx 3).lost = false ∧ (s.ctx 3).heard + max 1 ((s.ctx 3).f 9 15 8) * 1000000 ≤ s.now ∧ (s.ctx 3).tracked = [] := by decide +kernel

def onCfg : List Word := [0x80600000, 0, 0, 0, 0, 0x050002D0, 0x000809C4, 0x08100618, 0x7D0, 0xC800, 0, 0, 0]
def wAu : Au := { ts := 5, first := 9, stamp := 77 }
def wSps : Sps := ⟨1, 40, 8, true, true, true, 64, 64, true⟩
def wCtx (x : Ctx) : State := { State.reset with ctxs := [(3, x)] }
def wSample : Sample := { item := 0, stamp := 5, ssn := 7, pn := 2, kind := 2, outW := 64, outH := 2, tf := [65536, 0, 0, 65536, 0, 0, 256, 0] }
def wRelease : State := ({ wCtx { samples := [{ wSample with produced := true }] } with
  batches := [(8 * 8, some { uid := 4, vi := 0, hdrs := 0x1000, opened := 0 })] } : State).wr Reg.ARENA_MB 1
theorem witness_decode : ((wCtx { cfg := onCfg, entries := [.unit wAu] }).nextDecode).isSome = true ∧
    ((wCtx { cfg := onCfg, entries := [.unit wAu] }).ctxs.filter (fun (e : Nat × Ctx) => e.2.decoding.isSome)).length < 24 ∧
    24 ≤ (({ State.reset with ctxs := (List.range 24).map (fun c => (c, { decoding := some wAu })) } : State).ctxs.filter
      (fun (e : Nat × Ctx) => e.2.decoding.isSome)).length := by decide
theorem witness_picture : let x := (wCtx { decoding := some wAu }).ctx 3
    x.decoding = some wAu ∧ x.entries = [] ∧ spsTools x.h265 wSps = true ∧ spsSize x wSps = true ∧ x.dpb = [] ∧ x.pics = [] ∧
    x.espots = [] ∧ x.samples = [] ∧ x.pn % x.f 7 30 24 = 0 := by decide
theorem witness_produced : let s := wCtx { samples := [wSample], pics := [{ pn := 2, stamp := 5 }] }
    (s.ctx 3).samples[0]? = some wSample ∧ wSample.cause = 0 ∧ 2 ≤ wSample.kind ∧ wSample.produced = false ∧
    (s.ctx 3).pic 2 = some { pn := 2, stamp := 5 } ∧ (8 : Nat) ≠ wSample.ssn := by decide
theorem witness_release : wRelease.ctxPart 3 = 8 ∧ (wRelease.ctx 3).pics.all (·.created) = true ∧
    wRelease.arenaFit wSample.bytes = some 0 ∧ (wRelease.batches.get none (8 * wRelease.ctxPart 3 + bucketOf wSample.outW)).isSome = true ∧
    0 + 1 < wRelease.fld Reg.SIN_CTL 30 24 ∧ wRelease.items.look 0 = none ∧
    wRelease.batchUrgent { uid := 4, vi := 0, hdrs := 0x1000, opened := 0 } = false ∧
    ((wCtx { samples := [{ wSample with cause := 6 }] }).ctx 3).samples = [{ wSample with cause := 6 }] := by decide
theorem witness_batch : (0 : Nat) + wRelease.fld Reg.SIN_CTL 23 8 * 1000 ≤ ({ wRelease with clk := { tb := 65535000 } } : State).now ∧
    wRelease.now < 0 + wRelease.fld Reg.SIN_CTL 23 8 * 1000 := by decide

def espotCmd (op pn : Nat) : Bytes :=
  toLe 2 10 ++ toLe 2 20 ++ toLe 2 30 ++ toLe 2 40 ++ toLe 2 1 ++ toLe 2 1 ++ toLe 2 99 ++ [2, 0] ++ toLe 2 op ++ toLe 2 3 ++ toLe 4 7 ++ toLe 4 pn
def rereadCmd (pn : Nat) : Bytes :=
  toLe 8 55 ++ toLe 4 pn ++ zeros 4 ++ toLe 2 0x30 ++ toLe 2 3 ++ toLe 4 7 ++ toLe 4 65536 ++ zeros 8 ++ toLe 4 65536 ++ zeros 8 ++ toLe 2 64 ++ toLe 2 32 ++ toLe 2 256
def wItem : Item := { anchor := 0, prof := 0, pv := {}, lead := 12, fallback := 0, dmask := 0, part := 8, vi := 0, sealAt := 1000000 }
def wEspots (x : Ctx) (b : Bytes) : State := { cmdQueue (wCtx { x with cfg := onCfg }) b with items := [(55, wItem)] }
def wPic : Picture := { pn := 4, stamp := 70, w := 64, h := 64, created := true, need := true }
theorem witness_espot : let s := wEspots { espots := [(2, { st := .track, pnUpd := 3, item := 8 })], pics := [wPic] } (espotCmd 0x22 4)
    let d := cmdBits (espotCmd 0x22 4)
    s.executing 9 0x22 = some d ∧ s.tagFenced (s.queue 9) = false ∧ leAt (cmdBytes d) 18 2 = 3 ∧ byteAt (cmdBytes d) 14 = 2 ∧
    s.owns (s.queue 9) (s.ctxPart 3) = true ∧ (s.ctx 3).on = true ∧ espotZeros (cmdBytes d) = true ∧ 2 < (s.ctx 3).espotMax ∧
    ((s.ctx 3).espots.get {} 2).st ≠ .free ∧ ((s.ctx 3).espots.get {} 2).pnUpd < leAt (cmdBytes d) 24 4 ∧
    (s.ctx 3).pic 4 = some wPic ∧ (s.ctx 3).awaited = some wPic ∧ ((s.ctx 3).espots.get {} 1).st = .free ∧ s.held = [] ∧ s.items.length < 65536 := by decide +kernel
theorem witness_create : let s := wEspots { pics := [{ wPic with stamp := 1 }] } (espotCmd 0x21 4)
    s.executing 9 0x21 = some (cmdBits (espotCmd 0x21 4)) ∧ (s.now : Int) < (newItem (tb64 1) ((s.ctx 3).f 9 5 0) (s.profs.get {} ((s.ctx 3).f 9 5 0)) s.lead
      (s.profMask ((s.ctx 3).f 9 5 0)) (s.ctxOwner 3)).sealAt := by decide +kernel
theorem witness_reread : let s := wEspots { pics := [{ wPic with frameDone := true }] } (rereadCmd 4)
    let d := cmdBits (rereadCmd 4)
    s.executing 9 0x30 = some d ∧ s.tagFenced (s.queue 9) = false ∧ zeroAt (cmdBytes d) 12 4 = true ∧ zeroAt (cmdBytes d) 56 8 = true ∧
    s.item (leAt (cmdBytes d) 0 8) = some wItem ∧ s.owns (s.queue 9) 8 = true ∧ (s.ctx 3).pic (leAt (cmdBytes d) 8 4) = some { wPic with frameDone := true } ∧
    leAt (cmdBytes d) 48 2 = 64 ∧ leAt (cmdBytes d) 50 2 = 32 ∧ (∀ i, i < 4 → (signed 32 (leAt (cmdBytes d) (24 + 4 * i) 4)).natAbs ≤ 0x100000) := by decide +kernel

/-- Partition 2 is created in slot 2 with every tile, core, attention unit and channel pair. -/
def wPart (s : State) : State := { s with parts := [(2, { state := .active, desc := 2 ^ 1024 - 1, phase := .run })] }
/-- Tile 5 in RUN with the 32-byte slot `b` at PC 0. -/
def wTile (b : Bytes) (x : Tile) : State := ((({ State.reset with tiles := [(5, x)] } : State).setTileState 5 1).wr (Reg.TR1 5) 9).st (tileWin 5) b
/-- A slot: opcode, flags, WAIT, POST, SHAPE and bytes 8 to 31. -/
def slot (op flags wait post shape : Nat) (body : Bytes) : Bytes :=
  [BitVec.ofNat 8 op, BitVec.ofNat 8 flags, BitVec.ofNat 8 wait, BitVec.ofNat 8 post] ++ toLe 4 shape ++ body
def wDesc : TDesc := { kind := 4, band := 3, token := 7, origin := 0, bytes := 0xABCD }
theorem witness_tileNop : (wTile (slot 0 0 0 0 0 (zeros 24)) {}).tileAt 5 0 ((wTile (slot 0 0 0 0 0 (zeros 24)) {}).tld 5 0 64) ∧
    zeroAt ((wTile (slot 0 0 0 0 0 (zeros 24)) {}).tld 5 0 64) 8 24 = true := by unfold State.tileAt; decide +kernel
theorem witness_tileDeq : (wTile (slot 4 0 0 0 0 ([2] ++ zeros 7 ++ toLe 4 3 ++ zeros 12)) { queue := [wDesc] }).tileAt 5 4
    ((wTile (slot 4 0 0 0 0 ([2] ++ zeros 7 ++ toLe 4 3 ++ zeros 12)) { queue := [wDesc] }).tld 5 0 64) ∧
    (wTile (slot 4 0 0 0 0 ([2] ++ zeros 7 ++ toLe 4 3 ++ zeros 12)) { queue := [wDesc] }).noYield 5 := by
  refine ⟨by unfold State.tileAt; decide +kernel, ?_⟩
  have e : (wTile (slot 4 0 0 0 0 ([2] ++ zeros 7 ++ toLe 4 3 ++ zeros 12)) { queue := [wDesc] }).tileOwner 5 = none := by decide +kernel
  intro p h; rw [e] at h; cases h

theorem witness_tileWait : (wTile (slot 0 0 0x83 0 0 (zeros 24)) {}).tileAt 5 0 ((wTile (slot 0 0 0x83 0 0 (zeros 24)) {}).tld 5 0 64) := by
  unfold State.tileAt; decide +kernel

/-- A PWISE COPY of one fp32 column-row from local address 16 to 32 with the parameter record at 48. -/
def pwSlot : Bytes := slot 0x20 0 0 0 0x220 (toLe 4 16 ++ toLe 4 0 ++ toLe 4 32 ++ toLe 4 48 ++ toLe 4 1 ++ zeros 4)
def wPwise : State := ((wTile pwSlot {}).st (tileWin 5 + 16 * 64) (toLe 4 0x3F800000 ++ toLe 4 0x40000000)).st (tileWin 5 + 48 * 64)
  (toLe 4 0x3F800000 ++ zeros 8 ++ toLe 4 0x3F800000)
theorem witness_pwise : wPwise.tileAt 5 0x20 (wPwise.tld 5 0 64) ∧ (wPwise.region 5 16 4).toOption = some () ∧
    ((wPwise.setTpc 5 32).runUnit 5 ((wPwise.tld 5 0 64).take 32 ++ zeros 32) (wPwise.trs 5)).toOption.isSome = true := by
  unfold State.tileAt; decide +kernel

def wXfer (b : Bytes) (x : Tile) : State := wPart (((wTile b x).st 0x4000 [1, 2, 3]).st (tileWin 5 + 16 * 64) [7, 8, 9])
/-- One row of one line between device address 0x4000 and local address 16, and a link row there. -/
def dmaSlot (op : Nat) : Bytes := slot op 0 0 0 0 (toLe 8 0x4000 ++ toLe 4 16 ++ toLe 4 1 ++ zeros 8)
def linkSlot (op : Nat) : Bytes := slot op 0 0 0 5 (zeros 8 ++ toLe 4 16 ++ toLe 4 1 ++ zeros 8)
theorem witness_tileLoad : (wXfer (dmaSlot 0x30) {}).tileAt 5 0x30 ((wXfer (dmaSlot 0x30) {}).tld 5 0 64) ∧
    (wXfer (dmaSlot 0x30) {}).tileMem 5 0x4000 64 false = true := by
  unfold State.tileAt; decide +kernel
theorem witness_hrecv : (wXfer (linkSlot 0x39) { links := [(6, [zeros 64])] }).tileAt 5 0x39 ((wXfer (linkSlot 0x39) { links := [(6, [zeros 64])] }).tld 5 0 64) ∧
    (wXfer (linkSlot 0x39) { links := [(6, [zeros 64])] }).linkTile 5 5 = some 6 := by
  unfold State.tileAt; decide +kernel

/-- Unit 0 enabled with 16 pages of 65,536 bytes in pool 0, and the queue 9 for it executing `b`; model slot 0 at 0x1000. -/
def wAuCmd (b : Bytes) (x : AUnit) : State :=
  let s : State := { State.reset with qs := [(9, { state := .run, cur := some (cmdBits b), part := 8, target := 8 })], aunits := [(0, { x with code := 2 })] }
  ((((s.setFlag (Reg.AU_CTL 0) 0 true).setFld (Reg.POOL0_PAGES 0) 19 0 16).wr Reg.MDL_BASE_LO 0x1000)).st 0x1000
    (toLe 8 77 ++ [1, 1, 0, 4] ++ toLe 4 0x3F800000 ++ toLe 2 100 ++ [0, 0] ++ zeros 44)
def wNode : PNode := { handle := 3, parent := none, toks := [1, 2], hash := 0, model := modelOfBytes [], ready := true, inTable := true, refs := 0, acq := [0], stamp := 0 }
def wSeq : Sequence := { handle := 16384 + 4, unit := 0, item := 0, line := 0, slot := 0, model := modelOfBytes [], contig := false, leaf := none, plen := 0, len := 0, root := 0, maxOwn := 9, endTok := 0, feat := 0, featRows := 1, featCols := 1, featCentre := 0, featValid := 0, ctx := 2, pages := [5, 6], part := 8, vi := 0 }
def acqCmd : Bytes := toLe 8 0x2000 ++ toLe 2 3 ++ zeros 6 ++ toLe 2 0x42 ++ zeros 6 ++ toLe 8 0x3000 ++ zeros 32
def handCmd (op h : Nat) : Bytes := toLe 4 h ++ zeros 12 ++ toLe 2 op ++ zeros 46
def seqOpenCmd : Bytes := toLe 8 55 ++ zeros 4 ++ [0, 0] ++ toLe 2 5 ++ toLe 2 0x40 ++ zeros 6 ++ toLe 4 0xFFFFFFFF ++ toLe 2 0 ++ toLe 2 6 ++ toLe 8 0x8000 ++ [1, 0] ++ toLe 2 1 ++ toLe 2 1 ++ zeros 2 ++ toLe 4 0 ++ zeros 12
def wGCtx : GCtx := { handle := 0, item := 55, field := 0, grammar := none, voc := 0, norm := none, mode := 0, draftMax := 0, endTok := 6, text := 0x9000, cap := 64, queue := none, cmd := 0, part := 8, vi := 0 }
theorem witness_pfxRelease : (wAuCmd (handCmd 0x43 3) { nodes := [(3, wNode)] }).auTakes 9 0x43 0 (cmdBits (handCmd 0x43 3)) ∧
    ((wAuCmd (handCmd 0x43 3) { nodes := [(3, wNode)] }).aunit 0).node 3 = some wNode ∧
    callerOf ((wAuCmd (handCmd 0x43 3) { nodes := [(3, wNode)] }).queue 9) = 0 := by unfold State.auTakes; decide +kernel

def stepCmd : Bytes := toLe 8 0x2000 ++ zeros 8 ++ toLe 2 0x47 ++ zeros 46
/-- A step table of one DECODE entry that names no sequence. -/
def stepTable : Bytes := toLe 2 1 ++ [16] ++ zeros 61 ++ toLe 4 99 ++ [0, 1] ++ zeros 26
def wStep : AUnit := { step := some { table := 0x2000, qstep := 16, urg := 0, members := [{ seq := 99, prefill := false, nq := 1, node := 0, cands := [], pad := some 9, item := 0, spec := [] }] } }
def attCmd (wait : Nat) : Bytes := toLe 8 0x2000 ++ [0, 0, BitVec.ofNat 8 wait, 0] ++ toLe 2 0xFFFF ++ zeros 2 ++ toLe 2 0x48 ++ zeros 6 ++ toLe 8 0x4000 ++ toLe 8 0x5000 ++ zeros 24
def verCmd (wait step : Nat) : Bytes := toLe 8 step ++ toLe 8 0x4000 ++ toLe 2 0x4A ++ [BitVec.ofNat 8 wait, 0] ++ zeros 4 ++ toLe 2 0xFFFF ++ zeros 6 ++ toLe 8 0x6000 ++ zeros 24
theorem witness_stepOpen : let s := (wAuCmd stepCmd {}).st 0x2000 stepTable
    s.auTakes 9 0x47 0 (cmdBits stepCmd) ∧ s.memStop (s.queue 9) 0x2000 64 false = none ∧ entryOk (s.ldUnit (0x2000 + 64) 32).1 = true ∧
    s.memStop (s.queue 9) (0x2000 + 64) 32 false = none := by unfold State.auTakes; decide +kernel
theorem witness_verify : (wAuCmd (verCmd 0 0x2000) wStep).auTakes 9 0x4A 0 (cmdBits (verCmd 0 0x2000)) ∧
    ((wAuCmd (verCmd 0 0x2000) wStep).openStep 0 0x2000).isSome = true := by unfold State.auTakes; decide +kernel

def wTgu (b : Bytes) : State := ({ State.reset with qs := [(9, { state := .run, cur := some (cmdBits b), part := 8, target := 3 })] } : State).wr Reg.TGU_CTL 1
/-- A vocabulary image at 0x1000: one token "a" at string offset 0. -/
def vocImg : Bytes := toLe 4 0x56435849 ++ toLe 4 1 ++ toLe 8 7 ++ toLe 4 0xFFFFFFFF ++ toLe 4 0xFFFFFFFF ++ toLe 4 128 ++ toLe 4 1 ++ zeros 32 ++ toLe 4 0 ++ [1, 0, 0, 0] ++ zeros 56 ++ [97]
def imgCmd (op slot voc : Nat) : Bytes := toLe 8 0x1000 ++ [BitVec.ofNat 8 slot, BitVec.ofNat 8 voc] ++ zeros 6 ++ toLe 2 op ++ zeros 46
def wVoc : Voc := { img := 0x1000, vocab := 1, tag := 7, unk := none, byteBase := none, strOfs := 128, noMatch := false, nodes := 2 }
/-- A grammar image at 0x1000 of one accepting state with one range. -/
def grmImg : Bytes := toLe 4 0x47435849 ++ toLe 4 1 ++ toLe 8 9 ++ toLe 8 7 ++ toLe 4 0 ++ toLe 4 64 ++ toLe 4 88 ++ zeros 28 ++ toLe 4 72 ++ zeros 4 ++ [1, 0, 1, 0] ++ zeros 4 ++ toLe 2 0 ++ toLe 2 0 ++ toLe 4 0
def grmCmd : Bytes := toLe 8 0x1000 ++ [3, 0, 2] ++ zeros 5 ++ toLe 2 0x64 ++ zeros 46
def normImg : Bytes := toLe 4 0x4E435849 ++ toLe 4 1 ++ zeros 56
def slotCmd (op slot : Nat) : Bytes := zeros 8 ++ [BitVec.ofNat 8 slot] ++ zeros 7 ++ toLe 2 op ++ zeros 46
def lexCmd : Bytes := toLe 8 0x2000 ++ [5, 2] ++ zeros 2 ++ toLe 4 1 ++ toLe 2 0x66 ++ zeros 6 ++ toLe 8 64 ++ zeros 32
theorem witness_vocLoad : let s := ((wTgu (imgCmd 0x60 2 0)).st 0x1000 vocImg).wr Reg.MATCH_KB 4
    s.tguTakes 9 0x60 (cmdBits (imgCmd 0x60 2 0)) ∧ (s.effVocLoad (s.queue 9) (imgCmd 0x60 2 0)).2.1 = .ok := by unfold State.tguTakes; decide +kernel
theorem witness_vocUnload : let s : State := { wTgu (slotCmd 0x61 2) with vocs := [(2, wVoc)] }
    s.tguTakes 9 0x61 (cmdBits (slotCmd 0x61 2)) ∧ (s.voc 2).isSome = true ∧ s.vocUsed 2 = false ∧ slotOnly (slotCmd 0x61 2) false = true := by
  unfold State.tguTakes; decide +kernel

def wTguCtx (b : Bytes) (c : GCtx) : State := { (wTgu b).st 0x1000 vocImg with vocs := [(2, wVoc)], gctxs := [(4, c)], items := [(55, wItem)] }
def wOpenCtx : GCtx := { wGCtx with handle := 4, voc := 2, drafting := true }
def openCtxCmd : Bytes := toLe 8 55 ++ toLe 2 0xFFFF ++ [2, 0xFF, 0, 2] ++ toLe 2 9 ++ toLe 2 0x69 ++ zeros 6 ++ toLe 8 0x9000 ++ toLe 4 64 ++ toLe 2 6 ++ zeros 26
def advCmd : Bytes := toLe 4 4 ++ [1] ++ zeros 11 ++ toLe 2 0x6B ++ zeros 6 ++ toLe 2 0 ++ zeros 38
def maskCmd : Bytes := toLe 4 4 ++ zeros 12 ++ toLe 2 0x6C ++ zeros 6 ++ toLe 8 0xA000 ++ zeros 32
def checkCmd : Bytes := toLe 4 4 ++ zeros 4 ++ toLe 4 1 ++ zeros 4 ++ toLe 2 0x6D ++ zeros 6 ++ toLe 8 0x1080 ++ zeros 32
def tokCmd : Bytes := toLe 8 0x1080 ++ toLe 4 1 ++ [2, 0xFF, 0, 0] ++ toLe 2 0x68 ++ zeros 6 ++ toLe 8 0xB000 ++ toLe 4 8 ++ zeros 28
theorem witness_advance : (wTguCtx advCmd wOpenCtx).tguTakes 9 0x6B (cmdBits advCmd) ∧ ((wTguCtx advCmd wOpenCtx).gctxOf ((wTguCtx advCmd wOpenCtx).queue 9) 4) = some (4, wOpenCtx) ∧
    ((wTguCtx advCmd wOpenCtx).effAdvance ((wTguCtx advCmd wOpenCtx).queue 9) advCmd).2.1 = .ok := by unfold State.tguTakes; decide +kernel

def wRec : BitVec 512 := BitVec.ofNat 512 (11 + 22 * 2 ^ 64 + 33 * 2 ^ 128 + 44 * 2 ^ 192 + 3 * 2 ^ 256 + 2 * 2 ^ 264)
def wLaunch : State := { wPart State.reset with harts := [(512, { run := .running, x := [(1, 5)] })] }
theorem witness_coreLaunch : launchOk wRec = true ∧ wLaunch.coreOwner 1 = some 2 ∧ wLaunch.flag (corePage 1 + 0xC) 30 = false ∧ wLaunch.parkedHart 1 = some 513 := by decide +kernel
theorem witness_fwProgramDone : ∃ s : State, s.fwProg = some (1, [1, 2, 3]) := ⟨{ State.reset with fwProg := some (1, [1, 2, 3]) }, rfl⟩
theorem witness_fwBoot : bits (0x5E6A0000 : Word) 31 16 = 0x5E6A ∧ State.reset.flag Reg.TF_STS 28 = false ∧ State.reset.fwSource = none := by decide +kernel
/-- A firmware image without a body at 0x1000: its header, with its CRC. -/
def fwHdr0 : Bytes := toLe 4 0x57465849 ++ toLe 4 9 ++ toLe 4 0 ++ toLe 4 State.reset.famId ++ toLe 8 0x2000 ++ toLe 8 0x2000
def fwHdr : Bytes := fwHdr0 ++ toLe 4 (crc32c fwHdr0) ++ zeros 92
def wImage : State := (((State.reset.wr Reg.FW_SRC_LO 0x1000).setFld Reg.FW_LEN 24 0 128).setFlag Reg.TF_STS 30 true).st 0x1000 fwHdr
/-- Which signatures are valid is open; where this image's is, BOOT and PROGRAM find it. -/
theorem witness_fwImage (h : Config.sigValid fwHdr [] = true) : wImage.fwSource = some (fwHdr, []) := by
  have h1 : wImage.ld (wImage.addr48 Reg.FW_SRC_LO Reg.FW_SRC_HI) (wImage.fld Reg.FW_LEN 24 0) = fwHdr := by decide +kernel
  have h2 : fwHdr.take 128 = fwHdr := by decide +kernel
  have h3 : fwHdr.drop 128 = [] := by decide +kernel
  have h4 : imageOk wImage.famId fwHdr [] = Config.sigValid fwHdr [] := by
    unfold imageOk
    have e : (decide (leAt fwHdr 0 4 = 0x57465849) && decide (leAt fwHdr 12 4 = wImage.famId) && decide (leAt fwHdr 8 4 ≤ 29360000) && zeroAt fwHdr 36 28 &&
      decide (([] : Bytes).length = leAt fwHdr 8 4) && decide (leAt fwHdr 32 4 = crc32c (fwHdr.take 32 ++ []))) = true := by decide +kernel
    rw [e]; rfl
  unfold State.fwSource
  dsimp only
  rw [if_neg (by decide +kernel), h1, h2, h3, h4, if_pos h]

def commitBytes (flags : Nat) : Bytes := toLe 8 55 ++ toLe 8 0x4000 ++ toLe 4 128 ++ toLe 2 3 ++ toLe 2 77 ++ [BitVec.ofNat 8 flags] ++ zeros 39
def wOne (it : Item) : State := { State.reset with items := [(55, it)] }
theorem witness_recordCommit : (commitBytes 1).length = 64 ∧ zeroAt (commitBytes 1) 25 39 = true ∧ leAt (commitBytes 1) 16 4 ≤ 65024 ∧ byteAt (commitBytes 1) 24 = 1 ∧
    (wOne wItem).item (leAt (commitBytes 1) 0 8) = some wItem ∧ wItem.bytes ≤ leAt (commitBytes 1) 16 4 := by decide +kernel
theorem witness_asmDone : ((wOne wItem).wr Reg.ASM_DONE_LO 55).item ((((wOne wItem).wr Reg.ASM_DONE_LO 55).rd Reg.ASM_DONE_LO).toNat + (0 : Word).toNat * 2 ^ 32) = some wItem ∧
    wItem.shadow = none ∧ wItem.done.getLsbD 4 = false := by decide +kernel

/-- Service bank 0 with GEN 3 and the empty configuration. -/
def svcHdr : Bytes := toLe 4 0x56535849 ++ toLe 4 3 ++ toLe 4 1
def wSvc : State := (State.reset.flashProg (svcBank 0) (svcHdr ++ toLe 4 (crc32c (svcHdr ++ [0xA0])) ++ [0xA0])).setFlag Reg.TF_CTL 0 true
theorem witness_serviceStart : wSvc.flag Reg.TF_CTL 0 = true ∧ wSvc.svc.state = .off ∧ (wSvc.svcChoice.map (fun x => (x.1, x.2.1))) = some (0, 3) := by decide +kernel
theorem witness_statusRecord : let s : State := { State.reset with svc := { state := .running, statusMs := 0 } }
    s.svc.state ≠ .off ∧ s.svc.statusAt + s.svc.statusMs * 1000000 ≤ s.now := by decide +kernel
/-- A status request {1: 1, 2: 0} at 0x1000 answered at 0x3000. -/
def mgmtCmd : Bytes := toLe 8 0x1000 ++ toLe 4 5 ++ zeros 4 ++ toLe 2 0x70 ++ zeros 6 ++ toLe 8 0x3000 ++ toLe 4 200 ++ zeros 28
def wMgmt : State := (cmdQueue State.reset mgmtCmd).st 0x1000 [0xA2, 1, 1, 2, 0]
theorem witness_mgmt : wMgmt.executing 9 0x70 = some (cmdBits mgmtCmd) ∧ wMgmt.memStop (wMgmt.queue 9) 0x1000 5 false = none ∧
    (cborParse (wMgmt.ld 0x1000 5)).isSome = true := by decide +kernel

def wUnit : State := State.reset.setFld (Reg.UNIT_MAP 0) 7 0 0x82
def wChan (c : Chan) : State := { State.reset with chans := [(3, c)] }
def wReq : MReq := ⟨false, 0x30000000 * 3 / 64, 1, 2, 7, 1, 0, 0⟩
theorem witness_commons : commonsBase ≤ (0x1000000040 : BitVec 48).toNat ∧ wUnit.unitIsMem 0 = true ∧ wUnit.ctxRecordAt 0x1000000040 64 = false := by decide +kernel
theorem witness_mcAccept : State.reset.chanOf (0x90000000 : BitVec 48).toNat = 3 ∧ State.reset.chanFenced 3 = false ∧ (State.reset.chan 3).reads.length < 128 := by decide +kernel
theorem witness_mcIssue : (wChan { reads := [wReq] }).chanState 3 = 0 ∧ (firstCand ((wChan { reads := [wReq], draining := false }).candidates 3 (BitVec.allOnes 48))).isSome = true := by decide +kernel
theorem witness_mcReadReturn : ((wChan { inflight := [wReq] }).chan 3).inflight = [wReq] ∧ (wChan { inflight := [wReq] }).chanFenced 3 = false ∧
    (wChan { inflight := [wReq] }).chanFenced 2 = false ∧ (wChan { inflight := [wReq] }).chanState 3 = 0 ∧ (wChan {}).chanOf (0x90000000 : BitVec 48).toNat = 3 := by decide +kernel

def wFrozen (c : Chan) : State := ((wChan c).setChanState 3 2).setFld (Reg.CH_STS 3) 23 20 1
theorem witness_chRelease : (wFrozen {}).releasable 3 = true ∧ bits (0xC4A70000 : Word) 31 16 = 0xC4A7 ∧ ((wFrozen { releasing := some true }).chan 3).releasing = some true := by decide +kernel
theorem witness_retrainPause : let s := (wChan { due := some 0 }).setFld Reg.RETRAIN_CFG 23 20 1
    (s.chan 3).due = some 0 ∧ s.chanState 3 = 0 ∧ (∀ k, k < 64 → s.chanState k ≠ 1) ∧ 1 ≤ s.fld Reg.RETRAIN_CFG 23 20 := by decide +kernel

/-- A descriptor for partition 2 at 0x1000: one instance, one channel pair, tile 0, core 0. -/
def wDescBytes : Bytes := [2, 0, 0, 1] ++ toLe 4 1 ++ zeros 13 ++ [7, 0, 0] ++ toLe 8 1 ++ zeros 8 ++ [1] ++ zeros 87
def wCreate : State := (State.reset.wr Reg.PDESC_LO 0x1000).st 0x1000 wDescBytes
theorem witness_pcmdCreate : bits (0x5CA10201 : Word) 31 16 = 0x5CA1 ∧ bits (0x5CA10201 : Word) 10 8 = 2 ∧ wCreate.pcmd = none ∧
    (wCreate.schRead (wCreate.addr48 Reg.PDESC_LO Reg.PDESC_HI) 128) = some wDescBytes ∧ wCreate.createCheck 2 (BitVec.ofNat 1024 (leNat wDescBytes)) = 0 := by decide +kernel
theorem witness_pcmdDestroy : ((wPart State.reset).part 2).state ≠ .free ∧ (wPart State.reset).pcmd = none := by decide +kernel
theorem witness_pcmdDone : ({ State.reset with pcmd := some (1, 2) } : State).pcmd = some (1, 2) := rfl
def wCreating : State := { State.reset with pcmd := some (1, 2), parts := [(2, { state := .creating, desc := BitVec.ofNat 1024 (leNat wDescBytes) })] }

def wPhase (x : Part) : State := { State.reset with parts := [(2, { x with state := .active, desc := 2 ^ 1024 - 1 })] }
theorem witness_quantumExpiry : ((wPhase { phase := .run }).part 2).state = .active ∧ (wPhase { phase := .run }).sliceDue 2 = true ∧
    (wPhase { phase := .run }).bestOf 2 ((wPhase { phase := .run }).schedCands 2 (some 0)) = none := by decide +kernel
theorem witness_adaptRelease : ((wPhase { phase := .adapt }).part 2).phase = .adapt ∧ ((wPhase { phase := .adapt }).part 2).due = false := by decide +kernel

theorem witness_tilePlacement : ((wPhase { phase := .run }).part 2).nvis = 255 ∧ ((wPhase { phase := .run }).vi 2 1).placeQ = [] ∧ ((wPhase { phase := .run }).vi 2 1).state = .off ∧
    ((wPhase { phase := .run }).part 2).runVi ≠ 1 := by decide +kernel
theorem witness_partitionLaunch : launchOk wRec = true ∧ ((wPhase {}).part 2).coreList.find? (fun c => ((wPhase {}).parkedHart c).isSome) = some 0 ∧ (wPhase {}).parkedHart 0 = some 0 := by decide +kernel
theorem witness_viResetDone : let s : State := { wPhase {} with vis := [(33, { state := .resetting })] }
    (s.vi 2 1).state = .resetting ∧ s.inflight 2 1 = 0 := by decide +kernel
/-- An empty cocoon at 0x1000. -/
def wCocoon : State := ({ wPhase {} with vis := [(33, { checking := some (some (0x1000, 0x2000)) })] } : State).st 0x1000 (toLe 4 0x43435849)
theorem witness_viStartCheck : (wCocoon.vi 2 1).checking = some (some (0x1000, 0x2000)) ∧ wCocoon.cocoonCheck (wCocoon.part 2) 0x1000 = .ok {} := by decide +kernel

def wKlReady : State := State.reset.setFlag Reg.AO_EMG_STS 31 true
theorem witness_klEnable : (wKlReady.store 0xC000 Reg.KL_CTL (0 ||| 1)).2 = true ∧ wKlReady.ready = true ∧ wKlReady.klState = 0 := by decide +kernel
def wKlOn : State := (wKlReady.setFlag Reg.KL_CTL 0 true).setFlag (Reg.LINK_CTL 1) 0 true
theorem witness_klDisable : (wKlOn.store 0xC000 Reg.KL_CTL (1 &&& 0xFFFFFFFE)).2 = true ∧ wKlOn.flag Reg.KL_CTL 0 = true := by decide +kernel
theorem witness_linkEnable : (wKlOn.store 0xC000 (Reg.LINK_CTL 1) (0 ||| 1)).2 = true ∧ wKlOn.klinkState 1 = 0 ∧ wKlOn.ready = true := by decide +kernel
/-- Link 1 in state n; times are zero and the timebase stands at 2 s. -/
def wLinkIn (n : Nat) : State := { wKlOn.setFld (Reg.LINK_STS 1) 31 30 n with clk := { State.reset.clk with tb := 2000000000 } }
theorem witness_linkTrained : (wLinkIn 1).klinkState 1 = 1 ∧ ((wLinkIn 1).klink 1).trainFrom + 80000000 ≤ (wLinkIn 1).now := by decide +kernel
theorem witness_trainingRetry : (wLinkIn 3).klinkState 1 = 3 ∧ ((wLinkIn 3).klink 1).failedAt + 1000000000 ≤ (wLinkIn 3).now ∧ (wLinkIn 3).ready = true ∧
    (wLinkIn 3).flag (Reg.LINK_CTL 1) 0 = true ∧ (wLinkIn 3).flag Reg.KL_CTL 0 = true := by decide +kernel
theorem witness_linkFail : (wLinkIn 2).linkUp 1 = true ∧ ((wLinkIn 2).klink 1).heard + 4000 ≤ (wLinkIn 2).now := by decide +kernel

/-- The bytes of a flit as a neighbour sends it first. -/
def wFlit (f : Flit) : Bytes := flitBytes f 0 4095 (0, 0)
/-- Link 1 is UP, the first partition is open to system ID 7 and owns channel pair 0. -/
def wKl : State := { (wLinkIn 2).wr (Reg.ACCEPT 3) 0x00070000 with parts := [(2, { state := .active, desc := 2 ^ 1024 - 1 })] }
def wPeerFlit (ty addr n : Nat) (d : Bytes) : Bytes := wFlit { vc := 0, type := ty, ttl := 5, src := 7, dst := 0, payload := accPayload addr n 0 9 0 0 d }
theorem witness_badFlit : (wLinkIn 2).linkUp 1 = true ∧ flitGood (zeros 256) = false := by decide +kernel
theorem witness_nullFlit : (wLinkIn 2).flitArrives 1 0 (wFlit { vc := 0, type := 0, ttl := 64, src := 7, dst := 0, payload := zeros 244 }) := by
  unfold State.flitArrives; decide +kernel
theorem witness_nak : (wLinkIn 2).flitArrives 1 5 (wFlit { vc := 0, type := 5, ttl := 64, src := 7, dst := 0, payload := zeros 244 }) := by
  unfold State.flitArrives; decide +kernel
theorem witness_wr : wKl.flitArrives 1 1 (wPeerFlit 1 0x1000 4 [1, 2, 3, 4]) ∧ flitDst (wPeerFlit 1 0x1000 4 [1, 2, 3, 4]) = wKl.sysid ∧
    wKl.peerCheck 7 0x1000 4 = 0 ∧ wKl.canWrite 0 0x1000 4 = .ok := by unfold State.flitArrives; decide +kernel
theorem witness_refused : wKl.peerCheck 6 0x1000 4 = 1 := by decide +kernel
/-- One load of this module waits for system ID 7. -/
def wPeer : State := { wKl with kal := { State.reset.kal with peers := [{ tid := 9, sys := 7, write := false, bytes := 4, who := .load 0 0x41C000001000, limit := 5 }] } }
theorem witness_rdRsp : wPeer.flitArrives 1 3 (wPeerFlit 3 0 4 [1, 2, 3, 4]) ∧
    (wPeer.kal.peers.find? (fun r => r.tid == leAt (wPeerFlit 3 0 4 [1, 2, 3, 4]) 18 2 && r.sys == 7 && r.write == !true)).isSome = true ∧ byteAt (wPeerFlit 3 0 4 [1, 2, 3, 4]) 20 = 0 := by
  unfold State.flitArrives; decide +kernel
theorem witness_peerTimeout : (wPeer.kal.peers.find? (fun r => r.tid == 9 && decide (r.limit ≤ wPeer.now))).isSome = true := by decide +kernel

/-- A management flit of kind k with content c. -/
def wMgmtFlit (k : Nat) (c : Bytes) : Bytes := wFlit { vc := 2, type := 4, ttl := 64, src := 7, dst := 0, payload := mgmtPayload k 1 99 c }
/-- Link 1 is UP in phase n. -/
def wKal (n : Nat) (k : Kal) : State := { (wLinkIn 2).setFld Reg.KL_STS 31 28 n with kal := k }
theorem witness_beacon : (wKal 2 { best := 200 }).mgmtArrives 1 1 (wMgmtFlit 1 (toLe 8 99 ++ [0, 2, 3])) ∧ (wKal 2 { best := 200 }).klState = 2 ∧
    leAt (mContent (wMgmtFlit 1 (toLe 8 99 ++ [0, 2, 3]))) 0 8 = 99 := by unfold State.mgmtArrives State.flitArrives; decide +kernel
theorem witness_beaconTimer : (wKal 2 {}).klState ≠ 0 ∧ (wKal 2 {}).canSend 1 2 := by unfold State.canSend; decide +kernel
theorem witness_report : (wKal 2 {}).floodArrives 1 2 (wMgmtFlit 2 (zeros 64)) := by
  unfold State.floodArrives State.mgmtArrives State.flitArrives; decide +kernel
theorem witness_electQuiet : (wKal 2 { best := ownSerial }).kal.best = ownSerial ∧ (wKal 2 { best := ownSerial }).klState = 2 ∧
    (wKal 2 { best := ownSerial }).kal.changed + (wKal 2 { best := ownSerial }).kal.elect * 1000000 ≤ (wKal 2 { best := ownSerial }).now :=
  ⟨rfl, by decide +kernel, by decide +kernel⟩
theorem witness_electQuietOther : ownSerial ≠ ownSerial + 1 ∧ (wKal 2 { best := ownSerial + 1 }).kal.best ≠ ownSerial := ⟨by omega, by show ownSerial + 1 ≠ ownSerial; omega⟩
theorem witness_plan : (wKal 3 {}).mgmtArrives 1 3 (wMgmtFlit 3 ([5, 2, 1, 6] ++ toLe 8 77)) ∧ (wKal 3 {}).klState ∈ [2, 3, 7] := by
  unfold State.mgmtArrives State.flitArrives; decide +kernel
theorem witness_routes : (wKal 4 { act := some 5 }).mgmtArrives 1 9 (wMgmtFlit 9 (1 :: zeros 128)) ∧
    flitDst (wMgmtFlit 9 (1 :: zeros 128)) = (wKal 4 { act := some 5 }).sysid := by unfold State.mgmtArrives State.flitArrives; decide +kernel
theorem witness_routeAct : (wKal 4 { act := some 5 }).kal.act = some 5 ∧ 5 ≤ (wKal 4 { act := some 5 }).now := by decide +kernel
theorem witness_readyFlit : (wKal 4 { align := 3 }).floodArrives 1 8 (wMgmtFlit 8 [1]) := by
  unfold State.floodArrives State.mgmtArrives State.flitArrives; decide +kernel
theorem witness_splitTimeout : (wKal 5 { cut := some 9 }).kal.cut = some 9 ∧ 9 + 1000000 ≤ (wKal 5 { cut := some 9 }).now ∧ 4 ≤ (wKal 5 { cut := some 9 }).klState := by decide +kernel

theorem witness_syncTimer : (wKal 4 {}).klState ∈ [4, 5] ∧ (wKal 4 {}).canSend 1 2 ∧ (wKal 4 {}).kal.parent ≠ some 1 := by unfold State.canSend; decide +kernel
def wSync (t1 t2 t3 t4 : Nat) : Bytes := wMgmtFlit 4 (toLe 8 t1 ++ toLe 8 t2 ++ toLe 8 t3 ++ toLe 8 t4 ++ zeros 8)
theorem witness_syncFlit : (wKal 4 { parent := some 1 }).mgmtArrives 1 4 (wSync 5 6 0 0) ∧ leAt (mContent (wSync 5 6 0 0)) 16 8 = 0 := by
  unfold State.mgmtArrives State.flitArrives; decide +kernel
theorem witness_syncEnd : (wKal 4 { parent := some 1 }).mgmtArrives 1 4 (wSync 5 16 30 31) ∧ leAt (mContent (wSync 5 16 30 31)) 16 8 ≠ 0 ∧
    (wKal 4 { parent := some 1 }).syncOffset 1 (mContent (wSync 5 16 30 31)) = 5 := by unfold State.mgmtArrives State.flitArrives; decide +kernel
theorem witness_heartbeat : (wKal 4 {}).mgmtArrives 1 5 (wMgmtFlit 5 [1, 4]) ∧ byteAt (mContent (wMgmtFlit 5 [1, 4])) 0 = 1 := by
  unfold State.mgmtArrives State.flitArrives; decide +kernel
/-- A coordinator with module 3 of serial 55 in its plan, which nothing joins any more. -/
def wCoord : State := (wKal 5 { ids := [(3, 55)] }).setFlag Reg.KL_STS 27 true
theorem witness_linkEvent : wCoord.mgmtArrives 1 6 (wMgmtFlit 6 ([1, 3] ++ toLe 8 55)) ∧ flitDst (wMgmtFlit 6 ([1, 3] ++ toLe 8 55)) = wCoord.sysid ∧
    wCoord.isCoord = true ∧ wCoord.kal.ids.find? (fun (e : Nat × Nat) => e.2 == leAt (mContent (wMgmtFlit 6 ([1, 3] ++ toLe 8 55))) 2 8) = some (3, 55) ∧
    wCoord.farEnds.contains 55 = false := by unfold State.mgmtArrives State.flitArrives; decide +kernel
theorem witness_lost : wCoord.floodArrives 1 7 (wMgmtFlit 7 [3]) ∧ wCoord.kal.lost.contains 3 = false := by
  unfold State.floodArrives State.mgmtArrives State.flitArrives; decide +kernel
/-- A shadow of item 0x0100_0000_0000_0001. -/
def wShadow : Bytes := toLe 8 0x0100000000000001 ++ toLe 8 5 ++ toLe 8 105 ++ toLe 8 90 ++ [64, 128, 192, 224, 2, 1, 0, 0] ++ zeros 24
theorem witness_shadowOpen : wShadow.length = 64 ∧ zeroAt (wShadow.set 40 1) 41 23 = true ∧ State.reset.klState ≠ 6 ∧ byteAt (wShadow.set 40 1) 36 = 2 ∧
    nbits (leAt (wShadow.set 40 1) 0 8) 63 56 ≠ State.reset.sysid ∧ State.reset.item (leAt (wShadow.set 40 1) 0 8) = none := by decide +kernel
theorem witness_shadowClose : let s : State := { State.reset with items := [(0x0100000000000001, { shadow := some 2 })] }
    (s.item 0x0100000000000001).isSome = true := by decide +kernel

/-- A command queue for attention unit 2, owner function 35, local 3: 256 slots at 0x1000 of host memory. -/
def wQDesc : Bytes := [1, 10] ++ toLe 2 35 ++ toLe 2 3 ++ [8, 8] ++ toLe 8 (hostBase + 0x1000) ++ toLe 8 (hostBase + 0x4000) ++ toLe 8 (hostBase + 0x9000) ++
  toLe 2 5 ++ toLe 2 2 ++ toLe 2 50 ++ zeros 26
def wQHost : State := (State.reset.st 0x1000 wQDesc).wr Reg.QUEUE_DESC_LO 0x1000
theorem witness_queueCreate : bits (0x90E50205 : Word) 31 16 = 0x90E5 ∧ wQHost.schRead (wQHost.addr48 Reg.QUEUE_DESC_LO Reg.QUEUE_DESC_HI) 64 = some wQDesc ∧
    wQHost.createResult false 0x205 wQDesc = 0 := by decide +kernel
/-- Queue 9, a DMA queue of the fabric with 16 slots at 0x2000 whose first holds a COPY and whose second holds an unknown command. -/
def wRing (h n : Nat) : State := (({ State.reset with
    qs := [(9, { state := .run, owner := 0xFFFF, part := 8, target := 0, logN := 4, logM := 4, ring := 0x2000, cq := 0x3000, wb := 0x4000, coalN := 4, vector := 0xFFFF, head := h, tail := n })] } : State).st 0x2000 (zeros 16 ++ toLe 2 0x10 ++ zeros 14)).st 0x2020 (zeros 16 ++ toLe 2 0x11 ++ zeros 14)
theorem witness_queueDestroy : ((wRing 0 1).queue 9).state ≠ .off ∧ ((wRing 0 1).queue 9).cur = none := by decide +kernel
theorem witness_tailDoorbell : ((wRing 0 0).queue 9).state = .run ∧ (wRing 0 0).tagFenced ((wRing 0 0).queue 9) = false ∧
    (wRing 0 0).slotsEnd ((wRing 0 0).queue 9) 1 (between 0 1 + 1) 0 = true ∧ 2 ^ ((wRing 0 0).queue 9).logN < between 0 40 := by decide +kernel
theorem witness_recordHeadDoorbell : (({ State.reset with rqs := [(3, { state := .run })] } : State).rqueue 3).state ≠ .off := by decide +kernel
theorem witness_cmdFetch : (wRing 0 1).ringSlot ((wRing 0 1).queue 9) 0 = some (zeros 16 ++ toLe 2 0x10 ++ zeros 14) ∧ opTarget 0 0x10 = true ∧ opTarget 0 0x11 = false := by decide +kernel
theorem witness_coalTimer : let s : State := { State.reset with qs := [(9, { state := .run, unsig := 1 })] }
    0 < (s.queue 9).unsig ∧ (s.queue 9).unsigAt + (s.queue 9).coalUs * 1000 ≤ s.now := by decide +kernel

theorem witness_hostUp : ({ State.reset with clk := { State.reset.clk with running := true } } : State).clk.running = true := rfl
/-- The physical function may send, and vector 5 holds a message. -/
def wMsix : State := { State.reset with fns := [(0, { busMaster := true, msixEnable := true })], msix := [(5, { addr := 64, data := 9, pend := true })] }
theorem witness_msixUnmask : 5 < vectors 0 ∧ wMsix.msix.rising = true ∧ (wMsix.msix.get {} (0 * 2048 + 5)).pend = true ∧ (wMsix.fn 0).busMaster = true ∧ (wMsix.fn 0).msixEnable = true ∧
    (wMsix.fn 0).funcMask = false ∧ wMsix.fnEnabled 0 = true := by decide +kernel
/-- Port 1 has a link and its first interface, untagged; frame queue 3 serves it. -/
def wEth : State := { ((State.reset.setFld (Reg.ETH_STS 1) 31 30 3).setFlag (Reg.ETH_CTL 1) 0 true).wr (bank 0 (Reg.IF_CTL 1)) 0x80000000 with
    rqs := [(3, { state := .run, target := 7, owner := 0xFFFF, part := 8, logN := 4, ring := 0x2000, wb := 0x4000, coalN := 4, vector := 0xFFFF })] }
def wFrame : Bytes := List.replicate 6 0xFF ++ zeros 6 ++ [0x88, 0xF7] ++ zeros 46
theorem witness_ethFrameRx : wEth.flag (Reg.ETH_STS 1) 31 = true ∧ (wEth.ifOf 1 (frameOf wFrame).1).isSome = true ∧ udpOf (frameOf wFrame).2.2.1 (frameOf wFrame).2.2.2 = none ∧
    (wEth.rqs.find? (fun (e : Nat × Queue) => e.2.state == .run && e.2.target == 6 + 1)).isSome = true ∧ recUnits wFrame.length = 2 := by decide +kernel

/-- Queue 9 executes the command `b` with its rings at 0x3000 and 0x4000, for the physical function. -/
def wDma (target : Nat) (b : Bytes) : State := { State.reset with
    qs := [(9, { state := .run, target := target, cur := some (cmdBits b), logN := 4, logM := 4, ring := 0x2000, cq := 0x3000, wb := 0x4000, coalN := 4, vector := 0xFFFF })] }
def copyCmd (src dst n : Nat) : Bytes := toLe 8 src ++ toLe 8 dst ++ toLe 2 0x10 ++ zeros 6 ++ toLe 4 n ++ zeros 36
def wCopy : State := (wDma 0 (copyCmd 0x1000 0x1100 8)).st 0x1000 [1, 2, 3, 4, 5, 6, 7, 8]
theorem witness_copy : wCopy.executing 9 0x10 = some (cmdBits (copyCmd 0x1000 0x1100 8)) ∧ wCopy.tagFenced (wCopy.queue 9) = false ∧ wCopy.mayUse (wCopy.queue 9) 0x1000 8 = true ∧
    wCopy.canRead 0 0x1000 8 = .ok ∧ wCopy.canWrite 0 0x1100 8 = .ok ∧ Memory.wf wCopy.mem = true ∧ wCopy.localAddr 0x1000 = 0x1000 ∧
    leAt (cmdBytes (cmdBits (copyCmd 0x1000 0x1100 8))) 24 4 = 8 := by decide +kernel
def wCopyPeer : State := { wKl with qs := (wDma 0 (copyCmd 0x41C000001000 0x1100 8)).qs, kal := { routes := [(7, 129)] } }
theorem witness_copyPeer : wCopyPeer.executing 9 0x10 = some (cmdBits (copyCmd 0x41C000001000 0x1100 8)) ∧ wCopyPeer.localAddr 0x41C000001000 = 0x41C000001000 ∧
    isPeer 0x41C000001000 = true ∧ wCopyPeer.routeTo ((0x41C000001000 - peerBase) / 0x4000000000) = some 1 ∧ wCopyPeer.mayUse (wCopyPeer.queue 9) 0x41C000001000 8 = true := by decide +kernel
def sendCmd (a n : Nat) : Bytes := toLe 8 a ++ toLe 2 n ++ zeros 6 ++ toLe 2 0x12 ++ zeros 46
def wSend : State := (((wDma 7 (sendCmd 0x1000 60)).setFlag (Reg.ETH_CTL 1) 0 true).setFld (Reg.ETH_CTL 1) 29 16 1500).setFlag (Reg.ETH_STS 1) 31 true
theorem witness_send : wSend.executing 9 0x12 = some (cmdBits (sendCmd 0x1000 60)) ∧ wSend.mayUse (wSend.queue 9) 0x1000 60 = true ∧ wSend.canRead 0 0x1000 60 = .ok ∧
    wSend.flag (Reg.ETH_CTL 1) 0 = true ∧ wSend.flag (Reg.ETH_STS 1) 31 = true := by decide +kernel

/-- Hart 5 runs in machine mode at 0x1000, where the word `w` stands, with x1 = a and x2 = b. -/
def wHart (w : Nat) (a b : DWord) : State := ({ State.reset with harts := [(5, { run := .running, pc := 0x1000, x := [(1, a), (2, b)] })] } : State).st 0x1000 (toLe 4 w)
theorem witness_fetch : ((wHart 0x002081B3 3 4).hart 5).run = .running ∧ (wHart 0x002081B3 3 4).irq 5 = none ∧ (wHart 0x002081B3 3 4).peerBusy 5 = false ∧
    (wHart 0x002081B3 3 4).coreOwner 0 = none ∧ (wHart 0x002081B3 3 4).physStop 5 .m .x 0x1000 2 = none ∧ (wHart 0x002081B3 3 4).physStop 5 .m .x 0x1002 2 = none ∧
    leNat ((wHart 0x002081B3 3 4).ld 0x1000 2) % 4 = 3 := by decide +kernel
/-- The fetch of a state of this kind leaves it as it is. -/
theorem witness_hartAt : ((wHart 0x002081B3 3 4).woken 5).issue 5 = .fetch (.ok (0x002081B3, 4) (wHart 0x002081B3 3 4)) := rfl
theorem witness_add : opR (iF7 0x002081B3) (iF3 0x002081B3) 3 4 = some 7 ∧ Memory.wf (wHart 0x002081B3 3 4).mem = true ∧ iRd 0x002081B3 = 3 := by decide +kernel
theorem witness_irq : (({ State.reset with harts := [(5, { run := .running, mode := .u, csr := [(0x304, 8), (csrMip, 8)] })] } : State).woken 5).issue 5 = .irq 3 := rfl
theorem witness_noIssue : (State.reset.woken 5).issue 5 = .no := rfl
theorem witness_mtimer : let s : State := { State.reset with harts := [(5, { run := .wfi, csr := [(0x304, 0x80), (0x7C0, BitVec.ofNat 64 ones64)] })] }
    ((s.hart 5).cs 0x7C0).toNat ≤ s.now ∧ (s.hart 5).run = .wfi ∧ bit ((s.hart 5).cs 0x304) 7 = true := by decide +kernel

theorem witness_hartLoad : ((wHart 0x0000A183 0x2000 9).woken 5).issue 5 = .fetch (.ok (0x0000A183, 4) (wHart 0x0000A183 0x2000 9)) ∧
    (wHart 0x0000A183 0x2000 9).translate 5 .r 0x2000 = .ok 0x2000 (wHart 0x0000A183 0x2000 9) := ⟨rfl, rfl⟩
theorem witness_hartLoadOk : (wHart 0x0000A183 0x2000 9).physStop 5 .m .r 0x2000 4 = none ∧ (wHart 0x0000A183 0x2000 9).localAddr 0x2000 = 0x2000 ∧
    ((wHart 0x0000A183 0x2000 9).hart 5).eff .r = .m := by decide +kernel
theorem witness_hartStore : ((wHart 0x0020A023 0x2000 9).woken 5).issue 5 = .fetch (.ok (0x0020A023, 4) (wHart 0x0020A023 0x2000 9)) ∧
    (wHart 0x0020A023 0x2000 9).translate 5 .w 0x2000 = .ok 0x2000 (wHart 0x0020A023 0x2000 9) := ⟨rfl, rfl⟩
theorem witness_amo : (wHart 0x0020A1AF 0x2000 9).atomAddr 5 .w 0x2000 4 = .ok 0x2000 (wHart 0x0020A1AF 0x2000 9) ∧ atomBytes 0x0020A1AF = 4 ∧ nbits 0x0020A1AF 31 27 = 0 ∧
    amoOp 0 4 0 9 = some 9 := ⟨rfl, by decide +kernel, by decide +kernel, by decide +kernel⟩
theorem witness_lr : (wHart 0x1000A1AF 0x2000 9).atomAddr 5 .r 0x2000 4 = .ok 0x2000 (wHart 0x1000A1AF 0x2000 9) ∧ nbits 0x1000A1AF 31 27 = 2 ∧ iRs2 0x1000A1AF = 0 :=
  ⟨rfl, by decide +kernel, by decide +kernel⟩
def wHartSc : State := ({ State.reset with harts := [(5, { run := .running, pc := 0x1000, x := [(1, 0x2000), (2, 9)], resv := some 0x80 })] } : State).st 0x1000 (toLe 4 0x1820A1AF)
theorem witness_sc : (wHartSc.hart 5).resv = some (0x2000 / 64) ∧ nbits 0x1820A1AF 31 27 = 3 := by decide +kernel
theorem witness_fence : iF3 0x0FF0000F = 0 ∧ iF3 0x0000100F = 1 ∧ 0x0FF0000F % 128 = 0x0F := by decide +kernel
theorem witness_xfence : nbits 0x8FF0000B 31 30 = 2 ∧ nbits 0x8FF0000B 29 28 = 0 ∧ iRd 0x8FF0000B = 0 ∧ iRs1 0x8FF0000B = 0 := by decide +kernel

theorem witness_urgWrite : ((wHart 0x800091F3 2 0).woken 5).issue 5 = .fetch (.ok (0x800091F3, 4) (wHart 0x800091F3 2 0)) := rfl
theorem witness_urgOk : ((wHart 0x800091F3 2 0).hart 5).csrOk 0x800 true = true ∧ csrWrites 0x800091F3 = true ∧ nbits 0x800091F3 31 20 = 0x800 ∧
    bits ((wHart 0x800091F3 2 0).csrTarget 5 0x800091F3) 1 0 = 2 := by decide +kernel
theorem witness_satpWrite : ((wHart 0x180091F3 0x9000000000000001 0).hart 5).csrOk 0x180 true = true ∧
    bits ((wHart 0x180091F3 0x9000000000000001 0).csrTarget 5 0x180091F3) 63 60 = 9 := by decide +kernel
theorem witness_csrBad : (({ (wHart 0x180091F3 2 0).hart 5 with mode := .u } : Hart)).csrOk 0x180 true = false := by decide +kernel
theorem witness_mevtqRead : let s : State := { wHart 0x7C1021F3 2 0 with hevt := [(5, 4)] }
    bit (s.hevt.get 0 5) 2 = true ∧ bit (s.hevt.get 0 5) 1 = false ∧ (s.hart 5).csrOk 0x7C1 false = true ∧ csrReads 0x7C1021F3 = true ∧ csrWrites 0x7C1021F3 = false := by decide +kernel
theorem witness_xpark : ((wHart 0x100B 0 0).woken 5).issue 5 = .fetch (.ok (0x100B, 4) (wHart 0x100B 0 0)) ∧ ((wHart 0x100B 0 0).core 0).launchQ = [] := ⟨rfl, rfl⟩
theorem witness_wrs : ({ State.reset with harts := [(5, { run := .wrs (some 0), resv := some 1 })] } : State).hart 5 = { run := .wrs (some 0), resv := some 1 } := by decide +kernel

/-- Hart 5 with VS n and a slot whose type is SEW 32, LMUL 1, vl 2. -/
def wVecHart (w : Nat) (n : Nat) (sl : Option VSlot) : State :=
  ({ State.reset with harts := [(5, { run := .running, pc := 0x1000, x := [(1, 0x600), (2, 0x2000)], csr := if n = 0 then [] else [(0x300, BitVec.ofNat 64 (n * 512))], slot := sl })] } : State).st
    0x1000 (toLe 4 w)
def wSlot : VSlot := { vl := 2, vtype := 0x10, v := [(1, 0x0000000200000001), (2, 0x0000000400000003)] }
theorem witness_vsWrite : (wVecHart 0x30009073 0 none).newVs 5 0x30009073 = some 3 ∧ (wVecHart 0x30009073 0 none).slotFor 5 = true ∧
    ((wVecHart 0x30009073 0 none).hart 5).vs = 0 := by decide +kernel
theorem witness_vsOff : (wVecHart 0x30005073 3 (some wSlot)).newVs 5 0x30005073 = some 0 ∧ ((wVecHart 0x30005073 3 (some wSlot)).hart 5).vs = 3 := by decide +kernel
theorem witness_vector : (wVecHart 0x022081D7 3 (some wSlot)).iclass 5 0x022081D7 = .vec ∧ (wVecHart 0x022081D7 3 (some wSlot)).vill 5 = false ∧
    iF3 0x022081D7 = 0 ∧ 0x022081D7 % 128 = 0x57 := by decide +kernel
theorem witness_vset : vtOk 0x10 = true ∧ iF3 0xC1017157 = 7 ∧ nbits 0xC1017157 31 30 = 3 ∧ nbits 0xC1017157 29 20 = 0x10 := by decide +kernel
theorem witness_vectorAt : ((wVecHart 0x022081D7 3 (some wSlot)).woken 5).issue 5 = .fetch (.ok (0x022081D7, 4) (wVecHart 0x022081D7 3 (some wSlot))) := rfl

end Sys2Proof.Tests
end

section
/-! SUPPORT. Accesses on the register bus: what a write to a register without behaviour of its own, to LOCK, to the snapshot mirror and
at an offset with no page does (R57 to R61, R67, R71). -/
namespace Sys2Proof.Machine

/-! ## A word as its bytes -/

@[simp] theorem length_toLe (k n : Nat) : (toLe k n).length = k := by
  induction k generalizing n with
  | zero => rfl
  | succ k ih => simp [toLe, ih]

theorem leNat_toLe (k n : Nat) : leNat (toLe k n) = n % 256 ^ k := by
  induction k generalizing n with
  | zero => simp [toLe, leNat, Nat.mod_one]
  | succ k ih =>
    have h : 256 ^ (k + 1) = 256 * 256 ^ k := Nat.pow_succ'
    rw [toLe, leNat, ih, BitVec.toNat_ofNat, h]
    exact Nat.mod_mul.symm

/-- The four bytes of a word spell the word. -/
theorem ofNat_leNat_toLe (v : Word) : BitVec.ofNat 32 (leNat (toLe 4 v.toNat)) = v := by
  have h : v.toNat % 256 ^ 4 = v.toNat := Nat.mod_eq_of_lt v.isLt
  rw [leNat_toLe, h, BitVec.ofNat_toNat, BitVec.setWidth_eq]

/-- Words that agree under a mask agree in every field that the mask covers. -/
theorem bits_eq_of_and_xor {v w m : Word} {hi lo : Nat} (hm : bits m hi lo = 2 ^ (hi + 1 - lo) - 1) (h : m &&& (v ^^^ w) = 0) :
    bits v hi lo = bits w hi lo := by
  have e : v &&& m = w &&& m := by
    apply BitVec.eq_of_getLsbD_eq
    intro i _
    have hi' := congrArg (fun x : Word => x.getLsbD i) h
    simp only [BitVec.getLsbD_and, BitVec.getLsbD_xor] at hi' ⊢
    revert hi'
    cases m.getLsbD i <;> cases v.getLsbD i <;> cases w.getLsbD i <;> simp
  rw [← bits_and_ones v m hm, e, bits_and_ones w m hm]

/-! ## Which page an offset lies on -/

/-- The page of an offset depends on its 4 KiB page only. -/
theorem pageAt_congr {a b : Nat} (h : a / 0x1000 = b / 0x1000) : pageAt a = pageAt b := by unfold pageAt; rw [h]

/-- No page lies at or above 0x340000 (R448). -/
theorem pageAt_eq_none {a : Nat} (h : 0x340000 ≤ a) : pageAt a = none := by
  have hp : 0x340 ≤ a / 0x1000 := by omega
  unfold pageAt
  dsimp only
  generalize a / 0x1000 = p at hp
  repeat rw [if_neg (by omega)]

theorem lt_of_pageAt {a : Nat} {k : PageKind} (h : pageAt a = some k) : a < 0x340000 := by
  by_contra hn
  simp [pageAt_eq_none (Nat.le_of_not_lt hn)] at h

/-! ## The next state of a command that may change everything -/

theorem rd_taken_all (s t : State) (a : Nat) : (s.taken t Fld.all).rd a = t.rd a := taken_rd s t (by decide) a

/-- An operation that leaves memory alone changes no byte of a canonical memory. -/
theorem byte_taken_all {s t : State} (h : t.mem = s.mem) (hm : Memory.wf s.mem = true) (x : Nat) :
    (s.taken t Fld.all).byte x = s.byte x := by
  rw [taken_byte s t (by decide) (by rw [h]; exact hm) x]
  unfold State.byte; rw [h]

theorem out_taken_all (s t : State) : (s.taken t Fld.all).out = t.out := by rw [taken_out, if_pos (by decide)]

/-! ## An access that is counted as unmapped -/

/-- The registers that the fault log may change lie among the pending bits, on the fault log's page, or count dropped messages. -/
theorem not_logReg {b : Nat} (h1 : b < 0x6060 ∨ 0x6080 ≤ b) (h2 : b < 0x9000 ∨ 0xA000 ≤ b) (h3 : b ≠ Reg.HP_CNT_VEC_DROP) : ¬ logReg b := by
  rintro (h | h)
  · exact not_msgReg h1 h3 h
  · simp only [Reg.FLOG_NEXT, Reg.FLOG_CNT_ENTRIES, Reg.FLOG_CNT_OVERWRITTEN] at h
    omega

theorem rd_unmapped_cnt (s : State) (req : Req) (a : Nat) : (s.unmapped req a).rd Reg.UNMAPPED_CNT = s.rd Reg.UNMAPPED_CNT + 1 := by
  have h : ¬ logReg Reg.UNMAPPED_CNT := not_logReg (by decide) (by decide) (by decide)
  exact (rd_logLimited _ _ _ _ _ h).trans (rd_bump_same _ _)

theorem rd_unmapped (s : State) (req : Req) (a : Nat) {b : Nat} (h : ¬ logReg b) (hb : b ≠ Reg.UNMAPPED_CNT) :
    (s.unmapped req a).rd b = s.rd b :=
  (rd_logLimited _ _ _ _ _ h).trans (rd_bump_ne _ hb)

@[simp] theorem unmapped_mem (s : State) (req : Req) (a : Nat) : (s.unmapped req a).mem = s.mem :=
  logLimited_same (f := .mem) (s.bump Reg.UNMAPPED_CNT) _ _ _ _ (by decide)

/-! ## Where a write on the bus goes -/

/-- Outside the write ports of a page, bytes written are no port's. -/
theorem portWrite_eq_none (s : State) {o : Nat} (b : Bytes) (h : o % 0x1000 < 0xFC0) (hp : pageAt o = some .part → o % 0x1000 < 0x800) :
    s.portWrite o b = none := by
  have hF : ¬ 0xFC0 ≤ o % 0x1000 := by omega
  unfold State.portWrite
  dsimp only
  split
  case h_4 e =>
    have := hp e
    rw [if_neg (by omega), if_neg (by omega)]
  case h_6 => rfl
  all_goals exact if_neg hF

theorem portWrite_of_no_page (s : State) {o : Nat} (b : Bytes) (h : pageAt o = none) : s.portWrite o b = none := by
  unfold State.portWrite; rw [h]

/-- An aligned write of four bytes that no port takes is one 32-bit write (R58). -/
theorem regWrite_word (s : State) (req : Req) {o : Nat} (v : Word) (h4 : o % 4 = 0) (hp : s.portWrite o (toLe 4 v.toNat) = none) :
    s.regWrite req o (toLe 4 v.toNat) = s.busWrite req o v := by
  unfold State.regWrite
  rw [hp]
  dsimp only
  rw [if_pos ⟨length_toLe _ _, h4⟩, ofNat_leNat_toLe]

/-- A write in the snapshot mirror does nothing (R71). -/
theorem busWrite_mirror (s : State) (req : Req) {o : Nat} (v : Word) (h : 0x2000000 ≤ o ∧ o < 0x2340000) : s.busWrite req o v = s := by
  unfold State.busWrite; exact if_pos h

/-- Where no page lies a write is counted (R57). -/
theorem busWrite_no_page (s : State) (req : Req) {o : Nat} (v : Word) (h : ¬ (0x2000000 ≤ o ∧ o < 0x2340000)) (hp : pageAt o = none) :
    s.busWrite req o v = s.unmapped req o := by
  unfold State.busWrite; rw [if_neg h, hp]

/-- A write to LOCK sets the bits that have a group (R59). -/
theorem busWrite_lock (s : State) (req : Req) {o : Nat} (v : Word) {k : PageKind} (hk : pageAt o = some k) (h : o % 0x1000 = 0x1C) :
    s.busWrite req o v = s.wr o (s.rd o ||| (v &&& BitVec.ofNat 32 (lockBits k))) := by
  have hlt := lt_of_pageAt hk
  have hb : pageAt (o / 0x1000 * 0x1000) = some k := by rw [← hk]; exact pageAt_congr (by omega)
  have ho : o / 0x1000 * 0x1000 + 0x1C = o := by omega
  unfold State.busWrite
  rw [if_neg (by omega), hk]
  dsimp only
  rw [if_pos (by omega), h]
  unfold State.commonWrite State.lockWrite
  simp only [hb, ho]
  rfl

/-- The pages of which no register has a behaviour of its own (R67). -/
def plainPages : List PageKind := [.dir, .fam, .sin, .seqc, .core, .com, .frz, .hp]

/-- On such a page a write is stored under its own key. -/
theorem plainWrite_plain (s : State) (req : Req) {o : Nat} (v : Word) {k : PageKind} (hk : pageAt o = some k) (hm : k ∈ plainPages)
    (h : 0x40 ≤ o % 0x1000) : s.plainWrite req o v = (s.store req o v).1 := by
  have hw : s.winKey o = o := by unfold State.winKey; rw [hk]; fin_cases hm <;> rfl
  have hi : s.writeIgnored o = false := by unfold State.writeIgnored; rw [hk]; fin_cases hm <;> rfl
  have ht : o ≠ Reg.TEMP_CFG := by rintro rfl; cases hk; revert hm; decide
  have hg : o ≠ Reg.GPIO_EDGE_STS := by rintro rfl; cases hk; revert hm; decide
  unfold State.plainWrite
  rw [hk]
  dsimp only
  rw [if_neg (by omega), hi, if_neg Bool.false_ne_true, if_neg ht, if_neg hg, hw]

theorem busWrite_plain (s : State) (req : Req) {o : Nat} (v : Word) {k : PageKind} (hk : pageAt o = some k) (hm : k ∈ plainPages)
    (h : 0x40 ≤ o % 0x1000) : s.busWrite req o v = (s.store req o v).1 := by
  have hlt := lt_of_pageAt hk
  rw [← plainWrite_plain s req v hk hm h]
  unfold State.busWrite
  rw [if_neg (by omega), hk]
  dsimp only
  rw [if_neg (by omega)]
  fin_cases hm <;> rfl

/-- A write is stored exactly when it violates no lock (R60). -/
theorem store_snd_eq (s : State) (req : Req) {a : Nat} (v : Word) {d : RegDef} (hd : defAt a = some d) :
    (s.store req a v).2 = !s.violates a d v := by
  unfold State.store
  rw [hd]
  dsimp only
  split <;> simp [*]

/-! ## GT_CTL: the clamp of SEAL_LEAD_US and lock group DEADLINE -/

theorem busWrite_gtCtl (s : State) (req : Req) (v : Word) : s.busWrite req Reg.GT_CTL v = (s.store req Reg.GT_CTL v).1 := rfl

/-- The definition of GT_CTL: SEAL_LEAD_US in bits 9:0, of lock group 0. -/
def gtCtlDef : RegDef := { off := 0x40, reset := 0xc, rw := 0x3ff, lk0 := 0x3ff }

theorem defAt_gtCtl : defAt Reg.GT_CTL = some gtCtlDef := rfl

theorem closedMask_gtCtl (s : State) : s.closedMask Reg.GT_CTL gtCtlDef = if s.flag 0x201C 0 then 0x3ff else 0 := by
  have h1 : (if bit (s.rd 0x201C) 1 then BitVec.ofNat 32 gtCtlDef.lk1 else 0) = 0 := ite_self _
  have h2 : (if s.wosDone.contains Reg.GT_CTL then BitVec.ofNat 32 gtCtlDef.wos else 0) = 0 := ite_self _
  have e : s.closedMask Reg.GT_CTL gtCtlDef = (if s.flag 0x201C 0 then 0x3ff else 0) |||
      (if bit (s.rd 0x201C) 1 then BitVec.ofNat 32 gtCtlDef.lk1 else 0) |||
      (if s.wosDone.contains Reg.GT_CTL then BitVec.ofNat 32 gtCtlDef.wos else 0) := rfl
  rw [e, h1, h2]
  exact BitVec.or_zero.trans BitVec.or_zero

theorem violates_gtCtl_unlocked {s : State} (v : Word) (h : s.flag 0x201C 0 = false) : s.violates Reg.GT_CTL gtCtlDef v = false := by
  unfold State.violates
  rw [closedMask_gtCtl, h]
  simp

/-- With the group locked, another SEAL_LEAD_US is a violation. -/
theorem violates_gtCtl_locked {s : State} {v : Word} (h : s.flag 0x201C 0 = true) (hv : bits v 9 0 ≠ s.fld Reg.GT_CTL 9 0) :
    s.violates Reg.GT_CTL gtCtlDef v = true := by
  unfold State.violates
  rw [closedMask_gtCtl, h, if_pos rfl, bne_iff_ne]
  exact fun e => hv (bits_eq_of_and_xor (by decide) e)

theorem clampWord_gtCtl (w : Word) : clampWord Reg.GT_CTL w =
    putBits w 9 0 (if bits w 9 0 < 6 then 6 else if 1000 < bits w 9 0 then 1000 else bits w 9 0) := by
  have e : clampWord Reg.GT_CTL w = putBits w 9 0 (if 6 ≤ bits w 9 0 ∧ bits w 9 0 ≤ 1000 then bits w 9 0 else nclamp 6 1000 (bits w 9 0)) := rfl
  rw [e]
  congr 1
  unfold nclamp
  split_ifs <;> omega

/-- What a stored write leaves in SEAL_LEAD_US. -/
theorem sealLead_stored (s : State) (v : Word) : bits (s.stored Reg.GT_CTL gtCtlDef v) 9 0 =
    if bits v 9 0 < 6 then 6 else if 1000 < bits v 9 0 then 1000 else bits v 9 0 := by
  have hm : bits (BitVec.ofNat 32 gtCtlDef.rw) 9 0 = 2 ^ (9 + 1 - 0) - 1 := by decide
  have hw : bits ((s.rd Reg.GT_CTL &&& ~~~BitVec.ofNat 32 gtCtlDef.rw) ||| (v &&& BitVec.ofNat 32 gtCtlDef.rw)) 9 0 = bits v 9 0 := by
    rw [bits_or, bits_and_ones _ _ hm, bits_and, bits_not_ones _ hm, Nat.and_zero, Nat.zero_or]
  unfold State.stored
  dsimp only
  rw [clampWord_gtCtl, hw, bits_putBits _ _ (by decide) (by decide)]
  split
  · rfl
  · split
    · rfl
    · exact Nat.mod_eq_of_lt (by omega)

/-- A lock violation raises LOCKVIOL of its page (R61). -/
theorem flag_lockViol (s : State) (req : Req) (a : Nat) (h : ¬ logReg (pageBase a + 0x10)) (hc : pageBase a + 0x10 ≠ Reg.LOCKVIOL_CNT) :
    (s.lockViol req a).flag (pageBase a + 0x10) 31 = true := by
  have e : (s.lockViol req a).rd (pageBase a + 0x10) = (s.raise (pageBase a) 31).rd (pageBase a + 0x10) :=
    (rd_logLimited _ _ _ _ _ h).trans (rd_bump_ne _ hc)
  rw [flag_congr e]
  exact flag_raise_self _ _ _ (by decide) (fun m => h (.inl m))

/-- A lock violation is counted (R61). -/
theorem rd_lockViol_cnt (s : State) (req : Req) (a : Nat) (h : pageBase a + 0x10 ≠ Reg.LOCKVIOL_CNT) :
    (s.lockViol req a).rd Reg.LOCKVIOL_CNT = s.rd Reg.LOCKVIOL_CNT + 1 := by
  have hl : ¬ logReg Reg.LOCKVIOL_CNT := not_logReg (by decide) (by decide) (by decide)
  have hr : (s.raise (pageBase a) 31).rd Reg.LOCKVIOL_CNT = s.rd Reg.LOCKVIOL_CNT := rd_raise _ _ _ (fun m => hl (.inl m)) h.symm
  rw [← hr]
  exact (rd_logLimited _ _ _ _ _ hl).trans (rd_bump_same _ _)

/-! ## Accesses outside the rules -/

/-- A write where no page lies, but for an aligned one of eight bytes (R58: two 32-bit writes), is one unmapped access. -/
theorem badAccess_write (s : State) (req : Req) {o n : Nat} (hp : pageAt o = none) (hm : o < 0x2000000 ∨ 0x2340000 ≤ o)
    (hn : n ≠ 8 ∨ o % 8 ≠ 0) : s.badAccess req o n true = s.unmapped req o := by
  have hlen : (zeros n).length = n := by simp [zeros]
  have hmir : ¬ (0x2000000 ≤ o ∧ o < 0x2340000) := by omega
  have hport := portWrite_of_no_page s (zeros n) hp
  have hdoor : doorbellAt o = false := by unfold doorbellAt; rw [hp]; simp
  have hoff : offRules o n true = true := by
    unfold offRules
    rw [hp]
    have : (decide (0x2000000 ≤ o) && decide (o < 0x2340000)) = false := by simpa using hmir
    simp [this]
  unfold State.badAccess
  rw [hoff, hport, if_neg (by simp), if_pos rfl]
  unfold State.regWrite
  rw [hport, hdoor]
  dsimp only
  rw [hlen]
  split
  · exact busWrite_no_page s req _ hmir hp
  · exact if_neg (by omega)

/-- A read inside one register where no page lies is one unmapped access, and returns zero (R57). -/
theorem badAccess_read_register (s : State) (req : Req) {o n : Nat} (hp : pageAt o = none) (hm : o < 0x2000000 ∨ 0x2340000 ≤ o)
    (hn : 1 ≤ n) (h4 : o % 4 + n ≤ 4) : s.badAccess req o n false = (s.unmapped req (o / 4 * 4)).emit (.read req o 0) := by
  have hp4 : pageAt (o / 4 * 4) = none := by rw [← hp]; exact pageAt_congr (by omega)
  have hoff : offRules o n false = true := by
    have : (decide (0x2000000 ≤ o) && decide (o < 0x2340000)) = false := by simp; omega
    unfold offRules
    rw [hp]
    simp [this]
  have hbus : s.busRead req (o / 4 * 4) = (0, s.unmapped req (o / 4 * 4)) := by
    unfold State.busRead
    rw [if_neg (by omega), hp4]
    rfl
  unfold State.badAccess State.regRead
  rw [hoff, if_neg (by simp), if_neg Bool.false_ne_true, if_pos ⟨hn, h4⟩, hbus]

/-- A read of two to seven bytes across registers is one unmapped access, and returns zero (R58). -/
theorem badAccess_read_across (s : State) (req : Req) {o n : Nat} (h8 : n < 8) (h4 : 4 < o % 4 + n) :
    s.badAccess req o n false = (s.unmapped req o).emit (.read req o 0) := by
  have hoff : offRules o n false = true := by
    have h1 : decide (o % 4 + n ≤ 4) = false := by simpa using h4
    have h2 : (n == 8) = false := by simp; omega
    unfold offRules
    simp [h1, h2]
  unfold State.badAccess State.regRead
  rw [hoff, if_neg (by simp), if_neg Bool.false_ne_true, if_neg (by omega), if_neg (by omega)]

end Sys2Proof.Machine
end

section
/-! SUPPORT. The register bus statement, clause by clause. -/
namespace Sys2Proof.Machine

/-! ## One 32-bit write at a BAR0 offset -/

/-- REGISTER_WRITE at an aligned offset that is no port is one write on the bus. -/
theorem exec_registerWrite (req : BitVec 16) {a : BitVec 26} (v : Word) (s : State) (h4 : a.toNat % 4 = 0)
    (hp : ∀ b, s.portWrite a.toNat b = none) :
    exec (.registerWrite req a v) s = .next (s.taken (s.busWrite req a.toNat v) Fld.all) := by
  rw [← regWrite_word s req v h4 (hp _)]
  rfl

/-- On a page without behaviour a write that violates no lock is stored, and nothing else changes. -/
theorem registerWrite_stores (req : BitVec 16) {a : BitVec 26} (v : Word) {s : State} {k : PageKind} {d : RegDef}
    (hm : Memory.wf s.mem = true) (h4 : a.toNat % 4 = 0) (hk : pageAt a.toNat = some k) (hpl : k ∈ plainPages)
    (hlo : 0x40 ≤ a.toNat % 0x1000) (hhi : a.toNat % 0x1000 < 0xFC0) (hd : defAt a.toNat = some d) (hv : s.violates a.toNat d v = false) :
    ∃ t, exec (.registerWrite req a v) s = .next t ∧ t.rd a.toNat = s.stored a.toNat d v ∧
      (∀ b, b ≠ a.toNat → t.rd b = s.rd b) ∧ ∀ x, t.byte x = s.byte x := by
  have hpart : pageAt a.toNat ≠ some .part := by rw [hk]; rintro ⟨⟩; revert hpl; decide
  have hst : (s.store req a.toNat v).2 = true := by rw [store_snd_eq s req v hd, hv]; rfl
  refine ⟨_, exec_registerWrite req v s h4 (fun b => portWrite_eq_none s b hhi (absurd · hpart)), ?_⟩
  rw [busWrite_plain s req v hk hpl hlo]
  refine ⟨?_, fun b hb => ?_, byte_taken_all (store_same (f := .mem) s req _ v hst (by decide)) hm⟩
  · rw [rd_taken_all, rd_store s req v hd hst]
  · rw [rd_taken_all, rd_store_ne s req v hb hst]

/-- LOCK takes the bits that have a group and keeps those it holds. -/
theorem registerWrite_lock (req : BitVec 16) {a : BitVec 26} (v : Word) {s : State} {k : PageKind} (h4 : a.toNat % 4 = 0)
    (hk : pageAt a.toNat = some k) (hr : a.toNat % 0x1000 = 0x1C) :
    ∃ t, exec (.registerWrite req a v) s = .next t ∧
      t.rd a.toNat = s.rd a.toNat ||| (v &&& BitVec.ofNat 32 (lockBits k)) ∧ ∀ b, b ≠ a.toNat → t.rd b = s.rd b := by
  refine ⟨_, exec_registerWrite req v s h4 (fun b => portWrite_eq_none s b (by omega) (fun _ => by omega)), ?_⟩
  rw [busWrite_lock s req v hk hr]
  refine ⟨?_, fun b hb => ?_⟩
  · rw [rd_taken_all, rd_wr_same]
  · rw [rd_taken_all, rd_wr_ne s _ hb]

theorem registerWrite_mirror (req : BitVec 16) {a : BitVec 26} (v : Word) {s : State} (hm : Memory.wf s.mem = true)
    (h4 : a.toNat % 4 = 0) (hlo : 0x2000000 ≤ a.toNat) (hhi : a.toNat < 0x2340000) :
    ∃ t, exec (.registerWrite req a v) s = .next t ∧ (∀ b, t.rd b = s.rd b) ∧ ∀ x, t.byte x = s.byte x := by
  have hnone : pageAt a.toNat = none := pageAt_eq_none (by omega)
  refine ⟨_, exec_registerWrite req v s h4 (fun b => portWrite_of_no_page s b hnone), ?_⟩
  rw [busWrite_mirror s req v ⟨hlo, hhi⟩]
  exact ⟨rd_taken_all s s, byte_taken_all rfl hm⟩

theorem exec_registerWrite_gtCtl (req : BitVec 16) (v : Word) (s : State) :
    exec (.registerWrite req 0x2040 v) s = .next (s.taken (s.store req Reg.GT_CTL v).1 Fld.all) := by
  rw [← busWrite_gtCtl]
  exact exec_registerWrite req v s (by decide) (fun _ => portWrite_eq_none s _ (by decide) (by decide))

/-- SEAL_LEAD_US is held within 6 and 1,000. -/
theorem registerWrite_sealLead (req : BitVec 16) (v : Word) {s : State} (hl : s.flag 0x201C 0 = false) :
    ∃ t, exec (.registerWrite req 0x2040 v) s = .next t ∧
      t.fld Reg.GT_CTL 9 0 = (if bits v 9 0 < 6 then 6 else if 1000 < bits v 9 0 then 1000 else bits v 9 0) ∧
      ∀ b, b ≠ Reg.GT_CTL → t.rd b = s.rd b := by
  have hst : (s.store req Reg.GT_CTL v).2 = true := by
    rw [store_snd_eq s req v defAt_gtCtl, violates_gtCtl_unlocked v hl]; rfl
  refine ⟨_, exec_registerWrite_gtCtl req v s, ?_, fun b hb => ?_⟩
  · rw [taken_fld _ _ (by decide), State.fld, rd_store s req v defAt_gtCtl hst, sealLead_stored]
  · rw [rd_taken_all, rd_store_ne s req v hb hst]

/-- With group DEADLINE locked another SEAL_LEAD_US is turned away: a lock violation. -/
theorem registerWrite_sealLead_locked (req : BitVec 16) (v : Word) {s : State} (hm : Memory.wf s.mem = true)
    (hl : s.flag 0x201C 0 = true) (hv : bits v 9 0 ≠ s.fld Reg.GT_CTL 9 0) :
    ∃ t, exec (.registerWrite req 0x2040 v) s = .next t ∧ t.rd Reg.GT_CTL = s.rd Reg.GT_CTL ∧ t.flag 0x2010 31 = true ∧
      t.rd Reg.LOCKVIOL_CNT = s.rd Reg.LOCKVIOL_CNT + 1 ∧ ∀ x, t.byte x = s.byte x := by
  have hst : (s.store req Reg.GT_CTL v).2 = false := by
    rw [store_snd_eq s req v defAt_gtCtl, violates_gtCtl_locked hl hv]; rfl
  refine ⟨_, exec_registerWrite_gtCtl req v s, ?_⟩
  rw [store_refused s req _ v hst]
  have hgt : ¬ logReg Reg.GT_CTL := not_logReg (by decide) (by decide) (by decide)
  have hev : ¬ logReg (pageBase Reg.GT_CTL + 0x10) := not_logReg (by decide) (by decide) (by decide)
  refine ⟨?_, ?_, ?_, byte_taken_all (lockViol_same (f := .mem) s req _ (by decide)) hm⟩
  · rw [rd_taken_all]
    exact rd_lockViol s req Reg.GT_CTL hgt (by decide) (by decide)
  · rw [taken_flag _ _ (by decide)]
    exact flag_lockViol s req Reg.GT_CTL hev (by decide)
  · rw [rd_taken_all]
    exact rd_lockViol_cnt s req Reg.GT_CTL (by decide)

/-! ## Accesses outside the rules -/

/-- `t` holds in every register that the fault log leaves alone what `s` holds, but for one more in UNMAPPED_CNT. -/
def State.countsUnmapped (s t : State) : Prop :=
  t.rd Reg.UNMAPPED_CNT = s.rd Reg.UNMAPPED_CNT + 1 ∧
  ∀ b, (b < 0x6060 ∨ 0x6080 ≤ b) → (b < 0x9000 ∨ 0xA000 ≤ b) → b ≠ Reg.HP_CNT_VEC_DROP → b ≠ Reg.UNMAPPED_CNT → t.rd b = s.rd b

theorem countsUnmapped_taken (s : State) (req : Req) (o : Nat) {u : State} (hu : u.regs = (s.unmapped req o).regs) :
    s.countsUnmapped (s.taken u Fld.all) := by
  refine ⟨?_, fun b h1 h2 h3 h4 => ?_⟩
  · rw [rd_taken_all, rd_congr hu, rd_unmapped_cnt]
  · rw [rd_taken_all, rd_congr hu, rd_unmapped s req o (not_logReg h1 h2 h3) h4]

theorem unmappedAccess_write (req : BitVec 16) {a : BitVec 26} {n : Fin 65} {s : State} (hm : Memory.wf s.mem = true)
    (hp : pageAt a.toNat = none) (ha : a.toNat < 0x2000000 ∨ 0x2340000 ≤ a.toNat) (hn : n.val ≠ 8 ∨ a.toNat % 8 ≠ 0) :
    ∃ t, exec (.unmappedAccess req true a n) s = .next t ∧ s.countsUnmapped t ∧ ∀ x, t.byte x = s.byte x := by
  have e : exec (.unmappedAccess req true a n) s = .next (s.taken (s.badAccess req a.toNat n true) Fld.all) := rfl
  rw [badAccess_write s req hp ha hn] at e
  exact ⟨_, e, countsUnmapped_taken s req _ rfl, byte_taken_all (unmapped_mem s req _) hm⟩

/-- An access that is counted and answers zero: what the state then holds. -/
theorem emit_unmapped_counts (s : State) (req : Req) (o p : Nat) :
    let t := s.taken ((s.unmapped req o).emit (.read req p 0)) Fld.all
    s.countsUnmapped t ∧ (∃ l, t.out = .read req p 0 :: l) ∧ (Memory.wf s.mem = true → ∀ x, t.byte x = s.byte x) :=
  ⟨countsUnmapped_taken s req o rfl, ⟨_, out_taken_all _ _⟩, byte_taken_all (unmapped_mem s req o)⟩

theorem unmappedAccess_read_register (req : BitVec 16) {a : BitVec 26} {n : Fin 65} (s : State) (hp : pageAt a.toNat = none)
    (ha : a.toNat < 0x2000000 ∨ 0x2340000 ≤ a.toNat) (hn : 1 ≤ n.val) (h4 : a.toNat % 4 + n.val ≤ 4) :
    ∃ t, exec (.unmappedAccess req false a n) s = .next t ∧ s.countsUnmapped t ∧ (∃ l, t.out = .read req a.toNat 0 :: l) ∧
      (Memory.wf s.mem = true → ∀ x, t.byte x = s.byte x) := by
  have e : exec (.unmappedAccess req false a n) s = .next (s.taken (s.badAccess req a.toNat n false) Fld.all) := rfl
  rw [badAccess_read_register s req hp ha hn h4] at e
  exact ⟨_, e, emit_unmapped_counts s req _ _⟩

theorem unmappedAccess_read_across (req : BitVec 16) {a : BitVec 26} {n : Fin 65} (s : State) (h8 : n.val < 8)
    (h4 : 4 < a.toNat % 4 + n.val) :
    ∃ t, exec (.unmappedAccess req false a n) s = .next t ∧ s.countsUnmapped t ∧ ∃ l, t.out = .read req a.toNat 0 :: l := by
  have e : exec (.unmappedAccess req false a n) s = .next (s.taken (s.badAccess req a.toNat n false) Fld.all) := rfl
  rw [badAccess_read_across s req h8 h4] at e
  obtain ⟨hc, ho, -⟩ := emit_unmapped_counts s req a.toNat a.toNat
  exact ⟨_, e, hc, ho⟩

/-! ## The statement -/

/-- Settles O28: the plain pages by `store`, LOCK and the mirror by the branch of `busWrite`, GT_CTL by its clamp and its lock group, and
every access outside the rules by the one `unmapped` that it comes to. -/
theorem registerWritesAndUnmappedAccesses : Obligations.RegisterWritesAndUnmappedAccesses := by
  unfold Obligations.RegisterWritesAndUnmappedAccesses
  refine ⟨fun req a v s hm h4 k hk => ⟨fun hlo hhi hpl d hd hv => ?_, fun hr => ?_⟩, fun req a v s hm h4 hlo hhi => ?_,
    fun req v s hl => ?_, fun req v s hm hl hv => ?_, fun req a n s hm hp ha => ⟨fun hn => ?_, fun hn h4 => ?_⟩,
    fun req a n s _ h8 h4 => ?_⟩
  · exact registerWrite_stores req v hm h4 hk hpl hlo hhi hd hv
  · exact registerWrite_lock req v h4 hk hr
  · exact registerWrite_mirror req v hm h4 hlo hhi
  · exact registerWrite_sealLead req v hl
  · exact registerWrite_sealLead_locked req v hm hl hv
  · obtain ⟨t, e, ⟨hc, hr⟩, hb⟩ := unmappedAccess_write req hm hp ha hn
    exact ⟨t, e, hc, hb, hr⟩
  · obtain ⟨t, e, ⟨hc, hr⟩, ho, hb⟩ := unmappedAccess_read_register req s hp ha hn h4
    exact ⟨t, e, ⟨hc, hb hm, hr⟩, ho⟩
  · obtain ⟨t, e, ⟨hc, hr⟩, ho⟩ := unmappedAccess_read_across req s h8 h4
    exact ⟨t, e, hc, ho, hr⟩

end Sys2Proof.Machine
end

section
/-! SUPPORT. What the gate timer's operations leave of an item (R11 to R32): one law per operation, for the statements about items
and deadlines. -/
namespace Sys2Proof.Machine

/-! ## A command that a queue executes -/

/-- The items after a queue's command are those that its effect leaves: completing it touches none. -/
theorem item_taken_execCmd {s : State} {g op : Nat} {d : BitVec 512} (k : Queue → Bytes → State × St × Nat) {w : List Fld}
    (hd : s.executing g op = some d) (hf : s.tagFenced (s.queue g) = false) (hw : .items ∈ w) (id : Nat) :
    (s.taken (s.execCmd g op k) w).item id = (k (s.queue g) (cmdBytes d)).1.item id := by
  rw [taken_item _ _ hw, execCmd_eq s k hd hf, complete_item]

/-- A deadline command has its effect on an item of the queue's owner that is not sealed. -/
theorem onItem_unsealed {s : State} {q : Queue} {b : Bytes} {ok : Bool} {it : Item} (k : Nat → Item → State) (hok : ok = true)
    (hi : s.item (leAt b 0 8) = some it) (ho : s.owns q it.part = true) (hs : it.sealInfo = none) :
    (s.onItem q b ok k).1 = k (leAt b 0 8) it := by
  unfold State.onItem
  simp [hok, hi, ho, hs]

/-- A well-formed OPEN after READY opens an item of a fabric source (R31). -/
theorem effOpen_ready {s : State} {b : Bytes} (q : Queue) (h18 : zeroAt b 18 2 = true) (h24 : zeroAt b 24 8 = true)
    (h10 : zeroAt b 10 6 = true) (h9 : byteAt b 9 ≤ 63) (hr : s.ready = true) :
    (s.effOpen q b).1 = (s.openItem (0x800 + byteAt b 8) (leAt b 0 8) (byteAt b 9) q.ownerOf).2.2 := by
  unfold State.effOpen
  simp [h18, h24, h10, h9, hr]

/-! ## The entry of a new item -/

section
variable (anchor : Int) (prof : Nat) (p : Profile) (lead dmask : Nat) (owner : Nat × Nat)

theorem newItem_anchor : (newItem anchor prof p lead dmask owner).anchor = anchor := by unfold newItem; split <;> rfl
theorem newItem_prof : (newItem anchor prof p lead dmask owner).prof = prof := by unfold newItem; split <;> rfl
theorem newItem_sealInfo : (newItem anchor prof p lead dmask owner).sealInfo = none := by unfold newItem; split <;> rfl

variable {p}

/-- R13 and R16: the deadline from the anchor and the profile's values, the seal instant SEAL_LEAD before it. -/
theorem newItem_deadline (h : p.speed ≠ 0) :
    (newItem anchor prof p lead dmask owner).hasDl = true ∧
    (newItem anchor prof p lead dmask owner).deadline = anchor + (p.dist * 100000000 / p.speed : Nat) - p.margin * 1000 ∧
    (newItem anchor prof p lead dmask owner).sealAt =
      anchor + (p.dist * 100000000 / p.speed : Nat) - p.margin * 1000 - lead * 1000 := by
  unfold newItem
  rw [if_neg h]
  exact ⟨rfl, rfl, rfl⟩

end

/-! ## Sealing -/

/-- An entry that a seal leaves has the deadline that it had. -/
theorem sealItem_keeps_deadline (s : State) (id : Nat) (c : SealCause) {u : Item} (h : (s.sealItem id c).item id = some u) :
    ∃ it, s.item id = some it ∧ u.hasDl = it.hasDl ∧ u.deadline = it.deadline := by
  unfold State.sealItem at h
  split at h
  next hn => rw [hn] at h; cases h
  next it hi =>
    refine ⟨it, hi, ?_⟩
    split at h
    next => rw [hi] at h; cases h; exact ⟨rfl, rfl⟩
    next =>
      dsimp only at h
      generalize hj : (if (c == .deadline && !it.done.getLsbD 4 && !it.ovr.getLsbD 4) = true then it.overrun 4 else it) = j at h
      have hjd : j.hasDl = it.hasDl ∧ j.deadline = it.deadline := by subst hj; split <;> exact ⟨rfl, rfl⟩
      split at h
      · rw [item_setItem] at h; cases h; exact hjd
      · split at h
        · rw [item_freeItem] at h; cases h
        · rw [item_setItem] at h; cases h; exact hjd
      · rw [item_freeItem] at h; cases h

/-! ## Opening -/

/-- The entry that a source opens: for a fabric source capture is done at once (R18). -/
def State.newEntry (s : State) (source : Nat) (anchor : Int) (prof : Nat) (owner : Nat × Nat) : Item :=
  let n := newItem anchor prof (s.profs.get {} prof) s.lead (s.profMask prof) owner
  if 0x800 ≤ source then { n with done := 1 } else n

theorem newEntry_deadline (s : State) (source : Nat) (anchor : Int) (prof : Nat) (owner : Nat × Nat) :
    let n := newItem anchor prof (s.profs.get {} prof) s.lead (s.profMask prof) owner
    (s.newEntry source anchor prof owner).hasDl = n.hasDl ∧ (s.newEntry source anchor prof owner).deadline = n.deadline := by
  unfold State.newEntry
  dsimp only
  split <;> exact ⟨rfl, rfl⟩

/-- The entry stands under its ID with its notice formed (R295). -/
def State.withEntry (s : State) (id : Nat) (it : Item) : State := (s.setItem id it).formNotice id it

theorem item_withEntry (s : State) (id : Nat) (it : Item) : (s.withEntry id it).item id = some it := by
  rw [State.withEntry, item_of_same (formNotice_same (f := .items) _ _ _ (by decide)), item_setItem]

/-- With room for it an item is opened under the source's next ID, and sealed at once when its seal instant has passed (R12, R16). -/
theorem openItem_of_room {s : State} (source : Nat) (anchor : Int) (prof : Nat) (owner : Nat × Nat) (hl : s.items.length < 65536) :
    let it := s.newEntry source anchor prof owner
    let id := (s.newId source).1
    let t := (s.newId source).2.withEntry id it
    s.openItem source anchor prof owner = (id, true, if it.sealAt ≤ t.now then t.sealItem id .noBudget else t) :=
  if_neg (Nat.not_le.mpr hl)

/-- What stands under the opened item's ID has the new item's deadline, sealed at once or not. -/
theorem openItem_deadline {s : State} {source : Nat} {anchor : Int} {prof : Nat} {owner : Nat × Nat} {u : Item}
    (hl : s.items.length < 65536)
    (h : (s.openItem source anchor prof owner).2.2.item (s.openItem source anchor prof owner).1 = some u) :
    let n := newItem anchor prof (s.profs.get {} prof) s.lead (s.profMask prof) owner
    u.hasDl = n.hasDl ∧ u.deadline = n.deadline := by
  obtain ⟨hdl, hdead⟩ := newEntry_deadline s source anchor prof owner
  rw [openItem_of_room source anchor prof owner hl] at h
  dsimp only at h
  split at h
  · obtain ⟨it, hi, udl, udead⟩ := sealItem_keeps_deadline _ _ _ h
    rw [item_withEntry] at hi; cases hi
    exact ⟨udl.trans hdl, udead.trans hdead⟩
  · rw [item_withEntry] at h; cases h
    exact ⟨hdl, hdead⟩

/-! ## SET_DEADLINE -/

/-- A new deadline whose seal instant is still to come re-times the item and leaves the rest of it (R32). -/
theorem setDeadline_item {s : State} {it : Item} {dl : Int} (id : Nat) (h : (s.now : Int) < dl - it.lead * 1000) :
    ∃ u, (s.setDeadline id it dl).item id = some u ∧ u.hasDl = true ∧ u.deadline = dl ∧ u.sealAt = dl - it.lead * 1000 ∧
      u.anchor = it.anchor ∧ u.ovr = it.ovr ∧ u.sealInfo = it.sealInfo := by
  have hset : s.setDeadline id it dl = s.setItem id _ := if_neg (Int.not_le.mpr h)
  rw [hset, item_setItem]
  exact ⟨_, rfl, rfl, rfl, rfl, rfl, rfl, rfl⟩

/-! ## What time brings -/

/-- A milestone that passes with its stage not done marks the overrun of that stage (R20). -/
theorem milestonePass_item {s : State} {id k : Nat} {it : Item} (hi : s.item id = some it) (hs : it.sealInfo = none)
    (hh : it.shadow = none) (hdl : it.hasDl = true) (hk : k < 4) (hd : it.done.getLsbD k = false) (ho : it.ovr.getLsbD k = false)
    (hm : it.milestone k ≤ (s.now : Int)) : (s.milestonePass id k).item id = some (it.overrun k) := by
  unfold State.milestonePass
  simp only [hi]
  rw [if_pos ⟨by simp [hs], by simp [hh], hdl, hk, hd, ho, hm⟩,
    item_of_same (raiseOverrun_same (f := .items) _ _ _ _ (by decide)), item_setItem]

/-- The seal instant of an item of this module seals it (R23). -/
theorem sealDeadline_reached {s : State} {id : Nat} {it : Item} (hi : s.item id = some it) (hh : it.shadow = none)
    (hn : it.sealAt ≤ (s.now : Int)) : s.sealDeadline id = s.sealItem id .deadline := by
  unfold State.sealDeadline
  simp only [hi]
  rw [if_neg (Int.not_lt.mpr hn), if_pos (by simp [hh])]

/-- The late limit of a sealed item frees its entry (R29). -/
theorem lateLimit_item {s : State} {id : Nat} {it : Item} (hi : s.item id = some it) (hs : it.sealInfo.isSome = true)
    (hh : it.shadow = none) (hn : it.lateLimit ≤ (s.now : Int)) : (s.lateLimit id).item id = none := by
  unfold State.lateLimit
  simp only [hi]
  rw [if_neg (by simp [hh]), if_pos ⟨hs, hn⟩]
  exact item_freeItem _ _

theorem urgencyChange_eq {s : State} {id : Nat} {it : Item} (hi : s.item id = some it) :
    s.urgencyChange id = s.setItem id { it with urg := it.urgency s.now } := by
  unfold State.urgencyChange; rw [hi]

/-- With no urgent batch open, none closes. -/
theorem closeUrgent_of_calm {s : State} (h : ∀ k b, (k, some b) ∈ s.batches → s.batchUrgent b = false) : s.closeUrgent = s := by
  unfold State.closeUrgent
  refine List.foldlRecOn (motive := fun t => t = s) s.batches _ rfl fun t ht e he => ?_
  subst ht
  obtain ⟨k, _ | b⟩ := e
  · rfl
  · simp [h k b he]

/-- The urgency of R21 is stored; no batch closes when none is urgent for it. -/
theorem urgencyRow_item {s : State} {id : Nat} {it : Item} (hi : s.item id = some it)
    (hb : ∀ k b, (k, some b) ∈ s.batches → (s.urgencyChange id).batchUrgent b = false) :
    (s.urgencyRow id).item id = some { it with urg := it.urgency s.now } := by
  have hbatches : (s.urgencyChange id).batches = s.batches := by rw [urgencyChange_eq hi]; rfl
  unfold State.urgencyRow
  rw [closeUrgent_of_calm (by rwa [hbatches]), urgencyChange_eq hi, item_setItem]

/-! ## Urgency (R21) -/

/-- The current stage is the earliest that is not done. -/
theorem stage_eq {it : Item} {k : Nat} (hk : k < 5) (hdone : ∀ j < k, it.done.getLsbD j = true) (hopen : it.done.getLsbD k = false) :
    it.stage = k := by
  have hfind : (List.range 5).find? (fun j => !it.done.getLsbD j) = some k :=
    List.find?_range_eq_some.mpr ⟨by simp [hopen], List.mem_range.mpr hk, fun j hj => by simp [hdone j hj]⟩
  unfold Item.stage
  rw [hfind]; rfl

/-- An open item with a deadline has the urgency of its current stage's window. -/
theorem urgency_eq {it : Item} {k : Nat} (now : Int) (hs : it.sealInfo = none) (hh : it.shadow = none) (hdl : it.hasDl = true)
    (hk : k < 5) (hdone : ∀ j < k, it.done.getLsbD j = true) (hopen : it.done.getLsbD k = false) :
    it.urgency now = urgencyOf (if k = 0 then it.anchor else it.milestone (k - 1)) (it.milestone k) now := by
  unfold Item.urgency
  rw [hh, Option.getD_none, stage_eq hk hdone hopen, if_neg (by simp [hs, hdl]; omega)]

theorem urgencyOf_le (prev m now : Int) : urgencyOf prev m now ≤ 3 := by
  unfold urgencyOf
  dsimp only
  split_ifs <;> omega

/-- What is left of a window decides: its halves and quarters. -/
theorem urgencyOf_window {prev m : Int} (now : Int) (h : 0 ≤ m - prev) :
    (now < prev ∨ (m - prev) / 2 < m - now → urgencyOf prev m now = 0) ∧
    (prev ≤ now → (m - prev) / 4 < m - now → m - now ≤ (m - prev) / 2 → urgencyOf prev m now = 1) ∧
    (prev ≤ now → 1 ≤ m - now → m - now ≤ (m - prev) / 4 → urgencyOf prev m now = 2) ∧
    (m - now ≤ 0 → urgencyOf prev m now = 3) := by
  unfold urgencyOf
  dsimp only
  refine ⟨fun h0 => ?_, fun h1 h2 h3 => ?_, fun h1 h2 h3 => ?_, fun h3 => if_pos h3⟩
  · rw [if_neg (by omega), if_pos h0]
  · rw [if_neg (by omega), if_neg (by omega), if_pos h2]
  · rw [if_neg (by omega), if_neg (by omega), if_neg (by omega)]

end Sys2Proof.Machine
end

section
/-! SUPPORT. The statements about items, their deadlines and their urgency, clause by clause. -/
namespace Sys2Proof.Machine

/-! ## The deadline commands -/

section
variable {q : Fin 2048} {s : State} {d : BitVec 512} (hf : s.tagFenced (s.queue q) = false)
include hf

/-- OPEN with room for the item and its seal instant still to come: the entry that it makes, and the source's sequence. -/
theorem exec_openItem_opens (hd : s.executing q 4 = some d) (h18 : zeroAt (cmdBytes d) 18 2 = true) (h24 : zeroAt (cmdBytes d) 24 8 = true)
    (h10 : zeroAt (cmdBytes d) 10 6 = true) (h9 : byteAt (cmdBytes d) 9 ≤ 63) (hr : s.ready = true) (hl : s.items.length < 65536) :
    let source := 0x800 + byteAt (cmdBytes d) 8
    let prof := byteAt (cmdBytes d) 9
    let n := newItem (leAt (cmdBytes d) 0 8) prof (s.profs.get {} prof) s.lead (s.profMask prof) (s.queue q).ownerOf
    (s.now : Int) < n.sealAt → ∃ t, exec (.openItem q) s = .next t ∧ t.nextSeq = (s.newId source).2.nextSeq ∧
      t.item (s.newId source).1 = some { n with done := 1 } := by
  intro source prof n hn
  obtain ⟨-, -, hseq, hitem⟩ := openItem_opened s source (leAt (cmdBytes d) 0 8) prof (s.queue q).ownerOf hl hn
  have heff : (s.effOpen (s.queue q) (cmdBytes d)).1 = _ := effOpen_ready (s.queue q) h18 h24 h10 h9 hr
  refine ⟨_, rfl, ?_, ?_⟩
  · rw [taken_nextSeq, if_pos (by decide), execCmd_eq s _ hd hf,
      show (State.complete _ _ _ _).nextSeq = _ from complete_same (f := .nextSeq) _ _ _ _ (by decide), heff, hseq]
  · rw [item_taken_execCmd s.effOpen hd hf (by decide), heff, hitem, if_pos (Nat.le_add_right _ _)]

theorem exec_setDeadline_item (hd : s.executing q 1 = some d) {it : Item} (hres : reservedOk (cmdBytes d) = true)
    (hi : s.item (leAt (cmdBytes d) 0 8) = some it) (ho : s.owns (s.queue q) it.part = true) (hs : it.sealInfo = none) :
    ∃ t, exec (.setDeadline q) s = .next t ∧
      t.item (leAt (cmdBytes d) 0 8) = (s.setDeadline (leAt (cmdBytes d) 0 8) it (leAt (cmdBytes d) 8 8)).item (leAt (cmdBytes d) 0 8) := by
  refine ⟨_, rfl, ?_⟩
  rw [item_taken_execCmd s.effSetDeadline hd hf (by decide), State.effSetDeadline, onItem_unsealed _ hres hi ho hs]

theorem exec_sealNow_item (hd : s.executing q 2 = some d) {it : Item} (hres : reservedOk (cmdBytes d) = true)
    (h8 : zeroAt (cmdBytes d) 8 8 = true) (hi : s.item (leAt (cmdBytes d) 0 8) = some it) (ho : s.owns (s.queue q) it.part = true)
    (hs : it.sealInfo = none) :
    ∃ t, exec (.sealNow q) s = .next t ∧
      t.item (leAt (cmdBytes d) 0 8) = (s.sealItem (leAt (cmdBytes d) 0 8) .command).item (leAt (cmdBytes d) 0 8) := by
  refine ⟨_, rfl, ?_⟩
  rw [item_taken_execCmd s.effSealNow hd hf (by decide), State.effSealNow, onItem_unsealed _ (by simp [hres, h8]) hi ho hs]

theorem exec_setFallback_item (hd : s.executing q 3 = some d) {it : Item} (hres : reservedOk (cmdBytes d) = true)
    (h10 : zeroAt (cmdBytes d) 10 6 = true) (hi : s.item (leAt (cmdBytes d) 0 8) = some it) (ho : s.owns (s.queue q) it.part = true)
    (hs : it.sealInfo = none) :
    ∃ t, exec (.setFallback q) s = .next t ∧
      t.item (leAt (cmdBytes d) 0 8) = some { it with fallback := leAt (cmdBytes d) 8 2 } := by
  refine ⟨_, rfl, ?_⟩
  rw [item_taken_execCmd s.effSetFallback hd hf (by decide), State.effSetFallback, onItem_unsealed _ (by simp [hres, h10]) hi ho hs,
    item_setItem]

end

/-- Settles O7: each command by its effect on the item, which completing the command leaves alone. -/
theorem deadlineCommandsActOnItems : Obligations.DeadlineCommandsActOnItems := by
  unfold Obligations.DeadlineCommandsActOnItems
  refine ⟨fun q s d hd hf h18 h24 h10 h9 hr hl => ?_, fun q s d it hd hf hres hi ho hs hn => ?_,
    fun q s d it hd hf hres h8 hi ho hs hh => ?_, fun q s d it hd hf hres h10 hi ho hs => ?_⟩
  · intro source id prof hn
    obtain ⟨t, e, hseq, hitem⟩ := exec_openItem_opens hf hd h18 h24 h10 h9 hr hl hn
    refine ⟨t, e, ?_, _, hitem, newItem_anchor _ _ _ _ _ _, newItem_prof _ _ _ _ _ _, rfl, newItem_sealInfo _ _ _ _ _ _⟩
    rw [hseq]
    exact Tab.get_set_same _ _ _ _
  · obtain ⟨t, e, ht⟩ := exec_setDeadline_item hf hd hres hi ho hs
    obtain ⟨u, hu, hdl, hdead, hseal, hanchor, hovr, hsi⟩ := setDeadline_item (leAt (cmdBytes d) 0 8) hn
    exact ⟨t, e, u, ht.trans hu, hdl, hdead, hseal, hanchor, hovr, hsi.trans hs⟩
  · obtain ⟨t, e, ht⟩ := exec_sealNow_item hf hd hres h8 hi ho hs
    refine ⟨t, e, fun h0 => ht.trans (sealItem_none s _ _ hi hs hh h0), fun h1 => ?_⟩
    obtain ⟨u, st, hu, hx⟩ := sealItem_one s _ .command hi hs hh h1
    exact ⟨u, _, ht.trans hu, hx, rfl, by simp, rfl⟩
  · exact exec_setFallback_item hf hd hres h10 hi ho hs

/-- Settles O9: the deadline of the new entry (R13), which neither the opening nor a seal at once changes. -/
theorem deadlineOfAnOpenedItem : Obligations.DeadlineOfAnOpenedItem := by
  unfold Obligations.DeadlineOfAnOpenedItem
  refine ⟨fun s source anchor prof owner it hl hp hi => ?_, fun q s d hd hf h18 h24 h10 h9 hr hl => ?_⟩
  · obtain ⟨hdl, hdead⟩ := openItem_deadline hl hi
    obtain ⟨ndl, ndead, -⟩ := newItem_deadline anchor prof s.lead (s.profMask prof) owner hp
    exact ⟨hdl.trans ndl, hdead.trans ndead⟩
  · intro source p deadline hp hn
    obtain ⟨-, ndead, nseal⟩ := newItem_deadline (leAt (cmdBytes d) 0 8) (byteAt (cmdBytes d) 9) s.lead
      (s.profMask (byteAt (cmdBytes d) 9)) (s.queue q).ownerOf hp
    obtain ⟨t, e, -, hitem⟩ := exec_openItem_opens hf hd h18 h24 h10 h9 hr hl (nseal ▸ hn)
    exact ⟨t, _, e, hitem, ndead⟩

/-! ## What time brings -/

theorem exec_urgencyChange_item {id : DWord} {s : State} {it : Item} (hi : s.item id.toNat = some it)
    (hb : ∀ k b, (k, some b) ∈ s.batches → (s.urgencyChange id.toNat).batchUrgent b = false) :
    ∃ t, exec (.urgencyChange id) s = .next t ∧ t.item id.toNat = some { it with urg := it.urgency s.now } :=
  ⟨_, rfl, by rw [taken_item _ _ (by decide), urgencyRow_item hi hb]⟩

/-- Settles O8: each row by the law of its operation, on the fields that the row takes over. -/
theorem timeActsOnItemsAndRecords : Obligations.TimeActsOnItemsAndRecords := by
  unfold Obligations.TimeActsOnItemsAndRecords
  refine ⟨fun id k s it hi hs hh hdl hk hd ho hm => ?_, fun id s it hi hs hh hn => ?_, fun id s it hi hs hh hn => ?_,
    fun id s it hi hb => exec_urgencyChange_item hi hb, fun d s r hr => ?_⟩
  · refine ⟨_, rfl, it.overrun k, ?_, rfl, rfl, rfl, hs⟩
    rw [taken_item _ _ (by decide), milestonePass_item hi hs hh hdl hk hd ho hm]
  · have e : exec (.sealDeadline id) s = .next (s.taken (s.sealItem id.toNat .deadline) sealFlds) := by
      rw [← sealDeadline_reached hi hh hn]; rfl
    have ht := taken_item s (s.sealItem id.toNat .deadline) (w := sealFlds) (by decide) id.toNat
    refine ⟨_, e, fun h0 => ht.trans (sealItem_none s _ _ hi hs hh h0), fun h1 => ?_⟩
    obtain ⟨u, st, hu, hx⟩ := sealItem_one s _ .deadline hi hs hh h1
    exact ⟨u, _, ht.trans hu, hx, rfl, by simp, rfl⟩
  · exact ⟨_, rfl, (taken_item _ _ (by decide) _).trans (lateLimit_item hi hs hh hn)⟩
  · refine ⟨_, rfl, ?_, ?_⟩
    · rw [taken_egress, if_pos (by decide), egress1_egress s d hr, Tab.get_set_same]
    · rw [taken_rsn, if_pos (by decide), egress1_rsn s d hr, Tab.get_set_same]

/-- Settles O10: the row stores the urgency of the current stage's window, and what is left of that window decides it. -/
theorem urgencyOfAnOpenItem : Obligations.UrgencyOfAnOpenItem := by
  unfold Obligations.UrgencyOfAnOpenItem
  intro id k s it hi hs hh hdl hdone hopen hb start len left hlen
  obtain ⟨t, e, ht⟩ := exec_urgencyChange_item hi hb
  have hu : it.urgency s.now = urgencyOf start (it.milestone k) s.now := urgency_eq s.now hs hh hdl k.isLt hdone hopen
  refine ⟨t, e, _, ht, ?_⟩
  dsimp only
  rw [hu]
  exact ⟨urgencyOf_le _ _ _, urgencyOf_window s.now hlen⟩

end Sys2Proof.Machine
end

section
/-! SUPPORT. GT_PROF_SEL: committing a profile and showing one (R33). -/
namespace Sys2Proof.Machine

/-! ## The staging window -/

@[simp] theorem showProfile_profs (s : State) (p : Profile) : (s.showProfile p).profs = s.profs := by
  simp only [State.showProfile, wr_profs]

theorem rd_showProfile_dist (s : State) (p : Profile) : (s.showProfile p).rd Reg.GT_PROF_DIST = BitVec.ofNat 32 p.dist := by
  unfold State.showProfile
  rw [rd_wr_ne _ _ (by decide), rd_wr_ne _ _ (by decide), rd_wr_ne _ _ (by decide), rd_wr_same]

theorem rd_showProfile_speed (s : State) (p : Profile) :
    (s.showProfile p).rd Reg.GT_PROF_SPEED = BitVec.ofNat 32 (p.margin * 65536 + p.speed) := by
  unfold State.showProfile
  rw [rd_wr_ne _ _ (by decide), rd_wr_ne _ _ (by decide), rd_wr_same]

/-! ## A write of GT_PROF_SEL -/

/-- The shares of a profile rise strictly from above 0 (R33). -/
def Profile.sharesRise (p : Profile) : Prop := 0 < p.cap ∧ p.cap < p.det ∧ p.det < p.recog ∧ p.recog < p.grm

/-- LOAD, when the write has it: profile `i` goes into the window. -/
def State.loadIf (s : State) (c : Bool) (i : Nat) : State := if c then s.showProfile (s.profs.get {} i) else s

@[simp] theorem loadIf_profs (s : State) (c : Bool) (i : Nat) : (s.loadIf c i).profs = s.profs := by
  unfold State.loadIf
  split
  · exact showProfile_profs _ _
  · rfl

/-- A COMMIT that the lock and the shares allow stores the window and clears PROF_ERR. -/
theorem profSel_commit {s : State} (req : Req) {v : Word} (hc : bit v 31 = true) (hw : s.windowProfile.sharesRise)
    (hl : s.flag 0x201C 0 = false) : s.profSel req v =
      (({ s.wr Reg.GT_PROF_SEL (BitVec.ofNat 32 (bits v 5 0)) with profs := s.profs.set {} (bits v 5 0) s.windowProfile } : State).setFlag
        Reg.GT_STS 17 false).loadIf (bit v 30) (bits v 5 0) := by
  unfold Profile.sharesRise at hw
  unfold State.profSel
  simp only [hc, hl, hw, Bool.false_eq_true, false_and, and_false, if_false, and_self, if_true]
  rfl

/-- A COMMIT whose shares do not rise sets PROF_ERR. -/
theorem profSel_refused {s : State} (req : Req) {v : Word} (hc : bit v 31 = true) (hw : ¬ s.windowProfile.sharesRise) :
    s.profSel req v =
      ((s.wr Reg.GT_PROF_SEL (BitVec.ofNat 32 (bits v 5 0))).setFlag Reg.GT_STS 17 true).loadIf (bit v 30) (bits v 5 0) := by
  unfold Profile.sharesRise at hw
  unfold State.profSel
  simp only [hc, hw, and_false, if_false, if_true]
  rfl

/-- Without COMMIT the write only takes INDEX, and LOAD shows that profile. -/
theorem profSel_load {s : State} (req : Req) {v : Word} (hc : bit v 31 = false) :
    s.profSel req v = (s.wr Reg.GT_PROF_SEL (BitVec.ofNat 32 (bits v 5 0))).loadIf (bit v 30) (bits v 5 0) := by
  unfold State.profSel
  simp only [hc, Bool.false_eq_true, false_and, if_false]
  rfl

/-! ## The two rows -/

/-! PROFILE_COMMIT writes with bit 31 set, PROFILE_LOAD with bit 30, and INDEX stays as it is. -/

theorem bits_index_or_commit (v : Word) : bits (v ||| 0x80000000) 5 0 = bits v 5 0 := bits_or_zero _ _ (by decide)
theorem bits_index_or_load (v : Word) : bits (v ||| 0x40000000) 5 0 = bits v 5 0 := bits_or_zero _ _ (by decide)
theorem bit_commit_or_commit (v : Word) : bit (v ||| 0x80000000) 31 = true := by rw [bit_or]; simp [bit]
theorem bit_load_or_commit (v : Word) : bit (v ||| 0x80000000) 30 = bit v 30 := by rw [bit_or]; simp [bit]
theorem bit_commit_or_load (v : Word) : bit (v ||| 0x40000000) 31 = bit v 31 := by rw [bit_or]; simp [bit]
theorem bit_load_or_load (v : Word) : bit (v ||| 0x40000000) 30 = true := by rw [bit_or]; simp [bit]

/-- Settles O12: a write of GT_PROF_SEL by its three cases, COMMIT accepted, COMMIT refused and LOAD alone. -/
theorem profileCommitAndLoad : Obligations.ProfileCommitAndLoad := by
  unfold Obligations.ProfileCommitAndLoad
  refine ⟨fun req v s => ?_, fun req v s => ?_, fun req v s hv => ⟨_, rfl, ?_⟩⟩
  · intro w hw hl
    refine ⟨_, rfl, ?_⟩
    rw [taken_profs, if_pos (by decide), taken_flag _ _ (by decide), taken_rd _ _ (by decide),
      profSel_commit req (bit_commit_or_commit v) hw hl, bits_index_or_commit, bit_load_or_commit, loadIf_profs, setFlag_profs]
    refine ⟨Tab.get_set_same _ _ _ _, fun j hj => Tab.get_set_ne _ _ _ hj, fun h30 => ?_⟩
    rw [h30]
    exact ⟨flag_setFlag _ _ _ (by decide), (rd_setFlag_ne _ _ _ (by decide)).trans (rd_wr_ne s _ (by decide))⟩
  · intro w hw
    refine ⟨_, rfl, ?_⟩
    rw [taken_profs, if_pos (by decide), taken_flag _ _ (by decide), profSel_refused req (bit_commit_or_commit v) hw,
      bit_load_or_commit, loadIf_profs, setFlag_profs]
    refine ⟨wr_profs _ _ _, fun h30 => ?_⟩
    rw [h30]
    exact flag_setFlag _ _ _ (by decide)
  · rw [taken_profs, if_pos (by decide), taken_rd _ _ (by decide), taken_rd _ _ (by decide),
      profSel_load req ((bit_commit_or_load v).trans hv), bits_index_or_load, bit_load_or_load, loadIf_profs]
    exact ⟨wr_profs _ _ _, rd_showProfile_speed _ _, rd_showProfile_dist _ _⟩

end Sys2Proof.Machine
end

section
/-! SUPPORT. The timebase: one TCLK by the case of its rate step and of the slew nanosecond that is due (R36 to R39). -/
namespace Sys2Proof.Machine

/-! ## One TCLK -/

/-- By how much the rate trim moves the timebase at the next TCLK (R38). -/
def Clk.rateStep (c : Clk) : Int := 1 + ((c.frac.toNat : Int) + c.rate.toInt) / 2 ^ 32

/-- The direction of the pending slew. -/
def Clk.slewSign (c : Clk) : Int := if c.slew.toInt < 0 then -1 else if c.slew = 0 then 0 else 1

/-- The next TCLK applies a slew nanosecond: one is owed or falls due, and the rate step is 1 (R38). -/
def Clk.applies (c : Clk) : Bool := (c.owed || c.dueNext) && c.stepOne

theorem stepOne_iff (c : Clk) : c.stepOne = true ↔ c.rateStep = 1 := by
  unfold Clk.stepOne Clk.rateStep
  rw [decide_eq_true_iff]
  omega

/-- A 32-bit trim and a 32-bit fraction sum to less than one step either way. -/
theorem rateStep_bounds (c : Clk) : 0 ≤ c.rateStep ∧ c.rateStep ≤ 2 := by
  have hf : c.frac.toNat < 2 ^ 32 := c.frac.isLt
  have hlo : -2 ^ 31 ≤ c.rate.toInt := BitVec.le_toInt c.rate
  have hhi : c.rate.toInt < 2 ^ 31 := BitVec.toInt_lt
  unfold Clk.rateStep
  omega

theorem slewSign_bounds (c : Clk) : -1 ≤ c.slewSign ∧ c.slewSign ≤ 1 := by
  unfold Clk.slewSign
  split_ifs <;> decide

/-- The rate step and the slew nanosecond of one TCLK, through the terms above. -/
theorem tickTb_eq (c : Clk) : tickTb c =
    { c with frac := BitVec.ofInt 32 ((c.frac.toNat : Int) + c.rate.toInt), tick := c.tick + 1,
             owed := (c.owed || c.dueNext) && !c.applies,
             slew := if c.applies then BitVec.ofInt 32 (c.slew.toInt - c.slewSign) else c.slew,
             tb := c.tb + BitVec.ofInt 64 (if c.applies then c.rateStep + c.slewSign else c.rateStep), tclk := c.tclk + 1 } := by
  have h : ((c.owed || c.dueNext) && c.rateStep == 1) = c.applies := by
    have : (c.rateStep == 1) = c.stepOne := by rw [Bool.eq_iff_iff, beq_iff_eq, stepOne_iff]
    rw [this]; rfl
  rw [← h]
  rfl

/-- A TCLK that applies a nanosecond has a rate step of 1. -/
theorem tickTb_tb_applied {c : Clk} (h : c.applies = true) : (tickTb c).tb = c.tb + BitVec.ofInt 64 (1 + c.slewSign) := by
  have h1 : c.rateStep = 1 := (stepOne_iff c).1 (Bool.and_eq_true_iff.1 h).2
  rw [tickTb_eq, ← h1]
  simp only [h, if_true]

theorem tickTb_tb_plain {c : Clk} (h : c.applies = false) : (tickTb c).tb = c.tb + BitVec.ofInt 64 c.rateStep := by
  rw [tickTb_eq]
  simp only [h, Bool.false_eq_true, if_false]

/-- The timebase moves by 0, 1 or 2 at a TCLK. -/
theorem tickTb_tb_cases (c : Clk) : (tickTb c).tb = c.tb ∨ (tickTb c).tb = c.tb + 1 ∨ (tickTb c).tb = c.tb + 2 := by
  have key : ∀ n : Int, 0 ≤ n → n ≤ 2 → c.tb + BitVec.ofInt 64 n = c.tb ∨ c.tb + BitVec.ofInt 64 n = c.tb + 1 ∨
      c.tb + BitVec.ofInt 64 n = c.tb + 2 := by
    intro n h0 h2
    obtain rfl | rfl | rfl : n = 0 ∨ n = 1 ∨ n = 2 := by omega
    · exact .inl (BitVec.add_zero _)
    · exact .inr (.inl rfl)
    · exact .inr (.inr rfl)
  cases h : c.applies with
  | true =>
    have := slewSign_bounds c
    rw [tickTb_tb_applied h]
    exact key _ (by omega) (by omega)
  | false =>
    have := rateStep_bounds c
    rw [tickTb_tb_plain h]
    exact key _ this.1 this.2

/-- With no rate and no slew a TCLK is one nanosecond and keeps the fraction. -/
theorem tickTb_untrimmed {c : Clk} (hr : c.rate = 0) (hs : c.slew = 0) (ho : c.owed = false) :
    (tickTb c).tb = c.tb + 1 ∧ (tickTb c).frac = c.frac := by
  have hsum : (c.frac.toNat : Int) + c.rate.toInt = c.frac.toNat := by rw [hr]; exact Int.add_zero _
  have ha : c.applies = false := by unfold Clk.applies Clk.dueNext; rw [ho, hs]; simp
  have hf : c.frac.toNat < 2 ^ 32 := c.frac.isLt
  have h1 : c.rateStep = 1 := by unfold Clk.rateStep; rw [hsum]; omega
  refine ⟨by rw [tickTb_tb_plain ha, h1]; rfl, ?_⟩
  rw [tickTb_eq]
  dsimp only
  rw [hsum, BitVec.ofInt_natCast, BitVec.ofNat_toNat, BitVec.setWidth_eq]

/-! ## TCLK in the state -/

theorem tclk_running {s : State} (h : s.clk.running = true) : s.tclk = { s with clk := tickTb s.clk } := if_pos h

theorem tclk_stopped {s : State} (h : s.clk.running = false) : s.tclk = s := if_neg (by simp [h])

theorem tclk_same {f : Fld} (s : State) (h : f ∉ [Fld.clk]) : f.same s s.tclk := by
  unfold State.tclk
  split
  · cases f <;> first | rfl | simp at h
  · exact Fld.same_refl _ _

theorem tclk_pending (s : State) : s.tclk.pending = s.pending := by unfold State.tclk; split <;> rfl

/-- A step with no command waiting is one TCLK (log entry 13). -/
theorem step_idle {s : State} (h : s.pending = []) : step s = .next s.tclk := by unfold step; rw [h]

/-- Settles O2, by whether TCLK runs: a TCLK moves the timebase by 0, 1 or 2. -/
theorem emptyQueueLetsOneClockPass : Obligations.EmptyQueueLetsOneClockPass := by
  unfold Obligations.EmptyQueueLetsOneClockPass
  intro s hq
  refine ⟨s.tclk, step_idle hq, tclk_stopped, fun hr => ?_, fun f hf => tclk_same s (by simpa using hf), (tclk_pending s).trans hq⟩
  rw [tclk_running hr]
  exact ⟨tickTb_tb_cases s.clk, fun h0 h1 h2 => tickTb_untrimmed h0 h1 h2⟩

/-! ## Reading, trimming and slewing -/

/-- The rate trim is held within ±200 ppm (R38). -/
theorem toInt_clampRate (v : Word) : (clampRate v).toInt = iclamp (-858993) 858993 v.toInt := by
  have h : -858993 ≤ iclamp (-858993) 858993 v.toInt ∧ iclamp (-858993) 858993 v.toInt ≤ 858993 := by
    unfold iclamp
    split_ifs <;> omega
  unfold clampRate
  exact BitVec.toInt_ofInt_eq_self (by decide) (by omega) (by omega)

theorem tbRate_aligning {s : State} (v : Word) (h : s.aligning = true) : (s.tbRate v).clk = s.clk := by
  unfold State.tbRate; rw [if_pos h]; exact bump_clk _ _

theorem tbRate_free {s : State} (v : Word) (h : s.aligning = false) : (s.tbRate v).clk = { s.clk with rate := clampRate v } := by
  unfold State.tbRate; rw [if_neg (by simp [h])]

theorem tbSlew_aligning {s : State} (v : Word) (h : s.aligning = true) : (s.tbSlew v).clk = s.clk := by
  unfold State.tbSlew; rw [if_pos h]; exact bump_clk _ _

theorem tbSlew_free {s : State} (v : Word) (h : s.aligning = false) : (s.tbSlew v).clk = { s.clk with slew := v } := by
  unfold State.tbSlew; rw [if_neg (by simp [h])]

/-- The tick counter wraps with a slew pending while the rate step is not 1: a nanosecond is owed and the slew waits (R38). -/
theorem slewDue_clk {s : State} (hr : s.clk.running = true) (ht : s.clk.tick + 1 = 0) (hs : s.clk.slew ≠ 0) (h1 : s.clk.stepOne = false) :
    s.slewDue.clk.owed = true ∧ s.slewDue.clk.slew = s.clk.slew ∧ s.slewDue.clk.tick = 0 := by
  have hd : s.clk.dueNext = true := Bool.and_eq_true_iff.2 ⟨beq_iff_eq.2 ht, bne_iff_ne.2 hs⟩
  have ha : s.clk.applies = false := by unfold Clk.applies; rw [h1, Bool.and_false]
  have e : s.slewDue.clk = tickTb s.clk := by unfold State.slewDue; rw [if_pos (by rw [hr, hd]; rfl), tclk_running hr]
  rw [e, tickTb_eq]
  exact ⟨by simp [ha, hd], by simp [ha], ht⟩

/-- A due nanosecond moves the timebase by one more or one less than 1, and the slew by one towards 0 (R38). -/
theorem slewApply_clk {s : State} (hr : s.clk.running = true) (ho : s.clk.owed = true) (h1 : s.clk.stepOne = true) :
    s.slewApply.clk.owed = false ∧ s.slewApply.clk.tb = s.clk.tb + BitVec.ofInt 64 (1 + s.clk.slewSign) ∧
      s.slewApply.clk.slew = BitVec.ofInt 32 (s.clk.slew.toInt - s.clk.slewSign) := by
  have ha : s.clk.applies = true := by unfold Clk.applies; rw [ho, h1]; rfl
  have e : s.slewApply.clk = tickTb s.clk := by unfold State.slewApply; rw [if_pos (by rw [hr, ho, h1]; rfl), tclk_running hr]
  rw [e]
  refine ⟨?_, tickTb_tb_applied ha, ?_⟩
  · rw [tickTb_eq]; simp [ha]
  · rw [tickTb_eq]; simp [ha]

theorem slewSign_neg {c : Clk} (h : c.slew.toInt < 0) : c.slewSign = -1 := if_pos h

theorem slewSign_pos {c : Clk} (h : 0 < c.slew.toInt) : c.slewSign = 1 := by
  have h0 : c.slew ≠ 0 := by
    intro e
    rw [e] at h
    exact absurd h (by decide)
  unfold Clk.slewSign
  rw [if_neg (by omega), if_neg h0]

/-- Settles O13, row by row. -/
theorem timebaseReadTrimAndSlew : Obligations.TimebaseReadTrimAndSlew := by
  unfold Obligations.TimebaseReadTrimAndSlew
  refine ⟨fun req s => ⟨_, rfl, rfl, rfl, Tab.get_set_same _ _ _ _⟩, fun v s => ⟨_, rfl, ?_⟩, fun v s => ⟨_, rfl, ?_⟩,
    fun s hr ht hs h1 => ⟨_, rfl, ?_⟩, fun s hr ho _ h1 => ⟨_, rfl, ?_⟩⟩ <;> rw [taken_clk, if_pos (by decide)]
  · refine ⟨fun h => ?_, tbRate_aligning v⟩
    rw [tbRate_free v h]
    exact ⟨toInt_clampRate v, rfl⟩
  · exact ⟨tbSlew_free v, tbSlew_aligning v⟩
  · exact slewDue_clk hr ht hs h1
  · obtain ⟨howed, htb, hslew⟩ := slewApply_clk hr ho h1
    rw [htb, hslew]
    refine ⟨howed, fun hn => ?_, fun hp => ?_⟩
    · rw [slewSign_neg hn]; exact ⟨BitVec.add_zero _, rfl⟩
    · rw [slewSign_pos hp]; exact ⟨rfl, rfl⟩

end Sys2Proof.Machine
end

section
/-! SUPPORT. What the Schmitt stages and the settling of the pads can change, and TB_PPS on general pin 31 (R434 to R437). -/
namespace Sys2Proof.Machine

/-! ## The settling of a pad -/

/-- The registers that a change at a Schmitt stage may change: GPIO_IN, its edge bits, the pin page's events and what a signal changes. -/
def padReg (a : Nat) : Prop := msgReg a ∨ a = Reg.GPIO_IN ∨ a = Reg.GPIO_EDGE_STS ∨ a = pinPage + 0x10

theorem not_padReg {a : Nat} (h1 : a < 0x6060 ∨ 0x6080 ≤ a) (h2 : a < 0xA000 ∨ 0xB000 ≤ a) (h3 : a ≠ Reg.HP_CNT_VEC_DROP) : ¬ padReg a := by
  rintro (hm | rfl | rfl | rfl)
  · exact not_msgReg h1 h3 hm
  all_goals exact absurd h2 (by decide)

/-- The fields that a change at a Schmitt stage may change. -/
def padFlds : List Fld := [.regs, .holding, .msix, .hevt, .out]

theorem gpioIn_same {f : Fld} (s : State) (n : Nat) (b : Bool) (h : f ∉ padFlds) : f.same s (s.gpioIn n b) := by
  have hr : f ∉ [Fld.regs] := by revert h; cases f <;> decide
  unfold State.gpioIn
  dsimp only
  split
  · exact Fld.same_refl _ _
  · split
    · exact Fld.same_trans (Fld.same_trans (wr_same _ _ _ hr) (wr_same _ _ _ hr)) (raise_same _ _ _ h)
    · exact wr_same _ _ _ hr

theorem rd_gpioIn (s : State) (n : Nat) (b : Bool) {a : Nat} (h : ¬ padReg a) : (s.gpioIn n b).rd a = s.rd a := by
  simp only [padReg, not_or] at h
  obtain ⟨hm, hin, hedge, hevt⟩ := h
  unfold State.gpioIn
  dsimp only
  split
  · rfl
  · split
    · exact (rd_raise _ _ _ hm hevt).trans ((rd_setFlag_ne _ _ _ hedge).trans (rd_setFlag_ne _ _ _ hin))
    · exact rd_setFlag_ne _ _ _ hin

/-- GPIO_IN shows the level taken. -/
theorem flag_gpioIn (s : State) {n : Nat} (b : Bool) (hn : n < 32) : (s.gpioIn n b).flag Reg.GPIO_IN n = b := by
  unfold State.gpioIn
  dsimp only
  split
  · assumption
  · split
    · have e : (((s.setFlag Reg.GPIO_IN n b).setFlag Reg.GPIO_EDGE_STS n true).raise pinPage 0).rd Reg.GPIO_IN =
          (s.setFlag Reg.GPIO_IN n b).rd Reg.GPIO_IN :=
        (rd_raise _ _ _ (not_msgReg (by decide) (by decide)) (by decide)).trans (rd_setFlag_ne _ _ _ (by decide))
      rw [flag_congr e]
      exact flag_setFlag _ _ _ hn
    · exact flag_setFlag _ _ _ hn

theorem pinSettle_same {f : Fld} (s : State) (n : Nat) (h : f ∉ padFlds) : f.same s (s.pinSettle n) := by
  unfold State.pinSettle
  split
  · exact Fld.same_refl _ _
  · split
    · exact gpioIn_same _ _ _ h
    · exact gpioIn_same _ _ _ h
    · exact Fld.same_refl _ _

theorem rd_pinSettle (s : State) (n : Nat) {a : Nat} (h : ¬ padReg a) : (s.pinSettle n).rd a = s.rd a := by
  unfold State.pinSettle
  split
  · rfl
  · split
    · exact rd_gpioIn _ _ _ h
    · exact rd_gpioIn _ _ _ h
    · rfl

theorem pinsSettle_same {f : Fld} (s : State) (h : f ∉ padFlds) : f.same s s.pinsSettle :=
  foldl_same _ (fun t n => pinSettle_same t n h) _ s

theorem rd_pinsSettle (s : State) {a : Nat} (h : ¬ padReg a) : s.pinsSettle.rd a = s.rd a :=
  List.foldlRecOn (motive := fun t : State => t.rd a = s.rd a) _ _ rfl (fun t ht n _ => (rd_pinSettle t n h).trans ht)

theorem safeSettle_same {f : Fld} (s : State) (h : f ∉ Fld.pins :: padFlds) : f.same s s.safeSettle := by
  have h1 : f ∉ padFlds := fun m => h (List.mem_cons_of_mem _ m)
  exact Fld.same_trans (by cases f <;> first | rfl | simp at h) (pinsSettle_same (s.updPins (fun x => { x with hold := [] })) h1)

theorem rd_safeSettle (s : State) {a : Nat} (h : ¬ padReg a) : s.safeSettle.rd a = s.rd a :=
  rd_pinsSettle (s.updPins (fun x => { x with hold := [] })) h

/-! ## TB_PPS -/

/-- Outside the safe state no boundary-scan instruction drives the pads (R439). -/
theorem jtagActs_of_not_safe {s : State} (h : s.safe = false) : s.jtagActs = .bypass ∨ s.jtagActs = .idcode ∨ s.jtagActs = .sample := by
  unfold State.jtagActs
  rw [h]
  cases s.pins.ir <;> simp

/-- Pin 31 with function 2, outside the safe state, push-pull and with no hold under way, drives TB_PPS (R435). -/
theorem pad_pps {s : State} (hs : s.safe = false) (hf : s.pinFunc 31 = 2) (hh : s.pins.hold.look 31 = none)
    (ho : s.flag (Reg.PIN_CFG 31) 26 = false) : s.pad 31 = padOf s.pps := by
  unfold State.pad
  obtain h | h | h := jtagActs_of_not_safe hs <;> simp [h, hs, hf, hh, ho]

/-- Its Schmitt stage, not inverted, then follows TB_PPS (R437). -/
theorem flag_pinSettle_pps {s : State} (hr : s.ready = true) (hs : s.safe = false) (hf : s.pinFunc 31 = 2)
    (hh : s.pins.hold.look 31 = none) (ho : s.flag (Reg.PIN_CFG 31) 26 = false) (hi : s.pinInv 31 = false) :
    (s.pinSettle 31).flag Reg.GPIO_IN 31 = s.pps := by
  unfold State.pinSettle
  rw [if_neg (by simp [hr]), pad_pps hs hf hh ho, hi]
  cases s.pps with
  | true => exact flag_gpioIn _ _ (by decide)
  | false => exact flag_gpioIn _ _ (by decide)

end Sys2Proof.Machine
end

section
/-! SUPPORT. The calendar: what one tick does to the clock, and which ticks capture a pair (R41 to R45). -/
namespace Sys2Proof.Machine

/-! ## The clock after a tick -/

theorem tickStep_le (t : Byte) (k : Nat) : tickStep t k ≤ 4 := by
  unfold tickStep
  split_ifs <;> decide

/-- The fraction that a tick without SET counts to, before it is cut to 16 bits. -/
def Clk.ticked (c : Clk) : Nat := c.calFrac.toNat + tickStep c.trimNow c.period.toNat

theorem rolls_eq_false {c : Clk} : rolls c = false ↔ c.ticked < 65536 := by
  unfold rolls Clk.ticked
  rw [decide_eq_false_iff_not, Nat.not_le]

theorem rolls_eq_true {c : Clk} : rolls c = true ↔ 65536 ≤ c.ticked := decide_eq_true_iff

/-- A tick of one trim step rolls over at most one second, and then its fraction is small. -/
theorem ticked_lt (c : Clk) : c.ticked < 65536 + 4 := by
  have h1 : c.calFrac.toNat < 2 ^ 16 := c.calFrac.isLt
  have h2 := tickStep_le c.trimNow c.period.toNat
  unfold Clk.ticked
  omega

/-- The staged seconds (R43). -/
def State.setSec (s : State) : DWord := BitVec.ofNat 64 ((s.rd Reg.CAL_SET_LO).toNat + (s.rd Reg.CAL_SET_HI).toNat * 2 ^ 32)

/-- The clock after a tick. -/
def State.tickedClk (s : State) : Clk := tickCal s.clk s.setSec ((s.rd Reg.CAL_SET_FRAC).setWidth 16)

theorem tickedClk_count {s : State} (h : s.clk.setReq = false) :
    s.tickedClk.calSec = s.clk.calSec + BitVec.ofNat 64 (s.clk.ticked / 65536) ∧ s.tickedClk.calFrac.toNat = s.clk.ticked % 65536 := by
  unfold State.tickedClk tickCal
  dsimp only
  rw [if_neg (by simp [h])]
  exact ⟨rfl, BitVec.toNat_ofNat _ _⟩

/-- An ordinary tick advances the fraction alone (R42). -/
theorem tickedClk_ordinary {s : State} (h : s.clk.setReq = false) (hr : rolls s.clk = false) :
    s.tickedClk.calSec = s.clk.calSec ∧ s.tickedClk.calFrac.toNat = s.clk.ticked := by
  have hlt := rolls_eq_false.1 hr
  obtain ⟨hsec, hfrac⟩ := tickedClk_count h
  rw [hsec, hfrac, Nat.div_eq_of_lt hlt, Nat.mod_eq_of_lt hlt]
  exact ⟨BitVec.add_zero _, rfl⟩

/-- A tick that rolls over adds one second and leaves a small fraction (R42). -/
theorem tickedClk_second {s : State} (h : s.clk.setReq = false) (hr : rolls s.clk = true) :
    s.tickedClk.calSec = s.clk.calSec + 1 ∧ s.tickedClk.calFrac.toNat < 4 := by
  have hge := rolls_eq_true.1 hr
  have hlt := ticked_lt s.clk
  have hdiv : s.clk.ticked / 65536 = 1 := by omega
  obtain ⟨hsec, hfrac⟩ := tickedClk_count h
  rw [hsec, hfrac, hdiv]
  exact ⟨rfl, by omega⟩

/-- A tick with SET loads the staged value, and VALID is set (R43). -/
theorem tickedClk_set {s : State} (h : s.clk.setReq = true) :
    s.tickedClk.calSec = s.setSec ∧ s.tickedClk.calFrac = (s.rd Reg.CAL_SET_FRAC).setWidth 16 &&& 0xFFFE ∧
      s.tickedClk.calValid = true ∧ s.tickedClk.backupLost = false := by
  unfold State.tickedClk tickCal
  dsimp only
  rw [if_pos h]
  exact ⟨rfl, rfl, rfl, rfl⟩

/-! Every tick moves the period on and answers the requests, and leaves the timebase. -/

theorem tickedClk_period (s : State) : s.tickedClk.period = s.clk.period + 1 := by
  unfold State.tickedClk tickCal; dsimp only; split <;> rfl

theorem tickedClk_trimNow (s : State) : s.tickedClk.trimNow = if s.clk.period + 1 = 0 then s.clk.trim else s.clk.trimNow := by
  unfold State.tickedClk tickCal; dsimp only; split <;> rfl

theorem tickedClk_setReq (s : State) : s.tickedClk.setReq = false := by
  unfold State.tickedClk tickCal; dsimp only; split <;> rfl

theorem tickedClk_capReq (s : State) : s.tickedClk.capReq = false := by
  unfold State.tickedClk tickCal; dsimp only; split <;> rfl

theorem tickedClk_tb (s : State) : s.tickedClk.tb = s.clk.tb := by
  unfold State.tickedClk tickCal; dsimp only; split <;> rfl

/-! ## The state after a tick -/

/-- A tick of this clock captures a pair (R45). -/
def Clk.captures (c : Clk) : Bool := c.running && (c.setReq || rolls c || c.capReq || c.firstTick)

theorem calTick_eq {s : State} (h : s.clk.calOn = true) :
    s.calTick = if s.clk.captures then ({ s with clk := s.tickedClk } : State).capture else { s with clk := s.tickedClk } := if_pos h

/-- The registers that show the last pair. -/
def pairRegs : List Nat := [Reg.PAIR_TB_LO, Reg.PAIR_TB_HI, Reg.PAIR_SEC_LO, Reg.PAIR_SEC_HI, Reg.PAIR_FRAC]

theorem rd_capture_ne (s : State) {a : Nat} (h : a ∉ pairRegs) : s.capture.rd a = s.rd a := by
  simp only [pairRegs, List.mem_cons, List.not_mem_nil, or_false, not_or] at h
  obtain ⟨h1, h2, h3, h4, h5⟩ := h
  unfold State.capture
  dsimp only
  rw [rd_wr_ne _ _ h5, rd_wr_ne _ _ h4, rd_wr_ne _ _ h3, rd_wr_ne _ _ h2, rd_wr_ne _ _ h1]
  rfl

theorem rd_capture_tbLo (s : State) : s.capture.rd Reg.PAIR_TB_LO = s.clk.tb.setWidth 32 := by
  unfold State.capture
  dsimp only
  rw [rd_wr_ne _ _ (by decide), rd_wr_ne _ _ (by decide), rd_wr_ne _ _ (by decide), rd_wr_ne _ _ (by decide), rd_wr_same]

/-- A tick changes the clock, and the pairs and their registers when it captures one. -/
theorem calTick_clk {s : State} (h : s.clk.calOn = true) : s.calTick.clk = s.tickedClk := by
  rw [calTick_eq h]
  split <;> rfl

theorem calTick_pins (s : State) : s.calTick.pins = s.pins := by
  unfold State.calTick State.capture
  simp only [apply_ite State.pins, wr_pins, ite_self]

theorem rd_calTick_ne (s : State) {a : Nat} (h : a ∉ pairRegs) : s.calTick.rd a = s.rd a := by
  unfold State.calTick
  dsimp only
  split
  · split
    · exact rd_capture_ne _ h
    · rfl
  · rfl

/-- The pair that a tick captures: the calendar's value of the tick and the timebase (R45). -/
theorem calTick_captures {s : State} (h : s.clk.calOn = true) (hc : s.clk.captures = true) :
    s.calTick.pairs = { tb := s.clk.tb, sec := s.tickedClk.calSec, frac := s.tickedClk.calFrac } :: s.pairs ∧
      s.calTick.rd Reg.PAIR_TB_LO = s.clk.tb.setWidth 32 := by
  rw [calTick_eq h, if_pos hc, rd_capture_tbLo, ← tickedClk_tb]
  exact ⟨rfl, rfl⟩

theorem captures_second {c : Clk} (hr : c.running = true) (h : rolls c = true) : c.captures = true := by
  unfold Clk.captures; simp [hr, h]

theorem captures_request {c : Clk} (hr : c.running = true) (h : c.capReq = true) : c.captures = true := by
  unfold Clk.captures; simp [hr, h]

/-! ## The rows of the tick -/

/-- The tick of a row whose condition holds; pin 31 follows when it shows TB_PPS. -/
theorem tickPins_eq {s : State} {b : Bool} (h : b = true) :
    s.tickPins b = if s.calTick.pinFunc 31 = 2 then s.calTick.pinSettle 31 else s.calTick := by
  subst h
  simp [State.tickPins, State.calTickIf]

theorem tickPins_same {f : Fld} (s : State) {b : Bool} (hb : b = true) (h : f ∉ padFlds) : f.same s.calTick (s.tickPins b) := by
  rw [tickPins_eq hb]
  split
  · exact pinSettle_same _ _ h
  · exact Fld.same_refl _ _

theorem tickPins_clk {s : State} {b : Bool} (hb : b = true) (h : s.clk.calOn = true) : (s.tickPins b).clk = s.tickedClk :=
  (tickPins_same (f := .clk) s hb (by decide)).trans (calTick_clk h)

theorem tickPins_pairs (s : State) {b : Bool} (hb : b = true) : (s.tickPins b).pairs = s.calTick.pairs :=
  tickPins_same (f := .pairs) s hb (by decide)

theorem rd_tickPins (s : State) {b : Bool} (hb : b = true) {a : Nat} (h : ¬ padReg a) : (s.tickPins b).rd a = s.calTick.rd a := by
  rw [tickPins_eq hb]
  split
  · exact rd_pinSettle _ _ h
  · rfl

/-- Pin 31 shows TB_PPS to its own Schmitt stage: function 2, not inverted, push-pull, no hold, READY and not the safe state. -/
structure State.showsPps (s : State) : Prop where
  ready : s.ready = true
  safe : s.safe = false
  func : s.pinFunc 31 = 2
  hold : s.pins.hold.look 31 = none
  drain : s.flag (Reg.PIN_CFG 31) 26 = false
  inv : s.pinInv 31 = false

/-- A tick leaves how the pin is set up. -/
theorem calTick_showsPps {s : State} (h : s.showsPps) : s.calTick.showsPps where
  ready := (flag_congr (rd_calTick_ne s (by decide)) 31).trans h.ready
  safe := (flag_congr (rd_calTick_ne s (by decide)) 31).trans h.safe
  func := (fld_congr (rd_calTick_ne s (by decide)) 3 0).trans h.func
  hold := by rw [calTick_pins]; exact h.hold
  drain := (flag_congr (rd_calTick_ne s (by decide)) 26).trans h.drain
  inv := (flag_congr (rd_calTick_ne s (by decide)) 27).trans h.inv

/-- After a tick GPIO_IN shows whether the second's first 100 ms still run. -/
theorem flag_tickPins_pps {s : State} {b : Bool} (hb : b = true) (h : s.clk.calOn = true) (hp : s.showsPps) :
    (s.tickPins b).flag Reg.GPIO_IN 31 = decide (s.tickedClk.calFrac.toNat < 6554) := by
  have ht := calTick_showsPps hp
  rw [tickPins_eq hb, if_pos ht.func, flag_pinSettle_pps ht.ready ht.safe ht.func ht.hold ht.drain ht.inv, State.pps, calTick_clk h]

/-! ## Writes and reads -/

/-- A written trim is stored with −128 as −127 (R42). -/
theorem storeTrim_bits (v : Word) : storeTrim (BitVec.ofNat 8 (bits v 7 0)) =
    if bits v 7 0 = 0x80 then 0x81 else BitVec.ofNat 8 (bits v 7 0) := by
  have hlt : bits v 7 0 < 2 ^ 8 := nbits_lt _ _ _
  have hiff : BitVec.ofNat 8 (bits v 7 0) = 0x80 ↔ bits v 7 0 = 0x80 := by
    rw [← BitVec.toNat_inj, BitVec.toNat_ofNat, Nat.mod_eq_of_lt hlt]
    rfl
  unfold storeTrim
  simp only [hiff]

theorem calCtl_set (s : State) (v : Word) : (s.calCtl (v ||| 0x100)).clk.setReq = true := by
  have h : bit (v ||| 0x100) 8 = true := by rw [bit_or]; simp [bit]
  unfold State.calCtl
  dsimp only
  rw [h, Bool.or_true]

theorem calCtl_capture (s : State) (v : Word) : (s.calCtl (v ||| 0x200)).clk.capReq = true := by
  have h : bit (v ||| 0x200) 9 = true := by rw [bit_or]; simp [bit]
  unfold State.calCtl
  dsimp only
  rw [h, Bool.or_true]

/-- A read of CAL_SEC_LO answers the low seconds and latches the rest for its requester (R44). -/
theorem calSecLoRead_latches (req : BitVec 16) (s : State) : ∃ t, exec (.calSecLoRead req) s = .next t ∧
    t.out = .read req Reg.CAL_SEC_LO (s.clk.calSec.setWidth 32) :: s.out ∧ t.clk = (s.calLo req).2.clk := ⟨_, rfl, rfl, rfl⟩

theorem calLo_latches (s : State) (req : Req) : (s.calLo req).2.clk.calHi.get 0 (latchKey req) = (s.clk.calSec >>> 32).setWidth 32 ∧
    (s.calLo req).2.clk.calFr.get 0 (latchKey req) = s.clk.calFrac := ⟨Tab.get_set_same _ _ _ _, Tab.get_set_same _ _ _ _⟩

theorem calLo_ne (s : State) {req other : Req} (h : latchKey other ≠ latchKey req) :
    (s.calLo req).2.clk.calHi.get 0 (latchKey other) = s.clk.calHi.get 0 (latchKey other) ∧
      (s.calLo req).2.clk.calFr.get 0 (latchKey other) = s.clk.calFr.get 0 (latchKey other) :=
  ⟨Tab.get_set_ne _ _ _ h, Tab.get_set_ne _ _ _ h⟩

/-- A read of four bytes of a register is that register's word. -/
theorem regRead_word (s : State) (req : Req) {o : Nat} (h : o % 4 = 0) :
    s.regRead req o 4 = (toLe 4 (s.busRead req o).1.toNat, (s.busRead req o).2) := by
  have ho : o / 4 * 4 = o := by omega
  unfold State.regRead
  rw [if_pos (by omega), ho, h]
  dsimp only
  rw [List.drop_zero, List.take_of_length_le (by rw [length_toLe])]

theorem busRead_calHi (s : State) (req : Req) : s.busRead req Reg.CAL_SEC_HI = (s.clk.calHi.get 0 (latchKey req), s) := rfl

theorem busRead_calFrac (s : State) (req : Req) : s.busRead req Reg.CAL_FRAC = ((s.clk.calFr.get 0 (latchKey req)).setWidth 32, s) := rfl

/-- Settles O11: the read of CAL_SEC_LO, then those of the two latches. -/
theorem calendarReadLatches : Obligations.CalendarReadLatches := by
  unfold Obligations.CalendarReadLatches
  refine ⟨fun req s => ?_, fun req s => ?_⟩
  · obtain ⟨t, ht, hout, hclk⟩ := calSecLoRead_latches req s
    obtain ⟨hhi, hfr⟩ := calLo_latches s req
    refine ⟨t, ht, hout, ?_⟩
    rw [hclk]
    exact ⟨hhi, hfr, fun _ hne => calLo_ne s hne, rfl, rfl⟩
  · have hw : ((s.clk.calFr.get 0 (latchKey req)).setWidth 32).toNat = (s.clk.calFr.get 0 (latchKey req)).toNat :=
      BitVec.toNat_setWidth_of_le (by decide)
    rw [regRead_word s req (by decide), regRead_word s req (by decide), busRead_calHi, busRead_calFrac]
    exact ⟨rfl, rfl, by rw [hw], rfl⟩

/-- Settles O14, tick by tick, write by write, and TB_PPS by the fraction after the tick. -/
theorem calendarTicksAndWrites : Obligations.CalendarTicksAndWrites := by
  unfold Obligations.CalendarTicksAndWrites
  refine ⟨fun s hon hset hr => ⟨_, rfl, ?_⟩, fun s hon hset hr => ⟨_, rfl, ?_⟩, fun s hon hp => ⟨_, rfl, ?_⟩,
    fun v s => ⟨_, rfl, storeTrim_bits v, rfl⟩, fun v s => ⟨_, rfl, calCtl_set s v, rfl⟩, fun s hon hset => ⟨_, rfl, ?_⟩,
    fun v s => ⟨_, rfl, calCtl_capture s v, rfl⟩, fun s hon hcap hrun => ⟨_, rfl, ?_⟩, fun req s => ?_, fun s => ⟨_, rfl, rfl, rfl⟩,
    fun s hon hset hready hsafe hfunc hhold hdrain hinv => ?_⟩
  · rw [taken_clk, if_pos (by decide), tickPins_clk (by simp [hr]) hon]
    obtain ⟨hsec, hfrac⟩ := tickedClk_ordinary hset hr
    exact ⟨hsec, tickedClk_period s, hfrac⟩
  · rw [taken_clk, if_pos (by decide), taken_pairs, if_pos (by decide), tickPins_clk hr hon, tickPins_pairs s hr]
    exact ⟨(tickedClk_second hset hr).1, fun hrun => (calTick_captures hon (captures_second hrun hr)).1⟩
  · rw [taken_clk, if_pos (by decide), tickPins_clk (beq_iff_eq.2 hp) hon]
    exact ⟨(tickedClk_trimNow s).trans (if_pos hp), (tickedClk_period s).trans hp⟩
  · obtain ⟨hsec, hfrac, hvalid, hlost⟩ := tickedClk_set hset
    rw [taken_clk, if_pos (by decide), tickPins_clk hset hon]
    exact ⟨hsec, hfrac, hvalid, hlost, tickedClk_setReq s⟩
  · obtain ⟨hpairs, hlo⟩ := calTick_captures hon (captures_request hrun hcap)
    rw [taken_clk, if_pos (by decide), taken_pairs, if_pos (by decide), taken_rd _ _ (by decide), tickPins_clk hcap hon,
      tickPins_pairs s hcap, rd_tickPins s hcap (not_padReg (by decide) (by decide) (by decide))]
    exact ⟨tickedClk_capReq s, hpairs, hlo⟩
  · obtain ⟨t, ht, hout, hclk⟩ := calSecLoRead_latches req s
    refine ⟨t, ht, hout, ?_⟩
    rw [hclk]
    exact calLo_latches s req
  · have hpps : s.showsPps := ⟨hready, hsafe, hfunc, hhold, hdrain, hinv⟩
    refine ⟨fun hr => ⟨_, rfl, ?_⟩, fun hr hlate => ⟨_, rfl, ?_⟩⟩
    · have hsmall := (tickedClk_second hset hr).2
      rw [taken_flag _ _ (by decide), flag_tickPins_pps hr hon hpps, decide_eq_true_iff]
      exact Nat.lt_trans hsmall (by decide)
    · have hfrac := (tickedClk_ordinary hset hr).2
      rw [taken_flag _ _ (by decide), flag_tickPins_pps (by simp [hr]) hon hpps, decide_eq_false_iff_not, Nat.not_lt]
      exact hlate.trans_eq hfrac.symm

end Sys2Proof.Machine
end

section
/-! SUPPORT. What the Kralon logic's start and stop, and the writes of the ENABLE registers that step E7 makes, can change. -/
namespace Sys2Proof.Machine

/-- A field outside a list is outside every part of it. -/
theorem notMem_part {f : Fld} {l m : List Fld} (h : f ∉ m) (hs : l ⊆ m) : f ∉ l := fun e => h (hs e)

/-! ## Sending on Kralon links -/

/-- The fields that sending a flit may change. -/
def flitFlds : List Fld := [.regs, .klinks, .out]

/-- The fields that sending management flits of this module may change: their numbers count in `kal`. -/
def mgmtFlds : List Fld := [.regs, .klinks, .kal, .out]

theorem setFld_same {f : Fld} (s : State) (a hi lo n : Nat) (h : f ∉ [Fld.regs]) : f.same s (s.setFld a hi lo n) := wr_same _ _ _ h

theorem setFlag_same {f : Fld} (s : State) (a i : Nat) (b : Bool) (h : f ∉ [Fld.regs]) : f.same s (s.setFlag a i b) := wr_same _ _ _ h

theorem updKal_same {f : Fld} (s : State) (g : Kal → Kal) (h : f ∉ [Fld.kal]) : f.same s (s.updKal g) := by
  cases f <;> first | rfl | simp at h

theorem setKlink_same {f : Fld} (s : State) (l : Nat) (x : KLink) (h : f ∉ [Fld.klinks]) : f.same s (s.setKlink l x) := by
  cases f <;> first | rfl | simp at h

theorem emit_same {f : Fld} (s : State) (o : Out) (h : f ∉ [Fld.out]) : f.same s (s.emit o) := by
  cases f <;> first | rfl | simp at h

theorem wire_same {f : Fld} (s : State) (l : Nat) (x : Flit) (n : Nat) (h : f ∉ flitFlds) : f.same s (s.wire l x n) := by
  unfold State.wire
  dsimp only
  refine Fld.same_trans ?_ (emit_same _ _ (notMem_part h (by decide)))
  have h1 := setKlink_same s l { s.klink l with owe := updAt (s.klink l).owe (credOf (s.klink l).owe).1 (· - (credOf (s.klink l).owe).2), sent := s.now }
    (notMem_part h (by decide))
  split
  · exact h1
  · exact Fld.same_trans h1 (wr_same _ _ _ (notMem_part h (by decide)))

theorem flushLink_same {f : Fld} (s : State) (l fuel : Nat) (h : f ∉ flitFlds) : f.same s (s.flushLink l fuel) := by
  induction fuel generalizing s with
  | zero => exact Fld.same_refl _ _
  | succ fuel ih =>
    unfold State.flushLink
    dsimp only
    split
    · exact Fld.same_refl _ _
    · split
      · exact Fld.same_refl _ _
      · exact Fld.same_trans (Fld.same_trans (setKlink_same _ _ _ (notMem_part h (by decide))) (wire_same _ _ _ _ h)) (ih _)

theorem sendOn_same {f : Fld} (s : State) (l : Nat) (x : Flit) (h : f ∉ flitFlds) : f.same s (s.sendOn l x) := by
  unfold State.sendOn
  split
  · exact Fld.same_trans (setKlink_same _ _ _ (notMem_part h (by decide))) (flushLink_same _ _ _ h)
  · exact Fld.same_refl _ _

theorem mgmtOn_same {f : Fld} (s : State) (l kind : Nat) (c : Bytes) (h : f ∉ mgmtFlds) : f.same s (s.mgmtOn l kind c) :=
  Fld.same_trans (updKal_same _ _ (notMem_part h (by decide))) (sendOn_same _ _ _ (notMem_part h (by decide)))

theorem mgmtTo_same {f : Fld} (s : State) (l d kind : Nat) (c : Bytes) (h : f ∉ mgmtFlds) : f.same s (s.mgmtTo l d kind c) :=
  Fld.same_trans (updKal_same _ _ (notMem_part h (by decide))) (sendOn_same _ _ _ (notMem_part h (by decide)))

theorem flood_same {f : Fld} (s : State) (kind : Nat) (c : Bytes) (h : f ∉ mgmtFlds) : f.same s (s.flood kind c) :=
  Fld.same_trans (updKal_same _ _ (notMem_part h (by decide)))
    (foldl_same _ (fun t _ => sendOn_same t _ _ (notMem_part h (by decide))) _ _)

theorem sendBeacons_same {f : Fld} (s : State) (h : f ∉ mgmtFlds) : f.same s s.sendBeacons :=
  foldl_same _ (fun t _ => mgmtOn_same t _ _ _ h) _ _

theorem sendReport_same {f : Fld} (s : State) (h : f ∉ mgmtFlds) : f.same s s.sendReport :=
  Fld.same_trans (updKal_same _ _ (notMem_part h (by decide))) (flood_same _ _ _ h)

/-! ## The start and the end of the Kralon logic -/

/-- The fields that the start of the logic may change. -/
def klFlds : List Fld := [.regs, .holding, .msix, .hevt, .out, .klinks, .kal]

theorem setKl_same {f : Fld} (s : State) (n : Nat) (h : f ∉ klFlds) : f.same s (s.setKl n) := by
  unfold State.setKl
  split
  · exact Fld.same_refl _ _
  · exact Fld.same_trans (wr_same _ _ _ (notMem_part h (by decide))) (raise_same _ _ _ (notMem_part h (by decide)))

theorem enterK2_same {f : Fld} (s : State) (h : f ∉ klFlds) : f.same s s.enterK2 :=
  Fld.same_trans (Fld.same_trans (Fld.same_trans (updKal_same _ _ (notMem_part h (by decide))) (setKl_same _ _ h))
    (sendBeacons_same _ (notMem_part h (by decide)))) (sendReport_same _ (notMem_part h (by decide)))

theorem k1Check_same {f : Fld} (s : State) (h : f ∉ klFlds) : f.same s s.k1Check := by
  unfold State.k1Check
  split
  · exact enterK2_same _ h
  · exact Fld.same_refl _ _

theorem trainLink_same {f : Fld} (s : State) (l : Nat) (h : f ∉ [Fld.regs, .klinks]) : f.same s (s.trainLink l) := by
  unfold State.trainLink
  split
  · exact Fld.same_trans (wr_same _ _ _ (notMem_part h (by decide))) (setKlink_same _ _ _ (notMem_part h (by decide)))
  · exact Fld.same_refl _ _

theorem klStart_same {f : Fld} (s : State) (h : f ∉ klFlds) : f.same s s.klStart := by
  unfold State.klStart
  split
  · exact Fld.same_trans (Fld.same_trans (setKl_same _ _ h)
      (foldl_same _ (fun t l => trainLink_same t l (notMem_part h (by decide))) _ _)) (k1Check_same _ h)
  · exact Fld.same_refl _ _

theorem linkClear_same {f : Fld} (s : State) (l n : Nat) (h : f ∉ [Fld.regs, .klinks]) : f.same s (s.linkClear l n) := by
  have hr : f ∉ [Fld.regs] := notMem_part h (by decide)
  exact Fld.same_trans (Fld.same_trans (Fld.same_trans (wr_same _ _ _ hr) (wr_same _ _ _ hr)) (wr_same _ _ _ hr))
    (setKlink_same _ _ _ (notMem_part h (by decide)))

theorem linkEvent_same {f : Fld} (s : State) (l n far : Nat) (h : f ∉ mgmtFlds) : f.same s (s.linkEvent l n far) := by
  have h1 := updKal_same s (fun k => { k with reports := k.reports.insert ownSerial s.farEnds }) (f := f) (notMem_part h (by decide))
  unfold State.linkEvent
  dsimp only
  split
  · exact h1
  · refine Fld.same_trans h1 (foldl_same _ (fun t d => ?_) _ _)
    split
    · exact Fld.same_refl _ _
    · split
      · exact Fld.same_refl _ _
      · exact mgmtTo_same _ _ _ _ _ h

theorem cutCheck_same {f : Fld} (s : State) (h : f ∉ [Fld.kal]) : f.same s s.cutCheck := by
  unfold State.cutCheck
  split
  · exact updKal_same _ _ h
  · split <;> exact updKal_same _ _ h

theorem news_same {f : Fld} (s : State) (h : f ∉ mgmtFlds) : f.same s s.news :=
  Fld.same_trans (updKal_same _ _ (notMem_part h (by decide))) (sendBeacons_same _ h)

theorem peerFailed_same {f : Fld} (s : State) (r : PeerReq) (n : Nat) (h : f ∉ Fld.harts :: klFlds) : f.same s (s.peerFailed r n) := by
  unfold State.peerFailed
  split
  · refine Fld.same_trans (Fld.same_trans ?_ (wr_same _ _ _ (notMem_part h (by decide)))) (raise_same _ _ _ (notMem_part h (by decide)))
    cases f <;> first | rfl | simp at h
  · exact updKal_same _ _ (notMem_part h (by decide))

theorem failPeers_same {f : Fld} (s : State) (p : PeerReq → Bool) (h : f ∉ Fld.harts :: klFlds) : f.same s (s.failPeers p) :=
  foldl_same _ (fun t r => Fld.same_trans (updKal_same t _ (notMem_part h (by decide))) (peerFailed_same _ r 4 h)) _ _

theorem klStop_same {f : Fld} (s : State) (h : f ∉ Fld.harts :: klFlds) : f.same s s.klStop := by
  have hr : f ∉ [Fld.regs] := notMem_part h (by decide)
  have he : f ∉ [Fld.regs, .holding, .msix, .hevt, .out] := notMem_part h (by decide)
  have hlinks := foldl_same (f := f) (fun (t : State) l => if t.klinkState l = 1 ∨ t.klinkState l = 2 then
      ((t.linkClear l 3).bump (Reg.LINK_CNT_FAIL l)).raise (klinkPage l) 1 |>.raise klPage 2 else t) (fun t l => by
    split
    · exact Fld.same_trans (Fld.same_trans (Fld.same_trans (linkClear_same _ _ _ (notMem_part h (by decide))) (wr_same _ _ _ hr))
        (raise_same _ _ _ he)) (raise_same _ _ _ he)
    · exact Fld.same_refl _ _) (List.range 8) s
  exact Fld.same_trans (Fld.same_trans (Fld.same_trans (Fld.same_trans (Fld.same_trans (Fld.same_trans hlinks (failPeers_same _ _ h))
    (updKal_same _ _ (notMem_part h (by decide)))) (wr_same _ _ _ hr)) (wr_same _ _ _ hr)) (wr_same _ _ _ hr))
    (setKl_same _ _ (notMem_part h (by decide)))

/-! ## The enabling of a port -/

/-- The fields that the enabling of a port may change. -/
def portFlds : List Fld := [.regs, .holding, .msix, .hevt, .out, .ports]

theorem linkTo_same {f : Fld} (s : State) (p k : Nat) (h : f ∉ portFlds) : f.same s (s.linkTo p k) := by
  have hr : f ∉ [Fld.regs] := notMem_part h (by decide)
  have he : f ∉ [Fld.regs, .holding, .msix, .hevt, .out] := notMem_part h (by decide)
  have h1 := wr_same (f := f) s (Reg.PORT_STS p) (putBits (s.rd (Reg.PORT_STS p)) 1 0 k) hr
  unfold State.linkTo
  dsimp only
  split
  · exact Fld.same_trans (Fld.same_trans h1 (updPort_same _ _ _ (notMem_part h (by decide)))) (raise_same _ _ _ he)
  · split
    · exact Fld.same_trans h1 (raise_same _ _ _ he)
    · exact h1

theorem relock_same {f : Fld} (s : State) (p : Nat) (h : f ∉ portFlds) : f.same s (s.relock p) := by
  unfold State.relock
  dsimp only
  split
  · exact Fld.same_trans (linkTo_same _ _ _ h) (linkTo_same _ _ _ h)
  · exact linkTo_same _ _ _ h

theorem apply_same {f : Fld} (s : State) (p : Nat) (h : f ∉ portFlds) : f.same s (s.apply p) := by
  have hr : f ∉ [Fld.regs] := notMem_part h (by decide)
  have he : f ∉ [Fld.regs, .holding, .msix, .hevt, .out] := notMem_part h (by decide)
  unfold State.apply
  dsimp only
  split
  · exact Fld.same_trans (Fld.same_trans (Fld.same_trans (updPort_same _ _ _ (notMem_part h (by decide))) (wr_same _ _ _ hr))
      (wr_same _ _ _ hr)) (raise_same _ _ _ he)
  · exact Fld.same_trans (wr_same _ _ _ hr) (raise_same _ _ _ he)

theorem islOut_same {f : Fld} (s : State) (o : Out) (h : f ∉ [Fld.out]) : f.same s (s.islOut o) := by
  unfold State.islOut
  split
  · exact Fld.same_refl _ _
  · exact emit_same _ _ h

theorem islLock_same {f : Fld} (s : State) (h : f ∉ [Fld.regs]) : f.same s s.islLock := setFlag_same _ _ _ _ h

theorem enablePort_same {f : Fld} (s : State) (p : Nat) (h : f ∉ portFlds) : f.same s (s.enablePort p) := by
  have hr : f ∉ [Fld.regs] := notMem_part h (by decide)
  have he : f ∉ [Fld.regs, .holding, .msix, .hevt, .out] := notMem_part h (by decide)
  have hstay : ∀ t : State, f.same t ((t.setFlag (Reg.PORT_CTL p) 0 false).setFlag (Reg.PORT_STS p) 9 true) :=
    fun t => Fld.same_trans (setFlag_same _ _ _ _ hr) (setFlag_same _ _ _ _ hr)
  unfold State.enablePort
  dsimp only
  split
  · exact hstay _
  · split
    · exact Fld.same_trans (Fld.same_trans (setFlag_same s (Reg.PORT_STS p) 8 true hr) (hstay _)) (raise_same _ _ _ he)
    · split
      · exact Fld.same_trans (setFlag_same _ _ _ _ hr) (hstay _)
      · have hfresh := Fld.same_trans (Fld.same_trans (setFlag_same s (Reg.PORT_STS p) 9 false hr) (setFlag_same _ (Reg.FRAME_STS p) 30 false hr))
          (updPort_same _ p Port.fresh (notMem_part h (by decide)))
        have hset := Fld.same_trans (Fld.same_trans hfresh (wr_same _ (Reg.TIMING_STS p) 0 hr)) (apply_same _ p h)
        have hlock := Fld.same_trans (Fld.same_trans hset (islOut_same _ (.isl p 0xB4 (zeros 7)) (notMem_part h (by decide)))) (relock_same _ p h)
        exact Fld.same_trans hlock (islLock_same _ hr)

/-! ## Writes that enable a unit -/

/-- The fields that the enabling of a unit in step E7 may change. -/
def enableFlds : List Fld :=
  [.free, .regs, .held, .wosDone, .holding, .msix, .hevt, .out, .flogRing, .flogLast, .harts, .ports, .aunits, .klinks, .kal]

/-- A write with behaviour keeps what both the storing and the behaviour keep. -/
theorem storeThen_same {f : Fld} (s : State) (req : Req) (a : Nat) (v : Word) {k : State → State}
    (h : f ∉ [Fld.regs, .held, .wosDone, .holding, .msix, .hevt, .out, .flogRing, .flogLast]) (hk : ∀ t, f.same t (k t)) :
    f.same s (s.storeThen req a v k) := by
  unfold State.storeThen
  dsimp only
  split
  · exact Fld.same_trans (store_any_same s req a v h) (hk _)
  · exact store_any_same s req a v h

theorem portCtl_enable_same {f : Fld} (s : State) (req : Req) (p : Nat) {v : Word} (hv : bit v 0 = true) (h : f ∉ enableFlds) :
    f.same s (s.portCtl req p v) := by
  refine storeThen_same s req _ v (notMem_part h (by decide)) (fun t => ?_)
  split
  · exact enablePort_same _ _ (notMem_part h (by decide))
  · rw [if_neg (by simp [hv])]; exact Fld.same_refl _ _

theorem ethCtl_same {f : Fld} (s : State) (req : Req) (n : Nat) (v : Word) (h : f ∉ enableFlds) : f.same s (s.ethCtl req n v) := by
  refine storeThen_same s req _ v (notMem_part h (by decide)) (fun t => ?_)
  unfold State.netLink
  dsimp only
  split
  · exact Fld.same_refl _ _
  · split
    · exact Fld.same_refl _ _
    · exact Fld.same_trans (wr_same _ _ _ (notMem_part h (by decide))) (raise_same _ _ _ (notMem_part h (by decide)))

theorem klCtl_same {f : Fld} (s : State) (req : Req) (v : Word) (h : f ∉ enableFlds) : f.same s (s.klCtl req v) := by
  refine storeThen_same s req _ v (notMem_part h (by decide)) (fun t => ?_)
  split
  · exact klStart_same _ (notMem_part h (by decide))
  · split
    · exact klStop_same _ (notMem_part h (by decide))
    · exact Fld.same_refl _ _

theorem linkCtl_same {f : Fld} (s : State) (req : Req) (l : Nat) (v : Word) (h : f ∉ enableFlds) : f.same s (s.linkCtl req l v) := by
  have hm : f ∉ mgmtFlds := notMem_part h (by decide)
  have hk : f ∉ klFlds := notMem_part h (by decide)
  have hl : f ∉ [Fld.regs, .klinks] := notMem_part h (by decide)
  refine storeThen_same s req _ v (notMem_part h (by decide)) (fun t => ?_)
  dsimp only
  split
  · split
    · exact trainLink_same _ _ hl
    · exact Fld.same_refl _ _
  · split
    · exact Fld.same_refl _ _
    · split
      · have hevent := Fld.same_trans (linkClear_same t l 0 hl) (linkEvent_same _ l 0 (t.linkSerial l) hm)
        have hnews := Fld.same_trans (Fld.same_trans hevent (cutCheck_same _ (notMem_part h (by decide)))) (news_same _ hm)
        exact Fld.same_trans hnews (k1Check_same _ hk)
      · exact Fld.same_trans (linkClear_same _ _ _ hl) (k1Check_same _ hk)

theorem updAunit_same {f : Fld} (s : State) (u : Nat) (g : AUnit → AUnit) (h : f ∉ [Fld.aunits]) : f.same s (s.updAunit u g) := by
  cases f <;> first | rfl | simp at h

theorem auCtl_enable_same {f : Fld} (s : State) (req : Req) (u : Nat) {v : Word} (hv : bit v 0 = true) (h : f ∉ enableFlds) :
    f.same s (s.auCtl req u v) := by
  have hr : f ∉ [Fld.regs] := notMem_part h (by decide)
  have ha : f ∉ [Fld.aunits] := notMem_part h (by decide)
  refine storeThen_same s req _ v (notMem_part h (by decide)) (fun t => ?_)
  dsimp only
  rw [if_pos hv]
  refine Fld.same_trans (setFlag_same t (Reg.AU_CTL u) 0 (s.flag (Reg.AU_CTL u) 0) hr) ?_
  split
  · exact updAunit_same _ _ _ ha
  · split
    · exact Fld.same_trans (Fld.same_trans (setFlag_same _ _ _ _ hr) (setFld_same _ _ _ _ _ hr)) (updAunit_same _ _ _ ha)
    · exact setFlag_same _ _ _ _ hr

theorem tguCtl_same {f : Fld} (s : State) (v : Word) (h : f ∉ [Fld.regs]) : f.same s (s.tguCtl v) := by
  unfold State.tguCtl
  split
  · split
    · exact Fld.same_refl _ _
    · split
      · exact Fld.same_trans (wr_same _ _ _ h) (wr_same _ _ _ h)
      · exact wr_same _ _ _ h
  · split <;> exact wr_same _ _ _ h

/-- A write of 1 to an ENABLE register changes only these fields. -/
theorem enableWrite_same {f : Fld} (s : State) (req : Req) (a : Nat) {v : Word} (hv : bit v 0 = true) (h : f ∉ enableFlds) :
    f.same s (s.enableWrite req a v) := by
  unfold State.enableWrite
  split
  · exact portCtl_enable_same _ _ _ hv h
  · exact ethCtl_same _ _ _ _ h
  · exact klCtl_same _ _ _ h
  · exact linkCtl_same _ _ _ _ h
  · exact auCtl_enable_same _ _ _ hv h
  · exact tguCtl_same _ _ (notMem_part h (by decide))
  · exact Fld.same_refl _ _

theorem enableOne_same {f : Fld} (s : State) (a : Nat) (h : f ∉ enableFlds) : f.same s (s.enableOne a) := by
  have hv : bit (s.rd a ||| 1) 0 = true := by rw [bit_or]; simp [bit]
  have h1 := enableWrite_same (f := f) s reqWarden a hv h
  unfold State.enableOne
  dsimp only
  split
  · exact h1
  · exact Fld.same_trans (Fld.same_trans h1 (fresh_same _ (notMem_part h (by decide)))) (log_same _ _ _ _ _ (notMem_part h (by decide)))

end Sys2Proof.Machine
end

section
/-! SUPPORT. The flash after an erase and after programming. -/
namespace Sys2Proof.Machine

/-- A table of which entries are removed by their keys reads the default there, and as before elsewhere. -/
theorem Tab.get_filter_key {α : Type} (d : α) (p : Nat → Bool) (t : Tab α) (k : Nat) :
    Tab.get d (t.filter (fun e => p e.1)) k = if p k then t.get d k else d := by
  induction t with
  | nil => exact (ite_self d).symm
  | cons e t ih =>
    obtain ⟨j, w⟩ := e
    by_cases hj : k = j
    · subst hj
      cases hp : p k with
      | true => simp [hp, Tab.get]
      | false => simp [hp, ih]
    · cases hp : p j with
      | true => simp [hp, Tab.get, hj, ih]
      | false => simp [hp, Tab.get, hj, ih]

theorem flashByte_flashErase (s : State) (a n x : Nat) :
    (s.flashErase a n).flashByte x = if x < a ∨ a + n ≤ x then s.flashByte x else 0xFF := by
  have h := Tab.get_filter_key (0xFF : Byte) (fun k => decide (k < a) || decide (a + n ≤ k)) s.flash x
  simp only [Bool.or_eq_true, decide_eq_true_iff] at h
  exact h

/-- A flash byte of the next state is that of `t` when the command may change the flash. -/
theorem taken_flashByte (s t : State) {w : List Fld} (h : .flash ∈ w) (x : Nat) : (s.taken t w).flashByte x = t.flashByte x := by
  simp [State.flashByte, h]

theorem get_flashStore_ne (m : List Host.Cell) (a : Nat) (b : Bytes) {k : Nat} (h : k < a ∨ a + b.length ≤ k) :
    Tab.get (0xFF : Byte) (flashStore m a b) k = Tab.get 0xFF m k := by
  induction b generalizing m a with
  | nil => rfl
  | cons x b ih =>
    simp only [List.length_cons] at h
    rw [flashStore, ih _ _ (by omega), Tab.get_set_ne _ _ _ (by omega)]

/-- Bytes programmed read back. -/
theorem flashBytes_flashStore (m : List Host.Cell) (a : Nat) (b : Bytes) : flashBytes (flashStore m a b) a b.length = b := by
  induction b generalizing m a with
  | nil => rfl
  | cons x b ih =>
    rw [List.length_cons, flashStore, flashBytes, ih, get_flashStore_ne _ _ _ (.inl (Nat.lt_succ_self a)), Tab.get_set_same]

end Sys2Proof.Machine
end

section
/-! SUPPORT. The configuration store's commands (R50 to R53). -/
namespace Sys2Proof.Machine

/-! ## PROGRAM -/

/-- The bank that a PROGRAM writes: the one not loaded, A after the chrysalis (R53). -/
def State.targetBank (s : State) : Nat := if s.flag Reg.CFG_STS 0 then 0 else if s.flag Reg.CFG_STS 1 then 0 else 1

theorem cfgProgram_busy {s : State} (h : s.flag Reg.CFG_STS 6 = true) : s.cfgProgram = s := if_pos h

theorem cfgProgram_tooLong {s : State} (h : s.flag Reg.CFG_STS 6 = false) (hn : 131067 < s.fld Reg.CFG_LEN 17 0) :
    s.cfgProgram = s.setFlag Reg.CFG_STS 7 true := by
  unfold State.cfgProgram
  dsimp only
  rw [if_neg (by simp [h]), if_pos (.inl hn)]

/-- The state in which a PROGRAM of record `r` is under way: BUSY, and the target bank erased. -/
def State.programStarted (s : State) (r : Option Bytes) : State :=
  (((s.setFlag Reg.CFG_STS 7 false).setFlag Reg.CFG_STS 6 true).flashErase (bankBase s.targetBank) 0x100000).updEmg
    (fun e => { e with prog := some (s.targetBank, r) })

theorem rd_programStarted (s : State) (r : Option Bytes) (a : Nat) :
    (s.programStarted r).rd a = ((s.setFlag Reg.CFG_STS 7 false).setFlag Reg.CFG_STS 6 true).rd a := by
  rw [State.programStarted, rd_updEmg]; rfl

theorem programStarted_busy (s : State) (r : Option Bytes) : (s.programStarted r).flag Reg.CFG_STS 6 = true :=
  (flag_congr (rd_programStarted s r _) 6).trans (flag_setFlag _ _ _ (by decide))

theorem programStarted_no_error (s : State) (r : Option Bytes) : (s.programStarted r).flag Reg.CFG_STS 7 = false :=
  (flag_congr (rd_programStarted s r _) 7).trans
    ((flag_setFlag_ne _ _ _ (by decide) (by decide) (by decide)).trans (flag_setFlag s _ _ (by decide)))

theorem flash_programStarted (s : State) (r : Option Bytes) :
    (s.programStarted r).flash = (s.flashErase (bankBase s.targetBank) 0x100000).flash := by
  simp only [State.programStarted, State.updEmg, State.flashErase, setFlag_flash]

theorem flashByte_programStarted (s : State) (r : Option Bytes) (x : Nat) : (s.programStarted r).flashByte x =
    if x < bankBase s.targetBank ∨ bankBase s.targetBank + 0x100000 ≤ x then s.flashByte x else 0xFF := by
  rw [← flashByte_flashErase, State.flashByte, flash_programStarted, State.flashByte]

/-- A PROGRAM that no check refuses is started. -/
theorem cfgProgram_accepted {s : State} (h : s.flag Reg.CFG_STS 6 = false) (hn : s.fld Reg.CFG_LEN 17 0 ≤ 131067)
    (hi : s.nextInstar ≤ 0xFFFFFFFF)
    (ha : inRange (s.addr48 Reg.CFG_SRC_LO Reg.CFG_SRC_HI / 8 * 8) (8 * s.fld Reg.CFG_LEN 17 0) = true) :
    ∃ r, s.cfgProgram = s.programStarted r := by
  have hc : ¬ (131067 < s.fld Reg.CFG_LEN 17 0 ∨ 0xFFFFFFFF < s.nextInstar ∨
      inRange (s.addr48 Reg.CFG_SRC_LO Reg.CFG_SRC_HI / 8 * 8) (8 * s.fld Reg.CFG_LEN 17 0) = false) := by
    rw [ha]; simp; omega
  unfold State.cfgProgram
  dsimp only
  rw [if_neg (by simp [h]), if_neg hc]
  exact ⟨_, rfl⟩

/-! ## A keyed write of CFG_CMD -/

/-! The rows write with the command field replaced; the key stays as it is. -/

theorem bits_key_replaced (v m : Word) (h : bits m 31 16 = 0) : bits (v &&& 0xFFFFFFFC ||| m) 31 16 = bits v 31 16 := by
  rw [bits_or_zero _ _ h, bits_and_ones _ _ (by decide)]

theorem cfgCmd_program {s : State} (req : Req) {v : Word} (hk : bits v 31 16 = 0x1A57) :
    s.cfgCmd req (v &&& 0xFFFFFFFC ||| 1) = s.cfgProgram := by
  have h0 : bit (v &&& 0xFFFFFFFC ||| 1) 0 = true := by rw [bit_or]; simp [bit]
  have h1 : bit (v &&& 0xFFFFFFFC ||| 1) 1 = false := by rw [bit_or, bit_and]; simp [bit]
  unfold State.cfgCmd State.keyed
  rw [h0, h1, bits_key_replaced v 1 (by decide), hk]
  rfl

theorem cfgCmd_force {s : State} (req : Req) {v : Word} (hk : bits v 31 16 = 0x1A57) :
    s.cfgCmd req (v &&& 0xFFFFFFFC ||| 2) = s.setFlag Reg.CFG_STS 5 true := by
  have h0 : bit (v &&& 0xFFFFFFFC ||| 2) 0 = false := by rw [bit_or, bit_and]; simp [bit]
  have h1 : bit (v &&& 0xFFFFFFFC ||| 2) 1 = true := by rw [bit_or]; simp [bit]
  unfold State.cfgCmd State.keyed
  rw [h0, h1, bits_key_replaced v 2 (by decide), hk]
  rfl

/-- The CFG_PROGRAM row with the right key is PROGRAM. -/
theorem exec_cfgProgram {s : State} (req : BitVec 16) {v : Word} (hk : bits v 31 16 = 0x1A57) :
    exec (.cfgProgram req v) s = .next (s.taken s.cfgProgram [.flash, .regs, .flogRing, .flogLast, .holding, .hevt, .msix, .out, .emg]) := by
  rw [← cfgCmd_program req hk]; rfl

theorem exec_forceChrysalis {s : State} (req : BitVec 16) {v : Word} (hk : bits v 31 16 = 0x1A57) :
    exec (.forceChrysalis req v) s =
      .next (s.taken (s.setFlag Reg.CFG_STS 5 true) [.flash, .regs, .flogRing, .flogLast, .holding, .hevt, .msix, .out, .emg]) := by
  rw [← cfgCmd_force req hk]; rfl

theorem program_accepted {s : State} (req : BitVec 16) {v : Word} (hk : bits v 31 16 = 0x1A57) (h : s.flag Reg.CFG_STS 6 = false)
    (hn : s.fld Reg.CFG_LEN 17 0 ≤ 131067) (hi : s.nextInstar ≤ 0xFFFFFFFF)
    (ha : inRange (s.addr48 Reg.CFG_SRC_LO Reg.CFG_SRC_HI / 8 * 8) (8 * s.fld Reg.CFG_LEN 17 0) = true) :
    ∃ t, exec (.cfgProgram req v) s = .next t ∧ t.flag Reg.CFG_STS 6 = true ∧ t.flag Reg.CFG_STS 7 = false ∧
      (∃ r, t.emg.prog = some (s.targetBank, r)) ∧
      (∀ x, bankBase s.targetBank ≤ x → x < bankBase s.targetBank + 0x100000 → t.flashByte x = 0xFF) ∧
      (∀ x, x < bankBase s.targetBank ∨ bankBase s.targetBank + 0x100000 ≤ x → t.flashByte x = s.flashByte x) ∧
      ∀ b, b ≠ Reg.CFG_STS → t.rd b = s.rd b := by
  obtain ⟨r, hr⟩ := cfgProgram_accepted h hn hi ha
  refine ⟨_, exec_cfgProgram req hk, ?_⟩
  rw [hr, taken_flag _ _ (by decide), taken_flag _ _ (by decide), taken_emg, if_pos (by decide)]
  refine ⟨programStarted_busy s r, programStarted_no_error s r, ⟨r, rfl⟩, fun x hlo hhi => ?_, fun x hx => ?_, fun b hb => ?_⟩
  · rw [taken_flashByte _ _ (by decide), flashByte_programStarted, if_neg (by omega)]
  · rw [taken_flashByte _ _ (by decide), flashByte_programStarted, if_pos hx]
  · rw [taken_rd _ _ (by decide), rd_programStarted, rd_setFlag_ne _ _ _ hb, rd_setFlag_ne _ _ _ hb]

theorem program_tooLong {s : State} (req : BitVec 16) {v : Word} (hk : bits v 31 16 = 0x1A57) (h : s.flag Reg.CFG_STS 6 = false)
    (hn : 131067 < s.fld Reg.CFG_LEN 17 0) :
    ∃ t, exec (.cfgProgram req v) s = .next t ∧ t.flag Reg.CFG_STS 7 = true ∧ t.flag Reg.CFG_STS 6 = false ∧ t.flash = s.flash := by
  refine ⟨_, exec_cfgProgram req hk, ?_⟩
  rw [cfgProgram_tooLong h hn, taken_flag _ _ (by decide), taken_flag _ _ (by decide), taken_flash, if_pos (by decide)]
  exact ⟨flag_setFlag _ _ _ (by decide), (flag_setFlag_ne _ _ _ (by decide) (by decide) (by decide)).trans h, setFlag_flash _ _ _ _⟩

theorem program_busy {s : State} (req : BitVec 16) {v : Word} (hk : bits v 31 16 = 0x1A57) (h : s.flag Reg.CFG_STS 6 = true) :
    ∃ t, exec (.cfgProgram req v) s = .next t ∧ t.flash = s.flash ∧ ∀ b, t.rd b = s.rd b := by
  refine ⟨_, exec_cfgProgram req hk, ?_⟩
  rw [cfgProgram_busy h]
  exact ⟨rfl, fun _ => rfl⟩

theorem forceChrysalis_pending {s : State} (req : BitVec 16) {v : Word} (hk : bits v 31 16 = 0x1A57) :
    ∃ t, exec (.forceChrysalis req v) s = .next t ∧ t.flag Reg.CFG_STS 5 = true ∧ t.flash = s.flash ∧
      ∀ b, b ≠ Reg.CFG_STS → t.rd b = s.rd b := by
  refine ⟨_, exec_forceChrysalis req hk, ?_⟩
  rw [taken_flag _ _ (by decide), taken_flash, if_pos (by decide)]
  exact ⟨flag_setFlag _ _ _ (by decide), setFlag_flash _ _ _ _, fun b hb => (taken_rd _ _ (by decide) b).trans (rd_setFlag_ne _ _ _ hb)⟩

/-! ## The end of a PROGRAM -/

/-- The state with BUSY cleared and no PROGRAM under way. -/
def State.programEnded (s : State) : State := (s.updEmg (fun e => { e with prog := none })).setFlag Reg.CFG_STS 6 false

theorem flash_programEnded (s : State) : s.programEnded.flash = s.flash := by
  simp only [State.programEnded, State.updEmg, setFlag_flash]

theorem prog_programEnded (s : State) : s.programEnded.emg.prog = none := by
  simp only [State.programEnded, State.updEmg, setFlag_emg]

theorem flag_programEnded_busy (s : State) : s.programEnded.flag Reg.CFG_STS 6 = false := flag_setFlag _ _ _ (by decide)

/-- A good read-back leaves the record in the bank. -/
theorem cfgProgramDone_good {s : State} {k : Nat} {b : Bytes} (h : s.emg.prog = some (k, some b)) :
    s.cfgProgramDone true = s.programEnded.flashProg (bankBase k) b := by
  unfold State.cfgProgramDone; rw [h]; rfl

/-- A bad read-back, or entries that could not be read, set PROG_ERR. -/
theorem cfgProgramDone_failed {s : State} {k : Nat} {r : Option Bytes} {good : Bool} (h : s.emg.prog = some (k, r))
    (hf : r = none ∨ good = false) : s.cfgProgramDone good = s.programEnded.setFlag Reg.CFG_STS 7 true := by
  unfold State.cfgProgramDone
  rw [h]
  cases r with
  | none => rfl
  | some b =>
    have hg : good = false := hf.resolve_left (by simp)
    rw [hg]; rfl

theorem programDone_good {s : State} {k : Nat} {b : Bytes} (h : s.emg.prog = some (k, some b)) :
    ∃ t, exec (.cfgProgramDone true) s = .next t ∧ t.flag Reg.CFG_STS 6 = false ∧ t.emg.prog = none ∧ t.fld8 (bankBase k) b.length = b ∧
      ∀ x, x < bankBase k ∨ bankBase k + b.length ≤ x → t.flashByte x = s.flashByte x := by
  refine ⟨_, rfl, ?_⟩
  rw [cfgProgramDone_good h, taken_flag _ _ (by decide), taken_emg, if_pos (by decide), State.fld8, taken_flash, if_pos (by decide)]
  refine ⟨flag_programEnded_busy s, prog_programEnded s, flashBytes_flashStore _ _ _, fun x hx => ?_⟩
  rw [taken_flashByte _ _ (by decide), State.flashByte, State.flashProg, flash_programEnded]
  exact get_flashStore_ne s.flash _ _ hx

theorem programDone_failed {s : State} {k : Nat} {r : Option Bytes} {good : Bool} (h : s.emg.prog = some (k, r))
    (hf : r = none ∨ good = false) :
    ∃ t, exec (.cfgProgramDone good) s = .next t ∧ t.flag Reg.CFG_STS 6 = false ∧ t.flag Reg.CFG_STS 7 = true ∧ t.flash = s.flash := by
  refine ⟨_, rfl, ?_⟩
  rw [cfgProgramDone_failed h hf, taken_flag _ _ (by decide), taken_flag _ _ (by decide), taken_flash, if_pos (by decide), setFlag_flash]
  exact ⟨(flag_setFlag_ne _ _ _ (by decide) (by decide) (by decide)).trans (flag_programEnded_busy s), flag_setFlag _ _ _ (by decide),
    flash_programEnded s⟩

end Sys2Proof.Machine
end

section
/-! SUPPORT. The end of emergence: FW_READY, the bound of step E6, and step E7 with no unit to enable (R46, R48, R278, R422). -/
namespace Sys2Proof.Machine

/-! ## Step E7 -/

/-- Step E7 before units are enabled: READY, the safe-state latch clear, the pads settled. -/
def State.emerged (s : State) : State :=
  ((((s.updEmg (fun e => { e with enables := [], e6 := false, resetting := false })).setFld Reg.AO_EMG_STS 7 0 7).setFlag
    Reg.AO_EMG_STS 31 true).setFlag Reg.HM_STS 31 false).safeSettle

/-- What step E7 leaves as it was. -/
theorem emerged_same {f : Fld} (s : State) (h : f ∉ Fld.emg :: .pins :: padFlds) : f.same s s.emerged := by
  have hr : f ∉ [Fld.regs] := by revert h; cases f <;> decide
  have he : f ∉ [Fld.emg] := by revert h; cases f <;> decide
  have hp : f ∉ Fld.pins :: padFlds := fun m => h (List.mem_cons_of_mem _ m)
  exact Fld.same_trans (Fld.same_trans (Fld.same_trans (Fld.same_trans (updEmg_same _ _ he) (wr_same _ _ _ hr)) (wr_same _ _ _ hr))
    (wr_same _ _ _ hr)) (safeSettle_same _ hp)

theorem rd_emerged (s : State) {a : Nat} (h : ¬ padReg a) (h1 : a ≠ Reg.AO_EMG_STS) (h2 : a ≠ Reg.HM_STS) : s.emerged.rd a = s.rd a :=
  (rd_safeSettle _ h).trans ((rd_setFlag_ne _ _ _ h2).trans ((rd_setFlag_ne _ _ _ h1).trans (rd_setFld_ne _ _ _ _ h1)))

theorem emerged_emg (s : State) : s.emerged.emg = { s.emg with enables := [], e6 := false, resetting := false } :=
  safeSettle_same (f := .emg) _ (by decide)

/-- AO_EMG_STS is not among the registers that the settling of the pads changes, and HM_STS is another. -/
theorem rd_emerged_emgSts (s : State) : s.emerged.rd Reg.AO_EMG_STS = ((s.setFld Reg.AO_EMG_STS 7 0 7).setFlag Reg.AO_EMG_STS 31 true).rd Reg.AO_EMG_STS :=
  (rd_safeSettle _ (not_padReg (by decide) (by decide) (by decide))).trans (rd_setFlag_ne _ _ _ (by decide))

theorem emerged_ready (s : State) : s.emerged.ready = true := (flag_congr (rd_emerged_emgSts s) 31).trans (flag_setFlag _ _ _ (by decide))

theorem emerged_step (s : State) : s.emerged.fld Reg.AO_EMG_STS 7 0 = 7 :=
  (fld_congr (rd_emerged_emgSts s) 7 0).trans ((fld_setFlag_ne _ _ _ (by decide) (by decide) (by decide)).trans
    (fld_setFld s _ _ (by decide) (by decide)))

theorem emerged_safe (s : State) : s.emerged.safe = false :=
  (flag_congr (rd_safeSettle _ (not_padReg (by decide) (by decide) (by decide))) 31).trans (flag_setFlag _ _ _ (by decide))

/-- The units that the record enables are enabled after that, and Kralon starts last. -/
theorem finishEmergence_eq (s : State) :
    s.finishEmergence = (s.emg.enables.foldl (fun (t : State) a => t.enableOne a) s.emerged).klStart := rfl

/-- What step E7 leaves as it was, whichever units it enables. -/
theorem finishEmergence_same {f : Fld} (s : State) (h : f ∉ Fld.emg :: .pins :: enableFlds) : f.same s s.finishEmergence := by
  rw [finishEmergence_eq]
  exact Fld.same_trans (Fld.same_trans (emerged_same s (notMem_part h (by decide)))
    (foldl_same _ (fun t a => enableOne_same t a (notMem_part h (by decide))) _ _)) (klStart_same _ (notMem_part h (by decide)))

theorem klStart_disabled {s : State} (h : s.flag Reg.KL_CTL 0 = false) : s.klStart = s := if_neg (by simp [h])

/-- With no unit to enable and KL_CTL.ENABLE 0, step E7 does no more than that. -/
theorem finishEmergence_no_units {s : State} (he : s.emg.enables = []) (hk : s.flag Reg.KL_CTL 0 = false) :
    s.finishEmergence = s.emerged := by
  have hrd : s.emerged.rd Reg.KL_CTL = s.rd Reg.KL_CTL :=
    rd_emerged s (not_padReg (by decide) (by decide) (by decide)) (by decide) (by decide)
  rw [finishEmergence_eq, he, List.foldl_nil, klStart_disabled ((flag_congr hrd 0).trans hk)]

/-! ## FW_READY -/

/-- The firmware watchdog counts from now on (R422). -/
def State.watched (s : State) : State := s.updHealth (fun h => { h with aliveOn := true, aliveAt := s.now })

theorem fwIsReady_eq (s : State) : s.fwIsReady = if s.emg.e6 then s.watched.finishEmergence else s.watched := rfl

/-- The watchdog runs from the write on, whatever follows it. -/
theorem fwIsReady_health (s : State) : s.fwIsReady.health = s.watched.health := by
  rw [fwIsReady_eq]
  split
  · exact finishEmergence_same (f := .health) s.watched (by decide)
  · rfl

/-- Outside step E6 nothing else happens. -/
theorem fwIsReady_later {s : State} (h : s.emg.e6 = false) : s.fwIsReady = s.watched := by
  rw [fwIsReady_eq, h, if_neg Bool.false_ne_true]

theorem fwIsReady_e6 {s : State} (h : s.emg.e6 = true) (he : s.emg.enables = []) (hk : s.flag Reg.KL_CTL 0 = false) :
    s.fwIsReady = s.watched.emerged := by
  rw [fwIsReady_eq, h, if_pos rfl, finishEmergence_no_units (s := s.watched) he hk]

theorem defAt_tfCtl : defAt Reg.TF_CTL = some { off := 0x40, rw := 0x1, wos := 0x1 } := rfl

/-- A stored write of TF_CTL with FW_READY sets it. -/
theorem flag_store_tfCtl {s : State} (req : Req) (v : Word) (h : (s.store req Reg.TF_CTL (v ||| 1)).2 = true) :
    (s.store req Reg.TF_CTL (v ||| 1)).1.flag Reg.TF_CTL 0 = true := by
  unfold State.flag
  rw [rd_store_plain s req (v ||| 1) defAt_tfCtl (by decide) h, bit_or, bit_and _ (BitVec.ofNat 32 _), bit_and, bit_or]
  simp [bit]

/-- The first write of FW_READY makes the firmware ready. -/
theorem tfCtl_ready {s : State} (req : Req) (v : Word) (hw : s.flag Reg.TF_CTL 0 = false) (h : (s.store req Reg.TF_CTL (v ||| 1)).2 = true) :
    s.tfCtl req (v ||| 1) = (s.store req Reg.TF_CTL (v ||| 1)).1.fwIsReady := by
  unfold State.tfCtl
  dsimp only
  rw [storeThen_eq s req _ _ _ h]
  exact if_pos ⟨hw, flag_store_tfCtl req v h⟩

/-- The bound of step E6: the harts are parked, FW_FAIL is set and the failure logged (R278). -/
def State.fwFailed (s : State) : State := (s.parkAll.setFlag Reg.TF_STS 30 true).log 2 0x12 (blkId tfPage) 1

theorem rd_fwFailed (s : State) {a : Nat} (h : ¬ logReg a) (h1 : a ≠ Reg.TF_STS) : s.fwFailed.rd a = s.rd a :=
  (rd_log _ _ _ _ _ h).trans (rd_setFlag_ne s.parkAll _ _ h1)

theorem flag_fwFailed (s : State) : s.fwFailed.flag Reg.TF_STS 30 = true :=
  (flag_congr (rd_log _ _ _ _ _ (not_logReg (by decide) (by decide) (by decide))) 30).trans (flag_setFlag _ _ _ (by decide))

theorem fwTimeout_e6 {s : State} (h : s.emg.e6 = true) (he : s.emg.enables = []) (hk : s.flag Reg.KL_CTL 0 = false) :
    s.fwTimeout = s.fwFailed.emerged := by
  have hemg : s.fwFailed.emg = s.emg := by rw [State.fwFailed, log_emg, setFlag_emg]; rfl
  have hrd : s.fwFailed.rd Reg.KL_CTL = s.rd Reg.KL_CTL := rd_fwFailed s (not_logReg (by decide) (by decide) (by decide)) (by decide)
  have hlast : s.fwTimeout = s.fwFailed.finishEmergence := if_pos h
  rw [hlast, finishEmergence_no_units (by rw [hemg, he]) ((flag_congr hrd 0).trans hk)]

/-! ## The two rows -/

theorem exec_fwReady (req : BitVec 16) (v : Word) {s : State} (hw : s.flag Reg.TF_CTL 0 = false)
    (h : (s.store req Reg.TF_CTL (v ||| 1)).2 = true) :
    ∃ t, exec (.fwReady req v) s = .next t ∧ t.health.aliveOn = true ∧ t.health.aliveAt = s.now ∧
      (s.emg.e6 = false → t.flag Reg.TF_CTL 0 = true ∧ ∀ b, b ≠ Reg.TF_CTL → t.rd b = s.rd b) ∧
      (s.emg.e6 = true → s.emg.enables = [] → s.flag Reg.KL_CTL 0 = false →
        t.ready = true ∧ t.safe = false ∧ t.fld Reg.AO_EMG_STS 7 0 = 7 ∧ t.emg.e6 = false) := by
  refine ⟨_, rfl, ?_⟩
  rw [tfCtl_ready req v hw h]
  have hflag := flag_store_tfCtl req v h
  have hclk : (s.store req Reg.TF_CTL (v ||| 1)).1.clk = s.clk := store_same (f := .clk) s req _ _ h (by decide)
  have hemg : (s.store req Reg.TF_CTL (v ||| 1)).1.emg = s.emg := store_same (f := .emg) s req _ _ h (by decide)
  have hne : ∀ b, b ≠ Reg.TF_CTL → (s.store req Reg.TF_CTL (v ||| 1)).1.rd b = s.rd b := fun b hb => rd_store_ne s req _ hb h
  generalize (s.store req Reg.TF_CTL (v ||| 1)).1 = u at hflag hclk hemg hne ⊢
  rw [taken_health, if_pos (by decide), fwIsReady_health]
  refine ⟨rfl, congrArg (fun c : Clk => c.tb.toNat) hclk, fun h6 => ?_, fun h6 he hk => ?_⟩
  · rw [taken_flag _ _ (by decide), fwIsReady_later (hemg ▸ h6)]
    exact ⟨hflag, fun b hb => (taken_rd _ _ (by decide) b).trans (hne b hb)⟩
  · have hready : u.fwIsReady = u.watched.emerged :=
      fwIsReady_e6 (hemg ▸ h6) (hemg ▸ he) ((flag_congr (hne Reg.KL_CTL (by decide)) 0).trans hk)
    rw [State.ready, State.safe, taken_flag _ _ (by decide), taken_flag _ _ (by decide), taken_fld _ _ (by decide), taken_emg,
      if_pos (by decide), hready, emerged_emg]
    exact ⟨emerged_ready _, emerged_safe _, emerged_step _, rfl⟩

theorem exec_fwReadyTimeout {s : State} (h : s.emg.e6 = true) (he : s.emg.enables = []) (hk : s.flag Reg.KL_CTL 0 = false) :
    ∃ t, exec .fwReadyTimeout s = .next t ∧ t.flag Reg.TF_STS 30 = true ∧ t.harts = [] ∧ t.ready = true ∧ t.safe = false ∧
      t.emg.e6 = false := by
  refine ⟨_, rfl, ?_⟩
  rw [fwTimeout_e6 h he hk, State.ready, State.safe, taken_flag _ _ (by decide), taken_flag _ _ (by decide), taken_flag _ _ (by decide),
    taken_harts, if_pos (by decide), taken_emg, if_pos (by decide), emerged_emg]
  have hsts : s.fwFailed.emerged.flag Reg.TF_STS 30 = true :=
    (flag_congr (rd_emerged _ (not_padReg (by decide) (by decide) (by decide)) (by decide) (by decide)) 30).trans (flag_fwFailed s)
  have hharts : s.fwFailed.emerged.harts = [] := (emerged_same (f := .harts) s.fwFailed (by decide)).trans (log_harts _ _ _ _ _)
  exact ⟨hsts, hharts, emerged_ready _, emerged_safe _, rfl⟩

/-- Settles O27: the store's commands and their end by their outcomes, and the end of step E6 by what ends it. -/
theorem firmwareReadyAndConfigurationStore : Obligations.FirmwareReadyAndConfigurationStore := by
  unfold Obligations.FirmwareReadyAndConfigurationStore
  refine ⟨fun req v s hkey => ⟨fun hb hn hi ha => program_accepted req hkey hb hn hi ha, fun hb hn => program_tooLong req hkey hb hn,
      fun hb => program_busy req hkey hb, forceChrysalis_pending req hkey⟩,
    fun k s => ⟨fun b hp => ⟨programDone_good hp, programDone_failed hp (.inr rfl)⟩, fun hp _ => programDone_failed hp (.inl rfl)⟩,
    fun req v s hw hst => exec_fwReady req v hw hst, fun s h6 he hk => exec_fwReadyTimeout h6 he hk⟩

end Sys2Proof.Machine
end

section
/-! SUPPORT. Locks, event bits and event channels of every page (R59, R63, R64), clause by clause. -/
namespace Sys2Proof.Machine

/-! ## The common registers of a page -/

/-- No common register of a page is a channel's pending bits or the count of dropped messages. -/
theorem not_msgReg_common (p : Nat) {r : Nat} (h : r < 0x40) : ¬ msgReg (p * 0x1000 + r) := not_msgReg (by omega) (by omega)

/-- LOCK of an existing page takes the bits that have a group. -/
theorem lockWrite_of_page (s : State) (req : Req) {p : Nat} (v : Word) {k : PageKind} (h : pageAt p = some k) :
    s.lockWrite req p v = s.wr (p + 0x1C) (s.rd (p + 0x1C) ||| (v &&& BitVec.ofNat 32 (lockBits k))) := by
  unfold State.lockWrite
  rw [h]

/-- A write of register `a` of page `p`, after which the channel is signalled if the masked OR is 1 (R63). -/
def State.wrSignal (s : State) (p a : Nat) (v : Word) : State :=
  if (s.wr a v).evtOr p then (s.wr a v).signal ((s.wr a v).evtChan p) else s.wr a v

theorem rd_wrSignal (s : State) (p a : Nat) (v : Word) {b : Nat} (h : ¬ msgReg b) : (s.wrSignal p a v).rd b = (s.wr a v).rd b := by
  unfold State.wrSignal
  split
  · exact rd_signal _ _ h
  · rfl

theorem evtSts_of_page (s : State) (req : Req) {p : Nat} (v : Word) (h : (pageAt p).isSome = true) :
    s.evtSts req p v = s.wrSignal p (p + 0x10) (s.rd (p + 0x10) &&& ~~~v) :=
  if_neg (ne_true_of_eq_false (Option.isNone_eq_false_iff.mpr h))

theorem evtEn_of_page (s : State) (req : Req) {p : Nat} (v : Word) (h : (pageAt p).isSome = true) :
    s.evtEn req p v = s.wrSignal p (p + 0x14) (v &&& evtMask) :=
  if_neg (ne_true_of_eq_false (Option.isNone_eq_false_iff.mpr h))

theorem evtForce_of_page (s : State) (req : Req) {p : Nat} (v : Word) (h : (pageAt p).isSome = true) :
    s.evtForce req p v = s.raiseMask p (v &&& evtMask) :=
  if_neg (ne_true_of_eq_false (Option.isNone_eq_false_iff.mpr h))

/-! ## The four rows of the common registers -/

theorem exec_lockWrite (req : BitVec 16) (page : BitVec 14) (v : Word) (s : State) {k : PageKind}
    (hk : pageAt (page.toNat * 0x1000) = some k) :
    ∃ t, exec (.lockWrite req page v) s = .next t ∧
      t.rd (page.toNat * 0x1000 + 0x1C) = s.rd (page.toNat * 0x1000 + 0x1C) ||| (v &&& BitVec.ofNat 32 (lockBits k)) ∧
      ∀ a, a ≠ page.toNat * 0x1000 + 0x1C → t.rd a = s.rd a := by
  refine ⟨_, rfl, ?_, fun a ha => ?_⟩
  · rw [taken_rd _ _ (by decide), lockWrite_of_page s req v hk, rd_wr_same]
  · rw [taken_rd _ _ (by decide), lockWrite_of_page s req v hk, rd_wr_ne _ _ ha]

/-- `t` holds x in register b, and the other registers that a signal leaves alone as `s` holds them. -/
def State.onlyWrites (s t : State) (b : Nat) (x : Word) : Prop :=
  t.rd b = x ∧ ∀ a, a ≠ b → (a < 0x6060 ∨ 0x6080 ≤ a) → a ≠ Reg.HP_CNT_VEC_DROP → t.rd a = s.rd a

theorem onlyWrites_taken {s u : State} {w : List Fld} {b : Nat} {x : Word} (hw : .regs ∈ w) (hb : u.rd b = x)
    (ha : ∀ a, a ≠ b → ¬ msgReg a → u.rd a = s.rd a) : s.onlyWrites (s.taken u w) b x :=
  ⟨(taken_rd _ _ hw b).trans hb, fun a hab hp hd => (taken_rd _ _ hw a).trans (ha a hab (not_msgReg hp hd))⟩

/-- A write that may be followed by a signal. -/
theorem onlyWrites_wrSignal (s : State) (p : Nat) {a : Nat} (v : Word) {w : List Fld} (hw : .regs ∈ w) (h : ¬ msgReg a) :
    s.onlyWrites (s.taken (s.wrSignal p a v) w) a v :=
  onlyWrites_taken hw ((rd_wrSignal s p a v h).trans (rd_wr_same s a v)) (fun _ hb hm => (rd_wrSignal s p a v hm).trans (rd_wr_ne s v hb))

theorem exec_evtStsWrite (req : BitVec 16) (page : BitVec 14) (v : Word) (s : State)
    (hk : (pageAt (page.toNat * 0x1000)).isSome = true) :
    ∃ t, exec (.evtStsWrite req page v) s = .next t ∧ s.onlyWrites t (page.toNat * 0x1000 + 0x10) (s.rd (page.toNat * 0x1000 + 0x10) &&& ~~~v) := by
  refine ⟨_, rfl, ?_⟩
  rw [evtSts_of_page s req v hk]
  exact onlyWrites_wrSignal s _ _ (by decide) (not_msgReg_common _ (by decide))

theorem exec_evtEnWrite (req : BitVec 16) (page : BitVec 14) (v : Word) (s : State)
    (hk : (pageAt (page.toNat * 0x1000)).isSome = true) :
    ∃ t, exec (.evtEnWrite req page v) s = .next t ∧ s.onlyWrites t (page.toNat * 0x1000 + 0x14) (v &&& evtMask) := by
  refine ⟨_, rfl, ?_⟩
  rw [evtEn_of_page s req v hk]
  exact onlyWrites_wrSignal s _ _ (by decide) (not_msgReg_common _ (by decide))

theorem exec_evtForce (req : BitVec 16) (page : BitVec 14) (v : Word) (s : State)
    (hk : (pageAt (page.toNat * 0x1000)).isSome = true) :
    ∃ t, exec (.evtForce req page v) s = .next t ∧ s.onlyWrites t (page.toNat * 0x1000 + 0x10) (s.rd (page.toNat * 0x1000 + 0x10) ||| (v &&& evtMask)) := by
  refine ⟨_, rfl, ?_⟩
  rw [evtForce_of_page s req v hk]
  exact onlyWrites_taken (by decide) (rd_raiseMask_sts s _ _ (not_msgReg_common _ (by decide))) (fun _ ha hm => rd_raiseMask s _ _ hm ha)

/-! ## Event channels (R64) -/

/-- Channel c outside its holdoff. -/
def State.released (s : State) (c : Nat) : State := { s with holding := s.holding.filter (· ≠ c) }

theorem released_not_holding (s : State) (c : Nat) : (s.released c).holding.contains c = false := by
  simp [State.released]

theorem holdoffEnd_held {s : State} {c : Nat} (h : s.holding.contains c = true) : s.holdoffEnd c = (s.released c).deliver c := if_pos h

/-- A channel with no signal pending delivers nothing. -/
theorem deliver_not_pending {s : State} {c : Nat} (h : s.chanPend c = false) : s.deliver c = s := if_pos (.inl h)

/-- Delivering to the warden clears the pending bit. -/
theorem chanPend_deliver_warden {s : State} {c : Nat} (hp : s.chanPend c = true) (hk : bits (s.chanCfg c) 31 30 = 3)
    (hh : s.holding.contains c = false) : (s.deliver c).chanPend c = false := by
  have h32 : c % 32 < 32 := Nat.mod_lt _ (by decide)
  rw [State.chanPend, State.flag, (deliver_warden s c hp hk hh).2, putBits_bit _ _ h32 (Nat.le_refl _) _ h32]
  simp

theorem exec_holdoffExpiry_quiet (c : Fin 256) {s : State} (hh : s.holding.contains c.val = true) (hp : s.chanPend c = false) :
    ∃ t, exec (.holdoffExpiry c) s = .next t ∧ t.holding.contains c.val = false ∧ t.out = s.out := by
  refine ⟨_, rfl, ?_⟩
  rw [taken_holding, taken_out, if_pos (by decide), if_pos (by decide), holdoffEnd_held hh,
    deliver_not_pending (s := s.released c) hp]
  exact ⟨released_not_holding s c, rfl⟩

theorem exec_holdoffExpiry_warden (c : Fin 256) {s : State} (hh : s.holding.contains c.val = true) (hp : s.chanPend c = true)
    (hk : bits (s.chanCfg c) 31 30 = 3) :
    ∃ t, exec (.holdoffExpiry c) s = .next t ∧ t.out = .warden c.val :: s.out ∧ t.chanPend c = false := by
  have hn := released_not_holding s c
  refine ⟨_, rfl, ?_⟩
  rw [State.chanPend, taken_flag _ _ (by decide), taken_out, if_pos (by decide), holdoffEnd_held hh]
  exact ⟨(deliver_warden (s.released c) c hp hk hn).1, chanPend_deliver_warden (s := s.released c) hp hk hn⟩

/-- A delivery that follows the write of a channel's target leaves the target. -/
theorem rd_chanCfgWrite (s : State) (v : Word) :
    (s.chanCfgWrite v).rd (bank (s.fld Reg.EVT_CHAN_SEL 7 0) Reg.EVT_CHAN_CFG) = v &&& 0xFFF7FFFF := by
  have hsel : s.fld Reg.EVT_CHAN_SEL 7 0 < 256 := nbits_lt _ 7 0
  have hbank : ¬ msgReg (bank (s.fld Reg.EVT_CHAN_SEL 7 0) Reg.EVT_CHAN_CFG) := not_msgReg (by unfold bank; omega) (by unfold bank; omega)
  exact (rd_deliver _ hsel hbank).trans (rd_wr_same _ _ _)

/-- Settles O15: each row by the one write it makes, since a signal that follows changes only what `msgReg` names, and a delivery to the
warden by `deliver_warden`. -/
theorem eventAndLockRegisters : Obligations.EventAndLockRegisters := by
  unfold Obligations.EventAndLockRegisters
  refine ⟨fun req page v s k hk => exec_lockWrite req page v s hk,
    fun req page v s hk => ⟨exec_evtStsWrite req page v s hk, exec_evtEnWrite req page v s hk, exec_evtForce req page v s hk⟩,
    fun c s hh => ⟨exec_holdoffExpiry_quiet c hh, exec_holdoffExpiry_warden c hh⟩, fun v s => ⟨_, rfl, ?_⟩⟩
  rw [taken_rd _ _ (by decide), rd_chanCfgWrite]

end Sys2Proof.Machine
end

section
/-! SUPPORT. Arming, taking, cancelling and copying a snapshot (R69, R70, R72, R141), clause by clause. -/
namespace Sys2Proof.Machine

/-! ## Arming (R69) -/

/-- The instant that a write of `v` to SNAP_AT_HI stages. -/
def State.snapInstant (s : State) (v : Word) : Nat := (s.rd Reg.SNAP_AT_LO).toNat + v.toNat * 2 ^ 32

theorem snapInstant_wr (s : State) (v : Word) : (s.wr Reg.SNAP_AT_HI v).snapInstant v = s.snapInstant v := by
  unfold State.snapInstant
  rw [rd_wr_ne _ _ (by decide)]

/-- SNAP_AT_HI is stored, and then the instant is refused or armed. -/
theorem snapArm_eq (s : State) (v : Word) :
    s.snapArm v = if s.snapAt.isSome ∨ s.snapInstant v < s.now + 2000 then (s.wr Reg.SNAP_AT_HI v).setFlag Reg.SNAP_STS 30 true
      else ({ s.wr Reg.SNAP_AT_HI v with snapAt := some (BitVec.ofNat 64 (s.snapInstant v)) } : State).wr Reg.SNAP_STS 0x80000000 := by
  have hi : ((s.wr Reg.SNAP_AT_HI v).rd Reg.SNAP_AT_LO).toNat + v.toNat * 2 ^ 32 = s.snapInstant v := snapInstant_wr s v
  unfold State.snapArm
  dsimp only
  rw [hi]
  rfl

theorem snapArm_arms {s : State} {v : Word} (hn : s.snapAt = none) (hl : s.now + 2000 ≤ s.snapInstant v) :
    s.snapArm v = ({ s.wr Reg.SNAP_AT_HI v with snapAt := some (BitVec.ofNat 64 (s.snapInstant v)) } : State).wr Reg.SNAP_STS 0x80000000 := by
  rw [snapArm_eq, if_neg]
  rw [hn, not_or]
  exact ⟨Bool.false_ne_true, Nat.not_lt.mpr hl⟩

theorem snapArm_refuses {s : State} {v : Word} (h : s.snapAt.isSome = true ∨ s.snapInstant v < s.now + 2000) :
    s.snapArm v = (s.wr Reg.SNAP_AT_HI v).setFlag Reg.SNAP_STS 30 true := by
  rw [snapArm_eq, if_pos h]

theorem exec_snapArm_arms {s : State} {v : Word} (hn : s.snapAt = none) (hl : s.now + 2000 ≤ s.snapInstant v) :
    ∃ t, exec (.snapArm v) s = .next t ∧ t.snapAt = some (BitVec.ofNat 64 (s.snapInstant v)) ∧
      t.rd Reg.SNAP_STS = 0x80000000 ∧ t.rd Reg.SNAP_AT_HI = v := by
  refine ⟨_, rfl, ?_⟩
  rw [taken_snapAt, if_pos (by decide), taken_rd _ _ (by decide), taken_rd _ _ (by decide), snapArm_arms hn hl]
  exact ⟨rfl, rd_wr_same _ _ _, (rd_wr_ne _ _ (by decide)).trans (rd_wr_same s _ _)⟩

theorem exec_snapArm_refuses {s : State} {v : Word} (h : s.snapAt.isSome = true ∨ s.snapInstant v < s.now + 2000) :
    ∃ t, exec (.snapArm v) s = .next t ∧ t.snapAt = s.snapAt ∧ t.flag Reg.SNAP_STS 30 = true ∧ t.rd Reg.SNAP_AT_HI = v := by
  refine ⟨_, rfl, ?_⟩
  rw [taken_snapAt, if_pos (by decide), taken_flag _ _ (by decide), taken_rd _ _ (by decide), snapArm_refuses h]
  exact ⟨(setFlag_snapAt _ _ _ _).trans (wr_snapAt _ _ _), flag_setFlag _ _ _ (by decide), (rd_setFlag_ne _ _ _ (by decide)).trans (rd_wr_same _ _ _)⟩

/-! ## Taking (R70, R141) -/

/-- The counters latched at instant i, and the instant armed next. -/
def State.latched (s : State) (i : DWord) : State :=
  { s.commitRegs [Reg.SNAP_CTL] with
    shadow := s.regs.filter (fun e => isCounter e.1),
    snapAt := if s.fld Reg.SNAP_CTL 19 0 = 0 then none else some (i + BitVec.ofNat 64 (s.fld Reg.SNAP_CTL 19 0 * 1000)) }

/-- SNAP_GEN counts the snapshot and SNAP_LAST shows when it was taken. -/
def State.snapStamped (s : State) : State :=
  ((s.wr 0x6020 (s.rd 0x6020 + 1)).wr Reg.SNAP_LAST_LO (s.clk.tb.setWidth 32)).wr Reg.SNAP_LAST_HI ((s.clk.tb >>> 32).setWidth 32)

theorem rd_snapStamped_lo (s : State) : s.snapStamped.rd Reg.SNAP_LAST_LO = s.clk.tb.setWidth 32 :=
  (rd_wr_ne _ _ (by decide)).trans (rd_wr_same _ _ _)

theorem snapTake_due {s : State} {i : DWord} (h : s.snapAt = some i) (hd : i.toNat ≤ s.now) :
    s.snapTake = ((s.latched i).snapStamped.setFlag Reg.SNAP_STS 31 (decide (s.fld Reg.SNAP_CTL 19 0 ≠ 0))).raise 0x6000 0 := by
  unfold State.snapTake
  rw [h]
  exact if_pos hd

theorem snapTake_shadow {s : State} {i : DWord} (h : s.snapAt = some i) (hd : i.toNat ≤ s.now) :
    s.snapTake.shadow = s.regs.filter (fun e => isCounter e.1) := by
  rw [snapTake_due h hd, raise_shadow, setFlag_shadow]
  rfl

theorem snapTake_last {s : State} {i : DWord} (h : s.snapAt = some i) (hd : i.toNat ≤ s.now) :
    s.snapTake.rd Reg.SNAP_LAST_LO = s.clk.tb.setWidth 32 := by
  rw [snapTake_due h hd, rd_raise _ _ _ (not_msgReg (by decide) (by decide)) (by decide), rd_setFlag_ne _ _ _ (by decide)]
  exact rd_snapStamped_lo (s.latched i)

theorem snapTake_once {s : State} {i : DWord} (h : s.snapAt = some i) (hd : i.toNat ≤ s.now) (hp : s.fld Reg.SNAP_CTL 19 0 = 0) :
    s.snapTake.snapAt = none := by
  rw [snapTake_due h hd, raise_snapAt, setFlag_snapAt]
  exact if_pos hp

/-- The contexts' counters are latched with the others, for their copy. -/
theorem snapRow_due {s : State} {i : DWord} (h : s.snapAt = some i) (hd : i.toNat ≤ s.now) :
    s.snapRow = { s.snapTake with
      ctxs := s.snapTake.ctxs.map (fun (e : Nat × Ctx) => (e.1, { e.2 with latch := e.2.cnt })),
      ctxSnap := some ((s.snapTake.rd 0x6020).toNat, i.toNat) } := by
  unfold State.snapRow
  rw [h]
  exact if_pos hd

theorem exec_snapTake {s : State} {i : DWord} (h : s.snapAt = some i) (hd : i.toNat ≤ s.now) :
    ∃ t, exec .snapTake s = .next t ∧ t.shadow = s.regs.filter (fun e => isCounter e.1) ∧
      t.rd Reg.SNAP_LAST_LO = s.clk.tb.setWidth 32 ∧ (s.fld Reg.SNAP_CTL 19 0 = 0 → t.snapAt = none) ∧ t.ctxSnap.isSome = true := by
  refine ⟨_, rfl, ?_⟩
  rw [taken_shadow, taken_snapAt, taken_ctxSnap, if_pos (by decide), if_pos (by decide), if_pos (by decide), taken_rd _ _ (by decide),
    snapRow_due h hd]
  exact ⟨snapTake_shadow h hd, snapTake_last h hd, snapTake_once h hd, rfl⟩

/-! ## Cancelling and copying (R72, R141) -/

/-- SNAP_CTL: PERIOD_US is stored, CANCEL is not. -/
def snapCtlDef : RegDef := { off := 0x48, rw := 0xfffff }

theorem defAt_snapCtl : defAt Reg.SNAP_CTL = some snapCtlDef := rfl

theorem snapCtl_cancel (s : State) {v : Word} (h : bit v 31 = true) :
    s.snapCtl v = ({ s.wrHeld Reg.SNAP_CTL (s.stored Reg.SNAP_CTL snapCtlDef v) with snapAt := none } : State).setFlag Reg.SNAP_STS 31 false := by
  unfold State.snapCtl
  rw [defAt_snapCtl]
  exact if_pos h

/-- The row writes with CANCEL set. -/
theorem bit_cancel (v : Word) : bit (v ||| 0x80000000) 31 = true := by
  rw [bit_or, show bit (0x80000000 : Word) 31 = true from rfl, Bool.or_true]

theorem exec_snapCancel (v : Word) (s : State) : ∃ t, exec (.snapCancel v) s = .next t ∧ t.snapAt = none ∧ t.flag Reg.SNAP_STS 31 = false := by
  refine ⟨_, rfl, ?_⟩
  rw [taken_snapAt, if_pos (by decide), taken_flag _ _ (by decide), snapCtl_cancel s (bit_cancel v)]
  exact ⟨rfl, flag_setFlag _ _ _ (by decide)⟩

/-- After CNT_COPIED no copy waits, whether one was to be made or not. -/
theorem cntCopied_ctxSnap (s : State) : s.cntCopied.ctxSnap = none := by
  unfold State.cntCopied
  split
  next h => exact h
  next => exact raise_ctxSnap _ _ _

/-- Settles O16: arming by the two outcomes of `snapArm`, the latch by what `snapTake` does at a due instant, and the copy by its end. -/
theorem snapshotsArmTakeAndCancel : Obligations.SnapshotsArmTakeAndCancel := by
  unfold Obligations.SnapshotsArmTakeAndCancel
  refine ⟨fun v s hn hl => exec_snapArm_arms hn hl, fun v s h => exec_snapArm_refuses h, fun s i h hd => exec_snapTake h hd,
    fun v s => exec_snapCancel v s, fun s => ⟨_, rfl, ?_⟩⟩
  rw [taken_ctxSnap, if_pos (by decide), cntCopied_ctxSnap]

end Sys2Proof.Machine
end

section
/-! SUPPORT. What the operations of a line-sensor port leave of its registers: its events, its gate in the safe state and its link
state (R74, R77, R80, R426). -/
namespace Sys2Proof.Machine

/-! ## The registers of a port

A register of port `p` stands at an offset `r + 0x4000 * p`. -/

theorem portReg_ne {r r' : Nat} (p : Nat) (h : r ≠ r') : r + 0x4000 * p ≠ r' + 0x4000 * p := by omega

theorem not_msgReg_port (p : Fin 4) {r : Nat} (h : 0x10000 ≤ r ∧ r < 0x20000) : ¬ msgReg (r + 0x4000 * p) :=
  not_msgReg (by omega) (by omega)

theorem ne_linkEvt (p : Nat) {r : Nat} (h : r ≠ 0x10010) : r + 0x4000 * p ≠ linkPage p + 0x10 := by unfold linkPage; omega

theorem ne_condEvt (p : Nat) {r : Nat} (h : r ≠ 0x11010) : r + 0x4000 * p ≠ condPage p + 0x10 := by unfold condPage; omega

theorem ne_frameEvt (p : Nat) {r : Nat} (h : r ≠ 0x13010) : r + 0x4000 * p ≠ framePage p + 0x10 := by unfold framePage; omega

/-- An event of the link page leaves the other registers of the port. -/
theorem rd_raise_link (s : State) (p : Fin 4) (b : Nat) {r : Nat} (h : (0x10000 ≤ r ∧ r < 0x20000) ∧ r ≠ 0x10010) :
    (s.raise (linkPage p) b).rd (r + 0x4000 * p) = s.rd (r + 0x4000 * p) :=
  rd_raise s _ b (not_msgReg_port p h.1) (ne_linkEvt p h.2)

/-- An event of the conditioning page leaves the other registers of the port. -/
theorem rd_raise_cond (s : State) (p : Fin 4) (b : Nat) {r : Nat} (h : (0x10000 ≤ r ∧ r < 0x20000) ∧ r ≠ 0x11010) :
    (s.raise (condPage p) b).rd (r + 0x4000 * p) = s.rd (r + 0x4000 * p) :=
  rd_raise s _ b (not_msgReg_port p h.1) (ne_condEvt p h.2)

/-- A raised event of the link page stands in its EVT_STS. -/
theorem flag_raise_link (s : State) (p : Fin 4) {b : Nat} (hb : b < 32) : (s.raise (linkPage p) b).flag (linkPage p + 0x10) b = true :=
  flag_raise_self s _ b hb (not_msgReg (by unfold linkPage; omega) (by unfold linkPage; omega))

theorem flag_raise_cond (s : State) (p : Fin 4) {b : Nat} (hb : b < 32) : (s.raise (condPage p) b).flag (condPage p + 0x10) b = true :=
  flag_raise_self s _ b hb (not_msgReg (by unfold condPage; omega) (by unfold condPage; omega))

/-! ## The control lane (R426) -/

theorem safe_congr {s t : State} (h : t.rd Reg.HM_STS = s.rd Reg.HM_STS) : t.safe = s.safe := flag_congr h 31

theorem portOn_congr {s t : State} {p : Nat} (h : t.rd (Reg.PORT_CTL p) = s.rd (Reg.PORT_CTL p)) : t.portOn p = s.portOn p :=
  flag_congr h 0

/-- Outside the safe state a block goes out. -/
theorem islOut_out {s : State} (o : Out) (h : s.safe = false) : (s.islOut o).out = o :: s.out := by
  unfold State.islOut
  rw [if_neg (by simp [h])]
  rfl

theorem rd_islOut (s : State) (o : Out) (a : Nat) : (s.islOut o).rd a = s.rd a := rd_congr (islOut_same (f := .regs) s o (by decide)) a

theorem port_islOut (s : State) (o : Out) (p : Nat) : (s.islOut o).port p = s.port p :=
  port_congr (islOut_same (f := .ports) s o (by decide)) p

end Sys2Proof.Machine
end

section
/-! SUPPORT. The events inside a line, the blocks that come in, and the register channel (R74, R75, R81 to R84), clause by clause. -/
namespace Sys2Proof.Machine

/-! ## Events of the line in progress (R82 to R84) -/

/-- A strobe register with one strobe set: that strobe has the level, the others below 32 keep theirs. -/
theorem testBit_strobe (x c : Nat) (on : Bool) {i : Nat} (hi : i < 32) (hc : c < 32) :
    (nbits x 31 (c + 1) * 2 ^ (c + 1) + ofBool on * 2 ^ c + x % 2 ^ c).testBit i = if i = c then on else x.testBit i := by
  have hlow : x % 2 ^ c < 2 ^ c := Nat.mod_lt _ (Nat.two_pow_pos _)
  have hon : ofBool on ≤ 1 := by cases on <;> decide
  have hmid : 2 ^ c * ofBool on + x % 2 ^ c < 2 ^ (c + 1) := by
    have := Nat.mul_le_mul_left (2 ^ c) hon
    rw [Nat.pow_succ]; omega
  have e : nbits x 31 (c + 1) * 2 ^ (c + 1) + ofBool on * 2 ^ c + x % 2 ^ c =
      2 ^ (c + 1) * nbits x 31 (c + 1) + (2 ^ c * ofBool on + x % 2 ^ c) := by ring
  rw [e, Nat.testBit_two_pow_mul_add _ hmid, Nat.testBit_two_pow_mul_add _ hlow, Nat.testBit_mod_two_pow, nbits_testBit]
  obtain h | rfl | h := Nat.lt_trichotomy i c
  · rw [if_pos (by omega), if_pos h, if_neg (by omega)]; simp [h]
  · rw [if_pos (by omega), if_neg (by omega), if_pos rfl, Nat.sub_self]
    cases on <;> rfl
  · have h1 : c + 1 + (i - (c + 1)) = i := by omega
    have h2 : i - (c + 1) < 31 + 1 - (c + 1) := by omega
    rw [if_neg (by omega), if_neg (by omega), h1, decide_eq_true h2, Bool.true_and]

section
variable {p : Fin 4} {c : Fin 3} {s : State} (hon : s.portOn p = true) (hl : 0 < (s.port p).lines)
include hon hl

theorem expEvent_out {kind : Nat} (hc : c.val < s.colours p) (hs : s.safe = false) :
    (s.expEvent p kind c).out = .islEvent p (s.curLine p) kind c :: s.out := by
  unfold State.expEvent
  rw [if_pos ⟨hon, hc, hl⟩, islOut_out _ hs]

theorem port_strobeTo (on : Bool) (hc : c.val < s.colours p) : ((s.strobeTo p c on).port p).strobe =
    nbits (s.port p).strobe 31 (c + 1) * 2 ^ (c.val + 1) + ofBool on * 2 ^ c.val + (s.port p).strobe % 2 ^ c.val := by
  unfold State.strobeTo
  rw [if_pos ⟨hon, hc, hl⟩, port_updPort]

/-- One strobe goes to the level named, the others keep theirs. -/
theorem strobe_taken (on : Bool) (hc : c.val < s.colours p) :
    ((s.taken (s.strobeTo p c on) [.ports]).port p).strobe.testBit c = on ∧
    ∀ i, i < 3 → i ≠ c.val → ((s.taken (s.strobeTo p c on) [.ports]).port p).strobe.testBit i = (s.port p).strobe.testBit i := by
  rw [taken_port _ _ (by decide), port_strobeTo hon hl on hc]
  refine ⟨?_, fun i hi hne => ?_⟩
  · rw [testBit_strobe _ _ _ (by omega) (by omega), if_pos rfl]
  · rw [testBit_strobe _ _ _ (by omega) (by omega), if_neg hne]

theorem step_taken (b : Bool) (hst : (s.port p).active.stepEn = true) :
    (s.taken (s.stepTo p b) [.ports]).port p = { s.port p with step := b } := by
  rw [taken_port _ _ (by decide)]
  unfold State.stepTo
  rw [if_pos ⟨hon, hst, hl⟩, port_updPort]

end

/-! ## Blocks that come in (R74, R75) -/

theorem rx_colourStart {s : State} {p : Nat} {l : RxLine} (c pixels : Nat) (h : (s.port p).rx = some l) :
    ((s.colourStart p c pixels).port p).rx = some { l with
      colour := c, colours := l.colours + 1, count := [],
      fmtOk := l.fmtOk && decide (c = l.colours) && decide (pixels = s.pixels p) } := by
  unfold State.colourStart
  rw [port_updPort, h]

/-- The line being received with one more word on a lane of `lanes`. -/
def RxLine.withWord (r : RxLine) (lanes lane : Nat) (w : DWord) : RxLine :=
  { r with
    words := r.words.set 0 (65536 * r.colour + lane + lanes * r.count.get 0 lane) w
    count := r.count.set 0 lane (r.count.get 0 lane + 1)
    crc := r.crc.insert lane ((toLe 8 w.toNat).foldl (crcStep 0x82F63B78) (r.crc.get 0xFFFFFFFF lane)) }

theorem rx_dataBlock {s : State} {p lane : Nat} {l : RxLine} (w : DWord) (h : (s.port p).rx = some l) (hl : lane < s.laneCount p) :
    ((s.dataBlock p lane w).port p).rx = some (l.withWord (s.laneCount p) lane w) := by
  unfold State.dataBlock
  dsimp only
  rw [if_pos hl, port_updPort, h]
  rfl

theorem port_dataBlock_ne (s : State) {p q : Nat} (lane : Nat) (w : DWord) (h : q ≠ p) : (s.dataBlock p lane w).port q = s.port q := by
  unfold State.dataBlock
  dsimp only
  split
  · exact port_updPort_ne s _ h
  · rfl

/-- Settles O17: each event by the branch of its operation that an enabled port takes, a strobe bit by bit, and a data block by the word
it adds. -/
theorem portLineEvents : Obligations.PortLineEvents := by
  unfold Obligations.PortLineEvents
  refine ⟨fun p c s hon hc hl => ⟨fun hs => ⟨⟨_, rfl, ?_⟩, _, rfl, ?_⟩, ⟨_, rfl, strobe_taken hon hl true hc⟩,
      _, rfl, strobe_taken hon hl false hc⟩,
    fun p s hon hst hl => ⟨⟨_, rfl, step_taken hon hl true hst⟩, _, rfl, step_taken hon hl false hst⟩,
    fun p c pixels l s h => ⟨_, rfl, ?_⟩, fun p lane w l s h hl => ⟨_, l.withWord (s.laneCount p) lane w, rfl, ?_, ?_, ?_, fun q hq => ?_⟩,
    fun p s => ⟨_, rfl, ?_, fun a ha => ?_, fun q => rfl⟩⟩
  · rw [taken_out, if_pos (by decide), expEvent_out hon hl hc hs]
  · rw [taken_out, if_pos (by decide), expEvent_out hon hl hc hs]
  · rw [taken_port _ _ (by decide), rx_colourStart _ _ h]
  · rw [taken_port _ _ (by decide), rx_dataBlock w h hl]
  · exact Tab.get_set_same 0 l.words _ w
  · exact Tab.get_set_same 0 l.count lane (l.count.get 0 lane + 1)
  · rw [taken_port _ _ (by decide), port_dataBlock_ne s lane w hq]
  · rw [taken_rd _ _ (by decide), rd_bump_same]
  · rw [taken_rd _ _ (by decide), rd_bump_ne _ ha]

/-! ## The register channel (R81) -/

/-- A GO with a transaction open does nothing. -/
theorem regGo_busy {s : State} {p : Nat} (b : Bool) (h : s.flag (Reg.REG_STS p) 31 = true) : s.regGo p b = s := if_pos h

/-- The transaction that a GO opens, under a tag, before its block goes out. -/
def State.regOpened (s : State) (p : Nat) (isRead : Bool) : State :=
  (({ s with free := s.free + 1 } : State).updPort p (fun x =>
    { x with regTag := (Config.freeByte s.free).toNat, regRead := isRead })).setFlag (Reg.REG_STS p) 31 true

/-- The block of a transaction: its tag, the address and the data. -/
def State.regBlock (s : State) (p : Nat) (isRead : Bool) : Bytes :=
  toLe 1 (Config.freeByte s.free).toNat ++ toLe 2 (s.fld (Reg.REG_ADDR p) 15 0) ++
    (if isRead then zeros 4 else toLe 4 (s.rd (Reg.REG_WDATA p)).toNat)

theorem rd_regOpened (s : State) (p : Nat) (isRead : Bool) {a : Nat} (h : a ≠ Reg.REG_STS p) : (s.regOpened p isRead).rd a = s.rd a :=
  rd_setFlag_ne _ _ _ h

theorem port_regOpened (s : State) (p : Nat) (isRead : Bool) :
    (s.regOpened p isRead).port p = { s.port p with regTag := (Config.freeByte s.free).toNat, regRead := isRead } := by
  unfold State.regOpened
  rw [port_setFlag, port_updPort]
  rfl

/-- On an enabled port a GO with no transaction open opens one and sends its block. -/
theorem regGo_opens {s : State} {p : Fin 4} (isRead : Bool) (hb : s.flag (Reg.REG_STS p) 31 = false) (hon : s.portOn p = true) :
    s.regGo p isRead = (s.regOpened p isRead).islOut (.isl p (if isRead then 0xAA else 0x99) (s.regBlock p isRead)) := by
  have haddr : (s.regOpened p isRead).fld (Reg.REG_ADDR p) 15 0 = s.fld (Reg.REG_ADDR p) 15 0 :=
    fld_congr (rd_regOpened s p isRead (portReg_ne p (by decide))) 15 0
  have hdata : (s.regOpened p isRead).rd (Reg.REG_WDATA p) = s.rd (Reg.REG_WDATA p) :=
    rd_regOpened s p isRead (portReg_ne p (by decide))
  have hport : (s.regOpened p isRead).portOn p = true :=
    (portOn_congr (rd_regOpened s p isRead (portReg_ne p (by decide)))).trans hon
  unfold State.regBlock
  rw [← haddr, ← hdata]
  exact (if_neg (by simp [hb])).trans (if_pos hport)

/-- What the GO of an enabled port outside the safe state leaves: BUSY, the transaction and the block sent. -/
theorem regGo_taken {s : State} {p : Fin 4} (isRead : Bool) (hb : s.flag (Reg.REG_STS p) 31 = false) (hon : s.portOn p = true)
    (hs : s.safe = false) :
    let t := s.taken (s.regGo p isRead) [.free, .regs, .out, .ports]
    t.flag (Reg.REG_STS p) 31 = true ∧ (t.port p).regRead = isRead ∧ (t.port p).regTag = (Config.freeByte s.free).toNat ∧
      t.out = .isl p (if isRead then 0xAA else 0x99) (s.regBlock p isRead) :: s.out := by
  have hsafe : (s.regOpened p isRead).safe = false := (safe_congr (rd_regOpened s p isRead (by unfold Reg.HM_STS Reg.REG_STS; omega))).trans hs
  dsimp only
  rw [taken_flag _ _ (by decide), taken_port _ _ (by decide), taken_out, if_pos (by decide), regGo_opens isRead hb hon, islOut_out _ hsafe,
    flag_congr (rd_islOut _ _ _), port_islOut, port_regOpened]
  exact ⟨flag_setFlag _ _ _ (by decide), rfl, rfl, rfl⟩

/-- The end of a transaction: BUSY cleared, the RESULT, REG_DONE raised, and the other registers as they were. -/
theorem regEnd_regs (s : State) (p : Fin 4) {k : Nat} (hk : k < 4) :
    (s.regEnd p k).flag (Reg.REG_STS p) 31 = false ∧ (s.regEnd p k).fld (Reg.REG_STS p) 1 0 = k ∧
      (s.regEnd p k).fld (Reg.REG_STS p) 15 8 = s.fld (Reg.REG_STS p) 15 8 ∧
      (s.regEnd p k).rd (Reg.REG_RDATA p) = s.rd (Reg.REG_RDATA p) ∧ (s.regEnd p k).flag (linkPage p + 0x10) 3 = true := by
  have hsts : (s.regEnd p k).rd (Reg.REG_STS p) = ((s.setFlag (Reg.REG_STS p) 31 false).setFld (Reg.REG_STS p) 1 0 k).rd (Reg.REG_STS p) :=
    rd_raise_link _ p 3 (by decide)
  refine ⟨?_, ?_, ?_, ?_, flag_raise_link _ p (by decide)⟩
  · rw [flag_congr hsts, flag_setFld_ne _ _ _ (by decide) (by decide) (by decide) (by decide), flag_setFlag _ _ _ (by decide)]
  · rw [fld_congr hsts, fld_setFld _ _ _ (by decide) (by decide)]
    exact Nat.mod_eq_of_lt hk
  · rw [fld_congr hsts, fld_setFld_ne _ _ _ (by decide) (by decide) (by decide) (by decide),
      fld_setFlag_ne _ _ _ (by decide) (by decide) (by decide)]
  · have hne : Reg.REG_RDATA p ≠ Reg.REG_STS p := portReg_ne p (by decide)
    exact (rd_raise_link _ p 3 (by decide)).trans ((rd_setFld_ne _ _ _ _ hne).trans (rd_setFlag_ne _ _ _ hne))

/-- The state of a reply with the open tag before its transaction ends: the sensor's code, and what was read. -/
def State.regAnswered (s : State) (p : Nat) (status : Byte) (data : Word) : State :=
  if (s.port p).regRead then (s.setFld (Reg.REG_STS p) 15 8 status.toNat).wr (Reg.REG_RDATA p) data
  else s.setFld (Reg.REG_STS p) 15 8 status.toNat

theorem regReply_tag {s : State} {p : Nat} {tag : Byte} (status : Byte) (data : Word) (hb : s.flag (Reg.REG_STS p) 31 = true)
    (ht : tag.toNat = (s.port p).regTag) :
    s.regReply p tag status data = (s.regAnswered p status data).regEnd p (if status = 0 then 1 else 2) := if_pos ⟨hb, ht⟩

theorem regReply_other {s : State} {p : Nat} {tag : Byte} (status : Byte) (data : Word) (ht : tag.toNat ≠ (s.port p).regTag) :
    s.regReply p tag status data = s := if_neg (fun h => ht h.2)

theorem regAnswered_regs (s : State) (p : Nat) (status : Byte) (data : Word) :
    (s.regAnswered p status data).fld (Reg.REG_STS p) 15 8 = status.toNat ∧
      (s.regAnswered p status data).rd (Reg.REG_RDATA p) = if (s.port p).regRead then data else s.rd (Reg.REG_RDATA p) := by
  have hcode : (s.setFld (Reg.REG_STS p) 15 8 status.toNat).fld (Reg.REG_STS p) 15 8 = status.toNat := by
    rw [fld_setFld _ _ _ (by decide) (by decide)]
    exact Nat.mod_eq_of_lt status.isLt
  unfold State.regAnswered
  split
  · exact ⟨(fld_congr (rd_wr_ne _ _ (portReg_ne p (by decide))) 15 8).trans hcode, rd_wr_same _ _ _⟩
  · exact ⟨hcode, rd_setFld_ne _ _ _ _ (portReg_ne p (by decide))⟩

theorem regTimeout_busy {s : State} {p : Nat} (h : s.flag (Reg.REG_STS p) 31 = true) : s.regTimeout p = s.regEnd p 3 := if_pos h

/-- Settles O18: a GO by the transaction it opens, a reply and a timeout by the end that both give it. -/
theorem registerChannelTransactions : Obligations.RegisterChannelTransactions := by
  unfold Obligations.RegisterChannelTransactions
  refine ⟨fun p s hb hon hs => ⟨⟨_, rfl, ?_⟩, _, rfl, ?_⟩, fun p s f hb => ⟨⟨_, rfl, ?_⟩, _, rfl, ?_⟩,
    fun p tag status data s hb => ⟨fun ht => ⟨_, rfl, ?_⟩, fun ht => ⟨_, rfl, fun f => ?_⟩⟩, fun p s hb => ⟨_, rfl, ?_⟩⟩
  · obtain ⟨hbusy, hread, htag, hout⟩ := regGo_taken false hb hon hs
    rw [htag]
    exact ⟨hbusy, hread, rfl, hout⟩
  · obtain ⟨hbusy, hread, htag, hout⟩ := regGo_taken true hb hon hs
    rw [htag]
    exact ⟨hbusy, hread, rfl, hout⟩
  · rw [regGo_busy false hb]
    exact taken_self s _ (by decide)
  · rw [regGo_busy true hb]
    exact taken_self s _ (by decide)
  · obtain ⟨hbusy, hres, hcode, hdata, hdone⟩ := regEnd_regs (s.regAnswered p status data) p (k := if status = 0 then 1 else 2) (by split <;> decide)
    obtain ⟨hcode', hdata'⟩ := regAnswered_regs s p status data
    rw [taken_flag _ _ (by decide), taken_fld _ _ (by decide), taken_fld _ _ (by decide), taken_rd _ _ (by decide), taken_flag _ _ (by decide),
      regReply_tag status data hb ht]
    exact ⟨hbusy, hres, hcode.trans hcode', hdata.trans hdata', hdone⟩
  · rw [regReply_other status data ht]
    exact taken_self s _ (by decide)
  · obtain ⟨hbusy, hres, -, hdata, hdone⟩ := regEnd_regs s p (k := 3) (by decide)
    rw [taken_flag _ _ (by decide), taken_fld _ _ (by decide), taken_rd _ _ (by decide), taken_flag _ _ (by decide), regTimeout_busy hb]
    exact ⟨hbusy, hres, hdata, hdone⟩

end Sys2Proof.Machine
end

section
/-! SUPPORT. The link state, the enabling and the disabling of a port, and the item boundary that a disable makes (R66, R67, R77, R80,
R85, R90, R92, R93). -/
namespace Sys2Proof.Machine

/-! ## The link state (R77) -/

/-- The registers that a change of link state may change: PORT_STS, the link page's events and what a signal changes. -/
def linkReg (p a : Nat) : Prop := msgReg a ∨ a = Reg.PORT_STS p ∨ a = linkPage p + 0x10

theorem not_linkReg (p : Fin 4) {r : Nat} (h : (0x10000 ≤ r ∧ r < 0x20000) ∧ r ≠ 0x10010 ∧ r ≠ 0x10048) : ¬ linkReg p (r + 0x4000 * p) := by
  rintro (hm | he | he)
  · exact not_msgReg_port p h.1 hm
  · exact portReg_ne p h.2.2 he
  · exact ne_linkEvt p h.2.1 he

theorem not_linkReg_low (p : Fin 4) {a : Nat} (h : 0x6080 ≤ a ∧ a < 0x10000) : ¬ linkReg p a := by
  rintro (hm | he | he)
  · exact not_msgReg (by omega) (by omega) hm
  · unfold Reg.PORT_STS at he; omega
  · unfold linkPage at he; omega

theorem rd_linkTo (s : State) (p k : Nat) {a : Nat} (h : ¬ linkReg p a) : (s.linkTo p k).rd a = s.rd a := by
  simp only [linkReg, not_or] at h
  obtain ⟨hm, hsts, hevt⟩ := h
  unfold State.linkTo
  dsimp only
  split
  · exact (rd_raise _ _ _ hm hevt).trans (rd_setFld_ne s _ _ _ hsts)
  · split
    · exact (rd_raise _ _ _ hm hevt).trans (rd_setFld_ne s _ _ _ hsts)
    · exact rd_setFld_ne s _ _ _ hsts

theorem linkState_linkTo (s : State) (p : Fin 4) {k : Nat} (hk : k < 4) : (s.linkTo p k).linkState p = k := by
  have hput : (s.setFld (Reg.PORT_STS p) 1 0 k).linkState p = k :=
    (fld_setFld s _ k (by decide) (by decide)).trans (Nat.mod_eq_of_lt hk)
  unfold State.linkTo
  dsimp only
  split
  · exact (fld_congr (rd_raise_link _ p _ (by decide)) 1 0).trans hput
  · split
    · exact (fld_congr (rd_raise_link _ p _ (by decide)) 1 0).trans hput
    · exact hput

/-- A change of link state leaves of the port all but the lines that it marks. -/
theorem port_linkTo (s : State) (p k : Nat) : ∃ l, (s.linkTo p k).port p = { s.port p with linkBad := l } := by
  unfold State.linkTo
  dsimp only
  split
  · exact ⟨_, (port_raise _ _ _ _).trans (port_updPort _ _ _)⟩
  · split
    · exact ⟨_, port_raise _ _ _ _⟩
    · exact ⟨_, rfl⟩

theorem mem_out_linkTo {o : Out} {s : State} (h : o ∈ s.out) (p k : Nat) : o ∈ (s.linkTo p k).out := by
  have hput : o ∈ (s.setFld (Reg.PORT_STS p) 1 0 k).out := by rw [setFld_out]; exact h
  unfold State.linkTo
  dsimp only
  generalize s.setFld (Reg.PORT_STS p) 1 0 k = t at hput ⊢
  split
  · exact mem_out_raise (s := t.updPort p _) hput _ _
  · split
    · exact mem_out_raise hput _ _
    · exact hput

theorem rd_relock (s : State) (p : Nat) {a : Nat} (h : ¬ linkReg p a) : (s.relock p).rd a = s.rd a := by
  unfold State.relock
  dsimp only
  split
  · exact (rd_linkTo _ _ _ h).trans (rd_linkTo _ _ _ h)
  · exact rd_linkTo _ _ _ h

/-- A link that starts anew is LOCKING, or ALIGNING with every lane locked. -/
theorem linkState_relock (s : State) (p : Fin 4) : (s.relock p).linkState p = 1 ∨ (s.relock p).linkState p = 2 := by
  unfold State.relock
  dsimp only
  split
  · exact .inr (linkState_linkTo _ p (by decide))
  · exact .inl (linkState_linkTo _ p (by decide))

theorem port_relock (s : State) (p : Nat) : ∃ l, (s.relock p).port p = { s.port p with linkBad := l } := by
  obtain ⟨l, hl⟩ := port_linkTo s p linkLocking
  unfold State.relock
  dsimp only
  split
  · obtain ⟨m, hm⟩ := port_linkTo (s.linkTo p linkLocking) p linkAligning
    exact ⟨m, by rw [hm, hl]⟩
  · exact ⟨l, hl⟩

theorem mem_out_relock {o : Out} {s : State} (h : o ∈ s.out) (p : Nat) : o ∈ (s.relock p).out := by
  unfold State.relock
  dsimp only
  split
  · exact mem_out_linkTo (mem_out_linkTo h _ _) _ _
  · exact mem_out_linkTo h _ _

theorem rd_islLock (s : State) {a : Nat} (h : a ≠ Reg.CLK_STS) : s.islLock.rd a = s.rd a := rd_setFlag_ne _ _ _ h

/-! ## The staged timing set (R85) -/

/-- The staged set is what LINE_PER to STEP_OFS hold. -/
theorem staged_congr {s t : State} {p : Nat} (h : ∀ r, 0x1004C ≤ r ∧ r < 0x10090 → t.rd (r + 0x4000 * p) = s.rd (r + 0x4000 * p)) :
    t.staged p = s.staged p := by
  have e : ∀ r, 0x1004C ≤ r ∧ r < 0x10090 → ∀ hi lo, t.fld (r + 0x4000 * p) hi lo = s.fld (r + 0x4000 * p) hi lo :=
    fun r hr hi lo => fld_congr (h r hr) hi lo
  have e' : ∀ r, 0x1004C ≤ r ∧ r < 0x10090 → ∀ i, t.flag (r + 0x4000 * p) i = s.flag (r + 0x4000 * p) i :=
    fun r hr i => flag_congr (h r hr) i
  unfold State.staged
  simp (disch := decide) only [e, e']

/-- Whether a set is valid depends on the format alone. -/
theorem timingOk_congr {s t : State} {p : Nat} (h : t.rd (Reg.PORT_FMT p) = s.rd (Reg.PORT_FMT p)) (x : Timing) :
    t.timingOk p x = s.timingOk p x := by
  unfold State.timingOk State.rateOk State.colours State.pixels State.laneCount State.fld
  rw [h]

theorem port_apply {s : State} {p : Nat} (h : s.timingOk p (s.staged p) = true) :
    (s.apply p).port p = { s.port p with nextSet := some (s.staged p), applied := true } := by
  unfold State.apply
  dsimp only
  rw [if_pos h, port_raise, port_setFlag, port_setFld, port_updPort]

theorem rd_apply (s : State) (p : Nat) {a : Nat} (h : ¬ linkReg p a) (h' : a ≠ Reg.TIMING_STS p) : (s.apply p).rd a = s.rd a := by
  simp only [linkReg, not_or] at h
  obtain ⟨hm, hsts, hevt⟩ := h
  unfold State.apply
  dsimp only
  split
  · exact (rd_raise _ _ _ hm hevt).trans ((rd_setFlag_ne _ _ _ hsts).trans (rd_setFld_ne _ _ _ _ h'))
  · exact (rd_raise _ _ _ hm hevt).trans (rd_setFlag_ne _ _ _ hsts)

/-! ## Enabling (R80) -/

/-- A port that is enabled, before its staged set is handed over. -/
def State.enabling (s : State) (p : Nat) : State :=
  (((s.setFlag (Reg.PORT_STS p) 9 false).setFlag (Reg.FRAME_STS p) 30 false).updPort p Port.fresh).wr (Reg.TIMING_STS p) 0

theorem rd_enabling (s : State) (p : Nat) {a : Nat} (h1 : a ≠ Reg.PORT_STS p) (h2 : a ≠ Reg.FRAME_STS p) (h3 : a ≠ Reg.TIMING_STS p) :
    (s.enabling p).rd a = s.rd a := by
  unfold State.enabling
  rw [rd_wr_ne _ _ h3, rd_updPort, rd_setFlag_ne _ _ _ h2, rd_setFlag_ne _ _ _ h1]

theorem staged_enabling (s : State) (p : Nat) : (s.enabling p).staged p = s.staged p :=
  staged_congr fun r hr => rd_enabling s p (portReg_ne p (by omega)) (portReg_ne p (by omega)) (portReg_ne p (by omega))

theorem port_enabling (s : State) (p : Nat) : (s.enabling p).port p = (s.port p).fresh := by
  unfold State.enabling
  rw [port_wr, port_updPort, port_setFlag, port_setFlag]

section
variable {s : State} {p : Fin 4} (hf : s.formatOk p = true) (ht : s.timingOk p (s.staged p) = true) (hs : s.stripeOk p = true)
include hf ht hs

theorem enablePort_valid : s.enablePort p = ((((s.enabling p).apply p).islOut (.isl p 0xB4 (zeros 7))).relock p).islLock := by
  unfold State.enablePort
  dsimp only
  rw [if_neg (by simp [hf]), if_neg (by simp [ht]), if_neg (by simp [hs])]
  rfl

/-- With valid settings an enable hands the staged set over, starts the lines at 0 and the link anew, and keeps PORT_CTL. -/
theorem enablePort_enabled :
    (s.enablePort p).portOn p = s.portOn p ∧ ((s.enablePort p).port p).nextSet = some (s.staged p) ∧ ((s.enablePort p).port p).lines = 0 ∧
      ((s.enablePort p).linkState p = 1 ∨ (s.enablePort p).linkState p = 2) := by
  have hclk : ∀ r : Nat, 0x10000 ≤ r → r + 0x4000 * p.val ≠ Reg.CLK_STS := fun r hr => by unfold Reg.CLK_STS; omega
  have hctl : (s.enablePort p).rd (Reg.PORT_CTL p) = s.rd (Reg.PORT_CTL p) := by
    rw [enablePort_valid hf ht hs, rd_islLock _ (hclk _ (by decide)), rd_relock _ _ (not_linkReg p (by decide)), rd_islOut,
      rd_apply _ _ (not_linkReg p (by decide)) (portReg_ne p (by decide)),
      rd_enabling _ _ (portReg_ne p (by decide)) (portReg_ne p (by decide)) (portReg_ne p (by decide))]
  have hfmt : (s.enabling p).rd (Reg.PORT_FMT p) = s.rd (Reg.PORT_FMT p) :=
    rd_enabling s p (portReg_ne p (by decide)) (portReg_ne p (by decide)) (portReg_ne p (by decide))
  have hok : (s.enabling p).timingOk p ((s.enabling p).staged p) = true := by rw [staged_enabling, timingOk_congr hfmt, ht]
  obtain ⟨l, hl⟩ := port_relock (((s.enabling p).apply p).islOut (.isl p 0xB4 (zeros 7))) p
  have hport : (s.enablePort p).port p = { (s.port p).fresh with nextSet := some (s.staged p), applied := true, linkBad := l } := by
    rw [enablePort_valid hf ht hs, State.islLock, port_setFlag, hl, port_islOut, port_apply hok, staged_enabling, port_enabling]
  refine ⟨portOn_congr hctl, by rw [hport], by rw [hport]; rfl, ?_⟩
  rw [enablePort_valid hf ht hs]
  unfold State.linkState
  rw [fld_congr (rd_islLock _ (hclk _ (by decide)))]
  exact linkState_relock _ p

/-- Outside the safe state LINK_RESET is sent. -/
theorem enablePort_sends (hsafe : s.safe = false) : .isl p 0xB4 (zeros 7) ∈ (s.enablePort p).out := by
  have hhm : ((s.enabling p).apply p).rd Reg.HM_STS = s.rd Reg.HM_STS := by
    rw [rd_apply _ _ (not_linkReg_low p (by decide)) (by unfold Reg.HM_STS Reg.TIMING_STS; omega),
      rd_enabling _ _ (by unfold Reg.HM_STS Reg.PORT_STS; omega) (by unfold Reg.HM_STS Reg.FRAME_STS; omega)
        (by unfold Reg.HM_STS Reg.TIMING_STS; omega)]
  rw [enablePort_valid hf ht hs, State.islLock, setFlag_out]
  refine mem_out_relock ?_ p
  rw [islOut_out _ ((safe_congr hhm).trans hsafe)]
  exact List.mem_cons_self

end

/-- With an invalid format ENABLE stays 0 and CFG_ERR is set. -/
theorem enablePort_invalid {s : State} {p : Nat} (h : s.formatOk p = false) :
    (s.enablePort p).portOn p = false ∧ (s.enablePort p).flag (Reg.PORT_STS p) 9 = true := by
  unfold State.enablePort
  dsimp only
  rw [if_pos h]
  exact ⟨(portOn_congr (rd_setFlag_ne _ _ _ (portReg_ne p (by decide)))).trans (flag_setFlag _ _ _ (by decide)),
    flag_setFlag _ _ _ (by decide)⟩

/-! ## The item boundary (R66, R90, R92, R93) -/

/-- From `s` to `t` a port takes no more than an item boundary gives it: a swap made, weights and delays. -/
structure State.bounded (p : Nat) (s t : State) : Prop where
  port : ∃ b w d e, t.port p = { s.port p with swapReq := b, mix := w, dly := d, refillEnd := e }
  rd : ∀ a, a ≠ Reg.COND_CTL p → a ≠ Reg.COND_STS p → t.rd a = s.rd a

theorem State.bounded.refl (p : Nat) (s : State) : s.bounded p s := ⟨⟨_, _, _, _, rfl⟩, fun _ _ _ => rfl⟩

theorem State.bounded.trans {p : Nat} {s t u : State} (h : s.bounded p t) (k : t.bounded p u) : s.bounded p u where
  port := by
    obtain ⟨_, _, _, _, h1⟩ := h.port
    obtain ⟨b, w, d, e, h2⟩ := k.port
    exact ⟨b, w, d, e, by rw [h2, h1]⟩
  rd a h1 h2 := (k.rd a h1 h2).trans (h.rd a h1 h2)

theorem State.bounded.ite {p : Nat} {s t u : State} {c : Prop} [Decidable c] (h : s.bounded p t) (k : s.bounded p u) :
    s.bounded p (if c then t else u) := by split <;> assumption

theorem takeMix_bounded (s : State) (p : Nat) : s.bounded p (s.takeMix p) :=
  .ite ⟨⟨_, _, _, _, (port_setFlag _ _ _ _ _).trans (port_updPort _ _ _)⟩, fun _ _ h => rd_setFlag_ne _ _ _ h⟩
    ⟨⟨_, _, _, _, rfl⟩, fun _ _ h => rd_setFlag_ne _ _ _ h⟩

theorem takeDly_bounded (s : State) (p : Nat) : s.bounded p (s.takeDly p) :=
  ⟨⟨_, _, _, _, (port_setFlag _ _ _ _ _).trans (port_updPort _ _ _)⟩, fun _ _ h => rd_setFlag_ne _ _ _ h⟩

theorem swapBanks_bounded (s : State) (p : Nat) : s.bounded p (s.swapBanks p) :=
  ⟨⟨_, _, _, _, (port_setFlag _ _ _ _ _).trans (port_updPort _ _ _)⟩, fun _ h _ => rd_setFlag_ne _ _ _ h⟩

theorem itemBoundary_bounded (s : State) (p : Nat) : s.bounded p (s.itemBoundary p) := by
  unfold State.itemBoundary
  dsimp only
  refine .trans ?_ (.ite (takeDly_bounded _ p) (.refl p _))
  refine .trans ?_ (.ite (takeMix_bounded _ p) (.refl p _))
  exact .ite ⟨(swapBanks_bounded _ p).port, (swapBanks_bounded _ p).rd⟩ ⟨⟨_, _, _, _, rfl⟩, fun _ _ _ => rfl⟩

/-! ## Disabling (R80) -/

/-- A port that is disabled, before the item boundary that this makes. -/
def State.disabling (s : State) (p : Nat) : State :=
  ((((s.port p).live.foldl (fun s f => s.abortFace p f causeDisable) s).linkTo p linkDown).updPort p
    (fun x => { x.fresh with nextSet := none })).setFlag (Reg.PORT_STS p) 2 false

theorem port_disabling (s : State) (p : Nat) : ∃ x : Port, (s.disabling p).port p = { x.fresh with nextSet := none } :=
  ⟨_, (port_setFlag _ _ _ _ _).trans (port_updPort _ _ _)⟩

theorem linkState_disabling (s : State) (p : Fin 4) : (s.disabling p).linkState p = linkDown :=
  (fld_setFlag_ne _ _ _ (by decide) (by decide) (by decide)).trans (linkState_linkTo _ p (by decide))

/-- A disable takes the link DOWN and starts the lines anew, with strobes and step inactive. -/
theorem disablePort_disabled (s : State) (p : Fin 4) :
    ((s.disablePort p).port p).lines = 0 ∧ ((s.disablePort p).port p).strobe = 0 ∧ ((s.disablePort p).port p).step = false ∧
      ((s.disablePort p).port p).rx = none ∧ (s.disablePort p).linkState p = linkDown := by
  have e : s.disablePort p = ((s.disabling p).itemBoundary p).islLock := rfl
  obtain ⟨⟨b, w, d, r, hb⟩, hrd⟩ := itemBoundary_bounded (s.disabling p) p
  obtain ⟨x, hx⟩ := port_disabling s p
  have hport : (s.disablePort p).port p = { x.fresh with nextSet := none, swapReq := b, mix := w, dly := d, refillEnd := r } := by
    rw [e, State.islLock, port_setFlag, hb, hx]
  have hsts : (s.disablePort p).rd (Reg.PORT_STS p) = (s.disabling p).rd (Reg.PORT_STS p) := by
    rw [e, rd_islLock _ (by unfold Reg.PORT_STS Reg.CLK_STS; omega)]
    exact hrd _ (portReg_ne p (by decide)) (portReg_ne p (by decide))
  rw [hport]
  exact ⟨rfl, rfl, rfl, rfl, (fld_congr hsts 1 0).trans (linkState_disabling s p)⟩

end Sys2Proof.Machine
end

section
/-! SUPPORT. The settings of a port (R80, R85, R90, R94, R95), clause by clause. -/
namespace Sys2Proof.Machine

/-! ## Writes to PORT_CTL (R80) -/

/-- A stored write gives a writable bit what is written to it. -/
theorem flag_store (s : State) (req : Req) {a : Nat} (v : Word) {d : RegDef} {i : Nat} (hd : defAt a = some d)
    (hc : clamps.all (fun c => !(pageAt (a % 0x4000000) == some c.kind && a % 0x4000000 % 0x1000 == c.off)) = true)
    (h : (s.store req a v).2 = true) (hm : bit (BitVec.ofNat 32 d.rw) i = true) :
    (s.store req a v).1.flag a i = bit v i := by
  have hn : bit (~~~BitVec.ofNat 32 d.rw) i = false := by
    unfold bit at hm ⊢
    rw [BitVec.getLsbD_not, hm, Bool.not_true, Bool.and_false]
  unfold State.flag
  rw [rd_store_plain s req v hd hc h, bit_or, bit_and, bit_and, hn, hm]
  simp

/-- The definition of PORT_CTL: ENABLE in bit 0. -/
def portCtlDef : RegDef := { off := 0x40, reset := 0x800, rw := 0x3fff01, lk0 := 0x3f0000, item := 0x3f0000 }

theorem defAt_portCtl (p : Fin 4) : defAt (Reg.PORT_CTL p) = some portCtlDef := by revert p; decide

/-- The registers of a port with no clamp: PORT_CTL and ARCH_LINES. -/
theorem unclamped (p : Fin 4) : ∀ a ∈ [Reg.PORT_CTL p, Reg.ARCH_LINES p],
    clamps.all (fun c => !(pageAt (a % 0x4000000) == some c.kind && a % 0x4000000 % 0x1000 == c.off)) = true := by
  revert p; decide

theorem bit_enable (v : Word) : bit (v ||| 1) 0 = true := by rw [bit_or]; simp [bit]

theorem bit_disable (v : Word) : bit (v &&& 0xFFFFFFFE) 0 = false := by rw [bit_and]; simp [bit]

theorem portCtl_enable {s : State} (req : Req) {p : Nat} {v : Word} (hoff : s.portOn p = false)
    (hst : (s.store req (Reg.PORT_CTL p) (v ||| 1)).2 = true) :
    s.portCtl req p (v ||| 1) = (s.store req (Reg.PORT_CTL p) (v ||| 1)).1.enablePort p := by
  unfold State.portCtl
  dsimp only
  rw [storeThen_eq s req _ _ _ hst, if_pos ⟨hoff, bit_enable v⟩]

theorem portCtl_disable {s : State} (req : Req) {p : Nat} {v : Word} (hon : s.portOn p = true)
    (hst : (s.store req (Reg.PORT_CTL p) (v &&& 0xFFFFFFFE)).2 = true) :
    s.portCtl req p (v &&& 0xFFFFFFFE) = (s.store req (Reg.PORT_CTL p) (v &&& 0xFFFFFFFE)).1.disablePort p := by
  unfold State.portCtl
  dsimp only
  rw [storeThen_eq s req _ _ _ hst, if_neg (by simp [hon]), if_pos ⟨hon, bit_disable v⟩]

theorem taken_portOn (s t : State) {w : List Fld} (h : .regs ∈ w) (p : Nat) : (s.taken t w).portOn p = t.portOn p := taken_flag s t h _ _

theorem taken_linkState (s t : State) {w : List Fld} (h : .regs ∈ w) (p : Nat) : (s.taken t w).linkState p = t.linkState p :=
  taken_fld s t h _ _ _

/-! ## Coefficient banks (R90) -/

theorem port_store {s : State} {req : Req} {a : Nat} {v : Word} (h : (s.store req a v).2 = true) (p : Nat) :
    (s.store req a v).1.port p = s.port p := port_congr (store_same (f := .ports) s req a v h (by decide)) p

/-- On a port that is on, SWAP waits for the item boundary. -/
theorem port_condCtl_swap {s : State} {req : Req} {p : Nat} {v : Word} (hon : s.portOn p = true)
    (hst : (s.store req (Reg.COND_CTL p) (v ||| 0x10)).2 = true) :
    (s.condCtl req p (v ||| 0x10)).port p = { s.port p with swapReq := true } := by
  have hbit : bit (v ||| 0x10) 4 = true := by rw [bit_or]; simp [bit]
  have hon' : (s.store req (Reg.COND_CTL p) (v ||| 0x10)).1.portOn p = true :=
    (portOn_congr (rd_store_ne s req _ (portReg_ne p (by decide)) hst)).trans hon
  unfold State.condCtl
  rw [storeThen_eq s req _ _ _ hst, if_pos hbit, if_neg (fun h => Bool.false_ne_true (h.1.symm.trans hon')), port_updPort, port_store hst]

theorem coefLoad_refused {s : State} {p : Nat} (h : s.flag (Reg.COND_STS p) 31 = true ∨ (s.port p).swapReq = true) :
    s.coefLoad p = s.setFlag (Reg.COND_STS p) 0 true := if_pos h

/-- A load that is not refused runs. -/
theorem flag_coefLoad {s : State} {p : Nat} (hb : s.flag (Reg.COND_STS p) 31 = false) (hw : (s.port p).swapReq = false) :
    (s.coefLoad p).flag (Reg.COND_STS p) 31 = true := by
  unfold State.coefLoad
  rw [if_neg (by simp [hb, hw])]
  dsimp only
  rw [flag_setFlag_ne _ _ _ (by decide) (by decide) (by decide), flag_setFlag _ _ _ (by decide)]

/-- The end of a load with no swap waiting. -/
theorem coefDone_busy {s : State} {p : Nat} (hb : s.flag (Reg.COND_STS p) 31 = true) (hw : (s.port p).swapReq = false) :
    s.coefDone p = (s.setFlag (Reg.COND_STS p) 31 false).raise (condPage p) 0 := by
  unfold State.coefDone
  rw [if_pos hb]
  dsimp only
  rw [port_raise, port_setFlag, hw]
  exact if_neg (by simp)

theorem coefDone_taken {s : State} {p : Fin 4} (hb : s.flag (Reg.COND_STS p) 31 = true) (hw : (s.port p).swapReq = false) :
    (s.coefDone p).flag (Reg.COND_STS p) 31 = false ∧ (s.coefDone p).flag (condPage p + 0x10) 0 = true ∧
      (s.coefDone p).port p = s.port p := by
  rw [coefDone_busy hb hw]
  exact ⟨(flag_congr (rd_raise_cond _ p _ (by decide)) 31).trans (flag_setFlag _ _ _ (by decide)), flag_raise_cond _ p (by decide),
    (port_raise _ _ _ _).trans (port_setFlag _ _ _ _ _)⟩

/-! ## Archive ring and captures (R94, R95) -/

/-- The definition of ARCH_LINES: a ring size in bits 23:0. -/
def archLinesDef : RegDef := { off := 0x4c, rw := 0xffffff, lk0 := 0xffffff }

theorem defAt_archLines (p : Fin 4) : defAt (Reg.ARCH_LINES p) = some archLinesDef := by revert p; decide

theorem archLines_regs {s : State} {req : Req} {p : Fin 4} {v : Word} (hst : (s.store req (Reg.ARCH_LINES p) v).2 = true) :
    (s.archLines req p v).rd (Reg.ARCH_WPTR p) = 0 ∧ (s.archLines req p v).rd (Reg.ARCH_RPTR p) = 0 ∧
      (s.archLines req p v).rd (Reg.ARCH_LINES p) = (s.rd (Reg.ARCH_LINES p) &&& ~~~0xFFFFFF) ||| (v &&& 0xFFFFFF) := by
  unfold State.archLines
  rw [storeThen_eq s req _ _ _ hst]
  refine ⟨?_, rd_wr_same _ _ _, ?_⟩
  · rw [rd_wr_ne _ _ (portReg_ne p (by decide)), rd_wr_same]
  · rw [rd_wr_ne _ _ (portReg_ne p (by decide)), rd_wr_ne _ _ (portReg_ne p (by decide)),
      rd_store_plain s req v (defAt_archLines p) (unclamped p _ (by simp)) hst]
    rfl

/-- START with MODE PROFILE or COLUMN arms a capture. -/
theorem port_calStart {s : State} {req : Req} {p : Nat} {v : Word} (hst : (s.store req (Reg.P2_CAL_CTL p) (v ||| 0x80000000)).2 = true)
    (hm : bits v 29 28 = 1 ∨ bits v 29 28 = 2) :
    (s.calStart req p (v ||| 0x80000000)).port p = { s.port p with calArmed := true } := by
  have hmode : bits (v ||| 0x80000000) 29 28 = bits v 29 28 := bits_or_zero v _ (by decide)
  unfold State.calStart
  rw [storeThen_eq s req _ _ _ hst, hmode, if_pos ⟨bit_cancel v, hm⟩, port_updPort, port_store hst]

/-- Settles O20: an enable by its checks, a disable by the boundary that keeps what it leaves, and each setting by the branch that its
write takes. -/
theorem portEnableAndSettings : Obligations.PortEnableAndSettings := by
  unfold Obligations.PortEnableAndSettings
  refine ⟨fun req p v s hoff hst => ⟨fun hf ht hs => ⟨_, rfl, ?_⟩, fun hf => ⟨_, rfl, ?_⟩⟩, fun req p v s hon hst => ⟨_, rfl, ?_⟩,
    fun req p v s hon hst => ⟨_, rfl, ?_⟩,
    fun p s => ⟨fun h => ⟨_, rfl, ?_⟩, fun hb hw => ⟨_, rfl, ?_⟩, fun hb hw => ⟨_, rfl, ?_⟩⟩,
    fun req p v s hst => ⟨_, rfl, ?_⟩, fun req p v s hst hm => ⟨_, rfl, ?_⟩⟩
  · obtain ⟨hctl, hset, hlines, hlink⟩ := enablePort_enabled hf ht hs
    have hen : (s.store req (Reg.PORT_CTL p) (v ||| 1)).1.portOn p = true :=
      (flag_store s req _ (defAt_portCtl p) (unclamped p _ (by simp)) hst (by decide)).trans (bit_enable v)
    have hhm : (s.store req (Reg.PORT_CTL p) (v ||| 1)).1.rd Reg.HM_STS = s.rd Reg.HM_STS :=
      rd_store_ne s req _ (by unfold Reg.HM_STS Reg.PORT_CTL; omega) hst
    rw [portCtl_enable req hoff hst, taken_portOn _ _ (by decide), taken_port _ _ (by decide), taken_linkState _ _ (by decide), taken_out,
      if_pos (by decide)]
    exact ⟨hctl.trans hen, hset, hlines, hlink, fun hsafe => enablePort_sends hf ht hs ((safe_congr hhm).trans hsafe)⟩
  · rw [portCtl_enable req hoff hst, taken_portOn _ _ (by decide), taken_flag _ _ (by decide)]
    exact enablePort_invalid hf
  · rw [portCtl_disable req hon hst, taken_port _ _ (by decide), taken_linkState _ _ (by decide)]
    exact disablePort_disabled _ p
  · rw [taken_port _ _ (by decide)]
    exact port_condCtl_swap hon hst
  · rw [taken_port _ _ (by decide), taken_flag _ _ (by decide), coefLoad_refused h]
    exact ⟨port_setFlag _ _ _ _ _, flag_setFlag _ _ _ (by decide)⟩
  · rw [taken_flag _ _ (by decide)]
    exact flag_coefLoad hb hw
  · rw [taken_port _ _ (by decide), taken_flag _ _ (by decide), taken_flag _ _ (by decide)]
    exact coefDone_taken hb hw
  · rw [taken_rd _ _ (by decide), taken_rd _ _ (by decide), taken_rd _ _ (by decide)]
    exact archLines_regs hst
  · rw [taken_port _ _ (by decide)]
    exact port_calStart hst hm

end Sys2Proof.Machine
end

section
/-! SUPPORT. The line clock, the receiving of a line, and stripes landed, handed and steered (R82, R85, R86, R99, R108, R110, R111),
clause by clause. -/
namespace Sys2Proof.Machine

/-! ## The line clock (R82, R85, R99) -/

/-- A port at a line clock: the waiting set is taken, the next raw line is stamped and page-present sampled. -/
def Port.clocked (x : Port) (tb : DWord) (up : Prop) [Decidable up] (present : Bool) : Port :=
  { x with active := x.nextSet.getD x.active, nextSet := none, lines := x.lines + 1, stamps := x.stamps.set 0 x.lines tb,
           dirOut := (x.nextSet.getD x.active).dir, linkBad := if up then x.linkBad else x.lines :: x.linkBad,
           present := (x.lines, present) :: x.present.take 4200 }

/-- The state with that port. -/
def State.clocked (s : State) (p : Nat) : State :=
  s.updPort p (fun x => x.clocked s.clk.tb (s.linkState p = Machine.linkUp) (s.ppActive.contains p))

theorem port_clocked (s : State) (p : Nat) :
    (s.clocked p).port p = (s.port p).clocked s.clk.tb (s.linkState p = linkUp) (s.ppActive.contains p) := port_updPort _ _ _

theorem calBegin_unarmed {s : State} {p : Nat} (n : Nat) (h : (s.port p).calArmed = false) : s.calBegin p n = s := by
  unfold State.calBegin
  rw [if_neg (by simp [h])]

/-- With no capture armed and no window closing, a line clock stamps the next line and sends its LINE event. -/
theorem lineClock_plain {s : State} {p : Nat} (hon : s.portOn p = true) (hcal : (s.port p).calArmed = false)
    (hw : (s.port p).lines < 2 ∨ (s.port p).lines < (s.port p).expect + 2) :
    s.lineClock p = (s.clocked p).islOut (.islEvent p ((s.port p).lines % 256) 1 0) := by
  unfold State.lineClock
  dsimp only
  rw [if_pos hon, calBegin_unarmed, if_neg]
  · rfl
  · rw [port_islOut, port_updPort]
    show ¬ (2 ≤ (s.port p).lines ∧ (s.port p).expect ≤ (s.port p).lines - 2)
    omega
  · rw [port_islOut, port_updPort]
    exact hcal

/-! ## Lines received (R86) -/

/-- A marker that agrees with the deskew of a link that is UP changes nothing. -/
theorem marker_agrees {s : State} {p : Nat} {slots : List Nat} (hup : s.linkState p = linkUp)
    (hd : offDeskew (s.port p).deskew slots = false) : s.marker p slots = s := by
  unfold State.marker
  rw [hup, if_neg (show ¬ linkUp = linkAligning by decide),
    if_neg (show ¬ (linkUp = linkUp ∧ offDeskew (s.port p).deskew slots = true) by simp [hd]), ite_self]

/-- No line is replaced before the expected one. -/
theorem replaceTo_expected {s : State} {p n : Nat} (h : (s.port p).expect = n) : s.replaceTo p n = s := by
  unfold State.replaceTo
  rw [h, Nat.sub_self]
  rfl

/-- The first line of a range is found by its number. -/
theorem find_range'_first {a n : Nat} {f : Nat → Bool} (hn : 0 < n) (h : f a = true) : (range' a n).find? f = some a := by
  obtain ⟨m, rfl⟩ : ∃ m, n = m + 1 := ⟨n - 1, by omega⟩
  unfold range'
  rw [List.range_succ_eq_map, List.map_cons, List.find?_cons_of_pos (by simpa using h)]
  rfl

theorem rx_lineStart {s : State} {p : Nat} {num : BitVec 16} {slots : List Nat} (colours : Nat) (hon : s.portOn p = true)
    (hup : s.linkState p = linkUp) (hd : offDeskew (s.port p).deskew slots = false) (hl : (s.port p).expect < (s.port p).lines)
    (hn : num.toNat = (s.port p).expect % 65536) (hrx : (s.port p).rx = none) :
    ((s.lineStart p num colours slots).port p).rx = some { n := (s.port p).expect, fmtOk := decide (colours = s.colours p) } := by
  have hfind := find_range'_first (a := (s.port p).expect) (n := (s.port p).lines - (s.port p).expect)
    (f := fun k => k % 65536 == num.toNat) (by omega) (by simp [hn])
  unfold State.lineStart
  dsimp only
  rw [marker_agrees hup hd, if_pos ⟨hon, hup⟩, hfind]
  dsimp only
  rw [hrx]
  dsimp only
  rw [if_neg Bool.false_ne_true, replaceTo_expected rfl, port_updPort]

/-! ## Lines accepted (R86, R88) -/

/-- Conditioning changes the saturation counts and the event of their page. -/
theorem rd_condition (s : State) (p : Fin 4) (raw : List (List Nat)) {r : Nat}
    (h : (0x10000 ≤ r ∧ r < 0x20000) ∧ r ≠ 0x11010 ∧ r ≠ 0x11080 ∧ r ≠ 0x11084) :
    (s.condition p raw).2.rd (r + 0x4000 * p) = s.rd (r + 0x4000 * p) := by
  obtain ⟨hr, hevt, hhi, hlo⟩ := h
  have hcount : ∀ m n, ((s.count (Reg.P1_CNT_SAT_HI p) m).count (Reg.P1_CNT_SAT_LO p) n).rd (r + 0x4000 * p) = s.rd (r + 0x4000 * p) :=
    fun _ _ => (rd_wr_ne _ _ (portReg_ne p hlo)).trans (rd_wr_ne _ _ (portReg_ne p hhi))
  unfold State.condition
  dsimp only
  split
  · exact hcount _ _
  · exact (rd_raise_cond _ p 1 ⟨hr, hevt⟩).trans (hcount _ _)

theorem port_condition (s : State) (p : Nat) (raw : List (List Nat)) (q : Nat) : (s.condition p raw).2.port q = s.port q := by
  unfold State.condition
  dsimp only
  split
  · rfl
  · exact port_raise _ _ _ _

/-- A port after raw line n is accepted: the next line is expected, and the samples and their conditioned planes are kept. -/
def Port.accepted (x : Port) (n : Nat) (up : Bool) (raw a16 : List (List Nat)) : Port :=
  { x with expect := n + 1, stamps := x.stamps.erase n, linkBad := x.linkBad.filter (fun k => k != n),
           rx := match x.rx with | some l => if l.n = n then none else some l | none => none,
           lastRaw := some raw, hist := (n, up, a16) :: x.hist.take 256 }

/-- The link was UP while the window of raw line n was open (R86). -/
def upThroughout (s : State) (p n : Nat) : Bool := decide (s.linkState p = linkUp) && !(s.port p).linkBad.contains n

/-- Raw line n accepted and counted. -/
def State.accepted (s : State) (p n : Nat) (raw : List (List Nat)) : State :=
  ((s.condition p raw).2.updPort p (fun x =>
    x.accepted n (upThroughout s p n) raw (s.condition p raw).1)).bump (Reg.P0_CNT_LINES p)

/-- While the delay lines refill, an accepted line counts as replaced (R92). -/
def State.refilled (s : State) (p n : Nat) : State :=
  if n < (s.port p).refillEnd then (s.bump (Reg.P0_CNT_REPL_FMT p)).raise (linkPage p) 2 else s

theorem port_accepted (s : State) (p n : Nat) (raw : List (List Nat)) : (s.accepted p n raw).port p =
    (s.port p).accepted n (upThroughout s p n) raw (s.condition p raw).1 := by
  unfold State.accepted
  rw [port_congr (bump_ports _ _), port_updPort, port_condition]

theorem rd_accepted_cnt (s : State) (p : Fin 4) (n : Nat) (raw : List (List Nat)) :
    (s.accepted p n raw).rd (Reg.P0_CNT_LINES p) = s.rd (Reg.P0_CNT_LINES p) + 1 := by
  unfold State.accepted
  rw [rd_bump_same, rd_updPort, rd_condition s p raw (by decide)]

theorem rd_accepted_calSts (s : State) (p : Fin 4) (n : Nat) (raw : List (List Nat)) :
    (s.accepted p n raw).rd (Reg.P2_CAL_STS p) = s.rd (Reg.P2_CAL_STS p) := by
  unfold State.accepted
  rw [rd_bump_ne _ (portReg_ne p (by decide)), rd_updPort, rd_condition s p raw (by decide)]

theorem port_refilled (s : State) (p n : Nat) : (s.refilled p n).port p = s.port p := by
  unfold State.refilled
  split
  · exact (port_raise _ _ _ _).trans (port_congr (bump_ports _ _) p)
  · rfl

theorem rd_refilled_cnt (s : State) (p : Fin 4) (n : Nat) : (s.refilled p n).rd (Reg.P0_CNT_LINES p) = s.rd (Reg.P0_CNT_LINES p) := by
  unfold State.refilled
  split
  · exact (rd_raise_link _ p 2 (by decide)).trans (rd_bump_ne _ (portReg_ne p (by decide)))
  · rfl

theorem captureLine_idle {s : State} {p : Nat} (n : Nat) (raw a16 : List (List Nat)) (h : s.flag (Reg.P2_CAL_STS p) 31 = false) :
    s.captureLine p n raw a16 = s := by
  unfold State.captureLine
  rw [if_neg (by simp [h])]

/-- What follows an accepted raw line n: the count of a line that refills, and the output line when lines pass (R88, R92). -/
def State.afterAccepted (s : State) (p n c px : Nat) (stamp : DWord) : State :=
  let x := s.port p
  let refill := decide (n < x.refillEnd)
  let t := if refill then s.bump (Reg.P0_CNT_REPL_FMT p) else s
  let t := if false || refill then t.raise (linkPage p) 2 else t
  if x.passing || (decide ((x.dly.take c).foldl max 0 ≤ n) && x.linkGood n c) then
    ((t.updPort p (fun x => { x with passing := true })).setFlag (Reg.PORT_STS p) 2 true).passLine p n stamp (false || refill) (x.outPlanes n c px)
  else t

theorem settleLine_ok (s : State) (p n : Nat) (raw : List (List Nat)) : s.settleLine p n (.ok raw) =
    ((s.accepted p n raw).captureLine p n raw (s.condition p raw).1).afterAccepted p n (s.colours p) (s.pixels p) ((s.port p).stamps.get 0 n) :=
  rfl

/-- Before any output line passes, and while delayed colours are missing, no output line follows. -/
theorem afterAccepted_hidden {s : State} {p n c : Nat} (px : Nat) (stamp : DWord) (hpass : (s.port p).passing = false)
    (hn : n < ((s.port p).dly.take c).foldl max 0) : s.afterAccepted p n c px stamp = s.refilled p n := by
  unfold State.afterAccepted State.refilled
  dsimp only
  rw [hpass, decide_eq_false (Nat.not_le.mpr hn), if_neg (by simp)]
  by_cases h : n < (s.port p).refillEnd
  · simp [h]
  · simp [h]

/-- A raw line accepted while no capture runs and before any output line passes: no output line is passed on. -/
theorem settleLine_accepts {s : State} {p : Fin 4} {n : Nat} {raw : List (List Nat)} (hcal : s.flag (Reg.P2_CAL_STS p) 31 = false)
    (hpass : (s.port p).passing = false) (hn : n < ((s.port p).dly.take (s.colours p)).foldl max 0) :
    s.settleLine p n (.ok raw) = (s.accepted p n raw).refilled p n := by
  have hport := port_accepted s p n raw
  rw [settleLine_ok, captureLine_idle _ _ _ ((flag_congr (rd_accepted_calSts s p n raw) 31).trans hcal)]
  exact afterAccepted_hidden _ _ (by rw [hport]; exact hpass) (by rw [hport]; exact hn)

/-- LINE_END of the expected line, as `settleLine_accepts` has it. -/
theorem lineEnd_accepts {s : State} {p : Fin 4} {num : BitVec 16} {crcs : List Word} {r : RxLine} {raw : List (List Nat)}
    (hrx : (s.port p).rx = some r) (hexp : (s.port p).expect = r.n) (hgot : s.lineGot p r num crcs = .ok raw)
    (hcal : s.flag (Reg.P2_CAL_STS p) 31 = false) (hpass : (s.port p).passing = false)
    (hn : r.n < ((s.port p).dly.take (s.colours p)).foldl max 0) :
    s.lineEnd p num crcs = (s.accepted p r.n raw).refilled p r.n := by
  unfold State.lineEnd
  rw [hrx]
  dsimp only
  rw [replaceTo_expected hexp, hgot, settleLine_accepts hcal hpass hn]

/-! ## Stripes (R108, R110, R111) -/

/-- After a face is stored, the faces under its ID are that face. -/
theorem faces_setFace {s : State} {p : Nat} {f g : Face} (hg : g ∈ ((s.setFace p f).port p).faces) (hid : g.id = f.id) : g = f := by
  unfold State.setFace at hg
  rw [port_updPort] at hg
  obtain ⟨a, -, rfl⟩ := List.mem_map.mp hg
  split at hid
  · exact if_pos ‹_›
  · exact absurd hid ‹_›

theorem slots_setFace (s : State) (p : Nat) (f : Face) : ((s.setFace p f).port p).slots = (s.port p).slots := by
  unfold State.setFace
  rw [port_updPort]

/-- The stripe's landing slot holds the tiles listed. -/
def State.fillSlot (s : State) (p k : Nat) (l : List Nat) : State :=
  s.updPort p (fun x => { x with slots := x.slots.set none (k % 2) (some l) })

theorem slots_fillSlot (s : State) (p k : Nat) (l : List Nat) : ((s.fillSlot p k l).port p).slots.get none (k % 2) = some l := by
  unfold State.fillSlot
  rw [port_updPort]
  exact Tab.get_set_same none (s.port p).slots (k % 2) (some l)

theorem faces_fillSlot (s : State) (p k : Nat) (l : List Nat) : ((s.fillSlot p k l).port p).faces = (s.port p).faces := by
  unfold State.fillSlot
  rw [port_updPort]

/-- The next stripe of a framed face is landed when its rows are ready and its slot is free. -/
theorem stripeLand_lands {s : State} {p : Nat} {f : Face} (hf : s.landFace p = some f) (hfr : f.framed = true)
    (hr : s.rowsReady p f f.landed = true) (hs : (s.port p).slots.get none (f.landed % 2) = none) :
    s.stripeLand p = ((s.landStripe p f f.landed).setFace p { f with landed := f.landed + 1 }).fillSlot p f.landed [] := by
  unfold State.stripeLand
  rw [hf]
  exact if_pos ⟨hfr, hr, by rw [hs]; rfl⟩

/-- A face without a trailing edge is not done. -/
theorem faceDone_open {f : Face} (s : State) (p : Nat) (h : f.trail = none) : s.faceDone p f = s := by
  unfold State.faceDone
  rw [h]

/-- The stripe handed of a face whose trailing edge is not found, when a group takes it: the slot is filled and the face stored last. -/
theorem stripeHand_hands {s : State} {p part vi : Nat} {f : Face} (hf : (s.port p).live.find? (fun f => decide (f.handed < f.landed)) = some f)
    (htrail : f.trail = none) (hmask : isFull (s.fullEvery p) f.handed = true ∨ f.mask.isSome = true) (hmap : s.srcMap p = some (part, vi))
    (hfence : s.groupFenced (s.tileFirst p) (s.groupG p) = false)
    (hown : (List.range (s.groupG p)).all (fun b => s.tileOwner (s.tileFirst p + b) == some part) = true)
    (htake : s.groupTakes (s.tileFirst p) (s.groupG p) = true) (hrun : s.instRuns part vi = true) :
    ∃ u : State, s.stripeHand p = ((u.fillSlot p f.handed (range' (s.tileFirst p) (s.groupG p))).setFace p
      { f with handed := f.handed + 1, mask := none }).bump (Reg.P3_CNT_STRIPES p) := by
  obtain ⟨m, hm⟩ : ∃ m, (if isFull (s.fullEvery p) f.handed = true then some (s.fullMask p) else f.mask) = some m := by
    split
    · exact ⟨_, rfl⟩
    · exact Option.isSome_iff_exists.mp (hmask.resolve_left ‹_›)
  unfold State.stripeHand
  rw [hf]
  dsimp only
  rw [hm, hmap]
  dsimp only
  rw [if_neg (by simp [hfence]), if_pos hown, if_pos (by simp [htake, hrun])]
  exact ⟨_, faceDone_open _ p htrail⟩

section
variable {s : State} {p : Nat} {f : Face} {v : Word}
  (hf : (s.port p).live.find? (fun f => decide (0 < f.handed) && f.mask.isNone && !isFull (s.fullEvery p) f.handed) = some f)
include hf

/-- A post that names another stripe is counted. -/
theorem steerPost_stale (h : bits v 31 16 ≠ f.id % 65536 ∨ bits v 15 0 ≠ (f.handed - 1) % 65536) :
    s.steerPost p v = (s.bump (Reg.P3_CNT_STEER_STALE p)).raise (framePage p) 5 := by
  unfold State.steerPost
  dsimp only
  rw [hf]
  exact if_neg (fun hn => h.elim (absurd hn.1) (absurd hn.2))

/-- A post that names the awaited stripe forms the mask of the next one. -/
theorem steerPost_forms (h1 : bits v 31 16 = f.id % 65536) (h2 : bits v 15 0 = (f.handed - 1) % 65536) :
    let m := BitVec.ofNat 256 (leNat ((List.range 8).map (fun i => toLe 4 (s.rd (Reg.STEER_MASK p i)).toNat)).flatten) &&& s.fullMask p
    s.steerPost p v = s.setFace p { f with mask := some ((m ||| (m <<< 1) ||| (m >>> 1)) &&& s.fullMask p) } := by
  unfold State.steerPost
  dsimp only
  rw [hf]
  exact if_pos ⟨h1, h2⟩

end

/-- Settles O21: each row by the one branch that its premises leave, and the port that this branch stores. -/
theorem linesAndStripes : Obligations.LinesAndStripes := by
  unfold Obligations.LinesAndStripes
  refine ⟨fun p s hon hsafe hcal hw => ⟨_, rfl, ?_⟩, fun p num colours slots s hon hup _ hd hl hn hrx => ⟨_, rfl, ?_⟩,
    fun p num crcs r raw s hrx hexp hgot hcal hpass hn => ⟨_, rfl, ?_⟩, fun p f s hf hfr hr hs => ⟨_, rfl, ?_⟩,
    fun p f part vi s hf htrail hmask hmap hfence hown htake hrun => ⟨_, rfl, ?_⟩,
    fun p v f s hf => ⟨fun h1 h2 => ⟨_, rfl, fun g hg hid => ?_⟩, fun h => ⟨_, rfl, ?_⟩⟩⟩
  · have hsafe' : (s.clocked p).safe = false := (safe_congr (rd_updPort _ _ _ _)).trans hsafe
    rw [taken_port _ _ (by decide), taken_out, if_pos (by decide), lineClock_plain hon hcal hw, port_islOut, port_clocked, islOut_out _ hsafe']
    exact ⟨rfl, rfl, rfl, Tab.get_set_same _ _ _ _, rfl, rfl, rfl⟩
  · rw [taken_port _ _ (by decide)]
    exact rx_lineStart _ hon hup hd hl hn hrx
  · rw [taken_port _ _ (by decide), taken_rd _ _ (by decide), lineEnd_accepts hrx hexp hgot hcal hpass hn, port_refilled, port_accepted,
      rd_refilled_cnt, rd_accepted_cnt]
    refine ⟨rfl, ?_, rfl, rfl⟩
    unfold Port.accepted
    rw [hrx]
    exact if_pos rfl
  · rw [taken_port _ _ (by decide), stripeLand_lands hf hfr hr hs, faces_fillSlot]
    exact ⟨slots_fillSlot _ _ _ _, fun g hg hid => faces_setFace hg hid⟩
  · obtain ⟨u, hu⟩ := stripeHand_hands hf htrail hmask hmap hfence hown htake hrun
    rw [taken_port _ _ (by decide), hu, port_congr (bump_ports _ _), slots_setFace]
    exact ⟨slots_fillSlot _ _ _ _, fun g hg hid => faces_setFace hg hid⟩
  · rw [taken_port _ _ (by decide), steerPost_forms hf h1 h2] at hg
    exact faces_setFace hg hid
  · rw [taken_port _ _ (by decide), taken_rd _ _ (by decide), steerPost_stale hf h]
    have hcnt : Reg.P3_CNT_STEER_STALE p ≠ framePage p + 0x10 := ne_frameEvt p (by decide)
    exact ⟨(port_raise _ _ _ _).trans (port_congr (bump_ports _ _) p),
      (rd_raise _ _ _ (not_msgReg_port p (by decide)) hcnt).trans (rd_bump_same _ _)⟩

end Sys2Proof.Machine
end

section
/-! SUPPORT. Decoding: the start of it, the pictures that come out and their samples (R123 to R128, R138), and the transforms (R134). -/
namespace Sys2Proof.Machine

/-! ## The start of decoding (R125) -/

theorem decodeStart_gives {s : State} {c : Nat} {a : Au} (hn : (s.ctxs.filter (fun (e : Nat × Ctx) => e.2.decoding.isSome)).length < 24)
    (h : s.nextDecode = some (c, a)) :
    s.decodeStart = s.updCtx c (fun x => { x with decoding := some a, entries := x.entries.drop 1 }) := by
  unfold State.decodeStart
  rw [if_neg (Nat.not_le.mpr hn), h]

theorem decodeStart_full {s : State} (hn : 24 ≤ (s.ctxs.filter (fun (e : Nat × Ctx) => e.2.decoding.isSome)).length) : s.decodeStart = s := by
  unfold State.decodeStart
  exact if_pos hn

/-! ## A context after counting and after a new sample (R127, R138, R141) -/

theorem ctx_ctxCount (s : State) (c i n : Nat) : (s.ctxCount c i n).ctx c =
    { s.ctx c with cnt := (s.ctx c).cnt.set i ((((s.ctx c).cnt.drop i).headD 0 + n) % 2 ^ 32) } := ctx_updCtx _ _ _

theorem ctx_setPic (s : State) (c : Nat) (p : Picture) :
    (s.setPic c p).ctx c = { s.ctx c with pics := (s.ctx c).pics.map (fun q => if q.pn = p.pn then p else q) } := ctx_updCtx _ _ _

theorem ctx_bump (s : State) (a c : Nat) : (s.bump a).ctx c = s.ctx c := ctx_wr _ _ _ _

theorem addSample_whole (s : State) (c : Nat) {x : Sample} (h : x.cause = 0) : s.addSample c x =
    s.updCtx c (fun k => { k with ssn := ((s.ctx c).ssn + 1) % 2 ^ 32, samples := k.samples ++ [{ x with ssn := (s.ctx c).ssn }] }) := by
  unfold State.addSample State.holeCount
  exact if_pos h

/-- A placeholder sample takes the next SSN, and is counted in its context. -/
theorem ctx_addSample_hole (s : State) (c : Nat) {x : Sample} (h : x.cause ≠ 0) : ∃ l, (s.addSample c x).ctx c =
    { s.ctx c with ssn := ((s.ctx c).ssn + 1) % 2 ^ 32, samples := (s.ctx c).samples ++ [{ x with ssn := (s.ctx c).ssn }], cnt := l } := by
  unfold State.addSample State.holeCount
  dsimp only
  rw [if_neg h, ctx_raise, ctx_bump, ctx_ctxCount, ctx_updCtx]
  exact ⟨_, rfl⟩

/-- A placeholder sample is counted on the control page. -/
theorem rd_addSample_hole (s : State) (c : Nat) {x : Sample} (h : x.cause ≠ 0) :
    (s.addSample c x).rd Reg.SIN_CNT_PLACEHOLDER = s.rd Reg.SIN_CNT_PLACEHOLDER + 1 := by
  unfold State.addSample State.holeCount
  dsimp only
  rw [if_neg h, rd_raise _ _ _ (not_msgReg (by decide) (by decide)) (by decide), rd_bump_same]
  rfl

/-! ## The samples of a new picture (R128) -/

/-- The placeholder sample of a placeholder picture. -/
def Picture.holeSample (p : Picture) (n : Nat) : Sample := { item := 0, stamp := p.stamp, ssn := n, pn := p.pn, kind := 0, cause := p.cause }

/-- The full-frame sample of a picture. -/
def Picture.frameSample (p : Picture) (n : Nat) : Sample :=
  { item := 0, stamp := p.stamp, ssn := n, pn := p.pn, kind := 1, outW := p.w, outH := p.h, data := p.addr, produced := true }

theorem createSamples_hole (s : State) (c : Nat) {p : Picture} (h : p.cause ≠ 0) :
    s.createSamples c p = (s.setPic c { p with created := true }).addSample c (p.holeSample 0) := by
  unfold State.createSamples
  exact if_pos h

/-- With no eyespot, a picture whose number FULL_EVERY divides gets the full-frame sample alone, and needs a FRAME_DONE. -/
theorem createSamples_frame {s : State} {c : Nat} {p : Picture} (h : p.cause = 0) (he : (s.ctx c).espots = [])
    (hf : p.pn % (s.ctx c).f 7 30 24 = 0) :
    s.createSamples c p = ((s.setPic c { p with created := true }).addSample c (p.frameSample 0)).setPic c { p with created := true, need := true } := by
  have hx := ctx_setPic s c { p with created := true }
  have hfull : (p.pn % ((s.setPic c { p with created := true }).ctx c).f 7 30 24 == 0) = true := by rw [hx]; exact beq_iff_eq.mpr hf
  have hnone : ((s.setPic c { p with created := true }).ctx c).espots = [] := by rw [hx]; exact he
  unfold State.createSamples
  dsimp only
  rw [if_neg (not_not_intro h), hnone, hfull]
  rfl

/-! ## Settling in order (R127, R128) -/

/-- When every retained picture has its samples, only settled ones leave. -/
theorem advance_created {s : State} {c : Nat} (n : Nat) (h : (s.ctx c).pics.all (·.created) = true) : s.advance c n = s.updCtx c Ctx.trim := by
  cases n with
  | zero => rfl
  | succ n =>
    have hnone : (s.ctx c).pics.find? (fun p => !p.created) = none := by simpa using h
    unfold State.advance
    dsimp only
    rw [hnone]

section
variable {s : State} {c : Nat} {p : Picture} (hp : (s.ctx c).pics = [p]) (hc : p.created = false)
include hp hc

/-- The only retained picture gets its samples at once. -/
theorem advanceAll_only (h : ((s.createSamples c p).ctx c).pics.all (·.created) = true) :
    s.advanceAll c = (s.createSamples c p).updCtx c Ctx.trim := by
  have hfind : (s.ctx c).pics.find? (fun p => !p.created) = some p := by rw [hp, List.find?_cons_of_pos (by simp [hc])]
  have hlen : (s.ctx c).pics.length + 1 = 1 + 1 := by rw [hp]; rfl
  unfold State.advanceAll
  rw [hlen, State.advance]
  dsimp only
  rw [hfind]
  refine (if_pos ?_).trans (advance_created 1 h)
  split
  · rfl
  · have hpic : (s.ctx c).pic (p.pn - 1) = none := by
      have hne : ¬ p.pn = p.pn - 1 := by omega
      unfold Ctx.pic
      rw [hp]
      simp [hne]
    rw [hpic]

/-- A placeholder picture gets its placeholder sample, counted. -/
theorem advanceAll_hole (h : p.cause ≠ 0) :
    (∃ l, (s.advanceAll c).ctx c = Ctx.trim { s.ctx c with
      pics := [{ p with created := true }], ssn := ((s.ctx c).ssn + 1) % 2 ^ 32, cnt := l,
      samples := (s.ctx c).samples ++ [p.holeSample (s.ctx c).ssn] }) ∧
    (s.advanceAll c).rd Reg.SIN_CNT_PLACEHOLDER = s.rd Reg.SIN_CNT_PLACEHOLDER + 1 := by
  obtain ⟨l, hl⟩ := ctx_addSample_hole (s.setPic c { p with created := true }) c (x := p.holeSample 0) h
  have hcreate := createSamples_hole s c h
  have hx : (s.createSamples c p).ctx c = { s.ctx c with
      pics := [{ p with created := true }], ssn := ((s.ctx c).ssn + 1) % 2 ^ 32, cnt := l,
      samples := (s.ctx c).samples ++ [p.holeSample (s.ctx c).ssn] } := by
    rw [hcreate, hl, ctx_setPic, hp, List.map_cons, if_pos rfl]
    rfl
  rw [advanceAll_only hp hc (by rw [hx]; rfl)]
  refine ⟨⟨l, by rw [ctx_updCtx, hx]⟩, (rd_updCtx _ _ _ _).trans ?_⟩
  rw [hcreate]
  exact rd_addSample_hole _ _ h

/-- A picture whose number FULL_EVERY divides gets its full-frame sample when nothing is tracked. -/
theorem advanceAll_frame (h : p.cause = 0) (he : (s.ctx c).espots = []) (hf : p.pn % (s.ctx c).f 7 30 24 = 0) :
    (s.advanceAll c).ctx c = Ctx.trim { s.ctx c with
      pics := [{ p with created := true, need := true }], ssn := ((s.ctx c).ssn + 1) % 2 ^ 32,
      samples := (s.ctx c).samples ++ [p.frameSample (s.ctx c).ssn] } := by
  have hx : (s.createSamples c p).ctx c = { s.ctx c with
      pics := [{ p with created := true, need := true }], ssn := ((s.ctx c).ssn + 1) % 2 ^ 32,
      samples := (s.ctx c).samples ++ [p.frameSample (s.ctx c).ssn] } := by
    rw [createSamples_frame h he hf, ctx_setPic, addSample_whole _ _ (show (p.frameSample 0).cause = 0 from rfl), ctx_updCtx, ctx_setPic, hp,
      List.map_cons, if_pos rfl]
    simp [Picture.frameSample]
  rw [advanceAll_only hp hc (by rw [hx]; rfl), ctx_updCtx, hx]
end

/-- A picture with a sample of its own that is not released stays retained. -/
theorem trim_unreleased {x : Ctx} {p : Picture} (hp : x.pics = [p]) (h : x.samples.any (fun q => q.pn == p.pn && decide (q.kind ≤ 2)) = true) :
    x.trim.pics = [p] := by
  have hs : x.settled p = false := by
    unfold Ctx.settled
    rw [h]
    simp
  unfold Ctx.trim
  rw [hp]
  simp [hs]

/-! ## Output of pictures (R126, R127, R138) -/

theorem drainAll_nil {s : State} {c : Nat} (h : (s.ctx c).entries = []) : s.drainAll c = s := by
  unfold State.drainAll
  rw [h]
  rfl

theorem flushDpb_none {s : State} {c : Nat} (n : Nat) (h : (s.ctx c).dpb = []) : s.flushDpb c n = s := by
  cases n with
  | zero => rfl
  | succ n => unfold State.flushDpb; rw [h]

/-- The only picture held for output is output first. -/
theorem flushDpb_only {s : State} {c : Nat} {d : DecPic} (h : (s.ctx c).dpb = [d]) :
    s.flushDpb c 1 = (s.updCtx c (fun x => { x with dpb := x.dpb.erase d })).outputPic c d := by
  rw [State.flushDpb, h]
  rfl

/-- A context that retains a picture under the next number. -/
def Ctx.takePic (x : Ctx) (p : Picture) : Ctx := { x with pn := (x.pn + 1) % 2 ^ 32, pics := x.pics ++ [p] }

/-- A placeholder picture declared when nothing is retained takes the next number and gets its placeholder sample. -/
theorem outputHole_first {s : State} {c cause : Nat} (stamp : Int) (hp : (s.ctx c).pics = []) (hcause : cause ≠ 0) :
    let p : Picture := { pn := (s.ctx c).pn, stamp := stamp, cause := cause }
    (∃ l, (s.outputHole c cause stamp).ctx c = Ctx.trim { s.ctx c with
      pn := ((s.ctx c).pn + 1) % 2 ^ 32, pics := [{ p with created := true }], ssn := ((s.ctx c).ssn + 1) % 2 ^ 32, cnt := l,
      samples := (s.ctx c).samples ++ [p.holeSample (s.ctx c).ssn] }) ∧
    (s.outputHole c cause stamp).rd Reg.SIN_CNT_PLACEHOLDER = s.rd Reg.SIN_CNT_PLACEHOLDER + 1 := by
  intro p
  have hu := ctx_updCtx s c (fun x => x.takePic p)
  have hpics : ((s.updCtx c (fun x => x.takePic p)).ctx c).pics = [p] := by
    rw [hu]
    exact congrArg (· ++ [p]) hp
  have h := advanceAll_hole hpics rfl hcause
  rw [hu, rd_updCtx] at h
  exact h

/-- A picture output when nothing is retained, tracked or unreleased takes the next number and, where FULL_EVERY divides it, gets its
full-frame sample; the place where it is retained is free. -/
theorem outputPic_first {s : State} {c : Nat} (d : DecPic) (hp : (s.ctx c).pics = []) (he : (s.ctx c).espots = [])
    (hf : (s.ctx c).pn % (s.ctx c).f 7 30 24 = 0) : ∃ addr,
    let p : Picture := { pn := (s.ctx c).pn, stamp := d.stamp, w := d.w, h := d.h, luma := d.luma, addr := addr }
    ∃ l, (s.outputPic c d).ctx c = Ctx.trim { s.ctx c with
      pn := ((s.ctx c).pn + 1) % 2 ^ 32, pics := [{ p with created := true, need := true }], ssn := ((s.ctx c).ssn + 1) % 2 ^ 32, cnt := l,
      samples := (s.ctx c).samples ++ [p.frameSample (s.ctx c).ssn] } := by
  obtain ⟨addr, u, hu, hout⟩ : ∃ (addr : Nat) (u : State), u.ctx c = s.ctx c ∧ s.outputPic c d =
      ((u.updCtx c (fun x => x.takePic { pn := (s.ctx c).pn, stamp := d.stamp, w := d.w, h := d.h, luma := d.luma, addr := addr })).ctxCount
        c 3 1).advanceAll c := ⟨_, s.fresh64.2.st _ d.luma, rfl, rfl⟩
  refine ⟨addr, ?_⟩
  intro p
  have hx := ctx_ctxCount (u.updCtx c (fun x => x.takePic p)) c 3 1
  rw [ctx_updCtx, hu] at hx
  have hpics : (((u.updCtx c (fun x => x.takePic p)).ctxCount c 3 1).ctx c).pics = [p] := by
    rw [hx]
    exact congrArg (· ++ [p]) hp
  rw [hout, advanceAll_frame hpics rfl rfl (by rw [hx]; exact he) (by rw [hx]; exact hf), hx]
  exact ⟨_, rfl⟩

/-! ## Decoded pictures (R123, R124, R126) -/

/-- What the decoder holds of a picture for output. -/
def Au.decoded (a : Au) (sps : Sps) (order : Int) (luma : List Nat) : DecPic :=
  { order := order, stamp := a.stamp, w := sps.w, h := sps.h, luma := (luma.map (luma8 sps.depth)).take (sps.w * sps.h) }

/-- A context whose decoder has put a picture among those held for output. -/
def Ctx.hold (x : Ctx) (d : DecPic) : Ctx := { x with decoding := none, dpb := x.dpb ++ [d], curW := d.w, curH := d.h }

section
variable {s : State} {c : Nat} {a : Au} (ha : (s.ctx c).decoding = some a)
include ha

theorem pictureDecoded_accepted {sps : Sps} (order : Int) (luma : List Nat) (outs : Nat) (ht : spsTools (s.ctx c).h265 sps = true)
    (hz : spsSize (s.ctx c) sps = true) : s.pictureDecoded c (.picture sps order luma outs) =
      ((s.updCtx c (fun x => x.hold (a.decoded sps order luma))).flushDpb c outs).drainAll c := by
  unfold State.pictureDecoded
  dsimp only
  rw [ha]
  dsimp only
  rw [if_neg (by simp [ht]), if_neg (by simp [hz])]
  rfl

theorem pictureDecoded_corrupt : s.pictureDecoded c .corrupt = s.decodeFail c 3 2 a.stamp := by
  unfold State.pictureDecoded
  dsimp only
  rw [ha]
end

section
variable {s : State} {c : Nat} (he : (s.ctx c).entries = []) (hd : (s.ctx c).dpb = [])
include he hd

/-- A unit that fails with none waiting behind it is declared at once as a placeholder picture. -/
theorem decodeFail_last (cause after : Nat) (stamp : Int) : ∃ u : State,
    u.ctx c = { s.ctx c with decoding := none, entries := [], wait := some ((s.ctx c).wait.getD after) } ∧ (∀ r, u.rd r = s.rd r) ∧
    s.decodeFail c cause after stamp = u.outputHole c cause stamp := by
  let w := s.updCtx c (fun x => { x with decoding := none, entries := [.hole cause stamp], wait := some (x.wait.getD after) })
  have hw : w.ctx c = { s.ctx c with decoding := none, entries := [.hole cause stamp], wait := some ((s.ctx c).wait.getD after) } := ctx_updCtx _ _ _
  have hfail : s.decodeFail c cause after stamp = w.drainAll c := by
    unfold State.decodeFail
    rw [he]
    rfl
  refine ⟨w.updCtx c (fun x => { x with entries := [] }), by rw [ctx_updCtx, hw], fun _ => rfl, ?_⟩
  rw [hfail]
  unfold State.drainAll
  rw [hw, List.length_singleton, State.drain]
  dsimp only
  rw [hw]
  dsimp only
  rw [flushDpb_none _ (by rw [hw]; exact hd)]
  rfl
end

/-! ## Transforms (R134) -/

/-- A sample after a transform engine has finished the sample numbered ssn of its context. -/
def Sample.transform (x : Sample) (k : Ctx) (ssn : Nat) (pad : Byte) : Sample :=
  if x.ssn = ssn ∧ x.cause = 0 ∧ 2 ≤ x.kind ∧ x.produced = false then
    (match k.pic x.pn with
     | some p => { x with produced := true, pix := x.produce p pad }
     | none => x)
  else x

theorem sampleProduced_eq (s : State) (c ssn : Nat) : s.sampleProduced c ssn =
    s.updCtx c (fun k => { k with samples := k.samples.map (fun x => x.transform k ssn (BitVec.ofNat 8 (s.fld Reg.SIN_CTL 7 0))) }) := rfl

theorem transform_produces {x : Sample} {k : Ctx} {ssn : Nat} {p : Picture} (pad : Byte) (hn : x.ssn = ssn) (hc : x.cause = 0) (hk : 2 ≤ x.kind)
    (hp : x.produced = false) (h : k.pic x.pn = some p) : x.transform k ssn pad = { x with produced := true, pix := x.produce p pad } := by
  unfold Sample.transform
  rw [if_pos ⟨hn, hc, hk, hp⟩, h]

theorem transform_other {x : Sample} {ssn : Nat} (k : Ctx) (pad : Byte) (hn : x.ssn ≠ ssn) : x.transform k ssn pad = x := by
  unfold Sample.transform
  exact if_neg (fun h => hn h.1)

end Sys2Proof.Machine
end

section
/-! SUPPORT. Batches: how a crop enters one at its release, how one closes and is handed (R137, R139, R140, R168). -/
namespace Sys2Proof.Machine

/-! ## Closed batches on their way to the tiles (R137, R168) -/

theorem updTile_same {f : Fld} (s : State) (t : Nat) (g : Tile → Tile) (h : f ∉ [Fld.tiles]) : f.same s (s.updTile t g) := by
  cases f <;> first | rfl | simp at h

theorem noteHome_same {f : Fld} (s : State) (t : Nat) (ids : List Nat) (h : f ∉ [Fld.items]) : f.same s (s.noteHome t ids) := by
  refine foldl_same _ (fun u id => ?_) _ _
  split
  · exact Fld.same_refl _ _
  · exact Fld.same_ite (setItem_same _ _ _ h) (Fld.same_refl _ _)

theorem enqueueGroup_same {f : Fld} (s : State) (first g kind origin : Nat) (ids : List Nat) (d : BitVec 512) (h : f ∉ [Fld.tiles, .items]) :
    f.same s (s.enqueueGroup first g kind origin ids d) :=
  Fld.same_trans (foldl_same _ (fun _ _ => updTile_same _ _ _ (by revert h; cases f <;> decide)) _ _)
    (noteHome_same _ _ _ (by revert h; cases f <;> decide))

theorem misroute_same {f : Fld} (s : State) (ids : List Nat) (h : f ∉ sealFlds) : f.same s (s.misroute ids) :=
  Fld.same_trans (foldl_same _ (fun _ _ => sealItem_same _ _ _ h) _ _)
    (Fld.same_trans (wr_same _ _ _ (by revert h; cases f <;> decide)) (raise_same _ _ _ (by revert h; cases f <;> decide)))

/-- The fields that handing a batch or a frame may change. -/
def handFlds : List Fld := sealFlds ++ [.tiles, .batchHeld, .arena]

/-- What handing a batch or a frame leaves as it was. -/
theorem hand1_same {f : Fld} (s : State) (k : Handing) (h : f ∉ handFlds) : f.same s (s.hand1 k).1 := by
  have hs : f ∉ sealFlds := by revert h; cases f <;> decide
  have hq : f ∉ [Fld.tiles, .items] := by revert h; cases f <;> decide
  have hfree : ∀ u : State, f.same u (u.arenaFree k.uid) := fun u => by cases f <;> first | rfl | simp [handFlds] at h
  have hheld : ∀ (u : State) (m : Tab (List Nat)), f.same u { u with batchHeld := m } := fun u m => by
    cases f <;> first | rfl | simp [handFlds] at h
  have hlose : f.same s ((s.arenaFree k.uid).misroute (k.items.filter (· ≠ 0))) := Fld.same_trans (hfree _) (misroute_same _ _ hs)
  unfold State.hand1
  dsimp only
  split
  · exact hlose
  · split
    · exact Fld.same_trans (hfree _) (foldl_same _ (fun _ _ => sealItem_same _ _ _ hs) _ _)
    · split
      · split
        · split
          · exact Fld.same_trans (enqueueGroup_same _ _ _ _ _ _ _ hq) (hheld _ _)
          · exact enqueueGroup_same _ _ _ _ _ _ _ hq
        · exact Fld.same_refl _ _
      · exact hlose

/-- Handing what can be handed changes, besides, the list of what waits to be handed. -/
theorem handAll_same {f : Fld} (s : State) (h : f ∉ Fld.handing :: handFlds) : f.same s s.handAll := by
  have hh : f ∉ handFlds := fun k => h (List.mem_cons_of_mem _ k)
  have hset : ∀ (u : State) (l : List Handing), f.same u { u with handing := l } := fun u l => by
    cases f <;> first | rfl | simp at h
  have hfold : ∀ (g : State × List Handing → Handing → State × List Handing), (∀ x k, f.same x.1 (g x k).1) →
      ∀ (l : List Handing) (x : State × List Handing), f.same x.1 (l.foldl g x).1 := by
    intro g hg l
    induction l with
    | nil => exact fun x => Fld.same_refl _ _
    | cons k l ih => exact fun x => Fld.same_trans (hg x k) (ih _)
  unfold State.handAll
  refine Fld.same_trans (Fld.same_trans (hset s []) (hfold _ (fun x k => ?_) _ _)) (hset _ _)
  split
  · exact Fld.same_refl _ _
  · exact hand1_same _ _ hh

/-! ## The closing of a batch (R137) -/

section
variable {s : State} {key : Nat} {b : Batch} (hb : s.batches.get none key = some b)
include hb

theorem batches_closeBatch (cause : Nat) : (s.closeBatch key cause).batches = s.batches.set none key none := by
  unfold State.closeBatch
  rw [hb]
  exact handAll_same (f := .batches) _ (by decide)

theorem batchNo_closeBatch (cause : Nat) :
    (s.closeBatch key cause).batchNo = s.batchNo.set 0 key ((s.batchNo.get 0 key + 1) % 2 ^ 32) := by
  unfold State.closeBatch
  rw [hb]
  exact handAll_same (f := .batchNo) _ (by decide)

theorem batchWait_due (h : b.opened + s.fld Reg.SIN_CTL 23 8 * 1000 ≤ s.now) : s.batchWait key = s.closeBatch key 1 := by
  unfold State.batchWait
  rw [hb]
  exact if_pos h

theorem batchWait_early (h : s.now < b.opened + s.fld Reg.SIN_CTL 23 8 * 1000) : s.batchWait key = s := by
  unfold State.batchWait
  rw [hb]
  exact if_neg (Nat.not_le.mpr h)
end

/-! ## The release of samples (R137, R139, R140) -/

/-- The context without its lowest sample, the release counted. -/
def State.dropSample (s : State) (c : Nat) (rest : List Sample) : State :=
  ((s.updCtx c (fun k => { k with samples := rest })).ctxCount c 4 1).bump Reg.SIN_CNT_SAMPLES

theorem ctx_dropSample (s : State) (c : Nat) (rest : List Sample) : ∃ l, (s.dropSample c rest).ctx c = { s.ctx c with samples := rest, cnt := l } := by
  unfold State.dropSample
  rw [ctx_bump, ctx_ctxCount, ctx_updCtx]
  exact ⟨_, rfl⟩

theorem captureCheck_none (s : State) (c : Nat) : s.captureCheck c 0 = s := by
  unfold State.captureCheck
  exact if_pos (Or.inl rfl)

/-- No capture ends while an eyespot tracks the item. -/
theorem captureCheck_tracked {s : State} {c id : Nat}
    (h : id = 0 ∨ (s.ctx c).espots.any (fun (e : Nat × Espot) => e.2.st == .track && e.2.item == id) = true) : s.captureCheck c id = s := by
  unfold State.captureCheck
  exact if_pos (h.imp_right Or.inl)

/-- A store of a unit changes no register but the count of stores to commons units that are no memory. -/
theorem rd_stUnit (s : State) (a : Nat) (b : Bytes) {r : Nat} (h : r ≠ Reg.COM_CNT_BAD_UNIT) : (s.stUnit a b).rd r = s.rd r := by
  have hfold : ∀ (q : Byte × Nat → Bool) (l : List (Byte × Nat)) (u : State),
      (l.foldl (fun t (e : Byte × Nat) => if q e then t.st (a + e.2) [e.1] else t) u).rd r = u.rd r := fun q l u =>
    rd_congr (foldl_same (f := .regs) _ (fun t e => Fld.same_ite (st_same t _ _ (by decide)) (Fld.same_refl _ t)) l u) r
  unfold State.stUnit
  dsimp only
  split
  · split
    · rfl
    · exact (rd_wr_ne _ _ h).trans (hfold _ _ _)
  · split
    · rfl
    · split
      · exact hfold _ _ _
      · rfl

/-- A crop in the arena at an address, its header in the batch's list. -/
def State.storeSample (s : State) (c : Nat) (x : Sample) (b : Batch) (addr : Nat) : State :=
  ((s.arenaTake addr x.bytes b.uid).stUnit addr x.pix).stUnit (b.hdrs + 48 * b.samples.length) (sampleHeader c { x with data := addr })

/-- A batch with that crop. -/
def Batch.add (b : Batch) (c : Nat) (x : Sample) (addr : Nat) : Batch :=
  { b with samples := b.samples ++ [(sampleHeader c { x with data := addr }, x.item)] }

/-- The lowest sample of a context in the batch under a key. -/
def State.batchSample (s : State) (c : Nat) (x : Sample) (rest : List Sample) (key : Nat) (b : Batch) (addr : Nat) : State :=
  { (s.storeSample c x b addr).dropSample c rest with batches := (s.storeSample c x b addr).batches.set none key (some (b.add c x addr)) }

section
variable (s : State) (c : Nat) (x : Sample) (rest : List Sample) (key : Nat) (b : Batch) (addr : Nat)

/-- The stores of a crop change what stores of units change. -/
theorem storeSample_same {f : Fld} (h : f ∉ stFlds) : f.same (s.arenaTake addr x.bytes b.uid) (s.storeSample c x b addr) :=
  Fld.same_trans (stUnit_same _ _ _ h) (stUnit_same _ _ _ h)

theorem dropSample_same {f : Fld} (h : f ∉ [Fld.ctxs, .regs]) : f.same s (s.dropSample c rest) := by
  have hc : f ∉ [Fld.ctxs] := by revert h; cases f <;> decide
  have hr : f ∉ [Fld.regs] := by revert h; cases f <;> decide
  exact Fld.same_trans (updCtx_same _ _ _ hc) (Fld.same_trans (updCtx_same _ _ _ hc) (wr_same _ _ _ hr))

theorem ctx_batchSample : ∃ l, (s.batchSample c x rest key b addr).ctx c = { s.ctx c with samples := rest, cnt := l } := by
  obtain ⟨l, hl⟩ := ctx_dropSample (s.storeSample c x b addr) c rest
  have hsame : (s.storeSample c x b addr).ctx c = s.ctx c := ctx_congr (storeSample_same (f := .ctxs) s c x b addr (by decide)) c
  rw [hsame] at hl
  exact ⟨l, hl⟩

theorem batches_batchSample : (s.batchSample c x rest key b addr).batches = s.batches.set none key (some (b.add c x addr)) :=
  congrArg (fun m => Tab.set none m key (some (b.add c x addr))) (storeSample_same (f := .batches) s c x b addr (by decide))

theorem arena_batchSample : (s.batchSample c x rest key b addr).arena = (addr, x.bytes, b.uid) :: s.arena := by
  have hdrop := dropSample_same (f := .arena) (s.storeSample c x b addr) c rest (by decide)
  exact Eq.trans hdrop (storeSample_same (f := .arena) s c x b addr (by decide))

theorem batchUrgent_batchSample (k : Batch) : (s.batchSample c x rest key b addr).batchUrgent k = s.batchUrgent k := by
  have hitems : (s.batchSample c x rest key b addr).items = s.items := by
    have hdrop := dropSample_same (f := .items) (s.storeSample c x b addr) c rest (by decide)
    exact Eq.trans hdrop (storeSample_same (f := .items) s c x b addr (by decide))
  unfold State.batchUrgent
  rw [hitems]

theorem rd_batchSample_ctl : (s.batchSample c x rest key b addr).rd Reg.SIN_CTL = s.rd Reg.SIN_CTL := by
  have hdrop : ((s.storeSample c x b addr).dropSample c rest).rd Reg.SIN_CTL = (s.storeSample c x b addr).rd Reg.SIN_CTL :=
    (rd_bump_ne _ (by decide)).trans ((rd_updCtx _ _ _ _).trans (rd_updCtx _ _ _ _))
  exact hdrop.trans ((rd_stUnit _ _ _ (by decide)).trans (rd_stUnit _ _ _ (by decide)))

/-- A batch stays without urgent items when the item it gains is not urgent. -/
theorem batchUrgent_add {s : State} {b : Batch} {x : Sample} (hb : s.batchUrgent b = false) (hi : ∀ it, s.items.look x.item = some it → it.urg < 2) :
    s.batchUrgent (b.add c x addr) = false := by
  have hx : (match s.items.look x.item with | some it => decide (2 ≤ it.urg) | none => false) = false := by
    cases hl : s.items.look x.item with
    | none => rfl
    | some it => exact decide_eq_false (Nat.not_le.mpr (hi it hl))
  unfold State.batchUrgent at hb ⊢
  unfold Batch.add
  rw [List.any_append, hb, List.any_cons, List.any_nil, Bool.or_false, Bool.false_or]
  exact hx
end

/-- With every retained picture's samples created, the end of a release changes the context's retained pictures only. -/
theorem ctx_advanceAll_created {s : State} {c : Nat} (h : (s.ctx c).pics.all (·.created) = true) : (s.advanceAll c).ctx c = (s.ctx c).trim := by
  unfold State.advanceAll
  rw [advance_created _ h, ctx_updCtx]

theorem advanceAll_created_same {f : Fld} {s : State} {c : Nat} (h : (s.ctx c).pics.all (·.created) = true) (hf : f ∉ [Fld.ctxs]) :
    f.same s (s.advanceAll c) := by
  unfold State.advanceAll
  rw [advance_created _ h]
  exact updCtx_same _ _ _ hf

section
variable {s : State} {c : Nat} {x : Sample} {rest : List Sample} (hs : (s.ctx c).samples = x :: rest)
include hs

theorem sampleRelease_hole (h : x.cause ≠ 0) : s.sampleRelease c =
    (((s.dropSample c rest).updCtx c (fun k => { k with notices := sampleHeader c x :: k.notices })).captureCheck c x.item).advanceAll c := by
  unfold State.sampleRelease
  rw [hs]
  exact if_pos h

/-- A produced crop or re-read sample whose batch is open and stays open. -/
theorem sampleRelease_batch {b : Batch} {addr : Nat} (h0 : x.cause = 0) (h1 : x.kind ≠ 1) (hp : x.produced = true)
    (hb : s.batches.get none (8 * s.ctxPart c + bucketOf x.outW) = some b) (ha : s.arenaFit x.bytes = some addr)
    (hn : (b.add c x addr).samples.length < s.fld Reg.SIN_CTL 30 24) (hu : s.batchUrgent (b.add c x addr) = false) :
    s.sampleRelease c =
      ((s.batchSample c x rest (8 * s.ctxPart c + bucketOf x.outW) b addr).captureCheck c x.item).advanceAll c := by
  have hfull : ¬ (s.batchSample c x rest (8 * s.ctxPart c + bucketOf x.outW) b addr).fld Reg.SIN_CTL 30 24 ≤ (b.add c x addr).samples.length := by
    rw [fld_congr (rd_batchSample_ctl _ _ _ _ _ _ _)]
    exact Nat.not_le.mpr hn
  have hcalm : ¬ (s.batchSample c x rest (8 * s.ctxPart c + bucketOf x.outW) b addr).batchUrgent (b.add c x addr) = true := by
    rw [batchUrgent_batchSample, hu]
    exact Bool.false_ne_true
  obtain ⟨fit, hfit⟩ : ∃ fit, fit = State.arenaFit := ⟨_, rfl⟩  -- opaque, so that the kernel does not evaluate it
  unfold State.sampleRelease
  rw [← hfit] at ha ⊢
  rw [hs]
  dsimp -zeta only
  extract_lets drop part _ _ _ key r
  rw [if_neg (not_not_intro h0), if_neg h1, if_pos hp]
  have hr : r = some (b, s) := by
    unfold r
    rw [show s.batches.get none key = some b from hb]
  rw [hr]
  dsimp -zeta only
  rw [ha]
  dsimp -zeta only
  extract_lets _ _ _ _ _ _ _ u
  have hopen : u = s.batchSample c x rest (8 * s.ctxPart c + bucketOf x.outW) b addr := (if_neg hfull).trans (if_neg hcalm)
  rw [hopen]
end

end Sys2Proof.Machine
end

section
/-! SUPPORT. The statement of decoding and samples, clause by clause (R125 to R128, R134, R136 to R140). -/
namespace Sys2Proof.Machine

section
variable {s : State} {c : Nat} {a : Au} (ha : (s.ctx c).decoding = some a) (he : (s.ctx c).entries = [])
include ha he

/-- An accepted picture with no output due is held, and nothing else follows. -/
theorem pictureDecoded_held {sps : Sps} (order : Int) (luma : List Nat) (ht : spsTools (s.ctx c).h265 sps = true)
    (hz : spsSize (s.ctx c) sps = true) :
    (s.pictureDecoded c (.picture sps order luma 0)).ctx c = (s.ctx c).hold (a.decoded sps order luma) := by
  have hu := ctx_updCtx s c (fun x => x.hold (a.decoded sps order luma))
  rw [pictureDecoded_accepted ha order luma 0 ht hz]
  show ((s.updCtx c (fun x => x.hold (a.decoded sps order luma))).drainAll c).ctx c = _
  rw [drainAll_nil (by rw [hu]; exact he), hu]

/-- An accepted picture that is output at once, the only one of its context. -/
theorem pictureDecoded_output {sps : Sps} (order : Int) (luma : List Nat) (ht : spsTools (s.ctx c).h265 sps = true)
    (hz : spsSize (s.ctx c) sps = true) (hd : (s.ctx c).dpb = []) (hp : (s.ctx c).pics = []) (hes : (s.ctx c).espots = [])
    (hf : (s.ctx c).pn % (s.ctx c).f 7 30 24 = 0) : ∃ addr,
    let d := a.decoded sps order luma
    let p : Picture := { pn := (s.ctx c).pn, stamp := d.stamp, w := d.w, h := d.h, luma := d.luma, addr := addr }
    ∃ l, (s.pictureDecoded c (.picture sps order luma 1)).ctx c = Ctx.trim { (s.ctx c).hold d with
      dpb := [], pn := ((s.ctx c).pn + 1) % 2 ^ 32, pics := [{ p with created := true, need := true }],
      ssn := ((s.ctx c).ssn + 1) % 2 ^ 32, cnt := l, samples := (s.ctx c).samples ++ [p.frameSample (s.ctx c).ssn] } := by
  have hu := ctx_updCtx s c (fun x => x.hold (a.decoded sps order luma))
  have hdpb : ((s.updCtx c (fun x => x.hold (a.decoded sps order luma))).ctx c).dpb = [a.decoded sps order luma] := by
    rw [hu]
    exact congrArg (· ++ [a.decoded sps order luma]) hd
  have hw := ctx_updCtx (s.updCtx c (fun x => x.hold (a.decoded sps order luma))) c
    (fun x => { x with dpb := x.dpb.erase (a.decoded sps order luma) })
  rw [hdpb, List.erase_cons_head, hu] at hw
  obtain ⟨addr, l, hout⟩ := outputPic_first (a.decoded sps order luma) (s := (s.updCtx c (fun x => x.hold (a.decoded sps order luma))).updCtx c
    (fun x => { x with dpb := x.dpb.erase (a.decoded sps order luma) })) (c := c) (by rw [hw]; exact hp) (by rw [hw]; exact hes) (by rw [hw]; exact hf)
  rw [hw] at hout
  refine ⟨addr, l, ?_⟩
  rw [pictureDecoded_accepted ha order luma 1 ht hz, flushDpb_only hdpb, drainAll_nil (by rw [hout]; exact he), hout]
  rfl

/-- A corrupt unit becomes a placeholder picture with its placeholder sample. -/
theorem pictureDecoded_hole (hd : (s.ctx c).dpb = []) (hp : (s.ctx c).pics = []) :
    let p : Picture := { pn := (s.ctx c).pn, stamp := a.stamp, cause := 3 }
    (∃ l, (s.pictureDecoded c .corrupt).ctx c = Ctx.trim { s.ctx c with
      decoding := none, entries := [], wait := some ((s.ctx c).wait.getD 2), pn := ((s.ctx c).pn + 1) % 2 ^ 32,
      pics := [{ p with created := true }], ssn := ((s.ctx c).ssn + 1) % 2 ^ 32, cnt := l,
      samples := (s.ctx c).samples ++ [p.holeSample (s.ctx c).ssn] }) ∧
    (s.pictureDecoded c .corrupt).rd Reg.SIN_CNT_PLACEHOLDER = s.rd Reg.SIN_CNT_PLACEHOLDER + 1 := by
  obtain ⟨u, hu, hrd, hfail⟩ := decodeFail_last he hd 3 2 a.stamp
  have hout := outputHole_first (s := u) (c := c) (cause := 3) a.stamp (by rw [hu]; exact hp) (by decide)
  rw [hu, hrd] at hout
  rw [pictureDecoded_corrupt ha, hfail]
  exact hout
end

section
variable {s : State} {c : Nat} {x : Sample} {rest : List Sample} (hs : (s.ctx c).samples = x :: rest)
  (hpics : (s.ctx c).pics.all (·.created) = true)
include hs hpics

/-- A placeholder without an item at the head is handed to record assembly, counted. -/
theorem sampleRelease_placeholder (h : x.cause ≠ 0) (hi : x.item = 0) :
    (∃ l, (s.sampleRelease c).ctx c =
      Ctx.trim { s.ctx c with samples := rest, notices := sampleHeader c x :: (s.ctx c).notices, cnt := l }) ∧
    (s.sampleRelease c).rd Reg.SIN_CNT_SAMPLES = s.rd Reg.SIN_CNT_SAMPLES + 1 := by
  obtain ⟨l, hl⟩ := ctx_dropSample s c rest
  have hu := ctx_updCtx (s.dropSample c rest) c (fun k => { k with notices := sampleHeader c x :: k.notices })
  rw [hl] at hu
  have hall : (((s.dropSample c rest).updCtx c (fun k => { k with notices := sampleHeader c x :: k.notices })).ctx c).pics.all (·.created) = true := by
    rw [hu]
    exact hpics
  rw [sampleRelease_hole hs h, captureCheck_tracked (.inl hi)]
  refine ⟨⟨l, (ctx_advanceAll_created hall).trans (by rw [hu])⟩, ?_⟩
  have hregs := advanceAll_created_same (f := .regs) hall (by decide)
  refine (rd_congr hregs _).trans ((rd_updCtx _ _ _ _).trans ((rd_bump_same _ _).trans ?_))
  rfl

/-- A produced crop goes into its open batch, which stays open, and into the arena. -/
theorem sampleRelease_crop {b : Batch} {addr : Nat} (h0 : x.cause = 0) (h1 : x.kind ≠ 1) (hp : x.produced = true)
    (hcap : x.item = 0 ∨ (s.ctx c).espots.any (fun (e : Nat × Espot) => e.2.st == .track && e.2.item == x.item) = true)
    (hb : s.batches.get none (8 * s.ctxPart c + bucketOf x.outW) = some b) (ha : s.arenaFit x.bytes = some addr)
    (hn : b.samples.length + 1 < s.fld Reg.SIN_CTL 30 24) (hit : ∀ it, s.items.look x.item = some it → it.urg < 2)
    (hu : s.batchUrgent b = false) :
    (∃ l, (s.sampleRelease c).ctx c = Ctx.trim { s.ctx c with samples := rest, cnt := l }) ∧
    (s.sampleRelease c).batches = s.batches.set none (8 * s.ctxPart c + bucketOf x.outW) (some (b.add c x addr)) ∧
    (s.sampleRelease c).arena = (addr, x.bytes, b.uid) :: s.arena := by
  have hlen : (b.add c x addr).samples.length = b.samples.length + 1 := List.length_append
  obtain ⟨l, hl⟩ := ctx_batchSample s c x rest (8 * s.ctxPart c + bucketOf x.outW) b addr
  have hall : ((s.batchSample c x rest (8 * s.ctxPart c + bucketOf x.outW) b addr).ctx c).pics.all (·.created) = true := by
    rw [hl]
    exact hpics
  rw [sampleRelease_batch hs h0 h1 hp hb ha (by rw [hlen]; exact hn) (batchUrgent_add c addr hu hit), captureCheck_tracked (by rw [hl]; exact hcap)]
  exact ⟨⟨l, by rw [ctx_advanceAll_created hall, hl]⟩,
    (advanceAll_created_same (f := .batches) hall (by decide)).trans (batches_batchSample _ _ _ _ _ _ _),
    (advanceAll_created_same (f := .arena) hall (by decide)).trans (arena_batchSample _ _ _ _ _ _ _)⟩
end

/-- Settles O30: each row by the one branch that its premises leave, and the context, batch or arena that this branch stores. -/
theorem decodingAndSamples : Obligations.DecodingAndSamples := by
  unfold Obligations.DecodingAndSamples
  refine ⟨fun s => ⟨fun hn c a h => ⟨_, rfl, ?_⟩, fun hn => ⟨_, rfl, fun k => ?_⟩⟩,
    fun c s a ha he => ⟨fun sps order luma outs ht hz => ⟨?_, ?_⟩, fun hd hp hsm => ⟨_, rfl, ?_⟩⟩,
    fun c ssn s => ⟨_, rfl, fun k hk => ?_, fun i x hx => ⟨fun hn h0 hk hp p hpic => ?_, fun hn => ?_⟩⟩,
    fun c s x rest hs hpics => ⟨fun h hi => ⟨_, rfl, ?_⟩, fun h0 h1 hp hcap b addr hb ha hn hit hu => ⟨_, rfl, ?_⟩⟩,
    fun part bucket s b hb => ⟨fun h => ⟨_, rfl, ?_⟩, fun h => ⟨_, rfl, ?_⟩⟩⟩
  · rw [decodeStart_gives hn h]
    exact ⟨(taken_ctx _ _ (by decide) c).trans (ctx_updCtx _ _ _),
      fun k hk => (taken_ctx _ _ (by decide) k).trans (ctx_updCtx_ne _ _ hk)⟩
  · rw [decodeStart_full hn, taken_ctx _ _ (by decide)]
  · rintro rfl
    refine ⟨_, rfl, ?_⟩
    rw [taken_ctx _ _ (by decide), pictureDecoded_held ha he order luma ht hz]
    exact ⟨rfl, ⟨_, rfl, rfl, rfl, rfl⟩, rfl⟩
  · rintro rfl hd hp hes hsm hf
    obtain ⟨addr, l, hx⟩ := pictureDecoded_output ha he order luma ht hz hd hp hes hf
    refine ⟨_, rfl, ?_⟩
    rw [taken_ctx _ _ (by decide), hx, hsm]
    exact ⟨rfl, rfl, rfl, ⟨_, trim_unreleased rfl (by simp [Picture.frameSample]), rfl, rfl, rfl, rfl⟩, _, rfl, rfl, rfl, rfl, rfl, rfl⟩
  · obtain ⟨⟨l, hx⟩, hcnt⟩ := pictureDecoded_hole ha he hd hp
    rw [taken_ctx _ _ (by decide), hx, hsm, taken_rd _ _ (by decide)]
    exact ⟨rfl, rfl, rfl, ⟨_, rfl, rfl, rfl, rfl⟩, hcnt⟩
  · rw [taken_ctx _ _ (by decide), sampleProduced_eq, ctx_updCtx_ne _ _ hk]
  · rw [taken_ctx _ _ (by decide), sampleProduced_eq, ctx_updCtx, List.getElem?_map, hx, Option.map_some,
      transform_produces _ hn h0 hk hp hpic]
  · rw [taken_ctx _ _ (by decide), sampleProduced_eq, ctx_updCtx, List.getElem?_map, hx, Option.map_some, transform_other _ _ hn]
  · obtain ⟨⟨l, hx⟩, hcnt⟩ := sampleRelease_placeholder hs hpics h hi
    rw [taken_ctx _ _ (by decide), hx, taken_rd _ _ (by decide)]
    exact ⟨rfl, rfl, hcnt⟩
  · obtain ⟨⟨l, hx⟩, hbat, hare⟩ := sampleRelease_crop hs hpics h0 h1 hp hcap hb ha hn hit hu
    rw [taken_ctx _ _ (by decide), hx, taken_batches, if_pos (by decide), hbat, taken_arena, if_pos (by decide), hare]
    exact ⟨rfl, Tab.get_set_same _ _ _ _, rfl⟩
  · rw [taken_batches, if_pos (by decide), taken_batchNo, if_pos (by decide), batchWait_due hb h, batches_closeBatch hb, batchNo_closeBatch hb]
    exact ⟨Tab.get_set_same _ _ _ _, Tab.get_set_same _ _ _ _⟩
  · rw [batchWait_early hb h]
    exact ⟨rfl, rfl, rfl⟩

end Sys2Proof.Machine
end

section
/-! SUPPORT. What CTX_LOAD shows of a context's status (R113). -/
namespace Sys2Proof.Machine

/-- A write of CTX_SEL with LOAD alone stores the selector and loads (R113). -/
theorem ctxSel_load (s : State) {v : Word} (h : bit v 31 = false) :
    s.ctxSel (v ||| 0x40000000) = (s.wr Reg.CTX_SEL (BitVec.ofNat 32 (bits v 9 0))).ctxLoad (bits v 9 0) := by
  have hc : bits (v ||| 0x40000000) 9 0 = bits v 9 0 := bits_or_zero v 0x40000000 (by decide)
  have hcommit : bit (v ||| 0x40000000) 31 = false := by rw [bit_or, h]; decide
  have hload : bit (v ||| 0x40000000) 30 = true := by rw [bit_or, Bool.or_eq_true]; exact .inr (by decide)
  unfold State.ctxSel
  rw [hc, hcommit, hload]
  rfl

/-- STATE of CTX_STS after a LOAD: CMT_ERR, which the model stores as a number without a width, is added below it and carries into it. -/
theorem fld_ctxLoad_state (s : State) (c : Nat) :
    (s.ctxLoad c).fld Reg.CTX_STS 31 30 = ((s.ctx c).state + (s.ctx c).cmtErr / 64) % 4 := by
  have hrd : (s.ctxLoad c).rd Reg.CTX_STS = BitVec.ofNat 32 ((s.ctx c).state * 2 ^ 30 + (s.ctx c).cmtErr * 2 ^ 24) :=
    (rd_wr_ne _ _ (by decide)).trans ((rd_wr_ne _ _ (by decide)).trans (rd_wr_same _ _ _))
  unfold State.fld bits nbits
  rw [hrd, BitVec.toNat_ofNat]
  omega

/-- Context 0 of this state, disabled, holds the commit error 64: the least that reaches past CMT_ERR (bits 27:24) and bits 29:28 into STATE. -/
def wideError : State := { State.reset with ctxs := [(0, { cmtErr := 64 })] }

/-- Refutes O29: the clause of CTX_LOAD speaks of every state, also of one with a commit error of 64, which carries into STATE of CTX_STS:
the disabled context 0 of `wideError` reads as WAIT_IRAP. No commit stores a code above 4 (R114, R115), so the clause lacks a bound on CMT_ERR. -/
theorem not_streamContextsAndPackets : ¬ Obligations.StreamContextsAndPackets := by
  unfold Obligations.StreamContextsAndPackets
  rintro ⟨-, hload, -⟩
  obtain ⟨t, ht, -, -, hstate, -⟩ := hload 0 wideError (by decide) (by decide)
  have hnext : wideError.taken (wideError.ctxSel (0 ||| 0x40000000)) (footprint (.ctxLoad 0)) = t := Host.Outcome.next.inj ht
  rw [← hnext, taken_fld _ _ (by decide), ctxSel_load _ (by decide), fld_ctxLoad_state] at hstate
  exact absurd hstate (by decide)

end Sys2Proof.Machine
end

section
/-! SUPPORT. Vision tiles: what a tile's record, registers and memory read after each operation of a tile, and what a fault leaves
(R143, R148, R149, R172, R177). -/
namespace Sys2Proof.Machine

/-! ## A tile's record -/

@[simp] theorem tile_updTile (s : State) (t : Nat) (f : Tile → Tile) : (s.updTile t f).tile t = f (s.tile t) := by
  simp [State.tile, State.updTile, State.setTile]

theorem tile_updTile_ne (s : State) {t k : Nat} (f : Tile → Tile) (h : k ≠ t) : (s.updTile t f).tile k = s.tile k := Tab.get_set_ne _ _ _ h

theorem tile_congr {s t : State} (h : t.tiles = s.tiles) (k : Nat) : t.tile k = s.tile k := by unfold State.tile; rw [h]

theorem taken_tile (s t : State) {w : List Fld} (h : .tiles ∈ w) (k : Nat) : (s.taken t w).tile k = t.tile k :=
  tile_congr (s := t) (by rw [taken_tiles, if_pos h]) k

/-! ## The registers of a tile's page -/

/-- A register of the tile pages holds no pending bit of a channel and does not count dropped messages. -/
theorem not_msgReg_tile {a : Nat} (h : 0x100000 ≤ a ∧ a < 0x1A0000) : ¬ msgReg a := not_msgReg (.inr (by omega)) (by omega)

theorem taken_tileState (s t : State) {w : List Fld} (h : .regs ∈ w) (k : Nat) : (s.taken t w).tileState k = t.tileState k :=
  taken_fld s t h _ _ _

theorem taken_tpc (s t : State) {w : List Fld} (h : .regs ∈ w) (k : Nat) : (s.taken t w).tpc k = t.tpc k :=
  congrArg (· * 32) (taken_fld s t h _ _ _)

theorem taken_tsem (s t : State) {w : List Fld} (h : .regs ∈ w) (k i : Nat) : (s.taken t w).tsem k i = t.tsem k i :=
  taken_fld s t h _ _ _

theorem tileState_congr {s u : State} {t : Nat} (h : u.rd (Reg.TILE_STS t) = s.rd (Reg.TILE_STS t)) : u.tileState t = s.tileState t :=
  fld_congr h _ _

theorem tpc_congr {s u : State} {t : Nat} (h : u.rd (Reg.TILE_PC t) = s.rd (Reg.TILE_PC t)) : u.tpc t = s.tpc t :=
  congrArg (· * 32) (fld_congr h _ _)

theorem tsem_congr {s u : State} {t i : Nat} (h : u.rd (Reg.TILE_SEM_01 t + 4 * (i / 2)) = s.rd (Reg.TILE_SEM_01 t + 4 * (i / 2))) :
    u.tsem t i = s.tsem t i := fld_congr h _ _

theorem tileState_setTileState (s : State) (t : Nat) {n : Nat} (h : n < 4) : (s.setTileState t n).tileState t = n :=
  (fld_setFld _ _ _ (by decide) (by decide)).trans (Nat.mod_eq_of_lt h)

theorem rd_setTileState_ne (s : State) {t r : Nat} (n : Nat) (h : r ≠ Reg.TILE_STS t) : (s.setTileState t n).rd r = s.rd r :=
  rd_setFld_ne _ _ _ _ h

theorem tileState_updTile (s : State) (k t : Nat) (f : Tile → Tile) : (s.updTile k f).tileState t = s.tileState t :=
  tileState_congr (rd_updTile _ _ _ _)

theorem updTile_parts (s : State) (t : Nat) (f : Tile → Tile) : (s.updTile t f).parts = s.parts := rfl

theorem rd_setTpc_ne (s : State) {t r : Nat} (n : Nat) (h : r ≠ Reg.TILE_PC t) : (s.setTpc t n).rd r = s.rd r := rd_wr_ne _ _ h

theorem tpc_setTpc (s : State) (t n : Nat) : (s.setTpc t n).tpc t = n % 0x100000 / 32 * 32 := by
  unfold State.setTpc State.tpc State.fld bits nbits
  rw [rd_wr_same, BitVec.toNat_ofNat]
  omega

/-- The PC is a multiple of 32 below the 20 bits it has (R177). -/
theorem tpc_aligned (s : State) (t : Nat) : s.tpc t % 32 = 0 := Nat.mul_mod_left _ _

/-- An instruction's next address that lies in the window's first megabyte is the PC afterwards. -/
theorem tpc_setTpc_of_lt (s : State) (t : Nat) {n : Nat} (h : n < 0x100000) (ha : n % 32 = 0) : (s.setTpc t n).tpc t = n := by
  rw [tpc_setTpc]; omega

theorem tileState_setTpc (s : State) (t n : Nat) : (s.setTpc t n).tileState t = s.tileState t :=
  tileState_congr (rd_setTpc_ne s n (by unfold Reg.TILE_STS Reg.TILE_PC; omega))

theorem tsem_setTpc (s : State) (t n i : Nat) : (s.setTpc t n).tsem t i = s.tsem t i :=
  tsem_congr (rd_setTpc_ne s n (by unfold Reg.TILE_SEM_01 Reg.TILE_PC; omega))

theorem setTpc_same {f : Fld} (s : State) (t n : Nat) (h : f ∉ [Fld.regs]) : f.same s (s.setTpc t n) := wr_same _ _ _ h

/-! ## Semaphores (R148, R149) -/

theorem tsem_lt (s : State) (t i : Nat) : s.tsem t i < 65536 := by
  have h := nbits_lt (s.rd (Reg.TILE_SEM_01 t + 4 * (i / 2))).toNat (16 * (i % 2) + 15) (16 * (i % 2))
  rwa [show 16 * (i % 2) + 15 + 1 - 16 * (i % 2) = 16 by omega] at h

theorem tsem_setTsem (s : State) (t i : Nat) {n : Nat} (h : n < 65536) : (s.setTsem t i n).tsem t i = n := by
  refine (fld_setFld _ _ _ (by omega) (by omega)).trans ?_
  rw [show 16 * (i % 2) + 15 + 1 - 16 * (i % 2) = 16 by omega]
  exact Nat.mod_eq_of_lt h

/-- Another semaphore is in another register, or in the other half of the same one. -/
theorem tsem_setTsem_ne (s : State) (t n : Nat) {i j : Nat} (h : j ≠ i) : (s.setTsem t i n).tsem t j = s.tsem t j := by
  by_cases hr : j / 2 = i / 2
  · unfold State.tsem State.setTsem
    rw [hr]
    exact fld_setFld_ne _ _ _ (by omega) (by omega) (by omega) (by omega)
  · exact tsem_congr (rd_setFld_ne _ _ _ _ (by omega))

theorem rd_setTsem_ne (s : State) {t i r : Nat} (n : Nat) (h : r ≠ Reg.TILE_SEM_01 t + 4 * (i / 2)) : (s.setTsem t i n).rd r = s.rd r :=
  rd_setFld_ne _ _ _ _ h

theorem setTsem_same {f : Fld} (s : State) (t i n : Nat) (h : f ∉ [Fld.regs]) : f.same s (s.setTsem t i n) := wr_same _ _ _ h

theorem tileState_setTsem (s : State) (t i n : Nat) : (s.setTsem t i n).tileState t = s.tileState t :=
  tileState_congr (rd_setTsem_ne s n (by unfold Reg.TILE_SEM_01 Reg.TILE_STS; omega))

theorem tpc_setTsem (s : State) (t i n : Nat) : (s.setTsem t i n).tpc t = s.tpc t :=
  tpc_congr (rd_setTsem_ne s n (by unfold Reg.TILE_SEM_01 Reg.TILE_PC; omega))

/-! ## Bytes read and stored -/

theorem byte_congr {s t : State} (h : t.mem = s.mem) (x : Nat) : t.byte x = s.byte x := by unfold State.byte; rw [h]

@[simp] theorem length_memBytes (m : List Host.Cell) (a n : Nat) : (memBytes m a n).length = n := by
  induction n generalizing a with
  | zero => rfl
  | succ n ih => rw [memBytes, List.length_cons, ih]

@[simp] theorem length_ld (s : State) (a n : Nat) : (s.ld a n).length = n := length_memBytes _ _ _

theorem getD_memBytes (m : List Host.Cell) (a : Nat) {n i : Nat} (h : i < n) : (memBytes m a n).getD i 0 = Tab.get 0 m (a + i) := by
  induction n generalizing a i with
  | zero => omega
  | succ n ih =>
    cases i with
    | zero => rfl
    | succ i =>
      rw [memBytes, List.getD_cons_succ, ih _ (by omega), show a + 1 + i = a + (i + 1) by omega]

/-- Byte i of a read is the byte of that address. -/
theorem getD_ld (s : State) (a : Nat) {n i : Nat} (h : i < n) : (s.ld a n).getD i 0 = s.byte (a + i) := getD_memBytes _ _ h

theorem byte_st_ne (s : State) (a : Nat) (b : Bytes) {x : Nat} (h : x < a ∨ a + b.length ≤ x) : (s.st a b).byte x = s.byte x :=
  get_memStore_ne _ _ _ h

theorem byte_st (s : State) (a : Nat) (b : Bytes) {i : Nat} (h : i < b.length) : (s.st a b).byte (a + i) = b.getD i 0 := by
  refine (get_memStore s.mem a b (by omega) (by omega)).trans ?_
  rw [Nat.add_sub_cancel_left, List.headD_eq_head?_getD, List.head?_drop, List.getD_eq_getElem?_getD]

/-! ## A tile that stops, and a fault (R172, R355) -/

theorem tileOwner_congr {s u : State} (h : u.parts = s.parts) (t : Nat) : u.tileOwner t = s.tileOwner t := by
  unfold State.tileOwner State.ownerBy State.part; rw [h]

theorem part_congr {s u : State} (h : u.parts = s.parts) (p : Nat) : u.part p = s.part p := by unfold State.part; rw [h]

theorem noYield_congr {s u : State} {t : Nat} (h : u.parts = s.parts) (hy : s.noYield t) : u.noYield t := by
  intro p hp
  rw [part_congr h]
  exact hy p (by rwa [tileOwner_congr h] at hp)

/-- Where no partition waits for the tile, its stop has no further effect. -/
theorem tileStopped_noYield {s : State} {t : Nat} (h : s.noYield t) : s.tileStopped t = s := by
  unfold State.tileStopped
  split
  · rename_i p hp
    exact if_neg (fun e => h p hp e.1)
  · rfl

/-- The registers of a tile that has faulted, before the event is raised. -/
def State.faultShown (s : State) (t pc : Nat) (f : TFault) : State :=
  ((s.setTileState t 2).setFld (Reg.TILE_STS t) 29 24 f.code).wr (Reg.TILE_FAULT t) (BitVec.ofNat 32 (pc % 0x100000))

theorem faultShown_same {g : Fld} (s : State) (t pc : Nat) (f : TFault) (h : g ∉ [Fld.regs]) : g.same s (s.faultShown t pc f) :=
  Fld.same_trans (Fld.same_trans (wr_same _ _ _ h) (wr_same _ _ _ h)) (wr_same _ _ _ h)

theorem tileFault_eq {s : State} {t : Nat} (pc : Nat) {f : TFault} (hf : f ≠ .ecc) (hy : s.noYield t) :
    s.tileFault t pc f = (s.faultShown t pc f).raise (tilePage t) 1 := by
  unfold State.tileFault
  dsimp only
  rw [if_neg hf]
  exact tileStopped_noYield (noYield_congr ((raise_parts (s.faultShown t pc f) _ _).trans (faultShown_same (g := .parts) _ _ _ _ (by decide))) hy)

theorem TFault.code_lt (f : TFault) : f.code < 64 := by cases f <;> decide

section
variable {s : State} {t pc : Nat} {f : TFault} (ht : t < 160) (hf : f ≠ .ecc) (hy : s.noYield t)
include hf hy

theorem tileFault_same {g : Fld} (h : g ∉ [Fld.regs, .holding, .msix, .hevt, .out]) : g.same s (s.tileFault t pc f) := by
  rw [tileFault_eq pc hf hy]
  exact Fld.same_trans (faultShown_same _ _ _ _ (notMem_part h (by decide))) (raise_same _ _ _ h)

include ht

theorem rd_tileFault_sts : (s.tileFault t pc f).rd (Reg.TILE_STS t) = ((s.setTileState t 2).setFld (Reg.TILE_STS t) 29 24 f.code).rd (Reg.TILE_STS t) := by
  rw [tileFault_eq pc hf hy]
  exact (rd_raise _ _ _ (not_msgReg_tile (by unfold Reg.TILE_STS; omega)) (by unfold tilePage Reg.TILE_STS; omega)).trans
    (rd_wr_ne _ _ (by unfold Reg.TILE_FAULT Reg.TILE_STS; omega))

/-- A fault leaves the tile in FAULT, with its code and the event raised. -/
theorem tileState_tileFault : (s.tileFault t pc f).tileState t = 2 :=
  (fld_congr (rd_tileFault_sts ht hf hy) _ _).trans
    ((fld_setFld_ne _ _ _ (by decide) (by decide) (by decide) (by decide)).trans (tileState_setTileState s t (by decide)))

theorem code_tileFault : (s.tileFault t pc f).fld (Reg.TILE_STS t) 29 24 = f.code :=
  (fld_congr (rd_tileFault_sts ht hf hy) _ _).trans
    ((fld_setFld _ _ _ (by decide) (by decide)).trans (Nat.mod_eq_of_lt f.code_lt))

theorem flag_tileFault : (s.tileFault t pc f).flag (tilePage t + 0x10) 1 = true := by
  rw [tileFault_eq pc hf hy]
  exact flag_raise_self _ _ _ (by decide) (not_msgReg_tile (by unfold tilePage; omega))
end

/-! ## Posting and completing (R148, R149) -/

theorem tilePost_adds {s : State} {t i : Nat} (pc : Nat) (h : s.tsem t i < 65535) : s.tilePost t pc i = s.setTsem t i (s.tsem t i + 1) :=
  if_neg (by omega)

theorem tilePost_overflows {s : State} {t i : Nat} (pc : Nat) (h : s.tsem t i = 65535) : s.tilePost t pc i = s.tileFault t pc .semOvf := if_pos h

section
variable (s : State) (t pc : Nat) {b : Bytes}

theorem tileComplete_post (hp : 128 ≤ byteAt b 3) (hs : byteAt b 1 / 2 % 2 = 0) : s.tileComplete t pc b false = s.tilePost t pc (byteAt b 3 % 16) := by
  unfold State.tileComplete
  rw [if_pos hp, if_neg (by simp [hs])]

theorem tileComplete_plain (hp : byteAt b 3 < 128) (hs : byteAt b 1 / 2 % 2 = 0) : s.tileComplete t pc b false = s := by
  unfold State.tileComplete
  rw [if_neg (Nat.not_le.mpr hp), if_neg (by simp [hs])]

theorem tileComplete_signal (hp : byteAt b 3 < 128) (hs : byteAt b 1 / 2 % 2 = 1) : s.tileComplete t pc b false = s.raise (tilePage t) 5 := by
  unfold State.tileComplete
  rw [if_neg (Nat.not_le.mpr hp), if_pos (Or.inl hs)]
end

theorem tileSettle_running {s : State} {t : Nat} (h : (s.tile t).stopping = false) : s.tileSettle t = s := if_neg (by simp [h])

end Sys2Proof.Machine
end

section
/-! SUPPORT. The sequencer: what it does with the instruction it has come to, once it can take it (R148 to R152, R172). -/
namespace Sys2Proof.Machine

/-! ## The bytes of a one-slot instruction -/

theorem byteAt_eq_getD (b : Bytes) (i : Nat) : byteAt b i = (b.getD i 0).toNat := by
  unfold byteAt
  rw [List.headD_eq_head?_getD, List.head?_drop, List.getD_eq_getElem?_getD]

section
variable {b : Bytes} (hb : b.length = 64)
include hb

/-- The first slot reads as in the 64 bytes fetched. -/
theorem byteAt_firstSlot {i : Nat} (h : i < 32) : byteAt (b.take 32 ++ zeros 32) i = byteAt b i := by
  have hi : i < (b.take 32).length := by rw [List.length_take]; omega
  rw [byteAt_eq_getD, byteAt_eq_getD, List.getD_append _ _ _ _ hi, List.getD_eq_getElem?_getD, List.getD_eq_getElem?_getD,
    List.getElem?_take_of_lt h]

theorem leAt_firstSlot {i k : Nat} (h : i + k ≤ 32) : leAt (b.take 32 ++ zeros 32) i k = leAt b i k := by
  have hl : (b.take 32).length = 32 := by rw [List.length_take]; omega
  unfold leAt
  rw [List.drop_append_of_le_length (by omega), List.take_append_of_le_length (by rw [List.length_drop]; omega), List.drop_take,
    List.take_take, Nat.min_eq_left (by omega)]

theorem zeroAt_firstSlot {i k : Nat} (h : i + k ≤ 32) : zeroAt (b.take 32 ++ zeros 32) i k = zeroAt b i k := by
  unfold zeroAt; rw [leAt_firstSlot hb h]
end

theorem tileAt_length {s : State} {t op : Nat} {b : Bytes} (h : s.tileAt t op b) : b.length = 64 := by
  obtain ⟨-, -, -, -, -, rfl, -⟩ := h
  exact length_ld _ _ _

/-! ## From the fetch to the unit or the sequencer -/

/-- The bytes that an instruction is dispatched with: both slots of CONV, one of the others. -/
def slotsTaken (op : Nat) (b : Bytes) : Bytes := if op = 0x11 then b else b.take 32 ++ zeros 32

theorem slotsTaken_one {op : Nat} (b : Bytes) (h : op ≠ 0x11) : slotsTaken op b = b.take 32 ++ zeros 32 := if_neg h

/-- The sequencer's action on an instruction it can take: it waits on the semaphore, or dispatches to the unit, or executes. -/
def State.issueTile (s : State) (t op : Nat) (b : Bytes) : State :=
  let w := byteAt b 2 % 16
  let waits := decide (128 ≤ byteAt b 2)
  if waits ∧ s.tsem t w = 0 then s
  else
    let s1 := if waits then s.setTsem t w (s.tsem t w - 1) else s
    match unitOf op with
    | some u => if 5 ≤ ((s.tile t).pend.filter (fun p => p.unit == u)).length then s else s1.dispatch t (s.tpc t) u b
    | none => match s1.seqInstr t (s.tpc t) b with
      | some r => if s.tileRuns t && !r.tileRuns t then r.tileStopped t else r
      | none => match s.tileOwner t with
        | some p => s.servePlace p
        | none => s

/-- No check of the fetch holds back an instruction that the sequencer has come to. -/
theorem tileInstr_of_tileAt {s : State} {t op : Nat} {b : Bytes} (h : s.tileAt t op b) (ho : tileOps.contains op = true) :
    s.tileInstr t op = s.issueTile t op (slotsTaken op b) := by
  obtain ⟨hrun, hfence, hstop, hpc, hue, hb, hop, hhead, hyield⟩ := h
  unfold State.tileInstr
  rw [if_neg (by simp [hrun, hfence, hstop])]
  dsimp only
  rw [← hb, hop, if_neg (by omega), if_neg (by simp [hue]), if_neg (by rw [ho]; decide), if_neg (by simp), if_neg (by omega), if_neg hyield,
    if_neg (by simp [hhead])]
  rfl

section
variable {s : State} {t op : Nat} {b : Bytes}

theorem issueTile_blocked (hw : 128 ≤ byteAt b 2) (hz : s.tsem t (byteAt b 2 % 16) = 0) : s.issueTile t op b = s :=
  if_pos ⟨decide_eq_true hw, hz⟩

/-- Without WAIT, an instruction of a unit with room is dispatched. -/
theorem issueTile_unit {u : TUnit} (hw : byteAt b 2 < 128) (hu : unitOf op = some u)
    (hroom : ((s.tile t).pend.filter (fun p => p.unit == u)).length < 5) : s.issueTile t op b = s.dispatch t (s.tpc t) u b := by
  have h128 : decide (128 ≤ byteAt b 2) = false := decide_eq_false (by omega)
  unfold State.issueTile
  simp only [h128, hu]
  rw [if_neg (by simp), if_neg (Nat.not_le.mpr hroom), if_neg (by simp)]

/-- An instruction that the sequencer executes at once, where no partition waits for the tile. -/
theorem issueTile_seq {r : State} (hu : unitOf op = none) (hy : r.noYield t ∨ r.tileRuns t = true)
    (hw : 128 ≤ byteAt b 2 → s.tsem t (byteAt b 2 % 16) ≠ 0)
    (hr : (if 128 ≤ byteAt b 2 then s.setTsem t (byteAt b 2 % 16) (s.tsem t (byteAt b 2 % 16) - 1) else s).seqInstr t (s.tpc t) b = some r) :
    s.issueTile t op b = r := by
  unfold State.issueTile
  simp only [decide_eq_true_eq, hu]
  rw [if_neg (fun e => hw e.1 e.2), hr]
  dsimp only
  split
  · rename_i hstop
    rcases hy with hy | hy
    · exact tileStopped_noYield hy
    · simp [hy] at hstop
  · rfl
end

/-! ## Dispatch to a unit -/

/-- Tile t with the instruction `p` appended to its dispatched ones. -/
def State.addPend (s : State) (t : Nat) (p : TPend) : State := s.updTile t (fun x => { x with pend := x.pend ++ [p] })

theorem addPend_same {f : Fld} (s : State) (t : Nat) (p : TPend) (h : f ∉ [Fld.tiles]) : f.same s (s.addPend t p) := updTile_same _ _ _ h

@[simp] theorem rd_addPend (s : State) (t : Nat) (p : TPend) (a : Nat) : (s.addPend t p).rd a = s.rd a := rfl

@[simp] theorem pend_addPend (s : State) (t : Nat) (p : TPend) : ((s.addPend t p).tile t).pend = (s.tile t).pend ++ [p] := by
  unfold State.addPend; rw [tile_updTile]

theorem links_addPend (s : State) (t k : Nat) (p : TPend) : ((s.addPend t p).tile k).links = (s.tile k).links := by
  unfold State.addPend
  by_cases hk : k = t
  · rw [hk, tile_updTile]
  · rw [tile_updTile_ne _ _ hk]

/-- The address behind an instruction: CONV has two slots. -/
def nextPc (pc : Nat) (b : Bytes) : Nat := pc + (if byteAt b 0 = 0x11 then 64 else 32)

/-- What stands among the dispatched instructions. -/
def pendOf (s : State) (t pc : Nat) (u : TUnit) (b : Bytes) (ran sat : Bool) : TPend :=
  { unit := u, pc := pc, slot := BitVec.ofNat 512 (leNat b), trs := s.trs t, ran := ran, sat := sat }

section
variable {s : State} {t pc : Nat} {u : TUnit} {b : Bytes} (hw : (s.tile t).pend.any (fun p => p.unit == u && !p.ran) = false)
include hw

theorem dispatch_done {v : State} {sat : Bool} (hr : (s.setTpc t (nextPc pc b)).runUnit t b (s.trs t) = .ok (some (v, sat))) :
    s.dispatch t pc u b = v.addPend t (pendOf s t pc u b true sat) := by
  unfold State.dispatch
  simp only [hw]
  rw [if_neg (by simp)]
  unfold nextPc at hr
  rw [hr]
  rfl

theorem dispatch_waits (hr : (s.setTpc t (nextPc pc b)).runUnit t b (s.trs t) = .ok none) :
    s.dispatch t pc u b = (s.setTpc t (nextPc pc b)).addPend t (pendOf s t pc u b false false) := by
  unfold State.dispatch
  simp only [hw]
  rw [if_neg (by simp)]
  unfold nextPc at hr
  rw [hr]
  rfl

theorem dispatch_faults {f : TFault} (hr : (s.setTpc t (nextPc pc b)).runUnit t b (s.trs t) = .error f) :
    s.dispatch t pc u b = ((s.setTpc t (nextPc pc b)).unitFault t pc b (s.trs t) f).setTpc t pc := by
  unfold State.dispatch
  simp only [hw]
  rw [if_neg (by simp)]
  unfold nextPc at hr
  rw [hr]
  rfl
end

end Sys2Proof.Machine
end

section
/-! SUPPORT. NOP with its semaphores, SEM_POST, the queue port, TILE_CTL, completions and DET_DONE, clause by clause (R148, R149, R168, R171,
R173, R176, R177). -/
namespace Sys2Proof.Machine

/-! ## NOP (R148, R149, R152) -/

/-- The state from which an instruction goes on: its WAIT has taken one from its semaphore. -/
def State.semTaken (s : State) (t : Nat) (b : Bytes) : State :=
  if 128 ≤ byteAt b 2 then s.setTsem t (byteAt b 2 % 16) (s.tsem t (byteAt b 2 % 16) - 1) else s

theorem seqInstr_nop {b : Bytes} (s : State) (t pc : Nat) (ho : byteAt b 0 = 0) (hz : zeroAt b 8 24 = true) :
    s.seqInstr t pc b = some (s.seqDone t pc (pc + 32) b) := by
  unfold State.seqInstr
  simp only [ho, hz, if_true]

section
variable {s : State} {t : Nat} {b : Bytes} (h : s.tileAt t 0 b) (hz : zeroAt b 8 24 = true)
include h hz

/-- A NOP that need not wait takes its semaphore, moves the PC on and completes. -/
theorem tileInstr_nop {r : State} (hw : 128 ≤ byteAt b 2 → s.tsem t (byteAt b 2 % 16) ≠ 0)
    (hr : ((s.semTaken t b).setTpc t (s.tpc t + 32)).tileComplete t (s.tpc t) (b.take 32 ++ zeros 32) false = r)
    (hy : r.noYield t ∨ r.tileState t = 1) : s.tileInstr t 0 = r := by
  have hb := tileAt_length h
  have hbyte : ∀ {i}, i < 32 → byteAt (b.take 32 ++ zeros 32) i = byteAt b i := byteAt_firstSlot hb
  have hop : byteAt b 0 = 0 := by obtain ⟨-, -, -, -, -, -, hop, -⟩ := h; exact hop
  rw [tileInstr_of_tileAt h (by decide), slotsTaken_one b (by decide)]
  refine issueTile_seq (by rfl) (hy.imp_right (fun e => beq_iff_eq.mpr e)) ?_ ?_
  · rw [hbyte (by decide)]
    exact hw
  · rw [hbyte (by decide)]
    exact (seqInstr_nop _ _ _ ((hbyte (by decide)).trans hop) ((zeroAt_firstSlot hb (by decide)).trans hz)).trans (congrArg some hr)

omit hz in
theorem tileInstr_nop_waits (hw : 128 ≤ byteAt b 2) (h0 : s.tsem t (byteAt b 2 % 16) = 0) : s.tileInstr t 0 = s := by
  have e : byteAt (b.take 32 ++ zeros 32) 2 = byteAt b 2 := byteAt_firstSlot (tileAt_length h) (by decide)
  rw [tileInstr_of_tileAt h (by decide), slotsTaken_one b (by decide)]
  exact issueTile_blocked (by rw [e]; exact hw) (by rw [e]; exact h0)

theorem tileInstr_nop_takes (hw : 128 ≤ byteAt b 2) (hp : byteAt b 3 < 128) (hs : byteAt b 1 / 2 % 2 = 0)
    (h0 : 0 < s.tsem t (byteAt b 2 % 16)) :
    s.tileInstr t 0 = (s.setTsem t (byteAt b 2 % 16) (s.tsem t (byteAt b 2 % 16) - 1)).setTpc t (s.tpc t + 32) := by
  have hb := tileAt_length h
  refine tileInstr_nop h hz (fun _ => by omega) ?_ (.inr ?_)
  · rw [State.semTaken, if_pos hw]
    exact tileComplete_plain _ _ _ (by rw [byteAt_firstSlot hb (by decide)]; exact hp) (by rw [byteAt_firstSlot hb (by decide)]; exact hs)
  · rw [tileState_setTpc, tileState_setTsem]
    exact h.1

theorem tileInstr_nop_posts (hw : byteAt b 2 < 128) (hp : 128 ≤ byteAt b 3) (hs : byteAt b 1 / 2 % 2 = 0)
    (hy : s.tsem t (byteAt b 3 % 16) < 65535 ∨ s.noYield t) :
    s.tileInstr t 0 = (s.setTpc t (s.tpc t + 32)).tilePost t (s.tpc t) (byteAt b 3 % 16) := by
  have hb := tileAt_length h
  have hsem := tsem_setTpc s t (s.tpc t + 32) (byteAt b 3 % 16)
  refine tileInstr_nop h hz (fun e => absurd hw (Nat.not_lt.mpr e)) ?_ ?_
  · rw [State.semTaken, if_neg (Nat.not_le.mpr hw),
      tileComplete_post _ _ _ (by rw [byteAt_firstSlot hb (by decide)]; exact hp) (by rw [byteAt_firstSlot hb (by decide)]; exact hs),
      byteAt_firstSlot hb (by decide)]
  · rcases Nat.lt_or_ge (s.tsem t (byteAt b 3 % 16)) 65535 with hlt | hge
    · refine .inr ?_
      rw [tilePost_adds _ (by rw [hsem]; exact hlt), tileState_setTsem, tileState_setTpc]
      exact h.1
    · have hfull : s.tsem t (byteAt b 3 % 16) = 65535 := by have := tsem_lt s t (byteAt b 3 % 16); omega
      have hyield : (s.setTpc t (s.tpc t + 32)).noYield t := noYield_congr rfl (hy.resolve_left (by omega))
      rw [tilePost_overflows _ (hsem.trans hfull)]
      exact .inl (noYield_congr (tileFault_same (g := .parts) (by decide) hyield (by decide)) hyield)

theorem tileInstr_nop_signals (ht : t < 160) (hw : byteAt b 2 < 128) (hp : byteAt b 3 < 128) (hs : byteAt b 1 / 2 % 2 = 1) :
    s.tileInstr t 0 = (s.setTpc t (s.tpc t + 32)).raise (tilePage t) 5 := by
  have hb := tileAt_length h
  refine tileInstr_nop h hz (fun e => absurd hw (Nat.not_lt.mpr e)) ?_ (.inr ?_)
  · rw [State.semTaken, if_neg (Nat.not_le.mpr hw),
      tileComplete_signal _ _ _ (by rw [byteAt_firstSlot hb (by decide)]; exact hp) (by rw [byteAt_firstSlot hb (by decide)]; exact hs)]
  · refine (tileState_congr (rd_raise _ _ _ (not_msgReg_tile ?_) ?_)).trans ((tileState_setTpc _ _ _).trans h.1)
    · unfold Reg.TILE_STS; omega
    · unfold Reg.TILE_STS tilePage; omega
end

/-- The address behind the instruction at the PC, which lies in the tile store. -/
theorem tpc_setTpc_next {s u : State} {t : Nat} {op : Nat} {b : Bytes} (h : s.tileAt t op b) : (u.setTpc t (s.tpc t + 32)).tpc t = s.tpc t + 32 := by
  obtain ⟨-, -, -, hpc, -⟩ := h
  have ha := tpc_aligned s t
  exact tpc_setTpc_of_lt u t (by omega) (by omega)

/-! ## The queue port (R168) -/

theorem tiles_noteHome (s : State) (t : Nat) (ids : List Nat) : (s.noteHome t ids).tiles = s.tiles := noteHome_same (f := .tiles) s t ids (by decide)

theorem regs_noteHome (s : State) (t : Nat) (ids : List Nat) : (s.noteHome t ids).regs = s.regs := noteHome_same (f := .regs) s t ids (by decide)

theorem queuePort_takes {s : State} {t : Nat} {data : List Byte} (hl : data.length = 64) (hq : s.queueTakes t = true) :
    (s.queuePort t data).tiles = (s.enqueue1 t 4 0 0 (BitVec.ofNat 512 (leNat data))).tiles ∧ (s.queuePort t data).regs = s.regs := by
  unfold State.queuePort
  rw [if_pos ⟨hl, hq⟩]
  exact ⟨tiles_noteHome _ _ _, regs_noteHome _ _ _⟩

theorem queuePort_drops {s : State} {t : Nat} {data : List Byte} (h : data.length ≠ 64 ∨ s.queueTakes t = false) :
    s.queuePort t data = (s.bump (Reg.TILE_CNT_QDROP t)).raise (tilePage t) 3 := by
  refine if_neg (fun e => ?_)
  rcases h with h | h
  · exact h e.1
  · rw [h] at e; exact Bool.false_ne_true e.2

/-! ## TILE_CTL (R173, R176, R177) -/

theorem tileCtl_start (s : State) (t : Nat) : s.tileCtl t (1 ||| 1) = s.tileStart t := by
  unfold State.tileCtl
  rw [if_pos (by decide), if_neg (by decide), if_neg (by decide)]

theorem tileCtl_stop (s : State) (t : Nat) : s.tileCtl t (2 ||| 2) = s.tileStop t := by
  unfold State.tileCtl
  rw [if_neg (by decide), if_pos (by decide), if_neg (by decide)]

theorem tileCtl_codecClr (s : State) (t : Nat) : s.tileCtl t (4 ||| 4) = s.codecClr t := by
  unfold State.tileCtl
  rw [if_neg (by decide), if_neg (by decide), if_pos (by decide)]

section
variable {s : State} {t : Nat}

theorem tileStart_idle (h0 : s.tileState t = 0) (hf : s.tileFenced t = false) (hs : (s.tile t).stopping = false) (ho : s.tileOwner t ≠ none) :
    s.tileStart t = (s.setTileState t 1).updTile t (fun x => { x with yielded := false }) :=
  if_pos ⟨h0, hf, hs, Option.isSome_iff_ne_none.mpr ho⟩

/-- With nothing dispatched, a STOP is at once at its end. -/
theorem tileStop_idle (hy : s.noYield t) (h1 : s.tileState t = 1) (hp : (s.tile t).pend = []) (hyd : (s.tile t).yielding = false) :
    ∃ f g, s.tileStop t = ((s.updTile t f).updTile t g).setTileState t 0 := by
  unfold State.tileStop
  rw [if_neg (by omega), if_pos h1]
  unfold State.tileSettle
  dsimp only
  rw [if_pos (by rw [tile_updTile]; exact ⟨rfl, hp⟩), if_neg (by rw [tile_updTile]; simp [hyd]), if_pos (by rw [tileState_updTile, tileState_updTile]; exact h1),
    tileStopped_noYield]
  · exact ⟨_, _, rfl⟩
  · exact noYield_congr ((setFld_parts _ _ _ _ _).trans ((updTile_parts _ _ _).trans (updTile_parts _ _ _))) hy

/-- With something dispatched, a STOP waits. -/
theorem tileStop_waits (h1 : s.tileState t = 1) (hp : (s.tile t).pend ≠ []) :
    s.tileStop t = s.updTile t (fun x => { x with stopping := true }) := by
  unfold State.tileStop
  rw [if_neg (by omega), if_pos h1]
  unfold State.tileSettle
  dsimp only
  rw [if_neg (by rw [tile_updTile]; exact fun e => hp e.2)]

/-- STOP takes a tile out of FAULT, with the PC behind the faulting instruction. -/
theorem tileStop_faulted (h2 : s.tileState t = 2) : s.tileStop t = (s.setTileState t 0).setTpc t
    (s.fld (Reg.TILE_FAULT t) 19 5 * 32 + if byteAt (s.tld t (s.fld (Reg.TILE_FAULT t) 19 5 * 32) 1) 0 = 0x11 then 64 else 32) := if_pos h2

theorem rd_codecClr_ne {r : Nat} (h1 : r ≠ Reg.CODEC_SSE_LO t) (h2 : r ≠ Reg.CODEC_SSE_HI t) (h3 : r ≠ Reg.CODEC_MAXERR t) :
    (s.codecClr t).rd r = s.rd r :=
  (rd_wr_ne _ _ h3).trans ((rd_wr_ne _ _ h2).trans (rd_wr_ne _ _ h1))
end

/-! ## INSTRUCTION_COMPLETE (R148) -/

/-- Tile t with `p` no longer among its dispatched instructions. -/
def State.dropPend (s : State) (t : Nat) (p : TPend) : State := s.updTile t (fun x => { x with pend := x.pend.erase p })

theorem tsem_dropPend (s : State) (t i : Nat) (p : TPend) : (s.dropPend t p).tsem t i = s.tsem t i := rfl

theorem tile_dropPend (s : State) (t : Nat) (p : TPend) : (s.dropPend t p).tile t = { s.tile t with pend := (s.tile t).pend.erase p } :=
  tile_updTile _ _ _

section
variable {s : State} {t : Nat} {u : TUnit} {p : TPend} (hfind : (s.tile t).pend.find? (fun p => p.unit == u) = some p)
  (hran : p.ran = true) (hsat : p.sat = false) (hu : u ≠ .lsend)
include hfind hran hsat hu

/-- The oldest instruction of a unit, its work done, leaves the tile and completes. -/
theorem instrComplete_ran {r : State} (hr : (s.dropPend t p).tileComplete t p.pc (cmdBytes p.slot) false = r) (hrs : (r.tile t).stopping = false) :
    s.instrComplete t u = r := by
  unfold State.instrComplete
  simp only [hfind, hran, if_true]
  rw [if_neg (fun e => hu e.1), hsat]
  exact (congrArg (State.tileSettle · t) hr).trans (tileSettle_running hrs)

variable (hstop : (s.tile t).stopping = false) (hs : byteAt (cmdBytes p.slot) 1 / 2 % 2 = 0)
include hstop hs

theorem instrComplete_plain (hp : byteAt (cmdBytes p.slot) 3 < 128) : s.instrComplete t u = s.dropPend t p :=
  instrComplete_ran hfind hran hsat hu (tileComplete_plain _ _ _ hp hs) (by rw [tile_dropPend]; exact hstop)

theorem instrComplete_posts (hp : 128 ≤ byteAt (cmdBytes p.slot) 3) (hlt : s.tsem t (byteAt (cmdBytes p.slot) 3 % 16) < 65535) :
    s.instrComplete t u = (s.dropPend t p).setTsem t (byteAt (cmdBytes p.slot) 3 % 16) (s.tsem t (byteAt (cmdBytes p.slot) 3 % 16) + 1) :=
  instrComplete_ran hfind hran hsat hu ((tileComplete_post _ _ _ hp hs).trans (tilePost_adds _ hlt))
    (by rw [tile_congr (setTsem_same (f := .tiles) _ _ _ _ (by decide)), tile_dropPend]; exact hstop)
end

/-! ## DET_DONE (R18, R171) -/

theorem Tab.look_insert_ne {α : Type} (t : Tab α) {k k' : Nat} (v : α) (h : k' ≠ k) : (t.insert k v).look k' = t.look k' := by
  induction t with
  | nil => simp [Tab.insert, Tab.look, h]
  | cons e t ih =>
    obtain ⟨j, w⟩ := e
    unfold Tab.insert
    split
    · simp [Tab.look, h]
    · split
      · subst k; simp [Tab.look, h]
      · simp [Tab.look, ih]

theorem item_setItem_ne (s : State) {id j : Nat} (it : Item) (h : j ≠ id) : (s.setItem id it).item j = s.item j := Tab.look_insert_ne _ _ h

theorem settle_unfinished {s : State} {id : Nat} {it : Item} (hi : s.item id = some it) (h : it.done ≠ 31) : s.settle id = s := by
  unfold State.settle
  simp only [hi]
  exact if_pos (.inl h)

/-- The stages that a refresh finds done beside those marked: recognition where no sequence names the item, grammar where no context does. -/
def State.stagesFound (s : State) (id : Nat) (it : Item) : BitVec 5 :=
  let d := if it.done.getLsbD 1 && !s.seqNames id then it.done ||| 4 else it.done
  if d.getLsbD 2 && !s.ctxNames id && it.grmWritten then d ||| 8 else d

/-- They are the third and fourth stage only. -/
theorem getLsbD_stagesFound (s : State) (id : Nat) (it : Item) {i : Nat} (h4 : (4 : BitVec 5).getLsbD i = false)
    (h8 : (8 : BitVec 5).getLsbD i = false) :
    (s.stagesFound id it).getLsbD i = it.done.getLsbD i := by
  unfold State.stagesFound
  dsimp only
  split <;> split <;> simp only [BitVec.getLsbD_or, h4, h8, Bool.or_false]

theorem ne_all_stages {d : BitVec 5} (h : d.getLsbD 4 = false) : d ≠ 31 := by
  rintro rfl
  exact absurd h (by decide)

/-- While record assembly is to come, the item stays. -/
theorem refresh_unfinished {s : State} {id : Nat} {it : Item} (hi : s.item id = some it) (h4 : it.done.getLsbD 4 = false) :
    s.refresh id = s.setItem id { it with done := s.stagesFound id it } := by
  unfold State.refresh
  simp only [hi]
  exact settle_unfinished (item_setItem _ _ _) (ne_all_stages ((getLsbD_stagesFound s id it (by decide) (by decide)).trans h4))

section
variable {s : State} {id : Nat} {it : Item} (hi : s.item id = some it)
include hi

theorem markDone_eq (k : Nat) : s.markDone id k = s.setItem id { it with done := it.done ||| BitVec.ofNat 5 (2 ^ k) } := by
  unfold State.markDone; rw [hi]

theorem stageDone_detection (h4 : it.done.getLsbD 4 = false) :
    ∃ d : BitVec 5, d.getLsbD 1 = true ∧ s.stageDone id 1 = (s.markDone id 1).setItem id { it with done := d } := by
  have hm : (s.markDone id 1).item id = some { it with done := it.done ||| BitVec.ofNat 5 (2 ^ 1) } := by rw [markDone_eq hi, item_setItem]
  refine ⟨(s.markDone id 1).stagesFound id { it with done := it.done ||| BitVec.ofNat 5 (2 ^ 1) }, ?_, (refresh_unfinished hm ?_).trans rfl⟩
  · rw [getLsbD_stagesFound _ _ _ (by decide) (by decide), BitVec.getLsbD_or]
    exact (Bool.or_eq_true _ _).mpr (.inr (by decide))
  · rw [BitVec.getLsbD_or, h4]
    decide
end

section
variable {s : State} {t : Nat} {v : Word}

theorem detDone_unknown (hi : s.item ((s.rd (Reg.DET_DONE_LO t)).toNat + v.toNat * 2 ^ 32) = none) :
    s.detDone t v = s.bump (Reg.TILE_CNT_DET_STALE t) := by
  unfold State.detDone; simp only [hi]

theorem detDone_open {it : Item} (hi : s.item ((s.rd (Reg.DET_DONE_LO t)).toNat + v.toNat * 2 ^ 32) = some it) (h1 : it.done.getLsbD 1 = false)
    (ho : s.tileOwner t = some it.part ∨ it.shadow ≠ none) :
    s.detDone t v = s.stageDone ((s.rd (Reg.DET_DONE_LO t)).toNat + v.toNat * 2 ^ 32) 1 := by
  have hno : ¬ (it.done.getLsbD 1 = true ∨ s.tileOwner t ≠ some it.part ∧ it.shadow.isNone = true) := by
    rintro (e | ⟨e1, e2⟩)
    · rw [h1] at e; exact Bool.false_ne_true e
    · exact ho.elim e1 (fun e => e (Option.isNone_iff_eq_none.mp e2))
  unfold State.detDone
  simp only [hi]
  exact if_neg hno
end

/-! ## The statement -/

section
variable (t : Fin 160) (s : State)

theorem exec_tileNop_semaphores (b : Bytes) (h : s.tileAt t 0 b) (hz : zeroAt b 8 24 = true) :
    let w := byteAt b 2 % 16
    let p := byteAt b 3 % 16
    (128 ≤ byteAt b 2 → byteAt b 3 < 128 → byteAt b 1 / 2 % 2 = 0 →
      (0 < s.tsem t w → ∃ u, exec (.tileNop t) s = .next u ∧ u.tsem t w = s.tsem t w - 1 ∧ u.tpc t = s.tpc t + 32 ∧
        ∀ i, i < 16 → i ≠ w → u.tsem t i = s.tsem t i) ∧
      (s.tsem t w = 0 → ∃ u, exec (.tileNop t) s = .next u ∧ (∀ r, u.rd r = s.rd r) ∧ u.tiles = s.tiles)) ∧
    (byteAt b 2 < 128 → 128 ≤ byteAt b 3 → byteAt b 1 / 2 % 2 = 0 →
      (s.tsem t p < 65535 → ∃ u, exec (.tileNop t) s = .next u ∧ u.tsem t p = s.tsem t p + 1 ∧ u.tpc t = s.tpc t + 32 ∧
        ∀ i, i < 16 → i ≠ p → u.tsem t i = s.tsem t i) ∧
      (s.tsem t p = 65535 → s.noYield t → ∃ u, exec (.tileNop t) s = .next u ∧ u.tileState t = 2 ∧ u.fld (Reg.TILE_STS t) 29 24 = 7)) ∧
    (byteAt b 2 < 128 → byteAt b 3 < 128 → byteAt b 1 / 2 % 2 = 1 →
      ∃ u, exec (.tileNop t) s = .next u ∧ u.flag (tilePage t + 0x10) 5 = true) := by
  have ht : t.val < 160 := t.isLt
  refine ⟨fun hw hp hs => ⟨fun h0 => ⟨_, rfl, ?_⟩, fun h0 => ⟨_, rfl, ?_⟩⟩,
    fun hw hp hs => ⟨fun hlt => ⟨_, rfl, ?_⟩, fun hfull hy => ⟨_, rfl, ?_⟩⟩, fun hw hp hs => ⟨_, rfl, ?_⟩⟩
  · rw [tileInstr_nop_takes h hz hw hp hs h0, taken_tsem _ _ (by decide), taken_tpc _ _ (by decide), tpc_setTpc_next h, tsem_setTpc]
    refine ⟨tsem_setTsem _ _ _ (by have := tsem_lt s t (byteAt b 2 % 16); omega), rfl, fun i _ hi => ?_⟩
    rw [taken_tsem _ _ (by decide), tsem_setTpc, tsem_setTsem_ne _ _ _ hi]
  · rw [tileInstr_nop_waits h hw h0]
    exact ⟨fun r => taken_rd _ _ (by decide) r, by rw [taken_tiles, if_pos (by decide)]⟩
  · rw [tileInstr_nop_posts h hz hw hp hs (.inl hlt), tilePost_adds _ (by rw [tsem_setTpc]; exact hlt), tsem_setTpc,
      taken_tsem _ _ (by decide), taken_tpc _ _ (by decide), tpc_setTsem, tpc_setTpc_next h]
    refine ⟨tsem_setTsem _ _ _ (by omega), rfl, fun i _ hi => ?_⟩
    rw [taken_tsem _ _ (by decide), tsem_setTsem_ne _ _ _ hi, tsem_setTpc]
  · have hyield : (s.setTpc t (s.tpc t + 32)).noYield t := noYield_congr rfl hy
    rw [tileInstr_nop_posts h hz hw hp hs (.inr hy), tilePost_overflows _ (by rw [tsem_setTpc]; exact hfull),
      taken_tileState _ _ (by decide), taken_fld _ _ (by decide)]
    exact ⟨tileState_tileFault ht (by decide) hyield, code_tileFault ht (by decide) hyield⟩
  · rw [tileInstr_nop_signals h hz ht hw hp hs, taken_flag _ _ (by decide)]
    exact flag_raise_self _ _ _ (by decide) (not_msgReg_tile (by unfold tilePage; omega))

theorem exec_semPost (i : Fin 16) :
    (s.tsem t i < 65535 → ∃ u, exec (.semPost t i) s = .next u ∧ u.tsem t i = s.tsem t i + 1 ∧ (∀ j, j < 16 → j ≠ i.val → u.tsem t j = s.tsem t j) ∧
      ∀ r, r ≠ Reg.TILE_SEM_01 t + 4 * (i / 2) → u.rd r = s.rd r) ∧
    (s.tsem t i = 65535 → s.noYield t → ∃ u, exec (.semPost t i) s = .next u ∧ u.tileState t = 2 ∧ u.fld (Reg.TILE_STS t) 29 24 = 7 ∧
      u.flag (tilePage t + 0x10) 1 = true) := by
  refine ⟨fun hlt => ⟨_, rfl, ?_⟩, fun hfull hy => ⟨_, rfl, ?_⟩⟩
  · rw [tilePost_adds _ hlt, taken_tsem _ _ (by decide)]
    refine ⟨tsem_setTsem _ _ _ (by omega), fun j _ hj => ?_, fun r hr => ?_⟩
    · rw [taken_tsem _ _ (by decide), tsem_setTsem_ne _ _ _ hj]
    · rw [taken_rd _ _ (by decide), rd_setTsem_ne _ _ hr]
  · rw [tilePost_overflows _ hfull, taken_tileState _ _ (by decide), taken_fld _ _ (by decide), taken_flag _ _ (by decide)]
    exact ⟨tileState_tileFault t.isLt (by decide) hy, code_tileFault t.isLt (by decide) hy, flag_tileFault t.isLt (by decide) hy⟩

theorem exec_queuePortWrite (data : List Byte) :
    (data.length = 64 → s.queueTakes t = true → ∃ u, exec (.queuePortWrite t data) s = .next u ∧
      (u.tile t).queue = (s.tile t).queue ++ [⟨4, 0, (s.tile t).nextToken, 0, BitVec.ofNat 512 (leNat data)⟩] ∧
      (u.tile t).nextToken = ((s.tile t).nextToken + 1) % 65536 ∧ (∀ k, k ≠ t.val → u.tile k = s.tile k) ∧ ∀ r, u.rd r = s.rd r) ∧
    ((data.length ≠ 64 ∨ s.queueTakes t = false) → ∃ u, exec (.queuePortWrite t data) s = .next u ∧ u.tiles = s.tiles ∧
      u.rd (Reg.TILE_CNT_QDROP t) = s.rd (Reg.TILE_CNT_QDROP t) + 1 ∧ u.flag (tilePage t + 0x10) 3 = true) := by
  have ht : t.val < 160 := t.isLt
  refine ⟨fun hl hq => ⟨_, rfl, ?_⟩, fun h => ⟨_, rfl, ?_⟩⟩
  · obtain ⟨htiles, hregs⟩ := queuePort_takes hl hq
    have hsame := tile_updTile s t (fun x =>
      { x with queue := x.queue ++ [⟨4, 0, x.nextToken, 0, BitVec.ofNat 512 (leNat data)⟩], nextToken := (x.nextToken + 1) % 65536 })
    rw [taken_tile _ _ (by decide), tile_congr htiles]
    refine ⟨congrArg Tile.queue hsame, congrArg Tile.nextToken hsame, fun k hk => ?_, fun r => ?_⟩
    · rw [taken_tile _ _ (by decide), tile_congr htiles]
      exact tile_updTile_ne _ _ hk
    · rw [taken_rd _ _ (by decide), rd_congr hregs]
  · rw [queuePort_drops h, taken_tiles, if_pos (by decide), taken_rd _ _ (by decide), taken_flag _ _ (by decide), raise_tiles,
      rd_raise _ _ _ (not_msgReg_tile (by unfold Reg.TILE_CNT_QDROP; omega)) (by unfold Reg.TILE_CNT_QDROP tilePage; omega)]
    exact ⟨bump_tiles _ _, rd_bump_same _ _, flag_raise_self _ _ _ (by decide) (not_msgReg_tile (by unfold tilePage; omega))⟩

theorem exec_tileCtl (hy : s.noYield t) :
    (s.tileState t = 0 → s.tileFenced t = false → (s.tile t).stopping = false → s.tileOwner t ≠ none →
      ∃ u, exec (.tileStart t 1) s = .next u ∧ u.tileState t = 1 ∧ u.tpc t = s.tpc t ∧ ∀ r, r ≠ Reg.TILE_STS t → u.rd r = s.rd r) ∧
    (s.tileState t = 1 → (s.tile t).pend = [] → (s.tile t).yielding = false → ∃ u, exec (.tileStop t 2) s = .next u ∧ u.tileState t = 0 ∧
      u.tpc t = s.tpc t ∧ ∀ r, r ≠ Reg.TILE_STS t → u.rd r = s.rd r) ∧
    (s.tileState t = 1 → (s.tile t).pend ≠ [] → ∃ u, exec (.tileStop t 2) s = .next u ∧ (u.tile t).stopping = true ∧ ∀ r, u.rd r = s.rd r) ∧
    (s.tileState t = 2 → let pc := s.fld (Reg.TILE_FAULT t) 19 5 * 32
      ∃ u, exec (.tileStop t 2) s = .next u ∧ u.tileState t = 0 ∧
        u.tpc t = (pc + if byteAt (s.tld t pc 1) 0 = 0x11 then 64 else 32) % 0x100000) ∧
    ∃ u, exec (.codecClr t 4) s = .next u ∧ u.rd (Reg.CODEC_SSE_LO t) = 0 ∧ u.rd (Reg.CODEC_SSE_HI t) = 0 ∧ u.rd (Reg.CODEC_MAXERR t) = 0 ∧
      (∀ r, r ≠ Reg.CODEC_SSE_LO t → r ≠ Reg.CODEC_SSE_HI t → r ≠ Reg.CODEC_MAXERR t → u.rd r = s.rd r) ∧ u.tiles = s.tiles := by
  have hpc : Reg.TILE_PC t ≠ Reg.TILE_STS t := by unfold Reg.TILE_PC Reg.TILE_STS; omega
  refine ⟨fun h0 hf hs ho => ⟨_, rfl, ?_⟩, fun h1 hp hyd => ⟨_, rfl, ?_⟩, fun h1 hp => ⟨_, rfl, ?_⟩, fun h2 => ⟨_, rfl, ?_⟩, ⟨_, rfl, ?_⟩⟩
  · rw [tileCtl_start, tileStart_idle h0 hf hs ho, taken_tileState _ _ (by decide), taken_tpc _ _ (by decide)]
    rw [tileState_updTile, tpc_congr (rd_updTile _ _ _ _)]
    refine ⟨tileState_setTileState s t (by decide), tpc_congr (rd_setTileState_ne _ _ hpc), fun r hr => ?_⟩
    rw [taken_rd _ _ (by decide), rd_updTile, rd_setTileState_ne _ _ hr]
  · obtain ⟨f, g, hstop⟩ := tileStop_idle hy h1 hp hyd
    rw [tileCtl_stop, hstop, taken_tileState _ _ (by decide), taken_tpc _ _ (by decide)]
    refine ⟨tileState_setTileState _ t (by decide), tpc_congr (rd_setTileState_ne _ _ hpc), fun r hr => ?_⟩
    rw [taken_rd _ _ (by decide), rd_setTileState_ne _ _ hr, rd_updTile, rd_updTile]
  · rw [tileCtl_stop, tileStop_waits h1 hp, taken_tile _ _ (by decide), tile_updTile]
    exact ⟨rfl, fun r => taken_rd _ _ (by decide) r⟩
  · rw [tileCtl_stop, tileStop_faulted h2, taken_tileState _ _ (by decide), taken_tpc _ _ (by decide), tileState_setTpc, tpc_setTpc]
    refine ⟨tileState_setTileState _ t (by decide), ?_⟩
    split <;> omega
  · have hlo : Reg.CODEC_SSE_LO t ≠ Reg.CODEC_SSE_HI t ∧ Reg.CODEC_SSE_LO t ≠ Reg.CODEC_MAXERR t ∧ Reg.CODEC_SSE_HI t ≠ Reg.CODEC_MAXERR t := by
      unfold Reg.CODEC_SSE_LO Reg.CODEC_SSE_HI Reg.CODEC_MAXERR; omega
    rw [tileCtl_codecClr, taken_rd _ _ (by decide), taken_rd _ _ (by decide), taken_rd _ _ (by decide), taken_tiles, if_pos (by decide)]
    refine ⟨?_, ?_, rd_wr_same _ _ _, fun r h1 h2 h3 => ?_, rfl⟩
    · exact (rd_wr_ne _ _ hlo.2.1).trans ((rd_wr_ne _ _ hlo.1).trans (rd_wr_same _ _ _))
    · exact (rd_wr_ne _ _ hlo.2.2).trans (rd_wr_same _ _ _)
    · rw [taken_rd _ _ (by decide), rd_codecClr_ne h1 h2 h3]

theorem exec_instructionComplete (k : Fin 5) (p : TPend) (hfind : (s.tile t).pend.find? (fun p => p.unit == unitNo k) = some p)
    (hran : p.ran = true) (hsat : p.sat = false) (hstop : (s.tile t).stopping = false) (hu : unitNo k ≠ .lsend) :
    let b := cmdBytes p.slot
    let i := byteAt b 3 % 16
    byteAt b 1 / 2 % 2 = 0 → (byteAt b 3 < 128 ∨ s.tsem t i < 65535) →
    ∃ u, exec (.instructionComplete t k) s = .next u ∧ (u.tile t).pend = (s.tile t).pend.erase p ∧
      (∀ j, j < 16 → u.tsem t j = if 128 ≤ byteAt b 3 ∧ j = i then s.tsem t i + 1 else s.tsem t j) ∧ u.tpc t = s.tpc t := by
  intro b i hs hpost
  refine ⟨_, rfl, ?_⟩
  rw [taken_tile _ _ (by decide), taken_tpc _ _ (by decide)]
  rcases Nat.lt_or_ge (byteAt b 3) 128 with hp | hp
  · rw [instrComplete_plain hfind hran hsat hu hstop hs hp, tile_dropPend]
    refine ⟨rfl, fun j _ => ?_, rfl⟩
    rw [taken_tsem _ _ (by decide), if_neg (fun e => absurd hp (Nat.not_lt.mpr e.1)), tsem_dropPend]
  · have hlt : s.tsem t i < 65535 := hpost.resolve_left (Nat.not_lt.mpr hp)
    rw [instrComplete_posts hfind hran hsat hu hstop hs hp hlt, tpc_setTsem, tile_congr (setTsem_same (f := .tiles) _ _ _ _ (by decide)),
      tile_dropPend]
    refine ⟨rfl, fun j _ => ?_, rfl⟩
    rw [taken_tsem _ _ (by decide)]
    by_cases hj : j = i
    · rw [if_pos ⟨hp, hj⟩, hj]
      exact tsem_setTsem _ _ _ (Nat.succ_lt_succ hlt)
    · rw [if_neg (fun e => hj e.2), tsem_setTsem_ne _ _ _ hj, tsem_dropPend]

theorem exec_detDone (v : Word) : let id := (s.rd (Reg.DET_DONE_LO t)).toNat + v.toNat * 2 ^ 32
    (s.item id = none → ∃ u, exec (.detDone t v) s = .next u ∧ u.rd (Reg.TILE_CNT_DET_STALE t) = s.rd (Reg.TILE_CNT_DET_STALE t) + 1 ∧ u.items = s.items) ∧
    (∀ it, s.item id = some it → it.done.getLsbD 1 = false → it.done.getLsbD 4 = false → (s.tileOwner t = some it.part ∨ it.shadow ≠ none) →
      ∃ u, exec (.detDone t v) s = .next u ∧ (∃ it', u.item id = some it' ∧ it'.done.getLsbD 1 = true ∧ it'.sealInfo = it.sealInfo) ∧
        (∀ j, j ≠ id → u.item j = s.item j) ∧ ∀ r, u.rd r = s.rd r) := by
  intro id
  refine ⟨fun hi => ⟨_, rfl, ?_⟩, fun it hi h1 h4 ho => ⟨_, rfl, ?_⟩⟩
  · rw [detDone_unknown hi, taken_rd _ _ (by decide), taken_items, if_pos (by decide)]
    exact ⟨rd_bump_same _ _, bump_items _ _⟩
  · obtain ⟨d, hd, hdone⟩ := stageDone_detection hi h4
    rw [detDone_open hi h1 ho, hdone, markDone_eq hi]
    refine ⟨⟨_, (taken_item _ _ (by decide) id).trans (item_setItem _ _ _), hd, rfl⟩, fun j hj => ?_, fun r => taken_rd _ _ (by decide) r⟩
    rw [taken_item _ _ (by decide), item_setItem_ne _ _ hj, item_setItem_ne _ _ hj]
end

/-- Settles O33: each clause by the branch that its premises leave of the operation. -/
theorem tileControlAndSemaphores : Obligations.TileControlAndSemaphores := by
  unfold Obligations.TileControlAndSemaphores
  exact ⟨fun t s b => exec_tileNop_semaphores t s b, fun t i s => exec_semPost t s i, fun t data s => exec_queuePortWrite t s data,
    fun t s => exec_tileCtl t s, fun t k s p => exec_instructionComplete t s k p, fun t v s => exec_detDone t s v⟩

end Sys2Proof.Machine
end

section
/-! SUPPORT. What a unit's instruction leaves once it is dispatched: done, waiting for its message, or faulted (R148, R172). -/
namespace Sys2Proof.Machine

/-! ## The dispatch of an instruction that the sequencer has come to -/

theorem tileOps_of_unitOf {op : Nat} {un : TUnit} (h : unitOf op = some un) : tileOps.contains op = true := by
  revert h
  unfold unitOf
  split <;> simp [tileOps]

section
variable {s : State} {t op : Nat} {b : Bytes} {un : TUnit} (h : s.tileAt t op b) (hw : byteAt b 2 < 128) (hu : unitOf op = some un)
  (hfree : s.unitFree t un) (h1 : op ≠ 0x11)
include h hw hu hfree h1

/-- An instruction of one slot goes to its unit, and its own bytes are what the unit is given. -/
theorem tileInstr_dispatch : s.tileInstr t op = s.dispatch t (s.tpc t) un (b.take 32 ++ zeros 32) ∧
    nextPc (s.tpc t) (b.take 32 ++ zeros 32) = s.tpc t + 32 ∧ byteAt (b.take 32 ++ zeros 32) 0 = op := by
  have hb := tileAt_length h
  have hop : byteAt (b.take 32 ++ zeros 32) 0 = op := by
    obtain ⟨-, -, -, -, -, -, hop, -⟩ := h
    exact (byteAt_firstSlot hb (by decide)).trans hop
  refine ⟨?_, ?_, hop⟩
  · rw [tileInstr_of_tileAt h (tileOps_of_unitOf hu), slotsTaken_one b h1]
    exact issueTile_unit (by rw [byteAt_firstSlot hb (by decide)]; exact hw) hu hfree.1
  · rw [nextPc, hop, if_neg h1]

theorem tileInstr_done {v : State} {sat : Bool}
    (hr : (s.setTpc t (s.tpc t + 32)).runUnit t (b.take 32 ++ zeros 32) (s.trs t) = .ok (some (v, sat))) :
    s.tileInstr t op = v.addPend t (pendOf s t (s.tpc t) un (b.take 32 ++ zeros 32) true sat) := by
  obtain ⟨hi, hn, -⟩ := tileInstr_dispatch h hw hu hfree h1
  rw [hi, dispatch_done hfree.2 (by rw [hn]; exact hr)]

theorem tileInstr_left_waiting (hr : (s.setTpc t (s.tpc t + 32)).runUnit t (b.take 32 ++ zeros 32) (s.trs t) = .ok none) :
    s.tileInstr t op =
      (s.setTpc t (s.tpc t + 32)).addPend t (pendOf s t (s.tpc t) un (b.take 32 ++ zeros 32) false false) := by
  obtain ⟨hi, hn, -⟩ := tileInstr_dispatch h hw hu hfree h1
  rw [hi, dispatch_waits hfree.2 (by rw [hn]; exact hr), hn]

theorem tileInstr_faults {f : TFault} (hr : (s.setTpc t (s.tpc t + 32)).runUnit t (b.take 32 ++ zeros 32) (s.trs t) = .error f) :
    s.tileInstr t op =
      ((s.setTpc t (s.tpc t + 32)).unitFault t (s.tpc t) (b.take 32 ++ zeros 32) (s.trs t) f).setTpc t (s.tpc t) := by
  obtain ⟨hi, hn, -⟩ := tileInstr_dispatch h hw hu hfree h1
  rw [hi, dispatch_faults hfree.2 (by rw [hn]; exact hr), hn]
end

/-! ## The instruction stands among the dispatched ones -/

/-- Between `s` and `u`, the sequencer of tile t has dispatched a one-slot instruction to unit `un`, and gone on. -/
def State.dispatched (s u : State) (t : Nat) (un : TUnit) (ran : Bool) : Prop :=
  u.tpc t = s.tpc t + 32 ∧ u.tileState t = 1 ∧
  ∃ p, (u.tile t).pend = (s.tile t).pend ++ [p] ∧ p.unit = un ∧ p.ran = ran ∧ p.pc = s.tpc t

/-- The unit's work leaves the PC, the tile's state and the dispatched instructions to the sequencer. -/
theorem dispatched_addPend {s v : State} {t op : Nat} {b c : Bytes} {un : TUnit} {ran sat : Bool} {w : List Fld} (h : s.tileAt t op b)
    (hpc : v.rd (Reg.TILE_PC t) = (s.setTpc t (s.tpc t + 32)).rd (Reg.TILE_PC t)) (hsts : v.rd (Reg.TILE_STS t) = s.rd (Reg.TILE_STS t))
    (hpend : (v.tile t).pend = (s.tile t).pend) (hr : .regs ∈ w) (ht : .tiles ∈ w) :
    s.dispatched (s.taken (v.addPend t (pendOf s t (s.tpc t) un c ran sat)) w) t un ran := by
  refine ⟨?_, ?_, pendOf s t (s.tpc t) un c ran sat, ?_, rfl, rfl, rfl⟩
  · rw [taken_tpc _ _ hr, tpc_congr (rd_addPend _ _ _ _), tpc_congr hpc, tpc_setTpc_next h]
  · rw [taken_tileState _ _ hr, tileState_congr (rd_addPend _ _ _ _), tileState_congr hsts]
    exact h.1
  · rw [taken_tile _ _ ht, pend_addPend, hpend]

theorem rd_setTpc_sts (s : State) (t n : Nat) : (s.setTpc t n).rd (Reg.TILE_STS t) = s.rd (Reg.TILE_STS t) :=
  rd_setTpc_ne s n (by unfold Reg.TILE_STS Reg.TILE_PC; omega)

/-- A change of a tile's record that keeps its dispatched instructions. -/
theorem pend_updTile (s : State) (k t : Nat) {f : Tile → Tile} (hf : ∀ x, (f x).pend = x.pend) : ((s.updTile k f).tile t).pend = (s.tile t).pend := by
  by_cases hk : t = k
  · rw [hk, tile_updTile, hf]
  · rw [tile_updTile_ne _ _ hk]

section
variable {s v : State} (t : Nat) (p : TPend) {w : List Fld} (hw : .mem ∈ w) (hm : Memory.wf s.mem = true)
include hw hm

/-- Where the unit's work is one store, memory is as after the store alone. -/
theorem byte_taken_store {a : Nat} {c : Bytes} (hv : v.mem = memStore s.mem a c) (x : Nat) :
    (s.taken (v.addPend t p) w).byte x = (s.st a c).byte x :=
  (taken_byte s (v.addPend t p) hw (by rw [addPend_same (f := .mem) v t p (by decide), hv]; exact memStore_wf _ _ hm) x).trans
    (byte_congr (hv.trans rfl) x)

theorem byte_stored {a i : Nat} {c : Bytes} (hv : v.mem = memStore s.mem a c) (hi : i < c.length) :
    (s.taken (v.addPend t p) w).byte (a + i) = c.getD i 0 :=
  (byte_taken_store t p hw hm hv _).trans (byte_st s a c hi)

theorem byte_not_stored {a x : Nat} {c : Bytes} (hv : v.mem = memStore s.mem a c) (hx : x < a ∨ a + c.length ≤ x) :
    (s.taken (v.addPend t p) w).byte x = s.byte x :=
  (byte_taken_store t p hw hm hv _).trans (byte_st_ne s a c hx)

/-- Where the unit's work leaves memory, every byte is as it was. -/
theorem bytes_kept (hv : v.mem = s.mem) (x : Nat) : (s.taken (v.addPend t p) w).byte x = s.byte x :=
  byte_not_stored t p hw hm (a := 0) (c := []) hv (.inr (Nat.zero_le x))
end

/-! ## A fault of a unit's instruction (R172) -/

/-- The state in which the regions that a faulting instruction was to write hold undefined bytes. -/
def State.destUndefined (s : State) (t : Nat) (b : Bytes) (trs : List Word) : State :=
  let s := (destOf b trs).foldl (fun s e => s.scramble (tileWin t + e.1 * 64) (e.2 * 64)) s
  if byteAt b 0 = 0x31 then
    (match DmaOp.read b trs with
     | .ok d => (List.range d.rows).foldl (fun s j => let e := d.extRow j
         if s.tileMem t e.1 e.2 true then s.scramble e.1 e.2 else s) s
     | .error _ => s)
  else s

theorem scramble_same {f : Fld} (s : State) (a n : Nat) (h : f ∉ [Fld.free, .mem, .harts]) : f.same s (s.scramble a n) := by
  cases f <;> first | rfl | simp at h

theorem destUndefined_same {f : Fld} (s : State) (t : Nat) (b : Bytes) (trs : List Word) (h : f ∉ [Fld.free, .mem, .harts]) :
    f.same s (s.destUndefined t b trs) := by
  have hdest : f.same s ((destOf b trs).foldl (fun s e => s.scramble (tileWin t + e.1 * 64) (e.2 * 64)) s) :=
    foldl_same _ (fun _ _ => scramble_same _ _ _ h) _ _
  unfold State.destUndefined
  dsimp only
  split
  · split
    · exact Fld.same_trans hdest (foldl_same _ (fun _ _ => Fld.same_ite (scramble_same _ _ _ h) (Fld.same_refl _ _)) _ _)
    · exact hdest
  · exact hdest

theorem unitFault_eq (s : State) (t pc : Nat) (b : Bytes) (trs : List Word) {f : TFault} (hf : f ≠ .linkLen) :
    s.unitFault t pc b trs f = (s.destUndefined t b trs).tileFault t pc f := by
  unfold State.unitFault
  dsimp only
  rw [if_neg hf]
  rfl

theorem unitFault_linkLen (s : State) (t pc : Nat) (b : Bytes) (trs : List Word) :
    s.unitFault t pc b trs .linkLen = ((s.destUndefined t b trs).discardMsg t b).tileFault t pc .linkLen := by
  unfold State.unitFault
  dsimp only
  rw [if_pos rfl]
  rfl

/-- A tile whose instruction has faulted stands in FAULT, with its code, and its PC at the instruction. -/
theorem tile_faulted {s v : State} {t op pc : Nat} {b : Bytes} {f : TFault} {w : List Fld} (ht : t < 160) (h : s.tileAt t op b) (hf : f ≠ .ecc)
    (hy : v.noYield t) (hr : .regs ∈ w) :
    (s.taken ((v.tileFault t pc f).setTpc t (s.tpc t)) w).tileState t = 2 ∧
    (s.taken ((v.tileFault t pc f).setTpc t (s.tpc t)) w).fld (Reg.TILE_STS t) 29 24 = f.code ∧
    (s.taken ((v.tileFault t pc f).setTpc t (s.tpc t)) w).tpc t = s.tpc t := by
  obtain ⟨-, -, -, hpc, -⟩ := h
  rw [taken_tileState _ _ hr, taken_fld _ _ hr, taken_tpc _ _ hr, tileState_setTpc, fld_congr (rd_setTpc_sts _ _ _)]
  exact ⟨tileState_tileFault ht hf hy, code_tileFault ht hf hy, tpc_setTpc_of_lt _ _ (by omega) (tpc_aligned _ _)⟩

end Sys2Proof.Machine
end

section
/-! SUPPORT. LOAD, STORE, HSEND and HRECV of one row, and the statement about them (R142, R148, R160, R163, R164, R172). -/
namespace Sys2Proof.Machine

/-! ## What the PC does not decide -/

section
variable (s : State) {t : Nat} (n : Nat)

theorem chanFenced_setTpc (q : Nat) : (s.setTpc t n).chanFenced q = s.chanFenced q := by
  unfold State.chanFenced
  rw [fld_congr (rd_setTpc_ne s n (by unfold Reg.CH_STS Reg.TILE_PC; omega))]

theorem hostOpen_setTpc (ht : t < 160) (f : Nat) : (s.setTpc t n).hostOpen f = s.hostOpen f := by
  unfold State.hostOpen
  rw [flag_congr (rd_setTpc_ne s n (by unfold Reg.HP_STS Reg.TILE_PC; omega))]
  rfl

theorem tileMem_setTpc (ht : t < 160) (k a m : Nat) (w : Bool) : (s.setTpc t n).tileMem k a m w = s.tileMem k a m w := by
  have hr : (s.setTpc t n).canRead 0 a m = s.canRead 0 a m := by
    unfold State.canRead
    simp only [chanFenced_setTpc s n, hostOpen_setTpc s n ht]
    rfl
  have hw : (s.setTpc t n).canWrite 0 a m = s.canWrite 0 a m := by
    unfold State.canWrite
    simp only [chanFenced_setTpc s n, hostOpen_setTpc s n ht]
    rfl
  unfold State.tileMem
  rw [hr, hw]
  rfl

theorem linkTile_setTpc (k d : Nat) : (s.setTpc t n).linkTile k d = s.linkTile k d := by
  have hf : ∀ u, (s.setTpc t n).tileFenced u = s.tileFenced u := fun u =>
    flag_congr (rd_setTpc_ne s n (by unfold tilePage Reg.TILE_PC; omega)) 30
  unfold State.linkTile
  simp only [hf]
  rfl
end

/-! ## HBM -/

theorem bulkRead_hbm (s : State) (req : Req) {a n : Nat} (h : a ≤ 0xC00000000) : s.bulkRead req a n = (s.ld a n, s) := by
  unfold State.bulkRead State.ldUnit regBase commonsBase
  rw [if_neg (by omega), if_neg (by omega)]

theorem bulkWrite_hbm (s : State) (req : Req) {a : Nat} (b : Bytes) (h : a ≤ 0xC00000000) : s.bulkWrite req a b = s.stUnit a b := by
  unfold State.bulkWrite tileBase
  exact if_neg (by omega)

theorem mem_stUnit_hbm (s : State) {a : Nat} (b : Bytes) (h : a ≤ 0xC00000000) : (s.stUnit a b).mem = memStore s.mem a b := by
  unfold State.stUnit commonsBase tileBase
  rw [if_neg (by omega)]
  split
  · rfl
  · rw [if_neg (by omega)]
    rfl

/-! ## One row over the DMA unit (R160) -/

section
variable {s : State} {t : Nat} {b : Bytes} {trs : List Word} {d : DmaOp} (hd : DmaOp.read b trs = .ok d) (hcodec : d.codec = 0)
  (hhbm : d.ext + d.len * 64 ≤ 0xC00000000)
include hcodec hhbm

/-- The one row lies at the operand's addresses. -/
theorem extRow_zero : d.extRow 0 = (d.ext, d.len * 64) := by
  unfold DmaOp.extRow
  rw [if_pos hcodec, Nat.zero_mul, Nat.zero_mul, Nat.add_zero, Nat.mod_eq_of_lt (by omega)]

variable (hrows : d.rows = 1)
include hd hrows

theorem runLoad_row (hmem : s.tileMem t d.ext (d.len * 64) false = true) :
    s.runLoad t b trs = .ok (s.tst t (d.loc * 64) (s.ld d.ext (d.len * 64)), false) := by
  have hrow := extRow_zero hcodec hhbm
  have hread := bulkRead_hbm s (reqTile t) (a := d.ext) (n := d.len * 64) (by omega)
  unfold State.runLoad
  simp [hd, hrows, hcodec, hrow, hmem, hread, need, bind, Except.bind, pure, Except.pure]

theorem runStore_row (hmem : s.tileMem t d.ext (d.len * 64) true = true) (hreg : s.region t d.loc d.len = .ok ()) :
    s.runStore t b trs = .ok (s.stUnit d.ext (s.tld t (d.loc * 64) (d.len * 64)), false) := by
  have hrow := extRow_zero hcodec hhbm
  have hwrite := fun c => bulkWrite_hbm s (reqTile t) (a := d.ext) c (by omega)
  unfold State.runStore
  simp [hd, hrows, hcodec, hrow, hmem, hreg, hwrite, need, bind, Except.bind, pure, Except.pure]
end

/-! ## One row over a link (R163, R164) -/

theorem exists_of_bind_ok {ε α β : Type} {x : Except ε α} {f : α → Except ε β} {r : β} (h : x >>= f = .ok r) : ∃ a, x = .ok a ∧ f a = .ok r := by
  cases x with
  | error e => cases h
  | ok a => exact ⟨a, rfl, h⟩

section
variable {s : State} {t d loc len pitch : Nat} {b : Bytes} {trs : List Word} (hop : linkOp b trs = .ok (d, 1, loc, len, pitch))
include hop

theorem runHsend_row {k : Nat} (hreg : s.region t loc len = .ok ()) (hk : s.linkTile t d = some k) :
    s.runHsend t b trs = .ok (s.updTile k (fun x => { x with links := x.links.upd [] t (fun l => l ++ [s.tld t (loc * 64) (len * 64)]) }), false) := by
  unfold State.runHsend
  simp [hop, hreg, hk, bind, Except.bind, pure, Except.pure]

theorem runHsend_absent (hreg : s.region t loc len = .ok ()) (hk : s.linkTile t d = none) : s.runHsend t b trs = .error .linkAbsent := by
  unfold State.runHsend
  simp [hop, hreg, hk, bind, Except.bind]

theorem runHrecv_absent (hk : s.linkTile t d = none) : s.runHrecv t b trs = .error .linkAbsent := by
  unfold State.runHrecv
  simp [hop, hk, bind, Except.bind]

/-- The direction of the link is a field of the instruction. -/
theorem linkOp_direction : tfield b 2 0 = d := by
  unfold linkOp at hop
  obtain ⟨-, -, hop⟩ := exists_of_bind_ok hop
  obtain ⟨-, -, hop⟩ := exists_of_bind_ok hop
  obtain ⟨_, -, hop⟩ := exists_of_bind_ok hop
  obtain ⟨-, -, hop⟩ := exists_of_bind_ok hop
  exact congrArg Prod.fst (Except.ok.inj hop)

variable {k : Nat} (hk : s.linkTile t d = some k)
include hk

theorem runHrecv_empty (hl : (s.tile t).links.get [] k = []) : s.runHrecv t b trs = .ok none := by
  unfold State.runHrecv
  simp [hop, hk, hl, bind, Except.bind]

/-- Tile t with the oldest message of the link from tile k taken out. -/
def State.dropMsg (s : State) (t k : Nat) : State := s.updTile t (fun x => { x with links := x.links.upd [] k (fun l => l.drop 1) })

variable {msg : Bytes} {rest : List Bytes} (hl : (s.tile t).links.get [] k = msg :: rest)
include hl

theorem runHrecv_row (hlen : msg.length = len * 64) : s.runHrecv t b trs = .ok (some ((s.dropMsg t k).tst t (loc * 64) msg, false)) := by
  unfold State.runHrecv
  simp [hop, hk, hl, hlen, List.take_of_length_le (Nat.le_of_eq hlen), need, bind, Except.bind, pure, Except.pure, State.dropMsg]

theorem runHrecv_wrongLength (hlen : msg.length ≠ len * 64) : s.runHrecv t b trs = .error .linkLen := by
  unfold State.runHrecv
  simp [hop, hk, hl, hlen, need, bind, Except.bind]
end

theorem linkTile_congr {s u : State} (hp : u.parts = s.parts) (hr : u.regs = s.regs) (t d : Nat) : u.linkTile t d = s.linkTile t d := by
  unfold State.linkTile State.tileFenced
  simp only [tileOwner_congr hp, flag_congr (rd_congr hr _)]

theorem discardMsg_eq {s : State} {t k : Nat} {b : Bytes} (hk : s.linkTile t (tfield b 2 0) = some k) : s.discardMsg t b = s.dropMsg t k := by
  unfold State.discardMsg
  rw [hk]
  rfl

theorem parts_dropMsg (s : State) (t k : Nat) : (s.dropMsg t k).parts = s.parts := rfl

theorem pend_dropMsg (s : State) (t k : Nat) : ((s.dropMsg t k).tile t).pend = (s.tile t).pend := pend_updTile _ _ _ (fun _ => rfl)

theorem links_dropMsg (s : State) (t k : Nat) : ((s.dropMsg t k).tile t).links.get [] k = ((s.tile t).links.get [] k).drop 1 := by
  unfold State.dropMsg
  rw [tile_updTile]
  exact Tab.get_set_same _ _ _ _

/-! ## The statement -/

section
variable (t : Fin 160) {s : State} {b : Bytes} (hm : Memory.wf s.mem = true) (hw : byteAt b 2 < 128)
include hm hw

section
variable {d : DmaOp} (hd : DmaOp.read (b.take 32 ++ zeros 32) (s.trs t) = .ok d) (hrows : d.rows = 1) (hcodec : d.codec = 0)
  (hhbm : d.ext + d.len * 64 ≤ 0xC00000000) (hfree : s.unitFree t .dma)
include hd hrows hcodec hhbm hfree

theorem exec_tileLoad_row (h : s.tileAt t 0x30 b) (hmem : s.tileMem t d.ext (d.len * 64) false = true) :
    ∃ u, exec (.tileLoad t) s = .next u ∧ s.dispatched u t .dma true ∧
      (∀ i, i < d.len * 64 → u.byte (tileWin t + d.loc * 64 + i) = s.byte (d.ext + i)) ∧
      ∀ x, (x < tileWin t + d.loc * 64 ∨ tileWin t + d.loc * 64 + d.len * 64 ≤ x) → u.byte x = s.byte x := by
  have hop := (tileInstr_dispatch h hw rfl hfree (by decide)).2.2
  have hrun := runLoad_row (s := s.setTpc t (s.tpc t + 32)) (t := t) hd hcodec hhbm hrows (by rw [tileMem_setTpc _ _ t.isLt]; exact hmem)
  have hdone := tileInstr_done h hw rfl hfree (by decide) (by rw [State.runUnit, hop]; exact congrArg (Except.map some) hrun)
  have hlen : (s.ld d.ext (d.len * 64)).length = d.len * 64 := length_ld _ _ _
  refine ⟨_, rfl, ?_⟩
  rw [hdone]
  refine ⟨dispatched_addPend h rfl (rd_setTpc_sts _ _ _) rfl (by decide) (by decide), fun i hi => ?_, fun x hx => ?_⟩
  · exact (byte_stored t _ (by decide) hm rfl (Nat.lt_of_lt_of_eq hi hlen.symm)).trans (getD_ld s _ hi)
  · exact byte_not_stored t _ (by decide) hm rfl (by rw [← hlen] at hx; exact hx)

theorem exec_tileStore_row (h : s.tileAt t 0x31 b) (hmem : s.tileMem t d.ext (d.len * 64) true = true) (hreg : s.region t d.loc d.len = .ok ()) :
    ∃ u, exec (.tileStore t) s = .next u ∧ s.dispatched u t .dma true ∧
      (∀ i, i < d.len * 64 → u.byte (d.ext + i) = s.byte (tileWin t + d.loc * 64 + i)) ∧
      ∀ x, (x < d.ext ∨ d.ext + d.len * 64 ≤ x) → u.byte x = s.byte x := by
  have hop := (tileInstr_dispatch h hw rfl hfree (by decide)).2.2
  have hrun := runStore_row (s := s.setTpc t (s.tpc t + 32)) (t := t) hd hcodec hhbm hrows (by rw [tileMem_setTpc _ _ t.isLt]; exact hmem) hreg
  have hdone := tileInstr_done h hw rfl hfree (by decide) (by rw [State.runUnit, hop]; exact congrArg (Except.map some) hrun)
  have hlen : (s.tld t (d.loc * 64) (d.len * 64)).length = d.len * 64 := length_ld _ _ _
  have hrd : ∀ {v : State} {c : Bytes} {r : Nat}, r ≠ Reg.COM_CNT_BAD_UNIT → (v.stUnit d.ext c).rd r = v.rd r := rd_stUnit _ _ _
  refine ⟨_, rfl, ?_⟩
  rw [hdone]
  have hst := mem_stUnit_hbm (s.setTpc t (s.tpc t + 32)) (s.tld t (d.loc * 64) (d.len * 64)) (a := d.ext) (by omega)
  refine ⟨dispatched_addPend h ?_ ?_ ?_ (by decide) (by decide), fun i hi => ?_, fun x hx => ?_⟩
  · exact hrd (by unfold Reg.TILE_PC Reg.COM_CNT_BAD_UNIT; omega)
  · exact (hrd (by unfold Reg.TILE_STS Reg.COM_CNT_BAD_UNIT; omega)).trans (rd_setTpc_sts _ _ _)
  · exact congrArg Tile.pend (tile_congr (stUnit_same (f := .tiles) _ _ _ (by decide)) _)
  · exact (byte_stored t _ (by decide) hm hst (Nat.lt_of_lt_of_eq hi hlen.symm)).trans (getD_ld s _ hi)
  · exact byte_not_stored t _ (by decide) hm hst (by rw [← hlen] at hx; exact hx)
end

section
variable {d loc len pitch : Nat} (hop : linkOp (b.take 32 ++ zeros 32) (s.trs t) = .ok (d, 1, loc, len, pitch))
include hop

section
variable (h : s.tileAt t 0x38 b) (hfree : s.unitFree t .lsend) (hreg : s.region t loc len = .ok ())
include h hfree hreg

theorem exec_hsend_row {k : Nat} (hk : s.linkTile t d = some k) : ∃ u, exec (.hsend t) s = .next u ∧ s.dispatched u t .lsend true ∧
    (u.tile k).links.get [] t = (s.tile k).links.get [] t ++ [s.tld t (loc * 64) (len * 64)] ∧ ∀ x, u.byte x = s.byte x := by
  have hcode := (tileInstr_dispatch h hw rfl hfree (by decide)).2.2
  have hrun := runHsend_row (s := s.setTpc t (s.tpc t + 32)) (t := t) hop hreg ((linkTile_setTpc _ _ _ _).trans hk)
  have hdone := tileInstr_done h hw rfl hfree (by decide) (by rw [State.runUnit, hcode]; exact congrArg (Except.map some) hrun)
  refine ⟨_, rfl, ?_⟩
  rw [hdone]
  refine ⟨dispatched_addPend h rfl ((rd_updTile _ _ _ _).trans (rd_setTpc_sts _ _ _)) (pend_updTile _ _ _ (fun _ => rfl)) (by decide) (by decide), ?_,
    bytes_kept t _ (by decide) hm rfl⟩
  rw [taken_tile _ _ (by decide), links_addPend, tile_updTile]
  exact Tab.get_set_same _ _ _ _

omit hm in
theorem exec_hsend_absent (hy : s.noYield t) (hk : s.linkTile t d = none) : ∃ u, exec (.hsend t) s = .next u ∧ u.tileState t = 2 ∧
    u.fld (Reg.TILE_STS t) 29 24 = 5 ∧ u.tpc t = s.tpc t := by
  have hcode := (tileInstr_dispatch h hw rfl hfree (by decide)).2.2
  have hrun := runHsend_absent (s := s.setTpc t (s.tpc t + 32)) (t := t) hop hreg ((linkTile_setTpc _ _ _ _).trans hk)
  have hfault := tileInstr_faults h hw rfl hfree (by decide) (by rw [State.runUnit, hcode]; exact congrArg (Except.map some) hrun)
  refine ⟨_, rfl, ?_⟩
  rw [hfault, unitFault_eq _ _ _ _ _ (by decide)]
  exact tile_faulted t.isLt h (by decide) (noYield_congr (destUndefined_same (f := .parts) _ _ _ _ (by decide)) hy) (by decide)
end

section
variable (h : s.tileAt t 0x39 b) (hfree : s.unitFree t .lrecv)
include h hfree

omit hm in
theorem exec_hrecv_absent (hy : s.noYield t) (hk : s.linkTile t d = none) : ∃ u, exec (.hrecv t) s = .next u ∧ u.tileState t = 2 ∧
    u.fld (Reg.TILE_STS t) 29 24 = 5 ∧ u.tpc t = s.tpc t := by
  have hcode := (tileInstr_dispatch h hw rfl hfree (by decide)).2.2
  have hrun := runHrecv_absent (s := s.setTpc t (s.tpc t + 32)) (t := t) hop ((linkTile_setTpc _ _ _ _).trans hk)
  have hfault := tileInstr_faults h hw rfl hfree (by decide) (by rw [State.runUnit, hcode]; exact hrun)
  refine ⟨_, rfl, ?_⟩
  rw [hfault, unitFault_eq _ _ _ _ _ (by decide)]
  exact tile_faulted t.isLt h (by decide) (noYield_congr (destUndefined_same (f := .parts) _ _ _ _ (by decide)) hy) (by decide)

variable {k : Nat} (hk : s.linkTile t d = some k)
include hk

theorem exec_hrecv_empty (hl : (s.tile t).links.get [] k = []) :
    ∃ u, exec (.hrecv t) s = .next u ∧ s.dispatched u t .lrecv false ∧ ∀ x, u.byte x = s.byte x := by
  have hcode := (tileInstr_dispatch h hw rfl hfree (by decide)).2.2
  have hrun := runHrecv_empty (s := s.setTpc t (s.tpc t + 32)) (t := t) hop ((linkTile_setTpc _ _ _ _).trans hk) hl
  have hwait := tileInstr_left_waiting h hw rfl hfree (by decide) (by rw [State.runUnit, hcode]; exact hrun)
  refine ⟨_, rfl, ?_⟩
  rw [hwait]
  exact ⟨dispatched_addPend h rfl (rd_setTpc_sts _ _ _) rfl (by decide) (by decide), bytes_kept t _ (by decide) hm rfl⟩

variable {msg : Bytes} {rest : List Bytes} (hl : (s.tile t).links.get [] k = msg :: rest)
include hl

theorem exec_hrecv_row (hlen : msg.length = len * 64) : ∃ u, exec (.hrecv t) s = .next u ∧ s.dispatched u t .lrecv true ∧
    (u.tile t).links.get [] k = rest ∧ (∀ i, i < len * 64 → u.byte (tileWin t + loc * 64 + i) = msg.getD i 0) ∧
    ∀ x, (x < tileWin t + loc * 64 ∨ tileWin t + loc * 64 + len * 64 ≤ x) → u.byte x = s.byte x := by
  have hcode := (tileInstr_dispatch h hw rfl hfree (by decide)).2.2
  have hrun := runHrecv_row (s := s.setTpc t (s.tpc t + 32)) (t := t) hop ((linkTile_setTpc _ _ _ _).trans hk) hl hlen
  have hdone := tileInstr_done h hw rfl hfree (by decide) (by rw [State.runUnit, hcode]; exact hrun)
  refine ⟨_, rfl, ?_⟩
  rw [hdone]
  rw [← hlen]
  refine ⟨dispatched_addPend h rfl (rd_setTpc_sts _ _ _) (pend_dropMsg (s.setTpc t (s.tpc t + 32)) t k) (by decide) (by decide), ?_,
    fun i hi => byte_stored t _ (by decide) hm rfl hi, fun x hx => byte_not_stored t _ (by decide) hm rfl hx⟩
  rw [taken_tile _ _ (by decide), links_addPend]
  exact (links_dropMsg _ _ _).trans (congrArg (List.drop 1) hl)

omit hm in
theorem exec_hrecv_wrongLength (hlen : msg.length ≠ len * 64) (hy : s.noYield t) : ∃ u, exec (.hrecv t) s = .next u ∧ u.tileState t = 2 ∧
    u.fld (Reg.TILE_STS t) 29 24 = 6 ∧ (u.tile t).links.get [] k = rest := by
  have hcode := (tileInstr_dispatch h hw rfl hfree (by decide)).2.2
  have hlink : (s.setTpc t (s.tpc t + 32)).linkTile t d = some k := (linkTile_setTpc _ _ _ _).trans hk
  have hrun := runHrecv_wrongLength (s := s.setTpc t (s.tpc t + 32)) (t := t) hop hlink hl hlen
  have hfault := tileInstr_faults h hw rfl hfree (by decide) (by rw [State.runUnit, hcode]; exact hrun)
  refine ⟨_, rfl, ?_⟩
  have hparts := destUndefined_same (f := .parts) (s.setTpc t (s.tpc t + 32)) t (b.take 32 ++ zeros 32) (s.trs t) (by decide)
  have htiles := destUndefined_same (f := .tiles) (s.setTpc t (s.tpc t + 32)) t (b.take 32 ++ zeros 32) (s.trs t) (by decide)
  have hregs := destUndefined_same (f := .regs) (s.setTpc t (s.tpc t + 32)) t (b.take 32 ++ zeros 32) (s.trs t) (by decide)
  rw [hfault, unitFault_linkLen, discardMsg_eq (by rw [linkOp_direction hop, linkTile_congr hparts hregs]; exact hlink)]
  have hyield := noYield_congr (parts_dropMsg _ t k) (noYield_congr hparts hy)
  refine (tile_faulted t.isLt h (by decide) hyield (by decide)).imp_right (And.imp_right (fun _ => ?_))
  rw [taken_tile _ _ (by decide), tile_congr (setTpc_same (f := .tiles) _ _ _ (by decide)),
    tile_congr (tileFault_same (g := .tiles) (by decide) hyield (by decide))]
  exact (links_dropMsg _ _ _).trans (congrArg (List.drop 1) ((congrArg (fun x => x.links.get [] k) (tile_congr htiles t)).trans hl))
end
end
end

/-- Settles O35: each transfer of one row is one store or one change of a link's buffer, made at its dispatch. -/
theorem tileTransferInstructions : Obligations.TileTransferInstructions := by
  unfold Obligations.TileTransferInstructions
  intro t s b hm hw pc b1 trs put
  refine ⟨fun d hd hrows hcodec hhbm hfree => ⟨exec_tileLoad_row t hm hw hd hrows hcodec hhbm hfree,
    exec_tileStore_row t hm hw hd hrows hcodec hhbm hfree⟩, fun d loc len pitch hop => ⟨fun h hfree hreg =>
      ⟨fun k hk => exec_hsend_row t hm hw hop h hfree hreg hk, fun hy hk => exec_hsend_absent t hw hop h hfree hreg hy hk⟩,
      fun h hfree => ⟨fun k hk => ⟨fun hl => exec_hrecv_empty t hm hw hop h hfree hk hl,
        fun msg rest hl hlen => exec_hrecv_row t hm hw hop h hfree hk hl hlen,
        fun msg rest hl hlen hy => exec_hrecv_wrongLength t hw hop h hfree hk hl hlen hy⟩,
        fun hy hk => exec_hrecv_absent t hw hop h hfree hy hk⟩⟩⟩

end Sys2Proof.Machine
end

section
/-! SUPPORT. A tile that is fenced for its ECC faults, and with it the counterexample to the statement on the array and vector instructions
(R172, R419). -/
namespace Sys2Proof.Machine

/-! ## The third ECC fault within a second (R419) -/

/-- The ECC faults of tile t that lie less than one second back. -/
def State.recentEcc (s : State) (t : Nat) : List Nat := (s.tile t).ecc.filter (fun k => decide (s.clk.tclk < k + 1000000000))

theorem recentEcc_congr {s u : State} (htiles : u.tiles = s.tiles) (hclk : u.clk = s.clk) (t : Nat) : u.recentEcc t = s.recentEcc t := by
  unfold State.recentEcc
  rw [tile_congr htiles, hclk]

theorem not_logReg_tile {a : Nat} (h : 0x100000 ≤ a ∧ a < 0x1A0000) : ¬ logReg a := by
  have hlog : ¬ (a = Reg.FLOG_NEXT ∨ a = Reg.FLOG_CNT_ENTRIES ∨ a = Reg.FLOG_CNT_OVERWRITTEN ∨ a = 0x9010) := by
    unfold Reg.FLOG_NEXT Reg.FLOG_CNT_ENTRIES Reg.FLOG_CNT_OVERWRITTEN
    omega
  exact fun e => e.elim (not_msgReg_tile h) hlog

/-- A fenced tile is IDLE. -/
theorem tileState_fenceTile (s : State) (t : Nat) : (s.fenceTile t).tileState t = 0 := by
  unfold State.fenceTile
  rw [tileState_updTile]
  exact tileState_setTileState _ t (by decide)

theorem parts_fenceTile (s : State) (t : Nat) : (s.fenceTile t).parts = s.parts :=
  (updTile_parts _ _ _).trans ((setFld_parts _ _ _ _ _).trans (setFlag_parts s (tilePage t + 0xC) 30 true))

/-- The third ECC fault within a second takes the tile out of FAULT again, since it is fenced. -/
theorem tileEcc_third {s : State} {t : Nat} (pc : Nat) (ht : t < 160) (h : 2 ≤ (s.recentEcc t).length) :
    (s.tileEcc t pc).tileState t = 0 ∧ (s.tileEcc t pc).parts = s.parts := by
  have hsts : 0x100000 ≤ Reg.TILE_STS t ∧ Reg.TILE_STS t < 0x1A0000 := by unfold Reg.TILE_STS; omega
  have hthird : 3 ≤ (s.clk.tclk :: s.recentEcc t).length := Nat.succ_le_succ h
  unfold State.recentEcc at hthird
  unfold State.tileEcc
  dsimp only
  rw [if_pos hthird,
    tileState_congr ((rd_raise _ _ _ (not_msgReg_tile hsts) (by omega)).trans (rd_log _ _ _ _ _ (not_logReg_tile hsts)))]
  exact ⟨tileState_fenceTile _ _, (raise_parts _ _ _).trans ((log_parts _ _ _ _ _).trans ((parts_fenceTile _ _).trans (updTile_parts _ _ _)))⟩

theorem tileState_tileFault_third {s : State} {t : Nat} (pc : Nat) (ht : t < 160) (hy : s.noYield t) (h : 2 ≤ (s.recentEcc t).length) :
    (s.tileFault t pc .ecc).tileState t = 0 := by
  have hraised : ∀ {f : Fld}, f ∉ [Fld.regs, .holding, .msix, .hevt, .out] → f.same s ((s.faultShown t pc .ecc).raise (tilePage t) 1) :=
    fun hf => Fld.same_trans (faultShown_same _ _ _ _ (notMem_part hf (by decide))) (raise_same _ _ _ hf)
  obtain ⟨hstate, hparts⟩ := tileEcc_third (s := (s.faultShown t pc .ecc).raise (tilePage t) 1) pc ht
    (by rw [recentEcc_congr (hraised (f := .tiles) (by decide)) (hraised (f := .clk) (by decide))]; exact h)
  have hyield := noYield_congr (hparts.trans (hraised (f := .parts) (by decide))) hy
  unfold State.tileFault
  dsimp only
  rw [if_pos rfl]
  exact (congrArg (State.tileState · t) (tileStopped_noYield hyield)).trans hstate

/-! ## The counterexample -/

/-- Tile 0 in RUN at a MATMUL whose activations at local address 0 take in a line with an uncorrectable error, the line behind the
instruction's; two ECC faults lie less than a second back. -/
def thirdEccTile : State :=
  (({ State.reset with tiles := [(0, { ecc := [0, 0] })], ue := [tileWin 0 / 64 + 1] } : State).setTileState 0 1).st (tileWin 0) [0x10]

theorem thirdEccTile_tileAt : thirdEccTile.tileAt 0 0x10 (thirdEccTile.tld 0 0 64) := by unfold State.tileAt; decide +kernel

theorem thirdEccTile_noYield : thirdEccTile.noYield 0 := by
  have ho : thirdEccTile.tileOwner 0 = none := by decide +kernel
  intro p hp
  rw [ho] at hp
  cases hp

/-- The fields of a MATMUL whose bytes behind the opcode are all zero pass every check that comes before the activations' region. -/
theorem thirdEccTile_faults : (thirdEccTile.setTpc 0 (thirdEccTile.tpc 0 + 32)).runUnit 0 ((thirdEccTile.tld 0 0 64).take 32 ++ zeros 32)
    (thirdEccTile.trs 0) = .error .ecc := rfl

theorem thirdEccTile_noWait : byteAt (thirdEccTile.tld 0 0 64) 2 < 128 := by decide +kernel

theorem thirdEccTile_unitFree : thirdEccTile.unitFree 0 .array := by unfold State.unitFree; decide +kernel

/-- The fault is the tile's third within a second, so it ends in IDLE. -/
theorem thirdEccTile_ends_idle : (thirdEccTile.tileInstr 0 0x10).tileState 0 = 0 := by
  have hkept := fun {f : Fld} => destUndefined_same (f := f) (thirdEccTile.setTpc 0 (thirdEccTile.tpc 0 + 32)) 0
    ((thirdEccTile.tld 0 0 64).take 32 ++ zeros 32) (thirdEccTile.trs 0)
  rw [tileInstr_faults thirdEccTile_tileAt thirdEccTile_noWait rfl thirdEccTile_unitFree (by decide) thirdEccTile_faults, tileState_setTpc,
    unitFault_eq _ _ _ _ _ (by decide)]
  refine tileState_tileFault_third _ (by decide) (noYield_congr (hkept (f := .parts) (by decide)) thirdEccTile_noYield) ?_
  rw [recentEcc_congr (hkept (f := .tiles) (by decide)) (hkept (f := .clk) (by decide))]
  decide +kernel

/-- Refutes O34: in `thirdEccTile` the MATMUL's fault is the third ECC fault of the tile within a second, so the tile is fenced and stands
in IDLE (R419), where the statement's clause on faults, which does not leave out the ECC code, has it in FAULT. -/
theorem not_tileArrayAndVectorInstructions : ¬ Obligations.TileArrayAndVectorInstructions := by
  unfold Obligations.TileArrayAndVectorInstructions
  intro hall
  obtain ⟨hunits, -⟩ := hall 0 thirdEccTile _ (by decide +kernel) thirdEccTile_noWait
  obtain ⟨-, hfault⟩ := hunits 0x10 (.matmul 0) .array 32 _ (.head _) thirdEccTile_tileAt thirdEccTile_unitFree
  obtain ⟨u, hu, hstate, -⟩ := hfault .ecc thirdEccTile_noYield thirdEccTile_faults
  rw [← Host.Outcome.next.inj hu, taken_tileState _ _ (by decide)] at hstate
  exact absurd (thirdEccTile_ends_idle.symm.trans hstate) (by decide)

end Sys2Proof.Machine
end

section
/-! SUPPORT. Attention units: what one of them reads after an operation, and what a command of theirs leaves (R223, R227). -/
namespace Sys2Proof.Machine

/-! ## One unit -/

@[simp] theorem aunit_setAunit (s : State) (u : Nat) (x : AUnit) : (s.setAunit u x).aunit u = x := by simp [State.aunit, State.setAunit]

theorem aunit_setAunit_ne (s : State) {u j : Nat} (x : AUnit) (h : j ≠ u) : (s.setAunit u x).aunit j = s.aunit j := Tab.get_set_ne _ _ _ h

@[simp] theorem aunit_updAunit (s : State) (u : Nat) (f : AUnit → AUnit) : (s.updAunit u f).aunit u = f (s.aunit u) := aunit_setAunit _ _ _

theorem aunit_updAunit_ne (s : State) {u j : Nat} (f : AUnit → AUnit) (h : j ≠ u) : (s.updAunit u f).aunit j = s.aunit j :=
  aunit_setAunit_ne s _ h

theorem aunit_congr {s t : State} (h : t.aunits = s.aunits) (u : Nat) : t.aunit u = s.aunit u := by unfold State.aunit; rw [h]

theorem taken_aunit (s t : State) {w : List Fld} (h : .aunits ∈ w) (u : Nat) : (s.taken t w).aunit u = t.aunit u :=
  aunit_congr (s := t) (by rw [taken_aunits, if_pos h]) u

theorem aunit_setFlag (s : State) (a i : Nat) (b : Bool) (u : Nat) : (s.setFlag a i b).aunit u = s.aunit u := aunit_congr (setFlag_aunits _ _ _ _) u

theorem flag_updAunit (s : State) (u : Nat) (f : AUnit → AUnit) (a i : Nat) : (s.updAunit u f).flag a i = s.flag a i := rfl

theorem setAunit_same {f : Fld} (s : State) (u : Nat) (x : AUnit) (h : f ∉ [Fld.aunits]) : f.same s (s.setAunit u x) :=
  updAunit_same s u (fun _ => x) h

/-! ## What stops a command -/

theorem stopIf_eq_none {b : Bool} {e : St} : stopIf b e = none ↔ b = false := by cases b <;> simp [stopIf]

theorem stopIf_ne_ok {e : St} (he : e ≠ .ok) (b : Bool) : some .ok ≠ stopIf b e := by
  cases b with
  | false => exact nofun
  | true => exact fun h => he (Option.some.inj h).symm

theorem itemStop_ne_ok (s : State) (q : Queue) (id : Nat) : some .ok ≠ s.itemStop q id := by
  unfold State.itemStop
  split
  · exact nofun
  · split
    · exact nofun
    · split <;> simp

theorem memStop_ne_ok (s : State) (q : Queue) (a n : Nat) (w : Bool) : some .ok ≠ s.memStop q a n w := by
  unfold State.memStop
  split
  · exact nofun
  · split
    · exact nofun
    · split <;> simp

/-- A command that completes OK was stopped by nothing. -/
theorem firstStop_ok {s : State} {l : List (Option St)} {k : State × St × Nat} (hl : some .ok ∉ l) (h : (firstStop s l k).2.1 = .ok) :
    firstStop s l k = k ∧ ∀ o ∈ l, o = none := by
  unfold firstStop at h ⊢
  cases hf : l.findSome? id with
  | none => exact ⟨rfl, List.findSome?_eq_none_iff.mp hf⟩
  | some e =>
    rw [hf] at h
    obtain ⟨o, ho, hoe⟩ := List.exists_of_findSome?_eq_some hf
    obtain rfl : e = .ok := h
    exact absurd (hoe ▸ ho) hl

/-! ## A command that the unit takes -/

section
variable {s : State} {q op u : Nat} {d : BitVec 512} (h : s.auTakes q op u d) {k : State → Nat → Queue → Bytes → Option (State × St × Nat)}
  {r : State × St × Nat} (hk : k s u (s.queue q) (cmdBytes d) = some r)
include h hk

/-- The command has its effect; beside it, only events and the completion. -/
theorem auCmd_same {f : Fld} (hf : f ∉ postFlds) : f.same r.1 (s.auCmd q op k) := by
  obtain ⟨hex, htag, rfl, hserves, hon, hfence⟩ := h
  have he : f ∉ [Fld.regs, .holding, .msix, .hevt, .out] := notMem_part hf (by decide)
  have hno : ¬ (s.flag (Reg.AU_CTL ((s.queue q).target - 8)) 0 = false ∨ s.flag (auPage ((s.queue q).target - 8) + 0xC) 30 = true) := by
    simp [hon, hfence]
  unfold State.auCmd State.execHeld
  simp only [hex, htag, hserves, if_neg hno, Bool.true_eq_false, Bool.false_eq_true, if_false, hk, Option.map_some]
  refine Fld.same_trans ?_ (complete_same _ _ _ _ hf)
  have hr : f.same r.1 (if r.2.1 = .ok then r.1 else r.1.raise (auPage ((s.queue q).target - 8)) 1) :=
    Fld.same_ite (Fld.same_refl _ _) (raise_same _ _ _ he)
  exact Fld.same_ite (Fld.same_trans hr (raise_same _ _ _ he)) hr
end

/-! A command that never holds its queue has the effect `e`. -/

section
variable {s : State} {q op u : Nat} {d : BitVec 512} {w : List Fld} (e : State → Nat → Queue → Bytes → State × St × Nat) (h : s.auTakes q op u d)
include h

theorem aunits_taken_auCmd (hw : .aunits ∈ w) :
    (s.taken (s.auCmd q op (fun s u q b => some (e s u q b))) w).aunits = (e s u (s.queue q) (cmdBytes d)).1.aunits := by
  rw [taken_aunits, if_pos hw]
  exact auCmd_same h rfl (f := .aunits) (by decide)

theorem seqs_taken_auCmd (hw : .seqs ∈ w) :
    (s.taken (s.auCmd q op (fun s u q b => some (e s u q b))) w).seqs = (e s u (s.queue q) (cmdBytes d)).1.seqs := by
  rw [taken_seqs, if_pos hw]
  exact auCmd_same h rfl (f := .seqs) (by decide)
end

end Sys2Proof.Machine
end

section
/-! SUPPORT. Pages of an attention unit, and SEQ_OPEN and SEQ_END (R199, R200, R202). -/
namespace Sys2Proof.Machine

/-! ## Pages (R202) -/

theorem pick_lt {s : State} {n i : Nat} {p : Nat → Bool} (h : (s.pick n p).1 = some i) : i < n := by
  obtain ⟨j, hj, rfl⟩ := List.mem_map.mp (List.mem_of_find?_eq_some h)
  exact Nat.mod_lt _ (Nat.zero_lt_of_lt (List.mem_range.mp hj))

theorem pick_same {f : Fld} (s : State) (n : Nat) (p : Nat → Bool) (h : f ∉ [Fld.free]) : f.same s (s.pick n p).2 := fresh_same s h

theorem takeFree_same {f : Fld} (s : State) (u n : Nat) (h : f ∉ [Fld.free]) : f.same s (s.takeFree u n).2 := by
  unfold State.takeFree
  split
  · exact Fld.same_refl _ _
  · exact pick_same s (s.poolPages u n) (fun i => !(s.aunit u).used (n * 524288 + i)) h

/-- A free page lies in the pool asked for. -/
theorem takeFree_page {s : State} {u n pg : Nat} (h : (s.takeFree u n).1 = some pg) : ∃ i, i < s.poolPages u n ∧ pg = n * 524288 + i := by
  unfold State.takeFree at h
  split at h
  · exact nomatch h
  · obtain ⟨i, hi, rfl⟩ := Option.map_eq_some_iff.mp h
    exact ⟨i, pick_lt hi, rfl⟩

theorem takePage_same {f : Fld} (s : State) (u : Nat) (p1 : Bool) (h : f ∉ [Fld.free, .regs, .aunits]) : f.same s (s.takePage u p1).2 := by
  have hfree : f ∉ [Fld.free] := notMem_part h (by decide)
  have ha := takeFree_same s u (if p1 then 1 else 0) hfree
  have hb := Fld.same_trans ha (takeFree_same _ u (if p1 then 0 else 1) hfree)
  unfold State.takePage
  dsimp only
  split
  · exact ha
  · split
    · exact hb
    · split
      · exact hb
      · exact Fld.same_trans hb (Fld.same_trans (setAunit_same _ _ _ (notMem_part h (by decide))) (wr_same _ _ _ (notMem_part h (by decide))))

theorem takePages_same {f : Fld} {s t : State} {u n : Nat} {p1 : Bool} {l : List Nat} (h : f ∉ [Fld.free, .regs, .aunits])
    (ht : s.takePages u p1 n = some (l, t)) : f.same s t := by
  induction n generalizing s l with
  | zero => cases ht; exact Fld.same_refl _ _
  | succ n ih =>
    unfold State.takePages at ht
    dsimp only at ht
    split at ht
    · exact nomatch ht
    · obtain ⟨r, hr, he⟩ := Option.map_eq_some_iff.mp ht
      obtain ⟨rfl, rfl⟩ := Prod.mk.inj he
      exact Fld.same_trans (takePage_same s u p1 h) (Fld.same_trans (updAunit_same _ _ _ (notMem_part h (by decide))) (ih hr))

theorem takePages_length {s t : State} {u n : Nat} {p1 : Bool} {l : List Nat} (ht : s.takePages u p1 n = some (l, t)) : l.length = n := by
  induction n generalizing s l with
  | zero => cases ht; rfl
  | succ n ih =>
    unfold State.takePages at ht
    dsimp only at ht
    split at ht
    · exact nomatch ht
    · obtain ⟨r, hr, he⟩ := Option.map_eq_some_iff.mp ht
      obtain ⟨rfl, rfl⟩ := Prod.mk.inj he
      exact congrArg (· + 1) (ih hr)

/-! ## SEQ_OPEN (R199) -/

/-- The leaf that a SEQ_OPEN names. -/
def leafOf (b : Bytes) : Option Nat := if leAt b 24 4 = 0xFFFFFFFF then none else some (leAt b 24 4)

/-- A SEQ_OPEN takes its reference on the leaf. -/
def State.holdLeaf (s : State) (u : Nat) : Option Nat → State
  | none => s
  | some l => s.updAunit u (fun x => x.addRef l)

/-- The ID that a SEQ_OPEN finds free, with the state then. -/
def State.freeSeq (s : State) : Option Nat × State := s.pick 16384 (fun i => (s.seqs.look i).isNone)

/-- The own pages that a SEQ_OPEN takes, with the state then: none on a full unit or where some page cannot be found. -/
def State.seqPages (s : State) (u : Nat) (b : Bytes) : Option (List Nat × State) :=
  if 2048 ≤ s.resident u then none else s.freeSeq.2.takePages u ((byteAt b 13).testBit 1) (if byteAt b 13 % 2 == 1 then 16 else 9)

/-- The sequence of the SEQ_OPEN with bytes `b`: its ID, context and own pages. -/
def State.newSeq (s t : State) (u : Nat) (q : Queue) (b : Bytes) (i ci : Nat) (pages : List Nat) : Sequence :=
  { handle := t.seqGen.get 0 i * 16384 + i, unit := u, item := leAt b 0 8, line := leAt b 8 4, slot := byteAt b 12,
    model := modelOfBytes (s.ld (s.modelAddr (byteAt b 12)) 64), contig := byteAt b 13 % 2 == 1, leaf := leafOf b,
    plen := pathLen ((t.aunit u).path 65 (leafOf b)), len := 0, root := leAt b 14 2,
    maxOwn := if leAt b 28 2 = 0 then (if byteAt b 13 % 2 == 1 then 256 else 1024) else leAt b 28 2, endTok := leAt b 30 2,
    feat := leAt b 32 8, featRows := byteAt b 40, featCols := leAt b 42 2, featCentre := byteAt b 41, featValid := leAt b 44 2, ctx := ci,
    pages := pages, part := q.ownerOf.1, vi := q.ownerOf.2 }

/-- The effect of a SEQ_OPEN that nothing stops. -/
def State.seqOpened (s : State) (u : Nat) (q : Queue) (b : Bytes) : State × St × Nat :=
  let r := s.holdLeaf u (leafOf b)
  match r.freeSeq.1, s.gctxOf q (leAt b 48 4), r.seqPages u b with
  | some i, some (ci, c), some (pages, t) =>
    let x := s.newSeq t u q b i ci pages
    (((({ t with seqGen := t.seqGen.set 0 i ((t.seqGen.get 0 i + 1) % 2 ^ 18) } : State).setSeq x).setGCtx ci { c with bound := true }).bump
      Reg.SEQ_CNT_SEQ_OPENED, .ok, x.handle)
  | _, _, _ => (s, .noSpace, 0)

/-- A SEQ_OPEN that completes OK was stopped by nothing, and had that effect. -/
theorem effSeqOpen_ok {s : State} {u : Nat} {q : Queue} {b : Bytes} (h : (s.effSeqOpen u q b).2.1 = .ok) :
    s.effSeqOpen u q b = s.seqOpened u q b := by
  refine (firstStop_ok ?_ h).1.trans ?_
  · simp only [List.mem_cons, List.not_mem_nil, not_or, or_false]
    refine ⟨?_, itemStop_ne_ok _ _ _, ?_, ?_, ?_, ?_, ?_, ?_, ?_⟩ <;> exact stopIf_ne_ok (by decide) _
  · unfold State.seqOpened State.seqPages State.freeSeq State.newSeq leafOf State.holdLeaf
    -- the choice among 16,384 IDs is no matter of computation here
    dsimp only <;> (generalize State.pick _ 16384 _ = p; rfl)

theorem holdLeaf_seqs (s : State) (u : Nat) (l : Option Nat) : (s.holdLeaf u l).seqs = s.seqs := by cases l <;> rfl

/-- The pages are those of the layout (R203), and taking them ends no sequence. -/
theorem seqPages_some {s t : State} {u : Nat} {b : Bytes} {l : List Nat} (h : s.seqPages u b = some (l, t)) :
    t.seqs = s.seqs ∧ l.length = if byteAt b 13 % 2 = 1 then 16 else 9 := by
  unfold State.seqPages at h
  split at h
  · exact nomatch h
  · refine ⟨(takePages_same (f := .seqs) (by decide) h).trans (pick_same (f := .seqs) s _ _ (by decide)), ?_⟩
    rw [takePages_length h]
    simp

/-- The sequence that the SEQ_OPEN with bytes `b` on unit u makes under a handle. -/
structure Sequence.OpenedBy (x : Sequence) (u : Nat) (b : Bytes) (handle : Nat) : Prop where
  handle : x.handle = handle
  unit : x.unit = u
  item : x.item = leAt b 0 8
  len : x.len = 0
  root : x.root = leAt b 14 2
  endTok : x.endTok = leAt b 30 2
  leaf : x.leaf = if leAt b 24 4 = 0xFFFFFFFF then none else some (leAt b 24 4)
  pages : x.pages.length = if byteAt b 13 % 2 = 1 then 16 else 9

theorem seqOpened_ok {s : State} {u : Nat} {q : Queue} {b : Bytes} (h : (s.seqOpened u q b).2.1 = .ok) :
    ∃ x : Sequence, x.OpenedBy u b (s.seqOpened u q b).2.2 ∧ (s.seqOpened u q b).1.seqs = s.seqs.insert ((s.seqOpened u q b).2.2 % 16384) x := by
  revert h
  unfold State.seqOpened
  dsimp only
  split
  · rename_i i ci c pages t _ _ hp
    intro _
    obtain ⟨hseqs, hlen⟩ := seqPages_some hp
    refine ⟨s.newSeq t u q b i ci pages, ⟨rfl, rfl, rfl, rfl, rfl, rfl, rfl, hlen⟩, ?_⟩
    exact congrArg (Tab.insert _ _) (hseqs.trans (holdLeaf_seqs _ _ _))
  · exact nofun

/-! ## SEQ_END (R200) -/

theorem Tab.erase_eq_self {α : Type} {t : Tab α} {k : Nat} (h : t.look k = none) : t.erase k = t := by
  induction t with
  | nil => rfl
  | cons e t ih =>
    obtain ⟨j, w⟩ := e
    unfold Tab.look at h
    split at h
    · exact nomatch h
    · rw [Tab.erase, if_neg ‹_›, ih h]

theorem refresh_same {f : Fld} (s : State) (id : Nat) (h : f ∉ sealFlds) : f.same s (s.refresh id) := by
  unfold State.refresh
  split
  · exact Fld.same_refl _ _
  · exact Fld.same_trans (setItem_same _ _ _ (notMem_part h (by decide))) (settle_same _ _ h)

/-- What follows the freeing of a sequence's ID and pages at its end. -/
theorem seqClosed_same {f : Fld} (s : State) (ci v c a id : Nat) (e : Bool) (h : f ∉ sealFlds) :
    f.same s (((s.closeCtx ci v c e).bump a).refresh id) :=
  Fld.same_trans (Fld.same_trans (closeCtx_same _ _ _ _ _ (notMem_part h (by decide))) (wr_same _ _ _ (notMem_part h (by decide))))
    (refresh_same _ _ h)

/-- The end of a sequence frees its ID and no other. -/
theorem seqEnd_seqs (s : State) (id cause : Nat) : (s.seqEnd id cause).seqs = s.seqs.erase id := by
  unfold State.seqEnd
  split
  · exact (Tab.erase_eq_self ‹_›).symm
  · exact seqClosed_same (f := .seqs) _ _ _ _ _ _ _ (by decide)

theorem own_release (now n : Nat) (x : AUnit) (h : Nat) : (AUnit.release now n x h).own = x.own := by
  induction n generalizing x h with
  | zero => rfl
  | succ n ih =>
    unfold AUnit.release
    split
    · rfl
    · split
      · rfl
      · split
        · rfl
        · dsimp only
          split
          · rfl
          · split
            · rfl
            · exact ih _ _

theorem own_deref (now : Nat) (x : AUnit) (h : Nat) : (x.deref now h).own = x.own := by
  unfold AUnit.deref
  split
  · rfl
  · exact own_release _ _ _ _

/-- The own pages of a sequence are free after its end. -/
theorem seqEnd_own {s : State} {id : Nat} {x : Sequence} (cause : Nat) (hx : s.seqs.look id = some x) :
    ((s.seqEnd id cause).aunit x.unit).own = (s.aunit x.unit).own.filter (fun h => !x.pages.contains h) := by
  unfold State.seqEnd
  rw [hx]
  dsimp only
  rw [aunit_congr (seqClosed_same (f := .aunits) _ _ _ _ _ _ _ (by decide)), aunit_updAunit]
  split
  · rfl
  · exact own_deref _ _ _

theorem seqOf_some {s : State} {q : Queue} {u h : Nat} {x : Sequence} (hx : s.seqOf q u h = some x) :
    s.seqs.look (h % 16384) = some x ∧ x.unit = u := by
  unfold State.seqOf at hx
  split at hx
  · exact nomatch hx
  · split at hx
    · rename_i hlook hc
      exact ⟨hlook.trans hx, (Option.some.inj hx) ▸ hc.2.1⟩
    · exact nomatch hx

/-- A SEQ_END of a sequence that no open step names ends it. -/
theorem effSeqEnd_ends {s : State} {u : Nat} {q : Queue} {b : Bytes} {x : Sequence} (h4 : zeroAt b 4 12 = true) (h18 : zeroAt b 18 2 = true)
    (h24 : zeroAt b 24 40 = true) (hx : s.seqOf q u (leAt b 0 4) = some x) (hstep : s.stepNames u (leAt b 0 4) = false) :
    s.effSeqEnd u q b = (s.seqEnd (leAt b 0 4 % 16384) 4, .ok, 0) := by
  unfold State.effSeqEnd firstStop
  simp [h4, h18, h24, hx, hstep, stopIf]

end Sys2Proof.Machine
end

section
/-! SUPPORT. PFX_ACQUIRE of one block on an empty unit, and PFX_RELEASE (R206, R208). -/
namespace Sys2Proof.Machine

/-! ## Nodes -/

theorem node_some {x : AUnit} {h : Nat} {n : PNode} (hn : x.node h = some n) : n.handle = h := by
  unfold AUnit.node at hn
  split at hn
  · exact nomatch hn
  · split at hn
    · exact (Option.some.inj hn) ▸ ‹_›
    · exact nomatch hn

@[simp] theorem node_setNode (x : AUnit) (n : PNode) : (x.setNode n).node n.handle = some n := by simp [AUnit.node, AUnit.setNode]

/-- Node n alone stands in the unit, under its page. -/
def AUnit.only (x : AUnit) (pg : Nat) (n : PNode) : Prop := x.nodes = [(pg, n)] ∧ n.handle % 1048576 = pg

section
variable {x : AUnit} {pg : Nat} {n : PNode}

theorem AUnit.only.look (h : x.only pg n) : x.nodes.look pg = some n := by rw [h.1]; exact if_pos rfl

theorem AUnit.only.node (h : x.only pg n) : x.node n.handle = some n := by
  unfold AUnit.node
  rw [h.2, h.look]
  exact if_pos rfl

theorem AUnit.only.setNode (h : x.only pg n) {m : PNode} (hm : m.handle = n.handle) : (x.setNode m).only pg m := by
  refine ⟨?_, hm ▸ h.2⟩
  unfold AUnit.setNode
  dsimp only
  rw [hm, h.1, h.2, Tab.insert, if_neg (Nat.lt_irrefl _), if_pos rfl]

theorem only_setNode (h : x.nodes = []) (hn : n.handle % 1048576 = pg) : (x.setNode n).only pg n := by
  refine ⟨?_, hn⟩
  unfold AUnit.setNode
  dsimp only
  rw [h, hn]
  rfl
end

/-! ## The plan of one block -/

theorem blocksOf_short {l : List Nat} (h0 : l ≠ []) (h16 : l.length ≤ 16) (n : Nat) : blocksOf (n + 2) l = [l] := by
  obtain ⟨a, l, rfl⟩ := List.exists_cons_of_ne_nil h0
  rw [blocksOf, List.take_of_length_le h16, List.drop_of_length_le h16, blocksOf]
  all_goals exact nofun

/-- On an empty unit a block finds no node, and the new one is entered in the table. -/
theorem plan_empty {x : AUnit} (h : x.nodes = []) (log2 k : Nat) (t : List Nat) :
    x.plan log2 none false k [] [t] = [⟨t, pfxHash k t, none, true⟩] := by
  simp [AUnit.plan, h]

/-! ## The page of a new node -/

theorem poolPages_congr {s t : State} (h : t.regs = s.regs) (u n : Nat) : t.poolPages u n = s.poolPages u n := fld_congr (rd_congr h _) _ _

theorem takeFree_lt {s : State} {u n pg : Nat} (hn : n ≤ 1) (hp : s.poolPages u n ≤ 524288) (h : (s.takeFree u n).1 = some pg) : pg < 1048576 := by
  obtain ⟨i, hi, rfl⟩ := takeFree_page h
  omega

/-- On a unit with no node nothing is evicted: a page taken is a free one of a pool. -/
theorem takePage_empty {s : State} {u pg : Nat} {p1 : Bool} (hx : (s.aunit u).nodes = []) (hpages : ∀ n ≤ 1, s.poolPages u n ≤ 524288)
    (hp : (s.takePage u p1).1 = some pg) : pg < 1048576 ∧ (s.takePage u p1).2.aunits = s.aunits := by
  have hn : ∀ c : Bool, (if c then 1 else 0) ≤ 1 ∧ (if c then 0 else 1) ≤ 1 := by decide
  have hregs := takeFree_same (f := .regs) s u (if p1 then 1 else 0) (by decide)
  have ha := takeFree_same (f := .aunits) s u (if p1 then 1 else 0) (by decide)
  have hb := takeFree_same (f := .aunits) (s.takeFree u (if p1 then 1 else 0)).2 u (if p1 then 0 else 1) (by decide)
  revert hp
  unfold State.takePage
  dsimp only
  split
  · rename_i e
    rintro ⟨⟩
    exact ⟨takeFree_lt (hn p1).1 (hpages _ (hn p1).1) e, ha⟩
  · split
    · rename_i e
      rintro ⟨⟩
      exact ⟨takeFree_lt (hn p1).2 ((poolPages_congr hregs _ _).trans_le (hpages _ (hn p1).2)) e, hb.trans ha⟩
    · have hv : ((((s.takeFree u (if p1 then 1 else 0)).2.takeFree u (if p1 then 0 else 1)).2).aunit u).victim = none := by
        rw [aunit_congr (hb.trans ha), AUnit.victim, hx]
        rfl
      rw [hv]
      exact nofun

/-- The new node without a parent that a block becomes on page `pg`, held by its PFX_ACQUIRE. -/
def AUnit.newNode (x : AUnit) (m : Model) (p : PBlock) (pg : Nat) : PNode :=
  { handle := x.gens.get 0 pg * 1048576 + pg, parent := none, toks := p.toks, hash := p.hash, model := m, ready := false,
    inTable := p.table, refs := 0, acq := [0x10000], stamp := 0 }

/-- The unit with that node, the page being given to one more. -/
def AUnit.addNew (m : Model) (p : PBlock) (pg : Nat) (x : AUnit) : AUnit :=
  { x with gens := x.gens.set 0 pg ((x.gens.get 0 pg + 1) % 4096) }.setNode (x.newNode m p pg)

theorem addNew_only {x : AUnit} (m : Model) (p : PBlock) {pg : Nat} (hx : x.nodes = []) (hpg : pg < 1048576) :
    (x.addNew m p pg).only pg (x.newNode m p pg) :=
  only_setNode hx (by unfold AUnit.newNode; dsimp only; omega)

theorem makeNodes_new {s : State} {u pg : Nat} {m : Model} {p1 : Bool} {p : PBlock} {n : PNode} (hp : p.found = none)
    (hpg : (s.takePage u p1).1 = some pg) (hn : ((s.takePage u p1).2.aunit u |>.addNew m p pg).nodes.look pg = some n) :
    s.makeNodes u m p1 none [p] = some (some n.handle, [n.handle], (s.takePage u p1).2.updAunit u (AUnit.addNew m p pg)) := by
  unfold AUnit.addNew AUnit.newNode at hn ⊢
  simp only [State.makeNodes, hp, hpg, aunit_updAunit, hn, Option.map_some]

/-- One new block on an empty unit becomes one FILLING node. -/
theorem makeNodes_one {s t : State} {u : Nat} {m : Model} {p1 : Bool} {p : PBlock} {leaf : Option Nat} {new : List Nat} (hp : p.found = none)
    (hx : (s.aunit u).nodes = []) (hpages : ∀ n ≤ 1, s.poolPages u n ≤ 524288)
    (ht : s.makeNodes u m p1 none [p] = some (leaf, new, t)) :
    ∃ pg n, (t.aunit u).only pg n ∧ n.ready = false ∧ n.parent = none ∧ n.toks = p.toks ∧ leaf = some n.handle ∧ new = [n.handle] ∧
      ∀ j, j ≠ u → t.aunit j = s.aunit j := by
  cases hpg : (s.takePage u p1).1 with
  | none => simp [State.makeNodes, hp, hpg] at ht
  | some pg =>
    obtain ⟨hlt, hau⟩ := takePage_empty hx hpages hpg
    have honly := addNew_only m p hx hlt
    rw [← aunit_congr hau u] at honly
    rw [makeNodes_new hp hpg honly.look] at ht
    obtain ⟨rfl, rfl, rfl⟩ := ht
    exact ⟨pg, _, (aunit_updAunit _ _ _).symm ▸ honly, rfl, rfl, rfl, rfl, rfl, fun j hj => (aunit_updAunit_ne _ _ hj).trans (aunit_congr hau j)⟩

/-! ## PFX_ACQUIRE (R206) -/

/-- The counts and the fill list of a PFX_ACQUIRE change no unit. -/
theorem fillListed_aunits (s : State) (a1 n1 a2 n2 a3 n3 a : Nat) (b : Bytes) :
    ((((s.count a1 n1).count a2 n2).count a3 n3).stUnit a b).aunits = s.aunits := stUnit_same (f := .aunits) _ _ _ (by decide)

/-- The one FILLING node, of `len` tokens, that PFX_ACQUIRE leaves on an empty unit, held by its caller (the queue's owner, log entry 44). -/
structure AUnit.Acquired (x : AUnit) (pg : Nat) (n : PNode) (caller len : Nat) : Prop where
  only : x.only pg n
  acq : n.acq = [caller]
  ready : n.ready = false
  parent : n.parent = none
  toks : n.toks.length = len

theorem effPfxAcquire_one {s : State} {u : Nat} {q : Queue} {b : Bytes} (h : (s.effPfxAcquire u q b).2.1 = .ok)
    (hx : (s.aunit u).nodes = []) (h16 : leAt b 8 2 ≤ 16) (hpages : ∀ n ≤ 1, s.poolPages u n ≤ 524288) :
    (∃ pg n, ((s.effPfxAcquire u q b).1.aunit u).Acquired pg n (callerOf q) (leAt b 8 2)) ∧
      ∀ j, j ≠ u → (s.effPfxAcquire u q b).1.aunit j = s.aunit j := by
  obtain ⟨he, hno⟩ := firstStop_ok (by
    simp only [List.mem_cons, List.not_mem_nil, not_or, or_false]
    refine ⟨?_, ?_, ?_, ?_, memStop_ne_ok _ _ _ _ _, memStop_ne_ok _ _ _ _ _⟩ <;> exact stopIf_ne_ok (by decide) _) h
  rw [show s.effPfxAcquire u q b = _ from he] at h ⊢
  dsimp only at h ⊢
  have hbad := stopIf_eq_none.mp (hno _ (.head _))
  simp only [Bool.not_eq_false', Bool.and_eq_true, decide_eq_true_eq] at hbad
  generalize htoks : List.map (β := Nat) _ (List.range (leAt b 8 2)) = toks at h ⊢
  have hlen : toks.length = leAt b 8 2 := by rw [← htoks, List.length_map, List.length_range]
  rw [blocksOf_short (List.ne_nil_of_length_pos (by omega)) (hlen.trans_le h16), plan_empty hx] at h ⊢
  revert h
  simp only [List.filterMap_cons, List.filterMap_nil, List.getLast?_nil]
  split
  · exact nofun
  · rename_i leaf new t ht
    intro _
    obtain ⟨pg, n, honly, hready, hparent, hblock, rfl, rfl, hj⟩ := makeNodes_one rfl hx hpages ht
    refine ⟨?_, fun j hne => (aunit_congr (fillListed_aunits _ _ _ _ _ _ _ _ _) j).trans ((aunit_updAunit_ne _ _ hne).trans (hj j hne))⟩
    rw [aunit_congr (fillListed_aunits _ _ _ _ _ _ _ _ _), aunit_updAunit]
    have hfilled := honly.setNode (m := { n with acq := [] }) rfl
    have hnode : ((t.aunit u).setNode { n with acq := [] }).node n.handle = some { n with acq := [] } := hfilled.node
    simp only [List.foldl_cons, List.foldl_nil, Option.getD_some, honly.node, hnode]
    exact ⟨pg, _, hfilled.setNode rfl, rfl, hready, hparent, (congrArg List.length hblock).trans hlen⟩

/-! ## PFX_RELEASE (R208) -/

section
variable {s : State} {u : Nat} {q : Queue} {b : Bytes} {n : PNode} (h4 : zeroAt b 4 12 = true) (h18 : zeroAt b 18 2 = true)
  (h24 : zeroAt b 24 40 = true) (hn : (s.aunit u).node (leAt b 0 4) = some n)
include h4 h18 h24 hn

/-- A hold that the caller has is taken from the node, which is then looked at for its last reference. -/
theorem effPfxRelease_held (hc : n.acq.contains (callerOf q) = true) : s.effPfxRelease u q b =
    (s.updAunit u (fun x => AUnit.release s.now 65 (x.setNode { n with acq := n.acq.erase (callerOf q) }) n.handle), .ok, 0) := by
  unfold State.effPfxRelease
  rw [if_neg (by simp [h4, h18, h24]), hn]
  exact if_pos hc

theorem effPfxRelease_stale (hc : n.acq.contains (callerOf q) = false) : s.effPfxRelease u q b = (s, .stale, 0) := by
  unfold State.effPfxRelease
  rw [if_neg (by simp [h4, h18, h24]), hn]
  exact if_neg (Bool.eq_false_iff.mp hc)
end

/-- A node that something still refers to stays as it is. -/
theorem release_referred (now k : Nat) {x : AUnit} {n : PNode} (hr : n.refs ≠ 0 ∨ n.acq ≠ []) :
    AUnit.release now (k + 1) (x.setNode n) n.handle = x.setNode n := by
  rw [AUnit.release, node_setNode]
  exact if_pos hr

/-- A READY node whose last reference is gone becomes evictable, stamped. -/
theorem release_ready (now k : Nat) {x : AUnit} {n : PNode} (hr : n.refs = 0) (ha : n.acq = []) (hready : n.ready = true) :
    AUnit.release now (k + 1) (x.setNode n) n.handle = (x.setNode n).setNode { n with stamp := now } := by
  rw [AUnit.release, node_setNode]
  dsimp only
  rw [if_neg (by simp [hr, ha]), if_pos hready]

end Sys2Proof.Machine
end

section
/-! SUPPORT. The semaphores of an attention unit, and its enabling and disabling (R226, R227). -/
namespace Sys2Proof.Machine

/-! ## Semaphores (R226) -/

theorem not_msgReg_seq {a : Nat} (h : 0x200000 ≤ a ∧ a < 0x300000) : ¬ msgReg a := not_msgReg (.inr (by omega)) (by omega)

theorem auSem_congr {s t : State} {u i : Nat} (h : t.rd (Reg.AU_SEM_01 u + 4 * (i / 2)) = s.rd (Reg.AU_SEM_01 u + 4 * (i / 2))) :
    t.auSem u i = s.auSem u i := fld_congr h _ _

theorem taken_auSem (s t : State) {w : List Fld} (h : .regs ∈ w) (u i : Nat) : (s.taken t w).auSem u i = t.auSem u i := taken_fld s t h _ _ _

theorem auSem_setAuSem (s : State) (u i : Nat) {n : Nat} (h : n < 65536) : (s.setAuSem u i n).auSem u i = n := by
  refine (fld_setFld _ _ _ (by omega) (by omega)).trans ?_
  rw [show 16 * (i % 2) + 15 + 1 - 16 * (i % 2) = 16 by omega]
  exact Nat.mod_eq_of_lt h

/-- Another semaphore is in another register, or in the other half of the same one. -/
theorem auSem_setAuSem_ne (s : State) (u n : Nat) {i j : Nat} (h : j ≠ i) : (s.setAuSem u i n).auSem u j = s.auSem u j := by
  by_cases hr : j / 2 = i / 2
  · unfold State.auSem State.setAuSem
    rw [hr]
    exact fld_setFld_ne _ _ _ (by omega) (by omega) (by omega) (by omega)
  · exact auSem_congr (rd_setFld_ne _ _ _ _ (by omega))

theorem auPost_adds {s : State} {u i : Nat} (h : s.auSem u i < 65535) : s.auPost u i = s.setAuSem u i (s.auSem u i + 1) :=
  if_neg (by omega)

/-- A post that finds the semaphore full is not applied: it shows in SEM_OVF and CMD_ERR. -/
theorem auPost_full {s : State} {u i : Nat} (hu : u < 8) (hi : i < 16) (h : s.auSem u i = 65535) :
    (s.auPost u i).auSem u i = 65535 ∧ (s.auPost u i).flag (Reg.AU_STS u) 29 = true ∧ (s.auPost u i).flag (auPage u + 0x10) 1 = true := by
  have hpost : s.auPost u i = (s.setFlag (Reg.AU_STS u) 29 true).raise (auPage u) 1 := if_pos h
  rw [hpost]
  refine ⟨(auSem_congr ?_).trans h, (flag_congr (rd_raise _ _ _ (not_msgReg_seq ?_) ?_) _).trans (flag_setFlag _ _ _ (by decide)),
    flag_raise_self _ _ _ (by decide) (not_msgReg_seq ?_)⟩
  · rw [rd_raise _ _ _ (not_msgReg_seq (by unfold Reg.AU_SEM_01; omega)) (by unfold Reg.AU_SEM_01 auPage; omega)]
    exact rd_setFlag_ne _ _ _ (by unfold Reg.AU_SEM_01 Reg.AU_STS; omega)
  · unfold Reg.AU_STS; omega
  · unfold Reg.AU_STS auPage; omega
  · unfold auPage; omega

/-! ## Enabling (R227) -/

theorem addr48_setFlag_ne (s : State) {a lo hi : Nat} (i : Nat) (x : Bool) (hl : lo ≠ a) (hh : hi ≠ a) :
    (s.setFlag a i x).addr48 lo hi = s.addr48 lo hi := by
  unfold State.addr48
  rw [rd_setFlag_ne _ _ _ hl, rd_setFlag_ne _ _ _ hh]

/-- The checks of an enable do not look at ENABLE. -/
theorem auOk_setEnable (s : State) (u : Nat) (x : Bool) : (s.setFlag (Reg.AU_CTL u) 0 x).auOk u = s.auOk u := by
  have hpages : ∀ n, (s.setFlag (Reg.AU_CTL u) 0 x).poolPages u n = s.poolPages u n := fun n =>
    fld_congr (rd_setFlag_ne _ _ _ (by split <;> simp)) _ _
  unfold State.auOk
  dsimp only
  rw [hpages, hpages, fld_setFlag_ne _ _ _ (by decide) (by decide) (by decide), fld_congr (rd_setFlag_ne _ _ _ (by simp)),
    addr48_setFlag_ne, addr48_setFlag_ne, addr48_setFlag_ne] <;> simp

section
variable {s : State} {req : Req} {u : Nat} {v : Word}

/-- A stored write of 1 to ENABLE of a disabled unit whose pools and table are in order. -/
theorem auCtl_enabled (hoff : s.flag (Reg.AU_CTL u) 0 = false) (hst : (s.store req (Reg.AU_CTL u) (v ||| 1)).2 = true)
    (hok : (s.store req (Reg.AU_CTL u) (v ||| 1)).1.auOk u = true) :
    ∃ t : State, ∃ f : AUnit → AUnit, s.auCtl req u (v ||| 1) = ((t.setFlag (Reg.AU_CTL u) 0 true).setFld (Reg.AU_STS u) 30 29 0).updAunit u f ∧
      ∀ x, (f x).disabling = false := by
  unfold State.auCtl
  dsimp only
  rw [storeThen_eq s req _ _ _ hst, if_pos (bit_enable v), hoff, if_neg (by decide), if_pos ((auOk_setEnable _ _ _).trans hok)]
  exact ⟨_, _, rfl, fun _ => rfl⟩

theorem auCtl_cfgErr (hoff : s.flag (Reg.AU_CTL u) 0 = false) (hst : (s.store req (Reg.AU_CTL u) (v ||| 1)).2 = true)
    (hok : (s.store req (Reg.AU_CTL u) (v ||| 1)).1.auOk u = false) :
    s.auCtl req u (v ||| 1) = ((s.store req (Reg.AU_CTL u) (v ||| 1)).1.setFlag (Reg.AU_CTL u) 0 false).setFlag (Reg.AU_STS u) 30 true := by
  unfold State.auCtl
  dsimp only
  rw [storeThen_eq s req _ _ _ hst, if_pos (bit_enable v), hoff, if_neg (by decide), if_neg (by rw [auOk_setEnable, hok]; decide)]

/-! ## Disabling (R227) -/

/-- The state of an enabled unit once a write of 0 to ENABLE is stored, before it takes effect. -/
def State.disableStored (s : State) (req : Req) (u : Nat) (v : Word) : State :=
  (s.store req (Reg.AU_CTL u) (v &&& 0xFFFFFFFE)).1.setFlag (Reg.AU_CTL u) 0 true

section
variable (hon : s.flag (Reg.AU_CTL u) 0 = true) (hst : (s.store req (Reg.AU_CTL u) (v &&& 0xFFFFFFFE)).2 = true)
include hst

theorem disableStored_same {f : Fld} (h : f ∉ [Fld.regs, .held, .wosDone]) : f.same s (s.disableStored req u v) :=
  Fld.same_trans (store_same s req _ _ hst h) (setFlag_same _ _ _ _ (notMem_part h (by decide)))

include hon

theorem auCtl_disables (hstep : (s.aunit u).step = none) : s.auCtl req u (v &&& 0xFFFFFFFE) = (s.disableStored req u v).auOff u := by
  have hn : ((s.disableStored req u v).aunit u).step = none :=
    (congrArg AUnit.step (aunit_congr (disableStored_same hst (f := .aunits) (by decide)) u)).trans hstep
  unfold State.auCtl
  dsimp only
  rw [storeThen_eq s req _ _ _ hst, hon, if_neg (by rw [bit_disable]; decide), if_neg (by decide)]
  unfold State.disableStored at hn ⊢
  exact if_neg (by rw [hn]; decide)

theorem auCtl_disable_waits (hstep : (s.aunit u).step ≠ none) :
    s.auCtl req u (v &&& 0xFFFFFFFE) = (s.disableStored req u v).updAunit u (fun x => { x with disabling := true }) := by
  have hn : ((s.disableStored req u v).aunit u).step = (s.aunit u).step :=
    congrArg AUnit.step (aunit_congr (disableStored_same hst (f := .aunits) (by decide)) u)
  unfold State.auCtl
  dsimp only
  rw [storeThen_eq s req _ _ _ hst, hon, if_neg (by rw [bit_disable]; decide), if_neg (by decide)]
  unfold State.disableStored at hn ⊢
  exact if_pos (by rw [hn]; exact Option.isSome_iff_ne_none.mpr hstep)
end
end

theorem Tab.key_ne_of_mem_erase {α : Type} {t : Tab α} {k : Nat} {e : Nat × α} (h : e ∈ t.erase k) : e.1 ≠ k := by
  induction t with
  | nil => exact nomatch h
  | cons x t ih =>
    obtain ⟨j, w⟩ := x
    unfold Tab.erase at h
    split at h
    · exact ih h
    · rcases List.mem_cons.mp h with rfl | h
      · exact fun e => ‹¬k = j› e.symm
      · exact ih h

/-- The IDs of ended sequences are free, and no sequence is new. -/
theorem mem_seqs_ended {l : List Nat} {cause : Nat} {s : State} {e : Nat × Sequence}
    (h : e ∈ (l.foldl (fun s id => s.seqEnd id cause) s).seqs) : e ∈ s.seqs ∧ e.1 ∉ l := by
  induction l generalizing s with
  | nil => exact ⟨h, List.not_mem_nil⟩
  | cons k l ih =>
    obtain ⟨hs, hl⟩ := ih h
    rw [seqEnd_seqs] at hs
    exact ⟨Tab.mem_erase hs, List.not_mem_cons_of_ne_of_not_mem (Tab.key_ne_of_mem_erase hs) hl⟩

/-- A cleared unit names no sequence any more. -/
theorem resident_auClear (s : State) (u cause : Nat) : (s.auClear u cause).resident u = 0 := by
  refine List.length_eq_zero_iff.mpr (List.filter_eq_nil_iff.mpr fun e he hu => ?_)
  obtain ⟨hs, hl⟩ := mem_seqs_ended he
  exact hl (List.mem_map_of_mem (List.mem_filter.mpr ⟨hs, hu⟩))

theorem auOff_disabled (s : State) (u : Nat) : (s.auOff u).flag (Reg.AU_CTL u) 0 = false ∧ ((s.auOff u).aunit u).nodes = [] ∧
    ((s.auOff u).aunit u).own = [] ∧ (s.auOff u).resident u = 0 := by
  have hunit : (s.auOff u).aunit u = (s.auClear u 4).aunit u := aunit_setFlag _ _ _ _ _
  rw [hunit]
  unfold State.auOff
  refine ⟨flag_setFlag _ _ _ (by decide), ?_, ?_, resident_auClear s u 4⟩ <;>
  · unfold State.auClear
    rw [aunit_updAunit]

end Sys2Proof.Machine
end

section
/-! SUPPORT. The statement about sequences, nodes, semaphores and enables, clause by clause (R199, R200, R206, R208, R226, R227). -/
namespace Sys2Proof.Machine

/-! ## Commands of the unit's queue -/

section
variable {s : State} {q : Fin 2048} {u : Nat} {d : BitVec 512}

theorem seqOpen_ok (h : s.auTakes q 0x40 u d) (hok : (s.effSeqOpen u (s.queue q) (cmdBytes d)).2.1 = .ok) :
    let a := (s.effSeqOpen u (s.queue q) (cmdBytes d)).2.2
    ∃ t x, exec (.seqOpen q) s = .next t ∧ x.OpenedBy u (cmdBytes d) a ∧ t.seqs = s.seqs.insert (a % 16384) x := by
  have heff := effSeqOpen_ok hok
  rw [heff] at hok
  obtain ⟨x, hx, hseqs⟩ := seqOpened_ok hok
  rw [← heff] at hx hseqs
  exact ⟨_, x, rfl, hx, (seqs_taken_auCmd State.effSeqOpen h (by decide)).trans hseqs⟩

theorem seqEnd_ok (h : s.auTakes q 0x41 u d) (h4 : zeroAt (cmdBytes d) 4 12 = true) (h18 : zeroAt (cmdBytes d) 18 2 = true)
    (h24 : zeroAt (cmdBytes d) 24 40 = true) {x : Sequence} (hx : s.seqOf (s.queue q) u (leAt (cmdBytes d) 0 4) = some x)
    (hstep : s.stepNames u (leAt (cmdBytes d) 0 4) = false) :
    ∃ t, exec (.seqEnd q) s = .next t ∧ t.seqs = s.seqs.erase (leAt (cmdBytes d) 0 4 % 16384) ∧
      (t.aunit u).own = (s.aunit u).own.filter (fun p => !x.pages.contains p) := by
  have heff := effSeqEnd_ends h4 h18 h24 hx hstep
  obtain ⟨hlook, hu⟩ := seqOf_some hx
  refine ⟨_, rfl, (seqs_taken_auCmd State.effSeqEnd h (by decide)).trans ?_,
    (congrArg AUnit.own (aunit_congr (aunits_taken_auCmd State.effSeqEnd h (by decide)) u)).trans ?_⟩
  · rw [heff, seqEnd_seqs]
  · rw [heff, ← hu]
    exact seqEnd_own 4 hlook

theorem pfxAcquire_ok (h : s.auTakes q 0x42 u d) (hok : (s.effPfxAcquire u (s.queue q) (cmdBytes d)).2.1 = .ok)
    (hx : (s.aunit u).nodes = []) (h16 : leAt (cmdBytes d) 8 2 ≤ 16) (hpages : ∀ n ≤ 1, s.poolPages u n ≤ 524288) :
    ∃ t pg n, exec (.pfxAcquire q) s = .next t ∧ (t.aunit u).Acquired pg n (callerOf (s.queue q)) (leAt (cmdBytes d) 8 2) ∧
      (∀ j, j ≠ u → t.aunit j = s.aunit j) ∧ t.seqs = s.seqs := by
  obtain ⟨⟨pg, n, hacq⟩, hothers⟩ := effPfxAcquire_one hok hx h16 hpages
  refine ⟨_, pg, n, rfl, ?_, fun j hj => (aunit_congr (aunits_taken_auCmd State.effPfxAcquire h (by decide)) j).trans (hothers j hj),
    taken_same (f := .seqs) _ _ (by decide)⟩
  rw [aunit_congr (aunits_taken_auCmd State.effPfxAcquire h (by decide))]
  exact hacq

section
variable (h : s.auTakes q 0x43 u d) (h4 : zeroAt (cmdBytes d) 4 12 = true) (h18 : zeroAt (cmdBytes d) 18 2 = true)
  (h24 : zeroAt (cmdBytes d) 24 40 = true) {n : PNode} (hn : (s.aunit u).node (leAt (cmdBytes d) 0 4) = some n)
include h h4 h18 h24 hn

/-- The unit after a PFX_RELEASE of a hold that the caller has. -/
theorem pfxRelease_held {m : PNode} (hm : m = { n with acq := n.acq.erase (callerOf (s.queue q)) })
    (hc : n.acq.contains (callerOf (s.queue q)) = true) :
    ∃ t, exec (.pfxRelease q) s = .next t ∧ t.aunit u = AUnit.release s.now 65 ((s.aunit u).setNode m) m.handle := by
  refine ⟨_, rfl, (aunit_congr (aunits_taken_auCmd State.effPfxRelease h (by decide)) u).trans ?_⟩
  rw [effPfxRelease_held h4 h18 h24 hn hc, hm]
  exact aunit_updAunit _ _ _

theorem pfxRelease_referred (hc : n.acq.contains (callerOf (s.queue q)) = true) (hr : n.refs ≠ 0) : ∃ t, exec (.pfxRelease q) s = .next t ∧
    (t.aunit u).node (leAt (cmdBytes d) 0 4) = some { n with acq := n.acq.erase (callerOf (s.queue q)) } := by
  obtain ⟨t, ht, hunit⟩ := pfxRelease_held h h4 h18 h24 hn rfl hc
  refine ⟨t, ht, ?_⟩
  rw [hunit.trans (release_referred s.now 64 (.inl hr)), ← node_some hn]
  exact node_setNode _ { n with acq := n.acq.erase (callerOf (s.queue q)) }

theorem pfxRelease_last (hr : n.refs = 0) (ha : n.acq = [callerOf (s.queue q)]) (hready : n.ready = true) :
    ∃ t, exec (.pfxRelease q) s = .next t ∧ (t.aunit u).node (leAt (cmdBytes d) 0 4) = some { n with acq := [], stamp := s.now } := by
  obtain ⟨t, ht, hunit⟩ := pfxRelease_held h h4 h18 h24 hn (m := { n with acq := [] }) (by rw [ha]; simp) (by rw [ha]; simp)
  refine ⟨t, ht, ?_⟩
  rw [hunit.trans (release_ready s.now 64 hr rfl hready), ← node_some hn]
  exact node_setNode _ { n with acq := [], stamp := s.now }

theorem pfxRelease_stale (hc : n.acq.contains (callerOf (s.queue q)) = false) : ∃ t, exec (.pfxRelease q) s = .next t ∧ t.aunits = s.aunits := by
  refine ⟨_, rfl, (aunits_taken_auCmd State.effPfxRelease h (by decide)).trans ?_⟩
  rw [effPfxRelease_stale h4 h18 h24 hn hc]
end
end

/-! ## Posts (R226) -/

/-- Both ways to post semaphore i of unit u. -/
theorem exec_auPost {u : Fin 8} {s : State} {i : Nat} {cmd : Instr}
    (h : (∃ data, i = byteAt data 0 % 16 ∧ cmd = .postPort u data) ∨ ∃ v, i = bits v 3 0 ∧ cmd = .auSemPost u v) :
    i < 16 ∧ exec cmd s = .next (s.taken (s.auPost u i) [.regs, .holding, .hevt, .msix, .out]) := by
  obtain ⟨data, rfl, rfl⟩ | ⟨v, rfl, rfl⟩ := h
  · exact ⟨Nat.mod_lt _ (by decide), rfl⟩
  · exact ⟨nbits_lt _ 3 0, rfl⟩

/-! ## Enables (R227) -/

/-- Every bit of a field that reads zero is clear. -/
theorem flag_of_fld_zero {s : State} {a hi lo i : Nat} (h : s.fld a hi lo = 0) (hr : lo ≤ i ∧ i ≤ hi) : s.flag a i = false := by
  have hbit := nbits_testBit (s.rd a).toNat hi lo (i - lo)
  rw [show nbits (s.rd a).toNat hi lo = 0 from h, Nat.zero_testBit, Nat.add_sub_cancel' hr.1, decide_eq_true (by omega), Bool.true_and] at hbit
  exact hbit.symm

section
variable {req : BitVec 16} {u : Fin 8} {v : Word} {s : State}

section
variable (hoff : s.flag (Reg.AU_CTL u) 0 = false) (hst : (s.store req (Reg.AU_CTL u) (v ||| 1)).2 = true)
include hoff hst

theorem auEnable_ok (hok : (s.store req (Reg.AU_CTL u) (v ||| 1)).1.auOk u = true) : ∃ t, exec (.auEnable req u v) s = .next t ∧
    t.flag (Reg.AU_CTL u) 0 = true ∧ t.flag (Reg.AU_STS u) 30 = false ∧ t.flag (Reg.AU_STS u) 29 = false ∧ (t.aunit u).disabling = false := by
  obtain ⟨t, f, he, hf⟩ := auCtl_enabled hoff hst hok
  refine ⟨_, rfl, ?_⟩
  rw [taken_flag _ _ (by decide), taken_flag _ _ (by decide), taken_flag _ _ (by decide), taken_aunit _ _ (by decide), he, flag_updAunit,
    flag_updAunit, flag_updAunit, aunit_updAunit]
  have hfld := fld_setFld (t.setFlag (Reg.AU_CTL u) 0 true) (Reg.AU_STS u) 0 (hi := 30) (lo := 29) (by decide) (by decide)
  refine ⟨?_, ?_, ?_, hf _⟩
  · exact (flag_congr (rd_setFld_ne _ _ _ _ (by simp)) _).trans (flag_setFlag _ _ _ (by decide))
  · exact flag_of_fld_zero hfld (by decide)
  · exact flag_of_fld_zero hfld (by decide)

theorem auEnable_refused (hok : (s.store req (Reg.AU_CTL u) (v ||| 1)).1.auOk u = false) : ∃ t, exec (.auEnable req u v) s = .next t ∧
    t.flag (Reg.AU_CTL u) 0 = false ∧ t.flag (Reg.AU_STS u) 30 = true := by
  refine ⟨_, rfl, ?_⟩
  rw [taken_flag _ _ (by decide), taken_flag _ _ (by decide), auCtl_cfgErr hoff hst hok]
  exact ⟨(flag_congr (rd_setFlag_ne _ _ _ (by simp)) _).trans (flag_setFlag _ _ _ (by decide)), flag_setFlag _ _ _ (by decide)⟩
end

section
variable (hon : s.flag (Reg.AU_CTL u) 0 = true) (hst : (s.store req (Reg.AU_CTL u) (v &&& 0xFFFFFFFE)).2 = true)
include hon hst

theorem auDisable_idle (hstep : (s.aunit u).step = none) : ∃ t, exec (.auDisable req u v) s = .next t ∧ t.flag (Reg.AU_CTL u) 0 = false ∧
    (t.aunit u).nodes = [] ∧ (t.aunit u).own = [] ∧ t.resident u = 0 := by
  refine ⟨_, rfl, ?_⟩
  rw [taken_flag _ _ (by decide), taken_aunit _ _ (by decide), auCtl_disables hon hst hstep]
  exact auOff_disabled (s.disableStored req u v) u

theorem auDisable_waits (hstep : (s.aunit u).step ≠ none) : ∃ t, exec (.auDisable req u v) s = .next t ∧ t.flag (Reg.AU_CTL u) 0 = true ∧
    (t.aunit u).disabling = true ∧ t.seqs = s.seqs := by
  refine ⟨_, rfl, ?_⟩
  rw [taken_flag _ _ (by decide), taken_aunit _ _ (by decide), taken_seqs, if_pos (by decide), auCtl_disable_waits hon hst hstep, flag_updAunit,
    aunit_updAunit]
  exact ⟨flag_setFlag _ _ _ (by decide), rfl, disableStored_same hst (f := .seqs) (by decide)⟩
end
end

/-! ## The statement -/

/-- Settles O36: each command by its effect, which completing it leaves alone (`auCmd_same`); a post by whether the semaphore is full, and a
write of ENABLE by the branch that its premises leave. -/
theorem sequenceAndPrefixCommands : Obligations.SequenceAndPrefixCommands := by
  unfold Obligations.SequenceAndPrefixCommands
  dsimp only
  refine ⟨fun q s u d => ⟨fun h hok => ?_, fun h h4 h18 h24 x hx hstep => ?_, fun h hok hx h16 h0 h1 => ?_, fun h h4 h18 h24 n hn => ⟨?_, ?_, ?_⟩⟩,
    fun u s i cmd h => ⟨fun hlt => ?_, fun hfull => ?_⟩,
    fun u data v s => ⟨⟨_, rfl, taken_same (f := .aunits) _ _ (by decide)⟩, _, rfl, taken_same (f := .aunits) _ _ (by decide)⟩,
    fun req u v s => ⟨fun hoff hst => ⟨auEnable_ok hoff hst, auEnable_refused hoff hst⟩, fun hon hst =>
      ⟨fun hstep _ => auDisable_idle hon hst hstep, auDisable_waits hon hst⟩⟩⟩
  · obtain ⟨t, x, ht, hx, hseqs⟩ := seqOpen_ok h hok
    refine ⟨t, x, ht, ?_, hx.handle, hx.unit, hx.item, hx.len, hx.root, hx.endTok, hx.leaf, hx.pages, fun j hj => ?_⟩
    · rw [hseqs, Tab.look_insert_same]
    · rw [hseqs, Tab.look_insert_ne _ _ hj]
  · obtain ⟨t, ht, hseqs, hown⟩ := seqEnd_ok h h4 h18 h24 hx hstep
    refine ⟨t, ht, hseqs, fun p hp => ?_⟩
    rw [hown]
    simp [hp]
  · obtain ⟨t, pg, n, ht, hacq, hothers, hseqs⟩ := pfxAcquire_ok h hok hx h16 (fun n hn => by interval_cases n <;> assumption)
    exact ⟨t, pg, n, ht, hacq.only.1, hacq.acq, hacq.ready, hacq.parent, hacq.toks, hothers, hseqs⟩
  · exact fun hc hr => pfxRelease_referred h h4 h18 h24 hn hc hr
  · exact fun hr ha hready => pfxRelease_last h h4 h18 h24 hn hr ha hready
  · exact pfxRelease_stale h h4 h18 h24 hn
  · obtain ⟨-, ht⟩ := exec_auPost h (s := s)
    refine ⟨_, ht, ?_, fun j _ hj => ?_, fun r hr => ?_⟩
    · rw [taken_auSem _ _ (by decide), auPost_adds hlt, auSem_setAuSem _ _ _ (by omega)]
    · rw [taken_auSem _ _ (by decide), auPost_adds hlt, auSem_setAuSem_ne _ _ _ hj]
    · rw [taken_rd _ _ (by decide), auPost_adds hlt]
      exact rd_setFld_ne _ _ _ _ hr
  · obtain ⟨hi, ht⟩ := exec_auPost h (s := s)
    refine ⟨_, ht, ?_⟩
    rw [taken_auSem _ _ (by decide), taken_flag _ _ (by decide), taken_flag _ _ (by decide)]
    exact auPost_full u.isLt hi hfull

end Sys2Proof.Machine
end

section
/-! SUPPORT. Memory and grammar contexts after a unit's store, a posting of completion entries and a completion (R398, R401). -/
namespace Sys2Proof.Machine

/-! ## Stores -/

/-- The memory of `t` is canonical and holds what that of `s` holds in the bytes of `p`. -/
structure State.KeepsBytes (p : Nat → Prop) (s t : State) : Prop where
  wf : Memory.wf t.mem = true
  byte : ∀ x, p x → t.byte x = s.byte x

section
variable {p : Nat → Prop} {s t u : State} {a : Nat} {b : Bytes}

theorem State.KeepsBytes.of_mem (h : s.KeepsBytes p t) (hm : u.mem = t.mem) : s.KeepsBytes p u :=
  ⟨hm ▸ h.wf, fun x hx => (byte_congr hm x).trans (h.byte x hx)⟩

theorem State.KeepsBytes.st (h : s.KeepsBytes p t) (hp : ∀ x, p x → x < a ∨ a + b.length ≤ x) : s.KeepsBytes p (t.st a b) :=
  ⟨memStore_wf _ _ h.wf, fun x hx => (byte_st_ne t a b (hp x hx)).trans (h.byte x hx)⟩

/-- A unit's store writes no byte outside its range, whatever lies there. -/
theorem State.KeepsBytes.stUnit (h : s.KeepsBytes p t) (hp : ∀ x, p x → x < a ∨ a + b.length ≤ x) : s.KeepsBytes p (t.stUnit a b) := by
  have hfold : ∀ f : Byte × Nat → Bool, s.KeepsBytes p (b.zipIdx.foldl (fun u e => if f e then u.st (a + e.2) [e.1] else u) t) := by
    refine fun f => List.foldlRecOn _ _ h (fun u hu e he => ?_)
    have hlt : e.2 < b.length := by simpa using (List.mem_zipIdx he).2.1
    split
    · exact hu.st (fun x hx => by have := hp x hx; simp only [List.length_singleton]; omega)
    · exact hu
  unfold State.stUnit
  dsimp only
  split
  · split
    · exact (h.st hp).of_mem (clearUe_same (f := .mem) _ _ _ (by decide))
    · exact (hfold _).of_mem (wr_same (f := .mem) _ _ _ (by decide))
  · split
    · refine State.KeepsBytes.of_mem (State.KeepsBytes.st ?_ hp) (clearUe_same (f := .mem) _ _ _ (by decide))
      exact h.of_mem rfl
    · split
      · exact (hfold _).of_mem (clearUe_same (f := .mem) _ _ _ (by decide))
      · exact (h.st hp).of_mem (clearUe_same (f := .mem) _ _ _ (by decide))
end

/-! ## Completion entries (R401) -/

/-- What 64-byte stores among the completion entries of queue `q` and at its write-back block keep, and new states of queue g and messages,
a posting keeps. -/
theorem postEntries_keeps {P : State → Prop} {s : State} {g : Nat} {q : Queue} {es : List Bytes} (hes : ∀ e ∈ es, e.length = 64)
    (hentry : ∀ u b k, b.length = 64 → k < 2 ^ q.logM → P u → P (u.stUnit (q.cq + 64 * k) b))
    (hblock : ∀ u b, b.length = 64 → P u → P (u.stUnit q.wb b))
    (hqueue : ∀ u x, x.state = q.state → P u → P (u.setQueue g x)) (hmsg : ∀ u x, P u → P (u.qMessage x)) (hs : P s) :
    P (s.postEntries g q es) := by
  have hback : ∀ u (x : Queue), x.wb = q.wb → P u → P (u.writeBack x) := by
    intro u x hx hu
    unfold State.writeBack
    split
    · exact hx ▸ hblock u _ (by simp [wbBlock, zeros]) hu
    · exact hu
  unfold State.postEntries
  dsimp only
  generalize ht : List.foldl _ s es.zipIdx = t
  have hpt : P t := by
    subst ht
    refine List.foldlRecOn _ _ hs (fun u hu e he => ?_)
    split
    · exact hentry u e.1 _ (hes _ (List.fst_mem_of_mem_zipIdx he)) (Nat.mod_lt _ (Nat.two_pow_pos _)) hu
    · exact hu
  by_cases hc : q.coalN ≤ q.unsig + es.length
  · simp only [hc, decide_true, if_true]
    exact hmsg _ _ (hback _ _ rfl (hqueue _ _ rfl hpt))
  · simp only [hc, decide_false, Bool.false_eq_true, if_false]
    exact hback _ _ rfl (hqueue _ _ rfl hpt)

/-- The bytes outside the completion queue and the write-back block of queue `q`. -/
def Queue.outside (q : Queue) (x : Nat) : Prop := (x < q.cq ∨ q.cq + 64 * 2 ^ q.logM ≤ x) ∧ (x < q.wb ∨ q.wb + 64 ≤ x)

theorem postEntries_gctxs (s : State) (g : Nat) (q : Queue) {es : List Bytes} (hes : ∀ e ∈ es, e.length = 64) :
    (s.postEntries g q es).gctxs = s.gctxs := by
  refine postEntries_keeps (P := fun u => u.gctxs = s.gctxs) hes (fun u b k _ _ hu => ?_) (fun u b _ hu => ?_) (fun _ _ _ hu => hu)
    (fun u x hu => ?_) rfl
  · exact (stUnit_same (f := .gctxs) u _ b (by decide)).trans hu
  · exact (stUnit_same (f := .gctxs) u _ b (by decide)).trans hu
  · exact (qMessage_same (f := .gctxs) u x (by decide)).trans hu

theorem postEntries_keepsBytes {s : State} (g : Nat) (q : Queue) {es : List Bytes} (hes : ∀ e ∈ es, e.length = 64) (hs : Memory.wf s.mem = true) :
    s.KeepsBytes q.outside (s.postEntries g q es) := by
  refine postEntries_keeps (P := s.KeepsBytes q.outside) hes (fun u b k hb hk hu => ?_) (fun u b hb hu => ?_) (fun _ _ _ hu => hu.of_mem rfl)
    (fun u x hu => hu.of_mem (qMessage_same (f := .mem) u x (by decide))) ⟨hs, fun _ _ => rfl⟩
  · exact hu.stUnit (fun x hx => by have := hx.1; omega)
  · exact hu.stUnit (fun x hx => by have := hx.2; omega)

/-! ## Completions (R397, R398) -/

/-- Queue g runs or is in error: a completion posts its entry. -/
def State.goesOn (s : State) (g : Nat) : Prop := (s.queue g).state = .run ∨ (s.queue g).state = .error

theorem queue_congr {s t : State} (h : t.qs = s.qs) (g : Nat) : t.queue g = s.queue g := by unfold State.queue; rw [h]

theorem goesOn_congr {s t : State} {g : Nat} (h : t.qs = s.qs) (hs : s.goesOn g) : t.goesOn g := by
  unfold State.goesOn at *; rwa [queue_congr h]

theorem goesOn_setQueue {s : State} {g k : Nat} {q : Queue} (h : s.goesOn k) (hq : k = g → q.state = .run ∨ q.state = .error) :
    (s.setQueue g q).goesOn k := by
  unfold State.goesOn at *
  by_cases hk : k = g
  · subst hk; rw [queue_setQueue]; exact hq rfl
  · rwa [queue_setQueue_ne _ _ hk]

theorem postEntries_goesOn {s : State} {g k : Nat} {q : Queue} {es : List Bytes} (hes : ∀ e ∈ es, e.length = 64) (h : s.goesOn k)
    (hq : q.state = .run ∨ q.state = .error) : (s.postEntries g q es).goesOn k := by
  refine postEntries_keeps (P := fun u => u.goesOn k) hes (fun u b j _ _ hu => ?_) (fun u b _ hu => ?_)
    (fun u x hx hu => goesOn_setQueue hu (fun _ => hx ▸ hq)) (fun u x hu => ?_) h
  · exact goesOn_congr (stUnit_same (f := .qs) u _ b (by decide)) hu
  · exact goesOn_congr (stUnit_same (f := .qs) u _ b (by decide)) hu
  · exact goesOn_congr (qMessage_same (f := .qs) u x (by decide)) hu

theorem length_compEntry (d : BitVec 512) (st r h k stamp : Nat) : (compEntry d st r h k stamp).length = 64 := by
  simp [compEntry, zeros]

/-- The entries of one completion. -/
theorem length_of_mem_compEntry {d : BitVec 512} {st r h k stamp : Nat} {e : Bytes} (he : e ∈ [compEntry d st r h k stamp]) : e.length = 64 :=
  List.mem_singleton.mp he ▸ length_compEntry d st r h k stamp

/-- A completion on a queue that goes on posts one entry, where the queue executes a command. -/
theorem complete_cases {s : State} {g : Nat} (st : St) (r : Nat) (h : s.goesOn g) :
    s.complete g st r = s ∨ ∃ head d, s.complete g st r =
      s.postEntries g { s.queue g with head := head, cur := none } [compEntry d st.code r head 0 s.now] := by
  unfold State.complete
  dsimp only
  split
  · exact .inl rfl
  · rename_i d _
    refine .inr ⟨((s.queue g).head + slotsOf (opcodeOf d)) % 65536, d, ?_⟩
    rcases h with h | h <;> rw [h]

theorem complete_gctxs {s : State} {g : Nat} (st : St) (r : Nat) (h : s.goesOn g) : (s.complete g st r).gctxs = s.gctxs := by
  obtain he | ⟨head, d, he⟩ := complete_cases st r h
  · rw [he]
  · rw [he]
    exact postEntries_gctxs _ _ _ (fun _ => length_of_mem_compEntry)

theorem complete_keepsBytes {s : State} {g : Nat} (st : St) (r : Nat) (h : s.goesOn g) (hs : Memory.wf s.mem = true) :
    s.KeepsBytes (s.queue g).outside (s.complete g st r) := by
  obtain he | ⟨head, d, he⟩ := complete_cases st r h
  · rw [he]
    exact ⟨hs, fun _ _ => rfl⟩
  · rw [he]
    obtain ⟨hwf, hbyte⟩ := postEntries_keepsBytes g { s.queue g with head := head, cur := none }
      (fun _ => length_of_mem_compEntry (d := d) (st := st.code) (r := r) (h := head) (k := 0) (stamp := s.now)) hs
    exact ⟨hwf, hbyte⟩

end Sys2Proof.Machine
end

section
/-! SUPPORT. Grammar contexts: the table of contexts after each operation on one of them, and the fields of that context (R245, R247, R249,
R252). -/
namespace Sys2Proof.Machine

theorem Tab.look_erase_ne {α : Type} (t : Tab α) {k k' : Nat} (h : k' ≠ k) : (t.erase k).look k' = t.look k' := by
  induction t with
  | nil => rfl
  | cons e t ih =>
    obtain ⟨j, w⟩ := e
    unfold Tab.erase
    split
    · subst k; simp [Tab.look, h, ih]
    · simp [Tab.look, ih]

/-- The fields that drafting a context, and committing tokens to it, may change. -/
def ctxFlds : List Fld := [.mem, .harts, .ue, .sc, .regs, .holding, .msix, .hevt, .out, .gctxs]

theorem setGCtx_same {f : Fld} (s : State) (id : Nat) (c : GCtx) (h : f ∉ [Fld.mem, .harts, .gctxs]) : f.same s (s.setGCtx id c) :=
  Fld.same_trans (gctxs_same s _ (notMem_part h (by decide))) (st_same _ _ _ (notMem_part h (by decide)))

theorem setGCtx_gctxs (s : State) (id : Nat) (c : GCtx) : (s.setGCtx id c).gctxs = s.gctxs.insert id c := rfl

theorem noteBuild_same {f : Fld} (s : State) (b : Build) (h : f ∉ [Fld.regs, .holding, .msix, .hevt, .out]) : f.same s (s.noteBuild b) := by
  have hone : ∀ (u : State) (c : Prop) [Decidable c] (a n k : Nat), f.same u (if c then u else (u.count a n).raise tguPage k) :=
    fun u _ _ a n k => Fld.same_ite (Fld.same_refl _ _) (Fld.same_trans (wr_same _ _ _ (notMem_part h (by decide))) (raise_same _ _ _ h))
  exact Fld.same_trans (hone s _ _ _ _) (hone _ _ _ _ _)

/-! ## Drafting (R245) -/

theorem draftGo_length (s : State) (c : GCtx) (n k : Nat) (l : List Thread) : (c.draftGo s n k l).1.length ≤ n := by
  induction n generalizing k l with
  | zero => simp [GCtx.draftGo]
  | succ n ih =>
    unfold GCtx.draftGo
    dsimp only
    split
    · exact Nat.zero_le _
    · split
      · exact Nat.zero_le _
      · exact Nat.succ_le_succ (ih _ _)

theorem draft_same {f : Fld} (s : State) (id : Nat) (c : GCtx) (h : f ∉ ctxFlds) : f.same s (s.draft id c) :=
  Fld.same_trans (Fld.same_trans (Fld.same_trans (noteBuild_same _ _ (notMem_part h (by decide))) (wr_same _ _ _ (notMem_part h (by decide))))
    (wr_same _ _ _ (notMem_part h (by decide)))) (setGCtx_same _ _ _ (notMem_part h (by decide)))

/-- The context with a candidate list for its committed state, and what building the list met. -/
def GCtx.drafted (c : GCtx) (b : Build) (cands : List Nat) (forced : Nat) : GCtx :=
  { c.noteBuild b with cands := cands, forced := forced, candGen := c.commitGen, drafting := false }

/-- A draft gives its context a list of at most DRAFT_MAX candidates. -/
theorem draft_gctxs (s : State) (id : Nat) (c : GCtx) : ∃ b cands forced, cands.length ≤ c.draftMax ∧ (s.draft id c).gctxs =
    s.gctxs.insert id (c.drafted b cands forced) := by
  refine ⟨{ over' := (c.draftGo s c.draftMax 0 c.threads).2.2.1, bad := (c.draftGo s c.draftMax 0 c.threads).2.2.2 }, _,
    (c.draftGo s c.draftMax 0 c.threads).2.1, draftGo_length s c c.draftMax 0 c.threads, ?_⟩
  refine (setGCtx_gctxs _ id _).trans (congrArg (Tab.insert id _) ?_)
  exact noteBuild_same (f := .gctxs) s _ (by decide)

/-! ## Detokenization and commits (R247, R252) -/

/-- The same context with more of its text written out. -/
def GCtx.textOf (c c' : GCtx) : Prop := ∃ n t r b, c' = { c with textLen := n, trunc := t, replaced := r, hold := b }

theorem GCtx.textOf.refl (c : GCtx) : c.textOf c := ⟨_, _, _, _, rfl⟩

theorem GCtx.textOf.trans {a b c : GCtx} (h : a.textOf b) (k : b.textOf c) : a.textOf c := by
  obtain ⟨_, _, _, _, rfl⟩ := h
  obtain ⟨_, _, _, _, rfl⟩ := k
  exact ⟨_, _, _, _, rfl⟩

theorem putText_textOf (s : State) (c : GCtx) (b : Bytes) : c.textOf (s.putText c b).2 := by
  unfold State.putText
  split
  · exact .refl c
  · split
    · exact ⟨_, _, _, _, rfl⟩
    · exact ⟨_, _, _, _, rfl⟩

theorem drainHold_textOf (s : State) (c : GCtx) (closing : Bool) (n : Nat) : c.textOf (s.drainHold c closing n).2 := by
  have hhold : ∀ (c : GCtx) (b : Bytes), c.textOf { c with hold := b } := fun _ _ => ⟨_, _, _, _, rfl⟩
  have hrepl : ∀ (s : State) (c : GCtx), c.textOf (s.putRepl c).2 :=
    fun s c => .trans (b := { c with replaced := true }) ⟨_, _, _, _, rfl⟩ (putText_textOf _ _ _)
  induction n generalizing s c with
  | zero => exact .refl c
  | succ n ih =>
    unfold State.drainHold
    split
    · exact ((hhold _ _).trans (putText_textOf _ _ _)).trans (ih _ _)
    · exact ((hhold _ _).trans (hrepl _ _)).trans (ih _ _)
    · split
      · exact (hhold _ _).trans (hrepl _ _)
      · exact .refl c

theorem putToken_same {f : Fld} (s : State) (c : GCtx) (t : Nat) (h : f ∉ stFlds) : f.same s (s.putToken c t).1 := by
  unfold State.putToken
  split
  · exact Fld.same_refl _ _
  · split
    · exact Fld.same_refl _ _
    · exact drainHold_same _ _ _ _ h

theorem putToken_textOf (s : State) (c : GCtx) (t : Nat) : c.textOf (s.putToken c t).2 := by
  unfold State.putToken
  split
  · exact .refl c
  · split
    · exact .refl c
    · exact .trans (b := { c with hold := _ }) ⟨_, _, _, _, rfl⟩ (drainHold_textOf _ _ _ _)

/-- The tokens' text, appended to the context. -/
def State.putTokens (s : State) (c : GCtx) (toks : List Nat) : State × GCtx := toks.foldl (fun r t => r.1.putToken r.2 t) (s, c)

theorem putTokens_same {f : Fld} (s : State) (c : GCtx) (toks : List Nat) (h : f ∉ stFlds) : f.same s (s.putTokens c toks).1 :=
  List.foldlRecOn (motive := fun r : State × GCtx => f.same s r.1) toks _ (Fld.same_refl f s)
    (fun _ hr _ _ => Fld.same_trans hr (putToken_same _ _ _ h))

theorem putTokens_textOf (s : State) (c : GCtx) (toks : List Nat) : c.textOf (s.putTokens c toks).2 :=
  List.foldlRecOn (motive := fun r : State × GCtx => c.textOf r.2) toks _ (.refl c) (fun _ hr _ _ => hr.trans (putToken_textOf _ _ _))

theorem commitTokens_same {f : Fld} (s : State) (id : Nat) (c : GCtx) (l : List Thread) (toks : List Nat) (h : f ∉ ctxFlds) :
    f.same s (s.commitTokens id c l toks) :=
  Fld.same_trans (putTokens_same s c toks (notMem_part h (by decide))) (setGCtx_same _ _ _ (notMem_part h (by decide)))

/-- A commit counts its tokens and one generation, and makes a draft due. -/
theorem commitTokens_gctxs (s : State) (id : Nat) (c : GCtx) (l : List Thread) (toks : List Nat) : ∃ c', c.textOf c' ∧
    (s.commitTokens id c l toks).gctxs = s.gctxs.insert id { c' with
      threads := l, tokens := c'.tokens + toks.length, commitGen := (c'.commitGen + 1) % 2 ^ 32, drafting := true } := by
  refine ⟨_, putTokens_textOf s c toks, (setGCtx_gctxs _ id _).trans (congrArg (Tab.insert id _) ?_)⟩
  exact putTokens_same (f := .gctxs) s c toks (by decide)

/-! ## ADVANCE (R250) -/

/-- The context `c` with n tokens committed one by one. -/
structure GCtx.Took (c : GCtx) (n : Nat) (c' : GCtx) : Prop where
  handle : c'.handle = c.handle
  tokens : c'.tokens = c.tokens + n
  gen : c'.commitGen ≡ c.commitGen + n [MOD 2 ^ 32]
  due : n ≠ 0 ∨ (c.drafting = true ∧ c.commitGen < 2 ^ 32) → c'.drafting = true ∧ c'.commitGen < 2 ^ 32

theorem GCtx.Took.refl (c : GCtx) : c.Took 0 c := ⟨rfl, rfl, Nat.ModEq.refl _, fun h => h.resolve_left (fun hn => hn rfl)⟩

theorem GCtx.Took.commitGen {c c' : GCtx} {n : Nat} (h : c.Took n c') (hn : n ≠ 0) : c'.commitGen = (c.commitGen + n) % 2 ^ 32 :=
  (Nat.mod_eq_of_lt (h.due (.inl hn)).2).symm.trans h.gen

/-- After one token, n more. -/
theorem GCtx.Took.succ {c c' d : GCtx} {l : List Thread} {b : Build} {n : Nat} (hc : (c.noteBuild b).textOf c')
    (h : GCtx.Took { c' with threads := l, tokens := c'.tokens + 1, commitGen := (c'.commitGen + 1) % 2 ^ 32, drafting := true } n d) :
    c.Took (n + 1) d := by
  obtain ⟨_, _, _, _, rfl⟩ := hc
  obtain ⟨hhandle, htokens, hgen, hdue⟩ := h
  refine ⟨hhandle, ?_, ?_, fun _ => ?_⟩
  · rw [htokens]
    show c.tokens + 1 + n = c.tokens + (n + 1)
    omega
  · refine hgen.trans ?_
    show (c.commitGen + 1) % 2 ^ 32 + n ≡ c.commitGen + (n + 1) [MOD 2 ^ 32]
    rw [Nat.add_comm n 1, ← Nat.add_assoc]
    exact (Nat.mod_modEq _ _).add_right n
  · exact hdue (.inr ⟨rfl, Nat.mod_lt _ (by decide)⟩)

theorem advanceCtx_same {f : Fld} (s : State) (i : Nat) (l : List Nat) (h : f ∉ ctxFlds) : f.same s (s.advanceCtx i l).1 := by
  induction l generalizing s with
  | nil => exact Fld.same_refl _ _
  | cons t l ih =>
    unfold State.advanceCtx
    split
    · exact Fld.same_refl _ _
    · split
      · exact Fld.same_trans (Fld.same_trans (noteBuild_same _ _ (notMem_part h (by decide))) (commitTokens_same _ _ _ _ _ h)) (ih _)
      · exact Fld.same_refl _ _

/-- The tokens that an ADVANCE commits go to its context and to no other. -/
theorem advanceCtx_gctxs {s : State} {i : Nat} {c : GCtx} (l : List Nat) (hc : s.gctxs.look i = some c) :
    (∃ c', (s.advanceCtx i l).1.gctxs.look i = some c' ∧ c.Took (s.advanceCtx i l).2 c') ∧
    ∀ j, j ≠ i → (s.advanceCtx i l).1.gctxs.look j = s.gctxs.look j := by
  induction l generalizing s c with
  | nil => exact ⟨⟨c, hc, .refl c⟩, fun _ _ => rfl⟩
  | cons t l ih =>
    unfold State.advanceCtx
    simp only [hc]
    split
    · obtain ⟨c', htext, hg⟩ := commitTokens_gctxs (s.noteBuild (s.ctxNext c t)) i (c.noteBuild (s.ctxNext c t)) (s.ctxNext c t).out [t]
      rw [show (s.noteBuild (s.ctxNext c t)).gctxs = s.gctxs from noteBuild_same (f := .gctxs) _ _ (by decide)] at hg
      obtain ⟨⟨d, hd, htook⟩, hother⟩ := ih ((congrArg (Tab.look · i) hg).trans (Tab.look_insert_same _ _ _))
      refine ⟨⟨d, hd, .succ htext htook⟩, fun j hj => (hother j hj).trans ?_⟩
      exact (congrArg (Tab.look · j) hg).trans (Tab.look_insert_ne _ _ hj)
    · exact ⟨⟨c, hc, .refl c⟩, fun _ _ => rfl⟩

/-- A token that the mask does not allow commits nothing. -/
theorem advanceCtx_refused {s : State} {i t : Nat} {c : GCtx} {l : List Nat} (hc : s.gctxs.look i = some c) (ht : c.allows s c.threads t = false) :
    s.advanceCtx i (t :: l) = (s, 0) := by
  unfold State.advanceCtx
  simp [hc, ht]

/-! ## The end of a context (R249, R251) -/

theorem length_notice (s : State) (c : GCtx) (v a : Nat) (e : Bool) : (c.notice s v a e).length = 64 := by
  unfold GCtx.notice
  simp [zeros]

/-- A close notice keeps what the posting of its two entries and a new state of its queue, which goes on where it did, keep. -/
theorem closeNotice_keeps {P : State → Prop} {s : State} {c : GCtx} {b : Bytes} (hb : b.length = 64) (hs : P s)
    (hpost : ∀ g q es, (∀ e ∈ es, e.length = 64) → (q.state = .run ∨ q.state = .error) → P (s.postEntries g q es))
    (hqueue : ∀ g (q : Queue), q.state = (s.queue g).state → P (s.setQueue g q)) : P (s.closeNotice c b) := by
  unfold State.closeNotice
  split
  · exact hs
  · have hlen : ∀ d h, ∀ e ∈ [compEntry d 0 0 h 1 s.now, b], e.length = 64 := by
      intro d h e he
      obtain rfl | he := List.mem_cons.mp he
      · exact length_compEntry _ _ _ _ _ _
      · exact List.mem_singleton.mp he ▸ hb
    dsimp only
    split
    · exact hpost _ _ _ (hlen _ _) (.inl ‹_›)
    · exact hpost _ _ _ (hlen _ _) (.inr ‹_›)
    · exact hqueue _ _ rfl

theorem closeNotice_gctxs (s : State) (c : GCtx) {b : Bytes} (hb : b.length = 64) : (s.closeNotice c b).gctxs = s.gctxs :=
  closeNotice_keeps (P := fun u => u.gctxs = s.gctxs) hb rfl (fun _ _ _ hes _ => postEntries_gctxs _ _ _ hes) (fun _ _ _ => rfl)

theorem closeNotice_goesOn {s : State} {k : Nat} (c : GCtx) {b : Bytes} (hb : b.length = 64) (h : s.goesOn k) : (s.closeNotice c b).goesOn k :=
  closeNotice_keeps (P := fun u => u.goesOn k) hb h (fun _ _ _ hes hq => postEntries_goesOn hes h hq)
    (fun _ _ hq => goesOn_setQueue h (fun hk => hq ▸ hk ▸ h))

/-- A close frees the context's ID and no other. -/
theorem closeCtx_gctxs (s : State) (id v a : Nat) (e : Bool) : (s.closeCtx id v a e).gctxs = s.gctxs.erase id := by
  unfold State.closeCtx
  split
  · exact (Tab.erase_eq_self ‹_›).symm
  · refine congrArg (Tab.erase id) ((closeNotice_gctxs _ _ (length_notice _ _ _ _ _)).trans ?_)
    exact drainHold_same (f := .gctxs) _ _ _ _ (by decide)

theorem closeCtx_goesOn {s : State} {k : Nat} (id v a : Nat) (e : Bool) (h : s.goesOn k) : (s.closeCtx id v a e).goesOn k := by
  unfold State.closeCtx
  split
  · exact h
  · exact closeNotice_goesOn _ (length_notice _ _ _ _ _) (goesOn_congr (drainHold_same (f := .qs) _ _ _ _ (by decide)) h)

/-- While an item waits for its result stage, looking at its stages changes nothing else. -/
theorem refresh_open_same {f : Fld} {s : State} {id : Nat} (h : s.resultOpen id) (hf : f ∉ [Fld.items]) : f.same s (s.refresh id) := by
  cases hi : s.item id with
  | none =>
    unfold State.refresh
    rw [hi]
    exact Fld.same_refl _ _
  | some it =>
    rw [refresh_unfinished hi (h it hi)]
    exact setItem_same _ _ _ hf

theorem resultOpen_congr {s t : State} {id : Nat} (h : t.items = s.items) (hs : s.resultOpen id) : t.resultOpen id :=
  fun it hi => hs it ((item_of_same (s := s) h id).symm.trans hi)

/-- The end of a context whose item waits for its result: its ID is free, no other is, and a queue that went on does. -/
theorem ctxClosed {s : State} {id i v a k : Nat} {e : Bool} (h : s.resultOpen id) (hk : s.goesOn k) :
    ((s.closeCtx i v a e).refresh id).gctxs = s.gctxs.erase i ∧ ((s.closeCtx i v a e).refresh id).goesOn k := by
  have hopen : (s.closeCtx i v a e).resultOpen id := resultOpen_congr (closeCtx_same (f := .items) _ _ _ _ _ (by decide)) h
  exact ⟨(refresh_open_same (f := .gctxs) hopen (by decide)).trans (closeCtx_gctxs _ _ _ _ _),
    goesOn_congr (refresh_open_same (f := .qs) hopen (by decide)) (closeCtx_goesOn _ _ _ _ hk)⟩

end Sys2Proof.Machine
end

section
/-! SUPPORT. The context commands of the TGU, TOKENIZE and GRM_DONE, clause by clause (R235, R241, R245, R247, R248, R250, R251). -/
namespace Sys2Proof.Machine

/-! ## What a command that the TGU takes leaves (R254) -/

theorem tguTakes_goesOn {s : State} {g op : Nat} {d : BitVec 512} (h : s.tguTakes g op d) : s.goesOn g := by
  obtain ⟨-, -, -, hgo⟩ := h
  exact hgo

theorem tguCmd_eq {s : State} {g op : Nat} {d : BitVec 512} {k : State → Queue → Bytes → State × St × Nat} {r : State × St × Nat}
    (h : s.tguTakes g op d) (hr : k s (s.queue g) (cmdBytes d) = r) :
    s.tguCmd g op k = (if r.2.1 = .ok then r.1 else r.1.raise tguPage 1).complete g r.2.1 r.2.2 := by
  obtain ⟨hex, htag, hon, -⟩ := h
  unfold State.tguCmd
  rw [execCmd_eq s _ hex htag]
  simp only [hon, Bool.true_eq_false, if_false, hr]

section
variable {s : State} {g op : Nat} {d : BitVec 512} {w : List Fld} {k : State → Queue → Bytes → State × St × Nat} {r : State × St × Nat}
  (h : s.tguTakes g op d) (hr : k s (s.queue g) (cmdBytes d) = r)
include h hr

/-- The contexts are those that the effect leaves, where it leaves the queue going on. -/
theorem gctxs_taken_tguCmd (hw : .gctxs ∈ w) (hgo : r.1.goesOn g) : (s.taken (s.tguCmd g op k) w).gctxs = r.1.gctxs := by
  have hraise : ∀ u : State, u.qs = r.1.qs → u.gctxs = r.1.gctxs → (u.complete g r.2.1 r.2.2).gctxs = r.1.gctxs :=
    fun u hq hg => (complete_gctxs _ _ (goesOn_congr hq hgo)).trans hg
  rw [taken_gctxs, if_pos hw, tguCmd_eq h hr]
  split
  · exact hraise _ rfl rfl
  · exact hraise _ (raise_qs _ _ _) (raise_gctxs _ _ _)

/-- Memory is what the effect leaves, beside the queue's own areas. -/
theorem rest_taken_tguCmd (hw : .mem ∈ w) (hok : r.2.1 = .ok) (hq : r.1.qs = s.qs) (hm : Memory.wf r.1.mem = true) :
    (s.queue g).rest r.1 (s.taken (s.tguCmd g op k) w) := by
  intro x hcq hwb
  obtain ⟨hwf, hbyte⟩ := complete_keepsBytes r.2.1 r.2.2 (goesOn_congr hq (tguTakes_goesOn h)) hm
  rw [tguCmd_eq h hr, if_pos hok, taken_byte _ _ hw hwf]
  exact hbyte x ((queue_congr hq g).symm ▸ ⟨hcq, hwb⟩)

/-- The queue executes no command after it. -/
theorem cur_taken_tguCmd (hw : .qs ∈ w) (hok : r.2.1 = .ok) (hq : r.1.qs = s.qs) : ((s.taken (s.tguCmd g op k) w).queue g).cur = none := by
  have hcur : (r.1.queue g).cur = some d := (congrArg Queue.cur (queue_congr hq g)).trans (executing_cur h.1).1
  rw [tguCmd_eq h hr, if_pos hok, queue_congr (s := r.1.complete g r.2.1 r.2.2) (by rw [taken_qs, if_pos hw])]
  exact (complete_queue r.1 g r.2.1 r.2.2 hcur (goesOn_congr hq (tguTakes_goesOn h))).2
end

/-! ## GCTX_OPEN (R241) -/

/-- The context that the GCTX_OPEN with bytes `b` of queue g makes under a handle. -/
structure GCtx.OpenedBy (c : GCtx) (g : Nat) (b : Bytes) (handle : Nat) : Prop where
  handle : c.handle = handle
  item : c.item = leAt b 0 8
  field : c.field = leAt b 14 2
  voc : c.voc = byteAt b 10
  bound : c.bound = false
  tokens : c.tokens = 0
  drafting : c.drafting = false
  queue : c.queue = some g

/-- A drafted context is the one that the GCTX_OPEN made. -/
theorem GCtx.OpenedBy.drafted {c : GCtx} {g : Nat} {b : Bytes} {handle : Nat} (h : c.OpenedBy g b handle) (x : Build) (cands : List Nat)
    (forced : Nat) : (c.drafted x cands forced).OpenedBy g b handle :=
  ⟨h.handle, h.item, h.field, h.voc, h.bound, h.tokens, rfl, h.queue⟩

/-- The ID that a GCTX_OPEN finds free, with the state then. -/
def State.freeGctx (s : State) : Option Nat × State := s.pick 32768 (fun i => (s.gctxs.look i).isNone)

theorem freeGctx_same {f : Fld} (s : State) (h : f ∉ [Fld.free]) : f.same s s.freeGctx.2 := pick_same s _ _ h

/-- The queue of a GCTX_OPEN keeps two entries for the close notice (R399). -/
def State.reserveNotice (s : State) (g i gen : Nat) : State :=
  ({ s with gctxGen := s.gctxGen.set 0 i ((gen + 1) % 2 ^ 17) } : State).setQueue g { s.queue g with reserved := (s.queue g).reserved + 2 }

/-- A GCTX_OPEN that completes OK was stopped by nothing: it drafts the context that it made, under the ID in its handle. -/
theorem effGctxOpen_ok {s : State} {g : Nat} {q : Queue} {b : Bytes} (h : (s.effGctxOpen g q b).2.1 = .ok) :
    ∃ i gen x c, i < 32768 ∧ c.OpenedBy g b (gen * 32768 + i) ∧
      s.effGctxOpen g q b = (((s.freeGctx.2.reserveNotice g i gen).noteBuild x).draft i c, .ok, gen * 32768 + i) := by
  have hstops := firstStop_ok (by
    simp only [List.mem_cons, List.not_mem_nil, not_or, or_false]
    exact ⟨stopIf_ne_ok (by decide) _, itemStop_ne_ok _ _ _, stopIf_ne_ok (by decide) _, memStop_ne_ok _ _ _ _ _, stopIf_ne_ok (by decide) _⟩) h
  have heff := hstops.1
  rw [show s.effGctxOpen g q b = _ from heff] at h ⊢
  clear heff hstops
  unfold State.freeGctx
  revert h
  cases hp : s.pick 32768 (fun i => (s.gctxs.look i).isNone) with
  | mk o u =>
    cases o with
    | none => exact nofun
    | some i =>
      intro _
      refine ⟨i, _, _, _, pick_lt (congrArg Prod.fst hp), ?_, rfl⟩
      exact ⟨rfl, rfl, rfl, rfl, rfl, rfl, rfl, rfl⟩

theorem effGctxOpen_gctxs {s : State} {g : Nat} {q : Queue} {b : Bytes} (h : (s.effGctxOpen g q b).2.1 = .ok) (hgo : s.goesOn g) :
    (∃ c : GCtx, c.OpenedBy g b (s.effGctxOpen g q b).2.2 ∧
      (s.effGctxOpen g q b).1.gctxs = s.gctxs.insert ((s.effGctxOpen g q b).2.2 % 32768) c) ∧ (s.effGctxOpen g q b).1.goesOn g := by
  obtain ⟨i, gen, x, c, hi, hopened, he⟩ := effGctxOpen_ok h
  rw [he]
  obtain ⟨y, cands, forced, -, hdraft⟩ := draft_gctxs ((s.freeGctx.2.reserveNotice g i gen).noteBuild x) i c
  refine ⟨⟨_, hopened.drafted y cands forced, hdraft.trans ?_⟩, ?_⟩
  · have hgctxs : ((s.freeGctx.2.reserveNotice g i gen).noteBuild x).gctxs = s.gctxs :=
      (noteBuild_same (f := .gctxs) _ _ (by decide)).trans (freeGctx_same (f := .gctxs) s (by decide))
    rw [hgctxs, show (gen * 32768 + i) % 32768 = i by omega]
  · have hfree : s.freeGctx.2.goesOn g := goesOn_congr (freeGctx_same (f := .qs) s (by decide)) hgo
    have hreserved : (s.freeGctx.2.reserveNotice g i gen).goesOn g := goesOn_setQueue hfree (fun _ => hfree)
    exact goesOn_congr (draft_same (f := .qs) _ _ _ (by decide)) (goesOn_congr (noteBuild_same (f := .qs) _ _ (by decide)) hreserved)

/-! ## Commands on an open context (R248, R250) -/

theorem gctxOf_some {s : State} {q : Queue} {h i : Nat} {c : GCtx} (hx : s.gctxOf q h = some (i, c)) : s.gctxs.look i = some c := by
  unfold State.gctxOf at hx
  split at hx
  · exact nomatch hx
  · split at hx
    · cases hx; assumption
    · exact nomatch hx

theorem ldUnit_same {f : Fld} (s : State) (a n : Nat) (h : f ∉ [Fld.regs]) : f.same s (s.ldUnit a n).2 := by
  unfold State.ldUnit
  dsimp only
  split
  · split
    · exact Fld.same_refl _ _
    · exact wr_same _ _ _ h
  · exact Fld.same_refl _ _

theorem tokCount_same {f : Fld} (s : State) (r : TokRes) (h : f ∉ [Fld.regs]) : f.same s (s.tokCount r) :=
  Fld.same_trans (Fld.same_trans (Fld.same_trans (Fld.same_trans (wr_same _ _ _ h) (wr_same _ _ _ h)) (wr_same _ _ _ h)) (wr_same _ _ _ h))
    (wr_same _ _ _ h)

/-- The tokens of an ADVANCE. -/
def advanceToks (b : Bytes) : List Nat := (List.range (byteAt b 4)).map (fun k => leAt b (24 + 2 * k) 2)

/-- A CHECK commits its tokens to its context, of which n were not taken. -/
def State.checkCommit (s : State) (i : Nat) (c : GCtx) (x : Build) (toks : List Nat) (n : Nat) : State :=
  let t := (s.noteBuild x).commitTokens i (c.noteBuild x) x.out toks
  match t.gctxs.look i with
  | none => t
  | some c => t.setGCtx i { c with tokens := c.tokens - n }

/-- The text of the CHECK with bytes `b`, tokenized with its context's vocabulary. -/
def State.checkText (s : State) (c : GCtx) (v : Voc) (b : Bytes) : TokRes :=
  s.tokPlain v (c.norm.bind (fun k => s.norms.look k)) c.mode (4 * 4 * 65536) (s.ldUnit (leAt b 24 8) (leAt b 8 4)).1

/-- The text is read and counted. -/
def State.checkRead (s : State) (c : GCtx) (v : Voc) (b : Bytes) : State := (s.ldUnit (leAt b 24 8) (leAt b 8 4)).2.tokCount (s.checkText c v b)

theorem checkRead_same {f : Fld} (s : State) (c : GCtx) (v : Voc) (b : Bytes) (h : f ∉ [Fld.regs]) : f.same s (s.checkRead c v b) :=
  Fld.same_trans (ldUnit_same _ _ _ h) (tokCount_same _ _ h)

/-- The tokens run through the grammar from its start state. -/
def State.checkRun (s : State) (c : GCtx) (toks : List Nat) : Build × Nat :=
  s.runToks c (match c.grmOf s with
    | none => {}
    | some g => s.closure (some g) [.dfa g.start]) toks

/-- The effect of a CHECK that nothing stops. -/
def State.checkEnd (s : State) (i : Nat) (c : GCtx) (v : Voc) (b : Bytes) : State × St × Nat :=
  let t := s.checkText c v b
  let u := s.checkRead c v b
  let r := u.checkRun c t.words
  let ok := r.2 == t.words.length && (c.grammar.isNone || c.accepting u r.1.out)
  (((u.checkCommit i c r.1 t.words (t.words.length - r.2)).closeCtx i (if ok then 0 else 1) 0 ok).refresh c.item, .ok, t.words.length)

section
variable (s : State) (i : Nat) (c : GCtx) (x : Build) (toks : List Nat) (n : Nat)

theorem checkCommit_same {f : Fld} (h : f ∉ ctxFlds) : f.same s (s.checkCommit i c x toks n) := by
  have hcommit : f.same s ((s.noteBuild x).commitTokens i (c.noteBuild x) x.out toks) :=
    Fld.same_trans (noteBuild_same _ _ (notMem_part h (by decide))) (commitTokens_same _ _ _ _ _ h)
  unfold State.checkCommit
  dsimp only
  split
  · exact hcommit
  · exact Fld.same_trans hcommit (setGCtx_same _ _ _ (notMem_part h (by decide)))

theorem checkCommit_look_ne {j : Nat} (hj : j ≠ i) : (s.checkCommit i c x toks n).gctxs.look j = s.gctxs.look j := by
  have hcommit : ((s.noteBuild x).commitTokens i (c.noteBuild x) x.out toks).gctxs.look j = s.gctxs.look j := by
    obtain ⟨c', -, hg⟩ := commitTokens_gctxs (s.noteBuild x) i (c.noteBuild x) x.out toks
    rw [hg, Tab.look_insert_ne _ _ hj, show (s.noteBuild x).gctxs = s.gctxs from noteBuild_same (f := .gctxs) _ _ (by decide)]
  unfold State.checkCommit
  dsimp only
  split
  · exact hcommit
  · exact (Tab.look_insert_ne _ _ hj).trans hcommit
end

section
variable {s : State} {q : Queue} {b : Bytes} {i : Nat} {c : GCtx} (hx : s.gctxOf q (leAt b 0 4) = some (i, c)) (hb : c.bound = false)
include hx hb

theorem onGctx_open {ok : Bool} (k : Nat → GCtx → State × St × Nat) (hok : ok = true) : s.onGctx q b ok k = k i c := by
  unfold State.onGctx
  simp [hok, hx, hb]

theorem onGctx_ok {ok : Bool} {k : Nat → GCtx → State × St × Nat} (h : (s.onGctx q b ok k).2.1 = .ok) :
    ok = true ∧ s.onGctx q b ok k = k i c := by
  cases ok with
  | true => exact ⟨rfl, onGctx_open hx hb k rfl⟩
  | false => exact nomatch h

theorem effGctxClose_eq (h4 : zeroAt b 4 12 = true) (h18 : zeroAt b 18 2 = true) (h24 : zeroAt b 24 40 = true) :
    s.effGctxClose q b = ((s.closeCtx i 2 0 false).refresh c.item, .ok, 0) :=
  onGctx_open hx hb _ (by simp [h4, h18, h24])

/-- An ADVANCE that completes OK has committed all its tokens, of which there are some. -/
theorem effAdvance_ok (h : (s.effAdvance q b).2.1 = .ok) : byteAt b 4 ≠ 0 ∧ (s.effAdvance q b).1 = (s.advanceCtx i (advanceToks b)).1 ∧
    (s.advanceCtx i (advanceToks b)).2 = byteAt b 4 := by
  obtain ⟨hform, heff⟩ := onGctx_ok hx hb h
  have he : s.effAdvance q b = ((s.advanceCtx i (advanceToks b)).1,
      if (s.advanceCtx i (advanceToks b)).2 = byteAt b 4 then .ok else .rejected, (s.advanceCtx i (advanceToks b)).2) := heff
  rw [he] at h ⊢
  simp only [Bool.and_eq_true, decide_eq_true_eq] at hform
  refine ⟨by omega, rfl, ?_⟩
  by_contra hne
  simp [hne] at h

theorem effAdvance_refused (h5 : zeroAt b 5 11 = true) (h18 : zeroAt b 18 2 = true) (h56 : zeroAt b 56 8 = true) (h1 : 1 ≤ byteAt b 4)
    (h16 : byteAt b 4 ≤ 16) (hno : c.allows s c.threads (leAt b 24 2) = false) : (s.effAdvance q b).1 = s := by
  have heff : (s.effAdvance q b).1 = (s.advanceCtx i (advanceToks b)).1 :=
    congrArg Prod.fst (onGctx_open hx hb _ (by simp [h5, h18, h56, h1, h16]))
  have htoks : advanceToks b = leAt b 24 2 :: (List.range (byteAt b 4 - 1)).map (fun k => leAt b (24 + 2 * (k + 1)) 2) := by
    unfold advanceToks
    obtain ⟨n, hn⟩ := Nat.exists_eq_add_of_le' h1
    rw [hn, Nat.add_sub_cancel, List.range_succ_eq_map, List.map_cons, List.map_map]
    rfl
  rw [heff, htoks, advanceCtx_refused (gctxOf_some hx) hno]

/-- A CHECK that completes OK was stopped by nothing, and had that effect. -/
theorem effCheck_ok (h : (s.effCheck q b).2.1 = .ok) : ∃ v, s.effCheck q b = s.checkEnd i c v b := by
  have heff := (onGctx_ok hx hb h).2
  rw [show s.effCheck q b = _ from heff] at h ⊢
  clear heff
  cases hv : s.voc c.voc with
  | none =>
    rw [hv] at h
    exact nomatch h
  | some v =>
    rw [hv] at h
    refine ⟨v, (firstStop_ok ?_ h).1.trans ?_⟩
    · simp only [List.mem_cons, List.not_mem_nil, not_or, or_false]
      exact ⟨stopIf_ne_ok (by decide) _, memStop_ne_ok _ _ _ _ _⟩
    · unfold State.checkEnd State.checkCommit State.checkRun State.checkRead State.checkText
      rfl

/-- It closes its context and no other. -/
theorem effCheck_gctxs (h : (s.effCheck q b).2.1 = .ok) (hopen : s.resultOpen c.item) {k : Nat} (hgo : s.goesOn k) :
    (s.effCheck q b).1.gctxs.look i = none ∧ (∀ j, j ≠ i → (s.effCheck q b).1.gctxs.look j = s.gctxs.look j) ∧
      (s.effCheck q b).1.goesOn k := by
  obtain ⟨v, he⟩ := effCheck_ok hx hb h
  rw [he]
  have hsame : ∀ x toks n, ∀ f, f ∉ ctxFlds → Fld.same f s ((s.checkRead c v b).checkCommit i c x toks n) := fun _ _ _ f hf =>
    Fld.same_trans (checkRead_same _ _ _ _ (notMem_part hf (by decide))) (checkCommit_same _ _ _ _ _ _ hf)
  unfold State.checkEnd
  dsimp only
  obtain ⟨hgctxs, hgoes⟩ := ctxClosed (s := (s.checkRead c v b).checkCommit i c _ _ _) (i := i)
    (resultOpen_congr (hsame _ _ _ .items (by decide)) hopen) (goesOn_congr (hsame _ _ _ .qs (by decide)) hgo)
  rw [hgctxs]
  refine ⟨Tab.look_erase_same _ _, fun j hj => ?_, hgoes⟩
  rw [Tab.look_erase_ne _ hj, checkCommit_look_ne _ _ _ _ _ _ hj]
  exact congrArg (Tab.look · j) (checkRead_same (f := .gctxs) s c v b (by decide))

end

/-! ## MASK and TOKENIZE (R235, R250) -/

theorem effMask_eq {s : State} {q : Queue} {b : Bytes} {i : Nat} {c : GCtx} (hx : s.gctxOf q (leAt b 0 4) = some (i, c))
    (h4 : zeroAt b 4 12 = true) (h18 : zeroAt b 18 2 = true) (h32 : zeroAt b 32 32 = true) (hal : leAt b 24 8 % 64 = 0)
    (hstop : s.memStop q (leAt b 24 8) 8192 true = none) :
    s.effMask q b = (s.stUnit (leAt b 24 8) (c.maskBytes s c.threads), .ok, 0) := by
  unfold State.effMask
  simp [h4, h18, h32, hal, hx, hstop, firstStop]

theorem mem_wf_congr {s t : State} (h : t.mem = s.mem) (hs : Memory.wf s.mem = true) : Memory.wf t.mem = true := by rwa [h]

theorem stUnit_wf {s : State} (a : Nat) (b : Bytes) (h : Memory.wf s.mem = true) : Memory.wf (s.stUnit a b).mem = true :=
  (State.KeepsBytes.stUnit (p := fun _ => False) (s := s) ⟨h, fun _ => False.elim⟩ (fun _ => False.elim)).wf

/-- A stopped command has no effect. -/
theorem firstStop_fst {P : State → Prop} {s : State} (l : List (Option St)) {k : State × St × Nat} (hs : P s) (hk : P k.1) :
    P (firstStop s l k).1 := by
  unfold firstStop
  split
  · exact hs
  · exact hk

/-- What the reading of a text, the store of its tokens and the counting keep, a TOKENIZE keeps. -/
theorem effTokenize_keeps {P : State → Prop} {s : State} (q : Queue) (b : Bytes) (hs : P s) (hld : ∀ a n, P (s.ldUnit a n).2)
    (hst : ∀ u a x, P u → P (u.stUnit a x)) (hcount : ∀ u r, P u → P (u.tokCount r)) : P (s.effTokenize q b).1 := by
  unfold State.effTokenize
  dsimp only
  split
  · exact firstStop_fst _ hs (hcount _ _ (hst _ _ _ (hld _ _)))
  · split <;> exact hs

theorem effTokenize_same {f : Fld} (s : State) (q : Queue) (b : Bytes) (h : f ∉ stFlds) : f.same s (s.effTokenize q b).1 :=
  effTokenize_keeps (P := fun u => f.same s u) q b (Fld.same_refl _ _) (fun _ _ => ldUnit_same _ _ _ (notMem_part h (by decide)))
    (fun _ _ _ hu => Fld.same_trans hu (stUnit_same _ _ _ h)) (fun _ _ hu => Fld.same_trans hu (tokCount_same _ _ (notMem_part h (by decide))))

theorem effTokenize_wf {s : State} (q : Queue) (b : Bytes) (h : Memory.wf s.mem = true) : Memory.wf (s.effTokenize q b).1.mem = true :=
  effTokenize_keeps (P := fun u => Memory.wf u.mem = true) q b h
    (fun a n => mem_wf_congr (ldUnit_same (f := .mem) s a n (by decide)) h) (fun _ _ _ => stUnit_wf _ _)
    (fun u r hu => mem_wf_congr (tokCount_same (f := .mem) u r (by decide)) hu)

/-! ## Drafts that are due, and GRM_DONE (R245, R251) -/

theorem draftRow_due {s : State} {i : Nat} {c : GCtx} (hc : s.gctxs.look i = some c) (hd : c.drafting = true) : s.draftRow i = s.draft i c := by
  unfold State.draftRow
  simp [hc, hd]

/-- The item that GRM_DONE_LO and a write of GRM_DONE_HI name. -/
def State.grmDoneId (s : State) (v : Word) : Nat := (s.rd Reg.GRM_DONE_LO).toNat + v.toNat * 2 ^ 32

/-- The item with GRM_DONE written and the stages found done then. -/
def State.grmMarked (s : State) (id : Nat) (it : Item) : Item :=
  { it with grmWritten := true, done := s.stagesFound id { it with grmWritten := true } }

theorem grmDone_unknown {s : State} {v : Word} (hi : s.item (s.grmDoneId v) = none) : s.grmDone v = s.bump Reg.TGU_CNT_GRM_STALE := by
  unfold State.grmDoneId at hi
  unfold State.grmDone
  simp only [hi]

/-- GRM_DONE marks an item that waits for its grammar and its result stage. -/
theorem grmDone_open {s : State} {v : Word} {it : Item} (hi : s.item (s.grmDoneId v) = some it) (h3 : it.done.getLsbD 3 = false)
    (h4 : it.done.getLsbD 4 = false) :
    s.grmDone v = (s.setItem (s.grmDoneId v) { it with grmWritten := true }).setItem (s.grmDoneId v) (s.grmMarked (s.grmDoneId v) it) := by
  unfold State.grmDoneId at *
  unfold State.grmDone
  simp only [hi, h3, Bool.false_eq_true, if_false]
  exact refresh_unfinished (item_setItem _ _ _) h4

/-- The grammar stage is found done where recognition is, no context names the item and GRM_DONE is written. -/
theorem getLsbD_stagesFound_grammar {s : State} {id : Nat} {it : Item} (h2 : it.done.getLsbD 2 = true) (hc : s.ctxNames id = false)
    (hw : it.grmWritten = true) : (s.stagesFound id it).getLsbD 3 = true := by
  unfold State.stagesFound
  have hrec : (if it.done.getLsbD 1 && !s.seqNames id then it.done ||| 4 else it.done).getLsbD 2 = true := by
    split
    · rw [BitVec.getLsbD_or, h2, Bool.true_or]
    · exact h2
  simp only [hrec, hc, hw, Bool.not_false, Bool.and_self, if_true, BitVec.getLsbD_or]
  exact (Bool.or_eq_true _ _).mpr (.inr (by decide))

/-! ## The clauses -/

section
variable {s : State} {q : Fin 2048} {d : BitVec 512}

theorem gctxOpen_ok (h : s.tguTakes q 0x69 d) (hok : (s.effGctxOpen q (s.queue q) (cmdBytes d)).2.1 = .ok) :
    let a := (s.effGctxOpen q (s.queue q) (cmdBytes d)).2.2
    ∃ t c, exec (.gctxOpen q) s = .next t ∧ c.OpenedBy q (cmdBytes d) a ∧ t.gctxs = s.gctxs.insert (a % 32768) c := by
  obtain ⟨⟨c, hopened, hgctxs⟩, hgo⟩ := effGctxOpen_gctxs hok (tguTakes_goesOn h)
  exact ⟨_, c, rfl, hopened, (gctxs_taken_tguCmd (k := fun s x b => s.effGctxOpen q x b) h rfl (by decide) hgo).trans hgctxs⟩

section
variable {i : Nat} {c : GCtx} (hx : s.gctxOf (s.queue q) (leAt (cmdBytes d) 0 4) = some (i, c))
include hx

theorem grmMask_ok (h : s.tguTakes q 0x6C d) (hm : Memory.wf s.mem = true) (h4 : zeroAt (cmdBytes d) 4 12 = true)
    (h18 : zeroAt (cmdBytes d) 18 2 = true) (h32 : zeroAt (cmdBytes d) 32 32 = true) (hal : leAt (cmdBytes d) 24 8 % 64 = 0)
    (hstop : s.memStop (s.queue q) (leAt (cmdBytes d) 24 8) 8192 true = none) : ∃ t, exec (.grmMask q) s = .next t ∧
      (s.queue q).rest (s.stUnit (leAt (cmdBytes d) 24 8) (c.maskBytes s c.threads)) t ∧ t.gctxs = s.gctxs := by
  have heff := effMask_eq hx h4 h18 h32 hal hstop
  have hqs := stUnit_same (f := .qs) s (leAt (cmdBytes d) 24 8) (c.maskBytes s c.threads) (by decide)
  have hgctxs := stUnit_same (f := .gctxs) s (leAt (cmdBytes d) 24 8) (c.maskBytes s c.threads) (by decide)
  have hwf := stUnit_wf (leAt (cmdBytes d) 24 8) (c.maskBytes s c.threads) hm
  -- what the stored mask holds is no matter here
  generalize s.stUnit (leAt (cmdBytes d) 24 8) (c.maskBytes s c.threads) = v at *
  exact ⟨_, rfl, rest_taken_tguCmd (k := State.effMask) h heff (by decide) rfl hqs hwf,
    (gctxs_taken_tguCmd (k := State.effMask) h heff (by decide) (goesOn_congr hqs (tguTakes_goesOn h))).trans hgctxs⟩

variable (hb : c.bound = false)
include hb

theorem gctxClose_ok (h : s.tguTakes q 0x6A d) (h4 : zeroAt (cmdBytes d) 4 12 = true) (h18 : zeroAt (cmdBytes d) 18 2 = true)
    (h24 : zeroAt (cmdBytes d) 24 40 = true) (hopen : s.resultOpen c.item) :
    ∃ t, exec (.gctxClose q) s = .next t ∧ t.gctxs = s.gctxs.erase i := by
  obtain ⟨hgctxs, hgo⟩ := ctxClosed (i := i) (v := 2) (a := 0) (e := false) hopen (tguTakes_goesOn h)
  exact ⟨_, rfl, (gctxs_taken_tguCmd h (effGctxClose_eq hx hb h4 h18 h24) (by decide) hgo).trans hgctxs⟩

theorem advance_ok (h : s.tguTakes q 0x6B d) (hok : (s.effAdvance (s.queue q) (cmdBytes d)).2.1 = .ok) :
    byteAt (cmdBytes d) 4 ≠ 0 ∧ ∃ t c', exec (.advance q) s = .next t ∧ t.gctxs.look i = some c' ∧ c.Took (byteAt (cmdBytes d) 4) c' ∧
      ∀ j, j ≠ i → t.gctxs.look j = s.gctxs.look j := by
  obtain ⟨hne, heff, hn⟩ := effAdvance_ok hx hb hok
  obtain ⟨⟨c', hlook, htook⟩, hother⟩ := advanceCtx_gctxs (advanceToks (cmdBytes d)) (gctxOf_some hx)
  rw [hn] at htook
  rw [← heff] at hlook hother
  have hgo : (s.effAdvance (s.queue q) (cmdBytes d)).1.goesOn q := by
    rw [heff]
    exact goesOn_congr (advanceCtx_same (f := .qs) s i _ (by decide)) (tguTakes_goesOn h)
  refine ⟨hne, _, c', rfl, ?_, htook, fun j hj => ?_⟩
  · rw [gctxs_taken_tguCmd (k := State.effAdvance) h rfl (by decide) hgo, hlook]
  · rw [gctxs_taken_tguCmd (k := State.effAdvance) h rfl (by decide) hgo, hother j hj]

theorem advance_refused (h : s.tguTakes q 0x6B d) (h5 : zeroAt (cmdBytes d) 5 11 = true) (h18 : zeroAt (cmdBytes d) 18 2 = true)
    (h56 : zeroAt (cmdBytes d) 56 8 = true) (h1 : 1 ≤ byteAt (cmdBytes d) 4) (h16 : byteAt (cmdBytes d) 4 ≤ 16)
    (hno : c.allows s c.threads (leAt (cmdBytes d) 24 2) = false) : ∃ t, exec (.advance q) s = .next t ∧ t.gctxs = s.gctxs := by
  have heff := effAdvance_refused hx hb h5 h18 h56 h1 h16 hno
  have hgo : (s.effAdvance (s.queue q) (cmdBytes d)).1.goesOn q := heff.symm ▸ tguTakes_goesOn h
  exact ⟨_, rfl, (gctxs_taken_tguCmd (k := State.effAdvance) h rfl (by decide) hgo).trans (congrArg State.gctxs heff)⟩

theorem grmCheck_ok (h : s.tguTakes q 0x6D d) (hok : (s.effCheck (s.queue q) (cmdBytes d)).2.1 = .ok) (hopen : s.resultOpen c.item) :
    ∃ t, exec (.grmCheck q) s = .next t ∧ t.gctxs.look i = none ∧ ∀ j, j ≠ i → t.gctxs.look j = s.gctxs.look j := by
  obtain ⟨hgone, hother, hgo⟩ := effCheck_gctxs hx hb hok hopen (tguTakes_goesOn h)
  refine ⟨_, rfl, ?_, fun j hj => ?_⟩
  · rw [gctxs_taken_tguCmd (k := State.effCheck) h rfl (by decide) hgo, hgone]
  · rw [gctxs_taken_tguCmd (k := State.effCheck) h rfl (by decide) hgo, hother j hj]
end

theorem tokenize_ok (h : s.tguTakes q 0x68 d) (hm : Memory.wf s.mem = true) (hok : (s.effTokenize (s.queue q) (cmdBytes d)).2.1 = .ok) :
    ∃ t, exec (.tokenize q) s = .next t ∧ (s.queue q).rest (s.effTokenize (s.queue q) (cmdBytes d)).1 t ∧ t.gctxs = s.gctxs ∧
      (t.queue q).cur = none := by
  have hqs : (s.effTokenize (s.queue q) (cmdBytes d)).1.qs = s.qs := effTokenize_same (f := .qs) _ _ _ (by decide)
  refine ⟨_, rfl, rest_taken_tguCmd (k := State.effTokenize) h rfl (by decide) hok hqs (effTokenize_wf _ _ hm), ?_,
    cur_taken_tguCmd (k := State.effTokenize) h rfl (by decide) hok hqs⟩
  exact (gctxs_taken_tguCmd (k := State.effTokenize) h rfl (by decide) (goesOn_congr hqs (tguTakes_goesOn h))).trans
    (effTokenize_same (f := .gctxs) _ _ _ (by decide))
end

theorem draft_due {i : Fin 32768} {s : State} {c : GCtx} (hc : s.gctxs.look i = some c) (hd : c.drafting = true) :
    ∃ t b cands forced, exec (.draft i) s = .next t ∧ cands.length ≤ c.draftMax ∧ t.gctxs =
      s.gctxs.insert i (c.drafted b cands forced) := by
  obtain ⟨b, cands, forced, hlen, hgctxs⟩ := draft_gctxs s i c
  refine ⟨_, b, cands, forced, rfl, hlen, ?_⟩
  rw [taken_gctxs, if_pos (by decide), draftRow_due hc hd, hgctxs]

theorem grmDone_marks {s : State} {v : Word} {it : Item} (hi : s.item (s.grmDoneId v) = some it) (h3 : it.done.getLsbD 3 = false)
    (h4 : it.done.getLsbD 4 = false) : ∃ t, exec (.grmDone v) s = .next t ∧ t.item (s.grmDoneId v) = some (s.grmMarked (s.grmDoneId v) it) ∧
      (∀ j, j ≠ s.grmDoneId v → t.item j = s.item j) ∧ ∀ r, t.rd r = s.rd r := by
  refine ⟨_, rfl, ?_, fun j hj => ?_, fun r => ?_⟩
  · rw [taken_item _ _ (by decide), grmDone_open hi h3 h4, item_setItem]
  · rw [taken_item _ _ (by decide), grmDone_open hi h3 h4, item_setItem_ne _ _ hj, item_setItem_ne _ _ hj]
  · rw [taken_rd _ _ (by decide), grmDone_open hi h3 h4]
    rfl

/-! ## The statement -/

/-- Settles O39: a command that the TGU takes leaves the contexts of its effect (`gctxs_taken_tguCmd`), and each effect has its lemma; ADVANCE
by induction over its tokens (`advanceCtx_gctxs`). -/
theorem tguContextsAndText : Obligations.TguContextsAndText := by
  unfold Obligations.TguContextsAndText
  dsimp only
  refine ⟨fun q s d hm => ⟨fun h hok => ?_, fun i c hx hb => ⟨fun h h4 h18 h24 hopen => ?_, fun h => ⟨fun hok => ?_, ?_⟩, ?_⟩,
    fun h h4 h18 h32 hal i c hx hstop => grmMask_ok hx h hm h4 h18 h32 hal hstop, fun h hok => tokenize_ok h hm hok⟩,
    fun i s c hc hd => ?_, fun v s => ⟨fun hi => ?_, fun it hi h3 h4 => ?_⟩⟩
  · obtain ⟨t, c, ht, hc, hgctxs⟩ := gctxOpen_ok h hok
    refine ⟨t, c, ht, ?_, hc.handle, hc.item, hc.field, hc.voc, hc.bound, hc.tokens, hc.drafting, hc.queue, fun j hj => ?_⟩
    · rw [hgctxs, Tab.look_insert_same]
    · rw [hgctxs, Tab.look_insert_ne _ _ hj]
  · obtain ⟨t, ht, hgctxs⟩ := gctxClose_ok hx hb h h4 h18 h24 hopen
    refine ⟨t, ht, ?_, fun j hj => ?_⟩
    · rw [hgctxs, Tab.look_erase_same]
    · rw [hgctxs, Tab.look_erase_ne _ hj]
  · obtain ⟨hne, t, c', ht, hlook, htook, hother⟩ := advance_ok hx hb h hok
    exact ⟨t, c', ht, hlook, htook.tokens, htook.commitGen hne, (htook.due (.inl hne)).1, htook.handle, hother⟩
  · exact advance_refused hx hb h
  · exact grmCheck_ok hx hb
  · obtain ⟨t, b, cands, forced, ht, hlen, hgctxs⟩ := draft_due hc hd
    refine ⟨t, _, ht, (congrArg (Tab.look · i) hgctxs).trans (Tab.look_insert_same _ _ _), rfl, rfl, hlen, rfl, fun j hj => ?_⟩
    rw [hgctxs, Tab.look_insert_ne _ _ hj]
  · refine ⟨_, rfl, ?_, ?_⟩
    · rw [taken_rd _ _ (by decide), grmDone_unknown hi, rd_bump_same]
    · rw [taken_items, if_pos (by decide), grmDone_unknown hi]
      rfl
  · obtain ⟨t, ht, hitem, hother, hregs⟩ := grmDone_marks hi h3 h4
    exact ⟨t, _, ht, hitem, rfl, rfl, fun h2 hnames => getLsbD_stagesFound_grammar h2 hnames rfl, hother, hregs⟩

end Sys2Proof.Machine
end

section
/-! SUPPORT. Harts: what a hart's record, registers and CSRs read after each update of them, and what an update of harts leaves (R255, R270,
R276). -/
namespace Sys2Proof.Machine

/-! ## One hart's record -/

@[simp] theorem hart_setHart_same (s : State) (h : Nat) (x : Hart) : (s.setHart h x).hart h = x := Tab.get_set_same _ _ _ _

theorem hart_setHart_ne (s : State) {h k : Nat} (x : Hart) (hk : k ≠ h) : (s.setHart h x).hart k = s.hart k := Tab.get_set_ne _ _ _ hk

@[simp] theorem hart_updHart_same (s : State) (h : Nat) (g : Hart → Hart) : (s.updHart h g).hart h = g (s.hart h) := hart_setHart_same _ _ _

theorem hart_updHart_ne (s : State) {h k : Nat} (g : Hart → Hart) (hk : k ≠ h) : (s.updHart h g).hart k = s.hart k := hart_setHart_ne _ _ hk

theorem setHart_same {f : Fld} (s : State) (h : Nat) (x : Hart) (hf : f ∉ [Fld.harts]) : f.same s (s.setHart h x) := by
  cases f <;> first | rfl | simp at hf

theorem updHart_same {f : Fld} (s : State) (h : Nat) (g : Hart → Hart) (hf : f ∉ [Fld.harts]) : f.same s (s.updHart h g) :=
  setHart_same _ _ _ hf

theorem setCore_same {f : Fld} (s : State) (c : Nat) (x : Core) (hf : f ∉ [Fld.cores]) : f.same s (s.setCore c x) := by
  cases f <;> first | rfl | simp at hf

theorem updCore_same {f : Fld} (s : State) (c : Nat) (g : Core → Core) (hf : f ∉ [Fld.cores]) : f.same s (s.updCore c g) :=
  setCore_same _ _ _ hf

@[simp] theorem core_updCore_same (s : State) (c : Nat) (g : Core → Core) : (s.updCore c g).core c = g (s.core c) := Tab.get_set_same _ _ _ _

theorem core_updCore_ne (s : State) {c k : Nat} (g : Core → Core) (hk : k ≠ c) : (s.updCore c g).core k = s.core k := Tab.get_set_ne _ _ _ hk

/-- States with the same harts read the same harts. -/
theorem hart_congr {s t : State} (hs : Fld.harts.same s t) (h : Nat) : t.hart h = s.hart h := congrArg (Tab.get ({} : Hart) · h) hs

theorem core_congr {s t : State} (hs : Fld.cores.same s t) (c : Nat) : t.core c = s.core c := congrArg (Tab.get ({} : Core) · c) hs

theorem ld_congr {s t : State} (hs : Fld.mem.same s t) (a n : Nat) : t.ld a n = s.ld a n := congrArg (memBytes · a n) hs

theorem taken_hart (s t : State) {w : List Fld} (h : .harts ∈ w) (k : Nat) : (s.taken t w).hart k = t.hart k := by
  simp [State.hart, h]

theorem taken_core (s t : State) {w : List Fld} (h : .cores ∈ w) (c : Nat) : (s.taken t w).core c = t.core c := by
  simp [State.core, h]

/-! ## Integer registers -/

section
variable (x : Hart) (v : DWord)

theorem rx_wx {r k : Nat} (hr : r < 32) (hk : k < 32) : (x.wx r v).rx k = if k = r then (if r = 0 then 0 else v) else x.rx k := by
  unfold Hart.wx Hart.rx
  rw [Nat.mod_eq_of_lt hr, Nat.mod_eq_of_lt hk]
  by_cases hr0 : r = 0
  · subst hr0
    by_cases hk0 : k = 0 <;> simp [hk0]
  · rw [if_neg hr0]
    by_cases hk0 : k = 0
    · simp [hk0, Ne.symm hr0]
    · by_cases hkr : k = r
      · subst hkr; simp [hk0]
      · simp [hk0, hkr, Tab.get_set_ne _ _ _ hkr]

/-- What a write of an integer register leaves of a hart. -/
theorem wx_frame (r : Nat) : x.wx r v = { x with x := (x.wx r v).x } := by
  unfold Hart.wx
  split <;> rfl

@[simp] theorem wx_zero : x.wx 0 v = x := rfl
@[simp] theorem wx_f (r : Nat) : (x.wx r v).f = x.f := by rw [wx_frame]
@[simp] theorem wx_mode (r : Nat) : (x.wx r v).mode = x.mode := by rw [wx_frame]
@[simp] theorem wx_resv (r : Nat) : (x.wx r v).resv = x.resv := by rw [wx_frame]
@[simp] theorem wx_slot (r : Nat) : (x.wx r v).slot = x.slot := by rw [wx_frame]
@[simp] theorem wx_csr (r : Nat) : (x.wx r v).csr = x.csr := by rw [wx_frame]
@[simp] theorem wx_cs (r n : Nat) : (x.wx r v).cs n = x.cs n := by unfold Hart.cs; rw [wx_csr]
end

/-! ## CSRs -/

section
variable (x : Hart)

@[simp] theorem cs_setCs_same (n : Nat) (v : DWord) : (x.setCs n v).cs n = v := by
  simp [Hart.cs, Hart.setCs]

theorem cs_setCs_ne {n k : Nat} (v : DWord) (h : k ≠ n) : (x.setCs n v).cs k = x.cs k := by
  simp [Hart.cs, Hart.setCs, Tab.get_set_ne _ _ _ h]

theorem cs_putCs_ne {n k : Nat} (hi lo v : Nat) (h : k ≠ n) : (x.putCs n hi lo v).cs k = x.cs k := cs_setCs_ne _ _ h

/-- A field of a number that is replaced, bit by bit. -/
theorem testBit_put (m : Nat) {hi lo : Nat} (n : Nat) (hl : lo ≤ hi) (i : Nat) :
    (m - nbits m hi lo * 2 ^ lo + n % 2 ^ (hi + 1 - lo) * 2 ^ lo).testBit i = if lo ≤ i ∧ i ≤ hi then n.testBit (i - lo) else m.testBit i := by
  obtain ⟨k, rfl⟩ : ∃ k, hi = lo + k := ⟨hi - lo, by omega⟩
  have hw : lo + k + 1 - lo = k + 1 := by omega
  have hN : n % 2 ^ (k + 1) < 2 ^ (k + 1) := Nat.mod_lt _ (Nat.two_pow_pos _)
  have hD : m % 2 ^ lo < 2 ^ lo := Nat.mod_lt _ (Nat.two_pow_pos _)
  -- The number is its high part, the field and its low part.
  have hm : m = 2 ^ lo * (2 ^ (k + 1) * (m / 2 ^ lo / 2 ^ (k + 1)) + m / 2 ^ lo % 2 ^ (k + 1)) + m % 2 ^ lo := by
    rw [Nat.div_add_mod, Nat.div_add_mod]
  have hput : m - nbits m (lo + k) lo * 2 ^ lo + n % 2 ^ (lo + k + 1 - lo) * 2 ^ lo =
      2 ^ lo * (2 ^ (k + 1) * (m / 2 ^ lo / 2 ^ (k + 1)) + n % 2 ^ (k + 1)) + m % 2 ^ lo := by
    unfold nbits
    rw [hw]
    generalize m / 2 ^ lo / 2 ^ (k + 1) = A at *
    generalize m / 2 ^ lo % 2 ^ (k + 1) = B at *
    generalize m % 2 ^ lo = D at *
    rw [hm, Nat.mul_add, Nat.mul_add, Nat.mul_comm B, Nat.mul_comm (n % _)]
    omega
  rw [hput, Nat.testBit_two_pow_mul_add _ hD, Nat.testBit_two_pow_mul_add _ hN]
  by_cases h1 : i < lo
  · rw [if_pos h1, if_neg (by omega), Nat.testBit_mod_two_pow]
    simp [h1]
  · rw [if_neg h1]
    by_cases h2 : i - lo < k + 1
    · rw [if_pos h2, if_pos (by omega), Nat.testBit_mod_two_pow]
      simp [h2]
    · rw [if_neg h2, if_neg (by omega), Nat.testBit_div_two_pow, Nat.testBit_div_two_pow]
      congr 1; omega

theorem bit_put64 (v : DWord) {hi lo : Nat} (n : Nat) (hl : lo ≤ hi) {i : Nat} (hi64 : i < 64) :
    bit (put64 v hi lo n) i = if lo ≤ i ∧ i ≤ hi then n.testBit (i - lo) else bit v i := by
  unfold put64 bit
  rw [BitVec.getLsbD_ofNat, testBit_put _ _ hl, BitVec.testBit_toNat]
  simp [hi64]

theorem testBit_bits {w : Nat} (v : BitVec w) (hi lo i : Nat) : (bits v hi lo).testBit i = (decide (i < hi + 1 - lo) && bit v (lo + i)) := by
  rw [bits, nbits_testBit]
  rfl

theorem bits_put64 (v : DWord) {hi lo : Nat} (n : Nat) (h : hi < 64) (hl : lo ≤ hi) :
    bits (put64 v hi lo n) hi lo = n % 2 ^ (hi + 1 - lo) := by
  apply Nat.eq_of_testBit_eq; intro i
  rw [testBit_bits, Nat.testBit_mod_two_pow]
  by_cases hi' : i < hi + 1 - lo
  · rw [bit_put64 _ _ hl (by omega), if_pos (by omega)]
    simp
  · simp [hi']

theorem bits_put64_ne (v : DWord) {hi lo : Nat} (n : Nat) {hi' lo' : Nat} (hl : lo ≤ hi) (h' : hi' < 64) (hd : hi' < lo ∨ hi < lo') :
    bits (put64 v hi lo n) hi' lo' = bits v hi' lo' := by
  apply Nat.eq_of_testBit_eq; intro i
  rw [testBit_bits, testBit_bits]
  by_cases hi2 : i < hi' + 1 - lo'
  · rw [bit_put64 _ _ hl (by omega), if_neg (by omega)]
  · simp [hi2]

theorem csf_putCs (n : Nat) {hi lo : Nat} (v : Nat) (h : hi < 64) (hl : lo ≤ hi) : (x.putCs n hi lo v).csf n hi lo = v % 2 ^ (hi + 1 - lo) := by
  rw [Hart.csf, Hart.putCs, cs_setCs_same, bits_put64 _ _ h hl]

theorem csf_putCs_ne (n : Nat) {hi lo : Nat} (v : Nat) {hi' lo' : Nat} (hl : lo ≤ hi) (h' : hi' < 64) (hd : hi' < lo ∨ hi < lo') :
    (x.putCs n hi lo v).csf n hi' lo' = x.csf n hi' lo' := by
  rw [Hart.csf, Hart.putCs, cs_setCs_same, bits_put64_ne _ _ hl h' hd, Hart.csf]

theorem csf_lt (n hi lo : Nat) : x.csf n hi lo < 2 ^ (hi + 1 - lo) := nbits_lt _ _ _

@[simp] theorem setCs_x (n : Nat) (v : DWord) : (x.setCs n v).x = x.x := rfl
@[simp] theorem setCs_f (n : Nat) (v : DWord) : (x.setCs n v).f = x.f := rfl
@[simp] theorem putCs_x (n hi lo v : Nat) : (x.putCs n hi lo v).x = x.x := rfl
@[simp] theorem putCs_f (n hi lo v : Nat) : (x.putCs n hi lo v).f = x.f := rfl
@[simp] theorem putCs_slot (n hi lo v : Nat) : (x.putCs n hi lo v).slot = x.slot := rfl
end

/-! ## Stores break reservations, and nothing else of a hart (R270) -/

/-- The hart with its reservation left out. -/
def Hart.noResv (x : Hart) : Hart := { x with resv := none }

theorem breakResv_one (e : Nat × Hart) (a n : Nat) :
    ∃ y : Hart, breakResv [e] a n = [(e.1, y)] ∧ y.noResv = e.2.noResv ∧ (e.2.resv = none → y.resv = none) := by
  unfold breakResv
  rw [List.map_singleton]
  split
  · split
    · exact ⟨_, rfl, rfl, fun _ => rfl⟩
    · exact ⟨_, rfl, rfl, id⟩
  · exact ⟨_, rfl, rfl, id⟩

theorem get_breakResv (hs : Tab Hart) (a n k : Nat) :
    (Tab.get {} (breakResv hs a n) k).noResv = (Tab.get {} hs k).noResv ∧
      ((Tab.get {} hs k).resv = none → (Tab.get {} (breakResv hs a n) k).resv = none) := by
  induction hs with
  | nil => exact ⟨rfl, id⟩
  | cons e hs ih =>
    obtain ⟨y, hy, hn⟩ := breakResv_one e a n
    have hcons : breakResv (e :: hs) a n = (e.1, y) :: breakResv hs a n := congrArg (· ++ breakResv hs a n) hy
    obtain ⟨j, w⟩ := e
    rw [hcons, Tab.get, Tab.get]
    split
    · exact hn
    · exact ih

theorem noResv_st (s : State) (a : Nat) (b : Bytes) (h : Nat) : ((s.st a b).hart h).noResv = (s.hart h).noResv := (get_breakResv _ _ _ _).1

theorem resv_st {s : State} {h : Nat} (hr : (s.hart h).resv = none) (a : Nat) (b : Bytes) : ((s.st a b).hart h).resv = none :=
  (get_breakResv _ _ _ _).2 hr

/-! ## Registers of a hart that agree -/

/-- Two records of a hart with the same integer and floating-point registers, mode and CSRs. -/
def Hart.sameRegs (x y : Hart) : Prop := y.x = x.x ∧ y.f = x.f ∧ y.mode = x.mode ∧ y.csr = x.csr

theorem sameRegs_refl (x : Hart) : x.sameRegs x := ⟨rfl, rfl, rfl, rfl⟩

theorem sameRegs_trans {x y z : Hart} (h : x.sameRegs y) (k : y.sameRegs z) : x.sameRegs z :=
  ⟨k.1.trans h.1, k.2.1.trans h.2.1, k.2.2.1.trans h.2.2.1, k.2.2.2.trans h.2.2.2⟩

theorem sameRegs_of_noResv {x y : Hart} (h : y.noResv = x.noResv) : x.sameRegs y := by
  simp only [Hart.noResv, Hart.mk.injEq] at h
  obtain ⟨-, hmode, -, hx, hf, hcsr, -⟩ := h
  exact ⟨hx, hf, hmode, hcsr⟩

theorem rx_congr {x y : Hart} (h : x.sameRegs y) (r : Nat) : y.rx r = x.rx r := by unfold Hart.rx; rw [h.1]

theorem cs_congr {x y : Hart} (h : x.sameRegs y) (n : Nat) : y.cs n = x.cs n := by unfold Hart.cs; rw [h.2.2.2]

end Sys2Proof.Machine
end

section
/-! SUPPORT. The end of a hart's instruction: what retiring, trapping and the row of an instruction leave (R255, R276). -/
namespace Sys2Proof.Machine

/-! ## Retiring -/

/-- A hart that has retired an instruction after which it stands at `nx`: instret counts it unless mcountinhibit stops it. -/
def Hart.retired (x : Hart) (nx : DWord) : Hart :=
  if bit (x.cs 0x320) 2 then { x with pc := nx } else ({ x with pc := nx } : Hart).setCs 0xB02 (x.cs 0xB02 + 1)

section
variable (x : Hart) (nx : DWord)

/-- What retiring leaves of a hart. -/
theorem retired_frame : x.retired nx = { x with pc := nx, csr := (x.retired nx).csr } := by
  unfold Hart.retired
  split <;> rfl

@[simp] theorem retired_pc : (x.retired nx).pc = nx := by rw [retired_frame]
@[simp] theorem retired_x : (x.retired nx).x = x.x := by rw [retired_frame]
@[simp] theorem retired_f : (x.retired nx).f = x.f := by rw [retired_frame]
@[simp] theorem retired_mode : (x.retired nx).mode = x.mode := by rw [retired_frame]
@[simp] theorem retired_run : (x.retired nx).run = x.run := by rw [retired_frame]
@[simp] theorem retired_resv : (x.retired nx).resv = x.resv := by rw [retired_frame]
@[simp] theorem retired_slot : (x.retired nx).slot = x.slot := by rw [retired_frame]
@[simp] theorem retired_rx (r : Nat) : (x.retired nx).rx r = x.rx r := by unfold Hart.rx; rw [retired_x]
@[simp] theorem retired_rf (r : Nat) : (x.retired nx).rf r = x.rf r := by unfold Hart.rf; rw [retired_f]

theorem retired_cs {k : Nat} (hk : k ≠ 0xB02) : (x.retired nx).cs k = x.cs k := by
  unfold Hart.retired
  split
  · rfl
  · exact cs_setCs_ne _ _ hk

theorem retired_csf {k : Nat} (hi lo : Nat) (hk : k ≠ 0xB02) : (x.retired nx).csf k hi lo = x.csf k hi lo := by
  unfold Hart.csf; rw [retired_cs x nx hk]
end

theorem dropAnswers_same {f : Fld} (s : State) (h : Nat) (hf : f ∉ [Fld.kal]) : f.same s (s.dropAnswers h) := by
  unfold State.dropAnswers
  split
  · exact updKal_same _ _ hf
  · exact Fld.same_refl _ _

theorem retired_same {f : Fld} (s : State) (h : Nat) (hf : f ∉ [Fld.regs, .harts]) : f.same s (s.retired h) := by
  have hb : f.same s (s.bump (Reg.CORE_CNT_INSTR (h / 512))) := wr_same _ _ _ (notMem_part hf (by decide))
  unfold State.retired
  dsimp only
  split
  · exact hb
  · exact Fld.same_trans hb (updHart_same _ _ _ (notMem_part hf (by decide)))

theorem regs_retired (s : State) (h : Nat) : (s.retired h).regs = (s.bump (Reg.CORE_CNT_INSTR (h / 512))).regs := by
  unfold State.retired
  dsimp only
  split <;> rfl

/-! ## The end of an instruction -/

section
variable (s t : State) (h : Nat) (nx : DWord)

/-- A completed instruction ends in three steps: the pc, the counts of what is retired, and the answers to the hart's peer reads dropped. -/
theorem hfinish_ok_same {f : Fld} (hf : f ∉ [Fld.regs, .harts, .kal]) : f.same t (s.hfinish h (.ok (some nx) t)) :=
  Fld.same_trans (Fld.same_trans (updHart_same _ _ _ (notMem_part hf (by decide))) (retired_same _ _ (notMem_part hf (by decide))))
    (dropAnswers_same _ _ (notMem_part hf (by decide)))

theorem rd_hfinish_ok (a : Nat) : (s.hfinish h (.ok (some nx) t)).rd a = (t.bump (Reg.CORE_CNT_INSTR (h / 512))).rd a :=
  (rd_congr (dropAnswers_same (f := .regs) _ _ (by decide)) a).trans (rd_congr (regs_retired _ _) a)

/-- The hart has retired the instruction. -/
theorem hart_hfinish_ok : (s.hfinish h (.ok (some nx) t)).hart h = (t.hart h).retired nx := by
  have hend : (s.hfinish h (.ok (some nx) t)).hart h = ((t.updHart h (fun x => { x with pc := nx })).retired h).hart h :=
    hart_congr (dropAnswers_same _ _ (by decide)) h
  have hbump : ((t.updHart h (fun x => { x with pc := nx })).bump (Reg.CORE_CNT_INSTR (h / 512))).hart h = { t.hart h with pc := nx } :=
    (hart_congr (wr_same _ _ _ (by decide)) h).trans (hart_updHart_same _ _ _)
  rw [hend]
  unfold State.retired Hart.retired
  dsimp only
  rw [hbump, show ({ t.hart h with pc := nx } : Hart).cs 0x320 = (t.hart h).cs 0x320 from rfl]
  split
  · exact hbump
  · rw [hart_updHart_same, hbump]
    rfl

theorem hart_hfinish_ok_ne {k : Nat} (hk : k ≠ h) : (s.hfinish h (.ok (some nx) t)).hart k = t.hart k := by
  have hend : (s.hfinish h (.ok (some nx) t)).hart k = ((t.updHart h (fun x => { x with pc := nx })).retired h).hart k :=
    hart_congr (dropAnswers_same _ _ (by decide)) k
  have hbump : ((t.updHart h (fun x => { x with pc := nx })).bump (Reg.CORE_CNT_INSTR (h / 512))).hart k = t.hart k :=
    (hart_congr (wr_same _ _ _ (by decide)) k).trans (hart_updHart_ne _ _ hk)
  rw [hend]
  unfold State.retired
  dsimp only
  split
  · exact hbump
  · rw [hart_updHart_ne _ _ hk, hbump]
end

/-! ## Traps into machine mode (R276) -/

/-- The pc, cause and value of a trap, saved in the machine-mode CSRs. -/
def Hart.trapSaved (x : Hart) (cause tval : Nat) (irq : Bool) : Hart :=
  ((x.setCs 0x341 x.pc).setCs 0x342 (BitVec.ofNat 64 (cause + (if irq then 2 ^ 63 else 0)))).setCs 0x343
    (if Config.tvalShown cause then BitVec.ofNat 64 tval else 0)

/-- The CSRs of a hart that has taken a trap into machine mode. -/
def Hart.trapCsrs (x : Hart) (cause tval : Nat) (irq : Bool) : Hart :=
  (((x.trapSaved cause tval irq).putCs 0x300 7 7 (x.csf 0x300 3 3)).putCs 0x300 3 3 0).putCs 0x300 12 11 x.mode.num

/-- A hart that has taken a trap into machine mode. -/
def Hart.trappedToM (x : Hart) (cause tval : Nat) (irq : Bool) : Hart :=
  { x.trapCsrs cause tval irq with
    mode := .m, pc := BitVec.ofNat 64 ((x.cs 0x305).toNat / 4 * 4 + (if irq && bit (x.cs 0x305) 0 then 4 * cause else 0)) }

theorem hart_hartTrap {s : State} {h cause : Nat} (tval : Nat) {irq : Bool} (hm : (s.hart h).trapsToM cause irq) :
    (s.hartTrap h cause tval irq).hart h = (s.hart h).trappedToM cause tval irq := by
  have hdel : (bit ((s.hart h).cs (if irq = true then 0x303 else 0x302)) cause && (s.hart h).mode != .m) = false := by
    rcases hm with hmode | hbit
    · rw [hmode]; exact Bool.and_false _
    · rw [hbit]; rfl
  unfold State.hartTrap
  rw [hart_updHart_same]
  dsimp only
  rw [if_neg (by rw [hdel]; exact Bool.false_ne_true)]
  rfl

theorem mode_num_lt (md : Priv) : md.num < 4 := by cases md <;> decide

section
variable (x : Hart) (cause tval : Nat) (irq : Bool)

/-- The saved registers are not mstatus, whose fields a trap puts one after the other. -/
theorem cs_trapCsrs {k : Nat} (hk : k ≠ 0x300) : (x.trapCsrs cause tval irq).cs k = (x.trapSaved cause tval irq).cs k := by
  unfold Hart.trapCsrs
  rw [cs_putCs_ne _ _ _ _ hk, cs_putCs_ne _ _ _ _ hk, cs_putCs_ne _ _ _ _ hk]

theorem csf_trapCsrs : (x.trapCsrs cause tval irq).csf 0x300 7 7 = x.csf 0x300 3 3 ∧ (x.trapCsrs cause tval irq).csf 0x300 3 3 = 0 ∧
    (x.trapCsrs cause tval irq).csf 0x300 12 11 = x.mode.num := by
  unfold Hart.trapCsrs
  refine ⟨?_, ?_, ?_⟩
  · rw [csf_putCs_ne _ _ _ (by decide) (by decide) (by decide), csf_putCs_ne _ _ _ (by decide) (by decide) (by decide),
      csf_putCs _ _ _ (by decide) (by decide)]
    exact Nat.mod_eq_of_lt (csf_lt x 0x300 3 3)
  · rw [csf_putCs_ne _ _ _ (by decide) (by decide) (by decide), csf_putCs _ _ _ (by decide) (by decide)]
    rfl
  · rw [csf_putCs _ _ _ (by decide) (by decide)]
    exact Nat.mod_eq_of_lt (mode_num_lt _)

theorem trapCsrs_x : (x.trapCsrs cause tval irq).x = x.x := by simp only [Hart.trapCsrs, Hart.trapSaved, putCs_x, setCs_x]
theorem trapCsrs_f : (x.trapCsrs cause tval irq).f = x.f := by simp only [Hart.trapCsrs, Hart.trapSaved, putCs_f, setCs_f]
theorem trappedToM_x : (x.trappedToM cause tval irq).x = x.x := by
  unfold Hart.trappedToM
  dsimp only
  exact trapCsrs_x x cause tval irq
theorem trappedToM_f : (x.trappedToM cause tval irq).f = x.f := by
  unfold Hart.trappedToM
  dsimp only
  exact trapCsrs_f x cause tval irq
theorem trappedToM_cs (k : Nat) : (x.trappedToM cause tval irq).cs k = (x.trapCsrs cause tval irq).cs k := rfl
end

/-- What such a trap leaves of the hart's CSRs and registers. -/
theorem tookTrap_of_hart {t u : State} {h cause tval : Nat} {irq : Bool} (hu : u.hart h = (t.hart h).trappedToM cause tval irq) :
    t.tookTrap u h cause tval irq := by
  unfold State.tookTrap
  dsimp only
  rw [hu]
  generalize t.hart h = x
  have hcs := trappedToM_cs x cause tval irq
  have hcsf : ∀ hi lo, (x.trappedToM cause tval irq).csf 0x300 hi lo = (x.trapCsrs cause tval irq).csf 0x300 hi lo :=
    fun hi lo => congrArg (bits · hi lo) (hcs 0x300)
  obtain ⟨hmpie, hmie, hmpp⟩ := csf_trapCsrs x cause tval irq
  refine ⟨rfl, rfl, ?_, ?_, ?_, (hcsf 7 7).trans hmpie, (hcsf 3 3).trans hmie, (hcsf 12 11).trans hmpp,
    trappedToM_x _ _ _ _, trappedToM_f _ _ _ _, fun k hk => ?_⟩
  · rw [hcs, cs_trapCsrs _ _ _ _ (by decide), Hart.trapSaved, cs_setCs_ne _ _ (by decide), cs_setCs_ne _ _ (by decide), cs_setCs_same]
  · rw [hcs, cs_trapCsrs _ _ _ _ (by decide), Hart.trapSaved, cs_setCs_ne _ _ (by decide), cs_setCs_same]
  · rw [hcs, cs_trapCsrs _ _ _ _ (by decide), Hart.trapSaved, cs_setCs_same]
  · simp only [List.mem_cons, List.not_mem_nil, or_false, not_or] at hk
    obtain ⟨h0, h1, h2, h3⟩ := hk
    rw [hcs, cs_trapCsrs _ _ _ _ h0, Hart.trapSaved, cs_setCs_ne _ _ h3, cs_setCs_ne _ _ h2, cs_setCs_ne _ _ h1]

/-! ## The row of an instruction -/

/-- The command of the row of an instruction. -/
def IClass.command (h : Fin 49152) : IClass → Instr
  | .instr => .hartInstruction h
  | .load => .hartLoad h
  | .store => .hartStore h
  | .amo => .amo h
  | .lr => .lr h
  | .sc => .sc h
  | .fence => .fence h
  | .fencei => .fenceI h
  | .xfence => .xfence h
  | .xpark => .xpark h
  | .wrs => .wrs h
  | .urg => .urgWrite h
  | .peerr => .peerrWrite h
  | .mevtq => .mevtqRead h
  | .satp => .satpWrite h
  | .vs => .vsWrite h
  | .vec => .vectorInstruction h

/-- What an instruction of the row does, before it retires, traps or waits. -/
def IClass.body (h : Nat) : IClass → State → Nat → DWord → MR (Option DWord)
  | .instr => fun s insn nx => s.xOther h insn nx
  | .load => fun s insn nx => s.xLoads h insn nx
  | .store => fun s insn nx => s.xStores h insn nx
  | .amo => fun s insn nx => s.xAmo h insn nx
  | .lr => fun s insn nx => s.xLr h insn nx
  | .sc => fun s insn nx => s.xSc h insn nx
  | .fence | .fencei => fun s insn nx => s.xFence h insn nx
  | .xfence => fun s insn nx => s.xXfence h insn nx
  | .xpark => fun s insn _ => s.xXpark h insn
  | .wrs => fun s insn nx => s.xWrs h insn nx
  | .urg | .peerr | .mevtq | .satp | .vs => fun s insn nx => s.xCsr h insn nx
  | .vec => fun s insn nx => s.xVec h insn nx

/-- The fields that a row of a hart may change. -/
def IClass.flds : IClass → List Fld
  | .store | .vec => Fld.all
  | _ => [.free, .mem, .regs, .clk, .flogRing, .flogLast, .holding, .hevt, .msix, .qs, .items, .egress, .parts, .vis,
      .ue, .out, .ports, .tiles, .batchHeld, .arena, .handing, .gctxs, .sc, .harts, .cores, .klinks, .kal]

theorem mem_flds (k : IClass) : Fld.mem ∈ k.flds ∧ Fld.regs ∈ k.flds ∧ Fld.harts ∈ k.flds ∧ Fld.cores ∈ k.flds ∧ Fld.hevt ∈ k.flds := by
  cases k <;> decide

/-- What hart h leaves, as its row takes it over from `v`: the harts, the cores, the registers, the pending events and canonical memory. -/
structure State.RowTakes (v u : State) : Prop where
  harts : u.harts = v.harts
  cores : u.cores = v.cores
  hevt : u.hevt = v.hevt
  regs : u.regs = v.regs
  byte : Memory.wf v.mem = true → ∀ a, u.byte a = v.byte a

theorem rowTakes_taken (s v : State) (k : IClass) : v.RowTakes (s.taken v k.flds) := by
  obtain ⟨hmem, hregs, hharts, hcores, hhevt⟩ := mem_flds k
  exact ⟨if_pos hharts, if_pos hcores, if_pos hhevt, if_pos hregs, fun hw => taken_byte s v hmem hw⟩

theorem State.RowTakes.hart {v u : State} (hu : v.RowTakes u) (h : Nat) : u.hart h = v.hart h := hart_congr hu.harts h

/-- A row whose instruction it is does what its body says. WRS and VS_WRITE act on a hart that waits, too. -/
theorem exec_row {s t : State} {h : Fin 49152} {insn n : Nat} (hat : s.hartAt h insn n t) {k : IClass} (hk : t.iclass h insn = k)
    (hwrs : k = .wrs → ∀ i, (s.hart h).run ≠ .wrs i) (hvs : k ≠ .vs) :
    ∃ u, exec (k.command h) s = .next u ∧
      (t.hfinish h (k.body h t insn ((t.hart h).pc + BitVec.ofNat 64 n))).RowTakes u := by
  have hrow : ∀ body, s.hartRow h k body = t.hfinish h (body t insn ((t.hart h).pc + BitVec.ofNat 64 n)) := by
    intro body
    unfold State.hartRow
    rw [show (s.woken h).issue h = _ from hat]
    exact if_pos hk
  refine ⟨s.taken _ k.flds, ?_, rowTakes_taken s _ k⟩
  cases k with
  | vs => exact absurd rfl hvs
  | wrs =>
    have hw : s.wrsRow h = s.hartRow h .wrs (fun s insn nx => s.xWrs h insn nx) := by
      unfold State.wrsRow
      split
      · exact absurd ‹_› (hwrs rfl _)
      · rfl
    show Host.Outcome.next (s.taken (s.wrsRow h) _) = _
    rw [hw, hrow]
    rfl
  | instr =>
    have hi : s.hartInstr h = s.hartRow h .instr (fun s insn nx => s.xOther h insn nx) := by
      unfold State.hartInstr
      dsimp only
      rw [show (s.woken h).issue h = _ from hat]
    show Host.Outcome.next (s.taken (s.hartInstr h) _) = _
    rw [hi, hrow]
    rfl
  | _ => exact congrArg (fun v => Host.Outcome.next (s.taken v _)) (hrow _)

/-- Hart h has retired an instruction that left `v`, and goes on at `nx`. -/
structure State.RetiredTo (v u : State) (h : Nat) (nx : DWord) : Prop where
  hart : u.hart h = (v.hart h).retired nx
  others : ∀ j, j ≠ h → u.hart j = v.hart j
  cores : u.cores = v.cores
  hevt : u.hevt = v.hevt
  rd : ∀ a, u.rd a = (v.bump (Reg.CORE_CNT_INSTR (h / 512))).rd a
  byte : Memory.wf v.mem = true → ∀ a, u.byte a = v.byte a

theorem retiredTo_of_takes {s v u : State} {h : Nat} {nx : DWord} (hu : (s.hfinish h (.ok (some nx) v)).RowTakes u) : v.RetiredTo u h nx where
  hart := (hu.hart h).trans (hart_hfinish_ok s v h nx)
  others j hj := (hu.hart j).trans (hart_hfinish_ok_ne s v h nx hj)
  cores := hu.cores.trans (hfinish_ok_same (f := .cores) s v h nx (by decide))
  hevt := hu.hevt.trans (hfinish_ok_same (f := .hevt) s v h nx (by decide))
  rd a := (rd_congr hu.regs a).trans (rd_hfinish_ok s v h nx a)
  byte hw a := by
    have hmem : (s.hfinish h (.ok (some nx) v)).mem = v.mem := hfinish_ok_same (f := .mem) s v h nx (by decide)
    exact (hu.byte (by rw [hmem]; exact hw) a).trans (byte_congr hmem a)

section
variable {s t : State} {h : Fin 49152} {insn n : Nat} (hat : s.hartAt h insn n t) {k : IClass} (hk : t.iclass h insn = k)
  (hwrs : k = .wrs → ∀ i, (s.hart h).run ≠ .wrs i) (hvs : k ≠ .vs)
include hat hk hwrs hvs

/-- A row whose body completes retires. -/
theorem row_retires {nx : DWord} {v : State} (hb : k.body h t insn ((t.hart h).pc + BitVec.ofNat 64 n) = .ok (some nx) v) :
    ∃ u, exec (k.command h) s = .next u ∧ v.RetiredTo u h nx := by
  obtain ⟨u, hu, htakes⟩ := exec_row hat hk hwrs hvs
  rw [hb] at htakes
  exact ⟨u, hu, retiredTo_of_takes htakes⟩

/-- A row whose body traps into machine mode takes the trap. -/
theorem row_traps {c tv : Nat} {v : State} (hb : k.body h t insn ((t.hart h).pc + BitVec.ofNat 64 n) = .trap c tv v)
    (hm : (v.hart h).trapsToM c false) :
    ∃ u, exec (k.command h) s = .next u ∧ v.tookTrap u h c tv false ∧ (Memory.wf v.mem = true → ∀ a, u.byte a = v.byte a) := by
  obtain ⟨u, hu, htakes⟩ := exec_row hat hk hwrs hvs
  rw [hb] at htakes
  have hmem : (t.hfinish h (.trap c tv v)).mem = v.mem :=
    Fld.same_trans (f := .mem) (updHart_same (f := .mem) v _ _ (by decide)) (dropAnswers_same _ _ (by decide))
  refine ⟨u, hu, tookTrap_of_hart ?_, fun hw a => ?_⟩
  · exact (htakes.hart h).trans ((hart_congr (dropAnswers_same _ _ (by decide)) h).trans (hart_hartTrap tv hm))
  · exact (htakes.byte (by rw [hmem]; exact hw) a).trans (byte_congr hmem a)

/-- A row whose body waits for no peer read leaves what the body left. -/
theorem row_waits {v : State} (hb : k.body h t insn ((t.hart h).pc + BitVec.ofNat 64 n) = .wait none v) :
    ∃ u, exec (k.command h) s = .next u ∧ v.RowTakes u := by
  obtain ⟨u, hu, htakes⟩ := exec_row hat hk hwrs hvs
  rw [hb] at htakes
  exact ⟨u, hu, htakes⟩
end

end Sys2Proof.Machine
end

section
/-! SUPPORT. Registers after a retired instruction, and a hart's accesses to HBM: the checks passed, a read answers the bytes there, and a
write stores them (R261 to R263, R308). -/
namespace Sys2Proof.Machine

/-! ## What an instruction's result retires -/

theorem iRd_lt (insn : Nat) : iRd insn < 32 := nbits_lt insn 11 7

/-- An instruction that gives rd its result, and else leaves the registers, retires. -/
theorem State.RetiredTo.retires {t v u : State} {h : Nat} {nx : DWord} (hu : v.RetiredTo u h nx) {y : Hart} {rd : Nat} {w : DWord}
    (hrd : rd < 32) (hv : v.hart h = y.wx rd w) (hy : (t.hart h).sameRegs y) : t.retires u h nx rd w := by
  have hrx : ∀ r, u.rx h r = (y.wx rd w).rx r := fun r => by rw [State.rx, hu.hart, retired_rx, hv]
  refine ⟨?_, ?_, fun r hr hne => ?_, ?_, ?_, fun k hk => ?_⟩
  · rw [hu.hart, retired_pc]
  · rw [hrx, rx_wx _ _ hrd hrd, if_pos rfl]
  · rw [hrx, rx_wx _ _ hrd hr, if_neg hne]
    exact rx_congr hy r
  · rw [hu.hart, retired_f, hv, wx_f]
    exact hy.2.1
  · rw [hu.hart, retired_mode, hv, wx_mode]
    exact hy.2.2.1
  · rw [hu.hart, retired_cs _ _ hk, hv, wx_cs]
    exact cs_congr hy k

/-- An instruction without a result retires. -/
theorem State.RetiredTo.retires_none {t v u : State} {h : Nat} {nx : DWord} (hu : v.RetiredTo u h nx) (hy : (t.hart h).sameRegs (v.hart h)) :
    t.retires u h nx 0 0 :=
  hu.retires (by decide) (wx_zero _ 0).symm hy

@[simp] theorem hart_wx (s : State) (h r : Nat) (w : DWord) : (s.wx h r w).hart h = (s.hart h).wx r w := hart_updHart_same _ _ _

theorem wx_same {f : Fld} (s : State) (h r : Nat) (w : DWord) (hf : f ∉ [Fld.harts]) : f.same s (s.wx h r w) := updHart_same _ _ _ hf

theorem mem_updHart (s : State) (h : Nat) (g : Hart → Hart) : (s.updHart h g).mem = s.mem := updHart_same (f := .mem) s h g (by decide)

theorem mem_wx (s : State) (h r : Nat) (w : DWord) : (s.wx h r w).mem = s.mem := mem_updHart _ _ _

/-! ## The cache and the bytes (R308) -/

theorem scAccess_same {f : Fld} (s : State) (p line : Nat) (wr : Bool) (hf : f ∉ [Fld.regs, .sc]) : f.same s (s.scAccess p line wr) := by
  have hb : ∀ a, f.same s (s.bump a) := fun a => wr_same _ _ _ (notMem_part hf (by decide))
  have hsc : ∀ (u : State) (l : List ScLine), f.same s u → f.same s { u with sc := l } := fun u l hu =>
    Fld.same_trans hu (by cases f <;> first | rfl | simp at hf)
  unfold State.scAccess
  dsimp only
  split
  · exact hsc _ _ (hb _)
  · split
    · exact hsc _ _ (hb _)
    · split
      · exact hb _
      · exact hsc _ _ (hb _)

theorem hartCache_same {f : Fld} (s : State) (h a : Nat) (wr : Bool) (hf : f ∉ [Fld.regs, .sc]) : f.same s (s.hartCache h a wr) := by
  unfold State.hartCache
  split
  · exact Fld.same_ite (scAccess_same _ _ _ _ hf) (Fld.same_refl _ _)
  · exact Fld.same_refl _ _

/-! ## Reads of HBM -/

theorem devRead_hbm (s : State) (req : Req) {a n : Nat} (h : a ≤ 0xC00000000) : s.devRead req a n = (s.ld a n, s) := by
  unfold State.devRead State.ldUnit regBase commonsBase
  rw [if_neg (by omega), if_neg (by omega)]

theorem isPeer_hbm {a : Nat} (h : a ≤ 0xC00000000) : isPeer a = false := by
  unfold isPeer peerBase
  simp only [Bool.and_eq_false_iff, decide_eq_false_iff_not]
  left; omega

theorem physRead_hbm {s : State} {h : Nat} {eff : Priv} {pk : Acc} (k : Acc) {pa n : Nat} (tv : Nat)
    (ha : s.localAddr pa + n ≤ 0xC00000000) (hp : s.physStop h eff pk (s.localAddr pa) n = none) :
    s.physRead h eff pk k pa n tv = .ok (s.ld (s.localAddr pa) n) (s.hartCache h (s.localAddr pa) false) := by
  have hle : s.localAddr pa ≤ 0xC00000000 := by omega
  unfold State.physRead
  dsimp only
  rw [hp, isPeer_hbm hle, devRead_hbm _ _ hle]
  exact congrArg (fun b => MR.ok b _) (ld_congr (hartCache_same (f := .mem) _ _ _ _ (by decide)) _ _)

theorem hread_hbm {t t1 : State} {h : Nat} {k : Acc} {va pa n : Nat} (hal : va % 64 + n ≤ 64) (htr : t.translate h k va = .ok pa t1)
    (ha : t1.localAddr pa + n ≤ 0xC00000000) (hp : t1.physStop h ((t1.hart h).eff k) k (t1.localAddr pa) n = none) :
    t.hread h k va n = .ok (t1.ld (t1.localAddr pa) n) (t1.hartCache h (t1.localAddr pa) false) := by
  unfold State.hread
  rw [if_neg (by omega), htr]
  exact physRead_hbm k va ha hp

theorem hread_misaligned {t : State} {h : Nat} {k : Acc} {va n : Nat} (hal : 64 < va % 64 + n) : t.hread h k va n = .trap k.misaligned va t :=
  if_pos hal

/-! ## Writes of HBM -/

/-- A write at the point of coherence: the bytes are stored, and reservations of their block broken. -/
theorem mem_atomWrite (s : State) (h a : Nat) (b : Bytes) : (s.atomWrite h a b).mem = memStore s.mem a b := by
  have hm : (s.hartCache h a true).mem = s.mem := hartCache_same (f := .mem) s h a true (by decide)
  exact congrArg (memStore · a b) hm

theorem noResv_atomWrite (s : State) (h a : Nat) (b : Bytes) (k : Nat) : ((s.atomWrite h a b).hart k).noResv = (s.hart k).noResv := by
  refine (noResv_st (s.hartCache h a true) a b k).trans ?_
  rw [hart_congr (hartCache_same (f := .harts) s h a true (by decide))]

theorem sameRegs_atomWrite (s : State) (h a : Nat) (b : Bytes) (k : Nat) : (s.hart k).sameRegs ((s.atomWrite h a b).hart k) :=
  sameRegs_of_noResv (noResv_atomWrite s h a b k)

theorem resv_atomWrite {s : State} {k : Nat} (hr : (s.hart k).resv = none) (h a : Nat) (b : Bytes) : ((s.atomWrite h a b).hart k).resv = none :=
  resv_st (s := s.hartCache h a true) (by rw [hart_congr (hartCache_same (f := .harts) s h a true (by decide))]; exact hr) a b

theorem hwrite_hbm {t t1 : State} {h va pa : Nat} {b : Bytes} (hal : va % 64 + b.length ≤ 64) (hb : 0 < b.length)
    (htr : t.translate h .w va = .ok pa t1) (ha : t1.localAddr pa + b.length ≤ 0xC00000000)
    (hp : t1.physStop h ((t1.hart h).eff .w) .w (t1.localAddr pa) b.length = none) :
    t.hwrite h va b = .ok () (t1.atomWrite h (t1.localAddr pa) b) := by
  unfold State.hwrite
  rw [if_neg (by omega), htr]
  show t1.physWrite h _ pa b va = _
  unfold State.physWrite
  dsimp only
  rw [hp, isPeer_hbm (by omega)]
  exact (if_neg Bool.false_ne_true).trans (if_pos (by omega))

theorem hwrite_misaligned {t : State} {h va : Nat} {b : Bytes} (hal : 64 < va % 64 + b.length) : t.hwrite h va b = .trap 6 va t := if_pos hal

/-! ## Bytes as numbers -/

theorem leNat_append (a b : Bytes) : leNat (a ++ b) = leNat a + 256 ^ a.length * leNat b := by
  induction a with
  | nil => simp [leNat]
  | cons x a ih =>
    rw [List.cons_append, leNat, leNat, ih, List.length_cons, Nat.pow_succ]
    ring

theorem leNat_lt (b : Bytes) : leNat b < 256 ^ b.length := by
  induction b with
  | nil => exact Nat.one_pos
  | cons x b ih =>
    have hx := x.isLt
    rw [leNat, List.length_cons, Nat.pow_succ]
    omega

theorem memBytes_add (m : List Host.Cell) (a i j : Nat) : memBytes m a (i + j) = memBytes m a i ++ memBytes m (a + i) j := by
  induction i generalizing a with
  | zero => rw [Nat.zero_add]; rfl
  | succ i ih =>
    rw [Nat.add_right_comm, memBytes, memBytes, ih, Nat.add_assoc, Nat.add_comm 1 i]
    rfl

theorem memBytes_memStore (m : List Host.Cell) (a : Nat) (b : Bytes) : memBytes (memStore m a b) a b.length = b := by
  induction b generalizing m a with
  | nil => rfl
  | cons x b ih =>
    rw [List.length_cons, memStore, memBytes, ih, get_memStore_ne _ _ _ (.inl (Nat.lt_succ_self a)), Tab.get_set_same]

/-- States with the same bytes read the same bytes. -/
theorem ld_of_byte {u v : State} (h : ∀ x, u.byte x = v.byte x) (a n : Nat) : u.ld a n = v.ld a n := by
  have hget : ∀ n a, memBytes u.mem a n = memBytes v.mem a n := by
    intro n
    induction n with
    | zero => exact fun _ => rfl
    | succ n ih => exact fun a => congrArg₂ List.cons (h a) (ih (a + 1))
  exact hget n a

/-- A stored number stands in its bytes, and no other byte has changed. -/
theorem storedNat_of_store {t u v : State} {a : Nat} {b : Bytes} (hv : v.mem = memStore t.mem a b) (hu : ∀ x, u.byte x = v.byte x) :
    t.storedNat u a b.length (leNat b) := by
  refine ⟨?_, fun x hx => ?_⟩
  · rw [ld_of_byte hu, State.ld, hv, memBytes_memStore]
  · rw [hu, State.byte, hv, get_memStore_ne _ _ _ hx]
    rfl

theorem storedNat_toLe {t u v : State} {a k n : Nat} (hv : v.mem = memStore t.mem a (toLe k n)) (hu : ∀ x, u.byte x = v.byte x) :
    t.storedNat u a k (n % 2 ^ (8 * k)) := by
  have hst := storedNat_of_store hv hu
  rwa [length_toLe, leNat_toLe, show (256 : Nat) = 2 ^ 8 from rfl, ← Nat.pow_mul] at hst

end Sys2Proof.Machine
end

section
/-! SUPPORT. Loads, stores, atomics and fences of a hart, each as its row leaves it (R261, R262, R267, R269, R270). -/
namespace Sys2Proof.Machine

section
variable {s t : State} {h : Fin 49152} {insn n : Nat} (hat : s.hartAt h insn n t)

/-! ## The rows of these instructions -/

theorem iclass_load (hop : insn % 128 = 0x03) : t.iclass h insn = .load := by simp only [State.iclass, hop]
theorem iclass_store (hop : insn % 128 = 0x23) : t.iclass h insn = .store := by simp only [State.iclass, hop]
theorem iclass_fload (hop : insn % 128 = 0x07) (h3 : iF3 insn ∈ [1, 2, 3]) : t.iclass h insn = .load := by
  have h14 : 1 ≤ iF3 insn ∧ iF3 insn ≤ 4 := by simp at h3; omega
  simp [State.iclass, hop, h14]
theorem iclass_fstore (hop : insn % 128 = 0x27) (h3 : iF3 insn ∈ [1, 2, 3]) : t.iclass h insn = .store := by
  have h14 : 1 ≤ iF3 insn ∧ iF3 insn ≤ 4 := by simp at h3; omega
  simp [State.iclass, hop, h14]
theorem iclass_amo (hop : insn % 128 = 0x2F) (h2 : nbits insn 31 27 ≠ 2) (h3 : nbits insn 31 27 ≠ 3) : t.iclass h insn = .amo := by
  simp [State.iclass, hop, h2, h3]
theorem iclass_lr (hop : insn % 128 = 0x2F) (h2 : nbits insn 31 27 = 2) : t.iclass h insn = .lr := by simp [State.iclass, hop, h2]
theorem iclass_sc (hop : insn % 128 = 0x2F) (h3 : nbits insn 31 27 = 3) : t.iclass h insn = .sc := by simp [State.iclass, hop, h3]
theorem iclass_fence (hop : insn % 128 = 0x0F) (h3 : iF3 insn = 0) : t.iclass h insn = .fence := by simp [State.iclass, hop, h3]
theorem iclass_fencei (hop : insn % 128 = 0x0F) (h3 : iF3 insn = 1) : t.iclass h insn = .fencei := by simp [State.iclass, hop, h3]
theorem iclass_xfence (hop : insn % 128 = 0x0B) (h3 : iF3 insn = 0) : t.iclass h insn = .xfence := by simp [State.iclass, hop, h3]

/-! ## Floating-point registers -/

theorem rf_wf (s : State) (h : Nat) (v : DWord) {r k : Nat} (hr : r < 32) (hk : k < 32) :
    ((s.wf h r v).hart h).rf k = if k = r then v else (s.hart h).rf k := by
  rw [State.wf, hart_updHart_same]
  unfold Hart.rf Hart.fDirty
  dsimp only
  rw [Nat.mod_eq_of_lt hr, Nat.mod_eq_of_lt hk, Tab.get_set]

theorem x_wf (s : State) (h r : Nat) (v : DWord) : ((s.wf h r v).hart h).x = (s.hart h).x := by
  rw [State.wf, hart_updHart_same]
  rfl

/-! ## Loads -/

/-- A load that HBM answers gives rd its value. -/
theorem xLoad_ok {nx : DWord} {b : Bytes} {t2 : State} (h7 : iF3 insn ≠ 7)
    (hr : t.hread h .r (t.rx h (iRs1 insn) + immI insn).toNat (2 ^ (iF3 insn % 4)) = .ok b t2) :
    t.xLoad h insn nx = .ok (some nx) (t2.wx h (iRd insn) (loadVal (iF3 insn) b)) := by
  unfold State.xLoad
  dsimp only
  rw [if_neg h7, hr]
  rfl

theorem xFload_ok {nx : DWord} {b : Bytes} {t2 : State} (h4 : iF3 insn ≠ 4) (hfs : (t.hart h).fs ≠ 0)
    (hr : t.hread h .r (t.rx h (iRs1 insn) + immI insn).toNat (2 ^ iF3 insn) = .ok b t2) :
    t.xFload h insn nx = .ok (some nx) (t2.wf h (iRd insn) (BitVec.ofNat 64 (2 ^ 64 - 2 ^ (8 * 2 ^ iF3 insn) + leNat b))) := by
  unfold State.xFload
  dsimp only
  rw [if_neg (not_or.mpr ⟨hfs, h4⟩), hr]
  rfl

theorem xStore_ok {nx : DWord} {t2 : State} (h3 : iF3 insn ≤ 3)
    (hw : t.hwrite h (t.rx h (iRs1 insn) + immS insn).toNat (toLe (2 ^ iF3 insn) (t.rx h (iRs2 insn)).toNat) = .ok () t2) :
    t.xStore h insn nx = .ok (some nx) t2 := by
  unfold State.xStore
  dsimp only
  rw [if_neg (by omega), hw]
  rfl

theorem xFstore_ok {nx : DWord} {t2 : State} (h4 : iF3 insn ≠ 4) (hfs : (t.hart h).fs ≠ 0)
    (hw : t.hwrite h (t.rx h (iRs1 insn) + immS insn).toNat (toLe (2 ^ iF3 insn) ((t.hart h).rf (iRs2 insn)).toNat) = .ok () t2) :
    t.xFstore h insn nx = .ok (some nx) t2 := by
  unfold State.xFstore
  dsimp only
  rw [if_neg (not_or.mpr ⟨hfs, h4⟩), hw]
  rfl

include hat

theorem hartLoad_misaligned (hop : insn % 128 = 0x03) (h7 : iF3 insn ≠ 7)
    (hal : 64 < (t.rx h (iRs1 insn) + immI insn).toNat % 64 + 2 ^ (iF3 insn % 4)) (hm : (t.hart h).trapsToM 4 false) :
    ∃ u, exec (.hartLoad h) s = .next u ∧ t.tookTrap u h 4 (t.rx h (iRs1 insn) + immI insn).toNat false := by
  have hb : t.xLoad h insn ((t.hart h).pc + BitVec.ofNat 64 n) = .trap 4 (t.rx h (iRs1 insn) + immI insn).toNat t := by
    unfold State.xLoad
    dsimp only
    rw [if_neg h7, hread_misaligned hal]
    rfl
  obtain ⟨u, hu, htrap, -⟩ := row_traps hat (iclass_load hop) nofun nofun ((if_pos hop).trans hb) hm
  exact ⟨u, hu, htrap⟩

theorem hartLoad_hbm (hop : insn % 128 = 0x03) (h7 : iF3 insn ≠ 7)
    (hal : (t.rx h (iRs1 insn) + immI insn).toNat % 64 + 2 ^ (iF3 insn % 4) ≤ 64) {pa : Nat} {t1 : State}
    (htr : t.translate h .r (t.rx h (iRs1 insn) + immI insn).toNat = .ok pa t1) (ha : t1.localAddr pa + 2 ^ (iF3 insn % 4) ≤ 0xC00000000)
    (hwf : Memory.wf t1.mem = true) (hp : t1.physStop h ((t1.hart h).eff .r) .r (t1.localAddr pa) (2 ^ (iF3 insn % 4)) = none) :
    ∃ u, exec (.hartLoad h) s = .next u ∧
      t1.retires u h ((t.hart h).pc + BitVec.ofNat 64 n) (iRd insn) (loadVal (iF3 insn) (t1.ld (t1.localAddr pa) (2 ^ (iF3 insn % 4)))) ∧
      ∀ k, u.byte k = t1.byte k := by
  obtain ⟨u, hu, hret⟩ := row_retires hat (iclass_load hop) nofun nofun ((if_pos hop).trans (xLoad_ok h7 (hread_hbm hal htr ha hp)))
  have hcache : ∀ f, f ∉ [Fld.regs, .sc] → f.same t1 (t1.hartCache h (t1.localAddr pa) false) := fun f hf => hartCache_same _ _ _ _ hf
  have hmem : (t1.hartCache h (t1.localAddr pa) false).mem = t1.mem := hcache .mem (by decide)
  have hall := (mem_wx (t1.hartCache h (t1.localAddr pa) false) h (iRd insn)
    (loadVal (iF3 insn) (t1.ld (t1.localAddr pa) (2 ^ (iF3 insn % 4))))).trans hmem
  refine ⟨u, hu, hret.retires (iRd_lt _) (hart_wx _ _ _ _) ?_, fun k => (hret.byte (by rw [hall]; exact hwf) k).trans (byte_congr hall k)⟩
  rw [hart_congr (hcache .harts (by decide))]
  exact sameRegs_refl _

/-- FLH, FLW and FLD box the bytes in the floating-point register. -/
theorem hartLoad_float (hop : insn % 128 = 0x07) (h3 : iF3 insn ∈ [1, 2, 3]) (hfs : (t.hart h).fs ≠ 0)
    (hal : (t.rx h (iRs1 insn) + immI insn).toNat % 64 + 2 ^ (iF3 insn % 4) ≤ 64) {pa : Nat} {t1 : State}
    (htr : t.translate h .r (t.rx h (iRs1 insn) + immI insn).toNat = .ok pa t1) (ha : t1.localAddr pa + 2 ^ (iF3 insn % 4) ≤ 0xC00000000)
    (hp : t1.physStop h ((t1.hart h).eff .r) .r (t1.localAddr pa) (2 ^ (iF3 insn % 4)) = none) :
    ∃ u, exec (.hartLoad h) s = .next u ∧ (u.hart h).pc = (t.hart h).pc + BitVec.ofNat 64 n ∧
      (u.hart h).rf (iRd insn) =
        BitVec.ofNat 64 (2 ^ 64 - 2 ^ (8 * 2 ^ (iF3 insn % 4)) + leNat (t1.ld (t1.localAddr pa) (2 ^ (iF3 insn % 4)))) ∧
      (u.hart h).x = (t1.hart h).x ∧ ∀ r, r < 32 → r ≠ iRd insn → (u.hart h).rf r = (t1.hart h).rf r := by
  have hlt : iF3 insn % 4 = iF3 insn ∧ iF3 insn ≠ 4 := by simp at h3; omega
  obtain ⟨h4, hne⟩ := hlt
  rw [h4] at hal ha hp ⊢
  have hno : insn % 128 ≠ 0x03 := by omega
  obtain ⟨u, hu, hret⟩ := row_retires hat (iclass_fload hop h3) nofun nofun ((if_neg hno).trans (xFload_ok hne hfs (hread_hbm hal htr ha hp)))
  have hcache := hart_congr (hartCache_same (f := .harts) t1 h (t1.localAddr pa) false (by decide)) h
  refine ⟨u, hu, ?_, ?_, ?_, fun r hr hne' => ?_⟩
  · rw [hret.hart, retired_pc]
  · rw [hret.hart, retired_rf, rf_wf _ _ _ (iRd_lt _) (iRd_lt _), if_pos rfl]
  · rw [hret.hart, retired_x, x_wf, hcache]
  · rw [hret.hart, retired_rf, rf_wf _ _ _ (iRd_lt _) hr, if_neg hne', hcache]

/-! ## Stores -/

theorem hartStore_misaligned (hop : insn % 128 = 0x23) (h3 : iF3 insn ≤ 3) (hwf : Memory.wf t.mem = true)
    (hal : 64 < (t.rx h (iRs1 insn) + immS insn).toNat % 64 + 2 ^ (iF3 insn % 4)) (hm : (t.hart h).trapsToM 6 false) :
    ∃ u, exec (.hartStore h) s = .next u ∧ t.tookTrap u h 6 (t.rx h (iRs1 insn) + immS insn).toNat false ∧ ∀ k, u.byte k = t.byte k := by
  rw [Nat.mod_eq_of_lt (by omega : iF3 insn < 4)] at hal
  have hb : t.xStore h insn ((t.hart h).pc + BitVec.ofNat 64 n) = .trap 6 (t.rx h (iRs1 insn) + immS insn).toNat t := by
    unfold State.xStore
    dsimp only
    rw [if_neg (by omega), hwrite_misaligned (by rwa [length_toLe])]
    rfl
  obtain ⟨u, hu, htrap, hbyte⟩ := row_traps hat (iclass_store hop) nofun nofun ((if_pos hop).trans hb) hm
  exact ⟨u, hu, htrap, hbyte hwf⟩

omit hat in
/-- What a store of a number at the point of coherence leaves once it has retired. -/
theorem stored_of_retired {t1 u : State} {nx : DWord} {a k v : Nat} (hwf : Memory.wf t1.mem = true)
    (hret : (t1.atomWrite h a (toLe k v)).RetiredTo u h nx) : t1.retires u h nx 0 0 ∧ t1.storedNat u a k (v % 2 ^ (8 * k)) := by
  have hmem := mem_atomWrite t1 h a (toLe k v)
  exact ⟨hret.retires_none (sameRegs_atomWrite _ _ _ _ _),
    storedNat_toLe hmem (hret.byte (by rw [hmem]; exact memStore_wf _ _ hwf))⟩

theorem hartStore_hbm (hop : insn % 128 = 0x23) (h3 : iF3 insn ≤ 3)
    (hal : (t.rx h (iRs1 insn) + immS insn).toNat % 64 + 2 ^ (iF3 insn % 4) ≤ 64) {pa : Nat} {t1 : State}
    (htr : t.translate h .w (t.rx h (iRs1 insn) + immS insn).toNat = .ok pa t1) (ha : t1.localAddr pa + 2 ^ (iF3 insn % 4) ≤ 0xC00000000)
    (hwf : Memory.wf t1.mem = true) (hp : t1.physStop h ((t1.hart h).eff .w) .w (t1.localAddr pa) (2 ^ (iF3 insn % 4)) = none) :
    ∃ u, exec (.hartStore h) s = .next u ∧ t1.retires u h ((t.hart h).pc + BitVec.ofNat 64 n) 0 0 ∧
      t1.storedNat u (t1.localAddr pa) (2 ^ (iF3 insn % 4)) ((t.rx h (iRs2 insn)).toNat % 2 ^ (8 * 2 ^ (iF3 insn % 4))) := by
  rw [Nat.mod_eq_of_lt (by omega : iF3 insn < 4)] at hal ha hp ⊢
  have hw := hwrite_hbm (b := toLe (2 ^ iF3 insn) (t.rx h (iRs2 insn)).toNat) (by rwa [length_toLe])
    (by rw [length_toLe]; exact Nat.two_pow_pos _) htr (by rwa [length_toLe]) (by rwa [length_toLe])
  obtain ⟨u, hu, hret⟩ := row_retires hat (iclass_store hop) nofun nofun ((if_pos hop).trans (xStore_ok h3 hw))
  exact ⟨u, hu, stored_of_retired hwf hret⟩

theorem hartStore_float (hop : insn % 128 = 0x27) (h3 : iF3 insn ∈ [1, 2, 3]) (hfs : (t.hart h).fs ≠ 0)
    (hal : (t.rx h (iRs1 insn) + immS insn).toNat % 64 + 2 ^ (iF3 insn % 4) ≤ 64) {pa : Nat} {t1 : State}
    (htr : t.translate h .w (t.rx h (iRs1 insn) + immS insn).toNat = .ok pa t1) (ha : t1.localAddr pa + 2 ^ (iF3 insn % 4) ≤ 0xC00000000)
    (hwf : Memory.wf t1.mem = true) (hp : t1.physStop h ((t1.hart h).eff .w) .w (t1.localAddr pa) (2 ^ (iF3 insn % 4)) = none) :
    ∃ u, exec (.hartStore h) s = .next u ∧ t1.retires u h ((t.hart h).pc + BitVec.ofNat 64 n) 0 0 ∧
      t1.storedNat u (t1.localAddr pa) (2 ^ (iF3 insn % 4)) (((t.hart h).rf (iRs2 insn)).toNat % 2 ^ (8 * 2 ^ (iF3 insn % 4))) := by
  have hlt : iF3 insn % 4 = iF3 insn ∧ iF3 insn ≠ 4 := by simp at h3; omega
  obtain ⟨h4, hne⟩ := hlt
  rw [h4] at hal ha hp ⊢
  have hno : insn % 128 ≠ 0x23 := by omega
  have hw := hwrite_hbm (b := toLe (2 ^ iF3 insn) ((t.hart h).rf (iRs2 insn)).toNat) (by rwa [length_toLe])
    (by rw [length_toLe]; exact Nat.two_pow_pos _) htr (by rwa [length_toLe]) (by rwa [length_toLe])
  obtain ⟨u, hu, hret⟩ := row_retires hat (iclass_fstore hop h3) nofun nofun ((if_neg hno).trans (xFstore_ok hne hfs hw))
  exact ⟨u, hu, stored_of_retired hwf hret⟩

end
end Sys2Proof.Machine
end

section
/-! SUPPORT. Atomics and fences of a hart, and the statement about its accesses (R261, R262, R267, R269, R270). -/
namespace Sys2Proof.Machine

/-! ## AMO (R270) -/

/-- Whether an AMO exists does not depend on its operands. -/
theorem amoOp_exists {f5 n m r v : Nat} (hv : amoOp f5 n m r = some v) : (amoOp f5 n 0 0).isNone = false := by
  unfold amoOp at hv
  dsimp only at hv
  split at hv
  all_goals first | rfl | exact nomatch hv

/-- Its result fits the width of its operands. -/
theorem amoOp_lt {f5 n m r v : Nat} (hm : m < 2 ^ (8 * n)) (hr : r < 2 ^ (8 * n)) (hv : amoOp f5 n m r = some v) : v < 2 ^ (8 * n) := by
  unfold amoOp at hv
  dsimp only at hv
  split at hv <;> simp only [Option.some.injEq, reduceCtorEq] at hv <;> subst hv
  · exact hr
  · exact Nat.mod_lt _ (Nat.two_pow_pos _)
  · exact Nat.xor_lt_two_pow hm hr
  · exact Nat.and_lt_two_pow _ hr
  · exact Nat.or_lt_two_pow hm hr
  · split <;> assumption
  · split <;> assumption
  · exact (Nat.min_le_left _ _).trans_lt hm
  · exact Nat.max_lt.mpr ⟨hm, hr⟩

theorem leNat_ld_lt (s : State) (a n : Nat) : leNat (s.ld a n) < 2 ^ (8 * n) := by
  have hlt := leNat_lt (s.ld a n)
  rwa [length_ld, show (256 : Nat) = 2 ^ 8 from rfl, ← Nat.pow_mul] at hlt

section
variable {s t : State} {h : Fin 49152} {insn n : Nat} (hat : s.hartAt h insn n t) (hop : insn % 128 = 0x2F) (hn : atomBytes insn ≠ 0)
include hat hop hn

theorem amo_stores (h2 : nbits insn 31 27 ≠ 2) (h3 : nbits insn 31 27 ≠ 3) {v a : Nat} {t1 : State}
    (ha : t.atomAddr h .w (t.rx h (iRs1 insn)).toNat (atomBytes insn) = .ok a t1) (hwf : Memory.wf t1.mem = true)
    (hv : amoOp (nbits insn 31 27) (atomBytes insn) (leNat (t1.ld a (atomBytes insn))) ((t.rx h (iRs2 insn)).toNat % 2 ^ (8 * atomBytes insn)) = some v) :
    ∃ u, exec (.amo h) s = .next u ∧ t1.retires u h ((t.hart h).pc + BitVec.ofNat 64 n) (iRd insn)
        (sext64 (8 * atomBytes insn) (leNat (t1.ld a (atomBytes insn)))) ∧ t1.storedNat u a (atomBytes insn) v := by
  have hb : ∀ nx, t.xAmo h insn nx = .ok (some nx) ((t1.atomWrite h a (toLe (atomBytes insn) v)).wx h (iRd insn)
      (sext64 (8 * atomBytes insn) (leNat (t1.ld a (atomBytes insn))))) := by
    intro nx
    unfold State.xAmo
    dsimp only
    rw [if_neg (by rw [amoOp_exists hv]; exact not_or.mpr ⟨hn, Bool.false_ne_true⟩), ha]
    show MR.ok _ _ = _
    rw [hv]
    rfl
  obtain ⟨u, hu, hret⟩ := row_retires hat (iclass_amo hop h2 h3) nofun nofun (hb _)
  have hmem := mem_atomWrite t1 h a (toLe (atomBytes insn) v)
  have hst := storedNat_toLe (u := u) hmem fun x => (hret.byte (by rw [mem_wx, hmem]; exact memStore_wf _ _ hwf) x).trans (byte_congr (mem_wx _ _ _ _) x)
  rw [Nat.mod_eq_of_lt (amoOp_lt (leNat_ld_lt _ _ _) (Nat.mod_lt _ (Nat.two_pow_pos _)) hv)] at hst
  exact ⟨u, hu, hret.retires (iRd_lt _) (hart_wx _ _ _ _) (sameRegs_atomWrite _ _ _ _ _), hst⟩

theorem amo_misaligned (h2 : nbits insn 31 27 ≠ 2) (h3 : nbits insn 31 27 ≠ 3) (he : (amoOp (nbits insn 31 27) (atomBytes insn) 0 0).isSome = true)
    (hal : (t.rx h (iRs1 insn)).toNat % atomBytes insn ≠ 0) (hm : (t.hart h).trapsToM 6 false) (hwf : Memory.wf t.mem = true) :
    ∃ u, exec (.amo h) s = .next u ∧ t.tookTrap u h 6 (t.rx h (iRs1 insn)).toNat false ∧ ∀ k, u.byte k = t.byte k := by
  have hb : ∀ nx, t.xAmo h insn nx = .trap 6 (t.rx h (iRs1 insn)).toNat t := by
    intro nx
    unfold State.xAmo
    dsimp only
    rw [if_neg (not_or.mpr ⟨hn, fun e => absurd he (by rw [Option.isNone_iff_eq_none.mp e]; exact Bool.false_ne_true)⟩), State.atomAddr, if_pos hal]
    rfl
  obtain ⟨u, hu, htrap, hbyte⟩ := row_traps hat (iclass_amo hop h2 h3) nofun nofun (hb _) hm
  exact ⟨u, hu, htrap, hbyte hwf⟩

/-! ## LR and SC (R270) -/

theorem lr_reserves (h2 : nbits insn 31 27 = 2) (hrs2 : iRs2 insn = 0) {a : Nat} {t1 : State}
    (ha : t.atomAddr h .r (t.rx h (iRs1 insn)).toNat (atomBytes insn) = .ok a t1) (hwf : Memory.wf t1.mem = true) :
    ∃ u, exec (.lr h) s = .next u ∧ t1.retires u h ((t.hart h).pc + BitVec.ofNat 64 n) (iRd insn)
        (sext64 (8 * atomBytes insn) (leNat (t1.ld a (atomBytes insn)))) ∧ (u.hart h).resv = some (a / 64) ∧ ∀ k, u.byte k = t1.byte k := by
  have hcache : ∀ f, f ∉ [Fld.regs, .sc] → f.same t1 (t1.hartCache h a false) := fun f hf => hartCache_same _ _ _ _ hf
  have hmem : (t1.hartCache h a false).mem = t1.mem := hcache .mem (by decide)
  have hb : ∀ nx, t.xLr h insn nx = .ok (some nx) (((t1.hartCache h a false).updHart h (fun x => { x with resv := some (a / 64) })).wx h (iRd insn)
      (sext64 (8 * atomBytes insn) (leNat (t1.ld a (atomBytes insn))))) := by
    intro nx
    unfold State.xLr
    dsimp only
    rw [if_neg (not_or.mpr ⟨hn, not_not_intro hrs2⟩), ha, ← ld_congr (hcache .mem (by decide))]
    rfl
  obtain ⟨u, hu, hret⟩ := row_retires hat (iclass_lr hop h2) nofun nofun (hb _)
  have hall := (mem_wx ((t1.hartCache h a false).updHart h (fun x => { x with resv := some (a / 64) })) h (iRd insn)
    (sext64 (8 * atomBytes insn) (leNat (t1.ld a (atomBytes insn))))).trans ((mem_updHart _ _ _).trans hmem)
  refine ⟨u, hu, hret.retires (iRd_lt _) (hart_wx _ _ _ _) ?_, ?_, fun k => (hret.byte (by rw [hall]; exact hwf) k).trans (byte_congr hall k)⟩
  · rw [hart_updHart_same, hart_congr (hcache .harts (by decide))]
    exact ⟨rfl, rfl, rfl, rfl⟩
  · rw [hret.hart, retired_resv, hart_wx, wx_resv, hart_updHart_same]

/-- SC while the reservation of its block stands. -/
theorem sc_stores (h3 : nbits insn 31 27 = 3) {a : Nat} {t1 : State}
    (ha : t.atomAddr h .w (t.rx h (iRs1 insn)).toNat (atomBytes insn) = .ok a t1) (hwf : Memory.wf t1.mem = true)
    (hr : (t1.hart h).resv = some (a / 64)) :
    ∃ u, exec (.sc h) s = .next u ∧ t1.retires u h ((t.hart h).pc + BitVec.ofNat 64 n) (iRd insn) 0 ∧ (u.hart h).resv = none ∧
      t1.storedNat u a (atomBytes insn) ((t.rx h (iRs2 insn)).toNat % 2 ^ (8 * atomBytes insn)) := by
  have hb : ∀ nx, t.xSc h insn nx = .ok (some nx) (((t1.updHart h (fun x => { x with resv := none })).atomWrite h a
      (toLe (atomBytes insn) (t.rx h (iRs2 insn)).toNat)).wx h (iRd insn) 0) := by
    intro nx
    unfold State.xSc
    dsimp only
    rw [if_neg hn, ha]
    show MR.ok _ _ = _
    rw [hr, beq_self_eq_true]
    rfl
  obtain ⟨u, hu, hret⟩ := row_retires hat (iclass_sc hop h3) nofun nofun (hb _)
  have hmem := mem_atomWrite (t1.updHart h (fun x => { x with resv := none })) h a (toLe (atomBytes insn) (t.rx h (iRs2 insn)).toNat)
  rw [mem_updHart] at hmem
  have hbyte : ∀ x, u.byte x = State.byte _ x := fun x =>
    (hret.byte (by rw [mem_wx, hmem]; exact memStore_wf _ _ hwf) x).trans (byte_congr (mem_wx _ _ _ _) x)
  refine ⟨u, hu, hret.retires (iRd_lt _) (hart_wx _ _ _ _) (sameRegs_trans ?_ (sameRegs_atomWrite _ _ _ _ _)), ?_, storedNat_toLe hmem hbyte⟩
  · rw [hart_updHart_same]
    exact ⟨rfl, rfl, rfl, rfl⟩
  · rw [hret.hart, retired_resv, hart_wx, wx_resv]
    exact resv_atomWrite (by rw [hart_updHart_same]) _ _ _

theorem sc_fails (h3 : nbits insn 31 27 = 3) {a : Nat} {t1 : State}
    (ha : t.atomAddr h .w (t.rx h (iRs1 insn)).toNat (atomBytes insn) = .ok a t1) (hwf : Memory.wf t1.mem = true)
    (hr : (t1.hart h).resv ≠ some (a / 64)) :
    ∃ u, exec (.sc h) s = .next u ∧ t1.retires u h ((t.hart h).pc + BitVec.ofNat 64 n) (iRd insn) 1 ∧ (u.hart h).resv = none ∧
      ∀ k, u.byte k = t1.byte k := by
  have hb : ∀ nx, t.xSc h insn nx = .ok (some nx) ((t1.updHart h (fun x => { x with resv := none })).wx h (iRd insn) 1) := by
    intro nx
    unfold State.xSc
    dsimp only
    rw [if_neg hn, ha]
    show MR.ok _ _ = _
    rw [beq_eq_false_iff_ne.mpr hr]
    rfl
  obtain ⟨u, hu, hret⟩ := row_retires hat (iclass_sc hop h3) nofun nofun (hb _)
  refine ⟨u, hu, hret.retires (iRd_lt _) (hart_wx _ _ _ _) ?_, ?_, hret.byte hwf⟩
  · rw [hart_updHart_same]
    exact ⟨rfl, rfl, rfl, rfl⟩
  · rw [hret.hart, retired_resv, hart_wx, wx_resv, hart_updHart_same]
end

/-! ## Fences (R267, R269) -/

section
variable {s t : State} {h : Fin 49152} {insn n : Nat} (hat : s.hartAt h insn n t) (hwf : Memory.wf t.mem = true)
include hat hwf

/-- An instruction of a row that only goes on changes nothing. -/
theorem row_goesOn {k : IClass} (hk : t.iclass h insn = k) (hwrs : k ≠ .wrs) (hvs : k ≠ .vs)
    (hb : k.body h t insn ((t.hart h).pc + BitVec.ofNat 64 n) = .ok (some ((t.hart h).pc + BitVec.ofNat 64 n)) t) :
    ∃ u, exec (k.command h) s = .next u ∧ t.retires u h ((t.hart h).pc + BitVec.ofNat 64 n) 0 0 ∧ ∀ k, u.byte k = t.byte k := by
  obtain ⟨u, hu, hret⟩ := row_retires hat hk (fun e => absurd e hwrs) hvs hb
  exact ⟨u, hu, hret.retires_none (sameRegs_refl _), hret.byte hwf⟩

variable (hop : insn % 128 = 0x0B) (h0 : iF3 insn = 0) (hrd : iRd insn = 0) (hrs1 : iRs1 insn = 0) (hscope : nbits insn 31 30 ≠ 3)
  (hres : nbits insn 29 28 = 0)
include hop h0 hrd hrs1 hscope hres

theorem xfence_goesOn (hgo : nbits insn 31 30 ≠ 2 ∨ nbits insn 27 24 = 0 ∨ nbits insn 23 20 = 0 ∨ t.kal.peers.any (isStoreOf h) = false) :
    ∃ u, exec (.xfence h) s = .next u ∧ t.retires u h ((t.hart h).pc + BitVec.ofNat 64 n) 0 0 ∧ ∀ k, u.byte k = t.byte k := by
  refine row_goesOn hat hwf (iclass_xfence hop h0) nofun nofun ?_
  show t.xXfence h insn _ = _
  unfold State.xXfence
  dsimp only
  rw [if_neg (by simp [hrd, hrs1, hscope, hres])]
  split
  · rfl
  next hwait =>
    simp only [not_or] at hwait
    obtain ⟨hpred, hsucc, h2⟩ := hwait
    have hno : t.kal.peers.any (isStoreOf h) = false := ((hgo.resolve_left h2).resolve_left hpred).resolve_left hsucc
    rw [hno, Bool.and_false]
    rfl

/-- An XFENCE of kaleidoscope scope waits for the stores to peers that its predecessors name. -/
theorem xfence_waits (h2 : nbits insn 31 30 = 2) (hsucc : nbits insn 23 20 ≠ 0)
    (hpred : (nbits insn 27 24).testBit 0 = true ∨ (nbits insn 27 24).testBit 2 = true) (hst : t.kal.peers.any (isStoreOf h) = true) :
    ∃ u, exec (.xfence h) s = .next u ∧ u.harts = t.harts ∧ ∀ k, u.byte k = t.byte k := by
  have hp0 : nbits insn 27 24 ≠ 0 := by
    intro e
    rw [e] at hpred
    simp at hpred
  have hb : ∀ nx, t.xXfence h insn nx = .wait none t := by
    intro nx
    unfold State.xXfence
    dsimp only
    rw [if_neg (by simp [hrd, hrs1, hscope, hres]), if_neg (by simp [hp0, hsucc, h2]), hst, if_pos (by simpa using hpred)]
  obtain ⟨u, hu, htakes⟩ := row_waits hat (iclass_xfence hop h0) nofun nofun (hb _)
  exact ⟨u, hu, htakes.harts, htakes.byte hwf⟩
end

/-! ## The statement -/

/-- Settles O56: each instruction by its row, whose body is one access; a store and an AMO by the bytes that the write at the point of
coherence leaves. -/
theorem hartLoadsStoresAndAtomics : Obligations.HartLoadsStoresAndAtomics := by
  unfold Obligations.HartLoadsStoresAndAtomics
  intro h insn n s t hat hwf
  refine ⟨fun hop h7 => ⟨?misaligned, ?load⟩, ?fload, fun hop h3 => ⟨?smisaligned, ?store⟩, ?fstore, fun hop hn => ⟨?amo, ?amisaligned, ?lr, ?sc⟩,
    ?fence, ?fencei, fun hop h0 hrd hrs1 hscope hres => ⟨?xgo, ?xwait⟩⟩
  case misaligned => exact hartLoad_misaligned hat hop h7
  case load => exact fun hal pa t1 htr ha hw hp => hartLoad_hbm hat hop h7 hal htr ha hw hp
  case fload => exact fun hop h3 hfs hal pa t1 htr ha hp => hartLoad_float hat hop h3 hfs hal htr ha hp
  case smisaligned => exact hartStore_misaligned hat hop h3 hwf
  case store => exact fun hal pa t1 htr ha hw hp => hartStore_hbm hat hop h3 hal htr ha hw hp
  case fstore => exact fun hop h3 hfs hal pa t1 htr ha hw hp => hartStore_float hat hop h3 hfs hal htr ha hw hp
  case amo => exact fun h2 h3 v a t1 ha hw hv => amo_stores hat hop hn h2 h3 ha hw hv
  case amisaligned => exact fun h2 h3 he hal hm => amo_misaligned hat hop hn h2 h3 he hal hm hwf
  case lr => exact fun h2 hrs2 a t1 ha hw => lr_reserves hat hop hn h2 hrs2 ha hw
  case sc => exact fun h3 a t1 ha hw => ⟨sc_stores hat hop hn h3 ha hw, sc_fails hat hop hn h3 ha hw⟩
  case fence => exact fun hop h0 => row_goesOn hat hwf (iclass_fence hop h0) nofun nofun rfl
  case fencei => exact fun hop h1 => row_goesOn hat hwf (iclass_fencei hop h1) nofun nofun rfl
  case xgo => exact xfence_goesOn hat hwf hop h0 hrd hrs1 hscope hres
  case xwait => exact xfence_waits hat hwf hop h0 hrd hrs1 hscope hres

end Sys2Proof.Machine
end

section
/-! SUPPORT. A hart's fetch in machine mode, its arithmetic, jumps and branches, its traps and returns, and the interrupts it takes or waits for
(R255, R259, R263, R276). -/
namespace Sys2Proof.Machine

/-! ## The fetch (R263) -/

theorem woken_running {s : State} {h : Nat} (hr : (s.hart h).run = .running) : s.woken h = s := by
  have hw : s.wakes h = false := by
    unfold State.wakes
    dsimp only
    rw [hr]
  unfold State.woken
  rw [hw]
  rfl

theorem localAddr_hbm (s : State) {a : Nat} (ha : a ≤ 0xC00000000) : s.localAddr a = a := by
  have hno : s.ownWindow a = false := by
    unfold State.ownWindow peerBase
    have hlt : ¬ 0x400000000000 ≤ a := by omega
    simp [hlt]
  unfold State.localAddr
  rw [hno]
  rfl

section
variable {s : State} {h : Nat} (hmode : (s.hart h).mode = .m)
include hmode

/-- In machine mode a fetch is checked as machine mode's and not translated. -/
theorem eff_fetch : (s.hart h).eff .x = .m := by
  unfold Hart.eff
  rw [if_neg (fun e => e.1 rfl), hmode]

theorem translate_fetch (va : Nat) : s.translate h .x va = .ok va s := if_pos (.inl (eff_fetch hmode))

/-- The boot hart of a core that no partition owns reads HBM past the cache. -/
theorem hread_fetch (hown : s.coreOwner (h / 512) = none) {va : Nat} (hal : va % 64 + 2 ≤ 64) (ha : va + 2 ≤ 0xC00000000)
    (hp : s.physStop h .m .x va 2 = none) : s.hread h .x va 2 = .ok (s.ld va 2) s := by
  have hloc := localAddr_hbm s (a := va) (by omega)
  rw [hread_hbm hal (translate_fetch hmode va) (by rw [hloc]; exact ha) (by rw [hloc, eff_fetch hmode]; exact hp), hloc]
  unfold State.hartCache
  rw [hown]
end

/-- The two halves of a 32-bit instruction. -/
theorem leNat_halves (s : State) (a : Nat) : leNat (s.ld a 2) + 65536 * leNat (s.ld (a + 2) 2) = leNat (s.ld a 4) := by
  unfold State.ld
  rw [memBytes_add s.mem a 2 2, leNat_append, length_memBytes]
  rfl

theorem hartAt_machine {h : Fin 49152} {s : State} (hrun : (s.hart h).run = .running) (hirq : s.irq h = none) (hbusy : s.peerBusy h = false)
    (hmode : (s.hart h).mode = .m) (hown : s.coreOwner (h / 512) = none) (h4 : (s.hart h).pc.toNat % 4 = 0)
    (hhbm : (s.hart h).pc.toNat + 4 ≤ 0xC00000000) (hp : s.physStop h .m .x (s.hart h).pc.toNat 2 = none)
    (hp2 : s.physStop h .m .x ((s.hart h).pc.toNat + 2) 2 = none) (h32 : leNat (s.ld (s.hart h).pc.toNat 2) % 4 = 3) :
    s.hartAt h (leNat (s.ld (s.hart h).pc.toNat 4)) 4 s := by
  have hfetch : s.hfetch h = .ok (leNat (s.ld (s.hart h).pc.toNat 4), 4) s := by
    unfold State.hfetch
    dsimp only
    rw [hread_fetch hmode hown (by omega) (by omega) hp]
    show (if _ then _ else _) = _
    rw [if_pos h32, Nat.mod_eq_of_lt (by omega), hread_fetch hmode hown (by omega) (by omega) hp2]
    show MR.ok (_, 4) s = _
    rw [leNat_halves]
  have hissues : (s.hart h).issues = true := by
    unfold Hart.issues
    rw [hrun]
    rfl
  unfold State.hartAt State.issue
  rw [woken_running hrun]
  dsimp only
  rw [hissues, if_neg (by decide), if_pos ⟨hrun, hbusy⟩, hirq, hfetch]

/-! ## Arithmetic, jumps and branches (R259) -/

/-- The opcodes of arithmetic, upper immediates, jumps and branches. -/
def arithOps : List Nat := [0x33, 0x3B, 0x13, 0x1B, 0x37, 0x17, 0x6F, 0x67, 0x63]

section
variable {s t : State} {h : Fin 49152} {insn n : Nat}

theorem iclass_arith (hop : insn % 128 ∈ arithOps) : t.iclass h insn = .instr := by
  simp only [arithOps, List.mem_cons, List.not_mem_nil, or_false] at hop
  rcases hop with e | e | e | e | e | e | e | e | e <;> simp only [State.iclass, e]

theorem xOther_arith (hop : insn % 128 ∈ arithOps) (nx : DWord) : t.xOther h insn nx = t.xArith h insn nx := by
  simp only [arithOps, List.mem_cons, List.not_mem_nil, or_false] at hop
  unfold State.xOther
  dsimp only
  rcases hop with e | e | e | e | e | e | e | e | e <;> simp [e]

theorem iclass_system (hop : insn % 128 = 0x73) (h0 : iF3 insn = 0) (hno : ¬ (insn = 0x00D00073 ∨ insn = 0x01D00073)) :
    t.iclass h insn = .instr := by
  simp [State.iclass, hop, h0, hno]

theorem xOther_system (hop : insn % 128 = 0x73) (h0 : iF3 insn = 0) (nx : DWord) : t.xOther h insn nx = t.xSystem h insn nx := by
  simp [State.xOther, hop, h0]

theorem xSystem_ecall (nx : DWord) : t.xSystem h 0x00000073 nx = .trap (8 + (t.hart h).mode.num) 0 t := by
  unfold State.xSystem
  dsimp only
  rw [if_pos rfl]

theorem xSystem_ebreak (nx : DWord) : t.xSystem h 0x00100073 nx = .trap 3 (t.hart h).pc.toNat t := by
  unfold State.xSystem
  dsimp only
  rw [if_neg (by decide), if_pos rfl]

theorem xSystem_mret (nx : DWord) : t.xSystem h 0x30200073 nx =
    if (t.hart h).mode ≠ .m then illegal t 0x30200073 else .ok (some ((t.hart h).cs 0x341)) (t.mret h) := by
  unfold State.xSystem
  dsimp only
  rw [if_neg (by decide), if_neg (by decide), if_pos rfl]

theorem xSystem_wfi (nx : DWord) : t.xSystem h 0x10500073 nx = t.xWfi h 0x10500073 nx := by
  unfold State.xSystem
  dsimp only
  rw [if_neg (by decide), if_neg (by decide), if_neg (by decide), if_neg (by decide), if_pos rfl]

variable (hat : s.hartAt h insn n t)
include hat

/-- An instruction of arithmetic that gives rd a result and goes on at `nx` is counted, and changes no byte. -/
theorem arith_retires (hwf : Memory.wf t.mem = true) (hop : insn % 128 ∈ arithOps) {rd : Nat} (hrd : rd < 32) {nx w : DWord}
    (hb : t.xArith h insn ((t.hart h).pc + BitVec.ofNat 64 n) = .ok (some nx) (t.wx h rd w)) :
    ∃ u, exec (.hartInstruction h) s = .next u ∧ t.retires u h nx rd w ∧
      u.rd (Reg.CORE_CNT_INSTR (h / 512)) = t.rd (Reg.CORE_CNT_INSTR (h / 512)) + 1 ∧ ∀ k, u.byte k = t.byte k := by
  obtain ⟨u, hu, hret⟩ := row_retires hat (iclass_arith hop) nofun nofun ((xOther_arith hop _).trans hb)
  refine ⟨u, hu, hret.retires hrd (hart_wx _ _ _ _) (sameRegs_refl _), ?_, fun k => ?_⟩
  · rw [hret.rd, rd_bump_same, rd_congr (wx_same (f := .regs) _ _ _ _ (by decide))]
  · rw [hret.byte (by rw [mem_wx]; exact hwf), byte_congr (mem_wx _ _ _ _)]

/-- A branch that goes on at `nx`. -/
theorem branch_retires (hwf : Memory.wf t.mem = true) (hop : insn % 128 ∈ arithOps) {nx : DWord}
    (hb : t.xArith h insn ((t.hart h).pc + BitVec.ofNat 64 n) = .ok (some nx) t) :
    ∃ u, exec (.hartInstruction h) s = .next u ∧ t.retires u h nx 0 0 ∧
      u.rd (Reg.CORE_CNT_INSTR (h / 512)) = t.rd (Reg.CORE_CNT_INSTR (h / 512)) + 1 ∧ ∀ k, u.byte k = t.byte k := by
  obtain ⟨u, hu, hret⟩ := row_retires hat (iclass_arith hop) nofun nofun ((xOther_arith hop _).trans hb)
  exact ⟨u, hu, hret.retires_none (sameRegs_refl _), by rw [hret.rd, rd_bump_same], hret.byte hwf⟩

/-! ## Traps and returns (R276) -/

/-- A body of this row that traps into machine mode takes the trap. -/
theorem instr_traps (hk : t.iclass h insn = .instr) {c tv : Nat}
    (hb : t.xOther h insn ((t.hart h).pc + BitVec.ofNat 64 n) = .trap c tv t) (hm : (t.hart h).trapsToM c false) :
    ∃ u, exec (.hartInstruction h) s = .next u ∧ t.tookTrap u h c tv false := by
  obtain ⟨u, hu, htrap, -⟩ := row_traps hat hk nofun nofun hb hm
  exact ⟨u, hu, htrap⟩

theorem illegal_traps (hm : (t.hart h).trapsToM 2 false)
    (hill : (insn % 128 = 0x33 ∧ opR (iF7 insn) (iF3 insn) (t.rx h (iRs1 insn)) (t.rx h (iRs2 insn)) = none) ∨
      (insn % 128 = 0x13 ∧ opI insn (t.rx h (iRs1 insn)) = none) ∨ (insn = 0x30200073 ∧ (t.hart h).mode ≠ .m)) :
    ∃ u, exec (.hartInstruction h) s = .next u ∧ t.tookTrap u h 2 insn false := by
  rcases hill with ⟨hop, hnone⟩ | ⟨hop, hnone⟩ | ⟨rfl, hmode⟩
  · have hmem : insn % 128 ∈ arithOps := by rw [hop]; decide
    refine instr_traps hat (iclass_arith hmem) ((xOther_arith hmem _).trans ?_) hm
    unfold State.xArith
    simp only [hop, hnone]
    rfl
  · have hmem : insn % 128 ∈ arithOps := by rw [hop]; decide
    refine instr_traps hat (iclass_arith hmem) ((xOther_arith hmem _).trans ?_) hm
    unfold State.xArith
    simp only [hop, hnone]
    rfl
  · refine instr_traps hat (iclass_system rfl rfl (by decide)) ((xOther_system rfl rfl _).trans ?_) hm
    exact (xSystem_mret _).trans (if_pos hmode)
end

/-- The CSRs of a hart that has returned from a trap into machine mode, but for MPRV. -/
def Hart.mretCsrs (x : Hart) : Hart := ((x.putCs 0x300 3 3 (x.csf 0x300 7 7)).putCs 0x300 7 7 1).putCs 0x300 12 11 0

/-- A hart that has returned from a trap into machine mode. -/
def Hart.returned (x : Hart) : Hart :=
  let y := if privOf (x.csf 0x300 12 11) = .m then x.mretCsrs else x.mretCsrs.putCs 0x300 17 17 0
  { y with mode := privOf (x.csf 0x300 12 11), pc := x.cs 0x341 }

theorem hart_mret (s : State) (h : Nat) : (s.mret h).hart h = (s.hart h).returned := by
  unfold State.mret
  rw [hart_updHart_same]
  rfl

section
variable (x : Hart)

theorem mretCsrs_x : x.mretCsrs.x = x.x := by simp only [Hart.mretCsrs, putCs_x]

theorem csf_mretCsrs : x.mretCsrs.csf 0x300 3 3 = x.csf 0x300 7 7 ∧ x.mretCsrs.csf 0x300 7 7 = 1 ∧ x.mretCsrs.csf 0x300 12 11 = 0 := by
  unfold Hart.mretCsrs
  refine ⟨?_, ?_, ?_⟩
  · rw [csf_putCs_ne _ _ _ (by decide) (by decide) (by decide), csf_putCs_ne _ _ _ (by decide) (by decide) (by decide),
      csf_putCs _ _ _ (by decide) (by decide)]
    exact Nat.mod_eq_of_lt (csf_lt x 0x300 7 7)
  · rw [csf_putCs_ne _ _ _ (by decide) (by decide) (by decide), csf_putCs _ _ _ (by decide) (by decide)]
    rfl
  · rw [csf_putCs _ _ _ (by decide) (by decide)]
    rfl

theorem returned_x : x.returned.x = x.x := by
  unfold Hart.returned
  dsimp only
  split
  · exact mretCsrs_x x
  · rw [putCs_x, mretCsrs_x]

/-- MPRV, the field that a return to another mode clears, lies above the others. -/
theorem csf_returned {hi lo : Nat} (hhi : hi < 17) : x.returned.csf 0x300 hi lo = x.mretCsrs.csf 0x300 hi lo := by
  have hcsr : x.returned.csf 0x300 hi lo =
      (if privOf (x.csf 0x300 12 11) = .m then x.mretCsrs else x.mretCsrs.putCs 0x300 17 17 0).csf 0x300 hi lo := rfl
  rw [hcsr]
  split
  · rfl
  · exact csf_putCs_ne _ _ _ (by decide) (by omega) (.inl hhi)
end

section
variable {s t : State} {h : Fin 49152} {n : Nat}

theorem mret_returns (hat : s.hartAt h 0x30200073 n t) (hmode : (t.hart h).mode = .m) :
    ∃ u, exec (.hartInstruction h) s = .next u ∧ (u.hart h).pc = (t.hart h).cs 0x341 ∧ (u.hart h).mode = privOf ((t.hart h).csf 0x300 12 11) ∧
      (u.hart h).csf 0x300 3 3 = (t.hart h).csf 0x300 7 7 ∧ (u.hart h).csf 0x300 7 7 = 1 ∧ (u.hart h).csf 0x300 12 11 = 0 ∧
      (u.hart h).x = (t.hart h).x := by
  obtain ⟨u, hu, hret⟩ := row_retires hat (iclass_system rfl rfl (by decide)) nofun nofun
    ((xOther_system rfl rfl ((t.hart h).pc + BitVec.ofNat 64 n)).trans ((xSystem_mret _).trans (if_neg (not_not_intro hmode))))
  have hcsf : ∀ hi lo, hi < 17 → (u.hart h).csf 0x300 hi lo = (t.hart h).mretCsrs.csf 0x300 hi lo := fun hi lo hhi => by
    rw [hret.hart, retired_csf _ _ _ _ (by decide), hart_mret, csf_returned _ hhi]
  obtain ⟨hmie, hmpie, hmpp⟩ := csf_mretCsrs (t.hart h)
  refine ⟨u, hu, ?_, ?_, (hcsf _ _ (by decide)).trans hmie, (hcsf _ _ (by decide)).trans hmpie, (hcsf _ _ (by decide)).trans hmpp, ?_⟩
  · rw [hret.hart, retired_pc]
  · rw [hret.hart, retired_mode, hart_mret, Hart.returned]
  · rw [hret.hart, retired_x, hart_mret, returned_x]

/-! ## WFI (R255) -/

theorem wfi_waits (hat : s.hartAt h 0x10500073 n t) (hmode : (t.hart h).mode = .m) (hirq : t.irqs h = 0) :
    ∃ u, exec (.hartInstruction h) s = .next u ∧ t.retires u h ((t.hart h).pc + BitVec.ofNat 64 n) 0 0 ∧ (u.hart h).run = .wfi := by
  have hb : ∀ nx, t.xWfi h 0x10500073 nx = .ok (some nx) (t.updHart h (fun x => { x with run := .wfi })) := fun nx =>
    (if_neg (by rw [hmode]; simp)).trans (if_neg (not_not_intro hirq))
  obtain ⟨u, hu, hret⟩ := row_retires hat (iclass_system rfl rfl (by decide)) nofun nofun ((xOther_system rfl rfl _).trans ((xSystem_wfi _).trans (hb _)))
  refine ⟨u, hu, hret.retires_none ?_, ?_⟩
  · rw [hart_updHart_same]
    exact ⟨rfl, rfl, rfl, rfl⟩
  · rw [hret.hart, retired_run, hart_updHart_same]

theorem wfi_goesOn (hat : s.hartAt h 0x10500073 n t) (hmode : (t.hart h).mode = .m) (hirq : t.irqs h ≠ 0) :
    ∃ u, exec (.hartInstruction h) s = .next u ∧ t.retires u h ((t.hart h).pc + BitVec.ofNat 64 n) 0 0 ∧ (u.hart h).run = (t.hart h).run := by
  have hb : ∀ nx, t.xWfi h 0x10500073 nx = .ok (some nx) t := fun nx => (if_neg (by rw [hmode]; simp)).trans (if_pos hirq)
  obtain ⟨u, hu, hret⟩ := row_retires hat (iclass_system rfl rfl (by decide)) nofun nofun ((xOther_system rfl rfl _).trans ((xSystem_wfi _).trans (hb _)))
  exact ⟨u, hu, hret.retires_none (sameRegs_refl _), by rw [hret.hart, retired_run]⟩
end

/-! ## Interrupts, failed fetches and the timer (R276) -/

section
variable {h : Fin 49152} {s : State}

/-- The row of a hart's instruction takes over what it leaves. -/
theorem exec_hartInstruction {v : State} (hv : s.hartInstr h = v) : ∃ u, exec (.hartInstruction h) s = .next u ∧ v.RowTakes u :=
  ⟨s.taken (s.hartInstr h) IClass.instr.flds, rfl, hv ▸ rowTakes_taken s _ .instr⟩

theorem irq_taken {i : Nat} (hi : (s.woken h).issue h = .irq i) (hm : ((s.woken h).hart h).trapsToM i true) :
    ∃ u, exec (.hartInstruction h) s = .next u ∧ (s.woken h).tookTrap u h i 0 true := by
  obtain ⟨u, hu, htakes⟩ := exec_hartInstruction (s := s) (h := h) (v := (s.woken h).hartTrap h i 0 true) (by
    unfold State.hartInstr
    dsimp only
    rw [hi])
  exact ⟨u, hu, tookTrap_of_hart ((htakes.hart h).trans (hart_hartTrap 0 hm))⟩

theorem fetch_traps {c tv : Nat} {t : State} (hf : (s.woken h).issue h = .fetch (.trap c tv t)) (hm : (t.hart h).trapsToM c false) :
    ∃ u, exec (.hartInstruction h) s = .next u ∧ t.tookTrap u h c tv false := by
  obtain ⟨u, hu, htakes⟩ := exec_hartInstruction (s := s) (h := h) (v := (t.hartTrap h c tv false).dropAnswers h) (by
    unfold State.hartInstr
    dsimp only
    rw [hf])
  exact ⟨u, hu, tookTrap_of_hart ((htakes.hart h).trans ((hart_congr (dropAnswers_same _ _ (by decide)) h).trans (hart_hartTrap tv hm)))⟩

theorem noIssue_unchanged (hno : (s.woken h).issue h = .no) : ∃ u, exec (.hartInstruction h) s = .next u ∧ u.harts = s.harts ∧ u.regs = s.regs := by
  obtain ⟨u, hu, htakes⟩ := exec_hartInstruction (s := s) (h := h) (v := s) (by
    unfold State.hartInstr
    dsimp only
    rw [hno])
  exact ⟨u, hu, htakes.harts, htakes.regs⟩

/-- A hart that waits and goes on runs; another hart is as it was. -/
theorem hart_woken (s : State) (h : Nat) : (s.woken h).hart h = if s.wakes h then { s.hart h with run := .running } else s.hart h := by
  unfold State.woken
  split
  · exact hart_updHart_same _ _ _
  · rfl

theorem cs_woken (s : State) (h n : Nat) : ((s.woken h).hart h).cs n = (s.hart h).cs n := by
  rw [hart_woken]
  split <;> rfl

/-- MTIP is pending once the timebase has reached MTIMECMP. -/
theorem mip_timer {u : State} {h : Nat} (ht : ((u.hart h).cs 0x7C0).toNat ≤ u.now) : bit (u.mip h) 7 = true := by
  have hor : ∀ v : Nat, v.testBit 7 = true → bit (BitVec.ofNat 64 (if u.hevt.get 0 h ≠ 0 then v ||| 0x800 else v)) 7 = true := by
    intro v hv
    rw [bit, BitVec.getLsbD_ofNat]
    split
    · rw [Nat.testBit_or, hv]
      rfl
    · rw [hv]
      rfl
  unfold State.mip
  dsimp only
  rw [if_pos ht]
  refine hor _ ?_
  rw [Nat.testBit_or, show (0x80 : Nat).testBit 7 = true from rfl, Bool.or_true]

theorem mtimer_reached (ht : ((s.hart h).cs 0x7C0).toNat ≤ s.now) :
    ∃ u, exec (.mtimer h) s = .next u ∧ bit (u.mip h) 7 = true ∧
      ((s.hart h).run = .wfi → bit ((s.hart h).cs 0x304) 7 = true → (u.hart h).run = .running) := by
  have hrow : s.mtimer h = s.woken h := if_pos ht
  have hhart : ∀ k, (s.taken (s.woken h) [.harts]).hart k = (s.woken h).hart k := fun k => taken_hart _ _ (by decide) k
  refine ⟨s.taken (s.woken h) [.harts], congrArg (fun v => Host.Outcome.next (s.taken v [.harts])) hrow, mip_timer ?_, fun hwfi hen => ?_⟩
  · rw [hhart, cs_woken]
    exact ht
  · have hpend : s.irqs h ≠ 0 := by
      intro hz
      have hbit : bit (s.mip h &&& (s.hart h).cs 0x304) 7 = true := by rw [bit_and, mip_timer ht, hen]; rfl
      rw [show s.mip h &&& (s.hart h).cs 0x304 = 0 from BitVec.eq_of_toNat_eq hz] at hbit
      exact absurd hbit (by decide)
    have hwakes : s.wakes h = true := by
      unfold State.wakes
      dsimp only
      rw [hwfi]
      exact bne_iff_ne.mpr hpend
    rw [hhart, hart_woken, if_pos hwakes]

theorem mtimer_early (ht : s.now < ((s.hart h).cs 0x7C0).toNat) : ∃ u, exec (.mtimer h) s = .next u ∧ u.harts = s.harts :=
  ⟨s.taken s [.harts], congrArg (fun v => Host.Outcome.next (s.taken v [.harts])) (if_neg (Nat.not_le.mpr ht) : s.mtimer h = s), rfl⟩
end

/-! ## The statement -/

/-- Settles O55: the fetch by its two halves, each instruction by what its body answers, and the rest by what the hart does when it can issue. -/
theorem hartArithmeticTrapsAndReturns : Obligations.HartArithmeticTrapsAndReturns := by
  unfold Obligations.HartArithmeticTrapsAndReturns
  refine ⟨fun h s hrun hirq hbusy hmode hown h4 hhbm hp hp2 h32 => hartAt_machine hrun hirq hbusy hmode hown h4 hhbm hp hp2 h32, ?_,
    fun h s => ⟨fun i => irq_taken, fun c tv t => fetch_traps, noIssue_unchanged, mtimer_reached, mtimer_early⟩⟩
  intro h insn n s t hat hwf
  refine ⟨?results, fun hop => ?jal, fun hop h0 => ?jalr, fun taken hop hb => ?branch, illegal_traps hat, ?ecall, ?ebreak, ?mret, ?wfi, ?other⟩
  case results =>
    intro op r v hmem hop hr
    have harith : op ∈ arithOps ∧ t.xArith h insn ((t.hart h).pc + BitVec.ofNat 64 n) = t.xRes h insn ((t.hart h).pc + BitVec.ofNat 64 n) r := by
      simp only [List.mem_cons, List.not_mem_nil, or_false, Prod.mk.injEq] at hmem
      unfold State.xArith
      rcases hmem with ⟨rfl, rfl⟩ | ⟨rfl, rfl⟩ | ⟨rfl, rfl⟩ | ⟨rfl, rfl⟩ | ⟨rfl, rfl⟩ | ⟨rfl, rfl⟩ <;> exact ⟨by decide, by simp only [hop]⟩
    refine arith_retires hat hwf (by rw [hop]; exact harith.1) (iRd_lt insn) (harith.2.trans ?_)
    rw [hr]
    rfl
  case jal =>
    refine arith_retires hat hwf (by rw [hop]; decide) (iRd_lt insn) ?_
    simp only [State.xArith, hop]
  case jalr =>
    refine arith_retires hat hwf (by rw [hop]; decide) (iRd_lt insn) ?_
    simp only [State.xArith, hop]
    exact if_neg (not_not_intro h0)
  case branch =>
    refine branch_retires hat hwf (by rw [hop]; decide) ?_
    simp only [State.xArith, hop, hb]
  case ecall =>
    rintro rfl hm
    exact instr_traps hat (iclass_system rfl rfl (by decide)) ((xOther_system rfl rfl _).trans (xSystem_ecall _)) hm
  case ebreak =>
    rintro rfl hm
    exact instr_traps hat (iclass_system rfl rfl (by decide)) ((xOther_system rfl rfl _).trans (xSystem_ebreak _)) hm
  case mret =>
    rintro rfl hmode
    exact mret_returns hat hmode
  case wfi =>
    rintro rfl hmode
    exact ⟨wfi_waits hat hmode, wfi_goesOn hat hmode⟩
  case other =>
    intro nx' v hk hb
    obtain ⟨u, hu, hret⟩ := row_retires hat hk nofun nofun hb
    refine ⟨u, hu, ?_, ?_, ?_, ?_, fun k hk => ?_⟩
    · rw [hret.hart, retired_pc]
    · rw [hret.hart, retired_x]
    · rw [hret.hart, retired_f]
    · rw [hret.hart, retired_mode]
    · rw [hret.hart, retired_cs _ _ hk]

end Sys2Proof.Machine
end

section
/-! SUPPORT. The fabric's own CSRs, satp and MEVTQ, parking, and the waits of WRS (R256, R260, R262, R270, R275, R276). -/
namespace Sys2Proof.Machine

/-! ## CSR instructions -/

/-- The CSRs whose writes have a row of their own, with the row. -/
def rowCsrs : List (Nat × IClass) := [(0x800, .urg), (0x801, .peerr), (0x180, .satp)]

/-- A hart that a CSR instruction has left as `y`, with the register's old value in rd when the instruction reads it. -/
def Hart.csrRead (x : Hart) (insn : Nat) (y : Hart) : Hart := if csrReads insn then y.wx (iRd insn) (x.cs (nbits insn 31 20)) else y

section
variable {s t : State} {h : Fin 49152} {insn n : Nat}

theorem iclass_csr (hop : insn % 128 = 0x73) (h0 : iF3 insn ≠ 0) (h4 : iF3 insn ≠ 4) : t.iclass h insn = t.csrClass h insn := by
  have hno : ¬ (insn = 0x00D00073 ∨ insn = 0x01D00073) := by
    rintro (rfl | rfl) <;> exact h0 rfl
  simp only [State.iclass, hop]
  rw [if_neg hno, if_neg (by simp [h0, h4])]

theorem csrClass_row (hw : csrWrites insn = true) {k : IClass} (hc : (nbits insn 31 20, k) ∈ rowCsrs) : t.csrClass h insn = k := by
  simp only [rowCsrs, List.mem_cons, List.not_mem_nil, or_false, Prod.mk.injEq] at hc
  unfold State.csrClass
  rcases hc with ⟨e, rfl⟩ | ⟨e, rfl⟩ | ⟨e, rfl⟩ <;> simp [e, hw, csrURG]

theorem csrRead_row {c : Nat} {k : IClass} (hc : (c, k) ∈ rowCsrs) : t.csrRead h c = ((t.hart h).cs c, t) := by
  simp only [rowCsrs, List.mem_cons, List.not_mem_nil, or_false, Prod.mk.injEq] at hc
  rcases hc with ⟨rfl, -⟩ | ⟨rfl, -⟩ | ⟨rfl, -⟩ <;> rfl

theorem csrWrite_urg (v : DWord) : t.csrWrite h 0x800 v = t.updHart h (fun x => x.setCs 0x800 (mix 3 (x.cs 0x800) v)) := rfl
theorem csrWrite_peerr (v : DWord) : t.csrWrite h 0x801 v = t.updHart h (fun x => if bit v 0 then x.setCs 0x801 0 else x) := rfl
theorem csrWrite_satp (v : DWord) :
    t.csrWrite h 0x180 v = t.updHart h (fun x => if bits v 63 60 = 0 ∨ bits v 63 60 = 9 then x.setCs 0x180 v else x) := rfl

theorem xCsr_of_csrInsn {h : Nat} (h4 : iF3 insn ≠ 4) (nx : DWord) : t.xCsr h insn nx = (t.csrInsn h insn).bind fun _ s => .ok (some nx) s := if_neg h4

theorem csrInsn_illegal (hok : (t.hart h).csrOk (nbits insn 31 20) (csrWrites insn) = false) : t.csrInsn h insn = .trap 2 insn t := if_pos hok

/-- A write of a CSR that has a row. -/
theorem csrInsn_row (hw : csrWrites insn = true) {k : IClass} (hc : (nbits insn 31 20, k) ∈ rowCsrs)
    (hok : (t.hart h).csrOk (nbits insn 31 20) true = true) {g : Hart → Hart}
    (hg : t.csrWrite h (nbits insn 31 20) (t.csrTarget h insn) = t.updHart h g) :
    ∃ v, t.csrInsn h insn = .ok () v ∧ v.hart h = (t.hart h).csrRead insn (g (t.hart h)) := by
  have hrw := csrRead_row (t := t) (h := h) hc
  unfold State.csrInsn Hart.csrRead
  dsimp only
  rw [hw, if_neg (by rw [hok]; decide), hrw, if_pos rfl]
  refine ⟨_, rfl, ?_⟩
  split
  · rw [hart_wx, hg, hart_updHart_same]
    rfl
  · rw [hg, hart_updHart_same]

/-- The rows of these CSRs are rows of a CSR instruction. -/
theorem body_row {c : Nat} {k : IClass} (hc : (c, k) ∈ rowCsrs) :
    k ≠ .wrs ∧ k ≠ .vs ∧ ∀ s insn nx, k.body h s insn nx = s.xCsr h insn nx := by
  simp only [rowCsrs, List.mem_cons, List.not_mem_nil, or_false, Prod.mk.injEq] at hc
  rcases hc with ⟨-, rfl⟩ | ⟨-, rfl⟩ | ⟨-, rfl⟩ <;> exact ⟨nofun, nofun, fun _ _ _ => rfl⟩

variable (hat : s.hartAt h insn n t) (hop : insn % 128 = 0x73) (h0 : iF3 insn ≠ 0) (h4 : iF3 insn ≠ 4)
include hat hop h0 h4

theorem csr_row {k : IClass} (hc : (nbits insn 31 20, k) ∈ rowCsrs) (hw : csrWrites insn = true)
    (hok : (t.hart h).csrOk (nbits insn 31 20) true = true) {g : Hart → Hart}
    (hg : t.csrWrite h (nbits insn 31 20) (t.csrTarget h insn) = t.updHart h g) :
    ∃ u, exec (k.command h) s = .next u ∧ u.hart h = ((t.hart h).csrRead insn (g (t.hart h))).retired ((t.hart h).pc + BitVec.ofNat 64 n) := by
  obtain ⟨v, hv, hhart⟩ := csrInsn_row hw hc hok hg
  obtain ⟨hwrs, hvs, hbody⟩ := body_row (h := h) hc
  obtain ⟨u, hu, hret⟩ := row_retires hat ((iclass_csr hop h0 h4).trans (csrClass_row hw hc)) (fun e => absurd e hwrs) hvs
    (v := v) (nx := (t.hart h).pc + BitVec.ofNat 64 n) (by rw [hbody, xCsr_of_csrInsn h4, hv]; rfl)
  exact ⟨u, hu, by rw [hret.hart, hhart]⟩

theorem csr_row_illegal {k : IClass} (hc : (nbits insn 31 20, k) ∈ rowCsrs) (hw : csrWrites insn = true)
    (hok : (t.hart h).csrOk (nbits insn 31 20) true = false) (hm : (t.hart h).trapsToM 2 false) :
    ∃ u, exec (k.command h) s = .next u ∧ t.tookTrap u h 2 insn false := by
  obtain ⟨hwrs, hvs, hbody⟩ := body_row (h := h) hc
  obtain ⟨u, hu, htrap, -⟩ := row_traps hat ((iclass_csr hop h0 h4).trans (csrClass_row hw hc)) (fun e => absurd e hwrs) hvs
    (v := t) (by rw [hbody, xCsr_of_csrInsn h4, csrInsn_illegal (by rw [hw]; exact hok)]; rfl) hm
  exact ⟨u, hu, htrap⟩

/-- A read of MEVTQ returns what the model's read answers, and leaves the events it leaves. -/
theorem mevtq_row (hc : nbits insn 31 20 = 0x7C1) (hr : csrReads insn = true) (hw : csrWrites insn = false)
    (hok : (t.hart h).csrOk (nbits insn 31 20) false = true) {v : DWord} {w : State} (hread : t.csrRead h 0x7C1 = (v, w)) :
    ∃ u, exec (.mevtqRead h) s = .next u ∧ (u.hart h).pc = (t.hart h).pc + BitVec.ofNat 64 n ∧ (iRd insn ≠ 0 → u.rx h (iRd insn) = v) ∧
      u.hevt = w.hevt := by
  have hclass : t.iclass h insn = .mevtq := (iclass_csr hop h0 h4).trans (if_pos ⟨hc, hr⟩)
  have hins : t.csrInsn h insn = .ok () (w.wx h (iRd insn) v) := by
    unfold State.csrInsn
    dsimp only
    rw [hw, if_neg (by rw [hok]; decide), hr, if_pos rfl, if_pos rfl, hc, hread, if_neg Bool.false_ne_true]
    rfl
  obtain ⟨u, hu, hret⟩ := row_retires hat hclass nofun nofun (v := w.wx h (iRd insn) v) (nx := (t.hart h).pc + BitVec.ofNat 64 n)
    ((xCsr_of_csrInsn h4 _).trans (by rw [hins]; rfl))
  refine ⟨u, hu, by rw [hret.hart, retired_pc], fun hrd => ?_, hret.hevt⟩
  rw [State.rx, hret.hart, retired_rx, hart_wx, rx_wx _ _ (iRd_lt insn) (iRd_lt insn), if_pos rfl, if_neg hrd]
end

section
variable (s : State) (h : Nat)

theorem csrRead_mevtq : s.csrRead h 0x7C1 = match firstBelow 256 (fun i => bit (s.hevt.get 0 h) i) with
    | none => (0, s)
    | some i => (BitVec.ofNat 64 (i + 2 ^ 63), { s with hevt := s.hevt.upd 0 h (fun b => b ^^^ BitVec.ofNat 256 (2 ^ i)) }) := rfl

variable {s h}

theorem csrRead_mevtq_some {i : Nat} (hi : i < 256) (hb : bit (s.hevt.get 0 h) i = true) (hlow : ∀ j, j < i → bit (s.hevt.get 0 h) j = false) :
    s.csrRead h 0x7C1 = (BitVec.ofNat 64 (i + 2 ^ 63), { s with hevt := s.hevt.upd 0 h (fun b => b ^^^ BitVec.ofNat 256 (2 ^ i)) }) := by
  have hfirst : firstBelow 256 (fun i => bit (s.hevt.get 0 h) i) = some i :=
    List.find?_range_eq_some.mpr ⟨hb, List.mem_range.mpr hi, fun j hj => by rw [hlow j hj]; rfl⟩
  rw [csrRead_mevtq, hfirst]

theorem csrRead_mevtq_none (hz : s.hevt.get 0 h = 0) : s.csrRead h 0x7C1 = (0, s) := by
  have hfirst : firstBelow 256 (fun i => bit (s.hevt.get 0 h) i) = none :=
    List.find?_range_eq_none.mpr fun i _ => by rw [hz]; simp [bit]
  rw [csrRead_mevtq, hfirst]
end

/-! ## What a written CSR leaves -/

section
variable {x y : Hart} {insn : Nat}

/-- A CSR instruction that leaves the registers, the mode and the other CSRs alone gives rd the old value and goes on. -/
theorem csrRead_done {t u : State} {h : Nat} {nx : DWord} (hu : u.hart h = ((t.hart h).csrRead insn y).retired nx) (hx : y.x = (t.hart h).x)
    (hmode : y.mode = (t.hart h).mode) (hcs : ∀ k, k ≠ nbits insn 31 20 → y.cs k = (t.hart h).cs k) :
    (u.hart h).pc = nx ∧ (u.hart h).mode = (t.hart h).mode ∧
      (csrReads insn = true → iRd insn ≠ 0 → u.rx h (iRd insn) = (t.hart h).cs (nbits insn 31 20)) ∧
      (∀ r, r < 32 → r ≠ iRd insn → u.rx h r = t.rx h r) ∧ ∀ k, k ≠ nbits insn 31 20 → k ≠ 0xB02 → (u.hart h).cs k = (t.hart h).cs k := by
  have hrx : ∀ r, y.rx r = (t.hart h).rx r := fun r => by unfold Hart.rx; rw [hx]
  unfold State.rx
  rw [hu, retired_pc, retired_mode]
  simp only [retired_rx, Hart.csrRead]
  refine ⟨trivial, ?_, fun hr hrd => ?_, fun r hr hne => ?_, fun k hk hinst => ?_⟩
  · split
    · rw [wx_mode, hmode]
    · exact hmode
  · rw [if_pos hr, rx_wx _ _ (iRd_lt insn) (iRd_lt insn), if_pos rfl, if_neg hrd]
  · split
    · rw [rx_wx _ _ (iRd_lt insn) hr, if_neg hne, hrx]
    · exact hrx r
  · rw [retired_cs _ _ hinst]
    split
    · rw [wx_cs, hcs k hk]
    · exact hcs k hk

theorem cs_csrRead (k : Nat) : (x.csrRead insn y).cs k = y.cs k := by
  unfold Hart.csrRead
  split
  · exact wx_cs _ _ _ _
  · rfl
end

/-- The two bits that URG keeps are those written. -/
theorem bits_mix_urg (old v : DWord) : bits (mix 3 old v) 1 0 = bits v 1 0 := by
  apply Nat.eq_of_testBit_eq; intro i
  rw [testBit_bits, testBit_bits]
  match i with
  | 0 => simp [mix, bit]
  | 1 => simp [mix, bit]
  | i + 2 => simp

end Sys2Proof.Machine
end

section
/-! SUPPORT. XPARK, WRS and the timeout of WRS.STO (R270, R275), and the settled statement about them and the CSRs. -/
namespace Sys2Proof.Machine

/-! ## Parking (R275) -/

section
variable {s : State} {h : Nat}

theorem coreOwner_parkOnly (c : Nat) : (s.parkOnly h).coreOwner c = s.coreOwner c := rfl
theorem part_parkOnly (p : Nat) : (s.parkOnly h).part p = s.part p := rfl

theorem hart_parkOnly (k : Nat) : (s.parkOnly h).hart k = if k = h then {} else s.hart k := by
  have hcore : (s.parkOnly h).hart k = (s.setHart h {}).hart k := hart_congr (updCore_same (f := .harts) _ _ _ (by decide)) k
  rw [hcore]
  split
  · subst k; exact hart_setHart_same _ _ _
  · exact hart_setHart_ne _ _ ‹_›

/-- With no launch waiting for its core, or for the partition that owns it, a hart only parks. -/
theorem park_noLaunch (hq : (s.core (h / 512)).launchQ = []) (hp : ∀ p, s.coreOwner (h / 512) = some p → (s.part p).launchQ = []) :
    s.park h = s.parkOnly h := by
  have hq' : ((s.parkOnly h).core (h / 512)).launchQ = [] := by
    unfold State.parkOnly
    rw [core_updCore_same]
    exact hq
  unfold State.park State.serveLaunch
  rw [hq', coreOwner_parkOnly]
  cases hown : s.coreOwner (h / 512) with
  | none =>
    dsimp only
    split <;> rfl
  | some p =>
    dsimp only
    rw [part_parkOnly, hp p hown]
    split <;> rfl
end

theorem xpark_row {s t : State} {h : Fin 49152} {n : Nat} (hat : s.hartAt h 0x100B n t) (hq : (t.core (h / 512)).launchQ = [])
    (hp : ∀ p, t.coreOwner (h / 512) = some p → (t.part p).launchQ = []) :
    ∃ u, exec (.xpark h) s = .next u ∧ u.hart h = {} ∧ ∀ k, k ≠ h.val → u.hart k = t.hart k := by
  obtain ⟨u, hu, htakes⟩ := exec_row hat (k := .xpark) rfl nofun nofun
  have hb : ∀ nx, IClass.xpark.body h t 0x100B nx = .ok none (t.parkOnly h) := fun nx =>
    (if_neg (not_not_intro rfl) : t.xXpark h 0x100B = .ok none (t.park h)).trans (by rw [park_noLaunch hq hp])
  rw [hb] at htakes
  have hhart : ∀ k, u.hart k = (t.parkOnly h).hart k := fun k =>
    (htakes.hart k).trans ((hart_congr (dropAnswers_same _ _ (by decide)) k).trans (hart_congr (wr_same _ _ _ (by decide)) k))
  exact ⟨u, hu, by rw [hhart, hart_parkOnly, if_pos rfl], fun k hk => by rw [hhart, hart_parkOnly, if_neg hk]⟩

/-! ## WRS (R270) -/

section
variable {s t : State} {h : Fin 49152} {insn n : Nat}

theorem iclass_wrs (hw : insn = 0x00D00073 ∨ insn = 0x01D00073) : t.iclass h insn = .wrs := by
  have hop : insn % 128 = 0x73 := by rcases hw with rfl | rfl <;> rfl
  simp only [State.iclass, hop]
  exact if_pos hw

/-- A hart that may wait does so while its reservation stands and no interrupt is pending and enabled. -/
theorem xWrs_eq (hmode : (t.hart h).mode = .m ∨ bit ((t.hart h).cs 0x300) 21 = false) (nx : DWord) :
    t.xWrs h insn nx = if (t.hart h).resv.isNone ∨ t.irqs h ≠ 0 then .ok (some nx) t
      else .ok (some nx) (t.updHart h (fun x => { x with run := .wrs (if insn == 0x01D00073 then some (t.now + 1000) else none) })) := by
  refine if_neg fun hill => ?_
  obtain ⟨-, ⟨hlow, htw⟩, -⟩ := hill
  rcases hmode with hm | hz
  · rw [hm] at hlow; simp at hlow
  · rw [hz] at htw; exact absurd htw (by decide)

section
variable (hat : s.hartAt h insn n t) (hw : insn = 0x00D00073 ∨ insn = 0x01D00073) (hrun : ∀ i, (s.hart h).run ≠ .wrs i)
  (hmode : (t.hart h).mode = .m ∨ bit ((t.hart h).cs 0x300) 21 = false)
include hat hw hrun hmode

theorem wrs_waits (hresv : (t.hart h).resv ≠ none) (hirq : t.irqs h = 0) :
    ∃ u, exec (.wrs h) s = .next u ∧ t.retires u h ((t.hart h).pc + BitVec.ofNat 64 n) 0 0 ∧
      (u.hart h).run = .wrs (if insn = 0x01D00073 then some (t.now + 1000) else none) := by
  obtain ⟨u, hu, hret⟩ := row_retires hat (iclass_wrs hw) (fun _ => hrun) nofun
    ((xWrs_eq hmode _).trans (if_neg (by simp [hresv, hirq])))
  refine ⟨u, hu, hret.retires_none ?_, ?_⟩
  · rw [hart_updHart_same]
    exact ⟨rfl, rfl, rfl, rfl⟩
  · rw [hret.hart, retired_run, hart_updHart_same]
    simp

theorem wrs_goesOn (hgo : (t.hart h).resv = none ∨ t.irqs h ≠ 0) :
    ∃ u, exec (.wrs h) s = .next u ∧ t.retires u h ((t.hart h).pc + BitVec.ofNat 64 n) 0 0 ∧ (u.hart h).run = (t.hart h).run := by
  obtain ⟨u, hu, hret⟩ := row_retires hat (iclass_wrs hw) (fun _ => hrun) nofun
    ((xWrs_eq hmode _).trans (if_pos (by simpa using hgo)))
  exact ⟨u, hu, hret.retires_none (sameRegs_refl _), by rw [hret.hart, retired_run]⟩
end

/-- The row of a hart that waits in WRS lets it go on, or leaves it. -/
theorem wrs_waiting {i : Option Nat} (hrun : (s.hart h).run = .wrs i) :
    ∃ u, exec (.wrs h) s = .next u ∧ u.hart h = if s.wakes h then { s.hart h with run := .running } else s.hart h := by
  have hrow : s.wrsRow h = s.woken h := by
    unfold State.wrsRow
    rw [hrun]
  refine ⟨s.taken (s.wrsRow h) IClass.wrs.flds, rfl, ?_⟩
  rw [taken_hart _ _ (by decide), hrow, hart_woken]

theorem wakes_wrs {i : Option Nat} (hrun : (s.hart h).run = .wrs i) : s.wakes h =
    ((s.hart h).resv.isNone || s.irqs h != 0 || i.elim false (fun k => decide (k ≤ s.now))) := by
  unfold State.wakes
  dsimp only
  simp only [hrun]
  cases i <;> rfl

theorem wrs_wakes {i : Option Nat} (hrun : (s.hart h).run = .wrs i) (hgo : (s.hart h).resv = none ∨ s.irqs h ≠ 0) :
    ∃ u, exec (.wrs h) s = .next u ∧ u.hart h = { s.hart h with run := .running } := by
  obtain ⟨u, hu, hhart⟩ := wrs_waiting hrun
  have hwake : s.wakes h = true := by
    rw [wakes_wrs hrun]
    rcases hgo with hn | hi
    · rw [hn]; rfl
    · simp [hi]
  exact ⟨u, hu, hhart.trans (if_pos hwake)⟩

theorem wrs_stays {i : Option Nat} (hrun : (s.hart h).run = .wrs i) (hresv : (s.hart h).resv ≠ none) (hirq : s.irqs h = 0)
    (hearly : ∀ k, i = some k → s.now < k) : ∃ u, exec (.wrs h) s = .next u ∧ u.hart h = s.hart h := by
  obtain ⟨u, hu, hhart⟩ := wrs_waiting hrun
  have hwake : s.wakes h = false := by
    rw [wakes_wrs hrun]
    rw [Option.isNone_eq_false_iff.mpr (Option.isSome_iff_ne_none.mpr hresv)]
    cases i with
    | none => simp [hirq]
    | some k => simp [hirq, hearly k rfl]
  exact ⟨u, hu, hhart.trans (by rw [hwake]; rfl)⟩

theorem wrsTimeout_eq {k : Nat} (hrun : (s.hart h).run = .wrs (some k)) :
    s.wrsTimeout h = if k ≤ s.now then s.updHart h (fun x => { x with run := .running }) else s := by
  unfold State.wrsTimeout
  rw [hrun]

theorem wrsSto_ends {k : Nat} (hrun : (s.hart h).run = .wrs (some k)) (hk : k ≤ s.now) :
    ∃ u, exec (.wrsStoTimeout h) s = .next u ∧ u.hart h = { s.hart h with run := .running } ∧ ∀ j, j ≠ h.val → u.hart j = s.hart j := by
  have hrow := (wrsTimeout_eq hrun).trans (if_pos hk)
  refine ⟨s.taken (s.wrsTimeout h) [.harts], rfl, ?_, fun j hj => ?_⟩
  · rw [taken_hart _ _ (by decide), hrow, hart_updHart_same]
  · rw [taken_hart _ _ (by decide), hrow, hart_updHart_ne _ _ hj]

theorem wrsSto_early {k : Nat} (hrun : (s.hart h).run = .wrs (some k)) (hk : s.now < k) :
    ∃ u, exec (.wrsStoTimeout h) s = .next u ∧ u.harts = s.harts := by
  have hrow := (wrsTimeout_eq hrun).trans (if_neg (Nat.not_le.mpr hk))
  exact ⟨s.taken (s.wrsTimeout h) [.harts], rfl, by rw [hrow]; rfl⟩
end

/-- A CSR whose write is taken or left. -/
theorem csr_taken_or_left {t u : State} {h insn c : Nat} {nx w : DWord} {p : Prop} [Decidable p] (hc : nbits insn 31 20 = c) (hc2 : c ≠ 0xB02)
    (hu : u.hart h = ((t.hart h).csrRead insn (if p then (t.hart h).setCs c w else t.hart h)).retired nx) :
    ((u.hart h).pc = nx ∧ (u.hart h).mode = (t.hart h).mode ∧
      (csrReads insn = true → iRd insn ≠ 0 → u.rx h (iRd insn) = (t.hart h).cs (nbits insn 31 20)) ∧
      (∀ r, r < 32 → r ≠ iRd insn → u.rx h r = t.rx h r) ∧ ∀ k, k ≠ nbits insn 31 20 → k ≠ 0xB02 → (u.hart h).cs k = (t.hart h).cs k) ∧
    (u.hart h).cs c = if p then w else (t.hart h).cs c := by
  by_cases hp : p
  · rw [if_pos hp] at hu ⊢
    exact ⟨csrRead_done hu rfl rfl fun k hk => cs_setCs_ne _ _ (by rwa [hc] at hk),
      by rw [hu, retired_cs _ _ hc2, cs_csrRead, cs_setCs_same]⟩
  · rw [if_neg hp] at hu ⊢
    exact ⟨csrRead_done hu rfl rfl fun k _ => rfl, by rw [hu, retired_cs _ _ hc2, cs_csrRead]⟩

/-! ## The statement -/

/-- Settles O57: each CSR by what its write and its read answer, XPARK by the empty queues, and WRS by whether the hart wakes. -/
theorem hartCsrsWaitsAndParking : Obligations.HartCsrsWaitsAndParking := by
  unfold Obligations.HartCsrsWaitsAndParking
  refine ⟨fun h insn n s t hat => ⟨fun hop h0 h4 =>
      ⟨fun hw => ⟨fun hok => ⟨fun hc => ?urg, fun hc => ?peerr, fun hc => ?satp⟩, ?illegal⟩, ?mevtq⟩, ?xpark, ?wrs⟩,
    fun h s => ⟨fun i hrun => ⟨wrs_wakes hrun, wrs_stays hrun⟩, fun k => wrsSto_ends, fun k => wrsSto_early⟩⟩
  case urg =>
    obtain ⟨u, hu, hhart⟩ := csr_row hat hop h0 h4 (k := .urg) (by rw [hc]; decide) hw hok (by rw [hc]; exact csrWrite_urg _)
    refine ⟨u, hu, csrRead_done hhart rfl rfl fun k hk => cs_setCs_ne _ _ (by rwa [hc] at hk), ?_⟩
    rw [Hart.urg, hhart, retired_csf _ _ _ _ (by decide), Hart.csf, cs_csrRead, csrURG, cs_setCs_same, bits_mix_urg]
  case peerr =>
    obtain ⟨u, hu, hhart⟩ := csr_row hat hop h0 h4 (k := .peerr) (by rw [hc]; decide) hw hok (by rw [hc]; exact csrWrite_peerr _)
    exact ⟨u, hu, csr_taken_or_left hc (by decide) hhart⟩
  case satp =>
    obtain ⟨u, hu, hhart⟩ := csr_row hat hop h0 h4 (k := .satp) (by rw [hc]; decide) hw hok (by rw [hc]; exact csrWrite_satp _)
    exact ⟨u, hu, csr_taken_or_left hc (by decide) hhart⟩
  case illegal =>
    intro hbad hm k cmd hmem hc
    simp only [List.mem_cons, List.not_mem_nil, or_false, Prod.mk.injEq] at hmem
    rcases hmem with ⟨rfl, rfl⟩ | ⟨rfl, rfl⟩ | ⟨rfl, rfl⟩
    · exact csr_row_illegal hat hop h0 h4 (k := .urg) (by rw [hc]; decide) hw hbad hm
    · exact csr_row_illegal hat hop h0 h4 (k := .peerr) (by rw [hc]; decide) hw hbad hm
    · exact csr_row_illegal hat hop h0 h4 (k := .satp) (by rw [hc]; decide) hw hbad hm
  case mevtq =>
    intro hc hr hw hok
    refine ⟨fun i hi hb hlow => ?_, fun hz => ?_⟩
    · obtain ⟨u, hu, hpc, hrd, hevt⟩ := mevtq_row hat hop h0 h4 hc hr hw hok (csrRead_mevtq_some hi hb hlow)
      exact ⟨u, hu, hpc, hrd, by rw [hevt]; exact Tab.get_set_same _ _ _ _⟩
    · obtain ⟨u, hu, hpc, hrd, hevt⟩ := mevtq_row hat hop h0 h4 hc hr hw hok (csrRead_mevtq_none hz)
      exact ⟨u, hu, hpc, hrd, by rw [hevt]; exact hz⟩
  case xpark =>
    rintro rfl hq hp
    exact xpark_row hat hq hp
  case wrs =>
    exact fun hw hrun hmode => ⟨wrs_waits hat hw hrun hmode, wrs_goesOn hat hw hrun hmode⟩

end Sys2Proof.Machine
end

section
/-! SUPPORT. Writes of mstatus.VS and the vector slots they take, wait for and release (R257). -/
namespace Sys2Proof.Machine

theorem count_same {f : Fld} (s : State) (a n : Nat) (hf : f ∉ [Fld.regs]) : f.same s (s.count a n) := wr_same _ _ _ hf

/-! ## The written status -/

section
variable (x : Hart)

/-- Bits that a masked write takes. -/
theorem bits_mix {m hi lo : Nat} (old v : DWord) (hhi : hi < 64) (hm : ∀ i, lo ≤ i → i ≤ hi → m.testBit i = true) :
    bits (mix m old v) hi lo = bits v hi lo := by
  apply Nat.eq_of_testBit_eq; intro i
  rw [testBit_bits, testBit_bits]
  by_cases hi' : i < hi + 1 - lo
  · have hmi : bit (BitVec.ofNat 64 m) (lo + i) = true := by
      rw [bit, BitVec.getLsbD_ofNat, hm _ (by omega) (by omega)]
      simp; omega
    have hni : bit (~~~BitVec.ofNat 64 m) (lo + i) = false := by
      rw [bit, BitVec.getLsbD_not, ← bit, hmi]
      simp
    rw [mix, bit_or, bit_and, bit_and, hmi, hni]
    simp
  · simp [hi']

/-- The masks of mstatus and of sstatus take VS. -/
theorem testBit_statusMask {m i : Nat} (hm : m = mstatusMask ∨ m = sstatusMask) (h9 : 9 ≤ i) (h10 : i ≤ 10) : m.testBit i = true := by
  have hi : i = 9 ∨ i = 10 := by omega
  rcases hm with rfl | rfl <;> rcases hi with rfl | rfl <;> decide

theorem bits_newStatus {m : Nat} (hm : m = mstatusMask ∨ m = sstatusMask) (v : DWord) : bits (x.newStatus m v) 10 9 = bits v 10 9 := by
  have hmix := bits_mix (x.cs 0x300) v (hi := 10) (lo := 9) (by decide) fun i => testBit_statusMask hm
  unfold Hart.newStatus
  dsimp only
  split
  · rw [bits_put64_ne _ _ (by decide) (by decide) (.inl (by decide)), hmix]
  · exact hmix

theorem vs_setStatus (v : DWord) : (x.setStatus v).vs = bits v 10 9 := by
  have hcs : (x.setStatus v).vs = (x.setCs 0x300 v).vs := by
    unfold Hart.setStatus
    dsimp only
    split
    · rfl
    · split <;> rfl
  rw [hcs, Hart.vs, Hart.csf, cs_setCs_same]

theorem slot_setStatus (v : DWord) : (x.setStatus v).slot = if bits v 10 9 = 0 then none else if x.slot.isNone then some {} else x.slot := by
  unfold Hart.setStatus
  dsimp only
  split
  · rfl
  · split <;> rfl
end

/-! ## CSR instructions on mstatus and sstatus -/

section
variable {t : State} {h insn : Nat}

theorem csrTarget_status (hn : nbits insn 31 20 = 0x300 ∨ nbits insn 31 20 = 0x100) : t.csrTarget h insn =
    csrNew (nbits insn 14 12) (if nbits insn 31 20 = 0x100 then (t.hart h).cs 0x300 else (t.hart h).mstatus) (csrSrc (t.hart h) insn) := by
  unfold State.csrTarget
  dsimp only
  rcases hn with hn | hn <;> rw [hn] <;> rfl

theorem csrRead_status {n : Nat} (hn : n = 0x300 ∨ n = 0x100) : ∃ v, t.csrRead h n = (v, t) := by
  rcases hn with rfl | rfl <;> exact ⟨_, rfl⟩

theorem csrWrite_status {n : Nat} (hn : n = 0x300 ∨ n = 0x100) (v : DWord) : ∃ m, (m = mstatusMask ∨ m = sstatusMask) ∧
    t.csrWrite h n v = t.updHart h (fun x => x.setStatus (x.newStatus m v)) := by
  rcases hn with rfl | rfl
  · exact ⟨mstatusMask, .inl rfl, rfl⟩
  · exact ⟨sstatusMask, .inr rfl, rfl⟩

/-- A write of mstatus or sstatus that the hart may execute leaves VS as written, and the slot that it asks for. -/
theorem xCsr_status (h4 : iF3 insn ≠ 4) (hn : nbits insn 31 20 = 0x300 ∨ nbits insn 31 20 = 0x100) (hw : csrWrites insn = true)
    (hok : (t.hart h).csrOk (nbits insn 31 20) true = true) (nx : DWord) : ∃ v, t.xCsr h insn nx = .ok (some nx) v ∧
      (v.hart h).vs = bits (t.csrTarget h insn) 10 9 ∧
      (v.hart h).slot = if bits (t.csrTarget h insn) 10 9 = 0 then none else if (t.hart h).slot.isNone then some {} else (t.hart h).slot := by
  obtain ⟨old, hread⟩ := csrRead_status (t := t) (h := h) hn
  obtain ⟨m, hm, hwrite⟩ := csrWrite_status (t := t) (h := h) hn (t.csrTarget h insn)
  obtain ⟨v, hins, hvs, hslot⟩ : ∃ v, t.csrInsn h insn = .ok () v ∧
      (v.hart h).vs = ((t.hart h).setStatus ((t.hart h).newStatus m (t.csrTarget h insn))).vs ∧
      (v.hart h).slot = ((t.hart h).setStatus ((t.hart h).newStatus m (t.csrTarget h insn))).slot := by
    unfold State.csrInsn
    dsimp only
    rw [hw, if_neg (by rw [hok]; decide), hread, if_pos rfl]
    refine ⟨_, rfl, ?_⟩
    split
    · rw [hart_wx, hwrite, hart_updHart_same, wx_slot, Hart.vs, Hart.csf, wx_cs]
      exact ⟨rfl, rfl⟩
    · rw [hwrite, hart_updHart_same]
      exact ⟨rfl, rfl⟩
  refine ⟨v, by rw [xCsr_of_csrInsn h4, hins]; rfl, ?_, ?_⟩
  · rw [hvs, vs_setStatus, bits_newStatus _ hm]
  · rw [hslot, slot_setStatus, bits_newStatus _ hm]

theorem csrOk_congr {x y : Hart} (hxy : x.sameRegs y) (n : Nat) (w : Bool) : y.csrOk n w = x.csrOk n w := by
  unfold Hart.csrOk Hart.fs Hart.vs Hart.csf
  simp only [cs_congr hxy, hxy.2.2.1]

theorem csrTarget_congr {u : State} (hu : (t.hart h).sameRegs (u.hart h)) (hn : nbits insn 31 20 = 0x300 ∨ nbits insn 31 20 = 0x100) :
    u.csrTarget h insn = t.csrTarget h insn := by
  rw [csrTarget_status hn, csrTarget_status hn]
  unfold csrSrc Hart.mstatus Hart.fs Hart.vs Hart.csf
  simp only [cs_congr hu, rx_congr hu]

/-- What a CSR instruction that changes VS is. -/
theorem newVs_some {k : Nat} (hk : t.newVs h insn = some k) : insn % 128 = 0x73 ∧ iF3 insn ≠ 0 ∧ iF3 insn ≠ 4 ∧
    (nbits insn 31 20 = 0x300 ∨ nbits insn 31 20 = 0x100) ∧ csrWrites insn = true ∧ (t.hart h).csrOk (nbits insn 31 20) true = true ∧
    bits (t.csrTarget h insn) 10 9 = k := by
  unfold State.newVs at hk
  dsimp only at hk
  split at hk
  · rename_i hc
    obtain ⟨hop, hf3, hn, hw, hok⟩ := hc
    have hf : iF3 insn % 4 ≠ 0 := by
      unfold iF3
      unfold nbits at hf3 ⊢
      omega
    exact ⟨hop, by omega, by omega, hn, hw, hok, Option.some.inj hk⟩
  · exact absurd hk nofun

theorem iclass_vs {h : Fin 49152} {k : Nat} (hk : t.newVs h insn = some k) (hne : (k = 0) ≠ ((t.hart h).vs = 0)) : t.iclass h insn = .vs := by
  obtain ⟨hop, h0, h4, hn, hw, -, -⟩ := newVs_some hk
  rw [iclass_csr hop h0 h4]
  unfold State.csrClass
  dsimp only
  have hother : nbits insn 31 20 ≠ 0x7C1 ∧ nbits insn 31 20 ≠ csrURG ∧ nbits insn 31 20 ≠ 0x801 ∧ nbits insn 31 20 ≠ 0x180 := by
    rcases hn with hn | hn <;> rw [hn] <;> decide
  obtain ⟨hevt, hurg, hpeerr, hsatp⟩ := hother
  rw [if_neg (fun e => hevt e.1), if_neg (by rw [hw]; decide), if_neg hurg, if_neg hpeerr, if_neg hsatp, hk]
  exact if_pos hne
end

/-! ## The slot (R257) -/

section
variable (t : State) (h : Nat)

/-- A hart that gets a slot runs, and else is as it was. -/
theorem hart_slotGot : ∃ r, (t.slotGot h).hart h = { t.hart h with run := r } := by
  unfold State.slotGot
  dsimp only
  split
  · have hhart : ((t.updHart h (fun x => { x with run := .running })).updCore (h / 512)
        (fun c => { c with slotQ := c.slotQ.filter (· ≠ h) })).hart h = { t.hart h with run := .running } :=
      (hart_congr (updCore_same (f := .harts) _ _ _ (by decide)) h).trans (hart_updHart_same _ _ _)
    exact ⟨.running, (hart_congr (count_same _ _ _ (by decide)) h).trans hhart⟩
  · exact ⟨_, rfl⟩

theorem core_slotWait (hq : (t.core (h / 512)).slotQ.contains h = false) : (t.slotWait h).hart h = { t.hart h with run := .slotWait } ∧
    ((t.slotWait h).core (h / 512)).slotQ = (t.core (h / 512)).slotQ ++ [h] := by
  unfold State.slotWait
  rw [hq, if_neg Bool.false_ne_true]
  refine ⟨(hart_congr (updCore_same (f := .harts) _ _ _ (by decide)) h).trans (hart_updHart_same _ _ _), ?_⟩
  rw [core_updCore_same, core_congr (updHart_same (f := .cores) _ _ _ (by decide))]
end

/-- What VS_WRITE does with the hart's instruction. -/
def State.vsStep (t : State) (h insn : Nat) (nx : DWord) : State :=
  if (t.hart h).vs ≠ 0 then t.hfinish h (t.xCsr h insn nx)
  else if t.slotFor h then (t.slotGot h).hfinish h ((t.slotGot h).xCsr h insn nx)
  else t.slotWait h

section
variable {s t : State} {h : Fin 49152} {insn n k : Nat} (hat : s.hartAt h insn n t) (hk : t.newVs h insn = some k)
include hat hk

theorem exec_vsWrite (hne : (k = 0) ≠ ((t.hart h).vs = 0)) :
    ∃ u, exec (.vsWrite h) s = .next u ∧ (t.vsStep h insn ((t.hart h).pc + BitVec.ofNat 64 n)).RowTakes u := by
  have hrow : s.vsRow h = t.vsStep h insn ((t.hart h).pc + BitVec.ofNat 64 n) := by
    unfold State.vsRow
    rw [show (s.woken h).issue h = _ from hat]
    exact if_neg (not_not_intro (iclass_vs hk hne))
  exact ⟨s.taken (s.vsRow h) IClass.vs.flds, rfl, hrow ▸ rowTakes_taken s _ .vs⟩

/-- A slot is free and the hart's turn has come: it gets a new slot. -/
theorem vsWrite_takesSlot (hvs : (t.hart h).vs = 0) (hk0 : k ≠ 0) (hslot : (t.hart h).slot = none) (hfree : t.slotFor h = true) :
    ∃ u, exec (.vsWrite h) s = .next u ∧ (u.hart h).slot = some {} ∧ (u.hart h).vs = k ∧
      (u.hart h).pc = (t.hart h).pc + BitVec.ofNat 64 n := by
  obtain ⟨-, -, h4, hn, hw, hok, hbits⟩ := newVs_some hk
  obtain ⟨r, hgot⟩ := hart_slotGot t h
  have hregs : (t.hart h).sameRegs ((t.slotGot h).hart h) := by rw [hgot]; exact ⟨rfl, rfl, rfl, rfl⟩
  obtain ⟨v, hv, hvvs, hvslot⟩ := xCsr_status (t := t.slotGot h) h4 hn hw ((csrOk_congr hregs _ _).trans hok)
    ((t.hart h).pc + BitVec.ofNat 64 n)
  rw [csrTarget_congr hregs hn, hbits] at hvvs hvslot
  obtain ⟨u, hu, htakes⟩ := exec_vsWrite hat hk (by simp [hvs, hk0])
  rw [State.vsStep, if_neg (not_not_intro hvs), if_pos hfree, hv] at htakes
  have hhart := (retiredTo_of_takes htakes).hart
  refine ⟨u, hu, ?_, ?_, by rw [hhart, retired_pc]⟩
  · rw [hhart, retired_slot, hvslot, if_neg hk0, hgot, hslot]
    rfl
  · rw [Hart.vs, hhart, retired_csf _ _ _ _ (by decide)]
    exact hvvs

/-- No slot is free for the hart: it joins those that wait. -/
theorem vsWrite_waits (hvs : (t.hart h).vs = 0) (hk0 : k ≠ 0) (hfree : t.slotFor h = false)
    (hq : (t.core (h / 512)).slotQ.contains h.val = false) : ∃ u, exec (.vsWrite h) s = .next u ∧
      u.hart h = { t.hart h with run := .slotWait } ∧ (u.core (h / 512)).slotQ = (t.core (h / 512)).slotQ ++ [h.val] := by
  obtain ⟨u, hu, htakes⟩ := exec_vsWrite hat hk (by simp [hvs, hk0])
  rw [State.vsStep, if_neg (not_not_intro hvs), if_neg (by rw [hfree]; decide)] at htakes
  obtain ⟨hhart, hqueue⟩ := core_slotWait t h hq
  exact ⟨u, hu, (htakes.hart h).trans hhart, by rw [core_congr htakes.cores, hqueue]⟩

/-- VS at Off releases the slot. -/
theorem vsWrite_releases (hvs : (t.hart h).vs ≠ 0) (hk0 : k = 0) : ∃ u, exec (.vsWrite h) s = .next u ∧ (u.hart h).slot = none ∧
      (u.hart h).vs = 0 ∧ (u.hart h).pc = (t.hart h).pc + BitVec.ofNat 64 n := by
  obtain ⟨-, -, h4, hn, hw, hok, hbits⟩ := newVs_some hk
  obtain ⟨v, hv, hvvs, hvslot⟩ := xCsr_status h4 hn hw hok ((t.hart h).pc + BitVec.ofNat 64 n)
  rw [hbits, hk0] at hvvs hvslot
  obtain ⟨u, hu, htakes⟩ := exec_vsWrite hat hk (by simp [hvs, hk0])
  rw [State.vsStep, if_pos hvs, hv] at htakes
  have hhart := (retiredTo_of_takes htakes).hart
  refine ⟨u, hu, by rw [hhart, retired_slot, hvslot, if_pos rfl], ?_, by rw [hhart, retired_pc]⟩
  rw [Hart.vs, hhart, retired_csf _ _ _ _ (by decide)]
  exact hvvs
end

end Sys2Proof.Machine
end

section
/-! SUPPORT. Vector instructions: the settings, integer arithmetic, loads and stores, and the time each occupies a vector unit (R257, R259,
R261). -/
namespace Sys2Proof.Machine

/-! ## A hart's slot -/

section
variable (x : Hart) (g : VSlot → VSlot)

theorem setSlot_slot : (x.setSlot g).slot = x.slot.map g := by rw [Hart.setSlot, putCs_slot]
theorem setSlot_x : (x.setSlot g).x = x.x := by rw [Hart.setSlot, putCs_x]
end

theorem hart_count (s : State) (a n h : Nat) : (s.count a n).hart h = s.hart h := hart_congr (count_same _ _ _ (by decide)) h

theorem vregs_of_slot {s : State} {h : Nat} {sl : VSlot} (hs : (s.hart h).slot = some sl) : s.vregs h = sl.v := by
  rw [State.vregs, hs]
  rfl

/-! ## Settings -/

/-- The vtype that a setting asks for, and the vl it gives where the machine has it. -/
def State.vsetType (t : State) (h insn : Nat) : Nat :=
  if nbits insn 31 30 == 3 then nbits insn 29 20 else if insn.testBit 31 then (t.rx h (iRs2 insn)).toNat else nbits insn 30 20
def State.vsetVl (t : State) (h insn : Nat) : Nat :=
  if nbits insn 31 30 == 3 then newVl (iRs1 insn) (vtMax (t.vsetType h insn))
  else if iRs1 insn ≠ 0 then newVl (t.rx h (iRs1 insn)).toNat (vtMax (t.vsetType h insn)) else vtMax (t.vsetType h insn)

/-- The slot as a setting leaves it. -/
def VSlot.typed (sl : VSlot) (vl vtype : Nat) : VSlot := { sl with vl := vl, vtype := BitVec.ofNat 64 vtype, vstart := 0 }

section
variable {t : State} {h insn : Nat} (hkeep : ¬ ((nbits insn 31 30 == 3) = false ∧ iRs1 insn = 0 ∧ iRd insn = 0))
include hkeep

theorem vset_supported (hok : vtOk (t.vsetType h insn) = true) : t.vset h insn =
    (t.updHart h (fun x => x.setSlot (VSlot.typed · (t.vsetVl h insn) (t.vsetType h insn)))).wx h (iRd insn) (dn (t.vsetVl h insn)) := by
  have hk : (!(nbits insn 31 30 == 3) && iRs1 insn == 0 && iRd insn == 0) = false := by
    simpa [Bool.and_eq_false_iff, imp_iff_not_or, or_assoc] using hkeep
  have hvl : (if nbits insn 31 30 == 3 then newVl (iRs1 insn) (vtMax (t.vsetType h insn))
      else if iRs1 insn ≠ 0 then newVl (t.rx h (iRs1 insn)).toNat (vtMax (t.vsetType h insn))
      else if iRd insn ≠ 0 then vtMax (t.vsetType h insn) else ((t.hart h).slot.getD {}).vl) = t.vsetVl h insn := by
    unfold State.vsetVl
    split
    · rfl
    · split
      · rfl
      · exact if_pos fun hrd => by simp_all
  unfold State.vset
  dsimp only
  rw [← State.vsetType, hk, hok]
  simp only [Bool.false_and, Bool.not_false, Bool.and_true, Bool.not_true, Bool.false_eq_true, if_false, if_true, hvl]
  rfl
end

theorem vset_unsupported {t : State} {h insn : Nat} (hok : vtOk (t.vsetType h insn) = false) :
    t.vset h insn = (t.updHart h (fun x => x.setSlot (VSlot.typed · 0 (2 ^ 63)))).wx h (iRd insn) 0 := by
  unfold State.vset
  dsimp only
  rw [← State.vsetType, hok]
  rfl

/-! ## Arithmetic -/

section
variable (s : State) (h insn : Nat)

theorem fFlags_same {f : Fld} (fl : Nat) (hf : f ∉ [Fld.harts]) : f.same s (s.fFlags h fl) := by
  unfold State.fFlags
  split
  · exact Fld.same_refl _ _
  · exact updHart_same _ _ _ hf

theorem hart_fFlags (fl : Nat) : ((s.fFlags h fl).hart h).x = (s.hart h).x ∧ ((s.fFlags h fl).hart h).slot = (s.hart h).slot := by
  unfold State.fFlags
  split
  · exact ⟨rfl, rfl⟩
  · rw [hart_updHart_same]
    exact ⟨rfl, rfl⟩

theorem hart_vecDone (r : VRegs × Nat) : ((s.vecDone h insn r).hart h).x = (s.hart h).x ∧
    ((s.vecDone h insn r).hart h).slot = (s.hart h).slot.map (fun sl => { sl with v := r.1, vstart := 0, vxsat := sl.vxsat || r.2.testBit 5 }) := by
  obtain ⟨hx, hslot⟩ := hart_fFlags (s.updHart h (fun x => x.setSlot (fun t => { t with v := r.1, vstart := 0, vxsat := t.vxsat || r.2.testBit 5 })))
    h (r.2 % 32)
  rw [hart_updHart_same] at hx hslot
  exact ⟨hx.trans (setSlot_x _ _), hslot.trans (setSlot_slot _ _)⟩

/-- An arithmetic instruction counts the time that it occupies a vector unit. -/
theorem rd_vecDone (r : VRegs × Nat) : (s.vecDone h insn r).rd (Reg.CORE_CNT_VEC_BUSY (h / 512)) =
    s.rd (Reg.CORE_CNT_VEC_BUSY (h / 512)) + BitVec.ofNat 32 (vecTime (s.vctx h).vl (s.vctx h).sew (vecSlow insn)) := by
  have hcount : ∀ (t : State) a n, (t.count a n).rd a = t.rd a + BitVec.ofNat 32 n := fun t a n => rd_wr_same _ _ _
  refine (hcount _ _ _).trans (congrArg (· + _) ?_)
  exact (rd_congr (fFlags_same (f := .regs) _ _ _ (by decide)) _).trans (rd_congr (updHart_same (f := .regs) _ _ _ (by decide)) _)
end

/-! ## Memory -/

/-- What a vector load or store that ends well leaves. -/
def State.vmemDone (t : State) (h : Nat) (m : VMem) (v : VRegs) (vl : Option Nat) : State :=
  ({ t.vecLeave h 0 v vl with free := t.free + 4096 } : State).count (Reg.CORE_CNT_VEC_BUSY (h / 512))
    (vecTime (m.evl * m.fields) (8 * m.bytes) false)

section
variable (t : State) (h : Nat) (m : VMem) (v : VRegs) (vl : Option Nat)

theorem slot_vmemDone : ((t.vmemDone h m v vl).hart h).slot = (t.hart h).slot.map (fun sl => { sl with v := v, vstart := 0, vl := vl.getD sl.vl }) := by
  have hhart : (t.vmemDone h m v vl).hart h = (t.vecLeave h 0 v vl).hart h := hart_count _ _ _ _
  rw [hhart, State.vecLeave, hart_updHart_same, setSlot_slot]

theorem mem_vmemDone : (t.vmemDone h m v vl).mem = t.mem := by
  have hleave : (t.vecLeave h 0 v vl).mem = t.mem := mem_updHart _ _ _
  exact (count_same (f := .mem) _ _ _ (by decide)).trans hleave

variable {t h m} {insn : Nat} {t1 : State}

theorem xVecMem_load {g : VRegs} (hm : t.vmem h insn false = some m) (hload : t.vloadEls h m (t.vregs h) m.els = (t1, g, .done)) (nx : DWord) :
    t.xVecMem h insn false nx = .ok (some nx) (t1.vmemDone h m ((t.vctx h).agnosticMem g insn m m.evl) none) := by
  unfold State.xVecMem
  dsimp only
  rw [hm]
  dsimp only
  rw [if_neg Bool.false_ne_true, hload]
  rfl

theorem xVecMem_store (hm : t.vmem h insn true = some m)
    (hstore : t.vstoreRuns h (vruns (nbits insn 27 26 == 0 && m.fields == 1) (m.stores (t.vregs h))) = (t1, .done)) (nx : DWord) :
    t.xVecMem h insn true nx = .ok (some nx) (t1.vmemDone h m (t.vregs h) none) := by
  unfold State.xVecMem
  dsimp only
  rw [hm]
  dsimp only
  rw [if_pos rfl, hstore]
  rfl
end

/-! ## The row -/

section
variable {s t : State} {h : Fin 49152} {insn n : Nat} (hat : s.hartAt h insn n t) (hk : t.iclass h insn = .vec)
include hat hk

/-- A vector instruction that is illegal. -/
theorem vec_illegal (hb : ∀ nx, t.xVec h insn nx = illegal t insn) (hm : (t.hart h).trapsToM 2 false) :
    ∃ u, exec (.vectorInstruction h) s = .next u ∧ t.tookTrap u h 2 insn false := by
  obtain ⟨u, hu, htrap, -⟩ := row_traps hat hk nofun nofun (hb _) hm
  exact ⟨u, hu, htrap⟩

/-- A vector instruction that completes goes on at the next. -/
theorem vec_retires {v : State} (hb : ∀ nx, t.xVec h insn nx = .ok (some nx) v) :
    ∃ u, exec (.vectorInstruction h) s = .next u ∧ v.RetiredTo u h ((t.hart h).pc + BitVec.ofNat 64 n) :=
  row_retires hat hk nofun nofun (hb _)

theorem vec_off (hvs : (t.hart h).vs = 0) (hm : (t.hart h).trapsToM 2 false) :
    ∃ u, exec (.vectorInstruction h) s = .next u ∧ t.tookTrap u h 2 insn false :=
  vec_illegal hat hk (fun _ => if_pos hvs) hm
end

theorem xVec_opV {t : State} {h insn : Nat} (hvs : (t.hart h).vs ≠ 0) (hop : insn % 128 = 0x57) (nx : DWord) :
    t.xVec h insn nx = t.xOpV h insn nx := (if_neg hvs).trans (if_pos hop)

theorem xVec_mem {t : State} {h insn : Nat} (hvs : (t.hart h).vs ≠ 0) (hop : insn % 128 ≠ 0x57) (nx : DWord) :
    t.xVec h insn nx = t.xVecMem h insn (insn % 128 == 0x27) nx := (if_neg hvs).trans (if_neg hop)

/-- The integer operations of a vector instruction, by funct3. -/
theorem xOpV_int {t : State} {h insn : Nat} (hill : t.vill h = false) {f3 : Nat} {r : VRes}
    (hmem : (f3, r) ∈ [(0, (t.vctx h).opInt (t.vregs h) insn 1 0), (3, (t.vctx h).opInt (t.vregs h) insn 4 0),
      (4, (t.vctx h).opInt (t.vregs h) insn 2 ((t.hart h).rx (iRs1 insn))), (6, (t.vctx h).opMul (t.vregs h) insn false ((t.hart h).rx (iRs1 insn)))])
    (hf : iF3 insn = f3) (nx : DWord) :
    t.xOpV h insn nx = r.elim (illegal t insn) (fun g => .ok (some nx) (t.vecDone h insn g)) := by
  simp only [List.mem_cons, List.not_mem_nil, or_false, Prod.mk.injEq] at hmem
  unfold State.xOpV
  dsimp only
  rcases hmem with ⟨rfl, hr⟩ | ⟨rfl, hr⟩ | ⟨rfl, hr⟩ | ⟨rfl, hr⟩ <;> rw [hf, hill, ← hr] <;> cases r <;> rfl
section
variable {s t : State} {h : Fin 49152} {insn n : Nat} (hat : s.hartAt h insn n t) (hk : t.iclass h insn = .vec)
  (hvs : (t.hart h).vs ≠ 0) {sl : VSlot} (hslot : (t.hart h).slot = some sl)
include hat hk hvs hslot

/-- A setting leaves the slot with its vl and vtype, and rd with its vl. -/
theorem vset_row (hop : insn % 128 = 0x57) (h7 : iF3 insn = 7) (hres : ¬ (nbits insn 31 30 = 2 ∧ nbits insn 29 25 ≠ 0)) {vl vt : Nat} {w : DWord}
    (hset : t.vset h insn = (t.updHart h (fun x => x.setSlot (VSlot.typed · vl vt))).wx h (iRd insn) w) :
    ∃ u, exec (.vectorInstruction h) s = .next u ∧ (u.hart h).slot = some (sl.typed vl vt) ∧
      (u.hart h).pc = (t.hart h).pc + BitVec.ofNat 64 n ∧ (iRd insn ≠ 0 → u.rx h (iRd insn) = w) := by
  have hb : ∀ nx, ∃ k, t.xVec h insn nx = .ok (some nx) ((t.vset h insn).count (Reg.CORE_CNT_VEC_BUSY (h / 512)) k) := fun nx =>
    ⟨_, (xVec_opV hvs hop nx).trans ((if_pos h7).trans (if_neg hres))⟩
  obtain ⟨k, hb⟩ := hb ((t.hart h).pc + BitVec.ofNat 64 n)
  obtain ⟨u, hu, hret⟩ := row_retires hat hk nofun nofun hb
  have hhart := hret.hart
  rw [hart_count, hset, hart_wx, hart_updHart_same] at hhart
  refine ⟨u, hu, ?_, by rw [hhart, retired_pc], fun hrd => ?_⟩
  · rw [hhart, retired_slot, wx_slot, setSlot_slot, hslot]
    rfl
  · rw [State.rx, hhart, retired_rx, rx_wx _ _ (iRd_lt insn) (iRd_lt insn), if_pos rfl, if_neg hrd]

theorem vecInt_row (hop : insn % 128 = 0x57) {r : VRes} (hr : ∀ nx, t.xOpV h insn nx =
      r.elim (illegal t insn) (fun g => .ok (some nx) (t.vecDone h insn g))) {g : VRegs × Nat} (hg : r = some g) :
    ∃ u, exec (.vectorInstruction h) s = .next u ∧ u.vregs h = g.1 ∧ ((u.hart h).slot.map (·.vstart)) = some 0 ∧
      (u.hart h).pc = (t.hart h).pc + BitVec.ofNat 64 n ∧ (u.hart h).x = (t.hart h).x ∧ u.rd (Reg.CORE_CNT_VEC_BUSY (h / 512)) =
        t.rd (Reg.CORE_CNT_VEC_BUSY (h / 512)) + BitVec.ofNat 32 (vecTime (t.vctx h).vl (t.vctx h).sew (vecSlow insn)) := by
  obtain ⟨u, hu, hret⟩ := vec_retires hat hk (v := t.vecDone h insn g) fun nx => by rw [xVec_opV hvs hop, hr, hg]; rfl
  obtain ⟨hx, hslot'⟩ := hart_vecDone t h insn g
  rw [hslot] at hslot'
  have huslot := (congrArg Hart.slot hret.hart).trans ((retired_slot _ _).trans hslot')
  refine ⟨u, hu, vregs_of_slot huslot, by rw [huslot]; rfl, by rw [hret.hart, retired_pc], by rw [hret.hart, retired_x, hx], ?_⟩
  rw [hret.rd, rd_bump_ne _ (by unfold Reg.CORE_CNT_VEC_BUSY Reg.CORE_CNT_INSTR; omega), rd_vecDone]

/-! ## Loads and stores -/

omit hslot in
/-- A load whose every access is performed leaves the registers that its elements give. -/
theorem vload_row (hop : insn % 128 = 0x07) {m : VMem} (hm : t.vmem h insn false = some m) {t1 : State} {g : VRegs}
    (hload : t.vloadEls h m (t.vregs h) m.els = (t1, g, .done)) (hslot1 : (t1.hart h).slot = some sl) :
    ∃ u, exec (.vectorInstruction h) s = .next u ∧ u.vregs h = (t.vctx h).agnosticMem g insn m m.evl ∧
      (u.hart h).pc = (t.hart h).pc + BitVec.ofNat 64 n ∧ ((u.hart h).slot.map (·.vstart)) = some 0 := by
  obtain ⟨u, hu, hret⟩ := vec_retires hat hk fun nx => (xVec_mem hvs (by rw [hop]; decide) nx).trans (by rw [hop]; exact xVecMem_load hm hload nx)
  have huslot : (u.hart h).slot = some { sl with v := (t.vctx h).agnosticMem g insn m m.evl, vstart := 0, vl := sl.vl } := by
    rw [hret.hart, retired_slot, slot_vmemDone, hslot1]
    rfl
  exact ⟨u, hu, vregs_of_slot huslot, by rw [hret.hart, retired_pc], by rw [huslot]; rfl⟩

omit hslot in
/-- A store whose every access is performed leaves the bytes that its elements give. -/
theorem vstore_row (hop : insn % 128 = 0x27) {m : VMem} (hm : t.vmem h insn true = some m) {t1 : State}
    (hstore : t.vstoreRuns h (vruns (nbits insn 27 26 == 0 && m.fields == 1) (m.stores (t.vregs h))) = (t1, .done)) (hwf : Memory.wf t1.mem = true) :
    ∃ u, exec (.vectorInstruction h) s = .next u ∧ (u.hart h).pc = (t.hart h).pc + BitVec.ofNat 64 n ∧ ∀ k, u.byte k = t1.byte k := by
  obtain ⟨u, hu, hret⟩ := vec_retires hat hk fun nx => (xVec_mem hvs (by rw [hop]; decide) nx).trans (by rw [hop]; exact xVecMem_store hm hstore nx)
  have hmem := mem_vmemDone t1 h m (t.vregs h) none
  exact ⟨u, hu, by rw [hret.hart, retired_pc], fun k => (hret.byte (by rw [hmem]; exact hwf) k).trans (byte_congr hmem k)⟩
end

/-! ## The statement -/

/-- Settles O58: writes of VS by the slot they ask for, and vector instructions by what each leaves of the hart and of memory. -/
theorem vectorSlotsAndInstructions : Obligations.VectorSlotsAndInstructions := by
  unfold Obligations.VectorSlotsAndInstructions
  intro h insn n s t hat
  refine ⟨fun k hk => ⟨vsWrite_takesSlot hat hk, vsWrite_waits hat hk, vsWrite_releases hat hk⟩, fun hk => ⟨vec_off hat hk, fun hvs sl hslot =>
    ⟨fun hop h7 hres => ?set, fun hop hill f3 r hmem hf => ?int, fun m t1 g hop hm hload hslot1 => vload_row hat hk hvs hop hm hload hslot1,
      fun m t1 hop hm hstore hwf => vstore_row hat hk hvs hop hm hstore hwf⟩⟩⟩
  case set =>
    intro imm vt hkeep
    refine ⟨fun hok => vset_row hat hk hvs hslot hop h7 hres (vset_supported hkeep hok), fun hok => ?_⟩
    obtain ⟨u, hu, huslot, hpc, -⟩ := vset_row hat hk hvs hslot hop h7 hres (vset_unsupported hok)
    exact ⟨u, hu, huslot, hpc⟩
  case int =>
    have hr := xOpV_int hill hmem hf
    refine ⟨fun g hg => vecInt_row hat hk hvs hslot hop hr hg, fun hnone => vec_illegal hat hk fun nx => ?_⟩
    rw [xVec_opV hvs hop, hr, hnone]
    rfl

end Sys2Proof.Machine
end

section
/-! SUPPORT. Launches of harts and software interrupts (R273, R274, R276). -/
namespace Sys2Proof.Machine

/-! ## The registers of a launched hart -/

theorem get_of_above {α : Type} (d : α) {k : Nat} {t : Tab α} (h : Tab.above k t) : Tab.get d t k = d := by
  induction t with
  | nil => rfl
  | cons e t ih =>
    obtain ⟨j, v⟩ := e
    have hj : k < j := h (j, v) (by simp)
    rw [Tab.get, if_neg (by omega), ih fun e he => h e (List.mem_cons_of_mem _ he)]

/-- A table with its default values left out reads the same. -/
theorem get_filter_default {α : Type} [DecidableEq α] (d : α) {t : Tab α} (h : t.rising = true) (k : Nat) :
    Tab.get d (t.filter (fun e => decide (e.2 ≠ d))) k = Tab.get d t k := by
  induction t with
  | nil => rfl
  | cons e t ih =>
    obtain ⟨j, v⟩ := e
    obtain ⟨habove, hrise⟩ := Tab.rising_cons.mp h
    rw [Tab.get]
    by_cases hv : v = d
    · rw [List.filter_cons_of_neg (by simp [hv]), ih hrise]
      split
      · rename_i e; subst e; rw [get_of_above d habove, hv]
      · rfl
    · rw [List.filter_cons_of_pos (by simp [hv]), Tab.get, ih hrise]

/-- x10 to x15 of a hart that a launch record starts. -/
def launchRegs (r : BitVec 512) (h : Nat) : Tab DWord :=
  [(10, BitVec.ofNat 64 (launchWord r 0)), (11, BitVec.ofNat 64 (launchWord r 1)), (12, BitVec.ofNat 64 (launchWord r 2)),
    (13, BitVec.ofNat 64 (launchWord r 3)), (14, BitVec.ofNat 64 (launchMode r + 256 * launchUrg r)), (15, BitVec.ofNat 64 h)]

theorem launchRegs_other (r : BitVec 512) (h : Nat) {i : Nat} (hi : i < 10 ∨ 15 < i) : (launchRegs r h).get 0 i = 0 := by
  unfold launchRegs
  simp only [Tab.get]
  iterate 6 rw [if_neg (by omega)]

/-- The hart that a launch record starts for VI v. -/
def launchedHart (s : State) (h v : Nat) (r : BitVec 512) : Hart :=
  { run := .running, mode := .m, pc := BitVec.ofNat 64 (s.addr48 (Reg.CORE_ENTRY_LO (h / 512)) (Reg.CORE_ENTRY_HI (h / 512))),
    x := (launchRegs r h).filter (fun (e : Nat × DWord) => decide (e.2 ≠ 0)),
    csr := if launchUrg r = 0 then [] else [(csrURG, BitVec.ofNat 64 (launchUrg r))], vi := v }

theorem launchedHart_x (s : State) (h v : Nat) (r : BitVec 512) (i : Nat) : (launchedHart s h v r).x.get 0 i = (launchRegs r h).get 0 i :=
  get_filter_default 0 (t := launchRegs r h) rfl i

section
variable (s : State) (h v : Nat) (r : BitVec 512)

theorem startHart_eq : s.startHart h v r = (s.setHart h (launchedHart s h v r)).bump Reg.TF_CNT_LAUNCHES := rfl

theorem hart_startHart_same : (s.startHart h v r).hart h = launchedHart s h v r := (hart_count _ _ _ _).trans (hart_setHart_same _ _ _)

theorem hart_startHart_ne {k : Nat} (hk : k ≠ h) : (s.startHart h v r).hart k = s.hart k := (hart_count _ _ _ _).trans (hart_setHart_ne _ _ hk)
end

/-! ## The launch port (R274) -/

theorem not_msgReg_core (c : Fin 96) {r : Nat} (h : r < 0x1000) : ¬ msgReg (corePage c + r) := not_msgReg_seq (by unfold corePage; omega)

theorem parkedHart_core {s : State} {c h : Nat} (hp : s.parkedHart c = some h) : h / 512 = c := by
  unfold State.parkedHart at hp
  split at hp
  · exact absurd hp nofun
  · obtain ⟨i, hi, rfl⟩ := Option.map_eq_some_iff.mp hp
    obtain ⟨-, hmem, -⟩ := List.find?_range_eq_some.mp hi
    have := List.mem_range.mp hmem
    omega

/-- The fields that CORE_LAUNCH may change. -/
def launchFlds : List Fld := [.regs, .holding, .hevt, .msix, .out, .harts, .cores]

section
variable {s : State} {c : Fin 96} {r : BitVec 512}

theorem exec_coreLaunch (whole : Bool) : exec (.coreLaunch c r whole) s = .next (s.taken (s.launchPort c r whole) launchFlds) := rfl

/-- A launch that is taken. -/
theorem launchPort_taken (hok : launchOk r = true) (hown : s.coreOwner c ≠ none) (hfence : s.flag (corePage c + 0xC) 30 = false)
    (hroom : s.parkedHart c = none → (s.core c).launchQ.length < 64) : s.launchPort c r true = s.launchCore c 0 r := by
  unfold State.launchPort
  refine if_neg ?_
  rintro (e | e | e | e | ⟨hn, hlen⟩)
  · exact absurd e (by decide)
  · rw [hok] at e; exact absurd e (by decide)
  · exact hown (Option.isNone_iff_eq_none.mp e)
  · rw [hfence] at e; exact absurd e (by decide)
  · have := hroom (Option.isNone_iff_eq_none.mp hn); omega

theorem launch_starts (hok : launchOk r = true) (hown : s.coreOwner c ≠ none) (hfence : s.flag (corePage c + 0xC) 30 = false) {h : Nat}
    (hp : s.parkedHart c = some h) : ∃ t, exec (.coreLaunch c r true) s = .next t ∧ (t.hart h).run = .running ∧ (t.hart h).mode = .m ∧
      (t.hart h).pc = BitVec.ofNat 64 (s.addr48 (Reg.CORE_ENTRY_LO c) (Reg.CORE_ENTRY_HI c)) ∧
      (∀ i, i < 4 → (t.hart h).x.get 0 (10 + i) = BitVec.ofNat 64 (launchWord r i)) ∧
      (t.hart h).x.get 0 14 = BitVec.ofNat 64 (launchMode r + 256 * launchUrg r) ∧ (t.hart h).x.get 0 15 = BitVec.ofNat 64 h ∧
      (∀ i, i < 10 ∨ 15 < i → (t.hart h).x.get 0 i = 0) ∧ (t.hart h).f = [] ∧ (t.hart h).vi = 0 ∧ (t.hart h).slot = none ∧
      (∀ k, k ≠ h → t.hart k = s.hart k) ∧ t.rd Reg.TF_CNT_LAUNCHES = s.rd Reg.TF_CNT_LAUNCHES + 1 ∧
      ∀ a, a ≠ Reg.TF_CNT_LAUNCHES → t.rd a = s.rd a := by
  have hport : s.launchPort c r true = s.startHart h 0 r := by
    rw [launchPort_taken hok hown hfence (by rw [hp]; nofun), State.launchCore, hp]
  have hhart : ∀ k, (s.taken (s.launchPort c r true) launchFlds).hart k = (s.startHart h 0 r).hart k := fun k => by
    rw [taken_hart _ _ (by decide), hport]
  have hx : ∀ i, ((s.taken (s.launchPort c r true) launchFlds).hart h).x.get 0 i = (launchRegs r h).get 0 i := fun i => by
    rw [hhart, hart_startHart_same, launchedHart_x]
  have hrd : ∀ a, (s.taken (s.launchPort c r true) launchFlds).rd a = ((s.setHart h (launchedHart s h 0 r)).bump Reg.TF_CNT_LAUNCHES).rd a :=
    fun a => by rw [taken_rd _ _ (by decide), hport, startHart_eq]
  refine ⟨_, exec_coreLaunch true, ?_, ?_, ?_, fun i hi => ?_, hx 14, hx 15, fun i hi => (hx i).trans (launchRegs_other r h hi), ?_, ?_, ?_,
    fun k hk => (hhart k).trans (hart_startHart_ne s h 0 r hk), (hrd _).trans (rd_bump_same _ _), fun a ha => (hrd a).trans (rd_bump_ne _ ha)⟩
  · rw [hhart, hart_startHart_same, launchedHart]
  · rw [hhart, hart_startHart_same, launchedHart]
  · rw [hhart, hart_startHart_same, launchedHart, parkedHart_core hp]
  · rw [hx]
    match i, hi with
    | 0, _ | 1, _ | 2, _ | 3, _ => rfl
  · rw [hhart, hart_startHart_same, launchedHart]
  · rw [hhart, hart_startHart_same, launchedHart]
  · rw [hhart, hart_startHart_same, launchedHart]

theorem launch_queued (hok : launchOk r = true) (hown : s.coreOwner c ≠ none) (hfence : s.flag (corePage c + 0xC) 30 = false)
    (hp : s.parkedHart c = none) (hroom : (s.core c).launchQ.length < 64) : ∃ t, exec (.coreLaunch c r true) s = .next t ∧
      (t.core c).launchQ = (s.core c).launchQ ++ [r] ∧ t.harts = s.harts ∧ (∀ k, k ≠ c.val → t.core k = s.core k) ∧ ∀ a, t.rd a = s.rd a := by
  have hport : s.launchPort c r true = s.updCore c (fun x => { x with launchQ := x.launchQ ++ [r] }) := by
    rw [launchPort_taken hok hown hfence fun _ => hroom, State.launchCore, hp]
  refine ⟨_, exec_coreLaunch true, ?_, ?_, fun k hk => ?_, fun a => ?_⟩
  · rw [taken_core _ _ (by decide), hport, core_updCore_same]
  · rw [hport]; rfl
  · rw [taken_core _ _ (by decide), hport, core_updCore_ne _ _ hk]
  · rw [taken_rd _ _ (by decide), hport, rd_congr (updCore_same (f := .regs) _ _ _ (by decide))]

theorem launch_dropped {whole : Bool} (hbad : whole = false ∨ launchOk r = false ∨ s.coreOwner c = none ∨
      (s.parkedHart c = none ∧ 64 ≤ (s.core c).launchQ.length)) :
    ∃ t, exec (.coreLaunch c r whole) s = .next t ∧ t.harts = s.harts ∧ t.cores = s.cores ∧
      t.rd (Reg.CORE_CNT_LAUNCH_DROP c) = s.rd (Reg.CORE_CNT_LAUNCH_DROP c) + 1 ∧ t.flag (corePage c + 0x10) 0 = true := by
  have hport : s.launchPort c r whole = (s.bump (Reg.CORE_CNT_LAUNCH_DROP c)).raise (corePage c) 0 := by
    unfold State.launchPort
    refine if_pos ?_
    rcases hbad with e | e | e | ⟨hn, hlen⟩
    · exact .inl e
    · exact .inr (.inl e)
    · exact .inr (.inr (.inl (by rw [e]; rfl)))
    · exact .inr (.inr (.inr (.inr ⟨by rw [hn]; rfl, hlen⟩)))
  have hsame : ∀ f, f ∉ [Fld.regs, .holding, .msix, .hevt, .out] → f.same s ((s.bump (Reg.CORE_CNT_LAUNCH_DROP c)).raise (corePage c) 0) :=
    fun f hf => Fld.same_trans (count_same _ _ _ (notMem_part hf (by decide))) (raise_same _ _ _ hf)
  have hcnt : Reg.CORE_CNT_LAUNCH_DROP c = corePage c + 0xC8 := by unfold Reg.CORE_CNT_LAUNCH_DROP corePage; omega
  refine ⟨_, exec_coreLaunch whole, ?_, ?_, ?_, ?_⟩
  · rw [hport]; exact hsame .harts (by decide)
  · rw [hport]; exact hsame .cores (by decide)
  · rw [taken_rd _ _ (by decide), hport, rd_raise _ _ _ (by rw [hcnt]; exact not_msgReg_core c (by decide)) (by rw [hcnt]; omega), rd_bump_same]
  · rw [taken_flag _ _ (by decide), hport, flag_raise_self _ _ _ (by decide) (not_msgReg_core c (by decide))]
end

/-! ## Software interrupts (R276) -/

section
variable {v : Word} {s : State}

theorem ipi_sets (hh : bits v 15 0 < 49152) : ∃ t, exec (.ipi v) s = .next t ∧
    (t.hart (bits v 15 0)).csr.get 0 csrMip = (s.hart (bits v 15 0)).csr.get 0 csrMip ||| (if bit v 30 then 2 else 8) ∧
    (∀ n, n ≠ csrMip → (t.hart (bits v 15 0)).csr.get 0 n = (s.hart (bits v 15 0)).csr.get 0 n) ∧
    (t.hart (bits v 15 0)).x = (s.hart (bits v 15 0)).x ∧ (t.hart (bits v 15 0)).pc = (s.hart (bits v 15 0)).pc ∧
    (t.hart (bits v 15 0)).run = (s.hart (bits v 15 0)).run ∧ ∀ k, k ≠ bits v 15 0 → t.hart k = s.hart k := by
  have hipi : s.ipi v = s.updHart (bits v 15 0) (fun x => { x with csr := x.csr.set 0 csrMip (x.csr.get 0 csrMip ||| (if bit v 30 then 2 else 8)) }) :=
    if_neg (Nat.not_le.mpr hh)
  have hhart : ∀ k, (s.taken (s.ipi v) [.harts]).hart k = (s.ipi v).hart k := fun k => taken_hart _ _ (by decide) k
  refine ⟨s.taken (s.ipi v) [.harts], rfl, ?_⟩
  rw [hhart, hipi, hart_updHart_same]
  refine ⟨Tab.get_set_same _ _ _ _, fun n hn => Tab.get_set_ne _ _ _ hn, rfl, rfl, rfl, fun k hk => ?_⟩
  rw [← hipi, hhart, hipi, hart_updHart_ne _ _ hk]

theorem ipi_none (hh : 49152 ≤ bits v 15 0) : ∃ t, exec (.ipi v) s = .next t ∧ t.harts = s.harts :=
  ⟨s.taken (s.ipi v) [.harts], rfl, by rw [show s.ipi v = s from if_pos hh]; rfl⟩
end

end Sys2Proof.Machine
end

section
/-! SUPPORT. The boot and the programming of firmware images (R277 to R279), and the settled statement about them, launches and interrupts. -/
namespace Sys2Proof.Machine

/-! ## Writes of units that are not harts -/

theorem noResv_stIf (p : Byte × Nat → Bool) (a : Nat) (l : List (Byte × Nat)) (s : State) (h : Nat) :
    ((l.foldl (fun t (e : Byte × Nat) => if p e then t.st (a + e.2) [e.1] else t) s).hart h).noResv = (s.hart h).noResv := by
  induction l generalizing s with
  | nil => rfl
  | cons e l ih =>
    rw [List.foldl_cons, ih]
    split
    · exact noResv_st _ _ _ _
    · rfl

/-- Of a hart such a write breaks the reservation, and no more. -/
theorem noResv_stUnit (s : State) (a : Nat) (b : Bytes) (h : Nat) : ((s.stUnit a b).hart h).noResv = (s.hart h).noResv := by
  unfold State.stUnit
  dsimp only
  split
  · split
    · exact noResv_st s a b h
    · rw [hart_count]; exact noResv_stIf _ _ _ _ _
  · split
    · exact noResv_st _ a b h
    · split
      · exact noResv_stIf _ _ _ _ _
      · exact noResv_st s a b h

/-! ## The start of an image (R278) -/

/-- CORE_ENTRY of the first n cores is written. -/
def State.entriesSet (s : State) (lo hi : Word) (n : Nat) : State :=
  (List.range n).foldl (fun s c => (s.wr (Reg.CORE_ENTRY_LO c) lo).wr (Reg.CORE_ENTRY_HI c) hi) s

section
variable (s : State) (lo hi : Word)

theorem entriesSet_same {f : Fld} (n : Nat) (hf : f ∉ [Fld.regs]) : f.same s (s.entriesSet lo hi n) :=
  foldl_same _ (fun _ _ => Fld.same_trans (wr_same _ _ _ hf) (wr_same _ _ _ hf)) _ _

theorem entriesSet_succ (n : Nat) :
    s.entriesSet lo hi (n + 1) = ((s.entriesSet lo hi n).wr (Reg.CORE_ENTRY_LO n) lo).wr (Reg.CORE_ENTRY_HI n) hi := by
  unfold State.entriesSet
  rw [List.range_succ, List.foldl_append]
  rfl

theorem rd_entriesSet_lo {n c : Nat} (hc : c < n) : (s.entriesSet lo hi n).rd (Reg.CORE_ENTRY_LO c) = lo := by
  induction n with
  | zero => omega
  | succ n ih =>
    rw [entriesSet_succ, rd_wr_ne _ _ (by unfold Reg.CORE_ENTRY_LO Reg.CORE_ENTRY_HI; omega)]
    by_cases he : c = n
    · rw [he, rd_wr_same]
    · rw [rd_wr_ne _ _ (by unfold Reg.CORE_ENTRY_LO; omega), ih (by omega)]

theorem rd_entriesSet_low (n : Nat) {a : Nat} (ha : a < 0x221000) : (s.entriesSet lo hi n).rd a = s.rd a := by
  induction n with
  | zero => rfl
  | succ n ih =>
    rw [entriesSet_succ, rd_wr_ne _ _ (by unfold Reg.CORE_ENTRY_HI; omega), rd_wr_ne _ _ (by unfold Reg.CORE_ENTRY_LO; omega), ih]
end

/-- The image's body is where it is loaded, when that can be written. -/
def State.imageLoaded (s : State) (hdr body : Bytes) : State :=
  if s.canWrite 0 (leAt hdr 16 8) body.length = .ok then s.stUnit (leAt hdr 16 8) body else s

section
variable (s : State) (hdr body : Bytes) (slot : Nat)

theorem noResv_imageLoaded (h : Nat) : ((s.imageLoaded hdr body).hart h).noResv = (s.hart h).noResv := by
  unfold State.imageLoaded
  split
  · exact noResv_stUnit _ _ _ _
  · rfl

theorem rd_imageLoaded {r : Nat} (hr : r ≠ Reg.COM_CNT_BAD_UNIT) : (s.imageLoaded hdr body).rd r = s.rd r := by
  unfold State.imageLoaded
  split
  · exact rd_stUnit _ _ _ hr
  · rfl

/-- The image is loaded and every core has its entry. -/
def State.imagePlaced (s : State) (hdr body : Bytes) : State :=
  (s.imageLoaded hdr body).entriesSet (BitVec.ofNat 32 (leAt hdr 24 8 / 4 * 4)) (BitVec.ofNat 32 (leAt hdr 24 8 / 2 ^ 32 % 65536)) 96

theorem fwStart_eq : s.fwStart hdr body slot = (((s.imagePlaced hdr body).setHart 0
    { run := .running, mode := .m, pc := BitVec.ofNat 64 (leAt hdr 24 8) }).wr Reg.FW_VER (BitVec.ofNat 32 (leAt hdr 4 4))).setFld
      Reg.TF_STS 27 26 slot := rfl

theorem hart_fwStart (k : Nat) : (s.fwStart hdr body slot).hart k =
    if k = 0 then { run := .running, mode := .m, pc := BitVec.ofNat 64 (leAt hdr 24 8) } else (s.imageLoaded hdr body).hart k := by
  have hregs : (s.fwStart hdr body slot).hart k =
      ((s.imagePlaced hdr body).setHart 0 { run := .running, mode := .m, pc := BitVec.ofNat 64 (leAt hdr 24 8) }).hart k := by
    rw [fwStart_eq]
    exact (hart_congr (wr_same (f := .harts) _ _ _ (by decide)) k).trans (hart_congr (wr_same (f := .harts) _ _ _ (by decide)) k)
  rw [hregs]
  split
  · subst k; exact hart_setHart_same _ _ _
  · rw [hart_setHart_ne _ _ ‹_›]
    exact hart_congr (entriesSet_same (f := .harts) _ _ _ _ (by decide)) k

/-- The registers after the start, but FW_VER and TF_STS. -/
theorem rd_fwStart_ne {a : Nat} (hver : a ≠ Reg.FW_VER) (hsts : a ≠ Reg.TF_STS) : (s.fwStart hdr body slot).rd a = (s.imagePlaced hdr body).rd a := by
  rw [fwStart_eq, rd_setFld_ne _ _ _ _ hsts, rd_wr_ne _ _ hver, rd_congr (setHart_same (f := .regs) _ _ _ (by decide))]

theorem rd_fwStart_ver : (s.fwStart hdr body slot).rd Reg.FW_VER = BitVec.ofNat 32 (leAt hdr 4 4) := by
  rw [fwStart_eq, rd_setFld_ne _ _ _ _ (by decide), rd_wr_same]

theorem fld_fwStart : (s.fwStart hdr body slot).fld Reg.TF_STS 27 26 = slot % 4 := by
  rw [fwStart_eq, fld_setFld _ _ _ (by decide) (by decide)]
  rfl

theorem flag_fwStart {j : Nat} (hj : 27 < j) (h32 : j < 32) : (s.fwStart hdr body slot).flag Reg.TF_STS j = s.flag Reg.TF_STS j := by
  rw [fwStart_eq, flag_setFld_ne _ _ _ (by decide) (by decide) h32 (.inr hj)]
  refine flag_congr ?_ _
  rw [rd_wr_ne _ _ (by decide), rd_congr (setHart_same (f := .regs) _ _ _ (by decide)), State.imagePlaced, rd_entriesSet_low _ _ _ _ (by decide),
    rd_imageLoaded _ _ _ (by decide)]
end

/-! ## BOOT (R279) -/

theorem not_msgReg_tf {r : Nat} (h : r < 0x1000) : ¬ msgReg (tfPage + r) := not_msgReg_seq (by unfold tfPage; omega)

/-- A field that a row takes over. -/
theorem taken_takes {f : Fld} (s t : State) {w : List Fld} (hf : f ∈ w) (hm : f ≠ .mem) : f.same t (s.taken t w) := by
  cases f <;> first | exact if_pos hf | exact absurd rfl hm

/-- The fields that BOOT and PROGRAM may change. -/
def bootFlds : List Fld := [.mem, .regs, .flogRing, .flogLast, .holding, .hevt, .msix, .ue, .out, .sc, .harts]
def fwProgFlds : List Fld := [.flash, .regs, .flogRing, .flogLast, .holding, .hevt, .msix, .out, .fwProg]

/-- The n bytes of slot k are erased and its programming is under way. -/
def State.erasedFor (s : State) (k n : Nat) (image : Bytes) : State := { s.flashErase (fwSlot k) n with fwProg := some (k, image) }

section
variable (s : State) (k n : Nat) (image : Bytes)

theorem flashByte_erasedFor (i : Nat) :
    (s.erasedFor k n image).flashByte i = if i < fwSlot k ∨ fwSlot k + n ≤ i then s.flashByte i else 0xFF := flashByte_flashErase s (fwSlot k) n i

theorem erasedFor_regs : Fld.regs.same s (s.erasedFor k n image) := rfl

theorem erasedFor_fwProg : (s.erasedFor k n image).fwProg = some (k, image) := rfl
end

/-- FW_BUSY is set and FW_ERR clear. -/
def State.fwBusy (s : State) : State := (s.fwErr false).setFlag Reg.TF_STS 28 true

theorem flashByte_fwBusy (s : State) (i : Nat) : s.fwBusy.flashByte i = s.flashByte i := by
  have hflash : s.fwBusy.flash = s.flash := by rw [State.fwBusy, setFlag_flash, State.fwErr, setFlag_flash]
  rw [State.flashByte, hflash]
  rfl

/-- The slot not loaded. -/
def State.otherSlot (s : State) : Nat := if s.fld Reg.TF_STS 27 26 = 0 then 1 else 0

/-- What a BOOT of a valid image leaves. -/
def State.booted (s : State) (hdr body : Bytes) : State := (((s.fwErr false).setFld Reg.TF_STS 31 30 0).fwStart hdr body 2).raise tfPage 0

section
variable {req : BitVec 16} {v : Word} {s : State}

theorem fwErr_same {f : Fld} (s : State) (b : Bool) (hf : f ∉ [Fld.regs]) : f.same s (s.fwErr b) := wr_same _ _ _ hf

theorem keyed_boot (hk : bits v 31 16 = 0x5E6A) (g : State → State) : s.keyed req Reg.TF_CMD (v ||| 1) 0x5E6A g = g s :=
  if_pos (by rw [bits_or_zero _ _ (by decide), hk])

theorem keyed_program (hk : bits v 31 16 = 0x5E6A) (g : State → State) :
    s.keyed req Reg.TF_CMD ((v &&& 0xFFFFFFFC) ||| 2) 0x5E6A g = g s := if_pos (by rw [bits_key_replaced v 2 (by decide), hk])

section
variable (hk : bits v 31 16 = 0x5E6A) (hidle : s.flag Reg.TF_STS 28 = false)
include hk hidle

theorem exec_boot_image (hstate : s.flag Reg.TF_STS 31 = true ∨ s.flag Reg.TF_STS 30 = true) {hdr body : Bytes}
    (hsrc : s.fwSource = some (hdr, body)) : exec (.fwBoot req v) s = .next (s.taken (s.booted hdr body) bootFlds) := by
  have hboot : s.fwBoot req (v ||| 1) = s.booted hdr body := by
    unfold State.fwBoot
    rw [keyed_boot hk, if_neg (by rcases hstate with e | e <;> simp [hidle, e]), hsrc]
    rfl
  rw [← hboot]
  rfl

omit hidle in
theorem exec_boot_bad (hsrc : s.fwSource = none) : exec (.fwBoot req v) s = .next (s.taken (s.fwErr true) bootFlds) := by
  have hboot : s.fwBoot req (v ||| 1) = s.fwErr true := by
    unfold State.fwBoot
    rw [keyed_boot hk, hsrc]
    split <;> rfl
  rw [← hboot]
  rfl

theorem exec_program_image {hdr body : Bytes} (hsrc : s.fwSource = some (hdr, body)) : exec (.fwProgram req v) s =
    .next (s.taken (s.fwBusy.erasedFor s.otherSlot (128 + 29360000) (hdr ++ body)) fwProgFlds) := by
  have hprog : s.fwProgram req ((v &&& 0xFFFFFFFC) ||| 2) = s.fwBusy.erasedFor s.otherSlot (128 + 29360000) (hdr ++ body) := by
    unfold State.fwProgram
    rw [keyed_program hk, hidle, hsrc]
    rfl
  rw [← hprog]
  rfl

omit hidle in
theorem exec_program_bad (hsrc : s.fwSource = none) : exec (.fwProgram req v) s = .next (s.taken (s.fwErr true) fwProgFlds) := by
  have hprog : s.fwProgram req ((v &&& 0xFFFFFFFC) ||| 2) = s.fwErr true := by
    unfold State.fwProgram
    rw [keyed_program hk, hsrc]
    split <;> rfl
  rw [← hprog]
  rfl
end
end

section
variable (s : State) (hdr body : Bytes)

theorem hart_booted (k : Nat) : (s.booted hdr body).hart k =
    if k = 0 then { run := .running, mode := .m, pc := BitVec.ofNat 64 (leAt hdr 24 8) }
    else (((s.fwErr false).setFld Reg.TF_STS 31 30 0).imageLoaded hdr body).hart k :=
  (hart_congr (raise_same (f := .harts) _ _ _ (by decide)) k).trans (hart_fwStart _ _ _ _ _)

theorem run_booted_ne {k : Nat} (hk : k ≠ 0) : ((s.booted hdr body).hart k).run = (s.hart k).run := by
  have hres := noResv_imageLoaded ((s.fwErr false).setFld Reg.TF_STS 31 30 0) hdr body k
  have hregs : ((s.fwErr false).setFld Reg.TF_STS 31 30 0).hart k = s.hart k :=
    (hart_congr (wr_same (f := .harts) _ _ _ (by decide)) k).trans (hart_congr (fwErr_same (f := .harts) _ _ (by decide)) k)
  rw [hart_booted, if_neg hk]
  rw [hregs] at hres
  have hrun := congrArg Hart.run hres
  exact hrun

theorem rd_booted {a : Nat} (ha : 0x220000 ≤ a ∧ a < 0x300000) (hsts : a ≠ tfPage + 0x10) :
    (s.booted hdr body).rd a = (((s.fwErr false).setFld Reg.TF_STS 31 30 0).fwStart hdr body 2).rd a :=
  rd_raise _ _ _ (not_msgReg_seq (by omega)) hsts

theorem rd_booted_entry {c : Nat} (hc : c < 96) : (s.booted hdr body).rd (Reg.CORE_ENTRY_LO c) = BitVec.ofNat 32 (leAt hdr 24 8 / 4 * 4) := by
  rw [rd_booted _ _ _ (by unfold Reg.CORE_ENTRY_LO; omega) (by unfold Reg.CORE_ENTRY_LO tfPage; omega),
    rd_fwStart_ne _ _ _ _ (by unfold Reg.CORE_ENTRY_LO Reg.FW_VER; omega) (by unfold Reg.CORE_ENTRY_LO Reg.TF_STS; omega), State.imagePlaced,
    rd_entriesSet_lo _ _ _ hc]
end

section
variable {req : BitVec 16} {v : Word} {s : State} (hk : bits v 31 16 = 0x5E6A) (hidle : s.flag Reg.TF_STS 28 = false)
include hk hidle

theorem boot_image (hstate : s.flag Reg.TF_STS 31 = true ∨ s.flag Reg.TF_STS 30 = true) {hdr body : Bytes}
    (hsrc : s.fwSource = some (hdr, body)) : ∃ t, exec (.fwBoot req v) s = .next t ∧
      (t.hart 0).run = .running ∧ (t.hart 0).pc = BitVec.ofNat 64 (leAt hdr 24 8) ∧ t.rd Reg.FW_VER = BitVec.ofNat 32 (leAt hdr 4 4) ∧
      t.fld Reg.TF_STS 27 26 = 2 ∧ t.flag Reg.TF_STS 29 = false ∧ t.flag (tfPage + 0x10) 0 = true ∧ t.flash = s.flash ∧
      (∀ c, c < 96 → t.rd (Reg.CORE_ENTRY_LO c) = BitVec.ofNat 32 (leAt hdr 24 8 / 4 * 4)) ∧ ∀ k, k ≠ 0 → (t.hart k).run = (s.hart k).run := by
  have hrd : ∀ a, (s.taken (s.booted hdr body) bootFlds).rd a = (s.booted hdr body).rd a := taken_rd _ _ (by decide)
  have hhart : ∀ k, (s.taken (s.booted hdr body) bootFlds).hart k = (s.booted hdr body).hart k := taken_hart _ _ (by decide)
  have hsts : (s.booted hdr body).rd Reg.TF_STS = (((s.fwErr false).setFld Reg.TF_STS 31 30 0).fwStart hdr body 2).rd Reg.TF_STS :=
    rd_booted _ _ _ (by decide) (by decide)
  refine ⟨_, exec_boot_image hk hidle hstate hsrc, ?_, ?_, ?_, ?_, ?_, ?_, taken_same (f := .flash) _ _ (by decide), fun c hc => (hrd _).trans (rd_booted_entry _ _ _ hc),
    fun k hk0 => by rw [hhart, run_booted_ne _ _ _ hk0]⟩
  · rw [hhart, hart_booted, if_pos rfl]
  · rw [hhart, hart_booted, if_pos rfl]
  · rw [hrd, rd_booted _ _ _ (by decide) (by decide), rd_fwStart_ver]
  · rw [fld_congr ((hrd _).trans hsts), fld_fwStart]
  · rw [flag_congr ((hrd _).trans hsts), flag_fwStart _ _ _ _ (by decide) (by decide), flag_setFld_ne _ _ _ (by decide) (by decide) (by decide) (by decide),
      State.fwErr, flag_setFlag _ _ _ (by decide)]
  · rw [flag_congr (hrd _), State.booted, flag_raise_self _ _ _ (by decide) (not_msgReg_tf (by decide))]

/-! ## PROGRAM (R279) -/

omit hk hidle in
theorem erasedFor_taken (k n : Nat) (image : Bytes) : let t := s.taken (s.fwBusy.erasedFor k n image) fwProgFlds
    t.flag Reg.TF_STS 28 = true ∧ t.flag Reg.TF_STS 29 = false ∧ t.fwProg = some (k, image) ∧
      ∀ i, t.flashByte i = if i < fwSlot k ∨ fwSlot k + n ≤ i then s.flashByte i else 0xFF := by
  intro t
  have hflag : ∀ j, t.flag Reg.TF_STS j = s.fwBusy.flag Reg.TF_STS j := fun j =>
    (taken_flag _ _ (by decide) _ _).trans (flag_congr (rd_congr (erasedFor_regs _ _ _ _) _) j)
  have hprog : t.fwProg = (s.fwBusy.erasedFor k n image).fwProg := taken_takes (f := .fwProg) _ _ (by decide) nofun
  refine ⟨?_, ?_, hprog.trans (erasedFor_fwProg _ _ _ _), fun i => ?_⟩
  · rw [hflag, State.fwBusy, flag_setFlag _ _ _ (by decide)]
  · rw [hflag, State.fwBusy, flag_setFlag_ne _ _ _ (by decide) (by decide) (by decide), State.fwErr, flag_setFlag _ _ _ (by decide)]
  · rw [taken_flashByte _ _ (by decide), flashByte_erasedFor, flashByte_fwBusy]

theorem program_image {hdr body : Bytes} (hsrc : s.fwSource = some (hdr, body)) :
    ∃ t, exec (.fwProgram req v) s = .next t ∧ t.flag Reg.TF_STS 28 = true ∧ t.flag Reg.TF_STS 29 = false ∧
      t.fwProg = some (s.otherSlot, hdr ++ body) ∧
      (∀ i, i < 128 + 29360000 → t.flashByte (fwSlot s.otherSlot + i) = 0xFF) ∧
      (∀ i, (i < fwSlot s.otherSlot ∨ fwSlot s.otherSlot + 128 + 29360000 ≤ i) → t.flashByte i = s.flashByte i) := by
  obtain ⟨hbusy, herr, hprog, hflash⟩ := erasedFor_taken (s := s) s.otherSlot (128 + 29360000) (hdr ++ body)
  refine ⟨_, exec_program_image hk hidle hsrc, hbusy, herr, hprog, fun i hi => ?_, fun i hi => ?_⟩
  · rw [hflash, if_neg (by omega)]
  · rw [hflash, if_pos (by rwa [Nat.add_assoc] at hi)]

/-! ## Sources that are not valid -/

omit hk hidle in
/-- A row that only sets FW_ERR leaves the other fields. -/
theorem fwErr_taken {f : Fld} {w : List Fld} (hf : f ∈ w) (hregs : f ∉ [Fld.regs]) (hm : f ≠ .mem) : f.same s (s.taken (s.fwErr true) w) :=
  Fld.same_trans (fwErr_same s true hregs) (taken_takes s (s.fwErr true) hf hm)

omit hidle in
theorem boot_bad (hsrc : s.fwSource = none) : ∃ t, exec (.fwBoot req v) s = .next t ∧ t.flag Reg.TF_STS 29 = true ∧ t.harts = s.harts ∧
    ∀ a, a ≠ Reg.TF_STS → t.rd a = s.rd a := by
  refine ⟨_, exec_boot_bad hk hsrc, ?_, fwErr_taken (f := .harts) (by decide) (by decide) nofun, fun a ha => ?_⟩
  · rw [taken_flag _ _ (by decide), State.fwErr, flag_setFlag _ _ _ (by decide)]
  · rw [taken_rd _ _ (by decide), State.fwErr, rd_setFlag_ne _ _ _ ha]

omit hidle in
theorem program_bad (hsrc : s.fwSource = none) : ∃ t, exec (.fwProgram req v) s = .next t ∧ t.flag Reg.TF_STS 29 = true ∧ t.flash = s.flash ∧
    t.fwProg = s.fwProg := by
  refine ⟨_, exec_program_bad hk hsrc, ?_, fwErr_taken (f := .flash) (by decide) (by decide) nofun,
    fwErr_taken (f := .fwProg) (by decide) (by decide) nofun⟩
  rw [taken_flag _ _ (by decide), State.fwErr, flag_setFlag _ _ _ (by decide)]
end

/-! ## The end of a programming -/

theorem getD_flashBytes (m : List Host.Cell) (a : Nat) {n i : Nat} (h : i < n) : (flashBytes m a n).getD i 0 = Tab.get 0xFF m (a + i) := by
  induction n generalizing a i with
  | zero => omega
  | succ n ih =>
    cases i with
    | zero => rfl
    | succ i =>
      rw [flashBytes, List.getD_cons_succ, ih (a + 1) (by omega)]
      congr 1; omega

/-- The flash after its programming, when the read-back matched or not. -/
def State.readBack (s : State) (good : Bool) (k : Nat) (image : Bytes) : State :=
  if good then ({ s with fwProg := none } : State).flashProg (fwSlot k) image else ({ s with fwProg := none } : State).fwErr true

theorem programDone {s : State} {k : Nat} {image : Bytes} (good : Bool) (hprog : s.fwProg = some (k, image)) :
    ∃ t, exec (.fwProgramDone good) s = .next t ∧ t.fwProg = none ∧
      t.flag Reg.TF_STS 28 = false ∧ t.flag (tfPage + 0x10) 0 = true ∧ (good = false → t.flag Reg.TF_STS 29 = true ∧ t.flash = s.flash) ∧
      (good = true → (∀ i, i < image.length → t.flashByte (fwSlot k + i) = image.getD i 0) ∧
        ∀ i, (i < fwSlot k ∨ fwSlot k + image.length ≤ i) → t.flashByte i = s.flashByte i) := by
  have hdone : s.fwProgramDone good = ((s.readBack good k image).setFlag Reg.TF_STS 28 false).raise tfPage 0 := by
    unfold State.fwProgramDone
    rw [hprog]
    rfl
  have hrd : ∀ a, a ≠ tfPage + 0x10 → (0x220000 ≤ a ∧ a < 0x300000) →
      (s.fwProgramDone good).rd a = ((s.readBack good k image).setFlag Reg.TF_STS 28 false).rd a := fun a hne ha => by
    rw [hdone, rd_raise _ _ _ (not_msgReg_seq (by omega)) hne]
  have hflash : (s.fwProgramDone good).flash = (s.readBack good k image).flash := by rw [hdone, raise_flash, setFlag_flash]
  have hfield : (s.fwProgramDone good).fwProg = none := by
    have hback : (s.readBack good k image).fwProg = none := by unfold State.readBack; split <;> rfl
    have hraise : (s.fwProgramDone good).fwProg = (s.readBack good k image).fwProg := by
      rw [hdone]
      exact Fld.same_trans (f := .fwProg) (wr_same _ _ _ (by decide)) (raise_same _ _ _ (by decide))
    exact hraise.trans hback
  refine ⟨s.taken (s.fwProgramDone good) [.flash, .regs, .holding, .hevt, .msix, .out, .fwProg], rfl, hfield, ?_, ?_, fun hbad => ⟨?_, ?_⟩,
    fun hgood => ⟨fun i hi => ?_, fun i hi => ?_⟩⟩
  · rw [taken_flag _ _ (by decide), flag_congr (hrd _ (by decide) (by decide)), flag_setFlag _ _ _ (by decide)]
  · rw [taken_flag _ _ (by decide), hdone, flag_raise_self _ _ _ (by decide) (not_msgReg_tf (by decide))]
  · rw [taken_flag _ _ (by decide), flag_congr (hrd _ (by decide) (by decide)), flag_setFlag_ne _ _ _ (by decide) (by decide) (by decide), hbad]
    exact flag_setFlag _ Reg.TF_STS (i := 29) true (by decide)
  · have hback : (s.readBack false k image).flash = s.flash := by
      unfold State.readBack
      rw [if_neg Bool.false_ne_true, State.fwErr, setFlag_flash]
    rw [hbad] at hflash ⊢
    exact (taken_takes (f := .flash) _ _ (by decide) nofun : (s.taken (s.fwProgramDone false) _).flash = _).trans (hflash.trans hback)
  · rw [taken_flashByte _ _ (by decide), State.flashByte, hflash, hgood, ← getD_flashBytes _ _ hi]
    exact congrArg (fun b : Bytes => b.getD i 0) (flashBytes_flashStore _ _ _)
  · rw [taken_flashByte _ _ (by decide), State.flashByte, hflash, hgood]
    exact get_flashStore_ne _ _ _ hi

/-! ## The statement -/

/-- Settles O40: each case by what the launch port, the interrupt, or the firmware command leaves. -/
theorem launchesInterruptsAndFirmware : Obligations.LaunchesInterruptsAndFirmware := by
  unfold Obligations.LaunchesInterruptsAndFirmware
  refine ⟨fun c r s => ⟨fun hok hown hfence => ⟨fun h => launch_starts hok hown hfence, launch_queued hok hown hfence⟩, fun whole => launch_dropped⟩,
    fun v s => ⟨ipi_sets, ipi_none⟩, fun req v s hk hidle => ⟨fun hstate hdr body => boot_image hk hidle hstate, boot_bad hk,
      fun hdr body => program_image hk hidle, program_bad hk⟩, fun good s k image => programDone good⟩

end Sys2Proof.Machine
end

section
/-! SUPPORT. The end of record assembly and the commits of record bodies (R282, R285, R287, R289). -/
namespace Sys2Proof.Machine

/-! ## Items -/

theorem item_congr {s t : State} (hs : Fld.items.same s t) (id : Nat) : t.item id = s.item id := congrArg (Tab.look · id) hs

theorem item_freeItem_ne (s : State) {id j : Nat} (h : j ≠ id) : (s.freeItem id).item j = s.item j := Tab.look_erase_ne _ h

theorem cancelWork_items (s : State) (id : Nat) : Fld.items.same s (s.cancelWork id) :=
  Fld.same_trans (cancelFace_same _ _ (by decide)) (abandonCtxs_same _ _ (by decide))

/-- A seal without late records frees the item's entry and no other. -/
theorem sealItem_frees (s : State) (id : Nat) {it : Item} (hi : s.item id = some it) (hs : it.sealInfo = none) (hh : it.shadow = none)
    (hl : it.pv.lateMode = 0) {j : Nat} (hj : j ≠ id) : (s.sealItem id .completed).item j = s.item j := by
  have hfree : ∀ u : State, Fld.items.same s u → ((u.cancelWork id).freeItem id).item j = s.item j := fun u hu => by
    rw [item_freeItem_ne _ hj]
    exact item_congr (Fld.same_trans hu (cancelWork_items u id)) j
  unfold State.sealItem
  simp only [hi, hs, hh]
  simp only [Option.isSome_none, Bool.false_eq_true, or_self, if_false, show (SealCause.completed == SealCause.deadline) = false from rfl,
    Bool.false_and, hl]
  exact hfree _ (formDecision_same _ _ _ _ _ (by decide))

/-! ## ASM_DONE (R282) -/

/-- The item that ASM_DONE names. -/
def State.asmItem (s : State) (v : Word) : Nat := (s.rd Reg.ASM_DONE_LO).toNat + v.toNat * 2 ^ 32

/-- The state with ASM_DONE_HI written. -/
def State.asmWritten (s : State) (v : Word) : State := s.wr Reg.ASM_DONE_HI v

section
variable {v : Word} {s : State}

theorem item_asmWritten (id : Nat) : (s.asmWritten v).item id = s.item id := rfl

theorem asmDone_eq : s.asmDone v = match s.item (s.asmItem v) with
    | none => (s.asmWritten v).bump Reg.TF_CNT_ASM_STALE
    | some it => if it.shadow.isSome ∨ it.done.getLsbD 4 then (s.asmWritten v).bump Reg.TF_CNT_ASM_STALE
        else (s.asmWritten v).stageDone (s.asmItem v) 4 := by
  have hid : ((s.wr Reg.ASM_DONE_HI v).rd Reg.ASM_DONE_LO).toNat + v.toNat * 2 ^ 32 = s.asmItem v := by
    rw [rd_wr_ne _ _ (by decide)]
    rfl
  unfold State.asmDone
  dsimp only
  rw [hid]
  rfl

/-- The fields that ASM_DONE may change. -/
def asmFlds : List Fld := [.free, .mem, .regs, .holding, .hevt, .msix, .qs, .items, .egress, .ue, .out, .ports, .gctxs, .sc, .harts]

theorem exec_asmDone : exec (.asmDone v) s = .next (s.taken (s.asmDone v) asmFlds) := rfl

theorem asmDone_unknown (hi : s.item (s.asmItem v) = none) :
    ∃ t, exec (.asmDone v) s = .next t ∧ t.rd Reg.TF_CNT_ASM_STALE = s.rd Reg.TF_CNT_ASM_STALE + 1 ∧ t.items = s.items := by
  have hstale : s.asmDone v = (s.asmWritten v).bump Reg.TF_CNT_ASM_STALE := by rw [asmDone_eq, hi]
  refine ⟨_, exec_asmDone, ?_, ?_⟩
  · rw [taken_rd _ _ (by decide), hstale, rd_bump_same, State.asmWritten, rd_wr_ne _ _ (by decide)]
  · rw [hstale]
    exact Fld.same_trans (f := .items) (Fld.same_trans (f := .items) (wr_same s _ _ (by decide)) (count_same _ _ _ (by decide)))
      (taken_takes (f := .items) s _ (by decide) nofun)

/-- An item with its result stage done. -/
def Item.assembled (it : Item) : Item := { it with done := it.done ||| BitVec.ofNat 5 (2 ^ 4) }

/-- The state with the item's result stage marked, before the stages are looked at again. -/
def State.asmMarked (s : State) (v : Word) : State := (s.asmWritten v).markDone (s.asmItem v) 4

section
variable {it : Item} (hi : s.item (s.asmItem v) = some it)
include hi

theorem item_asmMarked : (s.asmMarked v).item (s.asmItem v) = some it.assembled := by
  rw [State.asmMarked, markDone_eq ((item_asmWritten _).trans hi), item_setItem]
  rfl

theorem item_asmMarked_ne {j : Nat} (hj : j ≠ s.asmItem v) : (s.asmMarked v).item j = s.item j := by
  rw [State.asmMarked, markDone_eq ((item_asmWritten _).trans hi), item_setItem_ne _ _ hj, item_asmWritten]

variable (hh : it.shadow = none) (h4 : it.done.getLsbD 4 = false)
include hh h4

/-- ASM_DONE settles the item with the stages found done. -/
theorem asmDone_settles : s.asmDone v = ((s.asmMarked v).setItem (s.asmItem v)
    { it.assembled with done := (s.asmMarked v).stagesFound (s.asmItem v) it.assembled }).settle (s.asmItem v) := by
  have hstage : s.asmDone v = (s.asmMarked v).refresh (s.asmItem v) := by
    rw [asmDone_eq, hi]
    exact if_neg (by rw [hh, h4]; decide)
  rw [hstage]
  unfold State.refresh
  simp only [item_asmMarked hi]
  rfl

/-- While capture is to come the item stays, with its result stage done. -/
theorem asmDone_marks (h0 : it.done.getLsbD 0 = false) : ∃ t it', exec (.asmDone v) s = .next t ∧ t.item (s.asmItem v) = some it' ∧
    it'.done.getLsbD 4 = true ∧ it'.sealInfo = it.sealInfo ∧ ∀ j, j ≠ s.asmItem v → t.item j = s.item j := by
  have hbit : ∀ i, (4 : BitVec 5).getLsbD i = false → (8 : BitVec 5).getLsbD i = false →
      ((s.asmMarked v).stagesFound (s.asmItem v) it.assembled).getLsbD i = (it.done ||| BitVec.ofNat 5 (2 ^ 4)).getLsbD i := fun i =>
    getLsbD_stagesFound _ _ it.assembled
  have hopen : (s.asmMarked v).stagesFound (s.asmItem v) it.assembled ≠ 31 := by
    intro hall
    have h := hbit 0 (by decide) (by decide)
    rw [hall, BitVec.getLsbD_or, h0] at h
    exact absurd h (by decide)
  have hstays := (asmDone_settles hi hh h4).trans (settle_unfinished (item_setItem _ _ _) hopen)
  refine ⟨_, { it.assembled with done := (s.asmMarked v).stagesFound (s.asmItem v) it.assembled }, exec_asmDone, ?_, ?_, rfl, fun j hj => ?_⟩
  · rw [taken_item _ _ (by decide), hstays, item_setItem]
  · rw [hbit 4 (by decide) (by decide), BitVec.getLsbD_or]
    exact (Bool.or_eq_true _ _).mpr (.inr (by decide))
  · rw [taken_item _ _ (by decide), hstays, item_setItem_ne _ _ hj, item_asmMarked_ne hi hj]

omit hi hh h4 in
/-- An item with every stage done that is still open is sealed. -/
theorem settle_seals {s : State} {id : Nat} (hi : s.item id = some it) (hd : it.done = 31) (hh : it.shadow = none) (hs : it.sealInfo = none) :
    s.settle id = s.sealItem id .completed := by
  unfold State.settle
  simp only [hi, hs, hd, hh]
  rfl

/-- As the last of the five stages it seals the item, which leaves. -/
theorem asmDone_completes (hd : it.done = 15) (hs : it.sealInfo = none) (hl : it.pv.lateMode = 0) :
    ∃ t, exec (.asmDone v) s = .next t ∧ t.item (s.asmItem v) = none ∧ ∀ j, j ≠ s.asmItem v → t.item j = s.item j := by
  have hall : (s.asmMarked v).stagesFound (s.asmItem v) it.assembled = 31 := by
    unfold State.stagesFound Item.assembled
    simp only [hd]
    split <;> split <;> decide
  have hitem := item_setItem (s.asmMarked v) (s.asmItem v) { it.assembled with done := (s.asmMarked v).stagesFound (s.asmItem v) it.assembled }
  have hseal := (asmDone_settles hi hh h4).trans (settle_seals hitem hall hh hs)
  refine ⟨_, exec_asmDone, ?_, fun j hj => ?_⟩
  · rw [taken_item _ _ (by decide), hseal, sealItem_none _ _ _ hitem hs hh hl]
  · rw [taken_item _ _ (by decide), hseal, sealItem_frees _ _ hitem hs hh hl hj, item_setItem_ne _ _ hj, item_asmMarked_ne hi hj]
end
end

/-! ## Commits (R285, R287, R289) -/

/-- The fields that RECORD_COMMIT may change. -/
def commitFlds : List Fld := [.regs, .holding, .hevt, .msix, .items, .egress, .out]

section
variable {b : List Byte} {s : State}

theorem exec_recordCommit : exec (.recordCommit b) s = .next (s.taken (s.commit b) commitFlds) := rfl

/-- A commit that counts in one register and changes no item. -/
theorem commit_counted {a : Nat} (hc : s.commit b = s.bump a) : ∃ t, exec (.recordCommit b) s = .next t ∧ t.items = s.items ∧
    t.rd a = s.rd a + 1 ∧ ∀ r, r ≠ a → t.rd r = s.rd r := by
  refine ⟨_, exec_recordCommit, ?_, ?_, fun r hr => ?_⟩
  · rw [hc]
    exact Fld.same_trans (f := .items) (count_same _ _ _ (by decide)) (taken_takes (f := .items) s _ (by decide) nofun)
  · rw [taken_rd _ _ (by decide), hc, rd_bump_same]
  · rw [taken_rd _ _ (by decide), hc, rd_bump_ne _ hr]

theorem commit_refused (hc : s.commit b = s.commitBad) : ∃ t, exec (.recordCommit b) s = .next t ∧ t.items = s.items ∧
    t.flag 0x7010 0 = true ∧ t.rd Reg.REC_CNT_COMMIT_BAD = s.rd Reg.REC_CNT_COMMIT_BAD + 1 := by
  refine ⟨_, exec_recordCommit, ?_, ?_, ?_⟩
  · rw [hc]
    exact Fld.same_trans (f := .items) (Fld.same_trans (f := .items) (count_same s _ _ (by decide)) (raise_same _ _ _ (by decide)))
      (taken_takes (f := .items) s _ (by decide) nofun)
  · rw [taken_flag _ _ (by decide), hc]
    exact flag_raise_self _ 0x7000 0 (by decide) (not_msgReg (.inr (by decide)) (by decide))
  · rw [taken_rd _ _ (by decide), hc, State.commitBad, rd_raise _ _ _ (not_msgReg (.inr (by decide)) (by decide)) (by decide), rd_bump_same]

theorem commit_bad (hb : b.length ≠ 64 ∨ zeroAt b 25 39 = false ∨ 4 ≤ byteAt b 24 ∨ 65024 < leAt b 16 4 ∨ 4095 < leAt b 20 2) :
    s.commit b = s.commitBad := if_pos hb

section
variable (h64 : b.length = 64) (hz : zeroAt b 25 39 = true) (hf : byteAt b 24 < 4) (hbytes : leAt b 16 4 ≤ 65024) (hparts : leAt b 20 2 ≤ 4095)
include h64 hz hf hbytes hparts

theorem commit_wellFormed : ¬ (b.length ≠ 64 ∨ zeroAt b 25 39 = false ∨ 4 ≤ byteAt b 24 ∨ 65024 < leAt b 16 4 ∨ 4095 < leAt b 20 2) := by
  rintro (e | e | e | e | e)
  · exact e h64
  · rw [hz] at e; exact absurd e (by decide)
  all_goals omega

theorem commit_unknown (hi : s.item (leAt b 0 8) = none) : s.commit b = s.bump Reg.REC_CNT_COMMIT_STALE := by
  unfold State.commit
  dsimp only
  rw [if_neg (commit_wellFormed h64 hz hf hbytes hparts), hi]

variable {it : Item} (hi : s.item (leAt b 0 8) = some it) (hh : it.shadow = none)
include hi hh

theorem commit_takesBack (hless : leAt b 16 4 < it.bytes ∨ leAt b 20 2 < it.parts) : s.commit b = s.commitBad := by
  unfold State.commit
  dsimp only
  rw [if_neg (commit_wellFormed h64 hz hf hbytes hparts), hi]
  dsimp only
  rw [hh, if_neg (by decide), if_pos (by tauto)]

/-- The item as a commit before its seal leaves it. -/
def Item.committed (it : Item) (b : List Byte) : Item :=
  { it with body := leAt b 8 8, bytes := leAt b 16 4, parts := leAt b 20 2,
            decision := if byteAt b 24 % 2 = 1 then some (leAt b 22 2) else it.decision,
            partFail := it.partFail || decide (2 ≤ byteAt b 24) }

theorem commit_taken (hbytes' : it.bytes ≤ leAt b 16 4) (hparts' : it.parts ≤ leAt b 20 2)
    (hbody : it.body = leAt b 8 8 ∨ (it.body = 0 ∧ it.bytes = 0 ∧ it.parts = 0)) (hs : it.sealInfo = none) :
    s.commit b = (s.bump Reg.REC_CNT_COMMITS).setItem (leAt b 0 8) (it.committed b) := by
  have hfirst : ¬ ((it.bytes == 0 && it.parts == 0 && it.body == 0) = false ∧ leAt b 8 8 ≠ it.body) := by
    rintro ⟨hno, hne⟩
    rcases hbody with e | ⟨e1, e2, e3⟩
    · exact hne e.symm
    · rw [e1, e2, e3] at hno; exact absurd hno (by decide)
  unfold State.commit
  dsimp only
  rw [if_neg (commit_wellFormed h64 hz hf hbytes hparts), hi]
  dsimp only
  rw [if_neg (by rw [hh]; decide), if_neg (by rintro (e | e | e) <;> [omega; omega; exact hfirst e])]
  split
  · rfl
  · rename_i hsealed
    rw [hs] at hsealed
    exact nomatch hsealed
end

theorem commit_publishes {it' : Item} (hc : s.commit b = (s.bump Reg.REC_CNT_COMMITS).setItem (leAt b 0 8) it') :
    ∃ t, exec (.recordCommit b) s = .next t ∧ t.item (leAt b 0 8) = some it' ∧ (∀ j, j ≠ leAt b 0 8 → t.item j = s.item j) ∧
      t.rd Reg.REC_CNT_COMMITS = s.rd Reg.REC_CNT_COMMITS + 1 ∧ ∀ a, a ≠ Reg.REC_CNT_COMMITS → t.rd a = s.rd a := by
  have hrd : ∀ a, (s.commit b).rd a = (s.bump Reg.REC_CNT_COMMITS).rd a := fun a => by
    rw [hc]
    exact rd_congr (setItem_same (f := .regs) _ _ _ (by decide)) a
  refine ⟨_, exec_recordCommit, ?_, fun j hj => ?_, ?_, fun a ha => ?_⟩
  · rw [taken_item _ _ (by decide), hc, item_setItem]
  · rw [taken_item _ _ (by decide), hc, item_setItem_ne _ _ hj]
    rfl
  · rw [taken_rd _ _ (by decide), hrd, rd_bump_same]
  · rw [taken_rd _ _ (by decide), hrd, rd_bump_ne _ ha]
end

end Sys2Proof.Machine
end

section
/-! SUPPORT. The loading of destination descriptors (R296), and the settled statement about them, ASM_DONE and commits. -/
namespace Sys2Proof.Machine

/-! ## What loading leaves alone -/

/-- The fields that a load of descriptors may change, and the registers. -/
def destFlds : List Fld := [.regs, .holding, .hevt, .msix, .dests, .out]
def destRegs : List Nat := [Reg.REC_STS, 0x7010, Reg.COM_CNT_BAD_UNIT]

/-- From `s` to `t` only what a load of descriptors may change has changed. -/
structure State.DestKeeps (s t : State) : Prop where
  same : ∀ f, f ∉ destFlds → f.same s t
  rd : ∀ a, a ∉ destRegs → ¬ msgReg a → t.rd a = s.rd a

theorem State.DestKeeps.refl (s : State) : s.DestKeeps s := ⟨fun f _ => Fld.same_refl f s, fun _ _ _ => rfl⟩

theorem State.DestKeeps.trans {s t u : State} (h : s.DestKeeps t) (k : t.DestKeeps u) : s.DestKeeps u :=
  ⟨fun f hf => Fld.same_trans (h.same f hf) (k.same f hf), fun a ha hm => (k.rd a ha hm).trans (h.rd a ha hm)⟩

/-! ## A descriptor and its check -/

/-- The 64 bytes at `a` are a descriptor that is activated. -/
def State.descGood (s : State) (a : Nat) : Bool := inCommons a 64 && decide (s.canRead 0 a 64 = .ok) && s.destOk (s.ldUnit a 64).1

theorem inCommons_iff {a n : Nat} : inCommons a n = true ↔ commonsBase ≤ a ∧ a + n ≤ 0x001003800000 := by
  unfold inCommons
  simp only [Bool.and_eq_true, decide_eq_true_iff]

/-- Commons are read past the checks of host memory and of the channels. -/
theorem canRead_commons (s : State) {a : Nat} (ha : inCommons a 64 = true) : s.canRead 0 a 64 =
    if !inRange a 64 then .unmapped
    else if s.ue.any (fun l => decide (a / 64 ≤ l) && decide (l ≤ (a + 64 - 1) / 64)) then .error else .ok := by
  obtain ⟨hlo, hhi⟩ := inCommons_iff.mp ha
  unfold commonsBase at hlo
  unfold State.canRead hostBase
  rw [if_neg (by decide), if_neg (by omega : ¬ 0x800000000000 ≤ a), if_neg (by omega : ¬ a < 0x000C00000000)]

section
variable {s t : State} (h : s.DestKeeps t)
include h

theorem unitIsMem_keeps {u : Nat} (hu : u < 56) : t.unitIsMem u = s.unitIsMem u := by
  have hreg : Reg.UNIT_MAP (u / 4) ∉ destRegs := by
    unfold destRegs Reg.UNIT_MAP Reg.REC_STS Reg.COM_CNT_BAD_UNIT
    simp only [List.mem_cons, List.not_mem_nil, or_false, not_or]
    omega
  have hrd := h.rd (Reg.UNIT_MAP (u / 4)) hreg (not_msgReg (.inr (by unfold Reg.UNIT_MAP; omega)) (by unfold Reg.UNIT_MAP; omega))
  unfold State.unitIsMem State.unitMap State.fld
  rw [hrd]

theorem ldUnit_keeps {a : Nat} (ha : inCommons a 64 = true) : (t.ldUnit a 64).1 = (s.ldUnit a 64).1 := by
  obtain ⟨hlo, hhi⟩ := inCommons_iff.mp ha
  have hmem : t.mem = s.mem := h.same .mem (by decide)
  unfold commonsBase at hlo
  have hunit : ∀ i, i < 64 → t.unitIsMem ((a + i - commonsBase) / 0x100000) = s.unitIsMem ((a + i - commonsBase) / 0x100000) := fun i hi =>
    unitIsMem_keeps h (by unfold commonsBase; omega)
  have hbad : (unitsOf a 64).filter (fun u => !t.unitIsMem u) = (unitsOf a 64).filter (fun u => !s.unitIsMem u) := by
    refine List.filter_congr fun u hu => ?_
    obtain ⟨i, hi, rfl⟩ := List.mem_map.mp hu
    have hlt := List.mem_range.mp hi
    rw [unitIsMem_keeps h (by unfold commonsBase at hlt ⊢; omega)]
  have hbytes : (List.range 64).map (fun i => if t.unitIsMem ((a + i - commonsBase) / 0x100000) then t.byte (a + i) else 0) =
      (List.range 64).map (fun i => if s.unitIsMem ((a + i - commonsBase) / 0x100000) then s.byte (a + i) else 0) :=
    List.map_congr_left fun i hi => by rw [hunit i (List.mem_range.mp hi), byte_congr hmem]
  unfold State.ldUnit
  dsimp only
  rw [hbad, hbytes, ld_congr hmem]
  split
  · split <;> rfl
  · rfl

/-- The registers of the Ethernet ports are not touched. -/
theorem rd_keeps_eth {a : Nat} (ha : 0x332000 ≤ a) : t.rd a = s.rd a := by
  refine h.rd a ?_ (not_msgReg (.inr (by omega)) (by omega))
  unfold destRegs Reg.REC_STS Reg.COM_CNT_BAD_UNIT
  simp only [List.mem_cons, List.not_mem_nil, or_false, not_or]
  omega

omit h in
/-- Where the registers of the Ethernet ports lie, and those of their interfaces. -/
theorem le_ethReg {k n : Nat} (hk : 0x332000 ≤ k) : 0x332000 ≤ k + 0x1000 * n := Nat.le_trans hk (Nat.le_add_right _ _)

omit h in
theorem le_bank {i a : Nat} (ha : 0x332000 ≤ a) : 0x332000 ≤ bank i a := Nat.le_trans ha (Nat.le_add_right _ _)

theorem sourceAddr_keeps (n vid : Nat) (v6 : Bool) : t.sourceAddr n vid v6 = s.sourceAddr n vid v6 := by
  have hctl : ∀ i, t.rd (bank i (Reg.IF_CTL n)) = s.rd (bank i (Reg.IF_CTL n)) := fun i => rd_keeps_eth h (le_bank (le_ethReg (by decide)))
  have hip4 : ∀ i, t.rd (bank i (Reg.IF_IP4 n)) = s.rd (bank i (Reg.IF_IP4 n)) := fun i => rd_keeps_eth h (le_bank (le_ethReg (by decide)))
  have hip6 : ∀ i w, t.rd (bank i (Reg.IF_IP6 n w)) = s.rd (bank i (Reg.IF_IP6 n w)) := fun i w => 
    rd_keeps_eth h (le_bank (Nat.le_trans (le_ethReg (by decide)) (Nat.le_add_right _ _)))
  have hlo : t.rd (Reg.MAC_LO n) = s.rd (Reg.MAC_LO n) := rd_keeps_eth h (le_ethReg (by decide))
  have hhi : t.rd (Reg.MAC_HI n) = s.rd (Reg.MAC_HI n) := rd_keeps_eth h (le_ethReg (by decide))
  unfold State.sourceAddr State.ifAddr6 State.linkLocal State.mac State.fld
  simp only [hctl, hip4, hip6, hlo, hhi]

theorem destOk_keeps (b : Bytes) : t.destOk b = s.destOk b := by
  have hqueue : ∀ D, t.recQueueOf D = s.recQueueOf D := fun D => by
    unfold State.recQueueOf
    rw [(h.same .rqs (by decide) : t.rqs = s.rqs)]
  have heth : ∀ n hi lo, t.fld (Reg.ETH_CTL n) hi lo = s.fld (Reg.ETH_CTL n) hi lo := fun n hi lo =>
    fld_congr (rd_keeps_eth h (le_ethReg (by decide))) hi lo
  unfold State.destOk
  simp only [hqueue, heth, sourceAddr_keeps h]

/-- The check of a descriptor answers what it did. -/
theorem descGood_keeps (a : Nat) : t.descGood a = s.descGood a := by
  unfold State.descGood
  by_cases ha : inCommons a 64 = true
  · rw [ldUnit_keeps h ha, destOk_keeps h, canRead_commons _ ha, canRead_commons _ ha, (h.same .ue (by decide) : t.ue = s.ue)]
  · rw [Bool.not_eq_true] at ha
    rw [ha, Bool.false_and, Bool.false_and, Bool.false_and, Bool.false_and]

/-- The descriptors lie where they did. -/
theorem destBase_keeps : t.addr48 Reg.DEST_BASE_LO Reg.DEST_BASE_HI = s.addr48 Reg.DEST_BASE_LO Reg.DEST_BASE_HI := by
  unfold State.addr48
  rw [h.rd _ (by decide) (not_msgReg (.inr (by decide)) (by decide)), h.rd _ (by decide) (not_msgReg (.inr (by decide)) (by decide))]
end

/-! ## One descriptor -/

/-- From `s` to `t` descriptor d, with its two status bits, has been loaded, and no other. -/
structure State.DestStep (s t : State) (d : Nat) : Prop where
  keeps : s.DestKeeps t
  dest : ∀ k, k ≠ d → t.dest k = s.dest k
  sts : ∀ j, j < 32 → j ≠ d → j ≠ 24 + d → t.flag Reg.REC_STS j = s.flag Reg.REC_STS j
  evt : s.flag 0x7010 2 = true → t.flag 0x7010 2 = true

/-- A descriptor is active, or no destination when its KIND is 0. -/
def State.activated (s : State) (d : Nat) (D : Dest) : State :=
  (({ s with dests := s.dests.set {} d (if D.kind = 0 then {} else D) } : State).setFlag Reg.REC_STS d (D.kind != 0)).setFlag Reg.REC_STS (24 + d) false

/-- A descriptor is in error. -/
def State.descError (s : State) (d : Nat) : State := (s.setFlag Reg.REC_STS (24 + d) true).raise 0x7000 2

section
variable (s : State) (a : Nat)

theorem rd_ldUnit {r : Nat} (hr : r ≠ Reg.COM_CNT_BAD_UNIT) (n : Nat) : (s.ldUnit a n).2.rd r = s.rd r := by
  unfold State.ldUnit
  dsimp only
  split
  · split
    · rfl
    · exact rd_wr_ne _ _ hr
  · rfl

theorem ldUnit_step (n d : Nat) : s.DestStep (s.ldUnit a n).2 d where
  keeps := ⟨fun f hf => ldUnit_same _ _ _ (notMem_part hf (by decide)), fun r hr _ => rd_ldUnit s a (by rintro rfl; exact hr (by decide)) n⟩
  dest k _ := congrArg (Tab.get ({} : Dest) · k) (ldUnit_same (f := .dests) s a n (by decide))
  sts j _ _ _ := flag_congr (rd_ldUnit s a (by decide) n) j
  evt h := (flag_congr (rd_ldUnit s a (by decide) n) 2).trans h

theorem State.DestStep.trans {s t u : State} {d : Nat} (h : s.DestStep t d) (k : t.DestStep u d) : s.DestStep u d :=
  ⟨h.keeps.trans k.keeps, fun j hj => (k.dest j hj).trans (h.dest j hj), fun j h32 hj hj' => (k.sts j h32 hj hj').trans (h.sts j h32 hj hj'),
    fun he => k.evt (h.evt he)⟩

section
variable {d : Nat} (hd : d < 8) (D : Dest)

theorem rd_activated {r : Nat} (hr : r ≠ Reg.REC_STS) : (s.activated d D).rd r = s.rd r := by
  rw [State.activated, rd_setFlag_ne _ _ _ hr, rd_setFlag_ne _ _ _ hr]
  rfl

theorem dest_activated (k : Nat) : (s.activated d D).dest k = if k = d then (if D.kind = 0 then {} else D) else s.dest k := by
  have hdests : (s.activated d D).dests = s.dests.set {} d (if D.kind = 0 then {} else D) := by rw [State.activated, setFlag_dests, setFlag_dests]
  unfold State.dest
  rw [hdests, Tab.get_set]

theorem activated_same {f : Fld} (hf : f ∉ destFlds) : f.same s (s.activated d D) :=
  Fld.same_trans (by revert hf; cases f <;> first | exact fun _ => rfl | exact fun h => absurd (by decide) h)
    (Fld.same_trans (wr_same _ _ _ (notMem_part hf (by decide))) (wr_same _ _ _ (notMem_part hf (by decide))))

theorem descError_same {f : Fld} (hf : f ∉ destFlds) : f.same s (s.descError d) :=
  Fld.same_trans (wr_same _ _ _ (notMem_part hf (by decide))) (raise_same _ _ _ (notMem_part hf (by decide)))

theorem rd_descError {r : Nat} (hr : r ≠ Reg.REC_STS) (hevt : r ≠ 0x7010) (hm : ¬ msgReg r) : (s.descError d).rd r = s.rd r := by
  rw [State.descError, rd_raise _ _ _ hm hevt, rd_setFlag_ne _ _ _ hr]

theorem sts_descError (j : Nat) : (s.descError d).flag Reg.REC_STS j = (s.setFlag Reg.REC_STS (24 + d) true).flag Reg.REC_STS j :=
  flag_congr (rd_raise _ _ _ (not_msgReg (.inr (by decide)) (by decide)) (by decide)) j

theorem evt_descError : (s.descError d).flag 0x7010 2 = true := flag_raise_self _ 0x7000 2 (by decide) (not_msgReg (.inr (by decide)) (by decide))

theorem dest_descError (k : Nat) : (s.descError d).dest k = s.dest k := by
  have hdests : (s.descError d).dests = s.dests :=
    Fld.same_trans (f := .dests) (wr_same s _ _ (by decide)) (raise_same _ _ _ (by decide))
  unfold State.dest
  rw [hdests]

include hd

theorem activated_step : s.DestStep (s.activated d D) d where
  keeps := ⟨fun f => activated_same s D, fun r hr _ => rd_activated s D (by rintro rfl; exact hr (by decide))⟩
  dest k hk := (dest_activated s D k).trans (if_neg hk)
  sts j h32 hj hj' := by
    rw [State.activated, flag_setFlag_ne _ _ _ (by omega) h32 hj', flag_setFlag_ne _ _ _ (by omega) h32 hj]
    rfl
  evt h := (flag_congr (rd_activated s D (by decide)) 2).trans h

theorem sts_activated : (s.activated d D).flag Reg.REC_STS d = (D.kind != 0) ∧ (s.activated d D).flag Reg.REC_STS (24 + d) = false := by
  unfold State.activated
  exact ⟨by rw [flag_setFlag_ne _ _ _ (by omega) (by omega) (by omega), flag_setFlag _ _ _ (by omega)], flag_setFlag _ _ _ (by omega)⟩

theorem descError_step : s.DestStep (s.descError d) d where
  keeps := ⟨fun f => descError_same s, fun r hr hm => rd_descError s (by rintro rfl; exact hr (by decide)) (by rintro rfl; exact hr (by decide)) hm⟩
  dest k _ := dest_descError s k
  sts j h32 _ hj' := by rw [sts_descError, flag_setFlag_ne _ _ _ (by omega) h32 hj']
  evt _ := evt_descError s
end
end

/-- What loading the descriptor at `a` leaves. -/
def State.descLoaded (s : State) (a d : Nat) : State :=
  if s.descGood a then (s.ldUnit a 64).2.activated d (destDesc (s.ldUnit a 64).1) else (s.ldUnit a 64).2.descError d

theorem destLoad1_eq (s : State) (d : Nat) : s.destLoad1 d = s.descLoaded (s.addr48 Reg.DEST_BASE_LO Reg.DEST_BASE_HI + 64 * d) d := rfl

/-- Descriptor d at `a`, loaded from `s`, is as it stands in `t`. -/
structure State.DescIs (s t : State) (a d : Nat) : Prop where
  good : s.descGood a = true → t.dest d = (if byteAt (s.ldUnit a 64).1 0 = 0 then {} else destDesc (s.ldUnit a 64).1) ∧
    t.flag Reg.REC_STS d = (byteAt (s.ldUnit a 64).1 0 != 0) ∧ t.flag Reg.REC_STS (24 + d) = false
  bad : s.descGood a = false → t.dest d = s.dest d ∧ t.flag Reg.REC_STS (24 + d) = true ∧ t.flag 0x7010 2 = true

section
variable (s : State) (a : Nat) {d : Nat} (hd : d < 8)
include hd

theorem descLoaded_step : s.DestStep (s.descLoaded a d) d := by
  unfold State.descLoaded
  split
  · exact (ldUnit_step s a 64 d).trans (activated_step _ hd _)
  · exact (ldUnit_step s a 64 d).trans (descError_step _ hd)

theorem descLoaded_is : s.DescIs (s.descLoaded a d) a d where
  good hg := by
    rw [State.descLoaded, if_pos hg]
    obtain ⟨hact, herr⟩ := sts_activated (s.ldUnit a 64).2 hd (destDesc (s.ldUnit a 64).1)
    exact ⟨(dest_activated _ _ d).trans (if_pos rfl), hact, herr⟩
  bad hb := by
    have hdest : ((s.ldUnit a 64).2.descError d).dest d = s.dest d :=
      (dest_descError _ d).trans (congrArg (Tab.get ({} : Dest) · d) (ldUnit_same (f := .dests) s a 64 (by decide)))
    rw [State.descLoaded, if_neg (by rw [hb]; exact Bool.false_ne_true)]
    exact ⟨hdest, by rw [sts_descError, flag_setFlag _ _ _ (by omega)], evt_descError _⟩
end

end Sys2Proof.Machine
end

section
/-! SUPPORT. The descriptors that DEST_CMD names, one after the other (R296), and the settled statement about record assembly and destinations. -/
namespace Sys2Proof.Machine

/-- The first n descriptors, those of them that `v` names loaded. -/
def State.destsLoaded (s : State) (v : Word) (n : Nat) : State :=
  (List.range n).foldl (fun (s : State) d => if bit v d then s.destLoad1 d else s) s

/-- Where DEST_BASE says that the descriptors lie. -/
def State.destBase (s : State) : Nat := s.addr48 Reg.DEST_BASE_LO Reg.DEST_BASE_HI

theorem destsLoaded_succ (s : State) (v : Word) (n : Nat) : s.destsLoaded v (n + 1) =
    if bit v n then (s.destsLoaded v n).descLoaded ((s.destsLoaded v n).destBase + 64 * n) n else s.destsLoaded v n := by
  unfold State.destsLoaded
  rw [List.range_succ, List.foldl_append, List.foldl_cons, List.foldl_nil, destLoad1_eq]
  rfl

/-- The check and the bytes of a descriptor, and the destination it is for, have not changed since `s`: its load says the same of `s`. -/
theorem State.DescIs.of_keeps {s u t : State} {a d : Nat} (h : u.DescIs t a d) (hk : s.DestKeeps u) (hd : u.dest d = s.dest d) : s.DescIs t a d where
  good hg := by
    have ha : inCommons a 64 = true := by
      unfold State.descGood at hg
      rw [Bool.and_assoc, Bool.and_eq_true] at hg
      exact hg.1
    have hbytes := ldUnit_keeps hk ha
    have hloaded := h.good ((descGood_keeps hk a).trans hg)
    rwa [hbytes] at hloaded
  bad hb := by
    have hloaded := h.bad ((descGood_keeps hk a).trans hb)
    rwa [hd] at hloaded

/-- A later descriptor's load leaves an earlier one. -/
theorem State.DescIs.of_step {s t u : State} {a d k : Nat} (h : s.DescIs t a d) (hs : t.DestStep u k) (hd : d < 8) (hk : k < 8) (hne : d ≠ k) :
    s.DescIs u a d where
  good hg := by
    obtain ⟨hdest, hact, herr⟩ := h.good hg
    exact ⟨(hs.dest d hne).trans hdest, (hs.sts d (by omega) hne (by omega)).trans hact, (hs.sts (24 + d) (by omega) (by omega) (by omega)).trans herr⟩
  bad hb := by
    obtain ⟨hdest, herr, hevt⟩ := h.bad hb
    exact ⟨(hs.dest d hne).trans hdest, (hs.sts (24 + d) (by omega) (by omega) (by omega)).trans herr, hs.evt hevt⟩

theorem destsLoaded_step (s : State) (v : Word) {n : Nat} (hn : n < 8) : (s.destsLoaded v n).DestStep (s.destsLoaded v (n + 1)) n := by
  rw [destsLoaded_succ]
  split
  · exact descLoaded_step _ _ hn
  · exact ⟨.refl _, fun _ _ => rfl, fun _ _ _ _ => rfl, id⟩

/-- The loads one after the other: each leaves the others, and what each reads has not changed. -/
theorem destsLoaded_all (s : State) (v : Word) {n : Nat} (hn : n ≤ 8) : s.DestKeeps (s.destsLoaded v n) ∧
    (∀ d, n ≤ d ∨ bit v d = false → (s.destsLoaded v n).dest d = s.dest d) ∧
    ∀ d, d < n → bit v d = true → s.DescIs (s.destsLoaded v n) (s.destBase + 64 * d) d := by
  induction n with
  | zero => exact ⟨.refl s, fun _ _ => rfl, fun d hd => absurd hd (Nat.not_lt_zero d)⟩
  | succ n ih =>
    obtain ⟨hkeeps, hother, hloaded⟩ := ih (by omega)
    have hstep := destsLoaded_step s v (n := n) (by omega)
    refine ⟨hkeeps.trans hstep.keeps, fun d hd => ?_, fun d hd hbit => ?_⟩
    · by_cases he : d = n
      · have hskip : s.destsLoaded v (n + 1) = s.destsLoaded v n := by
          rw [destsLoaded_succ, if_neg]
          rw [← he, hd.resolve_left (by omega)]
          decide
        rw [hskip]
        exact hother d (.inl (by omega))
      · exact (hstep.dest d he).trans (hother d (hd.imp (by omega) id))
    · by_cases he : d = n
      · subst he
        have hbase : (s.destsLoaded v d).destBase = s.destBase := destBase_keeps hkeeps
        rw [destsLoaded_succ, if_pos hbit, hbase]
        exact (descLoaded_is _ _ (by omega)).of_keeps hkeeps (hother d (.inl (Nat.le_refl d)))
      · exact (hloaded d (by omega) hbit).of_step hstep (by omega) (by omega) he

theorem exec_destLoad {v : Word} {s : State} : exec (.destLoad v) s = .next (s.taken (s.destLoad v) destFlds) := rfl

theorem destLoad_each (s : State) (v : Word) {d : Nat} (hd : d < 8) :
    (bit v d = false → (s.taken (s.destLoad v) destFlds).dest d = s.dest d) ∧
    (bit v d = true → s.DescIs (s.taken (s.destLoad v) destFlds) (s.destBase + 64 * d) d) := by
  obtain ⟨-, hother, hloaded⟩ := destsLoaded_all s v (Nat.le_refl 8)
  have hdests : (s.taken (s.destLoad v) destFlds).dests = (s.destLoad v).dests := taken_takes (f := .dests) _ _ (by decide) nofun
  have hdest : (s.taken (s.destLoad v) destFlds).dest d = (s.destsLoaded v 8).dest d := congrArg (Tab.get ({} : Dest) · d) hdests
  have hflag : ∀ a i, (s.taken (s.destLoad v) destFlds).flag a i = (s.destsLoaded v 8).flag a i := taken_flag _ _ (by decide)
  refine ⟨fun hbit => hdest.trans (hother d (.inr hbit)), fun hbit => ⟨fun hg => ?_, fun hb => ?_⟩⟩
  · rw [hdest, hflag, hflag]
    exact (hloaded d hd hbit).good hg
  · rw [hdest, hflag, hflag]
    exact (hloaded d hd hbit).bad hb

/-! ## The statement -/

/-- Settles O41: ASM_DONE by the stages found done, a commit by its checks, and DEST_LOAD by induction on the descriptors loaded. -/
theorem recordAssemblyAndDestinations : Obligations.RecordAssemblyAndDestinations := by
  unfold Obligations.RecordAssemblyAndDestinations
  refine ⟨fun v s => ⟨asmDone_unknown, fun it hi hh h4 => ⟨asmDone_marks hi hh h4, asmDone_completes hi hh h4⟩⟩, fun b s =>
    ⟨fun h64 hz hf hbytes hparts => ⟨fun it hi hh => ⟨?published, fun hless => ?takesBack⟩, fun hi => ?unknown⟩,
      fun hbad => commit_refused (commit_bad hbad)⟩, fun v s => ?dests⟩
  case published =>
    intro hb hp hbody hs
    exact commit_publishes (commit_taken h64 hz hf hbytes hparts hi hh hb hp hbody hs)
  case takesBack => exact commit_refused (commit_takesBack h64 hz hf hbytes hparts hi hh hless)
  case unknown => exact commit_counted (commit_unknown h64 hz hf hbytes hparts hi)
  case dests =>
    refine ⟨_, exec_destLoad, taken_same (f := .egress) _ _ (by decide), fun d hd => ?_⟩
    obtain ⟨hskip, hloaded⟩ := destLoad_each s v hd
    exact ⟨hskip, fun hbit hgood => (hloaded hbit).good hgood, fun hbit hbad => (hloaded hbit).bad hbad⟩

end Sys2Proof.Machine
end

section
/-! SUPPORT. A line stored under byte enables, and what a channel of the HBM controller reads after an operation on one channel (R307, R319,
R328). -/
namespace Sys2Proof.Machine

/-! ## A line stored under byte enables -/

/-- The memory of `t` is canonical: it holds the bytes of `d` that `m` enables at the line, and otherwise what that of `s` holds. -/
structure State.StoresLine (s t : State) (line : Nat) (m : BitVec 64) (d : Bytes) : Prop where
  wf : Memory.wf t.mem = true
  inside : ∀ i, i < 64 → t.byte (line * 64 + i) = if m.getLsbD i then d.getD i 0 else s.byte (line * 64 + i)
  outside : ∀ x, (x < line * 64 ∨ line * 64 + 64 ≤ x) → t.byte x = s.byte x

theorem mem_enables {m : BitVec 64} {i : Nat} : i ∈ enables m ↔ i < 64 ∧ m.getLsbD i = true := by simp [enables]

/-- Bytes of `d` stored at the offsets of a list from `b` on, in any order. -/
theorem byte_foldl_st (b : Nat) (d : Bytes) (l : List Nat) (s : State) (x : Nat) :
    (l.foldl (fun t i => t.st (b + i) [(d.drop i).headD 0]) s).byte x = if b ≤ x ∧ x - b ∈ l then d.getD (x - b) 0 else s.byte x := by
  induction l generalizing s with
  | nil => simp
  | cons i l ih =>
    rw [List.foldl_cons, ih]
    by_cases hx : x = b + i
    · subst hx
      have hst : (s.st (b + i) [(d.drop i).headD 0]).byte (b + i) = d.getD i 0 := by
        refine (byte_st s (b + i) _ (i := 0) (by simp)).trans ?_
        rw [List.getD_cons_zero, List.headD_eq_head?_getD, List.head?_drop, List.getD_eq_getElem?_getD]
      rw [Nat.add_sub_cancel_left, hst]
      simp
    · have hst : (s.st (b + i) [(d.drop i).headD 0]).byte x = s.byte x := byte_st_ne _ _ _ (by simp only [List.length_singleton]; omega)
      have hne : b ≤ x → x - b ≠ i := by omega
      rw [hst]
      refine if_congr (and_congr_right fun hb => ?_) rfl rfl
      simp [hne hb]

theorem stMasked_same {f : Fld} (s : State) (line : Nat) (m : BitVec 64) (d : Bytes) (h : f ∉ [Fld.mem, .harts]) :
    f.same s (s.stMasked line m d) := foldl_same _ (fun t _ => st_same t _ _ h) _ _

theorem stMasked_stores {s : State} (line : Nat) (m : BitVec 64) (d : Bytes) (h : Memory.wf s.mem = true) :
    s.StoresLine (s.stMasked line m d) line m d := by
  have hbyte : ∀ x, (s.stMasked line m d).byte x = _ := byte_foldl_st (line * 64) d (enables m) s
  refine ⟨?_, fun i hi => ?_, fun x hx => ?_⟩
  · exact List.foldlRecOn (motive := fun t : State => Memory.wf t.mem = true) _ _ h (fun t ht i _ => memStore_wf _ _ ht)
  · rw [hbyte, Nat.add_sub_cancel_left]
    simp [mem_enables, hi]
  · rw [hbyte, if_neg]
    rintro ⟨hlo, hmem⟩
    have := (mem_enables.mp hmem).1
    omega

theorem State.StoresLine.of_mem {s t u : State} {line : Nat} {m : BitVec 64} {d : Bytes} (h : s.StoresLine t line m d)
    (hm : u.mem = t.mem) : s.StoresLine u line m d :=
  ⟨hm ▸ h.wf, fun i hi => (byte_congr hm _).trans (h.inside i hi), fun x hx => (byte_congr hm x).trans (h.outside x hx)⟩

theorem State.StoresLine.taken {s t : State} {line : Nat} {m : BitVec 64} {d : Bytes} {w : List Fld} (h : s.StoresLine t line m d)
    (hw : .mem ∈ w) : s.StoresLine (s.taken t w) line m d :=
  h.of_mem (by rw [taken_mem, if_pos hw, canonMem_of_wf h.wf])

/-- What leaves memory alone changes no byte of a canonical memory. -/
theorem taken_byte_of_mem {s t : State} {w : List Fld} (hm : Memory.wf s.mem = true) (hw : .mem ∈ w) (h : t.mem = s.mem) (x : Nat) :
    (s.taken t w).byte x = s.byte x := (taken_byte s t hw (h ▸ hm) x).trans (byte_congr h x)

/-- The error of a line whose bytes are all written is cleared (R309). -/
def State.ueCleared (s : State) (line : Nat) (m : BitVec 64) : State := if m = BitVec.allOnes 64 then s.clearUe (line * 64) 64 else s

theorem ueCleared_same {f : Fld} (s : State) (line : Nat) (m : BitVec 64) (h : f ∉ [Fld.ue]) : f.same s (s.ueCleared line m) :=
  Fld.same_ite (clearUe_same _ _ _ h) (Fld.same_refl _ _)

/-! ## One channel -/

@[simp] theorem chan_setChan (s : State) (q : Nat) (c : Chan) : (s.setChan q c).chan q = c := Tab.get_set_same _ _ _ _

theorem chan_setChan_ne (s : State) {q k : Nat} (c : Chan) (h : k ≠ q) : (s.setChan q c).chan k = s.chan k := Tab.get_set_ne _ _ _ h

theorem chan_congr {s t : State} (h : t.chans = s.chans) (q : Nat) : t.chan q = s.chan q := by unfold State.chan; rw [h]

theorem taken_chan (s t : State) {w : List Fld} (h : .chans ∈ w) (q : Nat) : (s.taken t w).chan q = t.chan q :=
  chan_congr (by rw [taken_chans, if_pos h]) q

@[simp] theorem rd_setChan (s : State) (q : Nat) (c : Chan) (a : Nat) : (s.setChan q c).rd a = s.rd a := (rfl)

@[simp] theorem chan_bump (s : State) (a q : Nat) : (s.bump a).chan q = s.chan q := (rfl)

@[simp] theorem chan_setFld (s : State) (a hi lo n q : Nat) : (s.setFld a hi lo n).chan q = s.chan q := (rfl)

@[simp] theorem chan_raise (s : State) (p b q : Nat) : (s.raise p b).chan q = s.chan q := chan_congr (raise_chans s p b) q

@[simp] theorem chan_log (s : State) (a b c d q : Nat) : (s.log a b c d).chan q = s.chan q := chan_congr (log_chans s a b c d) q

@[simp] theorem chan_mcHist (s : State) (q cmd b row : Nat) :
    (s.mcHist q cmd b row).chan q = { s.chan q with hist := ((cmd, b, row, s.mclk) :: (s.chan q).hist).take 16 } := chan_setChan _ _ _

/-! ## The registers of the memory controller -/

theorem not_msgReg_mem {a : Nat} (h : 0x300000 ≤ a ∧ a < 0x304000) : ¬ msgReg a := not_msgReg (.inr (by omega)) (by omega)

theorem not_logReg_mem {a : Nat} (h : 0x300000 ≤ a ∧ a < 0x304000) : ¬ logReg a :=
  not_logReg (.inr (by omega)) (.inr (by omega)) (by unfold Reg.HP_CNT_VEC_DROP; omega)

/-- A register of channel q lies past the controller's own page and below the scheduler's. -/
theorem chReg_range {q r : Nat} (hq : q < 64) (hr : 0x302100 ≤ r ∧ r < 0x302140) :
    0x302000 ≤ r + 0x1000 * (q / 32) + 0x40 * (q % 32) ∧ r + 0x1000 * (q / 32) + 0x40 * (q % 32) < 0x304000 := by omega

theorem chReg_ne {r r' : Nat} (q : Nat) (h : r ≠ r') : r + 0x1000 * (q / 32) + 0x40 * (q % 32) ≠ r' + 0x1000 * (q / 32) + 0x40 * (q % 32) := by
  omega

theorem chSts_inj {q k : Nat} (h : k ≠ q) : Reg.CH_STS k ≠ Reg.CH_STS q := by unfold Reg.CH_STS; omega

theorem chSts_ne_freezes (q : Nat) : Reg.CH_STS q ≠ Reg.MC_CNT_FREEZE := by unfold Reg.CH_STS Reg.MC_CNT_FREEZE; omega

theorem not_logReg_chSts {q : Nat} (hq : q < 64) : ¬ logReg (Reg.CH_STS q) :=
  not_logReg_mem (by have := chReg_range hq (r := 0x302100) (by decide); unfold Reg.CH_STS; omega)

/-- A register of channel q is not touched by an event of the controller. -/
theorem rd_raise_mc (s : State) (b : Nat) {q r : Nat} (hq : q < 64) (hr : 0x302100 ≤ r ∧ r < 0x302140) :
    (s.raise mcPage b).rd (r + 0x1000 * (q / 32) + 0x40 * (q % 32)) = s.rd (r + 0x1000 * (q / 32) + 0x40 * (q % 32)) := by
  obtain ⟨hlo, hhi⟩ := chReg_range hq hr
  exact rd_raise s mcPage b (not_msgReg_mem (by omega)) (by unfold mcPage; omega)

/-! ## A channel that freezes (R327 to R329) -/

theorem scFreeze_same {f : Fld} (s : State) (q : Nat) (h : f ∉ [Fld.mem, .harts, .sc]) : f.same s (s.scFreeze q).1 := by
  unfold State.scFreeze
  refine Fld.same_trans ?_ (foldl_same _ (fun t x => st_same t _ _ (notMem_part h (by decide))) _ _)
  cases f <;> first | rfl | simp at h

/-- What a freeze of a channel that is not fenced does, in order: its reads are forgotten, STATE and CAUSE are set, and the freeze is counted,
logged and raised. -/
theorem freeze_cases {s : State} {q : Nat} (cause a cls port syn : Nat) (hf : s.chanFenced q = false) :
    ∃ u : State, (∀ r, u.rd r = s.rd r) ∧ (∀ k, k ≠ q → u.chan k = s.chan k) ∧
      ((u.chan q).reads = [] ∧ (u.chan q).inflight = [] ∧ (u.chan q).writes = (s.chan q).writes) ∧
      s.freeze q cause a cls port syn = ((((u.setChanState q 2).setFld (Reg.CH_STS q) 23 20 cause).bump Reg.MC_CNT_FREEZE).log 2 0x21
        (blkId mcPage) (q + 256 * cause)).raise mcPage 0 := by
  unfold State.freeze
  rw [if_neg (by simp [hf])]
  refine ⟨_, fun r => ?_, fun k hk => ?_, ?_, rfl⟩
  · exact rd_congr (scFreeze_same (f := .regs) s q (by decide)) r
  · exact (chan_setChan_ne _ _ hk).trans (chan_congr (scFreeze_same (f := .chans) s q (by decide)) k)
  · rw [chan_setChan]
    exact ⟨rfl, rfl, rfl⟩

/-- Channel k of `t` is frozen with a cause: its reads are forgotten, its writes are those it held in `s`, and the event is raised. -/
def State.FreezesIn (s t : State) (k cause : Nat) : Prop :=
  t.chanState k = 2 ∧ t.fld (Reg.CH_STS k) 23 20 = cause ∧ (t.chan k).reads = [] ∧ (t.chan k).inflight = [] ∧
    (t.chan k).writes = (s.chan k).writes ∧ t.flag (mcPage + 0x10) 0 = true

section
variable {s t : State} {q k cause : Nat}

theorem State.FreezesIn.of_writes (h : s.FreezesIn t k cause) {u : State} (hw : (s.chan k).writes = (u.chan k).writes) :
    u.FreezesIn t k cause := by
  obtain ⟨hst, hc, hr, hi, hwr, hev⟩ := h
  exact ⟨hst, hc, hr, hi, hwr.trans hw, hev⟩

theorem State.FreezesIn.taken (h : s.FreezesIn t k cause) {w : List Fld} (hr : .regs ∈ w) (hc : .chans ∈ w) :
    s.FreezesIn (s.taken t w) k cause := by
  unfold State.FreezesIn State.chanState
  rw [taken_fld _ _ hr, taken_fld _ _ hr, taken_flag _ _ hr, taken_chan _ _ hc]
  exact h

/-- The setting of STATE and CAUSE, the count, the log and the event touch no channel's queues. -/
theorem chan_frozen (u : State) (q cause k : Nat) : (((((u.setChanState q 2).setFld (Reg.CH_STS q) 23 20 cause).bump Reg.MC_CNT_FREEZE).log 2 0x21
    (blkId mcPage) (q + 256 * cause)).raise mcPage 0).chan k = u.chan k := by
  rw [chan_raise, chan_log, chan_bump, chan_setFld, State.setChanState, chan_setFld]

theorem flag_freeze {a cls port syn : Nat} (hf : s.chanFenced q = false) : (s.freeze q cause a cls port syn).flag (mcPage + 0x10) 0 = true := by
  obtain ⟨u, -, -, -, he⟩ := freeze_cases cause a cls port syn hf
  rw [he]
  exact flag_raise_self _ mcPage 0 (by decide) (not_msgReg_mem (by decide))

/-- A channel's STATE and CAUSE after another one's freeze are as before. -/
theorem rd_freeze_ne {a cls port syn : Nat} (hk : k < 64) (hne : k ≠ q) :
    (s.freeze q cause a cls port syn).rd (Reg.CH_STS k) = s.rd (Reg.CH_STS k) := by
  cases hf : s.chanFenced q with
  | true => unfold State.freeze; rw [if_pos hf]
  | false =>
    obtain ⟨u, hu, -, -, he⟩ := freeze_cases cause a cls port syn hf
    rw [he, rd_raise_mc _ _ hk (r := 0x302100) (by decide), rd_log _ _ _ _ _ (not_logReg_chSts hk), rd_bump_ne _ (chSts_ne_freezes _),
      rd_setFld_ne _ _ _ _ (chSts_inj hne), State.setChanState, rd_setFld_ne _ _ _ _ (chSts_inj hne), hu]

theorem chan_freeze_ne {a cls port syn : Nat} (hne : k ≠ q) : (s.freeze q cause a cls port syn).chan k = s.chan k := by
  cases hf : s.chanFenced q with
  | true => unfold State.freeze; rw [if_pos hf]
  | false =>
    obtain ⟨u, -, hc, -, he⟩ := freeze_cases cause a cls port syn hf
    rw [he]
    exact (chan_frozen u q cause k).trans (hc k hne)

/-- A channel that is not fenced freezes. -/
theorem freeze_freezes (a cls port syn : Nat) (hq : q < 64) (hc : cause < 16) (hf : s.chanFenced q = false) :
    s.FreezesIn (s.freeze q cause a cls port syn) q cause := by
  have hev := flag_freeze (cause := cause) (a := a) (cls := cls) (port := port) (syn := syn) hf
  obtain ⟨u, -, -, hch, he⟩ := freeze_cases cause a cls port syn hf
  have hsts : (s.freeze q cause a cls port syn).rd (Reg.CH_STS q) = ((u.setChanState q 2).setFld (Reg.CH_STS q) 23 20 cause).rd (Reg.CH_STS q) := by
    rw [he, rd_raise_mc _ _ hq (r := 0x302100) (by decide), rd_log _ _ _ _ _ (not_logReg_chSts hq), rd_bump_ne _ (chSts_ne_freezes _)]
  have hchan : (s.freeze q cause a cls port syn).chan q = u.chan q := (congrArg (State.chan · q) he).trans (chan_frozen u q cause q)
  obtain ⟨hreads, hinflight, hwrites⟩ := hch
  refine ⟨?_, ?_, by rw [hchan, hreads], by rw [hchan, hinflight], by rw [hchan, hwrites], hev⟩
  · rw [State.chanState, fld_congr hsts, fld_setFld_ne _ _ _ (by decide) (by decide) (by decide) (by decide)]
    exact fld_setFld _ _ _ (by decide) (by decide)
  · rw [fld_congr hsts, fld_setFld _ _ _ (by decide) (by decide)]
    exact Nat.mod_eq_of_lt hc

/-- A frozen channel stays as it is when another one freezes. -/
theorem State.FreezesIn.freeze_ne (h : s.FreezesIn t k cause) {c a cls port syn : Nat} (hk : k < 64) (hne : k ≠ q) :
    s.FreezesIn (t.freeze q c a cls port syn) k cause := by
  obtain ⟨hst, hc, hr, hi, hw, hev⟩ := h
  have hsts := rd_freeze_ne (s := t) (cause := c) (a := a) (cls := cls) (port := port) (syn := syn) hk hne
  have hev' : (t.freeze q c a cls port syn).flag (mcPage + 0x10) 0 = true := by
    cases hf : t.chanFenced q with
    | true => unfold State.freeze; rwa [if_pos hf]
    | false => exact flag_freeze hf
  refine ⟨(fld_congr hsts 31 30).trans hst, (fld_congr hsts 23 20).trans hc, ?_, ?_, ?_, hev'⟩
  all_goals rw [chan_freeze_ne hne]; assumption

theorem chanFenced_of_run (h : s.chanState q = 0) : s.chanFenced q = false := by
  rw [State.chanFenced, show s.fld (Reg.CH_STS q) 31 30 = 0 from h]; rfl

theorem chanFenced_congr (h : t.rd (Reg.CH_STS q) = s.rd (Reg.CH_STS q)) : t.chanFenced q = s.chanFenced q := by
  rw [State.chanFenced, fld_congr h]; rfl

end

/-- Both channels of a pair freeze on a command/address parity error (R328). -/
theorem caParity_freezes {s : State} {q : Nat} (hq : q < 64) (hf : s.chanFenced q = false) (hp : s.chanFenced (q ^^^ 1) = false) :
    s.FreezesIn (s.caParity q) q 2 ∧ s.FreezesIn (s.caParity q) (q ^^^ 1) 3 := by
  have hq' : q ^^^ 1 < 64 := Nat.xor_lt_two_pow (n := 6) hq (by decide)
  have hne : q ^^^ 1 ≠ q := fun e => by simpa using congrArg (q ^^^ ·) e
  refine ⟨(freeze_freezes 0 0 0 0 hq (by decide) hf).freeze_ne hq hne.symm, State.FreezesIn.of_writes
    (freeze_freezes 0 0 0 0 hq' (by decide) ((chanFenced_congr (rd_freeze_ne hq' hne)).trans hp)) ?_⟩
  rw [chan_freeze_ne hne]

end Sys2Proof.Machine
end

section
/-! SUPPORT. Accesses to a commons unit, the acceptance of a request and the issue of a channel's first candidate, each as it leaves memory, the
channel and its counters (R306, R307, R309, R319 to R324). -/
namespace Sys2Proof.Machine

/-! ## The commons (R306, R307, R309) -/

section
variable {s : State} (req : Req) {a : Nat} (m : BitVec 64) (d : Bytes) (hlo : commonsBase ≤ a) (hhi : a < 0x001003800000)
include hlo hhi

/-- An access to a unit that is no memory is counted and does nothing else. -/
theorem commonsAccess_badUnit (write : Bool) (err : Nat) (hu : s.unitIsMem ((a - commonsBase) / 0x100000) = false) :
    s.commonsAccess req write a m d err = s.bump Reg.COM_CNT_BAD_UNIT := by
  unfold State.commonsAccess
  rw [if_neg (by omega), if_pos hu]

variable (hu : s.unitIsMem ((a - commonsBase) / 0x100000) = true)
include hu

theorem commonsAccess_write (hc : s.ctxRecordAt (a / 64 * 64) 64 = false) (err : Nat) :
    s.commonsAccess req true a m d err = (s.stMasked (a / 64) m d).ueCleared (a / 64) m := by
  unfold State.commonsAccess
  rw [if_neg (by omega), if_neg (by simp [hu]), if_pos rfl, if_neg (by simp [hc])]
  rfl

/-- A read that meets an uncorrectable error is counted, logged and raised, with its line in error. -/
theorem commonsAccess_uncorrectable : ∃ u : State, u.regs = s.regs ∧ u.mem = s.mem ∧ a / 64 ∈ u.ue ∧
    s.commonsAccess req false a m d 2 = ((u.bump Reg.COM_CNT_UE).log 1 0x22 (blkId 0x301000) (accessDetail req a)).raise 0x301000 0 := by
  unfold State.commonsAccess
  rw [if_neg (by omega), if_neg (by simp [hu]), if_neg (by simp), if_pos (.inl rfl)]
  refine ⟨_, ?_, ?_, ?_, rfl⟩
  all_goals split
  case refine_3.isTrue h => exact List.contains_iff_mem.mp h
  case refine_3.isFalse => exact List.mem_cons_self
  all_goals rfl

theorem commonsAccess_corrected (hue : a / 64 ∉ s.ue) : s.commonsAccess req false a m d 1 = s.bump Reg.COM_CNT_CE := by
  unfold State.commonsAccess
  rw [if_neg (by omega), if_neg (by simp [hu]), if_neg (by simp), if_neg (by simp [hue]), if_pos rfl]

end

/-! ## Acceptance (R319 to R321) -/

/-- The request of a port for a line, with the deadline of its class and urgency, as the channel of its address takes it. -/
def State.acceptReq (s : State) (cls port urg : Nat) (write : Bool) (a : Nat) (m : BitVec 64) : MReq :=
  ⟨write, a / 64, m, cls, port, urg, if urg = 3 then s.mclk else s.mclk + s.fld (bank cls Reg.PORT_TGT) 15 0 / 2 ^ urg,
    (s.chan (s.chanOf a)).order⟩

/-- A write joins the end of the queue, which drains when it reaches the level `high`. -/
def Chan.queueWrite (c : Chan) (r : MReq) (high : Nat) : Chan :=
  { c with writes := c.writes ++ [r], order := c.order + 1, draining := c.draining || decide (high ≤ (c.writes ++ [r]).length) }

/-- A line of HBM written: it leaves the fabric shared cache, and the error of one written whole is cleared. -/
def State.lineWritten (s : State) (line : Nat) (m : BitVec 64) (d : Bytes) : State :=
  State.ueCleared { s.stMasked line m d with sc := (s.stMasked line m d).sc.filter (fun e => e.line != line) } line m

theorem lineWritten_stores {s : State} (line : Nat) (m : BitVec 64) (d : Bytes) (h : Memory.wf s.mem = true) :
    s.StoresLine (s.lineWritten line m d) line m d := (stMasked_stores line m d h).of_mem (ueCleared_same (f := .mem) _ line m (by decide))

@[simp] theorem chan_lineWritten (s : State) (line : Nat) (m : BitVec 64) (d : Bytes) (q : Nat) : (s.lineWritten line m d).chan q = s.chan q :=
  (chan_congr (ueCleared_same (f := .chans) _ line m (by decide)) q).trans (chan_congr (stMasked_same (f := .chans) s line m d (by decide)) q)

section
variable {s : State} (cls port urg : Nat) {a : Nat} (m : BitVec 64) (d : Bytes) (ha : a < 0x000C00000000)
  (hf : s.chanFenced (s.chanOf a) = false) (hw : (s.chan (s.chanOf a)).writes.any (fun w => w.line == a / 64) = false)
include ha hf hw

/-- A write to a line that no queued write is for joins the end of the queue, and its bytes are in memory at once. -/
theorem mcAccept_write (hlen : (s.chan (s.chanOf a)).writes.length < 64) :
    s.mcAccept cls port urg true a m d = (s.setChan (s.chanOf a) ((s.chan (s.chanOf a)).queueWrite (s.acceptReq cls port urg true a m)
      (s.fld Reg.WQ_CFG 15 8))).lineWritten (a / 64) m d := by
  unfold State.mcAccept
  rw [if_neg (by omega)]
  dsimp only
  rw [if_neg (by simp [hf]), if_pos rfl, hw, if_neg (by omega), if_neg Bool.false_ne_true]
  rfl

/-- A read of a line that no queued write is for joins the end of the queue, and nothing else happens. -/
theorem mcAccept_read (hm : m ≠ 0) (hlen : (s.chan (s.chanOf a)).reads.length < 128) :
    s.mcAccept cls port urg false a m d = s.setChan (s.chanOf a) { s.chan (s.chanOf a) with
      reads := (s.chan (s.chanOf a)).reads ++ [s.acceptReq cls port urg false a m], order := (s.chan (s.chanOf a)).order + 1 } := by
  have hcover : (s.chan (s.chanOf a)).writes.filter (fun w => w.line == a / 64) = [] :=
    List.filter_eq_nil_iff.mpr (fun w hmem => by simpa using List.any_eq_false.mp hw w hmem)
  unfold State.mcAccept
  rw [if_neg (by omega)]
  dsimp only
  rw [if_neg (by simp [hf]), if_neg (by simp), hcover, if_neg (fun h => hm (by simpa using h.2.symm)), if_neg (by omega)]
  rfl

end

/-! ## Issue (R320, R321, R323, R324) -/

/-- Channel q with its write queue draining, or not, by the levels of WQ_CFG. -/
def State.drainSet (s : State) (q : Nat) : State :=
  s.setChan q { s.chan q with draining := if s.fld Reg.WQ_CFG 15 8 ≤ (s.chan q).writes.length then true
    else if (s.chan q).writes.length ≤ s.fld Reg.WQ_CFG 7 0 then false else (s.chan q).draining }

/-- An activation is counted, and what it brings about leaves the channel's rows and queues. -/
theorem rowAct_queues (s : State) (q b row port : Nat) : ((s.rowAct q b row port).chan q).rows = (s.chan q).rows ∧
    ((s.rowAct q b row port).chan q).reads = (s.chan q).reads ∧ ((s.rowAct q b row port).chan q).writes = (s.chan q).writes := by
  unfold State.rowAct
  dsimp only
  split
  · simp
  · split <;> simp

/-- A request issued past its deadline is counted. -/
def State.lateCounted (s : State) (q : Nat) (r : MReq) : State :=
  if r.deadline < s.mclk then (s.bump (Reg.CH_CNT_LAT_MISS q)).bump Reg.MC_CNT_LAT_MISS else s

@[simp] theorem chan_lateCounted (s : State) (q : Nat) (r : MReq) (k : Nat) : (s.lateCounted q r).chan k = s.chan k := by
  unfold State.lateCounted
  split <;> rfl

theorem rd_lateCounted (s : State) (q : Nat) (r : MReq) {x : Nat} (h : x ≠ Reg.CH_CNT_LAT_MISS q) (h' : x ≠ Reg.MC_CNT_LAT_MISS) :
    (s.lateCounted q r).rd x = s.rd x := by
  unfold State.lateCounted
  split
  · exact (rd_bump_ne _ h').trans (rd_bump_ne _ h)
  · rfl

/-- A request of a channel is served: it leaves its queue, a read for those whose data is to return. -/
def Chan.served (c : Chan) (r : MReq) : Chan :=
  if r.write then { c with writes := c.writes.filter (fun y => y.order != r.order) }
  else { c with reads := c.reads.filter (fun y => y.order != r.order), inflight := c.inflight ++ [r] }

/-- Bank and row of a candidate's request. -/
def State.bankOf (s : State) (x : Cand) : Nat := (s.location (x.req.line * 64)).2.1
def State.rowOf (s : State) (x : Cand) : Nat := (s.location (x.req.line * 64)).2.2.1

/-- The command that opens a candidate's row. -/
def State.rowOpened (s : State) (q : Nat) (x : Cand) : State :=
  let t := s.setChan q { s.chan q with rows := (s.chan q).rows.insert (s.bankOf x) ⟨s.rowOf x, 0, s.mclk⟩ }
  (t.mcHist q 0 (s.bankOf x) (s.rowOf x)).rowAct q (s.bankOf x) (s.rowOf x) x.req.port

/-- The command that closes the row open in a candidate's bank. -/
def State.rowClosed (s : State) (q : Nat) (x : Cand) : State :=
  (s.setChan q { s.chan q with rows := (s.chan q).rows.erase (s.bankOf x) }).mcHist q 1 (s.bankOf x) 0

/-- The command that serves a candidate's request from the open row `o`. -/
def State.rowServed (s : State) (q : Nat) (x : Cand) (o : OpenRow) : State :=
  let older := ((s.chan q).reads ++ (s.chan q).writes).any (fun y => decide (y.order < x.req.order))
  let o' := { o with hits := if x.hit && older then o.hits + 1 else o.hits, last := s.mclk }
  let c := Chan.served { s.chan q with rows := (s.chan q).rows.insert (s.bankOf x) o' } x.req
  (((s.setChan q c).mcHist q (if x.req.write then 3 else 2) (s.bankOf x) (s.rowOf x)).bump
    (if x.req.write then Reg.CH_CNT_WR q else Reg.CH_CNT_RD q)).lateCounted q x.req

/-- The command of a candidate, by what stands open in its bank. -/
def State.issued (s : State) (q : Nat) (x : Cand) : State :=
  ((s.chan q).rows.look (s.bankOf x)).elim (s.rowOpened q x) (fun o => if o.row ≠ s.rowOf x then s.rowClosed q x else s.rowServed q x o)

/-- A channel in RUN issues the command of its first candidate. -/
theorem mcIssue_eq {s : State} {q : Nat} {banks : BitVec 48} {x : Cand} (hrun : s.chanState q = 0)
    (hx : firstCand ((s.drainSet q).candidates q banks) = some x) : s.mcIssue q banks = (s.drainSet q).issued q x := by
  unfold State.mcIssue
  rw [if_neg (not_not.mpr hrun)]
  unfold State.drainSet at hx
  dsimp only
  rw [hx]
  unfold State.issued
  cases hrow : ((s.drainSet q).chan q).rows.look ((s.drainSet q).bankOf x) with
  | none =>
    unfold State.drainSet State.bankOf at hrow
    dsimp only
    rw [hrow]
    rfl
  | some o =>
    unfold State.drainSet State.bankOf at hrow
    dsimp only
    rw [hrow]
    rfl

end Sys2Proof.Machine
end

section
/-! SUPPORT. The effects of a channel's commands on its rows, queues and counters, the errors of its reads, writes and scrubs (R311, R320, R325 to
R328), and the settled statement about memory requests and errors. -/
namespace Sys2Proof.Machine

/-! ## Commands of a channel (R320, R323) -/

/-- Setting whether the write queue drains leaves the rows and the queues. -/
theorem drainSet_queues (s : State) (q : Nat) :
    ((s.drainSet q).chan q).rows = (s.chan q).rows ∧ ((s.drainSet q).chan q).reads = (s.chan q).reads ∧
    ((s.drainSet q).chan q).writes = (s.chan q).writes ∧ ((s.drainSet q).chan q).inflight = (s.chan q).inflight := by
  unfold State.drainSet
  simp

section
variable (s : State) (q : Nat) (x : Cand)

theorem rowOpened_effect : ((s.rowOpened q x).chan q).rows.look (s.bankOf x) = some ⟨s.rowOf x, 0, s.mclk⟩ ∧
    ((s.rowOpened q x).chan q).reads = (s.chan q).reads ∧ ((s.rowOpened q x).chan q).writes = (s.chan q).writes := by
  obtain ⟨t, ht, he⟩ : ∃ t : State, t.chan q = { s.chan q with rows := (s.chan q).rows.insert (s.bankOf x) ⟨s.rowOf x, 0, s.mclk⟩ } ∧
      s.rowOpened q x = (t.mcHist q 0 (s.bankOf x) (s.rowOf x)).rowAct q (s.bankOf x) (s.rowOf x) x.req.port := ⟨_, chan_setChan _ _ _, rfl⟩
  obtain ⟨hrows, hreads, hwrites⟩ := rowAct_queues (t.mcHist q 0 (s.bankOf x) (s.rowOf x)) q (s.bankOf x) (s.rowOf x) x.req.port
  rw [he, hrows, hreads, hwrites, chan_mcHist, ht]
  exact ⟨Tab.look_insert_same _ _ _, rfl, rfl⟩

theorem rowClosed_effect : ((s.rowClosed q x).chan q).rows.look (s.bankOf x) = none ∧
    ((s.rowClosed q x).chan q).reads = (s.chan q).reads ∧ ((s.rowClosed q x).chan q).writes = (s.chan q).writes := by
  unfold State.rowClosed
  simp

variable (o : OpenRow)

/-- A served request is counted as a read or a write. -/
theorem rd_rowServed : (s.rowServed q x o).rd (if x.req.write then Reg.CH_CNT_WR q else Reg.CH_CNT_RD q) =
    s.rd (if x.req.write then Reg.CH_CNT_WR q else Reg.CH_CNT_RD q) + 1 := by
  have hlat : (if x.req.write then Reg.CH_CNT_WR q else Reg.CH_CNT_RD q) ≠ Reg.CH_CNT_LAT_MISS q := by
    split <;> exact chReg_ne q (by decide)
  have hmiss : (if x.req.write then Reg.CH_CNT_WR q else Reg.CH_CNT_RD q) ≠ Reg.MC_CNT_LAT_MISS := by
    unfold Reg.CH_CNT_WR Reg.CH_CNT_RD Reg.MC_CNT_LAT_MISS
    split <;> omega
  exact (rd_lateCounted _ _ _ hlat hmiss).trans (rd_bump_same _ _)

/-- A served read waits for its data. -/
theorem rowServed_read (hr : x.req.write = false) :
    ((s.rowServed q x o).chan q).reads = (s.chan q).reads.filter (fun y => y.order != x.req.order) ∧
    ((s.rowServed q x o).chan q).inflight = (s.chan q).inflight ++ [x.req] ∧ ((s.rowServed q x o).chan q).writes = (s.chan q).writes := by
  unfold State.rowServed Chan.served
  simp [hr]

theorem rowServed_write (hr : x.req.write = true) :
    ((s.rowServed q x o).chan q).writes = (s.chan q).writes.filter (fun y => y.order != x.req.order) ∧
    ((s.rowServed q x o).chan q).reads = (s.chan q).reads := by
  unfold State.rowServed Chan.served
  simp [hr]

end

section
variable {s : State} {q : Nat} {x : Cand}

theorem issued_closed (h : (s.chan q).rows.look (s.bankOf x) = none) : s.issued q x = s.rowOpened q x := by
  unfold State.issued
  rw [h, Option.elim_none]

theorem issued_otherRow {o : OpenRow} (h : (s.chan q).rows.look (s.bankOf x) = some o) (hrow : o.row ≠ s.rowOf x) :
    s.issued q x = s.rowClosed q x := by
  unfold State.issued
  rw [h, Option.elim_some, if_pos hrow]

theorem issued_openRow {o : OpenRow} (h : (s.chan q).rows.look (s.bankOf x) = some o) (hrow : o.row = s.rowOf x) :
    s.issued q x = s.rowServed q x o := by
  unfold State.issued
  rw [h, Option.elim_some, if_neg (not_not.mpr hrow)]

end

/-! ## Read data and errors (R311, R325, R326) -/

/-- A corrected error is noted at the channel and counted, and may raise CE_RATE. -/
theorem corrected_cases (s : State) (q : Nat) : ∃ u : State, (∀ a, u.rd a = s.rd a) ∧ (u.chan q).inflight = (s.chan q).inflight ∧
    (s.corrected q = (u.bump (Reg.CH_CNT_CE q)).raise mcPage 3 ∨ s.corrected q = u.bump (Reg.CH_CNT_CE q)) := by
  unfold State.corrected
  refine ⟨_, ?_, ?_, ite_eq_or_eq _ _ _⟩
  · exact fun _ => rfl
  · rw [chan_setChan]

theorem rd_corrected_ce (s : State) {q : Nat} (hq : q < 64) : (s.corrected q).rd (Reg.CH_CNT_CE q) = s.rd (Reg.CH_CNT_CE q) + 1 := by
  obtain ⟨u, hu, -, he | he⟩ := corrected_cases s q
  · rw [he, rd_raise_mc _ 3 hq (r := 0x302120) (by decide), rd_bump_same, hu]
  · rw [he, rd_bump_same, hu]

theorem rd_corrected_wr (s : State) {q : Nat} (hq : q < 64) : (s.corrected q).rd (Reg.CH_CNT_WR q) = s.rd (Reg.CH_CNT_WR q) := by
  have hne : Reg.CH_CNT_WR q ≠ Reg.CH_CNT_CE q := chReg_ne q (r := 0x302114) (r' := 0x302120) (by decide)
  obtain ⟨u, hu, -, he | he⟩ := corrected_cases s q
  · rw [he, rd_raise_mc _ 3 hq (r := 0x302114) (by decide), rd_bump_ne _ hne, hu]
  · rw [he, rd_bump_ne _ hne, hu]

theorem corrected_inflight (s : State) (q : Nat) : ((s.corrected q).chan q).inflight = (s.chan q).inflight := by
  obtain ⟨u, -, hu, he | he⟩ := corrected_cases s q
  · rw [he, chan_raise, chan_bump, hu]
  · rw [he, chan_bump, hu]

/-- A corrected error whose line is written back: both are counted. -/
theorem rd_writtenBack (s : State) {q : Nat} (hq : q < 64) :
    ((s.corrected q).bump (Reg.CH_CNT_WR q)).rd (Reg.CH_CNT_CE q) = s.rd (Reg.CH_CNT_CE q) + 1 ∧
    ((s.corrected q).bump (Reg.CH_CNT_WR q)).rd (Reg.CH_CNT_WR q) = s.rd (Reg.CH_CNT_WR q) + 1 :=
  ⟨(rd_bump_ne _ (chReg_ne q (by decide))).trans (rd_corrected_ce s hq), (rd_bump_same _ _).trans (congrArg (· + 1) (rd_corrected_wr s hq))⟩

/-- What read data brings about, by its outcome: nothing, a line corrected and written back, or the freeze `t`. -/
def State.readOutcome (s : State) (q k : Nat) (t : State) : State :=
  match k with
  | 0 => s
  | 1 => (s.corrected q).bump (Reg.CH_CNT_WR q)
  | _ => t

section
variable (s : State) (q : Nat) (t : State)
theorem readOutcome_clean : s.readOutcome q (0 : Fin 3) t = s := rfl
theorem readOutcome_corrected : s.readOutcome q (1 : Fin 3) t = (s.corrected q).bump (Reg.CH_CNT_WR q) := rfl
theorem readOutcome_uncorrectable : s.readOutcome q (2 : Fin 3) t = t := rfl
end

/-- The oldest read of channel q leaves those whose data is to return. -/
def State.returned (s : State) (q : Nat) (rest : List MReq) : State := s.setChan q { s.chan q with inflight := rest }

@[simp] theorem chan_returned (s : State) (q : Nat) (rest : List MReq) : (s.returned q rest).chan q = { s.chan q with inflight := rest } :=
  chan_setChan _ _ _

@[simp] theorem rd_returned (s : State) (q : Nat) (rest : List MReq) (a : Nat) : (s.returned q rest).rd a = s.rd a := (rfl)

theorem readReturn_eq {s : State} {q : Nat} {r : MReq} {rest : List MReq} (h : (s.chan q).inflight = r :: rest) (k syn : Nat) :
    s.readReturn q k syn = (s.returned q rest).readOutcome q k ((s.returned q rest).freeze q 1 (r.line * 64) r.cls r.port syn) := by
  unfold State.readReturn
  dsimp only
  rw [h]
  rfl

theorem scrub_eq {s : State} {q a : Nat} (ha : a < 0x000C00000000) (hq : s.chanOf a = q) (hf : s.chanFenced q = false)
    (hon : s.fld Reg.SCRUB_CFG 15 0 ≠ 0) (k syn : Nat) : s.scrub a k syn =
    (s.bump (Reg.CH_CNT_RD q)).readOutcome q k ((s.bump (Reg.CH_CNT_RD q)).freeze q 1 a 11 0 syn) := by
  unfold State.scrub
  rw [hq, if_neg (by simp [hf, hon, ha])]
  rfl

/-- The fields that a memory error may change. -/
def errFlds : List Fld := [.mem, .regs, .flogRing, .holding, .hevt, .msix, .out, .chans, .sc, .harts]

/-- The data of the oldest read returns: clean, corrected and written back, or uncorrectable (R325). -/
theorem mcReadReturn_outcomes {s : State} {q : Fin 64} {r : MReq} {rest : List MReq} (syn : BitVec 16) (h : (s.chan q).inflight = r :: rest) :
    (∃ t, exec (.mcReadReturn q 0 syn) s = .next t ∧ (t.chan q).inflight = rest ∧ ∀ x, t.rd x = s.rd x) ∧
    (∃ t, exec (.mcReadReturn q 1 syn) s = .next t ∧ (t.chan q).inflight = rest ∧ t.rd (Reg.CH_CNT_CE q) = s.rd (Reg.CH_CNT_CE q) + 1 ∧
      t.rd (Reg.CH_CNT_WR q) = s.rd (Reg.CH_CNT_WR q) + 1) ∧
    (s.chanFenced q = false → ∃ t, exec (.mcReadReturn q 2 syn) s = .next t ∧ s.FreezesIn t q 1) := by
  have hrest : ((s.returned q rest).chan q).inflight = rest := by rw [chan_returned]
  have hnext : ∀ (k : Fin 3) (t : State),
      (s.returned q rest).readOutcome q k ((s.returned q rest).freeze q 1 (r.line * 64) r.cls r.port syn.toNat) = t →
      exec (.mcReadReturn q k syn) s = .next (s.taken t errFlds) :=
    fun k t ht => congrArg (fun u => Host.Outcome.next (s.taken u errFlds)) ((readReturn_eq h k syn.toNat).trans ht)
  refine ⟨⟨_, hnext 0 _ (readOutcome_clean _ _ _), ?_, fun x => ?_⟩,
    ⟨_, hnext 1 _ (readOutcome_corrected _ _ _), ?_, ?_⟩, fun hf => ⟨_, hnext 2 _ (readOutcome_uncorrectable _ _ _), ?_⟩⟩
  · rw [taken_chan _ _ (by decide), hrest]
  · rw [taken_rd _ _ (by decide), rd_returned]
  · rw [taken_chan _ _ (by decide), chan_bump, corrected_inflight, hrest]
  · obtain ⟨hce, hwr⟩ := rd_writtenBack (s.returned q rest) q.isLt
    rw [taken_rd _ _ (by decide), taken_rd _ _ (by decide), hce, hwr, rd_returned, rd_returned]
    exact ⟨rfl, rfl⟩
  · have hf' : (s.returned q rest).chanFenced q = false := (chanFenced_congr (rd_returned s q rest _)).trans hf
    have hfreeze := freeze_freezes (cause := 1) (r.line * 64) r.cls r.port syn.toNat q.isLt (by decide) hf'
    exact (hfreeze.of_writes (u := s) (by rw [chan_returned])).taken (by decide) (by decide)

/-- A first report of write parity repeats the write, a second one freezes the channel (R311). -/
theorem writeParity_outcomes {s : State} {q : Fin 64} {a : BitVec 48} (cls : Fin 16) (port : BitVec 16) (hrun : s.chanState q = 0)
    (hq : s.chanOf a.toNat = q.val) :
    (∃ t, exec (.writeParityReport q a cls port true) s = .next t ∧ s.FreezesIn t q 1) ∧
    ∃ t, exec (.writeParityReport q a cls port false) s = .next t ∧ t.chans = s.chans ∧ t.rd (Reg.CH_CNT_WR q) = s.rd (Reg.CH_CNT_WR q) + 1 := by
  have hgo : ¬ (s.chanState q ≠ 0 ∨ s.chanOf a.toNat ≠ q.val) := by simp [hrun, hq]
  have hsecond : s.writeParity q a.toNat port.toNat cls true = s.freeze q 1 a.toNat cls port.toNat 0 := by
    unfold State.writeParity
    rw [if_neg hgo, if_pos rfl]
  have hfirst : s.writeParity q a.toNat port.toNat cls false = s.bump (Reg.CH_CNT_WR q) := by
    unfold State.writeParity
    rw [if_neg hgo, if_neg Bool.false_ne_true]
  have he : ∀ b, exec (.writeParityReport q a cls port b) s = .next (s.taken (s.writeParity q a.toNat port.toNat cls b) errFlds) := fun _ => rfl
  refine ⟨⟨_, he true, ?_⟩, _, he false, ?_, ?_⟩
  · rw [hsecond]
    exact (freeze_freezes _ _ _ _ q.isLt (by decide) (chanFenced_of_run hrun)).taken (by decide) (by decide)
  · rw [hfirst, taken_chans, if_pos (by decide), bump_chans]
  · rw [hfirst, taken_rd _ _ (by decide), rd_bump_same]

/-- A scrub's read: counted, corrected, or uncorrectable (R326). -/
theorem scrub_outcomes {s : State} {q : Fin 64} {a : BitVec 48} (syn : BitVec 16) (ha : a.toNat < 0x000C00000000) (hq : s.chanOf a.toNat = q.val)
    (hf : s.chanFenced q = false) (hon : s.fld Reg.SCRUB_CFG 15 0 ≠ 0) :
    (∃ t, exec (.scrub a 0 syn) s = .next t ∧ t.rd (Reg.CH_CNT_RD q) = s.rd (Reg.CH_CNT_RD q) + 1 ∧ t.chans = s.chans) ∧
    (∃ t, exec (.scrub a 1 syn) s = .next t ∧ t.rd (Reg.CH_CNT_CE q) = s.rd (Reg.CH_CNT_CE q) + 1) ∧
    ∃ t, exec (.scrub a 2 syn) s = .next t ∧ s.FreezesIn t q 1 := by
  have hnext : ∀ (k : Fin 3) (t : State),
      (s.bump (Reg.CH_CNT_RD q)).readOutcome q k ((s.bump (Reg.CH_CNT_RD q)).freeze q 1 a.toNat 11 0 syn.toNat) = t →
      exec (.scrub a k syn) s = .next (s.taken t errFlds) :=
    fun k t ht => congrArg (fun u => Host.Outcome.next (s.taken u errFlds)) ((scrub_eq ha hq hf hon k syn.toNat).trans ht)
  have hce : Reg.CH_CNT_CE q ≠ Reg.CH_CNT_RD q := chReg_ne q (r := 0x302120) (r' := 0x302110) (by decide)
  have hsts : Reg.CH_STS q ≠ Reg.CH_CNT_RD q := chReg_ne q (r := 0x302100) (r' := 0x302110) (by decide)
  refine ⟨⟨_, hnext 0 _ (readOutcome_clean _ _ _), ?_, ?_⟩,
    ⟨_, hnext 1 _ (readOutcome_corrected _ _ _), ?_⟩, _, hnext 2 _ (readOutcome_uncorrectable _ _ _), ?_⟩
  · rw [taken_rd _ _ (by decide), rd_bump_same]
  · rw [taken_chans, if_pos (by decide), bump_chans]
  · rw [taken_rd _ _ (by decide), (rd_writtenBack _ q.isLt).1, rd_bump_ne s hce]
  · have hf' : (s.bump (Reg.CH_CNT_RD q)).chanFenced q = false := (chanFenced_congr (rd_bump_ne s hsts)).trans hf
    have hfreeze := freeze_freezes (cause := 1) a.toNat 11 0 syn.toNat q.isLt (by decide) hf'
    exact (hfreeze.of_writes (u := s) (by rw [chan_bump])).taken (by decide) (by decide)

/-! ## The statement, clause by clause -/

/-- The fields that an access to the commons, the acceptance of a request and the issue of a command may change. -/
def comFlds : List Fld := [.mem, .regs, .flogRing, .holding, .hevt, .msix, .ue, .out, .harts]
def acceptFlds : List Fld := [.mem, .regs, .ue, .chans, .sc, .harts]
def issueFlds : List Fld := [.regs, .holding, .hevt, .msix, .out, .chans]

theorem exec_commonsAccess (req : BitVec 16) (w : Bool) (a : BitVec 48) (m : BitVec 64) (d : List Byte) (e : Fin 3) (s : State) :
    exec (.commonsAccess req w a m d e) s = .next (s.taken (s.commonsAccess req w a.toNat m d e) comFlds) := rfl

theorem exec_mcAccept (cls : Fin 16) (port : BitVec 16) (urg : Fin 4) (w : Bool) (a : BitVec 48) (m : BitVec 64) (d : List Byte) (s : State) :
    exec (.mcAccept cls port urg w a m d) s = .next (s.taken (s.mcAccept cls port.toNat urg w a.toNat m d) acceptFlds) := rfl

section
variable (req : BitVec 16) {a : BitVec 48} (m : BitVec 64) (d : List Byte) {s : State} (hm : Memory.wf s.mem = true) (hlo : commonsBase ≤ a.toNat)
  (hhi : a.toNat < 0x001003800000)
include hm hlo hhi

theorem commonsAccess_outcomes (hu : s.unitIsMem ((a.toNat - commonsBase) / 0x100000) = true) :
    (s.ctxRecordAt (a.toNat / 64 * 64) 64 = false → ∃ t, exec (.commonsAccess req true a m d 0) s = .next t ∧
      (∀ i, i < 64 → t.byte (a.toNat / 64 * 64 + i) = if m.getLsbD i then d.getD i 0 else s.byte (a.toNat / 64 * 64 + i)) ∧
      (∀ x, (x < a.toNat / 64 * 64 ∨ a.toNat / 64 * 64 + 64 ≤ x) → t.byte x = s.byte x) ∧ ∀ r, t.rd r = s.rd r) ∧
    (∃ t, exec (.commonsAccess req false a m d 2) s = .next t ∧ a.toNat / 64 ∈ t.ue ∧ t.rd Reg.COM_CNT_UE = s.rd Reg.COM_CNT_UE + 1 ∧
      t.flag 0x301010 0 = true ∧ ∀ x, t.byte x = s.byte x) ∧
    (a.toNat / 64 ∉ s.ue → ∃ t, exec (.commonsAccess req false a m d 1) s = .next t ∧ t.rd Reg.COM_CNT_CE = s.rd Reg.COM_CNT_CE + 1 ∧
      (∀ x, t.byte x = s.byte x) ∧ t.ue = s.ue) := by
  refine ⟨fun hc => ⟨_, exec_commonsAccess req true a m d 0 s, ?write⟩, ⟨_, exec_commonsAccess req false a m d 2 s, ?uncorrectable⟩,
    fun hue => ⟨_, exec_commonsAccess req false a m d 1 s, ?corrected⟩⟩
  case write =>
    rw [commonsAccess_write req m d hlo hhi hu hc]
    have hst := (stMasked_stores (a.toNat / 64) m d hm).of_mem (ueCleared_same (f := .mem) _ (a.toNat / 64) m (by decide))
    obtain ⟨-, hin, hout⟩ := hst.taken (w := comFlds) (by decide)
    refine ⟨hin, hout, fun r => (taken_rd _ _ (by decide) r).trans ?_⟩
    exact rd_congr (Fld.same_trans (stMasked_same (f := .regs) s _ m d (by decide)) (ueCleared_same (f := .regs) _ _ m (by decide))) r
  case uncorrectable =>
    obtain ⟨u, hregs, hmem, hline, he⟩ := commonsAccess_uncorrectable req m d hlo hhi hu
    have he2 : s.commonsAccess req false a.toNat m d (2 : Fin 3) = _ := he
    rw [he2]
    refine ⟨?_, ?_, ?_, fun x => taken_byte_of_mem hm (by decide) ?_ x⟩
    · rw [taken_ue, if_pos (by decide), raise_ue, log_ue, bump_ue]
      exact hline
    · rw [taken_rd _ _ (by decide), rd_raise _ _ _ (not_msgReg_mem (by decide)) (by decide), rd_log _ _ _ _ _ (not_logReg_mem (by decide)),
        rd_bump_same, rd_congr hregs]
    · rw [taken_flag _ _ (by decide)]
      exact flag_raise_self _ 0x301000 0 (by decide) (not_msgReg_mem (by decide))
    · rw [raise_mem, log_mem, bump_mem, hmem]
  case corrected =>
    have he : s.commonsAccess req false a.toNat m d (1 : Fin 3) = _ := commonsAccess_corrected req m d hlo hhi hu hue
    rw [he]
    refine ⟨?_, fun x => taken_byte_of_mem hm (by decide) (bump_mem _ _) x, ?_⟩
    · rw [taken_rd _ _ (by decide), rd_bump_same]
    · rw [taken_ue, if_pos (by decide), bump_ue]

theorem commonsAccess_counted (w : Bool) (e : Fin 3) (hu : s.unitIsMem ((a.toNat - commonsBase) / 0x100000) = false) :
    ∃ t, exec (.commonsAccess req w a m d e) s = .next t ∧ t.rd Reg.COM_CNT_BAD_UNIT = s.rd Reg.COM_CNT_BAD_UNIT + 1 ∧
      ∀ x, t.byte x = s.byte x := by
  refine ⟨_, exec_commonsAccess req w a m d e s, ?_⟩
  rw [commonsAccess_badUnit req m d hlo hhi w e hu, taken_rd _ _ (by decide), rd_bump_same]
  exact ⟨rfl, taken_byte_of_mem hm (by decide) (bump_mem _ _)⟩

end

section
variable (cls : Fin 16) (port : BitVec 16) (urg : Fin 4) {a : BitVec 48} (m : BitVec 64) (d : List Byte) {s : State} (hm : Memory.wf s.mem = true)
  (ha : a.toNat < 0x000C00000000) (hf : s.chanFenced (s.chanOf a.toNat) = false)
  (hw : (s.chan (s.chanOf a.toNat)).writes.any (fun w => w.line == a.toNat / 64) = false)
include hm ha hf hw

theorem mcAccept_queuesWrite (hlen : (s.chan (s.chanOf a.toNat)).writes.length < 64) : ∃ t, exec (.mcAccept cls port urg true a m d) s = .next t ∧
    (t.chan (s.chanOf a.toNat)).writes = (s.chan (s.chanOf a.toNat)).writes ++ [s.acceptReq cls port.toNat urg true a.toNat m] ∧
    (t.chan (s.chanOf a.toNat)).reads = (s.chan (s.chanOf a.toNat)).reads ∧
    (∀ i, i < 64 → t.byte (a.toNat / 64 * 64 + i) = if m.getLsbD i then d.getD i 0 else s.byte (a.toNat / 64 * 64 + i)) ∧
    (∀ x, (x < a.toNat / 64 * 64 ∨ a.toNat / 64 * 64 + 64 ≤ x) → t.byte x = s.byte x) ∧
    ∀ k, k ≠ s.chanOf a.toNat → t.chan k = s.chan k := by
  refine ⟨_, exec_mcAccept cls port urg true a m d s, ?_⟩
  rw [mcAccept_write cls port.toNat urg m d ha hf hw hlen]
  have hchan : ∀ (c : Chan) (k : Nat), (s.taken ((s.setChan (s.chanOf a.toNat) c).lineWritten (a.toNat / 64) m d) acceptFlds).chan k =
      (s.setChan (s.chanOf a.toNat) c).chan k := fun c k => (taken_chan _ _ (by decide) k).trans (chan_lineWritten _ _ m d k)
  have hst : ∀ c : Chan, s.StoresLine ((s.setChan (s.chanOf a.toNat) c).lineWritten (a.toNat / 64) m d) (a.toNat / 64) m d := fun c => by
    obtain ⟨hwf, hin, hout⟩ := lineWritten_stores (s := s.setChan (s.chanOf a.toNat) c) (a.toNat / 64) m d hm
    exact ⟨hwf, hin, hout⟩
  obtain ⟨-, hin, hout⟩ := (hst _).taken (w := acceptFlds) (by decide)
  refine ⟨?_, ?_, hin, hout, fun k hk => (hchan _ k).trans (chan_setChan_ne _ _ hk)⟩
  all_goals
    rw [hchan, chan_setChan]
    rfl

theorem mcAccept_queuesRead (h0 : m ≠ 0) (hlen : (s.chan (s.chanOf a.toNat)).reads.length < 128) :
    ∃ t, exec (.mcAccept cls port urg false a m d) s = .next t ∧
    (t.chan (s.chanOf a.toNat)).reads = (s.chan (s.chanOf a.toNat)).reads ++ [s.acceptReq cls port.toNat urg false a.toNat m] ∧
    (t.chan (s.chanOf a.toNat)).writes = (s.chan (s.chanOf a.toNat)).writes ∧ (∀ x, t.byte x = s.byte x) ∧
    (∀ k, k ≠ s.chanOf a.toNat → t.chan k = s.chan k) ∧ ∀ r, t.rd r = s.rd r := by
  refine ⟨_, exec_mcAccept cls port urg false a m d s, ?_⟩
  rw [mcAccept_read cls port.toNat urg m d ha hf hw h0 hlen, taken_chan _ _ (by decide), chan_setChan]
  exact ⟨rfl, rfl, taken_byte_of_mem hm (by decide) rfl, fun k hk => (taken_chan _ _ (by decide) k).trans (chan_setChan_ne _ _ hk),
    fun r => (taken_rd _ _ (by decide) r).trans (rd_setChan _ _ _ _)⟩

end

section
variable {q : Fin 64} {banks : BitVec 48} {s : State} {x : Cand} (hrun : s.chanState q = 0)
  (hx : firstCand ((s.drainSet q).candidates q banks) = some x)
include hrun hx

/-- What a channel in RUN does with its first candidate leaves the state that the issue of it makes. -/
theorem exec_mcIssue : exec (.mcIssue q banks) s = .next (s.taken ((s.drainSet q).issued q x) issueFlds) :=
  congrArg (fun t => Host.Outcome.next (s.taken t issueFlds)) (mcIssue_eq hrun hx)

theorem mcIssue_opensRow (hrow : (s.chan q).rows.look (s.bankOf x) = none) : ∃ t, exec (.mcIssue q banks) s = .next t ∧
    (t.chan q).rows.look (s.bankOf x) = some ⟨s.rowOf x, 0, s.mclk⟩ ∧ (t.chan q).reads = (s.chan q).reads ∧
    (t.chan q).writes = (s.chan q).writes := by
  refine ⟨_, exec_mcIssue hrun hx, ?_⟩
  obtain ⟨hrows, hreads, hwrites, -⟩ := drainSet_queues s q
  rw [issued_closed ((congrArg (Tab.look · _) hrows).trans hrow), taken_chan _ _ (by decide), ← hreads, ← hwrites]
  exact rowOpened_effect (s.drainSet q) q x

variable {o : OpenRow} (hopen : (s.chan q).rows.look (s.bankOf x) = some o)
include hopen

theorem mcIssue_closesRow (hrow : o.row ≠ s.rowOf x) : ∃ t, exec (.mcIssue q banks) s = .next t ∧
    (t.chan q).rows.look (s.bankOf x) = none ∧ (t.chan q).reads = (s.chan q).reads ∧ (t.chan q).writes = (s.chan q).writes := by
  refine ⟨_, exec_mcIssue hrun hx, ?_⟩
  obtain ⟨hrows, hreads, hwrites, -⟩ := drainSet_queues s q
  rw [issued_otherRow ((congrArg (Tab.look · _) hrows).trans hopen) hrow, taken_chan _ _ (by decide), ← hreads, ← hwrites]
  exact rowClosed_effect (s.drainSet q) q x

theorem mcIssue_servesRead (hrow : o.row = s.rowOf x) (hr : x.req.write = false) : ∃ t, exec (.mcIssue q banks) s = .next t ∧
    (t.chan q).reads = (s.chan q).reads.filter (fun y => y.order != x.req.order) ∧ (t.chan q).inflight = (s.chan q).inflight ++ [x.req] ∧
    (t.chan q).writes = (s.chan q).writes ∧ t.rd (Reg.CH_CNT_RD q) = s.rd (Reg.CH_CNT_RD q) + 1 := by
  refine ⟨_, exec_mcIssue hrun hx, ?_⟩
  obtain ⟨hrows, hreads, hwrites, hinflight⟩ := drainSet_queues s q
  obtain ⟨h1, h2, h3⟩ := rowServed_read (s.drainSet q) q x o hr
  have hcount := rd_rowServed (s.drainSet q) q x o
  simp only [hr, Bool.false_eq_true, if_false] at hcount
  rw [issued_openRow ((congrArg (Tab.look · _) hrows).trans hopen) hrow, taken_chan _ _ (by decide), taken_rd _ _ (by decide), h1, h2, h3, hcount,
    hreads, hwrites, hinflight]
  exact ⟨rfl, rfl, rfl, rfl⟩

theorem mcIssue_servesWrite (hrow : o.row = s.rowOf x) (hr : x.req.write = true) : ∃ t, exec (.mcIssue q banks) s = .next t ∧
    (t.chan q).writes = (s.chan q).writes.filter (fun y => y.order != x.req.order) ∧ (t.chan q).reads = (s.chan q).reads ∧
    t.rd (Reg.CH_CNT_WR q) = s.rd (Reg.CH_CNT_WR q) + 1 := by
  refine ⟨_, exec_mcIssue hrun hx, ?_⟩
  obtain ⟨hrows, hreads, hwrites, -⟩ := drainSet_queues s q
  obtain ⟨h1, h2⟩ := rowServed_write (s.drainSet q) q x o hr
  have hcount := rd_rowServed (s.drainSet q) q x o
  simp only [hr, if_true] at hcount
  rw [issued_openRow ((congrArg (Tab.look · _) hrows).trans hopen) hrow, taken_chan _ _ (by decide), taken_rd _ _ (by decide), h1, h2, hcount,
    hreads, hwrites]
  exact ⟨rfl, rfl, rfl⟩

end

/-- Settles O43: an access to the commons by its unit and its error, a request by its kind, the first candidate by the row open in its bank, and
an error by the one law of a freeze. -/
theorem memoryRequestsAndErrors : Obligations.MemoryRequestsAndErrors := by
  unfold Obligations.MemoryRequestsAndErrors
  refine ⟨fun req a m d s hm hlo hhi => ⟨commonsAccess_outcomes req m d hm hlo hhi, fun hu w e => commonsAccess_counted req m d hm hlo hhi w e hu⟩,
    fun cls port urg a m d s hm ha hf => ⟨fun hw hlen => mcAccept_queuesWrite cls port urg m d hm ha hf hw hlen,
      fun hw h0 hlen => mcAccept_queuesRead cls port urg m d hm ha hf hw h0 hlen⟩,
    fun q banks s hrun x hx => ⟨mcIssue_opensRow hrun hx, fun o ho => ⟨mcIssue_closesRow hrun hx ho, mcIssue_servesRead hrun hx ho,
      mcIssue_servesWrite hrun hx ho⟩⟩,
    fun q syn s => ⟨fun r rest h => mcReadReturn_outcomes syn h, fun a cls port hrun hq => writeParity_outcomes cls port hrun hq, ?parity,
      fun a ha hq hf hon => scrub_outcomes syn ha hq hf hon⟩⟩
  case parity =>
    intro hf hp
    obtain ⟨hself, hpair⟩ := caParity_freezes q.isLt hf hp
    exact ⟨_, rfl, hself.taken (by decide) (by decide), hpair.taken (by decide) (by decide)⟩

end Sys2Proof.Machine
end

section
/-! SUPPORT. What every command keeps: the queue, the fields outside its footprint, and the canonical form of memory (19, 95), read off the one
form in which every command answers. -/
namespace Sys2Proof.Machine

/-- Every command answers with the fields of its footprint taken from some state, and the others kept. -/
theorem exec_eq_taken (c : Instr) (s : State) : ∃ t, exec c s = .next (s.taken t (footprint c)) := by
  cases c <;> exact ⟨_, rfl⟩

/-- A field that is not taken is kept. -/
theorem same_taken_of_notMem {f : Fld} {w : List Fld} (s t : State) (h : f ∉ w) : f.same s (s.taken t w) := by
  cases f <;> exact if_neg h

/-- Settles O1: taking the front command off the queue gives back the state it was put on. -/
theorem stepRunsFrontCommand : Obligations.StepRunsFrontCommand := by
  unfold Obligations.StepRunsFrontCommand
  intro c s
  rfl

/-- Settles O3: every command answers with a state taken from another, which keeps the queue. -/
theorem everyCommandAnswersAndKeepsQueue : Obligations.EveryCommandAnswersAndKeepsQueue := by
  unfold Obligations.EveryCommandAnswersAndKeepsQueue
  intro c s
  obtain ⟨t, ht⟩ := exec_eq_taken c s
  exact ⟨_, ht, taken_pending s t _⟩

/-- Settles O4: the next state takes no field outside the footprint. -/
theorem commandsKeepFieldsOutsideTheirFootprint : Obligations.CommandsKeepFieldsOutsideTheirFootprint := by
  unfold Obligations.CommandsKeepFieldsOutsideTheirFootprint
  intro c s t f ht hf
  obtain ⟨u, hu⟩ := exec_eq_taken c s
  obtain rfl : s.taken u (footprint c) = t := Host.Outcome.next.inj (hu.symm.trans ht)
  exact same_taken_of_notMem s u hf

/-- Settles O5: a clock edge leaves memory alone, and a command keeps it or brings it to the form. -/
theorem memoryStaysCanonical : Obligations.MemoryStaysCanonical := by
  unfold Obligations.MemoryStaysCanonical
  intro s hs
  cases hq : s.pending with
  | nil => exact ⟨_, step_idle hq, by rw [show s.tclk.mem = s.mem from tclk_same (f := .mem) s (by decide)]; exact hs⟩
  | cons c rest =>
    obtain ⟨t, ht⟩ := exec_eq_taken c s.rest
    refine ⟨_, ?_, taken_mem_wf s.rest t (footprint c) hs⟩
    unfold step
    rw [hq]
    exact ht

end Sys2Proof.Machine
end

section
/-! SUPPORT. The safe-state latch and the alert stage (R427, R440 to R444), clause by clause. -/
namespace Sys2Proof.Machine

/-! ## A field that no clamp of its register touches -/

/-- No clamp of register a touches bits hi to lo. -/
def fieldUnclamped (a hi lo : Nat) : Bool :=
  clamps.all (fun c => !(pageAt (a % 0x4000000) == some c.kind && a % 0x4000000 % 0x1000 == c.off) ||
    decide (c.hi < 32 ∧ c.lo ≤ c.hi ∧ (hi < c.lo ∨ c.hi < lo)))

theorem bits_clampWord {a hi lo : Nat} (h : fieldUnclamped a hi lo = true) (hhi : hi < 32) (w : Word) : bits (clampWord a w) hi lo = bits w hi lo := by
  unfold fieldUnclamped at h
  unfold clampWord
  dsimp only
  revert h
  generalize clamps = l
  induction l generalizing w with
  | nil => intro _; rfl
  | cons c l ih =>
    intro h
    simp only [List.all_cons, Bool.and_eq_true] at h
    rw [List.foldl_cons, ih _ h.2]
    split
    · next hc =>
      have hd := h.1
      rw [hc.1, hc.2] at hd
      obtain ⟨h1, h2, h3⟩ : c.hi < 32 ∧ c.lo ≤ c.hi ∧ (hi < c.lo ∨ c.hi < lo) := by simpa using hd
      exact bits_putBits_ne _ _ h1 h2 hhi h3
    · rfl

/-- A stored write gives an fieldUnclamped writable field what is written to it. -/
theorem fld_store_unclamped (s : State) (req : Req) {a : Nat} (v : Word) {d : RegDef} {hi lo : Nat} (hd : defAt a = some d)
    (hc : fieldUnclamped a hi lo = true) (hhi : hi < 32) (h : (s.store req a v).2 = true)
    (hm : bits (BitVec.ofNat 32 d.rw) hi lo = 2 ^ (hi + 1 - lo) - 1) : (s.store req a v).1.fld a hi lo = bits v hi lo := by
  unfold State.fld
  rw [rd_store s req v hd h]
  unfold State.stored
  rw [bits_clampWord hc hhi, bits_or, bits_and_ones _ _ hm, bits_and, bits_not_ones _ hm]
  simp

/-! ## Keyed writes -/

theorem keyed_right (s : State) (req : Req) (a : Nat) {v : Word} {key : Nat} (k : State → State) (h : bits v 31 16 = key) :
    s.keyed req a v key k = k s := if_pos h

theorem keyed_wrong (s : State) (req : Req) (a : Nat) {v : Word} {key : Nat} (k : State → State) (h : bits v 31 16 ≠ key) :
    s.keyed req a v key k = s.keyViol req a := if_neg h

/-- A register that neither the log, nor the page of the refused write, nor the count of refusals changes. -/
theorem flag_keyViol (s : State) (req : Req) (a : Nat) {b : Nat} (i : Nat) (h : ¬ logReg b) (h1 : b ≠ pageBase a + 0x10)
    (h2 : b ≠ Reg.KEYVIOL_CNT) : (s.keyViol req a).flag b i = s.flag b i := flag_congr (rd_keyViol s req a h h1 h2) i

/-! ## The latch (R427, R438) -/

theorem taken_safe (s t : State) {w : List Fld} (h : .regs ∈ w) : (s.taken t w).safe = t.safe := taken_flag s t h _ _

theorem safe_safeSettle (s : State) : s.safeSettle.safe = s.safe :=
  flag_congr (rd_safeSettle s (not_padReg (by decide) (by decide) (by decide))) 31

theorem pins_pinsSettle (s : State) : s.pinsSettle.pins = s.pins := pinsSettle_same (f := .pins) s (by decide)

theorem hold_safeSettle (s : State) : s.safeSettle.pins.hold = [] :=
  congrArg Pins.hold (pins_pinsSettle (s.updPins (fun x => { x with hold := [] })))

/-- A write that moves the latch ends the hold of every pin. -/
theorem safeWrite_moved {s : State} {req : Req} {v : Word} {b : Bool} (h : (s.safeCmd req v).safe = b) (hs : s.safe ≠ b) :
    (s.safeWrite req v).safe = b ∧ (s.safeWrite req v).pins.hold = [] := by
  have e : s.safeWrite req v = (s.safeCmd req v).safeSettle := if_neg (fun k => hs (k.symm.trans h))
  rw [e]
  exact ⟨(safe_safeSettle _).trans h, hold_safeSettle _⟩

theorem safeWrite_kept {s : State} {req : Req} {v : Word} (h : (s.safeCmd req v).safe = s.safe) : s.safeWrite req v = s.safeCmd req v :=
  if_pos h

theorem safeCmd_enter (s : State) (req : Req) {v : Word} (hk : bits v 31 16 = 0x5AF3) (hb : bit v 0 = true) : (s.safeCmd req v).safe = true := by
  unfold State.safeCmd
  rw [keyed_right _ _ _ _ hk, if_pos hb]
  exact flag_setFlag _ _ _ (by decide)

theorem safeCmd_leave {s : State} (req : Req) {v : Word} (hk : bits v 31 16 = 0x5AF3) (h0 : bit v 0 = false) (h1 : bit v 1 = true)
    (hs : s.stopped3 = false) : (s.safeCmd req v).safe = false := by
  unfold State.safeCmd
  rw [keyed_right _ _ _ _ hk, if_neg (by simp [h0]), if_pos ⟨h1, hs⟩]
  exact flag_setFlag _ _ _ (by decide)

theorem safeCmd_refused (s : State) (req : Req) {v : Word} (hk : bits v 31 16 ≠ 0x5AF3) :
    (s.safeCmd req v).safe = s.safe ∧ (s.safeCmd req v).pins = s.pins := by
  unfold State.safeCmd
  rw [keyed_wrong _ _ _ _ hk]
  exact ⟨flag_keyViol _ _ _ _ (not_logReg (by decide) (by decide) (by decide)) (by decide) (by decide),
    keyViol_same (f := .pins) _ _ _ (by decide)⟩

/-- The key of a command stands in bits that its row does not set. -/
theorem key_or (v m : Word) (h : bits m 31 16 = 0) : bits (v ||| m) 31 16 = bits v 31 16 := bits_or_zero v m h

theorem exec_safeEnter (req : Req) {v : Word} {s : State} (hk : bits v 31 16 = 0x5AF3) (hs : s.safe = false) :
    ∃ t, exec (.safeEnter req v) s = .next t ∧ t.safe = true ∧ t.pins.hold = [] := by
  refine ⟨_, rfl, ?_⟩
  rw [taken_safe _ _ (by decide), taken_pins, if_pos (by decide)]
  exact safeWrite_moved (safeCmd_enter s req ((key_or v 1 (by decide)).trans hk) (by simp [bit])) (by simp [hs])

theorem exec_safeLeave (req : Req) {v : Word} {s : State} (hk : bits v 31 16 = 0x5AF3) (hs : s.safe = true) (h3 : s.stopped3 = false) :
    ∃ t, exec (.safeLeave req v) s = .next t ∧ t.safe = false ∧ t.pins.hold = [] := by
  have hkey : bits (v &&& 0xFFFFFFFE ||| 2) 31 16 = 0x5AF3 := by
    rw [key_or _ _ (by decide), bits_and_ones _ _ (by decide), hk]
  refine ⟨_, rfl, ?_⟩
  rw [taken_safe _ _ (by decide), taken_pins, if_pos (by decide)]
  exact safeWrite_moved (safeCmd_leave req hkey (by simp [bit]) (by simp [bit]) h3) (by simp [hs])

theorem exec_safeEnter_refused (req : Req) {v : Word} (s : State) (hk : bits v 31 16 ≠ 0x5AF3) :
    ∃ t, exec (.safeEnter req v) s = .next t ∧ t.safe = s.safe ∧ t.pins = s.pins := by
  have h := safeCmd_refused s req (v := v ||| 1) (by rwa [key_or v 1 (by decide)])
  refine ⟨_, rfl, ?_⟩
  rw [taken_safe _ _ (by decide), taken_pins, if_pos (by decide), safeWrite_kept h.1]
  exact h

/-! ## The mode of the alert stage (R441, R442) -/

theorem taken_alertMode (s t : State) {w : List Fld} (h : .regs ∈ w) : (s.taken t w).alertMode = t.alertMode := by
  unfold State.alertMode; rw [taken_fld _ _ h]

theorem alertMode_eq {s : State} (h : s.fld Reg.ALERT_CTL 1 0 = 1) : s.alertMode = 1 := by
  unfold State.alertMode; rw [h]; rfl

theorem exec_alertMode_tone {req : Req} {v : Word} {s : State} (hv : bits v 1 0 = 1) (hm : s.alertMode ≠ 1)
    (hs : (s.store req Reg.ALERT_CTL v).2 = true) :
    ∃ t, exec (.alertModeWrite req v) s = .next t ∧ t.alertMode = 1 ∧ t.alert = { s.alert with cad := 0 } := by
  have hstore : (s.store req Reg.ALERT_CTL v).1.alert = s.alert := store_same (f := .alert) s req _ v hs (by decide)
  have hctl : s.alertCtl req v = (s.store req Reg.ALERT_CTL v).1.updAlert (fun x => { x with cad := 0 }) := by
    unfold State.alertCtl
    simp only [hv]
    rw [if_neg (by simp), storeThen_eq _ _ _ _ _ hs, if_pos (by simp [hm])]
  have hfld : (s.store req Reg.ALERT_CTL v).1.fld Reg.ALERT_CTL 1 0 = 1 :=
    (fld_store_unclamped s req v rfl (by decide) (by decide) hs (by decide)).trans hv
  refine ⟨_, rfl, ?_⟩
  rw [taken_alertMode _ _ (by decide), taken_alert, if_pos (by decide), hctl]
  exact ⟨alertMode_eq hfld, congrArg (fun x : Alert => { x with cad := 0 }) hstore⟩

theorem exec_alertMode_badRing (req : Req) {v : Word} {s : State} (hv : bits v 1 0 = 2) (hm : s.alertMode ≠ 2) (hr : s.ringOk = false) :
    ∃ t, exec (.alertModeWrite req v) s = .next t ∧ t.alert = s.alert ∧ t.flag Reg.ALERT 29 = true ∧ ∀ a, a ≠ Reg.ALERT → t.rd a = s.rd a := by
  have hctl : s.alertCtl req v = s.setFlag Reg.ALERT 29 true := by
    unfold State.alertCtl
    rw [hv]
    exact if_pos ⟨rfl, hm, hr⟩
  refine ⟨_, rfl, ?_⟩
  rw [taken_alert, if_pos (by decide), taken_flag _ _ (by decide), hctl]
  exact ⟨setFlag_alert _ _ _ _, flag_setFlag _ _ _ (by decide), fun a ha => (taken_rd _ _ (by decide) a).trans (rd_setFlag_ne _ _ _ ha)⟩

/-! ## One sample (R441) -/

theorem play_on {s : State} (h : s.stageOn = true) (v : Int) : s.play v = s.emit (.tone (s.scaled v)) := if_pos h

theorem exec_alertSample_tone {s : State} (hm : s.alertMode = 1) (hon : s.stageOn = true) (hc : s.alert.cad < s.fld Reg.TONE_CAD 31 16 * 48) :
    ∃ t, exec .alertSample s = .next t ∧ t.out = .tone (s.scaled s.toneSample) :: s.out ∧
      t.alert = { s.alert with phase := s.alert.phase + BitVec.ofNat 32 ((s.fld Reg.TONE_CFG 14 0 * 2 ^ 33 + 48000) / 96000), cad := s.alert.cad + 1 } := by
  have e : s.alertSample = (s.emit (.tone (s.scaled s.toneSample))).updAlert (fun x =>
      { x with phase := x.phase + BitVec.ofNat 32 ((s.fld Reg.TONE_CFG 14 0 * 2 ^ 33 + 48000) / 96000), cad := s.alert.cad + 1 }) := by
    unfold State.alertSample
    simp only [hm]
    rw [if_pos (Nat.lt_of_lt_of_le hc (Nat.le_add_right _ _)), if_pos hc, play_on hon]
  refine ⟨_, rfl, ?_⟩
  rw [taken_out, if_pos (by decide), taken_alert, if_pos (by decide), e]
  exact ⟨rfl, rfl⟩

/-! ## Overcurrent and its retry (R443, R444) -/

theorem stageOn_short {s : State} (h : s.flag Reg.ALERT 31 = true) : s.stageOn = false := by simp [State.stageOn, h]

/-- The state in which a trip has been counted and raised. -/
def State.tripped (s : State) : State := (s.bump Reg.ALERT_CNT_TRIPS).raise alertPage 0

/-- The trips of the last 10 s. -/
def State.recentTrips (s : State) : List Nat := s.alert.trips.filter (fun t => decide (s.now ≤ t + 10000000000))

theorem now_tripped (s : State) : s.tripped.now = s.now := congrArg (fun c : Clk => c.tb.toNat) (raise_clk _ _ _)

theorem overcurrent_on {s : State} (hon : s.stageOn = true) :
    s.overcurrent = if 3 ≤ (s.now :: s.recentTrips).length then
      ((s.tripped.updAlert (fun x => { x with trips := s.now :: s.recentTrips, retry := none })).setFlag Reg.ALERT 31 true).raise alertPage 1
    else (s.tripped.updAlert (fun x => { x with trips := s.now :: s.recentTrips, retry := some (s.tripped.now + 200000000) })).setFlag
      Reg.ALERT 30 true := by
  unfold State.overcurrent
  rw [if_neg (by simp [hon])]
  rfl

theorem overcurrent_retries {s : State} (hon : s.stageOn = true) (h : s.recentTrips.length < 2) :
    s.overcurrent = (s.tripped.updAlert (fun x => { x with trips := s.now :: s.recentTrips, retry := some (s.now + 200000000) })).setFlag
      Reg.ALERT 30 true := by
  rw [overcurrent_on hon, if_neg (by rw [List.length_cons]; omega), now_tripped]

theorem overcurrent_latches {s : State} (hon : s.stageOn = true) (h : 2 ≤ s.recentTrips.length) :
    s.overcurrent = ((s.tripped.updAlert (fun x => { x with trips := s.now :: s.recentTrips, retry := none })).setFlag
      Reg.ALERT 31 true).raise alertPage 1 := by
  rw [overcurrent_on hon, if_pos (by rw [List.length_cons]; omega)]

theorem rd_tripped_trips (s : State) : s.tripped.rd Reg.ALERT_CNT_TRIPS = s.rd Reg.ALERT_CNT_TRIPS + 1 :=
  (rd_raise _ _ _ (not_msgReg (by decide) (by decide)) (by decide)).trans (rd_bump_same _ _)

theorem exec_overcurrent_retries {s : State} (hon : s.stageOn = true) (h : s.recentTrips.length < 2) :
    ∃ t, exec .overcurrent s = .next t ∧ t.alert.retry = some (s.now + 200000000) ∧ t.alert.trips = s.now :: s.recentTrips ∧
      t.flag Reg.ALERT 30 = true ∧ t.rd Reg.ALERT_CNT_TRIPS = s.rd Reg.ALERT_CNT_TRIPS + 1 := by
  refine ⟨_, rfl, ?_⟩
  rw [taken_alert, if_pos (by decide), taken_flag _ _ (by decide), taken_rd _ _ (by decide), overcurrent_retries hon h]
  exact ⟨rfl, rfl, flag_setFlag _ _ _ (by decide), (rd_setFlag_ne _ _ _ (by decide)).trans (rd_tripped_trips s)⟩

theorem exec_overcurrent_latches {s : State} (hon : s.stageOn = true) (h : 2 ≤ s.recentTrips.length) :
    ∃ t, exec .overcurrent s = .next t ∧ t.alert.retry = none ∧ t.flag Reg.ALERT 31 = true ∧ t.stageOn = false := by
  have hf : s.overcurrent.flag Reg.ALERT 31 = true := by
    rw [overcurrent_latches hon h, flag_congr (rd_raise _ _ _ (not_msgReg (by decide) (by decide)) (by decide))]
    exact flag_setFlag _ _ _ (by decide)
  refine ⟨_, rfl, ?_, ?short, stageOn_short ?short⟩
  · rw [taken_alert, if_pos (by decide), overcurrent_latches hon h, raise_alert]
    rfl
  · exact (taken_flag _ _ (by decide) _ _).trans hf

theorem exec_tripRetry_due {s : State} {i : Nat} (hr : s.alert.retry = some i) (hi : i ≤ s.now) (hs : s.safe = false) :
    ∃ t, exec .tripRetry s = .next t ∧ t.alert = { s.alert with retry := none } ∧ t.flag Reg.ALERT 30 = false := by
  have e : s.tripRetry = (s.updAlert (fun x => { x with retry := none })).setFlag Reg.ALERT 30 false := by
    unfold State.tripRetry
    rw [hr]
    exact if_pos ⟨hi, hs⟩
  refine ⟨_, rfl, ?_⟩
  rw [taken_alert, if_pos (by decide), taken_flag _ _ (by decide), e]
  exact ⟨rfl, flag_setFlag _ _ _ (by decide)⟩

theorem exec_alertClear_short (req : Req) {v : Word} {s : State} (hk : bits v 31 16 = 0xA1E7) (hf : s.flag Reg.ALERT 31 = true) :
    ∃ t, exec (.alertClear req v) s = .next t ∧ t.alert = { s.alert with trips := [] } ∧ t.flag Reg.ALERT 31 = false := by
  have e : s.alertCmd req (v ||| 1) = (s.updAlert (fun x => { x with trips := [] })).setFlag Reg.ALERT 31 false := by
    unfold State.alertCmd
    rw [keyed_right _ _ _ _ ((key_or v 1 (by decide)).trans hk)]
    exact if_pos ⟨by simp [bit], hf⟩
  refine ⟨_, rfl, ?_⟩
  rw [taken_alert, if_pos (by decide), taken_flag _ _ (by decide), e]
  exact ⟨rfl, flag_setFlag _ _ _ (by decide)⟩

/-- Settles O23: each row by the one write it makes; what settles after a move of the latch changes no register of the health page. -/
theorem safeStateAndAlertStage : Obligations.SafeStateAndAlertStage := by
  unfold Obligations.SafeStateAndAlertStage
  exact ⟨fun req v s => ⟨exec_safeEnter req, exec_safeLeave req, exec_safeEnter_refused req s⟩,
    fun req v s => ⟨exec_alertMode_tone, exec_alertMode_badRing req⟩, fun s => exec_alertSample_tone,
    fun s hon => ⟨exec_overcurrent_retries hon, exec_overcurrent_latches hon⟩, fun s i => exec_tripRetry_due,
    fun req v s => exec_alertClear_short req⟩

end Sys2Proof.Machine
end

section
/-! SUPPORT. One relation for what an operation leaves alone: the fields outside a list, and the registers outside a set beside those
that the fault log and a signal change. Its rules follow the operations one by one, so that a longer operation is read off as a chain. -/
namespace Sys2Proof.Machine

/-- From `s` to `t` only fields of F change, and of the registers only those of R, of the fault log and of signals. -/
structure Keeps (F : List Fld) (R : Nat → Bool) (s t : State) : Prop where
  same : ∀ f, f ∉ F → f.same s t
  rd : ∀ a, ¬ logReg a → R a = false → t.rd a = s.rd a

/-- The fields that raising an event may change, and those that a log entry may. -/
def evtFlds : List Fld := [.regs, .holding, .msix, .hevt, .out]
def logFlds : List Fld := [.regs, .holding, .msix, .hevt, .out, .flogRing]

namespace Keeps

variable {F G : List Fld} {R Q : Nat → Bool} {s t u : State}

theorem refl (s : State) : Keeps F R s s := ⟨fun f _ => Fld.same_refl f s, fun _ _ _ => rfl⟩

theorem trans (h : Keeps F R s t) (k : Keeps F R t u) : Keeps F R s u :=
  ⟨fun f hf => Fld.same_trans (h.same f hf) (k.same f hf), fun a hl hr => (k.rd a hl hr).trans (h.rd a hl hr)⟩

theorem mono (h : Keeps F R s t) (hF : F ⊆ G) (hR : ∀ a, R a = true → Q a = true) : Keeps G Q s t :=
  ⟨fun f hf => h.same f (fun e => hf (hF e)), fun a hl hq => h.rd a hl (by cases e : R a with
    | false => rfl
    | true => rw [hR a e] at hq; exact hq)⟩

/-- The rule for an operation whose registers are all among those of the log and of signals. -/
theorem wider (h : Keeps F (fun _ => false) s t) (hF : F ⊆ G := by decide) : Keeps G Q s t := h.mono hF (fun _ e => nomatch e)

theorem ite {c : Prop} [Decidable c] (h : Keeps F R s t) (k : Keeps F R s u) : Keeps F R s (if c then t else u) := by
  split <;> assumption

theorem ite_fst {β : Type} {c : Prop} [Decidable c] {x y : State × β} (h : Keeps F R s x.1) (k : Keeps F R s y.1) :
    Keeps F R s (if c then x else y).1 := by split <;> assumption

theorem foldl {β : Type} (g : State → β → State) (hg : ∀ t e, Keeps F R t (g t e)) (l : List β) (s : State) : Keeps F R s (l.foldl g s) := by
  induction l generalizing s with
  | nil => exact refl s
  | cons e l ih => exact (hg s e).trans (ih _)

/-- An operation that changes one field and no register. -/
theorem of_field {f : Fld} (h : ∀ g, g ∉ [f] → g.same s t) (hr : f ≠ .regs) (hF : f ∈ F) : Keeps F R s t :=
  ⟨fun g hg => h g (by rintro e; rw [List.mem_singleton] at e; exact hg (e ▸ hF)),
   fun a _ _ => rd_congr (h .regs (by simpa using hr.symm)) a⟩

theorem wr {a : Nat} {v : Word} (h : Keeps F R s t) (hF : Fld.regs ∈ F := by decide) (hR : R a = true := by decide) :
    Keeps F R s (t.wr a v) :=
  h.trans ⟨fun _ hf => wr_same t a v (fun e => hf (List.mem_singleton.mp e ▸ hF)),
    fun b _ hb => rd_wr_ne t v (fun e => by rw [e, hR] at hb; exact nomatch hb)⟩

theorem setFld {a hi lo n : Nat} (h : Keeps F R s t) (hF : Fld.regs ∈ F := by decide) (hR : R a = true := by decide) :
    Keeps F R s (t.setFld a hi lo n) := h.wr hF hR

theorem setFlag {a i : Nat} {b : Bool} (h : Keeps F R s t) (hF : Fld.regs ∈ F := by decide) (hR : R a = true := by decide) :
    Keeps F R s (t.setFlag a i b) := h.wr hF hR

theorem count {a n : Nat} (h : Keeps F R s t) (hF : Fld.regs ∈ F := by decide) (hR : R a = true := by decide) :
    Keeps F R s (t.count a n) := h.wr hF hR

theorem bump {a : Nat} (h : Keeps F R s t) (hF : Fld.regs ∈ F := by decide) (hR : R a = true := by decide) :
    Keeps F R s (t.bump a) := h.wr hF hR

theorem raise {p b : Nat} (h : Keeps F R s t) (hF : evtFlds ⊆ F := by decide) (hR : R (p + 0x10) = true := by decide) :
    Keeps F R s (t.raise p b) :=
  h.trans ⟨fun f hf => raise_same t p b (fun e => hf (hF e)),
    fun a hl hr => rd_raise t p b (fun m => hl (.inl m)) (fun e => by rw [e, hR] at hr; exact nomatch hr)⟩

theorem log {cls code id d : Nat} (h : Keeps F R s t) (hF : logFlds ⊆ F := by decide) : Keeps F R s (t.log cls code id d) :=
  h.trans ⟨fun _ hf => log_same t cls code id d (fun e => hf (hF e)), fun _ hl _ => rd_log t cls code id d hl⟩

theorem emit {o : Out} (h : Keeps F R s t) (hF : Fld.out ∈ F := by decide) : Keeps F R s (t.emit o) :=
  h.trans (of_field (f := .out) (fun _ hg => emit_same t o hg) (by decide) hF)

theorem updHealth {g : Health → Health} (h : Keeps F R s t) (hF : Fld.health ∈ F := by decide) : Keeps F R s (t.updHealth g) :=
  h.trans (of_field (f := .health) (fun _ hg => updHealth_same t g hg) (by decide) hF)

theorem updEmg {g : Emg → Emg} (h : Keeps F R s t) (hF : Fld.emg ∈ F := by decide) : Keeps F R s (t.updEmg g) :=
  h.trans (of_field (f := .emg) (fun _ hg => updEmg_same t g hg) (by decide) hF)

theorem updKal {g : Kal → Kal} (h : Keeps F R s t) (hF : Fld.kal ∈ F := by decide) : Keeps F R s (t.updKal g) :=
  h.trans (of_field (f := .kal) (fun _ hg => updKal_same t g hg) (by decide) hF)

theorem setKlink {l : Nat} {x : KLink} (h : Keeps F R s t) (hF : Fld.klinks ∈ F := by decide) : Keeps F R s (t.setKlink l x) :=
  h.trans (of_field (f := .klinks) (fun _ hg => setKlink_same t l x hg) (by decide) hF)

/-- A field of the state that is kept. -/
theorem fld (h : Keeps F R s t) {a : Nat} (hi lo : Nat) (hl : ¬ logReg a) (hr : R a = false) : t.fld a hi lo = s.fld a hi lo :=
  fld_congr (h.rd a hl hr) hi lo

theorem flag (h : Keeps F R s t) {a : Nat} (i : Nat) (hl : ¬ logReg a) (hr : R a = false) : t.flag a i = s.flag a i :=
  flag_congr (h.rd a hl hr) i

theorem now (h : Keeps F R s t) (hF : Fld.clk ∉ F := by decide) : t.now = s.now :=
  congrArg (fun c : Clk => c.tb.toNat) (h.same .clk hF)

end Keeps

end Sys2Proof.Machine
end

section
/-! SUPPORT. Monitor samples, the faults that stop the module, and the watchdogs (R411 to R417, R422, R454, R280), clause by clause. -/
namespace Sys2Proof.Machine

theorem not_logReg_health {a : Nat} (h : 0x8000 ≤ a ∧ a < 0x9000) : ¬ logReg a := not_logReg (by omega) (by omega) (by simp only [Reg.HP_CNT_VEC_DROP]; omega)

theorem health_log (s : State) (cls code id d : Nat) : (s.log cls code id d).health = s.health := log_same (f := .health) s cls code id d (by decide)

/-! ## Readings and the throttle level (R411, R413, R414) -/

theorem putPairs_same {f : Fld} (s : State) (a : Nat) (l : List (BitVec 16)) (h : f ∉ [Fld.regs]) : f.same s (s.putPairs a l) :=
  foldl_same _ (fun t _ => wr_same t _ _ h) _ s

/-- The fields and registers that a change of the throttle level may change. -/
def throttleFlds : List Fld := .health :: logFlds
def throttleReg (a : Nat) : Bool := [Reg.HM_STS, Reg.HM_CNT_THROT_US, Reg.HM_CNT_TEMP_WARN, 0x8010].contains a

theorem keeps_throttle (s : State) (t : BitVec 16) : Keeps throttleFlds throttleReg s (s.throttle t) := by
  have hcount : Keeps throttleFlds throttleReg s (if s.fld Reg.HM_STS 25 24 = 0 then s else s.count Reg.HM_CNT_THROT_US 50) :=
    .ite (.refl s) (.count (.refl s))
  unfold State.throttle
  dsimp only
  exact .ite hcount.updHealth (.ite (.raise (.ite (.raise (.bump (.raise (.log (.updHealth (.setFld hcount)))))) (.raise (.log (.updHealth (.setFld hcount))))))
    (.ite (.raise (.bump (.raise (.log (.updHealth (.setFld hcount)))))) (.raise (.log (.updHealth (.setFld hcount))))))

/-- A change of the level writes LEVEL of HM_STS and SINCE; the counts, events and log entry with it touch neither register nor health. -/
theorem throttle_level (s : State) (t : BitVec 16) : ∃ u : State, u.fld Reg.HM_STS 15 0 = s.fld Reg.HM_STS 15 0 ∧
    u.health.samples = s.health.samples ∧ Keeps logFlds (fun a => [Reg.HM_CNT_TEMP_WARN, 0x8010].contains a) u (s.throttle t) := by
  have hcount : Keeps [.regs] (fun a => [Reg.HM_CNT_THROT_US].contains a) s (if s.fld Reg.HM_STS 25 24 = 0 then s else s.count Reg.HM_CNT_THROT_US 50) :=
    .ite (.refl s) (.count (.refl s))
  unfold State.throttle
  dsimp only
  generalize (if s.fld Reg.HM_STS 25 24 = 0 then s else s.count Reg.HM_CNT_THROT_US 50) = c at hcount
  have hmax : c.fld Reg.HM_STS 15 0 = s.fld Reg.HM_STS 15 0 := hcount.fld 15 0 (not_logReg_health (by decide)) (by decide)
  have hsamples : c.health.samples = s.health.samples := congrArg Health.samples (hcount.same .health (by decide))
  generalize nextLevel t.toInt c.warnT c.critT c.hystT (s.fld Reg.HM_STS 25 24) (min 2000 (c.health.since + 1)) = n
  split
  · exact ⟨c.updHealth (fun h => { h with since := min 2000 (c.health.since + 1) }), (fld_congr (rd_updHealth _ _ _) 15 0).trans hmax,
      (congrArg Health.samples (health_updHealth _ _)).trans hsamples, .refl _⟩
  · refine ⟨(c.setFld Reg.HM_STS 25 24 n).updHealth (fun h => { h with since := 0 }), (fld_congr (rd_updHealth _ _ _) 15 0).trans
      ((fld_setFld_ne c _ _ (by decide) (by decide) (by decide) (by decide)).trans hmax),
      (congrArg Health.samples (health_updHealth _ _)).trans ((congrArg Health.samples (setFld_health _ _ _ _ _)).trans hsamples), ?_⟩
    exact .ite (.raise (.ite (.raise (.bump (.raise (.log (.refl _))))) (.raise (.log (.refl _)))))
      (.ite (.raise (.bump (.raise (.log (.refl _))))) (.raise (.log (.refl _))))

/-- The state in which a sample has been stored, before the throttle level follows it. -/
def State.sampled (s : State) (temps volts : List (BitVec 16)) : State :=
  let t := ((s.putPairs Reg.TEMP_01 temps).putPairs Reg.VOLT_01 volts).setFld Reg.HM_STS 15 0 (hottest temps).1.toNat
  t.updHealth (fun x =>
    { x with samples := x.samples + 1, cool := if decide ((hottest temps).1.toInt < t.warnT - t.hystT) then x.cool + 1 else 0,
             warned := (x.warned.map (fun (e : Nat × Nat) =>
               (e.1, if railWarns e.1 ((volts.drop e.1).headD 0).toNat then 0 else e.2 + 1))).filter (fun (e : Nat × Nat) => decide (e.2 < 20)) })

theorem monitorSample_eq {temps volts : List (BitVec 16)} {s : State} (hp : s.emg.powered = true) (ht : temps.length = 24) (hv : volts.length = 16) :
    s.monitorSample temps volts = (if ((s.sampled temps volts).throttle (hottest temps).1).shutT ≤ signed 16 (s.fld Reg.HM_STS 15 0) ∧
        ((s.sampled temps volts).throttle (hottest temps).1).shutT ≤ (hottest temps).1.toInt ∧
        ((s.sampled temps volts).throttle (hottest temps).1).inShutdown = false
      then ((s.sampled temps volts).throttle (hottest temps).1).thermalStop false (hottest temps).2 (hottest temps).1
      else (s.sampled temps volts).throttle (hottest temps).1) := by
  unfold State.monitorSample
  rw [if_neg (by simp [hp, ht, hv])]
  rfl

section
variable (temps volts : List (BitVec 16)) (s : State)

theorem rd_sampled_cfg : (s.sampled temps volts).rd Reg.TEMP_CFG = s.rd Reg.TEMP_CFG := by
  unfold State.sampled
  dsimp only
  rw [rd_updHealth, rd_setFld_ne _ _ _ _ (by decide), rd_putPairs _ _ _ (.inl (by decide)), rd_putPairs _ _ _ (.inl (by decide))]

theorem fld_sampled : (s.sampled temps volts).fld Reg.HM_STS 15 0 = (hottest temps).1.toNat := by
  refine (fld_congr (rd_updHealth _ _ _) 15 0).trans ((fld_setFld _ _ _ (by decide) (by decide)).trans ?_)
  exact Nat.mod_eq_of_lt (hottest temps).1.isLt

theorem sampled_same {f : Fld} (h : f ∉ [Fld.regs, .health]) : f.same s (s.sampled temps volts) := by
  have hr : f ∉ [Fld.regs] := notMem_part h (by decide)
  exact Fld.same_trans (Fld.same_trans (Fld.same_trans (putPairs_same _ _ _ hr) (putPairs_same _ _ _ hr)) (wr_same _ _ _ hr))
    (updHealth_same _ _ (notMem_part h (by decide)))

/-- The sample counts once. -/
theorem samples_sampled : (s.sampled temps volts).health.samples = s.health.samples + 1 := by
  have hkept : (((s.putPairs Reg.TEMP_01 temps).putPairs Reg.VOLT_01 volts).setFld Reg.HM_STS 15 0 (hottest temps).1.toNat).health = s.health :=
    Fld.same_trans (f := .health) (Fld.same_trans (putPairs_same _ _ _ (by decide)) (putPairs_same _ _ _ (by decide))) (wr_same _ _ _ (by decide))
  exact congrArg (fun h : Health => h.samples + 1) hkept

theorem exec_monitorSample_cool {temps volts : List (BitVec 16)} {s : State} (hp : s.emg.powered = true) (ht : temps.length = 24)
    (hv : volts.length = 16) (hcool : (hottest temps).1.toInt < s.shutT) :
    ∃ t, exec (.monitorSample temps volts) s = .next t ∧ t.health.samples = s.health.samples + 1 ∧
      t.fld Reg.HM_STS 15 0 = (hottest temps).1.toNat ∧ t.items = s.items ∧ t.clk = s.clk := by
  have hkeep := keeps_throttle (s.sampled temps volts) (hottest temps).1
  obtain ⟨u, hmax, hsamples, hlevel⟩ := throttle_level (s.sampled temps volts) (hottest temps).1
  have hshut : ((s.sampled temps volts).throttle (hottest temps).1).shutT = s.shutT := by
    unfold State.shutT
    rw [hkeep.fld _ _ (not_logReg_health (by decide)) (by decide), fld_congr (rd_sampled_cfg temps volts s)]
  have heq : s.monitorSample temps volts = (s.sampled temps volts).throttle (hottest temps).1 := by
    rw [monitorSample_eq hp ht hv, if_neg]
    rintro ⟨-, hhot, -⟩
    exact absurd hhot (by rw [hshut]; omega)
  refine ⟨_, rfl, ?_⟩
  rw [taken_health, if_pos (by decide), taken_fld _ _ (by decide), taken_items, if_pos (by decide), taken_clk, if_pos (by decide), heq]
  refine ⟨(congrArg Health.samples (hlevel.same .health (by decide))).trans (hsamples.trans (samples_sampled temps volts s)),
    (hlevel.fld _ _ (not_logReg_health (by decide)) (by decide)).trans (hmax.trans (fld_sampled temps volts s)),
    (hkeep.same .items (by decide)).trans (sampled_same (f := .items) temps volts s (by decide)),
    (hkeep.same .clk (by decide)).trans (sampled_same (f := .clk) temps volts s (by decide))⟩

end

/-- With every count at MIN or above it, a sample of the process sites stores the counts and nothing else (R413). -/
theorem procSample_fine {counts : List (BitVec 16)} {s : State} (hp : s.emg.powered = true) (hl : counts.length = 32)
    (hc : ∀ c ∈ counts, s.fld Reg.PROC_CFG 15 0 ≤ c.toNat) : s.procSample counts = s.putPairs Reg.PROC_01 counts := by
  unfold State.procSample
  rw [if_neg (by simp [hp, hl])]
  refine List.foldlRecOn (motive := fun t => t = s.putPairs Reg.PROC_01 counts) _ _ rfl (fun t ht e he => ?_)
  rw [if_pos (hc e.1 (List.fst_mem_of_mem_zipIdx he))]
  exact ht

theorem exec_procSample_fine {counts : List (BitVec 16)} {s : State} (hp : s.emg.powered = true) (hl : counts.length = 32)
    (hc : ∀ c ∈ counts, s.fld Reg.PROC_CFG 15 0 ≤ c.toNat) : ∃ t, exec (.procSample counts) s = .next t ∧
      ∀ (i : Nat) (h : i < counts.length), t.fld (Reg.PROC_01 + 4 * (i / 2)) (16 * (i % 2) + 15) (16 * (i % 2)) = (counts[i]).toNat := by
  refine ⟨_, rfl, fun i h => ?_⟩
  rw [taken_fld _ _ (by decide), procSample_fine hp hl hc, fld_putPairs _ _ _ _ h]

/-! ## Rails (R412) -/

theorem exec_railWarn_first {m : Fin 16} {mv : BitVec 16} {s : State} (hp : s.emg.powered = true) (hw : railWarns m mv.toNat = true)
    (hn : s.health.warned.look m = none) : ∃ t, exec (.railWarn m mv) s = .next t ∧ t.rd Reg.HM_CNT_RAIL_WARN = s.rd Reg.HM_CNT_RAIL_WARN + 1 ∧
      t.health.warned.look m = some 0 ∧ t.flag 0x8010 2 = true ∧ ∃ e, t.flogRing.getLast? = some e ∧ e.cls = 0 ∧ e.code = 0x60 := by
  have heq : s.railWarn m mv = (((s.bump Reg.HM_CNT_RAIL_WARN).log 0 0x60 hmId (m * 2 ^ 48 + mv.toNat)).updHealth
      (fun h => { h with warned := h.warned.insert m 0 })).raise hmPage 2 := if_pos ⟨hp, hw, by simp [hn]⟩
  refine ⟨_, rfl, ?_⟩
  rw [taken_rd _ _ (by decide), taken_health, if_pos (by decide), taken_flag _ _ (by decide), taken_flogRing, if_pos (by decide), heq]
  refine ⟨?count, ?warned, flag_raise_self _ _ _ (by decide) (not_msgReg (by decide) (by decide)), ?logged⟩
  case count =>
    rw [rd_raise _ _ _ (not_msgReg (by decide) (by decide)) (by decide), rd_updHealth, rd_log _ _ _ _ _ (not_logReg_health (by decide)), rd_bump_same]
  case warned =>
    rw [raise_health]
    exact Tab.look_insert_same _ _ _
  case logged =>
    rw [raise_flogRing]
    obtain ⟨e, hlast, hcls, hcode, -⟩ := log_last (s.bump Reg.HM_CNT_RAIL_WARN) 0 0x60 hmId (m * 2 ^ 48 + mv.toNat)
    exact ⟨e, hlast, hcls, hcode⟩

/-! ## Faults that stop the module (R415 to R417, R454) -/

/-- The module has stopped for the fault k: the safe state, no READY, no item, no clock, and every entry committed. -/
structure State.Stopped (t : State) (k : Stop) : Prop where
  safe : t.safe = true
  ready : t.ready = false
  items : t.items = []
  clk : t.clk.running = false
  handling : t.health.handling = some k
  committed : ∀ e ∈ t.flogRing, e.committed = true

theorem mem_commitAll {s : State} {e : FEntry} (h : e ∈ (s.commitLog (fun _ => true)).flogRing) : e.committed = true := by
  obtain ⟨x, -, rfl⟩ := List.mem_map.mp h
  rfl

/-- What the first fault k writes before the clocks stop. -/
def State.latchStop (s : State) (k : Stop) : State :=
  let s := ((s.setFlag Reg.HM_STS 31 true).updHealth (fun h => { h with handling := some k, cool := 0 })).updEmg
    (fun e => { e with e6 := false, resetting := false })
  let s := (s.setFlag Reg.AO_EMG_STS 31 false).setFld Reg.AO_EMG_STS 7 0 0
  if k = .pll then s else s.wr Reg.CLK_STS (s.rd Reg.CLK_STS &&& 0xFFFFFFFA)

/-- Items discarded and clocks stopped. -/
def State.halted (s : State) : State := { s with items := [], clk := { s.clk with running := false } }

theorem rd_halted (s : State) (a : Nat) : s.halted.rd a = s.rd a := rd_congr (t := s.halted) rfl a
theorem health_halted (s : State) : s.halted.health = s.health := rfl
theorem flogRing_halted (s : State) : s.halted.flogRing = s.flogRing := rfl

section
variable (s : State) (k : Stop)

/-- With the main regulators off no PLL runs; a stop for the root PLL leaves CLK_STS. -/
theorem keeps_pllsOff : Keeps [.regs] (fun a => [Reg.CLK_STS].contains a) s (if k = .pll then s else s.wr Reg.CLK_STS (s.rd Reg.CLK_STS &&& 0xFFFFFFFA)) :=
  .ite (.refl s) (.wr (.refl s))

theorem latchStop_same {f : Fld} (h : f ∉ [Fld.regs, .health, .emg]) : f.same s (s.latchStop k) := by
  have hr : f ∉ [Fld.regs] := notMem_part h (by decide)
  exact Fld.same_trans (Fld.same_trans (Fld.same_trans (Fld.same_trans (Fld.same_trans (setFlag_same _ _ _ _ hr)
    (updHealth_same _ _ (notMem_part h (by decide)))) (updEmg_same _ _ (notMem_part h (by decide)))) (setFlag_same _ _ _ _ hr))
    (setFld_same _ _ _ _ _ hr)) ((keeps_pllsOff _ k).same f hr)

theorem safe_latchStop : (s.latchStop k).flag Reg.HM_STS 31 = true := by
  refine ((keeps_pllsOff _ k).flag 31 (not_logReg_health (by decide)) (by decide)).trans ?_
  rw [flag_congr (rd_setFld_ne _ _ _ _ (by decide)), flag_congr (rd_setFlag_ne _ _ _ (by decide)), flag_congr (rd_updEmg _ _ _),
    flag_congr (rd_updHealth _ _ _)]
  exact flag_setFlag _ _ _ (by decide)

theorem ready_latchStop : (s.latchStop k).flag Reg.AO_EMG_STS 31 = false := by
  refine ((keeps_pllsOff _ k).flag 31 (not_logReg (by decide) (by decide) (by decide)) (by decide)).trans ?_
  rw [flag_setFld_ne _ _ _ (by decide) (by decide) (by decide) (by decide)]
  exact flag_setFlag _ _ _ (by decide)

theorem handling_latchStop : (s.latchStop k).health.handling = some k := by
  refine (congrArg Health.handling ((keeps_pllsOff _ k).same .health (by decide))).trans ?_
  rw [setFld_health, setFlag_health, show ∀ (u : State) g, (u.updEmg g).health = u.health from fun _ _ => rfl, health_updHealth]

end

/-- The first fault stops the module. -/
theorem stopModule_first {s : State} (k : Stop) (code d : Nat) (hh : s.health.handling = none) :
    s.stopModule k code d = (((s.log 3 code hmId d).commitLog (fun _ => true)).latchStop k).halted.healthUpd := by
  have hhealth : ((s.log 3 code hmId d).commitLog (fun _ => true)).health = s.health := health_log s 3 code hmId d
  unfold State.stopModule
  generalize (s.log 3 code hmId d).commitLog (fun _ => true) = c at hhealth
  dsimp only
  rw [if_neg (by rw [hhealth, hh]; decide)]
  rfl

theorem stopModule_stopped {s : State} (k : Stop) (code d : Nat) (hh : s.health.handling = none) : (s.stopModule k code d).Stopped k := by
  have hc : ∀ e ∈ ((s.log 3 code hmId d).commitLog (fun _ => true)).flogRing, e.committed = true := fun e => mem_commitAll
  rw [stopModule_first k code d hh]
  generalize (s.log 3 code hmId d).commitLog (fun _ => true) = c at hc
  have hregs := rd_halted (c.latchStop k)
  have hsafe : (c.latchStop k).halted.healthUpd.safe = true := by
    rw [State.safe, State.healthUpd, flag_setFlag_ne _ _ _ (by decide) (by decide) (by decide), flag_congr (hregs _)]
    exact safe_latchStop c k
  have hready : (c.latchStop k).halted.healthUpd.ready = false := by
    rw [State.ready, State.healthUpd, flag_congr (rd_setFlag_ne _ _ _ (by decide)), flag_congr (hregs _)]
    exact ready_latchStop c k
  have hring : (c.latchStop k).halted.healthUpd.flogRing = c.flogRing := by
    rw [State.healthUpd, setFlag_flogRing, flogRing_halted]
    exact latchStop_same (f := .flogRing) c k (by decide)
  have hhandling : (c.latchStop k).halted.healthUpd.health.handling = some k := by
    rw [State.healthUpd, setFlag_health, health_halted]
    exact handling_latchStop c k
  refine ⟨hsafe, hready, by rw [State.healthUpd, setFlag_items]; rfl, by rw [State.healthUpd, setFlag_clk]; rfl, hhandling, fun e he => hc e ?_⟩
  rwa [hring] at he

theorem State.Stopped.taken {s t : State} {k : Stop} {w : List Fld} (h : t.Stopped k) (hw : [Fld.regs, .items, .clk, .health, .flogRing] ⊆ w) :
    (s.taken t w).Stopped k where
  safe := (taken_safe _ _ (hw (by decide))).trans h.safe
  ready := (taken_flag _ _ (hw (by decide)) _ _).trans h.ready
  items := by rw [taken_items, if_pos (hw (by decide))]; exact h.items
  clk := by rw [taken_clk, if_pos (hw (by decide))]; exact h.clk
  handling := by rw [taken_health, if_pos (hw (by decide))]; exact h.handling
  committed := by rw [taken_flogRing, if_pos (hw (by decide))]; exact h.committed

theorem thermalStop_stopped {s : State} (trip : Bool) (site : Nat) (x : BitVec 16) (hh : s.health.handling = none) :
    (s.thermalStop trip site x).Stopped .thermal := by
  have hlatch : ∀ c : Prop, ∀ _ : Decidable c, (if c then (s.updHealth (fun h => { h with shutdowns := s.health.samples :: h.shutdowns })).setFlag Reg.HM_STS 28 true
      else s.updHealth (fun h => { h with shutdowns := s.health.samples :: h.shutdowns })).health.handling = none := by
    intro c _
    split
    · rw [setFlag_health]; exact hh
    · exact hh
  unfold State.thermalStop
  exact stopModule_stopped _ _ _ (hlatch _ _)

/-- A third rail fault latches the regulators off, which leaves the module stopped. -/
theorem railStop_stopped {s : State} (m : Nat) (mv : BitVec 16) (hh : s.health.handling = none) : (s.railStop m mv).Stopped .rail := by
  have h : ((s.updHealth (fun h => { h with rails := h.samples :: h.rails })).stopModule .rail 0x61 (m * 2 ^ 48 + mv.toNat)).Stopped .rail :=
    stopModule_stopped _ _ _ hh
  unfold State.railStop
  generalize (s.updHealth (fun h => { h with rails := h.samples :: h.rails })).stopModule .rail 0x61 (m * 2 ^ 48 + mv.toNat) = c at h
  show (if c.thirdRail = true ∧ c.health.handling = some .rail then
    ((c.updHealth (fun h => { h with latched := true })).setFlag Reg.AO_EMG_STS 30 true).setFld Reg.AO_EMG_STS 15 8 1 else c).Stopped .rail
  split
  · have hsafe : (((c.updHealth (fun h => { h with latched := true })).setFlag Reg.AO_EMG_STS 30 true).setFld Reg.AO_EMG_STS 15 8 1).safe = true := by
      rw [State.safe, flag_congr (rd_setFld_ne _ _ _ _ (by decide)), flag_congr (rd_setFlag_ne _ _ _ (by decide)), flag_congr (rd_updHealth _ _ _)]
      exact h.safe
    have hready : (((c.updHealth (fun h => { h with latched := true })).setFlag Reg.AO_EMG_STS 30 true).setFld Reg.AO_EMG_STS 15 8 1).ready = false := by
      rw [State.ready, flag_setFld_ne _ _ _ (by decide) (by decide) (by decide) (by decide), flag_setFlag_ne _ _ _ (by decide) (by decide) (by decide),
        flag_congr (rd_updHealth _ _ _)]
      exact h.ready
    exact ⟨hsafe, hready, by rw [setFld_items, setFlag_items]; exact h.items, by rw [setFld_clk, setFlag_clk]; exact h.clk, by rw [setFld_health, setFlag_health, health_updHealth]; exact h.handling,
      by rw [setFld_flogRing, setFlag_flogRing]; exact h.committed⟩
  · exact h

theorem pllStop_stopped {s : State} (hh : s.health.handling = none) : s.pllStop.Stopped .pll := by
  unfold State.pllStop
  exact stopModule_stopped _ _ _ ((congrArg Health.handling (wr_health _ _ _)).trans hh)

/-- What the statement says of a stopped module. -/
theorem State.Stopped.all {t : State} {k : Stop} (h : t.Stopped k) : t.safe = true ∧ t.ready = false ∧ t.items = [] ∧ t.clk.running = false ∧
    t.health.handling = some k ∧ ∀ e ∈ t.flogRing, e.committed = true := ⟨h.safe, h.ready, h.items, h.clk, h.handling, h.committed⟩

/-! ## The watchdogs (R422, R280) -/

theorem flag_health_alive (s : State) : s.alive.flag Reg.HM_STS 30 = (s.flag Reg.HM_CTL 2 || s.health.handling.isSome) := by
  refine (flag_setFlag _ _ _ (by decide)).trans ?_
  rw [health_updHealth, flag_congr (rd_updHealth _ _ _)]
  simp

theorem exec_wardenWatchdog (s : State) : ∃ t, exec .wardenWatchdog s = .next t ∧ t.warden = { ({} : Warden) with sram := s.warden.sram } ∧
    ∃ e, t.flogRing.getLast? = some e ∧ e.cls = 0 ∧ e.code = 0x41 := by
  obtain ⟨e, hlast, hcls, hcode, -⟩ := log_last { s with warden := { sram := s.warden.sram } } 0 0x41 (blkId 0x4000) s.warden.pc.toNat
  refine ⟨_, rfl, ?_, e, ?_, hcls, hcode⟩
  · rw [taken_warden, if_pos (by decide)]
    exact log_same (f := .warden) _ _ _ _ _ (by decide)
  · rw [taken_flogRing, if_pos (by decide)]
    exact hlast

theorem exec_wardenBridgeTimeout (w : Bool) (a : BitVec 48) (s : State) : ∃ t, exec (.wardenBridgeTimeout w a) s = .next t ∧
    (w = false → t.out.head? = some (.read reqWarden a.toNat 0)) ∧ t.mem = s.mem ∧ ∃ e, t.flogRing.getLast? = some e ∧ e.code = 0x40 := by
  obtain ⟨e, hlast, -, hcode, -⟩ := log_last s 0 0x40 (blkId 0x4000) (accessDetail reqWarden a.toNat)
  refine ⟨_, rfl, ?_, by rw [taken_mem, if_neg (by decide)], e, ?_, hcode⟩
  · rintro rfl
    rw [taken_out, if_pos (by decide)]
    rfl
  · rw [taken_flogRing, if_pos (by decide)]
    unfold State.wardenBridge
    cases w <;> exact hlast

/-- Settles O24: a sample through the throttle level that follows it, the stops by the one law of `stopModule`, and the watchdogs by the entry
that they log. -/
theorem monitorsAndWatchdogs : Obligations.MonitorsAndWatchdogs := by
  unfold Obligations.MonitorsAndWatchdogs
  refine ⟨fun temps volts s => exec_monitorSample_cool, fun counts s => exec_procSample_fine, fun m mv s => exec_railWarn_first,
    fun site x s hp hx hs hh => ⟨_, rfl, ?trip⟩, fun m mv s hp hf hh => ⟨_, rfl, ?rail⟩, fun s hr hh => ⟨_, rfl, ?pll⟩,
    fun s => ⟨_, rfl, ?_, ?_⟩, exec_wardenWatchdog, exec_wardenBridgeTimeout⟩
  case trip =>
    rw [show s.thermalTrip site x = s.thermalStop true site x from if_pos ⟨hp, hx, hs⟩]
    exact ((thermalStop_stopped _ _ _ hh).taken (by decide)).all
  case rail =>
    rw [show s.railFault m mv = s.railStop m mv from if_pos ⟨hp, hf⟩]
    exact ((railStop_stopped _ _ hh).taken (by decide)).all
  case pll =>
    rw [show s.pllLoss = s.pllStop from if_pos hr]
    exact ((pllStop_stopped hh).taken (by decide)).all
  · rw [taken_health, if_pos (by decide)]
    rfl
  · rw [taken_flag _ _ (by decide)]
    exact flag_health_alive s

end Sys2Proof.Machine
end

section
/-! SUPPORT. The fault-log window, the committed log, and the fencing of elements (R419, R423 to R425), clause by clause. -/
namespace Sys2Proof.Machine

/-! ## The window (R425) -/

theorem rd_flogBusy (s : State) {a : Nat} (h : a ≠ Reg.FLOG_STS) : s.flogBusy.rd a = s.rd a := rd_setFlag_ne _ _ _ h

theorem flag_flogBusy (s : State) : s.flogBusy.flag Reg.FLOG_STS 31 = (s.health.load.isSome || s.health.erasing) := flag_setFlag _ _ _ (by decide)

theorem exec_flogSelect (v : Word) (s : State) : ∃ t, exec (.flogSelect v) s = .next t ∧ t.health.load = some (v, s.flag Reg.FLOG_CTL 8) ∧
    t.flag Reg.FLOG_STS 31 = true ∧ t.rd Reg.FLOG_SEL = v := by
  refine ⟨_, rfl, ?_⟩
  rw [taken_health, if_pos (by decide), taken_flag _ _ (by decide), taken_rd _ _ (by decide), State.flogSelect, flag_flogBusy,
    rd_flogBusy _ (by decide), rd_updHealth, rd_wr_same, State.flogBusy, setFlag_health, health_updHealth]
  exact ⟨rfl, rfl, rfl⟩

/-- The window after the 32 bytes b have been written to it. -/
def State.shown (s : State) (b : Bytes) : State :=
  (List.range 8).foldl (fun (s : State) i => s.wr (Reg.FLOG_W i) (BitVec.ofNat 32 (leAt b (4 * i) 4))) s

theorem rd_shown (s : State) (b : Bytes) {i : Nat} (hi : i < 8) : (s.shown b).rd (Reg.FLOG_W i) = BitVec.ofNat 32 (leAt b (4 * i) 4) := by
  have key : ∀ n, (∀ i < n, ((List.range n).foldl (fun (s : State) i => s.wr (Reg.FLOG_W i) (BitVec.ofNat 32 (leAt b (4 * i) 4))) s).rd (Reg.FLOG_W i) =
      BitVec.ofNat 32 (leAt b (4 * i) 4)) := by
    intro n
    induction n with
    | zero => intro i h; omega
    | succ n ih =>
      intro i h
      rw [List.range_succ, List.foldl_append, List.foldl_cons, List.foldl_nil, rd_wr]
      by_cases he : i = n
      · rw [if_pos (by rw [he]), he]
      · rw [if_neg (by unfold Reg.FLOG_W; omega)]
        exact ih i (by omega)
  exact key 8 i hi

/-- The entry that a load finds: the latest with that FSEQ. -/
def State.flogFound (s : State) (n : Word) (view : Bool) : Option FEntry :=
  (if view then s.flogFlash else s.flogRing).reverse.find? (fun e => e.fseq == n)

theorem flogLoaded_eq {s : State} {n : Word} {view : Bool} (h : s.health.load = some (n, view)) :
    s.flogLoaded = (((s.shown (((s.flogFound n view).map FEntry.bytes).getD (zeros 32))).updHealth (fun h => { h with load := none })).setFlag
      Reg.FLOG_STS 30 (s.flogFound n view).isSome).flogBusy := by
  have hany : ∀ l : List FEntry, l.any (fun e => e.fseq == n) = (l.find? (fun e => e.fseq == n)).isSome := fun l => by
    rw [Bool.eq_iff_iff, List.find?_isSome, List.any_eq_true]
  unfold State.flogLoaded
  rw [h]
  dsimp only
  rw [hany]
  unfold State.flogFound
  cases (if view then s.flogFlash else s.flogRing).reverse.find? (fun e => e.fseq == n) <;> rfl

theorem exec_flogLoadDone {s : State} {n : Word} {view : Bool} (h : s.health.load = some (n, view)) :
    ∃ t, exec .flogLoadDone s = .next t ∧ t.health.load = none ∧ t.flag Reg.FLOG_STS 30 = (s.flogFound n view).isSome ∧
      ∀ i, i < 8 → t.rd (Reg.FLOG_W i) = BitVec.ofNat 32 (leAt (((s.flogFound n view).map FEntry.bytes).getD (zeros 32)) (4 * i) 4) := by
  refine ⟨_, rfl, ?_, ?_, fun i hi => ?_⟩
  · rw [taken_health, if_pos (by decide), flogLoaded_eq h, State.flogBusy, setFlag_health, setFlag_health, health_updHealth]
  · rw [taken_flag _ _ (by decide), flogLoaded_eq h, State.flogBusy, flag_setFlag_ne _ _ _ (by decide) (by decide) (by decide)]
    exact flag_setFlag _ _ _ (by decide)
  · rw [taken_rd _ _ (by decide), flogLoaded_eq h, rd_flogBusy _ (by unfold Reg.FLOG_W Reg.FLOG_STS; omega),
      rd_setFlag_ne _ _ _ (by unfold Reg.FLOG_W Reg.FLOG_STS; omega), rd_updHealth, rd_shown _ _ hi]

theorem flogLoadDone_shows {s : State} {n : Word} {view : Bool} (h : s.health.load = some (n, view)) :
    ∃ t, exec .flogLoadDone s = .next t ∧ t.health.load = none ∧
      (∀ e, (if view then s.flogFlash else s.flogRing).reverse.find? (fun e => e.fseq == n) = some e →
        t.flag Reg.FLOG_STS 30 = true ∧ ∀ i, i < 8 → t.rd (Reg.FLOG_W i) = BitVec.ofNat 32 (leAt e.bytes (4 * i) 4)) ∧
      ((if view then s.flogFlash else s.flogRing).reverse.find? (fun e => e.fseq == n) = none →
        t.flag Reg.FLOG_STS 30 = false ∧ ∀ i, i < 8 → t.rd (Reg.FLOG_W i) = 0) := by
  obtain ⟨t, ht, hload, hfound, hw⟩ := exec_flogLoadDone h
  have hzero : ∀ i, i < 8 → leAt (zeros 32) (4 * i) 4 = 0 := by decide
  refine ⟨t, ht, hload, fun e he => ?_, fun he => ?_⟩
  all_goals rw [show s.flogFound n view = _ from he] at hfound hw
  · exact ⟨hfound, hw⟩
  · exact ⟨hfound, fun i hi => by rw [hw i hi, Option.map_none, Option.getD_none, hzero i hi]; rfl⟩

/-! ## The committed log (R423) -/

theorem commitTo_last (l : List FEntry) (e : FEntry) : (commitTo l e).getLast? = some { e with committed := true } := by
  unfold commitTo; simp

theorem exec_flogCommit (n : Word) (s : State) : ∃ t, exec (.flogCommit n) s = .next t ∧
    t.flogRing = s.flogRing.map (fun e => if e.fseq == n && decide (2 ≤ e.cls) then { e with committed := true } else e) ∧
    ∀ e, s.flogRing.filter (fun e => e.fseq == n && decide (2 ≤ e.cls) && !e.committed) = [e] →
      t.flogFlash.getLast? = some { e with committed := true } := by
  refine ⟨_, rfl, by rw [taken_flogRing, if_pos (by decide)]; rfl, fun e he => ?_⟩
  rw [taken_flogFlash, if_pos (by decide)]
  unfold State.flogCommit State.commitLog
  dsimp only
  rw [he]
  exact commitTo_last _ _

theorem exec_flogErase (req : Req) {v : Word} (s : State) (hk : bits v 31 16 = 0xF1E5) :
    ∃ t, exec (.flogErase req v) s = .next t ∧ t.health.erasing = true ∧ t.flag Reg.FLOG_STS 31 = true := by
  have e : s.flogCmd req (v ||| 1) = (s.updHealth (fun h => { h with erasing := true })).flogBusy := by
    unfold State.flogCmd
    rw [keyed_right _ _ _ _ ((key_or v 1 (by decide)).trans hk), if_pos (by simp [bit])]
  refine ⟨_, rfl, ?_⟩
  rw [taken_health, if_pos (by decide), taken_flag _ _ (by decide), e, flag_flogBusy, State.flogBusy, setFlag_health, health_updHealth]
  exact ⟨rfl, Bool.or_true _⟩

theorem exec_flogEraseDone {s : State} (h : s.health.erasing = true) :
    ∃ t, exec .flogEraseDone s = .next t ∧ t.flogFlash = [] ∧ t.health.erasing = false := by
  refine ⟨_, rfl, ?_⟩
  rw [taken_flogFlash, if_pos (by decide), taken_health, if_pos (by decide), State.flogErased, if_pos h, State.flogBusy, setFlag_health,
    setFlag_flogFlash, health_updHealth]
  exact ⟨rfl, rfl⟩

/-! ## Elements (R419) -/

theorem elementPage_ge {kind i page : Nat} (h : elementPage kind i = some page) : 0x100000 ≤ page ∧ page < 0x300000 := by
  unfold elementPage tilePage corePage auPage at h
  split at h <;> first | (split at h <;> simp at h <;> omega) | simp at h

theorem not_logReg_element {kind i page : Nat} (h : elementPage kind i = some page) : ¬ logReg (page + 0xC) := by
  have hp := elementPage_ge h
  exact not_logReg (by omega) (by omega) (by simp only [Reg.HP_CNT_VEC_DROP]; omega)

theorem elementPage_kind {kind i page : Nat} (h : elementPage kind i = some page) : kind ≠ 3 := by
  rintro rfl
  cases h

theorem flag_fenceElement (s : State) {kind i page : Nat} (h : elementPage kind i = some page) : (s.fenceElement kind i).flag (page + 0xC) 30 = true := by
  unfold elementPage at h
  split at h
  · split at h <;> simp only [Option.some.injEq, reduceCtorEq] at h
    subst h
    show (s.fenceTile i).flag _ _ = true
    rw [State.fenceTile, flag_congr (rd_updTile _ _ _ _), flag_congr (rd_setTileState_ne _ _ (by unfold tilePage Reg.TILE_STS; omega))]
    exact flag_setFlag _ _ _ (by decide)
  · split at h <;> simp only [Option.some.injEq, reduceCtorEq] at h
    subst h
    exact flag_setFlag _ _ _ (by decide)
  · split at h <;> simp only [Option.some.injEq, reduceCtorEq] at h
    subst h
    exact flag_setFlag _ _ _ (by decide)
  · simp at h

theorem flag_unfenceElement (s : State) {kind i page : Nat} (h : elementPage kind i = some page) : (s.unfenceElement kind i).flag (page + 0xC) 30 = false := by
  unfold elementPage at h
  split at h
  case h_4 => simp at h
  all_goals
    split at h <;> simp only [Option.some.injEq, reduceCtorEq] at h
    subst h
    exact flag_setFlag _ _ _ (by decide)

/-- The result of a FENCE_CMD is shown in FENCE_STS and logged with class 2, and an element's page keeps its bits. -/
theorem fenceResult_effect (s : State) (kind i : Nat) {r : Nat} (hr : r < 4) : (s.fenceResult kind i r).fld Reg.FENCE_STS 1 0 = r ∧
    (∃ e, (s.fenceResult kind i r).flogRing.getLast? = some e ∧ e.cls = 2 ∧ e.code = 0xA0) ∧
    ∀ {k j page}, elementPage k j = some page → (s.fenceResult kind i r).flag (page + 0xC) 30 = s.flag (page + 0xC) 30 := by
  refine ⟨?_, ?_, fun {k j page} hp => ?_⟩
  · refine (fld_congr (rd_log _ _ _ _ _ (not_logReg_health (by decide))) 1 0).trans ?_
    rw [fld_setFld _ _ _ (by decide) (by decide)]
    exact Nat.mod_eq_of_lt hr
  · obtain ⟨e, hlast, hcls, hcode, -⟩ := log_last (s.setFld Reg.FENCE_STS 1 0 r) 2 0xA0 hmId (kind * 2 ^ 56 + i * 2 ^ 48 + r)
    exact ⟨e, hlast, hcls, hcode⟩
  · have := elementPage_ge hp
    exact flag_congr ((rd_log _ _ _ _ _ (not_logReg_element hp)).trans (rd_setFld_ne _ _ _ _ (by unfold Reg.FENCE_STS; omega))) 30

section
variable {req : Req} {v : Word} {page : Nat} {s : State}

/-- A keyed FENCE_CMD on an element that exists, while no self-test runs. -/
theorem fenceCmd_element (hk : bits v 31 16 = 0xFE4C) (hp : elementPage (bits v 9 8) (bits v 7 0) = some page) (ht : s.health.test = none) :
    s.fenceCmd req v =
      if bit v 15 then (if s.flag (page + 0xC) 30 then (s.setFlag Reg.FENCE_STS 31 true).updHealth (fun h => { h with test := some (bits v 9 8, bits v 7 0) })
        else s.fenceResult (bits v 9 8) (bits v 7 0) 2)
      else if s.flag (page + 0xC) 30 then s.fenceResult (bits v 9 8) (bits v 7 0) 0
      else ((s.fenceElement (bits v 9 8) (bits v 7 0)).raise hmPage 6).fenceResult (bits v 9 8) (bits v 7 0) 0 := by
  unfold State.fenceCmd
  dsimp only
  rw [if_neg (elementPage_kind hp), keyed_right _ _ _ _ hk]
  simp only [hp]
  rw [if_neg (by rw [ht]; decide)]

variable (hk : bits v 31 16 = 0xFE4C) (hp : elementPage (bits v 9 8) (bits v 7 0) = some page) (ht : s.health.test = none)
include hk hp ht

theorem exec_fenceElement (hf : s.flag (page + 0xC) 30 = false) : ∃ t, exec (.fenceElement req v) s = .next t ∧ t.flag (page + 0xC) 30 = true ∧
    t.fld Reg.FENCE_STS 1 0 = 0 ∧ ∃ e, t.flogRing.getLast? = some e ∧ e.cls = 2 ∧ e.code = 0xA0 := by
  have hkind : bits (v &&& 0xFFFF7FFF) 9 8 = bits v 9 8 := bits_and_ones _ _ (by decide)
  have hindex : bits (v &&& 0xFFFF7FFF) 7 0 = bits v 7 0 := bits_and_ones _ _ (by decide)
  have e : s.fenceCmd req (v &&& 0xFFFF7FFF) =
      ((s.fenceElement (bits v 9 8) (bits v 7 0)).raise hmPage 6).fenceResult (bits v 9 8) (bits v 7 0) 0 := by
    rw [fenceCmd_element ((bits_and_ones _ _ (by decide)).trans hk) (by rwa [hkind, hindex]) ht, if_neg (by simp [bit]), if_neg (by simp [hf]),
      hkind, hindex]
  obtain ⟨hres, hlog, hpage⟩ := fenceResult_effect ((s.fenceElement (bits v 9 8) (bits v 7 0)).raise hmPage 6) (bits v 9 8) (bits v 7 0) (r := 0) (by decide)
  have hge := elementPage_ge hp
  have hraised : page + 0xC ≠ hmPage + 0x10 := by unfold hmPage; omega
  refine ⟨_, rfl, ?_, ?_, ?_⟩
  · rw [taken_flag _ _ (by decide), e, hpage hp]
    exact (flag_congr (rd_raise _ _ _ (fun m => not_logReg_element hp (.inl m)) hraised) 30).trans (flag_fenceElement s hp)
  · rw [taken_fld _ _ (by decide), e, hres]
  · rw [taken_flogRing, if_pos (by decide), e]
    exact hlog

theorem exec_unfenceElement (hf : s.flag (page + 0xC) 30 = true) : ∃ t, exec (.unfenceElement req v) s = .next t ∧ t.flag Reg.FENCE_STS 31 = true ∧
    t.health.test = some (bits v 9 8, bits v 7 0) ∧ t.flag (page + 0xC) 30 = true := by
  have hkind : bits (v ||| 0x8000) 9 8 = bits v 9 8 := bits_or_zero _ _ (by decide)
  have hindex : bits (v ||| 0x8000) 7 0 = bits v 7 0 := bits_or_zero _ _ (by decide)
  have e : s.fenceCmd req (v ||| 0x8000) = (s.setFlag Reg.FENCE_STS 31 true).updHealth (fun h => { h with test := some (bits v 9 8, bits v 7 0) }) := by
    rw [fenceCmd_element ((key_or _ _ (by decide)).trans hk) (by rwa [hkind, hindex]) ht, if_pos (by simp [bit]), if_pos hf, hkind, hindex]
  have hge := elementPage_ge hp
  have hpage : page + 0xC ≠ Reg.FENCE_STS := by unfold Reg.FENCE_STS; omega
  refine ⟨_, rfl, ?_, ?_, ?_⟩
  · rw [taken_flag _ _ (by decide), e, flag_congr (rd_updHealth _ _ _)]
    exact flag_setFlag _ _ _ (by decide)
  · rw [taken_health, if_pos (by decide), e, health_updHealth]
  · rw [taken_flag _ _ (by decide), e, flag_congr (rd_updHealth _ _ _), flag_congr (rd_setFlag_ne _ _ _ hpage)]
    exact hf

end

/-! ## The end of a self-test (R419) -/

theorem updTile_health (s : State) (t : Nat) (g : Tile → Tile) : (s.updTile t g).health = s.health := rfl

theorem health_unfenceElement (s : State) (kind i : Nat) : (s.unfenceElement kind i).health = s.health := by
  unfold State.unfenceElement
  split
  · exact (setFlag_health _ _ _ _).trans (setFld_health (s.setTile i {}) (Reg.TILE_STS i) 31 30 0)
  · exact setFlag_health _ _ _ _
  · exact (setFlag_health _ _ _ _).trans (setFlag_health _ _ _ _)

section
variable {kind i page : Nat} {s : State} (ht : s.health.test = some (kind, i)) (hp : elementPage kind i = some page)
include ht

theorem selfTest_eq (pass : Bool) : s.selfTest pass =
    if pass then (((s.setFlag Reg.FENCE_STS 31 false).updHealth (fun h => { h with test := none })).unfenceElement kind i).fenceResult kind i 0
    else ((s.setFlag Reg.FENCE_STS 31 false).updHealth (fun h => { h with test := none })).fenceResult kind i 1 := by
  unfold State.selfTest
  rw [ht]

include hp

theorem exec_selfTest_passed : ∃ t, exec (.selfTestDone true) s = .next t ∧ t.flag (page + 0xC) 30 = false ∧ t.fld Reg.FENCE_STS 1 0 = 0 ∧
    t.health.test = none := by
  obtain ⟨hres, -, hpage⟩ := fenceResult_effect
    (((s.setFlag Reg.FENCE_STS 31 false).updHealth (fun h => { h with test := none })).unfenceElement kind i) kind i (r := 0) (by decide)
  refine ⟨_, rfl, ?_⟩
  rw [taken_flag _ _ (by decide), taken_fld _ _ (by decide), taken_health, if_pos (by decide), selfTest_eq ht true, if_pos rfl, hpage hp, hres,
    State.fenceResult, health_log, setFld_health, health_unfenceElement, health_updHealth]
  exact ⟨flag_unfenceElement _ hp, rfl, rfl⟩

theorem exec_selfTest_failed : ∃ t, exec (.selfTestDone false) s = .next t ∧ t.flag (page + 0xC) 30 = s.flag (page + 0xC) 30 ∧
    t.fld Reg.FENCE_STS 1 0 = 1 ∧ t.health.test = none := by
  obtain ⟨hres, -, hpage⟩ := fenceResult_effect ((s.setFlag Reg.FENCE_STS 31 false).updHealth (fun h => { h with test := none })) kind i (r := 1) (by decide)
  have hge := elementPage_ge hp
  refine ⟨_, rfl, ?_⟩
  rw [taken_flag _ _ (by decide), taken_fld _ _ (by decide), taken_health, if_pos (by decide), selfTest_eq ht false, if_neg (by decide), hpage hp, hres,
    State.fenceResult, health_log, setFld_health, health_updHealth, flag_congr (rd_updHealth _ _ _),
    flag_congr (rd_setFlag_ne _ _ _ (by unfold Reg.FENCE_STS; omega))]
  exact ⟨rfl, rfl, rfl⟩

end

/-- Settles O25: the window by the entry found, the log by the entries that a commit maps, and the elements by what their page's bit 30 and
FENCE_STS are given last. -/
theorem faultLogAndFences : Obligations.FaultLogAndFences := by
  unfold Obligations.FaultLogAndFences
  exact ⟨exec_flogSelect, fun n view s => flogLoadDone_shows, exec_flogCommit, fun req v s => exec_flogErase req s, fun s => exec_flogEraseDone,
    fun req v page s hk hp ht => ⟨exec_fenceElement hk hp ht, exec_unfenceElement hk hp ht⟩,
    fun kind i page s ht hp => ⟨exec_selfTest_passed ht hp, exec_selfTest_failed ht hp⟩⟩

end Sys2Proof.Machine
end

section
/-! SUPPORT. What the reset of a VI leaves alone (R362 to R364), read off operation by operation. -/
namespace Sys2Proof.Machine

/-- Every register may change. -/
def anyReg : Nat → Bool := fun _ => true

namespace Keeps

variable {F G : List Fld} {s t u : State}

/-- The rule for an operation known by the fields that it leaves alone. -/
theorem via (h : Keeps F anyReg s t) (k : ∀ {f : Fld}, f ∉ G → f.same t u) (hG : G ⊆ F := by decide) : Keeps F anyReg s u :=
  h.trans ⟨fun _ hf => k (notMem_part hf hG), fun _ _ e => nomatch e⟩

/-- The rule for an operation that changes no register. -/
theorem viaNoReg {R : Nat → Bool} (h : Keeps F R s t) (k : ∀ {f : Fld}, f ∉ G → f.same t u) (hG : G ⊆ F := by decide)
    (hr : Fld.regs ∉ G := by decide) : Keeps F R s u :=
  h.trans ⟨fun _ hf => k (notMem_part hf hG), fun a _ _ => rd_congr (k (f := .regs) hr) a⟩

end Keeps

theorem setPart_same {f : Fld} (s : State) (p : Nat) (x : Part) (h : f ∉ [Fld.parts]) : f.same s (s.setPart p x) := by
  cases f <;> first | rfl | simp at h

theorem setVi_same {f : Fld} (s : State) (p v : Nat) (x : Vi) (h : f ∉ [Fld.vis]) : f.same s (s.setVi p v x) := by
  cases f <;> first | rfl | simp at h

/-! ## Tiles that stop (R173, R355) -/

/-- The fields that a tile's stop may change: a phase of its partition may end with it. -/
def stopFlds : List Fld := [.regs, .holding, .msix, .hevt, .out, .tiles, .parts]

/-- The end of YIELD changes no register but the partition's status. -/
theorem yieldCheck_keeps (s : State) (p : Nat) : Keeps stopFlds (fun a => a == partPage p + 0x10) s (s.yieldCheck p) := by
  unfold State.yieldCheck
  have ht (l : List Nat) : Keeps stopFlds (fun a => a == partPage p + 0x10) s
      (l.foldl (fun s t => s.updTile t (fun x => { x with yieldReq := false })) s) :=
    .foldl _ (fun t k => (Keeps.refl t).viaNoReg (updTile_same t k _)) l s
  exact .ite (.ite (.raise ((ht _).viaNoReg (setPart_same _ _ _)) (hR := beq_self_eq_true _)) ((ht _).viaNoReg (setPart_same _ _ _))) (.refl s)

theorem startYield_keeps (s : State) (p : Nat) : Keeps stopFlds (fun a => a == partPage p + 0x10) s (s.startYield p) := by
  unfold State.startYield
  have ht (l : List Nat) : Keeps stopFlds (fun a => a == partPage p + 0x10) s
      (l.foldl (fun s t => if s.tileRuns t then s.updTile t (fun x => { x with yieldReq := true }) else s) s) :=
    .foldl _ (fun t k => .ite ((Keeps.refl t).viaNoReg (updTile_same t k _)) (.refl t)) l s
  exact ((ht _).viaNoReg (setPart_same _ _ _)).trans (yieldCheck_keeps _ p)

theorem drainCheck_keeps (s : State) (p : Nat) : Keeps stopFlds (fun a => a == partPage p + 0x10) s (s.drainCheck p) :=
  .ite (startYield_keeps s p) (.refl s)

theorem tileStopped_keeps (s : State) (t : Nat) : Keeps stopFlds anyReg s (s.tileStopped t) := by
  unfold State.tileStopped
  split
  · exact (yieldCheck_keeps s _).mono (fun _ h => h) (fun _ _ => rfl)
  · exact .refl s

theorem tileSettle_keeps (s : State) (t : Nat) : Keeps stopFlds anyReg s (s.tileSettle t) := by
  unfold State.tileSettle
  dsimp only
  split
  · have h1 (x : Tile → Tile) : Keeps stopFlds anyReg s (s.updTile t x) := (Keeps.refl s).via (updTile_same s t x)
    have h2 (x : Tile → Tile) : Keeps stopFlds anyReg s (if (s.updTile t x).tileState t = 1 then (s.updTile t x).setTileState t 0 else s.updTile t x) :=
      .ite (.setFld (h1 x) (hR := rfl)) (h1 x)
    exact .trans (.ite (.raise (h2 _) (hR := rfl)) (h2 _)) (tileStopped_keeps _ t)
  · exact .refl s

theorem tileStop_keeps (s : State) (t : Nat) : Keeps stopFlds anyReg s (s.tileStop t) := by
  unfold State.tileStop
  exact .ite (.wr (.setFld (.refl s) (hR := rfl)) (hR := rfl)) (.ite (((Keeps.refl s).via (updTile_same s t _)).trans (tileSettle_keeps _ t)) (.refl s))

/-! ## Harts that park (R274, R275) -/

theorem startHart_keeps (s : State) (h v : Nat) (r : BitVec 512) : Keeps [.regs, .harts] anyReg s (s.startHart h v r) :=
  .bump ((Keeps.refl s).via (setHart_same s h _))

theorem updPart_same {f : Fld} (s : State) (p : Nat) (g : Part → Part) (h : f ∉ [Fld.parts]) : f.same s (s.updPart p g) := setPart_same s p _ h

theorem updVi_same {f : Fld} (s : State) (p v : Nat) (g : Vi → Vi) (h : f ∉ [Fld.vis]) : f.same s (s.updVi p v g) := setVi_same s p v _ h

theorem serveLaunch_keeps (s : State) (c : Nat) : Keeps [.regs, .harts, .cores, .parts] anyReg s (s.serveLaunch c) := by
  unfold State.serveLaunch
  split
  · exact .refl s
  · split
    · exact ((Keeps.refl s).via (updCore_same s c _)).trans ((startHart_keeps _ _ _ _).mono (by decide) (fun _ _ => rfl))
    · split
      · exact .refl s
      · split
        · exact .refl s
        · exact ((Keeps.refl s).via (updPart_same s _ _)).trans ((startHart_keeps _ _ _ _).mono (by decide) (fun _ _ => rfl))

theorem parkOnly_keeps (s : State) (h : Nat) : Keeps [.regs, .harts, .cores, .parts] anyReg s (s.parkOnly h) :=
  ((Keeps.refl s).via (setHart_same s h _)).via (updCore_same _ _ _)

theorem park_keeps (s : State) (h : Nat) : Keeps [.regs, .harts, .cores, .parts] anyReg s (s.park h) :=
  (parkOnly_keeps s h).trans (serveLaunch_keeps _ _)

/-! ## Units and sequences that end (R200, R227) -/

/-- The fields that the end of a sequence may change. -/
def seqFlds : List Fld := sealFlds ++ [.seqs, .aunits]

theorem seqEnd_keeps (s : State) (id cause : Nat) : Keeps seqFlds anyReg s (s.seqEnd id cause) := by
  unfold State.seqEnd
  split
  · exact .refl s
  · have h1 : Keeps seqFlds anyReg s { s with seqs := s.seqs.erase id } :=
      .of_field (f := .seqs) (fun g hg => by cases g <;> first | rfl | simp at hg) (by decide) (by decide)
    exact (h1.via (updAunit_same _ _ _)).via (seqClosed_same _ _ _ _ _ _ _)

theorem auOff_keeps (s : State) (u : Nat) : Keeps seqFlds anyReg s (s.auOff u) :=
  .setFlag (.trans (.foldl _ (fun t id => seqEnd_keeps t id 4) _ s) ((Keeps.refl _).via (updAunit_same _ u _))) (hR := rfl)

/-! ## The reset of a VI -/

/-- The fields that the reset of a VI may change. -/
def viFlds : List Fld :=
  [.free, .mem, .regs, .held, .holding, .hevt, .msix, .qs, .items, .egress, .parts, .vis, .ue, .out, .ports, .tiles, .gctxs, .seqs, .aunits,
   .sc, .harts, .cores, .vsaved]

theorem viDiscard_keeps (s : State) (p v : Nat) : Keeps viFlds anyReg s (s.viDiscard p v) := by
  unfold State.viDiscard
  dsimp only
  have h1 (x : Tab Queue) : Keeps viFlds anyReg s { s with qs := x } :=
    .of_field (f := .qs) (fun g hg => by cases g <;> first | rfl | simp at hg) (by decide) (by decide)
  have h2 (x : Tab Queue) (g : Vi → Vi) (k : Part → Part) := ((h1 x).via (updVi_same _ p v g)).via (updPart_same _ p k)
  exact .ite ((h2 _ _ _).trans (.foldl _ (fun t c => (Keeps.refl t).via (updCore_same t c _)) _ _)) (h2 _ _ _)

theorem viHalt_keeps (s : State) (p : Nat) : Keeps viFlds anyReg s (s.viHalt p) := by
  unfold State.viHalt
  have hu (t : State) (u : Nat) : Keeps viFlds anyReg t
      (if ((t.updAunit u (fun x => { x with step := none })).aunit u).disabling then (t.updAunit u (fun x => { x with step := none })).auOff u
       else t.updAunit u (fun x => { x with step := none })) :=
    have h := (Keeps.refl t).via (updAunit_same t u (fun x => { x with step := none }))
    .ite (h.trans ((auOff_keeps _ u).mono (by decide) (fun _ _ => rfl))) h
  exact .trans (.foldl _ hu _ s) (.foldl _ (fun t k => (tileStop_keeps t k).mono (by decide) (fun _ _ => rfl)) _ _)

theorem unassign_keeps (s : State) (p v : Nat) : Keeps viFlds anyReg s (s.unassign p v) := by
  have hc (t : State) (a : Nat) : Keeps viFlds anyReg t (t.commitRegs [a]) :=
    .of_field (f := .held) (fun g hg => by cases g <;> first | rfl | simp at hg) (by decide) (by decide)
  exact .foldl _ (fun t a => .trans (.wr (.refl t) (hR := rfl)) (hc _ a)) _ s

theorem viEndWork_keeps (s : State) (p v : Nat) : Keeps viFlds anyReg s (s.viEndWork p v) := by
  have h1 (l : List Nat) (t : State) := Keeps.foldl (F := viFlds) (R := anyReg) (fun s id => s.seqEnd id 4)
    (fun t id => (seqEnd_keeps t id 4).mono (by decide) (fun _ _ => rfl)) l t
  have h2 (l : List Nat) (t : State) := Keeps.foldl (F := viFlds) (R := anyReg) (fun s id => s.closeCtx id 2 0 false)
    (fun t id => (Keeps.refl t).via (closeCtx_same t id 2 0 false)) l t
  have h3 (l : List Nat) (t : State) := Keeps.foldl (F := viFlds) (R := anyReg) (fun s id => s.sealItem id .sourceAbort)
    (fun t id => (Keeps.refl t).via (sealItem_same t id .sourceAbort)) l t
  exact (((h1 _ s).trans (h2 _ _)).trans (h3 _ _)).trans (unassign_keeps _ p v)

theorem sliceCommit_keeps (s : State) (p : Nat) : Keeps [.held] anyReg s (s.sliceCommit p) :=
  .of_field (f := .held) (fun g hg => by cases g <;> first | rfl | simp at hg) (by decide) (by decide)

theorem noneRuns_keeps (s : State) (p : Nat) : Keeps [.held, .parts] anyReg s (s.noneRuns p) :=
  ((sliceCommit_keeps s p).mono (by decide) (fun _ _ => rfl)).via (updPart_same _ p _)

theorem viLeave_keeps (s : State) (p v : Nat) (mine : Bool) : Keeps viFlds anyReg s (s.viLeave p v mine) := by
  have hp (x : Part) : Keeps viFlds anyReg s (s.setPart p x) := (Keeps.refl s).via (setPart_same s p x)
  exact .ite (.ite (hp _) ((noneRuns_keeps s p).mono (by decide) (fun _ _ => rfl))) (.ite (hp _) (.refl s))

theorem viResetWork_keeps (s : State) (p v : Nat) : Keeps viFlds anyReg s (s.viResetWork p v) := by
  unfold State.viResetWork
  have h1 := (viDiscard_keeps s p v).trans (.foldl _ (fun t h => (park_keeps t h).mono (by decide) (fun _ _ => rfl)) ((s.viDiscard p v).instHarts p v) _)
  have h2 (t : State) (h : Keeps viFlds anyReg s t) (b : Bool) : Keeps viFlds anyReg s (if b then t.viHalt p else t) :=
    .ite (h.trans (viHalt_keeps t p)) h
  have h3 (t : State) (x : Tab Saved) : Keeps viFlds anyReg t { t with vsaved := x } :=
    .of_field (f := .vsaved) (fun g hg => by cases g <;> first | rfl | simp at hg) (by decide) (by decide)
  exact (((((h2 _ h1 _).via (updVi_same _ p v _)).trans (h3 _ _)).trans (viEndWork_keeps _ p v))).trans (viLeave_keeps _ p v _)

theorem viReset_keeps (s : State) (p v : Nat) : Keeps viFlds anyReg s (s.viReset p v) :=
  .ite (.refl s) (((Keeps.refl s).via (setVi_same s p v _)).trans (viResetWork_keeps _ p v))

end Sys2Proof.Machine
end

section
/-! SUPPORT. The queue engine's shared operations read as chains, and queue tables by their entries. -/
namespace Sys2Proof.Machine

/-! ## Tables -/

theorem Tab.mem_of_get_ne {α : Type} {d : α} {t : Tab α} {k : Nat} (h : t.get d k ≠ d) : (k, t.get d k) ∈ t := by
  induction t with
  | nil => exact absurd rfl h
  | cons e t ih =>
    obtain ⟨j, x⟩ := e
    unfold Tab.get at h ⊢
    split at h
    · next hj => rw [if_pos hj, show k = j from hj]; exact List.mem_cons_self
    · next hj => rw [if_neg hj]; exact List.mem_cons_of_mem _ (ih h)

/-- In a rising table an entry is what its key looks up. -/
theorem Tab.get_of_mem {α : Type} (d : α) {t : Tab α} (h : t.rising = true) {e : Nat × α} (he : e ∈ t) : t.get d e.1 = e.2 := by
  induction t with
  | nil => exact nomatch he
  | cons c t ih =>
    obtain ⟨j, x⟩ := c
    obtain ⟨habove, hrise⟩ := Tab.rising_cons.mp h
    unfold Tab.get
    rcases List.mem_cons.mp he with rfl | hm
    · rw [if_pos rfl]
    · rw [if_neg (by have := habove e hm; omega)]; exact ih hrise hm

theorem Tab.rising_set {α : Type} [DecidableEq α] {d : α} {t : Tab α} {k : Nat} {v : α} (h : t.rising = true) : (t.set d k v).rising = true := by
  unfold Tab.set; split
  · exact Tab.rising_erase h
  · exact Tab.rising_insert h

@[simp] theorem Tab.get_upd_same {α : Type} [DecidableEq α] (d : α) (t : Tab α) (k : Nat) (f : α → α) : (t.upd d k f).get d k = f (t.get d k) :=
  Tab.get_set_same d t k _

theorem Tab.get_upd_ne {α : Type} [DecidableEq α] (d : α) (t : Tab α) {k k' : Nat} (f : α → α) (h : k' ≠ k) : (t.upd d k f).get d k' = t.get d k' :=
  Tab.get_set_ne d t _ h

/-! ## Queue operations as chains -/

namespace Keeps

variable {F : List Fld} {R : Nat → Bool} {s t : State}

theorem stUnit {a : Nat} {b : Bytes} (h : Keeps F R s t) (hF : stFlds ⊆ F := by decide) (hR : R Reg.COM_CNT_BAD_UNIT = true := by decide) :
    Keeps F R s (t.stUnit a b) :=
  h.trans ⟨fun _ hf => stUnit_same t a b (notMem_part hf hF), fun _ _ hr => rd_stUnit t a b (fun e => by rw [e, hR] at hr; exact nomatch hr)⟩

theorem writeBack {q : Queue} (h : Keeps F R s t) (hF : stFlds ⊆ F := by decide) (hR : R Reg.COM_CNT_BAD_UNIT = true := by decide) :
    Keeps F R s (t.writeBack q) := .ite (h.stUnit hF hR) h

theorem signal {c : Nat} (h : Keeps F R s t) (hF : evtFlds ⊆ F := by decide) : Keeps F R s (t.signal c) :=
  h.trans ⟨fun _ hf => signal_same t c (notMem_part hf hF), fun _ hl _ => rd_signal t c (fun m => hl (.inl m))⟩

theorem msixSend {f v : Nat} (h : Keeps F R s t) (hF : evtFlds ⊆ F := by decide) : Keeps F R s (t.msixSend f v) :=
  h.trans ⟨fun _ hf => msixSend_same t f v (notMem_part hf (List.Subset.trans (by decide) hF)), fun _ hl _ => rd_msixSend t f v (fun m => hl (.inl m))⟩

theorem qMessage {q : Queue} (h : Keeps F R s t) (hF : evtFlds ⊆ F := by decide) : Keeps F R s (t.qMessage q) :=
  .ite h (.ite (h.signal hF) (h.msixSend hF))

theorem setQueue {g : Nat} {q : Queue} (h : Keeps F R s t) (hF : [Fld.qs] ⊆ F := by decide) : Keeps F R s (t.setQueue g q) :=
  h.viaNoReg (setQueue_same t g q) hF

theorem setRqueue {g : Nat} {q : Queue} (h : Keeps F R s t) (hF : [Fld.rqs] ⊆ F := by decide) : Keeps F R s (t.setRqueue g q) :=
  h.viaNoReg (setRqueue_same t g q) hF

end Keeps

/-- The one register of its own that a write to memory may change: the count of writes to a commons unit that is no memory. -/
def badUnitReg (a : Nat) : Bool := a == Reg.COM_CNT_BAD_UNIT

theorem pushRecord_keeps (s : State) (g cls n : Nat) (b : Bytes) : Keeps pushFlds badUnitReg s (s.pushRecord g cls n b).1 := by
  unfold State.pushRecord
  have hring (t : State) (q : Queue) (p : Nat) (x : Bytes) : Keeps pushFlds badUnitReg t (t.ringStore q p x) := .ite (.stUnit (.refl t)) (.refl t)
  dsimp only
  refine .ite_fst (.refl s) ?_
  have hfirst (q : Queue) (p n : Nat) (x : Bytes) : Keeps pushFlds badUnitReg s (if n = 0 then s else s.ringStore q p x) := .ite (.refl s) (hring s q p x)
  have hput (q r : Queue) (p p' n : Nat) (x y : Bytes) := Keeps.writeBack (q := r) (.setRqueue (g := g) (q := r) ((hfirst q p n x).trans (hring _ q p' y)))
  exact .ite (.qMessage (hput ..)) (hput ..)

/-- What a record queue with room holds after a record is put into it. -/
theorem pushRecord_tail (s : State) (g cls n : Nat) (b : Bytes) (hq : (s.rqueue g).state = .run) (hu : recUnits b.length ≤ 2 ^ (s.rqueue g).logN)
    (hroom : between (s.rqueue g).head (s.rqueue g).tail + recUnits b.length +
      (if 2 ^ (s.rqueue g).logN < (s.rqueue g).tail % 2 ^ (s.rqueue g).logN + recUnits b.length then
        2 ^ (s.rqueue g).logN - (s.rqueue g).tail % 2 ^ (s.rqueue g).logN else 0) ≤ 2 ^ (s.rqueue g).logN) :
    (s.pushRecord g cls n b).2 = true ∧ ((s.pushRecord g cls n b).1.rqueue g).tail =
      ((s.rqueue g).tail + (if 2 ^ (s.rqueue g).logN < (s.rqueue g).tail % 2 ^ (s.rqueue g).logN + recUnits b.length then
        2 ^ (s.rqueue g).logN - (s.rqueue g).tail % 2 ^ (s.rqueue g).logN else 0) + recUnits b.length) % 65536 := by
  have hback (t : State) (x : Queue) : ((t.setRqueue g x).writeBack x).rqueue g = x := by
    unfold State.rqueue
    rw [writeBack_same (f := .rqs) (t.setRqueue g x) x (by decide)]
    exact Tab.get_set_same _ _ _ _
  have hmsg (t : State) (x : Queue) : (t.qMessage x).rqueue g = t.rqueue g := by
    unfold State.rqueue
    rw [qMessage_same (f := .rqs) t x (by decide)]
  unfold State.pushRecord
  dsimp only
  rw [if_neg (by simp only [hq, ne_eq, not_true, false_or]; omega)]
  refine ⟨rfl, ?_⟩
  dsimp only
  split <;> simp only [hmsg, hback]

/-- A record queue without room takes nothing. -/
theorem pushRecord_full (s : State) (g cls n : Nat) (b : Bytes)
    (hroom : 2 ^ (s.rqueue g).logN < between (s.rqueue g).head (s.rqueue g).tail + recUnits b.length +
      (if 2 ^ (s.rqueue g).logN < (s.rqueue g).tail % 2 ^ (s.rqueue g).logN + recUnits b.length then
        2 ^ (s.rqueue g).logN - (s.rqueue g).tail % 2 ^ (s.rqueue g).logN else 0)) :
    s.pushRecord g cls n b = (s, false) := by
  unfold State.pushRecord
  dsimp only
  rw [if_pos (Or.inr (Or.inl hroom))]

/-! ## Queues that stop (R395, R409) -/

theorem queue_queueOff (s : State) (g : Nat) : (s.queueOff g).queue g = {} := Tab.get_set_same (α := Queue) {} s.qs g {}

theorem queue_queueOff_ne (s : State) {g k : Nat} (h : k ≠ g) : (s.queueOff g).queue k = s.queue k := Tab.get_set_ne (α := Queue) (d := {}) {} s.qs {} h

theorem stopQueue_stops (s : State) (g : Nat) : ((s.stopQueue g).queue g).state = .off ∨ ((s.stopQueue g).queue g).state = .stopped := by
  unfold State.stopQueue
  dsimp only
  split
  · next h => exact .inl h
  · split
    · exact .inl (congrArg Queue.state (queue_queueOff s g))
    · exact .inr (congrArg Queue.state (queue_setQueue s g _))

theorem stopQueue_queue_ne (s : State) {g k : Nat} (h : k ≠ g) : (s.stopQueue g).queue k = s.queue k := by
  unfold State.stopQueue
  dsimp only
  split
  · rfl
  · split
    · exact queue_queueOff_ne s h
    · exact queue_setQueue_ne s _ h

/-- After a list of queues is stopped, each of them is OFF or STOPPED and any other is as it was. -/
theorem stopQueues_queue (l : List Nat) (s : State) (k : Nat) :
    (((l.foldl (fun (s : State) g => s.stopQueue g) s).queue k).state = .off ∨ ((l.foldl (fun (s : State) g => s.stopQueue g) s).queue k).state = .stopped) ∨
    (k ∉ l ∧ (l.foldl (fun (s : State) g => s.stopQueue g) s).queue k = s.queue k) := by
  induction l generalizing s with
  | nil => exact .inr ⟨by simp, rfl⟩
  | cons g l ih =>
    rw [List.foldl_cons]
    rcases ih (s.stopQueue g) with h | ⟨h, he⟩
    · exact .inl h
    · rw [he]
      by_cases hk : k = g
      · subst hk; exact .inl (stopQueue_stops s k)
      · exact .inr ⟨by simp [hk, h], stopQueue_queue_ne s hk⟩

end Sys2Proof.Machine
end

section
/-! SUPPORT. Functions, their messages, and the Ethernet ports (R392 to R394, R406 to R410). -/
namespace Sys2Proof.Machine

/-! ## Function resets (R409) -/

theorem destroyFnQueues_queue (s : State) {f : Nat} (hf : f ≠ 0) (g : Nat) (h : ((s.destroyFnQueues f).queue g).owner = f) :
    ((s.destroyFnQueues f).queue g).state = .off ∨ ((s.destroyFnQueues f).queue g).state = .stopped := by
  rcases stopQueues_queue ((s.qs.filter (fun (e : Nat × Queue) => e.2.owner == f && e.2.state != .off)).map Prod.fst) s g with h1 | ⟨h1, h2⟩
  · exact h1
  · have hq : (s.destroyFnQueues f).queue g = s.queue g := h2
    rw [hq] at h ⊢
    by_contra hs
    refine h1 (List.mem_map.mpr ⟨(g, s.queue g), List.mem_filter.mpr ⟨Tab.mem_of_get_ne ?_, ?_⟩, rfl⟩)
    · intro e
      exact hf (h ▸ congrArg Queue.owner e)
    · have : (s.queue g).state ≠ .off := fun e => hs (.inl e)
      simp [h, this]

theorem viReset_fns (s : State) (p v : Nat) : (s.viReset p v).fns = s.fns := (viReset_keeps s p v).same .fns (by decide)

theorem stopQueue_fns (s : State) (g : Nat) : (s.stopQueue g).fns = s.fns := by
  unfold State.stopQueue
  dsimp only
  split
  · rfl
  · split
    · exact queueOff_same (f := .fns) s g (by decide)
    · exact setQueue_same (f := .fns) s g _ (by decide)

theorem destroyFnQueues_fns (s : State) (f : Nat) : (s.destroyFnQueues f).fns = s.fns :=
  foldl_same (f := .fns) (fun (s : State) g => s.stopQueue g) stopQueue_fns
    ((s.qs.filter (fun (e : Nat × Queue) => e.2.owner == f && e.2.state != .off)).map Prod.fst) s

/-- The FLR of a virtual function, in its parts. -/
theorem vfFlr_eq (s : State) {f : Nat} (hf : 0 < f ∧ f ≤ 128) :
    s.vfFlr f = ((s.viReset ((f - 1) / 16) ((f - 1) % 16)).destroyFnQueues f).resetFn f := if_neg (by omega)

theorem fn_resetFn (s : State) (f k : Nat) : (s.resetFn f).fn k = if k = f then {} else s.fn k :=
  Tab.get_set (α := Fn) {} s.fns f k {}

/-- A virtual function's settings are the reset ones after its FLR, and those of any other are as before. -/
theorem fn_vfFlr (s : State) {f : Nat} (hf : 0 < f ∧ f ≤ 128) (k : Nat) : (s.vfFlr f).fn k = if k = f then {} else s.fn k := by
  rw [vfFlr_eq s hf, fn_resetFn]
  unfold State.fn
  rw [destroyFnQueues_fns, viReset_fns]

theorem fn_vfFlrs (l : List Nat) (hl : ∀ k ∈ l, 0 < k ∧ k ≤ 128) (s : State) (k : Nat) :
    (l.foldl (fun (s : State) f => s.vfFlr f) s).fn k = if k ∈ l then {} else s.fn k := by
  induction l generalizing s with
  | nil => rfl
  | cons f l ih =>
    rw [List.foldl_cons, ih (fun k hk => hl k (List.mem_cons_of_mem _ hk)), fn_vfFlr _ (hl f List.mem_cons_self)]
    by_cases h1 : k ∈ l <;> by_cases h2 : k = f <;> simp [h1, h2]

theorem msix_resetFn (s : State) {f n : Nat} (hn : n < 2048) : (s.resetFn f).msix.get {} (f * 2048 + n) = {} := by
  show Tab.get {} (s.msix.filter (fun (e : Nat × Vector) => e.1 / 2048 != f)) (f * 2048 + n) = {}
  rw [Tab.get_filter_key (α := Vector) {} (fun k => k / 2048 != f), if_neg]
  have : (f * 2048 + n) / 2048 = f := by omega
  simp [this]

theorem owner_rqs_destroyFnQueues (s : State) (f : Nat) : ∀ e ∈ (s.destroyFnQueues f).rqs, e.2.owner ≠ f := fun e he => by
  have := (List.mem_filter.mp (show e ∈ List.filter (fun (e : Nat × Queue) => e.2.owner != f) _ from he)).2
  simpa using this

theorem vfFlr_ends (s : State) {f : Nat} (hf : 0 < f ∧ f ≤ 128) : (s.vfFlr f).fn f = {} ∧
    (∀ g, ((s.vfFlr f).queue g).owner = f → ((s.vfFlr f).queue g).state ∈ [QState.off, .stopped]) ∧ (∀ e ∈ (s.vfFlr f).rqs, e.2.owner ≠ f) ∧
    (∀ n, n < 2048 → (s.vfFlr f).msix.get {} (f * 2048 + n) = {}) := by
  refine ⟨(fn_vfFlr s hf f).trans (if_pos rfl), ?_⟩
  rw [vfFlr_eq s hf]
  refine ⟨fun g h => ?_, owner_rqs_destroyFnQueues _ f, fun n hn => msix_resetFn _ hn⟩
  rw [List.mem_cons, List.mem_singleton]
  exact destroyFnQueues_queue _ (by omega) g h

end Sys2Proof.Machine
end

section
/-! SUPPORT. Held messages and configuration space (R393, R394). -/
namespace Sys2Proof.Machine

/-- One held message is sent. -/
def State.sendOne (s : State) (f : Nat) (e : Nat × Vector) : State :=
  ({ s with msix := s.msix.set {} e.1 { e.2 with pend := false } } : State).emit (.msix f (e.1 % 2048) e.2.addr e.2.data)

/-- The messages that function f holds and no mask holds back. -/
def State.heldMsgs (s : State) (f : Nat) : Tab Vector := s.msix.filter (fun (e : Nat × Vector) => e.1 / 2048 == f && e.2.pend && !e.2.mask)

/-- Function f may send messages. -/
def State.fnSends (s : State) (f : Nat) : Bool := !(s.fn f).funcMask && (s.fn f).msixEnable && (s.fn f).busMaster && s.fnEnabled f

theorem sendOne_same {g : Fld} (s : State) (f : Nat) (e : Nat × Vector) (h : g ∉ [Fld.msix, .out]) : g.same s (s.sendOne f e) := by
  cases g <;> first | rfl | simp at h

theorem fnSends_congr {s t : State} (f : Nat) (h1 : t.fns = s.fns) (h2 : t.vfEnable = s.vfEnable) (h3 : t.numVfs = s.numVfs) : t.fnSends f = s.fnSends f := by
  unfold State.fnSends State.fnEnabled State.fn
  rw [h1, h2, h3]

/-- A function that may not send leaves its messages held; one that may sends each. -/
theorem sendHeld_eq (s : State) (f : Nat) :
    s.sendHeld f = if s.fnSends f then (s.heldMsgs f).foldl (fun s e => s.sendOne f e) s else s := by
  have hstep (s : State) (e : Nat × Vector) : (if (s.fn f).funcMask = true ∨ (s.fn f).msixEnable = false ∨ (s.fn f).busMaster = false ∨ s.fnEnabled f = false then s
      else s.sendOne f e) = if s.fnSends f then s.sendOne f e else s := by
    unfold State.fnSends
    cases (s.fn f).funcMask <;> cases (s.fn f).msixEnable <;> cases (s.fn f).busMaster <;> cases s.fnEnabled f <;> rfl
  have hfold (l : Tab Vector) (s : State) : l.foldl (fun (s : State) e => if (s.fn f).funcMask = true ∨ (s.fn f).msixEnable = false ∨ (s.fn f).busMaster = false ∨ s.fnEnabled f = false then s
      else s.sendOne f e) s = if s.fnSends f then l.foldl (fun s e => s.sendOne f e) s else s := by
    induction l generalizing s with
    | nil => simp
    | cons e l ih =>
      rw [List.foldl_cons, List.foldl_cons, ih, hstep]
      have h : (s.sendOne f e).fnSends f = s.fnSends f := fnSends_congr f rfl rfl rfl
      cases hs : s.fnSends f
      · simp [hs]
      · simp [h, hs]
  exact hfold (s.heldMsgs f) s

theorem sendHeld_same {g : Fld} (s : State) (f : Nat) (h : g ∉ [Fld.msix, .out]) : g.same s (s.sendHeld f) := by
  rw [sendHeld_eq]
  exact Fld.same_ite (foldl_same _ (fun s e => sendOne_same s f e h) _ _) (Fld.same_refl _ _)

theorem msix_sendOne_ne (s : State) (f : Nat) {e : Nat × Vector} {k : Nat} (h : k ≠ e.1) : (s.sendOne f e).msix.get {} k = s.msix.get {} k :=
  Tab.get_set_ne (α := Vector) (d := {}) {} s.msix _ h

theorem msix_sendOne (s : State) (f : Nat) (e : Nat × Vector) : (s.sendOne f e).msix.get {} e.1 = { e.2 with pend := false } :=
  Tab.get_set_same (α := Vector) {} s.msix e.1 _

/-- A vector keeps its mask when messages are sent, where every held entry of it bears that mask. -/
theorem sendHeld_mask (s : State) (f k : Nat) {m : Bool} (hm : (s.msix.get {} k).mask = m) (hk : ∀ e ∈ s.heldMsgs f, e.1 = k → e.2.mask = m) :
    ((s.sendHeld f).msix.get {} k).mask = m := by
  rw [sendHeld_eq]
  split
  · refine List.foldlRecOn (motive := fun t : State => (t.msix.get {} k).mask = m) (s.heldMsgs f) _ hm (fun t ht e he => ?_)
    by_cases h : k = e.1
    · subst h; rw [msix_sendOne]; exact hk e he rfl
    · rw [msix_sendOne_ne t f h]; exact ht
  · exact hm

/-- A held message that nothing holds back is sent. -/
theorem sendHeld_sends (s : State) (f : Nat) {e : Nat × Vector} (hs : s.fnSends f = true) (he : e ∈ s.heldMsgs f) :
    ((s.sendHeld f).msix.get {} e.1).pend = false ∧ Out.msix f (e.1 % 2048) e.2.addr e.2.data ∈ (s.sendHeld f).out := by
  rw [sendHeld_eq, if_pos hs]
  have hkeep (l : Tab Vector) (s : State) (h : (s.msix.get {} e.1).pend = false ∧ Out.msix f (e.1 % 2048) e.2.addr e.2.data ∈ s.out) :
      ((l.foldl (fun s e => s.sendOne f e) s).msix.get {} e.1).pend = false ∧
      Out.msix f (e.1 % 2048) e.2.addr e.2.data ∈ (l.foldl (fun s e => s.sendOne f e) s).out := by
    refine List.foldlRecOn (motive := fun t : State => (t.msix.get {} e.1).pend = false ∧ Out.msix f (e.1 % 2048) e.2.addr e.2.data ∈ t.out) l _ h
      (fun t ht c _ => ⟨?_, List.mem_cons_of_mem _ ht.2⟩)
    by_cases hc : e.1 = c.1
    · rw [hc, msix_sendOne]
    · rw [msix_sendOne_ne t f hc]; exact ht.1
  obtain ⟨l, r, hl⟩ := List.append_of_mem he
  rw [hl, List.foldl_append, List.foldl_cons]
  exact hkeep r _ ⟨congrArg Vector.pend (msix_sendOne _ f e), List.mem_cons_self⟩

/-! ## Clearing a mask (R394) -/

section
variable {s : State} {f n : Nat}

/-- The state of a function's vector set by a configuration write. -/
def State.updVec (s : State) (f n : Nat) (k : Vector → Vector) : State := { s with msix := s.msix.upd {} (f * 2048 + n) k }

/-- The settings of a function set by a configuration write. -/
def State.updFn (s : State) (f : Nat) (k : Fn → Fn) : State := { s with fns := s.fns.upd {} f k }

theorem updFn_same {g : Fld} (s : State) (f : Nat) (k : Fn → Fn) (h : g ∉ [Fld.fns]) : g.same s (s.updFn f k) := by
  cases g <;> first | rfl | simp at h

@[simp] theorem fn_updFn (s : State) (f : Nat) (k : Fn → Fn) : (s.updFn f k).fn f = k (s.fn f) := Tab.get_upd_same (α := Fn) {} s.fns f k

theorem msix_updVec (s : State) (f n : Nat) (k : Vector → Vector) :
    (s.updVec f n k).msix.get {} (f * 2048 + n) = k (s.msix.get {} (f * 2048 + n)) := Tab.get_upd_same (α := Vector) {} s.msix _ k

theorem fn_sendHeld (s : State) (f g : Nat) : (s.sendHeld f).fn g = s.fn g :=
  congrArg (fun t : Tab Fn => t.get ({} : Fn) g) (show (s.sendHeld f).fns = s.fns from sendHeld_same (g := .fns) s f (by decide))

theorem msixUnmask_vector (hn : n < vectors f) : s.msixUnmask f (some n) = (s.updVec f n (fun x => { x with mask := false })).sendHeld f := by
  unfold State.msixUnmask; dsimp only; rw [if_pos hn]; rfl

theorem sendHeld_blocked (h : (s.fn f).funcMask = true ∨ (s.fn f).msixEnable = false) : s.sendHeld f = s := by
  rw [sendHeld_eq, if_neg]
  unfold State.fnSends
  rcases h with h | h <;> simp [h]

/-- The vector's held message after its mask is cleared. -/
theorem updVec_held (hn : n < 2048) (hp : (s.msix.get {} (f * 2048 + n)).pend = true) :
    (f * 2048 + n, { s.msix.get {} (f * 2048 + n) with mask := false }) ∈ (s.updVec f n (fun x => { x with mask := false })).heldMsgs f := by
  have hget := msix_updVec s f n (fun x => { x with mask := false })
  have hmem := Tab.mem_of_get_ne (d := ({} : Vector)) (t := (s.updVec f n (fun x => { x with mask := false })).msix) (k := f * 2048 + n)
    (by rw [hget]; intro e; have := congrArg Vector.mask e; exact nomatch this)
  rw [hget] at hmem
  have hk : (f * 2048 + n) / 2048 = f := by omega
  refine List.mem_filter.mpr ⟨hmem, ?_⟩
  dsimp only
  rw [hp, hk]
  simp

theorem msixUnmask_sends (hn : n < vectors f) (h2 : n < 2048) (hp : (s.msix.get {} (f * 2048 + n)).pend = true) (hf : s.fnSends f = true) :
    ((s.msixUnmask f (some n)).msix.get {} (f * 2048 + n)).pend = false ∧
    Out.msix f n (s.msix.get {} (f * 2048 + n)).addr (s.msix.get {} (f * 2048 + n)).data ∈ (s.msixUnmask f (some n)).out := by
  have h := sendHeld_sends (s.updVec f n (fun x => { x with mask := false })) f hf (updVec_held h2 hp)
  have hk : (f * 2048 + n) % 2048 = n := by omega
  rw [hk] at h
  rw [msixUnmask_vector hn]
  exact h

theorem msixUnmask_mask (hn : n < vectors f) : ((s.msixUnmask f (some n)).msix.get {} (f * 2048 + n)).mask = false := by
  rw [msixUnmask_vector hn]
  refine sendHeld_mask _ f _ (by rw [msix_updVec]) (fun e he _ => ?_)
  have := (List.mem_filter.mp he).2
  simp only [Bool.and_eq_true, Bool.not_eq_true'] at this
  exact this.2

theorem msixUnmask_blocked (hn : n < vectors f) (h : (s.fn f).funcMask = true ∨ (s.fn f).msixEnable = false) :
    s.msixUnmask f (some n) = s.updVec f n (fun x => { x with mask := false }) := by
  rw [msixUnmask_vector hn]
  exact sendHeld_blocked (f := f) h

/-- A vector's mask is what is written to it. -/
theorem mask_written (b : Bool) (hr : s.msix.rising = true) :
    (((s.updVec f n (fun x => { x with mask := b })).sendHeld f).msix.get {} (f * 2048 + n)).mask = b := by
  refine sendHeld_mask _ f _ (by rw [msix_updVec]) (fun e he hk => ?_)
  have hm := Tab.get_of_mem {} (Tab.rising_set hr) (List.mem_filter.mp he).1
  rw [← hm, hk]
  exact congrArg Vector.mask (msix_updVec s f n (fun x => { x with mask := b }))

end

/-! ## Configuration space (R393) -/

section
variable {s : State} {f n : Nat} {v : Word}

theorem configWrite_busMaster :
    s.configWrite f 0 n v = (if f = 0 ∧ bit v 0 = true ∧ (s.fn 0).busMaster = false ∧ s.flag Reg.HP_STS 31 = true then
      (s.updFn f (fun x => { x with busMaster := bit v 0 })).raise hpPage 1 else s.updFn f (fun x => { x with busMaster := bit v 0 })).sendHeld f := rfl

theorem configWrite_vector (hn : n < vectors f) :
    s.configWrite f 5 n v = (s.updVec f n (fun x => { x with mask := bit v 0 })).sendHeld f ∧
    s.configWrite f 6 n v = s.updVec f n (fun x => { x with addr := (x.addr >>> 32 <<< 32) ||| v.setWidth 64 }) ∧
    s.configWrite f 7 n v = s.updVec f n (fun x => { x with addr := (x.addr &&& 0xFFFFFFFF) ||| (v.setWidth 64 <<< 32) }) ∧
    s.configWrite f 8 n v = s.updVec f n (fun x => { x with data := v }) := by
  exact ⟨congrArg (State.sendHeld · f) (if_pos hn), if_pos hn, if_pos hn, if_pos hn⟩

theorem configWrite_noVector (hn : vectors f ≤ n) : s.configWrite f 6 n v = s ∧ s.configWrite f 7 n v = s ∧ s.configWrite f 8 n v = s := by
  have h := Nat.not_lt.mpr hn
  exact ⟨if_neg h, if_neg h, if_neg h⟩

theorem getLsbD_lowMask (i : Nat) : (BitVec.ofNat 64 (2 ^ 32 - 1)).getLsbD i = decide (i < 32) := by
  rw [BitVec.getLsbD_ofNat, Nat.testBit_two_pow_sub_one]
  by_cases hi : i < 32
  · simp [hi]; omega
  · simp [hi]

/-- The low word of a message address is set and the high word kept. -/
theorem low_word_set (a : DWord) (v : Word) : ((a >>> 32 <<< 32) ||| v.setWidth 64).setWidth 32 = v ∧ ((a >>> 32 <<< 32) ||| v.setWidth 64) >>> 32 = a >>> 32 := by
  constructor
  · refine BitVec.eq_of_getLsbD_eq (fun i hi => ?_)
    simp
  · refine BitVec.eq_of_getLsbD_eq (fun i hi => ?_)
    by_cases h : 32 + i < 64
    · simp [h]
    · have ha : a.getLsbD (32 + i) = false := BitVec.getLsbD_of_ge _ _ (by omega)
      simp [h, ha]

/-- The high word of a message address is set and the low word kept. -/
theorem high_word_set (a : DWord) (v : Word) {m : DWord} (hm : m = BitVec.ofNat 64 (2 ^ 32 - 1)) :
    (((a &&& m) ||| (v.setWidth 64 <<< 32)) >>> 32).setWidth 32 = v ∧ ((a &&& m) ||| (v.setWidth 64 <<< 32)).setWidth 32 = a.setWidth 32 := by
  constructor
  · refine BitVec.eq_of_getLsbD_eq (fun i hi => ?_)
    have h1 : 32 + i < 64 := by omega
    have h2 := getLsbD_lowMask (32 + i)
    rw [← hm, BitVec.getLsbD_eq_getElem h1] at h2
    have h3 : i < 64 := by omega
    simp [hi, h1, h2, h3]
  · refine BitVec.eq_of_getLsbD_eq (fun i hi => ?_)
    have h2 := getLsbD_lowMask i
    rw [← hm] at h2
    simp [hi, h2]

/-- Clearing VF Enable is an FLR of every virtual function. -/
theorem configWrite_vf : s.configWrite 0 1 n v =
    if s.vfEnable = true ∧ bit v 0 = false then { ((range' 1 128).foldl (fun (s : State) k => s.vfFlr k) s) with vfEnable := false }
    else { s with vfEnable := bit v 0 } := by
  show (if (0 : Nat) ≠ 0 then s else _) = _
  exact if_neg (by decide)

theorem mem_range' {a n k : Nat} : k ∈ range' a n ↔ a ≤ k ∧ k < a + n := by
  unfold range'
  rw [List.mem_map]
  constructor
  · rintro ⟨i, hi, rfl⟩
    have := List.mem_range.mp hi
    omega
  · intro h
    exact ⟨k - a, List.mem_range.mpr (by omega), by omega⟩

theorem fn_setVfEnable (t : State) (b : Bool) (k : Nat) : ({ t with vfEnable := b } : State).fn k = t.fn k := rfl

theorem vfDisable_fns (hv : s.vfEnable = true) (hb : bit v 0 = false) {k : Nat} (h0 : 0 < k) (hk : k ≤ 128) : (s.configWrite 0 1 n v).fn k = {} := by
  rw [configWrite_vf, if_pos ⟨hv, hb⟩]
  rw [fn_setVfEnable]
  exact (fn_vfFlrs (range' 1 128) (fun j hj => by have := mem_range'.mp hj; omega) s k).trans (if_pos (mem_range'.mpr (by omega)))

end

end Sys2Proof.Machine
end

section
/-! SUPPORT. The Ethernet ports (R406, R407, R410). -/
namespace Sys2Proof.Machine

section
variable {n : Nat}

/-- The page of an Ethernet port holds no register of the fault log or of signals. -/
theorem not_logReg_eth {a : Nat} (h : 0x332000 ≤ a) : ¬ logReg a :=
  not_logReg (by omega) (by omega) (by unfold Reg.HP_CNT_VEC_DROP; omega)

theorem not_msgReg_eth {a : Nat} (h : 0x332000 ≤ a) : ¬ msgReg a := not_msgReg (by omega) (by omega)

/-! ## Links (R410) -/

theorem netLink_same_link {s : State} {up : Bool} (h : s.flag (Reg.ETH_STS n) 31 = (up && s.flag (Reg.ETH_CTL n) 0 && s.flag (Reg.ETH_STS n) 30)) :
    s.netLink n up = s := if_pos h

/-- A port's link after it comes up or goes down. -/
theorem netLink_link (s : State) (up : Bool) :
    (s.netLink n up).flag (Reg.ETH_STS n) 31 = (up && s.flag (Reg.ETH_CTL n) 0 && s.flag (Reg.ETH_STS n) 30) ∧
    (s.netLink n up).flag (Reg.ETH_STS n) 30 = s.flag (Reg.ETH_STS n) 30 := by
  unfold State.netLink
  dsimp only
  split
  · next h => exact ⟨h, rfl⟩
  · have hraise (t : State) (i : Nat) : (t.raise (ethPage n) 0).flag (Reg.ETH_STS n) i = t.flag (Reg.ETH_STS n) i :=
      flag_congr (rd_raise t _ _ (not_msgReg_eth (by unfold Reg.ETH_STS; omega)) (by unfold Reg.ETH_STS ethPage; omega)) i
    rw [hraise, hraise]
    exact ⟨flag_setFlag s _ _ (by decide), flag_setFlag_ne s _ _ (by decide) (by decide) (by decide)⟩

/-- A change of link raises NET_LINK. -/
theorem netLink_raises {s : State} {up : Bool} (h : s.flag (Reg.ETH_STS n) 31 ≠ (up && s.flag (Reg.ETH_CTL n) 0 && s.flag (Reg.ETH_STS n) 30)) :
    (s.netLink n up).flag (ethPage n + 0x10) 0 = true := by
  unfold State.netLink
  dsimp only
  rw [if_neg h]
  exact flag_raise_self _ _ 0 (by decide) (not_msgReg_eth (by unfold ethPage; omega))

/-! ## Frames (R407) -/

theorem mac_bump (s : State) {a : Nat} (h1 : a ≠ Reg.MAC_HI n) (h2 : a ≠ Reg.MAC_LO n) : (s.bump a).mac n = s.mac n := by
  unfold State.mac State.fld
  rw [rd_bump_ne s h1.symm, rd_bump_ne s h2.symm]

theorem ifOf_bump (s : State) {a : Nat} (h : a < 0x4000000) (vid : Nat) : (s.bump a).ifOf n vid = s.ifOf n vid := by
  unfold State.ifOf
  have h (i : Nat) : (s.bump a).rd (bank i (Reg.IF_CTL n)) = s.rd (bank i (Reg.IF_CTL n)) := rd_bump_ne s (by unfold bank; omega)
  simp only [h]

/-- A frame that is not for stream intake goes to the port's frame queue. -/
def State.toPortQueue (s : State) (n : Nat) (b : Bytes) : State :=
  match s.rqs.find? (fun (e : Nat × Queue) => e.2.state == .run && e.2.target == 6 + n) with
  | none => s.bump (Reg.ETH_CNT_RX_DROP n)
  | some e => if (s.pushRecord e.1 8 s.now b).2 then (s.pushRecord e.1 8 s.now b).1 else (s.pushRecord e.1 8 s.now b).1.bump (Reg.ETH_CNT_RX_DROP n)

/-- A frame passes the port's filter (R407). -/
def State.frameKept (s : State) (n : Nat) (b : Bytes) (mcast : Bool) : Bool :=
  (b.take 6 == s.mac n || b.take 6 == List.replicate 6 0xFF || mcast) && !(frameOf b).2.1 && !hasOptions (frameOf b).2.2.1 (frameOf b).2.2.2 &&
    (s.ifOf n (frameOf b).1).isSome

variable {s : State} {b : Bytes} {mcast : Bool}

theorem frameRx_noLink {fcsOk : Bool} (h : s.flag (Reg.ETH_STS n) 31 = false) : s.frameRx n b fcsOk mcast = s := if_pos h

theorem frameRx_badFcs (h : s.flag (Reg.ETH_STS n) 31 = true) :
    s.frameRx n b false mcast = ((s.bump (Reg.ETH_CNT_RX_FRAMES n)).bump (Reg.ETH_CNT_FCS n)).bump (Reg.ETH_CNT_RX_FILTER n) := by
  unfold State.frameRx
  rw [if_neg (by simp [h])]
  rfl

/-- The model's tests of a frame's address, then of its tags, options and interface, are one filter. -/
theorem filter_ite {α : Type} (mine tags opts : Bool) (o : Option Nat) (x y : α) :
    (if !mine then y else if tags || opts || o.isNone then y else x) = if mine && !tags && !opts && o.isSome then x else y := by
  cases mine
  · rfl
  · cases tags <;> cases opts <;> cases o <;> rfl

theorem frameRx_filtered (hn : n < 2) (h : s.flag (Reg.ETH_STS n) 31 = true) (hk : s.frameKept n b mcast = false) :
    s.frameRx n b true mcast = (s.bump (Reg.ETH_CNT_RX_FRAMES n)).bump (Reg.ETH_CNT_RX_FILTER n) := by
  unfold State.frameKept at hk
  unfold State.frameRx
  dsimp only
  rw [if_neg (by simp [h]), if_neg (by decide), mac_bump s (by unfold Reg.ETH_CNT_RX_FRAMES Reg.MAC_HI; omega) (by unfold Reg.ETH_CNT_RX_FRAMES Reg.MAC_LO; omega),
    ifOf_bump s (by unfold Reg.ETH_CNT_RX_FRAMES; omega), filter_ite, hk]
  rfl

theorem frameRx_toPortQueue (hn : n < 2) (h : s.flag (Reg.ETH_STS n) 31 = true) (hk : s.frameKept n b mcast = true)
    (hu : udpOf (frameOf b).2.2.1 (frameOf b).2.2.2 = none) :
    s.frameRx n b true mcast = (s.bump (Reg.ETH_CNT_RX_FRAMES n)).toPortQueue n b := by
  unfold State.frameKept at hk
  unfold State.frameRx
  dsimp only
  rw [if_neg (by simp [h]), if_neg (by decide), mac_bump s (by unfold Reg.ETH_CNT_RX_FRAMES Reg.MAC_HI; omega) (by unfold Reg.ETH_CNT_RX_FRAMES Reg.MAC_LO; omega),
    ifOf_bump s (by unfold Reg.ETH_CNT_RX_FRAMES; omega), filter_ite, hk, hu]
  rfl

theorem toPortQueue_none (h : s.rqs.find? (fun (e : Nat × Queue) => e.2.state == .run && e.2.target == 6 + n) = none) :
    s.toPortQueue n b = s.bump (Reg.ETH_CNT_RX_DROP n) := by
  unfold State.toPortQueue; rw [h]

theorem toPortQueue_some {e : Nat × Queue} (h : s.rqs.find? (fun (e : Nat × Queue) => e.2.state == .run && e.2.target == 6 + n) = some e) :
    s.toPortQueue n b = if (s.pushRecord e.1 8 s.now b).2 then (s.pushRecord e.1 8 s.now b).1
      else (s.pushRecord e.1 8 s.now b).1.bump (Reg.ETH_CNT_RX_DROP n) := by
  unfold State.toPortQueue; rw [h]

end

end Sys2Proof.Machine
end

section
/-! SUPPORT. Host up, function resets, configuration space, Ethernet links and received frames (R392 to R394, R406 to R410), clause by
clause. -/
namespace Sys2Proof.Machine

theorem taken_fn (s t : State) {w : List Fld} (h : .fns ∈ w) (f : Nat) : (s.taken t w).fn f = t.fn f := by
  unfold State.fn; rw [taken_fns, if_pos h]

theorem taken_queue (s t : State) {w : List Fld} (h : .qs ∈ w) (g : Nat) : (s.taken t w).queue g = t.queue g :=
  queue_congr (by rw [taken_qs, if_pos h]) g

theorem taken_rqueue (s t : State) {w : List Fld} (h : .rqs ∈ w) (g : Nat) : (s.taken t w).rqueue g = t.rqueue g := by
  unfold State.rqueue; rw [taken_rqs, if_pos h]

theorem hostUp_up (speed width : Nat) {s : State} (h : s.clk.running = true) :
    (s.hostUp speed width).rd Reg.HP_STS = BitVec.ofNat 32 (2 ^ 31 + speed * 2 ^ 28 + width * 2 ^ 23) ∧
    ((s.hostUp speed width).fn 0).busMaster = true ∧ (s.hostUp speed width).flag (hpPage + 0x10) 1 = true := by
  have he : s.hostUp speed width = ((s.wr Reg.HP_STS (BitVec.ofNat 32 (2 ^ 31 + speed * 2 ^ 28 + width * 2 ^ 23))).updFn 0
      (fun x => { x with busMaster := true })).raise hpPage 1 := if_pos h
  rw [he]
  refine ⟨?_, ?_, flag_raise_self _ _ 1 (by decide) (not_msgReg (by decide) (by decide))⟩
  · rw [rd_raise _ _ _ (not_msgReg (by decide) (by decide)) (by decide), rd_congr (updFn_same (g := .regs) _ _ _ (by decide)), rd_wr_same]
  · unfold State.fn
    rw [raise_fns]
    exact congrArg Fn.busMaster (fn_updFn _ 0 (fun x => { x with busMaster := true }))

theorem exec_hostUp (speed : Fin 8) (width : Fin 32) (s : State) :
    (s.clk.running = true → ∃ t, exec (.hostUp speed width) s = .next t ∧ t.rd Reg.HP_STS = BitVec.ofNat 32 (2 ^ 31 + speed.val * 2 ^ 28 + width.val * 2 ^ 23) ∧
      (t.fn 0).busMaster = true ∧ t.flag (hpPage + 0x10) 1 = true) ∧
    (s.clk.running = false → ∃ t, exec (.hostUp speed width) s = .next t ∧ t.rd Reg.HP_STS = s.rd Reg.HP_STS ∧ t.fns = s.fns) := by
  refine ⟨fun h => ⟨_, rfl, ?_⟩, fun h => ⟨_, rfl, ?_⟩⟩
  · rw [taken_rd _ _ (by decide), taken_fn _ _ (by decide), taken_flag _ _ (by decide)]
    exact hostUp_up speed width h
  · have he : s.hostUp speed width = s := if_neg (by simp [h])
    rw [taken_rd _ _ (by decide), taken_fns, he]
    exact ⟨rfl, ite_self _⟩

theorem exec_vfFlr (f : Fin 129) (s : State) :
    (f ≠ 0 → ∃ t, exec (.vfFlr f) s = .next t ∧ t.fn f = {} ∧ (∀ g, (t.queue g).owner = f.val → (t.queue g).state ∈ [QState.off, .stopped]) ∧
      (∀ e ∈ t.rqs, e.2.owner ≠ f.val) ∧ (∀ n, n < 2048 → t.msix.get {} (f.val * 2048 + n) = {})) ∧
    (f = 0 → ∃ t, exec (.vfFlr f) s = .next t ∧ t.fns = s.fns ∧ t.qs = s.qs ∧ t.rqs = s.rqs ∧ t.vis = s.vis) := by
  refine ⟨fun h => ⟨_, rfl, ?_⟩, fun h => ⟨_, rfl, ?_⟩⟩
  · have hf : f.val ≠ 0 := fun e => h (Fin.ext e)
    have hend := vfFlr_ends s (f := f.val) (by omega)
    rw [taken_fn _ _ (by decide), taken_rqs, if_pos (by decide), taken_msix, if_pos (by decide)]
    refine ⟨hend.1, fun g hg => ?_, hend.2.2⟩
    rw [taken_queue _ _ (by decide)] at hg ⊢
    exact hend.2.1 g hg
  · subst h
    have he : s.vfFlr 0 = s := if_pos (.inl rfl)
    show (State.taken s (s.vfFlr 0) _).fns = _ ∧ (State.taken s (s.vfFlr 0) _).qs = _ ∧ (State.taken s (s.vfFlr 0) _).rqs = _ ∧
      (State.taken s (s.vfFlr 0) _).vis = _
    rw [he]
    simp

theorem exec_msixUnmask {f : Fin 129} {n : Fin 2048} {s : State} (hn : n.val < vectors f) :
    ∃ t, exec (.msixUnmask f (some n)) s = .next t ∧ (t.msix.get {} (f.val * 2048 + n.val)).mask = false ∧
      (((s.msix.get {} (f.val * 2048 + n.val)).pend = true ∧ (s.fn f).funcMask = false ∧ (s.fn f).msixEnable = true ∧ (s.fn f).busMaster = true ∧
          s.fnEnabled f = true) →
        (t.msix.get {} (f.val * 2048 + n.val)).pend = false ∧
          Out.msix f n (s.msix.get {} (f.val * 2048 + n.val)).addr (s.msix.get {} (f.val * 2048 + n.val)).data ∈ t.out) ∧
      (((s.fn f).funcMask = true ∨ (s.fn f).msixEnable = false) →
        (t.msix.get {} (f.val * 2048 + n.val)).pend = (s.msix.get {} (f.val * 2048 + n.val)).pend ∧ t.out = s.out) := by
  refine ⟨_, rfl, ?_⟩
  rw [taken_msix, if_pos (by decide), taken_out, if_pos (by decide)]
  show ((s.msixUnmask f.val (some n.val)).msix.get {} _).mask = false ∧ _
  refine ⟨msixUnmask_mask hn, fun ⟨hp, h1, h2, h3, h4⟩ => msixUnmask_sends hn n.isLt hp (by unfold State.fnSends; simp [h1, h2, h3, h4]), fun h => ?_⟩
  show ((s.msixUnmask f.val (some n.val)).msix.get {} _).pend = _ ∧ (s.msixUnmask f.val (some n.val)).out = _
  rw [msixUnmask_blocked hn h, msix_updVec]
  exact ⟨rfl, rfl⟩

/-- The fields that a write to configuration space may change. -/
def cfgFlds : List Fld :=
  [.free, .mem, .regs, .held, .holding, .hevt, .fns, .numVfs, .vfEnable, .msix, .qs, .rqs, .items, .egress, .parts, .vis, .ue, .out, .ports,
   .tiles, .gctxs, .seqs, .aunits, .sc, .harts, .cores, .vsaved]

theorem exec_configSpaceWrite {f : Fin 129} {k : Fin 10} {n : Fin 2048} {v : Word} {s u : State} (h : s.configWrite f k n v = u) :
    exec (.configSpaceWrite f k n v) s = .next (s.taken u cfgFlds) := by
  subst h; rfl

theorem cfg_msix (s u : State) : (s.taken u cfgFlds).msix = u.msix := by rw [taken_msix, if_pos (by decide)]

theorem exec_configVector {f : Fin 129} {n : Fin 2048} (v : Word) {s : State} (hn : n.val < vectors f) :
    (s.msix.rising = true → ∃ t, exec (.configSpaceWrite f 5 n v) s = .next t ∧ (t.msix.get {} (f.val * 2048 + n.val)).mask = bit v 0) ∧
    (∃ t, exec (.configSpaceWrite f 6 n v) s = .next t ∧ (t.msix.get {} (f.val * 2048 + n.val)).addr.setWidth 32 = v ∧
      (t.msix.get {} (f.val * 2048 + n.val)).addr >>> 32 = (s.msix.get {} (f.val * 2048 + n.val)).addr >>> 32 ∧
      (t.msix.get {} (f.val * 2048 + n.val)).data = (s.msix.get {} (f.val * 2048 + n.val)).data) ∧
    (∃ t, exec (.configSpaceWrite f 7 n v) s = .next t ∧ ((t.msix.get {} (f.val * 2048 + n.val)).addr >>> 32).setWidth 32 = v ∧
      (t.msix.get {} (f.val * 2048 + n.val)).addr.setWidth 32 = (s.msix.get {} (f.val * 2048 + n.val)).addr.setWidth 32) ∧
    (∃ t, exec (.configSpaceWrite f 8 n v) s = .next t ∧
      t.msix.get {} (f.val * 2048 + n.val) = { s.msix.get {} (f.val * 2048 + n.val) with data := v }) := by
  obtain ⟨h5, h6, h7, h8⟩ := configWrite_vector (s := s) (f := f.val) (n := n.val) (v := v) hn
  refine ⟨fun hr => ⟨_, exec_configSpaceWrite h5, ?_⟩, ⟨_, exec_configSpaceWrite h6, ?_⟩, ⟨_, exec_configSpaceWrite h7, ?_⟩,
    ⟨_, exec_configSpaceWrite h8, ?_⟩⟩ <;> rw [cfg_msix]
  · exact mask_written _ hr
  · rw [msix_updVec]
    exact ⟨(low_word_set _ v).1, (low_word_set _ v).2, rfl⟩
  · rw [msix_updVec]
    exact high_word_set _ v rfl
  · rw [msix_updVec]

theorem exec_configNoVector {f : Fin 129} {n : Fin 2048} (v : Word) (s : State) (hn : vectors f ≤ n.val) (k : Fin 10) (hk : k ∈ [6, 7, 8]) :
    ∃ t, exec (.configSpaceWrite f k n v) s = .next t ∧ t.msix = s.msix := by
  obtain ⟨h6, h7, h8⟩ := configWrite_noVector (s := s) (f := f.val) (n := n.val) (v := v) hn
  simp only [List.mem_cons, List.not_mem_nil, or_false] at hk
  rcases hk with rfl | rfl | rfl
  · exact ⟨_, exec_configSpaceWrite h6, cfg_msix _ _⟩
  · exact ⟨_, exec_configSpaceWrite h7, cfg_msix _ _⟩
  · exact ⟨_, exec_configSpaceWrite h8, cfg_msix _ _⟩

theorem exec_msixUnmask_all (f : Fin 129) (s : State) : ∃ t, exec (.msixUnmask f none) s = .next t ∧ (t.fn f).funcMask = false := by
  refine ⟨_, rfl, ?_⟩
  rw [taken_fn _ _ (by decide)]
  show (((s.updFn f.val (fun x => { x with funcMask := false })).sendHeld f.val).fn f.val).funcMask = false
  rw [fn_sendHeld, fn_updFn]

theorem exec_configBusMaster (f : Fin 129) (n : Fin 2048) (v : Word) (s : State) :
    ∃ t, exec (.configSpaceWrite f 0 n v) s = .next t ∧ (t.fn f).busMaster = bit v 0 ∧
      (f = 0 → bit v 0 = true → (s.fn 0).busMaster = false → s.flag Reg.HP_STS 31 = true → t.flag (hpPage + 0x10) 1 = true) := by
  refine ⟨_, exec_configSpaceWrite configWrite_busMaster, ?_, fun hf hb hm hl => ?_⟩
  · rw [taken_fn _ _ (by decide), fn_sendHeld]
    split
    · unfold State.fn
      rw [raise_fns]
      exact congrArg Fn.busMaster (fn_updFn s f.val _)
    · exact congrArg Fn.busMaster (fn_updFn s f.val _)
  · subst hf
    rw [taken_flag _ _ (by decide), flag_congr (rd_congr (sendHeld_same (g := .regs) _ _ (by decide)) _), if_pos ⟨rfl, hb, hm, hl⟩]
    exact flag_raise_self _ _ 1 (by decide) (not_msgReg (by decide) (by decide))

theorem exec_configVfs (f : Fin 129) (n : Fin 2048) (v : Word) (s : State) :
    (f = 0 → ∃ t, exec (.configSpaceWrite f 1 n v) s = .next t ∧ t.vfEnable = bit v 0 ∧
      (s.vfEnable = true → bit v 0 = false → ∀ k, 0 < k → k ≤ 128 → t.fn k = {})) ∧
    (f = 0 → s.vfEnable = false → ∃ t, exec (.configSpaceWrite f 2 n v) s = .next t ∧ t.numVfs = min 128 (bits v 15 0)) ∧
    ((f ≠ 0 ∨ s.vfEnable = true) → ∃ t, exec (.configSpaceWrite f 2 n v) s = .next t ∧ t.numVfs = s.numVfs) := by
  refine ⟨fun h => ?_, fun h hv => ?_, fun h => ?_⟩
  · subst h
    refine ⟨_, exec_configSpaceWrite rfl, ?_, fun hv hb k h0 hk => ?_⟩
    · rw [taken_vfEnable, if_pos (by decide)]
      show (s.configWrite 0 1 n.val v).vfEnable = bit v 0
      rw [configWrite_vf]
      split
      · next h => exact h.2.symm
      · rfl
    · rw [taken_fn _ _ (by decide)]
      exact vfDisable_fns hv hb h0 hk
  · subst h
    have he : s.configWrite 0 2 n.val v = { s with numVfs := min 128 (bits v 15 0) } := if_neg (by simp [hv])
    refine ⟨_, exec_configSpaceWrite he, ?_⟩
    rw [taken_numVfs, if_pos (by decide)]
  · have he : s.configWrite f.val 2 n.val v = s := if_pos (h.imp (fun hf e => hf (Fin.ext e)) id)
    refine ⟨_, exec_configSpaceWrite he, ?_⟩
    rw [taken_numVfs, if_pos (by decide)]

theorem exec_configFn (f : Fin 129) (n : Fin 2048) (v : Word) (s : State) :
    (∃ t, exec (.configSpaceWrite f 3 n v) s = .next t ∧ t.fn f = { s.fn f with msixEnable := bit v 0 }) ∧
    (∃ t, exec (.configSpaceWrite f 4 n v) s = .next t ∧ t.fn f = { s.fn f with funcMask := bit v 0 }) ∧
    (∃ t, exec (.configSpaceWrite f 9 n v) s = .next t ∧ t.fn f = { s.fn f with memEnable := bit v 0 } ∧ t.out = s.out) := by
  have h3 : s.configWrite f.val 3 n.val v = (s.updFn f.val (fun x => { x with msixEnable := bit v 0 })).sendHeld f.val := rfl
  have h4 : s.configWrite f.val 4 n.val v = (s.updFn f.val (fun x => { x with funcMask := bit v 0 })).sendHeld f.val := rfl
  have h9 : s.configWrite f.val 9 n.val v = s.updFn f.val (fun x => { x with memEnable := bit v 0 }) := rfl
  refine ⟨⟨_, exec_configSpaceWrite h3, ?_⟩, ⟨_, exec_configSpaceWrite h4, ?_⟩, ⟨_, exec_configSpaceWrite h9, ?_⟩⟩ <;> rw [taken_fn _ _ (by decide)]
  · rw [fn_sendHeld, fn_updFn]
  · rw [fn_sendHeld, fn_updFn]
  · rw [taken_out, if_pos (by decide)]
    exact ⟨fn_updFn _ _ _, rfl⟩

/-! ## Ethernet -/

theorem exec_netLink (n : Fin 2) (isUp : Bool) (s : State) :
    ∃ t, exec (.netLink n isUp) s = .next t ∧ t.flag (Reg.ETH_STS n) 31 = (isUp && s.flag (Reg.ETH_CTL n) 0 && s.flag (Reg.ETH_STS n) 30) ∧
      (s.flag (Reg.ETH_STS n) 31 ≠ (isUp && s.flag (Reg.ETH_CTL n) 0 && s.flag (Reg.ETH_STS n) 30) → t.flag (ethPage n + 0x10) 0 = true) ∧
      (s.flag (Reg.ETH_STS n) 31 = (isUp && s.flag (Reg.ETH_CTL n) 0 && s.flag (Reg.ETH_STS n) 30) → t.regs = s.regs) := by
  refine ⟨_, rfl, ?_, fun h => ?_, fun h => ?_⟩
  · rw [taken_flag _ _ (by decide)]; exact (netLink_link s isUp).1
  · rw [taken_flag _ _ (by decide)]; exact netLink_raises h
  · rw [taken_regs, if_pos (by decide), netLink_same_link h]

theorem exec_presence (n : Fin 2) (s : State) :
    (∃ t, exec (.presenceChange n true) s = .next t ∧ t.flag (Reg.ETH_STS n) 30 = true ∧ t.flag (Reg.ETH_STS n) 31 = s.flag (Reg.ETH_STS n) 31) ∧
    (∃ t, exec (.presenceChange n false) s = .next t ∧ t.flag (Reg.ETH_STS n) 30 = false ∧ t.flag (Reg.ETH_STS n) 31 = false ∧
      (s.flag (Reg.ETH_STS n) 31 = true → t.flag (ethPage n + 0x10) 0 = true)) := by
  have h31 (b : Bool) : (s.setFlag (Reg.ETH_STS n) 30 b).flag (Reg.ETH_STS n) 31 = s.flag (Reg.ETH_STS n) 31 :=
    flag_setFlag_ne s _ _ (by decide) (by decide) (by decide)
  have h30 (b : Bool) : (s.setFlag (Reg.ETH_STS n) 30 b).flag (Reg.ETH_STS n) 30 = b := flag_setFlag s _ _ (by decide)
  have hin : s.presence n.val true = s.setFlag (Reg.ETH_STS n) 30 true := by unfold State.presence; exact if_pos rfl
  have hout : s.presence n.val false = (s.setFlag (Reg.ETH_STS n) 30 false).netLink n.val false := by
    unfold State.presence; exact if_neg (by decide)
  refine ⟨⟨_, rfl, ?_⟩, ⟨_, rfl, ?_⟩⟩
  · rw [taken_flag _ _ (by decide), taken_flag _ _ (by decide), hin]
    exact ⟨h30 true, h31 true⟩
  · have hlink := netLink_link (n := n.val) (s.setFlag (Reg.ETH_STS n) 30 false) false
    rw [taken_flag _ _ (by decide), taken_flag _ _ (by decide), taken_flag _ _ (by decide), hout]
    exact ⟨hlink.2.trans (h30 false), hlink.1, fun h => netLink_raises (by rw [h31, h]; simp)⟩

theorem exec_ethFrameRx_noLink (n : Fin 2) (b : List Byte) (fcsOk mcast : Bool) {s : State} (h : s.flag (Reg.ETH_STS n) 31 = false) :
    ∃ t, exec (.ethFrameRx n b fcsOk mcast) s = .next t ∧ t.regs = s.regs ∧ t.rqs = s.rqs ∧ t.ctxs = s.ctxs := by
  refine ⟨_, rfl, ?_⟩
  rw [frameRx_noLink h]
  simp

theorem exec_ethFrameRx_dropped (n : Fin 2) (b : List Byte) {fcsOk mcast : Bool} {s : State} (h : s.flag (Reg.ETH_STS n) 31 = true)
    (hd : fcsOk = false ∨ s.frameKept n b mcast = false) :
    ∃ t, exec (.ethFrameRx n b fcsOk mcast) s = .next t ∧ t.rqs = s.rqs ∧ t.ctxs = s.ctxs ∧
        t.rd (Reg.ETH_CNT_RX_FRAMES n) = s.rd (Reg.ETH_CNT_RX_FRAMES n) + 1 ∧ t.rd (Reg.ETH_CNT_RX_FILTER n) = s.rd (Reg.ETH_CNT_RX_FILTER n) + 1 ∧
        t.rd (Reg.ETH_CNT_FCS n) = s.rd (Reg.ETH_CNT_FCS n) + (if fcsOk then 0 else 1) := by
  have h1 : Reg.ETH_CNT_RX_FRAMES n ≠ Reg.ETH_CNT_RX_FILTER n := by unfold Reg.ETH_CNT_RX_FRAMES Reg.ETH_CNT_RX_FILTER; omega
  have h2 : Reg.ETH_CNT_RX_FRAMES n ≠ Reg.ETH_CNT_FCS n := by unfold Reg.ETH_CNT_RX_FRAMES Reg.ETH_CNT_FCS; omega
  have h3 : Reg.ETH_CNT_RX_FILTER n ≠ Reg.ETH_CNT_FCS n := by unfold Reg.ETH_CNT_RX_FILTER Reg.ETH_CNT_FCS; omega
  refine ⟨_, rfl, ?_⟩
  rw [taken_rd _ _ (by decide), taken_rd _ _ (by decide), taken_rd _ _ (by decide), taken_rqs, if_pos (by decide), taken_ctxs, if_pos (by decide)]
  cases fcsOk
  · rw [frameRx_badFcs h]
    refine ⟨by simp only [bump_rqs], by simp only [bump_ctxs], ?_, ?_, ?_⟩
    · rw [rd_bump_ne _ h1, rd_bump_ne _ h2, rd_bump_same]
    · rw [rd_bump_same, rd_bump_ne _ h3, rd_bump_ne _ h1.symm]
    · rw [rd_bump_ne _ h3.symm, rd_bump_same, rd_bump_ne _ h2.symm]; rfl
  · rw [frameRx_filtered n.isLt h (hd.resolve_left (by decide))]
    refine ⟨by simp only [bump_rqs], by simp only [bump_ctxs], ?_, ?_, ?_⟩
    · rw [rd_bump_ne _ h1, rd_bump_same]
    · rw [rd_bump_same, rd_bump_ne _ h1.symm]
    · rw [rd_bump_ne _ h3.symm, rd_bump_ne _ h2.symm]; simp

section
variable {n : Fin 2} {b : List Byte} {mcast : Bool} {s : State} (h : s.flag (Reg.ETH_STS n) 31 = true) (hk : s.frameKept n b mcast = true)
  (hu : udpOf (frameOf b).2.2.1 (frameOf b).2.2.2 = none)
include h hk hu

theorem exec_ethFrameRx_noQueue (hp : s.rqs.find? (fun (e : Nat × Queue) => e.2.state == .run && e.2.target == 6 + n.val) = none) :
    ∃ t, exec (.ethFrameRx n b true mcast) s = .next t ∧ t.rqs = s.rqs ∧
      t.rd (Reg.ETH_CNT_RX_FRAMES n) = s.rd (Reg.ETH_CNT_RX_FRAMES n) + 1 ∧ t.rd (Reg.ETH_CNT_RX_DROP n) = s.rd (Reg.ETH_CNT_RX_DROP n) + 1 := by
  have h1 : Reg.ETH_CNT_RX_FRAMES n ≠ Reg.ETH_CNT_RX_DROP n := by unfold Reg.ETH_CNT_RX_FRAMES Reg.ETH_CNT_RX_DROP; omega
  refine ⟨_, rfl, ?_⟩
  rw [taken_rd _ _ (by decide), taken_rd _ _ (by decide), taken_rqs, if_pos (by decide), frameRx_toPortQueue n.isLt h hk hu, toPortQueue_none (s := s.bump (Reg.ETH_CNT_RX_FRAMES n)) hp,
    rd_bump_ne _ h1, rd_bump_same, rd_bump_same, rd_bump_ne _ h1.symm]
  exact ⟨bump_rqs _ _, rfl, rfl⟩

variable {e : Nat × Queue} (hp : s.rqs.find? (fun (e : Nat × Queue) => e.2.state == .run && e.2.target == 6 + n.val) = some e)
include hp

theorem exec_ethFrameRx_queued (hq : (s.rqueue e.1).state = .run) (hsize : recUnits b.length ≤ 2 ^ (s.rqueue e.1).logN)
    (hroom : between (s.rqueue e.1).head (s.rqueue e.1).tail + recUnits b.length +
      (if 2 ^ (s.rqueue e.1).logN < (s.rqueue e.1).tail % 2 ^ (s.rqueue e.1).logN + recUnits b.length then
        2 ^ (s.rqueue e.1).logN - (s.rqueue e.1).tail % 2 ^ (s.rqueue e.1).logN else 0) ≤ 2 ^ (s.rqueue e.1).logN) :
    ∃ t, exec (.ethFrameRx n b true mcast) s = .next t ∧ (t.rqueue e.1).tail =
      ((s.rqueue e.1).tail + (if 2 ^ (s.rqueue e.1).logN < (s.rqueue e.1).tail % 2 ^ (s.rqueue e.1).logN + recUnits b.length then
        2 ^ (s.rqueue e.1).logN - (s.rqueue e.1).tail % 2 ^ (s.rqueue e.1).logN else 0) + recUnits b.length) % 65536 ∧
      t.rd (Reg.ETH_CNT_RX_DROP n) = s.rd (Reg.ETH_CNT_RX_DROP n) := by
  obtain ⟨hput, htail⟩ := pushRecord_tail (s.bump (Reg.ETH_CNT_RX_FRAMES n)) e.1 8 (s.bump (Reg.ETH_CNT_RX_FRAMES n)).now b hq hsize hroom
  refine ⟨_, rfl, ?_⟩
  rw [taken_rd _ _ (by decide), taken_rqueue _ _ (by decide), frameRx_toPortQueue n.isLt h hk hu, toPortQueue_some (s := s.bump (Reg.ETH_CNT_RX_FRAMES n)) hp, if_pos hput]
  refine ⟨htail, ?_⟩
  rw [(pushRecord_keeps _ _ _ _ _).rd _ (not_logReg_eth (by unfold Reg.ETH_CNT_RX_DROP; omega))
    (by unfold badUnitReg Reg.ETH_CNT_RX_DROP Reg.COM_CNT_BAD_UNIT; simp; omega)]
  exact rd_bump_ne _ (by unfold Reg.ETH_CNT_RX_DROP Reg.ETH_CNT_RX_FRAMES; omega)

theorem exec_ethFrameRx_noRoom (hroom : 2 ^ (s.rqueue e.1).logN < between (s.rqueue e.1).head (s.rqueue e.1).tail + recUnits b.length +
      (if 2 ^ (s.rqueue e.1).logN < (s.rqueue e.1).tail % 2 ^ (s.rqueue e.1).logN + recUnits b.length then
        2 ^ (s.rqueue e.1).logN - (s.rqueue e.1).tail % 2 ^ (s.rqueue e.1).logN else 0)) :
    ∃ t, exec (.ethFrameRx n b true mcast) s = .next t ∧ t.rqs = s.rqs ∧
      t.rd (Reg.ETH_CNT_RX_DROP n) = s.rd (Reg.ETH_CNT_RX_DROP n) + 1 := by
  have hfull := pushRecord_full (s.bump (Reg.ETH_CNT_RX_FRAMES n)) e.1 8 (s.bump (Reg.ETH_CNT_RX_FRAMES n)).now b hroom
  refine ⟨_, rfl, ?_⟩
  rw [taken_rd _ _ (by decide), taken_rqs, if_pos (by decide), frameRx_toPortQueue n.isLt h hk hu, toPortQueue_some (s := s.bump (Reg.ETH_CNT_RX_FRAMES n)) hp, hfull, if_neg Bool.false_ne_true,
    rd_bump_same, rd_bump_ne _ (by unfold Reg.ETH_CNT_RX_DROP Reg.ETH_CNT_RX_FRAMES; omega)]
  exact ⟨bump_rqs _ _, rfl⟩

end

/-- Settles O53: host up, function resets, configuration space, links and received frames, each clause by the lemma of its command. -/
theorem functionsMessagesAndFrames : Obligations.FunctionsMessagesAndFrames := by
  unfold Obligations.FunctionsMessagesAndFrames
  refine ⟨exec_hostUp, exec_vfFlr, fun f n v s => ⟨fun hn => ⟨exec_msixUnmask hn, exec_configVector v hn⟩, exec_configNoVector v s, exec_msixUnmask_all f s,
    exec_configBusMaster f n v s, (exec_configVfs f n v s).1, (exec_configVfs f n v s).2.1, (exec_configVfs f n v s).2.2, exec_configFn f n v s⟩,
    fun n s => ⟨fun up => exec_netLink n up s, exec_presence n s⟩, fun n b fcsOk mcast s => ⟨exec_ethFrameRx_noLink n b fcsOk mcast, fun h =>
      ⟨exec_ethFrameRx_dropped n b h, fun hf hk hu => ?_⟩⟩⟩
  subst hf
  exact ⟨exec_ethFrameRx_noQueue h hk hu, fun e he hq hsize => ⟨exec_ethFrameRx_queued h hk hu he hq hsize, exec_ethFrameRx_noRoom h hk hu he⟩⟩

end Sys2Proof.Machine
end

section
/-! SUPPORT. Queues created, destroyed, rung and fetched from (R395 to R403), clause by clause. -/
namespace Sys2Proof.Machine

/-! ## QUEUE_CMD (R395) -/

/-- The word of a QUEUE_CMD row: its operation is put in and the rest is as written. -/
theorem queueWord (v m : Word) (h : bits m 31 16 = 0 ∧ bit m 15 = false ∧ bits m 10 0 = 0) :
    bits (v &&& 0xFFFF9FFF ||| m) 31 16 = bits v 31 16 ∧ bit (v &&& 0xFFFF9FFF ||| m) 15 = bit v 15 ∧
    bits (v &&& 0xFFFF9FFF ||| m) 10 0 = bits v 10 0 ∧ bits (v &&& 0xFFFF9FFF ||| m) 14 13 = bits m 14 13 := by
  obtain ⟨h1, h2, h3⟩ := h
  refine ⟨?_, ?_, ?_, ?_⟩
  · rw [bits_or_zero _ _ h1, bits_and_ones _ _ (by decide)]
  · rw [bit_or, bit_and, h2]
    simp [bit]
  · rw [bits_or_zero _ _ h3, bits_and_ones _ _ (by decide)]
  · rw [bits_or, bits_and, show bits (0xFFFF9FFF : Word) 14 13 = 0 by decide, Nat.and_zero, Nat.zero_or]

section
variable {s : State} (req : Req) {v : Word}

theorem queueCmd_create (h : bits v 31 16 = 0x90E5) :
    s.queueCmd req (v &&& 0xFFFF9FFF ||| 0x2000) = s.queueCreate (bit v 15) (bits v 10 0) := by
  obtain ⟨hk, h15, h10, hop⟩ := queueWord v 0x2000 (by decide)
  unfold State.queueCmd
  have h1 : bits (v &&& 0xFFFF9FFF ||| 0x2000) 14 13 = 1 := hop
  rw [if_neg (by rw [h1]; decide), keyed_right s req _ _ (hk.trans h)]
  simp only [h1, h15, h10]

theorem queueCmd_destroy (h : bits v 31 16 = 0x90E5) :
    s.queueCmd req (v &&& 0xFFFF9FFF ||| 0x4000) = s.queueDestroy (bit v 15) (bits v 10 0) := by
  obtain ⟨hk, h15, h10, hop⟩ := queueWord v 0x4000 (by decide)
  unfold State.queueCmd
  have h1 : bits (v &&& 0xFFFF9FFF ||| 0x4000) 14 13 = 2 := hop
  rw [if_neg (by rw [h1]; decide), keyed_right s req _ _ (hk.trans h)]
  simp only [h1, h15, h10]

/-- With a wrong key a QUEUE_CMD is refused, whatever its operation. -/
theorem queueCmd_wrong {m : Word} (hm : m = 0x2000 ∨ m = 0x4000) (h : bits v 31 16 ≠ 0x90E5) :
    s.queueCmd req (v &&& 0xFFFF9FFF ||| m) = s.keyViol req Reg.QUEUE_CMD := by
  obtain ⟨hk, -, -, hop⟩ := queueWord v m (by rcases hm with rfl | rfl <;> decide)
  unfold State.queueCmd
  rw [if_neg (by rw [hop]; rcases hm with rfl | rfl <;> decide), keyed_wrong s req _ _ (by rw [hk]; exact h)]

end

/-- The fields that a QUEUE_CMD may change. -/
def queueCmdFlds : List Fld := [.regs, .flogRing, .flogLast, .holding, .hevt, .msix, .qs, .rqs, .out, .gctxs]

theorem exec_queueCreate {req : BitVec 16} {v : Word} {s u : State} (h : s.queueCmd req (v &&& 0xFFFF9FFF ||| 0x2000) = u) :
    exec (.queueCreate req v) s = .next (s.taken u queueCmdFlds) := by subst h; rfl

theorem exec_queueDestroy {req : BitVec 16} {v : Word} {s u : State} (h : s.queueCmd req (v &&& 0xFFFF9FFF ||| 0x4000) = u) :
    exec (.queueDestroy req v) s = .next (s.taken u queueCmdFlds) := by subst h; rfl

section
variable (s u : State)

theorem qcmd_qs : (s.taken u queueCmdFlds).qs = u.qs := by rw [taken_qs, if_pos (by decide)]
theorem qcmd_rqs : (s.taken u queueCmdFlds).rqs = u.rqs := by rw [taken_rqs, if_pos (by decide)]
theorem qcmd_queue (g : Nat) : (s.taken u queueCmdFlds).queue g = u.queue g := taken_queue s u (by decide) g
theorem qcmd_rqueue (g : Nat) : (s.taken u queueCmdFlds).rqueue g = u.rqueue g := taken_rqueue s u (by decide) g
theorem qcmd_rd (a : Nat) : (s.taken u queueCmdFlds).rd a = u.rd a := taken_rd s u (by decide) a

theorem queueSts_qs (busy : Bool) (r : Nat) : (s.queueSts busy r).qs = s.qs := wr_qs _ _ _
theorem queueSts_rqs (busy : Bool) (r : Nat) : (s.queueSts busy r).rqs = s.rqs := wr_rqs _ _ _
theorem queueSts_queue (busy : Bool) (r g : Nat) : (s.queueSts busy r).queue g = s.queue g := queue_congr (queueSts_qs s busy r) g
theorem queueSts_rqueue (busy : Bool) (r g : Nat) : (s.queueSts busy r).rqueue g = s.rqueue g := by
  unfold State.rqueue; rw [queueSts_rqs]
theorem queueSts_rd (busy : Bool) (r : Nat) : (s.queueSts busy r).rd Reg.QUEUE_STS = BitVec.ofNat 32 (ofBool busy * 2 ^ 31 + r) := rd_wr_same _ _ _

theorem queueSts_result (r : Nat) : (s.queueSts false r).rd Reg.QUEUE_STS = BitVec.ofNat 32 r :=
  (queueSts_rd s false r).trans (congrArg (BitVec.ofNat 32) (by show 0 * 2 ^ 31 + r = r; omega))

end

theorem rqueue_setRqueue (s : State) (g : Nat) (q : Queue) : (s.setRqueue g q).rqueue g = q := Tab.get_set_same (α := Queue) {} s.rqs g q

theorem rqueue_setRqueue_ne (s : State) {g k : Nat} (q : Queue) (h : k ≠ g) : (s.setRqueue g q).rqueue k = s.rqueue k :=
  Tab.get_set_ne (α := Queue) (d := {}) {} s.rqs q h

section
variable {s : State} {recq : Bool} {g : Nat} {b : Bytes}

theorem queueCreate_unread (h : s.schRead (s.addr48 Reg.QUEUE_DESC_LO Reg.QUEUE_DESC_HI) 64 = none) : s.queueCreate recq g = s.queueSts false 2 := by
  
  conv => lhs; fun; fun; fun; delta State.queueCreate
  simp only [h]

variable (h : s.schRead (s.addr48 Reg.QUEUE_DESC_LO Reg.QUEUE_DESC_HI) 64 = some b)
include h

theorem queueCreate_refused (hr : s.createResult recq g b ≠ 0) : s.queueCreate recq g = s.queueSts false (s.createResult recq g b) := by
  
  conv => lhs; fun; fun; fun; delta State.queueCreate
  simp only [h]
  exact if_pos hr

theorem queueCreate_made (hr : s.createResult recq g b = 0) :
    s.queueCreate recq g = (if recq then s.setRqueue g (queueOf b) else s.setQueue g (queueOf b)).queueSts false 0 := by
  
  conv => lhs; fun; fun; fun; delta State.queueCreate
  simp only [h]
  exact if_neg (not_not.mpr hr)

end

theorem exec_queueCreate_right (req : BitVec 16) {v : Word} (s : State) (hk : bits v 31 16 = 0x90E5) :
    (∀ b, s.schRead (s.addr48 Reg.QUEUE_DESC_LO Reg.QUEUE_DESC_HI) 64 = some b →
      (s.createResult (bit v 15) (bits v 10 0) b = 0 → ∃ t, exec (.queueCreate req v) s = .next t ∧ t.rd Reg.QUEUE_STS = 0 ∧
        (bit v 15 = true → t.rqueue (bits v 10 0) = queueOf b ∧ t.qs = s.qs ∧ ∀ k, k ≠ bits v 10 0 → t.rqueue k = s.rqueue k) ∧
        (bit v 15 = false → t.queue (bits v 10 0) = queueOf b ∧ t.rqs = s.rqs ∧ ∀ k, k ≠ bits v 10 0 → t.queue k = s.queue k)) ∧
      (s.createResult (bit v 15) (bits v 10 0) b ≠ 0 → ∃ t, exec (.queueCreate req v) s = .next t ∧ t.qs = s.qs ∧ t.rqs = s.rqs ∧
        t.rd Reg.QUEUE_STS = BitVec.ofNat 32 (s.createResult (bit v 15) (bits v 10 0) b))) ∧
    (s.schRead (s.addr48 Reg.QUEUE_DESC_LO Reg.QUEUE_DESC_HI) 64 = none → ∃ t, exec (.queueCreate req v) s = .next t ∧ t.qs = s.qs ∧ t.rqs = s.rqs ∧
      t.rd Reg.QUEUE_STS = 2) := by
  refine ⟨fun b hb => ⟨fun hr => ⟨_, exec_queueCreate ((queueCmd_create req hk).trans (queueCreate_made hb hr)), ?_⟩,
    fun hr => ⟨_, exec_queueCreate ((queueCmd_create req hk).trans (queueCreate_refused hb hr)), ?_⟩⟩,
    fun hn => ⟨_, exec_queueCreate ((queueCmd_create req hk).trans (queueCreate_unread hn)), ?_⟩⟩
  · simp only [qcmd_rd, qcmd_qs, qcmd_rqs, qcmd_queue, qcmd_rqueue, queueSts_result, queueSts_qs, queueSts_rqs, queueSts_queue, queueSts_rqueue]
    refine ⟨rfl, fun h => ?_, fun h => ?_⟩ <;> rw [h]
    · exact ⟨rqueue_setRqueue s _ _, rfl, fun k hk => rqueue_setRqueue_ne s _ hk⟩
    · exact ⟨queue_setQueue s _ _, rfl, fun k hk => queue_setQueue_ne s _ hk⟩
  · rw [qcmd_qs, qcmd_rqs, qcmd_rd, queueSts_qs, queueSts_rqs, queueSts_result]
    exact ⟨rfl, rfl, rfl⟩
  · rw [qcmd_qs, qcmd_rqs, qcmd_rd, queueSts_qs, queueSts_rqs, queueSts_result]
    exact ⟨rfl, rfl, rfl⟩

theorem exec_queueDestroy_record (req : BitVec 16) {v : Word} (s : State) (hk : bits v 31 16 = 0x90E5) (hrec : bit v 15 = true) :
    ((s.rqueue (bits v 10 0)).state = .off → ∃ t, exec (.queueDestroy req v) s = .next t ∧ t.rqs = s.rqs ∧ t.qs = s.qs ∧ t.rd Reg.QUEUE_STS = 4) ∧
    ((s.rqueue (bits v 10 0)).state ≠ .off → ∃ t, exec (.queueDestroy req v) s = .next t ∧ t.rqueue (bits v 10 0) = {} ∧ t.qs = s.qs ∧
      t.rd Reg.QUEUE_STS = 0) := by
  have hcmd := queueCmd_destroy (s := s) req hk
  rw [hrec] at hcmd
  refine ⟨fun h => ⟨_, exec_queueDestroy (hcmd.trans (if_pos h)), ?_⟩, fun h => ⟨_, exec_queueDestroy (hcmd.trans (if_neg h)), ?_⟩⟩
  · rw [qcmd_qs, qcmd_rqs, qcmd_rd, queueSts_qs, queueSts_rqs, queueSts_result]
    exact ⟨rfl, rfl, rfl⟩
  · rw [qcmd_qs, qcmd_rqueue, qcmd_rd, queueSts_qs, queueSts_rqueue, queueSts_result]
    exact ⟨rqueue_setRqueue s _ {}, rfl, rfl⟩

section
variable {s : State} {g : Nat}

theorem queueDestroy_off (h : (s.queue g).state = .off) : s.queueDestroy false g = s.queueSts false 4 := by
  unfold State.queueDestroy
  rw [if_neg (by decide), if_pos h]

theorem queueDestroy_idle (h : (s.queue g).state ≠ .off) (hc : (s.queue g).cur = none) : s.queueDestroy false g = (s.queueSts false 0).queueOff g := by
  unfold State.queueDestroy State.stopQueue
  simp only [queueSts_queue, hc]
  rw [if_neg (by decide), if_neg h, if_neg h, if_pos (by decide)]
  rfl

theorem queueDestroy_executing (h : (s.queue g).state ≠ .off) (hc : (s.queue g).cur ≠ none) :
    s.queueDestroy false g = (s.queueSts true 0).setQueue g { s.queue g with state := .stopped } := by
  have hsome := Option.isSome_iff_ne_none.mpr hc
  have hnone : (s.queue g).cur.isNone = false := by rw [← Option.not_isSome, hsome]; rfl
  unfold State.queueDestroy State.stopQueue
  simp only [queueSts_queue, hsome, hnone]
  rw [if_neg (by decide), if_neg h, if_neg h, if_neg (by decide)]

theorem queueOff_rd (s : State) (g : Nat) : (s.queueOff g).rd Reg.QUEUE_STS = putBit (s.rd Reg.QUEUE_STS) 31 false := rd_wr_same _ _ _

end

theorem exec_queueDestroy_command (req : BitVec 16) {v : Word} (s : State) (hk : bits v 31 16 = 0x90E5) (hcom : bit v 15 = false) :
    ((s.queue (bits v 10 0)).state = .off → ∃ t, exec (.queueDestroy req v) s = .next t ∧ t.qs = s.qs ∧ t.rd Reg.QUEUE_STS = 4) ∧
    ((s.queue (bits v 10 0)).state ≠ .off → (s.queue (bits v 10 0)).cur = none → ∃ t, exec (.queueDestroy req v) s = .next t ∧
      t.queue (bits v 10 0) = {} ∧ t.rd Reg.QUEUE_STS = 0) ∧
    ((s.queue (bits v 10 0)).state ≠ .off → (s.queue (bits v 10 0)).cur ≠ none → ∃ t, exec (.queueDestroy req v) s = .next t ∧
      t.queue (bits v 10 0) = { s.queue (bits v 10 0) with state := .stopped } ∧ t.flag Reg.QUEUE_STS 31 = true) := by
  have hcmd := queueCmd_destroy (s := s) req hk
  rw [hcom] at hcmd
  refine ⟨fun h => ⟨_, exec_queueDestroy (hcmd.trans (queueDestroy_off h)), ?_⟩,
    fun h hc => ⟨_, exec_queueDestroy (hcmd.trans (queueDestroy_idle h hc)), ?_⟩,
    fun h hc => ⟨_, exec_queueDestroy (hcmd.trans (queueDestroy_executing h hc)), ?_⟩⟩
  · rw [qcmd_qs, qcmd_rd, queueSts_qs, queueSts_result]
    exact ⟨rfl, rfl⟩
  · rw [qcmd_queue, qcmd_rd, queue_queueOff, queueOff_rd, queueSts_result]
    exact ⟨rfl, by decide⟩
  · rw [qcmd_queue, queue_setQueue, taken_flag _ _ (by decide)]
    refine ⟨rfl, ?_⟩
    rw [flag_congr (rd_congr (setQueue_same (f := .regs) _ _ _ (by decide)) _)]
    unfold State.flag
    rw [queueSts_rd]
    decide

theorem exec_queueCmd_wrong (req : BitVec 16) {v : Word} (s : State) (hk : bits v 31 16 ≠ 0x90E5) (cmd : Instr)
    (hc : cmd ∈ [Instr.queueCreate req v, .queueDestroy req v]) : ∃ t, exec cmd s = .next t ∧ t.qs = s.qs ∧ t.rqs = s.rqs := by
  simp only [List.mem_cons, List.not_mem_nil, or_false] at hc
  rcases hc with rfl | rfl
  · refine ⟨_, exec_queueCreate (queueCmd_wrong req (.inl rfl) hk), ?_⟩
    rw [qcmd_qs, qcmd_rqs]
    exact ⟨keyViol_same (f := .qs) _ _ _ (by decide), keyViol_same (f := .rqs) _ _ _ (by decide)⟩
  · refine ⟨_, exec_queueDestroy (queueCmd_wrong req (.inr rfl) hk), ?_⟩
    rw [qcmd_qs, qcmd_rqs]
    exact ⟨keyViol_same (f := .qs) _ _ _ (by decide), keyViol_same (f := .rqs) _ _ _ (by decide)⟩

end Sys2Proof.Machine
end

section
/-! SUPPORT. Doorbells, fetching and coalescing (R397, R399, R401, R402), clause by clause. -/
namespace Sys2Proof.Machine

/-! ## Doorbells (R402) -/

/-- The queue that a doorbell names. -/
def doorHit (t : Tab Queue) (fn : Option Nat) (n : Nat) : Option Nat := fn.elim (some n) (fun f => ownedQueue t f n)

section
variable {s : State} {recq : Bool} {fn : Option Nat} {n : Nat} {k : State → Nat → State}

theorem doorbell_hit {g : Nat} (h : doorHit (if recq then s.rqs else s.qs) fn n = some g) : s.doorbell recq fn n true k = k s g := by
  unfold State.doorbell
  rw [if_neg (by decide)]
  cases fn with
  | none => exact congrArg (k s) (Option.some.inj h)
  | some f =>
    have h' : ownedQueue (if recq then s.rqs else s.qs) f n = some g := h
    simp only [h']

theorem doorbell_miss (h : doorHit (if recq then s.rqs else s.qs) fn n = none) : s.doorbell recq fn n true k = s.dbBad := by
  unfold State.doorbell
  rw [if_neg (by decide)]
  cases fn with
  | none => exact nomatch h
  | some f =>
    have h' : ownedQueue (if recq then s.rqs else s.qs) f n = none := h
    simp only [h']

theorem doorbell_partial : s.doorbell recq fn n false k = s.dbBad := if_pos rfl

/-- A doorbell of a bad width, of no queue or of a queue that is OFF is a bad one. -/
theorem doorbell_bad {whole : Bool} (hoff : ∀ g, doorHit (if recq then s.rqs else s.qs) fn n = some g →
      (whole = true → k s g = s.dbBad)) : s.doorbell recq fn n whole k = s.dbBad := by
  cases whole
  · exact doorbell_partial
  · cases h : doorHit (if recq then s.rqs else s.qs) fn n with
    | none => exact doorbell_miss h
    | some g => rw [doorbell_hit h]; exact hoff g h rfl

end

section
variable {s : State} {g : Nat} {v : Word}

theorem tailDb_off (h : (s.queue g).state = .off) : s.tailDb g v = s.dbBad := if_pos h

theorem tailDb_still (h : bits v 15 0 = (s.queue g).tail) (hs : (s.queue g).state ≠ .off) : s.tailDb g v = s :=
  (if_neg hs).trans (if_pos (.inl h))

theorem tailDb_moves (hs : (s.queue g).state = .run) (hf : s.tagFenced (s.queue g) = false) (hne : bits v 15 0 ≠ (s.queue g).tail)
    (hfit : between (s.queue g).head (bits v 15 0) ≤ 2 ^ (s.queue g).logN)
    (hend : s.slotsEnd (s.queue g) (bits v 15 0) (between (s.queue g).tail (bits v 15 0) + 1) (s.queue g).tail = true) :
    s.tailDb g v = s.setQueue g { s.queue g with tail := bits v 15 0 } := by
  unfold State.tailDb
  dsimp only
  rw [if_neg (by rw [hs]; decide), if_neg (by simp [hne, hs, hf]), if_neg (by rw [hend]; simp; omega)]

theorem tailDb_error (hs : (s.queue g).state = .run) (hf : s.tagFenced (s.queue g) = false) (hne : bits v 15 0 ≠ (s.queue g).tail)
    (h : 2 ^ (s.queue g).logN < between (s.queue g).head (bits v 15 0) ∨
      s.slotsEnd (s.queue g) (bits v 15 0) (between (s.queue g).tail (bits v 15 0) + 1) (s.queue g).tail = false) :
    s.tailDb g v = s.queueError g := by
  unfold State.tailDb
  dsimp only
  rw [if_neg (by rw [hs]; decide), if_neg (by simp [hne, hs, hf]), if_pos h]

theorem dbBad_qs : s.dbBad.qs = s.qs := bump_qs _ _
theorem dbBad_rqs : s.dbBad.rqs = s.rqs := bump_rqs _ _
theorem dbBad_count : s.dbBad.rd Reg.HP_CNT_DB_BAD = s.rd Reg.HP_CNT_DB_BAD + 1 := rd_bump_same _ _

end

theorem writeBack_queue (s : State) (q : Queue) (g : Nat) : (s.writeBack q).queue g = s.queue g :=
  queue_congr (writeBack_same (f := .qs) s q (by decide)) g

/-- A queue in ERROR (R397). -/
theorem queueError_in (s : State) (g : Nat) : (s.queueError g).queue g = { s.queue g with state := .error } ∧
    (s.queueError g).flag (hpPage + 0x10) 2 = true ∧ (s.queueError g).rd Reg.HP_CNT_QERR = s.rd Reg.HP_CNT_QERR + 1 := by
  unfold State.queueError
  dsimp only
  generalize { s.queue g with state := QState.error } = q
  have hw (t : State) : Keeps stFlds badUnitReg t (t.writeBack q) := .writeBack (.refl t)
  refine ⟨?_, ?_, ?_⟩
  · rw [writeBack_queue, queue_congr (raise_qs _ _ _), queue_congr (bump_qs _ _), queue_setQueue]
  · rw [(hw _).flag 2 (not_logReg (by decide) (by decide) (by decide)) (by decide)]
    exact flag_raise_self _ _ 2 (by decide) (not_msgReg (by decide) (by decide))
  · rw [(hw _).rd _ (not_logReg (by decide) (by decide) (by decide)) (by decide), rd_raise _ _ _ (not_msgReg (by decide) (by decide)) (by decide),
      rd_bump_same, rd_congr (setQueue_same (f := .regs) s g q (by decide))]

/-- The fields that a tail doorbell may change. -/
def tailFlds : List Fld := [.mem, .regs, .holding, .hevt, .msix, .qs, .ue, .out, .sc, .harts]

section
variable {fn : Option (Fin 129)} {n : Fin 2048} {v : Word} {s : State} {g : Nat}

theorem exec_tailDoorbell {whole : Bool} {u : State} (h : s.doorbell false (fn.map Fin.val) n whole (fun s g => s.tailDb g v) = u) :
    exec (.tailDoorbell fn n v whole) s = .next (s.taken u tailFlds) := by subst h; rfl

theorem exec_cqHeadDoorbell {whole : Bool} {u : State} (h : s.doorbell false (fn.map Fin.val) n whole (fun s g => s.cqHeadDb g v) = u) :
    exec (.cqHeadDoorbell fn n v whole) s = .next (s.taken u [.regs, .qs]) := by subst h; rfl

variable (hit : doorHit s.qs (fn.map Fin.val) n = some g)
include hit

theorem exec_cqHead_moves (hs : (s.queue g).state ≠ .off) : ∃ t, exec (.cqHeadDoorbell fn n v true) s = .next t ∧
    t.queue g = { s.queue g with cqHead := bits v 15 0 } ∧ ∀ k, k ≠ g → t.queue k = s.queue k := by
  refine ⟨_, exec_cqHeadDoorbell ((doorbell_hit (recq := false) hit).trans (if_neg hs)), ?_, fun k hk => ?_⟩
  · rw [taken_queue _ _ (by decide), queue_setQueue]
  · rw [taken_queue _ _ (by decide), queue_setQueue_ne _ _ hk]

theorem exec_tail_moves (hs : (s.queue g).state = .run) (hf : s.tagFenced (s.queue g) = false) (hne : bits v 15 0 ≠ (s.queue g).tail)
    (hfit : between (s.queue g).head (bits v 15 0) ≤ 2 ^ (s.queue g).logN)
    (hend : s.slotsEnd (s.queue g) (bits v 15 0) (between (s.queue g).tail (bits v 15 0) + 1) (s.queue g).tail = true) :
    ∃ t, exec (.tailDoorbell fn n v true) s = .next t ∧ t.queue g = { s.queue g with tail := bits v 15 0 } ∧ ∀ k, k ≠ g → t.queue k = s.queue k := by
  refine ⟨_, exec_tailDoorbell ((doorbell_hit (recq := false) hit).trans (tailDb_moves hs hf hne hfit hend)), ?_, fun k hk => ?_⟩
  · rw [taken_queue _ _ (by decide), queue_setQueue]
  · rw [taken_queue _ _ (by decide), queue_setQueue_ne _ _ hk]

theorem exec_tail_error (hs : (s.queue g).state = .run) (hf : s.tagFenced (s.queue g) = false) (hne : bits v 15 0 ≠ (s.queue g).tail)
    (h : 2 ^ (s.queue g).logN < between (s.queue g).head (bits v 15 0) ∨
      s.slotsEnd (s.queue g) (bits v 15 0) (between (s.queue g).tail (bits v 15 0) + 1) (s.queue g).tail = false) :
    ∃ t, exec (.tailDoorbell fn n v true) s = .next t ∧ t.queue g = { s.queue g with state := .error } ∧ t.flag (hpPage + 0x10) 2 = true ∧
      t.rd Reg.HP_CNT_QERR = s.rd Reg.HP_CNT_QERR + 1 := by
  refine ⟨_, exec_tailDoorbell ((doorbell_hit (recq := false) hit).trans (tailDb_error hs hf hne h)), ?_⟩
  rw [taken_queue _ _ (by decide), taken_flag _ _ (by decide), taken_rd _ _ (by decide)]
  exact queueError_in s g

theorem exec_tail_still (hv : bits v 15 0 = (s.queue g).tail) (hs : (s.queue g).state ≠ .off) :
    ∃ t, exec (.tailDoorbell fn n v true) s = .next t ∧ t.qs = s.qs := by
  refine ⟨_, exec_tailDoorbell ((doorbell_hit (recq := false) hit).trans (tailDb_still hv hs)), ?_⟩
  rw [taken_qs, if_pos (by decide)]

end

theorem exec_doorbell_bad (fn : Option (Fin 129)) (n : Fin 2048) (v : Word) (s : State) (whole : Bool)
    (h : whole = false ∨ doorHit s.qs (fn.map Fin.val) n = none ∨ ∃ g, doorHit s.qs (fn.map Fin.val) n = some g ∧ (s.queue g).state = .off)
    (cmd : Instr) (hc : cmd ∈ [Instr.tailDoorbell fn n v whole, .cqHeadDoorbell fn n v whole]) :
    ∃ t, exec cmd s = .next t ∧ t.qs = s.qs ∧ t.rd Reg.HP_CNT_DB_BAD = s.rd Reg.HP_CNT_DB_BAD + 1 := by
  have hoff (g : Nat) (hg : doorHit s.qs (fn.map Fin.val) n = some g) (hw : whole = true) : (s.queue g).state = .off := by
    rcases h with h | h | ⟨k, hk, h⟩
    · rw [h] at hw; exact nomatch hw
    · rw [h] at hg; exact nomatch hg
    · exact Option.some.inj (hk.symm.trans hg) ▸ h
  simp only [List.mem_cons, List.not_mem_nil, or_false] at hc
  rcases hc with rfl | rfl
  · refine ⟨_, exec_tailDoorbell (doorbell_bad (fun g hg hw => if_pos (hoff g hg hw))), ?_⟩
    rw [taken_qs, if_pos (by decide), taken_rd _ _ (by decide)]
    exact ⟨dbBad_qs, dbBad_count⟩
  · refine ⟨_, exec_cqHeadDoorbell (doorbell_bad (fun g hg hw => if_pos (hoff g hg hw))), ?_⟩
    rw [taken_qs, if_pos (by decide), taken_rd _ _ (by decide)]
    exact ⟨dbBad_qs, dbBad_count⟩

theorem exec_recordHeadDoorbell {fn : Option (Fin 129)} {n : Fin 512} {v : Word} {s : State} {whole : Bool} {u : State}
    (h : s.doorbell true (fn.map Fin.val) n whole (fun s g => s.recHeadDb g v) = u) :
    exec (.recordHeadDoorbell fn n v whole) s = .next (s.taken u [.regs, .rqs]) := by subst h; rfl

theorem exec_recordHead (fn : Option (Fin 129)) (n : Fin 512) (v : Word) (s : State) :
    (∀ g, doorHit s.rqs (fn.map Fin.val) n = some g → (s.rqueue g).state ≠ .off → ∃ t, exec (.recordHeadDoorbell fn n v true) s = .next t ∧
      t.rqueue g = { s.rqueue g with head := bits v 15 0 } ∧ ∀ k, k ≠ g → t.rqueue k = s.rqueue k) ∧
    (∀ whole, (whole = false ∨ doorHit s.rqs (fn.map Fin.val) n = none ∨ ∃ g, doorHit s.rqs (fn.map Fin.val) n = some g ∧ (s.rqueue g).state = .off) →
      ∃ t, exec (.recordHeadDoorbell fn n v whole) s = .next t ∧ t.rqs = s.rqs ∧ t.rd Reg.HP_CNT_DB_BAD = s.rd Reg.HP_CNT_DB_BAD + 1) := by
  refine ⟨fun g hit hs => ⟨_, exec_recordHeadDoorbell ((doorbell_hit (recq := true) hit).trans (if_neg hs)), ?_, fun k hk => ?_⟩,
    fun whole h => ⟨_, exec_recordHeadDoorbell (doorbell_bad (recq := true) (fun g hg hw => if_pos ?_)), ?_⟩⟩
  · rw [taken_rqueue _ _ (by decide), rqueue_setRqueue]
  · rw [taken_rqueue _ _ (by decide), rqueue_setRqueue_ne _ _ hk]
  · rcases h with h | h | ⟨k, hk, h⟩
    · rw [h] at hw; exact nomatch hw
    · rw [show doorHit s.rqs (fn.map Fin.val) n = _ from hg] at h; exact nomatch h
    · exact Option.some.inj (hk.symm.trans hg) ▸ h
  · rw [taken_rqs, if_pos (by decide), taken_rd _ _ (by decide)]
    exact ⟨dbBad_rqs, dbBad_count⟩

end Sys2Proof.Machine
end

section
/-! SUPPORT. Completions of queue commands, and the fetching of commands (R397 to R401). -/
namespace Sys2Proof.Machine

/-! ## The bytes of a fetched command -/

theorem toLe_leNat (b : Bytes) (n : Nat) : toLe b.length (leNat b + 256 ^ b.length * n) = b := by
  induction b generalizing n with
  | nil => rfl
  | cons x b ih =>
    have hx := x.isLt
    have hsplit : leNat (x :: b) + 256 ^ (b.length + 1) * n = x.toNat + 256 * (leNat b + 256 ^ b.length * n) := by
      simp only [leNat, pow_succ]; ring
    have hdiv : (leNat (x :: b) + 256 ^ (b.length + 1) * n) / 256 = leNat b + 256 ^ b.length * n := by omega
    have hhead : BitVec.ofNat 8 (leNat (x :: b) + 256 ^ (b.length + 1) * n) = x := by
      apply BitVec.eq_of_toNat_eq
      rw [BitVec.toNat_ofNat]
      omega
    show BitVec.ofNat 8 _ :: toLe b.length _ = _
    rw [List.length_cons, hdiv, ih, hhead]

/-- The bytes of the command that 64 bytes make are these bytes. -/
theorem cmdBytes_ofNat {b : Bytes} (h : b.length = 64) : cmdBytes (BitVec.ofNat 512 (leNat b)) = b := by
  have hlt := leNat_lt b
  rw [h, show (256 : Nat) = 2 ^ 8 from rfl, ← pow_mul] at hlt
  simp only [Nat.reduceMul] at hlt
  unfold cmdBytes
  rw [BitVec.toNat_ofNat, Nat.mod_eq_of_lt hlt]
  have := toLe_leNat b 0
  rw [h, Nat.mul_zero, Nat.add_zero] at this
  exact this

theorem leAt_append_left (a b : Bytes) {i k : Nat} (h : i + k ≤ a.length) : leAt (a ++ b) i k = leAt a i k := by
  unfold leAt
  rw [List.drop_append_of_le_length (by omega), List.take_append_of_le_length (by rw [List.length_drop]; omega)]

theorem opcodeOf_ofNat {b0 b1 : Bytes} (h0 : b0.length = 32) (h1 : b1.length = 32) :
    opcodeOf (BitVec.ofNat 512 (leNat (b0 ++ b1))) = leAt b0 16 2 := by
  unfold opcodeOf
  rw [cmdBytes_ofNat (by rw [List.length_append, h0, h1]), leAt_append_left _ _ (by omega)]

theorem length_ringSlot {s : State} {q : Queue} {c : Nat} {b : Bytes} (h : s.ringSlot q c = some b) : b.length = 32 := by
  unfold State.ringSlot at h
  dsimp only at h
  split at h
  · rw [← Option.some.inj h, length_ld]
  · exact nomatch h

/-! ## Completions (R398) -/

theorem qMessage_queue (s : State) (q : Queue) (g : Nat) : (s.qMessage q).queue g = s.queue g :=
  queue_congr (qMessage_same (f := .qs) s q (by decide)) g

theorem postEntries_queue_ne (s : State) {g k : Nat} (q : Queue) (es : List Bytes) (h : k ≠ g) : (s.postEntries g q es).queue k = s.queue k := by
  unfold State.postEntries
  dsimp only
  have hfold (l : List (Bytes × Nat)) (t : State) : (l.foldl (fun (t : State) (e : Bytes × Nat) =>
      if t.canWrite q.fnOf (q.cq + 64 * ((q.cqTail + e.2) % 2 ^ q.logM)) 64 = .ok
      then t.stUnit (q.cq + 64 * ((q.cqTail + e.2) % 2 ^ q.logM)) e.1 else t) t).queue k = t.queue k :=
    queue_congr (foldl_same (f := .qs) _ (fun t e => Fld.same_ite (stUnit_same _ _ _ (by decide)) (Fld.same_refl _ t)) l t) k
  split
  · rw [qMessage_queue, writeBack_queue, queue_setQueue_ne _ _ h, hfold]
  · rw [writeBack_queue, queue_setQueue_ne _ _ h, hfold]

/-- A command of a queue that goes on completes: the queue executes none, its head and its completion tail have moved on, and any other
queue is as it was. -/
theorem complete_done (s : State) (g : Nat) (st : St) (r : Nat) {d : BitVec 512} (hc : (s.queue g).cur = some d)
    (hs : (s.queue g).state = .run ∨ (s.queue g).state = .error) :
    ((s.complete g st r).queue g).cur = none ∧ ((s.complete g st r).queue g).head = ((s.queue g).head + slotsOf (opcodeOf d)) % 65536 ∧
    ((s.complete g st r).queue g).cqTail = ((s.queue g).cqTail + 1) % 65536 ∧ ((s.complete g st r).queue g).state = (s.queue g).state ∧
    ∀ k, k ≠ g → (s.complete g st r).queue k = s.queue k := by
  unfold State.complete
  simp only [hc]
  have key (q : Queue) (e : Bytes) (hq : q.cur = none) : ((s.postEntries g q [e]).queue g).cur = none ∧ ((s.postEntries g q [e]).queue g).head = q.head ∧
      ((s.postEntries g q [e]).queue g).cqTail = (q.cqTail + 1) % 65536 ∧ ((s.postEntries g q [e]).queue g).state = q.state ∧
      ∀ k, k ≠ g → (s.postEntries g q [e]).queue k = s.queue k := by
    obtain ⟨h1, h2, h3, h4⟩ := postEntries_queue s g q [e]
    exact ⟨h2.trans hq, h1, h3, h4, fun k hk => postEntries_queue_ne s q [e] hk⟩
  rcases hs with h | h <;> simp only [h]
  · exact key _ _ rfl
  · exact key _ _ rfl

/-! ## Fetching (R399) -/

/-- Queue g may take a command: it runs, executes none, has one waiting, and its ring is open to it. -/
structure State.mayFetch (s : State) (g : Nat) : Prop where
  run : (s.queue g).state = .run
  idle : (s.queue g).cur = none
  waits : (s.queue g).head ≠ (s.queue g).tail
  live : s.tagFenced (s.queue g) = false
  slice : (s.queue g).ownerOf.1 < 8 → s.sliceBlocks (s.queue g).ownerOf.1 (s.queue g).ownerOf.2
    ((s.queue g).ring + 32 * ((s.queue g).head % 2 ^ (s.queue g).logN)) 32 = false

/-- The entries that completions still have room for. -/
def Queue.room (q : Queue) : Nat := 2 ^ q.logM - (between q.cqHead q.cqTail + q.reserved)

section
variable {s : State} {g : Nat}

theorem cmdFetch_idle (h : (s.queue g).state ≠ .run ∨ (s.queue g).cur ≠ none ∨ (s.queue g).head = (s.queue g).tail) : s.cmdFetch g = s := by
  refine if_pos ?_
  rcases h with h | h | h
  · exact .inl h
  · exact .inr (.inl (Option.isSome_iff_ne_none.mpr h))
  · exact .inr (.inr (.inl h))

variable (h : s.mayFetch g)
include h

theorem State.mayFetch.passes : ¬ ((s.queue g).state ≠ .run ∨ (s.queue g).cur.isSome = true ∨ (s.queue g).head = (s.queue g).tail ∨
    s.tagFenced (s.queue g) = true) := by
  simp [h.run, h.idle, h.waits, h.live]

theorem State.mayFetch.inSlice : ¬ ((s.queue g).ownerOf.1 < 8 ∧ s.sliceBlocks (s.queue g).ownerOf.1 (s.queue g).ownerOf.2
    ((s.queue g).ring + 32 * ((s.queue g).head % 2 ^ (s.queue g).logN)) 32 = true) := fun ⟨h1, h2⟩ => by
  rw [h.slice h1] at h2; exact nomatch h2

theorem cmdFetch_unread (hr : s.ringSlot (s.queue g) (s.queue g).head = none) : s.cmdFetch g = s.queueError g := by
  conv => lhs; fun; fun; delta State.cmdFetch
  dsimp only
  rw [if_neg h.passes, if_neg h.inSlice]
  simp only [hr]

variable {b0 : Bytes} (hr : s.ringSlot (s.queue g) (s.queue g).head = some b0)
include hr

theorem cmdFetch_noRoom (hroom : (s.queue g).room < (if leAt b0 16 2 = 0x69 then 3 else 1)) : s.cmdFetch g = s := by
  conv => lhs; fun; fun; delta State.cmdFetch
  dsimp only
  rw [if_neg h.passes, if_neg h.inSlice]
  simp only [hr]
  exact if_pos hroom

/-- The state in which queue g executes the command of two slots. -/
def State.fetched (s : State) (g : Nat) (b0 b1 : Bytes) : State :=
  s.setQueue g { s.queue g with cur := some (BitVec.ofNat 512 (leNat (b0 ++ b1))) }

theorem cmdFetch_fetches (hroom : (if leAt b0 16 2 = 0x69 then 3 else 1) ≤ (s.queue g).room) {b1 : Bytes}
    (h1 : (if slotsOf (leAt b0 16 2) = 1 then some (zeros 32) else s.ringSlot (s.queue g) (((s.queue g).head + 1) % 65536)) = some b1) :
    s.cmdFetch g = if opTarget (s.queue g).target (leAt b0 16 2) then s.fetched g b0 b1
      else ((s.fetched g b0 b1).cmdErr (s.queue g).target).complete g .badOpcode := by
  conv => lhs; fun; fun; delta State.cmdFetch
  dsimp only
  rw [if_neg h.passes, if_neg h.inSlice]
  simp only [hr]
  unfold Queue.room at hroom
  rw [if_neg (Nat.not_lt.mpr hroom)]
  simp only [h1]
  rfl

end

theorem fetched_queue (s : State) (g : Nat) (b0 b1 : Bytes) : (s.fetched g b0 b1).queue g = { s.queue g with cur := some (BitVec.ofNat 512 (leNat (b0 ++ b1))) } :=
  queue_setQueue _ _ _

theorem fetched_queue_ne (s : State) {g k : Nat} (b0 b1 : Bytes) (h : k ≠ g) : (s.fetched g b0 b1).queue k = s.queue k := queue_setQueue_ne _ _ h

theorem cmdErr_qs (s : State) (n : Nat) : (s.cmdErr n).qs = s.qs := by
  unfold State.cmdErr
  split
  · exact raise_qs _ _ _
  · split
    · exact raise_qs _ _ _
    · rfl

end Sys2Proof.Machine
end

section
/-! SUPPORT. The rows of fetching and of COAL_TIMER, and the obligation on the queue engine. -/
namespace Sys2Proof.Machine

/-- The fields that the fetching of a command may change. -/
def fetchFlds : List Fld := [.mem, .regs, .holding, .hevt, .msix, .qs, .ue, .out, .gctxs, .sc, .harts]

theorem exec_cmdFetch {g : Fin 2048} {s u : State} (h : s.cmdFetch g = u) : exec (.cmdFetch g) s = .next (s.taken u fetchFlds) := by subst h; rfl

section
variable {g : Fin 2048} {s : State}

theorem exec_cmdFetch_idle (h : (s.queue g).state ≠ .run ∨ (s.queue g).cur ≠ none ∨ (s.queue g).head = (s.queue g).tail) :
    ∃ t, exec (.cmdFetch g) s = .next t ∧ t.qs = s.qs ∧ t.regs = s.regs := by
  refine ⟨_, exec_cmdFetch (cmdFetch_idle h), ?_⟩
  rw [taken_qs, taken_regs, if_pos (by decide), if_pos (by decide)]
  exact ⟨rfl, rfl⟩

variable (h : s.mayFetch g)
include h

theorem exec_cmdFetch_unread (hr : s.ringSlot (s.queue g) (s.queue g).head = none) :
    ∃ t, exec (.cmdFetch g) s = .next t ∧ t.queue g = { s.queue g with state := .error } ∧ t.flag (hpPage + 0x10) 2 = true := by
  refine ⟨_, exec_cmdFetch (cmdFetch_unread h hr), ?_⟩
  rw [taken_queue _ _ (by decide), taken_flag _ _ (by decide)]
  exact ⟨(queueError_in s g).1, (queueError_in s g).2.1⟩

variable {b0 : Bytes} (hr : s.ringSlot (s.queue g) (s.queue g).head = some b0)
include hr

theorem exec_cmdFetch_noRoom (hroom : (s.queue g).room < (if leAt b0 16 2 = 0x69 then 3 else 1)) :
    ∃ t, exec (.cmdFetch g) s = .next t ∧ t.qs = s.qs := by
  refine ⟨_, exec_cmdFetch (cmdFetch_noRoom h hr hroom), ?_⟩
  rw [taken_qs, if_pos (by decide)]

variable (hroom : (if leAt b0 16 2 = 0x69 then 3 else 1) ≤ (s.queue g).room) {b1 : Bytes}
  (h1 : (if slotsOf (leAt b0 16 2) = 1 then some (zeros 32) else s.ringSlot (s.queue g) (((s.queue g).head + 1) % 65536)) = some b1)
include hroom h1

theorem exec_cmdFetch_fetches (ht : opTarget (s.queue g).target (leAt b0 16 2) = true) :
    ∃ t, exec (.cmdFetch g) s = .next t ∧ t.queue g = { s.queue g with cur := some (BitVec.ofNat 512 (leNat (b0 ++ b1))) } ∧
      t.mem = canonMem s.mem ∧ t.regs = s.regs ∧ ∀ k, k ≠ g.val → t.queue k = s.queue k := by
  refine ⟨_, exec_cmdFetch ((cmdFetch_fetches h hr hroom h1).trans (if_pos ht)), ?_, ?_, ?_, fun k hk => ?_⟩
  · rw [taken_queue _ _ (by decide), fetched_queue]
  · rw [taken_mem, if_pos (by decide)]; rfl
  · rw [taken_regs, if_pos (by decide)]; rfl
  · rw [taken_queue _ _ (by decide), fetched_queue_ne _ _ _ hk]

omit h hr hroom in
theorem length_second : b1.length = 32 := by
  split at h1
  · rw [← Option.some.inj h1]; decide
  · exact length_ringSlot h1

theorem exec_cmdFetch_badOpcode (ht : opTarget (s.queue g).target (leAt b0 16 2) = false) :
    ∃ t, exec (.cmdFetch g) s = .next t ∧ (t.queue g).cur = none ∧ (t.queue g).head = ((s.queue g).head + slotsOf (leAt b0 16 2)) % 65536 ∧
      (t.queue g).cqTail = ((s.queue g).cqTail + 1) % 65536 ∧ (t.queue g).state = .run ∧ ∀ k, k ≠ g.val → t.queue k = s.queue k := by
  have hq : ((s.fetched g b0 b1).cmdErr (s.queue g).target).queue g = { s.queue g with cur := some (BitVec.ofNat 512 (leNat (b0 ++ b1))) } :=
    (queue_congr (cmdErr_qs _ _) _).trans (fetched_queue s g b0 b1)
  obtain ⟨hcur, hhead, htail, hstate, hother⟩ := complete_done ((s.fetched g b0 b1).cmdErr (s.queue g).target) g .badOpcode 0
    (d := BitVec.ofNat 512 (leNat (b0 ++ b1))) (by rw [hq]) (.inl (by rw [hq]; exact h.run))
  rw [hq] at hhead htail hstate
  rw [opcodeOf_ofNat (length_ringSlot hr) (length_second h1)] at hhead
  refine ⟨_, exec_cmdFetch ((cmdFetch_fetches h hr hroom h1).trans (if_neg (by rw [ht]; decide))), ?_, ?_, ?_, ?_, fun k hk => ?_⟩ <;>
    rw [taken_queue _ _ (by decide)]
  · exact hcur
  · exact hhead
  · exact htail
  · exact hstate.trans h.run
  · exact (hother k hk).trans ((queue_congr (cmdErr_qs _ _) k).trans (fetched_queue_ne s b0 b1 hk))

end

/-! ## Coalescing (R401) -/

/-- The state with other queues. -/
def State.withQueues (s : State) (x y : Tab Queue) : State := { s with qs := x, rqs := y }

section
variable (s : State) (x y : Tab Queue)

theorem setFlag_withQueues (a i : Nat) (b : Bool) : (s.withQueues x y).setFlag a i b = (s.setFlag a i b).withQueues x y := rfl

theorem msixSend_withQueues (f v : Nat) : (s.withQueues x y).msixSend f v = (s.msixSend f v).withQueues x y := by
  unfold State.msixSend
  dsimp only
  rw [apply_ite (State.withQueues · x y), apply_ite (State.withQueues · x y)]
  rfl

theorem deliver_withQueues (c : Nat) : (s.withQueues x y).deliver c = (s.deliver c).withQueues x y := by
  have hcfg : (s.withQueues x y).chanCfg c = s.chanCfg c := rfl
  have hpend : (s.withQueues x y).chanPend c = s.chanPend c := rfl
  have hhold : (s.withQueues x y).holding = s.holding := rfl
  have hset (t : State) (n : Nat) : (if n = 0 then t.withQueues x y else { t.withQueues x y with holding := c :: (t.withQueues x y).holding }) =
      (if n = 0 then t else { t with holding := c :: t.holding } : State).withQueues x y := by split <;> rfl
  unfold State.deliver
  rw [hcfg, hpend, hhold, apply_ite (State.withQueues · x y)]
  dsimp only
  rw [setFlag_withQueues, hset]
  split
  · rfl
  · split
    · exact msixSend_withQueues _ x y _ _
    · rfl
    · rfl

/-- What a queue's message does depends on no queue. -/
theorem qMessage_withQueues (q : Queue) : (s.withQueues x y).qMessage q = (s.qMessage q).withQueues x y := by
  unfold State.qMessage
  rw [apply_ite (State.withQueues · x y), apply_ite (State.withQueues · x y)]
  unfold State.signal
  rw [setFlag_withQueues, deliver_withQueues, msixSend_withQueues]

end

theorem coalTimer_due {s : State} {record : Bool} {g : Nat} {q : Queue} (hq : (if record then s.rqueue g else s.queue g) = q)
    (hs : q.state = .run ∨ q.state = .error) (hu : 0 < q.unsig) (hd : q.unsigAt + q.coalUs * 1000 ≤ s.now) :
    s.coalTimer record g = (s.qMessage q).withQueues (if record then s.qs else s.qs.set {} g { q with unsig := 0 })
      (if record then s.rqs.set {} g { q with unsig := 0 } else s.rqs) := by
  have hmsg : ∀ t : State, t.qMessage { q with unsig := 0 } = t.qMessage q := fun _ => rfl
  unfold State.coalTimer
  dsimp only
  rw [hq, if_pos ⟨hs, hu, hd⟩, hmsg, ← qMessage_withQueues]
  cases record <;> rfl

theorem exec_coalTimer (record : Bool) (g : Fin 2048) (s : State) {q : Queue} (hq : (if record then s.rqueue g else s.queue g) = q) :
    ((q.state = .run ∨ q.state = .error) → 0 < q.unsig → q.unsigAt + q.coalUs * 1000 ≤ s.now → ∃ t, exec (.coalTimer record g) s = .next t ∧
      (if record then t.rqueue g else t.queue g) = { q with unsig := 0 } ∧ t.out = (s.qMessage q).out ∧ t.msix = (s.qMessage q).msix) ∧
    ((q.unsig = 0 ∨ s.now < q.unsigAt + q.coalUs * 1000) → ∃ t, exec (.coalTimer record g) s = .next t ∧ t.qs = s.qs ∧ t.rqs = s.rqs ∧ t.out = s.out) := by
  refine ⟨fun hs hu hd => ⟨_, rfl, ?_⟩, fun h => ⟨_, rfl, ?_⟩⟩
  · rw [taken_rqueue _ _ (by decide), taken_queue _ _ (by decide), taken_out, taken_msix, coalTimer_due hq hs hu hd]
    refine ⟨?_, rfl, rfl⟩
    cases record
    · exact Tab.get_set_same (α := Queue) {} s.qs g.val _
    · exact Tab.get_set_same (α := Queue) {} s.rqs g.val _
  · have he : s.coalTimer record g = s := by
      unfold State.coalTimer
      dsimp only
      rw [hq]
      exact if_neg (by omega)
    rw [taken_qs, if_pos (by decide), taken_rqs, if_pos (by decide), taken_out, if_pos (by decide), he]
    exact ⟨rfl, rfl, rfl⟩

/-! ## The obligation -/

theorem exec_commandDoorbells (fn : Option (Fin 129)) (n : Fin 2048) (v : Word) (s : State) :
    (∀ g, doorHit s.qs (fn.map Fin.val) n = some g → let q := s.queue g
      (q.state ≠ .off → ∃ t, exec (.cqHeadDoorbell fn n v true) s = .next t ∧ t.queue g = { q with cqHead := bits v 15 0 } ∧ ∀ k, k ≠ g → t.queue k = s.queue k) ∧
      (q.state = .run → s.tagFenced q = false → bits v 15 0 ≠ q.tail →
        (between q.head (bits v 15 0) ≤ 2 ^ q.logN → s.slotsEnd q (bits v 15 0) (between q.tail (bits v 15 0) + 1) q.tail = true →
          ∃ t, exec (.tailDoorbell fn n v true) s = .next t ∧ t.queue g = { q with tail := bits v 15 0 } ∧ ∀ k, k ≠ g → t.queue k = s.queue k) ∧
        ((2 ^ q.logN < between q.head (bits v 15 0) ∨ s.slotsEnd q (bits v 15 0) (between q.tail (bits v 15 0) + 1) q.tail = false) →
          ∃ t, exec (.tailDoorbell fn n v true) s = .next t ∧ t.queue g = { q with state := .error } ∧ t.flag (hpPage + 0x10) 2 = true ∧
            t.rd Reg.HP_CNT_QERR = s.rd Reg.HP_CNT_QERR + 1)) ∧
      (bits v 15 0 = q.tail → q.state ≠ .off → ∃ t, exec (.tailDoorbell fn n v true) s = .next t ∧ t.qs = s.qs)) ∧
    (∀ whole, (whole = false ∨ doorHit s.qs (fn.map Fin.val) n = none ∨ (∃ g, doorHit s.qs (fn.map Fin.val) n = some g ∧ (s.queue g).state = .off)) →
      ∀ cmd, cmd ∈ [Instr.tailDoorbell fn n v whole, .cqHeadDoorbell fn n v whole] →
        ∃ t, exec cmd s = .next t ∧ t.qs = s.qs ∧ t.rd Reg.HP_CNT_DB_BAD = s.rd Reg.HP_CNT_DB_BAD + 1) :=
  ⟨fun _ hit => ⟨exec_cqHead_moves hit, fun hs hf hne => ⟨exec_tail_moves hit hs hf hne, exec_tail_error hit hs hf hne⟩, exec_tail_still hit⟩,
    exec_doorbell_bad fn n v s⟩

/-- Settles O52: queues created, destroyed, rung, fetched from and signalled, each clause by the lemma of its command. -/
theorem queuesDoorbellsAndFetching : Obligations.QueuesDoorbellsAndFetching := by
  unfold Obligations.QueuesDoorbellsAndFetching
  refine ⟨fun req v s => ⟨fun hk => ?_, exec_queueCmd_wrong req s⟩, fun fn n v s => ?_, fun fn n v s => ?_, fun g s => ⟨?_, exec_cmdFetch_idle⟩,
    fun record g s => exec_coalTimer record g s rfl⟩
  · obtain ⟨hmade, hunread⟩ := exec_queueCreate_right req s hk
    exact ⟨hmade, hunread, exec_queueDestroy_record req s hk, exec_queueDestroy_command req s hk⟩
  · cases fn with
    | none => exact exec_commandDoorbells none n v s
    | some f => exact exec_commandDoorbells (some f) n v s
  · cases fn with
    | none => exact exec_recordHead none n v s
    | some f => exact exec_recordHead (some f) n v s
  · intro hrun hidle hwaits hlive hslice
    have h : s.mayFetch g := ⟨hrun, hidle, hwaits, hlive, hslice⟩
    exact ⟨fun b0 hr => ⟨exec_cmdFetch_noRoom h hr, fun hroom b1 h1 => ⟨exec_cmdFetch_fetches h hr hroom h1, exec_cmdFetch_badOpcode h hr hroom h1⟩⟩,
      exec_cmdFetch_unread h⟩

end Sys2Proof.Machine
end

section
/-! SUPPORT. COPY and SEND (R404, R405), clause by clause. -/
namespace Sys2Proof.Machine

/-! ## What a completion leaves alone -/

theorem postEntries_kept (s : State) (g : Nat) (q : Queue) (es : List Bytes) : Keeps postFlds badUnitReg s (s.postEntries g q es) := by
  unfold State.postEntries
  dsimp only
  have hfold := Keeps.foldl (F := postFlds) (R := badUnitReg) (fun (t : State) (e : Bytes × Nat) =>
      if t.canWrite q.fnOf (q.cq + 64 * ((q.cqTail + e.2) % 2 ^ q.logM)) 64 = .ok
      then t.stUnit (q.cq + 64 * ((q.cqTail + e.2) % 2 ^ q.logM)) e.1 else t) (fun t e => .ite (.stUnit (.refl t)) (.refl t)) es.zipIdx s
  have hpost (x : Queue) := Keeps.writeBack (q := x) (hfold.setQueue (g := g) (q := x))
  exact .ite (.qMessage (hpost _)) (hpost _)

theorem complete_kept {s : State} {g : Nat} (st : St) (r : Nat) (h : s.goesOn g) : Keeps postFlds badUnitReg s (s.complete g st r) := by
  obtain he | ⟨head, d, he⟩ := complete_cases st r h
  · rw [he]; exact .refl s
  · rw [he]; exact postEntries_kept _ _ _ _

theorem mem_out_qMessage {o : Out} {s : State} (h : o ∈ s.out) (q : Queue) : o ∈ (s.qMessage q).out := by
  unfold State.qMessage
  split
  · exact h
  · split
    · exact mem_out_signal h _
    · exact mem_out_msixSend h _ _

theorem mem_out_complete {o : Out} {s : State} {g : Nat} (h : o ∈ s.out) (st : St) (r : Nat) (hg : s.goesOn g) : o ∈ (s.complete g st r).out := by
  obtain he | ⟨head, d, he⟩ := complete_cases st r hg
  · rw [he]; exact h
  · rw [he]
    refine postEntries_keeps (P := fun u => o ∈ u.out) (fun _ => length_of_mem_compEntry) (fun u b k _ _ hu => ?_) (fun u b _ hu => ?_)
      (fun _ _ _ hu => hu) (fun u x hu => mem_out_qMessage hu x) h
    · rw [stUnit_same (f := .out) u _ b (by decide)]; exact hu
    · rw [stUnit_same (f := .out) u _ b (by decide)]; exact hu

/-! ## Plain memory: HBM and host memory -/

section
variable {a : Nat}

theorem mem_stUnit_plain (s : State) (b : Bytes) (h : a ≤ 0xC00000000 ∨ hostBase ≤ a) : (s.stUnit a b).mem = memStore s.mem a b := by
  rcases h with h | h
  · exact mem_stUnit_hbm s b h
  · unfold hostBase at h
    unfold State.stUnit
    rw [if_neg (by omega), if_neg (by omega), if_neg (by omega)]
    exact clearUe_same (f := .mem) _ _ _ (by decide)

theorem devWrite_plain (s : State) (req : Req) (b : Bytes) (h : a ≤ 0xC00000000 ∨ hostBase ≤ a) : s.devWrite req a b = s.stUnit a b := by
  unfold hostBase at h
  unfold State.devWrite State.bulkWrite
  rw [if_neg (by unfold regBase peerBase; omega), if_neg (by unfold tileBase peerBase; omega)]

theorem devRead_plain (s : State) (req : Req) (n : Nat) (h : a ≤ 0xC00000000 ∨ hostBase ≤ a) : s.devRead req a n = (s.ld a n, s) := by
  unfold hostBase at h
  unfold State.devRead State.ldUnit
  rw [if_neg (by unfold regBase peerBase; omega), if_neg (by unfold commonsBase; omega)]

theorem not_isPeer (h : a ≤ 0xC00000000 ∨ hostBase ≤ a) : isPeer a = false := by
  unfold hostBase at h
  unfold isPeer peerBase hostBase
  simp
  omega

end

theorem byte_stUnit_plain (s : State) {a : Nat} (b : Bytes) (h : a ≤ 0xC00000000 ∨ hostBase ≤ a) (x : Nat) :
    (s.stUnit a b).byte x = if a ≤ x ∧ x < a + b.length then b.getD (x - a) 0 else s.byte x := by
  have hm := mem_stUnit_plain s b h
  split
  · next hx =>
    have := byte_st s a b (i := x - a) (by omega)
    rw [show a + (x - a) = x by omega] at this
    exact (byte_congr (s := s.st a b) hm x).trans this
  · next hx => exact (byte_congr (s := s.st a b) hm x).trans (byte_st_ne s a b (by omega))

/-! ## COPY (R404) -/

section
variable {s : State} {q : Nat} {d : BitVec 512}

/-- The fields of a COPY, its local addresses and its size. -/
abbrev State.copySrc (s : State) (d : BitVec 512) : Nat := s.localAddr (leAt (cmdBytes d) 0 8)
abbrev State.copyDst (s : State) (d : BitVec 512) : Nat := s.localAddr (leAt (cmdBytes d) 8 8)
abbrev copySize (d : BitVec 512) : Nat := leAt (cmdBytes d) 24 4

/-- The fields of a COPY are good and its owner may use its addresses. -/
structure State.copyUsable (s : State) (qu : Queue) (d : BitVec 512) : Prop where
  reserved : zeroAt (cmdBytes d) 18 2 = true
  urgency : leAt (cmdBytes d) 28 4 < 4
  some : 0 < copySize d
  small : copySize d ≤ 16777216
  mayRead : s.mayUse qu (s.copySrc d) (copySize d) = true
  mayWrite : s.mayUse qu (s.copyDst d) (copySize d) = true
  slices : qu.ownerOf.1 < 8 → s.sliceBlocks qu.ownerOf.1 qu.ownerOf.2 (s.copySrc d) (copySize d) = false ∧
    s.sliceBlocks qu.ownerOf.1 qu.ownerOf.2 (s.copyDst d) (copySize d) = false

theorem copyRow_some (hd : s.executing q 0x10 = some d) (hf : s.tagFenced (s.queue q) = false) {r : State × St × Nat}
    (h : s.effCopy q (s.queue q) (cmdBytes d) = some r) : s.copyRow q = r.1.complete q r.2.1 r.2.2 := by
  unfold State.copyRow
  simp only [hd, hf, h]
  rfl

theorem copyRow_none (hd : s.executing q 0x10 = some d) (hf : s.tagFenced (s.queue q) = false) (h : s.effCopy q (s.queue q) (cmdBytes d) = none) :
    s.copyRow q = s.copyWait q (s.queue q) (s.copySrc d) (s.copyDst d) (copySize d) (leAt (cmdBytes d) 28 4) := by
  unfold State.copyRow
  simp only [hd, hf, h, Bool.false_eq_true, if_false]

theorem effCopy_bad {qu : Queue} (h : zeroAt (cmdBytes d) 18 2 = false ∨ 4 ≤ leAt (cmdBytes d) 28 4 ∨ copySize d = 0 ∨ 16777216 < copySize d ∨
      s.mayUse qu (s.copySrc d) (copySize d) = false ∨ s.mayUse qu (s.copyDst d) (copySize d) = false) :
    ∃ st, s.effCopy q qu (cmdBytes d) = some (s, st, 0) := by
  unfold State.effCopy
  dsimp only
  by_cases hb : zeroAt (cmdBytes d) 18 2 = false ∨ 4 ≤ leAt (cmdBytes d) 28 4 ∨ copySize d = 0 ∨ 16777216 < copySize d
  · exact ⟨.badCmd, by rw [if_pos hb]⟩
  · have hm : s.mayUse qu (s.copySrc d) (copySize d) = false ∨ s.mayUse qu (s.copyDst d) (copySize d) = false := by
      rcases h with h | h | h | h | h
      · exact absurd (.inl h) hb
      · exact absurd (.inr (.inl h)) hb
      · exact absurd (.inr (.inr (.inl h))) hb
      · exact absurd (.inr (.inr (.inr h))) hb
      · exact h
    exact ⟨.access, by rw [if_neg hb, if_pos hm]⟩

theorem effCopy_usable {qu : Queue} (h : s.copyUsable qu d) : s.effCopy q qu (cmdBytes d) =
    if isPeer (s.copySrc d) = true ∨ isPeer (s.copyDst d) = true then
      s.copyStep q qu (s.copySrc d) (s.copyDst d) (copySize d) (leAt (cmdBytes d) 28 4)
    else some (s.copyLocal qu (s.copySrc d) (s.copyDst d) (copySize d)) := by
  obtain ⟨h1, h2, h3, h4, h5, h6, h7⟩ := h
  have hslice : ¬ (qu.ownerOf.1 < 8 ∧ (s.sliceBlocks qu.ownerOf.1 qu.ownerOf.2 (s.copySrc d) (copySize d) = true ∨
      s.sliceBlocks qu.ownerOf.1 qu.ownerOf.2 (s.copyDst d) (copySize d) = true)) := by
    rintro ⟨ho, hb⟩
    simp [h7 ho] at hb
  unfold State.effCopy
  dsimp only
  rw [if_neg (by unfold copySize at *; simp [h1]; omega), if_neg (by unfold State.copySrc State.copyDst copySize at *; simp [h5, h6])]
  exact if_neg hslice

/-- Between plain memory that can be read and written, a COPY stores what it reads. -/
theorem copyLocal_plain {qu : Queue} {src dst n : Nat} (hs : src ≤ 0xC00000000 ∨ hostBase ≤ src) (hd : dst ≤ 0xC00000000 ∨ hostBase ≤ dst)
    (hr : s.canRead qu.fnOf src n = .ok) (hw : s.canWrite qu.fnOf dst n = .ok) :
    s.copyLocal qu src dst n = (s.stUnit dst (s.ld src n), .ok, 0) := by
  have h1 : s.copyStop qu src n false = none := by
    unfold State.copyStop
    rw [not_isPeer hs, if_neg (by decide), if_neg (by decide), hr]
    rfl
  have h2 : s.copyStop qu dst n true = none := by
    unfold State.copyStop
    rw [not_isPeer hd, if_neg (by decide), if_pos rfl, hw]
    rfl
  unfold State.copyLocal
  simp only [h1, h2]
  rw [devRead_plain s _ n hs, devWrite_plain s _ _ hd]

end

theorem exec_copy {q : Fin 2048} {s u : State} (h : s.copyRow q = u) : exec (.copy q) s = .next (s.taken u Fld.all) := by subst h; rfl

/-- The queue executes no more, its head has moved past one slot, and any other queue is as it was. -/
def State.completedOne (s t : State) (q : Nat) : Prop :=
  (t.queue q).cur = none ∧ (t.queue q).head = ((s.queue q).head + 1) % 65536 ∧ ∀ k, k ≠ q → t.queue k = s.queue k

/-- A one-slot command that leaves the queues alone completes. -/
theorem complete_completesOne {s u : State} {q op : Nat} {d : BitVec 512} (hd : s.executing q op = some d) (hop : slotsOf op = 1)
    (hg : (s.queue q).state = .run ∨ (s.queue q).state = .error) (hu : u.qs = s.qs) (st : St) (r : Nat) : s.completedOne (u.complete q st r) q := by
  obtain ⟨hcur, hopc⟩ := executing_cur hd
  have hq := queue_congr hu q
  obtain ⟨h1, h2, -, -, h5⟩ := complete_done u q st r (d := d) (by rw [hq]; exact hcur) (by rw [hq]; exact hg)
  rw [hq, hopc, hop] at h2
  exact ⟨h1, h2, fun k hk => (h5 k hk).trans (queue_congr hu k)⟩

theorem completedOne_taken {s u : State} {q : Nat} {w : List Fld} (h : s.completedOne u q) (hw : Fld.qs ∈ w) : s.completedOne (s.taken u w) q := by
  obtain ⟨h1, h2, h3⟩ := h
  have hq (k : Nat) : (s.taken u w).queue k = u.queue k := taken_queue s u hw k
  exact ⟨by rw [hq]; exact h1, by rw [hq]; exact h2, fun k hk => (hq k).trans (h3 k hk)⟩

section
variable {q : Fin 2048} {s : State} {d : BitVec 512} (hd : s.executing q 0x10 = some d) (hf : s.tagFenced (s.queue q) = false)
  (hg : (s.queue q).state = .run ∨ (s.queue q).state = .error) (hm : Memory.wf s.mem = true)
include hd hf hg

/-- A COPY that leaves the queues alone and whose memory is that of `u` completes with the bytes of `u` outside its ring and block. -/
theorem exec_copy_completes {u : State} {st : St} {r : Nat} (h : s.effCopy q (s.queue q) (cmdBytes d) = some (u, st, r)) (hq : u.qs = s.qs)
    (hwf : Memory.wf u.mem = true) : ∃ t, exec (.copy q) s = .next t ∧ s.completedOne t q ∧ ∀ x, (s.queue q).outside x → t.byte x = u.byte x := by
  have hgo : u.goesOn q := goesOn_congr hq hg
  have hkeep := complete_keepsBytes st r hgo hwf
  rw [queue_congr hq q] at hkeep
  refine ⟨_, exec_copy (copyRow_some hd hf h), completedOne_taken (complete_completesOne hd (by decide) hg hq st r) (by decide), fun x hx => ?_⟩
  rw [taken_byte _ _ (by decide) hkeep.wf]
  exact hkeep.byte x hx

include hm

theorem exec_copy_moves (hu : s.copyUsable (s.queue q) d) (hs : s.copySrc d + copySize d ≤ 0xC00000000 ∨ hostBase ≤ s.copySrc d)
    (hdst : s.copyDst d + copySize d ≤ 0xC00000000 ∨ hostBase ≤ s.copyDst d) (hr : s.canRead (s.queue q).fnOf (s.copySrc d) (copySize d) = .ok)
    (hw : s.canWrite (s.queue q).fnOf (s.copyDst d) (copySize d) = .ok) :
    ∃ t, exec (.copy q) s = .next t ∧ s.completedOne t q ∧ ∀ x, (s.queue q).outside x →
      t.byte x = if s.copyDst d ≤ x ∧ x < s.copyDst d + copySize d then s.byte (s.copySrc d + (x - s.copyDst d)) else s.byte x := by
  have hsrc : s.copySrc d ≤ 0xC00000000 ∨ hostBase ≤ s.copySrc d := hs.imp (fun h => by omega) id
  have hdst' : s.copyDst d ≤ 0xC00000000 ∨ hostBase ≤ s.copyDst d := hdst.imp (fun h => by omega) id
  have heff := effCopy_usable (q := q.val) hu
  rw [if_neg (by simp [not_isPeer hsrc, not_isPeer hdst']), copyLocal_plain hsrc hdst' hr hw] at heff
  obtain ⟨t, ht, hdone, hbyte⟩ := exec_copy_completes hd hf hg heff (stUnit_same (f := .qs) _ _ _ (by decide)) (stUnit_wf _ _ hm)
  refine ⟨t, ht, hdone, fun x hx => ?_⟩
  rw [hbyte x hx, byte_stUnit_plain s _ hdst', length_ld]
  split
  · next h => exact getD_ld _ _ (by omega)
  · rfl

theorem exec_copy_refused (hb : zeroAt (cmdBytes d) 18 2 = false ∨ 4 ≤ leAt (cmdBytes d) 28 4 ∨ copySize d = 0 ∨ 16777216 < copySize d ∨
      s.mayUse (s.queue q) (s.copySrc d) (copySize d) = false ∨ s.mayUse (s.queue q) (s.copyDst d) (copySize d) = false) :
    ∃ t, exec (.copy q) s = .next t ∧ s.completedOne t q ∧ ∀ x, (s.queue q).outside x → t.byte x = s.byte x := by
  obtain ⟨st, heff⟩ := effCopy_bad (q := q.val) hb
  exact exec_copy_completes hd hf hg heff rfl hm

end

end Sys2Proof.Machine
end

section
/-! SUPPORT. A COPY through a peer window, SEND, and the obligation on both (R374, R376, R404, R405). -/
namespace Sys2Proof.Machine

/-! ## Peer accesses (R374) -/

theorem sendTo_routed {s : State} {d l vc type : Nat} {p : Bytes} (h : s.routeTo d = some l) :
    s.sendTo d vc type p = (s.sendOn l { vc := vc, type := type, ttl := 64, src := s.sysid, dst := d, payload := p }, true) := by
  unfold State.sendTo; rw [h]

/-- An access with a route is sent and waits for its answer. -/
theorem issuePeer_routed {s : State} {l a : Nat} (who : PeerWho) (write : Bool) (data : Bytes) (n urg vtag : Nat)
    (h : s.routeTo ((a - peerBase) / 0x4000000000) = some l) :
    ∃ u r, s.issuePeer who write a data n urg vtag = u ∧ (∀ f, f ∉ [Fld.regs, .klinks, .out, .kal] → f.same s u) ∧
      u.kal.peers = s.kal.peers ++ [r] ∧ r.who = who ∧ r.write = write ∧ r.sys = (a - peerBase) / 0x4000000000 := by
  have hroute : (s.updKal (fun k => { k with nextTid := (s.kal.nextTid + 1) % 65536 })).routeTo ((a - peerBase) / 0x4000000000) = some l := h
  unfold State.issuePeer
  dsimp only
  rw [sendTo_routed hroute]
  refine ⟨_, ⟨s.kal.nextTid, (a - peerBase) / 0x4000000000, write, n, who, s.now + s.fld Reg.KL_TIMEOUT 15 0 * 1000⟩, rfl, fun f hf => ?_, ?_,
    rfl, rfl, rfl⟩
  · rw [if_pos rfl]
    exact Fld.same_trans (Fld.same_trans (updKal_same _ _ (notMem_part hf (by decide))) (sendOn_same _ _ _ (notMem_part hf (by decide))))
      (updKal_same _ _ (notMem_part hf (by decide)))
  · rw [if_pos rfl]
    show (State.kal _).peers ++ [_] = _
    rw [sendOn_same (f := .kal) _ _ _ (by decide)]
    rfl

section
variable {s : State} {g : Nat} {q : Queue} {src dst n urg : Nat} (hsrc : isPeer src = true)
  (ha : s.kal.answers.find? (fun e => e.1.who == copyWho g q (s.copied g q)) = none)
  (hp : s.kal.peers.any (fun r => r.who == copyWho g q (s.copied g q)) = false)
include hsrc ha hp

/-- A COPY from a peer window with nothing on its way and no answer issues its next access. -/
theorem copyStep_waits : s.copyStep g q src dst n urg = none := by
  unfold State.copyStep
  simp only [ha, hp, hsrc, Bool.false_eq_true, if_false, if_true]

theorem copyWait_issues : s.copyWait g q src dst n urg =
    s.issuePeer (copyWho g q (s.copied g q)) false (src + s.copied g q) [] (chunkLen src dst n (s.copied g q)) urg (s.qtag q) := by
  unfold State.copyWait
  simp only [ha, hp, hsrc, Bool.false_eq_true, if_false, if_true]

end

theorem exec_copy_issues {q : Fin 2048} {s : State} {d : BitVec 512} (hd : s.executing q 0x10 = some d) (hf : s.tagFenced (s.queue q) = false)
    (hm : Memory.wf s.mem = true) (hu : s.copyUsable (s.queue q) d) {l : Nat} (hsrc : isPeer (s.copySrc d) = true)
    (hroute : s.routeTo ((s.copySrc d + s.copied q (s.queue q) - peerBase) / 0x4000000000) = some l)
    (ha : s.kal.answers.find? (fun e => e.1.who == copyWho q (s.queue q) (s.copied q (s.queue q))) = none)
    (hp : s.kal.peers.any (fun r => r.who == copyWho q (s.queue q) (s.copied q (s.queue q))) = false) :
    ∃ t, exec (.copy q) s = .next t ∧ t.qs = s.qs ∧ (∀ x, t.byte x = s.byte x) ∧
      ∃ r ∈ t.kal.peers, r.who = copyWho q (s.queue q) (s.copied q (s.queue q)) ∧ r.write = false ∧
        r.sys = (s.copySrc d + s.copied q (s.queue q) - peerBase) / 0x4000000000 := by
  have heff := effCopy_usable (q := q.val) hu
  rw [if_pos (.inl hsrc), copyStep_waits hsrc ha hp] at heff
  have hrow := copyRow_none hd hf heff
  rw [copyWait_issues hsrc ha hp] at hrow
  obtain ⟨u, r, hissue, hsame, hpeers, hr⟩ := issuePeer_routed (copyWho q (s.queue q) (s.copied q (s.queue q))) false []
    (chunkLen (s.copySrc d) (s.copyDst d) (copySize d) (s.copied q (s.queue q))) (leAt (cmdBytes d) 28 4) (s.qtag (s.queue q)) hroute
  refine ⟨_, exec_copy (hrow.trans hissue), ?_, fun x => taken_byte_of_mem hm (by decide) (hsame .mem (by decide)) x, r, ?_, hr⟩
  · rw [taken_qs, if_pos (by decide)]
    exact hsame .qs (by decide)
  · rw [taken_kal, if_pos (by decide), hpeers]
    exact List.mem_append_right _ (List.mem_singleton.mpr rfl)

/-! ## SEND (R405) -/

/-- A field of a SEND is bad. -/
def State.sendBad (s : State) (n : Nat) (d : BitVec 512) : Prop :=
  1 < byteAt (cmdBytes d) 10 ∨ zeroAt (cmdBytes d) 11 5 = false ∨ zeroAt (cmdBytes d) 18 2 = false ∨ zeroAt (cmdBytes d) 24 8 = false ∨
    leAt (cmdBytes d) 8 2 < 60 ∨ s.fld (Reg.ETH_CTL n) 29 16 + 18 < leAt (cmdBytes d) 8 2

section
variable {s : State} {n : Nat} {qu : Queue} {d : BitVec 512} (ht : qu.target = 6 + n)
include ht

theorem effSend_bad (h : s.sendBad n d ∨ s.mayUse qu (leAt (cmdBytes d) 0 8) (leAt (cmdBytes d) 8 2) = false) :
    ∃ st, s.effSend qu (cmdBytes d) = (s, st, 0) := by
  have hn : qu.target - 6 = n := by omega
  unfold State.effSend
  dsimp only
  rw [hn]
  by_cases hb : s.sendBad n d
  · exact ⟨.badCmd, if_pos hb⟩
  · exact ⟨.access, (if_neg hb).trans (if_pos (h.resolve_left hb))⟩

/-- What a SEND of good fields does on a port that is enabled and has a link. -/
theorem effSend_sends (hb : ¬ s.sendBad n d) (hu : s.mayUse qu (leAt (cmdBytes d) 0 8) (leAt (cmdBytes d) 8 2) = true)
    (hslice : qu.ownerOf.1 < 8 → s.sliceBlocks qu.ownerOf.1 qu.ownerOf.2 (leAt (cmdBytes d) 0 8) (leAt (cmdBytes d) 8 2) = false)
    (ha : leAt (cmdBytes d) 0 8 < regBase ∨ hostBase ≤ leAt (cmdBytes d) 0 8)
    (hr : s.canRead qu.fnOf (leAt (cmdBytes d) 0 8) (leAt (cmdBytes d) 8 2) = .ok) (hon : s.flag (Reg.ETH_CTL n) 0 = true)
    (hlink : s.flag (Reg.ETH_STS n) 31 = true) :
    ∃ r, s.effSend qu (cmdBytes d) = (((s.ldUnit (leAt (cmdBytes d) 0 8) (leAt (cmdBytes d) 8 2)).2.emit
      (.frame n (s.ldUnit (leAt (cmdBytes d) 0 8) (leAt (cmdBytes d) 8 2)).1)).bump (Reg.ETH_CNT_TX_FRAMES n), .ok, r) := by
  have hn : qu.target - 6 = n := by omega
  have hstatus : (MemRes.ok).status = none := rfl
  have hsl : ¬ (qu.ownerOf.1 < 8 ∧ s.sliceBlocks qu.ownerOf.1 qu.ownerOf.2 (leAt (cmdBytes d) 0 8) (leAt (cmdBytes d) 8 2) = true) := fun ⟨h1, h2⟩ => by
    rw [hslice h1] at h2; exact nomatch h2
  unfold State.sendBad at hb
  unfold State.effSend
  dsimp only
  rw [hn, if_neg hb, if_neg (by rw [hu]; decide), if_neg hsl, if_neg (by omega)]
  simp only [hr, hstatus]
  rw [if_pos ⟨hon, hlink⟩]
  exact ⟨_, rfl⟩

end

/-- The fields that a SEND may change. -/
def sendFlds : List Fld := [.free, .mem, .regs, .holding, .hevt, .msix, .qs, .ue, .out, .gctxs, .sc, .harts]

section
variable {q : Fin 2048} {n : Fin 2} {s : State} {d : BitVec 512} (hd : s.executing q 0x12 = some d) (hf : s.tagFenced (s.queue q) = false)
  (hg : (s.queue q).state = .run ∨ (s.queue q).state = .error) (ht : (s.queue q).target = 6 + n.val)
include hd hf

theorem exec_send {u : State} {st : St} {r : Nat} (h : s.effSend (s.queue q) (cmdBytes d) = (u, st, r)) :
    exec (.send q) s = .next (s.taken (u.complete q st r) sendFlds) := by
  have he : s.execCmd q 0x12 s.effSend = u.complete q st r := by rw [execCmd_eq s _ hd hf, h]
  rw [← he]
  rfl

include hg

omit hd hf in
theorem txFrames_complete {u : State} (hu : u.qs = s.qs) (st : St) (r : Nat) :
    (s.taken (u.complete q st r) sendFlds).rd (Reg.ETH_CNT_TX_FRAMES n) = u.rd (Reg.ETH_CNT_TX_FRAMES n) := by
  rw [taken_rd _ _ (by decide)]
  exact (complete_kept st r (goesOn_congr hu hg)).rd _ (not_logReg_eth (by unfold Reg.ETH_CNT_TX_FRAMES; omega))
    (by unfold badUnitReg Reg.ETH_CNT_TX_FRAMES Reg.COM_CNT_BAD_UNIT; simp; omega)

include ht

theorem exec_send_sends (hb : ¬ s.sendBad n d) (hu : s.mayUse (s.queue q) (leAt (cmdBytes d) 0 8) (leAt (cmdBytes d) 8 2) = true)
    (hslice : (s.queue q).ownerOf.1 < 8 →
      s.sliceBlocks (s.queue q).ownerOf.1 (s.queue q).ownerOf.2 (leAt (cmdBytes d) 0 8) (leAt (cmdBytes d) 8 2) = false)
    (ha : leAt (cmdBytes d) 0 8 < regBase ∨ hostBase ≤ leAt (cmdBytes d) 0 8)
    (hr : s.canRead (s.queue q).fnOf (leAt (cmdBytes d) 0 8) (leAt (cmdBytes d) 8 2) = .ok) (hon : s.flag (Reg.ETH_CTL n) 0 = true)
    (hlink : s.flag (Reg.ETH_STS n) 31 = true) :
    ∃ t, exec (.send q) s = .next t ∧ s.completedOne t q ∧ Out.frame n (s.ldUnit (leAt (cmdBytes d) 0 8) (leAt (cmdBytes d) 8 2)).1 ∈ t.out ∧
      t.rd (Reg.ETH_CNT_TX_FRAMES n) = s.rd (Reg.ETH_CNT_TX_FRAMES n) + 1 := by
  obtain ⟨r, heff⟩ := effSend_sends ht hb hu hslice ha hr hon hlink
  generalize hload : s.ldUnit (leAt (cmdBytes d) 0 8) (leAt (cmdBytes d) 8 2) = x at heff ⊢
  have hxq : x.2.qs = s.qs := hload ▸ ldUnit_same (f := .qs) s _ _ (by decide)
  have hxr : x.2.rd (Reg.ETH_CNT_TX_FRAMES n) = s.rd (Reg.ETH_CNT_TX_FRAMES n) := hload ▸ rd_ldUnit s _ (by
    show 0x3320c0 + 0x1000 * n.val ≠ _; unfold Reg.COM_CNT_BAD_UNIT; omega) _
  have hq : ((x.2.emit (.frame n x.1)).bump (Reg.ETH_CNT_TX_FRAMES n)).qs = s.qs := by rw [bump_qs, emit_qs, hxq]
  have hout : Out.frame n x.1 ∈ ((x.2.emit (.frame n x.1)).bump (Reg.ETH_CNT_TX_FRAMES n)).out := by
    rw [bump_out]; exact List.mem_cons_self
  refine ⟨_, exec_send hd hf heff, completedOne_taken (complete_completesOne hd (by decide) hg hq .ok r) (by decide), ?_, ?_⟩
  · rw [taken_out, if_pos (by decide)]
    exact mem_out_complete hout _ _ (goesOn_congr hq hg)
  · rw [txFrames_complete hg hq, rd_bump_same, rd_congr (emit_regs _ _), hxr]

theorem exec_send_bad (h : s.sendBad n d ∨ s.mayUse (s.queue q) (leAt (cmdBytes d) 0 8) (leAt (cmdBytes d) 8 2) = false) :
    ∃ t, exec (.send q) s = .next t ∧ s.completedOne t q ∧ t.rd (Reg.ETH_CNT_TX_FRAMES n) = s.rd (Reg.ETH_CNT_TX_FRAMES n) := by
  obtain ⟨st, heff⟩ := effSend_bad ht h
  exact ⟨_, exec_send hd hf heff, completedOne_taken (complete_completesOne hd (by decide) hg rfl st 0) (by decide), txFrames_complete hg rfl st 0⟩

end

/-- Settles O54: COPY and SEND, each clause by the lemma of its command. -/
theorem copyAndSend : Obligations.CopyAndSend := by
  unfold Obligations.CopyAndSend
  refine ⟨fun q s d => ?_, fun q n s d => ?_⟩
  · dsimp only
    intro hd hf hg hm
    refine ⟨fun ⟨h1, h2, h3, h4, h5, h6, h7⟩ => exec_copy_moves hd hf hg hm ⟨h1, h2, h3, h4, h5, h6, h7⟩, exec_copy_refused hd hf hg hm,
      fun l ⟨h1, h2, h3, h4, h5, h6, h7⟩ hsrc hroute ha hp => exec_copy_issues hd hf hm ⟨h1, h2, h3, h4, h5, h6, h7⟩ hsrc hroute ha hp⟩
  · dsimp only
    intro hd hf hg ht
    exact ⟨exec_send_sends hd hf hg ht, exec_send_bad hd hf hg ht⟩

end Sys2Proof.Machine
end

section
/-! SUPPORT. What the sending of flits leaves alone (R368, R371, R372, R377): the registers but the counter of flits sent, the links that
are not UP, and of every link all but its queues, credits and SEQ. -/
namespace Sys2Proof.Machine

theorem not_logReg_kralon {a : Nat} (h : 0x320000 ≤ a ∧ a < 0x330000) : ¬ logReg a :=
  not_logReg (.inr (by omega)) (.inr (by omega)) (by unfold Reg.HP_CNT_VEC_DROP; omega)

theorem not_msgReg_kralon {a : Nat} (h : 0x320000 ≤ a ∧ a < 0x330000) : ¬ msgReg a := fun e => not_logReg_kralon h (.inl e)

theorem not_logReg_linkSts (l : Nat) : ¬ logReg (Reg.LINK_STS l) :=
  not_logReg (.inr (by unfold Reg.LINK_STS; omega)) (.inr (by unfold Reg.LINK_STS; omega)) (by unfold Reg.LINK_STS Reg.HP_CNT_VEC_DROP; omega)

/-- The counter of flits sent of some link. -/
def txReg (a : Nat) : Bool := a % 0x1000 == 0xC0

theorem txReg_linkCntTx (l : Nat) : txReg (Reg.LINK_CNT_TX l) = true := by
  unfold txReg Reg.LINK_CNT_TX; rw [beq_iff_eq]; omega

/-- A register at another place of a link's page is no counter of flits sent. -/
theorem txReg_link {r : Nat} (l : Nat) (h : r % 0x1000 ≠ 0xC0) : txReg (r + 0x1000 * l) = false := by
  unfold txReg; rw [beq_eq_false_iff_ne]; omega

/-- What a link holds beside its queues, its credits and the SEQ and instant of its sending. -/
def KLink.steady (x : KLink) : KLink := { x with next := 0, replay := [], waits := [], credits := [], owe := [], sent := 0 }

theorem klink_setKlink (s : State) (l : Nat) (x : KLink) : (s.setKlink l x).klink l = x := Tab.get_set_same _ _ _ _

theorem klink_setKlink_ne (s : State) {l k : Nat} (x : KLink) (h : k ≠ l) : (s.setKlink l x).klink k = s.klink k := Tab.get_set_ne _ _ _ h

theorem klink_congr {s t : State} (h : t.klinks = s.klinks) (l : Nat) : t.klink l = s.klink l := by
  unfold State.klink; rw [h]

theorem linkUp_congr {s t : State} {l : Nat} (h : t.rd (Reg.LINK_STS l) = s.rd (Reg.LINK_STS l)) : t.linkUp l = s.linkUp l := by
  unfold State.linkUp State.klinkState; rw [fld_congr h]

/-- From `s` to `t` flits were sent: beside what `Keeps` says, the links that are not UP are untouched, every link is UP as before,
and none changes in what sending leaves alone. -/
structure Sends (F : List Fld) (R : Nat → Bool) (s t : State) : Prop extends Keeps F R s t where
  up : ∀ l, t.linkUp l = s.linkUp l
  idle : ∀ l, s.linkUp l = false → t.klink l = s.klink l
  steady : ∀ l, (t.klink l).steady = (s.klink l).steady

namespace Sends

variable {F G : List Fld} {R Q : Nat → Bool} {s t u : State}

theorem refl (s : State) : Sends F R s s := ⟨.refl s, fun _ => rfl, fun _ _ => rfl, fun _ => rfl⟩

theorem trans (h : Sends F R s t) (k : Sends F R t u) : Sends F R s u :=
  ⟨h.toKeeps.trans k.toKeeps, fun l => (k.up l).trans (h.up l), fun l hl => (k.idle l ((h.up l).trans hl)).trans (h.idle l hl),
   fun l => (k.steady l).trans (h.steady l)⟩

theorem mono (h : Sends F R s t) (hF : F ⊆ G) (hR : ∀ a, R a = true → Q a = true) : Sends G Q s t :=
  ⟨h.toKeeps.mono hF hR, h.up, h.idle, h.steady⟩

theorem ite {c : Prop} [Decidable c] (h : Sends F R s t) (k : Sends F R s u) : Sends F R s (if c then t else u) := by split <;> assumption

theorem foldl {β : Type} (g : State → β → State) (hg : ∀ t e, Sends F R t (g t e)) (l : List β) (s : State) : Sends F R s (l.foldl g s) := by
  induction l generalizing s with
  | nil => exact refl s
  | cons e l ih => exact (hg s e).trans (ih _)

/-- An operation that touches no link. -/
theorem keep (h : Keeps F R s t) (hk : t.klinks = s.klinks) (hu : ∀ l, t.linkUp l = s.linkUp l) : Sends F R s t :=
  ⟨h, hu, fun l _ => klink_congr hk l, fun l => congrArg KLink.steady (klink_congr hk l)⟩

theorem updKal (hF : Fld.kal ∈ F) (g : Kal → Kal) : Sends F R s (s.updKal g) :=
  keep ((Keeps.refl s).updKal hF) rfl fun _ => rfl

end Sends

/-- A change of the link that is UP, in its queues, credits or the SEQ and instant of its sending alone. -/
theorem setKlink_sends {F : List Fld} {R : Nat → Bool} {s : State} {l : Nat} {x : KLink} (hup : s.linkUp l = true) (hx : x.steady = (s.klink l).steady)
    (hF : Fld.klinks ∈ F) : Sends F R s (s.setKlink l x) :=
  ⟨(Keeps.refl s).setKlink hF, fun _ => rfl,
   fun k hk => klink_setKlink_ne s x (by rintro rfl; rw [hup] at hk; exact nomatch hk),
   fun k => by
    by_cases h : k = l
    · rw [h, klink_setKlink, hx]
    · rw [klink_setKlink_ne s x h]⟩

section
variable {s : State} {l : Nat}

theorem bumpTx_sends {s : State} (l : Nat) : Sends flitFlds txReg s (s.bump (Reg.LINK_CNT_TX l)) :=
  .keep ((Keeps.refl s).bump (by decide) (txReg_linkCntTx l)) rfl fun k =>
    linkUp_congr (rd_wr_ne s _ (by unfold Reg.LINK_STS Reg.LINK_CNT_TX; omega))

theorem emit_sends {R : Nat → Bool} (o : Out) : Sends flitFlds R s (s.emit o) := .keep ((Keeps.refl s).emit) rfl fun _ => rfl

/-- A change of the link that is UP in what sending changes. -/
theorem updKlink_sends {F : List Fld} {R : Nat → Bool} (g : KLink → KLink) (hup : s.linkUp l = true) (hg : ∀ x, (g x).steady = x.steady)
    (hF : Fld.klinks ∈ F) : Sends F R s (s.updKlink l g) := setKlink_sends hup (hg _) hF

theorem wire_sends (f : Flit) (n : Nat) (hup : s.linkUp l = true) : Sends flitFlds txReg s (s.wire l f n) := by
  have h : Sends flitFlds txReg s (s.updKlink l fun x => { x with owe := updAt x.owe (credOf x.owe).1 (· - (credOf x.owe).2), sent := s.now }) :=
    updKlink_sends _ hup (fun _ => rfl) (by decide)
  unfold State.wire
  exact (h.trans (.ite (.refl _) (bumpTx_sends l))).trans (emit_sends _)

/-- A link whose first waiting flit `f` has been sent, with `t` still waiting. -/
def KLink.sends (x : KLink) (f : Flit) (t : List Flit) : KLink :=
  { x with waits := t, credits := updAt x.credits f.vc (· - 1), next := (x.next + 1) % 4096, replay := x.replay ++ [{ f with seq := x.next }] }

theorem flushLink_nil (hw : (s.klink l).waits = []) (fuel : Nat) : s.flushLink l fuel = s := by
  cases fuel with
  | zero => rfl
  | succ n => unfold State.flushLink; simp only [hw]

theorem flushLink_cons {f : Flit} {t : List Flit} (hw : (s.klink l).waits = f :: t) (fuel : Nat) :
    s.flushLink l (fuel + 1) = if ((s.klink l).credits.drop f.vc).headD 0 = 0 ∨ 256 ≤ (s.klink l).replay.length then s
      else ((s.setKlink l ((s.klink l).sends f t)).wire l f (s.klink l).next).flushLink l fuel := by
  conv => lhs; unfold State.flushLink
  simp only [hw]
  rfl

theorem flushLink_sends (fuel : Nat) (hup : s.linkUp l = true) : Sends flitFlds txReg s (s.flushLink l fuel) := by
  induction fuel generalizing s with
  | zero => exact .refl s
  | succ fuel ih =>
    cases hw : (s.klink l).waits with
    | nil => rw [flushLink_nil hw]; exact .refl s
    | cons f t =>
      rw [flushLink_cons hw]
      have h : Sends flitFlds txReg s (s.setKlink l ((s.klink l).sends f t)) := setKlink_sends hup rfl (by decide)
      have hw := h.trans (wire_sends f (s.klink l).next ((h.up l).trans hup))
      exact .ite (.refl s) (hw.trans (ih ((hw.up l).trans hup)))

theorem sendOn_sends (s : State) (l : Nat) (f : Flit) : Sends flitFlds txReg s (s.sendOn l f) := by
  unfold State.sendOn
  split
  next hup =>
    have h : Sends flitFlds txReg s (s.updKlink l fun x => { x with waits := x.waits ++ [f] }) := updKlink_sends _ hup (fun _ => rfl) (by decide)
    exact h.trans (flushLink_sends _ ((h.up l).trans hup))
  next => exact .refl s

theorem sendCtl_sends (s : State) (l type : Nat) : Sends flitFlds txReg s (s.sendCtl l type) := by
  unfold State.sendCtl
  split
  next hup => exact wire_sends _ _ hup
  next => exact .refl s

theorem sendOn_mgmt_sends (s : State) (l : Nat) (f : Flit) : Sends mgmtFlds txReg s (s.sendOn l f) :=
  (sendOn_sends s l f).mono (by decide) fun _ h => h

theorem sendTo_sends (s : State) (d vc type : Nat) (p : Bytes) : Sends flitFlds txReg s (s.sendTo d vc type p).1 := by
  unfold State.sendTo
  split
  · exact .refl s
  · exact sendOn_sends _ _ _

theorem answerPeer_sends (s : State) (src : Nat) (read : Bool) (req : Bytes) (st : Nat) (data : Bytes) :
    Sends flitFlds txReg s (s.answerPeer src read req st data) := sendTo_sends _ _ _ _ _

theorem mgmtOn_sends (s : State) (l kind : Nat) (c : Bytes) : Sends mgmtFlds txReg s (s.mgmtOn l kind c) :=
  (Sends.updKal (by decide) _).trans (sendOn_mgmt_sends _ _ _)

theorem mgmtTo_sends (s : State) (l d kind : Nat) (c : Bytes) : Sends mgmtFlds txReg s (s.mgmtTo l d kind c) :=
  (Sends.updKal (by decide) _).trans (sendOn_mgmt_sends _ _ _)

theorem flood_sends (s : State) (kind : Nat) (c : Bytes) : Sends mgmtFlds txReg s (s.flood kind c) :=
  (Sends.updKal (by decide) _).trans (.foldl _ (fun _ _ => sendOn_mgmt_sends _ _ _) _ _)

theorem forwardFlood_sends (s : State) (l : Nat) (f : Flit) : Sends mgmtFlds txReg s (s.forwardFlood l f) :=
  .foldl _ (fun _ _ => sendOn_mgmt_sends _ _ _) _ _

theorem sendBeacons_sends (s : State) : Sends mgmtFlds txReg s s.sendBeacons := .foldl _ (fun _ _ => mgmtOn_sends _ _ _ _) _ _

theorem sendReport_sends (s : State) : Sends mgmtFlds txReg s s.sendReport := (Sends.updKal (by decide) _).trans (flood_sends _ _ _)

theorem news_sends (s : State) : Sends mgmtFlds txReg s s.news := (Sends.updKal (by decide) _).trans (sendBeacons_sends _)

theorem cutCheck_sends (s : State) : Sends mgmtFlds txReg s s.cutCheck := .ite (.updKal (by decide) _) (.ite (.updKal (by decide) _) (.updKal (by decide) _))

theorem linkEvent_sends (s : State) (l n far : Nat) : Sends mgmtFlds txReg s (s.linkEvent l n far) := by
  unfold State.linkEvent
  dsimp only
  refine .ite (.updKal (by decide) _) ((Sends.updKal (by decide) _).trans (.foldl _ (fun t d => .ite (.refl t) ?_) _ _))
  split
  · exact .refl t
  · exact mgmtTo_sends _ _ _ _ _

/-! ## A change of STATE and the start of K2 (R379) -/

/-- The registers that a change of STATE with the messages that follow it may change. -/
def klReg (a : Nat) : Bool := txReg a || a == Reg.KL_STS || a == klPage + 0x10

theorem klReg_of_txReg {a : Nat} (h : txReg a = true) : klReg a = true := by unfold klReg; rw [h]; rfl

/-- A register at another place of a link's page. -/
theorem klReg_link {r : Nat} (l : Nat) (h : r % 0x1000 ≠ 0xC0) (hr : 0x321000 ≤ r) : klReg (r + 0x1000 * l) = false := by
  unfold klReg klPage
  rw [txReg_link l h, Bool.false_or, Bool.or_eq_false_iff, beq_eq_false_iff_ne, beq_eq_false_iff_ne]
  unfold Reg.KL_STS
  omega

theorem klReg_klSts : klReg Reg.KL_STS = true := by unfold klReg; rw [beq_self_eq_true, Bool.or_true, Bool.true_or]

theorem klReg_klEvt : klReg (klPage + 0x10) = true := by unfold klReg; rw [beq_self_eq_true, Bool.or_true]

theorem setKl_keeps (s : State) (n : Nat) : Keeps klFlds klReg s (s.setKl n) :=
  .ite (.refl s) (.raise (.setFld (.refl s) (by decide) klReg_klSts) (by decide) klReg_klEvt)

theorem setKl_klinks (s : State) (n : Nat) : (s.setKl n).klinks = s.klinks := by
  unfold State.setKl
  split
  · exact Eq.refl s.klinks
  · exact (raise_klinks _ _ _).trans (setFld_same (f := .klinks) s _ _ _ _ (by decide))

theorem setKl_sends (s : State) (n : Nat) : Sends klFlds klReg s (s.setKl n) :=
  .keep (setKl_keeps s n) (setKl_klinks s n) fun l => linkUp_congr ((setKl_keeps s n).rd _ (not_logReg_linkSts l) (klReg_link l (by decide) (by decide)))

theorem Sends.toKl {t : State} (h : Sends mgmtFlds txReg s t) : Sends klFlds klReg s t := h.mono (by decide) fun _ => klReg_of_txReg

theorem enterK2_sends (s : State) : Sends klFlds klReg s s.enterK2 :=
  (((Sends.updKal (by decide) _).trans (setKl_sends _ 2)).trans (sendBeacons_sends _).toKl).trans (sendReport_sends _).toKl

theorem k1Check_sends (s : State) : Sends klFlds klReg s s.k1Check := .ite (enterK2_sends s) (.refl s)

end

end Sys2Proof.Machine
end

section
/-! SUPPORT. The start and the end of training, the failure of a link and the stop of the Kralon logic (R367, R373, R379, R389). -/
namespace Sys2Proof.Machine

variable {s : State} {l : Nat}

theorem klinkState_congr {t : State} (h : t.rd (Reg.LINK_STS l) = s.rd (Reg.LINK_STS l)) : t.klinkState l = s.klinkState l := fld_congr h 31 30

theorem not_logReg_link {r : Nat} (l : Nat) (h : 0x321000 ≤ r) (h' : r % 0x1000 ≠ 0xC8) : ¬ logReg (r + 0x1000 * l) :=
  not_logReg (.inr (by omega)) (.inr (by omega)) (by unfold Reg.HP_CNT_VEC_DROP; omega)

namespace Sends

variable {F : List Fld} {R : Nat → Bool} {t : State}

/-- The state of a link where its status is no register that may change. -/
theorem klinkState (h : Sends F R s t) (l : Nat) (hR : R (Reg.LINK_STS l) = false) : t.klinkState l = s.klinkState l :=
  klinkState_congr (h.rd _ (not_logReg_linkSts l) hR)

theorem klState (h : Sends F R s t) (hR : R Reg.KL_STS = false) : t.klState = s.klState :=
  h.fld 31 28 (not_logReg_kralon (by decide)) hR

end Sends

theorem klState_setKl {n : Nat} (hn : n < 16) : (s.setKl n).klState = n := by
  unfold State.setKl
  split
  next h => exact h
  next h =>
    unfold State.klState
    rw [fld_congr (rd_raise _ _ _ (not_msgReg_kralon (by decide)) (by decide)), fld_setFld _ _ _ (by decide) (by decide)]
    exact Nat.mod_eq_of_lt hn

theorem kal_setKl (s : State) (n : Nat) : (s.setKl n).kal = s.kal := by
  unfold State.setKl
  split
  · exact Eq.refl s.kal
  · exact (raise_kal _ _ _).trans (setFld_same (f := .kal) s _ _ _ _ (by decide))

theorem klState_enterK2 (s : State) : s.enterK2.klState = 2 :=
  ((sendReport_sends _).klState (by decide)).trans (((sendBeacons_sends _).klState (by decide)).trans (klState_setKl (by decide)))

/-! ## A list of links, handled one by one -/

/-- Where each step but the one for `l` leaves a view of the state as it was, handling a list without `l` does. -/
theorem foldl_view_ne {β : Type} {view : State → β} (g : State → Nat → State) (hv : ∀ t k, k ≠ l → view (g t k) = view t)
    (L : List Nat) (s : State) (h : l ∉ L) : view (L.foldl g s) = view s := by
  induction L generalizing s with
  | nil => rfl
  | cons k L ih =>
    rw [List.mem_cons, not_or] at h
    exact (ih (g s k) h.2).trans (hv s k (Ne.symm h.1))

/-- In a list without duplicates the view is what the one step for `l` makes of it, in a state with what every step keeps. -/
theorem foldl_view {β : Type} {view : State → β} {P : State → Prop} (g : State → Nat → State) (hv : ∀ t k, k ≠ l → view (g t k) = view t)
    (hP : ∀ t k, P t → P (g t k)) (L : List Nat) (s : State) (hn : L.Nodup) (hm : l ∈ L) (hs : P s) :
    ∃ t, P t ∧ view t = view s ∧ view (L.foldl g s) = view (g t l) := by
  induction L generalizing s with
  | nil => exact absurd hm List.not_mem_nil
  | cons k L ih =>
    rw [List.nodup_cons] at hn
    rcases List.mem_cons.mp hm with e | e
    · exact ⟨s, hs, rfl, by rw [e] at hv ⊢; exact foldl_view_ne g hv L _ hn.1⟩
    · obtain ⟨t, ht, h1, h2⟩ := ih (g s k) hn.2 e (hP s k hs)
      exact ⟨t, ht, h1.trans (hv s k fun e' => hn.1 (e' ▸ e)), h2⟩

/-! ## Training -/

/-- The status of some link. -/
def stsReg (a : Nat) : Bool := decide (0x321000 ≤ a) && a % 0x1000 == 0x44

theorem stsReg_linkSts (l : Nat) : stsReg (Reg.LINK_STS l) = true := by
  unfold stsReg Reg.LINK_STS
  rw [Bool.and_eq_true, decide_eq_true_iff, beq_iff_eq]
  omega

theorem stsReg_link {r : Nat} (l : Nat) (h : r % 0x1000 ≠ 0x44) : stsReg (r + 0x1000 * l) = false := by
  unfold stsReg; rw [Bool.and_eq_false_iff, beq_eq_false_iff_ne]; right; omega

theorem trainLink_keeps (s : State) (l : Nat) : Keeps [.regs, .klinks] stsReg s (s.trainLink l) :=
  .ite (.setKlink (.setFld (.refl s) (by decide) (stsReg_linkSts l))) (.refl s)

/-- Whether link l may train: the logic runs, the module is READY and the link is enabled and not UP. -/
abbrev State.mayTrain (s : State) (l : Nat) : Prop :=
  s.flag Reg.KL_CTL 0 = true ∧ s.ready = true ∧ s.flag (Reg.LINK_CTL l) 0 = true ∧ s.klinkState l ≠ 2

theorem klinkState_setFld {n : Nat} (hn : n < 4) : (s.setFld (Reg.LINK_STS l) 31 30 n).klinkState l = n :=
  (fld_setFld s _ n (by decide) (by decide)).trans (Nat.mod_eq_of_lt hn)

theorem rd_updKlink (s : State) (l : Nat) (g : KLink → KLink) (a : Nat) : (s.updKlink l g).rd a = s.rd a :=
  rd_congr (setKlink_same (f := .regs) s l _ (by decide)) a

theorem klink_updKlink_same (s : State) (l : Nat) (g : KLink → KLink) : (s.updKlink l g).klink l = g (s.klink l) := klink_setKlink _ _ _

theorem klink_updKlink_ne (s : State) {l k : Nat} (g : KLink → KLink) (h : k ≠ l) : (s.updKlink l g).klink k = s.klink k :=
  klink_setKlink_ne _ _ h

theorem klink_setFld (s : State) (a hi lo n l : Nat) : (s.setFld a hi lo n).klink l = s.klink l :=
  klink_congr (setFld_same (f := .klinks) s a hi lo n (by decide)) l

theorem trainLink_trains (h : s.mayTrain l) : (s.trainLink l).klinkState l = 1 ∧ ((s.trainLink l).klink l).trainFrom = s.now := by
  have he : s.trainLink l = (s.setFld (Reg.LINK_STS l) 31 30 1).updKlink l (fun x => { x with trainFrom := s.now }) := if_pos h
  rw [he]
  exact ⟨(klinkState_congr (rd_updKlink _ _ _ _)).trans (klinkState_setFld (by decide)), congrArg KLink.trainFrom (klink_updKlink_same _ _ _)⟩

theorem trainLink_stays (h : ¬ s.mayTrain l) : s.trainLink l = s := if_neg h

/-- What training changes of a link: its state and the instant of its start. -/
theorem trainLink_ne {k : Nat} (h : l ≠ k) :
    ((s.trainLink k).klinkState l, (s.trainLink k).klink l) = (s.klinkState l, s.klink l) := by
  by_cases hk : s.mayTrain k
  · have he : s.trainLink k = (s.setFld (Reg.LINK_STS k) 31 30 1).updKlink k (fun x => { x with trainFrom := s.now }) := if_pos hk
    rw [he]
    exact congrArg₂ Prod.mk (klinkState_congr ((rd_updKlink _ _ _ _).trans (rd_setFld_ne s _ _ _ (by unfold Reg.LINK_STS; omega))))
      ((klink_updKlink_ne _ _ h).trans (klink_setFld _ _ _ _ _ _))
  · rw [trainLink_stays hk]

/-- With the logic on and the module READY, an enabled link that is not UP trains once every link was handled. -/
theorem trainAll_trains (hl : l < 8) (h : s.mayTrain l) :
    ((List.range 8).foldl (fun (t : State) k => t.trainLink k) s).klinkState l = 1 ∧
      (((List.range 8).foldl (fun (t : State) k => t.trainLink k) s).klink l).trainFrom = s.now := by
  obtain ⟨hctl, hready, hlink, hst⟩ := h
  obtain ⟨t, ht, hsame, hview⟩ := foldl_view (view := fun (t : State) => (t.klinkState l, t.klink l)) (P := Keeps [.regs, .klinks] stsReg s)
    (fun (t : State) k => t.trainLink k) (fun t k hk => trainLink_ne (Ne.symm hk)) (fun t k ht => ht.trans (trainLink_keeps t k))
    (List.range 8) s List.nodup_range (List.mem_range.mpr hl) (.refl s)
  have hmay : t.mayTrain l := ⟨(ht.flag 0 (not_logReg_kralon (by decide)) (by decide)).trans hctl,
    (ht.flag 31 (not_logReg (by decide) (by decide) (by decide)) (by decide)).trans hready, (ht.flag 0 (not_logReg_link l (by decide) (by decide)) (stsReg_link l (by decide))).trans hlink,
    fun e => hst ((congrArg Prod.fst hsame).symm.trans e)⟩
  obtain ⟨h1, h2⟩ := trainLink_trains hmay
  exact ⟨(congrArg Prod.fst hview).trans h1, (congrArg (fun p => p.2.trainFrom) hview).trans (h2.trans ht.now)⟩

theorem klState_trainAll (s : State) (L : List Nat) : (L.foldl (fun (t : State) k => t.trainLink k) s).klState = s.klState :=
  (Keeps.foldl _ trainLink_keeps L s).fld 31 28 (not_logReg_kralon (by decide)) (by decide)

/-! ## The start of the logic -/

theorem k1Check_waits (h : s.flag (Reg.LINK_CTL l) 0 = true) (hl : l < 8) (hs : s.klinkState l = 1) : s.k1Check = s := by
  refine if_neg fun e => ?_
  have he := List.all_eq_true.mp e.2 l (List.mem_range.mpr hl)
  rw [h, hs] at he
  exact absurd he (by decide)

theorem k1Check_ends (h : s.klState = 1) (hl : ∀ l, l < 8 → s.flag (Reg.LINK_CTL l) 0 = false) : s.k1Check = s.enterK2 := by
  refine if_pos ⟨h, List.all_eq_true.mpr fun l hm => ?_⟩
  rw [hl l (List.mem_range.mp hm)]
  rfl

/-- The logic of a module that is READY starts outside every kaleidoscope. -/
theorem klStart_eq (hctl : s.flag Reg.KL_CTL 0 = true) (hr : s.ready = true) (hk : s.klState = 0) :
    s.klStart = ((List.range 8).foldl (fun (t : State) k => t.trainLink k) (s.setKl 1)).k1Check := if_pos ⟨hctl, hr, hk⟩

theorem linkCtl_trainAll (L : List Nat) (l : Nat) : ((L.foldl (fun (t : State) k => t.trainLink k) s)).flag (Reg.LINK_CTL l) 0 = s.flag (Reg.LINK_CTL l) 0 :=
  (Keeps.foldl _ trainLink_keeps L s).flag 0 (not_logReg_link l (by decide) (by decide)) (stsReg_link l (by decide))

theorem linkCtl_setKl (s : State) (n l : Nat) : (s.setKl n).flag (Reg.LINK_CTL l) 0 = s.flag (Reg.LINK_CTL l) 0 :=
  (setKl_keeps s n).flag 0 (not_logReg_link l (by decide) (by decide)) (klReg_link l (by decide) (by decide))

theorem klinkState_setKl (s : State) (n l : Nat) : (s.setKl n).klinkState l = s.klinkState l :=
  (setKl_sends s n).klinkState l (klReg_link l (by decide) (by decide))

/-- With a link that has to train the logic comes to K1, where that link trains. -/
theorem klStart_trains (h : s.mayTrain l) (hl : l < 8) (hk : s.klState = 0) :
    s.klStart.klState = 1 ∧ s.klStart.klinkState l = 1 ∧ (s.klStart.klink l).trainFrom = s.now := by
  obtain ⟨hctl, hr, hlink, hst⟩ := h
  have hK := setKl_keeps s 1
  have hmay : (s.setKl 1).mayTrain l := ⟨(hK.flag 0 (not_logReg_kralon (by decide)) (by decide)).trans hctl,
    (hK.flag 31 (not_logReg (by decide) (by decide) (by decide)) (by decide)).trans hr, (linkCtl_setKl s 1 l).trans hlink,
    fun e => hst ((klinkState_setKl s 1 l).symm.trans e)⟩
  obtain ⟨h1, h2⟩ := trainAll_trains hl hmay
  rw [klStart_eq hctl hr hk, k1Check_waits ((linkCtl_trainAll _ l).trans hmay.2.2.1) hl h1]
  exact ⟨(klState_trainAll _ _).trans (klState_setKl (by decide)), h1, h2.trans hK.now⟩

/-- With no link enabled it goes on to K2. -/
theorem klStart_goesOn (hctl : s.flag Reg.KL_CTL 0 = true) (hr : s.ready = true) (hk : s.klState = 0)
    (hl : ∀ l, l < 8 → s.flag (Reg.LINK_CTL l) 0 = false) : s.klStart.klState = 2 := by
  rw [klStart_eq hctl hr hk, k1Check_ends ((klState_trainAll _ _).trans (klState_setKl (by decide)))
    fun l h => (linkCtl_trainAll _ l).trans ((linkCtl_setKl s 1 l).trans (hl l h))]
  exact klState_enterK2 _

/-! ## A link that stops being UP (R373) -/

/-- The registers of link l that its end sets. -/
def clearReg (l a : Nat) : Bool := a == Reg.LINK_STS l || a == Reg.LINK_PEER_LO l || a == Reg.LINK_PEER_HI l

theorem linkClear_keeps (s : State) (l n : Nat) : Keeps [.regs, .klinks] (clearReg l) s (s.linkClear l n) := by
  have h1 : clearReg l (Reg.LINK_STS l) = true := by unfold clearReg; rw [beq_self_eq_true, Bool.true_or, Bool.true_or]
  have h2 : clearReg l (Reg.LINK_PEER_LO l) = true := by unfold clearReg; rw [beq_self_eq_true, Bool.or_true, Bool.true_or]
  have h3 : clearReg l (Reg.LINK_PEER_HI l) = true := by unfold clearReg; rw [beq_self_eq_true, Bool.or_true]
  exact .setKlink (.wr (.wr (.wr (.refl s) (by decide) h1) (by decide) h2) (by decide) h3)

theorem clearReg_ne {a : Nat} (h : a ≠ Reg.LINK_STS l ∧ a ≠ Reg.LINK_PEER_LO l ∧ a ≠ Reg.LINK_PEER_HI l) : clearReg l a = false := by
  unfold clearReg
  rw [beq_eq_false_iff_ne.mpr h.1, beq_eq_false_iff_ne.mpr h.2.1, beq_eq_false_iff_ne.mpr h.2.2]
  rfl

theorem rd_setKlink (s : State) (l : Nat) (x : KLink) (a : Nat) : (s.setKlink l x).rd a = s.rd a :=
  rd_congr (setKlink_same (f := .regs) s l x (by decide)) a

theorem rd_linkClear_sts (s : State) (l n : Nat) : (s.linkClear l n).rd (Reg.LINK_STS l) = BitVec.ofNat 32 (n * 2 ^ 30) := by
  unfold State.linkClear
  dsimp only
  rw [rd_setKlink, rd_wr_ne _ _ (by unfold Reg.LINK_STS Reg.LINK_PEER_HI; omega), rd_wr_ne _ _ (by unfold Reg.LINK_STS Reg.LINK_PEER_LO; omega), rd_wr_same]

theorem rd_linkClear_peer (s : State) (l n : Nat) : (s.linkClear l n).rd (Reg.LINK_PEER_LO l) = 0 ∧ (s.linkClear l n).rd (Reg.LINK_PEER_HI l) = 0 := by
  unfold State.linkClear
  dsimp only
  rw [rd_setKlink, rd_setKlink, rd_wr_same, rd_wr_ne _ _ (by unfold Reg.LINK_PEER_HI Reg.LINK_PEER_LO; omega), rd_wr_same]
  exact ⟨rfl, rfl⟩

theorem klinkState_linkClear {n : Nat} (hn : n < 4) : (s.linkClear l n).klinkState l = n := by
  unfold State.klinkState State.fld
  rw [rd_linkClear_sts]
  interval_cases n <;> rfl

theorem klinkState_linkClear_ne {k n : Nat} (h : k ≠ l) : (s.linkClear l n).klinkState k = s.klinkState k :=
  klinkState_congr ((linkClear_keeps s l n).rd _ (not_logReg_linkSts k) (clearReg_ne (by
    unfold Reg.LINK_STS Reg.LINK_PEER_LO Reg.LINK_PEER_HI; omega)))

theorem klink_linkClear (s : State) (l n : Nat) : (s.linkClear l n).klink l = { failedAt := if n = 3 then s.now else 0 } := by
  unfold State.linkClear State.now
  dsimp only
  rw [klink_setKlink, wr_clk, wr_clk, wr_clk]

end Sys2Proof.Machine
end

section
/-! SUPPORT. A link's failure and the stop of the logic, each in terms of what it sets first and what follows it (R373, R389). -/
namespace Sys2Proof.Machine

variable {s : State} {l : Nat}

theorem flag_setFld_zero (s : State) (a : Nat) {hi lo i : Nat} (h : hi < 32) (hl : lo ≤ i) (hi' : i ≤ hi) : (s.setFld a hi lo 0).flag a i = false := by
  unfold State.flag State.setFld
  rw [rd_wr_same, putBits_bit _ _ h (hl.trans hi') _ (by omega), if_pos ⟨hl, hi'⟩, Nat.zero_testBit]

/-- Raising an event keeps the pending bits of its page. -/
theorem flag_raise_of (s : State) (p b : Nat) {i : Nat} (h : ¬ msgReg (p + 0x10)) (hf : s.flag (p + 0x10) i = true) :
    (s.raise p b).flag (p + 0x10) i = true := by
  unfold State.flag State.raise at *
  rw [rd_raiseMask_sts s p _ h, bit_or, hf, Bool.true_or]

theorem klEvt_setKl (n : Nat) {i : Nat} (hf : s.flag (klPage + 0x10) i = true) : (s.setKl n).flag (klPage + 0x10) i = true := by
  unfold State.setKl
  split
  · exact hf
  · exact flag_raise_of _ _ _ (not_msgReg_kralon (by decide)) ((flag_congr (rd_setFld_ne s _ _ _ (by decide)) i).trans hf)

theorem Sends.klEvt {F : List Fld} {R : Nat → Bool} {t : State} (h : Sends F R s t) (hR : R (klPage + 0x10) = false) {i : Nat}
    (hf : s.flag (klPage + 0x10) i = true) : t.flag (klPage + 0x10) i = true :=
  (h.flag i (not_logReg_kralon (by decide)) hR).trans hf

theorem klEvt_k1Check {i : Nat} (hf : s.flag (klPage + 0x10) i = true) : s.k1Check.flag (klPage + 0x10) i = true := by
  unfold State.k1Check
  split
  · have h1 : (s.updKal fun k => { k with best := ownSerial, hops := 0, changed := s.now, elect := s.fld Reg.KL_CTL 23 16 }).flag (klPage + 0x10) i = true := hf
    exact (sendReport_sends _).klEvt (by decide) ((sendBeacons_sends _).klEvt (by decide) (klEvt_setKl 2 h1))
  · exact hf

/-! ## A link's failure -/

/-- Link l counted and shown as FAILED, and its failure logged where it has a reason. -/
def State.linkDown (s : State) (l : Nat) : Option Nat → State
  | some r => ((s.linkClear l 3).bump (Reg.LINK_CNT_FAIL l)).log 2 0x80 (blkId (klinkPage l)) (l * 2 ^ 48 + r)
  | none => (s.linkClear l 3).bump (Reg.LINK_CNT_FAIL l)

/-- The events of the failure of a link that was UP. -/
def State.linkLost (s : State) (l : Nat) : State := (s.raise (klinkPage l) 1).raise klPage 2

theorem linkFailed_eq (s : State) (l : Nat) (reason : Option Nat) : s.linkFailed l reason =
    if s.linkUp l then ((((s.linkDown l reason).linkLost l).linkEvent l 3 (s.linkSerial l)).cutCheck.news).k1Check
    else (s.linkDown l reason).k1Check := by
  cases reason <;> rfl

theorem linkDown_logs (s : State) (l : Nat) (reason : Option Nat) :
    Keeps logFlds (fun _ => false) ((s.linkClear l 3).bump (Reg.LINK_CNT_FAIL l)) (s.linkDown l reason) := by
  cases reason with
  | none => exact .refl _
  | some r => exact .log (.refl _)

theorem not_logReg_linkCntFail (l : Nat) : ¬ logReg (Reg.LINK_CNT_FAIL l) := not_logReg_link l (by decide) (by decide)

theorem klinkState_linkDown (s : State) (l : Nat) (reason : Option Nat) : (s.linkDown l reason).klinkState l = 3 := by
  rw [klinkState_congr ((linkDown_logs s l reason).rd _ (not_logReg_linkSts l) rfl),
    klinkState_congr (rd_bump_ne _ (by unfold Reg.LINK_STS Reg.LINK_CNT_FAIL; omega)), klinkState_linkClear (by decide)]

theorem klinkState_linkDown_ne {k : Nat} (reason : Option Nat) (h : k ≠ l) : (s.linkDown l reason).klinkState k = s.klinkState k := by
  rw [klinkState_congr ((linkDown_logs s l reason).rd _ (not_logReg_linkSts k) rfl),
    klinkState_congr (rd_bump_ne _ (by unfold Reg.LINK_STS Reg.LINK_CNT_FAIL; omega)), klinkState_linkClear_ne h]

theorem rd_linkDown_fail (s : State) (l : Nat) (reason : Option Nat) :
    (s.linkDown l reason).rd (Reg.LINK_CNT_FAIL l) = s.rd (Reg.LINK_CNT_FAIL l) + 1 := by
  rw [(linkDown_logs s l reason).rd _ (not_logReg_linkCntFail l) rfl, rd_bump_same, (linkClear_keeps s l 3).rd _ (not_logReg_linkCntFail l)
    (clearReg_ne (by unfold Reg.LINK_CNT_FAIL Reg.LINK_STS Reg.LINK_PEER_LO Reg.LINK_PEER_HI; omega))]

theorem klink_bump (s : State) (a l : Nat) : (s.bump a).klink l = s.klink l := klink_congr (wr_same (f := .klinks) s a _ (by decide)) l

theorem klink_linkDown (s : State) (l : Nat) (reason : Option Nat) : (s.linkDown l reason).klink l = { failedAt := s.now } := by
  rw [klink_congr ((linkDown_logs s l reason).same .klinks (by decide)), klink_bump, klink_linkClear]
  rfl

/-- The registers that what follows a link's failure may change. -/
def failReg (l a : Nat) : Bool := klReg a || a == klinkPage l + 0x10

theorem failReg_of_klReg {a : Nat} (h : klReg a = true) : failReg l a = true := by unfold failReg; rw [h]; rfl

/-- A register at another place of a link's page. -/
theorem failReg_link {r : Nat} (l k : Nat) (h : r % 0x1000 ≠ 0xC0 ∧ r % 0x1000 ≠ 0x10) (hr : 0x321000 ≤ r) :
    failReg l (r + 0x1000 * k) = false := by
  unfold failReg
  rw [klReg_link k h.1 hr, Bool.false_or, beq_eq_false_iff_ne]
  unfold klinkPage
  omega

theorem linkLost_keeps (s : State) (l : Nat) : Keeps klFlds (failReg l) s (s.linkLost l) := by
  have h1 : failReg l (klinkPage l + 0x10) = true := by unfold failReg; rw [beq_self_eq_true, Bool.or_true]
  exact .raise (.raise (.refl s) (by decide) h1) (by decide) (failReg_of_klReg klReg_klEvt)

theorem linkLost_sends (s : State) (l : Nat) : Sends klFlds (failReg l) s (s.linkLost l) :=
  .keep (linkLost_keeps s l) ((raise_klinks _ _ _).trans (raise_klinks _ _ _)) fun k =>
    linkUp_congr ((linkLost_keeps s l).rd _ (not_logReg_linkSts k) (failReg_link l k (by decide) (by decide)))

theorem Sends.toFail {t : State} (l : Nat) (h : Sends klFlds klReg s t) : Sends klFlds (failReg l) s t :=
  h.mono (fun _ h => h) fun _ => failReg_of_klReg

theorem linkFailed_sends (s : State) (l : Nat) (reason : Option Nat) :
    Sends klFlds (failReg l) (s.linkDown l reason) (s.linkFailed l reason) := by
  rw [linkFailed_eq]
  exact .ite ((((linkLost_sends _ l).trans ((linkEvent_sends _ _ _ _).toKl.toFail l)).trans
    ((((cutCheck_sends _).trans (news_sends _)).toKl).toFail l)).trans ((k1Check_sends _).toFail l)) ((k1Check_sends _).toFail l)

/-- A link that failed is FAILED since now with nothing kept, and counted; no other link changes its state. -/
theorem linkFailed_state (s : State) (l : Nat) (reason : Option Nat) :
    (s.linkFailed l reason).klinkState l = 3 ∧ (s.linkFailed l reason).klink l = { failedAt := s.now } ∧
    (s.linkFailed l reason).rd (Reg.LINK_CNT_FAIL l) = s.rd (Reg.LINK_CNT_FAIL l) + 1 ∧
    ∀ k, k ≠ l → (s.linkFailed l reason).klinkState k = s.klinkState k := by
  have h := linkFailed_sends s l reason
  have hst := klinkState_linkDown s l reason
  have hdown : (s.linkDown l reason).linkUp l = false := by unfold State.linkUp; rw [hst]; rfl
  exact ⟨(h.klinkState l (failReg_link l l (by decide) (by decide))).trans hst, (h.idle l hdown).trans (klink_linkDown s l reason),
    (h.rd _ (not_logReg_linkCntFail l) (failReg_link l l (by decide) (by decide))).trans (rd_linkDown_fail s l reason),
    fun k hk => (h.klinkState k (failReg_link l k (by decide) (by decide))).trans (klinkState_linkDown_ne reason hk)⟩

theorem not_msgReg_klinkPage (l : Nat) : ¬ msgReg (klinkPage l + 0x10) := by
  unfold klinkPage; exact not_msgReg (.inr (by omega)) (by omega)

theorem not_logReg_klinkPage (l : Nat) : ¬ logReg (klinkPage l + 0x10) := by
  unfold klinkPage; exact not_logReg (.inr (by omega)) (.inr (by omega)) (by unfold Reg.HP_CNT_VEC_DROP; omega)

theorem klReg_klinkPage (l : Nat) : klReg (klinkPage l + 0x10) = false := by
  unfold klReg txReg klinkPage klPage Reg.KL_STS
  simp only [Bool.or_eq_false_iff, beq_eq_false_iff_ne]
  omega

/-- The failure of a link that was UP raises LINK_DOWN on its page and on the KL page. -/
theorem linkFailed_raises (hup : s.linkUp l = true) (reason : Option Nat) :
    (s.linkFailed l reason).flag (klinkPage l + 0x10) 1 = true ∧ (s.linkFailed l reason).flag (klPage + 0x10) 2 = true := by
  rw [linkFailed_eq, if_pos hup]
  have hl : ((s.linkDown l reason).linkLost l).flag (klinkPage l + 0x10) 1 = true :=
    (flag_congr (rd_raise _ _ _ (not_msgReg_klinkPage l) (by unfold klinkPage klPage; omega)) 1).trans
      (flag_raise_self _ _ _ (by decide) (not_msgReg_klinkPage l))
  have hk : ((s.linkDown l reason).linkLost l).flag (klPage + 0x10) 2 = true := flag_raise_self _ _ _ (by decide) (not_msgReg_kralon (by decide))
  have h := ((linkEvent_sends ((s.linkDown l reason).linkLost l) l 3 (s.linkSerial l)).trans ((cutCheck_sends _).trans (news_sends _)))
  exact ⟨((h.toKl.trans (k1Check_sends _)).flag 1 (not_logReg_klinkPage l) (klReg_klinkPage l)).trans hl, klEvt_k1Check (h.klEvt (by decide) hk)⟩

/-! ## The stop of the logic -/

/-- A link that trains or is UP fails when the logic stops. -/
def State.stopLink (s : State) (l : Nat) : State :=
  if s.klinkState l = 1 ∨ s.klinkState l = 2 then ((s.linkClear l 3).bump (Reg.LINK_CNT_FAIL l)).linkLost l else s

/-- The module leaves the kaleidoscope. -/
def State.leaveKal (s : State) : State :=
  ((((s.updKal (fun k => { mseq := k.mseq, nextTid := k.nextTid, answers := k.answers })).wr Reg.KL_COORD_LO 0).wr Reg.KL_COORD_HI 0).setFld
    Reg.KL_STS 27 0 0).setKl 0

theorem klStop_eq (s : State) : s.klStop = (((List.range 8).foldl (fun (t : State) l => t.stopLink l) s).failPeers (fun _ => true)).leaveKal := rfl

/-- The registers that the stop of links may change. -/
def linksReg (a : Nat) : Bool := decide (0x321000 ≤ a) || a == klPage + 0x10

theorem linksReg_link {r : Nat} (l : Nat) (h : 0x321000 ≤ r) : linksReg (r + 0x1000 * l) = true := by
  unfold linksReg; rw [decide_eq_true (by omega), Bool.true_or]

theorem linkLost_keeps_links (s : State) (l : Nat) : Keeps klFlds linksReg s (s.linkLost l) := by
  have h1 : linksReg (klinkPage l + 0x10) = true := by unfold linksReg klinkPage; rw [decide_eq_true (by omega), Bool.true_or]
  have h2 : linksReg (klPage + 0x10) = true := by unfold linksReg; rw [beq_self_eq_true, Bool.or_true]
  exact .raise (.raise (.refl s) (by decide) h1) (by decide) h2

theorem linkClear_keeps_links (s : State) (l n : Nat) : Keeps [.regs, .klinks] linksReg s (s.linkClear l n) :=
  (linkClear_keeps s l n).mono (fun _ h => h) fun a ha => by
    unfold clearReg Reg.LINK_STS Reg.LINK_PEER_LO Reg.LINK_PEER_HI at ha
    simp only [Bool.or_eq_true, beq_iff_eq] at ha
    unfold linksReg
    rw [decide_eq_true (by omega), Bool.true_or]

theorem stopLink_keeps (s : State) (l : Nat) : Keeps klFlds linksReg s (s.stopLink l) :=
  .ite ((.bump ((linkClear_keeps_links s l 3).mono (by decide) fun _ h => h) (by decide) (linksReg_link l (by decide)) : Keeps klFlds linksReg s
    ((s.linkClear l 3).bump (Reg.LINK_CNT_FAIL l))).trans (linkLost_keeps_links _ l)) (.refl s)

theorem klinkState_linkLost (s : State) (l k : Nat) : (s.linkLost l).klinkState k = s.klinkState k :=
  (linkLost_sends s l).klinkState k (failReg_link l k (by decide) (by decide))

theorem klinkState_stopLink (s : State) (l : Nat) :
    (s.stopLink l).klinkState l = if s.klinkState l = 1 ∨ s.klinkState l = 2 then 3 else s.klinkState l := by
  unfold State.stopLink
  split
  · rw [klinkState_linkLost, klinkState_congr (rd_bump_ne _ (by unfold Reg.LINK_STS Reg.LINK_CNT_FAIL; omega)), klinkState_linkClear (by decide)]
  · exact Eq.refl (s.klinkState l)

theorem klinkState_stopLink_ne {k : Nat} (h : k ≠ l) : (s.stopLink l).klinkState k = s.klinkState k := by
  unfold State.stopLink
  split
  · rw [klinkState_linkLost, klinkState_congr (rd_bump_ne _ (by unfold Reg.LINK_STS Reg.LINK_CNT_FAIL; omega)), klinkState_linkClear_ne h]
  · exact Eq.refl (s.klinkState k)

theorem klinkState_stopAll (hl : l < 8) : ((List.range 8).foldl (fun (t : State) l => t.stopLink l) s).klinkState l =
    if s.klinkState l = 1 ∨ s.klinkState l = 2 then 3 else s.klinkState l := by
  obtain ⟨t, -, h1, h2⟩ := foldl_view (view := fun t => t.klinkState l) (P := fun _ => True) (fun (t : State) l => t.stopLink l)
    (fun t k hk => klinkState_stopLink_ne (Ne.symm hk)) (fun _ _ _ => trivial) (List.range 8) s List.nodup_range (List.mem_range.mpr hl) trivial
  exact h2.trans ((klinkState_stopLink t l).trans (by rw [h1]))

/-- The registers that the failure of a peer access may change. -/
def peerReg (a : Nat) : Bool := a == Reg.TF_CNT_PEER_FAIL || a == tfPage + 0x10

theorem peerFailed_keeps (s : State) (r : PeerReq) (n : Nat) : Keeps (Fld.harts :: klFlds) peerReg s (s.peerFailed r n) := by
  unfold State.peerFailed
  split
  · exact .raise (.bump ((Keeps.refl s).viaNoReg (setHart_same s _ _)))
  · exact .updKal (.refl s)

theorem failPeers_keeps (s : State) (p : PeerReq → Bool) : Keeps (Fld.harts :: klFlds) peerReg s (s.failPeers p) :=
  .foldl _ (fun t r => (Keeps.updKal (.refl t)).trans (peerFailed_keeps _ r 4)) _ _

/-- The registers that leaving the kaleidoscope changes. -/
def leaveReg (a : Nat) : Bool := a == Reg.KL_COORD_LO || a == Reg.KL_COORD_HI || a == Reg.KL_STS || a == klPage + 0x10

theorem setKl_keeps_leave (s : State) (n : Nat) : Keeps klFlds leaveReg s (s.setKl n) := .ite (.refl s) (.raise (.setFld (.refl s)))

theorem leaveKal_keeps (s : State) : Keeps klFlds leaveReg s s.leaveKal :=
  (Keeps.setFld (.wr (.wr (.updKal (.refl s))))).trans (setKl_keeps_leave _ 0)

theorem leaveReg_link {r : Nat} (l : Nat) (h : 0x321000 ≤ r) : leaveReg (r + 0x1000 * l) = false := by
  unfold leaveReg Reg.KL_COORD_LO Reg.KL_COORD_HI Reg.KL_STS klPage
  simp only [Bool.or_eq_false_iff, beq_eq_false_iff_ne]
  omega

theorem peerReg_link {r : Nat} (l : Nat) (h : 0x321000 ≤ r) : peerReg (r + 0x1000 * l) = false := by
  unfold peerReg Reg.TF_CNT_PEER_FAIL tfPage
  simp only [Bool.or_eq_false_iff, beq_eq_false_iff_ne]
  omega

theorem klinkState_leaveKal (s : State) (l : Nat) : s.leaveKal.klinkState l = s.klinkState l :=
  klinkState_congr ((leaveKal_keeps s).rd _ (not_logReg_linkSts l) (leaveReg_link l (by decide)))

theorem klinkState_failPeers (s : State) (p : PeerReq → Bool) (l : Nat) : (s.failPeers p).klinkState l = s.klinkState l :=
  klinkState_congr ((failPeers_keeps s p).rd _ (not_logReg_linkSts l) (peerReg_link l (by decide)))

theorem kal_leaveKal (s : State) : s.leaveKal.kal = { mseq := s.kal.mseq, nextTid := s.kal.nextTid, answers := s.kal.answers } :=
  (kal_setKl _ 0).trans ((setFld_same (f := .kal) _ _ _ _ _ (by decide)).trans
    ((wr_same (f := .kal) _ _ _ (by decide)).trans (wr_same (f := .kal) _ _ _ (by decide))))

theorem isCoord_leaveKal (s : State) : s.leaveKal.isCoord = false := by
  unfold State.leaveKal State.setKl
  split
  · exact flag_setFld_zero _ _ (by decide) (by decide) (by decide)
  · exact (flag_congr (rd_raise _ _ _ (not_msgReg_kralon (by decide)) (by decide)) 27).trans
      ((flag_setFld_ne _ _ _ (by decide) (by decide) (by decide) (by decide)).trans (flag_setFld_zero _ _ (by decide) (by decide) (by decide)))

/-- The stop leaves no link training or UP, no kaleidoscope and no peer access. -/
theorem klStop_state (s : State) : s.klStop.klState = 0 ∧ s.klStop.isCoord = false ∧ s.klStop.kal.routes = [] ∧ s.klStop.kal.peers = [] ∧
    ∀ l, l < 8 → s.klStop.klinkState l = if s.klinkState l = 1 ∨ s.klinkState l = 2 then 3 else s.klinkState l := by
  rw [klStop_eq, kal_leaveKal]
  refine ⟨klState_setKl (by decide), isCoord_leaveKal _, rfl, rfl, fun l hl => ?_⟩
  rw [klinkState_leaveKal, klinkState_failPeers, klinkState_stopAll hl]

theorem klCtl_klStop (s : State) (i : Nat) : s.klStop.flag Reg.KL_CTL i = s.flag Reg.KL_CTL i := by
  rw [klStop_eq]
  exact ((leaveKal_keeps _).flag i (not_logReg_kralon (by decide)) (by decide)).trans
    (((failPeers_keeps _ _).flag i (not_logReg_kralon (by decide)) (by decide)).trans
      ((Keeps.foldl (fun (t : State) l => t.stopLink l) (fun t l => stopLink_keeps t l) _ _).flag i (not_logReg_kralon (by decide)) (by decide)))

end Sys2Proof.Machine
end

section
/-! SUPPORT. The training and the failure of links (O48, R367, R373, R379, R389, R390). -/
namespace Sys2Proof.Machine

variable {s : State} {l : Nat}

theorem bit_eq_bits {w : Nat} (v : BitVec w) (i : Nat) : bit v i = decide (bits v i i = 1) := by
  unfold bit bits nbits
  rw [show i + 1 - i = 1 by omega, pow_one, BitVec.getLsbD, Nat.testBit_eq_decide_div_mod_eq]

/-- A stored bit where no clamp reaches it. -/
theorem flag_store_unclamped (s : State) (req : Req) {a : Nat} (v : Word) {d : RegDef} {i : Nat} (hd : defAt a = some d)
    (hc : fieldUnclamped a i i = true) (hi : i < 32) (h : (s.store req a v).2 = true) (hm : bits (BitVec.ofNat 32 d.rw) i i = 1) :
    (s.store req a v).1.flag a i = bit v i := by
  unfold State.flag
  rw [bit_eq_bits, bit_eq_bits]
  exact congrArg (fun n => decide (n = 1)) (fld_store_unclamped s req v hd hc hi h (hm.trans (by rw [show i + 1 - i = 1 by omega]; rfl)))

/-- The definition of KL_CTL and those of LINK_CTL. -/
def klCtlDef : RegDef := { off := 0x40, reset := 0xa640000, rw := 0xffff0001, lk0 := 0xffff0000 }
def linkCtlDef : RegDef := { off := 0x40, rw := 0xff01, lk0 := 0xff00 }

theorem defAt_klCtl : defAt Reg.KL_CTL = some klCtlDef := by decide
theorem defAt_linkCtl (l : Fin 8) : defAt (Reg.LINK_CTL l) = some linkCtlDef := by revert l; decide

theorem flag_store_klCtl {req : Req} {v : Word} (h : (s.store req Reg.KL_CTL v).2 = true) : (s.store req Reg.KL_CTL v).1.flag Reg.KL_CTL 0 = bit v 0 :=
  flag_store_unclamped s req v defAt_klCtl (by decide) (by decide) h (by decide)

theorem unclamped_linkCtl (l : Fin 8) : fieldUnclamped (Reg.LINK_CTL l) 0 0 = true := by revert l; decide

theorem flag_store_linkCtl {req : Req} {v : Word} (l : Fin 8) (h : (s.store req (Reg.LINK_CTL l) v).2 = true) :
    (s.store req (Reg.LINK_CTL l) v).1.flag (Reg.LINK_CTL l) 0 = bit v 0 :=
  flag_store_unclamped s req v (defAt_linkCtl l) (unclamped_linkCtl l) (by decide) h (by decide)

theorem taken_klinkState (s t : State) {w : List Fld} (h : .regs ∈ w) (l : Nat) : (s.taken t w).klinkState l = t.klinkState l :=
  klinkState_congr (taken_rd s t h _)

theorem taken_klState (s t : State) {w : List Fld} (h : .regs ∈ w) : (s.taken t w).klState = t.klState := taken_fld s t h _ 31 28

theorem taken_klink (s t : State) {w : List Fld} (h : .klinks ∈ w) (l : Nat) : (s.taken t w).klink l = t.klink l :=
  klink_congr (by rw [taken_klinks, if_pos h]) l

/-- What a write of KL_CTL may change, and what one of LINK_CTL may. -/
def klCtlFlds : List Fld := [.regs, .held, .wosDone, .flogRing, .flogLast, .holding, .hevt, .msix, .out, .harts, .klinks, .kal]
def linkCtlFlds : List Fld := [.regs, .held, .wosDone, .flogRing, .flogLast, .holding, .hevt, .msix, .out, .klinks, .kal]

/-- What the steps of a link's training and its failure may change. -/
def trainedFlds : List Fld := [.regs, .holding, .hevt, .msix, .out, .klinks, .kal]
def failedFlds : List Fld := [.regs, .flogRing, .holding, .hevt, .msix, .out, .klinks, .kal]

theorem exec_klEnable {req : BitVec 16} {v : Word} {u : State} (h : s.klCtl req (v ||| 1) = u) :
    exec (.klEnable req v) s = .next (s.taken u klCtlFlds) := by subst h; rfl

theorem exec_klDisable {req : BitVec 16} {v : Word} {u : State} (h : s.klCtl req (v &&& 0xFFFFFFFE) = u) :
    exec (.klDisable req v) s = .next (s.taken u klCtlFlds) := by subst h; rfl

theorem exec_linkEnable {req : BitVec 16} {l : Fin 8} {v : Word} {u : State} (h : s.linkCtl req l (v ||| 1) = u) :
    exec (.linkEnable req l v) s = .next (s.taken u linkCtlFlds) := by subst h; rfl

theorem exec_linkDisable {req : BitVec 16} {l : Fin 8} {v : Word} {u : State} (h : s.linkCtl req l (v &&& 0xFFFFFFFE) = u) :
    exec (.linkDisable req l v) s = .next (s.taken u linkCtlFlds) := by subst h; rfl

theorem exec_linkTrained {l : Fin 8} {u : State} (h : s.linkTrained l = u) : exec (.linkTrained l) s = .next (s.taken u trainedFlds) := by
  subst h; rfl

theorem exec_linkTrainTimeout {l : Fin 8} {u : State} (h : s.linkTimeout l = u) :
    exec (.linkTrainTimeout l) s = .next (s.taken u failedFlds) := by subst h; rfl

theorem exec_trainingRetry {l : Fin 8} {u : State} (h : s.linkRetry l = u) :
    exec (.trainingRetry l) s = .next (s.taken u [.regs, .klinks]) := by subst h; rfl

theorem exec_linkFail {l : Fin 8} {lane : Bool} {u : State} (h : s.linkFail l lane = u) :
    exec (.linkFail l lane) s = .next (s.taken u failedFlds) := by subst h; rfl

/-! ## Writes of KL_CTL and LINK_CTL -/

section
variable {req : BitVec 16} {v : Word}

theorem klCtl_starts (h : (s.store req Reg.KL_CTL (v ||| 1)).2 = true) : s.klCtl req (v ||| 1) = (s.store req Reg.KL_CTL (v ||| 1)).1.klStart := by
  unfold State.klCtl
  dsimp only
  rw [storeThen_eq _ _ _ _ _ h, if_pos ((flag_store_klCtl h).trans (bit_enable v))]

theorem klCtl_stops (h : (s.store req Reg.KL_CTL (v &&& 0xFFFFFFFE)).2 = true) (hon : s.flag Reg.KL_CTL 0 = true) :
    s.klCtl req (v &&& 0xFFFFFFFE) = (s.store req Reg.KL_CTL (v &&& 0xFFFFFFFE)).1.klStop := by
  unfold State.klCtl
  dsimp only
  rw [storeThen_eq _ _ _ _ _ h, (flag_store_klCtl h).trans (bit_disable v), if_neg Bool.false_ne_true, if_pos hon]

theorem now_store {a : Nat} {w : Word} (h : (s.store req a w).2 = true) : (s.store req a w).1.now = s.now := by
  unfold State.now
  rw [store_same (f := .clk) s req a w h (by decide)]

theorem klinkState_store {a : Nat} {w : Word} (h : (s.store req a w).2 = true) (k : Nat) (ha : Reg.LINK_STS k ≠ a) :
    (s.store req a w).1.klinkState k = s.klinkState k := klinkState_congr (rd_store_ne s req w ha h)

/-- The start keeps the enable of the logic. -/
theorem klCtl_klStart (s : State) (i : Nat) : s.klStart.flag Reg.KL_CTL i = s.flag Reg.KL_CTL i := by
  unfold State.klStart
  split
  · exact ((k1Check_sends _).flag i (not_logReg_kralon (by decide)) (by decide)).trans
      (((Keeps.foldl _ trainLink_keeps _ _).flag i (not_logReg_kralon (by decide)) (by decide)).trans
        ((setKl_keeps s 1).flag i (not_logReg_kralon (by decide)) (by decide)))
  · exact Eq.refl (s.flag Reg.KL_CTL i)

theorem klEnable_result (hst : (s.store req Reg.KL_CTL (v ||| 1)).2 = true) (hready : s.ready = true) (hout : s.klState = 0) :
    ∃ t, exec (.klEnable req v) s = .next t ∧ t.flag Reg.KL_CTL 0 = true ∧
      (∀ l, l < 8 → s.flag (Reg.LINK_CTL l) 0 = true → s.klinkState l ≠ 2 → t.klState = 1 ∧ t.klinkState l = 1 ∧ (t.klink l).trainFrom = s.now) ∧
      ((∀ l, l < 8 → s.flag (Reg.LINK_CTL l) 0 = false) → t.klState = 2) := by
  refine ⟨_, exec_klEnable (klCtl_starts hst), ?_⟩
  have hon := (flag_store_klCtl hst).trans (bit_enable v)
  have hr : (s.store req Reg.KL_CTL (v ||| 1)).1.ready = true := (flag_congr (rd_store_ne s req _ (by decide) hst) 31).trans hready
  have hk : (s.store req Reg.KL_CTL (v ||| 1)).1.klState = 0 := (fld_congr (rd_store_ne s req _ (by decide) hst) 31 28).trans hout
  have hl (l : Nat) : (s.store req Reg.KL_CTL (v ||| 1)).1.flag (Reg.LINK_CTL l) 0 = s.flag (Reg.LINK_CTL l) 0 :=
    flag_congr (rd_store_ne s req _ (by unfold Reg.LINK_CTL Reg.KL_CTL; omega) hst) 0
  simp only [taken_flag _ _ (show Fld.regs ∈ klCtlFlds by decide), taken_klState _ _ (show Fld.regs ∈ klCtlFlds by decide),
    taken_klinkState _ _ (show Fld.regs ∈ klCtlFlds by decide), taken_klink _ _ (show Fld.klinks ∈ klCtlFlds by decide)]
  refine ⟨(klCtl_klStart _ 0).trans hon, fun l h8 he hs => ?_, fun h => klStart_goesOn hon hr hk fun l h8 => (hl l).trans (h l h8)⟩
  obtain ⟨h1, h2, h3⟩ := klStart_trains ⟨hon, hr, (hl l).trans he, fun e => hs ((klinkState_store hst l (by
    unfold Reg.LINK_STS Reg.KL_CTL; omega)).symm.trans e)⟩ h8 hk
  exact ⟨h1, h2, h3.trans (now_store hst)⟩

theorem klDisable_result (hst : (s.store req Reg.KL_CTL (v &&& 0xFFFFFFFE)).2 = true) (hon : s.flag Reg.KL_CTL 0 = true) :
    ∃ t, exec (.klDisable req v) s = .next t ∧ t.flag Reg.KL_CTL 0 = false ∧ t.klState = 0 ∧ t.isCoord = false ∧ t.kal.routes = [] ∧ t.kal.peers = [] ∧
      ∀ l, l < 8 → t.klinkState l = if s.klinkState l = 1 ∨ s.klinkState l = 2 then 3 else s.klinkState l := by
  refine ⟨_, exec_klDisable (klCtl_stops hst hon), ?_⟩
  obtain ⟨hk, hc, hr, hp, hl⟩ := klStop_state (s.store req Reg.KL_CTL (v &&& 0xFFFFFFFE)).1
  unfold State.isCoord at *
  rw [taken_flag _ _ (by decide), taken_flag _ _ (by decide), taken_klState _ _ (by decide), taken_kal, if_pos (by decide), klCtl_klStop]
  refine ⟨(flag_store_klCtl hst).trans (bit_disable v), hk, hc, hr, hp, fun l h8 => ?_⟩
  rw [taken_klinkState _ _ (by decide), hl l h8, klinkState_store hst l (by unfold Reg.LINK_STS Reg.KL_CTL; omega)]

end

end Sys2Proof.Machine
end

section
/-! SUPPORT. The links' own rows, and their obligation (O48). -/
namespace Sys2Proof.Machine

variable {s : State} {l : Fin 8}

/-- No link but l changes its state. -/
def OthersStay (l : Nat) (s t : State) : Prop := ∀ k, k < 8 → k ≠ l → t.klinkState k = s.klinkState k

theorem linkSts_ne_linkCtl (k l : Nat) : Reg.LINK_STS k ≠ Reg.LINK_CTL l := by unfold Reg.LINK_STS Reg.LINK_CTL; omega

theorem klinkState_trainLink_ne {k l : Nat} (h : k ≠ l) : (s.trainLink l).klinkState k = s.klinkState k := congrArg Prod.fst (trainLink_ne h)

theorem linkEnable_result {req : BitVec 16} {v : Word} (hst : (s.store req (Reg.LINK_CTL l) (v ||| 1)).2 = true) (hdown : s.klinkState l = 0) :
    ∃ t, exec (.linkEnable req l v) s = .next t ∧ OthersStay l s t ∧
      ((s.flag Reg.KL_CTL 0 = true ∧ s.ready = true) → t.klinkState l = 1 ∧ (t.klink l).trainFrom = s.now) ∧
      ((s.flag Reg.KL_CTL 0 = false ∨ s.ready = false) → t.klinkState l = 0) := by
  let u := (s.store req (Reg.LINK_CTL l) (v ||| 1)).1
  have hon : u.flag (Reg.LINK_CTL l) 0 = true := (flag_store_linkCtl l hst).trans (bit_enable v)
  have hsts (k : Nat) : u.klinkState k = s.klinkState k := klinkState_store hst k (linkSts_ne_linkCtl k l)
  have hctl : u.flag Reg.KL_CTL 0 = s.flag Reg.KL_CTL 0 := flag_congr (rd_store_ne s req _ (by unfold Reg.KL_CTL Reg.LINK_CTL; omega) hst) 0
  have hready : u.ready = s.ready := flag_congr (rd_store_ne s req _ (by unfold Reg.AO_EMG_STS Reg.LINK_CTL; omega) hst) 31
  have he : s.linkCtl req l (v ||| 1) = u.trainLink l := by
    unfold State.linkCtl
    rw [storeThen_eq _ _ _ _ _ hst]
    dsimp only
    rw [if_pos hon, if_pos ((hsts l).trans hdown)]
  refine ⟨_, exec_linkEnable he, fun k _ hk => ?_, fun ⟨hk, hr⟩ => ?_, fun h => ?_⟩
  · rw [taken_klinkState _ _ (by decide), klinkState_trainLink_ne hk, hsts]
  · rw [taken_klinkState _ _ (by decide), taken_klink _ _ (by decide)]
    obtain ⟨h1, h2⟩ := trainLink_trains (s := u) (l := l) ⟨hctl.trans hk, hready.trans hr, hon, by rw [hsts, hdown]; decide⟩
    exact ⟨h1, h2.trans (now_store hst)⟩
  · rw [taken_klinkState _ _ (by decide), trainLink_stays (by
      rintro ⟨h1, h2, -, -⟩
      rcases h with h | h
      · rw [hctl, h] at h1; exact nomatch h1
      · rw [hready, h] at h2; exact nomatch h2), hsts, hdown]

/-- What follows the end of a link that is taken DOWN changes no link's state and not its far end. -/
theorem linkDisable_result {req : BitVec 16} {v : Word} (hst : (s.store req (Reg.LINK_CTL l) (v &&& 0xFFFFFFFE)).2 = true) :
    ∃ t, exec (.linkDisable req l v) s = .next t ∧ t.klinkState l = 0 ∧ OthersStay l s t ∧ (s.klinkState l ≠ 0 → t.linkSerial l = 0) := by
  let u := (s.store req (Reg.LINK_CTL l) (v &&& 0xFFFFFFFE)).1
  have hoff : u.flag (Reg.LINK_CTL l) 0 = false := (flag_store_linkCtl l hst).trans (bit_disable v)
  have hsts (k : Nat) : u.klinkState k = s.klinkState k := klinkState_store hst k (linkSts_ne_linkCtl k l)
  by_cases hdown : s.klinkState l = 0
  · have he : s.linkCtl req l (v &&& 0xFFFFFFFE) = u := by
      unfold State.linkCtl
      rw [storeThen_eq _ _ _ _ _ hst]
      dsimp only
      rw [hoff, if_neg Bool.false_ne_true, if_pos ((hsts l).trans hdown)]
    refine ⟨_, exec_linkDisable he, ?_, fun k _ _ => ?_, fun h => absurd hdown h⟩
    · rw [taken_klinkState _ _ (by decide), hsts, hdown]
    · rw [taken_klinkState _ _ (by decide), hsts]
  · have hsend : ∃ x, s.linkCtl req l (v &&& 0xFFFFFFFE) = x ∧ Sends klFlds klReg (u.linkClear l 0) x := by
      refine ⟨_, rfl, ?_⟩
      unfold State.linkCtl
      rw [storeThen_eq _ _ _ _ _ hst]
      dsimp only
      rw [hoff, if_neg Bool.false_ne_true, if_neg (by rw [hsts]; exact hdown)]
      exact .ite ((((linkEvent_sends _ _ _ _).trans (cutCheck_sends _)).trans (news_sends _)).toKl.trans (k1Check_sends _)) (k1Check_sends _)
    obtain ⟨x, hx, h⟩ := hsend
    refine ⟨_, exec_linkDisable hx, ?_, fun k _ hk => ?_, fun _ => ?_⟩
    · rw [taken_klinkState _ _ (by decide), h.klinkState l (klReg_link l (by decide) (by decide)), klinkState_linkClear (by decide)]
    · rw [taken_klinkState _ _ (by decide), h.klinkState k (klReg_link k (by decide) (by decide)), klinkState_linkClear_ne hk, hsts]
    · obtain ⟨hlo, hhi⟩ := rd_linkClear_peer u l 0
      unfold State.linkSerial
      rw [taken_rd _ _ (by decide), taken_rd _ _ (by decide), h.rd _ (not_logReg_link l (by decide) (by decide)) (klReg_link l (by decide) (by decide)),
        h.rd _ (not_logReg_link l (by decide) (by decide)) (klReg_link l (by decide) (by decide)), hlo, hhi]
      rfl

/-! ## A link that comes UP -/

/-- The link as lock makes it: UP with all lanes, its event raised. -/
def State.linkLocked (s : State) (l : Nat) : State :=
  (((s.setKlink l { heard := s.now, sent := s.now }).setFld (Reg.LINK_STS l) 31 30 2).setFld (Reg.LINK_STS l) 11 8 15).raise (klinkPage l) 0

theorem linkTrained_eq {l : Nat} (h : s.klinkState l = 1) : s.linkTrained l =
    if (s.linkLocked l).cutCheck.klState = 1 then (s.linkLocked l).cutCheck.k1Check else (s.linkLocked l).cutCheck.news.sendReport := if_pos h

theorem linkTrained_sends {l : Nat} (h : s.klinkState l = 1) : Sends klFlds klReg (s.linkLocked l) (s.linkTrained l) := by
  rw [linkTrained_eq h]
  exact .ite ((cutCheck_sends _).toKl.trans (k1Check_sends _)) (((cutCheck_sends _).trans (news_sends _)).trans (sendReport_sends _)).toKl

/-- Another register than the event status of the link keeps what the two fields made of it. -/
theorem rd_linkLocked (s : State) (l a : Nat) (h : ¬ msgReg a) (ha : a ≠ klinkPage l + 0x10) : (s.linkLocked l).rd a =
    (((s.setKlink l { heard := s.now, sent := s.now }).setFld (Reg.LINK_STS l) 31 30 2).setFld (Reg.LINK_STS l) 11 8 15).rd a := rd_raise _ _ _ h ha

theorem linkSts_ne_klinkPage (k l : Nat) : Reg.LINK_STS k ≠ klinkPage l + 0x10 := by unfold Reg.LINK_STS klinkPage; omega

theorem linkTrained_result (h : s.klinkState l = 1) : ∃ t, exec (.linkTrained l) s = .next t ∧ t.klinkState l = 2 ∧ t.fld (Reg.LINK_STS l) 11 8 = 15 ∧
    t.flag (klinkPage l + 0x10) 0 = true ∧ OthersStay l s t := by
  have hs := linkTrained_sends h
  have hrd (k : Nat) := rd_linkLocked s l (Reg.LINK_STS k) (fun e => not_logReg_linkSts k (.inl e)) (linkSts_ne_klinkPage k l)
  refine ⟨_, exec_linkTrained rfl, ?_, ?_, ?_, fun k _ hk => ?_⟩
  · rw [taken_klinkState _ _ (by decide), hs.klinkState l (klReg_link l (by decide) (by decide)), klinkState_congr (hrd l)]
    exact (fld_setFld_ne _ _ _ (by decide) (by decide) (by decide) (by decide)).trans (klinkState_setFld (by decide))
  · rw [taken_fld _ _ (by decide), hs.fld 11 8 (not_logReg_linkSts l) (klReg_link l (by decide) (by decide)), fld_congr (hrd l)]
    exact fld_setFld _ _ _ (by decide) (by decide)
  · rw [taken_flag _ _ (by decide), hs.flag 0 (not_logReg_klinkPage l) (klReg_klinkPage l)]
    exact flag_raise_self _ _ _ (by decide) (not_msgReg_klinkPage l)
  · have hne : Reg.LINK_STS k ≠ Reg.LINK_STS l := by unfold Reg.LINK_STS; omega
    rw [taken_klinkState _ _ (by decide), hs.klinkState k (klReg_link k (by decide) (by decide)), klinkState_congr (hrd k),
      klinkState_congr (rd_setFld_ne _ _ _ _ hne), klinkState_congr (rd_setFld_ne _ _ _ _ hne), klinkState_congr (rd_setKlink _ _ _ _)]

/-! ## Failure -/

theorem linkTimeout_result (h : s.klinkState l = 1) (hd : (s.klink l).trainFrom + 80000000 ≤ s.now) :
    ∃ t, exec (.linkTrainTimeout l) s = .next t ∧ t.klinkState l = 3 ∧
      (t.klink l).failedAt = s.now ∧ t.rd (Reg.LINK_CNT_FAIL l) = s.rd (Reg.LINK_CNT_FAIL l) + 1 ∧ OthersStay l s t := by
  have he : s.linkTimeout l = s.linkFailed l none := if_pos ⟨h, hd⟩
  obtain ⟨hst, hk, hc, ho⟩ := linkFailed_state s l none
  refine ⟨_, exec_linkTrainTimeout he, ?_, ?_, ?_, fun k _ hk => ?_⟩
  · rw [taken_klinkState _ _ (by decide), hst]
  · rw [taken_klink _ _ (by decide), hk]
  · rw [taken_rd _ _ (by decide), hc]
  · rw [taken_klinkState _ _ (by decide), ho k hk]

theorem linkRetry_trains (h : s.klinkState l = 3) (hd : (s.klink l).failedAt + 1000000000 ≤ s.now) (hk : s.flag Reg.KL_CTL 0 = true)
    (hr : s.ready = true) (hl : s.flag (Reg.LINK_CTL l) 0 = true) :
    ∃ t, exec (.trainingRetry l) s = .next t ∧ t.klinkState l = 1 ∧ (t.klink l).trainFrom = s.now ∧ OthersStay l s t := by
  have he : s.linkRetry l = s.trainLink l := if_pos ⟨h, hd⟩
  obtain ⟨h1, h2⟩ := trainLink_trains (s := s) (l := l) ⟨hk, hr, hl, by rw [h]; decide⟩
  refine ⟨_, exec_trainingRetry he, ?_, ?_, fun k _ hk => ?_⟩
  · rw [taken_klinkState _ _ (by decide), h1]
  · rw [taken_klink _ _ (by decide), h2]
  · rw [taken_klinkState _ _ (by decide), klinkState_trainLink_ne hk]

theorem linkRetry_stays (h : s.klinkState l ≠ 3 ∨ s.now < (s.klink l).failedAt + 1000000000) :
    ∃ t, exec (.trainingRetry l) s = .next t ∧ t.klinkState l = s.klinkState l ∧ t.klinks = s.klinks := by
  have he : s.linkRetry l = s := if_neg (by omega)
  refine ⟨_, exec_trainingRetry he, taken_klinkState _ _ (by decide) _, ?_⟩
  rw [taken_klinks, if_pos (by decide)]

theorem linkFail_fails {lane : Bool} (hup : s.linkUp l = true)
    (h : lane = true ∨ (s.klink l).heard + 4000 ≤ s.now ∨ ∃ f ∈ (s.klink l).replay, 8 ≤ f.resent) :
    ∃ r, s.linkFail l lane = s.linkFailed l (some r) := by
  unfold State.linkFail
  dsimp only
  rw [hup, if_neg (by decide)]
  split
  · exact ⟨1, rfl⟩
  next hlane =>
    split
    · exact ⟨0, rfl⟩
    next hheard =>
      obtain ⟨f, hf, h8⟩ := (h.resolve_left hlane).resolve_left hheard
      exact ⟨2, if_pos (List.any_eq_true.mpr ⟨f, hf, decide_eq_true h8⟩)⟩

theorem linkFail_result {lane : Bool} (hup : s.linkUp l = true)
    (h : lane = true ∨ (s.klink l).heard + 4000 ≤ s.now ∨ ∃ f ∈ (s.klink l).replay, 8 ≤ f.resent) :
    ∃ t, exec (.linkFail l lane) s = .next t ∧ t.klinkState l = 3 ∧ t.rd (Reg.LINK_CNT_FAIL l) = s.rd (Reg.LINK_CNT_FAIL l) + 1 ∧
      (t.klink l).replay = [] ∧ t.flag (klinkPage l + 0x10) 1 = true ∧ t.flag (klPage + 0x10) 2 = true ∧ OthersStay l s t := by
  obtain ⟨r, he⟩ := linkFail_fails hup h
  obtain ⟨hst, hk, hc, ho⟩ := linkFailed_state s l (some r)
  obtain ⟨h1, h2⟩ := linkFailed_raises hup (some r)
  refine ⟨_, exec_linkFail he, ?_, ?_, ?_, ?_, ?_, fun k _ hk => ?_⟩
  · rw [taken_klinkState _ _ (by decide), hst]
  · rw [taken_rd _ _ (by decide), hc]
  · rw [taken_klink _ _ (by decide), hk]
  · rw [taken_flag _ _ (by decide), h1]
  · rw [taken_flag _ _ (by decide), h2]
  · rw [taken_klinkState _ _ (by decide), ho k hk]

theorem linkFail_stays (hh : s.now < (s.klink l).heard + 4000) (hr : ∀ f ∈ (s.klink l).replay, f.resent < 8) :
    ∃ t, exec (.linkFail l false) s = .next t ∧ t.klinks = s.klinks ∧ t.klinkState l = s.klinkState l := by
  have he : s.linkFail l false = s := by
    have hany : (s.klink l).replay.any (fun f => decide (8 ≤ f.resent)) = false :=
      List.any_eq_false.mpr fun f hf => by rw [decide_eq_true_iff]; exact Nat.not_le.mpr (hr f hf)
    unfold State.linkFail
    dsimp only
    rw [hany, if_neg (Nat.not_le.mpr hh), if_neg Bool.false_ne_true, if_neg Bool.false_ne_true, ite_self]
  refine ⟨_, exec_linkFail he, ?_, taken_klinkState _ _ (by decide) _⟩
  rw [taken_klinks, if_pos (by decide)]

theorem linkTrained_stays (h : s.klinkState l ≠ 1) :
    ∃ t, exec (.linkTrained l) s = .next t ∧ t.klinks = s.klinks ∧ t.klinkState l = s.klinkState l := by
  have he : s.linkTrained l = s := if_neg h
  refine ⟨_, exec_linkTrained he, ?_, taken_klinkState _ _ (by decide) _⟩
  rw [taken_klinks, if_pos (by decide)]

/-- Settles O48: the writes of the enables, training, its end and its retry, and the failure of a link, each by what it sets and by what
the messages that follow leave alone. -/
theorem linkTrainingAndFailure : Obligations.LinkTrainingAndFailure := by
  unfold Obligations.LinkTrainingAndFailure
  exact ⟨fun _ _ _ => ⟨klEnable_result, klDisable_result⟩, fun _ _ _ _ => ⟨linkEnable_result, linkDisable_result, linkTrained_result,
    linkTrained_stays, linkTimeout_result, linkRetry_trains, linkRetry_stays, fun _ => linkFail_result, linkFail_stays⟩⟩

end Sys2Proof.Machine
end

section
/-! SUPPORT. The arrival of a flit: what is taken from it before it is handled (R368, R371, R372). -/
namespace Sys2Proof.Machine

variable {s t : State} {l : Nat}

/-- The counter of flits received of some link. -/
def rxReg (a : Nat) : Bool := a % 0x1000 == 0xC4 && decide (0x321000 ≤ a)

theorem rxReg_linkCntRx (l : Nat) : rxReg (Reg.LINK_CNT_RX l) = true := by
  unfold rxReg Reg.LINK_CNT_RX; rw [decide_eq_true (by omega), Bool.and_true, beq_iff_eq]; omega

theorem rxReg_low {a : Nat} (h : a < 0x321000) : rxReg a = false := by
  unfold rxReg; rw [decide_eq_false (by omega), Bool.and_false]

theorem rxReg_link {r : Nat} (l : Nat) (h : r % 0x1000 ≠ 0xC4) : rxReg (r + 0x1000 * l) = false := by
  unfold rxReg; rw [beq_eq_false_iff_ne.mpr (by omega), Bool.false_and]

/-- The replay buffer once the ACK of a flit has been taken. -/
def KLink.acked (x : KLink) (b : Bytes) : List Flit :=
  match x.replay.findIdx? (fun f => f.seq == nbits (hdrOf b) 45 34) with
  | some i => x.replay.drop (i + 1)
  | none => x.replay

/-- The credits once those that a flit returns have been taken. -/
def KLink.credited (x : KLink) (b : Bytes) : List Nat := updAt x.credits (nbits (hdrOf b) 47 46) (· + nbits (hdrOf b) 55 48)

/-- The state in which an arriving flit of type `t` is handled: its ACK and credits taken, the flit counted and expected no more. -/
def State.received (s : State) (l t : Nat) (b : Bytes) : State :=
  let u := if t = 0 then s.takeAck l b else (s.takeAck l b).bump (Reg.LINK_CNT_RX l)
  if t = 0 ∨ t = 5 then u
  else u.updKlink l (fun x => { x with expect := (x.expect + 1) % 4096, owe := updAt x.owe (nbits (hdrOf b) 21 20) (· + 1) })

/-- An intact flit, next in order and of the type handled, is handled once received; then the link sends what waits. -/
theorem flitIn_eq {ty : Nat} {b : Bytes} (h : s.flitArrives l ty b) (k : State → State) : s.flitIn l ty b k = (k (s.received l ty b)).flushLink l 512 := by
  obtain ⟨hup, hgood, hord, hty⟩ := h
  unfold State.flitIn
  rw [hup, hgood, hord, if_neg (by decide), if_neg (by decide), if_neg (by rw [hty]; exact fun e => e rfl)]
  rfl

theorem klink_takeAck (s : State) (l : Nat) (b : Bytes) :
    (s.takeAck l b).klink l = { s.klink l with heard := s.now, replay := (s.klink l).acked b, credits := (s.klink l).credited b } :=
  klink_updKlink_same _ _ _

theorem takeAck_keeps (s : State) (l : Nat) (b : Bytes) : Keeps [.regs, .klinks] rxReg s (s.takeAck l b) := .setKlink (.refl s)

theorem received_keeps (s : State) (l ty : Nat) (b : Bytes) : Keeps [.regs, .klinks] rxReg s (s.received l ty b) := by
  have h : Keeps [.regs, .klinks] rxReg s (if ty = 0 then s.takeAck l b else (s.takeAck l b).bump (Reg.LINK_CNT_RX l)) :=
    .ite (takeAck_keeps s l b) (.bump (takeAck_keeps s l b) (by decide) (rxReg_linkCntRx l))
  exact .ite h (.setKlink h)

theorem klink_received_ne {k : Nat} (ty : Nat) (b : Bytes) (h : k ≠ l) : (s.received l ty b).klink k = s.klink k := by
  have h1 : (s.takeAck l b).klink k = s.klink k := klink_updKlink_ne _ _ h
  have h2 : (if ty = 0 then s.takeAck l b else (s.takeAck l b).bump (Reg.LINK_CNT_RX l)).klink k = s.klink k := by
    split
    · exact h1
    · exact (klink_bump _ _ _).trans h1
  unfold State.received
  dsimp only
  split
  · exact h2
  · exact (klink_updKlink_ne _ _ h).trans h2

theorem linkUp_received (s : State) (l ty : Nat) (b : Bytes) (k : Nat) : (s.received l ty b).linkUp k = s.linkUp k :=
  linkUp_congr ((received_keeps s l ty b).rd _ (not_logReg_linkSts k) (rxReg_link k (by decide)))

theorem kal_received (s : State) (l ty : Nat) (b : Bytes) : (s.received l ty b).kal = s.kal := (received_keeps s l ty b).same .kal (by decide)

theorem sysid_received (s : State) (l ty : Nat) (b : Bytes) : (s.received l ty b).sysid = s.sysid :=
  (received_keeps s l ty b).fld 15 8 (not_logReg_kralon (by decide)) (rxReg_low (by decide))

theorem now_received (s : State) (l ty : Nat) (b : Bytes) : (s.received l ty b).now = s.now := (received_keeps s l ty b).now

/-! ## Flits put on the wire -/

/-- A flit on the wire changes of its link what it owes and the instant of its last sending. -/
theorem klink_wire (s : State) (l : Nat) (f : Flit) (n : Nat) : (s.wire l f n).klink l =
    { s.klink l with owe := updAt (s.klink l).owe (credOf (s.klink l).owe).1 (· - (credOf (s.klink l).owe).2), sent := s.now } := by
  unfold State.wire
  dsimp only
  rw [klink_congr (emit_same (f := .klinks) _ _ (by decide))]
  split
  · exact klink_setKlink _ _ _
  · exact (klink_bump _ _ _).trans (klink_setKlink _ _ _)

theorem klink_wire_ne {k : Nat} (f : Flit) (n : Nat) (h : k ≠ l) : (s.wire l f n).klink k = s.klink k := by
  unfold State.wire
  dsimp only
  rw [klink_congr (emit_same (f := .klinks) _ _ (by decide))]
  split
  · exact klink_setKlink_ne _ _ h
  · exact (klink_bump _ _ _).trans (klink_setKlink_ne _ _ h)

theorem out_wire (s : State) (l : Nat) (f : Flit) (n : Nat) : (s.wire l f n).out =
    .flit l f.type (flitBytes f n (((s.klink l).expect + 4095) % 4096) (credOf (s.klink l).owe)) :: s.out := by
  unfold State.wire
  dsimp only
  split
  · exact congrArg (_ :: ·) (setKlink_same (f := .out) s l _ (by decide))
  · exact congrArg (_ :: ·) ((wr_same (f := .out) _ _ _ (by decide)).trans (setKlink_same (f := .out) s l _ (by decide)))

theorem flushLink_klink_ne {k : Nat} (fuel : Nat) (h : k ≠ l) : (s.flushLink l fuel).klink k = s.klink k := by
  induction fuel generalizing s with
  | zero => rfl
  | succ n ih =>
    cases hw : (s.klink l).waits with
    | nil => rw [flushLink_nil hw]
    | cons f t =>
      rw [flushLink_cons hw]
      split
      · rfl
      · exact ih.trans ((klink_wire_ne _ _ h).trans (klink_setKlink_ne _ _ h))

theorem sendOn_klink_ne {k : Nat} (f : Flit) (h : k ≠ l) : (s.sendOn l f).klink k = s.klink k := by
  unfold State.sendOn
  split
  · exact (flushLink_klink_ne _ h).trans (klink_updKlink_ne _ _ h)
  · rfl

/-- A link that can send does so, and keeps the flit until it is acknowledged. -/
theorem replay_sendOn {f : Flit} (h : s.canSend l f.vc) :
    ((s.sendOn l f).klink l).replay = (s.klink l).replay ++ [{ f with seq := (s.klink l).next }] ∧ ((s.sendOn l f).klink l).waits = [] := by
  obtain ⟨hup, hwaits, hcred, hroom⟩ := h
  have hx : (s.updKlink l fun x => { x with waits := x.waits ++ [f] }).klink l = { s.klink l with waits := [f] } :=
    (klink_updKlink_same _ _ _).trans (by rw [hwaits, List.nil_append])
  unfold State.sendOn
  rw [if_pos hup, flushLink_cons (f := f) (t := []) (by rw [hx]), if_neg (by rw [hx]; dsimp only; omega), hx]
  have hk := klink_wire (((s.updKlink l fun x => { x with waits := x.waits ++ [f] })).setKlink l (KLink.sends { s.klink l with waits := [f] } f [])) l f
    (s.klink l).next
  rw [klink_setKlink] at hk
  rw [flushLink_nil (by rw [hk]; rfl), hk]
  exact ⟨rfl, rfl⟩

end Sys2Proof.Machine
end

section
/-! SUPPORT. The statement about peer accesses (O49) speaks of every state, and so of a memory that is not canonical (R446): one that
lists an address twice reads the first byte there, and a step that may change memory leaves the last. -/
namespace Sys2Proof.Machine

/-- Link 1 is UP, partition 2 owns channel pair 0 and system ID 7 may access it; memory lists address 5 twice. -/
def twiceListed : State :=
  { (State.reset.setFld (Reg.LINK_STS 1) 31 30 2).wr (Reg.ACCEPT 3) 0x00070000 with
    parts := [(2, { state := .active, desc := 2 ^ 1024 - 1 })], mem := [(5, 1), (5, 2)] }

/-- A read of the 4 bytes at 0x1000 by system ID 7. -/
def readFlit : Bytes :=
  flitBytes { vc := 0, type := 2, ttl := 5, src := 7, dst := 0, payload := accPayload 0x1000 4 0 9 0 0 [] } 0 4095 (0, 0)

theorem readFlit_arrives : twiceListed.flitArrives 1 2 readFlit := by unfold State.flitArrives; decide +kernel

theorem readFlit_allowed : flitDst readFlit = twiceListed.sysid ∧ twiceListed.peerCheck (flitSrc readFlit) (leAt readFlit 8 6) (leAt readFlit 14 2) = 0 ∧
    twiceListed.canRead 0 (leAt readFlit 8 6) (leAt readFlit 14 2) = .ok ∧ leAt readFlit 8 6 + leAt readFlit 14 2 ≤ 0xC00000000 := by decide +kernel

theorem byte_twiceListed : twiceListed.byte 5 = 1 := rfl

/-- The byte at an address in the state that an outcome answers. -/
def byteAfter (o : Host.Outcome State Fault Refusal) (x : Nat) : Byte :=
  match o with
  | .next t => t.byte x
  | _ => 0

theorem byteAfter_readFlit : byteAfter (exec (.rdReq 1 readFlit) twiceListed) 5 = 2 := by decide +kernel

/-- Refutes O49: the clause of an RD_REQ that is served says that it changes no byte, of any memory; of one that lists address 5 twice,
as 1 and then as 2, the step leaves the canonical form, and byte 5 goes from 1 to 2. -/
theorem not_flitsAndPeerAccesses : ¬ Obligations.FlitsAndPeerAccesses := by
  unfold Obligations.FlitsAndPeerAccesses
  intro ⟨_, _, h, _⟩
  obtain ⟨_, _, hread, _⟩ := h 1 readFlit twiceListed
  obtain ⟨hdst, hcheck, hcan, hhbm⟩ := readFlit_allowed
  obtain ⟨t, ht, _, hbyte⟩ := hread readFlit_arrives hdst hcheck hcan hhbm
  have hafter := byteAfter_readFlit
  rw [show exec (.rdReq 1 readFlit) twiceListed = .next t from ht] at hafter
  have hone := (hbyte 5).trans byte_twiceListed
  exact absurd (hafter.symm.trans hone) (by decide)

end Sys2Proof.Machine
end

section
/-! SUPPORT. Management flits (R370): what their sending leaves of the kaleidoscope's data, and the arrival of one. -/
namespace Sys2Proof.Machine

variable {s t : State} {l : Nat}

/-- A fold whose every step keeps a view of the state keeps it. -/
theorem foldl_view_all {α β : Type} {view : State → β} (g : State → α → State) (hv : ∀ t e, view (g t e) = view t) (L : List α) (s : State) :
    view (L.foldl g s) = view s := by
  induction L generalizing s with
  | nil => rfl
  | cons e L ih => exact (ih _).trans (hv s e)

/-- The data of the kaleidoscope but for the numbering of the module's own flits and the record of those seen. -/
def Kal.unsent (k : Kal) : Kal := { k with mseq := 0, seen := [] }

theorem kal_sendOn (s : State) (l : Nat) (f : Flit) : (s.sendOn l f).kal = s.kal := sendOn_same (f := .kal) s l f (by decide)

theorem kal_flushLink (s : State) (l n : Nat) : (s.flushLink l n).kal = s.kal := flushLink_same (f := .kal) s l n (by decide)

theorem kal_mgmtOn (s : State) (l kind : Nat) (c : Bytes) : (s.mgmtOn l kind c).kal = { s.kal with mseq := s.kal.mseq + 1 } := kal_sendOn _ _ _

theorem kal_mgmtTo (s : State) (l d kind : Nat) (c : Bytes) : (s.mgmtTo l d kind c).kal = { s.kal with mseq := s.kal.mseq + 1 } := kal_sendOn _ _ _

theorem kal_flood (s : State) (kind : Nat) (c : Bytes) :
    (s.flood kind c).kal = { s.kal with mseq := s.kal.mseq + 1, seen := (ownSerial, kind, s.kal.mseq) :: s.kal.seen } :=
  foldl_view_all (view := State.kal) _ (fun _ _ => kal_sendOn _ _ _) _ _

theorem unsent_mgmtOn (s : State) (l kind : Nat) (c : Bytes) : (s.mgmtOn l kind c).kal.unsent = s.kal.unsent :=
  (congrArg Kal.unsent (kal_mgmtOn _ _ _ _) :)

theorem unsent_mgmtTo (s : State) (l d kind : Nat) (c : Bytes) : (s.mgmtTo l d kind c).kal.unsent = s.kal.unsent :=
  (congrArg Kal.unsent (kal_mgmtTo _ _ _ _ _) :)

theorem kal_forwardFlood (s : State) (l : Nat) (f : Flit) : (s.forwardFlood l f).kal = s.kal :=
  foldl_view_all (view := State.kal) _ (fun _ _ => kal_sendOn _ _ _) _ _

theorem unsent_flood (s : State) (kind : Nat) (c : Bytes) : (s.flood kind c).kal.unsent = s.kal.unsent :=
  (congrArg Kal.unsent (kal_flood _ _ _) :)

theorem unsent_sendBeacons (s : State) : s.sendBeacons.kal.unsent = s.kal.unsent :=
  foldl_view_all (view := fun t => t.kal.unsent) _ (fun _ _ => unsent_mgmtOn _ _ _ _) _ _

theorem unsent_sendReport (s : State) :
    s.sendReport.kal.unsent = { s.kal.unsent with reports := s.kal.reports.insert ownSerial s.farEnds } := unsent_flood _ _ _

theorem unsent_news (s : State) : s.news.kal.unsent = { s.kal.unsent with changed := s.now } := unsent_sendBeacons _

/-- At the start of K2 this module knows its own serial; the reports aside, the rest stays. -/
theorem unsent_enterK2 (s : State) : { s.enterK2.kal.unsent with reports := [] } =
    { s.kal.unsent with best := ownSerial, hops := 0, changed := s.now, elect := s.fld Reg.KL_CTL 23 16, reports := [] } := by
  unfold State.enterK2
  dsimp only
  rw [unsent_sendReport, unsent_sendBeacons, kal_setKl]
  rfl

/-! ## What the end of an arrival leaves alone -/

theorem wire_keeps (s : State) (l : Nat) (f : Flit) (n : Nat) : Keeps flitFlds txReg s (s.wire l f n) := by
  unfold State.wire
  exact .emit (.ite (.setKlink (.refl s)) (.bump (.setKlink (.refl s)) (by decide) (txReg_linkCntTx l)))

/-- What waits on a link is sent, whatever its state. -/
theorem flushLink_keeps (s : State) (l n : Nat) : Keeps flitFlds txReg s (s.flushLink l n) := by
  induction n generalizing s with
  | zero => exact .refl s
  | succ n ih =>
    cases hw : (s.klink l).waits with
    | nil => rw [flushLink_nil hw]; exact .refl s
    | cons f t =>
      rw [flushLink_cons hw]
      exact .ite (.refl s) (((Keeps.setKlink (.refl s)).trans (wire_keeps _ _ _ _)).trans (ih _))

theorem steady_flushLink (s : State) (l n k : Nat) : ((s.flushLink l n).klink k).steady = (s.klink k).steady := by
  by_cases hk : k = l
  · subst hk
    induction n generalizing s with
    | zero => rfl
    | succ n ih =>
      cases hw : (s.klink k).waits with
      | nil => rw [flushLink_nil hw]
      | cons f t =>
        rw [flushLink_cons hw]
        split
        · rfl
        · rw [ih, klink_wire, klink_setKlink]; rfl
  · rw [flushLink_klink_ne n hk]

/-! ## A management flit on a link -/

theorem mgmt_payload {kind n serial : Nat} {c : Bytes} (hk : kind < 256) :
    byteAt (mgmtPayload kind n serial c) 0 = kind ∧ ((mgmtPayload kind n serial c).drop 16).take c.length = c := by
  unfold mgmtPayload
  constructor
  · show (BitVec.ofNat 8 kind).toNat = kind
    rw [BitVec.toNat_ofNat, Nat.mod_eq_of_lt hk]
  · dsimp only
    rw [List.append_assoc, List.drop_left' (by simp [zeros]), List.take_left]

/-- The flit that carries a management message of this module to system ID d. -/
def State.mgmtFlit (s : State) (d kind : Nat) (c : Bytes) : Flit :=
  { vc := 2, type := 4, ttl := 64, src := s.sysid, dst := d, payload := mgmtPayload kind s.kal.mseq ownSerial c }

theorem mgmtFlit_mgmt {d kind : Nat} {c : Bytes} (hk : kind < 256) (seq : Nat) : Flit.mgmt { s.mgmtFlit d kind c with seq := seq } kind c :=
  ⟨rfl, rfl, (mgmt_payload hk).1, (mgmt_payload hk).2⟩

theorem canSend_updKal {vc : Nat} (g : Kal → Kal) (h : s.canSend l vc) : (s.updKal g).canSend l vc := h

theorem sentMgmt_mgmtOn {kind : Nat} {c : Bytes} (hk : kind < 256) (h : s.canSend l 2) : s.sentMgmt (s.mgmtOn l kind c) l kind c :=
  ⟨_, (replay_sendOn (f := s.mgmtFlit (s.fld (Reg.LINK_STS l) 23 16) kind c)
    (canSend_updKal (fun k => { k with mseq := s.kal.mseq + 1 }) h)).1, mgmtFlit_mgmt hk _⟩

theorem mgmtOn_klink_ne {k kind : Nat} {c : Bytes} (h : k ≠ l) : (s.mgmtOn l kind c).klink k = s.klink k := sendOn_klink_ne _ h

/-- A message sent on each of a list of links, with a content that only depends on what the sending leaves alone: every link of the list
that can send does so. -/
theorem sentMgmt_each {kind : Nat} (c : State → Nat → Bytes) (hk : kind < 256)
    (hc : ∀ t k, Sends mgmtFlds txReg s t → t.kal.unsent = s.kal.unsent → c t k = c s k) {L : List Nat} (hn : L.Nodup) (hl : l ∈ L) (h : s.canSend l 2) :
    s.sentMgmt (L.foldl (fun (t : State) k => t.mgmtOn k kind (c t k)) s) l kind (c s l) := by
  obtain ⟨t, ⟨hs, hkal⟩, h1, h2⟩ := foldl_view (view := fun t => t.klink l)
    (P := fun t => Sends mgmtFlds txReg s t ∧ t.kal.unsent = s.kal.unsent) (fun (t : State) k => t.mgmtOn k kind (c t k))
    (fun t k hk => mgmtOn_klink_ne (Ne.symm hk)) (fun t k ⟨h1, h2⟩ => ⟨h1.trans (mgmtOn_sends _ _ _ _), (unsent_mgmtOn _ _ _ _).trans h2⟩)
    L s hn hl ⟨.refl s, rfl⟩
  obtain ⟨hup, hrest⟩ := h
  have hsent := sentMgmt_mgmtOn (c := c t l) hk (show t.canSend l 2 from ⟨(hs.up l).trans hup, by rw [h1]; exact hrest⟩)
  unfold State.sentMgmt at hsent ⊢
  rw [h2, ← h1, ← hc t l hs hkal]
  exact hsent

theorem mem_upLinks (h : s.linkUp l = true) (hl : l < 8) : l ∈ upLinks s := List.mem_filter.mpr ⟨List.mem_range.mpr hl, h⟩

theorem nodup_upLinks (s : State) : (upLinks s).Nodup := List.nodup_range.filter _

/-! ## Its arrival -/

theorem mgmtIn_eq {kind : Nat} {b : Bytes} (h : s.mgmtArrives l kind b) (k : State → Bytes → State) :
    s.mgmtIn l kind b k = (k (s.received l 4 b) (mContent b)).flushLink l 512 := by
  unfold State.mgmtIn
  rw [if_neg (by rintro ⟨-, -, e⟩; exact e h.2)]
  exact flitIn_eq h.1 _

/-- The state in which a flooded flit is handled: noted as seen and sent on. -/
def State.flooded (s : State) (l : Nat) (b : Bytes) : State :=
  (s.updKal (fun x => { x with seen := mKey b :: x.seen })).forwardFlood l
    { vc := 2, type := 4, ttl := nbits (hdrOf b) 63 56, src := flitSrc b, dst := flitDst b, payload := (b.drop 8).take 244 }

theorem floodIn_eq {kind : Nat} {b : Bytes} (h : s.floodArrives l kind b) (k : State → Bytes → State) :
    s.floodIn l kind b k = (k ((s.received l 4 b).flooded l b) (mContent b)).flushLink l 512 := by
  unfold State.floodIn
  rw [mgmtIn_eq h.1, kal_received, h.2, if_neg (by decide)]
  rfl

theorem floodIn_seen {kind : Nat} {b : Bytes} (h : s.mgmtArrives l kind b) (hs : s.kal.seen.contains (mKey b) = true) (k : State → Bytes → State) :
    s.floodIn l kind b k = (s.received l 4 b).flushLink l 512 := by
  unfold State.floodIn
  rw [mgmtIn_eq h, kal_received, hs, if_pos rfl]

theorem flooded_sends (s : State) (l : Nat) (b : Bytes) : Sends mgmtFlds txReg s (s.flooded l b) :=
  (Sends.updKal (by decide) _).trans (forwardFlood_sends _ _ _)

theorem unsent_flooded (s : State) (l : Nat) (b : Bytes) : (s.flooded l b).kal.unsent = s.kal.unsent :=
  (congrArg Kal.unsent (kal_forwardFlood _ _ _) :)

/-- The registers that the arrival of a management flit may change before it is handled. -/
def gotReg (a : Nat) : Bool := rxReg a || txReg a

theorem gotReg_link {r : Nat} (l : Nat) (h : r % 0x1000 ≠ 0xC4 ∧ r % 0x1000 ≠ 0xC0) : gotReg (r + 0x1000 * l) = false := by
  unfold gotReg; rw [rxReg_link l h.1, txReg_link l h.2]; rfl

/-- The state in which a flooded flit is handled, from the one in which it arrives. -/
theorem gotFlood_keeps (s : State) (l : Nat) (b : Bytes) : Keeps mgmtFlds gotReg s ((s.received l 4 b).flooded l b) :=
  ((received_keeps s l 4 b).mono (by decide) (fun a h => by unfold gotReg; rw [h]; rfl)).trans
    ((flooded_sends _ l b).toKeeps.mono (fun _ h => h) fun a h => by unfold gotReg; rw [h, Bool.or_true])

theorem unsent_gotFlood (s : State) (l : Nat) (b : Bytes) : ((s.received l 4 b).flooded l b).kal.unsent = s.kal.unsent := by
  rw [unsent_flooded, kal_received]

end Sys2Proof.Machine
end

section
/-! SUPPORT. Beacons and reports (O50, R370, R379). -/
namespace Sys2Proof.Machine

variable {s : State} {l : Fin 8} {b : List Byte}

/-- What the sending rows may change. -/
def beaconFlds : List Fld := [.regs, .out, .klinks, .kal]

theorem exec_beacon {u : State} (h : s.beacon l b = u) : exec (.beacon l b) s = .next (s.taken u beaconFlds) := by subst h; rfl
theorem exec_beaconTimer {u : State} (h : s.beaconTimer = u) : exec .beaconTimer s = .next (s.taken u beaconFlds) := by subst h; rfl
theorem exec_report {u : State} (h : s.report l b = u) : exec (.report l b) s = .next (s.taken u beaconFlds) := by subst h; rfl
theorem exec_routes {u : State} (h : s.routesIn l b = u) : exec (.routes l b) s = .next (s.taken u beaconFlds) := by subst h; rfl

theorem taken_kal_of {s t : State} {w : List Fld} (h : Fld.kal ∈ w) : (s.taken t w).kal = t.kal := by rw [taken_kal, if_pos h]

/-! ## BEACON -/

theorem nbState_of_steady {x y : KLink} (h : x.steady = y.steady) : x.nbState = y.nbState := (congrArg KLink.nbState h :)

theorem flitSrc_lt (b : Bytes) : flitSrc b < 256 := nbits_lt _ 15 8

theorem leAt_lt (b : Bytes) (i k : Nat) : leAt b i k < 256 ^ k :=
  (leNat_lt _).trans_le (Nat.pow_le_pow_right (by decide) (List.length_take_le k _))

theorem linkSerial_congr {t : State} {l : Nat} (hlo : t.rd (Reg.LINK_PEER_LO l) = s.rd (Reg.LINK_PEER_LO l))
    (hhi : t.rd (Reg.LINK_PEER_HI l) = s.rd (Reg.LINK_PEER_HI l)) : t.linkSerial l = s.linkSerial l := by
  unfold State.linkSerial; rw [hlo, hhi]

/-- What link l learns of its far end from a BEACON. -/
def State.beaconLink (s : State) (l : Nat) (b c : Bytes) : State :=
  ((((s.wr (Reg.LINK_PEER_LO l) (BitVec.ofNat 32 (mSerial b))).wr (Reg.LINK_PEER_HI l) (BitVec.ofNat 32 (mSerial b / 2 ^ 32))).setFld
    (Reg.LINK_STS l) 15 12 (byteAt c 10)).setFld (Reg.LINK_STS l) 23 16 (flitSrc b)).updKlink l (fun x => { x with nbState := byteAt c 9 })

/-- A BEACON names a serial lower than the lowest known, in K2. -/
def State.betterBeacon (s : State) (c : Bytes) : Bool := decide (leAt c 0 8 < s.kal.best) && (s.klState == 2)

/-- That serial is adopted. -/
def State.adoptBeacon (s : State) (c : Bytes) : State :=
  if s.betterBeacon c then s.updKal (fun k => { k with best := leAt c 0 8, hops := byteAt c 8 + 1 }) else s

/-- What follows: a REPORT of a new far end, and the news. -/
def State.tellBeacon (s : State) (better fresh : Bool) : State :=
  if better || fresh then (if fresh then s.sendReport else s).news else if fresh then s.sendReport else s

/-- A BEACON, once received, in these three steps. -/
theorem beacon_eq (h : s.mgmtArrives l 1 b) : s.beacon l b =
    ((((s.received l 4 b).beaconLink l b (mContent b)).adoptBeacon (mContent b)).tellBeacon
      (((s.received l 4 b).beaconLink l b (mContent b)).betterBeacon (mContent b))
      (decide ((s.received l 4 b).linkSerial l ≠ mSerial b))).flushLink l 512 := by
  unfold State.beacon
  rw [mgmtIn_eq h]
  unfold State.tellBeacon State.adoptBeacon State.betterBeacon State.beaconLink
  simp only [decide_eq_true_eq]

theorem beaconLink_keeps (s : State) (l : Nat) (b c : Bytes) : Keeps [.regs, .klinks] linksReg s (s.beaconLink l b c) :=
  .setKlink (.setFld (.setFld (.wr (.wr (.refl s) (by decide) (linksReg_link l (by decide))) (by decide) (linksReg_link l (by decide)))
    (by decide) (linksReg_link l (by decide))) (by decide) (linksReg_link l (by decide)))

theorem beaconLink_state (s : State) (l : Nat) (b c : Bytes) : (s.beaconLink l b c).linkSerial l = mSerial b ∧
    (s.beaconLink l b c).fld (Reg.LINK_STS l) 15 12 = byteAt c 10 % 16 ∧ (s.beaconLink l b c).fld (Reg.LINK_STS l) 23 16 = flitSrc b ∧
    ((s.beaconLink l b c).klink l).nbState = byteAt c 9 := by
  have h1 : Reg.LINK_PEER_LO l ≠ Reg.LINK_STS l := by unfold Reg.LINK_PEER_LO Reg.LINK_STS; omega
  have h2 : Reg.LINK_PEER_HI l ≠ Reg.LINK_STS l := by unfold Reg.LINK_PEER_HI Reg.LINK_STS; omega
  have h3 : Reg.LINK_PEER_LO l ≠ Reg.LINK_PEER_HI l := by unfold Reg.LINK_PEER_HI Reg.LINK_PEER_LO; omega
  have hser : mSerial b < 2 ^ 64 := leAt_lt b 16 8
  unfold State.beaconLink
  refine ⟨?_, ?_, ?_, congrArg KLink.nbState (klink_updKlink_same _ _ _)⟩
  · unfold State.linkSerial
    rw [rd_updKlink, rd_updKlink, rd_setFld_ne _ _ _ _ h1, rd_setFld_ne _ _ _ _ h1, rd_setFld_ne _ _ _ _ h2, rd_setFld_ne _ _ _ _ h2,
      rd_wr_ne _ _ h3, rd_wr_same, rd_wr_same, BitVec.toNat_ofNat, BitVec.toNat_ofNat]
    omega
  · rw [fld_congr (rd_updKlink _ _ _ _)]
    exact (fld_setFld_ne _ _ _ (by decide) (by decide) (by decide) (by decide)).trans (fld_setFld _ _ _ (by decide) (by decide))
  · rw [fld_congr (rd_updKlink _ _ _ _)]
    exact (fld_setFld _ _ _ (by decide) (by decide)).trans (Nat.mod_eq_of_lt (flitSrc_lt b))

theorem adoptBeacon_sends (s : State) (c : Bytes) : Sends mgmtFlds txReg s (s.adoptBeacon c) := .ite (.updKal (by decide) _) (.refl s)

theorem tellBeacon_sends (s : State) (x y : Bool) : Sends mgmtFlds txReg s (s.tellBeacon x y) :=
  .ite ((Sends.ite (sendReport_sends _) (.refl s)).trans (news_sends _)) (.ite (sendReport_sends _) (.refl s))

/-- What follows keeps the lowest serial known, and notes the news where it was adopted. -/
theorem tellBeacon_kal (s : State) (x y : Bool) : (s.tellBeacon x y).kal.best = s.kal.best ∧ (s.tellBeacon x y).kal.hops = s.kal.hops ∧
    (x = true → (s.tellBeacon x y).kal.changed = s.now) := by
  have hr := unsent_sendReport s
  have hn (t : State) := unsent_news t
  have hnow : s.sendReport.now = s.now := (sendReport_sends s).now
  have hb (t : State) : t.news.kal.best = t.kal.best := (congrArg Kal.best (hn t) :)
  have hh (t : State) : t.news.kal.hops = t.kal.hops := (congrArg Kal.hops (hn t) :)
  have hc (t : State) : t.news.kal.changed = t.now := (congrArg Kal.changed (hn t) :)
  have hrb : s.sendReport.kal.best = s.kal.best := (congrArg Kal.best hr :)
  have hrh : s.sendReport.kal.hops = s.kal.hops := (congrArg Kal.hops hr :)
  cases x <;> cases y
  · exact ⟨rfl, rfl, nofun⟩
  · exact ⟨(hb _).trans hrb, (hh _).trans hrh, nofun⟩
  · exact ⟨hb _, hh _, fun _ => hc _⟩
  · exact ⟨(hb _).trans hrb, (hh _).trans hrh, fun _ => (hc _).trans hnow⟩

theorem beacon_result (h : s.mgmtArrives l 1 b) :
    ∃ t, exec (.beacon l b) s = .next t ∧ t.linkSerial l = mSerial b ∧ t.fld (Reg.LINK_STS l) 15 12 = byteAt (mContent b) 10 % 16 ∧
      t.fld (Reg.LINK_STS l) 23 16 = flitSrc b ∧ (t.klink l).nbState = byteAt (mContent b) 9 ∧ t.klState = s.klState ∧
      ((s.klState = 2 ∧ leAt (mContent b) 0 8 < s.kal.best) →
        t.kal.best = leAt (mContent b) 0 8 ∧ t.kal.hops = byteAt (mContent b) 8 + 1 ∧ t.kal.changed = s.now) ∧
      ((s.klState ≠ 2 ∨ s.kal.best ≤ leAt (mContent b) 0 8) → t.kal.best = s.kal.best) := by
  let p := s.received l 4 b
  let v := p.beaconLink l b (mContent b)
  have hp := received_keeps s l 4 b
  have hv := beaconLink_keeps p l b (mContent b)
  have hkal : v.kal = s.kal := (hv.same .kal (by decide)).trans (kal_received s l 4 b)
  have hst : v.klState = s.klState :=
    (hv.fld 31 28 (not_logReg_kralon (by decide)) (by decide)).trans (hp.fld 31 28 (not_logReg_kralon (by decide)) (rxReg_low (by decide)))
  have hnow : v.now = s.now := hv.now.trans hp.now
  have hs (x y : Bool) : Sends mgmtFlds txReg v ((v.adoptBeacon (mContent b)).tellBeacon x y) := (adoptBeacon_sends v _).trans (tellBeacon_sends _ x y)
  obtain ⟨h1, h2, h3, h4⟩ := beaconLink_state p l b (mContent b)
  refine ⟨_, exec_beacon (beacon_eq h), ?_⟩
  generalize decide (p.linkSerial l ≠ mSerial b) = fresh
  have hsend := hs (v.betterBeacon (mContent b)) fresh
  have hf := flushLink_keeps ((v.adoptBeacon (mContent b)).tellBeacon (v.betterBeacon (mContent b)) fresh) l 512
  have hrd (a : Nat) (hr : ¬ logReg a) (hr' : txReg a = false) := (hf.rd a hr hr').trans (hsend.rd a hr hr')
  have hsts := hrd (Reg.LINK_STS l) (not_logReg_linkSts l) (txReg_link l.val (by decide))
  obtain ⟨k1, k2, k3⟩ := tellBeacon_kal (v.adoptBeacon (mContent b)) (v.betterBeacon (mContent b)) fresh
  have hnow' : (v.adoptBeacon (mContent b)).now = s.now := (adoptBeacon_sends v _).now.trans hnow
  rw [taken_fld _ _ (by decide), taken_fld _ _ (by decide), taken_klink _ _ (by decide), taken_klState _ _ (by decide), taken_kal_of (by decide),
    kal_flushLink, k1, k2]
  refine ⟨?_, (fld_congr hsts 15 12).trans h2, (fld_congr hsts 23 16).trans h3, ?_, ?_, ?_, ?_⟩
  · exact (linkSerial_congr ((taken_rd _ _ (by decide) _).trans (hrd _ (not_logReg_link l (by decide) (by decide)) (txReg_link l.val (by decide))))
      ((taken_rd _ _ (by decide) _).trans (hrd _ (not_logReg_link l (by decide) (by decide)) (txReg_link l.val (by decide))))).trans h1
  · exact (nbState_of_steady ((steady_flushLink _ l 512 l).trans (hsend.steady l))).trans h4
  · exact (hf.fld 31 28 (not_logReg_kralon (by decide)) (by decide)).trans ((hsend.klState (by decide)).trans hst)
  · rintro ⟨e1, e2⟩
    have hb : v.betterBeacon (mContent b) = true := by
      unfold State.betterBeacon; rw [hst, hkal, e1, decide_eq_true e2]; rfl
    rw [k3 hb, hnow']
    unfold State.adoptBeacon
    rw [if_pos hb]
    exact ⟨rfl, rfl, rfl⟩
  · intro e
    have hb : v.betterBeacon (mContent b) = false := by
      unfold State.betterBeacon
      rw [hst, hkal, Bool.and_eq_false_iff, decide_eq_false_iff_not, beq_eq_false_iff_ne, Nat.not_lt]
      exact e.symm
    unfold State.adoptBeacon
    rw [hb, if_neg Bool.false_ne_true, hkal]

/-! ## The beacons of this module -/

theorem sendBeacons_eq (s : State) : s.sendBeacons = (upLinks s).foldl (fun (t : State) k =>
    t.mgmtOn k 1 (toLe 8 t.kal.best ++ toLe 1 t.kal.hops ++ toLe 1 t.klState ++ toLe 1 k)) s := rfl

theorem beaconTimer_sends (h : s.klState ≠ 0) : ∃ t, exec .beaconTimer s = .next t ∧ ∀ l, l < 8 → s.canSend l 2 →
    s.sentMgmt t l 1 (toLe 8 s.kal.best ++ toLe 1 s.kal.hops ++ toLe 1 s.klState ++ toLe 1 l) := by
  have he : s.beaconTimer = s.sendBeacons := if_neg h
  rw [sendBeacons_eq] at he
  refine ⟨_, exec_beaconTimer he, fun l hl hc => ?_⟩
  have hsent := sentMgmt_each (kind := 1) (fun t k => toLe 8 t.kal.best ++ toLe 1 t.kal.hops ++ toLe 1 t.klState ++ toLe 1 k) (by decide)
    (fun t k hs hk => by
      have h1 : t.kal.best = s.kal.best := (congrArg Kal.best hk :)
      have h2 : t.kal.hops = s.kal.hops := (congrArg Kal.hops hk :)
      simp only [h1, h2, hs.klState (by decide)])
    (nodup_upLinks s) (mem_upLinks hc.1 hl) hc
  unfold State.sentMgmt
  rw [taken_klink _ _ (by decide)]
  exact hsent

theorem beaconTimer_stays (h : s.klState = 0) : ∃ t, exec .beaconTimer s = .next t ∧ t.out = s.out ∧ t.klinks = s.klinks := by
  have he : s.beaconTimer = s := if_pos h
  refine ⟨_, exec_beaconTimer he, ?_, ?_⟩
  · rw [taken_out, if_pos (by decide)]
  · rw [taken_klinks, if_pos (by decide)]

end Sys2Proof.Machine
end

section
/-! SUPPORT. Plans and reports (R370, R377, R379, R380). -/
namespace Sys2Proof.Machine

variable {s : State}

/-! ## A plan -/

/-- The registers that a plan of this module sets. -/
def State.planRegs (s : State) (n me : Nat) : State :=
  let s := ((s.setFld Reg.KL_STS 24 16 n).setFld Reg.KL_STS 15 8 me).setFld Reg.KL_STS 7 0 0
  let s := (s.setFld Reg.KL_STS 27 26 2).wr Reg.KL_COORD_LO (BitVec.ofNat 32 ownSerial)
  s.wr Reg.KL_COORD_HI (BitVec.ofNat 32 (ownSerial / 2 ^ 32))

/-- What a plan makes of the kaleidoscope's data: its instant is set, and the reports and the accesses under way stay. -/
structure PlanData (act : Nat) (f : Kal → Kal) : Prop where
  act : ∀ k, (f k).act = some act
  reports : ∀ k, (f k).reports = k.reports
  peers : ∀ k, (f k).peers = k.peers

/-- A plan sets this module's data and registers and then tells the other modules. -/
theorem makePlan_eq (s : State) (d : Nat) : ∃ (f : Kal → Kal) (n me : Nat) (L : List (PlanNode × List (Nat × PlanNode)))
    (g : State → PlanNode × List (Nat × PlanNode) → State), PlanData (s.now + d) f ∧ (∀ t e, Sends mgmtFlds txReg t (g t e)) ∧
    (∀ t e, (g t e).kal.unsent = t.kal.unsent) ∧ s.makePlan d = L.foldl g ((s.updKal f).planRegs n me) := by
  refine ⟨_, _, _, _, _, ⟨?_, ?_, ?_⟩, ?_, ?_, rfl⟩
  · exact fun _ => rfl
  · exact fun _ => rfl
  · exact fun _ => rfl
  · intro t e
    dsimp only
    split
    · exact .refl t
    · exact ((mgmtTo_sends _ _ _ _ _).trans (mgmtTo_sends _ _ _ _ _)).trans (mgmtTo_sends _ _ _ _ _)
  · intro t e
    dsimp only
    split
    · rfl
    · rw [unsent_mgmtTo, unsent_mgmtTo, unsent_mgmtTo]

/-- The registers that a plan may change. -/
def planReg (a : Nat) : Bool := txReg a || a == Reg.KL_STS || a == Reg.KL_COORD_LO || a == Reg.KL_COORD_HI

theorem planReg_of_txReg {a : Nat} (h : txReg a = true) : planReg a = true := by unfold planReg; rw [h]; rfl

/-- A register at another place of a link's page. -/
theorem planReg_link {r : Nat} (l : Nat) (h : r % 0x1000 ≠ 0xC0) (hr : 0x321000 ≤ r) : planReg (r + 0x1000 * l) = false := by
  unfold planReg
  rw [txReg_link l h]
  simp only [Bool.false_or, Bool.or_eq_false_iff, beq_eq_false_iff_ne]
  unfold Reg.KL_STS Reg.KL_COORD_LO Reg.KL_COORD_HI
  omega

theorem planReg_klSts : planReg Reg.KL_STS = true := by unfold planReg; rw [beq_self_eq_true, Bool.or_true, Bool.true_or, Bool.true_or]
theorem planReg_coordLo : planReg Reg.KL_COORD_LO = true := by unfold planReg; rw [beq_self_eq_true, Bool.or_true, Bool.true_or]
theorem planReg_coordHi : planReg Reg.KL_COORD_HI = true := by unfold planReg; rw [beq_self_eq_true, Bool.or_true]

theorem planRegs_keeps (s : State) (n me : Nat) : Keeps [.regs] planReg s (s.planRegs n me) :=
  .wr (.wr (.setFld (.setFld (.setFld (.setFld (.refl s) (by decide) planReg_klSts) (by decide) planReg_klSts) (by decide) planReg_klSts)
    (by decide) planReg_klSts) (by decide) planReg_coordLo) (by decide) planReg_coordHi

theorem planRegs_sends (s : State) (n me : Nat) : Sends mgmtFlds planReg s (s.planRegs n me) :=
  have h := (planRegs_keeps s n me).same .klinks (by decide)
  .keep ((planRegs_keeps s n me).mono (by decide) fun _ h => h) h fun l =>
    linkUp_congr ((planRegs_keeps s n me).rd _ (not_logReg_linkSts l) (planReg_link l (by decide) (by decide)))

theorem Sends.toPlan {t : State} (h : Sends mgmtFlds txReg s t) : Sends mgmtFlds planReg s t := h.mono (fun _ h => h) fun _ => planReg_of_txReg

theorem makePlan_sends (s : State) (d : Nat) : Sends mgmtFlds planReg s (s.makePlan d) := by
  obtain ⟨f, n, me, L, g, -, hg, -, he⟩ := makePlan_eq s d
  rw [he]
  exact (Sends.updKal (by decide) f).trans ((planRegs_sends _ n me).trans (Sends.foldl g hg L _).toPlan)

theorem makePlan_kal (s : State) (d : Nat) : (s.makePlan d).kal.act = some (s.now + d) ∧ (s.makePlan d).kal.reports = s.kal.reports ∧
    (s.makePlan d).kal.peers = s.kal.peers := by
  obtain ⟨f, n, me, L, g, hf, -, hk, he⟩ := makePlan_eq s d
  have h : (s.makePlan d).kal.unsent = (f s.kal).unsent := by
    rw [he, foldl_view_all (view := fun t => t.kal.unsent) g hk, (planRegs_keeps _ n me).same .kal (by decide)]
    rfl
  exact ⟨(congrArg Kal.act h :).trans (hf.act _), (congrArg Kal.reports h :).trans (hf.reports _), (congrArg Kal.peers h :).trans (hf.peers _)⟩

theorem planRegs_state (s : State) (n me : Nat) : (s.planRegs n me).isCoord = true ∧ (s.planRegs n me).klState = s.klState ∧
    (s.planRegs n me).rd Reg.KL_COORD_LO = BitVec.ofNat 32 ownSerial := by
  have hrd : (s.planRegs n me).rd Reg.KL_STS =
      ((((s.setFld Reg.KL_STS 24 16 n).setFld Reg.KL_STS 15 8 me).setFld Reg.KL_STS 7 0 0).setFld Reg.KL_STS 27 26 2).rd Reg.KL_STS :=
    (rd_wr_ne _ _ (by decide)).trans (rd_wr_ne _ _ (by decide))
  refine ⟨?_, ?_, (rd_wr_ne _ _ (by decide)).trans (rd_wr_same _ _ _)⟩
  · refine (flag_congr hrd 27).trans ?_
    unfold State.flag State.setFld
    rw [rd_wr_same, putBits_bit _ _ (by decide) (by decide) _ (by decide), if_pos (by decide)]
    rfl
  · refine (fld_congr hrd 31 28).trans ?_
    have hout (t : State) {hi lo : Nat} (n : Nat) (h : hi < 28) (hl : lo ≤ hi) : (t.setFld Reg.KL_STS hi lo n).fld Reg.KL_STS 31 28 = t.fld Reg.KL_STS 31 28 :=
      fld_setFld_ne t _ n (by omega) hl (by decide) (.inr h)
    rw [hout _ _ (by decide) (by decide), hout _ _ (by decide) (by decide), hout _ _ (by decide) (by decide), hout _ _ (by decide) (by decide)]
    rfl

theorem makePlan_state (s : State) (d : Nat) : (s.makePlan d).isCoord = true ∧ (s.makePlan d).klState = s.klState ∧
    (s.makePlan d).rd Reg.KL_COORD_LO = BitVec.ofNat 32 ownSerial := by
  obtain ⟨f, n, me, L, g, -, hg, -, he⟩ := makePlan_eq s d
  have h := Sends.foldl g hg L ((s.updKal f).planRegs n me)
  obtain ⟨h1, h2, h3⟩ := planRegs_state (s.updKal f) n me
  rw [he]
  exact ⟨(h.flag 27 (not_logReg_kralon (by decide)) (by decide)).trans h1, (h.klState (by decide)).trans h2,
    (h.rd _ (not_logReg_kralon (by decide)) (by decide)).trans h3⟩

/-! ## REPORT -/

section
variable {l : Fin 8} {b : List Byte}

/-- The far ends that a REPORT names. -/
def reportOf (b : Bytes) : List Nat := (List.range 8).map (fun i => leAt (mContent b) (8 * i) 8)

/-- A REPORT is kept. -/
def State.keepReport (s : State) (b : Bytes) : State := s.updKal (fun k => { k with reports := k.reports.insert (mSerial b) (reportOf b) })

/-- The module that sent a REPORT is not in the plan, or was lost from it. -/
def State.joins (s : State) (b : Bytes) : Bool :=
  match s.kal.ids.find? (fun (e : Nat × Nat) => e.2 == mSerial b) with
  | none => true
  | some e => s.kal.lost.contains e.1

/-- What follows: in K2 the election hears of a change, and a coordinator plans anew for a module that joins. -/
def State.afterReport (s : State) (b : Bytes) (old : Option (List Nat)) : State :=
  if s.klState = 2 then (if old = some (reportOf b) then s else s.updKal (fun k => { k with changed := s.now }))
  else if s.isCoord ∧ s.joins b then s.makePlan 4000000
  else s

theorem report_eq (h : s.floodArrives l 2 b) : ∃ old, s.report l b =
    (((((s.received l 4 b).flooded l b)).keepReport b).afterReport b old).flushLink l 512 := by
  refine ⟨((s.received l 4 b).flooded l b).kal.reports.look (mSerial b), ?_⟩
  unfold State.report
  rw [floodIn_eq h]
  rfl

theorem reports_afterReport (s : State) (b : Bytes) (old : Option (List Nat)) : (s.afterReport b old).kal.reports = s.kal.reports := by
  unfold State.afterReport
  split
  · split <;> rfl
  · split
    · exact (makePlan_kal s _).2.1
    · rfl

theorem report_result (h : s.floodArrives l 2 b) : ∃ t, exec (.report l b) s = .next t ∧
    t.kal.reports = s.kal.reports.insert (mSerial b) ((List.range 8).map (fun i => leAt (mContent b) (8 * i) 8)) ∧
    ((s.isCoord = true ∧ s.klState ≠ 2 ∧ s.kal.ids.find? (fun (e : Nat × Nat) => e.2 == mSerial b) = none) → t.kal.act = some (s.now + 4000000)) := by
  obtain ⟨old, he⟩ := report_eq h
  let q := ((s.received l 4 b).flooded l b).keepReport b
  have hq : Keeps mgmtFlds gotReg s q := (gotFlood_keeps s l b).updKal
  have hk := unsent_gotFlood s l b
  refine ⟨_, exec_report he, ?_, ?_⟩
  · rw [taken_kal_of (by decide), kal_flushLink, reports_afterReport]
    exact congrArg (fun r => Tab.insert (mSerial b) (reportOf b) r) (congrArg Kal.reports hk :)
  · rintro ⟨hc, h2, hf⟩
    have hids : q.kal.ids = s.kal.ids := (congrArg Kal.ids hk :)
    have hj : q.joins b = true := by
      unfold State.joins; rw [hids, hf]
    have hst : q.klState = s.klState := hq.fld 31 28 (not_logReg_kralon (by decide)) (by decide)
    have hco : q.isCoord = s.isCoord := hq.flag 27 (not_logReg_kralon (by decide)) (by decide)
    have hp : q.afterReport b old = q.makePlan 4000000 := by
      unfold State.afterReport
      rw [if_neg (by rw [hst]; exact h2), if_pos ⟨hco.trans hc, hj⟩]
    rw [taken_kal_of (by decide), kal_flushLink]
    exact (congrArg (fun t : State => t.kal.act) hp).trans ((makePlan_kal q _).1.trans (by rw [hq.now]))

theorem report_seen (h : s.mgmtArrives l 2 b) (hs : s.kal.seen.contains (mKey b) = true) : ∃ t, exec (.report l b) s = .next t ∧ t.kal = s.kal := by
  refine ⟨_, exec_report (floodIn_seen h hs _), ?_⟩
  rw [taken_kal_of (by decide), kal_flushLink, kal_received]

end

end Sys2Proof.Machine
end

section
/-! SUPPORT. The election, the place that a plan gives, and the obligation of the election and plan (O50). -/
namespace Sys2Proof.Machine

variable {s t u : State}

/-- From `s` to `t` the status of the kaleidoscope changes in STATE alone; the coordinator and the measured offset stay. -/
structure StaysBelow (s t : State) : Prop where
  fld : ∀ hi lo, lo ≤ hi → hi < 28 → t.fld Reg.KL_STS hi lo = s.fld Reg.KL_STS hi lo
  flag : ∀ i, i < 28 → t.flag Reg.KL_STS i = s.flag Reg.KL_STS i
  coord : t.rd Reg.KL_COORD_LO = s.rd Reg.KL_COORD_LO
  offset : t.rd Reg.KL_OFFSET = s.rd Reg.KL_OFFSET

namespace StaysBelow

theorem refl (s : State) : StaysBelow s s := ⟨fun _ _ _ _ => rfl, fun _ _ => rfl, rfl, rfl⟩

theorem trans (h : StaysBelow s t) (k : StaysBelow t u) : StaysBelow s u :=
  ⟨fun hi lo hl hh => (k.fld hi lo hl hh).trans (h.fld hi lo hl hh), fun i hi => (k.flag i hi).trans (h.flag i hi),
   k.coord.trans h.coord, k.offset.trans h.offset⟩

theorem of_rd (h : ∀ a ∈ [Reg.KL_STS, Reg.KL_COORD_LO, Reg.KL_OFFSET], t.rd a = s.rd a) : StaysBelow s t :=
  ⟨fun hi lo _ _ => fld_congr (h _ (by simp)) hi lo, fun i _ => flag_congr (h _ (by simp)) i, h _ (by simp), h _ (by simp)⟩

theorem of_keeps {F : List Fld} {R : Nat → Bool} (h : Keeps F R s t) (hR : ∀ a ∈ [Reg.KL_STS, Reg.KL_COORD_LO, Reg.KL_OFFSET], R a = false) :
    StaysBelow s t :=
  of_rd fun a ha => h.rd a (not_logReg_kralon (by
    simp only [List.mem_cons, List.not_mem_nil, or_false] at ha
    rcases ha with rfl | rfl | rfl <;> decide)) (hR a ha)

theorem updKal (g : Kal → Kal) : StaysBelow s (s.updKal g) := of_keeps (Keeps.updKal (F := [.kal]) (R := fun _ => false) (.refl s)) fun _ _ => rfl

theorem of_sends {F : List Fld} (h : Sends F txReg s t) : StaysBelow s t := of_keeps h.toKeeps (by decide)

theorem setKl (s : State) (n : Nat) : StaysBelow s (s.setKl n) := by
  unfold State.setKl
  split
  · exact refl s
  · refine trans (t := s.setFld Reg.KL_STS 31 28 n) ⟨fun hi lo hl hh => ?_, fun i hi => ?_, ?_, ?_⟩ (of_rd fun a ha => ?_)
    · exact fld_setFld_ne s _ n (by decide) (by decide) (by omega) (.inl hh)
    · exact flag_setFld_ne s _ n (by decide) (by decide) (by omega) (.inl hi)
    · exact rd_setFld_ne s _ _ _ (by decide)
    · exact rd_setFld_ne s _ _ _ (by decide)
    · simp only [List.mem_cons, List.not_mem_nil, or_false] at ha
      rcases ha with rfl | rfl | rfl <;> exact rd_raise _ _ _ (not_msgReg_kralon (by decide)) (by decide)

end StaysBelow

/-! ## READY from every module -/

theorem klState_readyCheck (s : State) :
    s.readyCheck.klState = if s.klState = 4 ∧ s.kal.align = 3 ∧ s.fld Reg.KL_STS 24 16 ≤ s.kal.ready.length then 5 else s.klState := by
  unfold State.readyCheck
  dsimp only
  split
  · exact klState_setKl (by decide)
  · exact Eq.refl s.klState

theorem kal_readyCheck (s : State) : s.readyCheck.kal = s.kal := by
  unfold State.readyCheck
  dsimp only
  split
  · exact kal_setKl s 5
  · exact Eq.refl s.kal

theorem readyCheck_sends (s : State) : Sends klFlds klReg s s.readyCheck := .ite (setKl_sends s 5) (.refl s)

theorem readyCheck_below (s : State) : StaysBelow s s.readyCheck := by
  unfold State.readyCheck
  dsimp only
  split
  · exact .setKl s 5
  · exact .refl s

/-- The data of this module's READY. -/
def Kal.ownReady (k : Kal) : Kal := { k with ready := if k.ready.contains ownSerial then k.ready else ownSerial :: k.ready, align := 3 }

theorem floodReady_eq (s : State) (a : Bool) : s.floodReady a = ((s.updKal Kal.ownReady).flood 8 (toLe 1 (ofBool a))).readyCheck := rfl

theorem floodReady_sends (s : State) (a : Bool) : Sends klFlds klReg s (s.floodReady a) :=
  ((Sends.updKal (by decide) Kal.ownReady).trans (flood_sends _ _ _).toKl).trans (readyCheck_sends _)

theorem floodReady_below (s : State) (a : Bool) : StaysBelow s (s.floodReady a) :=
  (StaysBelow.of_sends ((Sends.updKal (F := mgmtFlds) (by decide) Kal.ownReady).trans (flood_sends _ _ _))).trans (readyCheck_below _)

theorem unsent_floodReady (s : State) (a : Bool) : (s.floodReady a).kal.unsent = s.kal.unsent.ownReady := by
  rw [floodReady_eq, kal_readyCheck, unsent_flood]
  rfl

/-- READY of this module leads from K4 to K5 at most. -/
theorem klState_floodReady (s : State) (a : Bool) : (s.floodReady a).klState = s.klState ∨ s.klState = 4 ∧ (s.floodReady a).klState = 5 := by
  have h : ((s.updKal Kal.ownReady).flood 8 (toLe 1 (ofBool a))).klState = s.klState := (flood_sends _ _ _).klState (by decide)
  rw [floodReady_eq, klState_readyCheck]
  split
  · next hc => exact .inr ⟨h.symm.trans hc.1, rfl⟩
  · exact .inl h

/-! ## The end of the election -/

theorem exec_electQuiet (h : s.electQuiet = u) : exec .electQuiet s = .next (s.taken u trainedFlds) := by subst h; rfl

theorem electQuiet_wins (h2 : s.klState = 2) (hq : s.kal.changed + s.kal.elect * 1000000 ≤ s.now) (hb : s.kal.best = ownSerial) :
    ∃ t, exec .electQuiet s = .next t ∧ t.klState ∈ [4, 5] ∧ t.isCoord = true ∧ t.kal.act = some (s.now + 4000000) ∧
      t.rd Reg.KL_COORD_LO = BitVec.ofNat 32 ownSerial := by
  let w := (((s.setKl 3).makePlan 4000000).setKl 4).updKal fun k => { k with align := 3 }
  have he : s.electQuiet = w.floodReady true := by
    unfold State.electQuiet
    dsimp only
    rw [if_pos ⟨h2, decide_eq_true hq⟩, if_pos hb]
  obtain ⟨hcoord, -, hlo⟩ := makePlan_state (s.setKl 3) 4000000
  have hst : w.klState = 4 := klState_setKl (by decide)
  have hbelow : StaysBelow ((s.setKl 3).makePlan 4000000) (w.floodReady true) := 
    ((StaysBelow.setKl _ 4).trans (.updKal _)).trans (floodReady_below w true)
  have hact : w.kal.act = some (s.now + 4000000) := by
    have h1 : w.kal.act = ((s.setKl 3).makePlan 4000000).kal.act := (congrArg Kal.act (kal_setKl ((s.setKl 3).makePlan 4000000) 4) :)
    rw [h1, (makePlan_kal _ _).1, (setKl_sends s 3).now]
  refine ⟨_, exec_electQuiet he, ?_, ?_, ?_, ?_⟩
  · rw [taken_klState _ _ (by decide)]
    rcases klState_floodReady w true with e | ⟨-, e⟩
    · rw [e, hst]; decide
    · rw [e]; decide
  · exact (taken_flag _ _ (by decide) _ _).trans ((hbelow.flag 27 (by decide)).trans hcoord)
  · rw [taken_kal_of (by decide)]
    exact (congrArg Kal.act (unsent_floodReady w true) :).trans hact
  · rw [taken_rd _ _ (by decide), hbelow.coord, hlo]

theorem electQuiet_loses (h2 : s.klState = 2) (hq : s.kal.changed + s.kal.elect * 1000000 ≤ s.now) (hb : s.kal.best ≠ ownSerial) :
    ∃ t, exec .electQuiet s = .next t ∧ t.klState = 3 := by
  have he : s.electQuiet = (s.setKl 3).updKal fun k => { k with changed := s.now } := by
    unfold State.electQuiet
    dsimp only
    rw [if_pos ⟨h2, decide_eq_true hq⟩, if_neg hb]
  refine ⟨_, exec_electQuiet he, ?_⟩
  rw [taken_klState _ _ (by decide)]
  exact klState_setKl (s := s) (n := 3) (by decide)

theorem electQuiet_waits (hq : s.now < s.kal.changed + s.kal.elect * 1000000) :
    ∃ t, exec .electQuiet s = .next t ∧ t.klState = s.klState ∧ t.kal = s.kal := by
  have he : s.electQuiet = s := by
    unfold State.electQuiet
    dsimp only
    rw [decide_eq_false (Nat.not_le.mpr hq), if_neg (fun e => Bool.false_ne_true e.2), if_neg (fun e => Bool.false_ne_true e.2.1)]
  exact ⟨_, exec_electQuiet he, taken_klState _ _ (by decide), taken_kal_of (by decide)⟩

end Sys2Proof.Machine
end

section
/-! SUPPORT. PLAN, ROUTES and READY received, the ACT instant and a split, and the obligation of the election and plan (O50). -/
namespace Sys2Proof.Machine

variable {s : State} {l : Fin 8} {b : List Byte}

theorem byteAt_lt (b : Bytes) (i : Nat) : byteAt b i < 256 := ((b.drop i).headD 0).isLt

/-! ## PLAN -/

theorem exec_plan {u : State} (h : s.plan l b = u) : exec (.plan l b) s = .next (s.taken u trainedFlds) := by subst h; rfl

/-- The registers that a PLAN sets. -/
def State.placeRegs (s : State) (b c : Bytes) : State :=
  let s := ((s.setFld Reg.KL_STS 15 8 (byteAt c 0)).setFld Reg.KL_STS 7 0 (byteAt c 1)).setFld Reg.KL_STS 27 26 (if byteAt c 3 = byteAt c 0 then 1 else 0)
  let s := (s.wr Reg.KL_COORD_LO (BitVec.ofNat 32 (mSerial b))).wr Reg.KL_COORD_HI (BitVec.ofNat 32 (mSerial b / 2 ^ 32))
  s.setFlag (Reg.LINK_STS (byteAt c 2 % 8)) 29 true

/-- The kaleidoscope's data as a PLAN gives them. -/
def Kal.placed (k : Kal) (b c : Bytes) : Kal :=
  { k with parent := some (byteAt c 2 % 8), deputy := byteAt c 3, act := some (leAt c 4 8), staged := [],
           ids := (k.ids.insert (byteAt c 0) ownSerial).insert (flitSrc b) (mSerial b) }

/-- A module without a place takes the one that a PLAN gives it and begins K4. -/
def State.enterK4 (s : State) : State := (s.updKal (fun k => { k with align := 0, alignMax := s.fld Reg.KL_CTL 31 24 })).setKl 4

/-- The place that a PLAN gives a module without one. -/
def State.takesPlace (s : State) (b c : Bytes) : State := ((s.placeRegs b c).updKal (·.placed b c)).enterK4

theorem raise_below (s : State) (i : Nat) : StaysBelow s (s.raise klPage i) := by
  have h : Keeps evtFlds (· == klPage + 0x10) s (s.raise klPage i) := .raise (.refl s) (by decide) (beq_self_eq_true _)
  exact .of_keeps h (by decide)

/-- A place too deep leaves the module UNALIGNED, which it tells the others. -/
def State.tooDeep (s : State) : State := ((s.setKl 6).raise klPage 4).floodReady false

theorem tooDeep_below (s : State) : StaysBelow s s.tooDeep := ((StaysBelow.setKl s 6).trans (raise_below _ 4)).trans (floodReady_below _ _)

theorem unsent_tooDeep (s : State) : s.tooDeep.kal.unsent = s.kal.unsent.ownReady := by
  unfold State.tooDeep
  rw [unsent_floodReady, raise_kal, kal_setKl]

theorem klState_tooDeep (s : State) : s.tooDeep.klState = 6 := by
  have h : ((s.setKl 6).raise klPage 4).klState = 6 :=
    (fld_congr (rd_raise _ _ _ (not_msgReg_kralon (by decide)) (by decide)) 31 28).trans (klState_setKl (by decide))
  rcases klState_floodReady ((s.setKl 6).raise klPage 4) false with e | ⟨e, -⟩
  · exact e.trans h
  · rw [h] at e; exact absurd e (by decide)

/-- What the depth of the place decides. -/
def State.settled (s : State) (c : Bytes) : State := if 32 < byteAt c 1 then s.tooDeep else s

theorem plan_eq (h : s.mgmtArrives l 3 b) (hk : s.klState ∈ [2, 3, 7]) :
    s.plan l b = (((s.received l 4 b).takesPlace b (mContent b)).settled (mContent b)).flushLink l 512 := by
  have hst : (s.received l 4 b).klState = s.klState := (received_keeps s l 4 b).fld 31 28 (not_logReg_kralon (by decide)) (by decide)
  simp only [List.mem_cons, List.not_mem_nil, or_false] at hk
  have htakes : (s.received l 4 b).klState = 2 ∨ (s.received l 4 b).klState = 3 ∨ (s.received l 4 b).klState = 7 ∨
      byteAt (mContent b) 0 = (s.received l 4 b).sysid := by rw [hst]; omega
  have hfirst : (decide ((s.received l 4 b).klState < 4) || (s.received l 4 b).klState == 7) = true := by
    rw [hst, Bool.or_eq_true, decide_eq_true_iff, beq_iff_eq]; omega
  unfold State.plan
  rw [mgmtIn_eq h, if_pos htakes]
  dsimp only
  rw [if_pos hfirst]
  rfl

theorem placeRegs_state (s : State) (b c : Bytes) : (s.placeRegs b c).fld Reg.KL_STS 15 8 = byteAt c 0 ∧ (s.placeRegs b c).fld Reg.KL_STS 7 0 = byteAt c 1 ∧
    (s.placeRegs b c).rd Reg.KL_COORD_LO = BitVec.ofNat 32 (mSerial b) := by
  have hne : Reg.KL_STS ≠ Reg.LINK_STS (byteAt c 2 % 8) := by unfold Reg.KL_STS Reg.LINK_STS; omega
  have hne' : Reg.KL_COORD_LO ≠ Reg.LINK_STS (byteAt c 2 % 8) := by unfold Reg.KL_COORD_LO Reg.LINK_STS; omega
  have hrd : (s.placeRegs b c).rd Reg.KL_STS =
      (((s.setFld Reg.KL_STS 15 8 (byteAt c 0)).setFld Reg.KL_STS 7 0 (byteAt c 1)).setFld Reg.KL_STS 27 26
        (if byteAt c 3 = byteAt c 0 then 1 else 0)).rd Reg.KL_STS :=
    (rd_setFlag_ne _ _ _ hne).trans ((rd_wr_ne _ _ (by decide)).trans (rd_wr_ne _ _ (by decide)))
  refine ⟨?_, ?_, (rd_setFlag_ne _ _ _ hne').trans ((rd_wr_ne _ _ (by decide)).trans (rd_wr_same _ _ _))⟩
  · rw [fld_congr hrd]
    refine (fld_setFld_ne _ _ _ (by decide) (by decide) (by decide) (by decide)).trans ((fld_setFld_ne _ _ _ (by decide) (by decide) (by decide) (by decide)).trans
      ((fld_setFld _ _ _ (by decide) (by decide)).trans (Nat.mod_eq_of_lt (byteAt_lt c 0))))
  · rw [fld_congr hrd]
    exact (fld_setFld_ne _ _ _ (by decide) (by decide) (by decide) (by decide)).trans
      ((fld_setFld _ _ _ (by decide) (by decide)).trans (Nat.mod_eq_of_lt (byteAt_lt c 1)))

theorem enterK4_below (s : State) : StaysBelow s s.enterK4 := (StaysBelow.updKal _).trans (.setKl _ 4)

theorem kal_enterK4 (s : State) : s.enterK4.kal = { s.kal with align := 0, alignMax := s.fld Reg.KL_CTL 31 24 } := kal_setKl _ 4

theorem flushLink_below (s : State) (l n : Nat) : StaysBelow s (s.flushLink l n) := .of_keeps (flushLink_keeps s l n) (by decide)

theorem settled_below (s : State) (c : Bytes) : StaysBelow s (s.settled c) := by
  unfold State.settled
  split
  · exact tooDeep_below s
  · exact .refl s

theorem settled_kal (s : State) (c : Bytes) :
    (s.settled c).kal.parent = s.kal.parent ∧ (s.settled c).kal.deputy = s.kal.deputy ∧ (s.settled c).kal.act = s.kal.act := by
  unfold State.settled
  split
  · exact ⟨(congrArg Kal.parent (unsent_tooDeep s) :), (congrArg Kal.deputy (unsent_tooDeep s) :), (congrArg Kal.act (unsent_tooDeep s) :)⟩
  · exact ⟨rfl, rfl, rfl⟩

theorem klState_settled {c : Bytes} (h : s.klState = 4) : (s.settled c).klState = if 32 < byteAt c 1 then 6 else 4 := by
  unfold State.settled
  split
  · exact klState_tooDeep s
  · exact h

theorem takesPlace_below (s : State) (b c : Bytes) : StaysBelow (s.placeRegs b c) (s.takesPlace b c) :=
  (StaysBelow.updKal (·.placed b c)).trans (enterK4_below _)

theorem takesPlace_kal (s : State) (b c : Bytes) : (s.takesPlace b c).kal.parent = some (byteAt c 2 % 8) ∧ (s.takesPlace b c).kal.deputy = byteAt c 3 ∧
    (s.takesPlace b c).kal.act = some (leAt c 4 8) := by
  unfold State.takesPlace
  rw [kal_enterK4]
  exact ⟨rfl, rfl, rfl⟩

theorem klState_takesPlace (s : State) (b c : Bytes) : (s.takesPlace b c).klState = 4 := klState_setKl (by decide)

theorem plan_result (h : s.mgmtArrives l 3 b) (hk : s.klState ∈ [2, 3, 7]) : ∃ t, exec (.plan l b) s = .next t ∧ t.sysid = byteAt (mContent b) 0 ∧
    t.fld Reg.KL_STS 7 0 = byteAt (mContent b) 1 ∧ t.rd Reg.KL_COORD_LO = BitVec.ofNat 32 (mSerial b) ∧
    t.kal.parent = some (byteAt (mContent b) 2 % 8) ∧ t.kal.deputy = byteAt (mContent b) 3 ∧ t.kal.act = some (leAt (mContent b) 4 8) ∧
    t.klState = if 32 < byteAt (mContent b) 1 then 6 else 4 := by
  generalize hp : s.received l 4 b = p
  have he := plan_eq h hk
  rw [hp] at he
  obtain ⟨h1, h2, h3⟩ := placeRegs_state p b (mContent b)
  obtain ⟨k1, k2, k3⟩ := takesPlace_kal p b (mContent b)
  obtain ⟨j1, j2, j3⟩ := settled_kal (p.takesPlace b (mContent b)) (mContent b)
  have hst := klState_settled (c := mContent b) (klState_takesPlace p b (mContent b))
  have hfin := (takesPlace_below p b (mContent b)).trans ((settled_below _ (mContent b)).trans (flushLink_below _ l 512))
  refine ⟨_, exec_plan he, ?_, ?_, ?_, ?_⟩
  · exact (taken_fld _ _ (by decide) _ _ _).trans ((hfin.fld 15 8 (by decide) (by decide)).trans h1)
  · exact (taken_fld _ _ (by decide) _ _ _).trans ((hfin.fld 7 0 (by decide) (by decide)).trans h2)
  · exact (taken_rd _ _ (by decide) _).trans (hfin.coord.trans h3)
  · rw [taken_kal_of (by decide), kal_flushLink, taken_klState _ _ (by decide)]
    exact ⟨j1.trans k1, j2.trans k2, j3.trans k3, ((flushLink_keeps _ l 512).fld 31 28 (not_logReg_kralon (by decide)) (by decide)).trans hst⟩

/-! ## ROUTES -/

/-- Half a table, loaded. -/
theorem get_loaded (f : Nat → Nat) (i0 n : Nat) (t : Tab Nat) (j : Nat) :
    ((List.range n).foldl (fun (t : Tab Nat) i => t.set 0 (i0 + i) (f i)) t).get 0 j = if i0 ≤ j ∧ j < i0 + n then f (j - i0) else t.get 0 j := by
  induction n with
  | zero => rw [if_neg (by omega)]; rfl
  | succ n ih =>
    rw [List.range_succ, List.foldl_append, List.foldl_cons, List.foldl_nil, Tab.get_set, ih]
    by_cases h : j = i0 + n
    · rw [if_pos h, if_pos (by omega), h, Nat.add_sub_cancel_left]
    · rw [if_neg h]
      exact if_congr (by omega) rfl rfl

/-- The table with the half that a ROUTES brings. -/
def Kal.loaded (k : Kal) (c : Bytes) : Tab Nat :=
  (List.range 128).foldl (fun (t : Tab Nat) i => t.set 0 (128 * (byteAt c 0 % 2) + i) (byteAt c (1 + i))) k.staged

theorem routes_eq (h : s.mgmtArrives l 9 b) (hd : flitDst b = s.sysid) (ha : s.kal.act.isSome = true) : ∃ n, s.routesIn l b =
    ((((s.received l 4 b).updKal (fun k => { k with staged := k.loaded (mContent b) })).setFld Reg.KL_STS 24 16 n)).flushLink l 512 := by
  refine ⟨(((s.received l 4 b).updKal (fun k => { k with staged := k.loaded (mContent b) })).kal.staged.filter
    (fun (e : Nat × Nat) => e.2 / 128 % 2 == 1)).length + 1, ?_⟩
  unfold State.routesIn
  rw [mgmtIn_eq h, if_pos ⟨hd.trans (sysid_received s l 4 b).symm, by rw [kal_received]; exact ha⟩]
  rfl

theorem routes_result (h : s.mgmtArrives l 9 b) (hd : flitDst b = s.sysid) (ha : s.kal.act.isSome = true) :
    ∃ t, exec (.routes l b) s = .next t ∧ t.kal.routes = s.kal.routes ∧
      (∀ i, i < 128 → t.kal.staged.get 0 (128 * (byteAt (mContent b) 0 % 2) + i) = byteAt (mContent b) (1 + i)) ∧
      ∀ i, i < 128 → t.kal.staged.get 0 (128 * (1 - byteAt (mContent b) 0 % 2) + i) =
        s.kal.staged.get 0 (128 * (1 - byteAt (mContent b) 0 % 2) + i) := by
  obtain ⟨n, he⟩ := routes_eq h hd ha
  refine ⟨_, exec_routes he, ?_⟩
  rw [taken_kal_of (by decide), kal_flushLink]
  have hk : (((s.received l 4 b).updKal (fun k => { k with staged := k.loaded (mContent b) })).setFld Reg.KL_STS 24 16 n).kal =
      { s.kal with staged := s.kal.loaded (mContent b) } := by
    rw [setFld_same (f := .kal) _ _ _ _ _ (by decide)]
    show { (s.received l 4 b).kal with staged := (s.received l 4 b).kal.loaded (mContent b) } = _
    rw [kal_received]
  rw [hk]
  refine ⟨rfl, fun i hi => ?_, fun i hi => ?_⟩
  · exact (get_loaded _ _ _ _ _).trans (by rw [if_pos (by omega), Nat.add_sub_cancel_left])
  · exact (get_loaded _ _ _ _ _).trans (if_neg (by omega))

/-! ## The ACT instant, READY, and a split -/

theorem exec_routeAct {u : State} (h : s.routeAct = u) : exec .routeAct s = .next (s.taken u [.kal]) := by subst h; rfl
theorem exec_readyFlit {u : State} (h : s.readyIn l b = u) : exec (.readyFlit l b) s = .next (s.taken u trainedFlds) := by subst h; rfl
theorem exec_splitTimeout {u : State} (h : s.splitTimeout = u) : exec .splitTimeout s = .next (s.taken u trainedFlds) := by subst h; rfl

theorem cutCheck_kal (s : State) : s.cutCheck.kal.routes = s.kal.routes ∧ s.cutCheck.kal.act = s.kal.act := by
  unfold State.cutCheck
  split
  · exact ⟨rfl, rfl⟩
  · split <;> exact ⟨rfl, rfl⟩

theorem routeAct_acts {i : Nat} (ha : s.kal.act = some i) (hi : i ≤ s.now) :
    ∃ t, exec .routeAct s = .next t ∧ t.kal.routes = s.kal.staged ∧ t.kal.act = none := by
  have he : s.routeAct = (s.updKal (fun k => { k with routes := k.staged, act := none })).cutCheck := by
    unfold State.routeAct
    simp only [ha]
    exact if_pos hi
  obtain ⟨h1, h2⟩ := cutCheck_kal (s.updKal (fun k => { k with routes := k.staged, act := none }))
  refine ⟨_, exec_routeAct he, ?_⟩
  rw [taken_kal_of (by decide)]
  exact ⟨h1, h2⟩

theorem routeAct_waits (h : ∀ i, s.kal.act = some i → s.now < i) : ∃ t, exec .routeAct s = .next t ∧ t.kal = s.kal := by
  have he : s.routeAct = s := by
    unfold State.routeAct
    split
    · rfl
    · next i hi => exact if_neg (Nat.not_le.mpr (h i hi))
  exact ⟨_, exec_routeAct he, taken_kal_of (by decide)⟩

/-- A READY is recorded. -/
def Kal.noted (k : Kal) (b : Bytes) : Kal := { k with ready := if k.ready.contains (mSerial b) then k.ready else mSerial b :: k.ready }

theorem readyFlit_result (h : s.floodArrives l 8 b) : let ready := if s.kal.ready.contains (mSerial b) then s.kal.ready else mSerial b :: s.kal.ready
    ∃ t, exec (.readyFlit l b) s = .next t ∧ t.kal.ready = ready ∧
      t.klState = if s.klState = 4 ∧ s.kal.align = 3 ∧ s.fld Reg.KL_STS 24 16 ≤ ready.length then 5 else s.klState := by
  let q := (s.received l 4 b).flooded l b
  let w := q.updKal (·.noted b)
  have he : s.readyIn l b = w.readyCheck.flushLink l 512 := by
    unfold State.readyIn
    rw [floodIn_eq h]
    rfl
  have hq := gotFlood_keeps s l b
  have hk := unsent_gotFlood s l b
  have hready : w.kal.ready = if s.kal.ready.contains (mSerial b) then s.kal.ready else mSerial b :: s.kal.ready := by
    have hr : q.kal.ready = s.kal.ready := (congrArg Kal.ready hk :)
    show (if q.kal.ready.contains (mSerial b) then q.kal.ready else mSerial b :: q.kal.ready) = _
    rw [hr]
  have halign : w.kal.align = s.kal.align := (congrArg Kal.align hk :)
  have hst : w.klState = s.klState := hq.fld 31 28 (not_logReg_kralon (by decide)) (by decide)
  have hn : w.fld Reg.KL_STS 24 16 = s.fld Reg.KL_STS 24 16 := hq.fld 24 16 (not_logReg_kralon (by decide)) (by decide)
  refine ⟨_, exec_readyFlit he, ?_, ?_⟩
  · rw [taken_kal_of (by decide), kal_flushLink, kal_readyCheck, hready]
  · rw [taken_klState _ _ (by decide)]
    refine ((flushLink_keeps _ l 512).fld 31 28 (not_logReg_kralon (by decide)) (by decide)).trans ?_
    refine (klState_readyCheck w).trans ?_
    rw [hready, halign, hst, hn]

theorem splitTimeout_elects {i : Nat} (hc : s.kal.cut = some i) (hi : i + 1000000 ≤ s.now) (hk : 4 ≤ s.klState) :
    ∃ t, exec .splitTimeout s = .next t ∧ t.klState = 2 ∧ t.kal.cut = none ∧ t.kal.best = ownSerial ∧ t.kal.changed = s.now ∧ t.sysid = s.sysid := by
  let w := s.updKal (fun k => { k with cut := none, reports := [] })
  have he : s.splitTimeout = w.enterK2 := by
    unfold State.splitTimeout
    simp only [hc]
    exact if_pos ⟨hi, hk⟩
  have hun := unsent_enterK2 w
  have hbelow : StaysBelow s w.enterK2 :=
    ((StaysBelow.updKal _).trans (.updKal _)).trans ((StaysBelow.setKl _ 2).trans (.of_sends ((sendBeacons_sends _).trans (sendReport_sends _))))
  refine ⟨_, exec_splitTimeout he, ?_⟩
  rw [taken_klState _ _ (by decide), taken_kal_of (by decide)]
  exact ⟨klState_enterK2 w, (congrArg Kal.cut hun :), (congrArg Kal.best hun :), (congrArg Kal.changed hun :),
    (taken_fld _ _ (by decide) _ _ _).trans (hbelow.fld 15 8 (by decide) (by decide))⟩

theorem splitTimeout_waits (hc : s.kal.cut = none) : ∃ t, exec .splitTimeout s = .next t ∧ t.kal = s.kal ∧ t.klState = s.klState := by
  have he : s.splitTimeout = s := by
    unfold State.splitTimeout
    simp only [hc]
  exact ⟨_, exec_splitTimeout he, taken_kal_of (by decide), taken_klState _ _ (by decide)⟩

/-- Settles O50: each row by what it sets and by what the messages that follow it leave alone. -/
theorem electionAndPlan : Obligations.ElectionAndPlan := by
  unfold Obligations.ElectionAndPlan
  exact ⟨fun _ _ _ h => beacon_result h, fun _ => ⟨beaconTimer_sends, beaconTimer_stays⟩, fun _ _ _ => ⟨report_result, report_seen⟩,
    fun _ => ⟨electQuiet_wins, electQuiet_loses, electQuiet_waits⟩, fun _ _ _ => ⟨plan_result, routes_result⟩,
    fun _ => ⟨fun _ => routeAct_acts, routeAct_waits⟩, fun _ _ _ h => readyFlit_result h,
    fun _ => ⟨fun _ => splitTimeout_elects, splitTimeout_waits⟩⟩

end Sys2Proof.Machine
end

section
/-! SUPPORT. SYNC and its exchanges, and the timers of SYNC and HEARTBEAT (O51, R370, R383, R384). -/
namespace Sys2Proof.Machine

variable {s : State} {l : Nat}

/-! ## A message sent or waiting -/

/-- What waits and is then sent is still held. -/
theorem flushLink_holds {k : Nat} {c : Bytes} (h : s.holdsMgmt l k c) (n : Nat) : (s.flushLink l n).holdsMgmt l k c := by
  induction n generalizing s with
  | zero => exact h
  | succ n ih =>
    cases hw : (s.klink l).waits with
    | nil => rw [flushLink_nil hw]; exact h
    | cons f t =>
      rw [flushLink_cons hw]
      split
      · exact h
      · refine ih ?_
        obtain ⟨g, hg, hm⟩ := h
        rw [hw, List.mem_append, List.mem_cons] at hg
        unfold State.holdsMgmt
        rw [klink_wire, klink_setKlink]
        simp only [KLink.sends, List.mem_append, List.mem_singleton]
        rcases hg with hg | rfl | hg
        · exact ⟨g, .inl (.inl hg), hm⟩
        · exact ⟨_, .inl (.inr rfl), hm⟩
        · exact ⟨g, .inr hg, hm⟩

theorem sendOn_holds {f : Flit} {k : Nat} {c : Bytes} (hup : s.linkUp l = true) (hf : f.mgmt k c) : (s.sendOn l f).holdsMgmt l k c := by
  unfold State.sendOn
  rw [if_pos hup]
  refine flushLink_holds ⟨f, ?_, hf⟩ 512
  rw [klink_updKlink_same]
  simp

/-- A message of which only the first bytes are read. -/
theorem mgmt_prefix {f : Flit} {k : Nat} {c d : Bytes} (h : f.mgmt k (c ++ d)) : f.mgmt k c := by
  obtain ⟨h1, h2, h3, h4⟩ := h
  refine ⟨h1, h2, h3, ?_⟩
  have hc := congrArg (List.take c.length) h4
  rwa [List.take_take, List.take_left, List.length_append, min_eq_left (Nat.le_add_right _ _)] at hc

theorem mgmtOn_holds {kind : Nat} {c d : Bytes} (hk : kind < 256) (hup : s.linkUp l = true) : (s.mgmtOn l kind (c ++ d)).holdsMgmt l kind c :=
  sendOn_holds (f := s.mgmtFlit (s.fld (Reg.LINK_STS l) 23 16) kind (c ++ d)) hup (mgmt_prefix (mgmtFlit_mgmt hk 0))

theorem holdsMgmt_taken {t : State} {w : List Fld} {k : Nat} {c : Bytes} (h : t.holdsMgmt l k c) (hw : Fld.klinks ∈ w) :
    (s.taken t w).holdsMgmt l k c := by
  unfold State.holdsMgmt
  rw [taken_klink _ _ hw]
  exact h

/-! ## The timers -/

theorem exec_syncTimer {u : State} (h : s.syncTimer = u) : exec .syncTimer s = .next (s.taken u beaconFlds) := by subst h; rfl
theorem exec_heartbeatTimer {u : State} (h : s.heartbeatTimer = u) : exec .heartbeatTimer s = .next (s.taken u beaconFlds) := by subst h; rfl

theorem syncTimer_result (h : s.klState ∈ [4, 5]) : ∃ t, exec .syncTimer s = .next t ∧
    ∀ l, l < 8 → s.kal.parent ≠ some l → s.canSend l 2 → s.sentMgmt t l 4 (toLe 8 s.now ++ zeros 32) := by
  have he : s.syncTimer = ((upLinks s).filter (fun l => some l != s.kal.parent)).foldl
      (fun (t : State) k => t.mgmtOn k 4 (toLe 8 t.now ++ zeros 32)) s := if_pos (by simpa using h)
  refine ⟨_, exec_syncTimer he, fun l hl hp hc => ?_⟩
  have hmem : l ∈ (upLinks s).filter (fun l => some l != s.kal.parent) :=
    List.mem_filter.mpr ⟨mem_upLinks hc.1 hl, bne_iff_ne.mpr (Ne.symm hp)⟩
  have hsent := sentMgmt_each (kind := 4) (fun t _ => toLe 8 t.now ++ zeros 32) (by decide)
    (fun t k hs _ => by simp only [hs.now]) ((nodup_upLinks s).filter _) hmem hc
  unfold State.sentMgmt
  rw [taken_klink _ _ (by decide)]
  exact hsent

theorem heartbeatTimer_result (s : State) : ∃ t, exec .heartbeatTimer s = .next t ∧
    ∀ l, l < 8 → s.canSend l 2 → s.sentMgmt t l 5 (toLe 1 (ofBool (s.flag Reg.HM_STS 30)) ++ toLe 1 s.klState ++ toLe 8 s.now) := by
  have he : s.heartbeatTimer = (upLinks s).foldl (fun (t : State) k =>
      t.mgmtOn k 5 (toLe 1 (ofBool (t.flag Reg.HM_STS 30)) ++ toLe 1 t.klState ++ toLe 8 t.now)) s := rfl
  refine ⟨_, exec_heartbeatTimer he, fun l hl hc => ?_⟩
  have hsent := sentMgmt_each (kind := 5) (fun t _ => toLe 1 (ofBool (t.flag Reg.HM_STS 30)) ++ toLe 1 t.klState ++ toLe 8 t.now) (by decide)
    (fun t k hs _ => by simp only [hs.now, hs.klState (by decide), hs.flag (a := Reg.HM_STS) 30 (not_logReg (by decide) (by decide) (by decide)) (by decide)])
    (nodup_upLinks s) (mem_upLinks hc.1 hl) hc
  unfold State.sentMgmt
  rw [taken_klink _ _ (by decide)]
  exact hsent

/-! ## A measurement of the offset (R383, R384) -/

/-- The offset, shown. -/
def State.shows (s : State) (ofs : Int) : State := (s.updKal (fun k => { k with ofs := ofs })).wr Reg.KL_OFFSET (satWord ofs)

theorem shows_keeps (s : State) (ofs : Int) : Keeps [.regs, .kal] (· == Reg.KL_OFFSET) s (s.shows ofs) := .wr (.updKal (.refl s)) (by decide) (beq_self_eq_true _)

theorem kal_shows (s : State) (ofs : Int) : (s.shows ofs).kal = { s.kal with ofs := ofs } := wr_same (f := .kal) _ _ _ (by decide)

theorem klState_shows (s : State) (ofs : Int) : (s.shows ofs).klState = s.klState := (shows_keeps s ofs).fld 31 28 (not_logReg_kralon (by decide)) (by decide)

theorem clk_shows (s : State) (ofs : Int) : (s.shows ofs).clk = s.clk := (shows_keeps s ofs).same .clk (by decide)

/-- The rate set to a free value in its range. -/
def State.rated (s : State) : State := ({ s.fresh.2 with clk := { s.clk with rate := clampRate s.fresh.1 } } : State).updKal (fun k => { k with align := 1 })

/-- The slew of an offset, and the same with the alignment one step on. -/
def State.slewed (s : State) (ofs : Int) : State := { s with clk := { s.clk with slew := satWord (-ofs) } }

section
variable {ofs : Int}

theorem measured_done (h : s.klState ≠ 4) : s.measured ofs = s.shows ofs := by
  unfold State.measured
  exact if_pos (by rw [← klState_shows s ofs] at h; exact h)

section
variable (h : s.klState = 4)
include h

/-- The first measurement in K4 decides between UNALIGNED and the rate. -/
theorem measured_first (ha : s.kal.align = 0) : s.measured ofs =
    if s.kal.alignMax * 1000000 < ofs.natAbs then (s.shows ofs).tooDeep else (s.shows ofs).rated := by
  have hk : ¬ (s.shows ofs).klState ≠ 4 := by rw [klState_shows, h]; decide
  have ha' : (s.shows ofs).kal.align = 0 := (congrArg Kal.align (kal_shows s ofs) :).trans ha
  unfold State.measured
  refine (if_neg hk).trans ?_
  unfold State.shows at ha'
  simp only [ha']
  rfl

/-- The second writes the slew. -/
theorem measured_second (ha : s.kal.align = 1) : s.measured ofs = ((s.shows ofs).slewed ofs).updKal (fun k => { k with align := 2 }) := by
  have hk : ¬ (s.shows ofs).klState ≠ 4 := by rw [klState_shows, h]; decide
  have ha' : (s.shows ofs).kal.align = 1 := (congrArg Kal.align (kal_shows s ofs) :).trans ha
  unfold State.measured
  refine (if_neg hk).trans ?_
  unfold State.shows at ha'
  simp only [ha']
  rfl

/-- A later one aligns the module when no slew is left, or writes the slew again. -/
theorem measured_later (ha : 2 ≤ s.kal.align) : s.measured ofs = if (s.shows ofs).clk.slew = 0 ∧ (s.shows ofs).kal.align = 2 then
    (if ofs.natAbs ≤ 50 then (s.shows ofs).floodReady true else (s.shows ofs).slewed ofs) else s.shows ofs := by
  have hk : ¬ (s.shows ofs).klState ≠ 4 := by rw [klState_shows, h]; decide
  obtain ⟨n, hn⟩ := Nat.exists_eq_add_of_le ha
  have ha' : (s.shows ofs).kal.align = n + 2 := (congrArg Kal.align (kal_shows s ofs) :).trans (hn.trans (Nat.add_comm 2 n))
  unfold State.measured
  refine (if_neg hk).trans ?_
  unfold State.shows at ha' ⊢
  simp only [ha']
  rfl

end

/-! ### What each outcome leaves -/

theorem tooDeep_keeps (s : State) : Keeps klFlds klReg s s.tooDeep :=
  ((setKl_sends s 6).toKeeps.raise (by decide) klReg_klEvt).trans (floodReady_sends _ false).toKeeps

theorem rated_below (s : State) : StaysBelow s s.rated := .of_rd fun _ _ => rd_congr (Eq.refl s.regs) _

theorem slewed_below (s : State) (ofs : Int) : StaysBelow s (s.slewed ofs) := .of_rd fun _ _ => rd_congr (Eq.refl s.regs) _

/-- Whatever follows, the offset is shown. -/
theorem measured_shows (s : State) (ofs : Int) : (s.measured ofs).kal.ofs = ofs ∧ (s.measured ofs).rd Reg.KL_OFFSET = satWord ofs := by
  have hk : (s.shows ofs).kal.ofs = ofs := (congrArg Kal.ofs (kal_shows s ofs) :)
  have hr : (s.shows ofs).rd Reg.KL_OFFSET = satWord ofs := rd_wr_same _ _ _
  by_cases h : s.klState = 4
  · rcases Nat.lt_or_ge s.kal.align 2 with ha | ha
    · rcases Nat.lt_or_ge s.kal.align 1 with ha' | ha'
      · rw [measured_first h (by omega)]
        split
        · exact ⟨(congrArg Kal.ofs (unsent_tooDeep (s.shows ofs)) :).trans hk, (tooDeep_below _).offset.trans hr⟩
        · exact ⟨hk, (rated_below _).offset.trans hr⟩
      · rw [measured_second h (by omega)]
        exact ⟨hk, (((slewed_below _ ofs).trans (.updKal _)).offset).trans hr⟩
    · rw [measured_later h ha]
      split
      · split
        · exact ⟨(congrArg Kal.ofs (unsent_floodReady (s.shows ofs) true) :).trans hk, (floodReady_below _ _).offset.trans hr⟩
        · exact ⟨hk, (slewed_below _ ofs).offset.trans hr⟩
      · exact ⟨hk, hr⟩
  · rw [measured_done h]
    exact ⟨hk, hr⟩

end

end Sys2Proof.Machine
end

section
/-! SUPPORT. SYNC received: the exchange opened, closed and returned (O51, R383, R384). -/
namespace Sys2Proof.Machine

variable {s : State} {l : Fin 8} {b : List Byte}

def syncFlds : List Fld := [.free, .regs, .clk, .holding, .hevt, .msix, .out, .klinks, .kal]

theorem exec_syncFlit {u : State} (h : s.syncIn l b = u) : exec (.syncFlit l b) s = .next (s.taken u syncFlds) := by subst h; rfl

theorem taken_clk_of {s t : State} {w : List Fld} (h : Fld.clk ∈ w) : (s.taken t w).clk = t.clk := by rw [taken_clk, if_pos h]

theorem clk_flushLink (s : State) (l n : Nat) : (s.flushLink l n).clk = s.clk := flushLink_same (f := .clk) s l n (by decide)

theorem klState_received (s : State) (l ty : Nat) (b : Bytes) : (s.received l ty b).klState = s.klState :=
  (received_keeps s l ty b).fld 31 28 (not_logReg_kralon (by decide)) (by decide)

theorem clk_received (s : State) (l ty : Nat) (b : Bytes) : (s.received l ty b).clk = s.clk := (received_keeps s l ty b).same .clk (by decide)

theorem klState_flushLink (s : State) (l n : Nat) : (s.flushLink l n).klState = s.klState :=
  (flushLink_keeps s l n).fld 31 28 (not_logReg_kralon (by decide)) (by decide)

/-! ## An exchange opened -/

/-- The times of an exchange that opens now. -/
def State.openExchange (s : State) (c : Bytes) : State := s.updKal (fun k => { k with t1 := leAt c 0 8, t2 := s.now, t3 := s.now })

theorem syncIn_opens (h : s.mgmtArrives l 4 b) (hp : s.kal.parent = some l.val) (h3 : leAt (mContent b) 16 8 = 0) :
    s.syncIn l b = (((s.received l 4 b).openExchange (mContent b)).mgmtOn l 4
      (toLe 8 (leAt (mContent b) 0 8) ++ toLe 8 s.now ++ toLe 8 s.now ++ zeros 16)).flushLink l 512 := by
  unfold State.syncIn
  rw [mgmtIn_eq h, if_pos ((congrArg Kal.parent (kal_received s l 4 b)).trans hp), if_pos h3]
  rw [← now_received s l 4 b]
  rfl

theorem syncFlit_opens (h : s.mgmtArrives l 4 b) (hp : s.kal.parent = some l.val) (h3 : leAt (mContent b) 16 8 = 0) :
    ∃ t, exec (.syncFlit l b) s = .next t ∧ t.kal.t1 = leAt (mContent b) 0 8 ∧ t.kal.t2 = s.now ∧ t.kal.t3 = s.now ∧
      t.holdsMgmt l 4 (toLe 8 (leAt (mContent b) 0 8) ++ toLe 8 s.now ++ toLe 8 s.now) := by
  have hup : ((s.received l 4 b).openExchange (mContent b)).linkUp l = true := (linkUp_received s l 4 b l).trans h.1.1
  have hnow := now_received s l 4 b
  refine ⟨_, exec_syncFlit (syncIn_opens h hp h3), ?_⟩
  rw [taken_kal_of (by decide), kal_flushLink, kal_mgmtOn]
  exact ⟨rfl, hnow, hnow, holdsMgmt_taken (flushLink_holds (mgmtOn_holds (by decide) hup) 512) (by decide)⟩

/-! ## An exchange closed -/

theorem clk_rated (s : State) : s.rated.clk = { s.clk with rate := clampRate s.fresh.1 } := rfl

theorem klEvt_floodReady (s : State) (a : Bool) {i : Nat} (h : s.flag (klPage + 0x10) i = true) : (s.floodReady a).flag (klPage + 0x10) i = true := by
  rw [floodReady_eq]
  have h1 : (s.updKal Kal.ownReady).flag (klPage + 0x10) i = true := h
  have h2 := (flood_sends (s.updKal Kal.ownReady) 8 (toLe 1 (ofBool a))).klEvt (by decide) h1
  unfold State.readyCheck
  dsimp only
  split
  · exact klEvt_setKl 5 h2
  · exact h2

theorem syncOffset_received (s : State) (l : Fin 8) (b c : Bytes) : (s.received l 4 b).syncOffset l c = s.syncOffset l c := by
  unfold State.syncOffset
  rw [(received_keeps s l 4 b).fld 15 8 (not_logReg_link l (by decide) (by decide)) (rxReg_link l.val (by decide))]

theorem syncIn_closes (h : s.mgmtArrives l 4 b) (hp : s.kal.parent = some l.val) (h3 : leAt (mContent b) 16 8 ≠ 0) :
    s.syncIn l b = ((s.received l 4 b).measured (s.syncOffset l (mContent b))).flushLink l 512 := by
  rw [← syncOffset_received s l b]
  unfold State.syncIn
  rw [mgmtIn_eq h, if_pos ((congrArg Kal.parent (kal_received s l 4 b)).trans hp), if_neg h3]
  rfl

theorem syncFlit_closes (h : s.mgmtArrives l 4 b) (hp : s.kal.parent = some l.val) (h3 : leAt (mContent b) 16 8 ≠ 0) :
    let ofs := s.syncOffset l (mContent b)
    ∃ t, exec (.syncFlit l b) s = .next t ∧ t.kal.ofs = ofs ∧ t.rd Reg.KL_OFFSET = satWord ofs ∧
      (s.klState ≠ 4 → t.clk = s.clk ∧ t.klState = s.klState) ∧
      (s.klState = 4 → s.kal.align = 0 → s.kal.alignMax * 1000000 < ofs.natAbs → t.klState = 6 ∧ t.clk = s.clk ∧ t.flag (klPage + 0x10) 4 = true) ∧
      (s.klState = 4 → s.kal.align = 0 → ofs.natAbs ≤ s.kal.alignMax * 1000000 →
        t.klState = 4 ∧ t.kal.align = 1 ∧ ∃ r, t.clk = { s.clk with rate := clampRate r }) ∧
      (s.klState = 4 → s.kal.align = 1 → t.klState = 4 ∧ t.kal.align = 2 ∧ t.clk = { s.clk with slew := satWord (-ofs) }) ∧
      (s.klState = 4 → s.kal.align = 2 → s.clk.slew = 0 → ofs.natAbs ≤ 50 → t.kal.align = 3 ∧ t.clk = s.clk) := by
  intro ofs
  obtain ⟨p, hpe⟩ : ∃ p, p = s.received l 4 b := ⟨_, rfl⟩
  have he := syncIn_closes h hp h3
  rw [← hpe] at he
  have hst : p.klState = s.klState := hpe ▸ klState_received s l 4 b
  have hkal : p.kal = s.kal := hpe ▸ kal_received s l 4 b
  have hclk : p.clk = s.clk := hpe ▸ clk_received s l 4 b
  have hsc := (clk_shows p ofs).trans hclk
  have hss := (klState_shows p ofs).trans hst
  have hsk : (p.shows ofs).kal.align = s.kal.align := (congrArg Kal.align (kal_shows p ofs) :).trans (congrArg Kal.align hkal :)
  obtain ⟨h1, h2⟩ := measured_shows p ofs
  refine ⟨_, exec_syncFlit he, ?_⟩
  rw [taken_kal_of (by decide), kal_flushLink, taken_rd _ _ (by decide), (flushLink_keeps _ l 512).rd _ (not_logReg_kralon (by decide)) (by decide),
    taken_clk_of (by decide), clk_flushLink, taken_klState _ _ (by decide), klState_flushLink, taken_flag _ _ (by decide),
    (flushLink_keeps _ l 512).flag 4 (not_logReg_kralon (by decide)) (by decide)]
  refine ⟨h1, h2, fun hk => ?_, fun hk ha hfar => ?_, fun hk ha hnear => ?_, fun hk ha => ?_, fun hk ha hslew hsmall => ?_⟩
  · rw [measured_done (by rw [hst]; exact hk)]
    exact ⟨hsc, hss⟩
  · rw [measured_first (hst.trans hk) (by rw [hkal]; exact ha), if_pos (by rw [hkal]; exact hfar)]
    refine ⟨klState_tooDeep _, ((tooDeep_keeps _).same .clk (by decide)).trans hsc, ?_⟩
    exact klEvt_floodReady _ false (flag_raise_self _ _ _ (by decide) (not_msgReg_kralon (by decide)))
  · rw [measured_first (hst.trans hk) (by rw [hkal]; exact ha), if_neg (by rw [hkal]; exact Nat.not_lt.mpr hnear)]
    exact ⟨hss.trans hk, rfl, _, (clk_rated _).trans (by rw [hsc])⟩
  · rw [measured_second (hst.trans hk) (by rw [hkal]; exact ha)]
    exact ⟨hss.trans hk, rfl, congrArg (fun c : Clk => { c with slew := satWord (-ofs) }) hsc⟩
  · rw [measured_later (hst.trans hk) (by rw [hkal]; exact ha.ge), if_pos ⟨by rw [hsc]; exact hslew, hsk.trans ha⟩, if_pos hsmall]
    exact ⟨(congrArg Kal.align (unsent_floodReady (p.shows ofs) true) :), ((floodReady_sends _ true).same .clk (by decide)).trans hsc⟩

/-! ## A SYNC of a child -/

/-- The far end of link l is a child. -/
def State.adopts (s : State) (l : Nat) : State := (s.updKlink l (fun x => { x with child := true })).setFlag (Reg.LINK_STS l) 29 true

theorem adopts_keeps (s : State) (l : Nat) : Keeps [.regs, .klinks] linksReg s (s.adopts l) :=
  .setFlag (.setKlink (.refl s)) (by decide) (linksReg_link l (by decide))

theorem linkUp_adopts (s : State) (l : Nat) : (s.adopts l).linkUp l = s.linkUp l :=
  congrArg (· == 2) ((fld_setFlag_ne _ _ _ (by decide) (by decide) (by decide)).trans (fld_congr (rd_updKlink s l _ _) 31 30))

theorem child_adopts (s : State) (l : Nat) : ((s.adopts l).klink l).child = true := by
  unfold State.adopts
  rw [klink_congr (setFlag_same (f := .klinks) _ _ _ _ (by decide)), klink_updKlink_same]

theorem syncIn_child (h : s.mgmtArrives l 4 b) (hp : s.kal.parent ≠ some l.val) :
    s.syncIn l b = (((s.received l 4 b).adopts l).mgmtOn l 4
      ((mContent b).take 24 ++ toLe 8 s.now ++ toLe 8 (unsign 64 s.kal.ofs))).flushLink l 512 := by
  have hnow : ((s.received l 4 b).adopts l).now = s.now := (adopts_keeps _ l).now.trans (now_received s l 4 b)
  have hkal : ((s.received l 4 b).adopts l).kal = s.kal := ((adopts_keeps _ l).same .kal (by decide)).trans (kal_received s l 4 b)
  unfold State.syncIn
  rw [mgmtIn_eq h, if_neg (by rw [kal_received]; exact hp)]
  unfold State.adopts at *
  dsimp only
  rw [hnow, hkal]

theorem child_of_steady {x y : KLink} (h : x.steady = y.steady) : x.child = y.child := (congrArg KLink.child h :)

theorem syncFlit_child (h : s.mgmtArrives l 4 b) (hp : s.kal.parent ≠ some l.val) :
    ∃ t, exec (.syncFlit l b) s = .next t ∧ (t.klink l).child = true ∧ t.flag (Reg.LINK_STS l) 29 = true ∧ t.clk = s.clk ∧
      t.holdsMgmt l 4 ((mContent b).take 24 ++ toLe 8 s.now ++ toLe 8 (unsign 64 s.kal.ofs)) := by
  have he := syncIn_child h hp
  have hclk := clk_received s l 4 b
  have hup : ((s.received l 4 b).adopts l).linkUp l = true := (linkUp_adopts _ l).trans ((linkUp_received s l 4 b l).trans h.1.1)
  generalize s.received l 4 b = p at he hclk hup
  generalize (mContent b).take 24 ++ toLe 8 s.now ++ toLe 8 (unsign 64 s.kal.ofs) = c at he
  have hs := mgmtOn_sends (p.adopts l) l 4 c
  refine ⟨_, exec_syncFlit he, ?_, ?_, ?_, ?_⟩
  · rw [taken_klink _ _ (by decide)]
    exact (child_of_steady ((steady_flushLink _ l 512 l).trans (hs.steady l))).trans (child_adopts p l)
  · rw [taken_flag _ _ (by decide), (flushLink_keeps _ l 512).flag 29 (not_logReg_linkSts l) (txReg_link l.val (by decide)),
      hs.flag 29 (not_logReg_linkSts l) (txReg_link l.val (by decide))]
    exact flag_setFlag _ _ _ (by decide)
  · rw [taken_clk_of (by decide), clk_flushLink, hs.same .clk (by decide), (adopts_keeps p l).same .clk (by decide), hclk]
  · have hh := mgmtOn_holds (d := []) (c := c) (kind := 4) (by decide) hup
    rw [List.append_nil] at hh
    exact holdsMgmt_taken (flushLink_holds hh 512) (by decide)

end Sys2Proof.Machine
end

section
/-! SUPPORT. The loss of a module, and a heartbeat that tells of a fault (O51, R373, R386, R422). -/
namespace Sys2Proof.Machine

variable {s t : State}

/-! ## Accesses that fail together -/

theorem peers_peerFailed (s : State) (r : PeerReq) (n : Nat) : (s.peerFailed r n).kal.peers = s.kal.peers := by
  unfold State.peerFailed
  split
  · rw [raise_kal, bump_kal]
    rfl
  · rfl

theorem klinks_peerFailed (s : State) (r : PeerReq) (n : Nat) : (s.peerFailed r n).klinks = s.klinks := by
  unfold State.peerFailed
  split
  · rw [raise_klinks, bump_klinks]
    rfl
  · rfl

theorem klinks_failPeers (s : State) (p : PeerReq → Bool) : (s.failPeers p).klinks = s.klinks :=
  foldl_view_all (view := State.klinks) _ (fun t r => klinks_peerFailed (t.dropPeer r) r 4) _ _

/-- An access left after those of a list failed was there before and is none of them. -/
theorem mem_peers_failed (L : List PeerReq) (s : State) {r : PeerReq}
    (h : r ∈ (L.foldl (fun (t : State) r => (t.dropPeer r).peerFailed r 4) s).kal.peers) : r ∈ s.kal.peers ∧ r ∉ L := by
  induction L generalizing s with
  | nil => exact ⟨h, List.not_mem_nil⟩
  | cons a L ih =>
    obtain ⟨h1, h2⟩ := ih _ h
    rw [peers_peerFailed] at h1
    obtain ⟨h3, h4⟩ := List.mem_filter.mp h1
    exact ⟨h3, fun e => (List.mem_cons.mp e).elim (by simpa using h4) h2⟩

theorem failPeers_ends {p : PeerReq → Bool} {r : PeerReq} (h : r ∈ (s.failPeers p).kal.peers) : p r = false := by
  obtain ⟨h1, h2⟩ := mem_peers_failed _ s h
  cases e : p r with
  | false => rfl
  | true => exact absurd (List.mem_filter.mpr ⟨h1, e⟩) h2

/-! ## A module LOST -/

/-- The fields that the loss of a module may change. -/
def lostFlds : List Fld := [.regs, .flogRing, .holding, .hevt, .msix, .items, .out, .harts, .klinks, .kal]

/-- The registers that it may change. -/
def lostReg (a : Nat) : Bool := planReg a || a == Reg.KL_CNT_LOST || a == klPage + 0x10 || peerReg a

theorem lostReg_of_planReg {a : Nat} (h : planReg a = true) : lostReg a = true := by unfold lostReg; rw [h]; rfl
theorem lostReg_of_peerReg {a : Nat} (h : peerReg a = true) : lostReg a = true := by unfold lostReg; rw [h, Bool.or_true]
theorem lostReg_cntLost : lostReg Reg.KL_CNT_LOST = true := by unfold lostReg; rw [beq_self_eq_true, Bool.or_true, Bool.true_or, Bool.true_or]
theorem lostReg_klEvt : lostReg (klPage + 0x10) = true := by unfold lostReg; rw [beq_self_eq_true, Bool.or_true, Bool.true_or]

/-- A register at another place of a link's page. -/
theorem lostReg_link {r : Nat} (l : Nat) (h : r % 0x1000 ≠ 0xC0) (hr : 0x321000 ≤ r) : lostReg (r + 0x1000 * l) = false := by
  unfold lostReg
  rw [planReg_link l h hr, peerReg_link l hr]
  simp only [Bool.false_or, Bool.or_false, Bool.or_eq_false_iff, beq_eq_false_iff_ne]
  unfold Reg.KL_CNT_LOST klPage
  omega

theorem lostReg_klinkPage (l : Nat) : lostReg (klinkPage l + 0x10) = false := by
  have h := lostReg_link (r := 0x321010) l (by decide) (by decide)
  rwa [show 0x321010 + 0x1000 * l = klinkPage l + 0x10 by unfold klinkPage; omega] at h

/-- What the loss of a module does before a coordinator plans anew: it is counted, raised and logged, its accesses fail, and its shadows
are freed. -/
def State.countLoss (s : State) (id : Nat) : State :=
  let s := s.updKal (fun k => { k with lost := id :: k.lost })
  let s := (s.bump Reg.KL_CNT_LOST).raise klPage 1
  s.log 2 0x81 (blkId klPage) (id * 2 ^ 48 + s.kal.ids.get 0 id % 2 ^ 32)

def State.dropModule (s : State) (id : Nat) : State :=
  { s.failPeers (fun r => r.sys == id) with
    items := (s.failPeers (fun r => r.sys == id)).items.filter (fun (e : Nat × Item) => !(e.2.shadow.isSome && nbits e.1 63 56 == id)) }

theorem loseModule_eq {id : Nat} (h : s.kal.lost.contains id = false) :
    s.loseModule id = ((s.countLoss id).dropModule id).makePlan 250000 ∨ s.loseModule id = (s.countLoss id).dropModule id := by
  have he : s.loseModule id = if id = s.coordId ∧ ((s.countLoss id).dropModule id).flag Reg.KL_STS 26 then ((s.countLoss id).dropModule id).makePlan 250000
      else if ((s.countLoss id).dropModule id).isCoord then ((s.countLoss id).dropModule id).makePlan 250000 else (s.countLoss id).dropModule id := by
    unfold State.loseModule
    rw [h, if_neg Bool.false_ne_true]
    rfl
  rw [he]
  split
  · exact .inl rfl
  · split
    · exact .inl rfl
    · exact .inr rfl

theorem loseModule_known {id : Nat} (h : s.kal.lost.contains id = true) : s.loseModule id = s := if_pos h

theorem countLoss_keeps (s : State) (id : Nat) : Keeps lostFlds lostReg s (s.countLoss id) :=
  .log (.raise (.bump (.updKal (.refl s)) (by decide) lostReg_cntLost) (by decide) lostReg_klEvt)

theorem dropModule_keeps (s : State) (id : Nat) : Keeps lostFlds lostReg s (s.dropModule id) := by
  have h : Keeps lostFlds lostReg s (s.failPeers (fun r => r.sys == id)) := (failPeers_keeps s _).mono (by decide) fun _ => lostReg_of_peerReg
  exact h.trans (.of_field (f := .items) (fun g hg => by cases g <;> first | rfl | simp at hg) (by decide) (by decide))

theorem klinks_dropModule (s : State) (id : Nat) : (s.dropModule id).klinks = s.klinks := klinks_failPeers s _

theorem klinks_countLoss (s : State) (id : Nat) : (s.countLoss id).klinks = s.klinks := by
  unfold State.countLoss
  dsimp only
  rw [log_same (f := .klinks) _ _ _ _ _ (by decide), raise_klinks, bump_klinks]
  rfl

theorem Keeps.up_of_lost {F : List Fld} (h : Keeps F lostReg s t) (l : Nat) : t.linkUp l = s.linkUp l :=
  linkUp_congr (h.rd _ (not_logReg_linkSts l) (lostReg_link l (by decide) (by decide)))

theorem loseModule_sends (s : State) (id : Nat) : Sends lostFlds lostReg s (s.loseModule id) := by
  cases h : s.kal.lost.contains id with
  | true => rw [loseModule_known h]; exact .refl s
  | false =>
    have h1 := (countLoss_keeps s id).trans (dropModule_keeps (s.countLoss id) id)
    have h2 : Sends lostFlds lostReg s ((s.countLoss id).dropModule id) :=
      .keep h1 ((klinks_dropModule _ _).trans (klinks_countLoss _ _)) h1.up_of_lost
    rcases loseModule_eq h with e | e
    · rw [e]; exact h2.trans ((makePlan_sends _ _).mono (by decide) fun _ => lostReg_of_planReg)
    · rw [e]; exact h2

/-- The pending bits of the KL page stay. -/
theorem klEvt_loseModule (id : Nat) {i : Nat} (hf : s.flag (klPage + 0x10) i = true) : (s.loseModule id).flag (klPage + 0x10) i = true := by
  cases h : s.kal.lost.contains id with
  | true => rw [loseModule_known h]; exact hf
  | false =>
    have h1 : (s.countLoss id).flag (klPage + 0x10) i = true := by
      unfold State.countLoss
      dsimp only
      rw [flag_congr (rd_log _ _ _ _ _ (not_logReg_kralon (by decide)))]
      exact flag_raise_of _ _ _ (not_msgReg_kralon (by decide)) ((flag_congr (rd_bump_ne _ (by decide)) i).trans hf)
    have h2 : ((s.countLoss id).dropModule id).flag (klPage + 0x10) i = true :=
      ((failPeers_keeps (s.countLoss id) _).flag i (not_logReg_kralon (by decide)) (by decide)).trans h1
    rcases loseModule_eq h with e | e
    · rw [e]; exact ((makePlan_sends _ _).klEvt (by decide) h2)
    · rw [e]; exact h2

/-- The loss of a module is counted and raised, its shadows are freed and none of its accesses is left. -/
theorem loseModule_state {id : Nat} (h : s.kal.lost.contains id = false) :
    (s.loseModule id).rd Reg.KL_CNT_LOST = s.rd Reg.KL_CNT_LOST + 1 ∧ (s.loseModule id).flag (klPage + 0x10) 1 = true ∧
    (s.loseModule id).items = s.items.filter (fun (e : Nat × Item) => !(e.2.shadow.isSome && nbits e.1 63 56 == id)) ∧
    ∀ r ∈ (s.loseModule id).kal.peers, r.sys ≠ id := by
  have hc : (s.countLoss id).rd Reg.KL_CNT_LOST = s.rd Reg.KL_CNT_LOST + 1 := by
    unfold State.countLoss
    dsimp only
    rw [rd_log _ _ _ _ _ (not_logReg_kralon (by decide)), rd_raise _ _ _ (not_msgReg_kralon (by decide)) (by decide), rd_bump_same]
    rfl
  have hf : (s.countLoss id).flag (klPage + 0x10) 1 = true := by
    unfold State.countLoss
    dsimp only
    rw [flag_congr (rd_log _ _ _ _ _ (not_logReg_kralon (by decide)))]
    exact flag_raise_self _ _ _ (by decide) (not_msgReg_kralon (by decide))
  have hi : (s.countLoss id).items = s.items := by
    unfold State.countLoss
    dsimp only
    rw [log_same (f := .items) _ _ _ _ _ (by decide), raise_items, bump_items]
    rfl
  let d := (s.countLoss id).dropModule id
  have hfp := failPeers_keeps (s.countLoss id) (fun r => r.sys == id)
  have d1 : d.rd Reg.KL_CNT_LOST = s.rd Reg.KL_CNT_LOST + 1 := (hfp.rd _ (not_logReg_kralon (by decide)) (by decide)).trans hc
  have d2 : d.flag (klPage + 0x10) 1 = true := (hfp.flag 1 (not_logReg_kralon (by decide)) (by decide)).trans hf
  have d3 : d.items = s.items.filter (fun (e : Nat × Item) => !(e.2.shadow.isSome && nbits e.1 63 56 == id)) :=
    congrArg (List.filter _) ((hfp.same .items (by decide)).trans hi)
  have d4 : ∀ r ∈ d.kal.peers, r.sys ≠ id := fun r hr => beq_eq_false_iff_ne.mp (failPeers_ends (s := s.countLoss id) hr)
  rcases loseModule_eq h with e | e
  · have hm := makePlan_sends d 250000
    rw [e, (makePlan_kal d 250000).2.2]
    exact ⟨(hm.rd _ (not_logReg_kralon (by decide)) (by decide)).trans d1, hm.klEvt (by decide) d2, (hm.same .items (by decide)).trans d3, d4⟩
  · rw [e]
    exact ⟨d1, d2, d3, d4⟩

theorem declareLost_sends (s : State) (ser : Nat) : Sends lostFlds lostReg s (s.declareLost ser) := by
  unfold State.declareLost
  split
  · exact .refl s
  · exact .ite (((flood_sends _ _ _).mono (by decide) fun _ h => lostReg_of_planReg (planReg_of_txReg h)).trans (loseModule_sends _ _)) (.refl s)

theorem klEvt_declareLost (ser : Nat) {i : Nat} (hf : s.flag (klPage + 0x10) i = true) : (s.declareLost ser).flag (klPage + 0x10) i = true := by
  unfold State.declareLost
  split
  · exact hf
  · dsimp only
    split
    · exact klEvt_loseModule _ ((flood_sends _ _ _).klEvt (by decide) hf)
    · exact hf

end Sys2Proof.Machine
end

section
/-! SUPPORT. HEARTBEAT, LINK_EVENT and LOST received, the shadow port, and the obligation of alignment and loss (O51). -/
namespace Sys2Proof.Machine

variable {s : State} {l : Fin 8} {b : List Byte}

theorem exec_heartbeat {u : State} (h : s.heartbeat l b = u) : exec (.heartbeat l b) s = .next (s.taken u lostFlds) := by subst h; rfl
theorem exec_linkEvent {u : State} (h : s.linkEventIn l b = u) : exec (.linkEvent l b) s = .next (s.taken u lostFlds) := by subst h; rfl
theorem exec_lost {u : State} (h : s.lostIn l b = u) : exec (.lost l b) s = .next (s.taken u lostFlds) := by subst h; rfl

/-! ## HEARTBEAT -/

/-- What link l learns of its far end from a HEARTBEAT. -/
def State.beatLink (s : State) (l : Nat) (b c : Bytes) : State :=
  (s.updKlink l (fun x => { x with nbState := byteAt c 1 })).setFld (Reg.LINK_STS l) 23 16 (flitSrc b)

/-- A FAULT fails the link, and where this module speaks for the kaleidoscope it may declare the neighbour LOST. -/
def State.beatFault (s : State) (l : Nat) (b : Bytes) : State :=
  if (s.linkFailed l (some 3)).isCoord ∨ (s.linkFailed l (some 3)).flag Reg.KL_STS 26 then
    ((s.linkFailed l (some 3)).updKal (fun k => { k with reports := k.reports.map (fun (e : Nat × List Nat) => (e.1, e.2.map (fun f => if f = mSerial b then 0 else f))) })).declareLost
      (mSerial b)
  else s.linkFailed l (some 3)

theorem heartbeat_eq (h : s.mgmtArrives l 5 b) : s.heartbeat l b =
    (if byteAt (mContent b) 0 = 1 then ((s.received l 4 b).beatLink l b (mContent b)).beatFault l b
      else (s.received l 4 b).beatLink l b (mContent b)).flushLink l 512 := by
  unfold State.heartbeat
  rw [mgmtIn_eq h]
  rfl

theorem beatLink_keeps (s : State) (l : Nat) (b c : Bytes) : Keeps [.regs, .klinks] stsReg s (s.beatLink l b c) :=
  .setFld (.setKlink (.refl s)) (by decide) (stsReg_linkSts l)

theorem linkUp_beatLink (s : State) (l : Nat) (b c : Bytes) : (s.beatLink l b c).linkUp l = s.linkUp l :=
  congrArg (· == 2) ((fld_setFld_ne _ _ _ (by decide) (by decide) (by decide) (by decide)).trans (fld_congr (rd_updKlink s l _ _) 31 30))

theorem nbState_beatLink (s : State) (l : Nat) (b c : Bytes) : ((s.beatLink l b c).klink l).nbState = byteAt c 1 := by
  unfold State.beatLink
  rw [klink_setFld, klink_updKlink_same]

/-- What follows the failure on a FAULT leaves the link as it failed. -/
theorem beatFault_sends (s : State) (l : Nat) (b : Bytes) : Sends lostFlds lostReg (s.linkFailed l (some 3)) (s.beatFault l b) :=
  .ite ((Sends.updKal (by decide) _).trans (declareLost_sends _ _)) (.refl _)

theorem klEvt_beatFault {l i : Nat} (h : (s.linkFailed l (some 3)).flag (klPage + 0x10) i = true) : (s.beatFault l b).flag (klPage + 0x10) i = true := by
  unfold State.beatFault
  split
  · exact klEvt_declareLost _ (((Keeps.updKal (F := [.kal]) (R := fun _ => false) (.refl _)).flag i (not_logReg_kralon (by decide)) rfl).trans h)
  · exact h

theorem heartbeat_sound (h : s.mgmtArrives l 5 b) (h1 : byteAt (mContent b) 0 ≠ 1) : ∃ t, exec (.heartbeat l b) s = .next t ∧
    (t.klink l).nbState = byteAt (mContent b) 1 ∧ t.fld (Reg.LINK_STS l) 23 16 = flitSrc b ∧ t.linkUp l = true := by
  have he := heartbeat_eq h
  rw [if_neg h1] at he
  have hup := (linkUp_beatLink (s.received l 4 b) l b (mContent b)).trans ((linkUp_received s l 4 b l).trans h.1.1)
  have hf := flushLink_keeps ((s.received l 4 b).beatLink l b (mContent b)) l 512
  have hsts := hf.rd _ (not_logReg_linkSts l) (txReg_link l.val (by decide))
  refine ⟨_, exec_heartbeat he, ?_, ?_, ?_⟩
  · rw [taken_klink _ _ (by decide)]
    exact (nbState_of_steady (steady_flushLink _ l 512 l)).trans (nbState_beatLink _ _ _ _)
  · rw [taken_fld _ _ (by decide), fld_congr hsts]
    exact (fld_setFld _ _ _ (by decide) (by decide)).trans (Nat.mod_eq_of_lt (flitSrc_lt b))
  · exact (linkUp_congr (taken_rd _ _ (by decide) _)).trans ((linkUp_congr hsts).trans hup)

theorem heartbeat_fault (h : s.mgmtArrives l 5 b) (h1 : byteAt (mContent b) 0 = 1) : ∃ t, exec (.heartbeat l b) s = .next t ∧ t.klinkState l = 3 ∧
    t.rd (Reg.LINK_CNT_FAIL l) = s.rd (Reg.LINK_CNT_FAIL l) + 1 ∧ t.flag (klinkPage l + 0x10) 1 = true ∧ t.flag (klPage + 0x10) 2 = true := by
  have he := heartbeat_eq h
  rw [if_pos h1] at he
  have hp := received_keeps s l 4 b
  have hup := (linkUp_beatLink (s.received l 4 b) l b (mContent b)).trans ((linkUp_received s l 4 b l).trans h.1.1)
  have hv := beatLink_keeps (s.received l 4 b) l b (mContent b)
  have hcnt : ((s.received l 4 b).beatLink l b (mContent b)).rd (Reg.LINK_CNT_FAIL l) = s.rd (Reg.LINK_CNT_FAIL l) :=
    (hv.rd _ (not_logReg_linkCntFail l) (stsReg_link l.val (by decide))).trans (hp.rd _ (not_logReg_linkCntFail l) (rxReg_link l.val (by decide)))
  generalize (s.received l 4 b).beatLink l b (mContent b) = v at he hup hcnt
  obtain ⟨hst, hk, hc, -⟩ := linkFailed_state v l (some 3)
  obtain ⟨e1, e2⟩ := linkFailed_raises hup (some 3)
  have hs := beatFault_sends v l b
  have hdown : (v.linkFailed l (some 3)).linkUp l = false := by unfold State.linkUp; rw [hst]; rfl
  have hflush : (v.beatFault l b).flushLink l 512 = v.beatFault l b := flushLink_nil (by rw [hs.idle l hdown, hk]) 512
  rw [hflush] at he
  refine ⟨_, exec_heartbeat he, ?_, ?_, ?_, ?_⟩
  · rw [taken_klinkState _ _ (by decide), hs.klinkState l (lostReg_link l.val (by decide) (by decide)), hst]
  · rw [taken_rd _ _ (by decide), hs.rd _ (not_logReg_linkCntFail l) (lostReg_link l.val (by decide) (by decide)), hc, hcnt]
  · rw [taken_flag _ _ (by decide), hs.flag 1 (not_logReg_klinkPage l) (lostReg_klinkPage l), e1]
  · rw [taken_flag _ _ (by decide)]
    exact klEvt_beatFault e2

/-! ## LINK_EVENT -/

/-- The far ends of the module that sent a LINK_EVENT, with one link's changed. -/
def Kal.eventEnds (k : Kal) (b : Bytes) (far : Nat) : List Nat :=
  updAt (k.reports.get [0, 0, 0, 0, 0, 0, 0, 0] (mSerial b)) (byteAt (mContent b) 0 % 8) (fun _ => far)

/-- A LINK_EVENT changes the report of the module that sent it. -/
def State.noteEvent (s : State) (b : Bytes) (far : Nat) : State :=
  s.updKal (fun k => { k with reports := k.reports.insert (mSerial b) (s.kal.eventEnds b far) })

theorem reports_noteEvent (s : State) (b : Bytes) (far : Nat) :
    (s.noteEvent b far).kal.reports = s.kal.reports.insert (mSerial b) (s.kal.eventEnds b far) := rfl

theorem linkEvent_up (h : s.mgmtArrives l 6 b) (hd : flitDst b = s.sysid) (h2 : byteAt (mContent b) 1 = 2) :
    ∃ t, exec (.linkEvent l b) s = .next t ∧ t.rd Reg.KL_CNT_LOST = s.rd Reg.KL_CNT_LOST ∧
      t.kal.reports = s.kal.reports.insert (mSerial b)
        (updAt (s.kal.reports.get [0, 0, 0, 0, 0, 0, 0, 0] (mSerial b)) (byteAt (mContent b) 0 % 8) (fun _ => leAt (mContent b) 2 8)) := by
  have he : s.linkEventIn l b = ((s.received l 4 b).noteEvent b (leAt (mContent b) 2 8)).flushLink l 512 := by
    unfold State.linkEventIn
    rw [mgmtIn_eq h, if_pos (hd.trans (sysid_received s l 4 b).symm)]
    simp only [h2, beq_self_eq_true, if_true]
    rfl
  refine ⟨_, exec_linkEvent he, ?_, ?_⟩
  · rw [taken_rd _ _ (by decide), (flushLink_keeps _ l 512).rd _ (not_logReg_kralon (by decide)) (by decide)]
    exact (received_keeps s l 4 b).rd _ (not_logReg_kralon (by decide)) (by decide)
  · rw [taken_kal_of (by decide), kal_flushLink]
    rw [reports_noteEvent, kal_received]
    rfl

theorem farEnds_congr {t : State} (hup : ∀ l, t.linkUp l = s.linkUp l) (hser : ∀ l, t.linkSerial l = s.linkSerial l) : t.farEnds = s.farEnds := by
  unfold State.farEnds
  simp only [hup, hser]

theorem farEnds_received (s : State) (l ty : Nat) (b : Bytes) : (s.received l ty b).farEnds = s.farEnds :=
  farEnds_congr (linkUp_received s l ty b) fun k => linkSerial_congr
    ((received_keeps s l ty b).rd _ (not_logReg_link k (by decide) (by decide)) (rxReg_link k (by decide))) ((received_keeps s l ty b).rd _ (not_logReg_link k (by decide) (by decide)) (rxReg_link k (by decide)))

/-- A module in the plan with no link left is declared LOST by the coordinator. -/
theorem declareLost_lost {ser : Nat} {e : Nat × Nat} (hc : s.isCoord = true) (he : s.kal.ids.find? (fun (e : Nat × Nat) => e.2 == ser) = some e)
    (hfar : s.farEnds.contains ser = false) (hl : s.kal.lost.contains e.1 = false) (hr : ∀ x ∈ s.kal.reports, x.1 ≠ ser → x.2.contains ser = false) :
    s.declareLost ser = (s.flood 7 (toLe 1 e.1 ++ toLe 8 ser)).loseModule e.1 := by
  have hany : (s.kal.reports.filter (fun (x : Nat × List Nat) => x.1 != ser)).any (fun (x : Nat × List Nat) => x.2.contains ser) = false :=
    List.any_eq_false.mpr fun x hx => by
      obtain ⟨h1, h2⟩ := List.mem_filter.mp hx
      rw [hr x h1 (bne_iff_ne.mp h2)]
      decide
  unfold State.declareLost
  simp only [he]
  rw [hc, hany, hfar]
  exact if_pos ⟨rfl, rfl, hl⟩

theorem linkEvent_lost (h : s.mgmtArrives l 6 b) (hd : flitDst b = s.sysid) (h2 : byteAt (mContent b) 1 ≠ 2) (hc : s.isCoord = true) (e : Nat × Nat)
    (he : s.kal.ids.find? (fun (e : Nat × Nat) => e.2 == leAt (mContent b) 2 8) = some e) (hfar : s.farEnds.contains (leAt (mContent b) 2 8) = false)
    (hl : s.kal.lost.contains e.1 = false)
    (hr : ∀ x ∈ s.kal.reports.insert (mSerial b) (updAt (s.kal.reports.get [0, 0, 0, 0, 0, 0, 0, 0] (mSerial b)) (byteAt (mContent b) 0 % 8) (fun _ => 0)),
      x.1 ≠ leAt (mContent b) 2 8 → x.2.contains (leAt (mContent b) 2 8) = false) :
    ∃ t, exec (.linkEvent l b) s = .next t ∧ t.rd Reg.KL_CNT_LOST = s.rd Reg.KL_CNT_LOST + 1 ∧ t.flag (klPage + 0x10) 1 = true := by
  have hne : (byteAt (mContent b) 1 == 2) = false := beq_eq_false_iff_ne.mpr h2
  have heq : s.linkEventIn l b = (((s.received l 4 b).noteEvent b 0).declareLost (leAt (mContent b) 2 8)).flushLink l 512 := by
    unfold State.linkEventIn
    rw [mgmtIn_eq h, if_pos (hd.trans (sysid_received s l 4 b).symm)]
    simp only [hne, Bool.false_eq_true, if_false]
    rfl
  have hp := received_keeps s l 4 b
  have hkal := kal_received s l 4 b
  have hfar' : ((s.received l 4 b).noteEvent b 0).farEnds = s.farEnds := farEnds_received s l 4 b
  have hco : ((s.received l 4 b).noteEvent b 0).isCoord = s.isCoord := hp.flag 27 (not_logReg_kralon (by decide)) (by decide)
  have hcnt : ((s.received l 4 b).noteEvent b 0).rd Reg.KL_CNT_LOST = s.rd Reg.KL_CNT_LOST := hp.rd _ (not_logReg_kralon (by decide)) (by decide)
  have hreports : ((s.received l 4 b).noteEvent b 0).kal.reports = s.kal.reports.insert (mSerial b)
      (updAt (s.kal.reports.get [0, 0, 0, 0, 0, 0, 0, 0] (mSerial b)) (byteAt (mContent b) 0 % 8) (fun _ => 0)) := by
    rw [reports_noteEvent, hkal]
    rfl
  have hids : ((s.received l 4 b).noteEvent b 0).kal.ids = s.kal.ids := (congrArg Kal.ids hkal :)
  have hlost : ((s.received l 4 b).noteEvent b 0).kal.lost = s.kal.lost := (congrArg Kal.lost hkal :)
  generalize (s.received l 4 b).noteEvent b 0 = v at heq hfar' hco hcnt hreports hids hlost
  rw [declareLost_lost (hco.trans hc) (by rw [hids]; exact he) (by rw [hfar']; exact hfar) (by rw [hlost]; exact hl) (by rw [hreports]; exact hr)] at heq
  have hfl := flood_sends v 7 (toLe 1 e.1 ++ toLe 8 (leAt (mContent b) 2 8))
  have hl' : (v.flood 7 (toLe 1 e.1 ++ toLe 8 (leAt (mContent b) 2 8))).kal.lost.contains e.1 = false := by
    rw [kal_flood]; exact (congrArg (fun m : List Nat => m.contains e.1) hlost).trans hl
  obtain ⟨g1, g2, -, -⟩ := loseModule_state hl'
  refine ⟨_, exec_linkEvent heq, ?_, ?_⟩
  · rw [taken_rd _ _ (by decide), (flushLink_keeps _ l 512).rd _ (not_logReg_kralon (by decide)) (by decide), g1,
      hfl.rd _ (not_logReg_kralon (by decide)) (by decide), hcnt]
  · rw [taken_flag _ _ (by decide), (flushLink_keeps _ l 512).flag 1 (not_logReg_kralon (by decide)) (by decide), g2]

/-! ## LOST -/

theorem lostIn_eq (h : s.floodArrives l 7 b) :
    s.lostIn l b = (((s.received l 4 b).flooded l b).loseModule (byteAt (mContent b) 0)).flushLink l 512 := floodIn_eq h _

theorem items_flushLink (s : State) (l n : Nat) : (s.flushLink l n).items = s.items := flushLink_same (f := .items) s l n (by decide)

theorem lost_new (h : s.floodArrives l 7 b) (hl : s.kal.lost.contains (byteAt (mContent b) 0) = false) :
    ∃ t, exec (.lost l b) s = .next t ∧ t.rd Reg.KL_CNT_LOST = s.rd Reg.KL_CNT_LOST + 1 ∧ t.flag (klPage + 0x10) 1 = true ∧
      t.items = s.items.filter (fun (e : Nat × Item) => !(e.2.shadow.isSome && nbits e.1 63 56 == byteAt (mContent b) 0)) ∧
      ∀ r ∈ t.kal.peers, r.sys ≠ byteAt (mContent b) 0 := by
  have hq := gotFlood_keeps s l b
  have hl' : ((s.received l 4 b).flooded l b).kal.lost.contains (byteAt (mContent b) 0) = false := by
    rw [show ((s.received l 4 b).flooded l b).kal.lost = s.kal.lost from (congrArg Kal.lost (unsent_gotFlood s l b) :)]; exact hl
  obtain ⟨g1, g2, g3, g4⟩ := loseModule_state hl'
  refine ⟨_, exec_lost (lostIn_eq h), ?_⟩
  rw [taken_rd _ _ (by decide), (flushLink_keeps _ l 512).rd _ (not_logReg_kralon (by decide)) (by decide), taken_flag _ _ (by decide),
    (flushLink_keeps _ l 512).flag 1 (not_logReg_kralon (by decide)) (by decide), taken_items, if_pos (by decide), items_flushLink,
    taken_kal_of (by decide), kal_flushLink, g1, g3, hq.rd _ (not_logReg_kralon (by decide)) (by decide), hq.same .items (by decide)]
  exact ⟨rfl, g2, rfl, g4⟩

theorem lost_known (h : s.floodArrives l 7 b) (hl : s.kal.lost.contains (byteAt (mContent b) 0) = true) :
    ∃ t, exec (.lost l b) s = .next t ∧ t.items = s.items ∧ t.kal.peers = s.kal.peers ∧ t.kal.lost = s.kal.lost := by
  have hq := gotFlood_keeps s l b
  have hun := unsent_gotFlood s l b
  have hlost : ((s.received l 4 b).flooded l b).kal.lost = s.kal.lost := (congrArg Kal.lost hun :)
  refine ⟨_, exec_lost (lostIn_eq h), ?_⟩
  rw [loseModule_known (by rw [hlost]; exact hl), taken_items, if_pos (by decide), items_flushLink, taken_kal_of (by decide), kal_flushLink]
  exact ⟨hq.same .items (by decide), (congrArg Kal.peers hun :), hlost⟩

end Sys2Proof.Machine
end

section
/-! SUPPORT. The shadow port (R385), and the obligation of alignment and loss (O51). -/
namespace Sys2Proof.Machine

variable {s : State} {b data : List Byte}

def shadowFlds : List Fld := [.regs, .holding, .hevt, .msix, .items, .out]

theorem exec_shadowOpen {u : State} (h : s.shadowPort (data.set 40 1) = u) : exec (.shadowOpen data) s = .next (s.taken u shadowFlds) := by
  subst h; rfl
theorem exec_shadowClose {u : State} (h : s.shadowPort (data.set 40 2) = u) : exec (.shadowClose data) s = .next (s.taken u shadowFlds) := by
  subst h; rfl

theorem byteAt_set_same (v : Byte) (h : data.length = 64) : byteAt (data.set 40 v) 40 = v.toNat := by
  unfold byteAt
  rw [List.headD_eq_head?_getD, List.head?_drop, List.getElem?_set_self (by omega)]
  rfl

/-- The operation's byte lies outside the bytes before it and after it. -/
theorem leAt_set_before (v : Byte) {i k : Nat} (h : i + k ≤ 40) : leAt (data.set 40 v) i k = leAt data i k := by
  unfold leAt
  rw [List.drop_set, if_neg (by omega), List.take_set_of_le (by omega)]

theorem zeroAt_set_after (v : Byte) {i k : Nat} (h : 40 < i) : zeroAt (data.set 40 v) i k = zeroAt data i k := by
  unfold zeroAt leAt
  rw [List.drop_set_of_lt h]

/-! ## Refusals -/

theorem shadowBad_result {cmd : Instr} {t : State} (h : exec cmd s = .next (s.taken t shadowFlds)) (ht : t = s.shadowBad) :
    ∃ t, exec cmd s = .next t ∧ t.items = s.items ∧ t.rd Reg.KL_CNT_SHADOW_BAD = s.rd Reg.KL_CNT_SHADOW_BAD + 1 ∧ t.flag (klPage + 0x10) 5 = true := by
  subst ht
  refine ⟨_, h, ?_⟩
  unfold State.shadowBad
  rw [taken_items, if_pos (by decide), raise_items, bump_items, taken_rd _ _ (by decide),
    rd_raise _ _ _ (not_msgReg_kralon (by decide)) (by decide), rd_bump_same, taken_flag _ _ (by decide)]
  exact ⟨rfl, rfl, flag_raise_self _ _ _ (by decide) (not_msgReg_kralon (by decide))⟩

theorem shadowPort_malformed (h : b.length ≠ 64 ∨ zeroAt b 41 23 = false ∨ s.klState = 6) : s.shadowPort b = s.shadowBad := if_pos h

theorem shadowPort_noOpen (h : byteAt b 40 = 1) (hbad : 4 < byteAt b 36 ∨ nbits (leAt b 0 8) 63 56 = s.sysid ∨ (s.item (leAt b 0 8)).isSome = true) :
    s.shadowPort b = s.shadowBad := by
  unfold State.shadowPort
  dsimp only
  rw [h, if_neg (show ¬ 1 = 2 by decide)]
  split
  · rfl
  · refine if_neg ?_
    rintro ⟨-, h36, -, -, hsys, hitem, -⟩
    rcases hbad with e | e | e
    · omega
    · exact hsys e
    · rw [Option.isSome_iff_ne_none] at e
      exact e (Option.isNone_iff_eq_none.mp hitem)

theorem shadowPort_noClose (h : byteAt b 40 = 2) (hbad : s.item (leAt b 0 8) = none) : s.shadowPort b = s.shadowBad := by
  unfold State.shadowPort
  dsimp only
  rw [h, if_pos rfl]
  split
  · rfl
  · simp only [hbad]

theorem shadowOpen_bad (h : data.length ≠ 64 ∨ zeroAt (data.set 40 1) 41 23 = false ∨ s.klState = 6 ∨ 4 < byteAt (data.set 40 1) 36 ∨
      nbits (leAt (data.set 40 1) 0 8) 63 56 = s.sysid ∨ (s.item (leAt (data.set 40 1) 0 8)).isSome = true) :
    s.shadowPort (data.set 40 1) = s.shadowBad := by
  by_cases hlen : data.length = 64
  · rcases h with h | h | h | h
    · exact absurd hlen h
    · exact shadowPort_malformed (.inr (.inl h))
    · exact shadowPort_malformed (.inr (.inr h))
    · exact shadowPort_noOpen (byteAt_set_same 1 hlen) h
  · exact shadowPort_malformed (.inl (by rw [List.length_set]; exact hlen))

theorem shadowClose_bad (h : s.item (leAt (data.set 40 1) 0 8) = none ∨ data.length ≠ 64) : s.shadowPort (data.set 40 2) = s.shadowBad := by
  by_cases hlen : data.length = 64
  · have hi := h.resolve_right (fun e => e hlen)
    rw [leAt_set_before 1 (by decide), ← leAt_set_before 2 (by decide)] at hi
    exact shadowPort_noClose (byteAt_set_same 2 hlen) hi
  · exact shadowPort_malformed (.inl (by rw [List.length_set]; exact hlen))

/-! ## Shadows opened and freed -/

/-- The milestones of a shadow: shares of its budget, none after its seal instant (R385). -/
def shadowMs (b : Bytes) : List Int :=
  [byteAt b 32, byteAt b 33, byteAt b 34, byteAt b 35].map (fun (v : Nat) =>
    let m := ((leAt b 8 8 : Nat) : Int) + (((leAt b 16 8 : Nat) : Int) - (leAt b 8 8 : Nat)) * (v : Int) / 256
    if ((leAt b 24 8 : Nat) : Int) < m then ((leAt b 24 8 : Nat) : Int) else m)

/-- The item that a good OPEN takes, before its urgency is set. -/
def shadowItem (b : Bytes) : Item :=
  { anchor := leAt b 8 8, deadline := leAt b 16 8, hasDl := true, sealAt := leAt b 24 8, ms := shadowMs b,
    pv := { lateMode := byteAt b 37, lateMs := leAt b 38 2 }, part := 9, shadow := some (byteAt b 36) }

theorem shadowPort_opens (hlen : b.length = 64) (hz : zeroAt b 41 23 = true) (hk : s.klState ≠ 6) (hop : byteAt b 40 = 1) (h36 : byteAt b 36 ≤ 4)
    (h37 : byteAt b 37 ≤ 2) (hr1 : byteAt b 32 < byteAt b 33) (hr2 : byteAt b 33 < byteAt b 34) (hr3 : byteAt b 34 < byteAt b 35)
    (hsys : nbits (leAt b 0 8) 63 56 ≠ s.sysid) (hi : s.item (leAt b 0 8) = none) (hn : s.items.length < 65536) :
    s.shadowPort b = s.setItem (leAt b 0 8) { shadowItem b with urg := (shadowItem b).urgency s.now } := by
  have hbad : ¬ (b.length ≠ 64 ∨ zeroAt b 41 23 = false ∨ s.klState = 6) := by
    rw [hlen, hz, not_or, not_or]
    exact ⟨fun e => e rfl, Bool.true_eq_false.mp, hk⟩
  have hrising : (decide (byteAt b 32 < byteAt b 33) && decide (byteAt b 33 < byteAt b 34) && decide (byteAt b 34 < byteAt b 35)) = true := by
    rw [decide_eq_true hr1, decide_eq_true hr2, decide_eq_true hr3]; rfl
  unfold State.shadowPort
  dsimp only
  rw [if_neg hbad, hop, if_neg (show ¬ 1 = 2 by decide), if_pos ⟨rfl, h36, h37, hrising, hsys, Option.isNone_iff_eq_none.mpr hi, hn⟩]
  rfl

theorem shadowOpen_result (hlen : data.length = 64) (hz : zeroAt (data.set 40 1) 41 23 = true) (hk : s.klState ≠ 6)
    (h36 : byteAt (data.set 40 1) 36 ≤ 4) (h37 : byteAt (data.set 40 1) 37 ≤ 2) (hr1 : byteAt (data.set 40 1) 32 < byteAt (data.set 40 1) 33)
    (hr2 : byteAt (data.set 40 1) 33 < byteAt (data.set 40 1) 34) (hr3 : byteAt (data.set 40 1) 34 < byteAt (data.set 40 1) 35)
    (hsys : nbits (leAt (data.set 40 1) 0 8) 63 56 ≠ s.sysid) (hi : s.item (leAt (data.set 40 1) 0 8) = none) (hn : s.items.length < 65536) :
    ∃ t, exec (.shadowOpen data) s = .next t ∧ (∀ k, k ≠ leAt (data.set 40 1) 0 8 → t.items.get {} k = s.items.get {} k) ∧
      ∃ it, t.item (leAt (data.set 40 1) 0 8) = some it ∧ it.anchor = leAt (data.set 40 1) 8 8 ∧
        it.deadline = leAt (data.set 40 1) 16 8 ∧ it.sealAt = leAt (data.set 40 1) 24 8 ∧ it.shadow = some (byteAt (data.set 40 1) 36) := by
  have he := shadowPort_opens (List.length_set.trans hlen) hz hk (byteAt_set_same 1 hlen) h36 h37 hr1 hr2 hr3 hsys hi hn
  refine ⟨_, exec_shadowOpen he, fun k hne => ?_, { shadowItem (data.set 40 1) with urg := (shadowItem (data.set 40 1)).urgency s.now }, ?_, rfl, rfl, rfl, rfl⟩
  · rw [taken_items, if_pos (by decide)]
    exact Tab.get_insert_ne _ _ _ hne
  · unfold State.item
    rw [taken_items, if_pos (by decide)]
    exact Tab.look_insert_same _ _ _

theorem shadowClose_result (it : Item) (hlen : data.length = 64) (hz : zeroAt (data.set 40 1) 41 23 = true) (hk : s.klState ≠ 6)
    (hi : s.item (leAt (data.set 40 1) 0 8) = some it) (hsh : it.shadow.isSome = true) :
    ∃ t, exec (.shadowClose data) s = .next t ∧ t.item (leAt (data.set 40 1) 0 8) = none := by
  have he : s.shadowPort (data.set 40 2) = s.freeItem (leAt (data.set 40 1) 0 8) := by
    have hop : byteAt (data.set 40 2) 40 = 2 := byteAt_set_same 2 hlen
    rw [zeroAt_set_after 1 (by decide), ← zeroAt_set_after 2 (by decide)] at hz
    rw [leAt_set_before 1 (by decide), ← leAt_set_before (data := data) 2 (by decide)] at hi ⊢
    unfold State.shadowPort
    dsimp only
    have hbad : ¬ ((data.set 40 2).length ≠ 64 ∨ zeroAt (data.set 40 2) 41 23 = false ∨ s.klState = 6) := by
      rw [List.length_set, hlen, hz, not_or, not_or]
      exact ⟨fun e => e rfl, Bool.true_eq_false.mp, hk⟩
    rw [if_neg hbad, hop, if_pos rfl]
    simp only [hi, hsh, if_true]
  refine ⟨_, exec_shadowClose he, ?_⟩
  unfold State.item
  rw [taken_items, if_pos (by decide)]
  exact Tab.look_erase_same _ _

/-- Settles O51: the timers send on every link that can, an exchange of SYNC is opened, closed or returned, and what a HEARTBEAT, a
LINK_EVENT or a LOST tells is followed by messages that leave it alone. -/
theorem alignmentLossAndShadows : Obligations.AlignmentLossAndShadows := by
  unfold Obligations.AlignmentLossAndShadows
  exact ⟨fun _ => syncTimer_result, heartbeatTimer_result, fun _ _ _ h => ⟨syncFlit_opens h, syncFlit_closes h, syncFlit_child h⟩,
    fun _ _ _ => ⟨fun h => ⟨heartbeat_sound h, heartbeat_fault h⟩, linkEvent_up, linkEvent_lost, fun h => ⟨lost_new h, lost_known h⟩⟩,
    fun _ _ => ⟨shadowOpen_result, fun h => shadowBad_result (exec_shadowOpen rfl) (shadowOpen_bad h), shadowClose_result,
      fun h => shadowBad_result (exec_shadowClose rfl) (shadowClose_bad h)⟩⟩

end Sys2Proof.Machine
end

section
/-! SUPPORT. The end of work - items sealed, contexts closed, sequences ended, batches handed (R24, R227, R137) - leaves the tiles' states and
counters and the partitions' pages alone. -/
namespace Sys2Proof.Machine

/-- TILE_STS or TILE_PC of some tile. -/
def tileReg (a : Nat) : Bool := decide (0x100000 ≤ a) && decide (a < 0x1A0000) && (a % 0x1000 == 0x44 || a % 0x1000 == 0x48)

/-- A register of some partition's page. -/
def partReg (a : Nat) : Bool := decide (0x311000 ≤ a) && decide (a < 0x319000)

/-- The registers that the end of work may change: all but these. -/
def workReg (a : Nat) : Bool := !(tileReg a || partReg a)

theorem workReg_of_tileReg {a : Nat} (h : tileReg a = true) : workReg a = false := by unfold workReg; rw [h]; rfl

theorem workReg_of_partReg {a : Nat} (h : partReg a = true) : workReg a = false := by unfold workReg; rw [h, Bool.or_true]; rfl

theorem tileReg_tileSts {k : Nat} (h : k < 160) : tileReg (Reg.TILE_STS k) = true := by
  unfold tileReg Reg.TILE_STS
  simp only [Bool.and_eq_true, Bool.or_eq_true, decide_eq_true_iff, beq_iff_eq]
  omega

theorem tileReg_tilePc {k : Nat} (h : k < 160) : tileReg (Reg.TILE_PC k) = true := by
  unfold tileReg Reg.TILE_PC
  simp only [Bool.and_eq_true, Bool.or_eq_true, decide_eq_true_iff, beq_iff_eq]
  omega

theorem partReg_page {p r : Nat} (h : p < 8) (hr : r < 0x1000) : partReg (partPage p + r) = true := by
  unfold partReg partPage
  simp only [Bool.and_eq_true, decide_eq_true_iff]
  omega

theorem workReg_auReg {u r : Nat} (h : u < 8) (hr : 0x201000 ≤ r ∧ r < 0x202000) : workReg (r + 0x1000 * u) = true := by
  unfold workReg tileReg partReg
  simp only [Bool.not_eq_true', Bool.or_eq_false_iff, Bool.and_eq_false_iff, decide_eq_false_iff_not, beq_eq_false_iff_ne]
  omega

theorem not_logReg_tileReg {a : Nat} (h : tileReg a = true) : ¬ logReg a := by
  unfold tileReg at h
  simp only [Bool.and_eq_true, decide_eq_true_iff] at h
  exact not_logReg (.inr (by omega)) (.inr (by omega)) (by unfold Reg.HP_CNT_VEC_DROP; omega)

theorem not_logReg_partReg {a : Nat} (h : partReg a = true) : ¬ logReg a := by
  unfold partReg at h
  simp only [Bool.and_eq_true, decide_eq_true_iff] at h
  exact not_logReg (.inr (by omega)) (.inr (by omega)) (by unfold Reg.HP_CNT_VEC_DROP; omega)

variable {F : List Fld} {R : Nat → Bool} {s t : State}

/-- An operation that changes no register, known by the fields it leaves alone. -/
theorem Keeps.of_same {G : List Fld} (k : ∀ {f : Fld}, f ∉ G → f.same s t) (hG : G ⊆ F) (hr : Fld.regs ∉ G) : Keeps F R s t :=
  (Keeps.refl s).viaNoReg k hG hr

/-! ## Contexts that close (R258) -/

theorem putText_kept (s : State) (c : GCtx) (b : Bytes) : Keeps stFlds workReg s (s.putText c b).1 := by
  unfold State.putText
  refine .ite_fst (.refl s) (.ite_fst ((Keeps.refl s).bump (by decide) (by decide)) ?_)
  exact .ite ((Keeps.refl s).stUnit (by decide) (by decide)) (.refl s)

theorem putRepl_kept (s : State) (c : GCtx) : Keeps stFlds workReg s (s.putRepl c).1 :=
  ((Keeps.refl s).bump (by decide) (by decide)).trans (putText_kept _ _ _)

theorem drainHold_kept (s : State) (c : GCtx) (b : Bool) (n : Nat) : Keeps stFlds workReg s (s.drainHold c b n).1 := by
  induction n generalizing s c with
  | zero => exact .refl s
  | succ n ih =>
    unfold State.drainHold
    split
    · exact (putText_kept _ _ _).trans (ih _ _)
    · exact (putRepl_kept _ _).trans (ih _ _)
    · exact .ite_fst (putRepl_kept _ _) (.refl s)

theorem badUnitReg_work {a : Nat} (h : badUnitReg a = true) : workReg a = true := by
  unfold badUnitReg at h
  rw [beq_iff_eq.mp h]
  decide

theorem postEntries_work (s : State) (g : Nat) (q : Queue) (es : List Bytes) : Keeps postFlds workReg s (s.postEntries g q es) :=
  (postEntries_kept s g q es).mono (fun _ h => h) fun _ => badUnitReg_work

theorem closeNotice_kept (s : State) (c : GCtx) (b : Bytes) : Keeps postFlds workReg s (s.closeNotice c b) := by
  unfold State.closeNotice
  split
  · exact .refl s
  · dsimp only
    split
    · exact postEntries_work _ _ _ _
    · exact postEntries_work _ _ _ _
    · exact (Keeps.refl s).setQueue (by decide)

theorem closeCtx_kept (s : State) (id v c : Nat) (e : Bool) : Keeps postFlds workReg s (s.closeCtx id v c e) := by
  unfold State.closeCtx
  split
  · exact .refl s
  · exact (((drainHold_kept _ _ _ _).mono (by decide) (fun _ h => h)).trans (closeNotice_kept _ _ _)).trans
      ((Keeps.of_same (gctxs_same _ _) (by decide) (by decide)).trans (.of_same (st_same _ _ _) (by decide) (by decide)))

/-! ## Items sealed and settled (R24) -/

theorem post_kept (s : State) (m : Nat) (r : OutRec) : Keeps recFlds workReg s (s.post m r) := .of_same (post_same s m r) (by decide) (by decide)

/-- A decision record that cannot be formed of the item's body is counted and raised. -/
theorem commitBad_kept (s : State) : Keeps recFlds workReg s ((s.bump Reg.REC_CNT_COMMIT_BAD).raise 0x7000 0) :=
  ((Keeps.refl s).bump (by decide) (by decide)).raise (by decide) (by decide)

theorem formDecision_kept (s : State) (id : Nat) (it : Item) (c : SealCause) (stamp : Int) :
    Keeps recFlds workReg s (s.formDecision id it c stamp).1 := by
  unfold State.formDecision
  dsimp only
  have hbad : Keeps recFlds workReg s (if (s.body it).isSome = true then s else (s.bump Reg.REC_CNT_COMMIT_BAD).raise 0x7000 0) :=
    .ite (.refl s) (commitBad_kept s)
  generalize (if (s.body it).isSome = true then s else (s.bump Reg.REC_CNT_COMMIT_BAD).raise 0x7000 0) = u at hbad
  have hcnt (n : Nat) : Keeps recFlds workReg u (match n with
      | 2 => u.bump Reg.GT_CNT_DEFAULTED
      | 1 => u.bump Reg.GT_CNT_PARTIAL
      | _ => u) := by
    split
    · exact (Keeps.refl u).bump (by decide) (by decide)
    · exact (Keeps.refl u).bump (by decide) (by decide)
    · exact .refl u
  exact ((hbad.trans (hcnt _)).bump (by decide) (by decide)).trans (post_kept _ _ _)

theorem cancelWork_kept (s : State) (id : Nat) : Keeps sealFlds workReg s (s.cancelWork id) :=
  (Keeps.of_same (cancelFace_same s id) (by decide) (by decide)).trans
    (.foldl _ (fun t (e : Nat × GCtx) => (closeCtx_kept t e.1 2 0 false).mono (by decide) (fun _ h => h)) _ _)

theorem setItem_kept (s : State) (id : Nat) (it : Item) : Keeps sealFlds workReg s (s.setItem id it) :=
  .of_same (setItem_same s id it) (by decide) (by decide)

theorem freeItem_kept (s : State) (id : Nat) : Keeps sealFlds workReg s (s.freeItem id) :=
  .of_same (freeItem_same s id) (by decide) (by decide)

theorem sealItem_kept (s : State) (id : Nat) (c : SealCause) : Keeps sealFlds workReg s (s.sealItem id c) := by
  unfold State.sealItem
  split
  · exact .refl s
  · rename_i it _
    refine .ite (.refl s) ?_
    dsimp only
    generalize (if (c == .deadline && !it.done.getLsbD 4 && !it.ovr.getLsbD 4) = true then it.overrun 4 else it) = jt
    have hovr : Keeps sealFlds workReg s (if (c == .deadline && !it.done.getLsbD 4 && !it.ovr.getLsbD 4) = true then s.raiseOverrun id jt 4 else s) :=
      .ite ((Keeps.refl s).raise (p := 0x220000) (b := 1) (by decide) (by decide)) (.refl s)
    generalize (if (c == .deadline && !it.done.getLsbD 4 && !it.ovr.getLsbD 4) = true then s.raiseOverrun id jt 4 else s) = u at hovr
    have hrec := hovr.trans ((formDecision_kept u id jt c (if c = .deadline then jt.sealAt else (u.now : Int))).mono (by decide) (fun _ h => h))
    split
    · exact hrec.trans (setItem_kept _ _ _)
    · exact .ite (hrec.trans (freeItem_kept _ _)) (hrec.trans (setItem_kept _ _ _))
    · exact (hrec.trans (cancelWork_kept _ _)).trans (freeItem_kept _ _)

theorem formLate_kept (s : State) (id : Nat) (it : Item) : Keeps recFlds workReg s (s.formLate id it).1 := by
  unfold State.formLate
  split
  · exact .refl s
  · refine .ite_fst (.refl s) ?_
    split
    · exact commitBad_kept s
    · exact ((Keeps.refl s).bump (by decide) (by decide)).trans (post_kept _ _ _)

theorem settle_kept (s : State) (id : Nat) : Keeps sealFlds workReg s (s.settle id) := by
  unfold State.settle
  split
  · exact .refl s
  · refine .ite (.refl s) ?_
    rename_i it _
    split
    · exact sealItem_kept _ _ _
    · have hlate := (formLate_kept s id it).mono (G := sealFlds) (by decide) (fun _ h => h)
      exact .ite (.ite (hlate.trans (freeItem_kept _ _)) (hlate.trans (setItem_kept _ _ _))) (freeItem_kept _ _)

theorem refresh_kept (s : State) (id : Nat) : Keeps sealFlds workReg s (s.refresh id) := by
  unfold State.refresh
  split
  · exact .refl s
  · exact (setItem_kept _ _ _).trans (settle_kept _ _)

/-! ## Sequences that end and units that are disabled (R227) -/

theorem seqClosed_kept (s : State) (ci v c id : Nat) (e : Bool) :
    Keeps sealFlds workReg s (((s.closeCtx ci v c e).bump Reg.SEQ_CNT_SEQ_ENDED).refresh id) :=
  (((closeCtx_kept s ci v c e).mono (by decide) (fun _ h => h)).bump (by decide) (by decide)).trans (refresh_kept _ _)

theorem seqEnd_kept (s : State) (id cause : Nat) : Keeps seqFlds workReg s (s.seqEnd id cause) := by
  unfold State.seqEnd
  split
  · exact .refl s
  · have h1 : Keeps seqFlds workReg s { s with seqs := s.seqs.erase id } :=
      .of_field (f := .seqs) (fun g hg => by cases g <;> first | rfl | simp at hg) (by decide) (by decide)
    exact (h1.viaNoReg (updAunit_same _ _ _) (by decide) (by decide)).trans ((seqClosed_kept _ _ _ _ _ _).mono (by decide) (fun _ h => h))

theorem auOff_kept (s : State) {u : Nat} (hu : u < 8) : Keeps seqFlds workReg s (s.auOff u) :=
  .setFlag (.trans (.foldl _ (fun t id => seqEnd_kept t id 4) _ s) (.of_same (updAunit_same _ u _) (by decide) (by decide))) (by decide)
    (workReg_auReg hu (by decide))

/-! ## Batches and frames handed (R137) -/

theorem misroute_kept (s : State) (ids : List Nat) : Keeps sealFlds workReg s (s.misroute ids) :=
  .raise (.bump (.foldl _ (fun t id => sealItem_kept t id .sourceAbort) ids s) (by decide) (by decide)) (by decide) (by decide)

theorem arenaFree_kept (s : State) (uid : Nat) : Keeps handFlds workReg s (s.arenaFree uid) :=
  .of_field (f := .arena) (fun g hg => by cases g <;> first | rfl | simp at hg) (by decide) (by decide)

theorem hand1_kept (s : State) (k : Handing) : Keeps handFlds workReg s (s.hand1 k).1 := by
  have hlose : Keeps handFlds workReg s ((s.arenaFree k.uid).misroute (k.items.filter (· ≠ 0))) :=
    (arenaFree_kept _ _).trans ((misroute_kept _ _).mono (by decide) (fun _ h => h))
  have hq (first g kind origin : Nat) (ids : List Nat) (d : BitVec 512) : Keeps handFlds workReg s (s.enqueueGroup first g kind origin ids d) :=
    .of_same (enqueueGroup_same s first g kind origin ids d) (by decide) (by decide)
  have hheld (u : State) (m : Tab (List Nat)) : Keeps handFlds workReg u { u with batchHeld := m } :=
    .of_field (f := .batchHeld) (fun g hg => by cases g <;> first | rfl | simp at hg) (by decide) (by decide)
  unfold State.hand1
  dsimp only
  split
  · exact hlose
  · refine .ite_fst ?_ (.ite_fst (.ite_fst ?_ (.refl s)) hlose)
    · exact (arenaFree_kept _ _).trans (.foldl _ (fun t id => (sealItem_kept t id .sourceAbort).mono (by decide) (fun _ h => h)) _ _)
    · exact .ite ((hq _ _ _ _ _ _).trans (hheld _ _)) (hq _ _ _ _ _ _)

theorem handing_kept (s : State) (l : List Handing) : Keeps (.handing :: handFlds) workReg s { s with handing := l } :=
  .of_field (f := .handing) (fun g hg => by cases g <;> first | rfl | simp at hg) (by decide) (by decide)

/-- One batch or frame that waits is handed, or goes on waiting. -/
def State.handNext (x : State × List Handing) (h : Handing) : State × List Handing :=
  if x.2.any (fun k => k.part == h.part) then (x.1, x.2 ++ [h])
  else ((x.1.hand1 h).1, if (x.1.hand1 h).2 then x.2 ++ [h] else x.2)

theorem handAll_eq (s : State) : s.handAll =
    { (s.handing.foldl State.handNext ({ s with handing := [] }, [])).1 with
      handing := (s.handing.foldl State.handNext ({ s with handing := [] }, [])).2 } := rfl

theorem handNext_kept (l : List Handing) (x : State × List Handing) : Keeps (.handing :: handFlds) workReg x.1 (l.foldl State.handNext x).1 := by
  induction l generalizing x with
  | nil => exact .refl x.1
  | cons k l ih =>
    have h1 : Keeps (.handing :: handFlds) workReg x.1 (State.handNext x k).1 :=
      .ite_fst (.refl x.1) ((hand1_kept x.1 k).mono (fun _ h => List.mem_cons_of_mem _ h) (fun _ h => h))
    exact h1.trans (ih _)

theorem handAll_kept (s : State) : Keeps (.handing :: handFlds) workReg s s.handAll := by
  rw [handAll_eq]
  exact ((handing_kept s []).trans (handNext_kept s.handing ({ s with handing := [] }, []))).trans (handing_kept _ _)

end Sys2Proof.Machine
end

section
/-! SUPPORT. The commands of PCMD and what they report (R341, R342, R344). -/
namespace Sys2Proof.Machine

variable {s : State} {req : BitVec 16} {v : Word}

/-! ## Partitions by number -/

theorem part_setPart (s : State) (p : Nat) (x : Part) : (s.setPart p x).part p = x := Tab.get_set_same _ _ _ _

theorem part_setPart_ne (s : State) {p k : Nat} (x : Part) (h : k ≠ p) : (s.setPart p x).part k = s.part k := Tab.get_set_ne _ _ _ h

theorem part_updPart (s : State) (p : Nat) (g : Part → Part) : (s.updPart p g).part p = g (s.part p) := part_setPart s p _

theorem part_updPart_ne (s : State) {p k : Nat} (g : Part → Part) (h : k ≠ p) : (s.updPart p g).part k = s.part k := part_setPart_ne s _ h

theorem taken_part (s t : State) {w : List Fld} (h : .parts ∈ w) (p : Nat) : (s.taken t w).part p = t.part p :=
  part_congr (by rw [taken_parts, if_pos h]) p

/-! ## What a PCMD asks for -/

theorem bits_one_low (v : Word) : bits (v &&& 0xFFFFFFFC) 1 0 = 0 := by rw [bits_and]; exact Nat.and_zero _

theorem bits_pcmd_masked (v : Word) {m : Word} {hi lo : Nat} (hm : bits m hi lo = 0) (h : bits (0xFFFFFFFC : Word) hi lo = 2 ^ (hi + 1 - lo) - 1) :
    bits (v &&& 0xFFFFFFFC ||| m) hi lo = bits v hi lo := by
  rw [bits_or_zero _ _ hm, bits_and_ones _ _ h]

theorem bits_or_three (v : Word) : bits (v ||| 3) 1 0 = 3 := by
  rw [bits_or]
  have h : bits v 1 0 < 4 := Nat.mod_lt _ (by decide)
  show bits v 1 0 ||| 3 = 3
  interval_cases bits v 1 0 <;> rfl

/-- A PCMD whose operation is `n`, with key and partition of `v`. -/
structure PcmdIs (w v : Word) (n : Nat) : Prop where
  op : bits w 1 0 = n
  key : bits w 31 16 = bits v 31 16
  part : bits w 10 8 = bits v 10 8

theorem pcmdIs_create (v : Word) : PcmdIs (v &&& 0xFFFFFFFC ||| 1) v 1 :=
  ⟨by rw [bits_or, bits_one_low]; rfl, bits_pcmd_masked v (by decide) (by decide), bits_pcmd_masked v (by decide) (by decide)⟩

theorem pcmdIs_destroy (v : Word) : PcmdIs (v &&& 0xFFFFFFFC ||| 2) v 2 :=
  ⟨by rw [bits_or, bits_one_low]; rfl, bits_pcmd_masked v (by decide) (by decide), bits_pcmd_masked v (by decide) (by decide)⟩

theorem pcmdIs_reset (v : Word) : PcmdIs (v ||| 3) v 3 :=
  ⟨bits_or_three v, bits_or_zero _ _ (by decide), bits_or_zero _ _ (by decide)⟩

section
variable {w : Word} (hk : bits v 31 16 = 0x5CA1) (hn : s.pcmd = none)
include hk hn

theorem pcmdWrite_create (h : PcmdIs w v 1) : s.pcmdWrite req w = s.pcmdCreate (bits v 10 8) := by
  obtain ⟨hop, hkey, hpart⟩ := h
  unfold State.pcmdWrite
  rw [if_neg (by rw [hop]; decide), keyed_right _ _ _ _ (hkey.trans hk), hn]
  simp only [hop, hpart, Option.isSome_none, Bool.false_eq_true, if_false]

theorem pcmdWrite_destroy (h : PcmdIs w v 2) : s.pcmdWrite req w = s.pcmdDestroy (bits v 10 8) false := by
  obtain ⟨hop, hkey, hpart⟩ := h
  unfold State.pcmdWrite
  rw [if_neg (by rw [hop]; decide), keyed_right _ _ _ _ (hkey.trans hk), hn]
  simp only [hop, hpart]
  rfl

theorem pcmdWrite_reset (h : PcmdIs w v 3) : s.pcmdWrite req w = s.pcmdDestroy (bits v 10 8) true := by
  obtain ⟨hop, hkey, hpart⟩ := h
  unfold State.pcmdWrite
  rw [if_neg (by rw [hop]; decide), keyed_right _ _ _ _ (hkey.trans hk), hn]
  simp only [hop, hpart]
  rfl

end

/-- A PCMD while a command runs does nothing, and one with a wrong key only reports its key. -/
theorem pcmdWrite_refused {w : Word} {n : Nat} (h : PcmdIs w v n) (hr : s.pcmd ≠ none ∨ bits v 31 16 ≠ 0x5CA1) :
    s.pcmdWrite req w = s ∨ s.pcmdWrite req w = s.keyViol req Reg.SCH_PCMD := by
  obtain ⟨-, hkey, -⟩ := h
  unfold State.pcmdWrite
  by_cases h0 : bits w 1 0 = 0
  · exact .inl (if_pos h0)
  rw [if_neg h0]
  by_cases hk : bits v 31 16 = 0x5CA1
  · left
    rw [keyed_right _ _ _ _ (hkey.trans hk), if_pos (Option.isSome_iff_ne_none.mpr (hr.resolve_right (absurd hk)))]
  · exact .inr (keyed_wrong _ _ _ _ (by rw [hkey]; exact hk))

theorem pcmdWrite_refused_same {w : Word} {n : Nat} (h : PcmdIs w v n) (hr : s.pcmd ≠ none ∨ bits v 31 16 ≠ 0x5CA1) {f : Fld}
    (hf : f ∉ [Fld.regs, .holding, .msix, .hevt, .out, .flogRing, .flogLast]) : f.same s (s.pcmdWrite req w) := by
  obtain he | he := pcmdWrite_refused (req := req) h hr
  · rw [he]; exact Fld.same_refl f s
  · rw [he]; exact keyViol_same s req _ hf

/-! ## The end of a command, and a command under way -/

theorem not_msgReg_sched {a : Nat} (h : 0x310000 ≤ a ∧ a < 0x320000) : ¬ msgReg a := not_msgReg (.inr (by omega)) (by omega)

theorem pcmdEnd_same {f : Fld} (s : State) (p n : Nat) (h : f ∉ [Fld.pcmd, .regs, .holding, .msix, .hevt, .out]) : f.same s (s.pcmdEnd p n) := by
  have h1 : f.same s { s with pcmd := none } := by cases f <;> first | rfl | simp at h
  exact Fld.same_trans h1 (Fld.same_trans (wr_same _ _ _ (notMem_part h (by decide))) (raise_same _ _ _ (notMem_part h (by decide))))

/-- What the end of a command shows: PCMD not busy with the result, and PCMD_DONE raised. -/
theorem pcmdEnd_reports (s : State) (p n : Nat) : (s.pcmdEnd p n).pcmd = none ∧ (s.pcmdEnd p n).rd Reg.PCMD_STS = BitVec.ofNat 32 (p * 256 + n) ∧
    (s.pcmdEnd p n).flag (schPage + 0x10) 0 = true :=
  ⟨(raise_pcmd _ _ _).trans (wr_pcmd _ _ _), (rd_raise _ _ _ (not_msgReg_sched (by decide)) (by decide)).trans (rd_wr_same _ _ _),
    flag_raise_self _ _ _ (by decide) (not_msgReg_sched (by decide))⟩

theorem rd_pcmdEnd (s : State) (p n : Nat) {a : Nat} (h : ¬ msgReg a) (h1 : a ≠ Reg.PCMD_STS) (h2 : a ≠ schPage + 0x10) :
    (s.pcmdEnd p n).rd a = s.rd a :=
  (rd_raise _ _ _ h h2).trans (rd_wr_ne _ _ h1)

theorem pcmdBegin_busy (s : State) {p : Nat} (hp : p < 8) : (s.pcmdBegin p).flag Reg.PCMD_STS 31 = true := by
  unfold State.flag State.pcmdBegin
  rw [rd_wr_same]
  interval_cases p <;> decide

theorem part_pcmdBegin (s : State) (p k : Nat) : (s.pcmdBegin p).part k = s.part k := part_congr (wr_parts _ _ _) k

/-! ## CREATE and its report -/

/-- The fields that the row of a PCMD may change. -/
def pcmdFlds : List Fld :=
  [.free, .mem, .regs, .held, .flogRing, .flogLast, .holding, .hevt, .msix, .qs, .items, .egress, .parts,
   .vis, .ue, .out, .ports, .tiles, .gctxs, .seqs, .aunits, .sc, .harts, .cores, .vsaved, .pcmd]

theorem exec_pcmdCreate {u : State} (h : s.pcmdWrite req (v &&& 0xFFFFFFFC ||| 1) = u) : exec (.pcmdCreate req v) s = .next (s.taken u pcmdFlds) := by
  subst h; rfl

theorem exec_pcmdDestroy {u : State} (h : s.pcmdWrite req (v &&& 0xFFFFFFFC ||| 2) = u) : exec (.pcmdDestroy req v) s = .next (s.taken u pcmdFlds) := by
  subst h; rfl

theorem exec_pcmdReset {u : State} (h : s.pcmdWrite req (v ||| 3) = u) : exec (.pcmdReset req v) s = .next (s.taken u pcmdFlds) := by
  subst h; rfl

/-- What a PCMD that ends at once leaves and reports. -/
theorem taken_pcmdEnd (s : State) (p n : Nat) : let t := s.taken (s.pcmdEnd p n) pcmdFlds
    t.parts = s.parts ∧ t.pcmd = none ∧ t.rd Reg.PCMD_STS = BitVec.ofNat 32 (p * 256 + n) ∧ t.flag (schPage + 0x10) 0 = true := by
  obtain ⟨h1, h2, h3⟩ := pcmdEnd_reports s p n
  refine ⟨?_, ?_, (taken_rd _ _ (by decide) _).trans h2, (taken_flag _ _ (by decide) _ _).trans h3⟩
  · rw [taken_parts, if_pos (by decide)]; exact pcmdEnd_same (f := .parts) s p n (by decide)
  · rw [taken_pcmd, if_pos (by decide)]; exact h1

/-- CREATE by what the read of its descriptor gives. The definition is unfolded as a function: of the applied forms the kernel would
evaluate the range check of the read. -/
theorem pcmdCreate_eq {p : Nat} {x : Option Bytes} (hx : s.schRead (s.addr48 Reg.PDESC_LO Reg.PDESC_HI) 128 = x) :
    s.pcmdCreate p = x.elim (s.pcmdEnd p 4) fun b => if s.createCheck p (BitVec.ofNat 1024 (leNat b)) = 0
      then (s.acceptCreate p (BitVec.ofNat 1024 (leNat b))).pcmdBegin p else s.pcmdEnd p (s.createCheck p (BitVec.ofNat 1024 (leNat b))) := by
  have hdef : @State.pcmdCreate = @State.pcmdCreate := rfl
  conv_rhs at hdef => delta State.pcmdCreate
  rw [hdef]
  cases x with
  | none => simp only [hx, Option.elim_none]
  | some b => simp only [hx, Option.elim_some]

theorem part_acceptCreate (s : State) (p k : Nat) (d : BitVec 1024) :
    (s.acceptCreate p d).part k = (s.setPart p { state := .creating, desc := d }).part k := part_congr (Eq.refl _) k

/-- A CREATE that is accepted leaves its partition CREATING with the descriptor, PCMD busy, and every other partition alone. -/
theorem taken_accepted (s : State) {p : Nat} (hp : p < 8) (d : BitVec 1024) : let t := s.taken ((s.acceptCreate p d).pcmdBegin p) pcmdFlds
    t.part p = { state := .creating, desc := d } ∧ t.pcmd = some (1, p) ∧ t.flag Reg.PCMD_STS 31 = true ∧ ∀ k, k ≠ p → t.part k = s.part k := by
  refine ⟨?_, ?_, (taken_flag _ _ (by decide) _ _).trans (pcmdBegin_busy _ hp), fun k hk => ?_⟩
  · rw [taken_part _ _ (by decide), part_pcmdBegin, part_acceptCreate, part_setPart]
  · rw [taken_pcmd, if_pos (by decide)]; exact wr_pcmd _ _ _
  · rw [taken_part _ _ (by decide), part_pcmdBegin, part_acceptCreate, part_setPart_ne s _ hk]

/-! ## DESTROY -/

theorem run_parkOnly_stays {h : Nat} (k : Nat) (hp : (s.hart h).run = .parked) : ((s.parkOnly k).hart h).run = .parked := by
  rw [hart_parkOnly]
  split
  · rfl
  · exact hp

theorem parkAll_stays {h : Nat} (L : List Nat) (s : State) (hp : (s.hart h).run = .parked) : ((L.foldl (fun s h => s.parkOnly h) s).hart h).run = .parked := by
  induction L generalizing s with
  | nil => exact hp
  | cons k L ih => exact ih _ (run_parkOnly_stays k hp)

theorem parkAll_parks {h : Nat} (L : List Nat) (s : State) (hm : h ∈ L) : ((L.foldl (fun s h => s.parkOnly h) s).hart h).run = .parked := by
  induction L generalizing s with
  | nil => exact absurd hm List.not_mem_nil
  | cons k L ih =>
    rcases List.mem_cons.mp hm with rfl | hm
    · exact parkAll_stays L _ (by rw [hart_parkOnly, if_pos rfl])
    · exact ih _ hm

/-- A hart that is not parked is among the awake ones of its core. -/
theorem mem_awake {h : Nat} (hr : (s.hart h).run ≠ .parked) : h ∈ (s.awake (h / 512)).map Prod.fst := by
  have hne : s.harts.get {} h ≠ {} := fun e => hr (by unfold State.hart; rw [e])
  refine List.mem_map.mpr ⟨_, List.mem_filter.mpr ⟨Tab.mem_of_get_ne hne, ?_⟩, rfl⟩
  rw [beq_self_eq_true, Bool.true_and]
  exact bne_iff_ne.mpr hr

/-- The harts of a partition's cores that are awake. -/
def State.partAwake (s : State) (P : Part) : List Nat := (P.coreList.map (fun c => (s.awake c).map Prod.fst)).flatten

/-- Every hart of the cores parks. -/
theorem parkAwake_parks (s : State) (P : Part) {h : Nat} (hh : h < 49152) (hc : P.cores.testBit (h / 512) = true) :
    (((s.partAwake P).foldl (fun s h => s.parkOnly h) s).hart h).run = .parked := by
  by_cases hr : (s.hart h).run = .parked
  · exact parkAll_stays _ _ hr
  · exact parkAll_parks _ _ (List.mem_flatten.mpr ⟨_, List.mem_map.mpr ⟨h / 512,
      List.mem_filter.mpr ⟨List.mem_range.mpr (by omega), hc⟩, rfl⟩, mem_awake hr⟩)

/-- What a DESTROY does before it parks the harts: the instances are reset, the tiles stopped, and the launches that wait dropped. -/
def State.destroyStops (s : State) (p : Nat) : State :=
  (s.part p).coreList.foldl (fun s c => s.updCore c (fun _ => {}))
    (((s.part p).tileList.foldl (fun s t => s.tileStop t) ((s.part p).insts.foldl (fun s v => s.viReset p v) s)).updPart p (fun P => { P with launchQ := [] }))

/-- A DESTROY or RESET of a partition that is not FREE, after its harts parked. -/
def State.destroying (s : State) (p n : Nat) : State :=
  ({ s.updPart p (fun P => { P with state := .destroying, phase := .none, outVi := none, pass := false, due := false }) with pcmd := some (n, p) } : State).pcmdBegin p

theorem pcmdDestroy_eq {p : Nat} (again : Bool) (h : (s.part p).state ≠ .free) : s.pcmdDestroy p again =
    (((s.destroyStops p).partAwake (s.part p)).foldl (fun s h => s.parkOnly h) (s.destroyStops p)).destroying p (if again then 3 else 2) := if_neg h

theorem pcmdDestroy_free {p : Nat} (again : Bool) (h : (s.part p).state = .free) : s.pcmdDestroy p again = s.pcmdEnd p 6 := if_pos h

theorem part_destroying (s : State) (p n k : Nat) : (s.destroying p n).part k =
    (s.updPart p (fun P => { P with state := .destroying, phase := .none, outVi := none, pass := false, due := false })).part k :=
  part_congr ((wr_parts _ _ _).trans (Eq.refl _)) k

theorem hart_destroying (s : State) (p n h : Nat) : (s.destroying p n).hart h = s.hart h := hart_congr (wr_same (f := .harts) _ _ _ (by decide)) h

theorem taken_destroying (s u : State) {p : Nat} (hp : p < 8) (n : Nat) : let t := s.taken (u.destroying p n) pcmdFlds
    (t.part p).state = .destroying ∧ (t.part p).phase = .none ∧ t.pcmd = some (n, p) ∧ t.flag Reg.PCMD_STS 31 = true := by
  have hpart : (s.taken (u.destroying p n) pcmdFlds).part p =
      { u.part p with state := .destroying, phase := .none, outVi := none, pass := false, due := false } := by
    rw [taken_part _ _ (by decide), part_destroying, part_updPart]
  refine ⟨by rw [hpart], by rw [hpart], ?_, (taken_flag _ _ (by decide) _ _).trans (pcmdBegin_busy _ hp)⟩
  rw [taken_pcmd, if_pos (by decide)]
  exact wr_pcmd _ _ _

/-- A DESTROY or a RESET of a partition that is not FREE. -/
theorem taken_pcmdDestroy {p : Nat} (hp : p < 8) (again : Bool) (h : (s.part p).state ≠ .free) : let t := s.taken (s.pcmdDestroy p again) pcmdFlds
    (t.part p).state = .destroying ∧ (t.part p).phase = .none ∧ t.pcmd = some (if again then 3 else 2, p) ∧ t.flag Reg.PCMD_STS 31 = true ∧
      ∀ h, h < 49152 → (s.part p).cores.testBit (h / 512) = true → (t.hart h).run = .parked := by
  rw [pcmdDestroy_eq again h]
  obtain ⟨h1, h2, h3, h4⟩ := taken_destroying s (((s.destroyStops p).partAwake (s.part p)).foldl (fun s h => s.parkOnly h) (s.destroyStops p)) hp
    (if again then 3 else 2)
  refine ⟨h1, h2, h3, h4, fun h hh hc => ?_⟩
  rw [taken_hart _ _ (by decide), hart_destroying]
  exact parkAwake_parks _ _ hh hc

end Sys2Proof.Machine
end

section
/-! SUPPORT. What the scheduler does while a partition is created and when it is destroyed (R343, R344), and the obligation on PCMD. -/
namespace Sys2Proof.Machine

variable {s : State} {p : Nat}

theorem Keeps.foldl_mem {β : Type} {F : List Fld} {R : Nat → Bool} (g : State → β → State) (l : List β) (hg : ∀ t, ∀ e ∈ l, Keeps F R t (g t e))
    (s : State) : Keeps F R s (l.foldl g s) := by
  induction l generalizing s with
  | nil => exact .refl s
  | cons e l ih => exact (hg s e List.mem_cons_self).trans (ih (fun t e he => hg t e (List.mem_cons_of_mem _ he)) _)

/-! ## The parts of a creation -/

/-- The fields that the creation of a partition may change beside the partitions. -/
def createFlds : List Fld := seqFlds ++ [.tiles, .vis, .vsaved]

/-- All registers but the states and counters of the tiles. -/
def offTileReg (a : Nat) : Bool := !tileReg a

theorem offTileReg_of_workReg {a : Nat} (h : workReg a = true) : offTileReg a = true := by
  unfold workReg at h
  unfold offTileReg
  cases ht : tileReg a
  · rfl
  · rw [ht] at h; exact nomatch h

theorem offTileReg_above {a : Nat} (h : 0x1A0000 ≤ a) : offTileReg a = true := by
  unfold offTileReg tileReg
  rw [decide_eq_false (by omega : ¬ a < 0x1A0000)]
  cases decide (0x100000 ≤ a) <;> rfl

/-- A register above the pages of the tiles is set. -/
theorem Keeps.wrAbove {F : List Fld} {t : State} {a : Nat} {v : Word} (h : Keeps F offTileReg s t) (hF : Fld.regs ∈ F) (ha : 0x1A0000 ≤ a) :
    Keeps F offTileReg s (t.wr a v) := h.wr hF (offTileReg_above ha)

theorem zeroMem_same {f : Fld} (s : State) (a n : Nat) (h : f ∉ [Fld.mem, .harts]) : f.same s (s.zeroMem a n) := by
  cases f <;> first | rfl | simp at h

theorem zeroChan_same {f : Fld} (s : State) (q : Nat) (h : f ∉ [Fld.mem, .ue]) : f.same s (s.zeroChan q) := by
  cases f <;> first | rfl | simp at h

theorem scEmpty_same {f : Fld} (s : State) (w : Nat) (h : f ∉ [Fld.sc]) : f.same s (s.scEmpty w) := by
  cases f <;> first | rfl | simp at h

/-- The memory of the partition's tiles, units and, where the descriptor asks for it, channels is cleared. -/
def State.createClears (s : State) (P : Part) : State :=
  let s := s.scEmpty (P.cacheWays ||| P.memWays)
  let s := P.tileList.foldl (fun s t =>
    (((s.zeroMem (tileWin t) 0xE0000).clearUe (tileWin t) 0xE0000).zeroMem (tileWin t + 0x100000) 0x60000).clearUe (tileWin t + 0x100000) 0x60000) s
  let s := P.unitList.foldl (fun s u => (s.zeroMem (commonsBase + u * 0x100000) 0x100000).clearUe (commonsBase + u * 0x100000) 0x100000) s
  if P.zeroHbm then P.channels.foldl (fun s q => s.zeroChan q) s else s

/-- Attention unit u is taken by the partition that is created. -/
def State.unitTaken (s : State) (u : Nat) : State :=
  (((s.auOff u).unitFresh u).setFlag (Reg.AU_CTL u) 0 true).updAunit u (fun x => { x with code := (s.auOff u).fld (Reg.AU_CTL u) 10 8 })

/-- Nothing stands of the instances of partition p. -/
def State.dropInsts (s : State) (p : Nat) : State :=
  { s with vis := s.vis.filter (fun (e : Nat × Vi) => e.1 / 16 != p), vsaved := s.vsaved.filter (fun (e : Nat × Saved) => e.1 / 16 != p) }

/-- The state of a creation before its partition is ACTIVE. -/
def State.createMade (s : State) (p : Nat) : State :=
  (((s.part p).auList.foldl (fun s u => s.unitTaken u) ((s.part p).tileList.foldl (fun s t => s.tileFresh t) (s.createClears (s.part p)))).dropInsts p)

theorem createWork_eq (s : State) (p : Nat) : s.createWork p =
    (((s.createMade p).updPart p (fun P => { P with state := .active, phase := .none, adapted := (s.createMade p).now })).showMasks p).showOwner p (s.part p) true := rfl

theorem createClears_keeps {R : Nat → Bool} (s : State) (P : Part) : Keeps createFlds R s (s.createClears P) := by
  unfold State.createClears
  have hz (t : State) (a n : Nat) : Keeps createFlds R t ((t.zeroMem a n).clearUe a n) :=
    (Keeps.of_same (zeroMem_same t a n) (by decide) (by decide)).trans (.of_same (clearUe_same _ a n) (by decide) (by decide))
  have hc := Keeps.of_same (F := createFlds) (R := R) (scEmpty_same s (P.cacheWays ||| P.memWays)) (by decide) (by decide)
  have ht := hc.trans (.foldl (fun (s : State) t =>
    (((s.zeroMem (tileWin t) 0xE0000).clearUe (tileWin t) 0xE0000).zeroMem (tileWin t + 0x100000) 0x60000).clearUe (tileWin t + 0x100000) 0x60000)
    (fun t k => (hz t _ _).trans (hz _ _ _)) P.tileList _)
  have hu := ht.trans (.foldl (fun (s : State) u => (s.zeroMem (commonsBase + u * 0x100000) 0x100000).clearUe (commonsBase + u * 0x100000) 0x100000)
    (fun t u => hz t _ _) P.unitList _)
  exact .ite (hu.trans (.foldl _ (fun t q => .of_same (zeroChan_same t q) (by decide) (by decide)) _ _)) hu

theorem wrFold_keeps (L : List Nat) (hL : ∀ a ∈ L, 0x1A0000 ≤ a) (s : State) : Keeps [.regs] offTileReg s (L.foldl (fun s a => s.wr a 0) s) :=
  .foldl_mem _ L (fun t a ha => (Keeps.refl t).wrAbove (by decide) (hL a ha)) s

theorem unitFresh_keeps (s : State) (u : Nat) : Keeps createFlds offTileReg s (s.unitFresh u) :=
  (Keeps.foldl (fun s i => s.wr (Reg.AU_SEM_01 u + 4 * i) 0) (fun t i => (Keeps.refl t).wrAbove (by decide) (by unfold Reg.AU_SEM_01; omega)) _ s).trans
    (.of_same (updAunit_same _ u _) (by decide) (by decide))

theorem unitTaken_keeps (s : State) {u : Nat} (hu : u < 8) : Keeps createFlds offTileReg s (s.unitTaken u) :=
  ((((auOff_kept s hu).mono (by decide) fun _ => offTileReg_of_workReg).trans (unitFresh_keeps _ u)).setFlag (by decide)
    (offTileReg_above (by unfold Reg.AU_CTL; omega))).trans (.of_same (updAunit_same _ u _) (by decide) (by decide))

theorem dropInsts_keeps (s : State) (p : Nat) : Keeps createFlds offTileReg s (s.dropInsts p) :=
  ⟨fun f hf => by cases f <;> first | rfl | simp [createFlds, seqFlds, sealFlds] at hf, fun _ _ _ => rfl⟩

theorem setUnitMap_keeps (s : State) (u n : Nat) : Keeps [.regs] offTileReg s (s.setUnitMap u n) :=
  (Keeps.refl s).wrAbove (by decide) (by unfold Reg.UNIT_MAP; omega)

theorem showMasks_keeps (s : State) (p : Nat) : Keeps [.regs] offTileReg s (s.showMasks p) := by
  unfold State.showMasks
  have hw {t : State} {a : Nat} (v : Word) (ha : 0x1A0000 ≤ a) (h : Keeps [.regs] offTileReg s t) : Keeps [.regs] offTileReg s (t.wr a v) :=
    h.wrAbove (by decide) ha
  have ht := Keeps.foldl (F := [.regs]) (R := offTileReg) (fun (t : State) k => t.wr (Reg.TILE_MASK p k) (BitVec.ofNat 32 ((s.part p).tiles / 2 ^ (32 * k))))
    (fun t k => (Keeps.refl t).wrAbove (by decide) (by unfold Reg.TILE_MASK; omega)) (List.range 5) s
  have hc := ht.trans (Keeps.foldl (F := [.regs]) (R := offTileReg) (fun (t : State) k => t.wr (Reg.CORE_MASK p k) (BitVec.ofNat 32 ((s.part p).cores / 2 ^ (32 * k))))
    (fun t k => (Keeps.refl t).wrAbove (by decide) (by unfold Reg.CORE_MASK; omega)) (List.range 3) _)
  have hm (a b c d e : Word) := hw (a := Reg.PART_RES p) e (by unfold Reg.PART_RES; omega) (hw (a := Reg.WAY_MASK p) d (by unfold Reg.WAY_MASK; omega)
    (hw (a := Reg.SLICE_MASK_HI p) c (by unfold Reg.SLICE_MASK_HI; omega) (hw (a := Reg.SLICE_MASK_LO p) b (by unfold Reg.SLICE_MASK_LO; omega)
      (hw (a := Reg.PAIR_MASK p) a (by unfold Reg.PAIR_MASK; omega) hc))))
  exact .ite (hm _ _ _ _ _) (hm _ _ _ _ _)

theorem showOwner_keeps (s : State) (p : Nat) (P : Part) (owned : Bool) : Keeps [.regs] offTileReg s (s.showOwner p P owned) := by
  unfold State.showOwner
  dsimp only
  refine .trans (.trans (.foldl _ (fun t u => setUnitMap_keeps t _ _) _ _) (.foldl _ (fun t w => setUnitMap_keeps t _ _) _ _)) (.foldl _ (fun t q => ?_) _ _)
  exact (Keeps.refl t).wrAbove (by decide) (by unfold Reg.CH_STS; omega)

/-! ## The tiles of a partition that was created -/

theorem rd_wrZeros (L : List Nat) (s : State) (b : Nat) : (L.foldl (fun s a => s.wr a 0) s).rd b = if b ∈ L then 0 else s.rd b := by
  induction L generalizing s with
  | nil => rfl
  | cons a L ih =>
    rw [List.foldl_cons, ih]
    by_cases hb : b = a
    · subst hb
      rw [rd_wr_same, if_pos List.mem_cons_self, ite_self]
    · rw [rd_wr_ne _ _ hb]
      simp only [List.mem_cons, hb, false_or]

theorem rd_tileFresh (s : State) (t b : Nat) : (s.tileFresh t).rd b = if b ∈ tileCtxRegs t then 0 else s.rd b :=
  (rd_updTile _ _ _ _).trans (rd_wrZeros _ s b)

theorem rd_tileFresh_stays (t : Nat) {b : Nat} (h : s.rd b = 0) : (s.tileFresh t).rd b = 0 := by
  rw [rd_tileFresh, h, ite_self]

theorem rd_tilesFresh_stays (L : List Nat) {b : Nat} (s : State) (h : s.rd b = 0) : (L.foldl (fun s t => s.tileFresh t) s).rd b = 0 := by
  induction L generalizing s with
  | nil => exact h
  | cons c L ih => rw [List.foldl_cons]; exact ih _ (rd_tileFresh_stays c h)

theorem rd_tilesFresh {L : List Nat} {k b : Nat} (hk : k ∈ L) (hb : b ∈ tileCtxRegs k) (s : State) : (L.foldl (fun s t => s.tileFresh t) s).rd b = 0 := by
  induction L generalizing s with
  | nil => exact absurd hk List.not_mem_nil
  | cons c L ih =>
    rw [List.foldl_cons]
    rcases List.mem_cons.mp hk with e | hk
    · exact rd_tilesFresh_stays L _ (by rw [rd_tileFresh, if_pos (e ▸ hb)])
    · exact ih hk _

theorem unitsTaken_keeps (P : Part) (s : State) : Keeps createFlds offTileReg s (P.auList.foldl (fun s u => s.unitTaken u) s) :=
  .foldl_mem _ _ (fun t _ hu => unitTaken_keeps t (List.mem_range.mp (List.mem_filter.mp hu).1)) s

theorem mem_tileList {P : Part} {k : Nat} (h : k ∈ P.tileList) : k < 160 := List.mem_range.mp (List.mem_filter.mp h).1

theorem rd_createMade {k b : Nat} (hk : k ∈ (s.part p).tileList) (hb : b ∈ tileCtxRegs k) (ht : tileReg b = true) : (s.createMade p).rd b = 0 := by
  have hoff : offTileReg b = false := by unfold offTileReg; rw [ht]; rfl
  unfold State.createMade
  rw [(dropInsts_keeps _ p).rd b (not_logReg_tileReg ht) hoff, (unitsTaken_keeps _ _).rd b (not_logReg_tileReg ht) hoff]
  exact rd_tilesFresh hk hb _

theorem tileFresh_keeps (s : State) (t : Nat) : Keeps createFlds anyReg s (s.tileFresh t) :=
  (Keeps.foldl (fun s a => s.wr a 0) (fun t a => (Keeps.refl t).wr (by decide) rfl) _ s).trans (.of_same (updTile_same _ t _) (by decide) (by decide))

theorem createMade_keeps (s : State) (p : Nat) : Keeps createFlds anyReg s (s.createMade p) :=
  (((createClears_keeps s _).trans (.foldl _ tileFresh_keeps _ _)).trans ((unitsTaken_keeps _ _).mono (by decide) fun _ _ => rfl)).trans
    ((dropInsts_keeps _ p).mono (by decide) fun _ _ => rfl)

theorem shown_keeps (s : State) (p : Nat) (P : Part) (owned : Bool) : Keeps [.regs] offTileReg s ((s.showMasks p).showOwner p P owned) :=
  (showMasks_keeps s p).trans (showOwner_keeps _ p P owned)

theorem part_createWork (s : State) (p : Nat) : ((s.createWork p).part p).state = .active ∧ ((s.createWork p).part p).phase = .none ∧
    ((s.createWork p).part p).desc = (s.part p).desc ∧ ∀ k, k ≠ p → (s.createWork p).part k = s.part k := by
  rw [createWork_eq]
  have hm (k : Nat) : (s.createMade p).part k = s.part k := part_congr ((createMade_keeps s p).same .parts (by decide)) k
  have hp (k : Nat) := part_congr ((shown_keeps ((s.createMade p).updPart p
    (fun P => { P with state := .active, phase := .none, adapted := (s.createMade p).now })) p (s.part p) true).same .parts (by decide)) k
  refine ⟨?_, ?_, ?_, fun k hk => ?_⟩
  · rw [hp, part_updPart]
  · rw [hp, part_updPart]
  · rw [hp, part_updPart, hm]
  · rw [hp, part_updPart_ne _ _ hk, hm]

theorem rd_createWork {k b : Nat} (hk : k ∈ (s.part p).tileList) (hb : b ∈ tileCtxRegs k) (ht : tileReg b = true) : (s.createWork p).rd b = 0 := by
  have hoff : offTileReg b = false := by unfold offTileReg; rw [ht]; rfl
  rw [createWork_eq, (shown_keeps _ _ _ _).rd b (not_logReg_tileReg ht) hoff]
  exact (rd_congr (updPart_same (f := .regs) _ _ _ (by decide)) b).trans (rd_createMade hk hb ht)

/-! ## The end of a VI's reset keeps the other partitions -/

theorem yieldCheck_part_ne {k : Nat} (h : k ≠ p) : (s.yieldCheck p).part k = s.part k := by
  have ht (L : List Nat) : (L.foldl (fun s t => s.updTile t (fun x => { x with yieldReq := false })) s).part k = s.part k :=
    part_congr (foldl_same (f := .parts) _ (fun t e => updTile_same t e _ (by decide)) L s) k
  unfold State.yieldCheck
  dsimp only
  split
  · split
    · rw [part_congr (raise_parts _ _ _), part_setPart_ne _ _ h, ht]
    · rw [part_setPart_ne _ _ h, ht]
  · rfl

theorem startYield_part_ne {k : Nat} (h : k ≠ p) : (s.startYield p).part k = s.part k := by
  unfold State.startYield
  dsimp only
  rw [yieldCheck_part_ne h, part_setPart_ne _ _ h]
  exact part_congr (foldl_same (f := .parts) _ (fun t e => Fld.same_ite (updTile_same t e _ (by decide)) (Fld.same_refl _ _)) _ s) k

theorem drainCheck_part_ne {k : Nat} (h : k ≠ p) : (s.drainCheck p).part k = s.part k := by
  unfold State.drainCheck
  dsimp only
  split
  · exact startYield_part_ne h
  · rfl

theorem startSwitch_part_ne {k : Nat} (h : k ≠ p) (o i : Nat) : (s.startSwitch p o i).part k = s.part k := by
  unfold State.startSwitch
  dsimp only
  rw [drainCheck_part_ne h, part_congr (raise_parts _ _ _), part_congr (bump_parts _ _), part_updPart_ne _ _ h]

theorem part_sliceCommit (s : State) (p k : Nat) : (s.sliceCommit p).part k = s.part k := part_congr (Eq.refl _) k

theorem newQuantum_part_ne {k : Nat} (h : k ≠ p) : (s.newQuantum p).part k = s.part k :=
  (part_updPart_ne _ _ h).trans (part_sliceCommit s p k)

theorem decide1_part_ne {k : Nat} (h : k ≠ p) : (s.decide1 p).part k = s.part k := by
  unfold State.decide1
  dsimp only
  split
  · split
    · rfl
    · exact part_updPart_ne _ _ h
  · split
    · exact newQuantum_part_ne h
    · split
      · exact newQuantum_part_ne h
      · exact startSwitch_part_ne h _ _
  · rfl

theorem sliceTest_part_ne {k : Nat} (h : k ≠ p) : (s.sliceTest p).part k = s.part k := by
  unfold State.sliceTest
  dsimp only
  split
  · rfl
  · split
    · exact decide1_part_ne h
    · split
      · exact decide1_part_ne h
      · rfl
    · split
      · exact part_setPart_ne _ _ h
      · rfl

theorem viResetEnd_part_ne {k : Nat} (h : k ≠ p) (v : Nat) : (s.viResetEnd p v).part k = s.part k := by
  unfold State.viResetEnd
  dsimp only
  rw [sliceTest_part_ne h, part_congr (raise_parts _ _ _)]
  exact part_congr (Eq.refl s.parts) k

/-! ## The end of a DESTROY -/

/-- A DESTROY ends: what is still resident in the partition ends. -/
def State.destroyEnds (s : State) (p : Nat) : State :=
  ((s.part p).auList.foldl (fun s u => s.auOff u)
    ((s.part p).insts.foldl (fun s v => if (s.vi p v).state = .resetting then s.viResetEnd p v else s) s)).scEmpty ((s.part p).cacheWays ||| (s.part p).memWays)

theorem destroyWork_eq (s : State) (p : Nat) : s.destroyWork p =
    (((((s.destroyEnds p).sliceCommit p).setPart p {}).dropInsts p).showMasks p).showOwner p (s.part p) false := rfl

theorem destroyEnds_part_ne {k : Nat} (h : k ≠ p) : (s.destroyEnds p).part k = s.part k := by
  unfold State.destroyEnds
  rw [part_congr (scEmpty_same (f := .parts) _ _ (by decide)),
    part_congr (foldl_same (f := .parts) _ (fun t u => (auOff_keeps t u).same .parts (by decide)) _ _)]
  refine List.foldlRecOn (motive := fun t : State => t.part k = s.part k) (s.part p).insts _ rfl fun t ht v _ => ?_
  split
  · exact (viResetEnd_part_ne h v).trans ht
  · exact ht

theorem part_destroyWork (s : State) (p : Nat) : (s.destroyWork p).part p = {} ∧ ∀ k, k ≠ p → (s.destroyWork p).part k = s.part k := by
  rw [destroyWork_eq]
  have hp (k : Nat) := part_congr ((shown_keeps ((((s.destroyEnds p).sliceCommit p).setPart p {}).dropInsts p) p (s.part p) false).same .parts (by decide)) k
  have hd (k : Nat) := part_congr ((dropInsts_keeps (((s.destroyEnds p).sliceCommit p).setPart p {}) p).same .parts (by decide)) k
  refine ⟨?_, fun k hk => ?_⟩
  · rw [hp, hd, part_setPart]
  · rw [hp, hd, part_setPart_ne _ _ hk, part_sliceCommit, destroyEnds_part_ne hk]

/-! ## PCMD_DONE -/

/-- The fields that the row of PCMD_DONE may change. -/
def pcmdDoneFlds : List Fld :=
  [.free, .mem, .regs, .held, .holding, .hevt, .msix, .qs, .items, .egress, .parts, .vis, .ue, .out, .ports,
   .tiles, .gctxs, .seqs, .aunits, .sc, .harts, .vsaved, .pcmd]

theorem exec_pcmdDone {u : State} (h : s.pcmdDone = u) : exec .pcmdDone s = .next (s.taken u pcmdDoneFlds) := by subst h; rfl

theorem pcmdDone_creates (h : s.pcmd = some (1, p)) : s.pcmdDone = (s.createWork p).pcmdEnd p 0 := by
  unfold State.pcmdDone; simp only [h]

theorem pcmdDone_destroys (h : s.pcmd = some (2, p)) : s.pcmdDone = (s.destroyWork p).pcmdEnd p 0 := by
  unfold State.pcmdDone; simp only [h]

theorem pcmdDone_idle (h : s.pcmd = none) : s.pcmdDone = s := by
  unfold State.pcmdDone; simp only [h]

/-- What the end of a command that worked shows, in a state reached by its work. -/
theorem taken_pcmdDone (s u : State) (p : Nat) : let t := s.taken (u.pcmdEnd p 0) pcmdDoneFlds
    (∀ k, t.part k = u.part k) ∧ t.pcmd = none ∧ t.rd Reg.PCMD_STS = BitVec.ofNat 32 (p * 256) ∧ t.flag (schPage + 0x10) 0 = true := by
  obtain ⟨h1, h2, h3⟩ := pcmdEnd_reports u p 0
  rw [Nat.add_zero] at h2
  refine ⟨fun k => ?_, ?_, (taken_rd _ _ (by decide) _).trans h2, (taken_flag _ _ (by decide) _ _).trans h3⟩
  · rw [taken_part _ _ (by decide)]; exact part_congr (pcmdEnd_same (f := .parts) u p 0 (by decide)) k
  · rw [taken_pcmd, if_pos (by decide)]; exact h1

theorem taken_createDone {k : Nat} (hk : k ∈ (s.part p).tileList) : let t := s.taken ((s.createWork p).pcmdEnd p 0) pcmdDoneFlds
    t.tileState k = 0 ∧ t.tpc k = 0 := by
  intro t
  have hl := mem_tileList hk
  have hrd {b : Nat} (hb : b ∈ tileCtxRegs k) (ht : tileReg b = true) : t.rd b = 0 := by
    have hne : b < 0x310000 := by
      unfold tileReg at ht
      simp only [Bool.and_eq_true, decide_eq_true_iff] at ht
      omega
    rw [taken_rd _ _ (by decide), rd_pcmdEnd _ _ _ (fun m => not_logReg_tileReg ht (.inl m)) (by unfold Reg.PCMD_STS; omega) (by unfold schPage; omega)]
    exact rd_createWork hk hb ht
  have hsts := hrd (List.mem_cons_of_mem _ List.mem_cons_self) (tileReg_tileSts hl)
  have hpc := hrd List.mem_cons_self (tileReg_tilePc hl)
  refine ⟨?_, ?_⟩
  · unfold State.tileState State.fld; rw [hsts]; rfl
  · unfold State.tpc State.fld; rw [hpc]; rfl

/-! ## The obligation -/

/-- Settles O45: a PCMD is taken apart by its key and operation, and the end of a CREATE by the registers that its work keeps. -/
theorem partitionCommands : Obligations.PartitionCommands := by
  unfold Obligations.PartitionCommands
  refine ⟨fun req v s => ?_, fun s p hp => ⟨fun h => ?_, fun h => ?_⟩, fun s h => ?_⟩
  · intro p reported
    have hp : p < 8 := Nat.mod_lt _ (by decide)
    refine ⟨fun hk hn => ⟨fun b hb => ⟨fun hc => ?_, fun hc => ?_⟩, fun hb => ?_, fun n cmd hcmd => ?_⟩, fun hr cmd hcmd => ?_⟩
    · exact ⟨_, exec_pcmdCreate ((pcmdWrite_create hk hn (pcmdIs_create v)).trans ((pcmdCreate_eq hb).trans (if_pos hc))), taken_accepted s hp _⟩
    · exact ⟨_, exec_pcmdCreate ((pcmdWrite_create hk hn (pcmdIs_create v)).trans ((pcmdCreate_eq hb).trans (if_neg hc))), taken_pcmdEnd s p _⟩
    · exact ⟨_, exec_pcmdCreate ((pcmdWrite_create hk hn (pcmdIs_create v)).trans (pcmdCreate_eq hb)), taken_pcmdEnd s p 4⟩
    · simp only [List.mem_cons, List.not_mem_nil, or_false, Prod.mk.injEq] at hcmd
      rcases hcmd with ⟨rfl, rfl⟩ | ⟨rfl, rfl⟩
      · have he := pcmdWrite_destroy (req := req) hk hn (pcmdIs_destroy v)
        exact ⟨fun h => ⟨_, exec_pcmdDestroy he, taken_pcmdDestroy hp false h⟩,
          fun h => ⟨_, exec_pcmdDestroy (he.trans (pcmdDestroy_free false h)), taken_pcmdEnd s p 6⟩⟩
      · have he := pcmdWrite_reset (req := req) hk hn (pcmdIs_reset v)
        exact ⟨fun h => ⟨_, exec_pcmdReset he, taken_pcmdDestroy hp true h⟩,
          fun h => ⟨_, exec_pcmdReset (he.trans (pcmdDestroy_free true h)), taken_pcmdEnd s p 6⟩⟩
    · have hsame {u : State} (hu : ∀ {f : Fld}, f ∉ [Fld.regs, .holding, .msix, .hevt, .out, .flogRing, .flogLast] → f.same s u) :
          (s.taken u pcmdFlds).parts = s.parts ∧ (s.taken u pcmdFlds).pcmd = s.pcmd ∧ (s.taken u pcmdFlds).vis = s.vis := by
        rw [taken_parts, taken_pcmd, taken_vis, if_pos (by decide), if_pos (by decide), if_pos (by decide)]
        exact ⟨hu (f := .parts) (by decide), hu (f := .pcmd) (by decide), hu (f := .vis) (by decide)⟩
      simp only [List.mem_cons, List.not_mem_nil, or_false] at hcmd
      rcases hcmd with rfl | rfl | rfl
      · exact ⟨_, exec_pcmdCreate rfl, hsame (pcmdWrite_refused_same (pcmdIs_create v) hr)⟩
      · exact ⟨_, exec_pcmdDestroy rfl, hsame (pcmdWrite_refused_same (pcmdIs_destroy v) hr)⟩
      · exact ⟨_, exec_pcmdReset rfl, hsame (pcmdWrite_refused_same (pcmdIs_reset v) hr)⟩
  · obtain ⟨hpart, hpcmd, hsts, hflag⟩ := taken_pcmdDone s (s.createWork p) p
    obtain ⟨h1, h2, h3, h4⟩ := part_createWork s p
    exact ⟨_, exec_pcmdDone (pcmdDone_creates h), by rw [hpart, h1], by rw [hpart, h2], by rw [hpart, h3], hpcmd, hsts, hflag,
      fun k hk => taken_createDone hk, fun k hk => by rw [hpart, h4 k hk]⟩
  · obtain ⟨hpart, hpcmd, hsts, hflag⟩ := taken_pcmdDone s (s.destroyWork p) p
    obtain ⟨h1, h2⟩ := part_destroyWork s p
    exact ⟨_, exec_pcmdDone (pcmdDone_destroys h), by rw [hpart, h1], hpcmd, hsts, hflag, fun k hk => by rw [hpart, h2 k hk]⟩
  · exact ⟨_, exec_pcmdDone (pcmdDone_idle h), by rw [taken_parts, if_pos (by decide)]⟩

end Sys2Proof.Machine
end

section
/-! SUPPORT. Slice decisions, switches and adaptation passes (R350, R351, R355, R360). -/
namespace Sys2Proof.Machine

variable {s : State} {p : Nat}

/-! ## The events of a partition stay raised -/

theorem not_msgReg_part {p : Nat} (h : p < 8) : ¬ msgReg (partPage p + 0x10) := fun m => not_logReg_partReg (partReg_page h (by decide)) (.inl m)

/-- A bit of a status register that is set stays set when an event is raised on any page. -/
theorem flag_raise_stays {a i : Nat} (r b : Nat) (ha : ¬ msgReg a) (h : s.flag a i = true) : (s.raise r b).flag a i = true := by
  by_cases e : a = r + 0x10
  · subst e; exact flag_raise_of s r b ha h
  · exact (flag_congr (rd_raise s r b ha e) i).trans h

theorem Keeps.flagStays {F : List Fld} {R : Nat → Bool} {t : State} (h : Keeps F R s t) {i : Nat} (hp : p < 8) (hR : R (partPage p + 0x10) = false)
    (hf : s.flag (partPage p + 0x10) i = true) : t.flag (partPage p + 0x10) i = true :=
  (h.flag i (not_logReg_partReg (partReg_page hp (by decide))) hR).trans hf

theorem flag_updTiles {a i : Nat} (f : Tile → Tile) (L : List Nat) (h : s.flag a i = true) : (L.foldl (fun s t => s.updTile t f) s).flag a i = true :=
  (flag_congr (rd_congr (foldl_same (f := .regs) _ (fun t k => updTile_same t k _ (by decide)) L s) a) i).trans h

theorem yieldCheck_flag {i : Nat} (q : Nat) (hp : p < 8) (h : s.flag (partPage p + 0x10) i = true) : (s.yieldCheck q).flag (partPage p + 0x10) i = true := by
  unfold State.yieldCheck
  dsimp only
  split
  · split
    · exact flag_raise_stays _ _ (not_msgReg_part hp) (flag_updTiles (fun x => { x with yieldReq := false }) _ h)
    · exact flag_updTiles (fun x => { x with yieldReq := false }) _ h
  · exact h

/-- The tiles of a list that are in RUN are asked to yield. -/
def State.askYield (s : State) (L : List Nat) : State :=
  L.foldl (fun s t => if s.tileRuns t then s.updTile t (fun x => { x with yieldReq := true }) else s) s

theorem askYield_same {f : Fld} (s : State) (L : List Nat) (h : f ∉ [Fld.tiles]) : f.same s (s.askYield L) :=
  foldl_same _ (fun t k => Fld.same_ite (updTile_same t k _ h) (Fld.same_refl _ _)) L s

theorem startYield_eq (s : State) (p : Nat) : s.startYield p =
    ((s.askYield (s.part p).tileList).setPart p { s.part p with phase := .yield, phaseFrom := (s.askYield (s.part p).tileList).now, late := [] }).yieldCheck p := rfl

theorem drainCheck_flag {i : Nat} (q : Nat) (hp : p < 8) (h : s.flag (partPage p + 0x10) i = true) : (s.drainCheck q).flag (partPage p + 0x10) i = true := by
  unfold State.drainCheck
  dsimp only
  split
  · rw [startYield_eq]
    have ha : (s.askYield (s.part q).tileList).flag (partPage p + 0x10) i = true :=
      (flag_congr (rd_congr (askYield_same (f := .regs) s _ (by decide)) _) i).trans h
    exact yieldCheck_flag q hp ((flag_congr (rd_congr (setPart_same (f := .regs) _ q _ (by decide)) _) i).trans ha)
  · exact h

/-! ## The phases of a switch or a pass -/

/-- A partition in what the end of a phase leaves alone. -/
def Part.steady (x : Part) : Part := { x with phase := .none, phaseFrom := 0, late := [], resume := [] }

/-- The phase that follows YIELD: TRANSFER, or ADAPT in a pass. -/
def Part.afterYield (x : Part) : Phase := if x.pass then .adapt else .transfer

theorem yieldCheck_part (s : State) (p : Nat) : ((s.yieldCheck p).part p).steady = (s.part p).steady ∧
    (((s.yieldCheck p).part p).phase = (s.part p).phase ∨ ((s.yieldCheck p).part p).phase = (s.part p).afterYield) := by
  unfold State.yieldCheck Part.afterYield
  dsimp only
  split
  · split
    next hpass =>
      rw [part_congr (raise_parts _ _ _), part_setPart]
      exact ⟨rfl, .inr rfl⟩
    next hpass =>
      rw [part_setPart]
      exact ⟨rfl, .inr rfl⟩
  · exact ⟨rfl, .inl rfl⟩

theorem steady_pass {x y : Part} (h : x.steady = y.steady) : x.pass = y.pass := (congrArg Part.pass h :)
theorem steady_runVi {x y : Part} (h : x.steady = y.steady) : x.runVi = y.runVi := (congrArg Part.runVi h :)
theorem steady_outVi {x y : Part} (h : x.steady = y.steady) : x.outVi = y.outVi := (congrArg Part.outVi h :)
theorem steady_left {x y : Part} (h : x.steady = y.steady) : x.left = y.left := (congrArg Part.left h :)

theorem startYield_part (s : State) (p : Nat) : ((s.startYield p).part p).steady = (s.part p).steady ∧
    ((s.startYield p).part p).phase ∈ [Phase.yield, (s.part p).afterYield] := by
  rw [startYield_eq]
  obtain ⟨h1, h2⟩ := yieldCheck_part ((s.askYield (s.part p).tileList).setPart p
    { s.part p with phase := .yield, phaseFrom := (s.askYield (s.part p).tileList).now, late := [] }) p
  rw [part_setPart] at h1 h2
  refine ⟨h1.trans rfl, ?_⟩
  rcases h2 with h2 | h2
  · rw [h2]; exact List.mem_cons_self
  · rw [h2]; exact List.mem_cons_of_mem _ List.mem_cons_self

/-- From DRAIN a partition is at once in DRAIN, YIELD or what follows it. -/
theorem drainCheck_part (h : (s.part p).phase = .drain) : ((s.drainCheck p).part p).steady = (s.part p).steady ∧
    ((s.drainCheck p).part p).phase ∈ [Phase.drain, .yield, (s.part p).afterYield] := by
  unfold State.drainCheck
  dsimp only
  split
  · obtain ⟨h1, h2⟩ := startYield_part s p
    exact ⟨h1, List.mem_cons_of_mem _ h2⟩
  · exact ⟨rfl, by rw [h]; exact List.mem_cons_self⟩

/-! ## A slice decision -/

/-- The partition of a switch from o to i, as it starts. -/
def Part.switching (x : Part) (o i now : Nat) : Part :=
  { x with phase := .drain, runVi := i, outVi := some o, pass := false, due := false, switchFrom := now, phaseFrom := now }

theorem startSwitch_eq (s : State) (p o i : Nat) : s.startSwitch p o i =
    ((((s.updPart p (fun P => P.switching o i s.now)).bump (Reg.PART_CNT_SLICES p)).raise (partPage p) 4).drainCheck p) := rfl

/-- A switch is counted, raises SLICE and comes through DRAIN as far as it can. -/
theorem startSwitch_result (hp : p < 8) (o i : Nat) : let t := s.startSwitch p o i
    (t.part p).runVi = i ∧ (t.part p).outVi = some o ∧ (t.part p).phase ∈ [Phase.drain, .yield, .transfer] ∧
      t.rd (Reg.PART_CNT_SLICES p) = s.rd (Reg.PART_CNT_SLICES p) + 1 ∧ t.flag (partPage p + 0x10) 4 = true := by
  intro t
  have hpart : (((s.updPart p (fun P => P.switching o i s.now)).bump (Reg.PART_CNT_SLICES p)).raise (partPage p) 4).part p = (s.part p).switching o i s.now := by
    rw [part_congr (raise_parts _ _ _), part_congr (bump_parts _ _), part_updPart]
  obtain ⟨h1, h2⟩ := drainCheck_part (s := ((s.updPart p (fun P => P.switching o i s.now)).bump (Reg.PART_CNT_SLICES p)).raise (partPage p) 4) (p := p)
    (by rw [hpart]; rfl)
  rw [hpart] at h1 h2
  have hcnt : partReg (Reg.PART_CNT_SLICES p) = true := by
    rw [show Reg.PART_CNT_SLICES p = partPage p + 0xC0 by unfold Reg.PART_CNT_SLICES partPage; omega]
    exact partReg_page hp (by decide)
  have hne : Reg.PART_CNT_SLICES p ≠ partPage p + 0x10 := by unfold Reg.PART_CNT_SLICES partPage; omega
  refine ⟨steady_runVi h1, steady_outVi h1, h2, ?_, drainCheck_flag p hp (flag_raise_self _ _ _ (by decide) (not_msgReg_part hp))⟩
  show (s.startSwitch p o i).rd _ = _
  rw [startSwitch_eq, (drainCheck_keeps _ p).rd _ (not_logReg_partReg hcnt) (beq_eq_false_iff_ne.mpr hne),
    rd_raise _ _ _ (fun m => not_logReg_partReg hcnt (.inl m)) hne, rd_bump_same]
  rfl

theorem quantum_congr {s t : State} (hh : t.held = s.held) (hr : t.regs = s.regs) (p v : Nat) : t.quantum p v = s.quantum p v := by
  unfold State.quantum State.inForce State.rd
  rw [hh, hr]

theorem part_newQuantum (s : State) (p : Nat) : (s.newQuantum p).part p =
    { s.part p with sliceFrom := s.now, sliceEnd := s.now + (s.newQuantum p).quantum p (s.part p).runVi, due := false } := by
  unfold State.newQuantum
  dsimp only
  rw [part_updPart]
  rfl

theorem sliceTest_none (ha : (s.part p).state = .active) (hph : (s.part p).phase = .none) : s.sliceTest p = s.decide1 p := by
  unfold State.sliceTest
  simp only [ha, hph, ne_eq, not_true_eq_false, if_false]

theorem sliceTest_run (ha : (s.part p).state = .active) (hph : (s.part p).phase = .run) : s.sliceTest p = if s.sliceDue p then s.decide1 p else s := by
  unfold State.sliceTest
  simp only [ha, hph, ne_eq, not_true_eq_false, if_false]

theorem decide1_none {v : Nat} (hph : (s.part p).phase = .none) (hb : s.bestOf p (s.schedCands p none) = some v) : s.decide1 p = s.bringIn p v := by
  unfold State.decide1
  simp only [hph, hb]

theorem decide1_stays (hph : (s.part p).phase = .run) (hb : s.bestOf p (s.schedCands p (some (s.part p).runVi)) = none) : s.decide1 p = s.newQuantum p := by
  unfold State.decide1
  simp only [hph, hb]

theorem decide1_switches {v : Nat} (hph : (s.part p).phase = .run) (hb : s.bestOf p (s.schedCands p (some (s.part p).runVi)) = some v)
    (hu : s.instReady p (s.part p).runVi = false ∨ s.instUrg p (s.part p).runVi ≤ s.instUrg p v) : s.decide1 p = s.startSwitch p (s.part p).runVi v := by
  have hc : ¬ (s.instReady p (s.part p).runVi && decide (s.instUrg p v < s.instUrg p (s.part p).runVi)) = true := by
    rw [Bool.and_eq_true, decide_eq_true_iff]
    rintro ⟨h1, h2⟩
    rcases hu with h | h
    · rw [h] at h1; exact nomatch h1
    · omega
  unfold State.decide1
  simp only [hph, hb]
  exact if_neg hc

/-- The fields that the row of a slice decision may change. -/
def sliceFlds : List Fld := [.regs, .held, .holding, .hevt, .msix, .parts, .out, .tiles]

theorem exec_quantumExpiry {p : Fin 8} {u : State} (h : s.sliceTest p = u) : exec (.quantumExpiry p) s = .next (s.taken u sliceFlds) := by subst h; rfl

section
variable {p : Fin 8} (ha : (s.part p).state = .active)
include ha

/-- With no candidate the running VI starts a new quantum. -/
theorem quantumExpiry_stays (hph : (s.part p).phase = .run) (hd : s.sliceDue p = true) (hb : s.bestOf p (s.schedCands p (some (s.part p).runVi)) = none) :
    ∃ t, exec (.quantumExpiry p) s = .next t ∧ (t.part p).phase = .run ∧ (t.part p).runVi = (s.part p).runVi ∧
      (t.part p).sliceFrom = s.now ∧ (t.part p).sliceEnd = s.now + t.quantum p (s.part p).runVi ∧ t.tiles = s.tiles := by
  have he := ((sliceTest_run ha hph).trans (if_pos hd)).trans (decide1_stays hph hb)
  have hq : (s.taken (s.newQuantum p) sliceFlds).quantum p (s.part p).runVi = (s.newQuantum p).quantum p (s.part p).runVi :=
    quantum_congr (by rw [taken_held, if_pos (by decide)]) (by rw [taken_regs, if_pos (by decide)]) _ _
  refine ⟨_, exec_quantumExpiry he, ?_, ?_, ?_, ?_, ?_⟩
  · rw [taken_part _ _ (by decide), part_newQuantum]; exact hph
  · rw [taken_part _ _ (by decide), part_newQuantum]
  · rw [taken_part _ _ (by decide), part_newQuantum]
  · rw [taken_part _ _ (by decide), part_newQuantum, hq]
  · rw [taken_tiles, if_pos (by decide)]; exact Eq.refl s.tiles

/-- With a candidate preferred a switch to it starts. -/
theorem quantumExpiry_switches {v : Nat} (hph : (s.part p).phase = .run) (hd : s.sliceDue p = true)
    (hb : s.bestOf p (s.schedCands p (some (s.part p).runVi)) = some v)
    (hu : s.instReady p (s.part p).runVi = false ∨ s.instUrg p (s.part p).runVi ≤ s.instUrg p v) :
    ∃ t, exec (.quantumExpiry p) s = .next t ∧ (t.part p).runVi = v ∧ (t.part p).outVi = some (s.part p).runVi ∧ (t.part p).phase ∈ [Phase.drain, .yield, .transfer] ∧
      t.rd (Reg.PART_CNT_SLICES p) = s.rd (Reg.PART_CNT_SLICES p) + 1 ∧ t.flag (partPage p + 0x10) 4 = true := by
  have he := ((sliceTest_run ha hph).trans (if_pos hd)).trans (decide1_switches hph hb hu)
  obtain ⟨h1, h2, h3, h4, h5⟩ := startSwitch_result (s := s) p.isLt (s.part p).runVi v
  refine ⟨_, exec_quantumExpiry he, ?_, ?_, ?_, (taken_rd _ _ (by decide) _).trans h4, (taken_flag _ _ (by decide) _ _).trans h5⟩
  · rw [taken_part _ _ (by decide)]; exact h1
  · rw [taken_part _ _ (by decide)]; exact h2
  · rw [taken_part _ _ (by decide)]; exact h3

theorem quantumExpiry_waits (hph : (s.part p).phase = .run) (hd : s.sliceDue p = false) :
    ∃ t, exec (.quantumExpiry p) s = .next t ∧ t.parts = s.parts ∧ t.tiles = s.tiles := by
  have he := (sliceTest_run ha hph).trans (if_neg (by rw [hd]; decide))
  exact ⟨_, exec_quantumExpiry he, by rw [taken_parts, if_pos (by decide)], by rw [taken_tiles, if_pos (by decide)]⟩

/-- With no VI running the candidate is brought in. -/
theorem quantumExpiry_brings {v : Nat} (hph : (s.part p).phase = .none) (hb : s.bestOf p (s.schedCands p none) = some v) :
    ∃ t, exec (.quantumExpiry p) s = .next t ∧ (t.part p).phase = .transfer ∧ (t.part p).runVi = v ∧ (t.part p).outVi = none := by
  have he := (sliceTest_none ha hph).trans (decide1_none hph hb)
  refine ⟨_, exec_quantumExpiry he, ?_, ?_, ?_⟩
  · rw [taken_part _ _ (by decide)]; exact congrArg Part.phase (part_updPart s p _)
  · rw [taken_part _ _ (by decide)]; exact congrArg Part.runVi (part_updPart s p _)
  · rw [taken_part _ _ (by decide)]; exact congrArg Part.outVi (part_updPart s p _)

end

/-! ## A pass starts (R360) -/

/-- The partition of a pass, as it starts. -/
def Part.passing (x : Part) (now : Nat) : Part :=
  { x with phase := .drain, pass := true, outVi := some x.runVi, left := x.sliceEnd - now, due := false, switchFrom := now, phaseFrom := now }

/-- The fields that the row of an adaptation pass may change. -/
def passFlds : List Fld := [.regs, .holding, .hevt, .msix, .parts, .out, .tiles]

theorem exec_adaptPass {p : Fin 8} {u : State} (h : s.adaptPass p = u) : exec (.adaptPass p) s = .next (s.taken u passFlds) := by subst h; rfl

theorem adaptPass_starts {p : Fin 8} (ha : (s.part p).state = .active) (hph : (s.part p).phase = .run) (had : (s.part p).adapts = true)
    (hms : s.fld (Reg.PART_TIME p) 15 0 ≠ 0) (hnow : (s.part p).adapted + s.fld (Reg.PART_TIME p) 15 0 * 1000000 ≤ s.now) :
    ∃ t, exec (.adaptPass p) s = .next t ∧ (t.part p).pass = true ∧ (t.part p).runVi = (s.part p).runVi ∧
      (t.part p).outVi = some (s.part p).runVi ∧ (t.part p).phase ∈ [Phase.drain, .yield, .adapt] ∧ (t.part p).left = (s.part p).sliceEnd - s.now ∧
      t.flag (partPage p + 0x10) 4 = true := by
  have he : s.adaptPass p = ((s.setPart p ((s.part p).passing s.now)).raise (partPage p) 4).drainCheck p := if_pos ⟨ha, hph, had, hms, hnow⟩
  have hpart : ((s.setPart p ((s.part p).passing s.now)).raise (partPage p) 4).part p = (s.part p).passing s.now := by
    rw [part_congr (raise_parts _ _ _), part_setPart]
  obtain ⟨h1, h2⟩ := drainCheck_part (s := (s.setPart p ((s.part p).passing s.now)).raise (partPage p) 4) (p := p) (by rw [hpart]; rfl)
  rw [hpart] at h1 h2
  refine ⟨_, exec_adaptPass he, ?_, ?_, ?_, ?_, ?_, (taken_flag _ _ (by decide) _ _).trans
    (drainCheck_flag p p.isLt (flag_raise_self _ _ _ (by decide) (not_msgReg_part p.isLt)))⟩
  · rw [taken_part _ _ (by decide), steady_pass h1]; rfl
  · rw [taken_part _ _ (by decide), steady_runVi h1]; rfl
  · rw [taken_part _ _ (by decide), steady_outVi h1]; rfl
  · rw [taken_part _ _ (by decide)]; exact h2
  · rw [taken_part _ _ (by decide), steady_left h1]; rfl

end Sys2Proof.Machine
end

section
/-! SUPPORT. The limits of DRAIN and YIELD (R356, R357). -/
namespace Sys2Proof.Machine

variable {s : State} {p : Nat}

/-! ## Steps that are closed -/

theorem step_release (now n : Nat) (x : AUnit) (h : Nat) : (AUnit.release now n x h).step = x.step := by
  induction n generalizing x h with
  | zero => rfl
  | succ n ih =>
    unfold AUnit.release
    split
    · rfl
    · split
      · rfl
      · split
        · rfl
        · dsimp only
          split
          · rfl
          · split
            · rfl
            · exact ih _ _

theorem step_deref (now : Nat) (x : AUnit) (h : Nat) : (x.deref now h).step = x.step := by
  unfold AUnit.deref
  split
  · rfl
  · exact step_release _ _ _ _

/-- The end of a sequence closes no step. -/
theorem seqEnd_step (s : State) (id cause u : Nat) : ((s.seqEnd id cause).aunit u).step = (s.aunit u).step := by
  unfold State.seqEnd
  split
  · rfl
  · next x hx =>
    dsimp only
    rw [aunit_congr (seqClosed_same (f := .aunits) _ _ _ _ _ _ _ (by decide))]
    by_cases h : u = x.unit
    · subst h
      rw [aunit_updAunit]
      split
      · rfl
      · exact step_deref _ _ _
    · exact congrArg AUnit.step (aunit_updAunit_ne _ _ h)

/-- A unit that is disabled has no open step, and every other unit keeps its own. -/
theorem auOff_step {u w : Nat} (h : (s.aunit w).step = none) : ((s.auOff u).aunit w).step = none := by
  have hfold (L : List Nat) (s : State) : ((L.foldl (fun s id => s.seqEnd id 4) s).aunit w).step = (s.aunit w).step := by
    induction L generalizing s with
    | nil => rfl
    | cons id L ih => rw [List.foldl_cons, ih, seqEnd_step]
  unfold State.auOff State.auClear
  dsimp only
  rw [aunit_setFlag]
  by_cases hw : w = u
  · subst hw; rw [aunit_updAunit]
  · rw [aunit_updAunit_ne _ _ hw, hfold]; exact h

theorem stepClosed_keeps (s : State) (u : Nat) : Keeps stopFlds anyReg s (s.stepClosed u) := by
  unfold State.stepClosed
  split
  · exact (drainCheck_keeps s _).mono (fun _ h => h) (fun _ _ => rfl)
  · exact .refl s

/-- Unit u without its step, disabled where that waited for it. -/
def State.stepDropped (s : State) (u : Nat) : State :=
  if ((s.updAunit u (fun x => { x with step := none })).aunit u).disabling then (s.updAunit u (fun x => { x with step := none })).auOff u
  else s.updAunit u (fun x => { x with step := none })

theorem closeStep_eq (s : State) (u : Nat) : s.closeStep u = (s.stepDropped u).stepClosed u := rfl

theorem stepDropped_step {u w : Nat} (h : w = u ∨ (s.aunit w).step = none) : ((s.stepDropped u).aunit w).step = none := by
  have h1 : ((s.updAunit u (fun x => { x with step := none })).aunit w).step = none := by
    by_cases e : w = u
    · rw [e, aunit_updAunit]
    · rw [aunit_updAunit_ne _ _ e]; exact h.resolve_left e
  unfold State.stepDropped
  split
  · exact auOff_step h1
  · exact h1

/-- Closing a unit's step leaves that unit, and every unit without one, without a step. -/
theorem closeStep_step {u w : Nat} (h : w = u ∨ (s.aunit w).step = none) : ((s.closeStep u).aunit w).step = none := by
  rw [closeStep_eq, aunit_congr ((stepClosed_keeps _ u).same .aunits (by decide))]
  exact stepDropped_step h

theorem closeSteps_stays (L : List Nat) {w : Nat} (s : State) (h : (s.aunit w).step = none) : ((L.foldl (fun s u => s.closeStep u) s).aunit w).step = none := by
  induction L generalizing s with
  | nil => exact h
  | cons u L ih => rw [List.foldl_cons]; exact ih _ (closeStep_step (.inr h))

theorem closeSteps_closes {L : List Nat} {w : Nat} (hw : w ∈ L) (s : State) : ((L.foldl (fun s u => s.closeStep u) s).aunit w).step = none := by
  induction L generalizing s with
  | nil => exact absurd hw List.not_mem_nil
  | cons u L ih =>
    rw [List.foldl_cons]
    rcases List.mem_cons.mp hw with e | hw
    · exact closeSteps_stays L _ (closeStep_step (.inl e))
    · exact ih hw _

theorem stepDropped_kept (s : State) {u : Nat} (hu : u < 8) : Keeps seqFlds workReg s (s.stepDropped u) := by
  have h1 : Keeps seqFlds workReg s (s.updAunit u (fun x => { x with step := none })) := .of_same (updAunit_same s u _) (by decide) (by decide)
  exact .ite (h1.trans (auOff_kept _ hu)) h1

theorem closeStep_flag {u i : Nat} (hp : p < 8) (hu : u < 8) (h : s.flag (partPage p + 0x10) i = true) :
    (s.closeStep u).flag (partPage p + 0x10) i = true := by
  have h1 := (stepDropped_kept s hu).flagStays hp (workReg_of_partReg (partReg_page hp (by decide))) h
  rw [closeStep_eq]
  unfold State.stepClosed
  split
  · exact drainCheck_flag _ hp h1
  · exact h1

theorem closeSteps_flag {L : List Nat} {i : Nat} (hp : p < 8) (hL : ∀ u ∈ L, u < 8) (s : State) (h : s.flag (partPage p + 0x10) i = true) :
    (L.foldl (fun s u => s.closeStep u) s).flag (partPage p + 0x10) i = true := by
  induction L generalizing s with
  | nil => exact h
  | cons u L ih =>
    rw [List.foldl_cons]
    exact ih (fun w hw => hL w (List.mem_cons_of_mem _ hw)) _ (closeStep_flag hp (hL u List.mem_cons_self) h)

/-- The units of a partition with an open step. -/
def State.openUnits (s : State) (P : Part) : List Nat := P.auList.filter (fun u => ((s.aunits.get {} u).step).isSome)

/-- The cut of DRAIN counted and raised. -/
def State.drainCut (s : State) (p : Nat) : State :=
  (s.count (Reg.PART_CNT_DRAIN_CUT p) (s.openUnits (s.part p)).length).raise (partPage p) 2

/-- The fields that the row of DRAIN_LIMIT may change. -/
def drainFlds : List Fld :=
  [.free, .mem, .regs, .holding, .hevt, .msix, .qs, .items, .egress, .parts, .ue, .out, .ports, .tiles, .gctxs, .seqs, .aunits, .sc, .harts]

theorem exec_drainLimit {p : Fin 8} {u : State} (h : s.drainLimit p = u) : exec (.drainLimit p) s = .next (s.taken u drainFlds) := by subst h; rfl

theorem drainCut_step (s : State) (p u : Nat) : (s.drainCut p).aunit u = s.aunit u :=
  aunit_congr ((raise_aunits _ _ _).trans (wr_aunits _ _ _)) u

theorem drainLimit_cuts {p : Fin 8} (hph : (s.part p).phase = .drain)
    (hnow : (s.part p).phaseFrom + bits (s.inForce (Reg.PART_LIM p)) 23 12 * 1000 ≤ s.now) (ho : s.openUnits (s.part p) ≠ []) :
    ∃ t, exec (.drainLimit p) s = .next t ∧ (∀ u ∈ (s.part p).auList, (t.aunit u).step = none) ∧ t.flag (partPage p + 0x10) 2 = true := by
  have he : s.drainLimit p = (s.openUnits (s.part p)).foldl (fun s u => s.closeStep u) (s.drainCut p) := if_pos ⟨hph, hnow, ho⟩
  refine ⟨_, exec_drainLimit he, fun u hu => ?_, (taken_flag _ _ (by decide) _ _).trans (closeSteps_flag p.isLt (fun u hu => ?_) _
    (flag_raise_self _ _ _ (by decide) (not_msgReg_part p.isLt)))⟩
  · rw [taken_aunit _ _ (by decide)]
    cases hs : (s.aunit u).step with
    | none => exact closeSteps_stays _ _ (by rw [drainCut_step]; exact hs)
    | some x => exact closeSteps_closes (List.mem_filter.mpr ⟨hu, by unfold State.aunit at hs; rw [hs]; rfl⟩) _
  · exact List.mem_range.mp (List.mem_filter.mp (List.mem_filter.mp hu).1).1

/-! ## Tiles that are stopped -/

/-- Tile k has stopped, or stops when what it dispatched has ended. -/
def State.halts (s : State) (k : Nat) : Prop := (s.tile k).stopping = true ∨ s.tileState k = 0

/-- A tile in what a change of its yield request leaves alone. -/
def Tile.unasked (x : Tile) : Tile := { x with yieldReq := false }

/-- What of tile k every step of another tile's stop keeps. -/
structure KeepsTile (k : Nat) (s t : State) : Prop where
  tile : (t.tile k).unasked = (s.tile k).unasked
  sts : t.rd (Reg.TILE_STS k) = s.rd (Reg.TILE_STS k)

namespace KeepsTile

variable {t u : State} {k : Nat}

theorem refl (s : State) : KeepsTile k s s := ⟨rfl, rfl⟩

theorem trans (h : KeepsTile k s t) (g : KeepsTile k t u) : KeepsTile k s u := ⟨g.tile.trans h.tile, g.sts.trans h.sts⟩

theorem tileState (h : KeepsTile k s t) : t.tileState k = s.tileState k := tileState_congr h.sts

theorem halts (h : KeepsTile k s t) (g : s.halts k) : t.halts k := by
  have hst : (t.tile k).stopping = (s.tile k).stopping := (congrArg Tile.stopping h.tile :)
  unfold State.halts
  rw [hst, h.tileState]
  exact g

/-- An operation that touches no tile and not its status. -/
theorem of_tiles (ht : t.tiles = s.tiles) (hs : t.rd (Reg.TILE_STS k) = s.rd (Reg.TILE_STS k)) : KeepsTile k s t :=
  ⟨congrArg Tile.unasked (tile_congr ht k), hs⟩

theorem updTile_ne {j : Nat} (f : Tile → Tile) (h : k ≠ j) : KeepsTile k s (s.updTile j f) :=
  ⟨congrArg Tile.unasked (tile_updTile_ne s f h), rd_updTile s j f _⟩

end KeepsTile

theorem unask_keepsTile (k : Nat) (L : List Nat) (s : State) : KeepsTile k s (L.foldl (fun s t => s.updTile t (fun x => { x with yieldReq := false })) s) := by
  induction L generalizing s with
  | nil => exact .refl s
  | cons j L ih =>
    rw [List.foldl_cons]
    have h1 : KeepsTile k s (s.updTile j (fun x => { x with yieldReq := false })) := by
      by_cases h : k = j
      · subst h; exact ⟨by rw [tile_updTile]; rfl, rd_updTile s k _ _⟩
      · exact .updTile_ne _ h
    exact h1.trans (ih _)

theorem not_msgReg_tileSts {k : Nat} (h : k < 160) : ¬ msgReg (Reg.TILE_STS k) := fun m => not_logReg_tileReg (tileReg_tileSts h) (.inl m)

theorem raise_keepsTile {k : Nat} (hk : k < 160) (s : State) {r : Nat} (b : Nat) (hr : Reg.TILE_STS k ≠ r + 0x10) : KeepsTile k s (s.raise r b) :=
  .of_tiles (raise_tiles _ _ _) (rd_raise _ _ _ (not_msgReg_tileSts hk) hr)

theorem yieldCheck_keepsTile {k : Nat} (hk : k < 160) (s : State) (q : Nat) : KeepsTile k s (s.yieldCheck q) := by
  have hset (t : State) (x : Part) : KeepsTile k t (t.setPart q x) :=
    .of_tiles (setPart_same (f := .tiles) t q x (by decide)) (rd_congr (setPart_same (f := .regs) t q x (by decide)) _)
  unfold State.yieldCheck
  dsimp only
  split
  · split
    · exact ((unask_keepsTile k _ s).trans (hset _ _)).trans (raise_keepsTile hk _ 0 (by unfold Reg.TILE_STS partPage; omega))
    · exact (unask_keepsTile k _ s).trans (hset _ _)
  · exact .refl s

theorem tileStopped_keepsTile {k : Nat} (hk : k < 160) (s : State) (j : Nat) : KeepsTile k s (s.tileStopped j) := by
  unfold State.tileStopped
  split
  · exact yieldCheck_keepsTile hk s _
  · exact .refl s

/-- Tile j with nothing dispatched, stopped. -/
def State.tileHalted (s : State) (j : Nat) : State :=
  let s' := s.updTile j (fun x => { x with stopping := false, yielding := false, yielded := x.yielding })
  if s'.tileState j = 1 then s'.setTileState j 0 else s'

theorem tileSettle_eq (s : State) (j : Nat) : s.tileSettle j = if (s.tile j).stopping ∧ (s.tile j).pend = [] then
    (if (s.tile j).yielding then (s.tileHalted j).raise (tilePage j) 6 else s.tileHalted j).tileStopped j else s := rfl

theorem tileHalted_ne {j k : Nat} (h : k ≠ j) (s : State) : KeepsTile k s (s.tileHalted j) := by
  unfold State.tileHalted
  dsimp only
  split
  · exact (KeepsTile.updTile_ne _ h).trans (.of_tiles (setFld_tiles _ _ _ _ _) (rd_setTileState_ne _ 0 (by unfold Reg.TILE_STS; omega)))
  · exact .updTile_ne _ h

theorem tileHalted_idle {j : Nat} (h : s.tileState j = 1) : (s.tileHalted j).tileState j = 0 := by
  unfold State.tileHalted
  dsimp only
  rw [if_pos (by rw [tileState_updTile]; exact h)]
  exact tileState_setTileState _ j (by decide)

theorem raiseTile_keeps {k : Nat} (hk : k < 160) (s : State) (j : Nat) : KeepsTile k s (s.raise (tilePage j) 6) :=
  raise_keepsTile hk s 6 (by unfold Reg.TILE_STS tilePage; omega)

theorem settled_keeps {k : Nat} (hk : k < 160) (s u : State) (j : Nat) :
    KeepsTile k u ((if (s.tile j).yielding then u.raise (tilePage j) 6 else u).tileStopped j) := by
  split
  · exact (raiseTile_keeps hk u j).trans (tileStopped_keepsTile hk _ j)
  · exact tileStopped_keepsTile hk u j

theorem tileSettle_ne {j k : Nat} (hk : k < 160) (h : k ≠ j) (s : State) : KeepsTile k s (s.tileSettle j) := by
  rw [tileSettle_eq]
  split
  · exact (tileHalted_ne h s).trans (settled_keeps hk s _ j)
  · exact .refl s

/-- The stop of another tile leaves tile k running as it was. -/
theorem tileStop_ne {j k : Nat} (hk : k < 160) (h : k ≠ j) (s : State) : KeepsTile k s (s.tileStop j) := by
  unfold State.tileStop
  dsimp only
  split
  · have h1 : KeepsTile k s (s.setTileState j 0) := .of_tiles (setFld_tiles _ _ _ _ _) (rd_setTileState_ne _ 0 (by unfold Reg.TILE_STS; omega))
    exact h1.trans (.of_tiles (wr_tiles _ _ _) (rd_setTpc_ne _ _ (by unfold Reg.TILE_STS Reg.TILE_PC; omega)))
  · split
    · exact (KeepsTile.updTile_ne _ h).trans (tileSettle_ne hk h _)
    · exact .refl s

/-- A tile in RUN that is stopped halts. -/
theorem tileStop_halts {k : Nat} (hk : k < 160) (h : s.tileState k = 1) : (s.tileStop k).halts k := by
  unfold State.tileStop
  rw [if_neg (by omega), if_pos h, tileSettle_eq]
  split
  · refine (settled_keeps hk _ _ k).halts (.inr ?_)
    exact tileHalted_idle (by rw [tileState_updTile]; exact h)
  · exact .inl (by rw [tile_updTile])

theorem tileStops_stays {L : List Nat} {k : Nat} (hk : k < 160) (hn : k ∉ L) (s : State) : KeepsTile k s (L.foldl (fun s t => s.tileStop t) s) := by
  induction L generalizing s with
  | nil => exact .refl s
  | cons j L ih =>
    rw [List.mem_cons, not_or] at hn
    rw [List.foldl_cons]
    exact (tileStop_ne hk hn.1 s).trans (ih hn.2 _)

/-- Of different tiles in RUN that are stopped each halts. -/
theorem tileStops_halt {L : List Nat} (hn : L.Nodup) {k : Nat} (hk : k ∈ L) (hl : k < 160) (s : State) (h : s.tileState k = 1) :
    (L.foldl (fun s t => s.tileStop t) s).halts k := by
  induction L generalizing s with
  | nil => exact absurd hk List.not_mem_nil
  | cons j L ih =>
    rw [List.nodup_cons] at hn
    rw [List.foldl_cons]
    by_cases e : k = j
    · subst e
      exact (tileStops_stays hl hn.1 _).halts (tileStop_halts hl h)
    · exact ih hn.2 ((List.mem_cons.mp hk).resolve_left e) _ ((tileStop_ne hl e s).tileState.trans h)

/-! ## The events of a partition when its tiles stop -/

theorem partSts_ne_setTile {p : Nat} (k r : Nat) (hr : r % 0x1000 ≠ 0x10) : partPage p + 0x10 ≠ r + 0x1000 * k := by
  unfold partPage; omega

theorem tileHalted_flag {j i : Nat} (h : s.flag (partPage p + 0x10) i = true) : (s.tileHalted j).flag (partPage p + 0x10) i = true := by
  have h1 (f : Tile → Tile) : (s.updTile j f).flag (partPage p + 0x10) i = true := (flag_congr (rd_updTile s j f _) i).trans h
  unfold State.tileHalted
  dsimp only
  split
  · exact (flag_congr (rd_setTileState_ne _ 0 (partSts_ne_setTile j _ (by decide))) i).trans (h1 _)
  · exact h1 _

theorem tileStopped_flag {j i : Nat} (hp : p < 8) (h : s.flag (partPage p + 0x10) i = true) : (s.tileStopped j).flag (partPage p + 0x10) i = true := by
  unfold State.tileStopped
  split
  · exact yieldCheck_flag _ hp h
  · exact h

theorem tileSettle_flag {j i : Nat} (hp : p < 8) (h : s.flag (partPage p + 0x10) i = true) : (s.tileSettle j).flag (partPage p + 0x10) i = true := by
  rw [tileSettle_eq]
  split
  · refine tileStopped_flag hp ?_
    split
    · exact flag_raise_stays _ _ (not_msgReg_part hp) (tileHalted_flag h)
    · exact tileHalted_flag h
  · exact h

theorem tileStop_flag {j i : Nat} (hp : p < 8) (h : s.flag (partPage p + 0x10) i = true) : (s.tileStop j).flag (partPage p + 0x10) i = true := by
  unfold State.tileStop
  dsimp only
  split
  · exact (flag_congr ((rd_setTpc_ne _ _ (partSts_ne_setTile j _ (by decide))).trans (rd_setTileState_ne _ 0 (partSts_ne_setTile j _ (by decide)))) i).trans h
  · split
    · exact tileSettle_flag hp ((flag_congr (rd_updTile s j _ _) i).trans h)
    · exact h

theorem tileStops_flag {i : Nat} (hp : p < 8) (L : List Nat) (s : State) (h : s.flag (partPage p + 0x10) i = true) :
    (L.foldl (fun s t => s.tileStop t) s).flag (partPage p + 0x10) i = true := by
  induction L generalizing s with
  | nil => exact h
  | cons j L ih => rw [List.foldl_cons]; exact ih _ (tileStop_flag hp h)

/-! ## YIELD_LIMIT -/

/-- The tiles of partition p that are still in RUN and not yet known as late. -/
def State.lateTiles (s : State) (P : Part) : List Nat := P.tileList.filter (fun t => s.tileRuns t && !P.late.contains t)

/-- The late tiles noted, counted and raised. -/
def State.yieldCut (s : State) (p : Nat) : State :=
  ((s.setPart p { s.part p with late := (s.part p).late ++ s.lateTiles (s.part p) }).count (Reg.PART_CNT_YIELD_LATE p)
    (s.lateTiles (s.part p)).length).raise (partPage p) 1

theorem exec_yieldLimit {p : Fin 8} {u : State} (h : s.yieldLimit p = u) : exec (.yieldLimit p) s = .next (s.taken u passFlds) := by subst h; rfl

theorem yieldCut_tileState {k : Nat} (hk : k < 160) (s : State) : (s.yieldCut p).tileState k = s.tileState k := by
  have h1 : Reg.TILE_STS k ≠ partPage p + 0x10 := by unfold Reg.TILE_STS partPage; omega
  have h2 : Reg.TILE_STS k ≠ Reg.PART_CNT_YIELD_LATE p := by unfold Reg.TILE_STS Reg.PART_CNT_YIELD_LATE; omega
  exact tileState_congr ((rd_raise _ _ _ (not_msgReg_tileSts hk) h1).trans ((rd_wr_ne _ _ h2).trans (rd_congr (setPart_same (f := .regs) s p _ (by decide)) _)))

theorem tileRuns_iff {k : Nat} : s.tileRuns k = true ↔ s.tileState k = 1 := beq_iff_eq

theorem yieldLimit_stops {p : Fin 8} (hph : (s.part p).phase = .yield)
    (hnow : (s.part p).phaseFrom + bits (s.inForce (Reg.PART_LIM p)) 11 0 * 1000 ≤ s.now) (hl : s.lateTiles (s.part p) ≠ []) :
    ∃ t, exec (.yieldLimit p) s = .next t ∧ t.flag (partPage p + 0x10) 1 = true ∧
      ∀ k ∈ s.lateTiles (s.part p), (t.tile k).stopping = true ∨ t.tileState k = 0 := by
  have he : s.yieldLimit p = (s.lateTiles (s.part p)).foldl (fun s t => s.tileStop t) (s.yieldCut p) := if_pos ⟨hph, hnow, hl⟩
  refine ⟨_, exec_yieldLimit he, (taken_flag _ _ (by decide) _ _).trans (tileStops_flag p.isLt _ _
    (flag_raise_self _ _ _ (by decide) (not_msgReg_part p.isLt))), fun k hk => ?_⟩
  obtain ⟨hmem, hruns⟩ := List.mem_filter.mp hk
  have hlt := mem_tileList hmem
  rw [Bool.and_eq_true] at hruns
  rw [taken_tile _ _ (by decide), taken_tileState _ _ (by decide)]
  exact tileStops_halt ((List.nodup_range.filter _).filter _) hk hlt _ ((yieldCut_tileState hlt s).trans (tileRuns_iff.mp hruns.1))

end Sys2Proof.Machine
end

section
/-! SUPPORT. TRANSFER and ADAPT (R357 to R360), and the obligation on slices, switches and passes. -/
namespace Sys2Proof.Machine

variable {s t u : State} {p v : Nat}

theorem vi_congr (h : t.vis = s.vis) (p v : Nat) : t.vi p v = s.vi p v := by unfold State.vi; rw [h]

theorem vi_updVi (s : State) (p v : Nat) (f : Vi → Vi) : (s.updVi p v f).vi p v = f (s.vi p v) := Tab.get_set_same _ _ _ _

theorem vi_updVi_ne (s : State) {p v q w : Nat} (f : Vi → Vi) (h : 16 * q + w ≠ 16 * p + v) : (s.updVi p v f).vi q w = s.vi q w :=
  Tab.get_set_ne _ _ _ h

theorem taken_vi (s t : State) {w : List Fld} (h : .vis ∈ w) (p v : Nat) : (s.taken t w).vi p v = t.vi p v :=
  vi_congr (by rw [taken_vis, if_pos h]) p v

/-! ## Placement of what waits (R348) -/

/-- The fields that serving the placement queue may change. -/
def placeFlds : List Fld := [.regs, .holding, .msix, .hevt, .out, .vis, .tiles, .items]

theorem workReg_tile {k r : Nat} (hk : k < 160) (hr : 0x100000 ≤ r ∧ r < 0x101000) (h1 : r ≠ 0x100044) (h2 : r ≠ 0x100048) : workReg (r + 0x1000 * k) = true := by
  unfold workReg tileReg partReg
  simp only [Bool.not_eq_true', Bool.or_eq_false_iff, Bool.and_eq_false_iff, decide_eq_false_iff_not, beq_eq_false_iff_ne]
  omega

theorem queuePort_kept (s : State) {k : Nat} (hk : k < 160) (b : Bytes) : Keeps placeFlds workReg s (s.queuePort k b) := by
  refine .ite ?_ ?_
  · exact (Keeps.of_same (updTile_same s k _) (by decide) (by decide)).trans (.of_same (noteHome_same _ k _) (by decide) (by decide))
  · have h1 : workReg (tilePage k + 0x10) = true := by
      rw [show tilePage k + 0x10 = 0x100010 + 0x1000 * k by unfold tilePage; omega]
      exact workReg_tile hk (by decide) (by decide) (by decide)
    exact ((Keeps.refl s).bump (by decide) (workReg_tile hk (by decide) (by decide) (by decide))).raise (by decide) h1

/-- The next waiting descriptor of VI v goes to tile k. -/
def State.placeNext (s : State) (p v k : Nat) : State :=
  match (s.vi p v).placeQ with
  | [] => s
  | d :: rest => (s.updVi p v (fun x => { x with placeQ := rest })).queuePort k (toLe 64 d.toNat)

theorem placeNext_kept (s : State) (p v : Nat) {k : Nat} (hk : k < 160) : Keeps placeFlds workReg s (s.placeNext p v k) := by
  unfold State.placeNext
  split
  · exact .refl s
  · exact (Keeps.of_same (updVi_same s p v _) (by decide) (by decide)).trans (queuePort_kept _ hk _)

theorem queuePort_same {f : Fld} (s : State) (k : Nat) (b : Bytes) (h : f ∉ [Fld.tiles, .items, .regs, .holding, .msix, .hevt, .out]) : f.same s (s.queuePort k b) :=
  Fld.same_ite (Fld.same_trans (updTile_same _ _ _ (notMem_part h (by decide))) (noteHome_same _ _ _ (notMem_part h (by decide))))
    (Fld.same_trans (wr_same _ _ _ (notMem_part h (by decide))) (raise_same _ _ _ (notMem_part h (by decide))))

/-- Placement leaves every VI in its state. -/
theorem placeNext_vi (s : State) (p v k q w : Nat) : ((s.placeNext p v k).vi q w).state = (s.vi q w).state := by
  unfold State.placeNext
  split
  · rfl
  · rw [vi_congr (queuePort_same (f := .vis) _ _ _ (by decide))]
    by_cases h : 16 * q + w = 16 * p + v
    · have he (x : State) : x.vi q w = x.vi p v := by unfold State.vi; rw [h]
      rw [he, he, vi_updVi]
    · rw [vi_updVi_ne _ _ h]

theorem servePlace_eq (h : (s.part p).phase = .run) : s.servePlace p =
    ((s.part p).tileList.filter s.tileFree).foldl (fun t k => t.placeNext p (s.part p).runVi k) s := if_neg (by rw [h]; decide)

theorem servePlace_waits (h : (s.part p).phase ≠ .run) : s.servePlace p = s := if_pos h

theorem servePlace_kept (s : State) (p : Nat) : Keeps placeFlds workReg s (s.servePlace p) := by
  by_cases h : (s.part p).phase = .run
  · rw [servePlace_eq h]
    exact .foldl_mem _ _ (fun t k hk => placeNext_kept t p _ (mem_tileList (List.mem_filter.mp hk).1)) s
  · rw [servePlace_waits h]; exact .refl s

theorem servePlace_vi (s : State) (p q w : Nat) : ((s.servePlace p).vi q w).state = (s.vi q w).state := by
  by_cases h : (s.part p).phase = .run
  · rw [servePlace_eq h]
    exact List.foldlRecOn (motive := fun t : State => (t.vi q w).state = (s.vi q w).state) _ _ rfl fun t ht k _ => (placeNext_vi t p _ k q w).trans ht
  · rw [servePlace_waits h]

/-! ## RUN begins (R355, R360) -/

/-- The tiles of a list run again. -/
def State.resumed (s : State) (L : List Nat) : State :=
  L.foldl (fun s t => (s.setTileState t 1).updTile t (fun x => { x with yielded := false })) s

/-- A partition as its RUN begins. -/
def Part.running (x : Part) (now : Nat) : Part :=
  { x with phase := .run, outVi := none, pass := false, resume := [], late := [], adapted := now }

/-- The tiles restarted and the partition in RUN. -/
def State.runs (s : State) (p : Nat) : State :=
  (s.resumed (s.part p).resume).setPart p ((s.part p).running (s.resumed (s.part p).resume).now)

/-- A pass ends with what was left of the slice. -/
def State.passEnds (s : State) (p : Nat) : State :=
  let s' := s.runs p
  (s'.updPart p (fun P => { P with sliceFrom := s'.now + P.left - s'.quantum p P.runVi, sliceEnd := s'.now + P.left, due := false })).count
    (Reg.PART_CNT_SWITCH_US p) ((s'.now - (s.part p).switchFrom) / 1000)

theorem enterRun_pass (hp : (s.part p).pass = true) (hd : (s.part p).due = false) : s.enterRun p = (s.passEnds p).servePlace p := by
  unfold State.enterRun
  dsimp only
  rw [if_pos hp, if_neg (by rw [hd]; decide)]
  rfl

theorem enterRun_slice (hp : (s.part p).pass = false) : s.enterRun p = (((s.runs p).newQuantum p).servePlace p).handAll := by
  unfold State.enterRun
  dsimp only
  rw [if_neg (by rw [hp]; decide)]
  rfl

/-! ## Saving and loading a VI (R357, R358) -/

theorem tryAll_same {α : Type} {f : Fld} {g : State → α → Option State} (hg : ∀ s e u, g s e = some u → f.same s u) (l : List α) (s u : State)
    (h : State.tryAll g l s = some u) : f.same s u := by
  induction l generalizing s with
  | nil => rw [← Option.some.inj h]; exact Fld.same_refl f s
  | cons e l ih =>
    unfold State.tryAll at h
    split at h
    · exact nomatch h
    next w hw => exact Fld.same_trans (hg s e w hw) (ih w h)

/-- The fields that saving and loading bytes may change. -/
def moveFlds : List Fld := .free :: stFlds

theorem moveMem_same {f : Fld} (s : State) (a b n : Nat) {u : State} (hf : f ∉ moveFlds) (h : s.moveMem a b n = some u) : f.same s u := by
  unfold State.moveMem at h
  split at h
  · rw [← Option.some.inj h]; exact stUnit_same _ _ _ (notMem_part hf (by decide))
  · exact nomatch h

theorem privateBytes_same {f : Fld} (s : State) (a n : Nat) {u : State} (hf : f ∉ moveFlds) (h : s.privateBytes a n = some u) : f.same s u := by
  unfold State.privateBytes at h
  split at h
  · rw [← Option.some.inj h]
    have hfree : f.same s { s with free := s.free + n } := by cases f <;> first | rfl | simp [moveFlds] at hf
    exact Fld.same_trans hfree (stUnit_same _ _ _ (notMem_part hf (by decide)))
  · exact nomatch h

theorem saveTile_same {f : Fld} (s : State) (p o r t : Nat) (late : Bool) {u : State} (hf : f ∉ .vsaved :: moveFlds)
    (h : s.saveTile p o r t late = some u) : f.same s u := by
  have hm : f ∉ moveFlds := fun e => hf (List.mem_cons_of_mem _ e)
  have hdef : @State.saveTile = @State.saveTile := rfl
  conv_rhs at hdef => delta State.saveTile
  rw [hdef] at h
  dsimp only at h
  split at h
  · exact nomatch h
  next w hw =>
    obtain ⟨x, hx, rfl⟩ := Option.map_eq_some_iff.mp h
    have h1 := Fld.same_trans (Fld.same_ite (wr_same (f := f) s _ _ (notMem_part hm (by decide))) (Fld.same_refl f s)) (privateBytes_same _ _ _ hm hw)
    have h2 := tryAll_same (f := f) (fun s e u he => moveMem_same s _ _ _ hm he) _ w x hx
    refine Fld.same_trans (Fld.same_trans h1 h2) ?_
    cases f <;> first | rfl | simp at hf

theorem saveUnit_same {f : Fld} (s : State) (p o k w : Nat) {u : State} (hf : f ∉ .vsaved :: .seqs :: moveFlds) (h : s.saveUnit p o k w = some u) :
    f.same s u := by
  unfold State.saveUnit at h
  obtain ⟨x, hx, rfl⟩ := Option.map_eq_some_iff.mp h
  refine Fld.same_trans (privateBytes_same _ _ _ (fun e => hf (List.mem_cons_of_mem _ (List.mem_cons_of_mem _ e))) hx) ?_
  cases f <;> first | rfl | simp at hf

theorem saveOut_parts {o : Nat} (h : s.saveOut p o = some u) : u.parts = s.parts := by
  unfold State.saveOut at h
  dsimp only at h
  split at h
  · exact nomatch h
  next a ha =>
    split at h
    · exact nomatch h
    next b hb =>
      obtain ⟨c, hc, rfl⟩ := Option.map_eq_some_iff.mp h
      have h1 := tryAll_same (f := .parts) (fun s e u he => saveTile_same s _ _ _ _ _ (by decide) he) _ _ _ ha
      have h2 := tryAll_same (f := .parts) (fun s e u he => saveUnit_same s _ _ _ _ (by decide) he) _ _ _ hb
      have h3 := tryAll_same (f := .parts) (fun s e u he => moveMem_same s _ _ _ (by decide) he) _ _ _ hc
      exact (updVi_same (f := .parts) c p o _ (by decide)).trans (h3.trans (h2.trans h1))

/-- A segment is loaded: copied, or zeroed. -/
theorem loadSeg_parts (g : CSeg) (a : Nat) (h : (if g.kind = 1 then (if s.canWrite 0 a g.bytes = .ok then some ((s.zeroMem a g.bytes).clearUe a g.bytes) else none)
    else s.moveMem g.src a g.bytes) = some u) : u.parts = s.parts := by
  split at h
  · split at h
    · rw [← Option.some.inj h]
      exact (clearUe_same (f := .parts) _ _ _ (by decide)).trans (zeroMem_same (f := .parts) s _ _ (by decide))
    · exact nomatch h
  · exact moveMem_same (f := .parts) s _ _ _ (by decide) h

/-- The tiles and units of a partition made fresh. -/
theorem freshAll_parts (s : State) (P : Part) : (P.auList.foldl (fun s u => s.unitFresh u) (P.tileList.foldl (fun s t => s.tileFresh t) s)).parts = s.parts :=
  (foldl_same (f := .parts) _ (fun t k => (unitFresh_keeps t k).same .parts (by decide)) _ _).trans
    (foldl_same (f := .parts) _ (fun t k => (tileFresh_keeps t k).same .parts (by decide)) _ s)

/-- A saved unit loaded into unit w. -/
def State.unitLoaded (s : State) (w : Nat) (c : SavedUnit) : State :=
  let s := c.sems.zipIdx.foldl (fun (s : State) (e : Word × Nat) => s.wr (Reg.AU_SEM_01 w + 4 * e.2) e.1) (s.setAunit w c.x)
  { s with seqs := c.seqs.foldl (fun (m : Tab Sequence) (e : Nat × Sequence) => m.insert e.1 e.2) s.seqs }

theorem unitLoaded_parts (s : State) (w : Nat) (c : SavedUnit) : (s.unitLoaded w c).parts = s.parts :=
  (foldl_same (f := .parts) _ (fun t (e : Word × Nat) => wr_same t _ _ (by decide)) _ (s.setAunit w c.x)).trans (Eq.refl s.parts)

theorem part_setResume {r : List Nat} {x : Part} (h : s.part p = x) : (s.setPart p { s.part p with resume := r }).part p = { x with resume := r } := by
  rw [part_setPart, h]

theorem loadIn_part {i : Nat} (h : s.loadIn p i = some u) : ∃ r, u.part p = { s.part p with resume := r } := by
  have hdef : @State.loadIn = @State.loadIn := rfl
  conv_rhs at hdef => delta State.loadIn
  rw [hdef] at h
  dsimp only at h
  split at h
  · exact nomatch h
  next a ha =>
    have h0 := tryAll_same (f := .parts) (fun s e u he => loadSeg_parts e _ he) _ _ _ ha
    split at h
    · refine ⟨[], ?_⟩
      rw [← Option.some.inj h, part_setPart, part_congr (h0.trans (freshAll_parts s (s.part p)))]
    · obtain ⟨c, hc, rfl⟩ := Option.map_eq_some_iff.mp h
      have h1 : c.parts = a.parts := tryAll_same (f := .parts) (fun s e u he => by
        split at he
        · exact nomatch he
        · exact (tryAll_same (f := .parts) (fun s e u he => moveMem_same s _ _ _ (by decide) he) _ _ _ he).trans
            ((updTile_same (f := .parts) _ _ _ (by decide)).trans (foldl_same (f := .parts) _ (fun t e => wr_same t _ _ (by decide)) _ s))) _ _ _ hc
      have h2 (L : List SavedUnit) : (L.foldl (fun t e => t.unitLoaded (((s.part p).auList.drop e.unit).headD 0) e) c).parts = c.parts :=
        foldl_same (f := .parts) _ (fun t e => unitLoaded_parts t _ e) L c
      have h3 (L : List SavedUnit) := part_congr ((h2 L).trans (h1.trans (h0.trans (freshAll_parts s (s.part p))))) p
      exact ⟨_, part_setResume (h3 _)⟩

/-! ## What the beginning of RUN makes of a state -/

/-- The fields that placing and handing may change. -/
def runFlds : List Fld := .vis :: .handing :: handFlds

/-- Partition p comes to RUN between two states. -/
structure EntersRun (p : Nat) (s t : State) : Prop where
  phase : (t.part p).phase = .run
  runVi : (t.part p).runVi = (s.part p).runVi
  adapted : (t.part p).adapted = s.now
  resume : (t.part p).resume = []
  left : (s.part p).pass = true → (t.part p).sliceEnd = s.now + (s.part p).left
  tiles : ∀ k ∈ (s.part p).resume, k < 160 → t.tileState k = 1
  flags : ∀ i, s.flag (partPage p + 0x10) i = true → t.flag (partPage p + 0x10) i = true
  vis : ∀ q w, (t.vi q w).state = (s.vi q w).state

/-- Placing and handing after it leave that so. -/
theorem EntersRun.afterwards (hp : p < 8) (h : EntersRun p s t) (hk : Keeps runFlds workReg t u) (hv : ∀ q w, (u.vi q w).state = (t.vi q w).state) :
    EntersRun p s u := by
  have hpart : u.part p = t.part p := part_congr (hk.same .parts (by decide)) p
  obtain ⟨h1, h2, h3, h4, h5, h6, h7, h8⟩ := h
  refine ⟨by rw [hpart, h1], by rw [hpart, h2], by rw [hpart, h3], by rw [hpart, h4], fun e => by rw [hpart, h5 e], fun k hm hl => ?_, fun i hf => ?_,
    fun q w => (hv q w).trans (h8 q w)⟩
  · exact (tileState_congr (hk.rd _ (not_logReg_tileReg (tileReg_tileSts hl)) (workReg_of_tileReg (tileReg_tileSts hl)))).trans (h6 k hm hl)
  · exact hk.flagStays hp (workReg_of_partReg (partReg_page hp (by decide))) (h7 i hf)

theorem resumed_keeps (L : List Nat) (s : State) : Keeps [.regs, .tiles] (fun a => a % 0x1000 == 0x48) s (s.resumed L) :=
  .foldl _ (fun t k => ((Keeps.refl t).setFld (by decide) (by rw [beq_iff_eq]; unfold Reg.TILE_STS; omega)).trans
    (.of_same (updTile_same _ k _) (by decide) (by decide))) L s

/-- A tile of the list runs afterwards, and a tile that runs goes on running. -/
theorem resumed_runs {L : List Nat} {k : Nat} (s : State) (h : k ∈ L ∨ s.tileState k = 1) : (s.resumed L).tileState k = 1 := by
  induction L generalizing s with
  | nil => exact h.resolve_left List.not_mem_nil
  | cons j L ih =>
    unfold State.resumed
    rw [List.foldl_cons]
    refine ih _ ?_
    rw [tileState_updTile]
    by_cases e : k = j
    · subst e; exact .inr (tileState_setTileState s k (by decide))
    · rw [tileState_congr (rd_setTileState_ne s 1 (by unfold Reg.TILE_STS; omega))]
      exact h.imp_left fun hm => (List.mem_cons.mp hm).resolve_left e

theorem now_resumed (L : List Nat) (s : State) : (s.resumed L).now = s.now := (resumed_keeps L s).now (by decide)

theorem part_runs (s : State) (p : Nat) : (s.runs p).part p = (s.part p).running s.now := by
  unfold State.runs
  rw [part_setPart, now_resumed]

theorem rd_runs (s : State) (p a : Nat) : (s.runs p).rd a = (s.resumed (s.part p).resume).rd a :=
  rd_congr (setPart_same (f := .regs) _ p _ (by decide)) a

theorem runs_flag {i : Nat} (hp : p < 8) (h : s.flag (partPage p + 0x10) i = true) : (s.runs p).flag (partPage p + 0x10) i = true :=
  (flag_congr (rd_runs s p _) i).trans ((resumed_keeps _ s).flagStays hp (by rw [beq_eq_false_iff_ne]; unfold partPage; omega) h)

theorem vi_runs (s : State) (p q w : Nat) : (s.runs p).vi q w = s.vi q w :=
  vi_congr ((setPart_same (f := .vis) _ p _ (by decide)).trans ((resumed_keeps _ s).same .vis (by decide))) q w

theorem tileState_runs {k : Nat} (h : k ∈ (s.part p).resume) : (s.runs p).tileState k = 1 :=
  (tileState_congr (rd_runs s p _)).trans (resumed_runs s (.inl h))

theorem part_count (s : State) (a n k : Nat) : (s.count a n).part k = s.part k := part_congr (wr_parts s a _) k

/-- The partition of a pass that ended, with what was left of its slice. -/
theorem part_passEnds (s : State) (p : Nat) : ∃ n, (s.passEnds p).part p =
    { (s.part p).running s.now with sliceFrom := n, sliceEnd := s.now + (s.part p).left, due := false } := by
  have hnow : (s.runs p).now = s.now := now_resumed (s.part p).resume s
  refine ⟨s.now + (s.part p).left - (s.runs p).quantum p (s.part p).runVi, ?_⟩
  unfold State.passEnds
  dsimp only
  rw [part_count, part_updPart, part_runs, hnow]
  rfl

theorem passEnds_enters (hp : p < 8) (s : State) : EntersRun p s (s.passEnds p) := by
  obtain ⟨n, hpart⟩ := part_passEnds s p
  have hrd {a : Nat} (h : a ≠ Reg.PART_CNT_SWITCH_US p) : (s.passEnds p).rd a = (s.runs p).rd a :=
    (rd_wr_ne _ _ h).trans (rd_congr (updPart_same (f := .regs) _ p _ (by decide)) a)
  refine ⟨by rw [hpart]; rfl, by rw [hpart]; rfl, by rw [hpart]; rfl, by rw [hpart]; rfl, fun _ => by rw [hpart], fun k hk _ => ?_, fun i hf => ?_, fun q w => ?_⟩
  · exact (tileState_congr (hrd (by unfold Reg.TILE_STS Reg.PART_CNT_SWITCH_US; omega))).trans (tileState_runs hk)
  · exact (flag_congr (hrd (by unfold partPage Reg.PART_CNT_SWITCH_US; omega)) i).trans (runs_flag hp hf)
  · exact congrArg Vi.state ((vi_congr ((wr_same (f := .vis) _ _ _ (by decide)).trans (updPart_same (f := .vis) _ p _ (by decide))) q w).trans (vi_runs s p q w))

theorem newQuantum_enters (hp : p < 8) (h : (s.part p).pass = false) : EntersRun p s ((s.runs p).newQuantum p) := by
  have hpart := part_newQuantum (s.runs p) p
  rw [part_runs] at hpart
  have hrd (a : Nat) : ((s.runs p).newQuantum p).rd a = (s.runs p).rd a := rd_congr (Eq.refl (s.runs p).regs) a
  refine ⟨by rw [hpart]; rfl, by rw [hpart]; rfl, by rw [hpart]; rfl, by rw [hpart]; rfl, fun e => absurd (h.symm.trans e) (by decide), fun k hk _ => ?_,
    fun i hf => ?_, fun q w => ?_⟩
  · exact (tileState_congr (hrd _)).trans (tileState_runs hk)
  · exact (flag_congr (hrd _) i).trans (runs_flag hp hf)
  · exact congrArg Vi.state ((vi_congr (Eq.refl (s.runs p).vis) q w).trans (vi_runs s p q w))

/-- RUN begins with the tiles restarted, and with what was left of the slice after a pass. -/
theorem enterRun_enters (hp : p < 8) (hd : (s.part p).pass = true → (s.part p).due = false) : EntersRun p s (s.enterRun p) := by
  cases hpass : (s.part p).pass with
  | true =>
    rw [enterRun_pass hpass (hd hpass)]
    exact (passEnds_enters hp s).afterwards hp ((servePlace_kept _ p).mono (by decide) (fun _ h => h)) fun q w => servePlace_vi _ p q w
  | false =>
    rw [enterRun_slice hpass]
    have hplace := (newQuantum_enters hp hpass).afterwards hp ((servePlace_kept _ p).mono (by decide) (fun _ h => h)) fun q w => servePlace_vi _ p q w
    exact hplace.afterwards hp ((handAll_kept _).mono (by decide) (fun _ h => h)) fun q w =>
      congrArg Vi.state (vi_congr ((handAll_kept _).same .vis (by decide)) q w)

/-! ## ADAPT_RELEASE -/

/-- The fields that the row of ADAPT_RELEASE may change. -/
def releaseFlds : List Fld :=
  [.free, .mem, .regs, .held, .holding, .hevt, .msix, .qs, .items, .egress, .parts, .vis, .ue, .out, .ports,
   .tiles, .batchHeld, .arena, .handing, .gctxs, .sc, .harts]

theorem exec_adaptRelease {p : Fin 8} {v : Word} {u : State} (h : s.adaptRelease p (v ||| 1) = u) : exec (.adaptRelease p v) s = .next (s.taken u releaseFlds) := by
  subst h; rfl

theorem bit_or_one (v : Word) : bit (v ||| 1) 0 = true := by rw [bit_or, show bit (1 : Word) 0 = true from rfl, Bool.or_true]

theorem adaptRelease_runs {p : Fin 8} (hph : (s.part p).phase = .adapt) (hd : (s.part p).due = false) (v : Word) :
    ∃ t, exec (.adaptRelease p v) s = .next t ∧ (t.part p).phase = .run ∧ (t.part p).runVi = (s.part p).runVi ∧ (t.part p).adapted = s.now ∧
      (t.part p).resume = [] ∧ (∀ k ∈ (s.part p).resume, k < 160 → t.tileState k = 1) ∧
      ((s.part p).pass = true → (t.part p).sliceEnd = s.now + (s.part p).left) := by
  have he : s.adaptRelease p (v ||| 1) = s.enterRun p := if_pos ⟨hph, bit_or_one v⟩
  obtain ⟨h1, h2, h3, h4, h5, h6, -, -⟩ := enterRun_enters (s := s) p.isLt fun _ => hd
  refine ⟨_, exec_adaptRelease he, ?_⟩
  rw [taken_part _ _ (by decide)]
  exact ⟨h1, h2, h3, h4, fun k hk hl => (taken_tileState _ _ (by decide) k).trans (h6 k hk hl), h5⟩

/-! ## TRANSFER_DONE -/

/-- The fields that the row of TRANSFER_DONE may change. -/
def transferFlds : List Fld :=
  [.free, .mem, .regs, .held, .holding, .hevt, .msix, .qs, .items, .egress, .parts, .vis, .ue, .out, .ports,
   .tiles, .batchHeld, .arena, .handing, .gctxs, .seqs, .aunits, .sc, .harts, .vsaved]

theorem exec_transferDone {p : Fin 8} {u : State} (h : s.transferDone p = u) : exec (.transferDone p) s = .next (s.taken u transferFlds) := by
  subst h; rfl

/-- The outgoing VI of partition p, if there is one, was saved and its slice ended. -/
def State.savesOut (s : State) (p : Nat) (u : State) : Prop :=
  ((s.part p).outVi = none ∧ u = s) ∨ ∃ o x, (s.part p).outVi = some o ∧ s.saveOut p o = some x ∧ u = x.endSlice p o

/-- From the state in which it was loaded: the incoming VI runs, and its partition comes to ADAPT. -/
def State.broughtIn (w : State) (p : Nat) (P : Part) : State :=
  let w := w.updVi p P.runVi (fun x => { x with state := .running })
  let w := if P.outVi.isSome then w.count (Reg.PART_CNT_SWITCH_US p) ((w.now - P.switchFrom) / 1000) else w
  (w.updPart p (fun P => { P with phase := .adapt, outVi := none })).raise (partPage p) 0

theorem transferDone_eq {w : State} (hph : (s.part p).phase = .transfer) (hu : s.savesOut p u) (hidle : (u.vi p (s.part p).runVi).state = .idle)
    (hw : u.loadIn p (s.part p).runVi = some w) : s.transferDone p =
      if (s.part p).adapts then w.broughtIn p (s.part p) else (w.broughtIn p (s.part p)).enterRun p := by
  have hdef : @State.transferDone = @State.transferDone := rfl
  conv_rhs at hdef => delta State.transferDone
  rw [hdef]
  unfold State.broughtIn
  rcases hu with ⟨ho, rfl⟩ | ⟨o, x, ho, hx, rfl⟩
  · simp only [hph, ho, hidle, hw, ne_eq, not_true_eq_false, if_false]
  · simp only [hph, ho, hx, hidle, hw, ne_eq, not_true_eq_false, if_false, Option.map_some]

theorem part_broughtIn (w : State) (p : Nat) (P : Part) : (w.broughtIn p P).part p = { w.part p with phase := .adapt, outVi := none } := by
  unfold State.broughtIn
  dsimp only
  rw [part_congr (raise_parts _ _ _), part_updPart]
  split
  · rw [part_count]; exact congrArg (fun x : Part => { x with phase := .adapt, outVi := none }) (part_congr (updVi_same (f := .parts) w p _ _ (by decide)) p)
  · exact congrArg (fun x : Part => { x with phase := .adapt, outVi := none }) (part_congr (updVi_same (f := .parts) w p _ _ (by decide)) p)

theorem vi_count (s : State) (a n p v : Nat) : (s.count a n).vi p v = s.vi p v := vi_congr (wr_same (f := .vis) s a _ (by decide)) p v

theorem vi_broughtIn (w : State) (p : Nat) (P : Part) : ((w.broughtIn p P).vi p P.runVi).state = .running := by
  unfold State.broughtIn
  dsimp only
  rw [vi_congr (raise_vis _ _ _), vi_congr (updPart_same (f := .vis) _ p _ (by decide))]
  split
  · rw [vi_count, vi_updVi]
  · rw [vi_updVi]

theorem broughtIn_flag {w : State} (hp : p < 8) (P : Part) : (w.broughtIn p P).flag (partPage p + 0x10) 0 = true :=
  flag_raise_self _ _ _ (by decide) (not_msgReg_part hp)

/-- The saving of the outgoing VI changes its partition in the number of its slices alone. -/
theorem savesOut_part (h : s.savesOut p u) : ∃ n, u.part p = { s.part p with sliceNo := n } := by
  rcases h with ⟨-, rfl⟩ | ⟨o, x, -, hx, rfl⟩
  · exact ⟨_, rfl⟩
  · refine ⟨(x.part p).sliceNo + 1, ?_⟩
    have hx' := part_congr (saveOut_parts hx) p
    have he : (x.endSlice p o).part p = { x.part p with sliceNo := (x.part p).sliceNo + 1 } :=
      (part_congr (updVi_same (f := .parts) (x.updPart p (fun P => { P with sliceNo := (x.part p).sliceNo + 1 })) p o _ (by decide)) p).trans (part_updPart x p _)
    rw [he, hx']

theorem transferDone_loads {p : Fin 8} (hph : (s.part p).phase = .transfer) (hpass : (s.part p).pass = false) (hu : s.savesOut p u)
    (hidle : (u.vi p (s.part p).runVi).state = .idle) (hl : (u.loadIn p (s.part p).runVi).isSome = true) :
    ∃ t, exec (.transferDone p) s = .next t ∧ (t.vi p (s.part p).runVi).state = .running ∧ (t.part p).runVi = (s.part p).runVi ∧
      (t.part p).phase = (if (s.part p).adapts then .adapt else .run) ∧ t.flag (partPage p + 0x10) 0 = true := by
  obtain ⟨w, hw⟩ := Option.isSome_iff_exists.mp hl
  have he := transferDone_eq hph hu hidle hw
  obtain ⟨n, hn⟩ := savesOut_part hu
  obtain ⟨r, hr⟩ := loadIn_part hw
  have hpart := part_broughtIn w p (s.part p)
  rw [hr, hn] at hpart
  have hvi := vi_broughtIn w p (s.part p)
  have hflag := broughtIn_flag (w := w) p.isLt (s.part p)
  cases had : (s.part p).adapts with
  | true =>
    rw [had, if_pos rfl] at he
    refine ⟨_, exec_transferDone he, ?_, ?_, ?_, (taken_flag _ _ (by decide) _ _).trans hflag⟩
    · rw [taken_vi _ _ (by decide)]; exact hvi
    · rw [taken_part _ _ (by decide), hpart]
    · rw [taken_part _ _ (by decide), hpart]; rfl
  | false =>
    rw [had, if_neg (by decide)] at he
    obtain ⟨h1, h2, -, -, -, -, h7, h8⟩ := enterRun_enters (s := w.broughtIn p (s.part p)) p.isLt fun e => by
      rw [hpart] at e; exact absurd (hpass.symm.trans e) (by decide)
    refine ⟨_, exec_transferDone he, ?_, ?_, ?_, (taken_flag _ _ (by decide) _ _).trans (h7 0 hflag)⟩
    · rw [taken_vi _ _ (by decide), h8]; exact hvi
    · rw [taken_part _ _ (by decide), h2, hpart]
    · rw [taken_part _ _ (by decide), h1]; rfl

/-! ## The obligation -/

/-- Settles O46: each row through what its operation leaves of the partition, and the events that stay raised. -/
theorem slicesSwitchesAndPasses : Obligations.SlicesSwitchesAndPasses := by
  unfold Obligations.SlicesSwitchesAndPasses
  intro p s P r
  refine ⟨fun ha => ⟨fun hph hd => ⟨quantumExpiry_stays ha hph hd, fun v hb hu => quantumExpiry_switches ha hph hd hb hu⟩, quantumExpiry_waits ha,
    fun hph v hb => quantumExpiry_brings ha hph hb⟩, drainLimit_cuts, yieldLimit_stops, fun hph hpass u hu hidle hl => ?_,
    fun hph hd v => adaptRelease_runs hph hd v, adaptPass_starts⟩
  refine transferDone_loads hph hpass ?_ hidle hl
  cases ho : P.outVi with
  | none => simp only [ho] at hu; exact .inl ⟨ho, (Option.some.inj hu).symm⟩
  | some o =>
    simp only [ho] at hu
    obtain ⟨x, hx, rfl⟩ := Option.map_eq_some_iff.mp hu
    exact .inr ⟨o, x, ho, hx, rfl⟩

end Sys2Proof.Machine
end
